-- ==== Sys2Proof/Word.lean ====
section
/-!
DEFINITION. The word types, the sparse map every register file and memory is held in, and the shape of a register
field and of a row of the register table ("Registers" and "Register access codes" of spec/00_scope.md).
-/

namespace Sys2Proof

/-- A control register: all control registers are 64 bits ("Registers", 00_scope.md). -/
abbrev Word := BitVec 64

/-- One byte of memory. -/
abbrev Byte := BitVec 8

/-- A 32-bit word of a square: the sequencers are RV32IMC (R10). -/
abbrev Word32 := BitVec 32

/-- A sparse table by a natural key, in one canonical form: keys strictly rising, no entry equal to what an
unlisted key reads as. -/
abbrev Map (α : Type) := List (Nat × α)

/-- A field of a control register: the register's address, the field's lowest bit and its width. -/
structure Fld where
  reg : Nat
  lo : Nat
  w : Nat
  deriving DecidableEq, Repr

/-- The access codes of the register tables ("Register access codes", 00_scope.md). -/
inductive Acc where
  | rw | ro | wo | w1c | w1s | rc | rwl
  deriving DecidableEq, Repr

/-- A field as a row of the register table: lowest bit, width, access code, reset value. -/
structure FldSpec where
  lo : Nat
  w : Nat
  acc : Acc
  reset : Nat
  deriving DecidableEq, Repr

/-- A register as a row of the register table: offset in its block, and for an indexed register the count and the
stride of its two indices. -/
structure RegSpec where
  off : Nat
  n1 : Nat
  s1 : Nat
  n2 : Nat
  s2 : Nat
  flds : List FldSpec
  deriving DecidableEq, Repr

/-- A block of the CSR region: base address, number of instances, stride between them, its registers. -/
structure BlockSpec where
  base : Nat
  count : Nat
  stride : Nat
  regs : List RegSpec
  deriving DecidableEq, Repr

end Sys2Proof
end

