-- ==== Sys2Proof/Syntax.lean ====
section
/-!
DEFINITION. The commands of the block: one constructor of `Instr` per row of spec/opcode_table.json, with the operands
that come from outside the block (who writes, what a port receives, what a measurement reads). Everything else a
command works on is in the machine's state.
-/

namespace Sys2Proof

/-- Who makes a register or memory access (R10, R14, R158): the PCIe host, the castle, the mailbox sequencer, a host
core, a square's sequencer, or the mailbox sequencer for a partition's mailbox. The partition of a core or square is the
one the PART block assigns it to. -/
inductive Req where
  | host | castle | sequencer
  | core (c : Fin 12)
  | square (n : Fin 64)
  | part (p : Fin 8)
  deriving DecidableEq, Repr

/-- Which part of a 64-bit register a write carries (R10): the whole register, or a 32-bit store's half. -/
inductive Half where
  | both | low | high
  deriving DecidableEq, Repr

/-- The data of one register write: the half written and the 64-bit value whose half it is. -/
structure WData where
  half : Half
  value : Word
  deriving DecidableEq, Repr

/-- The register a latching time read names (R53): TB_n_NOW_SEC or PH_k_NOW. -/
inductive NowReg where
  | tb (n : Fin 8)
  | ph (k : Fin 8)
  deriving DecidableEq, Repr

/-- How the source of a timebase is lost (R34): a gPTP domain's Sync or Announce time-out or want of a grandmaster, or
1.5 s without an edge of a timebase's PPS input. -/
inductive Loss where
  | sync (d : Fin 2)
  | announce (d : Fin 2)
  | noGrandmaster (d : Fin 2)
  | pps (n : Fin 8)
  deriving DecidableEq, Repr

/-- A received Announce's priority vector (R38). -/
structure Announce where
  priority1 : Byte
  clockClass : Byte
  accuracy : Byte
  variance : BitVec 16
  priority2 : Byte
  gmId : Word
  stepsRemoved : BitVec 16
  senderPort : BitVec 80
  deriving DecidableEq, Repr

/-- A register whose ENABLE bit starts or stops a stream (R76): STREAM_s_SRC, or the control register of a port. -/
inductive StreamReg where
  | slot (s : Fin 32)
  | csi (c : Fin 16)
  | eth (p : Fin 4)
  | can (b : Fin 8)
  | spi (m : Fin 4)
  | enc (e : Fin 8)
  deriving DecidableEq, Repr

/-- A CAN or CAN FD frame as a controller receives it (the payload table of 03_ingest.md). -/
structure CanFrame where
  id : BitVec 29
  ide : Bool
  rtr : Bool
  dlc : Fin 16
  fdf : Bool
  brs : Bool
  esi : Bool
  data : List Byte
  deriving DecidableEq, Repr

/-- A message of the mesh and of the crossbar ("Message header", 06_grid.md): its header fields and its payload, whose
length is the header's LENGTH. `kind` is 0 request, 1 posted, 2 reply; `user` is USER, or ECHO in a reply. -/
structure Msg where
  dest : Nat
  destModule : Nat
  poison : Bool
  src : Nat
  srcModule : Nat
  cls : Nat
  prio : Nat
  kind : Nat
  op : Nat
  tag : Nat
  epoch : Nat
  part : Nat
  status : Nat
  channel : Nat
  user : Nat
  payload : List Byte
  deriving DecidableEq, Repr

/-- A unit that a rest tests (R161, R238, R279): a square, a plane or an engine. -/
inductive RestUnit where
  | square (n : Fin 64)
  | plane (p : Fin 32)
  | engine (e : Fin 8)
  deriving DecidableEq, Repr

/-- What the inline code finds on a line (R415, R416). -/
inductive Ecc where
  | clean | correctable | uncorrectable
  deriving DecidableEq, Repr

/-- A BAR of the endpoint (R433). -/
inductive Bar where
  | bar0 | bar2 | bar4
  deriving DecidableEq, Repr

/-- A host access through a BAR: a read of some bytes, or a write. -/
inductive BarOp where
  | read (n : Nat)
  | write (data : List Byte)
  deriving DecidableEq, Repr

/-- What a root-port device asks for (R430, R435): a read of some bytes, a write, or a message-signalled interrupt. -/
inductive DevOp where
  | read (n : Nat)
  | write (data : List Byte)
  | msi
  deriving DecidableEq, Repr

/-- A valid device context that an IOMMU holds for a requester, and the address its translation gives: none where the
translation faults (R430). -/
structure IommuHit where
  iommu : Fin 8
  addr : Option Nat
  deriving DecidableEq, Repr

/-- A Zorra link whose state changes: the module's own ZL_k, or one between two other modules, by their serials (R439). -/
inductive LinkRef where
  | own (k : Fin 4)
  | remote (a b : Nat)
  deriving DecidableEq, Repr

/-- What a link's peer tells in training (R438, R440): its SERIAL, the serials it knows, and, where it is FORMED, the member
list and the trained links of its network, by serial. -/
structure PeerHello where
  serial : Nat
  known : List Nat
  members : Option (List Nat)
  edges : List (Nat × Nat)
  deriving DecidableEq, Repr

/-- What an accepted link frame completes (R437, R438): part of a message, a whole message, or a set of serials. -/
inductive LinkData where
  | part
  | msg (m : Msg)
  | serials (l : List Nat)
  deriving DecidableEq, Repr

/-- The commands: the rows of spec/opcode_table.json, in the table's order. -/
inductive Instr where
  /-- REGISTER_WRITE (R10): A write to a control register that has no row of its own, as a 64-bit write or a 32-bit half-write; writes that the block refuses are ignored and counted in its REJECTS register. -/
  | registerWrite (r : Req) (addr : Nat) (d : WData)
  /-- REGISTER_READ_CLEAR (R10): A read of an RC register returns the value, clears the RC fields and keeps the high half for the requester's next load. -/
  | registerReadClear (r : Req) (addr : Nat) (h : Half)
  /-- LOCK_SET (R497): A write that sets a block's LOCK bit applies the rest of that write, then makes the block's RWL fields read only until module reset. -/
  | lockSet (r : Req) (addr : Nat) (d : WData)
  /-- D2D_MODULE_FAIL (R13): A D2D module fails training or exceeds its error threshold; traffic moves to the modules still up, and a second module down leads to the safe state. -/
  | d2dModuleFail (k : Fin 4)
  /-- EPOCH_HOLD_RELEASE (R19): A load, or an entry into RESETTING, OFF or RETAINED, that was held to keep epoch increments 2 µs apart takes effect once the 2 µs have passed. -/
  | epochHoldRelease (u : Fin 65536)
  /-- EGRESS_DROP (R25): A TC_0 item not taken within EGRESS_TIMEOUT of reaching the head of its port is dropped, counted and logged. -/
  | egressDrop (i : Option (Fin 32))
  /-- TB_RATE_WRITE (R32): A write of TB_n_RATE sets RATE_ADJ only while the timebase has no source, and is otherwise rejected. -/
  | tbRateWrite (r : Req) (n : Fin 8) (d : WData)
  /-- TB_ADJ_WRITE (R33): A write of TB_n_ADJ replaces the pending slew with a new offset, slewed in under R31. -/
  | tbAdjWrite (r : Req) (n : Fin 8) (d : WData)
  /-- TB_SET_LOW_WRITE (R33): A write of TB_n_SET_LOW steps the timebase to the set value in one cycle and counts the step. -/
  | tbSetLowWrite (r : Req) (n : Fin 8) (d : WData)
  /-- TB_NOW_READ (R53): A read of TB_n_NOW_SEC or PH_k_NOW latches the whole TS128 for the requester. -/
  | tbNowRead (r : Req) (reg : NowReg)
  /-- SYNC_RECEIVE (R509): A gPTP Sync is stamped in every timebase it disciplines, and each servo steps or adjusts its rate from the offset. -/
  | syncReceive (mac : Fin 4) (d : Fin 2) (master : Nat) (ratio : Int)
  /-- ANNOUNCE_RECEIVE (R38): A received Announce enters the best-master comparison, which selects the grandmaster and the port roles. -/
  | announceReceive (mac : Fin 4) (d : Fin 2) (a : Announce)
  /-- PDELAY_EXCHANGE (R37): A peer-delay message exchange on a MAC updates the mean link delay. -/
  | pdelayExchange (mac : Fin 4) (t1 t2 t3 t4 : Nat)
  /-- PPS_EDGE (R504): An edge admitted by the PPS capture input gives a sub-second offset observation to the timebase's servo. -/
  | ppsEdge (m : Fin 16) (rising : Bool) (held : Nat) (frac : Fin 64)
  /-- SOURCE_LOSS (R34): A Sync, Announce or PPS time-out marks the source lost; the timebase switches to a qualified alternate source or enters HOLDOVER. -/
  | sourceLoss (c : Loss)
  /-- HOLDOVER_EXPIRE (R34): After HOLDOVER_MAX_S in HOLDOVER, the timebase enters HOLDOVER_EXPIRED and writes an event record. -/
  | holdoverExpire (n : Fin 8)
  /-- PHASE_OBSERVATION (R42): A source observation corrects the phase and rate of its domain, or steps or holds it, and moves the lock state. -/
  | phaseObservation (k : Fin 8)
  /-- PH_SW_OBS_WRITE (R40): A write of PH_k_SW_OBS is a software observation of a SOURCE 0 domain, and is otherwise rejected. -/
  | phSwObsWrite (r : Req) (k : Fin 8) (d : WData)
  /-- PH_ENABLE (R506): Setting PH_k_CTRL.ENABLE puts the domain in ACQUIRING with phase and rate 0, waiting for its first observation. -/
  | phEnable (r : Req) (k : Fin 8) (d : WData)
  /-- PHASE_SOURCE_TIMEOUT (R43): No observation for SOURCE_TIMEOUT_US puts the domain in HOLDOVER, where it continues at rate_now or freezes. -/
  | phaseSourceTimeout (k : Fin 8)
  /-- PHASE_LOST (R43): After HOLDOVER_MAX_MS in HOLDOVER, the domain enters LOST, freezes its phase and stops its events. -/
  | phaseLost (k : Fin 8)
  /-- LOST_SECOND_TIMEOUT (R44): With no second observation within SOURCE_TIMEOUT_US of the first, the domain stays LOST with its phase held. -/
  | lostSecondTimeout (k : Fin 8)
  /-- PE_MATCH (R46): A phase event or time event reaches its target and performs its actions, in index order, and advances or disarms. -/
  | peMatch (j : Fin 64) (ssi : Word) (ssiOk : Bool)
  /-- PE_CTRL_WRITE (R49): A write of PE_j_CTRL arms or disarms an event, or is rejected when it arms an event that is already armed. -/
  | peCtrlWrite (r : Req) (j : Fin 64) (d : WData)
  /-- PE_RETARGET_WRITE (R49): A write of PE_j_RETARGET changes the target of an armed event in the next cycle. -/
  | peRetargetWrite (r : Req) (j : Fin 64) (d : WData)
  /-- PULSE_END (R51): A pulse output returns to its inactive level when WIDTH_NS has run. -/
  | pulseEnd (n : Fin 16)
  /-- CAPTURE_EDGE (R52): A capture-input edge admitted after the glitch filter is stamped into the capture FIFO, or counted in OVERRUNS when the FIFO is full. -/
  | captureEdge (m : Fin 16) (rising : Bool) (held : Nat) (frac : Fin 64)
  /-- CAP_SEC_READ (R52): A read of CAP_m_SEC removes the head stamp into the reader's latch, or returns the NV word when the FIFO is empty. -/
  | capSecRead (r : Req) (m : Fin 16)
  /-- EVT_SEC_READ (R52): A read of EVT_SEC removes the event FIFO head into the reader's latch, or returns the NV word when the FIFO is empty. -/
  | evtSecRead (r : Req)
  /-- CSI_FRAME_START (R61): A CSI-2 frame-start packet closes any open item of that channel without COMPLETE and opens a new stamped item. -/
  | csiFrameStart (c : Fin 16) (vc : Fin 4) (frame : BitVec 16)
  /-- CSI_LINE (R60): A CSI-2 line is stamped and written as a row, and is truncated or discarded beyond the item's limits. -/
  | csiLine (c : Fin 16) (vc : Fin 4) (dt : Fin 64) (ls : Option Nat) (data : List Byte) (crcErr eccErr : Bool)
  /-- CSI_FRAME_END (R61): A CSI-2 frame-end packet closes the item, with COMPLETE when every row arrived cleanly. -/
  | csiFrameEnd (c : Fin 16) (vc : Fin 4)
  /-- CSI_FRAME_TIMEOUT (R61): FRAME_TIMEOUT_US without a packet closes the CSI-2 item without COMPLETE and counts it abandoned. -/
  | csiFrameTimeout (i : Fin 32)
  /-- ETH_FRAME_RECEIVE (R57): A received Ethernet frame is stamped and goes to the matching slot, the default slot, gPTP or pause handling, or is discarded. -/
  | ethFrameReceive (p : Fin 4) (frame : List Byte) (fcsOk : Bool) (ago : Nat)
  /-- CAN_FRAME_VALID (R508): A CAN or CAN FD frame becomes valid at its end-of-frame sample point, closes its item and updates the taps. -/
  | canFrameValid (b : Fin 8) (f : CanFrame) (ago : Nat)
  /-- SPI_PERIOD_EXPIRE (R514): PERIOD_US of an SPI master runs out and starts a transfer unless one is already in progress. -/
  | spiPeriodExpire (m : Fin 4)
  /-- SPI_DRDY_EDGE (R513): A data-ready edge admitted by the DRDY capture input stamps and starts an SPI transfer. -/
  | spiDrdyEdge (m : Fin 16) (rising : Bool) (held : Nat) (frac : Fin 64)
  /-- SPI_TRANSFER_END (R61): An SPI transfer ends and its item closes with the received bytes. -/
  | spiTransferEnd (m : Fin 4) (data : List Byte)
  /-- ENC_PERIOD_EXPIRE (R61): PERIOD_US of an encoder input runs out and latches its position into an item. -/
  | encPeriodExpire (e : Fin 8) (ssi : Word32) (ssiOk : Bool)
  /-- GPIO_INPUT_EDGE (R57): GPIO edges sampled in one cycle form one item for the GPIO slot whose mask matches. -/
  | gpioInputEdge (levels : Word)
  /-- ITEM_VISIBLE (R79): A closed item becomes visible at its queue head after the close latency. -/
  | itemVisible (i : Fin 32)
  /-- PAUSE_REFRESH (R72): While a pausing watermark stays asserted, the MAC repeats its pause frame every REFRESH_US. -/
  | pauseRefresh (p : Fin 4)
  /-- EXPECT_WINDOW_EXPIRE (R63): An expect window closes with no item opened, and the queue writes a MISSING placeholder. -/
  | expectWindowExpire (i : Fin 32)
  /-- IQ_HEAD_READ (R64): A read of IQ_s_HEAD by the queue's reader returns the head word and advances READ. -/
  | iqHeadRead (r : Req) (i : Fin 32)
  /-- IQ_ANY_HEAD_READ (R65): A read of IQ_ANY_HEAD returns the head of the highest-priority visible item among the reader's queues. -/
  | iqAnyHeadRead (r : Req)
  /-- IQ_MARK (R66): A write of MARK to IQ_s_CURSOR sets MARK to READ. -/
  | iqMark (r : Req) (i : Fin 32) (d : WData)
  /-- IQ_REWIND (R66): A write of REWIND to IQ_s_CURSOR sets READ to MARK. -/
  | iqRewind (r : Req) (i : Fin 32) (d : WData)
  /-- IQ_RELEASE_WRITE (R66): A write of IQ_s_RELEASE frees the named item and every item and pad before it, or counts a bad operation. -/
  | iqReleaseWrite (r : Req) (i : Fin 32) (d : WData)
  /-- STREAM_ENABLE (R76): Setting a slot's or port's ENABLE restarts the slot with SEQUENCE 0 and ends any frozen run. -/
  | streamEnable (r : Req) (g : StreamReg) (d : WData)
  /-- STREAM_DISABLE (R76): Clearing a slot's or port's ENABLE closes any open item at once, with TRUNCATED set. -/
  | streamDisable (r : Req) (reg : StreamReg) (d : WData)
  /-- BUNDLE_BUILD_START (R83): A bundle build starts once every REQUIRED stream has a usable sample at or after t_f. -/
  | bundleBuildStart
  /-- BUNDLE_WAIT_EXPIRE (R83): TIME_CLK reaches t_f plus WAIT_US and the build starts on the deadline, with DEADLINE set. -/
  | bundleWaitExpire
  /-- BUNDLE_EMIT (R104): A finished build writes its slot and the region headers, advances NEXT_SEQ and notifies, or drops a sequence when the ring is full. -/
  | bundleEmit
  /-- REGISTRATION_DONE (R94): A sweep registration completes and is accepted for the next bundle, or is rejected. -/
  | registrationDone
  /-- ALN_RELEASE_WRITE (R105): A write of ALN_RELEASE releases every bundle up to SEQ, or is rejected when SEQ is out of range. -/
  | alnReleaseWrite (r : Req) (d : WData)
  /-- ALN_RESET_DONE (R107): The alignment engine ends its drain after a reset and returns to READY. -/
  | alnResetDone
  /-- VOX_TRIGGER (R113): A visible bundle, or a NOTIFY to 0x7000, triggers a voxel frame that is queued, rejected or dropped. -/
  | voxTrigger
  /-- VOX_BUILD_START (R115): A voxel build starts in hash or pillar mode once every direct source has an item beyond t_v. -/
  | voxBuildStart
  /-- VOX_WAIT_EXPIRE (R115): TIME_CLK reaches t_v plus WAIT_US and the voxel build starts on the deadline. -/
  | voxWaitExpire
  /-- VOX_FRAME_EMIT (R131): A finished voxel frame is written, made visible and notified, or its sequence is dropped when the ring is full. -/
  | voxFrameEmit
  /-- VOX_RELEASE_WRITE (R132): A write of VOX_RELEASE releases every frame up to SEQ, or is rejected. -/
  | voxReleaseWrite (r : Req) (d : WData)
  /-- VOX_RESET_DONE (R136): The voxel engine ends its drain after a reset and returns to READY. -/
  | voxResetDone
  /-- RV_INSTRUCTION (R139): The sequencer executes an RV32IMC instruction, raising the exceptions of its rules where they apply. -/
  | rvInstruction (n : Fin 64)
  /-- TX_SEND (R142): TX.SEND checks the message locally, takes a tag unless the message is posted, and injects it into the mesh. -/
  | txSend (n : Fin 64)
  /-- TX_RECV (R157): TX.RECV takes the head message of the highest-priority queue in its mask, ACKs a non-posted SEND, or returns NV or TOO_LONG. -/
  | txRecv (n : Fin 64)
  /-- TX_WAIT (R144): TX.WAIT blocks until the masked tags are done, then returns their status and frees them. -/
  | txWait (n : Fin 64)
  /-- TX_POLL (R144): TX.POLL returns the masked tags that are done, without blocking and without freeing any. -/
  | txPoll (n : Fin 64)
  /-- TX_FENCE (R143): TX.FENCE holds later tensor instructions until every earlier operation has completed. -/
  | txFence (n : Fin 64)
  /-- TX_REST (R161): TX.REST offers a rest point, entering RESTING when a request stands and returning 1 otherwise. -/
  | txRest (n : Fin 64)
  /-- TX_HALT (R145): TX.HALT stops issue at the next instruction boundary, as a write of HALT does. -/
  | txHalt (n : Fin 64)
  /-- TX_MM (R173): TX.MM enqueues a weight-stationary or output-stationary matrix product into the accumulators, with optional output conversion. -/
  | txMm (n : Fin 64)
  /-- TX_WLOAD (R172): TX.WLOAD loads a weight tile into the IDLE buffer, ordered against SWAP. -/
  | txWload (n : Fin 64)
  /-- TX_QUANT (R184): TX.QUANT converts a tensor through an affine step, computing or applying block scales. -/
  | txQuant (n : Fin 64)
  /-- TX_DMA (R205): TX.DMA hands a descriptor to the DMA port, which checks it before any byte moves. -/
  | txDma (n : Fin 64)
  /-- CONVERT (R187): The vector function CONVERT writes a in the destination format. -/
  | vConvert (n : Fin 64)
  /-- ADD (R187): The vector function ADD writes a + b, correctly rounded. -/
  | vAdd (n : Fin 64)
  /-- SUB (R187): The vector function SUB writes a − b, correctly rounded. -/
  | vSub (n : Fin 64)
  /-- MUL (R187): The vector function MUL writes a × b, correctly rounded. -/
  | vMul (n : Fin 64)
  /-- FMA (R187): The vector function FMA writes a × b + c with one rounding. -/
  | vFma (n : Fin 64)
  /-- MAX (R187): The vector function MAX writes the larger of a and b. -/
  | vMax (n : Fin 64)
  /-- MIN (R187): The vector function MIN writes the smaller of a and b. -/
  | vMin (n : Fin 64)
  /-- ABS (R187): The vector function ABS writes |a|. -/
  | vAbs (n : Fin 64)
  /-- RELU (R187): The vector function RELU writes a if a > 0, else +0. -/
  | vRelu (n : Fin 64)
  /-- LEAKY_RELU (R187): The vector function LEAKY_RELU writes a, or a × ARG0 for negative a. -/
  | vLeakyRelu (n : Fin 64)
  /-- GELU_TANH (R187): The vector function GELU_TANH writes GELU by its tanh approximation. -/
  | vGeluTanh (n : Fin 64)
  /-- GELU_ERF (R187): The vector function GELU_ERF writes GELU by erf. -/
  | vGeluErf (n : Fin 64)
  /-- SILU (R187): The vector function SILU writes a / (1 + e⁻ᵃ). -/
  | vSilu (n : Fin 64)
  /-- SIGMOID (R187): The vector function SIGMOID writes 1 / (1 + e⁻ᵃ). -/
  | vSigmoid (n : Fin 64)
  /-- TANH (R187): The vector function TANH writes tanh a. -/
  | vTanh (n : Fin 64)
  /-- EXP (R187): The vector function EXP writes eᵃ. -/
  | vExp (n : Fin 64)
  /-- EXP2 (R187): The vector function EXP2 writes 2ᵃ. -/
  | vExp2 (n : Fin 64)
  /-- LOG (R187): The vector function LOG writes ln a. -/
  | vLog (n : Fin 64)
  /-- RECIP (R187): The vector function RECIP writes 1 / a. -/
  | vRecip (n : Fin 64)
  /-- SQRT (R187): The vector function SQRT writes √a, correctly rounded. -/
  | vSqrt (n : Fin 64)
  /-- RSQRT (R187): The vector function RSQRT writes 1 / √a. -/
  | vRsqrt (n : Fin 64)
  /-- DIV (R187): The vector function DIV writes a / b. -/
  | vDiv (n : Fin 64)
  /-- RSUM (R188): The vector function RSUM writes each row's sum, in the fixed order of its rule. -/
  | vRsum (n : Fin 64)
  /-- RMAX (R187): The vector function RMAX writes each row's largest element. -/
  | vRmax (n : Fin 64)
  /-- RARGMAX (R187): The vector function RARGMAX writes the index of each row's first largest element. -/
  | vRargmax (n : Fin 64)
  /-- SOFTMAX (R190): The vector function SOFTMAX writes each row's softmax in three passes, handling masked rows. -/
  | vSoftmax (n : Fin 64)
  /-- RMSNORM (R187): The vector function RMSNORM writes RMS normalisation times b. -/
  | vRmsnorm (n : Fin 64)
  /-- LAYERNORM (R187): The vector function LAYERNORM writes layer normalisation with scale b and offset c. -/
  | vLayernorm (n : Fin 64)
  /-- COPY (R203): The move operation COPY copies a tensor inside the store, converting its layout. -/
  | mvCopy (n : Fin 64)
  /-- TRANSPOSE (R203): The move operation TRANSPOSE swaps dimensions 0 and 1 of a tensor. -/
  | mvTranspose (n : Fin 64)
  /-- GATHER (R201): The move operation GATHER collects listed source units into a dense destination. -/
  | mvGather (n : Fin 64)
  /-- SCATTER (R202): The move operation SCATTER writes dense source units to listed destinations. -/
  | mvScatter (n : Fin 64)
  /-- SCATTER_ADD (R202): The move operation SCATTER_ADD adds dense source units into listed destinations, in list order. -/
  | mvScatterAdd (n : Fin 64)
  /-- FILL (R200): The move operation FILL writes FILL_VALUE to every element of the destination. -/
  | mvFill (n : Fin 64)
  /-- TENSOR_OP_START (R143): A queued tensor operation starts once its unit is free, every earlier operation on that unit has started and its WAIT_MASK is satisfied. -/
  | tensorOpStart (n : Fin 64) (l : Fin 5)
  /-- TENSOR_OP_COMPLETE (R144): A tensor operation completes, writes its STATUS and marks its tag done with its status. -/
  | tensorOpComplete (n : Fin 64) (t : Fin 32)
  /-- DMA_BURST_ISSUE (R206): The DMA port issues its next burst once fewer than 32 bursts are in flight. -/
  | dmaBurstIssue (n : Fin 64)
  /-- DMA_BURST_ANSWER (R207): The answer to a DMA burst arrives; the tag completes when every burst is answered, and stops further issue on the first answer that is not OK. -/
  | dmaBurstAnswer (n : Fin 64) (t k : Fin 32) (st : Fin 13) (data : List Byte) (poison : Bool)
  /-- SQ_START (R147): A write of SQ_CTRL.START to a READY square starts its sequencer at SQ_ENTRY or SQ_PC. -/
  | sqStart (r : Req) (n : Fin 64) (d : WData)
  /-- SQ_HALT (R145): A write of SQ_CTRL.HALT stops issue and abandons a blocked TX.WAIT or TX.RECV; the square drains to HALTED. -/
  | sqHalt (r : Req) (n : Fin 64) (d : WData)
  /-- SQ_CTRL_LOAD (R146): A write of SQ_CTRL.LOAD to a READY square increments its epoch, empties its queues, frees its tags and clears its registers. -/
  | sqCtrlLoad (r : Req) (n : Fin 64) (d : WData)
  /-- SQ_LOAD_COMPLETE (R146): The last of the 64 load cycles sets the PC to SQ_ENTRY and reopens the square to messages. -/
  | sqLoadComplete (n : Fin 64)
  /-- SQ_RESET (R148): A write of SQ_CTRL.RESET puts the square into RESETTING, abandoning its work and clearing its store. -/
  | sqReset (r : Req) (n : Fin 64) (d : WData)
  /-- SQ_RESET_COMPLETE (R148): A square leaves RESETTING for READY after max(2 µs, 12,544 FABRIC_CLK). -/
  | sqResetComplete (n : Fin 64)
  /-- SQ_EVENT_WRITE (R139): A write of SQ_EVENT sets or clears the square's EVENT interrupt. -/
  | sqEventWrite (r : Req) (n : Fin 64) (d : WData)
  /-- MESH_REQUEST_ARRIVE (R155): A request or posted message arrives at its destination router, which queues it, passes it to the store port, or answers it. -/
  | meshRequestArrive (m : Msg)
  /-- MESH_REPLY_ARRIVE (R160): A reply reaches a square and completes its tag, or is discarded as stale and counted. -/
  | meshReplyArrive (m : Msg)
  /-- POSTED_ANSWER_ARRIVE (R157): An ANSWER with TAG 0xFF to a refused posted message is counted by epoch, without touching any tag. -/
  | postedAnswerArrive (m : Msg)
  /-- REST_REQ_WRITE (R161): The castle writes REQUEST to a square, plane or engine, raising the REST interrupt or waiting for the next boundary. -/
  | restReqWrite (r : Req) (u : RestUnit)
  /-- REST_FORCE_WRITE (R161): The castle writes FORCE, and the unit rests at its next instruction, vector or entry boundary. -/
  | restForceWrite (r : Req) (u : RestUnit)
  /-- REST_WITHDRAW_WRITE (R396): The castle writes WITHDRAW, which clears a rest request that has not been entered. -/
  | restWithdrawWrite (r : Req) (u : RestUnit)
  /-- REST_ENTER (R161): A unit whose rest was requested reaches its boundary, drains its queue and enters RESTING, answering requests BUSY. -/
  | restEnter (u : RestUnit)
  /-- REST_COMPLETE (R162): A rest test ends and restores the unit, or puts it into FAULT and logs the part when the test finds a fault. -/
  | restComplete (u : RestUnit) (fault : Bool) (part : Nat)
  /-- PLANE_JOB_ARRIVE (R222): A job SEND to a plane is checked and queued, or answered at once with the first failing status. -/
  | planeJobArrive (m : Msg)
  /-- PLANE_JOB_START (R221): The next queued job starts at a job boundary, in priority and arrival order. -/
  | planeJobStart (p : Fin 32)
  /-- PLANE_PRODUCT_END (R229): A product ends; the shell updates its error estimate, checks the contract and writes the output vector. -/
  | planeProductEnd (p : Fin 32)
  /-- PLANE_JOB_DONE (R223): Once every output write is answered, the plane writes the result header, sends the ACK and the report. -/
  | planeJobDone (p : Fin 32)
  /-- PL_LOAD_OPEN (R217): A write of PL_CTRL.LOAD_OPEN lets the running job end, then increments the epoch, ends queued jobs and enters LOADING. -/
  | plLoadOpen (r : Req) (p : Fin 32) (d : WData)
  /-- PL_LOAD_CLOSE (R218): A write of PL_CTRL.LOAD_CLOSE starts the CRC check of the opened columns. -/
  | plLoadClose (r : Req) (p : Fin 32) (d : WData)
  /-- PLANE_LOAD_CHECK_DONE (R218): The weight check ends and sets WEIGHTS_VALID, or sets LOAD_FAIL and logs the plane. -/
  | planeLoadCheckDone (p : Fin 32)
  /-- CAL_FULL (R228): A write of PL_CTRL.CAL_FULL requests a full calibration at the next job boundary. -/
  | calFull (r : Req) (p : Fin 32) (d : WData)
  /-- CAL_OFFSET (R228): A write of PL_CTRL.CAL_OFFSET requests an offset calibration at the next job boundary. -/
  | calOffset (r : Req) (p : Fin 32) (d : WData)
  /-- CALIBRATION_START (R228): A pending calibration starts at a job boundary, or at a vector boundary after a breach. -/
  | calibrationStart (p : Fin 32)
  /-- CALIBRATION_DONE (R227): A calibration ends, updating the trims, GT and the estimate, or failing and putting the plane into FAULT. -/
  | calibrationDone (p : Fin 32)
  /-- PLANE_TEMP_SAMPLE (R228): The plane's temperature sensor is sampled every 100 µs, which may trigger a recalibration or an override. -/
  | planeTempSample (p : Fin 32) (t : BitVec 16)
  /-- RECAL_MS_EXPIRE (R228): CAL_AGE_MS reaches RECAL_MS and requests an offset calibration. -/
  | recalMsExpire (p : Fin 32)
  /-- WEIGHT_CHECK (R220): Every WCHECK_US the checker compares one data column's CRC with its stored value and marks the column BAD on a mismatch. -/
  | weightCheck (p : Fin 32) (flip : Option (Fin 4096))
  /-- PROBE_PRODUCT (R230): With no job for PROBE_US, the shell runs an LFSR probe product every 8 µs and updates the estimate. -/
  | probeProduct (p : Fin 32)
  /-- CONTRACT_AGE_OUT (R230): With probing off, 10 ms without a product turns CONTRACT to UNKNOWN. -/
  | contractAgeOut (p : Fin 32)
  /-- PL_CAL_CTRL_WRITE (R235): A write of PL_CAL_CTRL records POLICY and T_FORCE, applied at the next vector boundary. -/
  | plCalCtrlWrite (r : Req) (p : Fin 32) (d : WData)
  /-- PL_FORCE_WRITE (R235): A write of PL_FORCE_j sets forced trims, used from the next vector boundary under FORCE. -/
  | plForceWrite (r : Req) (p : Fin 32) (j : Fin 1056) (d : WData)
  /-- OVERRIDE_RELEASE (R236): After RELEASE_MS, with the temperature back within half of RECAL_DT, the written policy applies again, or STUCK is set. -/
  | overrideRelease (p : Fin 32)
  /-- PL_RESET (R239): A write of PL_CTRL.RESET clears the plane's weights and state and starts a full calibration in RESETTING. -/
  | plReset (r : Req) (p : Fin 32) (d : WData)
  /-- PL_RESET_COMPLETE (R239): The plane leaves RESETTING for READY after 16,384 PLANE_CLK, or enters FAULT. -/
  | plResetComplete (p : Fin 32)
  /-- AE_JOB_ARRIVE (R243): A job SEND to an attention engine is checked and queued, or answered at once. -/
  | aeJobArrive (m : Msg)
  /-- ATTEND (R259): An ATTEND job runs one attention pass per row and head over its page-walk lists and writes outputs and RESULT. -/
  | attend (e : Fin 8)
  /-- SELECT (R265): A SELECT job ranks full pages by centroid score and writes page-walk lists. -/
  | select (e : Fin 8)
  /-- APPEND (R250): An APPEND job quantises and writes key and value rows, all or nothing, taking pages under R253. -/
  | append (e : Fin 8)
  /-- COMMIT (R255): A COMMIT job makes tentative positions committed, or reads the sequence state with COUNT 0. -/
  | commit (e : Fin 8)
  /-- ROLLBACK (R255): A ROLLBACK job removes the last tentative positions and frees pages whose FILL falls to 0. -/
  | rollback (e : Fin 8)
  /-- PUBLISH (R268): A PUBLISH job inserts a full committed block as a prefix-tree node, or finds an existing one. -/
  | publish (e : Fin 8)
  /-- SEQ_OPEN (R249): A SEQ_OPEN job opens a FREE sequence with its engine as home and matches its prefix tokens. -/
  | seqOpen (e : Fin 8)
  /-- SEQ_CLOSE (R275): A SEQ_CLOSE job releases a sequence's page and node references and sets it FREE. -/
  | seqClose (e : Fin 8)
  /-- LIMBO_RELEASE (R273): A freed page moves from limbo to the free stack once every job started before the free has ended. -/
  | limboRelease
  /-- HELPER_SLICE (R263): A helper engine serves its slice of a latency-class ATTEND at its next entry boundary and returns its partial. -/
  | helperSlice (e : Fin 8)
  /-- AE_JOB_COMPLETE (R244): An engine job ends once every write is answered, and sends its ACK. -/
  | aeJobComplete (e : Fin 8)
  /-- AE_RESET (R277): A write of AE_CTRL.RESET answers the engine's jobs UNIT_RESET and resolves its open intent records in RESETTING. -/
  | aeReset (r : Req) (e : Fin 8) (d : WData)
  /-- AE_RESET_COMPLETE (R277): The engine leaves RESETTING once its intent records are resolved and 2 µs have passed. -/
  | aeResetComplete (e : Fin 8)
  /-- KV_ENABLE (R245): Setting KV_CTRL.ENABLE checks the cache configuration and initialises every enabled pool. -/
  | kvEnable (r : Req) (e : Fin 8) (d : WData)
  /-- CC_CHECK (R294): A CHECK job tests, scores and chooses among candidates and stages or commits its choice, or ends in STALEMATE. -/
  | ccCheck (n : Fin 257)
  /-- CHECK_RESUME (R300): A CHECK with STAGE that waited for a PENDING switch starts once the switch has taken effect. -/
  | checkResume
  /-- CHECK_DEADLINE (R297): DEADLINE_US is reached; the checker finishes the candidate in progress and chooses among those evaluated. -/
  | checkDeadline
  /-- CC_LOAD_MODEL (R287): A LOAD_MODEL job replaces the robot model, or is refused and keeps the old one. -/
  | ccLoadModel
  /-- CC_LOAD_SDF (R289): A LOAD_SDF job replaces the signed-distance volume from bricks. -/
  | ccLoadSdf
  /-- CC_LOAD_BEV (R290): A LOAD_BEV job replaces the occupancy map and builds its distance field. -/
  | ccLoadBev
  /-- CC_COMMIT (R301): A COMMIT job makes the named TENTATIVE staged trajectory PENDING, or is REFUSED. -/
  | ccCommit
  /-- CC_CANCEL (R301): A CANCEL job empties the named TENTATIVE staged trajectory, or is REFUSED. -/
  | ccCancel
  /-- CC_FALLBACK_JOB (R305): A FALLBACK job requests a fallback with cause REQUEST. -/
  | ccFallbackJob
  /-- CC_FALLBACK_BIT (R305): A write of CC_CTRL.FALLBACK requests a fallback with cause REQUEST. -/
  | ccFallbackBit (r : Req) (d : WData)
  /-- TRAJECTORY_SWITCH (R302): At T_SWITCH, a PENDING trajectory replaces the active one in one cycle and notifies. -/
  | trajectorySwitch
  /-- TRAJECTORY_EXPIRY (R305): The timebase reaches the expiry lead before the end of a CHOSEN trajectory and requests a fallback with cause EXPIRED. -/
  | trajectoryExpiry
  /-- FALLBACK_SWITCH (R306): A fallback build completes, is checked, switched in as active and reported. -/
  | fallbackSwitch
  /-- CC_RESET (R310): A write of CC_CTRL.RESET ends the checker's jobs and cancels staging, keeping the model and the active trajectory. -/
  | ccReset (r : Req) (d : WData)
  /-- DYN_LOAD_MODEL (R316): A LOAD_MODEL job replaces the body-tree model and clears the tasks, or is refused. -/
  | dynLoadModel (paused : Bool)
  /-- LOAD_TASKS (R322): A LOAD_TASKS job replaces the task set, or is refused. -/
  | loadTasks (paused : Bool)
  /-- COMPUTE (R330): A COMPUTE job writes the selected kinematic and dynamic quantities for a given state. -/
  | compute (paused : Bool)
  /-- DYN_RUN (R326): A write of DYN_CTRL.RUN starts or stops periodic cycles. -/
  | dynRun (r : Req) (d : WData)
  /-- RUN_ONCE (R326): A write of DYN_CTRL.RUN_ONCE triggers one cycle under TRIGGER 2. -/
  | runOnce (r : Req) (d : WData)
  /-- DYN_PERIOD_TRIGGER (R326): PERIOD_NS runs out and starts a control cycle, ending any solve still running as MISSED. -/
  | dynPeriodTrigger
  /-- DYN_NOTIFY_TRIGGER (R326): A NOTIFY to 0x8001 starts a control cycle, ending any solve still running as MISSED. -/
  | dynNotifyTrigger (m : Msg)
  /-- DYN_DEADLINE (R326): A solve still running at trigger plus DEADLINE_US ends as MISSED. -/
  | dynDeadline
  /-- DYN_SOLVE_DONE (R325): The ADMM solve ends with a status and emits a new, reused or no command. -/
  | dynSolveDone
  /-- DYN_JOB_RESUME (R315): A job paused by a trigger resumes after the solve ends. -/
  | dynJobResume
  /-- DYN_RESET (R332): A write of DYN_CTRL.RESET ends the unit's jobs and solve and clears the warm start and STARVED. -/
  | dynReset (r : Req) (d : WData)
  /-- RULE_PULSE_END (R335): A rule's output pulse ends after PULSE_CYC REFLEX_CLK. -/
  | rulePulseEnd (g : Fin 64)
  /-- RFX_LATCHED_WRITE (R334): Writing 1 to a bit of RFX_LATCHED rearms that latched rule. -/
  | rfxLatchedWrite (r : Req) (d : WData)
  /-- EG_SEND_WRITE (R337): A write of EG_s_SEND fills a slot whose SOURCE is SW, or CASTLE from the castle. -/
  | egSendWrite (r : Req) (i : Fin 32) (d : WData)
  /-- EGRESS_FRAME_START (R341): A waiting slot frame starts on its MAC once its gate is open and it fits before the gate closes. -/
  | egressFrameStart (p : Fin 4)
  /-- CAN_TRANSMIT (R342): A CAN FD slot frame wins arbitration and is transmitted, with automatic retransmission. -/
  | canTransmit (b : Fin 8)
  /-- GCL_ENTRY_ADVANCE (R341): A gate control entry's interval ends and the next entry, or the next cycle, takes effect. -/
  | gclEntryAdvance (p : Fin 4)
  /-- DOORBELL (R346): A write of MB_m_DOORBELL sets a new TAIL, or is rejected when the ring would overrun. -/
  | doorbell (r : Req) (m : Fin 16) (d : WData)
  /-- RESP_HEAD_WRITE (R348): A write of MB_m_RESP_HEAD consumes responses. -/
  | respHeadWrite (r : Req) (m : Fin 16) (d : WData)
  /-- SEQ_RESET (R350): A write of MB_m_CTRL.SEQ_RESET clears SEQ_VALID. -/
  | seqReset (r : Req) (m : Fin 16) (d : WData)
  /-- RING_RESET (R346): A write of MB_m_CTRL.RING_RESET zeroes the four ring positions unless a command is executing. -/
  | ringReset (r : Req) (m : Fin 16) (d : WData)
  /-- MBX_COMMAND_START (R347): The sequencer starts the next waiting command of a mailbox in priority order and checks it under R349. -/
  | mbxCommandStart
  /-- MBX_COMMAND_COMPLETE (R348): A command completes; its response is written, HEAD advances and the notification is raised. -/
  | mbxCommandComplete (m : Fin 16)
  /-- CMD_TIMEOUT (R352): A command that waited longer than CMD_TIMEOUT_MS for a unit completes with TIMEOUT. -/
  | cmdTimeout (m : Fin 16)
  /-- UNIT_STATE_REPORT (R355): A unit's posted report of a state, epoch or partition change updates the sequencer's view. -/
  | unitStateReport (u : Fin 65536) (st : Fin 9) (epoch : Fin 65536) (part : Fin 9)
  /-- NOP (R349): The command NOP returns MODULE_STATE. -/
  | nop (m : Fin 16)
  /-- IDENTIFY (R349): The command IDENTIFY returns the identity and capability masks. -/
  | identify (m : Fin 16)
  /-- UNIT_QUERY (R358): The command UNIT_QUERY reads a unit's state into the view and returns it, never DISPUTED. -/
  | unitQuery (m : Fin 16)
  /-- UNIT_RESET (R351): The command UNIT_RESET resets a unit, preempting commands that hold it. -/
  | unitReset (m : Fin 16)
  /-- UNIT_QUARANTINE (R354): The command UNIT_QUARANTINE moves a unit to QUARANTINED. -/
  | unitQuarantine (m : Fin 16)
  /-- UNIT_RELEASE (R354): The command UNIT_RELEASE takes a QUARANTINED unit through RESETTING to READY. -/
  | unitRelease (m : Fin 16)
  /-- EVENT_READ (R12): The command EVENT_READ copies event records out and reports how many were overwritten. -/
  | eventRead (m : Fin 16)
  /-- CSR_READ (R353): The command CSR_READ returns a register value where the owner may read it. -/
  | csrRead (m : Fin 16)
  /-- CSR_WRITE (R353): The command CSR_WRITE writes a register under a mask as the owner would. -/
  | csrWrite (m : Fin 16)
  /-- PART_CREATE (R359): The command PART_CREATE gives a FREE partition its DRAM ranges and makes it CONFIGURING. -/
  | partCreate (m : Fin 16)
  /-- PART_ASSIGN (R360): The command PART_ASSIGN assigns or removes units and instances, resetting units that change hands. -/
  | partAssign (m : Fin 16)
  /-- PART_WINDOWS (R363): The command PART_WINDOWS sets the time-window schedule, applied at the next cycle boundary. -/
  | partWindows (m : Fin 16)
  /-- PART_SHARE (R362): The command PART_SHARE sets a partition's guaranteed and capped bandwidth. -/
  | partShare (m : Fin 16)
  /-- PART_PATH (R361): The command PART_PATH opens or closes the path between two partitions. -/
  | partPath (m : Fin 16)
  /-- PART_SQUARE_SHARE (R364): The command PART_SQUARE_SHARE makes a square time-shared between two partitions. -/
  | partSquareShare (m : Fin 16)
  /-- PART_START (R360): The command PART_START makes a partition ACTIVE and releases its cores at the entry address. -/
  | partStart (m : Fin 16)
  /-- PART_RESET (R365): The command PART_RESET delivers the reset to every part of a partition and aborts its tagged work. -/
  | partReset (m : Fin 16)
  /-- PART_RESET_DONE (R365): When every part has reported, the partition becomes CONFIGURING or FREE and the command completes. -/
  | partResetDone (p : Fin 8)
  /-- PART_QUERY (R349): The command PART_QUERY returns a partition's registers. -/
  | partQuery (m : Fin 16)
  /-- PART_WINDOW_BOUNDARY (R363): A schedule entry ends and the next takes effect, switching the contexts of time-shared squares. -/
  | partWindowBoundary
  /-- SQ_LOAD (R146): The command SQ_LOAD copies and checks a program image, then loads and optionally starts the square. -/
  | sqLoad (m : Fin 16)
  /-- SQ_RUN (R147): The command SQ_RUN starts or halts a set of squares as a whole. -/
  | sqRun (m : Fin 16)
  /-- PL_LOAD (R218): The command PL_LOAD opens, copies and closes a plane's columns, checking the CRC. -/
  | plLoad (m : Fin 16)
  /-- JOB_SEND (R353): The command JOB_SEND sends a 64-byte job to a unit and completes with its ACK status. -/
  | jobSend (m : Fin 16)
  /-- MEM_COPY (R205): The command MEM_COPY moves a tensor through the mailbox mover under the DMA rules. -/
  | memCopy (m : Fin 16) (ext : List (Fin 13 × List Byte × Bool))
  /-- MEM_FILL (R200): The command MEM_FILL fills a tensor in any backed memory. -/
  | memFill (m : Fin 16) (ext : List (Fin 13 × List Byte × Bool))
  /-- KV_OP (R244): The command KV_OP performs a cache operation on an engine and returns its result record. -/
  | kvOp (m : Fin 16)
  /-- KV_POOL_QUERY (R349): The command KV_POOL_QUERY returns a pool's status and counts. -/
  | kvPoolQuery (m : Fin 16)
  /-- TIME_READ (R53): The command TIME_READ latches and returns a timebase's TS128 and status. -/
  | timeRead (m : Fin 16)
  /-- TIME_STEP (R33): The command TIME_STEP steps a timebase without a source. -/
  | timeStep (m : Fin 16)
  /-- TIME_ADJUST (R31): The command TIME_ADJUST sets a timebase's rate and slew. -/
  | timeAdjust (m : Fin 16)
  /-- PE_ARM (R49): The command PE_ARM configures and arms a phase event that is not armed. -/
  | peArm (m : Fin 16)
  /-- PE_DISARM (R49): The command PE_DISARM disarms a phase event and returns its status. -/
  | peDisarm (m : Fin 16)
  /-- PH_QUERY (R349): The command PH_QUERY returns a phase domain's status and live phase. -/
  | phQuery (m : Fin 16)
  /-- STREAM_SET (R76): The command STREAM_SET enables or disables a stream slot. -/
  | streamSet (m : Fin 16)
  /-- IQ_QUERY (R349): The command IQ_QUERY returns a queue's fill, positions and counts. -/
  | iqQuery (m : Fin 16)
  /-- IQ_FLUSH (R77): The command IQ_FLUSH releases every item of a queue. -/
  | iqFlush (m : Fin 16)
  /-- POWER_STATE (R451): The command POWER_STATE starts an entry into PARK or DEEP, or a wake to RUN. -/
  | powerState (m : Fin 16)
  /-- POWER_CAP (R8): The command POWER_CAP sets the power cap, or is refused outside the variant's range. -/
  | powerCap (m : Fin 16)
  /-- UNIT_POWER (R450): The command UNIT_POWER turns a unit on, retained or off. -/
  | unitPower (m : Fin 16)
  /-- POWER_QUERY (R349): The command POWER_QUERY returns power, cap and module state. -/
  | powerQuery (m : Fin 16)
  /-- IMG_READ_KEY (R371): The command IMG_READ_KEY copies a key's record from the book, the user layer or the effective image. -/
  | imgReadKey (m : Fin 16)
  /-- IMG_BEGIN (R375): The command IMG_BEGIN opens an update session and erases the inactive bank. -/
  | imgBegin (m : Fin 16)
  /-- IMG_WRITE (R375): The command IMG_WRITE programs whole pages of the inactive bank. -/
  | imgWrite (m : Fin 16)
  /-- IMG_VERIFY (R372): The command IMG_VERIFY checks the bank and programs WRITTEN and VERIFIED when it passes. -/
  | imgVerify (m : Fin 16)
  /-- IMG_ACTIVATE (R376): The command IMG_ACTIVATE puts a verified bank in TRIAL and ends the session. -/
  | imgActivate (m : Fin 16)
  /-- IMG_CONFIRM (R376): The command IMG_CONFIRM programs CONFIRMED and optionally raises the security floor. -/
  | imgConfirm (m : Fin 16)
  /-- IMG_ABORT (R374): The command IMG_ABORT ends the session and leaves the bank unbootable. -/
  | imgAbort (m : Fin 16)
  /-- IMG_REVOKE_KEY (R377): The command IMG_REVOKE_KEY revokes an OTP key slot. -/
  | imgRevokeKey (m : Fin 16)
  /-- SAFE_REQUEST (R400): The command SAFE_REQUEST makes the safe-state decision with cause HOST or CASTLE. -/
  | safeRequest (m : Fin 16)
  /-- SAFETY_QUERY (R349): The command SAFETY_QUERY returns the module state and safety status. -/
  | safetyQuery (m : Fin 16)
  /-- REST_REQUEST (R396): The command REST_REQUEST rests a unit and completes when the rest ends. -/
  | restRequest (m : Fin 16)
  /-- REST_WITHDRAW (R396): The command REST_WITHDRAW clears a unit's rest request. -/
  | restWithdraw (m : Fin 16)
  /-- LINK_QUERY (R349): The command LINK_QUERY returns a Zorra link's status and counts. -/
  | linkQuery (m : Fin 16)
  /-- LINK_RETRAIN (R442): The command LINK_RETRAIN declares a link down and trains it again. -/
  | linkRetrain (m : Fin 16)
  /-- LINK_ENABLE (R437): The command LINK_ENABLE enables or disables a Zorra link. -/
  | linkEnable (m : Fin 16)
  /-- CASTLE_INBOX_MESSAGE (R380): A message to a castle unit ID is taken into the inbox or its unit, or answered or dropped. -/
  | castleInboxMessage (m : Msg)
  /-- CP_SUBMISSION (R384): A channel submission opens, joins or is discarded from a comparison frame, and its elements accumulate the metrics. -/
  | cpSubmission (m : Msg)
  /-- PLANE_REPORT_ARRIVE (R380): A plane's job-end report reaches the castle and is counted toward its comparison frame. -/
  | planeReportArrive (m : Msg)
  /-- CP_VERDICT (R386): Once both channels and the reports are complete, the arbiter issues the verdict and delivered channel. -/
  | cpVerdict (c : Fin 32) (mismatch : Bool)
  /-- CP_DEADLINE (R386): DEADLINE_US after a frame opens, the arbiter issues its verdict with whatever has arrived. -/
  | cpDeadline (c : Fin 32)
  /-- SC_ARM (R391): Writing ARM puts a stage clock into WAITING_FIRST. -/
  | scArm (r : Req) (n : Fin 128) (d : WData)
  /-- SC_KICK (R391): A kick message arrives at a stage clock and moves its window, or causes an EARLY or BAD_TOKEN flag fall. -/
  | scKick (m : Msg)
  /-- SC_KICK_WRITE (R392): A write of SC_n_KICK kicks a stage clock with a token. -/
  | scKickWrite (r : Req) (n : Fin 128) (d : WData)
  /-- SC_LATE (R391): No kick by the window's close, or by FIRST_LIMIT, is a LATE flag fall. -/
  | scLate (n : Fin 128)
  /-- TS_ARM (R394): Writing ARM makes a task supervisor IDLE and watching. -/
  | tsArm (r : Req) (t : Fin 64) (d : WData)
  /-- TS_MARK (R394): An ACT, START or END mark moves a task supervisor, or records a violation. -/
  | tsMark (m : Msg)
  /-- TS_MARK_WRITE (R394): A write of TS_t_MARK reports a task mark. -/
  | tsMarkWrite (r : Req) (t : Fin 64) (d : WData)
  /-- TS_PERIODIC_ACT (R394): A PERIODIC supervisor makes its own ACT every PERIOD. -/
  | tsPeriodicAct (t : Fin 64)
  /-- TS_LIMIT_EXPIRE (R394): START_MAX, EXEC_MAX or DEADLINE runs out, a violation that acts under ACTION. -/
  | tsLimitExpire (t : Fin 64) (limit : Fin 4)
  /-- FZ_SAMPLE (R395): Every 100 µs a frozen-frame detector samples its slot's status and counts missing runs. -/
  | fzSample (i : Fin 32)
  /-- ROTATION_ENTRY_START (R397): The rotation starts the next entry's self-test, or skips an absent unit. -/
  | rotationEntryStart
  /-- REST_GRACE_EXPIRE (R396): REST_GRACE_US passes without RESTING and the castle writes FORCE. -/
  | restGraceExpire
  /-- FORCE_GRACE_EXPIRE (R396): FORCE_GRACE_US passes without RESTING; the castle withdraws and counts a timeout. -/
  | forceGraceExpire
  /-- SELF_TEST_DONE (R398): A rotation test ends, and a failure quarantines the unit or makes the safe-state decision. -/
  | selfTestDone (fault : Bool)
  /-- CASTLE_FAULT (R381): A lockstep, SRAM, clock, supply or readback fault asserts SAFE_HOLD, decides the safe state and restarts the castle cores. -/
  | castleFault (kind : Fin 5)
  /-- CASTLE_RESTART_DONE (R381): The castle cores restart from the verified program copy, or stay in reset and latch the safe state. -/
  | castleRestartDone (ok : Bool)
  /-- SAFE_REQ (R400): A write of SAFE_CTRL.SAFE_REQ makes the safe-state decision with cause CASTLE. -/
  | safeReq (r : Req)
  /-- HOLD_GENERATOR_FILL (R401): Every HOLD_PERIOD_US while SAFE_HOLD stands, the generator fills every castle slot in HOLD_SLOTS. -/
  | holdGeneratorFill
  /-- SAFE_RESTART_APPLY (R401): Once the partition resets are done, the sequencer compares the header, applies the image and loads the host boot sections. -/
  | safeRestartApply
  /-- SAFE_RESTART_COMPLETE (R402): Every unit of the restarted partitions reads READY; PHASE becomes HELD and MODULE_STATE reads SAFE. -/
  | safeRestartComplete
  /-- SAFE_LATCH (R405): A failed check, the restart bound running out or too many decisions latches the safe state until module reset. -/
  | safeLatch (reason : Fin 7)
  /-- SAFE_EXIT (R404): A write of SAFE_CTRL.SAFE_EXIT in HELD releases SAFE_HOLD and returns the module to RUN. -/
  | safeExit (r : Req)
  /-- DRAM_READ (R416): A read of a DRAM line returns clean, corrected or poisoned data and logs uncorrectable errors. -/
  | dramRead (u : Fin 65536) (a : Nat) (found : Ecc)
  /-- DRAM_WRITE (R417): A write of a DRAM line replaces it, clears poison on a whole line, or is answered INTEGRITY. -/
  | dramWrite (u : Fin 65536) (a : Nat) (data : List Byte) (poison : Bool)
  /-- SCRUB_READ (R421): The scrubber reads the next package line, correcting or poisoning, retiring and reporting uncorrectable lines. -/
  | scrubRead (c : Fin 8) (found : Ecc)
  /-- SHARE_WINDOW (R419): A 2 µs bandwidth window ends; charges restart and shortfalls are counted. -/
  | shareWindow (waiting : List (Fin 8 × Fin 9))
  /-- IRQ_ROUTE_WRITE (R429): A write of MC_IRQ_ROUTE_i routes an interrupt source, or is refused for a core outside its partition. -/
  | irqRouteWrite (r : Req) (i : Fin 32) (d : WData)
  /-- PCIE_INBOUND_ACCESS (R433): A host access through a BAR reaches CSRs, mailbox windows or an aperture. -/
  | pcieInboundAccess (bar : Bar) (off : Nat) (op : BarOp)
  /-- PCIE_OUTBOUND_ACCESS (R434): An access to an outbound window translates to host memory, or is answered NOT_PERMITTED. -/
  | pcieOutboundAccess (u : Fin 65536) (a : Nat) (op : BarOp) (data : List Byte) (answered ctx : Bool)
  /-- PCIE_DEVICE_REQUEST (R430): A root-port device request is translated by its IOMMU, or answered Unsupported Request. -/
  | pcieDeviceRequest (hits : List IommuHit) (op : DevOp)
  /-- PCIE_LINK_DOWN (R436): The PCIe link goes down; host writes are dropped and root-port requests time out. -/
  | pcieLinkDown
  /-- PERST_RELEASE (R491): Release of PERST_N starts PCIe link training. -/
  | perstRelease
  /-- ZORRA_LINK_TRAINED (R438): A Zorra link trains; a module with NET_EN enters FORMING, or a member rejoins, or the link is held in STANDBY. -/
  | zorraLinkTrained (l : LinkRef) (p : PeerHello)
  /-- FORM_WINDOW_EXPIRE (R438): FORM_WINDOW_MS ends and the module holding the lowest serial declares the network. -/
  | formWindowExpire
  /-- DECLARATION_RECEIVE (R438): A network declaration is adopted, numbering modules and computing routes, or ignored. -/
  | declarationReceive (k : Fin 4) (members : List Nat) (edges : List (Nat × Nat))
  /-- DECLARATION_TIMEOUT (R438): No declaration within twice the window after its end, and the module declares its own known set. -/
  | declarationTimeout
  /-- LINK_FRAME_RECEIVE (R441): A link frame is accepted, NACKed for replay, or dropped as a duplicate. -/
  | linkFrameReceive (k : Fin 4) (seq : Fin 4096) (crcOk nack : Bool) (fec : Nat) (c : LinkData)
  /-- LINK_TIMEOUT (R442): No valid frame for LINK_TIMEOUT_US, or REPLAY_MAX failed replays, declares the link down and recomputes routes. -/
  | linkTimeout (l : LinkRef)
  /-- NET_REFORM (R440): A write of NET_REFORM returns the module to ALONE to form a new network. -/
  | netReform (r : Req) (d : WData)
  /-- RELAY_ITEM (R444): A receiving relay writes an item received from its peer into its local queue. -/
  | relayItem (n : Fin 8) (item : List Byte)
  /-- PWR_VOTE_WRITE (R452): A write of PWR_VOTE sets a standing ALLOW, DELAY or REFUSE vote that an entry handshake takes. -/
  | pwrVoteWrite (r : Req) (d : WData)
  /-- ENTRY_DELAY_TIMEOUT (R453): A participant still delaying at DELAY_MAX_MS abandons the entry. -/
  | entryDelayTimeout
  /-- ENTRY_COMMIT (R454): In the first cycle in which every participant allows, the entry commits and writes back, saves and lowers the rails. -/
  | entryCommit
  /-- ENTRY_COMPLETE (R449): The entry ends with MODULE_STATE reading PARK or DEEP, then starts any held wake. -/
  | entryComplete
  /-- WAKE_PIN (R458): A falling edge on WAKE_N starts a wake. -/
  | wakePin
  /-- WAKE_TIMER (R458): The wake timer runs out and starts a wake. -/
  | wakeTimer
  /-- PWR_WAKE_WRITE (R458): The castle's write of PWR_CTRL.WAKE starts a wake with cause 0x02. -/
  | pwrWakeWrite (r : Req)
  /-- WAKE_COMPLETE (R458): The wake schedule ends with units ready, cores released at PWR_RESUME and MODULE_STATE RUN. -/
  | wakeComplete (crcFail : Bool)
  /-- VF_STEP_DONE (R463): A voltage-frequency step completes and FABRIC_CLK runs at the new point. -/
  | vfStepDone
  /-- OPP_REQ_WRITE (R464): A write of PWR_OPP.OPP_REQ requests an operating point, bounded by the limit step. -/
  | oppReqWrite (r : Req) (d : WData)
  /-- CAP_WINDOW (R465): A 50 µs cap window ends and the cap loop raises, holds or releases its step on the ladder. -/
  | capWindow (mw : Nat)
  /-- PEAK_OVERCURRENT (R467): VIN current above I_PEAK for 1 µs makes the limiter swallow every second FABRIC_CLK pulse. -/
  | peakOvercurrent
  /-- PEAK_RELEASE (R467): 50 µs without exceeding I_PEAK releases the peak limiter. -/
  | peakRelease
  /-- THERMAL_TICK (R469): The thermal loop raises or lowers its step from the hottest sensor, and a critical reading decides the safe state. -/
  | thermalTick (t : Int)
  /-- CLOCK_GATE (R470): A gateable domain stops its clock after 64 idle cycles and restarts on the next request. -/
  | clockGate (d : Fin 112) (gated : Bool)
  /-- REFCLK_LOSS (R471): The active reference is lost; the module switches reference or its PLLs hold over. -/
  | refclkLoss (ref : Fin 2)
  /-- REFCLK_QUALIFIED (R473): A returned reference qualifies after QUAL_MS and a revertive switch back starts. -/
  | refclkQualified (ref : Fin 2)
  /-- CLOCK_SWITCH_DONE (R472): A hitless or divider-ramp reference switch completes. -/
  | clockSwitchDone
  /-- CLK_SWITCH (R473): A write of CLK_CTRL.SWITCH forces a switch to the other qualified reference. -/
  | clkSwitch (r : Req) (d : WData)
  /-- CLOCK_HOLDOVER_EXPIRE (R474): With no reference qualified for HOLD_MS, the module decides the safe state and runs on the internal oscillator. -/
  | clockHoldoverExpire
  /-- CLOCK_DOMAIN_FAIL (R475): A domain monitor finds its clock stopped or off frequency; its pins float, its units fault, and some domains decide the safe state. -/
  | clockDomainFail (d : Fin 112)
  /-- VIN_LOSS (R476): VIN below 8.5 V for 2 µs runs the shut-down sequence and asserts SAFE_HOLD. -/
  | vinLoss (mv : Nat)
  /-- VIN_BROWNOUT (R476): A VIN dip shorter than 2 µs is counted as a brownout. -/
  | vinBrownout
  /-- VIN_RETURN (R478): VIN that returns during shut-down lets the shut-down complete, then a full power-up follows. -/
  | vinReturn
  /-- HOLDUP_LOW (R479): VHOLD below VHOLD_MIN_MV with VAON absent turns the always-on domain off and the module OFF. -/
  | holdupLow (mv : Nat)
  /-- HOLDUP_DISAGREE (R479): The hold-up charge counter and voltage disagree; DISAGREE is set and logged. -/
  | holdupDisagree (mv : Nat) (left : Int)
  /-- HOLDUP_FULL (R479): VHOLD reaches VHOLD_FULL_MV and the charge counter is zeroed. -/
  | holdupFull (mv : Nat)
  /-- RAIL_FAULT (R480): A regulator reports a fault on a die rail and the module decides the safe state. -/
  | railFault (rail : Fin 5)
  /-- RETENTION_LOSS (R461): A retention-rail fault in PARK loses the retained content, which comes up as from OFF and is logged. -/
  | retentionLoss
  /-- POWER_UP (R484): VAON in range for 1 ms with RESET_N high starts power-up, latching straps and fixing fuses. -/
  | powerUp (rootPort : Bool) (holdup : Bool) (test : Bool) (refB : Bool)
  /-- VIN_PRESENT (R484): VIN at 9.0 V for 100 µs lets power-up continue past the wait of step 4. -/
  | vinPresent (refA : Bool) (refB : Bool)
  /-- BOOT_COMPLETE (R485): Boot completes; MODULE_STATE reads RUN, mailboxes open and host cores start from their boot sections. -/
  | bootComplete
  /-- MODULE_RESET (R488): RESET_N low for 10 µs asserts SAFE_HOLD, turns the rails off and resets the always-on domain. -/
  | moduleReset
  /-- CHECKER_RESET_COMPLETE (R310): The collision checker leaves RESETTING for READY 2 µs after its reset. -/
  | checkerResetComplete
  /-- DYN_RESET_COMPLETE (R332): The dynamics unit leaves RESETTING for READY 2 µs after its reset and resumes cycles if RUN is set. -/
  | dynResetComplete
  /-- SYNC_TRANSMIT (R37): On a master port, or as grandmaster, the instance sends Sync and Announce every interval, with the time of its timebase. -/
  | syncTransmit (mac : Fin 4) (d : Fin 2)
  /-- PCIE_LINK_UP (R436): The PCIe link finishes training and comes up, with BAR and window settings unchanged. -/
  | pcieLinkUp (speed : Fin 6) (width : Fin 9)
  /-- VAON_LOSS (R476): VAON is lost and the always-on domain falls back to VHOLD with ON_HOLDUP set. -/
  | vaonLoss
  /-- VAON_RETURN (R476): VAON returns while the always-on domain runs on VHOLD, which returns it to VAON and clears ON_HOLDUP. -/
  | vaonReturn
  /-- MTIMECMP_MATCH (R428): mtime reaches a core's mtimecmp and raises that core's machine timer interrupt. -/
  | mtimecmpMatch (c : Fin 12)
  /-- ETH_LINK_CHANGE (R54): The USXGMII link to the PHY trains and the PHY reports link, or the link is lost, changing ETH_p_STATUS.LINK_UP. -/
  | ethLinkChange (p : Fin 4) (up : Bool)
  /-- CSI_LINK_UP (R54): Lane deskew of a CSI-2 port completes and LINK_UP is set, after which stamps meet their accuracy. -/
  | csiLinkUp (c : Fin 16)
  /-- QUADRATURE_EDGE (R40): A counted quadrature edge on an encoder input updates its live count, stamp and error count, and observes a following phase domain. -/
  | quadratureEdge (e : Fin 8) (up : Bool) (illegal : Bool)
  /-- CAN_BUS_STATE_CHANGE (R342): A CAN FD controller's error counters move it between error-active, error-passive and bus-off, and back on recovery. -/
  | canBusStateChange (b : Fin 8) (tec rec : Nat) (errorFrame : Bool)
  /-- PACKAGE_TEMP_SAMPLE (R420): A DRAM package sensor reading crosses 85 °C, setting or clearing MC_STATUS.HOT and changing refresh and bandwidth guarantees. -/
  | packageTempSample (c : Fin 8) (hot : Bool)
  deriving DecidableEq, Repr

end Sys2Proof
end

