-- ==== Sys2Proof/Decode.lean ====
section
/-!
DEFINITION. The command a word of the table's bits spells. No row of spec/opcode_table.json gives a command any bits, so that no word
spells one.
-/

namespace Sys2Proof

/-- No row gives bits: no word spells a command. -/
def decodeTableWord (_nbits _w : Nat) : Option Instr := none

end Sys2Proof
end

