-- ==== Sys2Proof/Config.lean ====
section
/-!
DEFINITION. What an implementation fixes and the values the spec leaves open, as constants without a body: nothing can
be proved about which value they hold. Each is named in a log entry.
-/

namespace Sys2Proof

/-- A free value drawn where the spec states no result: the use it is drawn for, and the draw's number (log entry 5). -/
opaque Config.freeNat : Nat → Nat → Nat

/-- A result the spec bounds, or does not state, as a free function of the operands: the use it stands for and the
operands (log entry 14). -/
opaque Config.openFn : Nat → List Nat → Nat

/-- offsetScaledLogVariance of the module's own clock, which the spec leaves to IEEE 802.1AS (log entry 6). -/
opaque Config.gptpVariance : Nat

/-- The greatest mean link delay, in 1/65,536 ns, at which a MAC is AS_CAPABLE: "within limits", which the spec does not
state (log entry 6). -/
opaque Config.linkDelayLimit : Nat

/-- The SHA-384 of the calibration book, fused in OTP, as a big-endian number (R368; log entry 41). -/
opaque Config.bookHash : Nat

/-- The SHA-384 of the public key of an OTP key slot, as a big-endian number (R372; log entry 41). -/
opaque Config.keyHash : Nat → Nat

end Sys2Proof
end

