-- ==== Sys2Proof/Machine/RegTable.lean ====
section
/-!
DEFINITION. The register table: for every register of every block its place, the access code of each of its
fields ("Register access codes" of 00_scope.md) and the field's reset value, from the offset and field tables of
spec/01 to spec/16. A reset of "image" stands here as the default the Meaning column states, else 0 (log entry 1);
a reset of "fuse" as 0, the fuses themselves being set in State.reset or computed by `fuseWord` (log entry 4).
-/

namespace Sys2Proof

def regsGLOBAL0 : List RegSpec := [
  -- IDENT
  ⟨0x0000, 1, 0x0, 1, 0x0, [⟨0, 16, .ro, 22082⟩, ⟨16, 16, .ro, 0⟩, ⟨32, 8, .ro, 1⟩]⟩,
  -- REVISION
  ⟨0x0008, 1, 0x0, 1, 0x0, [⟨0, 8, .ro, 0⟩, ⟨8, 8, .ro, 0⟩, ⟨16, 8, .ro, 0⟩, ⟨24, 8, .ro, 0⟩]⟩,
  -- SERIAL
  ⟨0x0010, 1, 0x0, 1, 0x0, [⟨0, 64, .ro, 0⟩]⟩,
  -- SQUARE_MASK
  ⟨0x0018, 1, 0x0, 1, 0x0, [⟨0, 64, .ro, 0⟩]⟩,
  -- PLANE_MASK
  ⟨0x0020, 1, 0x0, 1, 0x0, [⟨0, 32, .ro, 0⟩]⟩,
  -- AE_MASK
  ⟨0x0028, 1, 0x0, 1, 0x0, [⟨0, 8, .ro, 0⟩]⟩,
  -- CORE_MASK
  ⟨0x0030, 1, 0x0, 1, 0x0, [⟨0, 12, .ro, 0⟩]⟩,
  -- FEATURE_MASK
  ⟨0x0038, 1, 0x0, 1, 0x0, [⟨0, 1, .ro, 0⟩, ⟨1, 1, .ro, 0⟩, ⟨2, 1, .ro, 0⟩, ⟨4, 4, .ro, 0⟩]⟩,
  -- MODULE_STATE
  ⟨0x0040, 1, 0x0, 1, 0x0, [⟨0, 3, .ro, 3⟩, ⟨3, 1, .ro, 0⟩, ⟨4, 3, .ro, 3⟩, ⟨8, 8, .ro, 0⟩, ⟨16, 16, .ro, 0⟩]⟩,
  -- D2D_STATUS
  ⟨0x0048, 1, 0x0, 1, 0x0, [⟨0, 4, .ro, 15⟩, ⟨4, 4, .ro, 0⟩, ⟨32, 32, .ro, 0⟩]⟩,
  -- DRAIN_STATUS
  ⟨0x0050, 1, 0x0, 1, 0x0, [⟨0, 5, .ro, 0⟩, ⟨8, 1, .ro, 0⟩, ⟨32, 32, .ro, 0⟩]⟩,
  -- EGRESS_DROPS
  ⟨0x0058, 1, 0x0, 1, 0x0, [⟨0, 32, .rc, 0⟩, ⟨32, 16, .rc, 0⟩]⟩,
  -- EGRESS_TIMEOUT
  ⟨0x0060, 1, 0x0, 1, 0x0, [⟨0, 24, .rw, 1000⟩]⟩,
  -- SCRATCH
  ⟨0x0068, 1, 0x0, 1, 0x0, [⟨0, 64, .rw, 0⟩]⟩]
/-- Registers of the GLOBAL block. -/
def regsGLOBAL : List RegSpec := regsGLOBAL0

def regsTIME0 : List RegSpec := [
  -- TIME_CTRL
  ⟨0x0000, 1, 0x0, 1, 0x0, [⟨0, 1, .w1s, 0⟩]⟩,
  -- TIME_STATUS
  ⟨0x0008, 1, 0x0, 1, 0x0, [⟨0, 8, .ro, 0⟩, ⟨8, 8, .ro, 0⟩, ⟨16, 8, .ro, 0⟩, ⟨24, 8, .ro, 0⟩, ⟨32, 8, .ro, 0⟩]⟩,
  -- TIME_REJECTS
  ⟨0x0010, 1, 0x0, 1, 0x0, [⟨0, 32, .rc, 0⟩, ⟨32, 16, .rc, 0⟩]⟩,
  -- TB_n_CTRL
  ⟨0x0100, 8, 0x80, 1, 0x0, [⟨0, 1, .rwl, 1⟩, ⟨1, 3, .rwl, 0⟩, ⟨4, 3, .rwl, 0⟩, ⟨7, 1, .rwl, 1⟩, ⟨8, 4, .rwl, 0⟩, ⟨12, 20, .rwl, 1000⟩, ⟨32, 16, .rwl, 10⟩, ⟨48, 8, .rwl, 100⟩]⟩,
  -- TB_n_STATUS
  ⟨0x0108, 8, 0x80, 1, 0x0, [⟨0, 3, .ro, 0⟩, ⟨3, 1, .ro, 0⟩, ⟨4, 1, .ro, 0⟩, ⟨8, 8, .ro, 0⟩, ⟨16, 32, .ro, 0⟩]⟩,
  -- TB_n_NOW_SEC
  ⟨0x0110, 8, 0x80, 1, 0x0, [⟨0, 64, .ro, 0⟩]⟩,
  -- TB_n_LATCH_LOW
  ⟨0x0118, 8, 0x80, 1, 0x0, [⟨0, 64, .ro, 0⟩]⟩,
  -- TB_n_RATE
  ⟨0x0120, 8, 0x80, 1, 0x0, [⟨0, 32, .rw, 0⟩]⟩,
  -- TB_n_ADJ
  ⟨0x0128, 8, 0x80, 1, 0x0, [⟨0, 32, .wo, 0⟩]⟩,
  -- TB_n_SET_SEC
  ⟨0x0130, 8, 0x80, 1, 0x0, [⟨0, 64, .wo, 0⟩]⟩,
  -- TB_n_SET_LOW
  ⟨0x0138, 8, 0x80, 1, 0x0, [⟨0, 64, .wo, 0⟩]⟩,
  -- TB_n_OFFSET
  ⟨0x0140, 8, 0x80, 1, 0x0, [⟨0, 64, .ro, 0⟩]⟩,
  -- TB_n_LATCH_SEC
  ⟨0x0148, 8, 0x80, 1, 0x0, [⟨0, 64, .ro, 0⟩]⟩,
  -- PH_k_CTRL
  ⟨0x0500, 8, 0x40, 1, 0x0, [⟨0, 1, .rwl, 0⟩, ⟨1, 3, .rwl, 0⟩, ⟨4, 5, .rwl, 0⟩, ⟨9, 3, .rwl, 0⟩, ⟨12, 4, .rwl, 1⟩, ⟨16, 4, .rwl, 3⟩, ⟨20, 1, .rwl, 0⟩]⟩,
  -- PH_k_SCALE
  ⟨0x0508, 8, 0x40, 1, 0x0, [⟨0, 32, .rwl, 0⟩, ⟨32, 32, .rwl, 0⟩]⟩,
  -- PH_k_LIMITS
  ⟨0x0510, 8, 0x40, 1, 0x0, [⟨0, 24, .rwl, 1000⟩, ⟨24, 16, .rwl, 100⟩, ⟨40, 16, .rwl, 4096⟩, ⟨56, 8, .rwl, 64⟩]⟩,
  -- PH_k_SOURCE_CFG
  ⟨0x0518, 8, 0x40, 1, 0x0, [⟨0, 16, .rwl, 0⟩, ⟨16, 1, .rwl, 0⟩, ⟨17, 1, .rwl, 0⟩, ⟨24, 24, .rwl, 0⟩]⟩,
  -- PH_k_STATUS
  ⟨0x0520, 8, 0x40, 1, 0x0, [⟨0, 3, .ro, 0⟩, ⟨3, 1, .ro, 0⟩, ⟨8, 8, .ro, 0⟩, ⟨16, 16, .ro, 0⟩, ⟨32, 32, .ro, 0⟩]⟩,
  -- PH_k_NOW
  ⟨0x0528, 8, 0x40, 1, 0x0, [⟨0, 32, .ro, 0⟩, ⟨32, 32, .ro, 0⟩]⟩,
  -- PH_k_SW_TIME
  ⟨0x0530, 8, 0x40, 1, 0x0, [⟨0, 64, .wo, 0⟩]⟩]
def regsTIME1 : List RegSpec := [
  -- PH_k_SW_OBS
  ⟨0x0538, 8, 0x40, 1, 0x0, [⟨0, 32, .wo, 0⟩, ⟨32, 32, .wo, 0⟩]⟩,
  -- PULSE_OUT_n_CTRL
  ⟨0x0700, 16, 0x10, 1, 0x0, [⟨0, 1, .rwl, 0⟩, ⟨1, 1, .rwl, 0⟩, ⟨4, 32, .rwl, 1000⟩, ⟨40, 8, .rwl, 0⟩]⟩,
  -- PULSE_OUT_n_STATUS
  ⟨0x0708, 16, 0x10, 1, 0x0, [⟨0, 32, .ro, 0⟩, ⟨32, 16, .ro, 0⟩]⟩,
  -- CAPTURE_IN_m_CTRL
  ⟨0x0800, 16, 0x10, 1, 0x0, [⟨0, 1, .rwl, 0⟩, ⟨1, 2, .rwl, 0⟩, ⟨4, 4, .rwl, 0⟩, ⟨8, 3, .rwl, 0⟩, ⟨11, 1, .rwl, 0⟩, ⟨12, 3, .rwl, 0⟩, ⟨16, 8, .rwl, 0⟩]⟩,
  -- CAPTURE_IN_m_STATUS
  ⟨0x0808, 16, 0x10, 1, 0x0, [⟨0, 5, .ro, 0⟩, ⟨16, 16, .ro, 0⟩, ⟨32, 32, .ro, 0⟩]⟩,
  -- CAP_m_SEC
  ⟨0x0900, 16, 0x20, 1, 0x0, [⟨0, 64, .rc, 0⟩]⟩,
  -- CAP_m_LOW
  ⟨0x0908, 16, 0x20, 1, 0x0, [⟨0, 64, .ro, 0⟩]⟩,
  -- CAP_m_PHASE
  ⟨0x0910, 16, 0x20, 1, 0x0, [⟨0, 32, .ro, 0⟩, ⟨32, 1, .ro, 0⟩]⟩,
  -- EVT_SEC
  ⟨0x0B00, 1, 0x0, 1, 0x0, [⟨0, 64, .rc, 0⟩]⟩,
  -- EVT_LOW
  ⟨0x0B08, 1, 0x0, 1, 0x0, [⟨0, 64, .ro, 0⟩]⟩,
  -- EVT_INFO
  ⟨0x0B10, 1, 0x0, 1, 0x0, [⟨0, 6, .ro, 0⟩, ⟨6, 1, .ro, 0⟩, ⟨7, 1, .ro, 0⟩, ⟨8, 32, .ro, 0⟩]⟩,
  -- EVT_STATUS
  ⟨0x0B18, 1, 0x0, 1, 0x0, [⟨0, 9, .ro, 0⟩, ⟨16, 16, .ro, 0⟩]⟩,
  -- GPTP_d_CTRL
  ⟨0x0C00, 2, 0x80, 1, 0x0, [⟨0, 1, .rwl, 0⟩, ⟨1, 1, .rwl, 0⟩, ⟨2, 1, .rwl, 0⟩, ⟨3, 3, .rwl, 0⟩, ⟨6, 1, .rwl, 0⟩, ⟨8, 8, .rwl, 0⟩, ⟨16, 4, .rwl, 0⟩, ⟨24, 8, .rwl, 246⟩, ⟨32, 8, .rwl, 248⟩, ⟨40, 8, .rwl, 248⟩, ⟨48, 8, .rwl, 254⟩]⟩,
  -- GPTP_d_TIMING
  ⟨0x0C08, 2, 0x80, 1, 0x0, [⟨0, 8, .rwl, 253⟩, ⟨8, 8, .rwl, 0⟩, ⟨16, 8, .rwl, 0⟩, ⟨24, 8, .rwl, 3⟩, ⟨32, 8, .rwl, 3⟩, ⟨40, 8, .rwl, 0⟩]⟩,
  -- GPTP_d_CLOCK_ID
  ⟨0x0C10, 2, 0x80, 1, 0x0, [⟨0, 64, .rwl, 0⟩]⟩,
  -- GPTP_d_STATUS
  ⟨0x0C18, 2, 0x80, 1, 0x0, [⟨0, 8, .ro, 0⟩, ⟨8, 1, .ro, 0⟩, ⟨9, 1, .ro, 0⟩, ⟨10, 1, .ro, 0⟩, ⟨16, 16, .ro, 0⟩, ⟨32, 32, .ro, 0⟩]⟩,
  -- GPTP_d_GM_ID
  ⟨0x0C20, 2, 0x80, 1, 0x0, [⟨0, 64, .ro, 0⟩]⟩,
  -- GPTP_d_OFFSET
  ⟨0x0C28, 2, 0x80, 1, 0x0, [⟨0, 64, .ro, 0⟩]⟩,
  -- GPTP_d_RATIO
  ⟨0x0C30, 2, 0x80, 1, 0x0, [⟨0, 32, .ro, 0⟩]⟩,
  -- GPTP_d_COUNTS
  ⟨0x0C38, 2, 0x80, 1, 0x0, [⟨0, 16, .ro, 0⟩, ⟨16, 16, .ro, 0⟩, ⟨32, 16, .ro, 0⟩]⟩]
def regsTIME2 : List RegSpec := [
  -- MAC_p_PDELAY
  ⟨0x0D00, 4, 0x10, 1, 0x0, [⟨0, 40, .ro, 0⟩, ⟨40, 1, .ro, 0⟩]⟩,
  -- MAC_p_COMP
  ⟨0x0D08, 4, 0x10, 1, 0x0, [⟨0, 16, .rwl, 0⟩, ⟨16, 16, .rwl, 0⟩]⟩,
  -- PE_j_CTRL
  ⟨0x1000, 64, 0x40, 1, 0x0, [⟨0, 1, .rw, 0⟩, ⟨1, 1, .rw, 0⟩, ⟨2, 3, .rw, 0⟩, ⟨5, 1, .rw, 0⟩, ⟨6, 1, .rw, 0⟩, ⟨7, 1, .rw, 0⟩, ⟨8, 8, .rw, 0⟩, ⟨16, 4, .rw, 0⟩, ⟨20, 6, .rw, 0⟩, ⟨32, 5, .rw, 0⟩]⟩,
  -- PE_j_TARGET
  ⟨0x1008, 64, 0x40, 1, 0x0, [⟨0, 64, .rw, 0⟩]⟩,
  -- PE_j_PERIOD
  ⟨0x1010, 64, 0x40, 1, 0x0, [⟨0, 64, .rw, 0⟩]⟩,
  -- PE_j_AUX
  ⟨0x1018, 64, 0x40, 1, 0x0, [⟨0, 16, .rw, 0⟩, ⟨16, 32, .rw, 0⟩, ⟨48, 16, .rw, 0⟩]⟩,
  -- PE_j_RETARGET
  ⟨0x1020, 64, 0x40, 1, 0x0, [⟨0, 64, .wo, 0⟩]⟩,
  -- PE_j_STATUS
  ⟨0x1028, 64, 0x40, 1, 0x0, [⟨0, 32, .ro, 0⟩, ⟨32, 16, .ro, 0⟩, ⟨48, 16, .ro, 0⟩]⟩,
  -- PE_j_LAST_NS
  ⟨0x1030, 64, 0x40, 1, 0x0, [⟨0, 64, .ro, 0⟩]⟩,
  -- PE_j_LAST_INFO
  ⟨0x1038, 64, 0x40, 1, 0x0, [⟨0, 16, .ro, 0⟩, ⟨16, 3, .ro, 0⟩, ⟨19, 1, .ro, 0⟩, ⟨20, 1, .ro, 0⟩, ⟨32, 32, .ro, 0⟩]⟩]
/-- Registers of the TIME block. -/
def regsTIME : List RegSpec := regsTIME0 ++ regsTIME1 ++ regsTIME2

def regsINGEST0 : List RegSpec := [
  -- INGEST_CTRL
  ⟨0x0000, 1, 0x0, 1, 0x0, [⟨0, 1, .w1s, 0⟩, ⟨1, 3, .rw, 0⟩]⟩,
  -- INGEST_STATUS
  ⟨0x0008, 1, 0x0, 1, 0x0, [⟨0, 32, .ro, 0⟩, ⟨32, 32, .ro, 0⟩]⟩,
  -- INGEST_REJECTS
  ⟨0x0010, 1, 0x0, 1, 0x0, [⟨0, 32, .rc, 0⟩, ⟨32, 16, .rc, 0⟩]⟩,
  -- STREAM_s_SRC
  ⟨0x0100, 32, 0x20, 1, 0x0, [⟨0, 1, .rwl, 0⟩, ⟨1, 3, .rwl, 0⟩, ⟨4, 4, .rwl, 0⟩, ⟨8, 2, .rwl, 0⟩, ⟨10, 6, .rwl, 0⟩, ⟨16, 4, .rwl, 0⟩, ⟨20, 1, .rwl, 0⟩, ⟨24, 16, .rwl, 0⟩, ⟨40, 16, .rwl, 0⟩]⟩,
  -- STREAM_s_FILTER
  ⟨0x0108, 32, 0x20, 1, 0x0, [⟨0, 16, .rwl, 0⟩, ⟨16, 12, .rwl, 0⟩, ⟨28, 16, .rwl, 0⟩, ⟨44, 3, .rwl, 0⟩, ⟨0, 29, .rwl, 0⟩, ⟨29, 1, .rwl, 0⟩, ⟨32, 29, .rwl, 0⟩, ⟨0, 64, .rwl, 0⟩]⟩,
  -- STREAM_s_DETECT
  ⟨0x0110, 32, 0x20, 1, 0x0, [⟨0, 2, .rwl, 0⟩, ⟨2, 4, .rwl, 3⟩, ⟨6, 18, .rwl, 512⟩, ⟨24, 1, .rwl, 0⟩, ⟨25, 6, .rwl, 0⟩, ⟨32, 24, .rwl, 0⟩]⟩,
  -- STREAM_s_STATUS
  ⟨0x0118, 32, 0x20, 1, 0x0, [⟨0, 1, .ro, 0⟩, ⟨1, 1, .ro, 0⟩, ⟨2, 1, .ro, 0⟩, ⟨16, 16, .ro, 0⟩, ⟨32, 16, .ro, 0⟩, ⟨48, 16, .ro, 0⟩]⟩,
  -- CSI_c_CTRL
  ⟨0x0500, 16, 0x10, 1, 0x0, [⟨0, 1, .rwl, 0⟩, ⟨1, 2, .rwl, 0⟩, ⟨4, 3, .rwl, 0⟩, ⟨7, 1, .rwl, 1⟩, ⟨8, 24, .rwl, 100000⟩, ⟨32, 16, .rwl, 0⟩]⟩,
  -- CSI_c_STATUS
  ⟨0x0508, 16, 0x10, 1, 0x0, [⟨0, 1, .ro, 0⟩, ⟨8, 8, .ro, 0⟩, ⟨16, 16, .ro, 0⟩, ⟨32, 16, .ro, 0⟩, ⟨48, 16, .ro, 0⟩]⟩,
  -- ETH_p_CTRL
  ⟨0x0600, 4, 0x10, 1, 0x0, [⟨0, 1, .rwl, 0⟩, ⟨1, 2, .rwl, 0⟩, ⟨3, 3, .rwl, 0⟩, ⟨6, 1, .rwl, 0⟩]⟩,
  -- ETH_p_STATUS
  ⟨0x0608, 4, 0x10, 1, 0x0, [⟨0, 1, .ro, 0⟩, ⟨1, 1, .ro, 0⟩, ⟨16, 16, .ro, 0⟩, ⟨32, 16, .ro, 0⟩, ⟨48, 16, .ro, 0⟩]⟩,
  -- ETH_p_PAUSE
  ⟨0x0640, 4, 0x8, 1, 0x0, [⟨0, 32, .rwl, 0⟩, ⟨32, 16, .rwl, 0⟩, ⟨48, 16, .rwl, 0⟩]⟩,
  -- CAN_b_CTRL
  ⟨0x0700, 8, 0x10, 1, 0x0, [⟨0, 1, .rwl, 0⟩, ⟨1, 3, .rwl, 0⟩, ⟨4, 1, .rwl, 0⟩, ⟨5, 1, .rwl, 0⟩, ⟨16, 16, .rwl, 0⟩, ⟨32, 16, .rwl, 0⟩, ⟨48, 7, .rwl, 80⟩]⟩,
  -- CAN_b_STATUS
  ⟨0x0708, 8, 0x10, 1, 0x0, [⟨0, 2, .ro, 0⟩, ⟨8, 8, .ro, 0⟩, ⟨16, 8, .ro, 0⟩, ⟨24, 16, .ro, 0⟩, ⟨40, 16, .ro, 0⟩]⟩,
  -- SPI_m_CTRL
  ⟨0x0780, 4, 0x10, 1, 0x0, [⟨0, 1, .rwl, 0⟩, ⟨1, 3, .rwl, 0⟩, ⟨4, 2, .rwl, 0⟩, ⟨6, 1, .rwl, 0⟩, ⟨7, 1, .rwl, 0⟩, ⟨8, 4, .rwl, 0⟩, ⟨16, 8, .rwl, 0⟩, ⟨24, 9, .rwl, 0⟩, ⟨33, 4, .rwl, 0⟩, ⟨37, 20, .rwl, 0⟩]⟩,
  -- SPI_m_CMD
  ⟨0x0788, 4, 0x10, 1, 0x0, [⟨0, 64, .rwl, 0⟩]⟩,
  -- ENC_e_CTRL
  ⟨0x0800, 8, 0x10, 1, 0x0, [⟨0, 1, .rwl, 0⟩, ⟨1, 1, .rwl, 0⟩, ⟨2, 3, .rwl, 0⟩, ⟨5, 1, .rwl, 0⟩, ⟨6, 6, .rwl, 0⟩, ⟨12, 12, .rwl, 0⟩, ⟨24, 4, .rwl, 0⟩, ⟨28, 20, .rwl, 0⟩, ⟨48, 1, .rwl, 0⟩]⟩,
  -- ENC_e_STATUS
  ⟨0x0808, 8, 0x10, 1, 0x0, [⟨0, 32, .ro, 0⟩, ⟨32, 16, .ro, 0⟩]⟩,
  -- GPIO_STAMP_RISE
  ⟨0x0880, 1, 0x0, 1, 0x0, [⟨0, 64, .rwl, 0⟩]⟩,
  -- GPIO_STAMP_FALL
  ⟨0x0888, 1, 0x0, 1, 0x0, [⟨0, 64, .rwl, 0⟩]⟩]
def regsINGEST1 : List RegSpec := [
  -- GPIO_LEVEL
  ⟨0x0890, 1, 0x0, 1, 0x0, [⟨0, 64, .ro, 0⟩]⟩,
  -- FC_f_CTRL
  ⟨0x0900, 16, 0x8, 1, 0x0, [⟨0, 32, .rwl, 0⟩, ⟨32, 1, .rwl, 0⟩, ⟨33, 1, .rwl, 0⟩]⟩]
/-- Registers of the INGEST block. -/
def regsINGEST : List RegSpec := regsINGEST0 ++ regsINGEST1

def regsIQ0 : List RegSpec := [
  -- IQ_CTRL
  ⟨0x0000, 1, 0x0, 1, 0x0, [⟨0, 1, .w1s, 0⟩]⟩,
  -- IQ_ANY_HEAD
  ⟨0x0008, 1, 0x0, 1, 0x0, [⟨0, 64, .rc, 0⟩]⟩,
  -- IQ_NONEMPTY
  ⟨0x0010, 1, 0x0, 1, 0x0, [⟨0, 32, .ro, 0⟩]⟩,
  -- IQ_ABOVE_HIGH
  ⟨0x0018, 1, 0x0, 1, 0x0, [⟨0, 32, .ro, 0⟩]⟩,
  -- IQ_REJECTS
  ⟨0x0020, 1, 0x0, 1, 0x0, [⟨0, 32, .rc, 0⟩, ⟨32, 16, .rc, 0⟩]⟩,
  -- IQ_s_RING_BASE
  ⟨0x0100, 32, 0x80, 1, 0x0, [⟨0, 48, .rwl, 0⟩]⟩,
  -- IQ_s_RING_CFG
  ⟨0x0108, 32, 0x80, 1, 0x0, [⟨0, 32, .rwl, 0⟩, ⟨32, 24, .rwl, 0⟩, ⟨56, 4, .rwl, 0⟩]⟩,
  -- IQ_s_WM
  ⟨0x0110, 32, 0x80, 1, 0x0, [⟨0, 32, .rwl, 0⟩, ⟨32, 32, .rwl, 0⟩]⟩,
  -- IQ_s_HEAD
  ⟨0x0118, 32, 0x80, 1, 0x0, [⟨0, 64, .rc, 0⟩]⟩,
  -- IQ_s_CURSOR
  ⟨0x0120, 32, 0x80, 1, 0x0, [⟨0, 1, .wo, 0⟩, ⟨1, 1, .wo, 0⟩]⟩,
  -- IQ_s_RELEASE
  ⟨0x0128, 32, 0x80, 1, 0x0, [⟨0, 32, .wo, 0⟩]⟩,
  -- IQ_s_FILL
  ⟨0x0130, 32, 0x80, 1, 0x0, [⟨0, 32, .ro, 0⟩, ⟨32, 1, .ro, 0⟩, ⟨33, 1, .ro, 0⟩, ⟨34, 1, .ro, 0⟩]⟩,
  -- IQ_s_POS_A
  ⟨0x0138, 32, 0x80, 1, 0x0, [⟨0, 32, .ro, 0⟩, ⟨32, 32, .ro, 0⟩]⟩,
  -- IQ_s_POS_B
  ⟨0x0140, 32, 0x80, 1, 0x0, [⟨0, 32, .ro, 0⟩, ⟨32, 32, .ro, 0⟩]⟩,
  -- IQ_s_COUNTS
  ⟨0x0148, 32, 0x80, 1, 0x0, [⟨0, 32, .ro, 0⟩, ⟨32, 16, .ro, 0⟩, ⟨48, 16, .ro, 0⟩]⟩,
  -- IQ_s_DISCARDS
  ⟨0x0150, 32, 0x80, 1, 0x0, [⟨0, 32, .rc, 0⟩, ⟨32, 32, .rc, 0⟩]⟩,
  -- IQ_s_NOTIFY
  ⟨0x0158, 32, 0x80, 1, 0x0, [⟨0, 16, .rwl, 0⟩, ⟨16, 1, .rwl, 0⟩, ⟨17, 1, .rwl, 0⟩]⟩]
/-- Registers of the IQ block. -/
def regsIQ : List RegSpec := regsIQ0

def regsALIGN0 : List RegSpec := [
  -- ALN_CTRL
  ⟨0x0000, 1, 0x0, 1, 0x0, [⟨0, 1, .w1s, 0⟩, ⟨1, 1, .rw, 0⟩]⟩,
  -- ALN_CFG
  ⟨0x0008, 1, 0x0, 1, 0x0, [⟨0, 3, .rwl, 0⟩, ⟨4, 20, .rwl, 500⟩, ⟨24, 16, .rwl, 100⟩, ⟨40, 16, .rwl, 200⟩]⟩,
  -- ALN_STATUS
  ⟨0x0010, 1, 0x0, 1, 0x0, [⟨0, 3, .ro, 0⟩, ⟨3, 1, .ro, 0⟩, ⟨4, 3, .ro, 0⟩, ⟨7, 1, .ro, 0⟩, ⟨16, 16, .ro, 0⟩, ⟨32, 32, .ro, 0⟩]⟩,
  -- ALN_COUNTS
  ⟨0x0018, 1, 0x0, 1, 0x0, [⟨0, 16, .ro, 0⟩, ⟨16, 16, .ro, 0⟩, ⟨32, 16, .ro, 0⟩, ⟨48, 16, .ro, 0⟩]⟩,
  -- ALN_REJECTS
  ⟨0x0020, 1, 0x0, 1, 0x0, [⟨0, 32, .rc, 0⟩, ⟨32, 16, .rc, 0⟩]⟩,
  -- ALN_RING_BASE
  ⟨0x0028, 1, 0x0, 1, 0x0, [⟨0, 48, .rwl, 0⟩]⟩,
  -- ALN_RING_CFG
  ⟨0x0030, 1, 0x0, 1, 0x0, [⟨0, 16, .rwl, 0⟩, ⟨16, 24, .rwl, 0⟩, ⟨40, 16, .rwl, 0⟩, ⟨56, 1, .rwl, 0⟩]⟩,
  -- ALN_RING_POS
  ⟨0x0038, 1, 0x0, 1, 0x0, [⟨0, 32, .ro, 0⟩, ⟨32, 32, .ro, 0⟩]⟩,
  -- ALN_RELEASE
  ⟨0x0040, 1, 0x0, 1, 0x0, [⟨0, 32, .wo, 0⟩]⟩,
  -- ALN_EGO_CFG
  ⟨0x0048, 1, 0x0, 1, 0x0, [⟨0, 4, .rwl, 2⟩, ⟨4, 4, .rwl, 2⟩, ⟨8, 4, .rwl, 6⟩, ⟨12, 1, .rwl, 0⟩, ⟨13, 5, .rwl, 0⟩, ⟨20, 13, .rwl, 4096⟩, ⟨33, 4, .rwl, 4⟩, ⟨40, 8, .rwl, 50⟩, ⟨48, 8, .rwl, 100⟩]⟩,
  -- ALN_EGO_LIMITS
  ⟨0x0050, 1, 0x0, 1, 0x0, [⟨0, 8, .rwl, 60⟩, ⟨8, 16, .rwl, 50⟩, ⟨24, 8, .rwl, 230⟩, ⟨32, 16, .rwl, 150⟩, ⟨48, 8, .rwl, 242⟩]⟩,
  -- ALN_EGO_STATUS
  ⟨0x0058, 1, 0x0, 1, 0x0, [⟨0, 1, .ro, 0⟩, ⟨8, 8, .ro, 0⟩, ⟨16, 16, .ro, 0⟩, ⟨32, 16, .ro, 0⟩, ⟨48, 16, .ro, 0⟩]⟩,
  -- ALN_BIAS_XY
  ⟨0x0060, 1, 0x0, 1, 0x0, [⟨0, 32, .ro, 0⟩, ⟨32, 32, .ro, 0⟩]⟩,
  -- ALN_BIAS_Z
  ⟨0x0068, 1, 0x0, 1, 0x0, [⟨0, 32, .ro, 0⟩]⟩,
  -- ALN_STREAM_s_CTRL
  ⟨0x0100, 32, 0x20, 1, 0x0, [⟨0, 1, .rwl, 0⟩, ⟨1, 3, .rwl, 0⟩, ⟨4, 2, .rwl, 2⟩, ⟨6, 1, .rwl, 0⟩, ⟨8, 6, .rwl, 8⟩, ⟨16, 3, .rwl, 4⟩, ⟨20, 3, .rwl, 0⟩, ⟨24, 8, .rwl, 63⟩, ⟨32, 8, .rwl, 0⟩, ⟨40, 10, .rwl, 0⟩, ⟨50, 8, .rwl, 0⟩]⟩,
  -- ALN_STREAM_s_LIMITS
  ⟨0x0108, 32, 0x20, 1, 0x0, [⟨0, 20, .rwl, 20000⟩, ⟨20, 20, .rwl, 5000⟩, ⟨40, 20, .rwl, 50000⟩]⟩,
  -- ALN_STREAM_s_AUX
  ⟨0x0110, 32, 0x20, 1, 0x0, [⟨0, 32, .rwl, 0⟩]⟩,
  -- ALN_STREAM_s_STATUS
  ⟨0x0118, 32, 0x20, 1, 0x0, [⟨0, 2, .ro, 0⟩, ⟨16, 16, .ro, 0⟩, ⟨32, 16, .ro, 0⟩, ⟨48, 16, .ro, 0⟩]⟩,
  -- ALN_CH_c
  ⟨0x0500, 256, 0x8, 1, 0x0, [⟨0, 1, .rwl, 0⟩, ⟨1, 5, .rwl, 0⟩, ⟨6, 4, .rwl, 0⟩, ⟨10, 1, .rwl, 0⟩, ⟨12, 10, .rwl, 0⟩, ⟨22, 6, .rwl, 0⟩, ⟨28, 4, .rwl, 0⟩, ⟨32, 32, .rwl, 0⟩]⟩,
  -- ALN_VG_g_CFG
  ⟨0x0D00, 8, 0x20, 1, 0x0, [⟨0, 1, .rwl, 0⟩, ⟨1, 4, .rwl, 3⟩, ⟨5, 4, .rwl, 5⟩, ⟨16, 8, .rwl, 20⟩]⟩]
def regsALIGN1 : List RegSpec := [
  -- ALN_VG_g_TOL
  ⟨0x0D08, 8, 0x20, 1, 0x0, [⟨0, 32, .rwl, 0⟩]⟩,
  -- ALN_VG_g_STATUS
  ⟨0x0D10, 8, 0x20, 1, 0x0, [⟨0, 8, .ro, 0⟩, ⟨8, 8, .ro, 0⟩, ⟨16, 1, .ro, 0⟩, ⟨17, 1, .ro, 0⟩, ⟨18, 1, .ro, 0⟩, ⟨32, 16, .ro, 0⟩, ⟨48, 16, .ro, 0⟩]⟩,
  -- ALN_REC_r_CFG
  ⟨0x0E00, 4, 0x10, 1, 0x0, [⟨0, 1, .rwl, 0⟩, ⟨1, 6, .rwl, 0⟩, ⟨8, 16, .rwl, 0⟩, ⟨24, 16, .rwl, 0⟩]⟩,
  -- ALN_REC_r_STATUS
  ⟨0x0E08, 4, 0x10, 1, 0x0, [⟨0, 32, .ro, 0⟩, ⟨32, 16, .ro, 0⟩]⟩,
  -- ALN_FEAT_q_DESC
  ⟨0x0F00, 16, 0x10, 1, 0x0, [⟨0, 48, .rw, 0⟩, ⟨48, 1, .rw, 0⟩]⟩,
  -- ALN_FEAT_q_STAMP
  ⟨0x0F08, 16, 0x10, 1, 0x0, [⟨0, 64, .rw, 0⟩]⟩]
/-- Registers of the ALIGN block. -/
def regsALIGN : List RegSpec := regsALIGN0 ++ regsALIGN1

def regsVOX0 : List RegSpec := [
  -- VOX_CTRL
  ⟨0x0000, 1, 0x0, 1, 0x0, [⟨0, 1, .w1s, 0⟩, ⟨1, 1, .rw, 0⟩, ⟨2, 1, .rw, 0⟩]⟩,
  -- VOX_CFG
  ⟨0x0008, 1, 0x0, 1, 0x0, [⟨0, 1, .rwl, 0⟩, ⟨1, 3, .rwl, 0⟩, ⟨4, 3, .rwl, 2⟩, ⟨7, 2, .rwl, 1⟩, ⟨9, 5, .rwl, 19⟩, ⟨14, 8, .rwl, 4⟩, ⟨22, 16, .rwl, 1024⟩, ⟨38, 8, .rwl, 20⟩]⟩,
  -- VOX_CFG2
  ⟨0x0010, 1, 0x0, 1, 0x0, [⟨0, 20, .rwl, 1000⟩, ⟨20, 16, .rwl, 100⟩]⟩,
  -- VOX_GRID_X
  ⟨0x0018, 1, 0x0, 1, 0x0, [⟨0, 20, .rwl, 0⟩, ⟨20, 13, .rwl, 0⟩, ⟨33, 15, .rwl, 0⟩]⟩,
  -- VOX_GRID_Y
  ⟨0x0020, 1, 0x0, 1, 0x0, [⟨0, 20, .rwl, 0⟩, ⟨20, 13, .rwl, 0⟩, ⟨33, 15, .rwl, 0⟩]⟩,
  -- VOX_GRID_Z
  ⟨0x0028, 1, 0x0, 1, 0x0, [⟨0, 20, .rwl, 0⟩, ⟨20, 13, .rwl, 0⟩, ⟨33, 15, .rwl, 0⟩]⟩,
  -- VOX_BEV_CFG
  ⟨0x0030, 1, 0x0, 1, 0x0, [⟨0, 2, .rwl, 0⟩, ⟨4, 7, .rwl, 0⟩, ⟨16, 8, .rwl, 242⟩, ⟨24, 8, .rwl, 0⟩, ⟨32, 8, .rwl, 0⟩, ⟨40, 1, .rwl, 0⟩, ⟨41, 2, .rwl, 0⟩]⟩,
  -- VOX_EXCL
  ⟨0x0038, 1, 0x0, 1, 0x0, [⟨0, 16, .rwl, 0⟩, ⟨16, 16, .rwl, 0⟩, ⟨32, 16, .rwl, 0⟩, ⟨48, 16, .rwl, 0⟩]⟩,
  -- VOX_BEV_MAP_k
  ⟨0x0040, 8, 0x8, 1, 0x0, [⟨0, 4, .rwl, 0⟩, ⟨8, 4, .rwl, 0⟩, ⟨16, 4, .rwl, 0⟩, ⟨24, 4, .rwl, 0⟩, ⟨32, 4, .rwl, 0⟩, ⟨40, 4, .rwl, 0⟩, ⟨48, 4, .rwl, 0⟩, ⟨56, 4, .rwl, 0⟩, ⟨4, 4, .rwl, 0⟩, ⟨12, 4, .rwl, 0⟩, ⟨20, 4, .rwl, 0⟩, ⟨28, 4, .rwl, 0⟩, ⟨36, 4, .rwl, 0⟩, ⟨44, 4, .rwl, 0⟩, ⟨52, 4, .rwl, 0⟩, ⟨60, 4, .rwl, 0⟩]⟩,
  -- VOX_HASH_BASE
  ⟨0x0080, 1, 0x0, 1, 0x0, [⟨0, 48, .rwl, 0⟩]⟩,
  -- VOX_OUT_BASE
  ⟨0x0088, 1, 0x0, 1, 0x0, [⟨0, 48, .rwl, 0⟩]⟩,
  -- VOX_OUT_CFG
  ⟨0x0090, 1, 0x0, 1, 0x0, [⟨0, 4, .rwl, 0⟩, ⟨4, 32, .rwl, 0⟩, ⟨36, 16, .rwl, 0⟩, ⟨52, 1, .rwl, 0⟩]⟩,
  -- VOX_ELEV_BASE
  ⟨0x0098, 1, 0x0, 1, 0x0, [⟨0, 48, .rwl, 0⟩]⟩,
  -- VOX_OUT_POS
  ⟨0x00A0, 1, 0x0, 1, 0x0, [⟨0, 32, .ro, 0⟩, ⟨32, 32, .ro, 0⟩]⟩,
  -- VOX_RELEASE
  ⟨0x00A8, 1, 0x0, 1, 0x0, [⟨0, 32, .wo, 0⟩]⟩,
  -- VOX_STATUS
  ⟨0x00B0, 1, 0x0, 1, 0x0, [⟨0, 1, .ro, 0⟩, ⟨1, 1, .ro, 0⟩, ⟨2, 1, .ro, 0⟩, ⟨3, 2, .ro, 0⟩, ⟨5, 3, .ro, 0⟩, ⟨16, 16, .ro, 0⟩, ⟨32, 32, .ro, 0⟩]⟩,
  -- VOX_COUNTS
  ⟨0x00B8, 1, 0x0, 1, 0x0, [⟨0, 16, .ro, 0⟩, ⟨16, 16, .ro, 0⟩, ⟨32, 16, .ro, 0⟩, ⟨48, 16, .ro, 0⟩]⟩,
  -- VOX_REJECTS
  ⟨0x00C0, 1, 0x0, 1, 0x0, [⟨0, 32, .rc, 0⟩, ⟨32, 16, .rc, 0⟩]⟩,
  -- VOX_SRC_l_CTRL
  ⟨0x0100, 8, 0x60, 1, 0x0, [⟨0, 1, .rwl, 0⟩, ⟨1, 1, .rwl, 0⟩, ⟨2, 5, .rwl, 0⟩, ⟨7, 3, .rwl, 0⟩, ⟨10, 1, .rwl, 0⟩, ⟨16, 8, .rwl, 63⟩, ⟨24, 23, .rwl, 0⟩, ⟨48, 16, .rwl, 0⟩]⟩,
  -- VOX_SRC_l_FMT
  ⟨0x0108, 8, 0x60, 1, 0x0, [⟨0, 12, .rwl, 0⟩, ⟨12, 8, .rwl, 0⟩, ⟨20, 12, .rwl, 0⟩, ⟨32, 2, .rwl, 0⟩, ⟨34, 1, .rwl, 0⟩, ⟨35, 1, .rwl, 0⟩, ⟨48, 16, .rwl, 0⟩]⟩]
def regsVOX1 : List RegSpec := [
  -- VOX_SRC_l_FIELDS
  ⟨0x0110, 8, 0x60, 1, 0x0, [⟨0, 8, .rwl, 0⟩, ⟨8, 8, .rwl, 0⟩, ⟨16, 8, .rwl, 0⟩, ⟨24, 8, .rwl, 0⟩, ⟨32, 8, .rwl, 0⟩, ⟨40, 8, .rwl, 0⟩]⟩,
  -- VOX_SRC_l_SCALE
  ⟨0x0118, 8, 0x60, 1, 0x0, [⟨0, 32, .rwl, 0⟩, ⟨32, 16, .rwl, 0⟩, ⟨48, 16, .rwl, 0⟩]⟩,
  -- VOX_SRC_l_EXT_x
  ⟨0x0120, 8, 0x60, 6, 0x8, [⟨0, 32, .rwl, 0⟩, ⟨32, 32, .rwl, 0⟩]⟩,
  -- VOX_SRC_l_STATUS
  ⟨0x0150, 8, 0x60, 1, 0x0, [⟨0, 2, .ro, 0⟩, ⟨8, 8, .ro, 0⟩, ⟨16, 24, .ro, 0⟩, ⟨40, 24, .ro, 0⟩]⟩,
  -- VOX_SC_i_CFG
  ⟨0x0400, 8, 0x20, 1, 0x0, [⟨0, 1, .rwl, 0⟩, ⟨1, 1, .rwl, 0⟩, ⟨2, 3, .rwl, 0⟩, ⟨5, 1, .rwl, 0⟩, ⟨6, 1, .rwl, 0⟩, ⟨7, 1, .rwl, 0⟩]⟩,
  -- VOX_SC_i_LIMIT
  ⟨0x0408, 8, 0x20, 1, 0x0, [⟨0, 24, .rwl, 0⟩, ⟨24, 32, .rwl, 0⟩]⟩,
  -- VOX_SC_i_STATUS
  ⟨0x0410, 8, 0x20, 1, 0x0, [⟨0, 24, .ro, 0⟩, ⟨24, 32, .ro, 0⟩, ⟨56, 1, .ro, 0⟩, ⟨57, 1, .ro, 0⟩]⟩]
/-- Registers of the VOX block. -/
def regsVOX : List RegSpec := regsVOX0 ++ regsVOX1

def regsSQ0 : List RegSpec := [
  -- SQ_CTRL
  ⟨0x0000, 1, 0x0, 1, 0x0, [⟨0, 1, .w1s, 0⟩, ⟨1, 1, .w1s, 0⟩, ⟨2, 1, .w1s, 0⟩, ⟨3, 1, .w1s, 0⟩, ⟨4, 1, .w1s, 0⟩]⟩,
  -- SQ_STATE
  ⟨0x0008, 1, 0x0, 1, 0x0, [⟨0, 4, .ro, 4⟩, ⟨4, 2, .ro, 0⟩, ⟨6, 1, .ro, 0⟩, ⟨7, 1, .ro, 0⟩, ⟨8, 3, .ro, 0⟩, ⟨11, 1, .ro, 0⟩, ⟨16, 16, .ro, 0⟩, ⟨32, 5, .ro, 0⟩]⟩,
  -- SQ_IDENT
  ⟨0x0010, 1, 0x0, 1, 0x0, [⟨0, 16, .ro, 0⟩, ⟨16, 3, .ro, 0⟩, ⟨19, 3, .ro, 0⟩, ⟨22, 1, .ro, 0⟩, ⟨23, 5, .ro, 0⟩, ⟨28, 3, .ro, 0⟩]⟩,
  -- SQ_ENTRY
  ⟨0x0018, 1, 0x0, 1, 0x0, [⟨0, 22, .rw, 0⟩]⟩,
  -- SQ_PC
  ⟨0x0020, 1, 0x0, 1, 0x0, [⟨0, 22, .ro, 0⟩]⟩,
  -- SQ_TRAP
  ⟨0x0028, 1, 0x0, 1, 0x0, [⟨0, 8, .ro, 0⟩, ⟨8, 1, .ro, 0⟩, ⟨9, 3, .ro, 0⟩, ⟨32, 32, .ro, 0⟩]⟩,
  -- SQ_CFG
  ⟨0x0030, 1, 0x0, 1, 0x0, [⟨0, 1, .rwl, 1⟩, ⟨1, 3, .rwl, 6⟩, ⟨4, 12, .rwl, 64⟩, ⟨16, 1, .rwl, 0⟩, ⟨17, 3, .rwl, 0⟩]⟩,
  -- SQ_INQ_CFG
  ⟨0x0038, 1, 0x0, 1, 0x0, [⟨0, 8, .rwl, 0⟩, ⟨8, 8, .rwl, 0⟩, ⟨16, 8, .rwl, 0⟩, ⟨24, 8, .rwl, 0⟩, ⟨32, 8, .rwl, 0⟩, ⟨40, 8, .rwl, 0⟩, ⟨48, 8, .rwl, 0⟩, ⟨56, 8, .rwl, 0⟩]⟩,
  -- SQ_INQ_STATUS
  ⟨0x0040, 1, 0x0, 1, 0x0, [⟨0, 8, .ro, 0⟩, ⟨8, 8, .ro, 0⟩, ⟨16, 8, .ro, 0⟩, ⟨24, 8, .ro, 0⟩, ⟨32, 8, .ro, 0⟩, ⟨40, 8, .ro, 0⟩, ⟨48, 8, .ro, 0⟩, ⟨56, 8, .ro, 0⟩]⟩,
  -- SQ_MSG_COUNTS
  ⟨0x0048, 1, 0x0, 1, 0x0, [⟨0, 32, .ro, 0⟩, ⟨32, 32, .ro, 0⟩]⟩,
  -- SQ_REFUSED
  ⟨0x0050, 1, 0x0, 1, 0x0, [⟨0, 32, .rc, 0⟩, ⟨32, 16, .rc, 0⟩, ⟨48, 3, .rc, 0⟩]⟩,
  -- SQ_STALE
  ⟨0x0058, 1, 0x0, 1, 0x0, [⟨0, 32, .rc, 0⟩, ⟨32, 16, .rc, 0⟩, ⟨48, 3, .rc, 0⟩]⟩,
  -- SQ_ANSWERS
  ⟨0x0060, 1, 0x0, 1, 0x0, [⟨0, 16, .rc, 0⟩, ⟨16, 16, .rc, 0⟩, ⟨32, 16, .rc, 0⟩, ⟨48, 16, .rc, 0⟩]⟩,
  -- SQ_ROUTER
  ⟨0x0068, 1, 0x0, 1, 0x0, [⟨0, 4, .ro, 0⟩, ⟨4, 4, .ro, 0⟩, ⟨8, 1, .ro, 0⟩, ⟨16, 16, .ro, 0⟩, ⟨32, 16, .ro, 0⟩]⟩,
  -- SQ_REST
  ⟨0x0070, 1, 0x0, 1, 0x0, [⟨0, 1, .w1s, 0⟩, ⟨1, 1, .w1s, 0⟩, ⟨8, 1, .w1c, 0⟩, ⟨16, 16, .ro, 0⟩, ⟨32, 16, .ro, 0⟩, ⟨48, 16, .ro, 0⟩]⟩,
  -- SQ_PERF_CYCLES
  ⟨0x0078, 1, 0x0, 1, 0x0, [⟨0, 64, .ro, 0⟩]⟩,
  -- SQ_PERF_ARRAY
  ⟨0x0080, 1, 0x0, 1, 0x0, [⟨0, 32, .ro, 0⟩, ⟨32, 32, .ro, 0⟩]⟩,
  -- SQ_PERF_STALL
  ⟨0x0088, 1, 0x0, 1, 0x0, [⟨0, 32, .ro, 0⟩, ⟨32, 32, .ro, 0⟩]⟩,
  -- SQ_ECC
  ⟨0x0090, 1, 0x0, 1, 0x0, [⟨0, 16, .ro, 0⟩, ⟨16, 16, .ro, 0⟩, ⟨32, 22, .ro, 0⟩]⟩,
  -- SQ_EVENT
  ⟨0x0098, 1, 0x0, 1, 0x0, [⟨0, 1, .w1s, 0⟩, ⟨1, 1, .w1c, 0⟩]⟩]
def regsSQ1 : List RegSpec := [
  -- SQ_TAGS
  ⟨0x00A0, 1, 0x0, 1, 0x0, [⟨0, 32, .ro, 0⟩, ⟨32, 32, .ro, 0⟩]⟩,
  -- SQ_REJECTS
  ⟨0x00A8, 1, 0x0, 1, 0x0, [⟨0, 32, .rc, 0⟩, ⟨32, 16, .rc, 0⟩]⟩]
/-- Registers of the SQ block. -/
def regsSQ : List RegSpec := regsSQ0 ++ regsSQ1

def regsPL0 : List RegSpec := [
  -- PL_CTRL
  ⟨0x0000, 1, 0x0, 1, 0x0, [⟨0, 1, .w1s, 0⟩, ⟨1, 1, .w1s, 0⟩, ⟨2, 1, .w1s, 0⟩, ⟨3, 1, .w1s, 0⟩, ⟨4, 1, .w1s, 0⟩, ⟨5, 1, .w1s, 0⟩]⟩,
  -- PL_STATE
  ⟨0x0008, 1, 0x0, 1, 0x0, [⟨0, 4, .ro, 4⟩, ⟨4, 3, .ro, 0⟩, ⟨7, 1, .ro, 0⟩, ⟨8, 3, .ro, 0⟩, ⟨11, 1, .ro, 0⟩, ⟨12, 2, .ro, 3⟩, ⟨14, 1, .ro, 0⟩, ⟨15, 1, .ro, 0⟩, ⟨16, 16, .ro, 0⟩, ⟨32, 4, .ro, 0⟩, ⟨40, 16, .ro, 0⟩]⟩,
  -- PL_IDENT
  ⟨0x0010, 1, 0x0, 1, 0x0, [⟨0, 16, .ro, 0⟩, ⟨16, 6, .ro, 0⟩, ⟨22, 3, .ro, 0⟩]⟩,
  -- PL_CFG
  ⟨0x0018, 1, 0x0, 1, 0x0, [⟨0, 3, .rwl, 0⟩, ⟨3, 1, .rwl, 1⟩, ⟨4, 4, .rwl, 8⟩, ⟨8, 4, .rwl, 4⟩, ⟨12, 4, .rwl, 3⟩, ⟨16, 16, .rwl, 40960⟩, ⟨32, 12, .rwl, 50⟩, ⟨44, 8, .rwl, 8⟩, ⟨52, 12, .rwl, 64⟩]⟩,
  -- PL_LIMITS
  ⟨0x0020, 1, 0x0, 1, 0x0, [⟨0, 12, .rwl, 0⟩, ⟨12, 12, .rwl, 0⟩, ⟨24, 12, .rwl, 0⟩, ⟨36, 8, .rwl, 0⟩, ⟨44, 8, .rwl, 32⟩, ⟨52, 12, .rwl, 1000⟩]⟩,
  -- PL_CAL_CTRL
  ⟨0x0028, 1, 0x0, 1, 0x0, [⟨0, 2, .rw, 0⟩, ⟨16, 16, .ro, 0⟩, ⟨32, 16, .rw, 100⟩]⟩,
  -- PL_CAL_STATUS
  ⟨0x0030, 1, 0x0, 1, 0x0, [⟨0, 2, .ro, 0⟩, ⟨2, 1, .ro, 0⟩, ⟨3, 1, .ro, 0⟩, ⟨4, 3, .ro, 0⟩, ⟨8, 16, .ro, 0⟩, ⟨24, 16, .ro, 0⟩, ⟨40, 16, .ro, 0⟩, ⟨56, 8, .ro, 0⟩]⟩,
  -- PL_TEMP
  ⟨0x0038, 1, 0x0, 1, 0x0, [⟨0, 16, .ro, 0⟩, ⟨16, 16, .ro, 0⟩, ⟨32, 32, .ro, 0⟩]⟩,
  -- PL_EST
  ⟨0x0040, 1, 0x0, 1, 0x0, [⟨0, 16, .ro, 0⟩, ⟨16, 16, .ro, 0⟩, ⟨32, 8, .ro, 0⟩, ⟨48, 16, .ro, 0⟩]⟩,
  -- PL_EST_PEAK
  ⟨0x0048, 1, 0x0, 1, 0x0, [⟨0, 16, .rc, 0⟩, ⟨16, 16, .rc, 0⟩, ⟨32, 8, .rc, 0⟩]⟩,
  -- PL_BOUND
  ⟨0x0050, 1, 0x0, 1, 0x0, [⟨0, 24, .ro, 0⟩, ⟨24, 24, .ro, 0⟩]⟩,
  -- PL_TRACK
  ⟨0x0058, 1, 0x0, 1, 0x0, [⟨0, 32, .ro, 1065353216⟩]⟩,
  -- PL_JOBS
  ⟨0x0060, 1, 0x0, 1, 0x0, [⟨0, 32, .ro, 0⟩, ⟨32, 32, .ro, 0⟩]⟩,
  -- PL_FLAGS
  ⟨0x0068, 1, 0x0, 1, 0x0, [⟨0, 32, .rc, 0⟩, ⟨32, 32, .rc, 0⟩]⟩,
  -- PL_LOAD
  ⟨0x0070, 1, 0x0, 1, 0x0, [⟨0, 32, .rw, 0⟩, ⟨32, 10, .rw, 0⟩, ⟨42, 11, .rw, 0⟩]⟩,
  -- PL_WCHECK
  ⟨0x0078, 1, 0x0, 1, 0x0, [⟨0, 32, .ro, 0⟩, ⟨32, 16, .ro, 0⟩, ⟨48, 11, .ro, 0⟩, ⟨59, 1, .ro, 0⟩]⟩,
  -- PL_REST
  ⟨0x0080, 1, 0x0, 1, 0x0, [⟨0, 1, .w1s, 0⟩, ⟨1, 1, .w1s, 0⟩, ⟨8, 1, .w1c, 0⟩, ⟨16, 16, .ro, 0⟩, ⟨32, 16, .ro, 0⟩, ⟨48, 16, .ro, 0⟩]⟩,
  -- PL_RATE
  ⟨0x0088, 1, 0x0, 1, 0x0, [⟨0, 8, .ro, 0⟩, ⟨32, 32, .ro, 0⟩]⟩,
  -- PL_REJECTS
  ⟨0x0090, 1, 0x0, 1, 0x0, [⟨0, 32, .rc, 0⟩, ⟨32, 16, .rc, 0⟩]⟩,
  -- PL_BADMAP_k
  ⟨0x0100, 17, 0x8, 1, 0x0, [⟨0, 64, .ro, 0⟩]⟩]
def regsPL1 : List RegSpec := [
  -- PL_TRIM_j
  ⟨0x1000, 1056, 0x8, 1, 0x0, [⟨0, 16, .ro, 0⟩, ⟨16, 16, .ro, 0⟩, ⟨32, 12, .ro, 0⟩, ⟨44, 12, .ro, 0⟩, ⟨56, 1, .ro, 0⟩, ⟨57, 1, .ro, 0⟩]⟩,
  -- PL_FORCE_j
  ⟨0x4000, 1056, 0x8, 1, 0x0, [⟨0, 16, .rw, 0⟩, ⟨16, 16, .rw, 0⟩, ⟨32, 1, .rw, 0⟩]⟩]
/-- Registers of the PL block. -/
def regsPL : List RegSpec := regsPL0 ++ regsPL1

def regsAE0 : List RegSpec := [
  -- AE_CTRL
  ⟨0x0000, 1, 0x0, 1, 0x0, [⟨0, 1, .w1s, 0⟩, ⟨1, 1, .w1s, 0⟩]⟩,
  -- AE_STATE
  ⟨0x0008, 1, 0x0, 1, 0x0, [⟨0, 4, .ro, 4⟩, ⟨4, 3, .ro, 0⟩, ⟨8, 3, .ro, 0⟩, ⟨11, 1, .ro, 0⟩, ⟨16, 16, .ro, 0⟩, ⟨32, 5, .ro, 0⟩]⟩,
  -- AE_IDENT
  ⟨0x0010, 1, 0x0, 1, 0x0, [⟨0, 16, .ro, 0⟩, ⟨16, 3, .ro, 0⟩, ⟨19, 6, .ro, 0⟩, ⟨25, 3, .ro, 0⟩]⟩,
  -- AE_CFG
  ⟨0x0018, 1, 0x0, 1, 0x0, [⟨0, 3, .rwl, 0⟩, ⟨3, 1, .rwl, 1⟩, ⟨8, 4, .rwl, 8⟩]⟩,
  -- AE_JOBS
  ⟨0x0020, 1, 0x0, 1, 0x0, [⟨0, 32, .ro, 0⟩, ⟨32, 32, .ro, 0⟩]⟩,
  -- AE_BYTES
  ⟨0x0028, 1, 0x0, 1, 0x0, [⟨0, 64, .ro, 0⟩]⟩,
  -- AE_FLAGS
  ⟨0x0030, 1, 0x0, 1, 0x0, [⟨0, 16, .rc, 0⟩, ⟨16, 16, .rc, 0⟩, ⟨32, 16, .rc, 0⟩, ⟨48, 16, .rc, 0⟩]⟩,
  -- AE_REFUSALS
  ⟨0x0038, 1, 0x0, 1, 0x0, [⟨0, 16, .rc, 0⟩, ⟨16, 16, .rc, 0⟩, ⟨32, 16, .rc, 0⟩]⟩,
  -- AE_REST
  ⟨0x0040, 1, 0x0, 1, 0x0, [⟨0, 1, .w1s, 0⟩, ⟨1, 1, .w1s, 0⟩, ⟨8, 1, .w1c, 0⟩, ⟨16, 16, .ro, 0⟩, ⟨32, 16, .ro, 0⟩, ⟨48, 16, .ro, 0⟩]⟩,
  -- AE_REJECTS
  ⟨0x0048, 1, 0x0, 1, 0x0, [⟨0, 32, .rc, 0⟩, ⟨32, 16, .rc, 0⟩]⟩,
  -- AE_PERF
  ⟨0x0050, 1, 0x0, 1, 0x0, [⟨0, 32, .ro, 0⟩, ⟨32, 32, .ro, 0⟩]⟩]
/-- Registers of the AE block. -/
def regsAE : List RegSpec := regsAE0

def regsAES0 : List RegSpec := [
  -- KV_CTRL
  ⟨0x0800, 1, 0x0, 1, 0x0, [⟨0, 1, .w1s, 0⟩, ⟨1, 1, .rw, 0⟩]⟩,
  -- KV_PDT_BASE
  ⟨0x0808, 1, 0x0, 1, 0x0, [⟨0, 48, .rwl, 0⟩]⟩,
  -- KV_CENT_BASE
  ⟨0x0810, 1, 0x0, 1, 0x0, [⟨0, 48, .rwl, 0⟩]⟩,
  -- KV_SEQ_BASE
  ⟨0x0818, 1, 0x0, 1, 0x0, [⟨0, 48, .rwl, 0⟩]⟩,
  -- KV_DIR_BASE
  ⟨0x0820, 1, 0x0, 1, 0x0, [⟨0, 48, .rwl, 0⟩]⟩,
  -- KV_NODE_BASE
  ⟨0x0828, 1, 0x0, 1, 0x0, [⟨0, 48, .rwl, 0⟩]⟩,
  -- KV_FREE_BASE
  ⟨0x0830, 1, 0x0, 1, 0x0, [⟨0, 48, .rwl, 0⟩]⟩,
  -- KV_INTENT_BASE
  ⟨0x0838, 1, 0x0, 1, 0x0, [⟨0, 48, .rwl, 0⟩]⟩,
  -- KV_DIR_CFG
  ⟨0x0840, 1, 0x0, 1, 0x0, [⟨0, 4, .rwl, 15⟩, ⟨8, 16, .rwl, 0⟩]⟩,
  -- KV_STATUS
  ⟨0x0848, 1, 0x0, 1, 0x0, [⟨0, 1, .ro, 0⟩, ⟨16, 13, .ro, 0⟩, ⟨32, 19, .ro, 0⟩]⟩,
  -- KV_EVENTS
  ⟨0x0850, 1, 0x0, 1, 0x0, [⟨0, 16, .rc, 0⟩, ⟨16, 16, .rc, 0⟩, ⟨32, 16, .rc, 0⟩, ⟨48, 16, .rc, 0⟩]⟩,
  -- KV_POOL_p_RANGE
  ⟨0x0900, 8, 0x20, 1, 0x0, [⟨0, 24, .rwl, 0⟩, ⟨24, 24, .rwl, 0⟩]⟩,
  -- KV_POOL_p_LIMITS
  ⟨0x0908, 8, 0x20, 1, 0x0, [⟨0, 24, .rw, 0⟩, ⟨24, 24, .rw, 0⟩]⟩,
  -- KV_POOL_p_STATUS
  ⟨0x0910, 8, 0x20, 1, 0x0, [⟨0, 24, .ro, 0⟩, ⟨24, 24, .ro, 0⟩, ⟨48, 16, .ro, 0⟩]⟩,
  -- KV_POOL_p_COUNTS
  ⟨0x0918, 8, 0x20, 1, 0x0, [⟨0, 16, .rc, 0⟩, ⟨16, 16, .rc, 0⟩, ⟨32, 16, .rc, 0⟩, ⟨48, 16, .rc, 0⟩]⟩,
  -- KV_PROF_f_SHAPE
  ⟨0x0A00, 8, 0x20, 1, 0x0, [⟨0, 8, .rwl, 0⟩, ⟨8, 8, .rwl, 0⟩, ⟨16, 8, .rwl, 0⟩, ⟨24, 4, .rwl, 0⟩, ⟨28, 4, .rwl, 0⟩, ⟨32, 4, .rwl, 0⟩]⟩,
  -- KV_PROF_f_TAG
  ⟨0x0A08, 8, 0x20, 1, 0x0, [⟨0, 32, .rwl, 0⟩]⟩,
  -- KV_PROF_f_EVICT
  ⟨0x0A10, 8, 0x20, 1, 0x0, [⟨0, 8, .rwl, 1⟩, ⟨8, 8, .rwl, 2⟩, ⟨16, 4, .rwl, 4⟩]⟩,
  -- KV_PROF_f_BIAS
  ⟨0x0A18, 8, 0x20, 1, 0x0, [⟨0, 8, .rwl, 32⟩, ⟨8, 8, .rwl, 16⟩]⟩]
/-- Registers of the AES block. -/
def regsAES : List RegSpec := regsAES0

def regsMOTION0 : List RegSpec := [
  -- CC_CTRL
  ⟨0x0000, 1, 0x0, 1, 0x0, [⟨0, 1, .w1s, 0⟩, ⟨1, 1, .rw, 0⟩, ⟨2, 1, .w1s, 0⟩, ⟨3, 1, .w1s, 0⟩]⟩,
  -- CC_STATE
  ⟨0x0008, 1, 0x0, 1, 0x0, [⟨0, 4, .ro, 4⟩, ⟨4, 3, .ro, 0⟩, ⟨7, 1, .ro, 0⟩, ⟨8, 3, .ro, 0⟩, ⟨11, 1, .ro, 0⟩, ⟨16, 16, .ro, 0⟩, ⟨32, 4, .ro, 0⟩, ⟨36, 1, .ro, 0⟩, ⟨37, 1, .ro, 0⟩]⟩,
  -- CC_IDENT
  ⟨0x0010, 1, 0x0, 1, 0x0, [⟨0, 16, .ro, 0⟩]⟩,
  -- CC_CFG
  ⟨0x0018, 1, 0x0, 1, 0x0, [⟨0, 3, .rwl, 0⟩, ⟨3, 1, .rwl, 1⟩, ⟨4, 1, .rwl, 1⟩, ⟨5, 2, .rwl, 0⟩, ⟨7, 1, .rwl, 0⟩, ⟨8, 1, .rwl, 1⟩, ⟨9, 1, .rwl, 1⟩, ⟨16, 16, .rwl, 40960⟩, ⟨32, 16, .rwl, 0⟩, ⟨48, 1, .rwl, 0⟩]⟩,
  -- CC_COST
  ⟨0x0020, 1, 0x0, 1, 0x0, [⟨0, 32, .rwl, 1092616192⟩, ⟨32, 32, .rwl, 1065353216⟩]⟩,
  -- CC_MARGINS
  ⟨0x0028, 1, 0x0, 1, 0x0, [⟨0, 16, .rwl, 100⟩, ⟨16, 16, .rwl, 50⟩, ⟨32, 16, .rwl, 384⟩, ⟨48, 16, .rwl, 100⟩]⟩,
  -- CC_FB_CFG
  ⟨0x0030, 1, 0x0, 1, 0x0, [⟨0, 9, .rwl, 256⟩, ⟨9, 8, .rwl, 13⟩, ⟨17, 6, .rwl, 32⟩, ⟨23, 16, .rwl, 100⟩]⟩,
  -- CC_TRAJ_IDS
  ⟨0x0038, 1, 0x0, 1, 0x0, [⟨0, 32, .ro, 0⟩, ⟨32, 32, .ro, 0⟩]⟩,
  -- CC_TRAJ_STATE
  ⟨0x0040, 1, 0x0, 1, 0x0, [⟨0, 2, .ro, 0⟩, ⟨2, 2, .ro, 0⟩, ⟨4, 3, .ro, 0⟩, ⟨7, 1, .ro, 0⟩, ⟨8, 1, .ro, 0⟩, ⟨9, 1, .ro, 0⟩, ⟨16, 32, .ro, 0⟩]⟩,
  -- CC_LAST
  ⟨0x0048, 1, 0x0, 1, 0x0, [⟨0, 8, .ro, 0⟩, ⟨8, 1, .ro, 0⟩, ⟨9, 2, .ro, 0⟩, ⟨11, 1, .ro, 0⟩, ⟨16, 9, .ro, 0⟩, ⟨25, 9, .ro, 0⟩]⟩,
  -- CC_COUNTS
  ⟨0x0050, 1, 0x0, 1, 0x0, [⟨0, 32, .ro, 0⟩, ⟨32, 16, .ro, 0⟩, ⟨48, 16, .ro, 0⟩]⟩,
  -- CC_ENV
  ⟨0x0058, 1, 0x0, 1, 0x0, [⟨0, 32, .ro, 0⟩, ⟨32, 13, .ro, 0⟩, ⟨45, 11, .ro, 0⟩]⟩,
  -- CC_SDF_TV
  ⟨0x0060, 1, 0x0, 1, 0x0, [⟨0, 64, .ro, 0⟩]⟩,
  -- CC_BEV_TV
  ⟨0x0068, 1, 0x0, 1, 0x0, [⟨0, 64, .ro, 0⟩]⟩,
  -- CC_REJECTS
  ⟨0x0070, 1, 0x0, 1, 0x0, [⟨0, 32, .rc, 0⟩, ⟨32, 16, .rc, 0⟩]⟩,
  -- CC_ACTIVE_w
  ⟨0x2000, 1032, 0x8, 1, 0x0, [⟨0, 64, .ro, 0⟩]⟩,
  -- CC_STAGED_w
  ⟨0x5000, 1032, 0x8, 1, 0x0, [⟨0, 64, .ro, 0⟩]⟩,
  -- DYN_CTRL
  ⟨0x8000, 1, 0x0, 1, 0x0, [⟨0, 1, .w1s, 0⟩, ⟨1, 1, .rw, 0⟩, ⟨2, 1, .rw, 0⟩, ⟨3, 1, .w1s, 0⟩, ⟨4, 1, .w1s, 0⟩]⟩,
  -- DYN_STATE
  ⟨0x8008, 1, 0x0, 1, 0x0, [⟨0, 4, .ro, 4⟩, ⟨4, 3, .ro, 0⟩, ⟨7, 1, .ro, 0⟩, ⟨8, 1, .ro, 0⟩, ⟨9, 1, .ro, 0⟩, ⟨10, 1, .ro, 0⟩, ⟨11, 3, .ro, 0⟩, ⟨16, 16, .ro, 0⟩, ⟨32, 4, .ro, 0⟩, ⟨36, 4, .ro, 0⟩]⟩,
  -- DYN_IDENT
  ⟨0x8010, 1, 0x0, 1, 0x0, [⟨0, 16, .ro, 0⟩]⟩]
def regsMOTION1 : List RegSpec := [
  -- DYN_CFG
  ⟨0x8018, 1, 0x0, 1, 0x0, [⟨0, 2, .rwl, 1⟩, ⟨2, 3, .rwl, 0⟩, ⟨5, 1, .rwl, 0⟩, ⟨6, 1, .rwl, 1⟩, ⟨7, 1, .rwl, 0⟩, ⟨16, 16, .rwl, 40960⟩]⟩,
  -- DYN_PERIOD
  ⟨0x8020, 1, 0x0, 1, 0x0, [⟨0, 32, .rwl, 500000⟩, ⟨32, 20, .rwl, 0⟩]⟩,
  -- DYN_ADMM
  ⟨0x8028, 1, 0x0, 1, 0x0, [⟨0, 8, .rwl, 20⟩, ⟨8, 8, .rwl, 10⟩, ⟨32, 32, .rwl, 1036831949⟩]⟩,
  -- DYN_EPS
  ⟨0x8030, 1, 0x0, 1, 0x0, [⟨0, 32, .rwl, 981668463⟩, ⟨32, 32, .rwl, 981668463⟩]⟩,
  -- DYN_STEP
  ⟨0x8038, 1, 0x0, 1, 0x0, [⟨0, 32, .rwl, 0⟩, ⟨32, 32, .rwl, 0⟩]⟩,
  -- DYN_WEIGHTS
  ⟨0x8040, 1, 0x0, 1, 0x0, [⟨0, 32, .rwl, 953267991⟩, ⟨32, 32, .rwl, 897988541⟩]⟩,
  -- DYN_BASE_ADDR
  ⟨0x8048, 1, 0x0, 1, 0x0, [⟨0, 48, .rwl, 0⟩]⟩,
  -- DYN_MEAS_ADDR
  ⟨0x8050, 1, 0x0, 1, 0x0, [⟨0, 48, .rwl, 0⟩]⟩,
  -- DYN_CONTACT_ADDR
  ⟨0x8058, 1, 0x0, 1, 0x0, [⟨0, 48, .rwl, 0⟩]⟩,
  -- DYN_OUT_ADDR
  ⟨0x8060, 1, 0x0, 1, 0x0, [⟨0, 48, .rwl, 0⟩]⟩,
  -- DYN_LIMITS
  ⟨0x8068, 1, 0x0, 1, 0x0, [⟨0, 8, .rwl, 4⟩, ⟨8, 20, .rwl, 1000⟩, ⟨28, 24, .rwl, 0⟩]⟩,
  -- DYN_SIZE
  ⟨0x8070, 1, 0x0, 1, 0x0, [⟨0, 10, .ro, 0⟩, ⟨10, 11, .ro, 0⟩, ⟨32, 21, .ro, 0⟩]⟩,
  -- DYN_SIZE2
  ⟨0x8078, 1, 0x0, 1, 0x0, [⟨0, 15, .ro, 0⟩, ⟨32, 32, .ro, 0⟩]⟩,
  -- DYN_COUNTS
  ⟨0x8080, 1, 0x0, 1, 0x0, [⟨0, 32, .ro, 0⟩, ⟨32, 16, .ro, 0⟩, ⟨48, 16, .ro, 0⟩]⟩,
  -- DYN_COUNTS2
  ⟨0x8088, 1, 0x0, 1, 0x0, [⟨0, 16, .ro, 0⟩, ⟨16, 16, .ro, 0⟩, ⟨32, 16, .ro, 0⟩, ⟨48, 16, .ro, 0⟩]⟩,
  -- DYN_TIMES
  ⟨0x8090, 1, 0x0, 1, 0x0, [⟨0, 32, .ro, 0⟩, ⟨32, 32, .ro, 0⟩]⟩,
  -- DYN_REJECTS
  ⟨0x8098, 1, 0x0, 1, 0x0, [⟨0, 32, .rc, 0⟩, ⟨32, 16, .rc, 0⟩]⟩,
  -- DYN_CMD_w
  ⟨0x8800, 136, 0x8, 1, 0x0, [⟨0, 64, .ro, 0⟩]⟩]
/-- Registers of the MOTION block. -/
def regsMOTION : List RegSpec := regsMOTION0 ++ regsMOTION1

def regsREFLEX0 : List RegSpec := [
  -- RFX_CTRL
  ⟨0x0000, 1, 0x0, 1, 0x0, [⟨0, 1, .w1s, 0⟩, ⟨1, 1, .rw, 0⟩]⟩,
  -- RFX_MASK
  ⟨0x0008, 1, 0x0, 1, 0x0, [⟨0, 32, .rw, 0⟩]⟩,
  -- RFX_LATCHED
  ⟨0x0010, 1, 0x0, 1, 0x0, [⟨0, 32, .w1c, 0⟩]⟩,
  -- RFX_GPIO_OUT_EN
  ⟨0x0018, 1, 0x0, 1, 0x0, [⟨0, 64, .rwl, 0⟩]⟩,
  -- RFX_GPIO_OUT
  ⟨0x0020, 1, 0x0, 1, 0x0, [⟨0, 64, .rw, 0⟩]⟩,
  -- RFX_INHIBIT
  ⟨0x0028, 1, 0x0, 1, 0x0, [⟨0, 32, .rw, 0⟩]⟩,
  -- RFX_REJECTS
  ⟨0x0030, 1, 0x0, 1, 0x0, [⟨0, 32, .rc, 0⟩, ⟨32, 16, .rc, 0⟩]⟩,
  -- TAP_t_CFG
  ⟨0x0100, 64, 0x20, 1, 0x0, [⟨0, 1, .rwl, 0⟩, ⟨1, 3, .rwl, 0⟩, ⟨4, 4, .rwl, 0⟩, ⟨8, 10, .rwl, 0⟩, ⟨18, 4, .rwl, 0⟩, ⟨22, 1, .rwl, 0⟩, ⟨24, 32, .rwl, 0⟩]⟩,
  -- TAP_t_FILTER
  ⟨0x0108, 64, 0x20, 1, 0x0, [⟨0, 29, .rwl, 0⟩, ⟨29, 1, .rwl, 0⟩, ⟨32, 29, .rwl, 0⟩]⟩,
  -- TAP_t_VALUE
  ⟨0x0110, 64, 0x20, 1, 0x0, [⟨0, 32, .ro, 0⟩, ⟨32, 1, .ro, 0⟩, ⟨33, 1, .ro, 0⟩, ⟨40, 24, .ro, 0⟩]⟩,
  -- TAP_t_STAMP
  ⟨0x0118, 64, 0x20, 1, 0x0, [⟨0, 64, .ro, 0⟩]⟩,
  -- RULE_r_COND
  ⟨0x0900, 32, 0x20, 1, 0x0, [⟨0, 1, .rwl, 0⟩, ⟨1, 2, .rwl, 0⟩, ⟨3, 1, .rwl, 0⟩, ⟨4, 6, .rwl, 0⟩, ⟨10, 1, .rwl, 0⟩, ⟨11, 1, .rwl, 0⟩, ⟨12, 1, .rwl, 0⟩, ⟨13, 1, .rwl, 0⟩, ⟨14, 6, .rwl, 0⟩, ⟨20, 1, .rwl, 0⟩, ⟨32, 32, .rwl, 0⟩]⟩,
  -- RULE_r_COND2
  ⟨0x0908, 32, 0x20, 1, 0x0, [⟨0, 32, .rwl, 0⟩, ⟨32, 32, .rwl, 0⟩]⟩,
  -- RULE_r_ACTION
  ⟨0x0910, 32, 0x20, 1, 0x0, [⟨0, 6, .rwl, 0⟩, ⟨6, 2, .rwl, 0⟩, ⟨8, 16, .rwl, 0⟩, ⟨24, 5, .rwl, 0⟩, ⟨29, 1, .rwl, 0⟩, ⟨30, 1, .rwl, 0⟩, ⟨32, 32, .rwl, 0⟩]⟩,
  -- RULE_r_STATUS
  ⟨0x0918, 32, 0x20, 1, 0x0, [⟨0, 32, .ro, 0⟩, ⟨32, 16, .ro, 0⟩]⟩,
  -- EG_s_CFG
  ⟨0x0D00, 32, 0x20, 1, 0x0, [⟨0, 1, .rwl, 0⟩, ⟨1, 1, .rwl, 0⟩, ⟨2, 3, .rwl, 0⟩, ⟨5, 3, .rwl, 0⟩, ⟨8, 2, .rwl, 0⟩, ⟨10, 9, .rwl, 0⟩, ⟨19, 1, .rwl, 0⟩, ⟨20, 1, .rwl, 0⟩, ⟨21, 1, .rwl, 0⟩, ⟨23, 29, .rwl, 0⟩]⟩,
  -- EG_s_TX
  ⟨0x0D08, 32, 0x20, 1, 0x0, [⟨0, 8, .rwl, 0⟩]⟩,
  -- EG_s_SEND
  ⟨0x0D10, 32, 0x20, 1, 0x0, [⟨0, 1, .wo, 0⟩]⟩,
  -- EG_s_STATUS
  ⟨0x0D18, 32, 0x20, 1, 0x0, [⟨0, 24, .ro, 0⟩, ⟨24, 8, .ro, 0⟩, ⟨32, 8, .ro, 0⟩, ⟨40, 8, .ro, 0⟩, ⟨48, 8, .ro, 0⟩]⟩,
  -- EG_GCL_p_CTRL
  ⟨0x1100, 4, 0x20, 1, 0x0, [⟨0, 1, .rw, 0⟩, ⟨1, 9, .rw, 0⟩, ⟨10, 3, .rw, 0⟩]⟩]
def regsREFLEX1 : List RegSpec := [
  -- EG_GCL_p_BASE
  ⟨0x1108, 4, 0x20, 1, 0x0, [⟨0, 64, .rw, 0⟩]⟩,
  -- EG_GCL_p_CYCLE
  ⟨0x1110, 4, 0x20, 1, 0x0, [⟨0, 32, .rw, 0⟩]⟩,
  -- EG_GCL_p_STATUS
  ⟨0x1118, 4, 0x20, 1, 0x0, [⟨0, 8, .ro, 0⟩, ⟨32, 32, .ro, 0⟩]⟩,
  -- EG_s_TEMPLATE_w
  ⟨0x2000, 32, 0x100, 32, 0x8, [⟨0, 64, .rw, 0⟩]⟩,
  -- EG_s_FIELD_k
  ⟨0x4000, 32, 0x80, 16, 0x8, [⟨0, 12, .rw, 0⟩, ⟨12, 4, .rw, 0⟩, ⟨16, 1, .rw, 0⟩, ⟨18, 6, .rw, 0⟩, ⟨24, 2, .rw, 0⟩, ⟨26, 6, .rw, 0⟩, ⟨32, 32, .rw, 0⟩]⟩,
  -- EG_GCL_p_ENTRY_i
  ⟨0x5000, 4, 0x800, 256, 0x8, [⟨0, 8, .rw, 0⟩, ⟨8, 32, .rw, 0⟩]⟩]
/-- Registers of the REFLEX block. -/
def regsREFLEX : List RegSpec := regsREFLEX0 ++ regsREFLEX1

def regsMBX0 : List RegSpec := [
  -- MBX_CTRL
  ⟨0x0000, 1, 0x0, 1, 0x0, [⟨0, 1, .w1s, 0⟩]⟩,
  -- MBX_CFG
  ⟨0x0008, 1, 0x0, 1, 0x0, [⟨0, 16, .rwl, 1000⟩, ⟨16, 3, .rwl, 0⟩, ⟨19, 4, .rwl, 8⟩]⟩,
  -- MBX_PEER_CFG
  ⟨0x0010, 1, 0x0, 1, 0x0, [⟨0, 3, .rwl, 0⟩, ⟨4, 3, .rwl, 0⟩, ⟨8, 3, .rwl, 0⟩, ⟨12, 3, .rwl, 0⟩, ⟨16, 3, .rwl, 0⟩, ⟨20, 3, .rwl, 0⟩, ⟨3, 1, .rwl, 0⟩, ⟨7, 1, .rwl, 0⟩, ⟨11, 1, .rwl, 0⟩, ⟨15, 1, .rwl, 0⟩, ⟨19, 1, .rwl, 0⟩, ⟨23, 1, .rwl, 0⟩]⟩,
  -- MBX_STATUS
  ⟨0x0018, 1, 0x0, 1, 0x0, [⟨0, 16, .ro, 0⟩, ⟨16, 16, .ro, 0⟩]⟩,
  -- MBX_DISPUTES
  ⟨0x0020, 1, 0x0, 1, 0x0, [⟨0, 32, .rc, 0⟩, ⟨32, 16, .rc, 0⟩]⟩,
  -- MBX_REJECTS
  ⟨0x0028, 1, 0x0, 1, 0x0, [⟨0, 32, .rc, 0⟩, ⟨32, 16, .rc, 0⟩]⟩,
  -- MB_m_CTRL
  ⟨0x0100, 16, 0x40, 1, 0x0, [⟨0, 1, .rw, 0⟩, ⟨1, 1, .w1s, 0⟩, ⟨2, 1, .w1s, 0⟩, ⟨3, 1, .rw, 1⟩]⟩,
  -- MB_m_DOORBELL
  ⟨0x0108, 16, 0x40, 1, 0x0, [⟨0, 7, .wo, 0⟩]⟩,
  -- MB_m_RESP_HEAD
  ⟨0x0110, 16, 0x40, 1, 0x0, [⟨0, 7, .wo, 0⟩]⟩,
  -- MB_m_POS
  ⟨0x0118, 16, 0x40, 1, 0x0, [⟨0, 7, .ro, 0⟩, ⟨8, 7, .ro, 0⟩, ⟨16, 7, .ro, 0⟩, ⟨24, 7, .ro, 0⟩]⟩,
  -- MB_m_SEQ
  ⟨0x0120, 16, 0x40, 1, 0x0, [⟨0, 32, .ro, 0⟩, ⟨32, 1, .ro, 0⟩]⟩,
  -- MB_m_EXEC
  ⟨0x0128, 16, 0x40, 1, 0x0, [⟨0, 8, .ro, 0⟩, ⟨8, 1, .ro, 0⟩, ⟨32, 32, .ro, 0⟩]⟩,
  -- MB_m_COUNTS
  ⟨0x0130, 16, 0x40, 1, 0x0, [⟨0, 32, .ro, 0⟩, ⟨32, 16, .ro, 0⟩, ⟨48, 16, .ro, 0⟩]⟩,
  -- MB_m_ERRORS
  ⟨0x0138, 16, 0x40, 1, 0x0, [⟨0, 16, .ro, 0⟩, ⟨16, 16, .ro, 0⟩, ⟨32, 16, .ro, 0⟩, ⟨48, 16, .ro, 0⟩]⟩]
/-- Registers of the MBX block. -/
def regsMBX : List RegSpec := regsMBX0

def regsCFG0 : List RegSpec := [
  -- CFG_CTRL
  ⟨0x0000, 1, 0x0, 1, 0x0, [⟨0, 1, .w1s, 0⟩]⟩,
  -- CFG_STATUS
  ⟨0x0008, 1, 0x0, 1, 0x0, [⟨0, 1, .ro, 0⟩, ⟨1, 1, .ro, 0⟩, ⟨2, 1, .ro, 0⟩, ⟨3, 2, .ro, 0⟩, ⟨5, 1, .ro, 0⟩, ⟨8, 4, .ro, 0⟩, ⟨16, 8, .ro, 0⟩]⟩,
  -- CFG_BANK_A
  ⟨0x0010, 1, 0x0, 1, 0x0, [⟨0, 32, .ro, 0⟩, ⟨32, 6, .ro, 0⟩, ⟨38, 2, .ro, 0⟩, ⟨40, 6, .ro, 0⟩, ⟨46, 1, .ro, 0⟩]⟩,
  -- CFG_BANK_B
  ⟨0x0018, 1, 0x0, 1, 0x0, [⟨0, 32, .ro, 0⟩, ⟨32, 6, .ro, 0⟩, ⟨38, 2, .ro, 0⟩, ⟨40, 6, .ro, 0⟩, ⟨46, 1, .ro, 0⟩]⟩,
  -- CFG_OTP
  ⟨0x0020, 1, 0x0, 1, 0x0, [⟨0, 6, .ro, 0⟩, ⟨8, 4, .ro, 0⟩, ⟨12, 4, .ro, 0⟩]⟩,
  -- CFG_RECORDS
  ⟨0x0028, 1, 0x0, 1, 0x0, [⟨0, 16, .ro, 0⟩, ⟨16, 16, .ro, 0⟩, ⟨32, 16, .ro, 0⟩, ⟨48, 16, .ro, 0⟩]⟩,
  -- CFG_REJECTS
  ⟨0x0030, 1, 0x0, 1, 0x0, [⟨0, 32, .rc, 0⟩, ⟨32, 16, .rc, 0⟩]⟩]
/-- Registers of the CFG block. -/
def regsCFG : List RegSpec := regsCFG0

def regsPART0 : List RegSpec := [
  -- PART_CTRL
  ⟨0x0000, 1, 0x0, 1, 0x0, [⟨0, 1, .w1s, 0⟩]⟩,
  -- PART_SCHED_CTRL
  ⟨0x0008, 1, 0x0, 1, 0x0, [⟨0, 1, .rwl, 0⟩, ⟨1, 3, .rwl, 0⟩, ⟨4, 5, .rwl, 0⟩]⟩,
  -- PART_SCHED_BASE
  ⟨0x0010, 1, 0x0, 1, 0x0, [⟨0, 64, .rwl, 0⟩]⟩,
  -- PART_SCHED_CYCLE
  ⟨0x0018, 1, 0x0, 1, 0x0, [⟨0, 32, .rwl, 0⟩]⟩,
  -- PART_SCHED_STATUS
  ⟨0x0020, 1, 0x0, 1, 0x0, [⟨0, 4, .ro, 0⟩, ⟨32, 32, .ro, 0⟩]⟩,
  -- PART_SHARE_FREE
  ⟨0x0028, 1, 0x0, 1, 0x0, [⟨0, 8, .ro, 248⟩]⟩,
  -- PART_REJECTS
  ⟨0x0030, 1, 0x0, 1, 0x0, [⟨0, 32, .rc, 0⟩, ⟨32, 16, .rc, 0⟩]⟩,
  -- PART_WIN_k
  ⟨0x0080, 16, 0x8, 1, 0x0, [⟨0, 32, .rwl, 0⟩, ⟨32, 8, .rwl, 0⟩]⟩,
  -- PART_p_STATE
  ⟨0x0100, 8, 0x80, 1, 0x0, [⟨0, 2, .ro, 0⟩, ⟨8, 8, .ro, 0⟩, ⟨16, 16, .ro, 0⟩, ⟨32, 32, .ro, 0⟩]⟩,
  -- PART_p_SHARE
  ⟨0x0108, 8, 0x80, 1, 0x0, [⟨0, 8, .ro, 0⟩, ⟨8, 8, .ro, 0⟩]⟩,
  -- PART_p_MEM_k
  ⟨0x0110, 8, 0x80, 4, 0x8, [⟨0, 32, .ro, 0⟩, ⟨32, 32, .ro, 0⟩]⟩,
  -- PART_p_SQUARES
  ⟨0x0130, 8, 0x80, 1, 0x0, [⟨0, 64, .ro, 0⟩]⟩,
  -- PART_p_BOARD
  ⟨0x0138, 8, 0x80, 1, 0x0, [⟨0, 32, .ro, 0⟩, ⟨32, 8, .ro, 0⟩, ⟨40, 12, .ro, 0⟩]⟩,
  -- PART_p_FRAME
  ⟨0x0140, 8, 0x80, 1, 0x0, [⟨0, 5, .ro, 0⟩, ⟨32, 32, .ro, 0⟩]⟩,
  -- PART_p_TIME
  ⟨0x0148, 8, 0x80, 1, 0x0, [⟨0, 8, .ro, 0⟩, ⟨8, 8, .ro, 0⟩, ⟨16, 16, .ro, 0⟩, ⟨32, 16, .ro, 0⟩]⟩,
  -- PART_p_PE
  ⟨0x0150, 8, 0x80, 1, 0x0, [⟨0, 64, .ro, 0⟩]⟩,
  -- PART_SQ_n_SHARE
  ⟨0x0800, 64, 0x8, 1, 0x0, [⟨0, 1, .ro, 0⟩, ⟨1, 3, .ro, 0⟩, ⟨4, 6, .ro, 0⟩, ⟨16, 1, .ro, 0⟩]⟩]
/-- Registers of the PART block. -/
def regsPART : List RegSpec := regsPART0

def regsSAFETY0 : List RegSpec := [
  -- SAFE_CTRL
  ⟨0x0000, 1, 0x0, 1, 0x0, [⟨0, 1, .w1s, 0⟩, ⟨1, 1, .w1s, 0⟩, ⟨2, 1, .w1s, 0⟩]⟩,
  -- SAFE_STATUS
  ⟨0x0008, 1, 0x0, 1, 0x0, [⟨0, 2, .ro, 0⟩, ⟨2, 1, .ro, 0⟩, ⟨3, 1, .ro, 0⟩, ⟨4, 1, .ro, 0⟩, ⟨8, 8, .ro, 0⟩, ⟨16, 11, .ro, 0⟩, ⟨32, 16, .ro, 0⟩, ⟨48, 16, .ro, 0⟩]⟩,
  -- SAFE_CAUSE
  ⟨0x0010, 1, 0x0, 1, 0x0, [⟨0, 16, .ro, 0⟩, ⟨32, 32, .ro, 0⟩]⟩,
  -- SAFE_TIMES
  ⟨0x0018, 1, 0x0, 1, 0x0, [⟨0, 32, .ro, 0⟩, ⟨32, 32, .ro, 0⟩]⟩,
  -- SAFE_CFG
  ⟨0x0020, 1, 0x0, 1, 0x0, [⟨0, 16, .rwl, 1000⟩, ⟨16, 32, .rwl, 0⟩, ⟨48, 4, .rwl, 3⟩, ⟨52, 12, .rwl, 60⟩]⟩,
  -- CASTLE_STATUS
  ⟨0x0028, 1, 0x0, 1, 0x0, [⟨0, 16, .ro, 0⟩, ⟨16, 16, .ro, 0⟩, ⟨32, 16, .ro, 0⟩, ⟨48, 1, .ro, 0⟩, ⟨49, 1, .ro, 0⟩, ⟨50, 1, .ro, 0⟩]⟩,
  -- CASTLE_CFG
  ⟨0x0030, 1, 0x0, 1, 0x0, [⟨0, 16, .rwl, 1000⟩]⟩,
  -- ROT_CFG
  ⟨0x0038, 1, 0x0, 1, 0x0, [⟨0, 1, .rw, 1⟩, ⟨1, 8, .rwl, 0⟩, ⟨9, 20, .rwl, 1000⟩, ⟨29, 16, .rwl, 5000⟩, ⟨45, 16, .rwl, 1000⟩, ⟨61, 1, .rwl, 1⟩]⟩,
  -- ROT_STATUS
  ⟨0x0040, 1, 0x0, 1, 0x0, [⟨0, 8, .ro, 0⟩, ⟨16, 16, .ro, 0⟩, ⟨32, 16, .ro, 0⟩, ⟨48, 16, .ro, 0⟩]⟩,
  -- ROT_FAILS
  ⟨0x0048, 1, 0x0, 1, 0x0, [⟨0, 16, .rc, 0⟩, ⟨16, 16, .rc, 0⟩, ⟨32, 16, .rc, 0⟩]⟩,
  -- ARB_STATUS
  ⟨0x0050, 1, 0x0, 1, 0x0, [⟨0, 16, .ro, 0⟩, ⟨16, 16, .ro, 0⟩, ⟨32, 1, .ro, 0⟩]⟩,
  -- CASTLE_INBOX
  ⟨0x0058, 1, 0x0, 1, 0x0, [⟨0, 9, .ro, 0⟩, ⟨16, 16, .ro, 0⟩]⟩,
  -- VOX_TEST
  ⟨0x0060, 1, 0x0, 1, 0x0, [⟨0, 48, .rwl, 0⟩]⟩,
  -- SAFE_REJECTS
  ⟨0x0068, 1, 0x0, 1, 0x0, [⟨0, 32, .rc, 0⟩, ⟨32, 16, .rc, 0⟩]⟩,
  -- SC_n_CFG
  ⟨0x0100, 128, 0x20, 1, 0x0, [⟨0, 1, .rw, 0⟩, ⟨1, 1, .rwl, 0⟩, ⟨2, 1, .rwl, 0⟩, ⟨3, 1, .rwl, 0⟩, ⟨4, 3, .rwl, 0⟩, ⟨16, 16, .rwl, 0⟩, ⟨32, 32, .rwl, 0⟩]⟩,
  -- SC_n_WINDOW
  ⟨0x0108, 128, 0x20, 1, 0x0, [⟨0, 32, .rwl, 0⟩, ⟨32, 32, .rwl, 0⟩]⟩,
  -- SC_n_STATUS
  ⟨0x0110, 128, 0x20, 1, 0x0, [⟨0, 2, .ro, 0⟩, ⟨2, 1, .ro, 0⟩, ⟨3, 1, .ro, 0⟩, ⟨4, 1, .ro, 0⟩, ⟨16, 16, .ro, 0⟩, ⟨32, 16, .ro, 0⟩, ⟨48, 16, .ro, 0⟩]⟩,
  -- SC_n_KICK
  ⟨0x0118, 128, 0x20, 1, 0x0, [⟨0, 16, .wo, 0⟩]⟩,
  -- TS_t_CFG
  ⟨0x1100, 64, 0x20, 1, 0x0, [⟨0, 1, .rw, 0⟩, ⟨1, 1, .rwl, 0⟩, ⟨2, 1, .rwl, 0⟩, ⟨3, 1, .rwl, 0⟩, ⟨4, 3, .rwl, 0⟩, ⟨16, 16, .rwl, 0⟩, ⟨32, 32, .rwl, 0⟩]⟩,
  -- TS_t_LIMITS
  ⟨0x1108, 64, 0x20, 1, 0x0, [⟨0, 20, .rwl, 0⟩, ⟨20, 22, .rwl, 0⟩, ⟨42, 22, .rwl, 0⟩]⟩]
def regsSAFETY1 : List RegSpec := [
  -- TS_t_STATUS
  ⟨0x1110, 64, 0x20, 1, 0x0, [⟨0, 2, .ro, 0⟩, ⟨2, 1, .ro, 0⟩, ⟨3, 5, .ro, 0⟩, ⟨16, 16, .ro, 0⟩, ⟨32, 32, .ro, 0⟩]⟩,
  -- TS_t_MARK
  ⟨0x1118, 64, 0x20, 1, 0x0, [⟨0, 2, .wo, 0⟩]⟩,
  -- FZ_s_CFG
  ⟨0x1900, 32, 0x10, 1, 0x0, [⟨0, 2, .rwl, 1⟩, ⟨2, 8, .rwl, 0⟩, ⟨32, 32, .rwl, 0⟩]⟩,
  -- FZ_s_STATUS
  ⟨0x1908, 32, 0x10, 1, 0x0, [⟨0, 1, .ro, 0⟩, ⟨8, 8, .ro, 0⟩, ⟨16, 16, .ro, 0⟩, ⟨32, 16, .ro, 0⟩]⟩,
  -- CP_c_CFG
  ⟨0x2000, 32, 0x40, 1, 0x0, [⟨0, 1, .rwl, 0⟩, ⟨1, 4, .rwl, 0⟩, ⟨5, 1, .rwl, 0⟩, ⟨6, 4, .rwl, 0⟩, ⟨10, 4, .rwl, 0⟩, ⟨14, 1, .rwl, 0⟩, ⟨15, 1, .rwl, 0⟩, ⟨16, 1, .rwl, 0⟩, ⟨17, 1, .rwl, 0⟩, ⟨18, 1, .rwl, 0⟩, ⟨32, 17, .rwl, 0⟩]⟩,
  -- CP_c_TOL
  ⟨0x2008, 32, 0x40, 1, 0x0, [⟨0, 32, .rwl, 0⟩, ⟨32, 32, .rwl, 0⟩]⟩,
  -- CP_c_BUDGET
  ⟨0x2010, 32, 0x40, 1, 0x0, [⟨0, 32, .rwl, 0⟩, ⟨32, 32, .rwl, 0⟩]⟩,
  -- CP_c_POLICY
  ⟨0x2018, 32, 0x40, 1, 0x0, [⟨0, 1, .rwl, 0⟩, ⟨1, 2, .rwl, 0⟩, ⟨3, 1, .rwl, 0⟩, ⟨4, 1, .rwl, 0⟩, ⟨5, 5, .rwl, 0⟩, ⟨10, 5, .rwl, 0⟩, ⟨16, 16, .rwl, 0⟩, ⟨32, 6, .rwl, 0⟩, ⟨38, 6, .rwl, 0⟩, ⟨44, 20, .rwl, 0⟩]⟩,
  -- CP_c_BUF
  ⟨0x2020, 32, 0x40, 1, 0x0, [⟨0, 16, .rwl, 0⟩, ⟨16, 16, .rwl, 0⟩, ⟨32, 16, .rwl, 0⟩, ⟨48, 1, .rwl, 0⟩]⟩,
  -- CP_c_VERDICT
  ⟨0x2028, 32, 0x40, 1, 0x0, [⟨0, 32, .ro, 0⟩, ⟨32, 1, .ro, 0⟩, ⟨33, 2, .ro, 0⟩, ⟨35, 8, .ro, 0⟩, ⟨43, 1, .ro, 0⟩, ⟨44, 6, .ro, 0⟩, ⟨50, 1, .ro, 0⟩, ⟨51, 1, .ro, 0⟩]⟩,
  -- CP_c_METRICS
  ⟨0x2030, 32, 0x40, 1, 0x0, [⟨0, 32, .ro, 0⟩, ⟨32, 32, .ro, 0⟩]⟩,
  -- CP_c_COUNTS
  ⟨0x2038, 32, 0x40, 1, 0x0, [⟨0, 16, .ro, 0⟩, ⟨16, 16, .ro, 0⟩, ⟨32, 16, .ro, 0⟩, ⟨48, 8, .ro, 0⟩, ⟨56, 8, .ro, 0⟩]⟩,
  -- ROT_ENTRY_i
  ⟨0x3000, 128, 0x8, 1, 0x0, [⟨0, 16, .rwl, 0⟩, ⟨16, 1, .rwl, 0⟩]⟩]
/-- Registers of the SAFETY block. -/
def regsSAFETY : List RegSpec := regsSAFETY0 ++ regsSAFETY1

def regsMEMCTL0 : List RegSpec := [
  -- MC_CTRL
  ⟨0x0000, 1, 0x0, 1, 0x0, [⟨0, 1, .w1s, 0⟩, ⟨1, 1, .rw, 0⟩]⟩,
  -- MC_CFG
  ⟨0x0008, 1, 0x0, 1, 0x0, [⟨0, 8, .rwl, 8⟩, ⟨16, 8, .rwl, 0⟩]⟩,
  -- MC_STATUS
  ⟨0x0010, 1, 0x0, 1, 0x0, [⟨0, 8, .ro, 0⟩, ⟨8, 8, .ro, 0⟩, ⟨16, 8, .ro, 0⟩]⟩,
  -- MC_SCRUB
  ⟨0x0018, 1, 0x0, 1, 0x0, [⟨0, 32, .ro, 0⟩, ⟨32, 16, .ro, 0⟩]⟩,
  -- MC_ECC
  ⟨0x0020, 1, 0x0, 1, 0x0, [⟨0, 32, .rc, 0⟩, ⟨32, 16, .rc, 0⟩, ⟨48, 16, .rc, 0⟩]⟩,
  -- MC_RETIRE
  ⟨0x0028, 1, 0x0, 1, 0x0, [⟨0, 24, .ro, 0⟩, ⟨24, 24, .ro, 0⟩]⟩,
  -- MC_ERR_HEAD
  ⟨0x0030, 1, 0x0, 1, 0x0, [⟨0, 3, .ro, 0⟩, ⟨32, 32, .ro, 0⟩]⟩,
  -- MC_REJECTS
  ⟨0x0038, 1, 0x0, 1, 0x0, [⟨0, 32, .rc, 0⟩, ⟨32, 16, .rc, 0⟩]⟩,
  -- ERR_ADDR_k
  ⟨0x0040, 8, 0x10, 1, 0x0, [⟨0, 48, .ro, 0⟩]⟩,
  -- ERR_INFO_k
  ⟨0x0048, 8, 0x10, 1, 0x0, [⟨0, 2, .ro, 0⟩, ⟨2, 3, .ro, 0⟩, ⟨5, 1, .ro, 0⟩, ⟨6, 1, .ro, 0⟩, ⟨8, 3, .ro, 0⟩, ⟨16, 16, .ro, 0⟩, ⟨32, 32, .ro, 0⟩]⟩,
  -- MC_SHARE_p
  ⟨0x0100, 8, 0x10, 1, 0x0, [⟨0, 32, .ro, 0⟩, ⟨32, 16, .ro, 0⟩, ⟨48, 16, .ro, 0⟩]⟩,
  -- MC_SHARE_p_TOTAL
  ⟨0x0108, 8, 0x10, 1, 0x0, [⟨0, 64, .ro, 0⟩]⟩,
  -- MC_SHARE_NONE
  ⟨0x0180, 1, 0x0, 1, 0x0, [⟨0, 32, .ro, 0⟩, ⟨32, 16, .ro, 0⟩, ⟨48, 16, .ro, 0⟩]⟩,
  -- MC_c_BW
  ⟨0x0200, 8, 0x8, 1, 0x0, [⟨0, 64, .ro, 0⟩]⟩,
  -- MC_IRQ_ROUTE_i
  ⟨0x0240, 32, 0x8, 1, 0x0, [⟨0, 4, .rw, 0⟩, ⟨4, 1, .rw, 0⟩, ⟨5, 3, .rw, 0⟩, ⟨8, 11, .rw, 0⟩]⟩]
/-- Registers of the MEMCTL block. -/
def regsMEMCTL : List RegSpec := regsMEMCTL0

def regsLINK0 : List RegSpec := [
  -- LINK_CTRL
  ⟨0x0000, 1, 0x0, 1, 0x0, [⟨0, 1, .w1s, 0⟩, ⟨1, 1, .rw, 0⟩, ⟨2, 1, .w1s, 0⟩, ⟨3, 1, .rw, 0⟩]⟩,
  -- LINK_CFG
  ⟨0x0008, 1, 0x0, 1, 0x0, [⟨0, 16, .rwl, 100⟩, ⟨16, 16, .rwl, 100⟩, ⟨32, 8, .rwl, 8⟩]⟩,
  -- NET_STATUS
  ⟨0x0010, 1, 0x0, 1, 0x0, [⟨0, 2, .ro, 0⟩, ⟨2, 3, .ro, 0⟩, ⟨5, 1, .ro, 0⟩, ⟨8, 8, .ro, 0⟩, ⟨16, 8, .ro, 0⟩, ⟨32, 16, .ro, 0⟩]⟩,
  -- NET_ROOT_SERIAL
  ⟨0x0018, 1, 0x0, 1, 0x0, [⟨0, 64, .ro, 0⟩]⟩,
  -- NET_ROUTE
  ⟨0x0020, 1, 0x0, 1, 0x0, [⟨0, 2, .ro, 0⟩, ⟨4, 2, .ro, 0⟩, ⟨8, 2, .ro, 0⟩, ⟨12, 2, .ro, 0⟩, ⟨16, 2, .ro, 0⟩, ⟨20, 2, .ro, 0⟩, ⟨24, 2, .ro, 0⟩, ⟨28, 2, .ro, 0⟩, ⟨2, 1, .ro, 0⟩, ⟨6, 1, .ro, 0⟩, ⟨10, 1, .ro, 0⟩, ⟨14, 1, .ro, 0⟩, ⟨18, 1, .ro, 0⟩, ⟨22, 1, .ro, 0⟩, ⟨26, 1, .ro, 0⟩, ⟨30, 1, .ro, 0⟩, ⟨3, 1, .ro, 0⟩, ⟨7, 1, .ro, 0⟩, ⟨11, 1, .ro, 0⟩, ⟨15, 1, .ro, 0⟩, ⟨19, 1, .ro, 0⟩, ⟨23, 1, .ro, 0⟩, ⟨27, 1, .ro, 0⟩, ⟨31, 1, .ro, 0⟩]⟩,
  -- PCIE_STATUS
  ⟨0x0028, 1, 0x0, 1, 0x0, [⟨0, 1, .ro, 0⟩, ⟨1, 1, .ro, 0⟩, ⟨2, 3, .ro, 0⟩, ⟨5, 4, .ro, 0⟩]⟩,
  -- PCIE_ERRORS
  ⟨0x0030, 1, 0x0, 1, 0x0, [⟨0, 16, .rc, 0⟩, ⟨16, 16, .rc, 0⟩, ⟨32, 16, .rc, 0⟩]⟩,
  -- LINK_REJECTS
  ⟨0x0038, 1, 0x0, 1, 0x0, [⟨0, 32, .rc, 0⟩, ⟨32, 16, .rc, 0⟩]⟩,
  -- LINK_PEER_i
  ⟨0x0100, 6, 0x8, 1, 0x0, [⟨0, 3, .rwl, 0⟩, ⟨16, 16, .rwl, 0⟩]⟩,
  -- PCIE_OB_k_CFG
  ⟨0x0200, 8, 0x10, 1, 0x0, [⟨0, 1, .rwl, 0⟩, ⟨1, 6, .rwl, 0⟩, ⟨8, 4, .rwl, 0⟩]⟩,
  -- PCIE_OB_k_HOST
  ⟨0x0208, 8, 0x10, 1, 0x0, [⟨0, 64, .rwl, 0⟩]⟩,
  -- PCIE_IB_k
  ⟨0x0280, 16, 0x8, 1, 0x0, [⟨0, 1, .rw, 0⟩, ⟨30, 18, .rw, 0⟩]⟩,
  -- ZL_k_CTRL
  ⟨0x0400, 4, 0x20, 1, 0x0, [⟨0, 1, .rw, 1⟩, ⟨1, 1, .w1s, 0⟩]⟩,
  -- ZL_k_STATUS
  ⟨0x0408, 4, 0x20, 1, 0x0, [⟨0, 3, .ro, 0⟩, ⟨3, 3, .ro, 0⟩, ⟨8, 8, .ro, 0⟩, ⟨16, 16, .ro, 0⟩]⟩,
  -- ZL_k_PEER
  ⟨0x0410, 4, 0x20, 1, 0x0, [⟨0, 64, .ro, 0⟩]⟩,
  -- ZL_k_COUNTS
  ⟨0x0418, 4, 0x20, 1, 0x0, [⟨0, 16, .ro, 0⟩, ⟨16, 16, .ro, 0⟩, ⟨32, 16, .ro, 0⟩, ⟨48, 16, .ro, 0⟩]⟩,
  -- RLY_r_CFG
  ⟨0x0480, 8, 0x10, 1, 0x0, [⟨0, 1, .rwl, 0⟩, ⟨1, 1, .rwl, 0⟩, ⟨2, 5, .rwl, 0⟩, ⟨7, 3, .rwl, 0⟩, ⟨10, 5, .rwl, 0⟩, ⟨15, 3, .rwl, 0⟩]⟩,
  -- RLY_r_STATUS
  ⟨0x0488, 8, 0x10, 1, 0x0, [⟨0, 32, .ro, 0⟩, ⟨32, 16, .ro, 0⟩, ⟨48, 16, .ro, 0⟩]⟩]
/-- Registers of the LINK block. -/
def regsLINK : List RegSpec := regsLINK0

def regsPOWER0 : List RegSpec := [
  -- PWR_CTRL
  ⟨0x0000, 1, 0x0, 1, 0x0, [⟨0, 1, .w1s, 0⟩, ⟨1, 1, .w1s, 0⟩]⟩,
  -- PWR_STATUS
  ⟨0x0008, 1, 0x0, 1, 0x0, [⟨0, 3, .ro, 3⟩, ⟨3, 3, .ro, 0⟩, ⟨6, 1, .ro, 0⟩, ⟨7, 1, .ro, 0⟩, ⟨8, 4, .ro, 0⟩, ⟨12, 3, .ro, 7⟩, ⟨15, 1, .ro, 0⟩, ⟨16, 1, .ro, 0⟩, ⟨17, 1, .ro, 0⟩]⟩,
  -- PWR_CAP
  ⟨0x0010, 1, 0x0, 1, 0x0, [⟨0, 16, .rw, 1280⟩, ⟨16, 8, .rw, 32⟩]⟩,
  -- PWR_OPP
  ⟨0x0018, 1, 0x0, 1, 0x0, [⟨0, 3, .rw, 7⟩, ⟨8, 3, .ro, 7⟩, ⟨12, 4, .ro, 0⟩, ⟨16, 4, .ro, 0⟩, ⟨20, 8, .ro, 0⟩, ⟨28, 2, .ro, 0⟩, ⟨30, 2, .ro, 0⟩, ⟨32, 1, .ro, 0⟩]⟩,
  -- PWR_LIMITS
  ⟨0x0020, 1, 0x0, 1, 0x0, [⟨0, 8, .rwl, 110⟩, ⟨8, 8, .rwl, 5⟩, ⟨16, 8, .rwl, 125⟩, ⟨24, 16, .rwl, 2000⟩]⟩,
  -- PWR_OVERRIDE
  ⟨0x0028, 1, 0x0, 1, 0x0, [⟨0, 32, .rc, 0⟩, ⟨32, 3, .rc, 0⟩, ⟨48, 16, .rc, 0⟩]⟩,
  -- PWR_MEAS
  ⟨0x0030, 1, 0x0, 1, 0x0, [⟨0, 20, .ro, 0⟩, ⟨20, 16, .ro, 0⟩, ⟨36, 12, .ro, 0⟩]⟩,
  -- PWR_VOTE
  ⟨0x0038, 1, 0x0, 1, 0x0, [⟨0, 16, .rw, 0⟩, ⟨16, 2, .rw, 0⟩, ⟨18, 2, .rw, 0⟩]⟩,
  -- PWR_ENTRY_CFG
  ⟨0x0040, 1, 0x0, 1, 0x0, [⟨0, 16, .rwl, 100⟩, ⟨16, 25, .rwl, 0⟩, ⟨41, 1, .rwl, 0⟩]⟩,
  -- PWR_REFUSALS
  ⟨0x0048, 1, 0x0, 1, 0x0, [⟨0, 16, .rc, 0⟩, ⟨16, 16, .rc, 0⟩, ⟨32, 16, .rc, 0⟩, ⟨48, 3, .rc, 0⟩, ⟨51, 1, .rc, 0⟩]⟩,
  -- PWR_WAKE_CFG
  ⟨0x0050, 1, 0x0, 1, 0x0, [⟨0, 5, .rwl, 17⟩, ⟨32, 32, .rwl, 0⟩]⟩,
  -- PWR_WAKE_STATUS
  ⟨0x0058, 1, 0x0, 1, 0x0, [⟨0, 8, .ro, 0⟩, ⟨8, 8, .ro, 0⟩, ⟨16, 16, .ro, 0⟩]⟩,
  -- PWR_WAKE_TIMER
  ⟨0x0060, 1, 0x0, 1, 0x0, [⟨0, 32, .rw, 0⟩]⟩,
  -- PWR_RESUME
  ⟨0x0068, 1, 0x0, 1, 0x0, [⟨0, 48, .rwl, 0⟩]⟩,
  -- PWR_TIMES
  ⟨0x0070, 1, 0x0, 1, 0x0, [⟨0, 32, .ro, 0⟩, ⟨32, 32, .ro, 0⟩]⟩,
  -- PWR_SAVE
  ⟨0x0078, 1, 0x0, 1, 0x0, [⟨0, 18, .ro, 0⟩, ⟨18, 1, .ro, 0⟩, ⟨19, 1, .ro, 0⟩, ⟨32, 32, .ro, 0⟩]⟩,
  -- PWR_HOLDUP_CFG
  ⟨0x0080, 1, 0x0, 1, 0x0, [⟨0, 16, .rwl, 4000⟩, ⟨16, 16, .rwl, 11800⟩, ⟨32, 24, .rwl, 0⟩]⟩,
  -- PWR_HOLDUP
  ⟨0x0088, 1, 0x0, 1, 0x0, [⟨0, 16, .ro, 0⟩, ⟨16, 24, .ro, 0⟩, ⟨40, 1, .ro, 0⟩, ⟨41, 1, .ro, 0⟩, ⟨42, 1, .ro, 0⟩, ⟨48, 16, .ro, 0⟩]⟩,
  -- PWR_SUPPLY
  ⟨0x0090, 1, 0x0, 1, 0x0, [⟨0, 16, .ro, 0⟩, ⟨16, 16, .ro, 0⟩, ⟨32, 16, .ro, 0⟩, ⟨48, 16, .ro, 0⟩]⟩,
  -- PWR_REJECTS
  ⟨0x0098, 1, 0x0, 1, 0x0, [⟨0, 32, .rc, 0⟩, ⟨32, 16, .rc, 0⟩]⟩]
/-- Registers of the POWER block. -/
def regsPOWER : List RegSpec := regsPOWER0

def regsCLOCK0 : List RegSpec := [
  -- CLK_CTRL
  ⟨0x0000, 1, 0x0, 1, 0x0, [⟨0, 1, .w1s, 0⟩, ⟨1, 1, .w1s, 0⟩]⟩,
  -- CLK_CFG
  ⟨0x0008, 1, 0x0, 1, 0x0, [⟨0, 1, .rwl, 0⟩, ⟨1, 1, .rwl, 1⟩, ⟨2, 1, .rwl, 1⟩, ⟨8, 8, .rwl, 10⟩, ⟨16, 16, .rwl, 10⟩, ⟨32, 16, .rwl, 100⟩]⟩,
  -- CLK_STATUS
  ⟨0x0010, 1, 0x0, 1, 0x0, [⟨0, 1, .ro, 0⟩, ⟨1, 1, .ro, 0⟩, ⟨2, 1, .ro, 0⟩, ⟨3, 1, .ro, 0⟩, ⟨4, 1, .ro, 0⟩, ⟨5, 1, .ro, 0⟩, ⟨6, 1, .ro, 0⟩, ⟨16, 16, .ro, 0⟩]⟩,
  -- CLK_COUNTS
  ⟨0x0018, 1, 0x0, 1, 0x0, [⟨0, 16, .ro, 0⟩, ⟨16, 16, .ro, 0⟩, ⟨32, 16, .ro, 0⟩, ⟨48, 16, .ro, 0⟩]⟩,
  -- CLK_GATED_LO
  ⟨0x0020, 1, 0x0, 1, 0x0, [⟨0, 64, .ro, 0⟩]⟩,
  -- CLK_GATED_HI
  ⟨0x0028, 1, 0x0, 1, 0x0, [⟨0, 48, .ro, 0⟩]⟩,
  -- CLK_FAILED_LO
  ⟨0x0030, 1, 0x0, 1, 0x0, [⟨0, 64, .ro, 0⟩]⟩,
  -- CLK_FAILED_HI
  ⟨0x0038, 1, 0x0, 1, 0x0, [⟨0, 48, .ro, 0⟩]⟩,
  -- CLK_FREQ
  ⟨0x0040, 1, 0x0, 1, 0x0, [⟨0, 16, .ro, 1500⟩, ⟨16, 16, .ro, 1200⟩, ⟨32, 16, .ro, 2400⟩, ⟨48, 16, .ro, 1000⟩]⟩,
  -- CLK_REJECTS
  ⟨0x0048, 1, 0x0, 1, 0x0, [⟨0, 32, .rc, 0⟩, ⟨32, 16, .rc, 0⟩]⟩]
/-- Registers of the CLOCK block. -/
def regsCLOCK : List RegSpec := regsCLOCK0

/-- Every block of the CSR region: base address, number of instances, stride between them, registers. -/
def regBlocks : List BlockSpec := [
  ⟨0x600000000000, 1, 0x10000, regsGLOBAL⟩,
  ⟨0x600000030000, 1, 0x10000, regsTIME⟩,
  ⟨0x600000040000, 1, 0x10000, regsINGEST⟩,
  ⟨0x600000050000, 1, 0x10000, regsIQ⟩,
  ⟨0x600000060000, 1, 0x10000, regsALIGN⟩,
  ⟨0x600000070000, 1, 0x10000, regsVOX⟩,
  ⟨0x600000100000, 64, 0x10000, regsSQ⟩,
  ⟨0x600000500000, 32, 0x10000, regsPL⟩,
  ⟨0x600000700000, 8, 0x10000, regsAE⟩,
  ⟨0x600000700000, 1, 0x10000, regsAES⟩,
  ⟨0x600000080000, 1, 0x10000, regsMOTION⟩,
  ⟨0x600000090000, 1, 0x10000, regsREFLEX⟩,
  ⟨0x600000010000, 1, 0x10000, regsMBX⟩,
  ⟨0x600000020000, 1, 0x10000, regsCFG⟩,
  ⟨0x6000000F0000, 1, 0x10000, regsPART⟩,
  ⟨0x6000000A0000, 1, 0x10000, regsSAFETY⟩,
  ⟨0x6000000D0000, 1, 0x10000, regsMEMCTL⟩,
  ⟨0x6000000E0000, 1, 0x10000, regsLINK⟩,
  ⟨0x6000000B0000, 1, 0x10000, regsPOWER⟩,
  ⟨0x6000000C0000, 1, 0x10000, regsCLOCK⟩]

end Sys2Proof
end

