-- ==== Sys2Proof/Machine/Regs.lean ====
section
/-!
DEFINITION. The control registers of the module and their fields, by the names the offset and field tables of
spec/01 to spec/16 give them (R10, "Registers" of 00_scope.md). `R.X` is the address of register X in the CSR
region, `F.X_Y` is field Y of register X. An indexed register NAME_n is a function of its index.
-/

namespace Sys2Proof

/-! ### GLOBAL block (spec/01_architecture.md) -/
def R.IDENT : Nat := 0x600000000000
def F.IDENT_VENDOR : Fld := ⟨R.IDENT, 0, 16⟩
def F.IDENT_PART : Fld := ⟨R.IDENT, 16, 16⟩
def F.IDENT_PACKAGE : Fld := ⟨R.IDENT, 32, 8⟩
def R.REVISION : Nat := 0x600000000008
def F.REVISION_TENSOR_STEP : Fld := ⟨R.REVISION, 0, 8⟩
def F.REVISION_FRAME_STEP : Fld := ⟨R.REVISION, 8, 8⟩
def F.REVISION_SUBSTRATE_STEP : Fld := ⟨R.REVISION, 16, 8⟩
def F.REVISION_BOOK_FORMAT : Fld := ⟨R.REVISION, 24, 8⟩
def R.SERIAL : Nat := 0x600000000010
def F.SERIAL_SERIAL : Fld := ⟨R.SERIAL, 0, 64⟩
def R.SQUARE_MASK : Nat := 0x600000000018
def F.SQUARE_MASK_SQUARES : Fld := ⟨R.SQUARE_MASK, 0, 64⟩
def R.PLANE_MASK : Nat := 0x600000000020
def F.PLANE_MASK_PLANES : Fld := ⟨R.PLANE_MASK, 0, 32⟩
def R.AE_MASK : Nat := 0x600000000028
def F.AE_MASK_ENGINES : Fld := ⟨R.AE_MASK, 0, 8⟩
def R.CORE_MASK : Nat := 0x600000000030
def F.CORE_MASK_CORES : Fld := ⟨R.CORE_MASK, 0, 12⟩
def R.FEATURE_MASK : Nat := 0x600000000038
def F.FEATURE_MASK_DYN : Fld := ⟨R.FEATURE_MASK, 0, 1⟩
def F.FEATURE_MASK_PROB_RET : Fld := ⟨R.FEATURE_MASK, 1, 1⟩
def F.FEATURE_MASK_RULEBOOK : Fld := ⟨R.FEATURE_MASK, 2, 1⟩
def F.FEATURE_MASK_ZORRA_EN : Fld := ⟨R.FEATURE_MASK, 4, 4⟩
def R.MODULE_STATE : Nat := 0x600000000040
def F.MODULE_STATE_STATE : Fld := ⟨R.MODULE_STATE, 0, 3⟩
def F.MODULE_STATE_IN_TRANSITION : Fld := ⟨R.MODULE_STATE, 3, 1⟩
def F.MODULE_STATE_TARGET : Fld := ⟨R.MODULE_STATE, 4, 3⟩
def F.MODULE_STATE_LAST_CAUSE : Fld := ⟨R.MODULE_STATE, 8, 8⟩
def F.MODULE_STATE_SAFE_ENTRIES : Fld := ⟨R.MODULE_STATE, 16, 16⟩
def R.D2D_STATUS : Nat := 0x600000000048
def F.D2D_STATUS_MODULE_UP : Fld := ⟨R.D2D_STATUS, 0, 4⟩
def F.D2D_STATUS_MODULE_FAILED : Fld := ⟨R.D2D_STATUS, 4, 4⟩
def F.D2D_STATUS_RETRAINS : Fld := ⟨R.D2D_STATUS, 32, 32⟩
def R.DRAIN_STATUS : Nat := 0x600000000050
def F.DRAIN_STATUS_PRESSURE : Fld := ⟨R.DRAIN_STATUS, 0, 5⟩
def F.DRAIN_STATUS_DRAIN_MODE : Fld := ⟨R.DRAIN_STATUS, 8, 1⟩
def F.DRAIN_STATUS_DRAIN_ENTRIES : Fld := ⟨R.DRAIN_STATUS, 32, 32⟩
def R.EGRESS_DROPS : Nat := 0x600000000058
def F.EGRESS_DROPS_COUNT : Fld := ⟨R.EGRESS_DROPS, 0, 32⟩
def F.EGRESS_DROPS_LAST_UNIT : Fld := ⟨R.EGRESS_DROPS, 32, 16⟩
def R.EGRESS_TIMEOUT : Nat := 0x600000000060
def F.EGRESS_TIMEOUT_TIMEOUT_US : Fld := ⟨R.EGRESS_TIMEOUT, 0, 24⟩
def R.SCRATCH : Nat := 0x600000000068
def F.SCRATCH_SCRATCH : Fld := ⟨R.SCRATCH, 0, 64⟩
/-! ### TIME block (spec/02_time.md) -/
def R.TIME_CTRL : Nat := 0x600000030000
def F.TIME_CTRL_LOCK : Fld := ⟨R.TIME_CTRL, 0, 1⟩
def R.TIME_STATUS : Nat := 0x600000030008
def F.TIME_STATUS_TB_HOLD : Fld := ⟨R.TIME_STATUS, 0, 8⟩
def F.TIME_STATUS_TB_LOCKED : Fld := ⟨R.TIME_STATUS, 8, 8⟩
def F.TIME_STATUS_PH_LOCKED : Fld := ⟨R.TIME_STATUS, 16, 8⟩
def F.TIME_STATUS_PH_HOLD : Fld := ⟨R.TIME_STATUS, 24, 8⟩
def F.TIME_STATUS_PH_LOST : Fld := ⟨R.TIME_STATUS, 32, 8⟩
def R.TIME_REJECTS : Nat := 0x600000030010
def F.TIME_REJECTS_COUNT : Fld := ⟨R.TIME_REJECTS, 0, 32⟩
def F.TIME_REJECTS_LAST_OFFSET : Fld := ⟨R.TIME_REJECTS, 32, 16⟩
def R.TB_CTRL (n : Nat) : Nat := 0x600000030100 + n * 0x80
def F.TB_CTRL_ENABLE (n : Nat) : Fld := ⟨(R.TB_CTRL n), 0, 1⟩
def F.TB_CTRL_SOURCE (n : Nat) : Fld := ⟨(R.TB_CTRL n), 1, 3⟩
def F.TB_CTRL_SOURCE_ALT (n : Nat) : Fld := ⟨(R.TB_CTRL n), 4, 3⟩
def F.TB_CTRL_REVERTIVE (n : Nat) : Fld := ⟨(R.TB_CTRL n), 7, 1⟩
def F.TB_CTRL_PPS_INPUT (n : Nat) : Fld := ⟨(R.TB_CTRL n), 8, 4⟩
def F.TB_CTRL_STEP_THRESHOLD_NS (n : Nat) : Fld := ⟨(R.TB_CTRL n), 12, 20⟩
def F.TB_CTRL_HOLDOVER_MAX_S (n : Nat) : Fld := ⟨(R.TB_CTRL n), 32, 16⟩
def F.TB_CTRL_LOCK_THRESHOLD_NS (n : Nat) : Fld := ⟨(R.TB_CTRL n), 48, 8⟩
def R.TB_STATUS (n : Nat) : Nat := 0x600000030108 + n * 0x80
def F.TB_STATUS_STATE (n : Nat) : Fld := ⟨(R.TB_STATUS n), 0, 3⟩
def F.TB_STATUS_ON_ALT (n : Nat) : Fld := ⟨(R.TB_STATUS n), 3, 1⟩
def F.TB_STATUS_SWITCHING (n : Nat) : Fld := ⟨(R.TB_STATUS n), 4, 1⟩
def F.TB_STATUS_STEPS (n : Nat) : Fld := ⟨(R.TB_STATUS n), 8, 8⟩
def F.TB_STATUS_HOLDOVER_AGE_MS (n : Nat) : Fld := ⟨(R.TB_STATUS n), 16, 32⟩
def R.TB_NOW_SEC (n : Nat) : Nat := 0x600000030110 + n * 0x80
def F.TB_NOW_SEC_SECONDS (n : Nat) : Fld := ⟨(R.TB_NOW_SEC n), 0, 64⟩
def R.TB_LATCH_LOW (n : Nat) : Nat := 0x600000030118 + n * 0x80
def F.TB_LATCH_LOW_LOW (n : Nat) : Fld := ⟨(R.TB_LATCH_LOW n), 0, 64⟩
def R.TB_RATE (n : Nat) : Nat := 0x600000030120 + n * 0x80
def F.TB_RATE_RATE_ADJ (n : Nat) : Fld := ⟨(R.TB_RATE n), 0, 32⟩
def R.TB_ADJ (n : Nat) : Nat := 0x600000030128 + n * 0x80
def F.TB_ADJ_OFFSET_NS (n : Nat) : Fld := ⟨(R.TB_ADJ n), 0, 32⟩
def R.TB_SET_SEC (n : Nat) : Nat := 0x600000030130 + n * 0x80
def F.TB_SET_SEC_SECONDS (n : Nat) : Fld := ⟨(R.TB_SET_SEC n), 0, 64⟩
def R.TB_SET_LOW (n : Nat) : Nat := 0x600000030138 + n * 0x80
def F.TB_SET_LOW_LOW (n : Nat) : Fld := ⟨(R.TB_SET_LOW n), 0, 64⟩
def R.TB_OFFSET (n : Nat) : Nat := 0x600000030140 + n * 0x80
def F.TB_OFFSET_OFFSET (n : Nat) : Fld := ⟨(R.TB_OFFSET n), 0, 64⟩
def R.TB_LATCH_SEC (n : Nat) : Nat := 0x600000030148 + n * 0x80
def F.TB_LATCH_SEC_SECONDS (n : Nat) : Fld := ⟨(R.TB_LATCH_SEC n), 0, 64⟩
def R.PH_CTRL (k : Nat) : Nat := 0x600000030500 + k * 0x40
def F.PH_CTRL_ENABLE (k : Nat) : Fld := ⟨(R.PH_CTRL k), 0, 1⟩
def F.PH_CTRL_SOURCE (k : Nat) : Fld := ⟨(R.PH_CTRL k), 1, 3⟩
def F.PH_CTRL_SOURCE_INDEX (k : Nat) : Fld := ⟨(R.PH_CTRL k), 4, 5⟩
def F.PH_CTRL_TB (k : Nat) : Fld := ⟨(R.PH_CTRL k), 9, 3⟩
def F.PH_CTRL_ALPHA (k : Nat) : Fld := ⟨(R.PH_CTRL k), 12, 4⟩
def F.PH_CTRL_BETA (k : Nat) : Fld := ⟨(R.PH_CTRL k), 16, 4⟩
def F.PH_CTRL_HOLD_FREEZE (k : Nat) : Fld := ⟨(R.PH_CTRL k), 20, 1⟩
def R.PH_SCALE (k : Nat) : Nat := 0x600000030508 + k * 0x40
def F.PH_SCALE_UNITS_PER_REV (k : Nat) : Fld := ⟨(R.PH_SCALE k), 0, 32⟩
def F.PH_SCALE_ZERO_OFFSET (k : Nat) : Fld := ⟨(R.PH_SCALE k), 32, 32⟩
def R.PH_LIMITS (k : Nat) : Nat := 0x600000030510 + k * 0x40
def F.PH_LIMITS_SOURCE_TIMEOUT_US (k : Nat) : Fld := ⟨(R.PH_LIMITS k), 0, 24⟩
def F.PH_LIMITS_HOLDOVER_MAX_MS (k : Nat) : Fld := ⟨(R.PH_LIMITS k), 24, 16⟩
def F.PH_LIMITS_STEP_THRESHOLD (k : Nat) : Fld := ⟨(R.PH_LIMITS k), 40, 16⟩
def F.PH_LIMITS_LOCK_THRESHOLD (k : Nat) : Fld := ⟨(R.PH_LIMITS k), 56, 8⟩
def R.PH_SOURCE_CFG (k : Nat) : Nat := 0x600000030518 + k * 0x40
def F.PH_SOURCE_CFG_FIELD_OFFSET (k : Nat) : Fld := ⟨(R.PH_SOURCE_CFG k), 0, 16⟩
def F.PH_SOURCE_CFG_FIELD_BE (k : Nat) : Fld := ⟨(R.PH_SOURCE_CFG k), 16, 1⟩
def F.PH_SOURCE_CFG_FIELD_32 (k : Nat) : Fld := ⟨(R.PH_SOURCE_CFG k), 17, 1⟩
def F.PH_SOURCE_CFG_LATENCY_NS (k : Nat) : Fld := ⟨(R.PH_SOURCE_CFG k), 24, 24⟩
def R.PH_STATUS (k : Nat) : Nat := 0x600000030520 + k * 0x40
def F.PH_STATUS_STATE (k : Nat) : Fld := ⟨(R.PH_STATUS k), 0, 3⟩
def F.PH_STATUS_REVERSED (k : Nat) : Fld := ⟨(R.PH_STATUS k), 3, 1⟩
def F.PH_STATUS_STEPS (k : Nat) : Fld := ⟨(R.PH_STATUS k), 8, 8⟩
def F.PH_STATUS_REACQUIRES (k : Nat) : Fld := ⟨(R.PH_STATUS k), 16, 16⟩
def F.PH_STATUS_OBS_COUNT (k : Nat) : Fld := ⟨(R.PH_STATUS k), 32, 32⟩
def R.PH_NOW (k : Nat) : Nat := 0x600000030528 + k * 0x40
def F.PH_NOW_PHASE (k : Nat) : Fld := ⟨(R.PH_NOW k), 0, 32⟩
def F.PH_NOW_RATE_NOW (k : Nat) : Fld := ⟨(R.PH_NOW k), 32, 32⟩
def R.PH_SW_TIME (k : Nat) : Nat := 0x600000030530 + k * 0x40
def F.PH_SW_TIME_TIME (k : Nat) : Fld := ⟨(R.PH_SW_TIME k), 0, 64⟩
def R.PH_SW_OBS (k : Nat) : Nat := 0x600000030538 + k * 0x40
def F.PH_SW_OBS_PHASE (k : Nat) : Fld := ⟨(R.PH_SW_OBS k), 0, 32⟩
def F.PH_SW_OBS_RATE (k : Nat) : Fld := ⟨(R.PH_SW_OBS k), 32, 32⟩
def R.PULSE_OUT_CTRL (n : Nat) : Nat := 0x600000030700 + n * 0x10
def F.PULSE_OUT_CTRL_ENABLE (n : Nat) : Fld := ⟨(R.PULSE_OUT_CTRL n), 0, 1⟩
def F.PULSE_OUT_CTRL_POLARITY (n : Nat) : Fld := ⟨(R.PULSE_OUT_CTRL n), 1, 1⟩
def F.PULSE_OUT_CTRL_WIDTH_NS (n : Nat) : Fld := ⟨(R.PULSE_OUT_CTRL n), 4, 32⟩
def F.PULSE_OUT_CTRL_DELAY_COMP (n : Nat) : Fld := ⟨(R.PULSE_OUT_CTRL n), 40, 8⟩
def R.PULSE_OUT_STATUS (n : Nat) : Nat := 0x600000030708 + n * 0x10
def F.PULSE_OUT_STATUS_PULSES (n : Nat) : Fld := ⟨(R.PULSE_OUT_STATUS n), 0, 32⟩
def F.PULSE_OUT_STATUS_MERGES (n : Nat) : Fld := ⟨(R.PULSE_OUT_STATUS n), 32, 16⟩
def R.CAPTURE_IN_CTRL (m : Nat) : Nat := 0x600000030800 + m * 0x10
def F.CAPTURE_IN_CTRL_ENABLE (m : Nat) : Fld := ⟨(R.CAPTURE_IN_CTRL m), 0, 1⟩
def F.CAPTURE_IN_CTRL_EDGE (m : Nat) : Fld := ⟨(R.CAPTURE_IN_CTRL m), 1, 2⟩
def F.CAPTURE_IN_CTRL_FILTER (m : Nat) : Fld := ⟨(R.CAPTURE_IN_CTRL m), 4, 4⟩
def F.CAPTURE_IN_CTRL_TB (m : Nat) : Fld := ⟨(R.CAPTURE_IN_CTRL m), 8, 3⟩
def F.CAPTURE_IN_CTRL_PH_EN (m : Nat) : Fld := ⟨(R.CAPTURE_IN_CTRL m), 11, 1⟩
def F.CAPTURE_IN_CTRL_PH_INDEX (m : Nat) : Fld := ⟨(R.CAPTURE_IN_CTRL m), 12, 3⟩
def F.CAPTURE_IN_CTRL_DELAY_COMP (m : Nat) : Fld := ⟨(R.CAPTURE_IN_CTRL m), 16, 8⟩
def R.CAPTURE_IN_STATUS (m : Nat) : Nat := 0x600000030808 + m * 0x10
def F.CAPTURE_IN_STATUS_FILL (m : Nat) : Fld := ⟨(R.CAPTURE_IN_STATUS m), 0, 5⟩
def F.CAPTURE_IN_STATUS_OVERRUNS (m : Nat) : Fld := ⟨(R.CAPTURE_IN_STATUS m), 16, 16⟩
def F.CAPTURE_IN_STATUS_EDGES (m : Nat) : Fld := ⟨(R.CAPTURE_IN_STATUS m), 32, 32⟩
def R.CAP_SEC (m : Nat) : Nat := 0x600000030900 + m * 0x20
def F.CAP_SEC_SECONDS (m : Nat) : Fld := ⟨(R.CAP_SEC m), 0, 64⟩
def R.CAP_LOW (m : Nat) : Nat := 0x600000030908 + m * 0x20
def F.CAP_LOW_LOW (m : Nat) : Fld := ⟨(R.CAP_LOW m), 0, 64⟩
def R.CAP_PHASE (m : Nat) : Nat := 0x600000030910 + m * 0x20
def F.CAP_PHASE_PHASE (m : Nat) : Fld := ⟨(R.CAP_PHASE m), 0, 32⟩
def F.CAP_PHASE_PH_VALID (m : Nat) : Fld := ⟨(R.CAP_PHASE m), 32, 1⟩
def R.EVT_SEC : Nat := 0x600000030B00
def F.EVT_SEC_SECONDS : Fld := ⟨R.EVT_SEC, 0, 64⟩
def R.EVT_LOW : Nat := 0x600000030B08
def F.EVT_LOW_LOW : Fld := ⟨R.EVT_LOW, 0, 64⟩
def R.EVT_INFO : Nat := 0x600000030B10
def F.EVT_INFO_EVENT : Fld := ⟨R.EVT_INFO, 0, 6⟩
def F.EVT_INFO_LATE : Fld := ⟨R.EVT_INFO, 6, 1⟩
def F.EVT_INFO_KIND : Fld := ⟨R.EVT_INFO, 7, 1⟩
def F.EVT_INFO_PHASE : Fld := ⟨R.EVT_INFO, 8, 32⟩
def R.EVT_STATUS : Nat := 0x600000030B18
def F.EVT_STATUS_FILL : Fld := ⟨R.EVT_STATUS, 0, 9⟩
def F.EVT_STATUS_DROPPED : Fld := ⟨R.EVT_STATUS, 16, 16⟩
def R.GPTP_CTRL (d : Nat) : Nat := 0x600000030C00 + d * 0x80
def F.GPTP_CTRL_ENABLE (d : Nat) : Fld := ⟨(R.GPTP_CTRL d), 0, 1⟩
def F.GPTP_CTRL_EXT_CONFIG (d : Nat) : Fld := ⟨(R.GPTP_CTRL d), 1, 1⟩
def F.GPTP_CTRL_GM_CAPABLE (d : Nat) : Fld := ⟨(R.GPTP_CTRL d), 2, 1⟩
def F.GPTP_CTRL_TB (d : Nat) : Fld := ⟨(R.GPTP_CTRL d), 3, 3⟩
def F.GPTP_CTRL_RELAY (d : Nat) : Fld := ⟨(R.GPTP_CTRL d), 6, 1⟩
def F.GPTP_CTRL_DOMAIN_NUMBER (d : Nat) : Fld := ⟨(R.GPTP_CTRL d), 8, 8⟩
def F.GPTP_CTRL_PORT_EN (d : Nat) : Fld := ⟨(R.GPTP_CTRL d), 16, 4⟩
def F.GPTP_CTRL_PRIORITY1 (d : Nat) : Fld := ⟨(R.GPTP_CTRL d), 24, 8⟩
def F.GPTP_CTRL_PRIORITY2 (d : Nat) : Fld := ⟨(R.GPTP_CTRL d), 32, 8⟩
def F.GPTP_CTRL_CLOCK_CLASS (d : Nat) : Fld := ⟨(R.GPTP_CTRL d), 40, 8⟩
def F.GPTP_CTRL_CLOCK_ACCURACY (d : Nat) : Fld := ⟨(R.GPTP_CTRL d), 48, 8⟩
def R.GPTP_TIMING (d : Nat) : Nat := 0x600000030C08 + d * 0x80
def F.GPTP_TIMING_LOG_SYNC (d : Nat) : Fld := ⟨(R.GPTP_TIMING d), 0, 8⟩
def F.GPTP_TIMING_LOG_ANNOUNCE (d : Nat) : Fld := ⟨(R.GPTP_TIMING d), 8, 8⟩
def F.GPTP_TIMING_LOG_PDELAY (d : Nat) : Fld := ⟨(R.GPTP_TIMING d), 16, 8⟩
def F.GPTP_TIMING_ANNOUNCE_TIMEOUT (d : Nat) : Fld := ⟨(R.GPTP_TIMING d), 24, 8⟩
def F.GPTP_TIMING_SYNC_TIMEOUT (d : Nat) : Fld := ⟨(R.GPTP_TIMING d), 32, 8⟩
def F.GPTP_TIMING_EXT_ROLE (d : Nat) : Fld := ⟨(R.GPTP_TIMING d), 40, 8⟩
def R.GPTP_CLOCK_ID (d : Nat) : Nat := 0x600000030C10 + d * 0x80
def F.GPTP_CLOCK_ID_CLOCK_ID (d : Nat) : Fld := ⟨(R.GPTP_CLOCK_ID d), 0, 64⟩
def R.GPTP_STATUS (d : Nat) : Nat := 0x600000030C18 + d * 0x80
def F.GPTP_STATUS_PORT_STATE (d : Nat) : Fld := ⟨(R.GPTP_STATUS d), 0, 8⟩
def F.GPTP_STATUS_IS_GM (d : Nat) : Fld := ⟨(R.GPTP_STATUS d), 8, 1⟩
def F.GPTP_STATUS_GM_PRESENT (d : Nat) : Fld := ⟨(R.GPTP_STATUS d), 9, 1⟩
def F.GPTP_STATUS_CONFIG_ERROR (d : Nat) : Fld := ⟨(R.GPTP_STATUS d), 10, 1⟩
def F.GPTP_STATUS_STEPS_REMOVED (d : Nat) : Fld := ⟨(R.GPTP_STATUS d), 16, 16⟩
def F.GPTP_STATUS_SYNC_AGE_US (d : Nat) : Fld := ⟨(R.GPTP_STATUS d), 32, 32⟩
def R.GPTP_GM_ID (d : Nat) : Nat := 0x600000030C20 + d * 0x80
def F.GPTP_GM_ID_GM_ID (d : Nat) : Fld := ⟨(R.GPTP_GM_ID d), 0, 64⟩
def R.GPTP_OFFSET (d : Nat) : Nat := 0x600000030C28 + d * 0x80
def F.GPTP_OFFSET_OFFSET (d : Nat) : Fld := ⟨(R.GPTP_OFFSET d), 0, 64⟩
def R.GPTP_RATIO (d : Nat) : Nat := 0x600000030C30 + d * 0x80
def F.GPTP_RATIO_RATE_OFFSET (d : Nat) : Fld := ⟨(R.GPTP_RATIO d), 0, 32⟩
def R.GPTP_COUNTS (d : Nat) : Nat := 0x600000030C38 + d * 0x80
def F.GPTP_COUNTS_GM_CHANGES (d : Nat) : Fld := ⟨(R.GPTP_COUNTS d), 0, 16⟩
def F.GPTP_COUNTS_ANNOUNCE_TIMEOUTS (d : Nat) : Fld := ⟨(R.GPTP_COUNTS d), 16, 16⟩
def F.GPTP_COUNTS_SYNC_TIMEOUTS (d : Nat) : Fld := ⟨(R.GPTP_COUNTS d), 32, 16⟩
def R.MAC_PDELAY (p : Nat) : Nat := 0x600000030D00 + p * 0x10
def F.MAC_PDELAY_MEAN_LINK_DELAY (p : Nat) : Fld := ⟨(R.MAC_PDELAY p), 0, 40⟩
def F.MAC_PDELAY_AS_CAPABLE (p : Nat) : Fld := ⟨(R.MAC_PDELAY p), 40, 1⟩
def R.MAC_COMP (p : Nat) : Nat := 0x600000030D08 + p * 0x10
def F.MAC_COMP_RX_COMP (p : Nat) : Fld := ⟨(R.MAC_COMP p), 0, 16⟩
def F.MAC_COMP_TX_COMP (p : Nat) : Fld := ⟨(R.MAC_COMP p), 16, 16⟩
def R.PE_CTRL (j : Nat) : Nat := 0x600000031000 + j * 0x40
def F.PE_CTRL_ARM (j : Nat) : Fld := ⟨(R.PE_CTRL j), 0, 1⟩
def F.PE_CTRL_KIND (j : Nat) : Fld := ⟨(R.PE_CTRL j), 1, 1⟩
def F.PE_CTRL_SOURCE (j : Nat) : Fld := ⟨(R.PE_CTRL j), 2, 3⟩
def F.PE_CTRL_PERIODIC (j : Nat) : Fld := ⟨(R.PE_CTRL j), 5, 1⟩
def F.PE_CTRL_MATCH_REV (j : Nat) : Fld := ⟨(R.PE_CTRL j), 6, 1⟩
def F.PE_CTRL_HOLD_SUPPRESS (j : Nat) : Fld := ⟨(R.PE_CTRL j), 7, 1⟩
def F.PE_CTRL_ACTIONS (j : Nat) : Fld := ⟨(R.PE_CTRL j), 8, 8⟩
def F.PE_CTRL_PULSE_INDEX (j : Nat) : Fld := ⟨(R.PE_CTRL j), 16, 4⟩
def F.PE_CTRL_CHAIN_TARGET (j : Nat) : Fld := ⟨(R.PE_CTRL j), 20, 6⟩
def F.PE_CTRL_SAMPLE_TARGET (j : Nat) : Fld := ⟨(R.PE_CTRL j), 32, 5⟩
def R.PE_TARGET (j : Nat) : Nat := 0x600000031008 + j * 0x40
def F.PE_TARGET_TARGET (j : Nat) : Fld := ⟨(R.PE_TARGET j), 0, 64⟩
def R.PE_PERIOD (j : Nat) : Nat := 0x600000031010 + j * 0x40
def F.PE_PERIOD_PERIOD (j : Nat) : Fld := ⟨(R.PE_PERIOD j), 0, 64⟩
def R.PE_AUX (j : Nat) : Nat := 0x600000031018 + j * 0x40
def F.PE_AUX_TARGET_FRAC (j : Nat) : Fld := ⟨(R.PE_AUX j), 0, 16⟩
def F.PE_AUX_COUNT (j : Nat) : Fld := ⟨(R.PE_AUX j), 16, 32⟩
def F.PE_AUX_NOTIFY_UNIT (j : Nat) : Fld := ⟨(R.PE_AUX j), 48, 16⟩
def R.PE_RETARGET (j : Nat) : Nat := 0x600000031020 + j * 0x40
def F.PE_RETARGET_TARGET (j : Nat) : Fld := ⟨(R.PE_RETARGET j), 0, 64⟩
def R.PE_STATUS (j : Nat) : Nat := 0x600000031028 + j * 0x40
def F.PE_STATUS_FIRED (j : Nat) : Fld := ⟨(R.PE_STATUS j), 0, 32⟩
def F.PE_STATUS_LATE (j : Nat) : Fld := ⟨(R.PE_STATUS j), 32, 16⟩
def F.PE_STATUS_SKIPPED (j : Nat) : Fld := ⟨(R.PE_STATUS j), 48, 16⟩
def R.PE_LAST_NS (j : Nat) : Nat := 0x600000031030 + j * 0x40
def F.PE_LAST_NS_TS64 (j : Nat) : Fld := ⟨(R.PE_LAST_NS j), 0, 64⟩
def R.PE_LAST_INFO (j : Nat) : Nat := 0x600000031038 + j * 0x40
def F.PE_LAST_INFO_FRAC (j : Nat) : Fld := ⟨(R.PE_LAST_INFO j), 0, 16⟩
def F.PE_LAST_INFO_TB (j : Nat) : Fld := ⟨(R.PE_LAST_INFO j), 16, 3⟩
def F.PE_LAST_INFO_HOLDOVER (j : Nat) : Fld := ⟨(R.PE_LAST_INFO j), 19, 1⟩
def F.PE_LAST_INFO_LATE (j : Nat) : Fld := ⟨(R.PE_LAST_INFO j), 20, 1⟩
def F.PE_LAST_INFO_PHASE (j : Nat) : Fld := ⟨(R.PE_LAST_INFO j), 32, 32⟩
/-! ### INGEST block (spec/03_ingest.md) -/
def R.INGEST_CTRL : Nat := 0x600000040000
def F.INGEST_CTRL_LOCK : Fld := ⟨R.INGEST_CTRL, 0, 1⟩
def F.INGEST_CTRL_GPIO_TB : Fld := ⟨R.INGEST_CTRL, 1, 3⟩
def R.INGEST_STATUS : Nat := 0x600000040008
def F.INGEST_STATUS_RUNNING : Fld := ⟨R.INGEST_STATUS, 0, 32⟩
def F.INGEST_STATUS_CONFIG_ERROR : Fld := ⟨R.INGEST_STATUS, 32, 32⟩
def R.INGEST_REJECTS : Nat := 0x600000040010
def F.INGEST_REJECTS_COUNT : Fld := ⟨R.INGEST_REJECTS, 0, 32⟩
def F.INGEST_REJECTS_LAST_OFFSET : Fld := ⟨R.INGEST_REJECTS, 32, 16⟩
def R.STREAM_SRC (s : Nat) : Nat := 0x600000040100 + s * 0x20
def F.STREAM_SRC_ENABLE (s : Nat) : Fld := ⟨(R.STREAM_SRC s), 0, 1⟩
def F.STREAM_SRC_PORT_TYPE (s : Nat) : Fld := ⟨(R.STREAM_SRC s), 1, 3⟩
def F.STREAM_SRC_PORT_INDEX (s : Nat) : Fld := ⟨(R.STREAM_SRC s), 4, 4⟩
def F.STREAM_SRC_VC (s : Nat) : Fld := ⟨(R.STREAM_SRC s), 8, 2⟩
def F.STREAM_SRC_DATA_TYPE (s : Nat) : Fld := ⟨(R.STREAM_SRC s), 10, 6⟩
def F.STREAM_SRC_PRIORITY (s : Nat) : Fld := ⟨(R.STREAM_SRC s), 16, 4⟩
def F.STREAM_SRC_DEFAULT (s : Nat) : Fld := ⟨(R.STREAM_SRC s), 20, 1⟩
def F.STREAM_SRC_MAX_ROWS (s : Nat) : Fld := ⟨(R.STREAM_SRC s), 24, 16⟩
def F.STREAM_SRC_ROW_STRIDE_64 (s : Nat) : Fld := ⟨(R.STREAM_SRC s), 40, 16⟩
def R.STREAM_FILTER (s : Nat) : Nat := 0x600000040108 + s * 0x20
def F.STREAM_FILTER_ETHERTYPE (s : Nat) : Fld := ⟨(R.STREAM_FILTER s), 0, 16⟩
def F.STREAM_FILTER_VLAN_ID (s : Nat) : Fld := ⟨(R.STREAM_FILTER s), 16, 12⟩
def F.STREAM_FILTER_UDP_PORT (s : Nat) : Fld := ⟨(R.STREAM_FILTER s), 28, 16⟩
def F.STREAM_FILTER_MATCH (s : Nat) : Fld := ⟨(R.STREAM_FILTER s), 44, 3⟩
def F.STREAM_FILTER_ID (s : Nat) : Fld := ⟨(R.STREAM_FILTER s), 0, 29⟩
def F.STREAM_FILTER_IDE (s : Nat) : Fld := ⟨(R.STREAM_FILTER s), 29, 1⟩
def F.STREAM_FILTER_ID_MASK (s : Nat) : Fld := ⟨(R.STREAM_FILTER s), 32, 29⟩
def F.STREAM_FILTER_PINS (s : Nat) : Fld := ⟨(R.STREAM_FILTER s), 0, 64⟩
def R.STREAM_DETECT (s : Nat) : Nat := 0x600000040110 + s * 0x20
def F.STREAM_DETECT_FROZEN_MODE (s : Nat) : Fld := ⟨(R.STREAM_DETECT s), 0, 2⟩
def F.STREAM_DETECT_FROZEN_COUNT (s : Nat) : Fld := ⟨(R.STREAM_DETECT s), 2, 4⟩
def F.STREAM_DETECT_FROZEN_SAD (s : Nat) : Fld := ⟨(R.STREAM_DETECT s), 6, 18⟩
def F.STREAM_DETECT_EXPECT_EN (s : Nat) : Fld := ⟨(R.STREAM_DETECT s), 24, 1⟩
def F.STREAM_DETECT_EXPECT_PE (s : Nat) : Fld := ⟨(R.STREAM_DETECT s), 25, 6⟩
def F.STREAM_DETECT_EXPECT_WINDOW_US (s : Nat) : Fld := ⟨(R.STREAM_DETECT s), 32, 24⟩
def R.STREAM_STATUS (s : Nat) : Nat := 0x600000040118 + s * 0x20
def F.STREAM_STATUS_RUNNING (s : Nat) : Fld := ⟨(R.STREAM_STATUS s), 0, 1⟩
def F.STREAM_STATUS_CONFIG_ERROR (s : Nat) : Fld := ⟨(R.STREAM_STATUS s), 1, 1⟩
def F.STREAM_STATUS_FROZEN (s : Nat) : Fld := ⟨(R.STREAM_STATUS s), 2, 1⟩
def F.STREAM_STATUS_TRUNCATIONS (s : Nat) : Fld := ⟨(R.STREAM_STATUS s), 16, 16⟩
def F.STREAM_STATUS_MISSING_ITEMS (s : Nat) : Fld := ⟨(R.STREAM_STATUS s), 32, 16⟩
def F.STREAM_STATUS_FROZEN_RUNS (s : Nat) : Fld := ⟨(R.STREAM_STATUS s), 48, 16⟩
def R.CSI_CTRL (c : Nat) : Nat := 0x600000040500 + c * 0x10
def F.CSI_CTRL_ENABLE (c : Nat) : Fld := ⟨(R.CSI_CTRL c), 0, 1⟩
def F.CSI_CTRL_LANES (c : Nat) : Fld := ⟨(R.CSI_CTRL c), 1, 2⟩
def F.CSI_CTRL_TB (c : Nat) : Fld := ⟨(R.CSI_CTRL c), 4, 3⟩
def F.CSI_CTRL_LS_STAMP (c : Nat) : Fld := ⟨(R.CSI_CTRL c), 7, 1⟩
def F.CSI_CTRL_FRAME_TIMEOUT_US (c : Nat) : Fld := ⟨(R.CSI_CTRL c), 8, 24⟩
def F.CSI_CTRL_LANE_RATE_MBPS (c : Nat) : Fld := ⟨(R.CSI_CTRL c), 32, 16⟩
def R.CSI_STATUS (c : Nat) : Nat := 0x600000040508 + c * 0x10
def F.CSI_STATUS_LINK_UP (c : Nat) : Fld := ⟨(R.CSI_STATUS c), 0, 1⟩
def F.CSI_STATUS_UNMATCHED (c : Nat) : Fld := ⟨(R.CSI_STATUS c), 8, 8⟩
def F.CSI_STATUS_CRC_ERRORS (c : Nat) : Fld := ⟨(R.CSI_STATUS c), 16, 16⟩
def F.CSI_STATUS_ECC_UNCORRECTED (c : Nat) : Fld := ⟨(R.CSI_STATUS c), 32, 16⟩
def F.CSI_STATUS_ABANDONED (c : Nat) : Fld := ⟨(R.CSI_STATUS c), 48, 16⟩
def R.ETH_CTRL (p : Nat) : Nat := 0x600000040600 + p * 0x10
def F.ETH_CTRL_ENABLE (p : Nat) : Fld := ⟨(R.ETH_CTRL p), 0, 1⟩
def F.ETH_CTRL_SPEED (p : Nat) : Fld := ⟨(R.ETH_CTRL p), 1, 2⟩
def F.ETH_CTRL_TB (p : Nat) : Fld := ⟨(R.ETH_CTRL p), 3, 3⟩
def F.ETH_CTRL_JUMBO (p : Nat) : Fld := ⟨(R.ETH_CTRL p), 6, 1⟩
def R.ETH_STATUS (p : Nat) : Nat := 0x600000040608 + p * 0x10
def F.ETH_STATUS_LINK_UP (p : Nat) : Fld := ⟨(R.ETH_STATUS p), 0, 1⟩
def F.ETH_STATUS_PAUSING (p : Nat) : Fld := ⟨(R.ETH_STATUS p), 1, 1⟩
def F.ETH_STATUS_FCS_ERRORS (p : Nat) : Fld := ⟨(R.ETH_STATUS p), 16, 16⟩
def F.ETH_STATUS_UNMATCHED (p : Nat) : Fld := ⟨(R.ETH_STATUS p), 32, 16⟩
def F.ETH_STATUS_PAUSES_SENT (p : Nat) : Fld := ⟨(R.ETH_STATUS p), 48, 16⟩
def R.ETH_PAUSE (p : Nat) : Nat := 0x600000040640 + p * 0x8
def F.ETH_PAUSE_QUEUE_MASK (p : Nat) : Fld := ⟨(R.ETH_PAUSE p), 0, 32⟩
def F.ETH_PAUSE_QUANTA (p : Nat) : Fld := ⟨(R.ETH_PAUSE p), 32, 16⟩
def F.ETH_PAUSE_REFRESH_US (p : Nat) : Fld := ⟨(R.ETH_PAUSE p), 48, 16⟩
def R.CAN_CTRL (b : Nat) : Nat := 0x600000040700 + b * 0x10
def F.CAN_CTRL_ENABLE (b : Nat) : Fld := ⟨(R.CAN_CTRL b), 0, 1⟩
def F.CAN_CTRL_TB (b : Nat) : Fld := ⟨(R.CAN_CTRL b), 1, 3⟩
def F.CAN_CTRL_FD (b : Nat) : Fld := ⟨(R.CAN_CTRL b), 4, 1⟩
def F.CAN_CTRL_LISTEN_ONLY (b : Nat) : Fld := ⟨(R.CAN_CTRL b), 5, 1⟩
def F.CAN_CTRL_NOMINAL_KBPS (b : Nat) : Fld := ⟨(R.CAN_CTRL b), 16, 16⟩
def F.CAN_CTRL_DATA_KBPS (b : Nat) : Fld := ⟨(R.CAN_CTRL b), 32, 16⟩
def F.CAN_CTRL_SAMPLE_POINT (b : Nat) : Fld := ⟨(R.CAN_CTRL b), 48, 7⟩
def R.CAN_STATUS (b : Nat) : Nat := 0x600000040708 + b * 0x10
def F.CAN_STATUS_BUS_STATE (b : Nat) : Fld := ⟨(R.CAN_STATUS b), 0, 2⟩
def F.CAN_STATUS_TEC (b : Nat) : Fld := ⟨(R.CAN_STATUS b), 8, 8⟩
def F.CAN_STATUS_REC (b : Nat) : Fld := ⟨(R.CAN_STATUS b), 16, 8⟩
def F.CAN_STATUS_UNMATCHED (b : Nat) : Fld := ⟨(R.CAN_STATUS b), 24, 16⟩
def F.CAN_STATUS_ERROR_FRAMES (b : Nat) : Fld := ⟨(R.CAN_STATUS b), 40, 16⟩
def R.SPI_CTRL (m : Nat) : Nat := 0x600000040780 + m * 0x10
def F.SPI_CTRL_ENABLE (m : Nat) : Fld := ⟨(R.SPI_CTRL m), 0, 1⟩
def F.SPI_CTRL_TB (m : Nat) : Fld := ⟨(R.SPI_CTRL m), 1, 3⟩
def F.SPI_CTRL_MODE (m : Nat) : Fld := ⟨(R.SPI_CTRL m), 4, 2⟩
def F.SPI_CTRL_TRIG_PE (m : Nat) : Fld := ⟨(R.SPI_CTRL m), 6, 1⟩
def F.SPI_CTRL_TRIG_DRDY (m : Nat) : Fld := ⟨(R.SPI_CTRL m), 7, 1⟩
def F.SPI_CTRL_DRDY_INPUT (m : Nat) : Fld := ⟨(R.SPI_CTRL m), 8, 4⟩
def F.SPI_CTRL_SCLK_DIV (m : Nat) : Fld := ⟨(R.SPI_CTRL m), 16, 8⟩
def F.SPI_CTRL_XFER_BYTES (m : Nat) : Fld := ⟨(R.SPI_CTRL m), 24, 9⟩
def F.SPI_CTRL_CMD_BYTES (m : Nat) : Fld := ⟨(R.SPI_CTRL m), 33, 4⟩
def F.SPI_CTRL_PERIOD_US (m : Nat) : Fld := ⟨(R.SPI_CTRL m), 37, 20⟩
def R.SPI_CMD (m : Nat) : Nat := 0x600000040788 + m * 0x10
def F.SPI_CMD_CMD (m : Nat) : Fld := ⟨(R.SPI_CMD m), 0, 64⟩
def R.ENC_CTRL (e : Nat) : Nat := 0x600000040800 + e * 0x10
def F.ENC_CTRL_ENABLE (e : Nat) : Fld := ⟨(R.ENC_CTRL e), 0, 1⟩
def F.ENC_CTRL_SSI (e : Nat) : Fld := ⟨(R.ENC_CTRL e), 1, 1⟩
def F.ENC_CTRL_TB (e : Nat) : Fld := ⟨(R.ENC_CTRL e), 2, 3⟩
def F.ENC_CTRL_GRAY (e : Nat) : Fld := ⟨(R.ENC_CTRL e), 5, 1⟩
def F.ENC_CTRL_SSI_BITS (e : Nat) : Fld := ⟨(R.ENC_CTRL e), 6, 6⟩
def F.ENC_CTRL_SSI_DIV (e : Nat) : Fld := ⟨(R.ENC_CTRL e), 12, 12⟩
def F.ENC_CTRL_FILTER (e : Nat) : Fld := ⟨(R.ENC_CTRL e), 24, 4⟩
def F.ENC_CTRL_PERIOD_US (e : Nat) : Fld := ⟨(R.ENC_CTRL e), 28, 20⟩
def F.ENC_CTRL_TRIG_PE (e : Nat) : Fld := ⟨(R.ENC_CTRL e), 48, 1⟩
def R.ENC_STATUS (e : Nat) : Nat := 0x600000040808 + e * 0x10
def F.ENC_STATUS_POSITION (e : Nat) : Fld := ⟨(R.ENC_STATUS e), 0, 32⟩
def F.ENC_STATUS_ERRORS (e : Nat) : Fld := ⟨(R.ENC_STATUS e), 32, 16⟩
def R.GPIO_STAMP_RISE : Nat := 0x600000040880
def F.GPIO_STAMP_RISE_PINS : Fld := ⟨R.GPIO_STAMP_RISE, 0, 64⟩
def R.GPIO_STAMP_FALL : Nat := 0x600000040888
def F.GPIO_STAMP_FALL_PINS : Fld := ⟨R.GPIO_STAMP_FALL, 0, 64⟩
def R.GPIO_LEVEL : Nat := 0x600000040890
def F.GPIO_LEVEL_LEVELS : Fld := ⟨R.GPIO_LEVEL, 0, 64⟩
def R.FC_CTRL (f : Nat) : Nat := 0x600000040900 + f * 0x8
def F.FC_CTRL_QUEUE_MASK (f : Nat) : Fld := ⟨(R.FC_CTRL f), 0, 32⟩
def F.FC_CTRL_ENABLE (f : Nat) : Fld := ⟨(R.FC_CTRL f), 32, 1⟩
def F.FC_CTRL_POLARITY (f : Nat) : Fld := ⟨(R.FC_CTRL f), 33, 1⟩
/-! ### IQ block (spec/03_ingest.md) -/
def R.IQ_CTRL : Nat := 0x600000050000
def F.IQ_CTRL_LOCK : Fld := ⟨R.IQ_CTRL, 0, 1⟩
def R.IQ_ANY_HEAD : Nat := 0x600000050008
def F.IQ_ANY_HEAD_HEAD : Fld := ⟨R.IQ_ANY_HEAD, 0, 64⟩
def R.IQ_NONEMPTY : Nat := 0x600000050010
def F.IQ_NONEMPTY_QUEUES : Fld := ⟨R.IQ_NONEMPTY, 0, 32⟩
def R.IQ_ABOVE_HIGH : Nat := 0x600000050018
def F.IQ_ABOVE_HIGH_QUEUES : Fld := ⟨R.IQ_ABOVE_HIGH, 0, 32⟩
def R.IQ_REJECTS : Nat := 0x600000050020
def F.IQ_REJECTS_COUNT : Fld := ⟨R.IQ_REJECTS, 0, 32⟩
def F.IQ_REJECTS_LAST_OFFSET : Fld := ⟨R.IQ_REJECTS, 32, 16⟩
def R.IQ_RING_BASE (s : Nat) : Nat := 0x600000050100 + s * 0x80
def F.IQ_RING_BASE_BASE (s : Nat) : Fld := ⟨(R.IQ_RING_BASE s), 0, 48⟩
def R.IQ_RING_CFG (s : Nat) : Nat := 0x600000050108 + s * 0x80
def F.IQ_RING_CFG_SIZE_64 (s : Nat) : Fld := ⟨(R.IQ_RING_CFG s), 0, 32⟩
def F.IQ_RING_CFG_MAX_ITEM_64 (s : Nat) : Fld := ⟨(R.IQ_RING_CFG s), 32, 24⟩
def F.IQ_RING_CFG_READER (s : Nat) : Fld := ⟨(R.IQ_RING_CFG s), 56, 4⟩
def R.IQ_WM (s : Nat) : Nat := 0x600000050110 + s * 0x80
def F.IQ_WM_HIGH (s : Nat) : Fld := ⟨(R.IQ_WM s), 0, 32⟩
def F.IQ_WM_LOW (s : Nat) : Fld := ⟨(R.IQ_WM s), 32, 32⟩
def R.IQ_HEAD (s : Nat) : Nat := 0x600000050118 + s * 0x80
def F.IQ_HEAD_HEAD (s : Nat) : Fld := ⟨(R.IQ_HEAD s), 0, 64⟩
def R.IQ_CURSOR (s : Nat) : Nat := 0x600000050120 + s * 0x80
def F.IQ_CURSOR_MARK (s : Nat) : Fld := ⟨(R.IQ_CURSOR s), 0, 1⟩
def F.IQ_CURSOR_REWIND (s : Nat) : Fld := ⟨(R.IQ_CURSOR s), 1, 1⟩
def R.IQ_RELEASE (s : Nat) : Nat := 0x600000050128 + s * 0x80
def F.IQ_RELEASE_OFFSET64 (s : Nat) : Fld := ⟨(R.IQ_RELEASE s), 0, 32⟩
def R.IQ_FILL (s : Nat) : Nat := 0x600000050130 + s * 0x80
def F.IQ_FILL_FILL_64 (s : Nat) : Fld := ⟨(R.IQ_FILL s), 0, 32⟩
def F.IQ_FILL_OPEN (s : Nat) : Fld := ⟨(R.IQ_FILL s), 32, 1⟩
def F.IQ_FILL_ABOVE (s : Nat) : Fld := ⟨(R.IQ_FILL s), 33, 1⟩
def F.IQ_FILL_CONFIG_ERROR (s : Nat) : Fld := ⟨(R.IQ_FILL s), 34, 1⟩
def R.IQ_POS_A (s : Nat) : Nat := 0x600000050138 + s * 0x80
def F.IQ_POS_A_WRITE (s : Nat) : Fld := ⟨(R.IQ_POS_A s), 0, 32⟩
def F.IQ_POS_A_READ (s : Nat) : Fld := ⟨(R.IQ_POS_A s), 32, 32⟩
def R.IQ_POS_B (s : Nat) : Nat := 0x600000050140 + s * 0x80
def F.IQ_POS_B_RELEASE (s : Nat) : Fld := ⟨(R.IQ_POS_B s), 0, 32⟩
def F.IQ_POS_B_MARK (s : Nat) : Fld := ⟨(R.IQ_POS_B s), 32, 32⟩
def R.IQ_COUNTS (s : Nat) : Nat := 0x600000050148 + s * 0x80
def F.IQ_COUNTS_ITEMS (s : Nat) : Fld := ⟨(R.IQ_COUNTS s), 0, 32⟩
def F.IQ_COUNTS_HIGH_CROSSINGS (s : Nat) : Fld := ⟨(R.IQ_COUNTS s), 32, 16⟩
def F.IQ_COUNTS_BAD_OPS (s : Nat) : Fld := ⟨(R.IQ_COUNTS s), 48, 16⟩
def R.IQ_DISCARDS (s : Nat) : Nat := 0x600000050150 + s * 0x80
def F.IQ_DISCARDS_DISCARDS (s : Nat) : Fld := ⟨(R.IQ_DISCARDS s), 0, 32⟩
def F.IQ_DISCARDS_LAST_SEQ (s : Nat) : Fld := ⟨(R.IQ_DISCARDS s), 32, 32⟩
def R.IQ_NOTIFY (s : Nat) : Nat := 0x600000050158 + s * 0x80
def F.IQ_NOTIFY_NOTIFY_UNIT (s : Nat) : Fld := ⟨(R.IQ_NOTIFY s), 0, 16⟩
def F.IQ_NOTIFY_ON_CLOSE (s : Nat) : Fld := ⟨(R.IQ_NOTIFY s), 16, 1⟩
def F.IQ_NOTIFY_ON_HIGH (s : Nat) : Fld := ⟨(R.IQ_NOTIFY s), 17, 1⟩
/-! ### ALIGN block (spec/04_alignment.md) -/
def R.ALN_CTRL : Nat := 0x600000060000
def F.ALN_CTRL_LOCK : Fld := ⟨R.ALN_CTRL, 0, 1⟩
def F.ALN_CTRL_ENABLE : Fld := ⟨R.ALN_CTRL, 1, 1⟩
def R.ALN_CFG : Nat := 0x600000060008
def F.ALN_CFG_TB : Fld := ⟨R.ALN_CFG, 0, 3⟩
def F.ALN_CFG_WAIT_US : Fld := ⟨R.ALN_CFG, 4, 20⟩
def F.ALN_CFG_EGO_SPAN_MS : Fld := ⟨R.ALN_CFG, 24, 16⟩
def F.ALN_CFG_EGO_COAST_MS : Fld := ⟨R.ALN_CFG, 40, 16⟩
def R.ALN_STATUS : Nat := 0x600000060010
def F.ALN_STATUS_EGO_STATE : Fld := ⟨R.ALN_STATUS, 0, 3⟩
def F.ALN_STATUS_BUILDING : Fld := ⟨R.ALN_STATUS, 3, 1⟩
def F.ALN_STATUS_PENDING : Fld := ⟨R.ALN_STATUS, 4, 3⟩
def F.ALN_STATUS_CONFIG_ERROR : Fld := ⟨R.ALN_STATUS, 7, 1⟩
def F.ALN_STATUS_EPOCH : Fld := ⟨R.ALN_STATUS, 16, 16⟩
def F.ALN_STATUS_LAST_SEQ : Fld := ⟨R.ALN_STATUS, 32, 32⟩
def R.ALN_COUNTS : Nat := 0x600000060018
def F.ALN_COUNTS_BUNDLE_DROPS : Fld := ⟨R.ALN_COUNTS, 0, 16⟩
def F.ALN_COUNTS_OVERRUNS : Fld := ⟨R.ALN_COUNTS, 16, 16⟩
def F.ALN_COUNTS_INSTANT_REJECTS : Fld := ⟨R.ALN_COUNTS, 32, 16⟩
def F.ALN_COUNTS_DEADLINE_STARTS : Fld := ⟨R.ALN_COUNTS, 48, 16⟩
def R.ALN_REJECTS : Nat := 0x600000060020
def F.ALN_REJECTS_COUNT : Fld := ⟨R.ALN_REJECTS, 0, 32⟩
def F.ALN_REJECTS_LAST_OFFSET : Fld := ⟨R.ALN_REJECTS, 32, 16⟩
def R.ALN_RING_BASE : Nat := 0x600000060028
def F.ALN_RING_BASE_BASE : Fld := ⟨R.ALN_RING_BASE, 0, 48⟩
def R.ALN_RING_CFG : Nat := 0x600000060030
def F.ALN_RING_CFG_SLOTS : Fld := ⟨R.ALN_RING_CFG, 0, 16⟩
def F.ALN_RING_CFG_SLOT_64 : Fld := ⟨R.ALN_RING_CFG, 16, 24⟩
def F.ALN_RING_CFG_NOTIFY_UNIT : Fld := ⟨R.ALN_RING_CFG, 40, 16⟩
def F.ALN_RING_CFG_NOTIFY_EN : Fld := ⟨R.ALN_RING_CFG, 56, 1⟩
def R.ALN_RING_POS : Nat := 0x600000060038
def F.ALN_RING_POS_NEXT_SEQ : Fld := ⟨R.ALN_RING_POS, 0, 32⟩
def F.ALN_RING_POS_OLDEST_SEQ : Fld := ⟨R.ALN_RING_POS, 32, 32⟩
def R.ALN_RELEASE : Nat := 0x600000060040
def F.ALN_RELEASE_SEQ : Fld := ⟨R.ALN_RELEASE, 0, 32⟩
def R.ALN_EGO_CFG : Nat := 0x600000060048
def F.ALN_EGO_CFG_W_ROT : Fld := ⟨R.ALN_EGO_CFG, 0, 4⟩
def F.ALN_EGO_CFG_W_VEL : Fld := ⟨R.ALN_EGO_CFG, 4, 4⟩
def F.ALN_EGO_CFG_K_BIAS : Fld := ⟨R.ALN_EGO_CFG, 8, 4⟩
def F.ALN_EGO_CFG_REG_EN : Fld := ⟨R.ALN_EGO_CFG, 12, 1⟩
def F.ALN_EGO_CFG_REG_STREAM : Fld := ⟨R.ALN_EGO_CFG, 13, 5⟩
def F.ALN_EGO_CFG_REG_POINTS : Fld := ⟨R.ALN_EGO_CFG, 20, 13⟩
def F.ALN_EGO_CFG_REG_ITERS : Fld := ⟨R.ALN_EGO_CFG, 33, 4⟩
def F.ALN_EGO_CFG_REG_VOXEL_CM : Fld := ⟨R.ALN_EGO_CFG, 40, 8⟩
def F.ALN_EGO_CFG_REG_MAX_DIST_CM : Fld := ⟨R.ALN_EGO_CFG, 48, 8⟩
def R.ALN_EGO_LIMITS : Nat := 0x600000060050
def F.ALN_EGO_LIMITS_REG_MIN_INLIER_PCT : Fld := ⟨R.ALN_EGO_LIMITS, 0, 8⟩
def F.ALN_EGO_LIMITS_REG_MAX_RMS_MM : Fld := ⟨R.ALN_EGO_LIMITS, 8, 16⟩
def F.ALN_EGO_LIMITS_REG_COVER_MIN : Fld := ⟨R.ALN_EGO_LIMITS, 24, 8⟩
def F.ALN_EGO_LIMITS_REG_MAX_AGE_MS : Fld := ⟨R.ALN_EGO_LIMITS, 32, 16⟩
def F.ALN_EGO_LIMITS_COVER_MIN : Fld := ⟨R.ALN_EGO_LIMITS, 48, 8⟩
def R.ALN_EGO_STATUS : Nat := 0x600000060058
def F.ALN_EGO_STATUS_REG_VALID : Fld := ⟨R.ALN_EGO_STATUS, 0, 1⟩
def F.ALN_EGO_STATUS_REG_INLIER_PCT : Fld := ⟨R.ALN_EGO_STATUS, 8, 8⟩
def F.ALN_EGO_STATUS_REG_RMS_MM : Fld := ⟨R.ALN_EGO_STATUS, 16, 16⟩
def F.ALN_EGO_STATUS_REG_RUNS : Fld := ⟨R.ALN_EGO_STATUS, 32, 16⟩
def F.ALN_EGO_STATUS_REG_REJECTS : Fld := ⟨R.ALN_EGO_STATUS, 48, 16⟩
def R.ALN_BIAS_XY : Nat := 0x600000060060
def F.ALN_BIAS_XY_BIAS_X : Fld := ⟨R.ALN_BIAS_XY, 0, 32⟩
def F.ALN_BIAS_XY_BIAS_Y : Fld := ⟨R.ALN_BIAS_XY, 32, 32⟩
def R.ALN_BIAS_Z : Nat := 0x600000060068
def F.ALN_BIAS_Z_BIAS_Z : Fld := ⟨R.ALN_BIAS_Z, 0, 32⟩
def R.ALN_STREAM_CTRL (s : Nat) : Nat := 0x600000060100 + s * 0x20
def F.ALN_STREAM_CTRL_ENABLE (s : Nat) : Fld := ⟨(R.ALN_STREAM_CTRL s), 0, 1⟩
def F.ALN_STREAM_CTRL_KIND (s : Nat) : Fld := ⟨(R.ALN_STREAM_CTRL s), 1, 3⟩
def F.ALN_STREAM_CTRL_ORDER (s : Nat) : Fld := ⟨(R.ALN_STREAM_CTRL s), 4, 2⟩
def F.ALN_STREAM_CTRL_REQUIRED (s : Nat) : Fld := ⟨(R.ALN_STREAM_CTRL s), 6, 1⟩
def F.ALN_STREAM_CTRL_HISTORY (s : Nat) : Fld := ⟨(R.ALN_STREAM_CTRL s), 8, 6⟩
def F.ALN_STREAM_CTRL_ROW_GROUP_LOG (s : Nat) : Fld := ⟨(R.ALN_STREAM_CTRL s), 16, 3⟩
def F.ALN_STREAM_CTRL_PH (s : Nat) : Fld := ⟨(R.ALN_STREAM_CTRL s), 20, 3⟩
def F.ALN_STREAM_CTRL_SLICES (s : Nat) : Fld := ⟨(R.ALN_STREAM_CTRL s), 24, 8⟩
def F.ALN_STREAM_CTRL_OBJ_STRIDE_8 (s : Nat) : Fld := ⟨(R.ALN_STREAM_CTRL s), 32, 8⟩
def F.ALN_STREAM_CTRL_OBJ_FIRST (s : Nat) : Fld := ⟨(R.ALN_STREAM_CTRL s), 40, 10⟩
def F.ALN_STREAM_CTRL_OBJ_MAX (s : Nat) : Fld := ⟨(R.ALN_STREAM_CTRL s), 50, 8⟩
def R.ALN_STREAM_LIMITS (s : Nat) : Nat := 0x600000060108 + s * 0x20
def F.ALN_STREAM_LIMITS_STALE_US (s : Nat) : Fld := ⟨(R.ALN_STREAM_LIMITS s), 0, 20⟩
def F.ALN_STREAM_LIMITS_MAX_EXTRAP_US (s : Nat) : Fld := ⟨(R.ALN_STREAM_LIMITS s), 20, 20⟩
def F.ALN_STREAM_LIMITS_MAX_GAP_US (s : Nat) : Fld := ⟨(R.ALN_STREAM_LIMITS s), 40, 20⟩
def R.ALN_STREAM_AUX (s : Nat) : Nat := 0x600000060110 + s * 0x20
def F.ALN_STREAM_AUX_EXPOSURE_OFFSET_NS (s : Nat) : Fld := ⟨(R.ALN_STREAM_AUX s), 0, 32⟩
def R.ALN_STREAM_STATUS (s : Nat) : Nat := 0x600000060118 + s * 0x20
def F.ALN_STREAM_STATUS_STATE (s : Nat) : Fld := ⟨(R.ALN_STREAM_STATUS s), 0, 2⟩
def F.ALN_STREAM_STATUS_STALE_BUNDLES (s : Nat) : Fld := ⟨(R.ALN_STREAM_STATUS s), 16, 16⟩
def F.ALN_STREAM_STATUS_EXTRAP_BUNDLES (s : Nat) : Fld := ⟨(R.ALN_STREAM_STATUS s), 32, 16⟩
def F.ALN_STREAM_STATUS_ITEMS_HELD (s : Nat) : Fld := ⟨(R.ALN_STREAM_STATUS s), 48, 16⟩
def R.ALN_CH (c : Nat) : Nat := 0x600000060500 + c * 0x8
def F.ALN_CH_VALID (c : Nat) : Fld := ⟨(R.ALN_CH c), 0, 1⟩
def F.ALN_CH_STREAM (c : Nat) : Fld := ⟨(R.ALN_CH c), 1, 5⟩
def F.ALN_CH_TYPE (c : Nat) : Fld := ⟨(R.ALN_CH c), 6, 4⟩
def F.ALN_CH_BE (c : Nat) : Fld := ⟨(R.ALN_CH c), 10, 1⟩
def F.ALN_CH_OFFSET (c : Nat) : Fld := ⟨(R.ALN_CH c), 12, 10⟩
def F.ALN_CH_ROLE (c : Nat) : Fld := ⟨(R.ALN_CH c), 22, 6⟩
def F.ALN_CH_VG (c : Nat) : Fld := ⟨(R.ALN_CH c), 28, 4⟩
def F.ALN_CH_SCALE (c : Nat) : Fld := ⟨(R.ALN_CH c), 32, 32⟩
def R.ALN_VG_CFG (g : Nat) : Nat := 0x600000060D00 + g * 0x20
def F.ALN_VG_CFG_ENABLE (g : Nat) : Fld := ⟨(R.ALN_VG_CFG g), 0, 1⟩
def F.ALN_VG_CFG_OUT_K (g : Nat) : Fld := ⟨(R.ALN_VG_CFG g), 1, 4⟩
def F.ALN_VG_CFG_OUT_N (g : Nat) : Fld := ⟨(R.ALN_VG_CFG g), 5, 4⟩
def F.ALN_VG_CFG_IN_COUNT (g : Nat) : Fld := ⟨(R.ALN_VG_CFG g), 16, 8⟩
def R.ALN_VG_TOL (g : Nat) : Nat := 0x600000060D08 + g * 0x20
def F.ALN_VG_TOL_TOL (g : Nat) : Fld := ⟨(R.ALN_VG_TOL g), 0, 32⟩
def R.ALN_VG_STATUS (g : Nat) : Nat := 0x600000060D10 + g * 0x20
def F.ALN_VG_STATUS_ADMITTED (g : Nat) : Fld := ⟨(R.ALN_VG_STATUS g), 0, 8⟩
def F.ALN_VG_STATUS_VOTED_OUT (g : Nat) : Fld := ⟨(R.ALN_VG_STATUS g), 8, 8⟩
def F.ALN_VG_STATUS_SPLIT (g : Nat) : Fld := ⟨(R.ALN_VG_STATUS g), 16, 1⟩
def F.ALN_VG_STATUS_NO_QUORUM (g : Nat) : Fld := ⟨(R.ALN_VG_STATUS g), 17, 1⟩
def F.ALN_VG_STATUS_CONFIG_ERROR (g : Nat) : Fld := ⟨(R.ALN_VG_STATUS g), 18, 1⟩
def F.ALN_VG_STATUS_VOTE_OUTS (g : Nat) : Fld := ⟨(R.ALN_VG_STATUS g), 32, 16⟩
def F.ALN_VG_STATUS_READMITS (g : Nat) : Fld := ⟨(R.ALN_VG_STATUS g), 48, 16⟩
def R.ALN_REC_CFG (r : Nat) : Nat := 0x600000060E00 + r * 0x10
def F.ALN_REC_CFG_ENABLE (r : Nat) : Fld := ⟨(R.ALN_REC_CFG r), 0, 1⟩
def F.ALN_REC_CFG_SQUARE (r : Nat) : Fld := ⟨(R.ALN_REC_CFG r), 1, 6⟩
def F.ALN_REC_CFG_OFFSET_64 (r : Nat) : Fld := ⟨(R.ALN_REC_CFG r), 8, 16⟩
def F.ALN_REC_CFG_SIZE_64 (r : Nat) : Fld := ⟨(R.ALN_REC_CFG r), 24, 16⟩
def R.ALN_REC_STATUS (r : Nat) : Nat := 0x600000060E08 + r * 0x10
def F.ALN_REC_STATUS_LAST_SEQ (r : Nat) : Fld := ⟨(R.ALN_REC_STATUS r), 0, 32⟩
def F.ALN_REC_STATUS_SKIPS (r : Nat) : Fld := ⟨(R.ALN_REC_STATUS r), 32, 16⟩
def R.ALN_FEAT_DESC (q : Nat) : Nat := 0x600000060F00 + q * 0x10
def F.ALN_FEAT_DESC_ADDR (q : Nat) : Fld := ⟨(R.ALN_FEAT_DESC q), 0, 48⟩
def F.ALN_FEAT_DESC_VALID (q : Nat) : Fld := ⟨(R.ALN_FEAT_DESC q), 48, 1⟩
def R.ALN_FEAT_STAMP (q : Nat) : Nat := 0x600000060F08 + q * 0x10
def F.ALN_FEAT_STAMP_TS64 (q : Nat) : Fld := ⟨(R.ALN_FEAT_STAMP q), 0, 64⟩
/-! ### VOX block (spec/05_voxel.md) -/
def R.VOX_CTRL : Nat := 0x600000070000
def F.VOX_CTRL_LOCK : Fld := ⟨R.VOX_CTRL, 0, 1⟩
def F.VOX_CTRL_ENABLE : Fld := ⟨R.VOX_CTRL, 1, 1⟩
def F.VOX_CTRL_FORCE_PILLAR : Fld := ⟨R.VOX_CTRL, 2, 1⟩
def R.VOX_CFG : Nat := 0x600000070008
def F.VOX_CFG_TRIGGER : Fld := ⟨R.VOX_CFG, 0, 1⟩
def F.VOX_CFG_TB : Fld := ⟨R.VOX_CFG, 1, 3⟩
def F.VOX_CFG_POLICY : Fld := ⟨R.VOX_CFG, 4, 3⟩
def F.VOX_CFG_PROBE : Fld := ⟨R.VOX_CFG, 7, 2⟩
def F.VOX_CFG_HASH_LOG : Fld := ⟨R.VOX_CFG, 9, 5⟩
def F.VOX_CFG_WARMUP : Fld := ⟨R.VOX_CFG, 14, 8⟩
def F.VOX_CFG_FALLBACK_DROPS : Fld := ⟨R.VOX_CFG, 22, 16⟩
def F.VOX_CFG_FALLBACK_FRAMES : Fld := ⟨R.VOX_CFG, 38, 8⟩
def R.VOX_CFG2 : Nat := 0x600000070010
def F.VOX_CFG2_WAIT_US : Fld := ⟨R.VOX_CFG2, 0, 20⟩
def F.VOX_CFG2_EGO_MAX_AGE_MS : Fld := ⟨R.VOX_CFG2, 20, 16⟩
def R.VOX_GRID_X : Nat := 0x600000070018
def F.VOX_GRID_X_MIN_CM : Fld := ⟨R.VOX_GRID_X, 0, 20⟩
def F.VOX_GRID_X_N : Fld := ⟨R.VOX_GRID_X, 20, 13⟩
def F.VOX_GRID_X_V_MM : Fld := ⟨R.VOX_GRID_X, 33, 15⟩
def R.VOX_GRID_Y : Nat := 0x600000070020
def F.VOX_GRID_Y_MIN_CM : Fld := ⟨R.VOX_GRID_Y, 0, 20⟩
def F.VOX_GRID_Y_N : Fld := ⟨R.VOX_GRID_Y, 20, 13⟩
def F.VOX_GRID_Y_V_MM : Fld := ⟨R.VOX_GRID_Y, 33, 15⟩
def R.VOX_GRID_Z : Nat := 0x600000070028
def F.VOX_GRID_Z_MIN_CM : Fld := ⟨R.VOX_GRID_Z, 0, 20⟩
def F.VOX_GRID_Z_N : Fld := ⟨R.VOX_GRID_Z, 20, 13⟩
def F.VOX_GRID_Z_V_MM : Fld := ⟨R.VOX_GRID_Z, 33, 15⟩
def R.VOX_BEV_CFG : Nat := 0x600000070030
def F.VOX_BEV_CFG_POOL_LOG : Fld := ⟨R.VOX_BEV_CFG, 0, 2⟩
def F.VOX_BEV_CFG_CHANNELS : Fld := ⟨R.VOX_BEV_CFG, 4, 7⟩
def F.VOX_BEV_CFG_COVER_MIN : Fld := ⟨R.VOX_BEV_CFG, 16, 8⟩
def F.VOX_BEV_CFG_SECTOR_FIRST : Fld := ⟨R.VOX_BEV_CFG, 24, 8⟩
def F.VOX_BEV_CFG_SECTOR_LAST : Fld := ⟨R.VOX_BEV_CFG, 32, 8⟩
def F.VOX_BEV_CFG_SECTOR_EN : Fld := ⟨R.VOX_BEV_CFG, 40, 1⟩
def F.VOX_BEV_CFG_PILLAR_PTS : Fld := ⟨R.VOX_BEV_CFG, 41, 2⟩
def R.VOX_EXCL : Nat := 0x600000070038
def F.VOX_EXCL_FRONT_CM : Fld := ⟨R.VOX_EXCL, 0, 16⟩
def F.VOX_EXCL_REAR_CM : Fld := ⟨R.VOX_EXCL, 16, 16⟩
def F.VOX_EXCL_HALF_WIDTH_CM : Fld := ⟨R.VOX_EXCL, 32, 16⟩
def F.VOX_EXCL_TOP_CM : Fld := ⟨R.VOX_EXCL, 48, 16⟩
def R.VOX_BEV_MAP (k : Nat) : Nat := 0x600000070040 + k * 0x8
def F.VOX_BEV_MAP_SOURCE (k i : Nat) : Fld := ⟨(R.VOX_BEV_MAP k), 0 + 8 * i, 4⟩
def F.VOX_BEV_MAP_ARG (k i : Nat) : Fld := ⟨(R.VOX_BEV_MAP k), 4 + 8 * i, 4⟩
def R.VOX_HASH_BASE : Nat := 0x600000070080
def F.VOX_HASH_BASE_BASE : Fld := ⟨R.VOX_HASH_BASE, 0, 48⟩
def R.VOX_OUT_BASE : Nat := 0x600000070088
def F.VOX_OUT_BASE_BASE : Fld := ⟨R.VOX_OUT_BASE, 0, 48⟩
def R.VOX_OUT_CFG : Nat := 0x600000070090
def F.VOX_OUT_CFG_SLOTS : Fld := ⟨R.VOX_OUT_CFG, 0, 4⟩
def F.VOX_OUT_CFG_SLOT_SIZE_4K : Fld := ⟨R.VOX_OUT_CFG, 4, 32⟩
def F.VOX_OUT_CFG_NOTIFY_UNIT : Fld := ⟨R.VOX_OUT_CFG, 36, 16⟩
def F.VOX_OUT_CFG_NOTIFY_EN : Fld := ⟨R.VOX_OUT_CFG, 52, 1⟩
def R.VOX_ELEV_BASE : Nat := 0x600000070098
def F.VOX_ELEV_BASE_BASE : Fld := ⟨R.VOX_ELEV_BASE, 0, 48⟩
def R.VOX_OUT_POS : Nat := 0x6000000700A0
def F.VOX_OUT_POS_NEXT_SEQ : Fld := ⟨R.VOX_OUT_POS, 0, 32⟩
def F.VOX_OUT_POS_OLDEST_SEQ : Fld := ⟨R.VOX_OUT_POS, 32, 32⟩
def R.VOX_RELEASE : Nat := 0x6000000700A8
def F.VOX_RELEASE_SEQ : Fld := ⟨R.VOX_RELEASE, 0, 32⟩
def R.VOX_STATUS : Nat := 0x6000000700B0
def F.VOX_STATUS_BUILDING : Fld := ⟨R.VOX_STATUS, 0, 1⟩
def F.VOX_STATUS_PILLAR_ACTIVE : Fld := ⟨R.VOX_STATUS, 1, 1⟩
def F.VOX_STATUS_CONFIG_ERROR : Fld := ⟨R.VOX_STATUS, 2, 1⟩
def F.VOX_STATUS_PENDING : Fld := ⟨R.VOX_STATUS, 3, 2⟩
def F.VOX_STATUS_MODE_CAUSE : Fld := ⟨R.VOX_STATUS, 5, 3⟩
def F.VOX_STATUS_EPOCH : Fld := ⟨R.VOX_STATUS, 16, 16⟩
def F.VOX_STATUS_LAST_SEQ : Fld := ⟨R.VOX_STATUS, 32, 32⟩
def R.VOX_COUNTS : Nat := 0x6000000700B8
def F.VOX_COUNTS_FRAME_DROPS : Fld := ⟨R.VOX_COUNTS, 0, 16⟩
def F.VOX_COUNTS_OVERRUNS : Fld := ⟨R.VOX_COUNTS, 16, 16⟩
def F.VOX_COUNTS_TRIGGER_REJECTS : Fld := ⟨R.VOX_COUNTS, 32, 16⟩
def F.VOX_COUNTS_FALLBACKS : Fld := ⟨R.VOX_COUNTS, 48, 16⟩
def R.VOX_REJECTS : Nat := 0x6000000700C0
def F.VOX_REJECTS_COUNT : Fld := ⟨R.VOX_REJECTS, 0, 32⟩
def F.VOX_REJECTS_LAST_OFFSET : Fld := ⟨R.VOX_REJECTS, 32, 16⟩
def R.VOX_SRC_CTRL (l : Nat) : Nat := 0x600000070100 + l * 0x60
def F.VOX_SRC_CTRL_ENABLE (l : Nat) : Fld := ⟨(R.VOX_SRC_CTRL l), 0, 1⟩
def F.VOX_SRC_CTRL_VIA_BUNDLE (l : Nat) : Fld := ⟨(R.VOX_SRC_CTRL l), 1, 1⟩
def F.VOX_SRC_CTRL_SLOT (l : Nat) : Fld := ⟨(R.VOX_SRC_CTRL l), 2, 5⟩
def F.VOX_SRC_CTRL_PH (l : Nat) : Fld := ⟨(R.VOX_SRC_CTRL l), 7, 3⟩
def F.VOX_SRC_CTRL_CW (l : Nat) : Fld := ⟨(R.VOX_SRC_CTRL l), 10, 1⟩
def F.VOX_SRC_CTRL_SLICES (l : Nat) : Fld := ⟨(R.VOX_SRC_CTRL l), 16, 8⟩
def F.VOX_SRC_CTRL_POINT_MAX (l : Nat) : Fld := ⟨(R.VOX_SRC_CTRL l), 24, 23⟩
def F.VOX_SRC_CTRL_AZ_ZERO (l : Nat) : Fld := ⟨(R.VOX_SRC_CTRL l), 48, 16⟩
def R.VOX_SRC_FMT (l : Nat) : Nat := 0x600000070108 + l * 0x60
def F.VOX_SRC_FMT_POINT_FIRST (l : Nat) : Fld := ⟨(R.VOX_SRC_FMT l), 0, 12⟩
def F.VOX_SRC_FMT_POINT_STRIDE (l : Nat) : Fld := ⟨(R.VOX_SRC_FMT l), 12, 8⟩
def F.VOX_SRC_FMT_POINT_COUNT (l : Nat) : Fld := ⟨(R.VOX_SRC_FMT l), 20, 12⟩
def F.VOX_SRC_FMT_COORD (l : Nat) : Fld := ⟨(R.VOX_SRC_FMT l), 32, 2⟩
def F.VOX_SRC_FMT_BE (l : Nat) : Fld := ⟨(R.VOX_SRC_FMT l), 34, 1⟩
def F.VOX_SRC_FMT_I_16 (l : Nat) : Fld := ⟨(R.VOX_SRC_FMT l), 35, 1⟩
def F.VOX_SRC_FMT_T_SCALE_NS (l : Nat) : Fld := ⟨(R.VOX_SRC_FMT l), 48, 16⟩
def R.VOX_SRC_FIELDS (l : Nat) : Nat := 0x600000070110 + l * 0x60
def F.VOX_SRC_FIELDS_X_OFF (l : Nat) : Fld := ⟨(R.VOX_SRC_FIELDS l), 0, 8⟩
def F.VOX_SRC_FIELDS_Y_OFF (l : Nat) : Fld := ⟨(R.VOX_SRC_FIELDS l), 8, 8⟩
def F.VOX_SRC_FIELDS_Z_OFF (l : Nat) : Fld := ⟨(R.VOX_SRC_FIELDS l), 16, 8⟩
def F.VOX_SRC_FIELDS_I_OFF (l : Nat) : Fld := ⟨(R.VOX_SRC_FIELDS l), 24, 8⟩
def F.VOX_SRC_FIELDS_RING_OFF (l : Nat) : Fld := ⟨(R.VOX_SRC_FIELDS l), 32, 8⟩
def F.VOX_SRC_FIELDS_T_OFF (l : Nat) : Fld := ⟨(R.VOX_SRC_FIELDS l), 40, 8⟩
def R.VOX_SRC_SCALE (l : Nat) : Nat := 0x600000070118 + l * 0x60
def F.VOX_SRC_SCALE_COORD_SCALE (l : Nat) : Fld := ⟨(R.VOX_SRC_SCALE l), 0, 32⟩
def F.VOX_SRC_SCALE_MIN_RANGE_CM (l : Nat) : Fld := ⟨(R.VOX_SRC_SCALE l), 32, 16⟩
def F.VOX_SRC_SCALE_MAX_RANGE_M (l : Nat) : Fld := ⟨(R.VOX_SRC_SCALE l), 48, 16⟩
def R.VOX_SRC_EXT (l x : Nat) : Nat := 0x600000070120 + l * 0x60 + x * 0x8
def F.VOX_SRC_EXT_A (l x : Nat) : Fld := ⟨(R.VOX_SRC_EXT l x), 0, 32⟩
def F.VOX_SRC_EXT_B (l x : Nat) : Fld := ⟨(R.VOX_SRC_EXT l x), 32, 32⟩
def R.VOX_SRC_STATUS (l : Nat) : Nat := 0x600000070150 + l * 0x60
def F.VOX_SRC_STATUS_STATE (l : Nat) : Fld := ⟨(R.VOX_SRC_STATUS l), 0, 2⟩
def F.VOX_SRC_STATUS_COVERAGE (l : Nat) : Fld := ⟨(R.VOX_SRC_STATUS l), 8, 8⟩
def F.VOX_SRC_STATUS_POINTS_LAST (l : Nat) : Fld := ⟨(R.VOX_SRC_STATUS l), 16, 24⟩
def F.VOX_SRC_STATUS_DROPS_LAST (l : Nat) : Fld := ⟨(R.VOX_SRC_STATUS l), 40, 24⟩
def R.VOX_SC_CFG (i : Nat) : Nat := 0x600000070400 + i * 0x20
def F.VOX_SC_CFG_ENABLE (i : Nat) : Fld := ⟨(R.VOX_SC_CFG i), 0, 1⟩
def F.VOX_SC_CFG_MODE (i : Nat) : Fld := ⟨(R.VOX_SC_CFG i), 1, 1⟩
def F.VOX_SC_CFG_INPUT (i : Nat) : Fld := ⟨(R.VOX_SC_CFG i), 2, 3⟩
def F.VOX_SC_CFG_KERNEL (i : Nat) : Fld := ⟨(R.VOX_SC_CFG i), 5, 1⟩
def F.VOX_SC_CFG_STRIDE (i : Nat) : Fld := ⟨(R.VOX_SC_CFG i), 6, 1⟩
def F.VOX_SC_CFG_SUBM (i : Nat) : Fld := ⟨(R.VOX_SC_CFG i), 7, 1⟩
def R.VOX_SC_LIMIT (i : Nat) : Nat := 0x600000070408 + i * 0x20
def F.VOX_SC_LIMIT_SITE_MAX (i : Nat) : Fld := ⟨(R.VOX_SC_LIMIT i), 0, 24⟩
def F.VOX_SC_LIMIT_PAIR_MAX (i : Nat) : Fld := ⟨(R.VOX_SC_LIMIT i), 24, 32⟩
def R.VOX_SC_STATUS (i : Nat) : Nat := 0x600000070410 + i * 0x20
def F.VOX_SC_STATUS_SITES_LAST (i : Nat) : Fld := ⟨(R.VOX_SC_STATUS i), 0, 24⟩
def F.VOX_SC_STATUS_PAIRS_LAST (i : Nat) : Fld := ⟨(R.VOX_SC_STATUS i), 24, 32⟩
def F.VOX_SC_STATUS_OVERFLOW (i : Nat) : Fld := ⟨(R.VOX_SC_STATUS i), 56, 1⟩
def F.VOX_SC_STATUS_REFUSED (i : Nat) : Fld := ⟨(R.VOX_SC_STATUS i), 57, 1⟩
/-! ### SQ block (spec/06_grid.md) -/
def R.SQ_CTRL (n : Nat) : Nat := 0x600000100000 + n * 0x10000
def F.SQ_CTRL_LOCK (n : Nat) : Fld := ⟨(R.SQ_CTRL n), 0, 1⟩
def F.SQ_CTRL_START (n : Nat) : Fld := ⟨(R.SQ_CTRL n), 1, 1⟩
def F.SQ_CTRL_HALT (n : Nat) : Fld := ⟨(R.SQ_CTRL n), 2, 1⟩
def F.SQ_CTRL_LOAD (n : Nat) : Fld := ⟨(R.SQ_CTRL n), 3, 1⟩
def F.SQ_CTRL_RESET (n : Nat) : Fld := ⟨(R.SQ_CTRL n), 4, 1⟩
def R.SQ_STATE (n : Nat) : Nat := 0x600000100008 + n * 0x10000
def F.SQ_STATE_UNIT_STATE (n : Nat) : Fld := ⟨(R.SQ_STATE n), 0, 4⟩
def F.SQ_STATE_RUN (n : Nat) : Fld := ⟨(R.SQ_STATE n), 4, 2⟩
def F.SQ_STATE_IN_HANDLER (n : Nat) : Fld := ⟨(R.SQ_STATE n), 6, 1⟩
def F.SQ_STATE_REST_PENDING (n : Nat) : Fld := ⟨(R.SQ_STATE n), 7, 1⟩
def F.SQ_STATE_PARTITION (n : Nat) : Fld := ⟨(R.SQ_STATE n), 8, 3⟩
def F.SQ_STATE_ASSIGNED (n : Nat) : Fld := ⟨(R.SQ_STATE n), 11, 1⟩
def F.SQ_STATE_EPOCH (n : Nat) : Fld := ⟨(R.SQ_STATE n), 16, 16⟩
def F.SQ_STATE_TXQ_FILL (n : Nat) : Fld := ⟨(R.SQ_STATE n), 32, 5⟩
def R.SQ_IDENT (n : Nat) : Nat := 0x600000100010 + n * 0x10000
def F.SQ_IDENT_UNIT_ID (n : Nat) : Fld := ⟨(R.SQ_IDENT n), 0, 16⟩
def F.SQ_IDENT_FILE (n : Nat) : Fld := ⟨(R.SQ_IDENT n), 16, 3⟩
def F.SQ_IDENT_RANK (n : Nat) : Fld := ⟨(R.SQ_IDENT n), 19, 3⟩
def F.SQ_IDENT_PLANE_HOST (n : Nat) : Fld := ⟨(R.SQ_IDENT n), 22, 1⟩
def F.SQ_IDENT_PLANE (n : Nat) : Fld := ⟨(R.SQ_IDENT n), 23, 5⟩
def F.SQ_IDENT_MODULE (n : Nat) : Fld := ⟨(R.SQ_IDENT n), 28, 3⟩
def R.SQ_ENTRY (n : Nat) : Nat := 0x600000100018 + n * 0x10000
def F.SQ_ENTRY_ENTRY (n : Nat) : Fld := ⟨(R.SQ_ENTRY n), 0, 22⟩
def R.SQ_PC (n : Nat) : Nat := 0x600000100020 + n * 0x10000
def F.SQ_PC_PC (n : Nat) : Fld := ⟨(R.SQ_PC n), 0, 22⟩
def R.SQ_TRAP (n : Nat) : Nat := 0x600000100028 + n * 0x10000
def F.SQ_TRAP_CAUSE (n : Nat) : Fld := ⟨(R.SQ_TRAP n), 0, 8⟩
def F.SQ_TRAP_INTERRUPT (n : Nat) : Fld := ⟨(R.SQ_TRAP n), 8, 1⟩
def F.SQ_TRAP_KIND (n : Nat) : Fld := ⟨(R.SQ_TRAP n), 9, 3⟩
def F.SQ_TRAP_TVAL (n : Nat) : Fld := ⟨(R.SQ_TRAP n), 32, 32⟩
def R.SQ_CFG (n : Nat) : Nat := 0x600000100030 + n * 0x10000
def F.SQ_CFG_REST_EN (n : Nat) : Fld := ⟨(R.SQ_CFG n), 0, 1⟩
def F.SQ_CFG_NOTIFY_PRIO (n : Nat) : Fld := ⟨(R.SQ_CFG n), 1, 3⟩
def F.SQ_CFG_AGE_LIMIT (n : Nat) : Fld := ⟨(R.SQ_CFG n), 4, 12⟩
def F.SQ_CFG_TRAP_FAULT (n : Nat) : Fld := ⟨(R.SQ_CFG n), 16, 1⟩
def F.SQ_CFG_TB (n : Nat) : Fld := ⟨(R.SQ_CFG n), 17, 3⟩
def R.SQ_INQ_CFG (n : Nat) : Nat := 0x600000100038 + n * 0x10000
def F.SQ_INQ_CFG_QUOTA (n i : Nat) : Fld := ⟨(R.SQ_INQ_CFG n), 0 + 8 * i, 8⟩
def R.SQ_INQ_STATUS (n : Nat) : Nat := 0x600000100040 + n * 0x10000
def F.SQ_INQ_STATUS_FILL (n i : Nat) : Fld := ⟨(R.SQ_INQ_STATUS n), 0 + 8 * i, 8⟩
def R.SQ_MSG_COUNTS (n : Nat) : Nat := 0x600000100048 + n * 0x10000
def F.SQ_MSG_COUNTS_SENT (n : Nat) : Fld := ⟨(R.SQ_MSG_COUNTS n), 0, 32⟩
def F.SQ_MSG_COUNTS_RECEIVED (n : Nat) : Fld := ⟨(R.SQ_MSG_COUNTS n), 32, 32⟩
def R.SQ_REFUSED (n : Nat) : Nat := 0x600000100050 + n * 0x10000
def F.SQ_REFUSED_NO_SPACE (n : Nat) : Fld := ⟨(R.SQ_REFUSED n), 0, 32⟩
def F.SQ_REFUSED_LAST_SRC (n : Nat) : Fld := ⟨(R.SQ_REFUSED n), 32, 16⟩
def F.SQ_REFUSED_LAST_MODULE (n : Nat) : Fld := ⟨(R.SQ_REFUSED n), 48, 3⟩
def R.SQ_STALE (n : Nat) : Nat := 0x600000100058 + n * 0x10000
def F.SQ_STALE_COUNT (n : Nat) : Fld := ⟨(R.SQ_STALE n), 0, 32⟩
def F.SQ_STALE_LAST_UNIT (n : Nat) : Fld := ⟨(R.SQ_STALE n), 32, 16⟩
def F.SQ_STALE_LAST_MODULE (n : Nat) : Fld := ⟨(R.SQ_STALE n), 48, 3⟩
def R.SQ_ANSWERS (n : Nat) : Nat := 0x600000100060 + n * 0x10000
def F.SQ_ANSWERS_UNIT_RESET (n : Nat) : Fld := ⟨(R.SQ_ANSWERS n), 0, 16⟩
def F.SQ_ANSWERS_BUSY (n : Nat) : Fld := ⟨(R.SQ_ANSWERS n), 16, 16⟩
def F.SQ_ANSWERS_OTHER (n : Nat) : Fld := ⟨(R.SQ_ANSWERS n), 32, 16⟩
def F.SQ_ANSWERS_POSTED_REFUSED (n : Nat) : Fld := ⟨(R.SQ_ANSWERS n), 48, 16⟩
def R.SQ_ROUTER (n : Nat) : Nat := 0x600000100068 + n * 0x10000
def F.SQ_ROUTER_LINK_UP (n : Nat) : Fld := ⟨(R.SQ_ROUTER n), 0, 4⟩
def F.SQ_ROUTER_EDGE (n : Nat) : Fld := ⟨(R.SQ_ROUTER n), 4, 4⟩
def F.SQ_ROUTER_PLANE_PORT (n : Nat) : Fld := ⟨(R.SQ_ROUTER n), 8, 1⟩
def F.SQ_ROUTER_FLIT_CORRECTED (n : Nat) : Fld := ⟨(R.SQ_ROUTER n), 16, 16⟩
def F.SQ_ROUTER_FLIT_UNCORRECTED (n : Nat) : Fld := ⟨(R.SQ_ROUTER n), 32, 16⟩
def R.SQ_REST (n : Nat) : Nat := 0x600000100070 + n * 0x10000
def F.SQ_REST_REQUEST (n : Nat) : Fld := ⟨(R.SQ_REST n), 0, 1⟩
def F.SQ_REST_FORCE (n : Nat) : Fld := ⟨(R.SQ_REST n), 1, 1⟩
def F.SQ_REST_WITHDRAW (n : Nat) : Fld := ⟨(R.SQ_REST n), 8, 1⟩
def F.SQ_REST_RESTS (n : Nat) : Fld := ⟨(R.SQ_REST n), 16, 16⟩
def F.SQ_REST_FORCED (n : Nat) : Fld := ⟨(R.SQ_REST n), 32, 16⟩
def F.SQ_REST_FAILS (n : Nat) : Fld := ⟨(R.SQ_REST n), 48, 16⟩
def R.SQ_PERF_CYCLES (n : Nat) : Nat := 0x600000100078 + n * 0x10000
def F.SQ_PERF_CYCLES_BUSY_CYCLES (n : Nat) : Fld := ⟨(R.SQ_PERF_CYCLES n), 0, 64⟩
def R.SQ_PERF_ARRAY (n : Nat) : Nat := 0x600000100080 + n * 0x10000
def F.SQ_PERF_ARRAY_STREAM_CYCLES (n : Nat) : Fld := ⟨(R.SQ_PERF_ARRAY n), 0, 32⟩
def F.SQ_PERF_ARRAY_LOAD_ONLY_CYCLES (n : Nat) : Fld := ⟨(R.SQ_PERF_ARRAY n), 32, 32⟩
def R.SQ_PERF_STALL (n : Nat) : Nat := 0x600000100088 + n * 0x10000
def F.SQ_PERF_STALL_ISSUE_STALLS (n : Nat) : Fld := ⟨(R.SQ_PERF_STALL n), 0, 32⟩
def F.SQ_PERF_STALL_WAIT_CYCLES (n : Nat) : Fld := ⟨(R.SQ_PERF_STALL n), 32, 32⟩
def R.SQ_ECC (n : Nat) : Nat := 0x600000100090 + n * 0x10000
def F.SQ_ECC_CORRECTED (n : Nat) : Fld := ⟨(R.SQ_ECC n), 0, 16⟩
def F.SQ_ECC_UNCORRECTED (n : Nat) : Fld := ⟨(R.SQ_ECC n), 16, 16⟩
def F.SQ_ECC_LAST_ADDR (n : Nat) : Fld := ⟨(R.SQ_ECC n), 32, 22⟩
def R.SQ_EVENT (n : Nat) : Nat := 0x600000100098 + n * 0x10000
def F.SQ_EVENT_EVENT (n : Nat) : Fld := ⟨(R.SQ_EVENT n), 0, 1⟩
def F.SQ_EVENT_CLEAR (n : Nat) : Fld := ⟨(R.SQ_EVENT n), 1, 1⟩
def R.SQ_TAGS (n : Nat) : Nat := 0x6000001000A0 + n * 0x10000
def F.SQ_TAGS_OUTSTANDING (n : Nat) : Fld := ⟨(R.SQ_TAGS n), 0, 32⟩
def F.SQ_TAGS_DONE (n : Nat) : Fld := ⟨(R.SQ_TAGS n), 32, 32⟩
def R.SQ_REJECTS (n : Nat) : Nat := 0x6000001000A8 + n * 0x10000
def F.SQ_REJECTS_COUNT (n : Nat) : Fld := ⟨(R.SQ_REJECTS n), 0, 32⟩
def F.SQ_REJECTS_LAST_OFFSET (n : Nat) : Fld := ⟨(R.SQ_REJECTS n), 32, 16⟩
/-! ### PL block (spec/09_analog.md) -/
def R.PL_CTRL (p : Nat) : Nat := 0x600000500000 + p * 0x10000
def F.PL_CTRL_LOCK (p : Nat) : Fld := ⟨(R.PL_CTRL p), 0, 1⟩
def F.PL_CTRL_RESET (p : Nat) : Fld := ⟨(R.PL_CTRL p), 1, 1⟩
def F.PL_CTRL_LOAD_OPEN (p : Nat) : Fld := ⟨(R.PL_CTRL p), 2, 1⟩
def F.PL_CTRL_LOAD_CLOSE (p : Nat) : Fld := ⟨(R.PL_CTRL p), 3, 1⟩
def F.PL_CTRL_CAL_FULL (p : Nat) : Fld := ⟨(R.PL_CTRL p), 4, 1⟩
def F.PL_CTRL_CAL_OFFSET (p : Nat) : Fld := ⟨(R.PL_CTRL p), 5, 1⟩
def R.PL_STATE (p : Nat) : Nat := 0x600000500008 + p * 0x10000
def F.PL_STATE_UNIT_STATE (p : Nat) : Fld := ⟨(R.PL_STATE p), 0, 4⟩
def F.PL_STATE_SHELL (p : Nat) : Fld := ⟨(R.PL_STATE p), 4, 3⟩
def F.PL_STATE_WEIGHTS_VALID (p : Nat) : Fld := ⟨(R.PL_STATE p), 7, 1⟩
def F.PL_STATE_PARTITION (p : Nat) : Fld := ⟨(R.PL_STATE p), 8, 3⟩
def F.PL_STATE_ASSIGNED (p : Nat) : Fld := ⟨(R.PL_STATE p), 11, 1⟩
def F.PL_STATE_CONTRACT (p : Nat) : Fld := ⟨(R.PL_STATE p), 12, 2⟩
def F.PL_STATE_CONFIG_ERROR (p : Nat) : Fld := ⟨(R.PL_STATE p), 14, 1⟩
def F.PL_STATE_BOOK_MISSING (p : Nat) : Fld := ⟨(R.PL_STATE p), 15, 1⟩
def F.PL_STATE_EPOCH (p : Nat) : Fld := ⟨(R.PL_STATE p), 16, 16⟩
def F.PL_STATE_JOBQ_FILL (p : Nat) : Fld := ⟨(R.PL_STATE p), 32, 4⟩
def F.PL_STATE_CAL_GEN (p : Nat) : Fld := ⟨(R.PL_STATE p), 40, 16⟩
def R.PL_IDENT (p : Nat) : Nat := 0x600000500010 + p * 0x10000
def F.PL_IDENT_UNIT_ID (p : Nat) : Fld := ⟨(R.PL_IDENT p), 0, 16⟩
def F.PL_IDENT_HOST_SQUARE (p : Nat) : Fld := ⟨(R.PL_IDENT p), 16, 6⟩
def F.PL_IDENT_MODULE (p : Nat) : Fld := ⟨(R.PL_IDENT p), 22, 3⟩
def R.PL_CFG (p : Nat) : Nat := 0x600000500018 + p * 0x10000
def F.PL_CFG_TB (p : Nat) : Fld := ⟨(R.PL_CFG p), 0, 3⟩
def F.PL_CFG_REST_EN (p : Nat) : Fld := ⟨(R.PL_CFG p), 3, 1⟩
def F.PL_CFG_EST_SHIFT (p : Nat) : Fld := ⟨(R.PL_CFG p), 4, 4⟩
def F.PL_CFG_BOUND_Z (p : Nat) : Fld := ⟨(R.PL_CFG p), 8, 4⟩
def F.PL_CFG_RECAL_MAX (p : Nat) : Fld := ⟨(R.PL_CFG p), 12, 4⟩
def F.PL_CFG_REPORT_UNIT (p : Nat) : Fld := ⟨(R.PL_CFG p), 16, 16⟩
def F.PL_CFG_PROBE_US (p : Nat) : Fld := ⟨(R.PL_CFG p), 32, 12⟩
def F.PL_CFG_BAD_COL_MAX (p : Nat) : Fld := ⟨(R.PL_CFG p), 44, 8⟩
def F.PL_CFG_WCHECK_US (p : Nat) : Fld := ⟨(R.PL_CFG p), 52, 12⟩
def R.PL_LIMITS (p : Nat) : Nat := 0x600000500020 + p * 0x10000
def F.PL_LIMITS_WARN_RMS (p : Nat) : Fld := ⟨(R.PL_LIMITS p), 0, 12⟩
def F.PL_LIMITS_LIMIT_RMS (p : Nat) : Fld := ⟨(R.PL_LIMITS p), 12, 12⟩
def F.PL_LIMITS_LIMIT_OFFSET (p : Nat) : Fld := ⟨(R.PL_LIMITS p), 24, 12⟩
def F.PL_LIMITS_LIMIT_MAX (p : Nat) : Fld := ⟨(R.PL_LIMITS p), 36, 8⟩
def F.PL_LIMITS_RECAL_DT (p : Nat) : Fld := ⟨(R.PL_LIMITS p), 44, 8⟩
def F.PL_LIMITS_RECAL_MS (p : Nat) : Fld := ⟨(R.PL_LIMITS p), 52, 12⟩
def R.PL_CAL_CTRL (p : Nat) : Nat := 0x600000500028 + p * 0x10000
def F.PL_CAL_CTRL_POLICY (p : Nat) : Fld := ⟨(R.PL_CAL_CTRL p), 0, 2⟩
def F.PL_CAL_CTRL_T_FORCE (p : Nat) : Fld := ⟨(R.PL_CAL_CTRL p), 16, 16⟩
def F.PL_CAL_CTRL_RELEASE_MS (p : Nat) : Fld := ⟨(R.PL_CAL_CTRL p), 32, 16⟩
def R.PL_CAL_STATUS (p : Nat) : Nat := 0x600000500030 + p * 0x10000
def F.PL_CAL_STATUS_EFFECTIVE (p : Nat) : Fld := ⟨(R.PL_CAL_STATUS p), 0, 2⟩
def F.PL_CAL_STATUS_OVERRIDE (p : Nat) : Fld := ⟨(R.PL_CAL_STATUS p), 2, 1⟩
def F.PL_CAL_STATUS_STUCK (p : Nat) : Fld := ⟨(R.PL_CAL_STATUS p), 3, 1⟩
def F.PL_CAL_STATUS_CAUSE (p : Nat) : Fld := ⟨(R.PL_CAL_STATUS p), 4, 3⟩
def F.PL_CAL_STATUS_OVERRIDES (p : Nat) : Fld := ⟨(R.PL_CAL_STATUS p), 8, 16⟩
def F.PL_CAL_STATUS_FULL_CALS (p : Nat) : Fld := ⟨(R.PL_CAL_STATUS p), 24, 16⟩
def F.PL_CAL_STATUS_OFFSET_CALS (p : Nat) : Fld := ⟨(R.PL_CAL_STATUS p), 40, 16⟩
def F.PL_CAL_STATUS_CAL_FAILS (p : Nat) : Fld := ⟨(R.PL_CAL_STATUS p), 56, 8⟩
def R.PL_TEMP (p : Nat) : Nat := 0x600000500038 + p * 0x10000
def F.PL_TEMP_T (p : Nat) : Fld := ⟨(R.PL_TEMP p), 0, 16⟩
def F.PL_TEMP_T_CAL (p : Nat) : Fld := ⟨(R.PL_TEMP p), 16, 16⟩
def F.PL_TEMP_CAL_AGE_MS (p : Nat) : Fld := ⟨(R.PL_TEMP p), 32, 32⟩
def R.PL_EST (p : Nat) : Nat := 0x600000500040 + p * 0x10000
def F.PL_EST_OFFSET_EST (p : Nat) : Fld := ⟨(R.PL_EST p), 0, 16⟩
def F.PL_EST_RMS_EST (p : Nat) : Fld := ⟨(R.PL_EST p), 16, 16⟩
def F.PL_EST_MAX_LAST (p : Nat) : Fld := ⟨(R.PL_EST p), 32, 8⟩
def F.PL_EST_PRODUCTS (p : Nat) : Fld := ⟨(R.PL_EST p), 48, 16⟩
def R.PL_EST_PEAK (p : Nat) : Nat := 0x600000500048 + p * 0x10000
def F.PL_EST_PEAK_PEAK_OFFSET (p : Nat) : Fld := ⟨(R.PL_EST_PEAK p), 0, 16⟩
def F.PL_EST_PEAK_PEAK_RMS (p : Nat) : Fld := ⟨(R.PL_EST_PEAK p), 16, 16⟩
def F.PL_EST_PEAK_PEAK_MAX (p : Nat) : Fld := ⟨(R.PL_EST_PEAK p), 32, 8⟩
def R.PL_BOUND (p : Nat) : Nat := 0x600000500050 + p * 0x10000
def F.PL_BOUND_BOUND_INT8 (p : Nat) : Fld := ⟨(R.PL_BOUND p), 0, 24⟩
def F.PL_BOUND_BOUND_UINT8 (p : Nat) : Fld := ⟨(R.PL_BOUND p), 24, 24⟩
def R.PL_TRACK (p : Nat) : Nat := 0x600000500058 + p * 0x10000
def F.PL_TRACK_GAIN_TRACK (p : Nat) : Fld := ⟨(R.PL_TRACK p), 0, 32⟩
def R.PL_JOBS (p : Nat) : Nat := 0x600000500060 + p * 0x10000
def F.PL_JOBS_JOBS (p : Nat) : Fld := ⟨(R.PL_JOBS p), 0, 32⟩
def F.PL_JOBS_VECTORS (p : Nat) : Fld := ⟨(R.PL_JOBS p), 32, 32⟩
def R.PL_FLAGS (p : Nat) : Nat := 0x600000500068 + p * 0x10000
def F.PL_FLAGS_OOC_VECTORS (p : Nat) : Fld := ⟨(R.PL_FLAGS p), 0, 32⟩
def F.PL_FLAGS_CLIPS (p : Nat) : Fld := ⟨(R.PL_FLAGS p), 32, 32⟩
def R.PL_LOAD (p : Nat) : Nat := 0x600000500070 + p * 0x10000
def F.PL_LOAD_EXPECT_CRC (p : Nat) : Fld := ⟨(R.PL_LOAD p), 0, 32⟩
def F.PL_LOAD_COL_FIRST (p : Nat) : Fld := ⟨(R.PL_LOAD p), 32, 10⟩
def F.PL_LOAD_COL_COUNT (p : Nat) : Fld := ⟨(R.PL_LOAD p), 42, 11⟩
def R.PL_WCHECK (p : Nat) : Nat := 0x600000500078 + p * 0x10000
def F.PL_WCHECK_CRC_LOADED (p : Nat) : Fld := ⟨(R.PL_WCHECK p), 0, 32⟩
def F.PL_WCHECK_SWEEPS (p : Nat) : Fld := ⟨(R.PL_WCHECK p), 32, 16⟩
def F.PL_WCHECK_BAD_COLS (p : Nat) : Fld := ⟨(R.PL_WCHECK p), 48, 11⟩
def F.PL_WCHECK_LOAD_FAIL (p : Nat) : Fld := ⟨(R.PL_WCHECK p), 59, 1⟩
def R.PL_REST (p : Nat) : Nat := 0x600000500080 + p * 0x10000
def F.PL_REST_REQUEST (p : Nat) : Fld := ⟨(R.PL_REST p), 0, 1⟩
def F.PL_REST_FORCE (p : Nat) : Fld := ⟨(R.PL_REST p), 1, 1⟩
def F.PL_REST_WITHDRAW (p : Nat) : Fld := ⟨(R.PL_REST p), 8, 1⟩
def F.PL_REST_RESTS (p : Nat) : Fld := ⟨(R.PL_REST p), 16, 16⟩
def F.PL_REST_FORCED (p : Nat) : Fld := ⟨(R.PL_REST p), 32, 16⟩
def F.PL_REST_FAILS (p : Nat) : Fld := ⟨(R.PL_REST p), 48, 16⟩
def R.PL_RATE (p : Nat) : Nat := 0x600000500088 + p * 0x10000
def F.PL_RATE_GAP (p : Nat) : Fld := ⟨(R.PL_RATE p), 0, 8⟩
def F.PL_RATE_GAP_CYCLES (p : Nat) : Fld := ⟨(R.PL_RATE p), 32, 32⟩
def R.PL_REJECTS (p : Nat) : Nat := 0x600000500090 + p * 0x10000
def F.PL_REJECTS_COUNT (p : Nat) : Fld := ⟨(R.PL_REJECTS p), 0, 32⟩
def F.PL_REJECTS_LAST_OFFSET (p : Nat) : Fld := ⟨(R.PL_REJECTS p), 32, 16⟩
def R.PL_BADMAP (p k : Nat) : Nat := 0x600000500100 + p * 0x10000 + k * 0x8
def F.PL_BADMAP_COLS (p k : Nat) : Fld := ⟨(R.PL_BADMAP p k), 0, 64⟩
def R.PL_TRIM (p j : Nat) : Nat := 0x600000501000 + p * 0x10000 + j * 0x8
def F.PL_TRIM_OFFSET (p j : Nat) : Fld := ⟨(R.PL_TRIM p j), 0, 16⟩
def F.PL_TRIM_GAIN (p j : Nat) : Fld := ⟨(R.PL_TRIM p j), 16, 16⟩
def F.PL_TRIM_TCO (p j : Nat) : Fld := ⟨(R.PL_TRIM p j), 32, 12⟩
def F.PL_TRIM_TCG (p j : Nat) : Fld := ⟨(R.PL_TRIM p j), 44, 12⟩
def F.PL_TRIM_BAD (p j : Nat) : Fld := ⟨(R.PL_TRIM p j), 56, 1⟩
def F.PL_TRIM_FORCED (p j : Nat) : Fld := ⟨(R.PL_TRIM p j), 57, 1⟩
def R.PL_FORCE (p j : Nat) : Nat := 0x600000504000 + p * 0x10000 + j * 0x8
def F.PL_FORCE_OFFSET (p j : Nat) : Fld := ⟨(R.PL_FORCE p j), 0, 16⟩
def F.PL_FORCE_GAIN (p j : Nat) : Fld := ⟨(R.PL_FORCE p j), 16, 16⟩
def F.PL_FORCE_VALID (p j : Nat) : Fld := ⟨(R.PL_FORCE p j), 32, 1⟩
/-! ### AE block (spec/10_attention.md) -/
def R.AE_CTRL (e : Nat) : Nat := 0x600000700000 + e * 0x10000
def F.AE_CTRL_LOCK (e : Nat) : Fld := ⟨(R.AE_CTRL e), 0, 1⟩
def F.AE_CTRL_RESET (e : Nat) : Fld := ⟨(R.AE_CTRL e), 1, 1⟩
def R.AE_STATE (e : Nat) : Nat := 0x600000700008 + e * 0x10000
def F.AE_STATE_UNIT_STATE (e : Nat) : Fld := ⟨(R.AE_STATE e), 0, 4⟩
def F.AE_STATE_ENGINE (e : Nat) : Fld := ⟨(R.AE_STATE e), 4, 3⟩
def F.AE_STATE_PARTITION (e : Nat) : Fld := ⟨(R.AE_STATE e), 8, 3⟩
def F.AE_STATE_ASSIGNED (e : Nat) : Fld := ⟨(R.AE_STATE e), 11, 1⟩
def F.AE_STATE_EPOCH (e : Nat) : Fld := ⟨(R.AE_STATE e), 16, 16⟩
def F.AE_STATE_JOBQ_FILL (e : Nat) : Fld := ⟨(R.AE_STATE e), 32, 5⟩
def R.AE_IDENT (e : Nat) : Nat := 0x600000700010 + e * 0x10000
def F.AE_IDENT_UNIT_ID (e : Nat) : Fld := ⟨(R.AE_IDENT e), 0, 16⟩
def F.AE_IDENT_MC (e : Nat) : Fld := ⟨(R.AE_IDENT e), 16, 3⟩
def F.AE_IDENT_HOST_SQUARE (e : Nat) : Fld := ⟨(R.AE_IDENT e), 19, 6⟩
def F.AE_IDENT_MODULE (e : Nat) : Fld := ⟨(R.AE_IDENT e), 25, 3⟩
def R.AE_CFG (e : Nat) : Nat := 0x600000700018 + e * 0x10000
def F.AE_CFG_TB (e : Nat) : Fld := ⟨(R.AE_CFG e), 0, 3⟩
def F.AE_CFG_REST_EN (e : Nat) : Fld := ⟨(R.AE_CFG e), 3, 1⟩
def F.AE_CFG_SPLIT_MAX (e : Nat) : Fld := ⟨(R.AE_CFG e), 8, 4⟩
def R.AE_JOBS (e : Nat) : Nat := 0x600000700020 + e * 0x10000
def F.AE_JOBS_JOBS (e : Nat) : Fld := ⟨(R.AE_JOBS e), 0, 32⟩
def F.AE_JOBS_PAGES (e : Nat) : Fld := ⟨(R.AE_JOBS e), 32, 32⟩
def R.AE_BYTES (e : Nat) : Nat := 0x600000700028 + e * 0x10000
def F.AE_BYTES_BYTES (e : Nat) : Fld := ⟨(R.AE_BYTES e), 0, 64⟩
def R.AE_FLAGS (e : Nat) : Nat := 0x600000700030 + e * 0x10000
def F.AE_FLAGS_STALE_PAGES (e : Nat) : Fld := ⟨(R.AE_FLAGS e), 0, 16⟩
def F.AE_FLAGS_POISON_LISTS (e : Nat) : Fld := ⟨(R.AE_FLAGS e), 16, 16⟩
def F.AE_FLAGS_NAN_ROWS (e : Nat) : Fld := ⟨(R.AE_FLAGS e), 32, 16⟩
def F.AE_FLAGS_MASKED_ROWS (e : Nat) : Fld := ⟨(R.AE_FLAGS e), 48, 16⟩
def R.AE_REFUSALS (e : Nat) : Nat := 0x600000700038 + e * 0x10000
def F.AE_REFUSALS_QUEUE_FULL (e : Nat) : Fld := ⟨(R.AE_REFUSALS e), 0, 16⟩
def F.AE_REFUSALS_WRONG_HOME (e : Nat) : Fld := ⟨(R.AE_REFUSALS e), 16, 16⟩
def F.AE_REFUSALS_BUSY (e : Nat) : Fld := ⟨(R.AE_REFUSALS e), 32, 16⟩
def R.AE_REST (e : Nat) : Nat := 0x600000700040 + e * 0x10000
def F.AE_REST_REQUEST (e : Nat) : Fld := ⟨(R.AE_REST e), 0, 1⟩
def F.AE_REST_FORCE (e : Nat) : Fld := ⟨(R.AE_REST e), 1, 1⟩
def F.AE_REST_WITHDRAW (e : Nat) : Fld := ⟨(R.AE_REST e), 8, 1⟩
def F.AE_REST_RESTS (e : Nat) : Fld := ⟨(R.AE_REST e), 16, 16⟩
def F.AE_REST_FORCED (e : Nat) : Fld := ⟨(R.AE_REST e), 32, 16⟩
def F.AE_REST_FAILS (e : Nat) : Fld := ⟨(R.AE_REST e), 48, 16⟩
def R.AE_REJECTS (e : Nat) : Nat := 0x600000700048 + e * 0x10000
def F.AE_REJECTS_COUNT (e : Nat) : Fld := ⟨(R.AE_REJECTS e), 0, 32⟩
def F.AE_REJECTS_LAST_OFFSET (e : Nat) : Fld := ⟨(R.AE_REJECTS e), 32, 16⟩
def R.AE_PERF (e : Nat) : Nat := 0x600000700050 + e * 0x10000
def F.AE_PERF_BUSY_CYCLES (e : Nat) : Fld := ⟨(R.AE_PERF e), 0, 32⟩
def F.AE_PERF_MEM_WAIT_CYCLES (e : Nat) : Fld := ⟨(R.AE_PERF e), 32, 32⟩
def R.KV_CTRL : Nat := 0x600000700800
def F.KV_CTRL_LOCK : Fld := ⟨R.KV_CTRL, 0, 1⟩
def F.KV_CTRL_ENABLE : Fld := ⟨R.KV_CTRL, 1, 1⟩
def R.KV_PDT_BASE : Nat := 0x600000700808
def F.KV_PDT_BASE_BASE : Fld := ⟨R.KV_PDT_BASE, 0, 48⟩
def R.KV_CENT_BASE : Nat := 0x600000700810
def F.KV_CENT_BASE_BASE : Fld := ⟨R.KV_CENT_BASE, 0, 48⟩
def R.KV_SEQ_BASE : Nat := 0x600000700818
def F.KV_SEQ_BASE_BASE : Fld := ⟨R.KV_SEQ_BASE, 0, 48⟩
def R.KV_DIR_BASE : Nat := 0x600000700820
def F.KV_DIR_BASE_BASE : Fld := ⟨R.KV_DIR_BASE, 0, 48⟩
def R.KV_NODE_BASE : Nat := 0x600000700828
def F.KV_NODE_BASE_BASE : Fld := ⟨R.KV_NODE_BASE, 0, 48⟩
def R.KV_FREE_BASE : Nat := 0x600000700830
def F.KV_FREE_BASE_BASE : Fld := ⟨R.KV_FREE_BASE, 0, 48⟩
def R.KV_INTENT_BASE : Nat := 0x600000700838
def F.KV_INTENT_BASE_BASE : Fld := ⟨R.KV_INTENT_BASE, 0, 48⟩
def R.KV_DIR_CFG : Nat := 0x600000700840
def F.KV_DIR_CFG_DIR_LOG : Fld := ⟨R.KV_DIR_CFG, 0, 4⟩
def F.KV_DIR_CFG_NODE_STRIDE_64 : Fld := ⟨R.KV_DIR_CFG, 8, 16⟩
def R.KV_STATUS : Nat := 0x600000700848
def F.KV_STATUS_CONFIG_ERROR : Fld := ⟨R.KV_STATUS, 0, 1⟩
def F.KV_STATUS_SEQS_OPEN : Fld := ⟨R.KV_STATUS, 16, 13⟩
def F.KV_STATUS_NODES : Fld := ⟨R.KV_STATUS, 32, 19⟩
def R.KV_EVENTS : Nat := 0x600000700850
def F.KV_EVENTS_RECLAIMS : Fld := ⟨R.KV_EVENTS, 0, 16⟩
def F.KV_EVENTS_CHECK_MISMATCH : Fld := ⟨R.KV_EVENTS, 16, 16⟩
def F.KV_EVENTS_DIR_FULL : Fld := ⟨R.KV_EVENTS, 32, 16⟩
def F.KV_EVENTS_KEEP_OVERRUNS : Fld := ⟨R.KV_EVENTS, 48, 16⟩
def R.KV_POOL_RANGE (p : Nat) : Nat := 0x600000700900 + p * 0x20
def F.KV_POOL_RANGE_FIRST_PAGE (p : Nat) : Fld := ⟨(R.KV_POOL_RANGE p), 0, 24⟩
def F.KV_POOL_RANGE_PAGE_COUNT (p : Nat) : Fld := ⟨(R.KV_POOL_RANGE p), 24, 24⟩
def R.KV_POOL_LIMITS (p : Nat) : Nat := 0x600000700908 + p * 0x20
def F.KV_POOL_LIMITS_ADMIT_MIN (p : Nat) : Fld := ⟨(R.KV_POOL_LIMITS p), 0, 24⟩
def F.KV_POOL_LIMITS_BATCH_RESERVE (p : Nat) : Fld := ⟨(R.KV_POOL_LIMITS p), 24, 24⟩
def R.KV_POOL_STATUS (p : Nat) : Nat := 0x600000700910 + p * 0x20
def F.KV_POOL_STATUS_FREE (p : Nat) : Fld := ⟨(R.KV_POOL_STATUS p), 0, 24⟩
def F.KV_POOL_STATUS_LIMBO (p : Nat) : Fld := ⟨(R.KV_POOL_STATUS p), 24, 24⟩
def F.KV_POOL_STATUS_GEN (p : Nat) : Fld := ⟨(R.KV_POOL_STATUS p), 48, 16⟩
def R.KV_POOL_COUNTS (p : Nat) : Nat := 0x600000700918 + p * 0x20
def F.KV_POOL_COUNTS_REFUSED_LATENCY (p : Nat) : Fld := ⟨(R.KV_POOL_COUNTS p), 0, 16⟩
def F.KV_POOL_COUNTS_REFUSED_BATCH (p : Nat) : Fld := ⟨(R.KV_POOL_COUNTS p), 16, 16⟩
def F.KV_POOL_COUNTS_REFUSED_ADMIT (p : Nat) : Fld := ⟨(R.KV_POOL_COUNTS p), 32, 16⟩
def F.KV_POOL_COUNTS_EVICTIONS (p : Nat) : Fld := ⟨(R.KV_POOL_COUNTS p), 48, 16⟩
def R.KV_PROF_SHAPE (f : Nat) : Nat := 0x600000700A00 + f * 0x20
def F.KV_PROF_SHAPE_LAYERS (f : Nat) : Fld := ⟨(R.KV_PROF_SHAPE f), 0, 8⟩
def F.KV_PROF_SHAPE_H_Q (f : Nat) : Fld := ⟨(R.KV_PROF_SHAPE f), 8, 8⟩
def F.KV_PROF_SHAPE_H_KV (f : Nat) : Fld := ⟨(R.KV_PROF_SHAPE f), 16, 8⟩
def F.KV_PROF_SHAPE_D_32 (f : Nat) : Fld := ⟨(R.KV_PROF_SHAPE f), 24, 4⟩
def F.KV_PROF_SHAPE_K_FMT (f : Nat) : Fld := ⟨(R.KV_PROF_SHAPE f), 28, 4⟩
def F.KV_PROF_SHAPE_V_FMT (f : Nat) : Fld := ⟨(R.KV_PROF_SHAPE f), 32, 4⟩
def R.KV_PROF_TAG (f : Nat) : Nat := 0x600000700A08 + f * 0x20
def F.KV_PROF_TAG_MODEL_TAG (f : Nat) : Fld := ⟨(R.KV_PROF_TAG f), 0, 32⟩
def R.KV_PROF_EVICT (f : Nat) : Nat := 0x600000700A10 + f * 0x20
def F.KV_PROF_EVICT_SINK_BLOCKS (f : Nat) : Fld := ⟨(R.KV_PROF_EVICT f), 0, 8⟩
def F.KV_PROF_EVICT_RECENT_BLOCKS (f : Nat) : Fld := ⟨(R.KV_PROF_EVICT f), 8, 8⟩
def F.KV_PROF_EVICT_DECAY (f : Nat) : Fld := ⟨(R.KV_PROF_EVICT f), 16, 4⟩
def R.KV_PROF_BIAS (f : Nat) : Nat := 0x600000700A18 + f * 0x20
def F.KV_PROF_BIAS_EXACT (f : Nat) : Fld := ⟨(R.KV_PROF_BIAS f), 0, 8⟩
def F.KV_PROF_BIAS_STEPS (f : Nat) : Fld := ⟨(R.KV_PROF_BIAS f), 8, 8⟩
/-! ### MOTION block (spec/11_planner.md) -/
def R.CC_CTRL : Nat := 0x600000080000
def F.CC_CTRL_LOCK : Fld := ⟨R.CC_CTRL, 0, 1⟩
def F.CC_CTRL_ENABLE : Fld := ⟨R.CC_CTRL, 1, 1⟩
def F.CC_CTRL_RESET : Fld := ⟨R.CC_CTRL, 2, 1⟩
def F.CC_CTRL_FALLBACK : Fld := ⟨R.CC_CTRL, 3, 1⟩
def R.CC_STATE : Nat := 0x600000080008
def F.CC_STATE_UNIT_STATE : Fld := ⟨R.CC_STATE, 0, 4⟩
def F.CC_STATE_ENGINE : Fld := ⟨R.CC_STATE, 4, 3⟩
def F.CC_STATE_MODEL_VALID : Fld := ⟨R.CC_STATE, 7, 1⟩
def F.CC_STATE_PARTITION : Fld := ⟨R.CC_STATE, 8, 3⟩
def F.CC_STATE_ASSIGNED : Fld := ⟨R.CC_STATE, 11, 1⟩
def F.CC_STATE_EPOCH : Fld := ⟨R.CC_STATE, 16, 16⟩
def F.CC_STATE_JOBQ_FILL : Fld := ⟨R.CC_STATE, 32, 4⟩
def F.CC_STATE_SDF_VALID : Fld := ⟨R.CC_STATE, 36, 1⟩
def F.CC_STATE_BEV_VALID : Fld := ⟨R.CC_STATE, 37, 1⟩
def R.CC_IDENT : Nat := 0x600000080010
def F.CC_IDENT_UNIT_ID : Fld := ⟨R.CC_IDENT, 0, 16⟩
def R.CC_CFG : Nat := 0x600000080018
def F.CC_CFG_TB : Fld := ⟨R.CC_CFG, 0, 3⟩
def F.CC_CFG_OUTSIDE_MODE : Fld := ⟨R.CC_CFG, 3, 1⟩
def F.CC_CFG_LIMIT_MODE : Fld := ⟨R.CC_CFG, 4, 1⟩
def F.CC_CFG_SMOOTH_PASSES : Fld := ⟨R.CC_CFG, 5, 2⟩
def F.CC_CFG_FALLBACK_KIND : Fld := ⟨R.CC_CFG, 7, 1⟩
def F.CC_CFG_FB_ON_STALEMATE : Fld := ⟨R.CC_CFG, 8, 1⟩
def F.CC_CFG_ENV_STRICT : Fld := ⟨R.CC_CFG, 9, 1⟩
def F.CC_CFG_REPORT_UNIT : Fld := ⟨R.CC_CFG, 16, 16⟩
def F.CC_CFG_NOTIFY_UNIT : Fld := ⟨R.CC_CFG, 32, 16⟩
def F.CC_CFG_NOTIFY_EN : Fld := ⟨R.CC_CFG, 48, 1⟩
def R.CC_COST : Nat := 0x600000080020
def F.CC_COST_W_CLEAR : Fld := ⟨R.CC_COST, 0, 32⟩
def F.CC_COST_W_TIME : Fld := ⟨R.CC_COST, 32, 32⟩
def R.CC_MARGINS : Nat := 0x600000080028
def F.CC_MARGINS_CLEAR_SOFT_MM : Fld := ⟨R.CC_MARGINS, 0, 16⟩
def F.CC_MARGINS_SWEEP_MARGIN_MM : Fld := ⟨R.CC_MARGINS, 16, 16⟩
def F.CC_MARGINS_ALPHA_MAX : Fld := ⟨R.CC_MARGINS, 32, 16⟩
def F.CC_MARGINS_MAX_ENV_AGE_MS : Fld := ⟨R.CC_MARGINS, 48, 16⟩
def R.CC_FB_CFG : Nat := 0x600000080030
def F.CC_FB_CFG_STOP_FRAC : Fld := ⟨R.CC_FB_CFG, 0, 9⟩
def F.CC_FB_CFG_HOLD_VFRAC : Fld := ⟨R.CC_FB_CFG, 9, 8⟩
def F.CC_FB_CFG_FB_SAMPLES : Fld := ⟨R.CC_FB_CFG, 17, 6⟩
def F.CC_FB_CFG_EXPIRY_LEAD_MS : Fld := ⟨R.CC_FB_CFG, 23, 16⟩
def R.CC_TRAJ_IDS : Nat := 0x600000080038
def F.CC_TRAJ_IDS_ACTIVE_ID : Fld := ⟨R.CC_TRAJ_IDS, 0, 32⟩
def F.CC_TRAJ_IDS_STAGED_ID : Fld := ⟨R.CC_TRAJ_IDS, 32, 32⟩
def R.CC_TRAJ_STATE : Nat := 0x600000080040
def F.CC_TRAJ_STATE_ACTIVE_KIND : Fld := ⟨R.CC_TRAJ_STATE, 0, 2⟩
def F.CC_TRAJ_STATE_STAGED : Fld := ⟨R.CC_TRAJ_STATE, 2, 2⟩
def F.CC_TRAJ_STATE_FB_CAUSE : Fld := ⟨R.CC_TRAJ_STATE, 4, 3⟩
def F.CC_TRAJ_STATE_STOP_SHORT : Fld := ⟨R.CC_TRAJ_STATE, 7, 1⟩
def F.CC_TRAJ_STATE_FB_COLLIDES : Fld := ⟨R.CC_TRAJ_STATE, 8, 1⟩
def F.CC_TRAJ_STATE_HOLD_DENIED : Fld := ⟨R.CC_TRAJ_STATE, 9, 1⟩
def F.CC_TRAJ_STATE_SWITCH_COUNT : Fld := ⟨R.CC_TRAJ_STATE, 16, 32⟩
def R.CC_LAST : Nat := 0x600000080048
def F.CC_LAST_CHOSEN : Fld := ⟨R.CC_LAST, 0, 8⟩
def F.CC_LAST_OUTCOME : Fld := ⟨R.CC_LAST, 8, 1⟩
def F.CC_LAST_REASON : Fld := ⟨R.CC_LAST, 9, 2⟩
def F.CC_LAST_PARTIAL : Fld := ⟨R.CC_LAST, 11, 1⟩
def F.CC_LAST_EVALUATED : Fld := ⟨R.CC_LAST, 16, 9⟩
def F.CC_LAST_FEASIBLE : Fld := ⟨R.CC_LAST, 25, 9⟩
def R.CC_COUNTS : Nat := 0x600000080050
def F.CC_COUNTS_BATCHES : Fld := ⟨R.CC_COUNTS, 0, 32⟩
def F.CC_COUNTS_STALEMATES : Fld := ⟨R.CC_COUNTS, 32, 16⟩
def F.CC_COUNTS_FALLBACKS : Fld := ⟨R.CC_COUNTS, 48, 16⟩
def R.CC_ENV : Nat := 0x600000080058
def F.CC_ENV_MODEL_TAG : Fld := ⟨R.CC_ENV, 0, 32⟩
def F.CC_ENV_SDF_BRICKS : Fld := ⟨R.CC_ENV, 32, 13⟩
def F.CC_ENV_BEV_W : Fld := ⟨R.CC_ENV, 45, 11⟩
def R.CC_SDF_TV : Nat := 0x600000080060
def F.CC_SDF_TV_TV : Fld := ⟨R.CC_SDF_TV, 0, 64⟩
def R.CC_BEV_TV : Nat := 0x600000080068
def F.CC_BEV_TV_TV : Fld := ⟨R.CC_BEV_TV, 0, 64⟩
def R.CC_REJECTS : Nat := 0x600000080070
def F.CC_REJECTS_COUNT : Fld := ⟨R.CC_REJECTS, 0, 32⟩
def F.CC_REJECTS_LAST_OFFSET : Fld := ⟨R.CC_REJECTS, 32, 16⟩
def R.CC_ACTIVE (w : Nat) : Nat := 0x600000082000 + w * 0x8
def F.CC_ACTIVE_DATA (w : Nat) : Fld := ⟨(R.CC_ACTIVE w), 0, 64⟩
def R.CC_STAGED (w : Nat) : Nat := 0x600000085000 + w * 0x8
def F.CC_STAGED_DATA (w : Nat) : Fld := ⟨(R.CC_STAGED w), 0, 64⟩
def R.DYN_CTRL : Nat := 0x600000088000
def F.DYN_CTRL_LOCK : Fld := ⟨R.DYN_CTRL, 0, 1⟩
def F.DYN_CTRL_ENABLE : Fld := ⟨R.DYN_CTRL, 1, 1⟩
def F.DYN_CTRL_RUN : Fld := ⟨R.DYN_CTRL, 2, 1⟩
def F.DYN_CTRL_RUN_ONCE : Fld := ⟨R.DYN_CTRL, 3, 1⟩
def F.DYN_CTRL_RESET : Fld := ⟨R.DYN_CTRL, 4, 1⟩
def R.DYN_STATE : Nat := 0x600000088008
def F.DYN_STATE_UNIT_STATE : Fld := ⟨R.DYN_STATE, 0, 4⟩
def F.DYN_STATE_SOLVER : Fld := ⟨R.DYN_STATE, 4, 3⟩
def F.DYN_STATE_MODEL_VALID : Fld := ⟨R.DYN_STATE, 7, 1⟩
def F.DYN_STATE_TASKS_VALID : Fld := ⟨R.DYN_STATE, 8, 1⟩
def F.DYN_STATE_STARVED : Fld := ⟨R.DYN_STATE, 9, 1⟩
def F.DYN_STATE_ASSIGNED : Fld := ⟨R.DYN_STATE, 10, 1⟩
def F.DYN_STATE_PARTITION : Fld := ⟨R.DYN_STATE, 11, 3⟩
def F.DYN_STATE_EPOCH : Fld := ⟨R.DYN_STATE, 16, 16⟩
def F.DYN_STATE_JOBQ_FILL : Fld := ⟨R.DYN_STATE, 32, 4⟩
def F.DYN_STATE_LAST_STATUS : Fld := ⟨R.DYN_STATE, 36, 4⟩
def R.DYN_IDENT : Nat := 0x600000088010
def F.DYN_IDENT_UNIT_ID : Fld := ⟨R.DYN_IDENT, 0, 16⟩
def R.DYN_CFG : Nat := 0x600000088018
def F.DYN_CFG_TRIGGER : Fld := ⟨R.DYN_CFG, 0, 2⟩
def F.DYN_CFG_TB : Fld := ⟨R.DYN_CFG, 2, 3⟩
def F.DYN_CFG_REF_SOURCE : Fld := ⟨R.DYN_CFG, 5, 1⟩
def F.DYN_CFG_ACCEPT_INACCURATE : Fld := ⟨R.DYN_CFG, 6, 1⟩
def F.DYN_CFG_ACCEPT_INFEASIBLE : Fld := ⟨R.DYN_CFG, 7, 1⟩
def F.DYN_CFG_REPORT_UNIT : Fld := ⟨R.DYN_CFG, 16, 16⟩
def R.DYN_PERIOD : Nat := 0x600000088020
def F.DYN_PERIOD_PERIOD_NS : Fld := ⟨R.DYN_PERIOD, 0, 32⟩
def F.DYN_PERIOD_DEADLINE_US : Fld := ⟨R.DYN_PERIOD, 32, 20⟩
def R.DYN_ADMM : Nat := 0x600000088028
def F.DYN_ADMM_ITERS : Fld := ⟨R.DYN_ADMM, 0, 8⟩
def F.DYN_ADMM_EQ_SCALE_LOG : Fld := ⟨R.DYN_ADMM, 8, 8⟩
def F.DYN_ADMM_RHO : Fld := ⟨R.DYN_ADMM, 32, 32⟩
def R.DYN_EPS : Nat := 0x600000088030
def F.DYN_EPS_EPS_P : Fld := ⟨R.DYN_EPS, 0, 32⟩
def F.DYN_EPS_EPS_D : Fld := ⟨R.DYN_EPS, 32, 32⟩
def R.DYN_STEP : Nat := 0x600000088038
def F.DYN_STEP_HORIZON_NS : Fld := ⟨R.DYN_STEP, 0, 32⟩
def F.DYN_STEP_CMD_DT_NS : Fld := ⟨R.DYN_STEP, 32, 32⟩
def R.DYN_WEIGHTS : Nat := 0x600000088040
def F.DYN_WEIGHTS_W_QDD : Fld := ⟨R.DYN_WEIGHTS, 0, 32⟩
def F.DYN_WEIGHTS_W_TAU : Fld := ⟨R.DYN_WEIGHTS, 32, 32⟩
def R.DYN_BASE_ADDR : Nat := 0x600000088048
def F.DYN_BASE_ADDR_ADDR : Fld := ⟨R.DYN_BASE_ADDR, 0, 48⟩
def R.DYN_MEAS_ADDR : Nat := 0x600000088050
def F.DYN_MEAS_ADDR_ADDR : Fld := ⟨R.DYN_MEAS_ADDR, 0, 48⟩
def R.DYN_CONTACT_ADDR : Nat := 0x600000088058
def F.DYN_CONTACT_ADDR_ADDR : Fld := ⟨R.DYN_CONTACT_ADDR, 0, 48⟩
def R.DYN_OUT_ADDR : Nat := 0x600000088060
def F.DYN_OUT_ADDR_ADDR : Fld := ⟨R.DYN_OUT_ADDR, 0, 48⟩
def R.DYN_LIMITS : Nat := 0x600000088068
def F.DYN_LIMITS_REUSE_MAX : Fld := ⟨R.DYN_LIMITS, 0, 8⟩
def F.DYN_LIMITS_STALE_US : Fld := ⟨R.DYN_LIMITS, 8, 20⟩
def F.DYN_LIMITS_CMD_LEAD_NS : Fld := ⟨R.DYN_LIMITS, 28, 24⟩
def R.DYN_SIZE : Nat := 0x600000088070
def F.DYN_SIZE_N : Fld := ⟨R.DYN_SIZE, 0, 10⟩
def F.DYN_SIZE_M : Fld := ⟨R.DYN_SIZE, 10, 11⟩
def F.DYN_SIZE_W : Fld := ⟨R.DYN_SIZE, 32, 21⟩
def R.DYN_SIZE2 : Nat := 0x600000088078
def F.DYN_SIZE2_NNZ : Fld := ⟨R.DYN_SIZE2, 0, 15⟩
def F.DYN_SIZE2_MODEL_TAG : Fld := ⟨R.DYN_SIZE2, 32, 32⟩
def R.DYN_COUNTS : Nat := 0x600000088080
def F.DYN_COUNTS_CYCLES : Fld := ⟨R.DYN_COUNTS, 0, 32⟩
def F.DYN_COUNTS_MISSES : Fld := ⟨R.DYN_COUNTS, 32, 16⟩
def F.DYN_COUNTS_REUSES : Fld := ⟨R.DYN_COUNTS, 48, 16⟩
def R.DYN_COUNTS2 : Nat := 0x600000088088
def F.DYN_COUNTS2_INFEASIBLE : Fld := ⟨R.DYN_COUNTS2, 0, 16⟩
def F.DYN_COUNTS2_NOT_PD_NAN : Fld := ⟨R.DYN_COUNTS2, 16, 16⟩
def F.DYN_COUNTS2_STARVED_ENTRIES : Fld := ⟨R.DYN_COUNTS2, 32, 16⟩
def F.DYN_COUNTS2_NO_REF : Fld := ⟨R.DYN_COUNTS2, 48, 16⟩
def R.DYN_TIMES : Nat := 0x600000088090
def F.DYN_TIMES_LAST_CYCLES : Fld := ⟨R.DYN_TIMES, 0, 32⟩
def F.DYN_TIMES_MAX_CYCLES : Fld := ⟨R.DYN_TIMES, 32, 32⟩
def R.DYN_REJECTS : Nat := 0x600000088098
def F.DYN_REJECTS_COUNT : Fld := ⟨R.DYN_REJECTS, 0, 32⟩
def F.DYN_REJECTS_LAST_OFFSET : Fld := ⟨R.DYN_REJECTS, 32, 16⟩
def R.DYN_CMD (w : Nat) : Nat := 0x600000088800 + w * 0x8
def F.DYN_CMD_DATA (w : Nat) : Fld := ⟨(R.DYN_CMD w), 0, 64⟩
/-! ### REFLEX block (spec/12_dynamics.md) -/
def R.RFX_CTRL : Nat := 0x600000090000
def F.RFX_CTRL_LOCK : Fld := ⟨R.RFX_CTRL, 0, 1⟩
def F.RFX_CTRL_ENABLE : Fld := ⟨R.RFX_CTRL, 1, 1⟩
def R.RFX_MASK : Nat := 0x600000090008
def F.RFX_MASK_RULES : Fld := ⟨R.RFX_MASK, 0, 32⟩
def R.RFX_LATCHED : Nat := 0x600000090010
def F.RFX_LATCHED_RULES : Fld := ⟨R.RFX_LATCHED, 0, 32⟩
def R.RFX_GPIO_OUT_EN : Nat := 0x600000090018
def F.RFX_GPIO_OUT_EN_PINS : Fld := ⟨R.RFX_GPIO_OUT_EN, 0, 64⟩
def R.RFX_GPIO_OUT : Nat := 0x600000090020
def F.RFX_GPIO_OUT_LEVELS : Fld := ⟨R.RFX_GPIO_OUT, 0, 64⟩
def R.RFX_INHIBIT : Nat := 0x600000090028
def F.RFX_INHIBIT_SLOTS : Fld := ⟨R.RFX_INHIBIT, 0, 32⟩
def R.RFX_REJECTS : Nat := 0x600000090030
def F.RFX_REJECTS_COUNT : Fld := ⟨R.RFX_REJECTS, 0, 32⟩
def F.RFX_REJECTS_LAST_OFFSET : Fld := ⟨R.RFX_REJECTS, 32, 16⟩
def R.TAP_CFG (t : Nat) : Nat := 0x600000090100 + t * 0x20
def F.TAP_CFG_ENABLE (t : Nat) : Fld := ⟨(R.TAP_CFG t), 0, 1⟩
def F.TAP_CFG_PORT_TYPE (t : Nat) : Fld := ⟨(R.TAP_CFG t), 1, 3⟩
def F.TAP_CFG_PORT_INDEX (t : Nat) : Fld := ⟨(R.TAP_CFG t), 4, 4⟩
def F.TAP_CFG_BYTE_OFFSET (t : Nat) : Fld := ⟨(R.TAP_CFG t), 8, 10⟩
def F.TAP_CFG_TYPE (t : Nat) : Fld := ⟨(R.TAP_CFG t), 18, 4⟩
def F.TAP_CFG_BE (t : Nat) : Fld := ⟨(R.TAP_CFG t), 22, 1⟩
def F.TAP_CFG_SCALE (t : Nat) : Fld := ⟨(R.TAP_CFG t), 24, 32⟩
def R.TAP_FILTER (t : Nat) : Nat := 0x600000090108 + t * 0x20
def F.TAP_FILTER_ID (t : Nat) : Fld := ⟨(R.TAP_FILTER t), 0, 29⟩
def F.TAP_FILTER_IDE (t : Nat) : Fld := ⟨(R.TAP_FILTER t), 29, 1⟩
def F.TAP_FILTER_ID_MASK (t : Nat) : Fld := ⟨(R.TAP_FILTER t), 32, 29⟩
def R.TAP_VALUE (t : Nat) : Nat := 0x600000090110 + t * 0x20
def F.TAP_VALUE_VALUE (t : Nat) : Fld := ⟨(R.TAP_VALUE t), 0, 32⟩
def F.TAP_VALUE_VALID (t : Nat) : Fld := ⟨(R.TAP_VALUE t), 32, 1⟩
def F.TAP_VALUE_HOLDOVER (t : Nat) : Fld := ⟨(R.TAP_VALUE t), 33, 1⟩
def F.TAP_VALUE_UPDATES (t : Nat) : Fld := ⟨(R.TAP_VALUE t), 40, 24⟩
def R.TAP_STAMP (t : Nat) : Nat := 0x600000090118 + t * 0x20
def F.TAP_STAMP_TS64 (t : Nat) : Fld := ⟨(R.TAP_STAMP t), 0, 64⟩
def R.RULE_COND (r : Nat) : Nat := 0x600000090900 + r * 0x20
def F.RULE_COND_ENABLE (r : Nat) : Fld := ⟨(R.RULE_COND r), 0, 1⟩
def F.RULE_COND_KIND (r : Nat) : Fld := ⟨(R.RULE_COND r), 1, 2⟩
def F.RULE_COND_EDGE (r : Nat) : Fld := ⟨(R.RULE_COND r), 3, 1⟩
def F.RULE_COND_INDEX (r : Nat) : Fld := ⟨(R.RULE_COND r), 4, 6⟩
def F.RULE_COND_LATCH (r : Nat) : Fld := ⟨(R.RULE_COND r), 10, 1⟩
def F.RULE_COND_SAFE_MASK (r : Nat) : Fld := ⟨(R.RULE_COND r), 11, 1⟩
def F.RULE_COND_AND_EN (r : Nat) : Fld := ⟨(R.RULE_COND r), 12, 1⟩
def F.RULE_COND_AND_KIND (r : Nat) : Fld := ⟨(R.RULE_COND r), 13, 1⟩
def F.RULE_COND_AND_INDEX (r : Nat) : Fld := ⟨(R.RULE_COND r), 14, 6⟩
def F.RULE_COND_AND_INVERT (r : Nat) : Fld := ⟨(R.RULE_COND r), 20, 1⟩
def F.RULE_COND_THRESH (r : Nat) : Fld := ⟨(R.RULE_COND r), 32, 32⟩
def R.RULE_COND2 (r : Nat) : Nat := 0x600000090908 + r * 0x20
def F.RULE_COND2_HYST (r : Nat) : Fld := ⟨(R.RULE_COND2 r), 0, 32⟩
def F.RULE_COND2_AND_THRESH (r : Nat) : Fld := ⟨(R.RULE_COND2 r), 32, 32⟩
def R.RULE_ACTION (r : Nat) : Nat := 0x600000090910 + r * 0x20
def F.RULE_ACTION_OUT_PIN (r : Nat) : Fld := ⟨(R.RULE_ACTION r), 0, 6⟩
def F.RULE_ACTION_OUT_OP (r : Nat) : Fld := ⟨(R.RULE_ACTION r), 6, 2⟩
def F.RULE_ACTION_PULSE_CYC (r : Nat) : Fld := ⟨(R.RULE_ACTION r), 8, 16⟩
def F.RULE_ACTION_SLOT (r : Nat) : Fld := ⟨(R.RULE_ACTION r), 24, 5⟩
def F.RULE_ACTION_SEND (r : Nat) : Fld := ⟨(R.RULE_ACTION r), 29, 1⟩
def F.RULE_ACTION_INHIBIT_EN (r : Nat) : Fld := ⟨(R.RULE_ACTION r), 30, 1⟩
def F.RULE_ACTION_INHIBIT_MASK (r : Nat) : Fld := ⟨(R.RULE_ACTION r), 32, 32⟩
def R.RULE_STATUS (r : Nat) : Nat := 0x600000090918 + r * 0x20
def F.RULE_STATUS_FIRED (r : Nat) : Fld := ⟨(R.RULE_STATUS r), 0, 32⟩
def F.RULE_STATUS_REFUSED_FRAMES (r : Nat) : Fld := ⟨(R.RULE_STATUS r), 32, 16⟩
def R.EG_CFG (s : Nat) : Nat := 0x600000090D00 + s * 0x20
def F.EG_CFG_ENABLE (s : Nat) : Fld := ⟨(R.EG_CFG s), 0, 1⟩
def F.EG_CFG_PORT_TYPE (s : Nat) : Fld := ⟨(R.EG_CFG s), 1, 1⟩
def F.EG_CFG_PORT (s : Nat) : Fld := ⟨(R.EG_CFG s), 2, 3⟩
def F.EG_CFG_TRAFFIC_CLASS (s : Nat) : Fld := ⟨(R.EG_CFG s), 5, 3⟩
def F.EG_CFG_SOURCE (s : Nat) : Fld := ⟨(R.EG_CFG s), 8, 2⟩
def F.EG_CFG_LENGTH (s : Nat) : Fld := ⟨(R.EG_CFG s), 10, 9⟩
def F.EG_CFG_CAN_FD (s : Nat) : Fld := ⟨(R.EG_CFG s), 19, 1⟩
def F.EG_CFG_CAN_BRS (s : Nat) : Fld := ⟨(R.EG_CFG s), 20, 1⟩
def F.EG_CFG_CAN_IDE (s : Nat) : Fld := ⟨(R.EG_CFG s), 21, 1⟩
def F.EG_CFG_CAN_ID (s : Nat) : Fld := ⟨(R.EG_CFG s), 23, 29⟩
def R.EG_TX (s : Nat) : Nat := 0x600000090D08 + s * 0x20
def F.EG_TX_DYN_DIV (s : Nat) : Fld := ⟨(R.EG_TX s), 0, 8⟩
def R.EG_SEND (s : Nat) : Nat := 0x600000090D10 + s * 0x20
def F.EG_SEND_SEND (s : Nat) : Fld := ⟨(R.EG_SEND s), 0, 1⟩
def R.EG_STATUS (s : Nat) : Nat := 0x600000090D18 + s * 0x20
def F.EG_STATUS_SENT (s : Nat) : Fld := ⟨(R.EG_STATUS s), 0, 24⟩
def F.EG_STATUS_DROPS (s : Nat) : Fld := ⟨(R.EG_STATUS s), 24, 8⟩
def F.EG_STATUS_SUPERSEDED (s : Nat) : Fld := ⟨(R.EG_STATUS s), 32, 8⟩
def F.EG_STATUS_TENT_REFUSED (s : Nat) : Fld := ⟨(R.EG_STATUS s), 40, 8⟩
def F.EG_STATUS_INHIBITED (s : Nat) : Fld := ⟨(R.EG_STATUS s), 48, 8⟩
def R.EG_GCL_CTRL (p : Nat) : Nat := 0x600000091100 + p * 0x20
def F.EG_GCL_CTRL_ENABLE (p : Nat) : Fld := ⟨(R.EG_GCL_CTRL p), 0, 1⟩
def F.EG_GCL_CTRL_LENGTH (p : Nat) : Fld := ⟨(R.EG_GCL_CTRL p), 1, 9⟩
def F.EG_GCL_CTRL_TB (p : Nat) : Fld := ⟨(R.EG_GCL_CTRL p), 10, 3⟩
def R.EG_GCL_BASE (p : Nat) : Nat := 0x600000091108 + p * 0x20
def F.EG_GCL_BASE_BASE (p : Nat) : Fld := ⟨(R.EG_GCL_BASE p), 0, 64⟩
def R.EG_GCL_CYCLE (p : Nat) : Nat := 0x600000091110 + p * 0x20
def F.EG_GCL_CYCLE_CYCLE_NS (p : Nat) : Fld := ⟨(R.EG_GCL_CYCLE p), 0, 32⟩
def R.EG_GCL_STATUS (p : Nat) : Nat := 0x600000091118 + p * 0x20
def F.EG_GCL_STATUS_ENTRY (p : Nat) : Fld := ⟨(R.EG_GCL_STATUS p), 0, 8⟩
def F.EG_GCL_STATUS_CYCLES (p : Nat) : Fld := ⟨(R.EG_GCL_STATUS p), 32, 32⟩
def R.EG_TEMPLATE (s w : Nat) : Nat := 0x600000092000 + s * 0x100 + w * 0x8
def F.EG_TEMPLATE_BYTES (s w : Nat) : Fld := ⟨(R.EG_TEMPLATE s w), 0, 64⟩
def R.EG_FIELD (s k : Nat) : Nat := 0x600000094000 + s * 0x80 + k * 0x8
def F.EG_FIELD_OFFSET (s k : Nat) : Fld := ⟨(R.EG_FIELD s k), 0, 12⟩
def F.EG_FIELD_TYPE (s k : Nat) : Fld := ⟨(R.EG_FIELD s k), 12, 4⟩
def F.EG_FIELD_BE (s k : Nat) : Fld := ⟨(R.EG_FIELD s k), 16, 1⟩
def F.EG_FIELD_DOF (s k : Nat) : Fld := ⟨(R.EG_FIELD s k), 18, 6⟩
def F.EG_FIELD_QUANTITY (s k : Nat) : Fld := ⟨(R.EG_FIELD s k), 24, 2⟩
def F.EG_FIELD_TAP (s k : Nat) : Fld := ⟨(R.EG_FIELD s k), 26, 6⟩
def F.EG_FIELD_SCALE (s k : Nat) : Fld := ⟨(R.EG_FIELD s k), 32, 32⟩
def R.EG_GCL_ENTRY (p i : Nat) : Nat := 0x600000095000 + p * 0x800 + i * 0x8
def F.EG_GCL_ENTRY_GATES (p i : Nat) : Fld := ⟨(R.EG_GCL_ENTRY p i), 0, 8⟩
def F.EG_GCL_ENTRY_INTERVAL_NS (p i : Nat) : Fld := ⟨(R.EG_GCL_ENTRY p i), 8, 32⟩
/-! ### MBX block (spec/13_mailbox.md) -/
def R.MBX_CTRL : Nat := 0x600000010000
def F.MBX_CTRL_LOCK : Fld := ⟨R.MBX_CTRL, 0, 1⟩
def R.MBX_CFG : Nat := 0x600000010008
def F.MBX_CFG_CMD_TIMEOUT_MS : Fld := ⟨R.MBX_CFG, 0, 16⟩
def F.MBX_CFG_TB : Fld := ⟨R.MBX_CFG, 16, 3⟩
def F.MBX_CFG_ROOT_HOST : Fld := ⟨R.MBX_CFG, 19, 4⟩
def R.MBX_PEER_CFG : Nat := 0x600000010010
def F.MBX_PEER_CFG_PART (i : Nat) : Fld := ⟨R.MBX_PEER_CFG, 0 + 4 * i, 3⟩
def F.MBX_PEER_CFG_EN (i : Nat) : Fld := ⟨R.MBX_PEER_CFG, 3 + 4 * i, 1⟩
def R.MBX_STATUS : Nat := 0x600000010018
def F.MBX_STATUS_EXECUTING : Fld := ⟨R.MBX_STATUS, 0, 16⟩
def F.MBX_STATUS_WAITING : Fld := ⟨R.MBX_STATUS, 16, 16⟩
def R.MBX_DISPUTES : Nat := 0x600000010020
def F.MBX_DISPUTES_COUNT : Fld := ⟨R.MBX_DISPUTES, 0, 32⟩
def F.MBX_DISPUTES_LAST_UNIT : Fld := ⟨R.MBX_DISPUTES, 32, 16⟩
def R.MBX_REJECTS : Nat := 0x600000010028
def F.MBX_REJECTS_COUNT : Fld := ⟨R.MBX_REJECTS, 0, 32⟩
def F.MBX_REJECTS_LAST_OFFSET : Fld := ⟨R.MBX_REJECTS, 32, 16⟩
def R.MB_CTRL (m : Nat) : Nat := 0x600000010100 + m * 0x40
def F.MB_CTRL_ENABLE (m : Nat) : Fld := ⟨(R.MB_CTRL m), 0, 1⟩
def F.MB_CTRL_SEQ_RESET (m : Nat) : Fld := ⟨(R.MB_CTRL m), 1, 1⟩
def F.MB_CTRL_RING_RESET (m : Nat) : Fld := ⟨(R.MB_CTRL m), 2, 1⟩
def F.MB_CTRL_NOTIFY_EN (m : Nat) : Fld := ⟨(R.MB_CTRL m), 3, 1⟩
def R.MB_DOORBELL (m : Nat) : Nat := 0x600000010108 + m * 0x40
def F.MB_DOORBELL_TAIL (m : Nat) : Fld := ⟨(R.MB_DOORBELL m), 0, 7⟩
def R.MB_RESP_HEAD (m : Nat) : Nat := 0x600000010110 + m * 0x40
def F.MB_RESP_HEAD_RESP_HEAD (m : Nat) : Fld := ⟨(R.MB_RESP_HEAD m), 0, 7⟩
def R.MB_POS (m : Nat) : Nat := 0x600000010118 + m * 0x40
def F.MB_POS_HEAD (m : Nat) : Fld := ⟨(R.MB_POS m), 0, 7⟩
def F.MB_POS_TAIL (m : Nat) : Fld := ⟨(R.MB_POS m), 8, 7⟩
def F.MB_POS_RESP_TAIL (m : Nat) : Fld := ⟨(R.MB_POS m), 16, 7⟩
def F.MB_POS_RESP_HEAD (m : Nat) : Fld := ⟨(R.MB_POS m), 24, 7⟩
def R.MB_SEQ (m : Nat) : Nat := 0x600000010120 + m * 0x40
def F.MB_SEQ_LAST_SEQ (m : Nat) : Fld := ⟨(R.MB_SEQ m), 0, 32⟩
def F.MB_SEQ_SEQ_VALID (m : Nat) : Fld := ⟨(R.MB_SEQ m), 32, 1⟩
def R.MB_EXEC (m : Nat) : Nat := 0x600000010128 + m * 0x40
def F.MB_EXEC_OPCODE (m : Nat) : Fld := ⟨(R.MB_EXEC m), 0, 8⟩
def F.MB_EXEC_ACTIVE (m : Nat) : Fld := ⟨(R.MB_EXEC m), 8, 1⟩
def F.MB_EXEC_ELAPSED_US (m : Nat) : Fld := ⟨(R.MB_EXEC m), 32, 32⟩
def R.MB_COUNTS (m : Nat) : Nat := 0x600000010130 + m * 0x40
def F.MB_COUNTS_COMMANDS (m : Nat) : Fld := ⟨(R.MB_COUNTS m), 0, 32⟩
def F.MB_COUNTS_DUPLICATES (m : Nat) : Fld := ⟨(R.MB_COUNTS m), 32, 16⟩
def F.MB_COUNTS_BAD_SEQUENCES (m : Nat) : Fld := ⟨(R.MB_COUNTS m), 48, 16⟩
def R.MB_ERRORS (m : Nat) : Nat := 0x600000010138 + m * 0x40
def F.MB_ERRORS_INTEGRITY (m : Nat) : Fld := ⟨(R.MB_ERRORS m), 0, 16⟩
def F.MB_ERRORS_TIMEOUTS (m : Nat) : Fld := ⟨(R.MB_ERRORS m), 16, 16⟩
def F.MB_ERRORS_BUSY (m : Nat) : Fld := ⟨(R.MB_ERRORS m), 32, 16⟩
def F.MB_ERRORS_DISPUTED (m : Nat) : Fld := ⟨(R.MB_ERRORS m), 48, 16⟩
/-! ### CFG block (spec/13_mailbox.md) -/
def R.CFG_CTRL : Nat := 0x600000020000
def F.CFG_CTRL_LOCK : Fld := ⟨R.CFG_CTRL, 0, 1⟩
def R.CFG_STATUS : Nat := 0x600000020008
def F.CFG_STATUS_ACTIVE_BANK : Fld := ⟨R.CFG_STATUS, 0, 1⟩
def F.CFG_STATUS_TRIAL : Fld := ⟨R.CFG_STATUS, 1, 1⟩
def F.CFG_STATUS_NO_IMAGE : Fld := ⟨R.CFG_STATUS, 2, 1⟩
def F.CFG_STATUS_BOOK : Fld := ⟨R.CFG_STATUS, 3, 2⟩
def F.CFG_STATUS_SESSION : Fld := ⟨R.CFG_STATUS, 5, 1⟩
def F.CFG_STATUS_SESSION_MB : Fld := ⟨R.CFG_STATUS, 8, 4⟩
def F.CFG_STATUS_LAST_VERIFY : Fld := ⟨R.CFG_STATUS, 16, 8⟩
def R.CFG_BANK_A : Nat := 0x600000020010
def F.CFG_BANK_A_GENERATION : Fld := ⟨R.CFG_BANK_A, 0, 32⟩
def F.CFG_BANK_A_SECURITY_VERSION : Fld := ⟨R.CFG_BANK_A, 32, 6⟩
def F.CFG_BANK_A_KEY_INDEX : Fld := ⟨R.CFG_BANK_A, 38, 2⟩
def F.CFG_BANK_A_STATUS : Fld := ⟨R.CFG_BANK_A, 40, 6⟩
def F.CFG_BANK_A_VALID : Fld := ⟨R.CFG_BANK_A, 46, 1⟩
def R.CFG_BANK_B : Nat := 0x600000020018
def F.CFG_BANK_B_GENERATION : Fld := ⟨R.CFG_BANK_B, 0, 32⟩
def F.CFG_BANK_B_SECURITY_VERSION : Fld := ⟨R.CFG_BANK_B, 32, 6⟩
def F.CFG_BANK_B_KEY_INDEX : Fld := ⟨R.CFG_BANK_B, 38, 2⟩
def F.CFG_BANK_B_STATUS : Fld := ⟨R.CFG_BANK_B, 40, 6⟩
def F.CFG_BANK_B_VALID : Fld := ⟨R.CFG_BANK_B, 46, 1⟩
def R.CFG_OTP : Nat := 0x600000020020
def F.CFG_OTP_FLOOR : Fld := ⟨R.CFG_OTP, 0, 6⟩
def F.CFG_OTP_KEY_PROGRAMMED : Fld := ⟨R.CFG_OTP, 8, 4⟩
def F.CFG_OTP_KEY_REVOKED : Fld := ⟨R.CFG_OTP, 12, 4⟩
def R.CFG_RECORDS : Nat := 0x600000020028
def F.CFG_RECORDS_APPLIED : Fld := ⟨R.CFG_RECORDS, 0, 16⟩
def F.CFG_RECORDS_SKIPPED_ABSENT : Fld := ⟨R.CFG_RECORDS, 16, 16⟩
def F.CFG_RECORDS_BAD_RECORDS : Fld := ⟨R.CFG_RECORDS, 32, 16⟩
def F.CFG_RECORDS_DUPLICATE_KEYS : Fld := ⟨R.CFG_RECORDS, 48, 16⟩
def R.CFG_REJECTS : Nat := 0x600000020030
def F.CFG_REJECTS_COUNT : Fld := ⟨R.CFG_REJECTS, 0, 32⟩
def F.CFG_REJECTS_LAST_OFFSET : Fld := ⟨R.CFG_REJECTS, 32, 16⟩
/-! ### PART block (spec/13_mailbox.md) -/
def R.PART_CTRL : Nat := 0x6000000F0000
def F.PART_CTRL_LOCK : Fld := ⟨R.PART_CTRL, 0, 1⟩
def R.PART_SCHED_CTRL : Nat := 0x6000000F0008
def F.PART_SCHED_CTRL_ENABLE : Fld := ⟨R.PART_SCHED_CTRL, 0, 1⟩
def F.PART_SCHED_CTRL_TB : Fld := ⟨R.PART_SCHED_CTRL, 1, 3⟩
def F.PART_SCHED_CTRL_ENTRIES : Fld := ⟨R.PART_SCHED_CTRL, 4, 5⟩
def R.PART_SCHED_BASE : Nat := 0x6000000F0010
def F.PART_SCHED_BASE_BASE : Fld := ⟨R.PART_SCHED_BASE, 0, 64⟩
def R.PART_SCHED_CYCLE : Nat := 0x6000000F0018
def F.PART_SCHED_CYCLE_CYCLE_NS : Fld := ⟨R.PART_SCHED_CYCLE, 0, 32⟩
def R.PART_SCHED_STATUS : Nat := 0x6000000F0020
def F.PART_SCHED_STATUS_ENTRY : Fld := ⟨R.PART_SCHED_STATUS, 0, 4⟩
def F.PART_SCHED_STATUS_CYCLES : Fld := ⟨R.PART_SCHED_STATUS, 32, 32⟩
def R.PART_SHARE_FREE : Nat := 0x6000000F0028
def F.PART_SHARE_FREE_FREE : Fld := ⟨R.PART_SHARE_FREE, 0, 8⟩
def R.PART_REJECTS : Nat := 0x6000000F0030
def F.PART_REJECTS_COUNT : Fld := ⟨R.PART_REJECTS, 0, 32⟩
def F.PART_REJECTS_LAST_OFFSET : Fld := ⟨R.PART_REJECTS, 32, 16⟩
def R.PART_WIN (k : Nat) : Nat := 0x6000000F0080 + k * 0x8
def F.PART_WIN_LENGTH_NS (k : Nat) : Fld := ⟨(R.PART_WIN k), 0, 32⟩
def F.PART_WIN_RUN (k : Nat) : Fld := ⟨(R.PART_WIN k), 32, 8⟩
def R.PART_STATE (p : Nat) : Nat := 0x6000000F0100 + p * 0x80
def F.PART_STATE_STATE (p : Nat) : Fld := ⟨(R.PART_STATE p), 0, 2⟩
def F.PART_STATE_PATHS (p : Nat) : Fld := ⟨(R.PART_STATE p), 8, 8⟩
def F.PART_STATE_RESETS (p : Nat) : Fld := ⟨(R.PART_STATE p), 16, 16⟩
def F.PART_STATE_LAST_RESET_US (p : Nat) : Fld := ⟨(R.PART_STATE p), 32, 32⟩
def R.PART_SHARE (p : Nat) : Nat := 0x6000000F0108 + p * 0x80
def F.PART_SHARE_GUARANTEED (p : Nat) : Fld := ⟨(R.PART_SHARE p), 0, 8⟩
def F.PART_SHARE_CAP (p : Nat) : Fld := ⟨(R.PART_SHARE p), 8, 8⟩
def R.PART_MEM (p k : Nat) : Nat := 0x6000000F0110 + p * 0x80 + k * 0x8
def F.PART_MEM_BASE_2M (p k : Nat) : Fld := ⟨(R.PART_MEM p k), 0, 32⟩
def F.PART_MEM_SIZE_2M (p k : Nat) : Fld := ⟨(R.PART_MEM p k), 32, 32⟩
def R.PART_SQUARES (p : Nat) : Nat := 0x6000000F0130 + p * 0x80
def F.PART_SQUARES_SQUARES (p : Nat) : Fld := ⟨(R.PART_SQUARES p), 0, 64⟩
def R.PART_BOARD (p : Nat) : Nat := 0x6000000F0138 + p * 0x80
def F.PART_BOARD_PLANES (p : Nat) : Fld := ⟨(R.PART_BOARD p), 0, 32⟩
def F.PART_BOARD_ENGINES (p : Nat) : Fld := ⟨(R.PART_BOARD p), 32, 8⟩
def F.PART_BOARD_CORES (p : Nat) : Fld := ⟨(R.PART_BOARD p), 40, 12⟩
def R.PART_FRAME (p : Nat) : Nat := 0x6000000F0140 + p * 0x80
def F.PART_FRAME_UNITS (p : Nat) : Fld := ⟨(R.PART_FRAME p), 0, 5⟩
def F.PART_FRAME_SLOTS (p : Nat) : Fld := ⟨(R.PART_FRAME p), 32, 32⟩
def R.PART_TIME (p : Nat) : Nat := 0x6000000F0148 + p * 0x80
def F.PART_TIME_TB (p : Nat) : Fld := ⟨(R.PART_TIME p), 0, 8⟩
def F.PART_TIME_PH (p : Nat) : Fld := ⟨(R.PART_TIME p), 8, 8⟩
def F.PART_TIME_PULSE_OUT (p : Nat) : Fld := ⟨(R.PART_TIME p), 16, 16⟩
def F.PART_TIME_CAPTURE_IN (p : Nat) : Fld := ⟨(R.PART_TIME p), 32, 16⟩
def R.PART_PE (p : Nat) : Nat := 0x6000000F0150 + p * 0x80
def F.PART_PE_EVENTS (p : Nat) : Fld := ⟨(R.PART_PE p), 0, 64⟩
def R.PART_SQ_SHARE (n : Nat) : Nat := 0x6000000F0800 + n * 0x8
def F.PART_SQ_SHARE_ENABLE (n : Nat) : Fld := ⟨(R.PART_SQ_SHARE n), 0, 1⟩
def F.PART_SQ_SHARE_SECOND (n : Nat) : Fld := ⟨(R.PART_SQ_SHARE n), 1, 3⟩
def F.PART_SQ_SHARE_SPLIT_64K (n : Nat) : Fld := ⟨(R.PART_SQ_SHARE n), 4, 6⟩
def F.PART_SQ_SHARE_RUNNING_SECOND (n : Nat) : Fld := ⟨(R.PART_SQ_SHARE n), 16, 1⟩
/-! ### SAFETY block (spec/14_safety.md) -/
def R.SAFE_CTRL : Nat := 0x6000000A0000
def F.SAFE_CTRL_LOCK : Fld := ⟨R.SAFE_CTRL, 0, 1⟩
def F.SAFE_CTRL_SAFE_REQ : Fld := ⟨R.SAFE_CTRL, 1, 1⟩
def F.SAFE_CTRL_SAFE_EXIT : Fld := ⟨R.SAFE_CTRL, 2, 1⟩
def R.SAFE_STATUS : Nat := 0x6000000A0008
def F.SAFE_STATUS_PHASE : Fld := ⟨R.SAFE_STATUS, 0, 2⟩
def F.SAFE_STATUS_SAFE_HOLD : Fld := ⟨R.SAFE_STATUS, 2, 1⟩
def F.SAFE_STATUS_HOLD_GEN : Fld := ⟨R.SAFE_STATUS, 3, 1⟩
def F.SAFE_STATUS_RESTART_FAIL : Fld := ⟨R.SAFE_STATUS, 4, 1⟩
def F.SAFE_STATUS_LAST_CAUSE : Fld := ⟨R.SAFE_STATUS, 8, 8⟩
def F.SAFE_STATUS_CAUSE_MASK : Fld := ⟨R.SAFE_STATUS, 16, 11⟩
def F.SAFE_STATUS_SAFE_ENTRIES : Fld := ⟨R.SAFE_STATUS, 32, 16⟩
def F.SAFE_STATUS_LATE_CAUSES : Fld := ⟨R.SAFE_STATUS, 48, 16⟩
def R.SAFE_CAUSE : Nat := 0x6000000A0010
def F.SAFE_CAUSE_DETAIL : Fld := ⟨R.SAFE_CAUSE, 0, 16⟩
def F.SAFE_CAUSE_T_DECISION : Fld := ⟨R.SAFE_CAUSE, 32, 32⟩
def R.SAFE_TIMES : Nat := 0x6000000A0018
def F.SAFE_TIMES_LAST_RESTART_US : Fld := ⟨R.SAFE_TIMES, 0, 32⟩
def F.SAFE_TIMES_MAX_RESTART_US : Fld := ⟨R.SAFE_TIMES, 32, 32⟩
def R.SAFE_CFG : Nat := 0x6000000A0020
def F.SAFE_CFG_HOLD_PERIOD_US : Fld := ⟨R.SAFE_CFG, 0, 16⟩
def F.SAFE_CFG_HOLD_SLOTS : Fld := ⟨R.SAFE_CFG, 16, 32⟩
def F.SAFE_CFG_SAFE_LIMIT : Fld := ⟨R.SAFE_CFG, 48, 4⟩
def F.SAFE_CFG_SAFE_WINDOW_S : Fld := ⟨R.SAFE_CFG, 52, 12⟩
def R.CASTLE_STATUS : Nat := 0x6000000A0028
def F.CASTLE_STATUS_LOCKSTEP_ERRORS : Fld := ⟨R.CASTLE_STATUS, 0, 16⟩
def F.CASTLE_STATUS_CASTLE_RESETS : Fld := ⟨R.CASTLE_STATUS, 16, 16⟩
def F.CASTLE_STATUS_SRAM_CORRECTED : Fld := ⟨R.CASTLE_STATUS, 32, 16⟩
def F.CASTLE_STATUS_CLK_FAULT : Fld := ⟨R.CASTLE_STATUS, 48, 1⟩
def F.CASTLE_STATUS_SUPPLY_FAULT : Fld := ⟨R.CASTLE_STATUS, 49, 1⟩
def F.CASTLE_STATUS_READBACK_FAULT : Fld := ⟨R.CASTLE_STATUS, 50, 1⟩
def R.CASTLE_CFG : Nat := 0x6000000A0030
def F.CASTLE_CFG_CASTLE_FAULT_WINDOW_MS : Fld := ⟨R.CASTLE_CFG, 0, 16⟩
def R.ROT_CFG : Nat := 0x6000000A0038
def F.ROT_CFG_ENABLE : Fld := ⟨R.ROT_CFG, 0, 1⟩
def F.ROT_CFG_ENTRIES : Fld := ⟨R.ROT_CFG, 1, 8⟩
def F.ROT_CFG_PERIOD_US : Fld := ⟨R.ROT_CFG, 9, 20⟩
def F.ROT_CFG_REST_GRACE_US : Fld := ⟨R.ROT_CFG, 29, 16⟩
def F.ROT_CFG_FORCE_GRACE_US : Fld := ⟨R.ROT_CFG, 45, 16⟩
def F.ROT_CFG_FAIL_ACTION : Fld := ⟨R.ROT_CFG, 61, 1⟩
def R.ROT_STATUS : Nat := 0x6000000A0040
def F.ROT_STATUS_ENTRY : Fld := ⟨R.ROT_STATUS, 0, 8⟩
def F.ROT_STATUS_ROTATIONS : Fld := ⟨R.ROT_STATUS, 16, 16⟩
def F.ROT_STATUS_SKIPPED : Fld := ⟨R.ROT_STATUS, 32, 16⟩
def F.ROT_STATUS_TIMEOUTS : Fld := ⟨R.ROT_STATUS, 48, 16⟩
def R.ROT_FAILS : Nat := 0x6000000A0048
def F.ROT_FAILS_FAILS : Fld := ⟨R.ROT_FAILS, 0, 16⟩
def F.ROT_FAILS_LAST_FAIL_UNIT : Fld := ⟨R.ROT_FAILS, 16, 16⟩
def F.ROT_FAILS_QUARANTINES : Fld := ⟨R.ROT_FAILS, 32, 16⟩
def R.ARB_STATUS : Nat := 0x6000000A0050
def F.ARB_STATUS_INSTANCE_MISMATCHES : Fld := ⟨R.ARB_STATUS, 0, 16⟩
def F.ARB_STATUS_SELF_TESTS : Fld := ⟨R.ARB_STATUS, 16, 16⟩
def F.ARB_STATUS_TEST_FAIL : Fld := ⟨R.ARB_STATUS, 32, 1⟩
def R.CASTLE_INBOX : Nat := 0x6000000A0058
def F.CASTLE_INBOX_FILL : Fld := ⟨R.CASTLE_INBOX, 0, 9⟩
def F.CASTLE_INBOX_DROPPED : Fld := ⟨R.CASTLE_INBOX, 16, 16⟩
def R.VOX_TEST : Nat := 0x6000000A0060
def F.VOX_TEST_VOX_TEST_ADDR : Fld := ⟨R.VOX_TEST, 0, 48⟩
def R.SAFE_REJECTS : Nat := 0x6000000A0068
def F.SAFE_REJECTS_COUNT : Fld := ⟨R.SAFE_REJECTS, 0, 32⟩
def F.SAFE_REJECTS_LAST_OFFSET : Fld := ⟨R.SAFE_REJECTS, 32, 16⟩
def R.SC_CFG (n : Nat) : Nat := 0x6000000A0100 + n * 0x20
def F.SC_CFG_ARM (n : Nat) : Fld := ⟨(R.SC_CFG n), 0, 1⟩
def F.SC_CFG_ACTION (n : Nat) : Fld := ⟨(R.SC_CFG n), 1, 1⟩
def F.SC_CFG_TOKEN_EN (n : Nat) : Fld := ⟨(R.SC_CFG n), 2, 1⟩
def F.SC_CFG_KEEP_IN_SAFE (n : Nat) : Fld := ⟨(R.SC_CFG n), 3, 1⟩
def F.SC_CFG_PARTITION (n : Nat) : Fld := ⟨(R.SC_CFG n), 4, 3⟩
def F.SC_CFG_SOURCE_UNIT (n : Nat) : Fld := ⟨(R.SC_CFG n), 16, 16⟩
def F.SC_CFG_FIRST_LIMIT (n : Nat) : Fld := ⟨(R.SC_CFG n), 32, 32⟩
def R.SC_WINDOW (n : Nat) : Nat := 0x6000000A0108 + n * 0x20
def F.SC_WINDOW_OPEN (n : Nat) : Fld := ⟨(R.SC_WINDOW n), 0, 32⟩
def F.SC_WINDOW_CLOSE (n : Nat) : Fld := ⟨(R.SC_WINDOW n), 32, 32⟩
def R.SC_STATUS (n : Nat) : Nat := 0x6000000A0110 + n * 0x20
def F.SC_STATUS_STATE (n : Nat) : Fld := ⟨(R.SC_STATUS n), 0, 2⟩
def F.SC_STATUS_EARLY (n : Nat) : Fld := ⟨(R.SC_STATUS n), 2, 1⟩
def F.SC_STATUS_LATE (n : Nat) : Fld := ⟨(R.SC_STATUS n), 3, 1⟩
def F.SC_STATUS_BAD_TOKEN (n : Nat) : Fld := ⟨(R.SC_STATUS n), 4, 1⟩
def F.SC_STATUS_LAST_TOKEN (n : Nat) : Fld := ⟨(R.SC_STATUS n), 16, 16⟩
def F.SC_STATUS_FALLS (n : Nat) : Fld := ⟨(R.SC_STATUS n), 32, 16⟩
def F.SC_STATUS_KICKS (n : Nat) : Fld := ⟨(R.SC_STATUS n), 48, 16⟩
def R.SC_KICK (n : Nat) : Nat := 0x6000000A0118 + n * 0x20
def F.SC_KICK_TOKEN (n : Nat) : Fld := ⟨(R.SC_KICK n), 0, 16⟩
def R.TS_CFG (t : Nat) : Nat := 0x6000000A1100 + t * 0x20
def F.TS_CFG_ARM (t : Nat) : Fld := ⟨(R.TS_CFG t), 0, 1⟩
def F.TS_CFG_ACTION (t : Nat) : Fld := ⟨(R.TS_CFG t), 1, 1⟩
def F.TS_CFG_PERIODIC (t : Nat) : Fld := ⟨(R.TS_CFG t), 2, 1⟩
def F.TS_CFG_KEEP_IN_SAFE (t : Nat) : Fld := ⟨(R.TS_CFG t), 3, 1⟩
def F.TS_CFG_PARTITION (t : Nat) : Fld := ⟨(R.TS_CFG t), 4, 3⟩
def F.TS_CFG_SOURCE_UNIT (t : Nat) : Fld := ⟨(R.TS_CFG t), 16, 16⟩
def F.TS_CFG_PERIOD (t : Nat) : Fld := ⟨(R.TS_CFG t), 32, 32⟩
def R.TS_LIMITS (t : Nat) : Nat := 0x6000000A1108 + t * 0x20
def F.TS_LIMITS_START_MAX (t : Nat) : Fld := ⟨(R.TS_LIMITS t), 0, 20⟩
def F.TS_LIMITS_EXEC_MAX (t : Nat) : Fld := ⟨(R.TS_LIMITS t), 20, 22⟩
def F.TS_LIMITS_DEADLINE (t : Nat) : Fld := ⟨(R.TS_LIMITS t), 42, 22⟩
def R.TS_STATUS (t : Nat) : Nat := 0x6000000A1110 + t * 0x20
def F.TS_STATUS_STATE (t : Nat) : Fld := ⟨(R.TS_STATUS t), 0, 2⟩
def F.TS_STATUS_FALLEN (t : Nat) : Fld := ⟨(R.TS_STATUS t), 2, 1⟩
def F.TS_STATUS_LAST_VIOLATION (t : Nat) : Fld := ⟨(R.TS_STATUS t), 3, 5⟩
def F.TS_STATUS_VIOLATIONS (t : Nat) : Fld := ⟨(R.TS_STATUS t), 16, 16⟩
def F.TS_STATUS_MAX_EXEC (t : Nat) : Fld := ⟨(R.TS_STATUS t), 32, 32⟩
def R.TS_MARK (t : Nat) : Nat := 0x6000000A1118 + t * 0x20
def F.TS_MARK_KIND (t : Nat) : Fld := ⟨(R.TS_MARK t), 0, 2⟩
def R.FZ_CFG (s : Nat) : Nat := 0x6000000A1900 + s * 0x10
def F.FZ_CFG_ACTION (s : Nat) : Fld := ⟨(R.FZ_CFG s), 0, 2⟩
def F.FZ_CFG_MISS_LIMIT (s : Nat) : Fld := ⟨(R.FZ_CFG s), 2, 8⟩
def F.FZ_CFG_CP_MASK (s : Nat) : Fld := ⟨(R.FZ_CFG s), 32, 32⟩
def R.FZ_STATUS (s : Nat) : Nat := 0x6000000A1908 + s * 0x10
def F.FZ_STATUS_FROZEN (s : Nat) : Fld := ⟨(R.FZ_STATUS s), 0, 1⟩
def F.FZ_STATUS_MISS_RUN (s : Nat) : Fld := ⟨(R.FZ_STATUS s), 8, 8⟩
def F.FZ_STATUS_FROZEN_RUNS (s : Nat) : Fld := ⟨(R.FZ_STATUS s), 16, 16⟩
def F.FZ_STATUS_MISS_DETECTIONS (s : Nat) : Fld := ⟨(R.FZ_STATUS s), 32, 16⟩
def R.CP_CFG (c : Nat) : Nat := 0x6000000A2000 + c * 0x40
def F.CP_CFG_ENABLE (c : Nat) : Fld := ⟨(R.CP_CFG c), 0, 1⟩
def F.CP_CFG_FORMAT (c : Nat) : Fld := ⟨(R.CP_CFG c), 1, 4⟩
def F.CP_CFG_B_ANALOG (c : Nat) : Fld := ⟨(R.CP_CFG c), 5, 1⟩
def F.CP_CFG_REPORTS (c : Nat) : Fld := ⟨(R.CP_CFG c), 6, 4⟩
def F.CP_CFG_METRICS (c : Nat) : Fld := ⟨(R.CP_CFG c), 10, 4⟩
def F.CP_CFG_BUDGET_MAX (c : Nat) : Fld := ⟨(R.CP_CFG c), 14, 1⟩
def F.CP_CFG_BUDGET_MEAN (c : Nat) : Fld := ⟨(R.CP_CFG c), 15, 1⟩
def F.CP_CFG_BOUND_SEL (c : Nat) : Fld := ⟨(R.CP_CFG c), 16, 1⟩
def F.CP_CFG_ACTION (c : Nat) : Fld := ⟨(R.CP_CFG c), 17, 1⟩
def F.CP_CFG_KEEP_IN_SAFE (c : Nat) : Fld := ⟨(R.CP_CFG c), 18, 1⟩
def F.CP_CFG_ELEMENTS (c : Nat) : Fld := ⟨(R.CP_CFG c), 32, 17⟩
def R.CP_TOL (c : Nat) : Nat := 0x6000000A2008 + c * 0x40
def F.CP_TOL_TOL_MAX (c : Nat) : Fld := ⟨(R.CP_TOL c), 0, 32⟩
def F.CP_TOL_TOL_MEAN (c : Nat) : Fld := ⟨(R.CP_TOL c), 32, 32⟩
def R.CP_BUDGET (c : Nat) : Nat := 0x6000000A2010 + c * 0x40
def F.CP_BUDGET_ERR_GAIN (c : Nat) : Fld := ⟨(R.CP_BUDGET c), 0, 32⟩
def F.CP_BUDGET_OCC_THRESH (c : Nat) : Fld := ⟨(R.CP_BUDGET c), 32, 32⟩
def R.CP_POLICY (c : Nat) : Nat := 0x6000000A2018 + c * 0x40
def F.CP_POLICY_POLICY (c : Nat) : Fld := ⟨(R.CP_POLICY c), 0, 1⟩
def F.CP_POLICY_CAUTION (c : Nat) : Fld := ⟨(R.CP_POLICY c), 1, 2⟩
def F.CP_POLICY_FIXED_CH (c : Nat) : Fld := ⟨(R.CP_POLICY c), 3, 1⟩
def F.CP_POLICY_DEFAULT_CH (c : Nat) : Fld := ⟨(R.CP_POLICY c), 4, 1⟩
def F.CP_POLICY_TOPK_K (c : Nat) : Fld := ⟨(R.CP_POLICY c), 5, 5⟩
def F.CP_POLICY_TOPK_MIN (c : Nat) : Fld := ⟨(R.CP_POLICY c), 10, 5⟩
def F.CP_POLICY_IOU_MIN (c : Nat) : Fld := ⟨(R.CP_POLICY c), 16, 16⟩
def F.CP_POLICY_K (c : Nat) : Fld := ⟨(R.CP_POLICY c), 32, 6⟩
def F.CP_POLICY_N (c : Nat) : Fld := ⟨(R.CP_POLICY c), 38, 6⟩
def F.CP_POLICY_DEADLINE_US (c : Nat) : Fld := ⟨(R.CP_POLICY c), 44, 20⟩
def R.CP_BUF (c : Nat) : Nat := 0x6000000A2020 + c * 0x40
def F.CP_BUF_BUF_OFFSET_64 (c : Nat) : Fld := ⟨(R.CP_BUF c), 0, 16⟩
def F.CP_BUF_BUF_SIZE_64 (c : Nat) : Fld := ⟨(R.CP_BUF c), 16, 16⟩
def F.CP_BUF_NOTIFY_UNIT (c : Nat) : Fld := ⟨(R.CP_BUF c), 32, 16⟩
def F.CP_BUF_NOTIFY_EN (c : Nat) : Fld := ⟨(R.CP_BUF c), 48, 1⟩
def R.CP_VERDICT (c : Nat) : Nat := 0x6000000A2028 + c * 0x40
def F.CP_VERDICT_FRAME_SEQ (c : Nat) : Fld := ⟨(R.CP_VERDICT c), 0, 32⟩
def F.CP_VERDICT_SUSPECT (c : Nat) : Fld := ⟨(R.CP_VERDICT c), 32, 1⟩
def F.CP_VERDICT_DELIVER (c : Nat) : Fld := ⟨(R.CP_VERDICT c), 33, 2⟩
def F.CP_VERDICT_CAUSE (c : Nat) : Fld := ⟨(R.CP_VERDICT c), 35, 8⟩
def F.CP_VERDICT_REDUCED_COVERAGE (c : Nat) : Fld := ⟨(R.CP_VERDICT c), 43, 1⟩
def F.CP_VERDICT_WINDOW_COUNT (c : Nat) : Fld := ⟨(R.CP_VERDICT c), 44, 6⟩
def F.CP_VERDICT_OPEN (c : Nat) : Fld := ⟨(R.CP_VERDICT c), 50, 1⟩
def F.CP_VERDICT_CONFIG_ERROR (c : Nat) : Fld := ⟨(R.CP_VERDICT c), 51, 1⟩
def R.CP_METRICS (c : Nat) : Nat := 0x6000000A2030 + c * 0x40
def F.CP_METRICS_MAX_ABS (c : Nat) : Fld := ⟨(R.CP_METRICS c), 0, 32⟩
def F.CP_METRICS_MEAN_ABS (c : Nat) : Fld := ⟨(R.CP_METRICS c), 32, 32⟩
def R.CP_COUNTS (c : Nat) : Nat := 0x6000000A2038 + c * 0x40
def F.CP_COUNTS_AGREED (c : Nat) : Fld := ⟨(R.CP_COUNTS c), 0, 16⟩
def F.CP_COUNTS_SUSPECT (c : Nat) : Fld := ⟨(R.CP_COUNTS c), 16, 16⟩
def F.CP_COUNTS_MISSING (c : Nat) : Fld := ⟨(R.CP_COUNTS c), 32, 16⟩
def F.CP_COUNTS_ESCALATIONS (c : Nat) : Fld := ⟨(R.CP_COUNTS c), 48, 8⟩
def F.CP_COUNTS_STALE_SUBMITS (c : Nat) : Fld := ⟨(R.CP_COUNTS c), 56, 8⟩
def R.ROT_ENTRY (i : Nat) : Nat := 0x6000000A3000 + i * 0x8
def F.ROT_ENTRY_UNIT (i : Nat) : Fld := ⟨(R.ROT_ENTRY i), 0, 16⟩
def F.ROT_ENTRY_ENABLE (i : Nat) : Fld := ⟨(R.ROT_ENTRY i), 16, 1⟩
/-! ### MEMCTL block (spec/15_memory.md) -/
def R.MC_CTRL : Nat := 0x6000000D0000
def F.MC_CTRL_LOCK : Fld := ⟨R.MC_CTRL, 0, 1⟩
def F.MC_CTRL_SCRUB_EN : Fld := ⟨R.MC_CTRL, 1, 1⟩
def R.MC_CFG : Nat := 0x6000000D0008
def F.MC_CFG_SCRUB_PERIOD_H : Fld := ⟨R.MC_CFG, 0, 8⟩
def F.MC_CFG_ENC_EN : Fld := ⟨R.MC_CFG, 16, 8⟩
def R.MC_STATUS : Nat := 0x6000000D0010
def F.MC_STATUS_PRESENT : Fld := ⟨R.MC_STATUS, 0, 8⟩
def F.MC_STATUS_USABLE_GIB : Fld := ⟨R.MC_STATUS, 8, 8⟩
def F.MC_STATUS_HOT : Fld := ⟨R.MC_STATUS, 16, 8⟩
def R.MC_SCRUB : Nat := 0x6000000D0018
def F.MC_SCRUB_POSITION_MIB : Fld := ⟨R.MC_SCRUB, 0, 32⟩
def F.MC_SCRUB_PASSES : Fld := ⟨R.MC_SCRUB, 32, 16⟩
def R.MC_ECC : Nat := 0x6000000D0020
def F.MC_ECC_CORRECTED : Fld := ⟨R.MC_ECC, 0, 32⟩
def F.MC_ECC_UNCORRECTED : Fld := ⟨R.MC_ECC, 32, 16⟩
def F.MC_ECC_POISON_READS : Fld := ⟨R.MC_ECC, 48, 16⟩
def R.MC_RETIRE : Nat := 0x6000000D0028
def F.MC_RETIRE_RETIRED_PAGES : Fld := ⟨R.MC_RETIRE, 0, 24⟩
def F.MC_RETIRE_LAST_PAGE : Fld := ⟨R.MC_RETIRE, 24, 24⟩
def R.MC_ERR_HEAD : Nat := 0x6000000D0030
def F.MC_ERR_HEAD_NEXT : Fld := ⟨R.MC_ERR_HEAD, 0, 3⟩
def F.MC_ERR_HEAD_TOTAL : Fld := ⟨R.MC_ERR_HEAD, 32, 32⟩
def R.MC_REJECTS : Nat := 0x6000000D0038
def F.MC_REJECTS_COUNT : Fld := ⟨R.MC_REJECTS, 0, 32⟩
def F.MC_REJECTS_LAST_OFFSET : Fld := ⟨R.MC_REJECTS, 32, 16⟩
def R.ERR_ADDR (k : Nat) : Nat := 0x6000000D0040 + k * 0x10
def F.ERR_ADDR_ADDR (k : Nat) : Fld := ⟨(R.ERR_ADDR k), 0, 48⟩
def R.ERR_INFO (k : Nat) : Nat := 0x6000000D0048 + k * 0x10
def F.ERR_INFO_KIND (k : Nat) : Fld := ⟨(R.ERR_INFO k), 0, 2⟩
def F.ERR_INFO_CONTROLLER (k : Nat) : Fld := ⟨(R.ERR_INFO k), 2, 3⟩
def F.ERR_INFO_RETIRED (k : Nat) : Fld := ⟨(R.ERR_INFO k), 5, 1⟩
def F.ERR_INFO_OWNED (k : Nat) : Fld := ⟨(R.ERR_INFO k), 6, 1⟩
def F.ERR_INFO_PARTITION (k : Nat) : Fld := ⟨(R.ERR_INFO k), 8, 3⟩
def F.ERR_INFO_UNIT (k : Nat) : Fld := ⟨(R.ERR_INFO k), 16, 16⟩
def F.ERR_INFO_T (k : Nat) : Fld := ⟨(R.ERR_INFO k), 32, 32⟩
def R.MC_SHARE (p : Nat) : Nat := 0x6000000D0100 + p * 0x10
def F.MC_SHARE_LAST_WINDOW (p : Nat) : Fld := ⟨(R.MC_SHARE p), 0, 32⟩
def F.MC_SHARE_SHORTFALL (p : Nat) : Fld := ⟨(R.MC_SHARE p), 32, 16⟩
def F.MC_SHARE_CAPPED (p : Nat) : Fld := ⟨(R.MC_SHARE p), 48, 16⟩
def R.MC_SHARE_TOTAL (p : Nat) : Nat := 0x6000000D0108 + p * 0x10
def F.MC_SHARE_TOTAL_BYTES (p : Nat) : Fld := ⟨(R.MC_SHARE_TOTAL p), 0, 64⟩
def R.MC_SHARE_NONE : Nat := 0x6000000D0180
def F.MC_SHARE_NONE_LAST_WINDOW : Fld := ⟨R.MC_SHARE_NONE, 0, 32⟩
def F.MC_SHARE_NONE_SHORTFALL : Fld := ⟨R.MC_SHARE_NONE, 32, 16⟩
def F.MC_SHARE_NONE_CAPPED : Fld := ⟨R.MC_SHARE_NONE, 48, 16⟩
def R.MC_BW (c : Nat) : Nat := 0x6000000D0200 + c * 0x8
def F.MC_BW_BYTES (c : Nat) : Fld := ⟨(R.MC_BW c), 0, 64⟩
def R.MC_IRQ_ROUTE (i : Nat) : Nat := 0x6000000D0240 + i * 0x8
def F.MC_IRQ_ROUTE_CORE (i : Nat) : Fld := ⟨(R.MC_IRQ_ROUTE i), 0, 4⟩
def F.MC_IRQ_ROUTE_SUPERVISOR (i : Nat) : Fld := ⟨(R.MC_IRQ_ROUTE i), 4, 1⟩
def F.MC_IRQ_ROUTE_GUEST (i : Nat) : Fld := ⟨(R.MC_IRQ_ROUTE i), 5, 3⟩
def F.MC_IRQ_ROUTE_IDENTITY (i : Nat) : Fld := ⟨(R.MC_IRQ_ROUTE i), 8, 11⟩
/-! ### LINK block (spec/15_memory.md) -/
def R.LINK_CTRL : Nat := 0x6000000E0000
def F.LINK_CTRL_LOCK : Fld := ⟨R.LINK_CTRL, 0, 1⟩
def F.LINK_CTRL_NET_EN : Fld := ⟨R.LINK_CTRL, 1, 1⟩
def F.LINK_CTRL_NET_REFORM : Fld := ⟨R.LINK_CTRL, 2, 1⟩
def F.LINK_CTRL_TRUST_PEER_HOST : Fld := ⟨R.LINK_CTRL, 3, 1⟩
def R.LINK_CFG : Nat := 0x6000000E0008
def F.LINK_CFG_FORM_WINDOW_MS : Fld := ⟨R.LINK_CFG, 0, 16⟩
def F.LINK_CFG_LINK_TIMEOUT_US : Fld := ⟨R.LINK_CFG, 16, 16⟩
def F.LINK_CFG_REPLAY_MAX : Fld := ⟨R.LINK_CFG, 32, 8⟩
def R.NET_STATUS : Nat := 0x6000000E0010
def F.NET_STATUS_STATE : Fld := ⟨R.NET_STATUS, 0, 2⟩
def F.NET_STATUS_MODULE : Fld := ⟨R.NET_STATUS, 2, 3⟩
def F.NET_STATUS_ROOT : Fld := ⟨R.NET_STATUS, 5, 1⟩
def F.NET_STATUS_MEMBERS : Fld := ⟨R.NET_STATUS, 8, 8⟩
def F.NET_STATUS_UNREACHABLE : Fld := ⟨R.NET_STATUS, 16, 8⟩
def F.NET_STATUS_FORMATIONS : Fld := ⟨R.NET_STATUS, 32, 16⟩
def R.NET_ROOT_SERIAL : Nat := 0x6000000E0018
def F.NET_ROOT_SERIAL_SERIAL : Fld := ⟨R.NET_ROOT_SERIAL, 0, 64⟩
def R.NET_ROUTE : Nat := 0x6000000E0020
def F.NET_ROUTE_LINK (i : Nat) : Fld := ⟨R.NET_ROUTE, 0 + 4 * i, 2⟩
def F.NET_ROUTE_VALID (i : Nat) : Fld := ⟨R.NET_ROUTE, 2 + 4 * i, 1⟩
def F.NET_ROUTE_DIRECT (i : Nat) : Fld := ⟨R.NET_ROUTE, 3 + 4 * i, 1⟩
def R.PCIE_STATUS : Nat := 0x6000000E0028
def F.PCIE_STATUS_ROOT_PORT : Fld := ⟨R.PCIE_STATUS, 0, 1⟩
def F.PCIE_STATUS_LINK_UP : Fld := ⟨R.PCIE_STATUS, 1, 1⟩
def F.PCIE_STATUS_SPEED : Fld := ⟨R.PCIE_STATUS, 2, 3⟩
def F.PCIE_STATUS_WIDTH : Fld := ⟨R.PCIE_STATUS, 5, 4⟩
def R.PCIE_ERRORS : Nat := 0x6000000E0030
def F.PCIE_ERRORS_CORRECTABLE : Fld := ⟨R.PCIE_ERRORS, 0, 16⟩
def F.PCIE_ERRORS_UNCORRECTABLE : Fld := ⟨R.PCIE_ERRORS, 16, 16⟩
def F.PCIE_ERRORS_SURPRISE_DOWN : Fld := ⟨R.PCIE_ERRORS, 32, 16⟩
def R.LINK_REJECTS : Nat := 0x6000000E0038
def F.LINK_REJECTS_COUNT : Fld := ⟨R.LINK_REJECTS, 0, 32⟩
def F.LINK_REJECTS_LAST_OFFSET : Fld := ⟨R.LINK_REJECTS, 32, 16⟩
def R.LINK_PEER (i : Nat) : Nat := 0x6000000E0100 + i * 0x8
def F.LINK_PEER_MODULE (i : Nat) : Fld := ⟨(R.LINK_PEER i), 0, 3⟩
def F.LINK_PEER_NOTIFY_UNIT (i : Nat) : Fld := ⟨(R.LINK_PEER i), 16, 16⟩
def R.PCIE_OB_CFG (k : Nat) : Nat := 0x6000000E0200 + k * 0x10
def F.PCIE_OB_CFG_ENABLE (k : Nat) : Fld := ⟨(R.PCIE_OB_CFG k), 0, 1⟩
def F.PCIE_OB_CFG_SIZE_LOG (k : Nat) : Fld := ⟨(R.PCIE_OB_CFG k), 1, 6⟩
def F.PCIE_OB_CFG_OWNER (k : Nat) : Fld := ⟨(R.PCIE_OB_CFG k), 8, 4⟩
def R.PCIE_OB_HOST (k : Nat) : Nat := 0x6000000E0208 + k * 0x10
def F.PCIE_OB_HOST_HOST (k : Nat) : Fld := ⟨(R.PCIE_OB_HOST k), 0, 64⟩
def R.PCIE_IB (k : Nat) : Nat := 0x6000000E0280 + k * 0x8
def F.PCIE_IB_ENABLE (k : Nat) : Fld := ⟨(R.PCIE_IB k), 0, 1⟩
def F.PCIE_IB_TARGET (k : Nat) : Fld := ⟨(R.PCIE_IB k), 30, 18⟩
def R.ZL_CTRL (k : Nat) : Nat := 0x6000000E0400 + k * 0x20
def F.ZL_CTRL_ENABLE (k : Nat) : Fld := ⟨(R.ZL_CTRL k), 0, 1⟩
def F.ZL_CTRL_RETRAIN (k : Nat) : Fld := ⟨(R.ZL_CTRL k), 1, 1⟩
def R.ZL_STATUS (k : Nat) : Nat := 0x6000000E0408 + k * 0x20
def F.ZL_STATUS_STATE (k : Nat) : Fld := ⟨(R.ZL_STATUS k), 0, 3⟩
def F.ZL_STATUS_PEER_MODULE (k : Nat) : Fld := ⟨(R.ZL_STATUS k), 3, 3⟩
def F.ZL_STATUS_LANES (k : Nat) : Fld := ⟨(R.ZL_STATUS k), 8, 8⟩
def F.ZL_STATUS_DOWNS (k : Nat) : Fld := ⟨(R.ZL_STATUS k), 16, 16⟩
def R.ZL_PEER (k : Nat) : Nat := 0x6000000E0410 + k * 0x20
def F.ZL_PEER_SERIAL (k : Nat) : Fld := ⟨(R.ZL_PEER k), 0, 64⟩
def R.ZL_COUNTS (k : Nat) : Nat := 0x6000000E0418 + k * 0x20
def F.ZL_COUNTS_CRC_ERRORS (k : Nat) : Fld := ⟨(R.ZL_COUNTS k), 0, 16⟩
def F.ZL_COUNTS_REPLAYS (k : Nat) : Fld := ⟨(R.ZL_COUNTS k), 16, 16⟩
def F.ZL_COUNTS_DUP_DROPS (k : Nat) : Fld := ⟨(R.ZL_COUNTS k), 32, 16⟩
def F.ZL_COUNTS_FEC_CORRECTED (k : Nat) : Fld := ⟨(R.ZL_COUNTS k), 48, 16⟩
def R.RLY_CFG (r : Nat) : Nat := 0x6000000E0480 + r * 0x10
def F.RLY_CFG_ENABLE (r : Nat) : Fld := ⟨(R.RLY_CFG r), 0, 1⟩
def F.RLY_CFG_RECEIVE (r : Nat) : Fld := ⟨(R.RLY_CFG r), 1, 1⟩
def F.RLY_CFG_LOCAL_SLOT (r : Nat) : Fld := ⟨(R.RLY_CFG r), 2, 5⟩
def F.RLY_CFG_PEER_MODULE (r : Nat) : Fld := ⟨(R.RLY_CFG r), 7, 3⟩
def F.RLY_CFG_PEER_SLOT (r : Nat) : Fld := ⟨(R.RLY_CFG r), 10, 5⟩
def F.RLY_CFG_TB (r : Nat) : Fld := ⟨(R.RLY_CFG r), 15, 3⟩
def R.RLY_STATUS (r : Nat) : Nat := 0x6000000E0488 + r * 0x10
def F.RLY_STATUS_ITEMS (r : Nat) : Fld := ⟨(R.RLY_STATUS r), 0, 32⟩
def F.RLY_STATUS_MISSING (r : Nat) : Fld := ⟨(R.RLY_STATUS r), 32, 16⟩
def F.RLY_STATUS_DISCARDS (r : Nat) : Fld := ⟨(R.RLY_STATUS r), 48, 16⟩
/-! ### POWER block (spec/16_power.md) -/
def R.PWR_CTRL : Nat := 0x6000000B0000
def F.PWR_CTRL_LOCK : Fld := ⟨R.PWR_CTRL, 0, 1⟩
def F.PWR_CTRL_WAKE : Fld := ⟨R.PWR_CTRL, 1, 1⟩
def R.PWR_STATUS : Nat := 0x6000000B0008
def F.PWR_STATUS_STATE : Fld := ⟨R.PWR_STATUS, 0, 3⟩
def F.PWR_STATUS_PHASE : Fld := ⟨R.PWR_STATUS, 3, 3⟩
def F.PWR_STATUS_WAKE_HELD : Fld := ⟨R.PWR_STATUS, 6, 1⟩
def F.PWR_STATUS_CAP_UNREACHABLE : Fld := ⟨R.PWR_STATUS, 7, 1⟩
def F.PWR_STATUS_LIMIT_STEP : Fld := ⟨R.PWR_STATUS, 8, 4⟩
def F.PWR_STATUS_OPP_EFF : Fld := ⟨R.PWR_STATUS, 12, 3⟩
def F.PWR_STATUS_PEAK_ACTIVE : Fld := ⟨R.PWR_STATUS, 15, 1⟩
def F.PWR_STATUS_OVERRIDE_ACTIVE : Fld := ⟨R.PWR_STATUS, 16, 1⟩
def F.PWR_STATUS_SUPPLY_LOSS : Fld := ⟨R.PWR_STATUS, 17, 1⟩
def R.PWR_CAP : Nat := 0x6000000B0010
def F.PWR_CAP_CAP : Fld := ⟨R.PWR_CAP, 0, 16⟩
def F.PWR_CAP_HYST : Fld := ⟨R.PWR_CAP, 16, 8⟩
def R.PWR_OPP : Nat := 0x6000000B0018
def F.PWR_OPP_OPP_REQ : Fld := ⟨R.PWR_OPP, 0, 3⟩
def F.PWR_OPP_OPP_EFF : Fld := ⟨R.PWR_OPP, 8, 3⟩
def F.PWR_OPP_CAP_STEP : Fld := ⟨R.PWR_OPP, 12, 4⟩
def F.PWR_OPP_THERMAL_STEP : Fld := ⟨R.PWR_OPP, 16, 4⟩
def F.PWR_OPP_PLANE_GAP : Fld := ⟨R.PWR_OPP, 20, 8⟩
def F.PWR_OPP_AE_LEVEL : Fld := ⟨R.PWR_OPP, 28, 2⟩
def F.PWR_OPP_CPU_LEVEL : Fld := ⟨R.PWR_OPP, 30, 2⟩
def F.PWR_OPP_MEM_HELD : Fld := ⟨R.PWR_OPP, 32, 1⟩
def R.PWR_LIMITS : Nat := 0x6000000B0020
def F.PWR_LIMITS_THROTTLE_C : Fld := ⟨R.PWR_LIMITS, 0, 8⟩
def F.PWR_LIMITS_THERMAL_HYST : Fld := ⟨R.PWR_LIMITS, 8, 8⟩
def F.PWR_LIMITS_CRIT_C : Fld := ⟨R.PWR_LIMITS, 16, 8⟩
def F.PWR_LIMITS_I_PEAK : Fld := ⟨R.PWR_LIMITS, 24, 16⟩
def R.PWR_OVERRIDE : Nat := 0x6000000B0028
def F.PWR_OVERRIDE_OVERRIDES : Fld := ⟨R.PWR_OVERRIDE, 0, 32⟩
def F.PWR_OVERRIDE_LAST_CAUSE : Fld := ⟨R.PWR_OVERRIDE, 32, 3⟩
def F.PWR_OVERRIDE_PEAK_EVENTS : Fld := ⟨R.PWR_OVERRIDE, 48, 16⟩
def R.PWR_MEAS : Nat := 0x6000000B0030
def F.PWR_MEAS_POWER_MW : Fld := ⟨R.PWR_MEAS, 0, 20⟩
def F.PWR_MEAS_VIN_MV : Fld := ⟨R.PWR_MEAS, 20, 16⟩
def F.PWR_MEAS_TJ_MAX : Fld := ⟨R.PWR_MEAS, 36, 12⟩
def R.PWR_VOTE : Nat := 0x6000000B0038
def F.PWR_VOTE_PART : Fld := ⟨R.PWR_VOTE, 0, 16⟩
def F.PWR_VOTE_CASTLE : Fld := ⟨R.PWR_VOTE, 16, 2⟩
def F.PWR_VOTE_HOST : Fld := ⟨R.PWR_VOTE, 18, 2⟩
def R.PWR_ENTRY_CFG : Nat := 0x6000000B0040
def F.PWR_ENTRY_CFG_DELAY_MAX_MS : Fld := ⟨R.PWR_ENTRY_CFG, 0, 16⟩
def F.PWR_ENTRY_CFG_PARK_PORTS : Fld := ⟨R.PWR_ENTRY_CFG, 16, 25⟩
def F.PWR_ENTRY_CFG_PARK_REFLEX : Fld := ⟨R.PWR_ENTRY_CFG, 41, 1⟩
def R.PWR_REFUSALS : Nat := 0x6000000B0048
def F.PWR_REFUSALS_REFUSALS : Fld := ⟨R.PWR_REFUSALS, 0, 16⟩
def F.PWR_REFUSALS_DELAY_TIMEOUTS : Fld := ⟨R.PWR_REFUSALS, 16, 16⟩
def F.PWR_REFUSALS_LAST_REFUSER : Fld := ⟨R.PWR_REFUSALS, 32, 16⟩
def F.PWR_REFUSALS_LAST_TARGET : Fld := ⟨R.PWR_REFUSALS, 48, 3⟩
def F.PWR_REFUSALS_LAST_KIND : Fld := ⟨R.PWR_REFUSALS, 51, 1⟩
def R.PWR_WAKE_CFG : Nat := 0x6000000B0050
def F.PWR_WAKE_CFG_SOURCES : Fld := ⟨R.PWR_WAKE_CFG, 0, 5⟩
def F.PWR_WAKE_CFG_WAKE_SLOTS : Fld := ⟨R.PWR_WAKE_CFG, 32, 32⟩
def R.PWR_WAKE_STATUS : Nat := 0x6000000B0058
def F.PWR_WAKE_STATUS_LAST_SOURCE : Fld := ⟨R.PWR_WAKE_STATUS, 0, 8⟩
def F.PWR_WAKE_STATUS_DETAIL : Fld := ⟨R.PWR_WAKE_STATUS, 8, 8⟩
def F.PWR_WAKE_STATUS_WAKES : Fld := ⟨R.PWR_WAKE_STATUS, 16, 16⟩
def R.PWR_WAKE_TIMER : Nat := 0x6000000B0060
def F.PWR_WAKE_TIMER_TIMER_MS : Fld := ⟨R.PWR_WAKE_TIMER, 0, 32⟩
def R.PWR_RESUME : Nat := 0x6000000B0068
def F.PWR_RESUME_ADDR : Fld := ⟨R.PWR_RESUME, 0, 48⟩
def R.PWR_TIMES : Nat := 0x6000000B0070
def F.PWR_TIMES_LAST_WAKE_US : Fld := ⟨R.PWR_TIMES, 0, 32⟩
def F.PWR_TIMES_LAST_ENTRY_US : Fld := ⟨R.PWR_TIMES, 32, 32⟩
def R.PWR_SAVE : Nat := 0x6000000B0078
def F.PWR_SAVE_WORDS : Fld := ⟨R.PWR_SAVE, 0, 18⟩
def F.PWR_SAVE_VALID : Fld := ⟨R.PWR_SAVE, 18, 1⟩
def F.PWR_SAVE_CRC_FAIL : Fld := ⟨R.PWR_SAVE, 19, 1⟩
def F.PWR_SAVE_CRC : Fld := ⟨R.PWR_SAVE, 32, 32⟩
def R.PWR_HOLDUP_CFG : Nat := 0x6000000B0080
def F.PWR_HOLDUP_CFG_VHOLD_MIN_MV : Fld := ⟨R.PWR_HOLDUP_CFG, 0, 16⟩
def F.PWR_HOLDUP_CFG_VHOLD_FULL_MV : Fld := ⟨R.PWR_HOLDUP_CFG, 16, 16⟩
def F.PWR_HOLDUP_CFG_CHARGE_FULL_MC : Fld := ⟨R.PWR_HOLDUP_CFG, 32, 24⟩
def R.PWR_HOLDUP : Nat := 0x6000000B0088
def F.PWR_HOLDUP_VHOLD_MV : Fld := ⟨R.PWR_HOLDUP, 0, 16⟩
def F.PWR_HOLDUP_CHARGE_LEFT_MC : Fld := ⟨R.PWR_HOLDUP, 16, 24⟩
def F.PWR_HOLDUP_ON_HOLDUP : Fld := ⟨R.PWR_HOLDUP, 40, 1⟩
def F.PWR_HOLDUP_FULL : Fld := ⟨R.PWR_HOLDUP, 41, 1⟩
def F.PWR_HOLDUP_DISAGREE : Fld := ⟨R.PWR_HOLDUP, 42, 1⟩
def F.PWR_HOLDUP_DISAGREEMENTS : Fld := ⟨R.PWR_HOLDUP, 48, 16⟩
def R.PWR_SUPPLY : Nat := 0x6000000B0090
def F.PWR_SUPPLY_VIN_LOSSES : Fld := ⟨R.PWR_SUPPLY, 0, 16⟩
def F.PWR_SUPPLY_BROWNOUTS : Fld := ⟨R.PWR_SUPPLY, 16, 16⟩
def F.PWR_SUPPLY_STEP_ABANDONS : Fld := ⟨R.PWR_SUPPLY, 32, 16⟩
def F.PWR_SUPPLY_RETURNS_DURING_SHUTDOWN : Fld := ⟨R.PWR_SUPPLY, 48, 16⟩
def R.PWR_REJECTS : Nat := 0x6000000B0098
def F.PWR_REJECTS_COUNT : Fld := ⟨R.PWR_REJECTS, 0, 32⟩
def F.PWR_REJECTS_LAST_OFFSET : Fld := ⟨R.PWR_REJECTS, 32, 16⟩
/-! ### CLOCK block (spec/16_power.md) -/
def R.CLK_CTRL : Nat := 0x6000000C0000
def F.CLK_CTRL_LOCK : Fld := ⟨R.CLK_CTRL, 0, 1⟩
def F.CLK_CTRL_SWITCH : Fld := ⟨R.CLK_CTRL, 1, 1⟩
def R.CLK_CFG : Nat := 0x6000000C0008
def F.CLK_CFG_PRIMARY : Fld := ⟨R.CLK_CFG, 0, 1⟩
def F.CLK_CFG_REVERTIVE : Fld := ⟨R.CLK_CFG, 1, 1⟩
def F.CLK_CFG_AUTO : Fld := ⟨R.CLK_CFG, 2, 1⟩
def F.CLK_CFG_HOLD_MS : Fld := ⟨R.CLK_CFG, 8, 8⟩
def F.CLK_CFG_QUAL_MS : Fld := ⟨R.CLK_CFG, 16, 16⟩
def F.CLK_CFG_TOL_PPM : Fld := ⟨R.CLK_CFG, 32, 16⟩
def R.CLK_STATUS : Nat := 0x6000000C0010
def F.CLK_STATUS_ACTIVE : Fld := ⟨R.CLK_STATUS, 0, 1⟩
def F.CLK_STATUS_ON_INTERNAL : Fld := ⟨R.CLK_STATUS, 1, 1⟩
def F.CLK_STATUS_A_QUALIFIED : Fld := ⟨R.CLK_STATUS, 2, 1⟩
def F.CLK_STATUS_B_QUALIFIED : Fld := ⟨R.CLK_STATUS, 3, 1⟩
def F.CLK_STATUS_SWITCHING : Fld := ⟨R.CLK_STATUS, 4, 1⟩
def F.CLK_STATUS_QUALIFYING : Fld := ⟨R.CLK_STATUS, 5, 1⟩
def F.CLK_STATUS_HOLDOVER : Fld := ⟨R.CLK_STATUS, 6, 1⟩
def F.CLK_STATUS_QUAL_ELAPSED_MS : Fld := ⟨R.CLK_STATUS, 16, 16⟩
def R.CLK_COUNTS : Nat := 0x6000000C0018
def F.CLK_COUNTS_LOSSES_A : Fld := ⟨R.CLK_COUNTS, 0, 16⟩
def F.CLK_COUNTS_LOSSES_B : Fld := ⟨R.CLK_COUNTS, 16, 16⟩
def F.CLK_COUNTS_SWITCHES : Fld := ⟨R.CLK_COUNTS, 32, 16⟩
def F.CLK_COUNTS_REVERTS : Fld := ⟨R.CLK_COUNTS, 48, 16⟩
def R.CLK_GATED_LO : Nat := 0x6000000C0020
def F.CLK_GATED_LO_GATED : Fld := ⟨R.CLK_GATED_LO, 0, 64⟩
def R.CLK_GATED_HI : Nat := 0x6000000C0028
def F.CLK_GATED_HI_GATED : Fld := ⟨R.CLK_GATED_HI, 0, 48⟩
def R.CLK_FAILED_LO : Nat := 0x6000000C0030
def F.CLK_FAILED_LO_FAILED : Fld := ⟨R.CLK_FAILED_LO, 0, 64⟩
def R.CLK_FAILED_HI : Nat := 0x6000000C0038
def F.CLK_FAILED_HI_FAILED : Fld := ⟨R.CLK_FAILED_HI, 0, 48⟩
def R.CLK_FREQ : Nat := 0x6000000C0040
def F.CLK_FREQ_FABRIC_MHZ : Fld := ⟨R.CLK_FREQ, 0, 16⟩
def F.CLK_FREQ_AE_MHZ : Fld := ⟨R.CLK_FREQ, 16, 16⟩
def F.CLK_FREQ_CPU_MHZ : Fld := ⟨R.CLK_FREQ, 32, 16⟩
def F.CLK_FREQ_FRAME_MHZ : Fld := ⟨R.CLK_FREQ, 48, 16⟩
def R.CLK_REJECTS : Nat := 0x6000000C0048
def F.CLK_REJECTS_COUNT : Fld := ⟨R.CLK_REJECTS, 0, 32⟩
def F.CLK_REJECTS_LAST_OFFSET : Fld := ⟨R.CLK_REJECTS, 32, 16⟩

end Sys2Proof
end

