-- ==== Sys2Proof/Machine/State.lean ====
section
/-!
DEFINITION. The state of the block, as plain data: every register in one register file keyed by its address, memory, and
the state of each unit that no register shows. State.reset is the block right after reset.
-/

namespace Sys2Proof.Machine

/-- Why a step of the block can stop with a fault. -/
inductive Fault where
  /-- Raised by no command: the spec gives every command an effect, and a module that STRAP_TEST stops (R492) is a state that
  answers nothing. Safe: nothing stops the model. -/
  | unused
  deriving DecidableEq, Repr

/-- Why a step of the block can be refused. -/
inductive Refusal where
  /-- A command whose meaning is not modelled; raised by an arm of `exec` alone. Safe: the model stops. -/
  | notModelled (mnemonic : String)
  deriving DecidableEq, Repr

/-- An event record of the event log ("Event record layout", 00_scope.md; R12). -/
structure EvRec where
  stamp : BitVec 128
  unit : Nat
  code : Nat
  sev : Nat
  part : Nat
  subject : Nat
  args : List Nat
  deriving DecidableEq, Repr

/-- The event log in the always-on memory: how many records were ever written and the newest 4,096 of them, oldest
first (R12). -/
structure EventLog where
  total : Nat
  ring : List EvRec
  deriving DecidableEq, Repr

/-- The half word kept for a requester after a low-word load: the register read and its bits [63:32] (R10). -/
structure HalfLatch where
  addr : Nat
  high : Nat
  deriving DecidableEq, Repr

/-- The epoch of a unit that answers requests, as far as no register shows it: the TIME_CLK cycle of its last increment,
and the state entry or load held until 2 µs have passed since (R19). -/
structure EpochRec where
  count : Nat
  last : Option Nat
  held : Option Nat
  heldReset : Bool
  deriving DecidableEq, Repr


/-! ### Timebases, phase domains and events (02_time.md) -/

/-- A qualification window of a timebase source (R34): cycle of its first and last observation, their number, and the
least and greatest offset seen in it, in 1/65,536 ns. -/
structure ObsWin where
  n : Nat
  first : Nat
  last : Nat
  lo : Int
  hi : Int
  off : Int
  deriving DecidableEq, Repr

/-- Timebase TB_n beyond its registers: its value in units of 2^-48 ns, the slew still pending in the same units, the
servo integral in 2^-16 RATE_ADJ units (R509), the count of consecutive observations within the lock threshold, the
cycle of the last observation the servo took, the cycle at which HOLDOVER began, and the qualification windows of gPTP
domain 0, domain 1 and the PPS input. -/
structure Tb where
  t48 : Nat
  slew : Int
  integral : Int
  lockRun : Nat
  lastObs : Option Nat
  holdStart : Nat
  win0 : ObsWin
  win1 : ObsWin
  win2 : ObsWin
  deriving DecidableEq, Repr

/-- Phase domain PH_k beyond its registers: phase in units of 2^-48 revolution (modulo 256 revolutions), the value one
cycle earlier, rate and rate_now (R42), the last observation (time in ns, value), whether the second observation is
still awaited (R506, R44), the runs of observations inside and outside LOCK_THRESHOLD, the cycle of the last
observation or of the enable, the software observation time (PH_k_SW_TIME), the line count of a camera source, and the
observations the source has delivered that the tracker has not yet acted on (time in ns, value). -/
structure Ph where
  acc : Nat
  prev : Nat
  rate : Nat
  rateNow : Nat
  last : Option (Int × Nat)
  awaitSecond : Bool
  good : Nat
  bad : Nat
  seen : Nat
  swTime : Nat
  line : Nat
  obs : List (Int × Nat)
  deriving DecidableEq, Repr

/-- Phase event PE_j beyond its registers: a match is due, whether it is late and whether a step crossed it (R46, R47),
its stamp, its instant in 1/65,536 ns of TIME_CLK, the cycle it matched in, and the phase matched. -/
structure Pe where
  due : Bool
  late : Bool
  step : Bool
  ts : BitVec 128
  inst : Nat
  cyc : Nat
  phase : Nat
  deriving DecidableEq, Repr

/-- PULSE_OUT_n beyond its registers: the start and end of the pulse in force, in 1/32 ns of TIME_CLK (R51). -/
structure Pulse where
  active : Bool
  start : Nat
  stop : Nat
  deriving DecidableEq, Repr

/-- One stamp of a capture FIFO (R52). -/
structure CapStamp where
  ts : BitVec 128
  phase : Nat
  phValid : Bool
  deriving DecidableEq, Repr

/-- One entry of the event FIFO (R52). -/
structure EvtEntry where
  ts : BitVec 128
  event : Nat
  late : Bool
  kind : Nat
  phase : Nat
  deriving DecidableEq, Repr

/-- The priority vector a MAC last received in a gPTP domain (R38): the root's priority word (priority1, class,
accuracy, variance, priority2, identity, most significant first), steps removed, the sender's port identity, and the
grandmaster identity. -/
structure GptpVec where
  root : Nat
  steps : Nat
  sender : Nat
  gmId : Nat
  deriving DecidableEq, Repr

/-- The TIME block beyond its registers: timebases, phase domains, phase events and pulse outputs by index; the stamps
of each capture input and of the event FIFO, oldest first (R52); the latches of each requester (R52, R53); the seconds
words of TB_n_SET_SEC; the priority vector each MAC last received in each gPTP domain, by 4 d + MAC (R38); the cycle of
each domain's last Sync; and the origin time last sent on each MAC, by 4 d + MAC. -/
structure TimeSt where
  tb : Map Tb
  ph : Map Ph
  pe : Map Pe
  pulse : Map Pulse
  cap : Map (List CapStamp)
  evt : List EvtEntry
  tsLatch : Map (BitVec 128)
  capLatch : Map CapStamp
  evtLatch : Map EvtEntry
  setSec : Map Nat
  vec : Map GptpVec
  syncAt : Map Nat
  syncSent : Map Nat
  deriving DecidableEq, Repr


/-! ### Ingest ports and queues (03_ingest.md) -/

/-- A closed item of a queue's ring: the pad left before it at the ring end, its start and padded size in 64-byte units
from RING_BASE, the header's fields, GAP, and whether its close has become visible (R59, R64, R79). -/
structure IqItem where
  pad : Nat
  off : Nat
  len : Nat
  seq : Nat
  gap : Bool
  prio : Nat
  stamp : BitVec 128
  length : Nat
  flags : Nat
  visible : Bool
  deriving DecidableEq, Repr

/-- The open item of a queue: its reservation, SEQUENCE, GAP, first stamp, whether a stamp in it carried HOLDOVER, and
for a CSI-2 frame its frame number, rows received, first row's bytes, whether a row had a packet error, and whether
anything was cut (R59 to R61). -/
structure IqOpen where
  pad : Nat
  off : Nat
  len : Nat
  seq : Nat
  gap : Bool
  stamp : BitVec 128
  frame : Nat
  rows : Nat
  rowBytes : Nat
  bad : Bool
  cut : Bool
  deriving DecidableEq, Repr

/-- What the frozen-sample detector keeps of a slot's last closed item: CRC (of the rows, for a camera), LENGTH, frame
number and the 32 × 32 sample points (R75). -/
structure FrozenKey where
  crc : Nat
  length : Nat
  frame : Nat
  grid : List Nat
  deriving DecidableEq, Repr

/-- Queue IQ_s and its slot beyond their registers: items from RELEASE on, how many of them were returned and how many
lie before MARK, the write position, the open item, the watermark, the next SEQUENCE, the SEQUENCE of the last item
queued since the slot was enabled, the last closed item and the run of matches, the firing stamps of the open expect
windows, and placeholders that wait for the open item to close (R59 to R66, R70, R75). -/
structure IqSt where
  items : List IqItem
  read : Nat
  mark : Nat
  wr : Nat
  opn : Option IqOpen
  above : Bool
  seq : Nat
  last : Option Nat
  prev : Option FrozenKey
  run : Nat
  expect : List (BitVec 128)
  owed : List (Nat × BitVec 128)
  deriving DecidableEq, Repr

/-- Encoder input ENC_e: live position, edges counted since the previous item, direction and error since then, the stamp
of the last counted edge, and whether an SSI transfer is in progress until a cycle (R55, R514). -/
structure EncSt where
  pos : Int
  edges : Nat
  dir : Bool
  err : Bool
  edgeTs : BitVec 128
  deriving DecidableEq, Repr

/-- An SPI transfer in progress: its header stamp, and whether a slot took the sample and its item is open (R514). -/
structure SpiSt where
  busy : Bool
  stamp : BitVec 128
  slot : Option Nat
  deriving DecidableEq, Repr

/-- The ingest ports beyond their registers: SPI masters, encoder inputs, and for each CSI-2 port the (virtual channel,
data type) pairs already counted in UNMATCHED in their frame, as vc × 64 + type; and the GPIO levels last sampled. -/
structure PortSt where
  spi : Map SpiSt
  enc : Map EncSt
  csiSeen : Map (List Nat)
  sampled : Nat
  deriving DecidableEq, Repr

/-! ### Alignment and the voxel engine (04_alignment.md, 05_voxel.md) -/

/-- Three FP32 words. -/
structure V3 where
  x : Nat
  y : Nat
  z : Nat
  deriving DecidableEq, Repr

/-- A bundle under construction or visible: its instant, sequence, FLAGS, DT_NS, ego rates and previous-frame transform,
stale and voted streams, coverage of the lidars, directory (offset, count), the bytes of its sections, and the items it
references as (slot, OFFSET64). -/
structure AlnBundle where
  stamp : BitVec 128
  seq : Nat
  flags : Nat
  dt : Nat
  omega : V3
  vel : V3
  rot : V3
  trans : V3
  stale : Nat
  voted : Nat
  cover : List Nat
  dir : List (Nat × Nat)
  body : List Byte
  refs : List (Nat × Nat)
  deriving DecidableEq, Repr

/-- A member of a vote group: its channel, whether it is admitted, its strikes (bit i: i bundles ago), and the count of
agreeing bundles while voted out (R99 to R101). -/
structure VoteMember where
  ch : Nat
  admitted : Bool
  strikes : Nat
  agree : Nat
  deriving DecidableEq, Repr

/-- A decoded point: source, slice, index in its sweep, body-frame position, time, intensity (FP16), ring, and whether its
item carried HOLDOVER or FROZEN_SUSPECT (R111). -/
structure VPoint where
  src : Nat
  slice : Nat
  idx : Nat
  p : V3
  t : Nat
  inten : Nat
  ring : Nat
  hold : Bool
  frozen : Bool
  deriving DecidableEq, Repr

/-- A sweep waiting for its registration: points, first and last instant in ns, and coverage (R94). -/
structure RegSweep where
  pts : List VPoint
  t0 : Nat
  t1 : Nat
  cover : Nat
  deriving DecidableEq, Repr

/-- An accepted registration: its mid instant and rates. -/
structure RegResult where
  mid : Nat
  omega : V3
  vel : V3
  deriving DecidableEq, Repr

/-- The alignment engine beyond its registers: accepted instants waiting with their sequences, the next sequence, the last
accepted instant with STEPS then, the bundle under construction, the dropped sequences no written bundle has followed yet, STEPS at the previous build, the previous written bundle's instant in ns, the items held by stream (OFFSET64,
ring order), the ego rates, the instant of the last bundle that used a source, the last accepted registration, the map of
the previous sweep as its points, sweeps waiting for registration, vote groups, and the visible unreleased bundles. -/
structure AlnSt where
  inst : List (BitVec 128 × Nat)
  seq : Nat
  lastInst : Option (BitVec 128 × Nat)
  build : Option AlnBundle
  dropped : List Nat
  steps : Option Nat
  prevTf : Option Nat
  held : Map (List Nat)
  omega : V3
  vel : V3
  coast : Nat
  reg : Option RegResult
  regMap : Option (List V3)
  sweeps : List RegSweep
  votes : Map (List VoteMember)
  bundles : List AlnBundle
  deriving DecidableEq, Repr

/-- A trigger of a voxel frame: t_v, its sequence, and the bundle's sequence if a bundle triggered it (R113). -/
structure VoxTrig where
  stamp : BitVec 128
  seq : Nat
  bundle : Option Nat
  deriving DecidableEq, Repr

/-- A voxel frame under construction: its trigger, FLAGS, whether it is in pillar mode, points dropped under check 5, its
header from byte 24 on, the regions of its slot as (offset, bytes), by source (COVERAGE, points decoded, points dropped),
by layer (built, sites, pairs, OVERFLOW, REFUSED). -/
structure VoxFrame where
  trig : VoxTrig
  flags : Nat
  pillar : Bool
  full : Nat
  header : List Byte
  regions : List (Nat × List Byte)
  srcs : List (Nat × Nat × Nat)
  layers : List (Bool × Nat × Nat × Bool × Bool)
  deriving DecidableEq, Repr

/-- The voxel engine beyond its registers: bundles made visible and not yet taken as triggers, accepted triggers waiting,
the next sequence, the last accepted t_v with STEPS then, the frame under construction, the dropped
sequences no written frame has followed yet, frames written since ENABLE or reset, the frames a fallback still lasts and whether none has used it yet, the items
held of each direct source (OFFSET64, ring order). -/
structure VoxSt where
  offered : List Nat
  trig : List VoxTrig
  seq : Nat
  last : Option (BitVec 128 × Nat)
  build : Option VoxFrame
  dropped : List Nat
  written : Nat
  fallback : Nat
  fresh : Bool
  held : Map (List Nat)
  deriving DecidableEq, Repr


/-! ### Squares (06_grid.md, 07_arithmetic.md, 08_layout.md) -/

/-- A tag of a square: 0 free, 1 outstanding, 2 done; its status; the epoch recorded for its destination (R141, R159). -/
structure SqTag where
  st : Nat
  status : Nat
  epoch : Option Nat
  deriving DecidableEq, Repr

/-- A burst of a transfer: source (none: zeros) and destination address and its length, in nibbles, each address with the module
where it is another's; and the bytes and poison a WRITE carries once it is issued (R206). -/
structure Burst where
  src : Option Nat
  srcMod : Option Nat
  dst : Nat
  dstMod : Option Nat
  len : Nat
  data : Option (List Byte × Bool)
  deriving DecidableEq, Repr

/-- A transfer of a DMA port or mover: bursts not issued, bursts in flight in issue order, the first answer that was not OK,
whether it stopped, whether poison was moved, the list entry it stops at once its bursts are answered, and the prior status
that entry gives (R201, R207, R210). -/
structure Xfer where
  todo : List Burst
  flight : List Burst
  status : Nat
  partialStop : Bool
  poison : Bool
  stopEntry : Option Nat
  deriving DecidableEq, Repr

/-- An operation of the tensor queue: its unit (0 array, 1 weight loader, 2 vector unit, 3 move unit, 4 DMA port), whether it
is TX.QUANT, its function code or move operation, the store offset of its descriptor and the descriptor's 64 bytes as issued,
its tag, whether it has started, its status once performed, and its transfer (R143). -/
structure TxOp where
  lane : Nat
  quant : Bool
  fn : Nat
  at_ : Nat
  desc : List Byte
  tag : Nat
  started : Bool
  result : Option Nat
  xfer : Option Xfer
  deriving DecidableEq, Repr

/-- A weight tile buffer: format code with the block-scale flag in bit 4, K_VALID, N_VALID, rows of element codes, and block
scales by block and column. -/
structure Tile where
  fmt : Nat
  k : Nat
  n : Nat
  rows : List (List Nat)
  scales : List (List Nat)
  deriving DecidableEq, Repr

/-- The array of a square: two tile buffers, which of them is ACTIVE (false: the first), the accumulator entries by
row × 64 + column, and the rows whose type tag is FP32 (R174, R182). -/
structure ArraySt where
  t0 : Tile
  t1 : Tile
  act : Bool
  acc : Map Nat
  f32 : Map Nat
  deriving DecidableEq, Repr

/-- A rest of a square: the register TX.REST returns in, where it was entered through TX.REST; whether through FORCE; the
UNIT_STATE and RUN to return to (R161). -/
structure SqRest where
  rd : Option Nat
  forced : Bool
  state : Nat
  run : Nat
  deriving DecidableEq, Repr

/-- An entry of an epoch cache outside the module's squares: module, unit, epoch (R159). -/
structure EpochEntry where
  module : Nat
  unit : Nat
  epoch : Nat
  deriving DecidableEq, Repr

/-- Square n beyond its registers: pc, x1 to x31, the sequencer CSRs (mstatus as MIE and MPIE), the value mcycle started
from against the FABRIC_CLK count, instructions retired, the latched TS64; whether a START begins at SQ_ENTRY; a load in
progress and whether a START follows it (R146, R503); WRITE bursts that the square issued before it was loaded or reset, and
whose answers it discards (R211); a fence that stands (R143); a rest offered or asked for and not yet
entered, and the rest in progress (R161); the 32 tags; the tensor queue; the array; the inbound queues IN_0 to IN_7; and
the epoch cache: for the module's squares the epoch + 1 by index, and the last 32 others, newest last (R159). -/
structure SqSt where
  pc : Nat
  x : Map Nat
  mie : Bool
  mpie : Bool
  ie : Nat
  mtvec : Nat
  mscratch : Nat
  mepc : Nat
  mcause : Nat
  mtval : Nat
  msgMask : Nat
  cycle0 : Nat
  instret : Nat
  ts : Nat
  fresh : Bool
  loading : Option Bool
  fence : Bool
  resting : Option SqRest
  rested : Option SqRest
  tags : Map SqTag
  txq : List TxOp
  arr : ArraySt
  inq : Map (List Msg)
  cache : Map Nat
  others : List EpochEntry
  orphans : List Burst
  deriving DecidableEq, Repr

/-! ### Analog planes (09_analog.md) -/

/-- The job a plane has in execution: its SEND, the next vector, TS64 of the first product's start and of the last product's
end, whether a stamp carried HOLDOVER, the first vector out of contract and how many, clipped conversions, the largest bound
of its vectors, header FLAGS gathered (RECAL, OVERRIDE, COLUMN_FAULT), the first answer other than OK and whether it stopped the job, whether poison was read, and what the header
shows of its last vector: CAL_GEN, TEMP, CONTRACT, OFFSET_EST, RMS_EST (R223, R233). -/
structure PlRun where
  msg : Msg
  vec : Nat
  t0 : Nat
  t1 : Nat
  hold : Bool
  oocFirst : Option Nat
  ooc : Nat
  clips : Nat
  bound : Nat
  recal : Bool
  ovr : Bool
  colFault : Bool
  status : Nat
  stop : Bool
  poison : Bool
  calGen : Nat
  temp : Nat
  contract : Nat
  offEst : Nat
  rmsEst : Nat
  deriving DecidableEq, Repr

/-- Plane PL_p beyond its registers (weights lie in memory, in its window): queued jobs in arrival order and the job in
execution; by column the stored CRC + 1 where one is stored; the opened columns (first, count) and whether a LOAD_OPEN waits
for the job in execution; off_est and ms (R229); calibrations requested, how many products already started may still end where a breach pauses the job for one, and the kind
in progress (0 offset, 1 full); the TIME_CLK cycle of the last calibration; products since the last full calibration and
consecutive failed ones (R234); the cycle of the last product or job; the forced trims in force and the converters whose
forced trim awaits a vector boundary; whether a policy written awaits one (R235); cycles of an override's start and of the
last application of the policy, and overrides in a row (R236); the column checked next (R220); the converters marked BAD by a weight check and by a calibration; the count of jobs started; and
the rest offered or asked for. -/
structure PlSt where
  queue : List Msg
  run : Option PlRun
  crc : Map Nat
  opened : Nat × Nat
  openWait : Bool
  off : Rat
  ms : Rat
  wantFull : Bool
  wantOffset : Bool
  breach : Option Nat
  cal : Option Nat
  calAt : Nat
  since : Nat
  fails : Nat
  lastProduct : Nat
  force : Map Nat
  forceWait : List Nat
  policyWait : Bool
  ovrAt : Option Nat
  appliedAt : Option Nat
  ovrRun : Nat
  checkCol : Nat
  wbad : List Nat
  cbad : List Nat
  jobSeq : Nat
  restForced : Bool
  deriving DecidableEq, Repr

/-! ### Attention engines and the key-value cache (10_attention.md) -/

/-- A partial of one row and head: m, l and acc as FP32 words (R259). -/
structure AePart where
  m : Nat
  l : Nat
  acc : List Nat
  deriving DecidableEq, Repr

/-- What an engine returns for its slice of an entry: its partials by row and head, RESULT flags, pages read, and whether a
key-value head's list read poisoned data (R257, R263, R276). -/
structure AeSlice where
  parts : List AePart
  flags : Nat
  pages : Nat
  bad : List Nat
  nans : List Nat
  deriving DecidableEq, Repr

/-- A job of an engine in execution: its SEND, its number in the order jobs were started on all engines, the entry of an ATTEND
it works on, its status so far, the engines that compute the entry with what each has returned, the pages a waiting APPEND
needs with what it evicted, whether only the ACK is missing, and the
length table as it was read at the start (R244, R253, R263, R273). -/
structure AeRun where
  msg : Msg
  job : Nat
  entry : Nat
  status : Nat
  slices : List (Nat × Option AeSlice)
  evicted : Nat
  waiting : Bool
  finished : Bool
  lt : List Byte
  deriving DecidableEq, Repr

/-- A slice an engine owes: the receiving engine, its job's number, and the slice's place (R263). -/
structure AeHelp where
  owner : Nat
  job : Nat
  place : Nat
  deriving DecidableEq, Repr

/-- Engine AE_e beyond its registers (bias tables lie in memory, in its window): queued jobs in arrival order, the job in
execution, the batch job a latency job made yield (R264), and the slices it owes. -/
structure AeSt where
  queue : List Msg
  run : Option AeRun
  yielded : Option AeRun
  help : List AeHelp
  deriving DecidableEq, Repr

/-- A page in limbo: its ID, its pool, and the jobs that were in execution when it was freed (R273). -/
structure Limbo where
  page : Nat
  pool : Nat
  jobs : List Nat
  deriving DecidableEq, Repr

/-- The key-value cache beyond its registers and tables: pages in limbo, depth of each pool's free stack (retired pages on it
included, R422), and the number of the last job started. -/
structure KvSt where
  limbo : List Limbo
  depth : Map Nat
  job : Nat
  deriving DecidableEq, Repr

/-! ### The collision checker (11_planner.md) -/

/-- A joint of the robot model: QMIN, QMAX, VMAX, AMAX, FP32. -/
structure CcJoint where
  qmin : Nat
  qmax : Nat
  vmax : Nat
  amax : Nat
  deriving DecidableEq, Repr

/-- A link: PARENT, TYPE, AXIS, JOINT, OFFSET_T, OFFSET_Q (w, x, y, z), Q_OFFSET. -/
structure CcLink where
  parent : Nat
  typ : Nat
  axis : Nat
  joint : Nat
  offT : V3
  offQ : List Nat
  qOff : Nat
  deriving DecidableEq, Repr

/-- A capsule: LINK, PROBES, FIELDS, its axis end points in the link frame, RADIUS. -/
structure CcCap where
  link : Nat
  probes : Nat
  fields : Nat
  a : V3
  b : V3
  radius : Nat
  deriving DecidableEq, Repr

/-- The robot model (R287). -/
structure CcModel where
  tag : Nat
  joints : List CcJoint
  links : List CcLink
  caps : List CcCap
  deriving DecidableEq, Repr

/-- The signed-distance volume: bricks along x, y and z, CELL_MM, D_UNIT_MM, ORG, the brick index, the pool bricks, TV (R289). -/
structure CcSdf where
  nx : Nat
  ny : Nat
  nz : Nat
  cell : Nat
  dUnit : Nat
  org : V3
  index : List Nat
  pool : List Byte
  tv : Nat
  deriving DecidableEq, Repr

/-- The occupancy distance field: size, CELL_MM, POSE (x, y, yaw), X_MIN, Y_MIN, Z_LO_CM, Z_HI_CM, distances in mm, TV (R290). -/
structure CcBev where
  w : Nat
  h : Nat
  cell : Nat
  pose : V3
  xMin : Nat
  yMin : Nat
  zLo : Int
  zHi : Int
  field : List Nat
  tv : Nat
  deriving DecidableEq, Repr

/-- A trajectory: its header fields and its samples, FP32, sample by sample ("Trajectory header"). -/
structure Traj where
  id : Nat
  state : Nat
  samples : Nat
  joints : Nat
  flags : Nat
  t0 : Nat
  dt : Nat
  alpha : Nat
  cMin : Nat
  tag : Nat
  cand : Nat
  tb : Nat
  tSwitch : Nat
  q : List Nat
  deriving DecidableEq, Repr

/-- The verdict of a candidate evaluated, with its TAG and the values tested (R294). -/
structure CcVerdict where
  cMin : Nat
  cost : Nat
  alpha : Nat
  reason : Nat
  sample : Nat
  item : Nat
  tag : Nat
  q : List Nat
  deriving DecidableEq, Repr

/-- A CHECK in execution: its SEND, whether it waits for a switch (R300), the verdicts so far, T_START, the TS64 of its choice or
STALEMATE with the STALEMATE's reason, PARTIAL and ENV_STALE (R299). -/
structure CcRun where
  msg : Msg
  waiting : Bool
  verdicts : List CcVerdict
  tStart : Nat
  ended : Option (Nat × Nat)
  cut : Bool
  stale : Bool
  deriving DecidableEq, Repr

/-- A fallback build: its cause, the instant t_n, and the active trajectory it is built from (R306). -/
structure CcBuild where
  cause : Nat
  tn : Nat
  src : Traj
  deriving DecidableEq, Repr

/-- The collision checker beyond its registers: jobs waiting in arrival order, the CHECK in execution, the model, the two
fields, the two trajectory slots, the last STAGE_ID given, the fields the last CHECK used (bit 0 SDF, bit 1 BEV), and the
fallback being built. -/
structure CcSt where
  queue : List Msg
  run : Option CcRun
  model : Option CcModel
  sdf : Option CcSdf
  bev : Option CcBev
  active : Option Traj
  staged : Option Traj
  lastId : Nat
  lastEnv : Nat
  build : Option CcBuild
  deriving DecidableEq, Repr



/-! ### The reflex unit and egress (12_dynamics.md) -/

/-- A frame waiting for its port: its bytes and its place in the order frames became ready (R338, R341). -/
structure EgWait where
  bytes : List Byte
  ready : Nat
  deriving DecidableEq, Repr

/-- Egress slot EG_s beyond its registers: the waiting frame, the sequence count, and the commands seen since the last
DYN fill (R337, R338). -/
structure EgSt where
  wait : Option EgWait
  seq : Nat
  cmds : Nat
  deriving DecidableEq, Repr

/-- Gate control list of a MAC in force: whether its first cycle has begun, the list loaded at the last cycle boundary as
(gates, interval), the entry, its start on the list's timebase in ns, and the timebase's
STEPS when the cycle began (R341). -/
structure GclSt where
  running : Bool
  list : List (Nat × Nat)
  entryAt : Nat
  steps : Nat
  deriving DecidableEq, Repr

/-- The reflex unit and egress beyond their registers: truth of the tap triggers by rule, the end cycle of a pulse by
pin, the slots, the next ready number, the gate control lists by MAC, the cycle until which a received pause holds a
MAC, the last frame each port sent (MAC p, then 8 + b for CAN_b), and each tap's value and TS64 before its latest (R317). -/
structure ReflexSt where
  truth : Map Nat
  pulse : Map Nat
  eg : Map EgSt
  order : Nat
  gcl : Map GclSt
  held : Map Nat
  sent : Map (List Byte)
  tapPrev : Map (Option (Nat × Nat))
  deriving DecidableEq, Repr

/-! ### The dynamics unit (12_dynamics.md) -/

/-- A body of the body tree ("Body record"); floating-point fields as FP32 words. -/
structure DynBody where
  parent : Nat
  typ : Nat
  axis : Nat
  dof : Nat
  offT : V3
  offQ : List Nat
  mass : Nat
  com : V3
  inertia : List Nat
  armature : Nat
  damping : Nat
  qOff : Nat
  deriving DecidableEq, Repr

/-- A degree of freedom: QMIN, QMAX, VMAX, AMAX, TAU_MIN, TAU_MAX, ACTUATED. -/
structure DynDof where
  qmin : Nat
  qmax : Nat
  vmax : Nat
  amax : Nat
  tmin : Nat
  tmax : Nat
  act : Bool
  deriving DecidableEq, Repr

/-- A point contact. -/
structure DynContact where
  body : Nat
  point : V3
  normal : V3
  mu : Nat
  fnMax : Nat
  deriving DecidableEq, Repr

/-- A measurement entry. -/
structure DynMeas where
  posKind : Nat
  posTap : Nat
  velKind : Nat
  velTap : Nat
  posScale : Nat
  posOffset : Nat
  velScale : Nat
  deriving DecidableEq, Repr

/-- The body-tree model, with its image (R316). -/
structure DynModel where
  tag : Nat
  floating : Bool
  gravity : V3
  bodies : List DynBody
  dofs : List DynDof
  contacts : List DynContact
  meas : List DynMeas
  image : List Byte
  deriving DecidableEq, Repr

/-- A task record. -/
structure DynTask where
  kind : Nat
  body : Nat
  mask : Nat
  mode : Nat
  weight : Nat
  kp : Nat
  kd : Nat
  point : V3
  target : Nat
  deriving DecidableEq, Repr

/-- The reference of a cycle, FP64 (R319). -/
structure DynRef where
  q : List Nat
  qd : List Nat
  qdd : List Nat
  stage : Nat
  tentative : Bool
  deriving DecidableEq, Repr

/-- A cycle's snapshot (R317): T_TRIGGER and t_c, base position and quaternion, joint positions and velocities by degree of freedom
(FP64), the contact mask, the reference, the target records by task, and whether a value was invalid, stale, or in holdover. -/
structure DynSnap where
  trig : Nat
  cmdAt : Nat
  basePos : List Nat
  baseQuat : List Nat
  q : List Nat
  qd : List Nat
  contacts : Nat
  ref : Option DynRef
  refSource : Nat
  targets : List (List Nat)
  bad : Bool
  stale : Bool
  hold : Bool
  deriving DecidableEq, Repr

/-- The values of the last command emitted, FP64, with its reference's STAGE_ID and TENTATIVE and LIMIT_CONFLICT (R327). -/
structure DynVals where
  tau : List Nat
  q : List Nat
  qd : List Nat
  qdd : List Nat
  stage : Nat
  tentative : Bool
  deriving DecidableEq, Repr

/-- The last solution that yielded a new command, with its REF_SOURCE (R327). -/
structure DynWarm where
  x : List Nat
  z : List Nat
  y : List Nat
  refSource : Nat
  deriving DecidableEq, Repr

/-- The dynamics unit beyond its registers: jobs waiting in arrival order, the job a trigger paused, the model, the tasks with their
records' bytes, the solve in progress, the last command, the warm start, and the run of reused commands. -/
structure DynSt where
  queue : List Msg
  paused : Option Msg
  model : Option DynModel
  tasks : List DynTask
  taskImage : List Byte
  solve : Option DynSnap
  last : Option DynVals
  warm : Option DynWarm
  reuse : Nat
  deriving DecidableEq, Repr


/-! ### Mailboxes and the image (13_mailbox.md) -/

/-- The sequencer's view of a unit: state, epoch, and partition, 8 for none (R355). -/
structure UnitView where
  state : Nat
  epoch : Nat
  part : Nat
  deriving DecidableEq, Repr

/-- A command in execution at a mailbox: its 64 bytes, whether it was accepted under R350, its status once known, the result
words, whether an event record was written, the cycle it started, the objects it holds (R351), whether its operation has been
begun, and what it waits for. -/
structure MbExec where
  cmd : List Byte
  accepted : Bool
  status : Option Nat
  vals : List Nat
  logged : Bool
  start : Nat
  holds : List Nat
  ran : Bool
  wait : List Nat
  deriving DecidableEq, Repr

/-- A mailbox beyond its registers: the response of its last accepted command, and the command in execution (R347, R350). -/
structure MbSt where
  cache : List Byte
  exec : Option MbExec
  deriving DecidableEq, Repr

/-- The mailbox sequencer: the mailboxes, its view of the units by unit ID (an unlisted one READY, epoch 0, no partition), and
the mailbox whose turn it is among MB_2 to MB_15 (R347, R355). -/
structure MbxSt where
  mb : Map MbSt
  view : Map UnitView
  turn : Nat
  deriving DecidableEq, Repr

/-- A time-shared square's saved context: the sequencer, tags and tile buffers of the partition that is not running, with the
SQ_STATE.RUN, unit state, SQ_ENTRY, SQ_PC and IN_HANDLER it was saved with; the switch that is due, to the first partition's
context (0), to the second's (1) or to neither (2); and whether neither runs now (R364). -/
structure ShareCtx where
  sq : SqSt
  run : Nat
  state : Nat
  entry : Nat
  pc : Nat
  handler : Nat
  due : Option Nat
  idle : Bool
  deriving DecidableEq, Repr

/-- The time-window schedule in force: whether its first cycle has begun, its timebase, the entries as (RUN, LENGTH_NS) fitted to
the cycle, the start of the entry in force, the timebase's STEPS when the cycle began; and the saved contexts of time-shared
squares (R363, R364). -/
structure SchedSt where
  running : Bool
  tb : Nat
  wins : List (Nat × Nat)
  entryAt : Nat
  steps : Nat
  ctx : Map ShareCtx
  deriving DecidableEq, Repr

/-- The NOR (an unlisted byte is erased, 0xFF), the header of the active bank as its last verified boot left it, the castle
program loaded, and the HOST_BOOT sections loaded as (partition, ENTRY, LOAD_ADDR) (R368, R401, R489, R490). -/
structure ImgSt where
  nor : Map Byte
  header : List Byte
  prog : List Byte
  hosts : List (Nat × Nat × Nat)
  deriving DecidableEq, Repr


/-! ### The castle (14_safety.md) -/

/-- Stage clock SC_n beyond its registers: the cycle of ARM or of its last kick, and whether a token has been set since
ARM (R391, R392). -/
structure ScSt where
  at_ : Nat
  token : Bool
  deriving DecidableEq, Repr

/-- Task supervisor TS_t beyond its registers: the cycles of its last ACT and START (R394). -/
structure TsSt where
  act : Nat
  start : Nat
  deriving DecidableEq, Repr

/-- Frozen-frame detector of a slot: ITEMS and MISSING_ITEMS at its last sample (R395). -/
structure FzSt where
  items : Nat
  missing : Nat
  deriving DecidableEq, Repr

/-- One channel of an open frame: the elements taken, as FP32 words, whether all have come, whether it is INVALID, and
REDUCED_COVERAGE (R384, R385). -/
structure CpChan where
  vals : List Nat
  complete : Bool
  invalid : Bool
  reduced : Bool
  deriving DecidableEq, Repr

/-- The open frame of a comparison point: FRAME_SEQ, the cycle it opened, its channels, and whether a frozen or missing
input stood when it opened (R384, R395). -/
structure CpFrame where
  seq : Nat
  opened : Nat
  a : CpChan
  b : CpChan
  frozen : Bool
  deriving DecidableEq, Repr

/-- A plane report kept for a comparison point: FRAME_SEQ, ERR_BOUND, ERR_WORST, and whether it carries OUT_OF_CONTRACT
or COLUMN_FAULT (R386). -/
structure CpReport where
  seq : Nat
  bound : Nat
  worst : Nat
  bad : Bool
  deriving DecidableEq, Repr

/-- Comparison point CP_c beyond its registers: the open frame, the last frame opened, HOLD_SEQ, the outcomes of the last
verdicts (true for SUSPECT, newest first), and the plane reports received (R384 to R390). -/
structure CpSt where
  opn : Option CpFrame
  last : Option Nat
  hold : Option Nat
  outs : List Bool
  reports : List CpReport
  deriving DecidableEq, Repr

/-- The self-test rotation: the entry whose test is due next, the cycle the entry in progress and the rotation started,
the unit under test, whether FORCE has been written, RESTS and FAILS of a resting unit when its entry began, and consecutive
time-outs by unit (R396, R397). -/
structure RotSt where
  next : Nat
  entryAt : Nat
  rotAt : Nat
  unit : Option Nat
  forced : Bool
  rests : Nat
  fails : Nat
  timeouts : Map Nat
  deriving DecidableEq, Repr

/-- The castle beyond its registers: the inbox (each message's header and first 48 payload bytes, oldest first; R380),
stage clocks, supervisors, detectors, comparison points and the rotation; whether the castle cores run; the cycle of the
first castle fault of its window; the cycles of past decisions; the cycle of the decision a restart answers; and how far the
restart is: 0 the partition resets are due, 1 they are delivered, 2 the image is applied (R381, R382, R400 to R405). -/
structure CastleSt where
  inbox : List Msg
  sc : Map ScSt
  ts : Map TsSt
  fz : Map FzSt
  cp : Map CpSt
  rot : RotSt
  running : Bool
  faultAt : Option Nat
  decisions : List Nat
  restartAt : Option Nat
  stage : Nat
  deriving DecidableEq, Repr

/-! ### Memory controllers and encryption (15_memory.md) -/

/-- A DRAM range whose key was renewed: bytes nothing has written since read as unrelated values (R424). -/
structure Rekey where
  lo : Nat
  hi : Nat
  id : Nat
  deriving DecidableEq, Repr

/-- The memory controllers beyond their registers: interface bytes charged in the window in progress, by controller × 16 +
partition (8 for traffic of none); and the package lines each scrubber has read (R419, R421). -/
structure McSt where
  charge : Map Nat
  scrub : Map Nat
  deriving DecidableEq, Repr

/-- The answer to a command's memory access: status, data, a poisoned response, an access-fault exception at the core that
made it (R425), Unsupported Request (R430), and the host address an outbound access translated to (R434). -/
structure AccRes where
  status : Nat
  data : List Byte
  poison : Bool
  coreFault : Bool
  unsupported : Bool
  hostAddr : Nat
  deriving DecidableEq, Repr

/-- The host cluster: cores out of reset, as a mask; the address each started at; mtime; mtimecmp by core; and the machine
timer interrupts pending, as a mask (R425, R428, R490). -/
structure CoreSt where
  running : Nat
  entry : Map Nat
  mtime : Nat
  cmp : Map Nat
  timer : Nat
  deriving DecidableEq, Repr

/-- The PCIe port beyond its registers: PERST_N asserted, link training in progress, and the register files of the IOMMUs by
address (R430, R431, R491). -/
structure PcieSt where
  perst : Bool
  training : Bool
  iommu : Map Word
  deriving DecidableEq, Repr

/-- The receiving end of a Zorra link: the sequence number due next (R441). -/
structure ZlSt where
  due : Nat
  deriving DecidableEq, Repr

/-- An item a transmit relay sent: the peer module and its queue, and the item (R444). -/
structure RelaySent where
  module : Nat
  slot : Nat
  item : List Byte
  deriving DecidableEq, Repr

/-- Links beyond their registers: each link's receiving end; the serials known and whether the forming window has ended
(R438); the members in ascending order and the trained links of the other modules (R439); and items sent by transmit relays,
oldest first (R444). -/
structure LinkSt where
  zl : Map ZlSt
  known : List Nat
  ended : Bool
  members : List Nat
  edges : List (Nat × Nat)
  sent : List RelaySent
  deriving DecidableEq, Repr


/-! ### Power, clocks and start-up (16_power.md, 17_hardware.md) -/

/-- Power states beyond their registers: the target of the entry in progress and the cycle of its commit, the mailbox whose
POWER_STATE it answers and that command's status once known, a wake held during the entry as (cause, detail), the cycle a
wake started, and a safe-state decision to be taken at the end of the wake as (cause, detail) (R451 to R458); the units the
entry powered down while quarantined and those PARK switched off (R354, R450), whether the retention rail failed (R461), and whether VAON is present (R476). -/
structure PwrSt where
  target : Nat
  entryAt : Nat
  mb : Option Nat
  result : Option Nat
  held : Option (Nat × Nat)
  wakeAt : Nat
  safeNext : Option (Nat × Nat)
  quar : List Nat
  down : List Nat
  lost : Bool
  vaon : Bool
  shutAt : Nat
  deriving DecidableEq, Repr

/-- The two loops and the voltage-frequency sequencer beyond their registers: the operating point in force and the one a step
in progress moves to (R463); the fall recorded for each step the cap loop holds, newest first, the power at the raise whose
fall the next window measures, and the windows the release condition has held for (R466); and the ticks the hottest sensor
has read below the release threshold (R469). -/
structure LoopSt where
  opp : Nat
  step : Option Nat
  falls : List Nat
  raised : Option Nat
  calm : Nat
  cool : Nat
  deriving DecidableEq, Repr

/-- The reference a switch in progress moves to: 0 REFCLK_A, 1 REFCLK_B; and whether it is a revertive one (R472, R473). -/
structure ClkSt where
  dst : Option Nat
  revert : Bool
  deriving DecidableEq, Repr

/-- How far the module is powered: 0 OFF, 1 waiting for VIN at step 4, 2 booting, 3 booted, 4 stopped in factory test (R484, R492);
the cause of the boot in
progress; and the straps as latched: root port, hold-up bank, REFCLK_B fitted (R492). -/
structure BootSt where
  phase : Nat
  cause : Nat
  rootPort : Bool
  holdup : Bool
  refB : Bool
  deriving DecidableEq, Repr

/-- The block. -/
structure State where
  /-- The commands waiting, first in, first out. -/
  pending : List Instr
  /-- TIME_CLK cycles since the state after reset (log entry 3). -/
  now : Nat
  /-- The model's own: how many free values have been drawn (log entry 5). -/
  freeCtr : Nat
  /-- The control registers, by address; an unlisted register holds its reset value. -/
  csr : Map Word
  /-- Memory, by address; an unlisted byte reads zero (log entry 2). -/
  mem : List Host.Cell
  /-- The event log (R12). -/
  log : EventLog
  /-- The half word kept for each requester (R10). -/
  half : Map HalfLatch
  /-- Epoch bookkeeping, by unit ID (R19). -/
  epoch : Map EpochRec
  /-- Interrupt sources raised and not yet taken, bit i for source i (R429). -/
  irq : Nat
  /-- MSI-X vectors raised to the PCIe host, bit v for vector v. -/
  msix : Nat
  /-- Pending identities of the IMSIC interrupt files, by core × 16 + file (0 machine, 1 supervisor, 2 to 8 guest), as a mask (R429). -/
  imsic : Map Nat
  /-- Castle interrupts raised so far. -/
  castleIrq : Nat
  /-- The data the last register read returned. -/
  rdata : Word
  /-- The TIME block beyond its registers (02_time.md). -/
  time : TimeSt
  /-- Queue IQ_s and its slot beyond their registers (03_ingest.md). -/
  iq : Map IqSt
  /-- The ingest ports beyond their registers (03_ingest.md). -/
  port : PortSt
  /-- The alignment engine beyond its registers (04_alignment.md). -/
  aln : AlnSt
  /-- The voxel engine beyond its registers (05_voxel.md). -/
  vox : VoxSt
  /-- Squares beyond their registers (06_grid.md). -/
  sq : Map SqSt
  /-- FABRIC_CLK cycles run so far, in thousandths (log entry 20). -/
  fab : Nat
  /-- Messages sent and not yet arrived, oldest first (R152). -/
  net : List Msg
  /-- Unit state code of the units no register shows it for (alignment and voxel engine, DMA movers, memory controllers), by unit ID; an unlisted one is READY. -/
  unitSt : Map Nat
  /-- Planes beyond their registers (09_analog.md). -/
  pl : Map PlSt
  /-- Attention engines beyond their registers (10_attention.md). -/
  ae : Map AeSt
  /-- The key-value cache beyond its registers and tables (10_attention.md). -/
  kv : KvSt
  /-- The memory controllers beyond their registers (15_memory.md). -/
  mc : McSt
  /-- DRAM ranges whose key was renewed, newest first (R424). -/
  rekey : List Rekey
  /-- The collision checker beyond its registers (11_planner.md). -/
  cc : CcSt
  /-- The reflex unit and egress beyond their registers (12_dynamics.md). -/
  rfx : ReflexSt
  /-- The dynamics unit beyond its registers (12_dynamics.md). -/
  dyn : DynSt
  /-- The mailbox sequencer (13_mailbox.md). -/
  mbx : MbxSt
  /-- The time-window schedule (13_mailbox.md). -/
  sched : SchedSt
  /-- The configuration image and the boot images (13_mailbox.md, 17_hardware.md). -/
  img : ImgSt
  /-- The castle beyond its registers (14_safety.md). -/
  castle : CastleSt
  /-- Poisoned DRAM lines, by address / 64 (R416, R417). -/
  poison : Map Nat
  /-- Local-store words whose check bits are uncorrectable, by address / 8 (R139, R193, R210). -/
  badWords : Map Nat
  /-- The answer to the last memory or PCIe access a command made. -/
  acc : AccRes
  /-- The host cluster (15_memory.md). -/
  cores : CoreSt
  /-- The PCIe port beyond its registers (15_memory.md). -/
  pcie : PcieSt
  /-- Zorra links beyond their registers (15_memory.md). -/
  link : LinkSt
  /-- Power states beyond their registers (16_power.md). -/
  pwr : PwrSt
  /-- The cap loop, the thermal loop and the voltage-frequency sequencer beyond their registers (16_power.md). -/
  loops : LoopSt
  /-- The clock reference switch in progress (16_power.md). -/
  clk : ClkSt
  /-- Power-up and straps (17_hardware.md). -/
  boot : BootSt
  deriving DecidableEq, Repr

/-- The registers set from fuses, for a GLX-8800 with every unit present (log entry 4), and SAFE_STATUS as step 18 of
the power-up leaves it (R487). -/
def fuseCsr : Map Word := [
  (0x600000000000, 0x0000000188005642#64),  -- IDENT
  (0x600000000008, 0x0000000003212122#64),  -- REVISION
  (0x600000000010, 1#64),                   -- SERIAL
  (0x600000000018, 0xFFFFFFFFFFFFFFFF#64),  -- SQUARE_MASK
  (0x600000000020, 0xFFFFFFFF#64),          -- PLANE_MASK
  (0x600000000028, 0xFF#64),                -- AE_MASK
  (0x600000000030, 0xFFF#64),               -- CORE_MASK
  (0x600000000038, 0xF7#64),                -- FEATURE_MASK
  (0x600000020020, 0xF00#64),               -- CFG_OTP: four key slots programmed, none revoked, floor 0
  (0x6000000A0008, 14#64),                  -- SAFE_STATUS: HELD, SAFE_HOLD asserted, hold generator running (R487)
  (0x6000000D0010, 0x70FF#64)]              -- MC_STATUS: eight controllers, 112 GiB

/-- The block right after reset: every register at its reset value (an unlisted register reads as its row of the register
table says, and the registers set from fuses are listed here, log entry 4), memory with nothing listed, no command
waiting. -/
def State.reset : State where
  pending := []
  now := 0
  freeCtr := 0
  csr := fuseCsr
  mem := []
  log := ⟨0, []⟩
  half := []
  epoch := []
  irq := 0
  msix := 0
  imsic := []
  castleIrq := 0
  rdata := 0
  time := ⟨[], [], [], [], [], [], [], [], [], [], [], [], []⟩
  iq := []
  port := ⟨[], [], [], 0⟩
  aln := ⟨[], 0, none, none, [], none, none, [], ⟨0, 0, 0⟩, ⟨0, 0, 0⟩, 0, none, none, [], [], []⟩
  vox := ⟨[], [], 0, none, none, [], 0, 0, false, []⟩
  sq := []
  fab := 0
  net := []
  unitSt := []
  pl := []
  ae := []
  kv := ⟨[], [], 0⟩
  mc := ⟨[], []⟩
  rekey := []
  cc := ⟨[], none, none, none, none, none, none, 0, 0, none⟩
  rfx := ⟨[], [], [], 0, [], [], [], []⟩
  dyn := ⟨[], none, none, [], [], none, none, none, 0⟩
  mbx := ⟨[], [], 2⟩
  sched := ⟨false, 0, [], 0, 0, []⟩
  img := ⟨[], [], [], []⟩
  castle := ⟨[], [], [], [], [], ⟨0, 0, 0, none, false, 0, 0, []⟩, true, none, [], none, 0⟩
  poison := []
  badWords := []
  acc := ⟨0, [], false, false, false, 0⟩
  cores := ⟨0, [], 0, [], 0⟩
  pcie := ⟨true, false, []⟩
  link := ⟨[], [], false, [], [], []⟩
  pwr := ⟨3, 0, none, none, none, 0, none, [], [], false, true, 0⟩
  loops := ⟨7, none, [], none, 0, 0⟩
  clk := ⟨none, false⟩
  boot := ⟨3, 0, false, true, true⟩

end Sys2Proof.Machine
end

