-- ==== Sys2Proof/Machine/Ops.lean ====
section
/-!
DEFINITION. The operations every meaning is built from: the sparse map, registers and their fields, memory, saturating
and wrapping counters, the event log, requesters and their partitions, unit states and epochs, and messages.
-/

namespace Sys2Proof

/-- Whether a row of the register table covers a block offset. -/
def RegSpec.covers (r : RegSpec) (o : Nat) : Bool :=
  decide (r.off ≤ o) && decide ((o - r.off) / r.s1 < r.n1) &&
    decide ((o - r.off) % r.s1 / r.s2 < r.n2) && decide ((o - r.off) % r.s1 % r.s2 = 0)

/-- The bits of a register with an access code. -/
def RegSpec.mask (r : RegSpec) (a : Acc) : Nat :=
  r.flds.foldl (fun m f => if f.acc = a then m ||| (2 ^ f.w - 1) * 2 ^ f.lo else m) 0

/-- The bits a write carries (R10). -/
def Half.mask : Half → Nat
  | .both => 0xFFFFFFFFFFFFFFFF
  | .low => 0xFFFFFFFF
  | .high => 0xFFFFFFFF00000000

/-- The 64-bit word a write amounts to for a WO, W1S or W1C field: bits outside the written half are 0 (R10). -/
def WData.bits1 (d : WData) : Nat := d.value.toNat &&& d.half.mask

/-- The 64-bit word a write amounts to for an RW or RWL field: bits outside the written half keep their value (R10). -/
def WData.over (d : WData) (old : Nat) : Nat :=
  (old &&& (0xFFFFFFFFFFFFFFFF ^^^ d.half.mask)) ||| (d.value.toNat &&& d.half.mask)

/-- Whether a write carries the low half; without it the bits of a write-only register there are written as 0, which has no
effect (R10). -/
def WData.lowWritten (d : WData) : Bool := d.half ≠ .high

/-- A write that carries an action bit of the low word besides. -/
def WData.withBit (d : WData) (i : Nat) : WData :=
  ⟨if d.half = .high then .low else d.half, d.value ||| BitVec.ofNat 64 (2 ^ i)⟩

/-- Host, castle and mailbox sequencer: not fenced (R158). -/
def Req.trusted : Req → Bool
  | .host => true
  | .castle => true
  | .sequencer => true
  | _ => false

/-- A requester's number, for the half word kept for it (R10). -/
def Req.num : Req → Nat
  | .host => 0
  | .castle => 1
  | .sequencer => 2
  | .core c => 16 + c.val
  | .square n => 64 + n.val
  | .part p => 32 + p.val

end Sys2Proof

namespace Sys2Proof.Machine

abbrev Out := Host.Outcome State Fault Refusal

/-! ### The sparse map -/

/-- The entry at key `k`, or `d` where none is listed. -/
def mget {α : Type} (d : α) : Map α → Nat → α
  | [], _ => d
  | (k', v) :: r, k => if k' = k then v else mget d r k

/-- The map without an entry at `k`. -/
def mdel {α : Type} (m : Map α) (k : Nat) : Map α := m.filter (fun e => e.1 ≠ k)

/-- The map with an entry for `v` put before the first greater key; the value an unlisted key reads as is not listed. -/
def mput {α : Type} [DecidableEq α] (d : α) : Map α → Nat → α → Map α
  | [], k, v => if v = d then [] else [(k, v)]
  | e :: r, k, v => if e.1 < k then e :: mput d r k v else if v = d then e :: r else (k, v) :: e :: r

/-- The map with `k` reading `v`. -/
def mset {α : Type} [DecidableEq α] (d : α) (m : Map α) (k : Nat) (v : α) : Map α := mput d (mdel m k) k v

/-- The canonical form: keys strictly rising, no entry equal to what an unlisted key reads as. -/
def mwf {α : Type} [DecidableEq α] (d : Nat → α) : Map α → Bool
  | [] => true
  | [(k, v)] => decide (v ≠ d k)
  | (k, v) :: (k', v') :: r => decide (v ≠ d k) && decide (k < k') && mwf d ((k', v') :: r)

/-! ### Numbers -/

/-- `n` bits of `v` from bit `lo`. -/
def bits (v lo n : Nat) : Nat := v / 2 ^ lo % 2 ^ n

/-- Bit `i` of `v`. -/
def bit (v i : Nat) : Bool := v / 2 ^ i % 2 = 1

/-- `v` with its `w` bits from `lo` replaced. -/
def insField (old lo w v : Nat) : Nat :=
  old / 2 ^ (lo + w) * 2 ^ (lo + w) + v % 2 ^ w * 2 ^ lo + old % 2 ^ lo

def setBit (v i : Nat) (b : Bool) : Nat := insField v i 1 b.toNat

/-- Two's complement: the signed value of the low `w` bits. -/
def sgn (w v : Nat) : Int :=
  if v % 2 ^ w < 2 ^ (w - 1) then (v % 2 ^ w : Nat) else ((v % 2 ^ w : Nat) : Int) - (2 ^ w : Nat)

/-- Two's complement: the `w`-bit word of a signed value, wrapping. -/
def unsgn (w : Nat) (v : Int) : Nat := (v % ((2 ^ w : Nat) : Int)).toNat

/-- A signed value clamped into [lo, hi]. -/
def clampI (lo hi v : Int) : Int := if v < lo then lo else if hi < v then hi else v

def clampN (lo hi v : Nat) : Nat := if v < lo then lo else if hi < v then hi else v

/-- The `w`-bit word of a signed value, saturating. -/
def satI (w : Nat) (v : Int) : Nat :=
  unsgn w (clampI (-((2 ^ (w - 1) : Nat) : Int)) (((2 ^ (w - 1) : Nat) : Int) - 1) v)

/-- Division rounding to nearest, ties to even; the divisor is positive. -/
def divRne (a : Int) (b : Nat) : Int :=
  let q := a / (b : Int)
  let r := a - q * (b : Int)
  if 2 * r < (b : Int) then q
  else if (b : Int) < 2 * r then q + 1
  else if q % 2 = 0 then q else q + 1

def ceilDiv (a b : Nat) : Nat := (a + b - 1) / b

/-- The indices below 64 whose bit is set, ascending. -/
def bitList (v : Nat) (n : Nat) : List Nat := (List.range n).filter (fun i => bit v i)

/-- Little-endian bytes. -/
def toBytes : Nat → Nat → List Byte
  | 0, _ => []
  | n + 1, v => BitVec.ofNat 8 v :: toBytes n (v / 256)

/-- The number little-endian bytes spell. -/
def ofBytes : List Byte → Nat
  | [] => 0
  | b :: r => b.toNat + 256 * ofBytes r

/-- Bytes `off` to `off + n - 1` of a list, short where it ends. -/
def slice (l : List Byte) (off n : Nat) : List Byte := (l.drop off).take n

/-- The little-endian number in bytes `off` to `off + n - 1`. -/
def field (l : List Byte) (off n : Nat) : Nat := ofBytes (slice l off n)

/-- `l` padded with zero bytes to `n`. -/
def padTo (n : Nat) (l : List Byte) : List Byte := l ++ List.replicate (n - l.length) 0

/-! ### Registers -/

/-- The register table's row for an address of the CSR region. -/
def regSpec (addr : Nat) : Option RegSpec :=
  regBlocks.findSome? fun b =>
    if b.base ≤ addr ∧ (addr - b.base) / b.stride < b.count then
      b.regs.find? (fun r => r.covers ((addr - b.base) % b.stride))
    else none

/-- Index of the square whose router carries plane `p` ("Mesh attachments", 06_grid.md). -/
def planeSquare (p : Nat) : Nat := p / 4 * 8 + (2 * (p % 4) + p / 4 % 2)

/-- Index of the square whose router carries engine `e` ("Mesh attachments", 06_grid.md). -/
def engineSquare (e : Nat) : Nat := if e < 4 then (2 * e + 1) * 8 else (2 * (e - 4) + 1) * 8 + 7

/-- Resets that depend on the register's index: identities set from fuses (log entry 4), and image defaults stated for
some instances only (log entry 1). -/
def indexedReset (addr : Nat) : Option Nat :=
  let o := addr - 0x600000000000
  let q := o % 0x10000
  if o / 0x10000 = 0x3 ∧ q = 0xC80 then some (F.GPTP_CTRL_DOMAIN_NUMBER 1 |>.lo |> fun lo =>
      20 * 2 ^ lo + 246 * 2 ^ 24 + 248 * 2 ^ 32 + 248 * 2 ^ 40 + 254 * 2 ^ 48)
  else if o / 0x10000 = 0x1 ∧ (q = 0x100 ∨ q = 0x140) then some 0b1001
  else if o / 0x10000 = 0x7 ∧ 0x100 ≤ q ∧ q < 0x400 then
    let x := (q - 0x100) % 0x60
    if x = 0x20 ∨ x = 0x48 then some 0x3F800000 else if x = 0x30 then some 0x3F80000000000000 else none
  else if 0x10 ≤ o / 0x10000 ∧ o / 0x10000 < 0x50 ∧ q = 0x10 then
    let n := o / 0x10000 - 0x10
    some (0x1000 + n + n % 8 * 2 ^ 16 + n / 8 * 2 ^ 19 +
      if (n % 8 + n / 8) % 2 = 0 then 2 ^ 22 + (n / 8 * 4 + n % 8 / 2) * 2 ^ 23 else 0)
  else if 0x50 ≤ o / 0x10000 ∧ o / 0x10000 < 0x70 ∧ q = 0x10 then
    let p := o / 0x10000 - 0x50
    some (0x2000 + p + planeSquare p * 2 ^ 16)
  else if 0x70 ≤ o / 0x10000 ∧ o / 0x10000 < 0x78 ∧ q = 0x10 then
    let e := o / 0x10000 - 0x70
    some (0x3000 + e + e * 2 ^ 16 + engineSquare e * 2 ^ 19)
  else if o = 0x80010 then some 0x8000
  else if o = 0x88010 then some 0x8001
  else none

/-- The reset value of a register: its fields' reset values, zero for a reserved word. -/
def resetWord (addr : Nat) : Word :=
  match indexedReset addr with
  | some v => BitVec.ofNat 64 v
  | none =>
    match regSpec addr with
    | some r => BitVec.ofNat 64 (r.flds.foldl (fun a f => a + f.reset * 2 ^ f.lo) 0)
    | none => 0

/-- The KV registers are one set, seen through the block of every engine (10_attention.md): the address of the one set. -/
def canonReg (addr : Nat) : Nat :=
  if 0x600000700000 ≤ addr ∧ addr < 0x600000780000 ∧ 0x800 ≤ addr % 0x10000 then
    0x600000700000 + addr % 0x10000
  else addr

/-- A register as it stands. -/
def State.reg (s : State) (a : Nat) : Nat := (mget (resetWord a) s.csr a).toNat

/-- A register set as a whole. -/
def State.setReg (s : State) (a v : Nat) : State :=
  { s with csr := mset (resetWord a) s.csr a (BitVec.ofNat 64 v) }

/-- A field as it stands. -/
def State.rd (s : State) (f : Fld) : Nat := bits (s.reg f.reg) f.lo f.w

/-- A field set. -/
def State.wr (s : State) (f : Fld) (v : Nat) : State := s.setReg f.reg (insField (s.reg f.reg) f.lo f.w v)

/-- A one-bit field as a truth value. -/
def State.on (s : State) (f : Fld) : Bool := s.rd f ≠ 0

/-- A signed field. -/
def State.rdS (s : State) (f : Fld) : Int := sgn f.w (s.rd f)

/-- A counter field that saturates, raised by `n`. -/
def State.bumpBy (s : State) (f : Fld) (n : Nat) : State := s.wr f (min (s.rd f + n) (2 ^ f.w - 1))

/-- A counter field that saturates, raised by 1. -/
def State.bump (s : State) (f : Fld) : State := s.bumpBy f 1

/-- A counter field that wraps, raised by 1. -/
def State.bumpW (s : State) (f : Fld) : State := s.wr f (s.rd f + 1)

/-- One bit `i` of a mask field set or cleared. -/
def State.wrBit (s : State) (f : Fld) (i : Nat) (b : Bool) : State := s.wr f (setBit (s.rd f) i b)

/-- A rejected access counted in a REJECTS register: COUNT saturates, LAST_OFFSET is the block offset. -/
def State.reject (s : State) (rejects offset : Nat) : State :=
  (s.bump ⟨rejects, 0, 32⟩).wr ⟨rejects, 32, 16⟩ offset

/-- A register after a write under the access codes: RW fields, and RWL fields unless the block is locked, take the
written bits; W1S bits set, W1C bits clear; every other field stands (R10, "Register access codes"). -/
def writeWord (r : RegSpec) (locked : Bool) (old : Nat) (d : WData) : Nat :=
  let rw := (r.mask .rw ||| if locked then 0 else r.mask .rwl) &&& d.half.mask
  let v := (old &&& (0xFFFFFFFFFFFFFFFF ^^^ rw)) ||| (d.value.toNat &&& rw)
  let v := v ||| (d.bits1 &&& r.mask .w1s)
  v &&& (0xFFFFFFFFFFFFFFFF ^^^ (d.bits1 &&& r.mask .w1c))

/-- The register that holds the LOCK bit of an address's block, if its block has one. -/
def lockReg (addr : Nat) : Option Nat :=
  let b := addr / 0x10000
  let q := addr % 0x10000
  if b = 0x60000000 then none
  else if b = 0x60000008 then some (if q < 0x8000 then R.CC_CTRL else R.DYN_CTRL)
  else if 0x60000070 ≤ b ∧ b < 0x60000078 then some (if q < 0x800 then addr - q else R.KV_CTRL)
  else some (addr - q)

/-- Whether the block's LOCK bit is set. -/
def State.locked (s : State) (addr : Nat) : Bool :=
  match lockReg addr with
  | some r => bit (s.reg r) 0
  | none => false

/-- A register written under its access codes, with none of the effects its chapter adds. -/
def State.writeReg (s : State) (addr : Nat) (d : WData) : State :=
  match regSpec addr with
  | some r => s.setReg addr (writeWord r (s.locked addr) (s.reg addr) d)
  | none => s

/-! ### Memory -/

/-- What an unlisted byte reads as: zero (log entry 2), or an unrelated byte where the range's key was renewed (R424). -/
def State.blank (s : State) (a : Nat) : Byte :=
  match s.rekey.find? (fun r => decide (r.lo ≤ a) && decide (a < r.hi)) with
  | some r => BitVec.ofNat 8 (Config.openFn 46 [r.id, a])
  | none => 0

/-- The byte at an address. -/
def State.byte (s : State) (a : Nat) : Byte := mget (s.blank a) s.mem a

def State.setByte (s : State) (a : Nat) (b : Byte) : State := { s with mem := mset (s.blank a) s.mem a b }

/-- `n` bytes from an address. -/
def State.bytes (s : State) (a : Nat) : Nat → List Byte
  | 0 => []
  | n + 1 => s.byte a :: s.bytes (a + 1) n

/-- Bytes stored from an address, one after the other. -/
def State.storeBytes (s : State) (a : Nat) : List Byte → State
  | [] => s
  | b :: r => (s.setByte a b).storeBytes (a + 1) r

/-- Poison leaves every line the range [a, a + n) covers whole (R417), and an uncorrectable check pattern every local-store
word it covers whole (R193). -/
def State.cleanLines (s : State) (a n : Nat) : State :=
  if s.poison.isEmpty && s.badWords.isEmpty then s
  else { s with
    poison := s.poison.filter (fun e => !(decide (a ≤ e.1 * 64) && decide (e.1 * 64 + 64 ≤ a + n))),
    badWords := s.badWords.filter (fun e => !(decide (a ≤ e.1 * 8) && decide (e.1 * 8 + 8 ≤ a + n))) }

/-- Bytes stored from an address. -/
def State.store (s : State) (a : Nat) (l : List Byte) : State := (s.storeBytes a l).cleanLines a l.length

/-- Whether a range touches a poisoned line. -/
def State.poisoned (s : State) (a n : Nat) : Bool :=
  s.poison.any (fun e => decide (e.1 * 64 < a + n) && decide (a < e.1 * 64 + 64))

/-- Whether a range touches a local-store word with an uncorrectable error. -/
def State.badAt (s : State) (a n : Nat) : Bool :=
  s.badWords.any (fun e => decide (e.1 * 8 < a + n) && decide (a < e.1 * 8 + 8))

/-- Every byte of a range zero. -/
def State.zeroRange (s : State) (a n : Nat) : State :=
  if s.rekey.isEmpty then
    { s with mem := s.mem.filter (fun e => !(decide (a ≤ e.1) && decide (e.1 < a + n))) }.cleanLines a n
  else s.store a (List.replicate n 0)

/-- A little-endian number of `n` bytes. -/
def State.ld (s : State) (a n : Nat) : Nat := ofBytes (s.bytes a n)

def State.st (s : State) (a n v : Nat) : State := s.store a (toBytes n v)

/-- The memory's canonical form, against what unlisted bytes read as. -/
def Memory.wf (blank : Nat → Byte) (m : List Host.Cell) : Bool := mwf blank m

/-! ### Status codes (R11) -/

def St.ok : Nat := 0x00
def St.duplicate : Nat := 0x01
def St.refused : Nat := 0x02
def St.absent : Nat := 0x03
def St.busy : Nat := 0x04
def St.badArgument : Nat := 0x05
def St.notPermitted : Nat := 0x06
def St.unitReset : Nat := 0x07
def St.disputed : Nat := 0x08
def St.timeout : Nat := 0x09
def St.noSpace : Nat := 0x0A
def St.badSequence : Nat := 0x0B
def St.integrity : Nat := 0x0C

/-! ### Unit states ("Unit state codes") -/

def US.absent : Nat := 0
def US.off : Nat := 1
def US.retained : Nat := 2
def US.resetting : Nat := 3
def US.ready : Nat := 4
def US.busy : Nat := 5
def US.resting : Nat := 6
def US.fault : Nat := 7
def US.quarantined : Nat := 8

/-- Whether a unit ID names a unit that is present: its capability mask has its bit, or its class always has the unit
(R2, R498, R499). -/
def State.present (s : State) (u : Nat) : Bool :=
  let c := u / 0x1000
  let i := u % 0x1000
  if c = 1 then decide (i < 64) && bit (s.rd F.SQUARE_MASK_SQUARES) i
  else if c = 2 then decide (i < 32) && bit (s.rd F.PLANE_MASK_PLANES) i
  else if c = 3 then decide (i < 8) && bit (s.rd F.AE_MASK_ENGINES) i
  else if c = 6 ∨ c = 7 ∨ c = 9 then i = 0
  else if c = 8 then i = 0 ∨ (i = 1 ∧ s.on F.FEATURE_MASK_DYN)
  else if c = 0xA then i = 0
  else if c = 0xB then decide (i < 8) && bit (s.rd F.MC_STATUS_PRESENT) i || decide (0x100 ≤ i ∧ i < 0x104)
  else if c = 0xD then decide (i < 12) && bit (s.rd F.CORE_MASK_CORES) i
  else decide (u = 0xE000)

/-- The field that holds a unit's state code, where a register does. -/
def stateFld (u : Nat) : Option Fld :=
  let c := u / 0x1000
  let i := u % 0x1000
  if c = 1 then some (F.SQ_STATE_UNIT_STATE i)
  else if c = 2 then some (F.PL_STATE_UNIT_STATE i)
  else if c = 3 then some (F.AE_STATE_UNIT_STATE i)
  else if u = 0x8000 then some F.CC_STATE_UNIT_STATE
  else if u = 0x8001 then some F.DYN_STATE_UNIT_STATE
  else none

/-- The field that holds a unit's epoch, where a register does. -/
def epochFld (u : Nat) : Option Fld :=
  let c := u / 0x1000
  let i := u % 0x1000
  if c = 1 then some (F.SQ_STATE_EPOCH i)
  else if c = 2 then some (F.PL_STATE_EPOCH i)
  else if c = 3 then some (F.AE_STATE_EPOCH i)
  else if u = 0x6000 then some F.ALN_STATUS_EPOCH
  else if u = 0x7000 then some F.VOX_STATUS_EPOCH
  else if u = 0x8000 then some F.CC_STATE_EPOCH
  else if u = 0x8001 then some F.DYN_STATE_EPOCH
  else none

/-- A unit's state code. -/
def State.ustate (s : State) (u : Nat) : Nat :=
  if s.present u then
    match stateFld u with
    | some f => s.rd f
    | none => mget US.ready s.unitSt u
  else US.absent

def State.setUstate (s : State) (u v : Nat) : State :=
  match stateFld u with
  | some f => s.wr f v
  | none => { s with unitSt := mset US.ready s.unitSt u v }

/-- READY or BUSY: the unit takes requests (R20). -/
def State.serving (s : State) (u : Nat) : Bool := s.ustate u = US.ready ∨ s.ustate u = US.busy

/-- The answer to a request by target state (R20). -/
def answerOf (st : Nat) : Nat :=
  if st = US.absent then St.absent
  else if st = US.resting then St.busy
  else if st = US.quarantined then St.notPermitted
  else if st = US.ready ∨ st = US.busy then St.ok
  else St.unitReset

def epochRec0 : EpochRec := ⟨0, none, none, false⟩

/-- A unit's epoch. -/
def State.epochOf (s : State) (u : Nat) : Nat :=
  match epochFld u with
  | some f => s.rd f
  | none => (mget epochRec0 s.epoch u).count

/-- The epoch one further, modulo 65,536, in force now (R19). -/
def State.bumpEpoch (s : State) (u : Nat) : State :=
  let e := mget epochRec0 s.epoch u
  let s := { s with epoch := mset epochRec0 s.epoch u { e with
    count := (match epochFld u with | some _ => e.count | none => (e.count + 1) % 65536),
    last := some s.now, held := none, heldReset := false } }
  match epochFld u with
  | some f => s.wr f (s.rd f + 1)
  | none => s

/-- Whether 2 µs have passed since the unit's last epoch increment (R19); a unit whose epoch never moved waits for
nothing. -/
def State.epochFree (s : State) (u : Nat) : Bool :=
  match (mget epochRec0 s.epoch u).last with
  | none => true
  | some t => decide (t + 2000 ≤ s.now)

/-- Marks a state entry or load as held until the 2 µs have passed (R19); `code` says which. -/
def State.holdEpoch (s : State) (u code : Nat) : State :=
  { s with epoch := mset epochRec0 s.epoch u { mget epochRec0 s.epoch u with held := some code } }

/-! ### Free values -/

/-- A value the spec leaves open: an unconstrained number, and the state with the draw counted (log entry 5). -/
def State.draw (s : State) (site : Nat) : Nat × State :=
  (Config.freeNat site s.freeCtr, { s with freeCtr := s.freeCtr + 1 })

/-- `n` free bytes. -/
def State.drawBytes (s : State) (site n : Nat) : List Byte × State :=
  ((List.range n).map (fun i => BitVec.ofNat 8 (Config.freeNat site (s.freeCtr + i))), { s with freeCtr := s.freeCtr + n })

/-- A range whose content the spec leaves undefined: free bytes. -/
def State.scramble (s : State) (site a n : Nat) : State :=
  let (b, s) := s.drawBytes site n
  s.store a b

/-! ### Time stamps -/

/-- The timebase value in 2^-48 ns as a TS128: seconds in [127:64], nanoseconds in [63:32], fraction in [31:16], the
timebase index in [15:13], EXTRAPOLATED in [12], HOLDOVER in [11] ("Time stamps", 00_scope.md). -/
def mkTs128 (t48 : Nat) (n : Nat) (extrap hold : Bool) : BitVec 128 :=
  let ns := t48 / 2 ^ 48
  BitVec.ofNat 128
    (ns / 1000000000 % 2 ^ 64 * 2 ^ 64 + ns % 1000000000 * 2 ^ 32 + t48 / 2 ^ 32 % 65536 * 2 ^ 16 +
      n % 8 * 2 ^ 13 + extrap.toNat * 2 ^ 12 + hold.toNat * 2 ^ 11)

def tsSec (t : BitVec 128) : Nat := t.toNat / 2 ^ 64
def tsLow (t : BitVec 128) : Nat := t.toNat % 2 ^ 64
def tsHold (t : BitVec 128) : Bool := bit t.toNat 11

/-- TS64 of a TS128, the fraction dropped, saturating (R28). -/
def ts64 (t : BitVec 128) : Nat :=
  min (tsSec t * 1000000000 + tsLow t / 2 ^ 32) 0xFFFFFFFFFFFFFFFF

/-- TS128 in units of 1/65,536 ns. -/
def tsFine (t : BitVec 128) : Nat := (tsSec t * 1000000000 + tsLow t / 2 ^ 32) * 65536 + bits t.toNat 16 16

def win0 : ObsWin := ⟨0, 0, 0, 0, 0, 0⟩
def tb0 : Tb := ⟨0, 0, 0, 0, none, 0, win0, win0, win0⟩
def ph0 : Ph := ⟨0, 0, 0, 0, none, false, 0, 0, 0, 0, 0, []⟩
def pe0 : Pe := ⟨false, false, false, 0, 0, 0, 0⟩
def pulse0 : Pulse := ⟨false, 0, 0⟩

def State.tb (s : State) (n : Nat) : Tb := mget tb0 s.time.tb n
def State.setTb (s : State) (n : Nat) (t : Tb) : State :=
  { s with time := { s.time with tb := mset tb0 s.time.tb n t } }

/-- Whether stamps of TB_n carry HOLDOVER (R29). -/
def State.tbHold (s : State) (n : Nat) : Bool :=
  let st := s.rd (F.TB_STATUS_STATE n)
  st = 2 ∨ st = 4 ∨ st = 5

/-- The TS128 of TB_n now. -/
def State.stamp (s : State) (n : Nat) : BitVec 128 := mkTs128 (s.tb n).t48 n false (s.tbHold n)

/-- The TS64 of TB_n now (R28). -/
def State.ts64 (s : State) (n : Nat) : Nat := Machine.ts64 (s.stamp n)

/-! ### Event records (R12) -/

/-- The partition a unit belongs to, 0xFF for none: for squares, planes, engines, cores and the frame-die units, the
partition the PART block assigns it to. -/
def State.ownerOf (s : State) (u : Nat) : Nat :=
  let c := u / 0x1000
  let i := u % 0x1000
  let has (p : Nat) : Bool :=
    if c = 1 then bit (s.rd (F.PART_SQUARES_SQUARES p)) i
    else if c = 2 then bit (s.rd (F.PART_BOARD_PLANES p)) i
    else if c = 3 then bit (s.rd (F.PART_BOARD_ENGINES p)) i
    else if c = 0xD then bit (s.rd (F.PART_BOARD_CORES p)) i
    else if u = 0x6000 then bit (s.rd (F.PART_FRAME_UNITS p)) 0
    else if u = 0x7000 then bit (s.rd (F.PART_FRAME_UNITS p)) 1
    else if u = 0x8000 then bit (s.rd (F.PART_FRAME_UNITS p)) 2
    else if u = 0x8001 then bit (s.rd (F.PART_FRAME_UNITS p)) 3
    else if u = 0x9000 then bit (s.rd (F.PART_FRAME_UNITS p)) 4
    else if 0x4000 ≤ u ∧ u < 0x4020 then bit (s.rd (F.PART_FRAME_SLOTS p)) i
    else if 0x5100 ≤ u ∧ u < 0x5108 then bit (s.rd (F.PART_TIME_TB p)) (u - 0x5100)
    else if 0x5200 ≤ u ∧ u < 0x5208 then bit (s.rd (F.PART_TIME_PH p)) (u - 0x5200)
    else if 0x5300 ≤ u ∧ u < 0x5340 then bit (s.rd (F.PART_PE_EVENTS p)) (u - 0x5300)
    else if 0x5400 ≤ u ∧ u < 0x5410 then bit (s.rd (F.PART_TIME_PULSE_OUT p)) (u - 0x5400)
    else if 0x5500 ≤ u ∧ u < 0x5510 then bit (s.rd (F.PART_TIME_CAPTURE_IN p)) (u - 0x5500)
    else false
  if c = 0xA then 0xFF else ((List.range 8).find? has).getD 0xFF

/-- The severity of an event code (the event code table); 0x6003 is given by its caller. -/
def sevOf (code : Nat) : Nat :=
  if code = 0x1001 ∨ code = 0x1002 ∨ code = 0x4004 ∨ code = 0x5001 ∨ code = 0x5003 ∨ code = 0x6003 ∨
      code = 0x8001 ∨ code = 0x9002 then 1
  else if code = 0x1006 ∨ code = 0x2001 ∨ code = 0x2002 ∨ code = 0x2004 ∨ code = 0x2005 ∨ code = 0x6001 ∨
      code = 0x6002 ∨ code = 0x6004 ∨ code = 0x6006 ∨ code = 0x7002 ∨ code = 0x7003 ∨ code = 0x7006 ∨
      code = 0x8002 ∨ code = 0x8004 ∨ code = 0x8006 ∨ code = 0x8007 ∨ code = 0x8008 then 3
  else if code = 0x7001 ∨ code = 0x7009 ∨ code = 0x700A then 4
  else 2

/-- The module raises interrupt source i: its message goes to the IMSIC file and identity of MC_IRQ_ROUTE_i; identity 0
disables the source (R429). -/
def State.raiseIrq (s : State) (i : Nat) : State :=
  let ident := s.rd (F.MC_IRQ_ROUTE_IDENTITY i)
  let file := s.rd (F.MC_IRQ_ROUTE_CORE i) * 16 +
    (if s.on (F.MC_IRQ_ROUTE_SUPERVISOR i) then 1 + s.rd (F.MC_IRQ_ROUTE_GUEST i) else 0)
  let s := { s with irq := s.irq ||| 2 ^ i }
  if ident = 0 then s else { s with imsic := mset 0 s.imsic file (mget 0 s.imsic file ||| 2 ^ ident) }

/-- Raises the castle interrupt. -/
def State.raiseCastle (s : State) : State := { s with castleIrq := s.castleIrq + 1 }

/-- Raises an MSI-X vector to the PCIe host. -/
def State.raiseMsix (s : State) (v : Nat) : State := { s with msix := s.msix ||| 2 ^ v }

/-- Writes an event record with a given severity and partition: the ring keeps the newest 4,096; severity 2 or more
raises the EVENT interrupt source and MSI-X vector 2 (R12, R429). -/
def State.logRec (s : State) (unit code sev part subject : Nat) (args : List Nat) : State :=
  let r : EvRec := ⟨s.stamp 0, unit, code, sev, part, subject, args⟩
  let ring := s.log.ring ++ [r]
  let s := { s with log := ⟨s.log.total + 1, ring.drop (ring.length - 4096)⟩ }
  if 2 ≤ sev then (s.raiseIrq 17).raiseMsix 2 else s

/-- Writes an event record with its code's severity, for the partition of `unit` (R12). -/
def State.event (s : State) (unit code subject : Nat) (args : List Nat) : State :=
  s.logRec unit code (sevOf code) (s.ownerOf unit) subject args

/-! ### Requesters (R14, R53, R158) -/

/-- The partition of a requester, none for the host, the castle and the mailbox sequencer. -/
def State.reqPart (s : State) : Req → Option Nat
  | .host => none
  | .castle => none
  | .sequencer => none
  | .part p => some p.val
  | .core c => let p := s.ownerOf (0xD000 + c.val); if p < 8 then some p else none
  | .square n =>
    let sh := s.reg (R.PART_SQ_SHARE n.val)
    if bit sh 0 ∧ bit sh 16 then some (bits sh 1 3)
    else let p := s.ownerOf (0x1000 + n.val); if p < 8 then some p else none

/-- The latch a requester has: the host, the castle and each partition one (R53). A requester outside all three keeps
one of its own. -/
def State.reqKey (s : State) (r : Req) : Nat :=
  match r with
  | .host => 0
  | .castle => 1
  | .sequencer => 10
  | _ => match s.reqPart r with
    | some p => 2 + p
    | none => 11

/-- Whether a requester owns a unit or instance through its partition, or is not fenced. -/
def State.mayUse (s : State) (r : Req) (u : Nat) : Bool :=
  r.trusted || match s.reqPart r with
    | some p => s.ownerOf u = p
    | none => false

/-! ### Messages -/

/-- Sends a message: it is in flight until its arrival. -/
def State.send (s : State) (m : Msg) : State := { s with net := s.net ++ [m] }

/-- The module's own number in the network. -/
def State.moduleNo (s : State) : Nat := s.rd F.NET_STATUS_MODULE

/-- A message of the module's own, at priority 7 in its class (R507). -/
def originMsg (s : State) (src dest cls op : Nat) (payload : List Byte) : Msg :=
  ⟨dest, s.moduleNo, false, src, s.moduleNo, cls, 7, 1, op, 0xFF, s.epochOf src,
    (let p := s.ownerOf src; if p < 8 then p else 0), 0, 0, 0, payload⟩

/-- Sends a posted message of the module's own, or, where the destination is not READY or BUSY, writes the event record
that names it and does not resend (R50, R74, R104, R131, R302). -/
def State.post (s : State) (src dest cls op index : Nat) (payload : List Byte) : State :=
  let a := answerOf (s.ustate dest)
  if a = St.ok then s.send (originMsg s src dest cls op payload)
  else s.event src 0x5001 dest [a, index]

/-- The reply to a request: class TC_2, the request's tag and priority, the replier's epoch, ECHO (R20, R155, R157). -/
def replyTo (s : State) (m : Msg) (op status : Nat) (payload : List Byte) : Msg :=
  ⟨m.src, m.srcModule, false, m.dest, m.destModule, 2, m.prio, 2, op, m.tag, s.epochOf m.dest, 0, status, m.channel,
    m.epoch, payload⟩

/-- Answers a message with a refusal (ANSWER): the only reply a posted message ever receives (R157). -/
def State.answer (s : State) (m : Msg) (status : Nat) : State := s.send (replyTo s m 0x1F status [])

end Sys2Proof.Machine
end

