-- ==== Sys2Proof/Machine/Num.lean ====
section
/-!
DEFINITION. Tensor number formats, exact values, and the one conversion of the module: round to nearest, ties to even
(R165 to R170), with FP32 and FP64 arithmetic built on it. Every result is formed exactly, then rounded once.
-/

namespace Sys2Proof.Machine

/-- A decoded value: NaN, an infinity, or (-1)^neg * m * 2^e exactly; a zero keeps its sign. -/
inductive Val where
  | nan
  | inf (neg : Bool)
  | fin (neg : Bool) (m : Nat) (e : Int)
  deriving DecidableEq, Repr

/-- A floating-point format of R165: mantissa bits, bias, largest finite code (sign clear), and whether it has
infinities. -/
structure Fmt where
  mbits : Nat
  ebits : Nat
  bias : Nat
  maxCode : Nat
  hasInf : Bool
  nanCode : Nat
  deriving DecidableEq, Repr

def fmtE2M1 : Fmt := ⟨1, 2, 1, 7, false, 0⟩
def fmtE4M3 : Fmt := ⟨3, 4, 7, 0x7E, false, 0x7F⟩
def fmtE5M2 : Fmt := ⟨2, 5, 15, 0x7B, true, 0x7E⟩
def fmtF16 : Fmt := ⟨10, 5, 15, 0x7BFF, true, 0x7E00⟩
def fmtBF16 : Fmt := ⟨7, 8, 127, 0x7F7F, true, 0x7FC0⟩
def fmtF32 : Fmt := ⟨23, 8, 127, 0x7F7FFFFF, true, 0x7FC00000⟩
def fmtF64 : Fmt := ⟨52, 11, 1023, 0x7FEFFFFFFFFFFFFF, true, 0x7FF8000000000000⟩

/-- The floating-point format of a tensor format code. -/
def fmtOf (code : Nat) : Option Fmt :=
  if code = 4 then some fmtE2M1 else if code = 5 then some fmtE4M3 else if code = 6 then some fmtE5M2
  else if code = 7 then some fmtF16 else if code = 8 then some fmtBF16 else if code = 9 then some fmtF32
  else if code = 0xA then some fmtF64 else none

/-- Bits of an element by format code (R165). -/
def elemBits (code : Nat) : Nat :=
  if code = 0 ∨ code = 4 then 4
  else if code = 1 ∨ code = 5 ∨ code = 6 ∨ code = 0xB then 8
  else if code = 2 ∨ code = 7 ∨ code = 8 then 16
  else if code = 3 ∨ code = 9 then 32
  else if code = 0xA then 64 else 0

/-- An integer format's range. -/
def intRange (code : Nat) : Option (Int × Int) :=
  if code = 0 then some (-8, 7) else if code = 1 then some (-128, 127) else if code = 2 then some (-32768, 32767)
  else if code = 3 then some (-2147483648, 2147483647) else if code = 0xB then some (0, 255) else none

/-- A floating-point code decoded to its exact value. -/
def Fmt.dec (f : Fmt) (v : Nat) : Val :=
  let neg := bit v (f.mbits + f.ebits)
  let ex := bits v f.mbits f.ebits
  let fr := bits v 0 f.mbits
  if f.maxCode < v % 2 ^ (f.mbits + f.ebits) then
    if f.hasInf ∧ fr = 0 then .inf neg else .nan
  else if ex = 0 then .fin neg fr (1 - (f.bias : Int) - f.mbits)
  else .fin neg (fr + 2 ^ f.mbits) ((ex : Int) - f.bias - f.mbits)

/-- A signed integer as a value. -/
def Val.ofInt (i : Int) : Val := .fin (decide (i < 0)) i.natAbs 0

/-- An element decoded by its format code; UINT8 and the integers decode as integers (R165). -/
def decElem (code v : Nat) : Val :=
  match fmtOf code with
  | some f => f.dec v
  | none => if code = 0xB then .ofInt (v % 256 : Nat) else .ofInt (sgn (elemBits code) v)

/-- `m` shifted right by `k` bits, to nearest with ties to even; `sticky` says that something non-zero was already cut. -/
def shiftRne (m k : Nat) (sticky : Bool) : Nat :=
  let q := m / 2 ^ k
  let r := m % 2 ^ k
  if k = 0 then q
  else
    let half := 2 ^ (k - 1)
    if half < r ∨ (r = half ∧ (sticky ∨ q % 2 = 1)) then q + 1 else q

/-- Magnitude code of `m * 2^e` (plus a sticky rest) with the exponent range unbounded above; gradual underflow below. -/
def Fmt.roundCode (f : Fmt) (m : Nat) (e : Int) (sticky : Bool) : Nat :=
  if m = 0 then 0
  else
    let emin : Int := 1 - (f.bias : Int) - f.mbits
    let q := max ((Nat.log2 m : Int) + e - f.mbits) emin
    let r := if q ≤ e then m * 2 ^ (e - q).toNat else shiftRne m (q - e).toNat sticky
    if r < 2 ^ f.mbits then r
    else (q + f.bias + f.mbits).toNat * 2 ^ f.mbits + (r - 2 ^ f.mbits)

/-- The flags one conversion raises (R169, R170, R180). -/
structure CvFlags where
  sat : Bool
  nanIn : Bool
  nanOut : Bool
  infOut : Bool
  under : Bool
  deriving DecidableEq, Repr

def cv0 : CvFlags := ⟨false, false, false, false, false⟩

/-- Sign bit of a floating-point code. -/
def Fmt.sign (f : Fmt) (neg : Bool) (mag : Nat) : Nat := mag + neg.toNat * 2 ^ (f.mbits + f.ebits)

/-- The conversion of R169 to a floating-point format. -/
def Fmt.conv (f : Fmt) (sat : Bool) (v : Val) (sticky : Bool) : Nat × CvFlags :=
  let excess (neg : Bool) : Nat × CvFlags :=
    if f.ebits = 2 ∨ sat = true then (f.sign neg f.maxCode, { cv0 with sat := true })
    else if f.hasInf then (f.sign neg (f.maxCode + 1), { cv0 with infOut := true })
    else (f.nanCode, { cv0 with nanOut := true })
  match v with
  | .nan => if f.ebits = 2 then (0, { cv0 with nanIn := true }) else (f.nanCode, { cv0 with nanOut := true })
  | .inf neg => excess neg
  | .fin neg m e =>
    let c := f.roundCode m e sticky
    if f.maxCode < c then excess neg
    else (f.sign neg c, { cv0 with under := decide (c = 0) && (decide (m ≠ 0) || sticky) })

/-- The integer nearest to `m * 2^e`, ties to even. -/
def roundInt (m : Nat) (e : Int) (sticky : Bool) : Nat :=
  if 0 ≤ e then m * 2 ^ e.toNat else shiftRne m (-e).toNat sticky

/-- The conversion of R169 to any format code: the element's bits and the flags. -/
def convElem (code : Nat) (sat : Bool) (v : Val) : Nat × CvFlags :=
  match fmtOf code with
  | some f => f.conv sat v false
  | none =>
    match intRange code with
    | none => (0, cv0)
    | some (lo, hi) =>
      let w := elemBits code
      match v with
      | .nan => (0, { cv0 with nanIn := true })
      | .inf neg => (unsgn w (if neg then lo else hi), { cv0 with sat := true })
      | .fin neg m e =>
        let i : Int := if neg then -(roundInt m e false : Int) else (roundInt m e false : Int)
        (unsgn w (clampI lo hi i),
          { cv0 with sat := decide (i < lo) || decide (hi < i), under := decide (i = 0) && decide (m ≠ 0) })

/-! ### Exact arithmetic -/

def Val.neg : Sys2Proof.Machine.Val → Sys2Proof.Machine.Val
  | .nan => .nan
  | .inf n => .inf !n
  | .fin n m e => .fin (!n) m e

def Val.abs : Sys2Proof.Machine.Val → Sys2Proof.Machine.Val
  | .nan => .nan
  | .inf _ => .inf false
  | .fin _ m e => .fin false m e

def Val.isNan : Sys2Proof.Machine.Val → Bool
  | .nan => true
  | _ => false

def Val.isFin : Sys2Proof.Machine.Val → Bool
  | .fin _ _ _ => true
  | _ => false

def Val.zero : Sys2Proof.Machine.Val := .fin false 0 0

/-- The signed integer `v / 2^e0`, where e0 is at most the value's exponent. -/
def Val.scaled (v : Sys2Proof.Machine.Val) (e0 : Int) : Int :=
  match v with
  | .fin n m e => if n then -((m * 2 ^ (e - e0).toNat : Nat) : Int) else ((m * 2 ^ (e - e0).toNat : Nat) : Int)
  | _ => 0

def Val.exp : Sys2Proof.Machine.Val → Int
  | .fin _ _ e => e
  | _ => 0

/-- Exact sum; signs of zero and infinities as IEEE 754-2019 in round to nearest. -/
def Val.add (a b : Sys2Proof.Machine.Val) : Sys2Proof.Machine.Val :=
  match a, b with
  | .nan, _ => .nan
  | _, .nan => .nan
  | .inf n, .inf k => if n = k then .inf n else .nan
  | .inf n, _ => .inf n
  | _, .inf n => .inf n
  | .fin n m e, .fin k p g =>
    let e0 := min e g
    let t := Val.scaled (.fin n m e) e0 + Val.scaled (.fin k p g) e0
    if t = 0 then .fin (n && k) 0 e0 else .fin (decide (t < 0)) t.natAbs e0

/-- Exact product. -/
def Val.mul (a b : Sys2Proof.Machine.Val) : Sys2Proof.Machine.Val :=
  match a, b with
  | .nan, _ => .nan
  | _, .nan => .nan
  | .inf n, .inf k => .inf (n != k)
  | .inf n, .fin k m _ => if m = 0 then .nan else .inf (n != k)
  | .fin n m _, .inf k => if m = 0 then .nan else .inf (n != k)
  | .fin n m e, .fin k p g => .fin (n != k) (m * p) (e + g)

/-- Exact comparison of two values that are no NaN. -/
def Val.le (a b : Sys2Proof.Machine.Val) : Bool :=
  match a, b with
  | .nan, _ => false
  | _, .nan => false
  | .inf true, _ => true
  | _, .inf false => true
  | .inf false, _ => false
  | _, .inf true => false
  | .fin n m e, .fin k p g =>
    let e0 := min e g
    decide (Val.scaled (.fin n m e) e0 ≤ Val.scaled (.fin k p g) e0)

def Val.lt (a b : Sys2Proof.Machine.Val) : Bool := !a.isNan && !b.isNan && !b.le a

def Val.isZero : Sys2Proof.Machine.Val → Bool
  | .fin _ m _ => decide (m = 0)
  | _ => false

/-- A value times a power of two. -/
def Val.scale2 (v : Sys2Proof.Machine.Val) (k : Int) : Sys2Proof.Machine.Val :=
  match v with
  | .fin n m e => .fin n m (e + k)
  | x => x

/-- The floor of the base-2 logarithm of a non-zero finite value's magnitude. -/
def Val.ilog2 (v : Sys2Proof.Machine.Val) : Int :=
  match v with
  | .fin _ m e => (Nat.log2 m : Int) + e
  | _ => 0

/-- The floor of a finite value as an integer. -/
def Val.floor (v : Sys2Proof.Machine.Val) : Int :=
  match v with
  | .fin n m e =>
    let i : Int := if n then -(m : Int) else m
    if 0 ≤ e then i * ((2 ^ e.toNat : Nat) : Int) else i / ((2 ^ (-e).toNat : Nat) : Int)
  | _ => 0

/-! ### FP32 on 32-bit words -/

def f32 (v : Nat) : Val := fmtF32.dec v

/-- Rounds an exact value to FP32 (round to nearest, ties to even; overflow to infinity; canonical NaN). -/
def toF32 (v : Val) : Nat := (fmtF32.conv false v false).1

def f32add (a b : Nat) : Nat := toF32 ((f32 a).add (f32 b))
def f32sub (a b : Nat) : Nat := toF32 ((f32 a).add (f32 b).neg)
def f32mul (a b : Nat) : Nat := toF32 ((f32 a).mul (f32 b))
def f32fma (a b c : Nat) : Nat := toF32 (((f32 a).mul (f32 b)).add (f32 c))
def f32neg (a : Nat) : Nat := if (f32 a).isNan then 0x7FC00000 else a ^^^ 0x80000000
def f32abs (a : Nat) : Nat := toF32 (f32 a).abs
def f32le (a b : Nat) : Bool := (f32 a).le (f32 b)
def f32lt (a b : Nat) : Bool := (f32 a).lt (f32 b)
def f32ofInt (i : Int) : Nat := toF32 (.ofInt i)
def f32nan : Nat := 0x7FC00000
def f32one : Nat := 0x3F800000

/-- Larger and smaller of two FP32 words: NaN if either is NaN, +0 above -0 (R187). -/
def f32max (a b : Nat) : Nat :=
  if (f32 a).isNan ∨ (f32 b).isNan then f32nan
  else if (f32 a).isZero ∧ (f32 b).isZero then (if a = 0x80000000 then b else a)
  else if f32lt a b then b else a

def f32min (a b : Nat) : Nat :=
  if (f32 a).isNan ∨ (f32 b).isNan then f32nan
  else if (f32 a).isZero ∧ (f32 b).isZero then (if a = 0x80000000 then a else b)
  else if f32lt a b then a else b

/-- The quotient of two non-zero magnitudes to more than `k` bits, with a sticky bit. -/
def quotBits (k m p : Nat) : Nat × Nat × Bool :=
  let sh := k + Nat.log2 p + 1
  (m * 2 ^ sh / p, sh, decide (m * 2 ^ sh % p ≠ 0))

/-- The correctly rounded quotient in a format. -/
def Fmt.div (f : Fmt) (a b : Val) : Nat :=
  match a, b with
  | .nan, _ => f.nanCode
  | _, .nan => f.nanCode
  | .inf _, .inf _ => f.nanCode
  | .inf n, .fin k _ _ => f.sign (n != k) (f.maxCode + 1)
  | .fin n _ _, .inf k => f.sign (n != k) 0
  | .fin n m e, .fin k p g =>
    if p = 0 then (if m = 0 then f.nanCode else f.sign (n != k) (f.maxCode + 1))
    else if m = 0 then f.sign (n != k) 0
    else
      let (q, sh, st) := quotBits (f.mbits + 4) m p
      (f.conv false (.fin (n != k) q (e - g - sh)) st).1

def f32div (a b : Nat) : Nat := fmtF32.div (f32 a) (f32 b)

/-- Integer square root, one bit a round from bit `k` down. -/
def isqrtGo (v : Nat) : Nat → Nat → Nat
  | 0, r => r
  | k + 1, r => let t := r + 2 ^ k; isqrtGo v k (if t * t ≤ v then t else r)

def isqrt (v : Nat) : Nat := isqrtGo v (Nat.log2 v / 2 + 1) 0

/-- The correctly rounded square root in a format; NaN below -0. -/
def Fmt.sqrt (f : Fmt) (a : Val) : Nat :=
  match a with
  | .nan => f.nanCode
  | .inf n => if n then f.nanCode else f.sign false (f.maxCode + 1)
  | .fin n m e =>
    if m = 0 then f.sign n 0
    else if n then f.nanCode
    else
      let odd := if e % 2 = 0 then 0 else 1
      let w := m * 2 ^ (odd + 2 * (f.mbits + 3))
      let r := isqrt w
      (f.conv false (.fin false r ((e - odd) / 2 - (f.mbits + 3 : Nat))) (decide (r * r ≠ w))).1

def f32sqrt (a : Nat) : Nat := fmtF32.sqrt (f32 a)

/-! ### FP64 on 64-bit words -/

def f64 (v : Nat) : Val := fmtF64.dec v
def toF64 (v : Val) : Nat := (fmtF64.conv false v false).1
def f64add (a b : Nat) : Nat := toF64 ((f64 a).add (f64 b))
def f64sub (a b : Nat) : Nat := toF64 ((f64 a).add (f64 b).neg)
def f64mul (a b : Nat) : Nat := toF64 ((f64 a).mul (f64 b))
def f64fma (a b c : Nat) : Nat := toF64 (((f64 a).mul (f64 b)).add (f64 c))
def f64div (a b : Nat) : Nat := fmtF64.div (f64 a) (f64 b)
def f64sqrt (a : Nat) : Nat := fmtF64.sqrt (f64 a)

/-- FP64 to FP32 with one rounding, and back exactly. -/
def f64to32 (a : Nat) : Nat := toF32 (f64 a)
def f32to64 (a : Nat) : Nat := toF64 (f32 a)

/-! ### CRC-32C -/

/-- One bit of the reflected Castagnoli division. -/
def crcBit (c : Nat) : Nat := if c % 2 = 1 then (c / 2) ^^^ 0x82F63B78 else c / 2

def crcByte (c : Nat) (b : Byte) : Nat :=
  crcBit (crcBit (crcBit (crcBit (crcBit (crcBit (crcBit (crcBit (c ^^^ b.toNat))))))))

/-- CRC-32C of a byte list. -/
def crc32c (l : List Byte) : Nat := (l.foldl crcByte 0xFFFFFFFF) ^^^ 0xFFFFFFFF

end Sys2Proof.Machine
end

