-- ==== Sys2Proof/Machine/Special.lean ====
section
/-!
DEFINITION. Quotients, exponentials, logarithms, circular functions and erf of exact values, formed to far more bits than
any format holds, and results that the spec gives by an error bound (R88, R187, R190): a free function of the operands
within the bound (log entry 14).
-/

namespace Sys2Proof.Machine

/-- The quotient of two finite values to `p` bits, with a last bit set where it is not exact; zero for a zero divisor. -/
def Val.divTo (p : Nat) (a b : Sys2Proof.Machine.Val) : Sys2Proof.Machine.Val :=
  match a, b with
  | .fin n m e, .fin k q g =>
    if q = 0 ∨ m = 0 then .zero
    else
      let (x, sh, st) := quotBits (p + Nat.log2 q) m q
      .fin (n != k) (2 * x + st.toNat) (e - g - sh - 1)
  | _, _ => .zero

def Val.sub (a b : Sys2Proof.Machine.Val) : Sys2Proof.Machine.Val := a.add b.neg

def Val.ofNat (n : Nat) : Sys2Proof.Machine.Val := .fin false n 0

def Val.isNeg : Sys2Proof.Machine.Val → Bool
  | .fin n m _ => n && decide (m ≠ 0)
  | .inf n => n
  | .nan => false

/-- The bits used for quotients and series. -/
def precBits : Nat := 192

def Val.div (a b : Sys2Proof.Machine.Val) : Sys2Proof.Machine.Val := a.divTo precBits b

/-! ### Fixed point: an integer i stands for i / 2^p -/

def Val.toFix (p : Nat) (v : Sys2Proof.Machine.Val) : Int := (v.scale2 p).floor

def ofFix (p : Nat) (i : Int) : Val := .fin (decide (i < 0)) i.natAbs (-(p : Int))

def mulFix (p : Nat) (a b : Int) : Int := a * b / ((2 ^ p : Nat) : Int)

/-- The sum of a series whose term follows from the one before and its index. -/
def series (n : Nat) (first : Int) (next : Nat → Int → Int) : Int :=
  ((List.range n).foldl (fun (x : Int × Int) k => let t := next k x.1; (t, x.2 + t)) (first, first)).2

/-- atan(1/n), and atanh(1/n). -/
def atanInv (p n : Nat) (hyp : Bool) : Int :=
  let x := ((2 ^ p : Nat) : Int) / (n : Int)
  ((List.range (p / 2 + 2)).foldl (fun (a : Int × Int) k =>
    let t := a.1 / (n * n : Nat)
    let t := if hyp then t else -t
    (t, a.2 + t / ((2 * k + 3 : Nat) : Int))) (x, x)).2

def piFix (p : Nat) : Int := 16 * atanInv p 5 false - 4 * atanInv p 239 false
def ln2Fix (p : Nat) : Int := 18 * atanInv p 26 true - 2 * atanInv p 4801 true + 8 * atanInv p 8749 true

/-- The bits needed for an argument: more for a tiny or a large one. -/
def precFor (v : Val) : Nat := precBits + v.ilog2.natAbs

def Val.exp2i (k : Int) : Sys2Proof.Machine.Val := .fin false 1 k

/-- e to the x. -/
def expVal (v : Val) : Val :=
  let p := precFor v
  let x := v.toFix p
  let l := ln2Fix p
  let k := (x + l / 2) / l
  let r := x - k * l
  (ofFix p (series (p / 4 + 8) ((2 ^ p : Nat) : Int) (fun i t => mulFix p t r / ((i + 1 : Nat) : Int)))).scale2 k

/-- 2 to the x. -/
def exp2Val (v : Val) : Val :=
  let k := v.floor
  let f := v.sub (.ofInt k)
  (expVal (f.mul (ofFix precBits (ln2Fix precBits)))).scale2 k

/-- ln x of a positive value. -/
def lnVal (v : Val) : Val :=
  let k := v.ilog2
  let p := 2 * precBits
  let m := (v.scale2 (-k)).toFix p
  let one : Int := ((2 ^ p : Nat) : Int)
  let z := (m - one) * one / (m + one)
  let z2 := mulFix p z z
  let s := ((List.range (p / 2)).foldl (fun (a : Int × Int) i =>
    let t := mulFix p a.1 z2
    (t, a.2 + t / ((2 * i + 3 : Nat) : Int))) (z, z)).2
  ofFix p (2 * s + k * ln2Fix p)

/-- sin and cos of x. -/
def sinCos (v : Val) : Val × Val :=
  let p := precFor v
  let x := v.toFix p
  let h := piFix p / 2
  let k := (x + h / 2) / h
  let r := x - k * h
  let r2 := mulFix p r r
  let sn := series (p / 6 + 8) r (fun i t => -(mulFix p t r2) / (((2 * i + 2) * (2 * i + 3) : Nat) : Int))
  let cs := series (p / 6 + 8) ((2 ^ p : Nat) : Int) (fun i t => -(mulFix p t r2) / (((2 * i + 1) * (2 * i + 2) : Nat) : Int))
  let q := k % 4
  let (a, b) := if q = 0 then (sn, cs) else if q = 1 then (cs, -sn) else if q = 2 then (-sn, -cs) else (-cs, sn)
  (ofFix p a, ofFix p b)

/-- atan x: halved three times by atan x = 2 atan(x / (1 + sqrt(1 + x^2))), then the series. -/
def atanVal (v : Val) : Val :=
  let p := precFor v
  let half (x : Int) : Int :=
    let one : Int := ((2 ^ p : Nat) : Int)
    let r : Int := (isqrt ((one * one + x * x).toNat) : Nat)
    x * one / (one + r)
  let x := half (half (half (v.toFix p)))
  let x2 := mulFix p x x
  let s := ((List.range (p / 4 + 8)).foldl (fun (a : Int × Int) i =>
    let t := -(mulFix p a.1 x2)
    (t, a.2 + t / ((2 * i + 3 : Nat) : Int))) (x, x)).2
  ofFix p (8 * s)

/-- erf x; ±1 beyond 12. -/
def erfVal (v : Val) : Val :=
  if (Val.ofNat 12).le v.abs then .fin v.isNeg 1 0
  else
    let p := 2 * precBits
    let x := v.toFix p
    let x2 := mulFix p x x
    let s := ((List.range 600).foldl (fun (a : Int × Int) i =>
      let t := -(mulFix p a.1 x2) / ((i + 1 : Nat) : Int)
      (t, a.2 + t / ((2 * i + 3 : Nat) : Int))) (x, x)).2
    let rtPi : Int := (isqrt ((piFix p).toNat * 2 ^ p) : Nat)
    ofFix p (2 * s * ((2 ^ p : Nat) : Int) / rtPi)

/-- tanh x. -/
def tanhVal (v : Val) : Val :=
  if (Val.ofNat 200).le v.abs then .fin v.isNeg 1 0
  else
    let e := expVal (v.scale2 1)
    (e.sub (.ofNat 1)).div (e.add (.ofNat 1))

/-- The square root of a positive value to `precBits` bits. -/
def sqrtVal (v : Val) : Val :=
  match v with
  | .fin false m e =>
    let odd := if e % 2 = 0 then 0 else 1
    .fin false (isqrt (m * 2 ^ (odd + 2 * precBits))) ((e - odd) / 2 - (precBits : Nat))
  | _ => .zero

/-! ### Results within a bound -/

/-- One unit in the last place of FP32 at a value. -/
def ulpAt (v : Val) : Val := if v.isZero then .exp2i (-149) else .exp2i (max v.ilog2 (-126) - 23)

/-- An FP32 result that lies within `bound` of an exact value: a free function of the operands where it keeps the bound,
else the nearest FP32 value (log entry 14). -/
def boundedF32 (site : Nat) (ops : List Nat) (exact bound : Val) : Nat :=
  let c := Config.openFn site ops % 2 ^ 32
  if (f32 c).isFin && ((f32 c).sub exact).abs.le bound then c else toF32 exact

def maxVal (a b : Val) : Val := if a.le b then b else a

end Sys2Proof.Machine
end

