-- ==== Sys2Proof/Machine/Geo.lean ====
section
/-!
DEFINITION. Three-vectors of FP32 words, rotation vectors and rigid transforms (R92, R97, R117).
-/

namespace Sys2Proof.Machine

def v30 : V3 := ⟨0, 0, 0⟩

def V3.add (a b : Sys2Proof.Machine.V3) : Sys2Proof.Machine.V3 := ⟨f32add a.x b.x, f32add a.y b.y, f32add a.z b.z⟩

/-- The bytes of a three-vector: FP32 × 3. -/
def V3.bytes (a : Sys2Proof.Machine.V3) : List Byte := toBytes 4 a.x ++ toBytes 4 a.y ++ toBytes 4 a.z

/-- A rate times a time in ns: the exact product in units per second, rounded once (log entry 15). -/
def rateTimes (w : Nat) (ns : Int) : Nat := toF32 (((f32 w).mul (.ofInt ns)).div (.ofNat 1000000000))

def V3.over (w : Sys2Proof.Machine.V3) (ns : Int) : Sys2Proof.Machine.V3 :=
  ⟨rateTimes w.x ns, rateTimes w.y ns, rateTimes w.z ns⟩

/-- A rotation matrix in FP32, by rows. -/
structure M3 where
  r0 : V3
  r1 : V3
  r2 : V3
  deriving DecidableEq, Repr

def m3id : M3 := ⟨⟨f32one, 0, 0⟩, ⟨0, f32one, 0⟩, ⟨0, 0, f32one⟩⟩

/-- rot(r): each entry of the rotation by the rotation vector r, rounded once to FP32 (R117, log entry 15). -/
def rotMat (r : V3) : M3 :=
  let x := f32 r.x
  let y := f32 r.y
  let z := f32 r.z
  let t2 := ((x.mul x).add (y.mul y)).add (z.mul z)
  if t2.isZero || !t2.isFin then m3id
  else
    let th := sqrtVal t2
    let (sn, cs) := sinCos th
    let a := sn.div th
    let b := ((Val.ofNat 1).sub cs).div t2
    let e (u v w : Val) (neg : Bool) : Nat :=
      let k := a.mul w
      toF32 ((b.mul (u.mul v)).add (if neg then k.neg else k))
    let d (u v : Val) : Nat := toF32 ((Val.ofNat 1).sub (b.mul ((u.mul u).add (v.mul v))))
    ⟨⟨d y z, e x y z true, e x z y false⟩, ⟨e x y z false, d x z, e y z x true⟩, ⟨e x z y true, e y z x false, d x y⟩⟩

def dot3 (a b : V3) : Nat := f32add (f32add (f32mul a.x b.x) (f32mul a.y b.y)) (f32mul a.z b.z)

def M3.apply (m : Sys2Proof.Machine.M3) (p : V3) : V3 := ⟨dot3 m.r0 p, dot3 m.r1 p, dot3 m.r2 p⟩

/-- ns of two stamps apart, signed. -/
def nsDiff (a b : Nat) : Int := (a : Int) - (b : Int)

/-- A signed value saturated to 32 bits. -/
def sat32 (i : Int) : Nat := satI 32 i

end Sys2Proof.Machine
end

