-- ==== Sys2Proof/Machine/TimeOps.lean ====
section
/-!
DEFINITION. Timebases, their servo and sources, phase domains and their tracker, gPTP best-master selection, pulse
outputs, and what one TIME_CLK cycle does to them (02_time.md).
-/

namespace Sys2Proof.Machine

/-! ### Timebases -/

/-- ±500 ppm in RATE_ADJ units (R31). -/
def rateLimit : Int := 549755814

/-- The source code of a timebase; codes 4 to 7 act as 0. -/
def srcCode (v : Nat) : Nat := if v ≤ 3 then v else 0

def State.tbSource (s : State) (n : Nat) : Nat := srcCode (s.rd (F.TB_CTRL_SOURCE n))
def State.tbAlt (s : State) (n : Nat) : Nat := srcCode (s.rd (F.TB_CTRL_SOURCE_ALT n))

/-- The source that disciplines TB_n. -/
def State.tbActive (s : State) (n : Nat) : Nat :=
  if s.on (F.TB_STATUS_ON_ALT n) then s.tbAlt n else s.tbSource n

/-- TB_n has no source: the software owns it (R32). -/
def State.tbFree (s : State) (n : Nat) : Bool := s.tbSource n = 0 ∧ s.tbAlt n = 0

/-- TB_n in 1/65,536 ns. -/
def State.tbFine (s : State) (n : Nat) : Nat := (s.tb n).t48 / 2 ^ 32

/-- RATE_ADJ, and the part of a pending slew, that one cycle applies: their total is clamped to ±500 ppm (R31). In units
of 2^-48 ns per cycle. -/
def cycleAdj (rate slew : Int) : Int × Int :=
  let r := clampI (-rateLimit) rateLimit rate
  let room := if 0 < slew then rateLimit - r else -rateLimit - r
  let part := if 0 < slew then min slew (room * 256) else max slew (room * 256)
  (r * 256, if slew = 0 then 0 else part)

/-- One TIME_CLK cycle of TB_n: it enters FREE or ACQUIRING when it is enabled (R30), and advances by
(1 + RATE_ADJ 2^-40) ns plus the slew (R31). -/
def tickTb (s : State) (n : Nat) : State :=
  if s.on (F.TB_CTRL_ENABLE n) then
    let s := if s.rd (F.TB_STATUS_STATE n) = 0 then
        s.wr (F.TB_STATUS_STATE n) (if s.tbFree n then 1 else 2) else s
    let t := s.tb n
    let (r, p) := cycleAdj (s.rdS (F.TB_RATE_RATE_ADJ n)) t.slew
    let s := s.setTb n { t with t48 := ((t.t48 : Int) + 2 ^ 48 + r + p).toNat, slew := t.slew - p }
    if 4 ≤ s.rd (F.TB_STATUS_STATE n) then
      s.wr (F.TB_STATUS_HOLDOVER_AGE_MS n)
        (min (max (s.rd (F.TB_STATUS_HOLDOVER_AGE_MS n)) ((s.now - t.holdStart) / 1000000)) (2 ^ 32 - 1))
    else s
  else s

/-! ### Phase events: what is due (R46) -/

def State.ph (s : State) (k : Nat) : Ph := mget ph0 s.time.ph k
def State.setPh (s : State) (k : Nat) (p : Ph) : State :=
  { s with time := { s.time with ph := mset ph0 s.time.ph k p } }
def State.pe (s : State) (j : Nat) : Pe := mget pe0 s.time.pe j
def State.setPe (s : State) (j : Nat) (p : Pe) : State :=
  { s with time := { s.time with pe := mset pe0 s.time.pe j p } }

/-- The 32-bit phase of PH_k: revolutions modulo 256 in [31:24], fraction in [23:0]. -/
def Ph.phase (p : Sys2Proof.Machine.Ph) : Nat := p.acc / 2 ^ 24

/-- Stamps derived from PH_k carry HOLDOVER: the domain is in ACQUIRING, HOLDOVER or LOST (R29). -/
def State.phHold (s : State) (k : Nat) : Bool :=
  let st := s.rd (F.PH_STATUS_STATE k)
  st = 1 ∨ st = 3 ∨ st = 4

/-- Events against PH_k match: the domain is neither OFF nor LOST (R43, R44). -/
def State.phMatching (s : State) (k : Nat) : Bool :=
  let st := s.rd (F.PH_STATUS_STATE k)
  st = 1 ∨ st = 2 ∨ st = 3

/-- The target of a time event in 1/65,536 ns. -/
def State.peFine (s : State) (j : Nat) : Nat :=
  s.rd (F.PE_TARGET_TARGET j) * 65536 + s.rd (F.PE_AUX_TARGET_FRAC j)

/-- The modulus a phase event compares in: 2^32 with MATCH_REV, 2^24 without. -/
def State.peMod (s : State) (j : Nat) : Nat := if s.on (F.PE_CTRL_MATCH_REV j) then 2 ^ 32 else 2 ^ 24

/-- Distance from `a` forward to `b` modulo `m`. -/
def fwd (m a b : Nat) : Nat := (b % m + m - a % m) % m

/-- The stamp of an event that acts late: the timebase now (R512). -/
def State.peLateStamp (s : State) (j : Nat) : BitVec 128 :=
  let src := s.rd (F.PE_CTRL_SOURCE j)
  if s.on (F.PE_CTRL_KIND j) then s.stamp src
  else
    let n := s.rd (F.PH_CTRL_TB src)
    mkTs128 (s.tb n).t48 n false (s.tbHold n || s.phHold src)

/-- Marks PE_j due late (R46): it acts in the cycle after, stamped with the time then. -/
def State.dueLate (s : State) (j : Nat) (step : Bool) : State :=
  let src := s.rd (F.PE_CTRL_SOURCE j)
  s.setPe j ⟨true, true, step, s.peLateStamp j, s.now * 65536, s.now,
    if s.on (F.PE_CTRL_KIND j) then 0 else (s.ph src).phase⟩

/-- Whether an armed event's target is already reached (R46): a time event whose timebase is at or past it, a
MATCH_REV = 1 event whose (target − now) mod 2^32 is 0 or at least 2^31; a MATCH_REV = 0 event never. -/
def State.peReached (s : State) (j : Nat) : Bool :=
  let src := s.rd (F.PE_CTRL_SOURCE j)
  if s.on (F.PE_CTRL_KIND j) then s.peFine j ≤ s.tbFine src
  else if s.on (F.PE_CTRL_MATCH_REV j) ∧ s.phMatching src then
    let d := fwd (2 ^ 32) (s.ph src).phase (s.rd (F.PE_TARGET_TARGET j))
    d = 0 ∨ 2 ^ 31 ≤ d
  else false

/-- One TIME_CLK cycle for PE_j: an armed event whose target was crossed in the cycle is due, stamped with its target
(R46, R512), a phase event with its sub-nanosecond fraction interpolated as (target − prev) / rate_now. -/
def tickPe (s : State) (j : Nat) : State :=
  if s.on (F.PE_CTRL_ARM j) ∧ (s.pe j).due = false then
    let src := s.rd (F.PE_CTRL_SOURCE j)
    if s.on (F.PE_CTRL_KIND j) then
      if s.peFine j ≤ s.tbFine src then
        s.setPe j ⟨true, false, false, mkTs128 (s.peFine j * 2 ^ 32) src false (s.tbHold src),
          s.now * 65536 - (s.tbFine src - s.peFine j), s.now, 0⟩
      else s
    else if s.phMatching src then
      let p := s.ph src
      let m := s.peMod j
      let t := s.rd (F.PE_TARGET_TARGET j)
      let d := fwd m (p.prev / 2 ^ 24) t
      if 0 < d ∧ d ≤ fwd m (p.prev / 2 ^ 24) p.phase then
        let n := s.rd (F.PH_CTRL_TB src)
        let gap := fwd (m * 2 ^ 24) p.prev (t * 2 ^ 24)
        let frac := min (gap * 65536 / max p.rateNow 1) 65536
        let at48 := (s.tb n).t48 - 2 ^ 48 + frac * 2 ^ 32
        s.setPe j ⟨true, false, false, mkTs128 at48 n false (s.tbHold n || s.phHold src),
          (s.now - 1) * 65536 + frac, s.now, (p.phase + 2 ^ 32 - fwd (2 ^ 24) t p.phase) % 2 ^ 32⟩
      else s
    else s
  else s

/-- Phase domain PH_k over one cycle: the phase advances by rate_now, unless the domain is OFF, LOST, or frozen in
HOLDOVER (R41, R43, R44). -/
def tickPh (s : State) (k : Nat) : State :=
  let p := s.ph k
  let st := s.rd (F.PH_STATUS_STATE k)
  let runs := st = 1 ∨ st = 2 ∨ (st = 3 ∧ s.rd (F.PH_CTRL_HOLD_FREEZE k) = 0)
  s.setPh k { p with prev := p.acc, acc := if runs then (p.acc + p.rateNow) % 2 ^ 56 else p.acc }

/-- One TIME_CLK cycle of the TIME block. -/
def tickTime (s : State) : State :=
  let s := (List.range 8).foldl tickTb s
  let s := (List.range 8).foldl tickPh s
  (List.range 64).foldl tickPe s

/-! ### Steps of a timebase (R33, R36) -/

/-- A timebase set to a new value in one cycle: STEPS counts it, and every armed time event whose target it steps over
is due late (R36). A step backward fires nothing. -/
def State.stepTb (s : State) (n t48 : Nat) : State :=
  let old := s.tbFine n
  let s := (s.setTb n { s.tb n with t48 := t48 }).bump (F.TB_STATUS_STEPS n)
  (List.range 64).foldl (fun s j =>
    if s.on (F.PE_CTRL_ARM j) ∧ s.on (F.PE_CTRL_KIND j) ∧ s.rd (F.PE_CTRL_SOURCE j) = n ∧
        old < s.peFine j ∧ s.peFine j ≤ s.tbFine n ∧ (s.pe j).due = false then s.dueLate j true
    else s) s

/-- A timebase stepped by an offset in 1/65,536 ns. -/
def State.stepTbBy (s : State) (n : Nat) (o : Int) : State :=
  s.stepTb n (((s.tb n).t48 : Int) + o * 2 ^ 32).toNat

/-! ### Sources, lock and holdover (R34, R35, R509) -/

def Tb.win (t : Sys2Proof.Machine.Tb) (code : Nat) : ObsWin :=
  if code = 1 then t.win0 else if code = 2 then t.win1 else t.win2

def Tb.setWin (t : Sys2Proof.Machine.Tb) (code : Nat) (w : ObsWin) : Sys2Proof.Machine.Tb :=
  if code = 1 then { t with win0 := w } else if code = 2 then { t with win1 := w } else { t with win2 := w }

/-- LOCK_THRESHOLD_NS, 0 taken as 1, in 1/65,536 ns. -/
def State.tbLockThr (s : State) (n : Nat) : Int := (max 1 (s.rd (F.TB_CTRL_LOCK_THRESHOLD_NS n)) * 65536 : Nat)

/-- STEP_THRESHOLD_NS, below 100 taken as 100, in 1/65,536 ns. -/
def State.tbStepThr (s : State) (n : Nat) : Int := (max 100 (s.rd (F.TB_CTRL_STEP_THRESHOLD_NS n)) * 65536 : Nat)

/-- An observation enters a source's qualification window; one that would let the offset vary by more than
LOCK_THRESHOLD_NS starts a new window (R34). -/
def winAdd (w : ObsWin) (thr : Int) (now : Nat) (o : Int) : ObsWin :=
  let lo := min w.lo o
  let hi := max w.hi o
  if w.n = 0 ∨ thr < hi - lo then ⟨1, now, now, o, o, o⟩ else ⟨w.n + 1, w.first, now, lo, hi, o⟩

/-- At least two observations in a window of at least 10 ms (R34). -/
def ObsWin.qualified (w : Sys2Proof.Machine.ObsWin) : Bool := 2 ≤ w.n ∧ w.first + 10000000 ≤ w.last

/-- A source is named and qualified (R34). -/
def State.srcQualified (s : State) (n code : Nat) : Bool := code ≠ 0 ∧ ((s.tb n).win code).qualified

/-- A switch of TB_n to SOURCE or SOURCE_ALT (R35): SWITCHING and ACQUIRING, and the offset to the new source removed by
a slew, or by a step when it is above STEP_THRESHOLD_NS. -/
def State.switchTb (s : State) (n : Nat) (alt : Bool) : State :=
  let code := if alt then s.tbAlt n else s.tbSource n
  let o := ((s.tb n).win code).off
  let s := ((s.wr (F.TB_STATUS_ON_ALT n) alt.toNat).wr (F.TB_STATUS_SWITCHING n) 1).wr (F.TB_STATUS_STATE n) 2
  let s := s.wr (F.TB_STATUS_HOLDOVER_AGE_MS n) 0
  let s := s.setTb n { s.tb n with lockRun := 0, lastObs := none }
  if s.tbStepThr n < o.natAbs then s.stepTbBy n o
  else s.setTb n { s.tb n with slew := o * 2 ^ 32 }

/-- RATE_ADJ from a value in 2^-16 units, rounded to nearest with ties to even and clamped (R509, R31). -/
def State.setRate (s : State) (n : Nat) (v : Int) : State :=
  s.wr (F.TB_RATE_RATE_ADJ n) (unsgn 32 (clampI (-rateLimit) rateLimit (divRne v 65536)))

/-- Entry into HOLDOVER: RATE_ADJ is frozen at the integral (R34, R509). -/
def State.enterHoldover (s : State) (n : Nat) : State :=
  let s := s.setRate n (s.tb n).integral
  let s := (s.wr (F.TB_STATUS_STATE n) 4).wr (F.TB_STATUS_HOLDOVER_AGE_MS n) 0
  s.setTb n { s.tb n with holdStart := s.now, lockRun := 0, lastObs := none }

/-- The servo on an observation `o` (1/65,536 ns) of the active source ("Lock, holdover and source switching", R509). -/
def State.servo (s : State) (n : Nat) (o : Int) : State :=
  let s := s.wr (F.TB_OFFSET_OFFSET n) (unsgn 64 o)
  if s.tbStepThr n < o.natAbs then
    let s := (s.stepTbBy n o).wr (F.TB_STATUS_STATE n) 2
    s.setTb n { s.tb n with lockRun := 0, lastObs := some s.now }
  else
    let t := s.tb n
    let s := match t.lastObs with
      | none => s
      | some l =>
        if l < s.now then
          let dt := s.now - l
          let integral := clampI (-(rateLimit * 65536)) (rateLimit * 65536) (t.integral + divRne (o * 2 ^ 34) dt)
          (s.setTb n { t with integral := integral }).setRate n (integral + divRne (o * 2 ^ 38) dt)
        else s
    let run := if (o.natAbs : Int) ≤ s.tbLockThr n then t.lockRun + 1 else 0
    let s := s.setTb n { s.tb n with lockRun := run, lastObs := some s.now }
    if s.rd (F.TB_STATUS_STATE n) = 2 ∧ 3 ≤ run then
      (s.wr (F.TB_STATUS_STATE n) 3).wr (F.TB_STATUS_SWITCHING n) 0
    else s

/-- An observation of source `code` by TB_n: it enters the source's window; the active source feeds the servo; in
HOLDOVER the first of SOURCE and SOURCE_ALT that qualifies is switched to; a completed switch goes back to a qualified
SOURCE when REVERTIVE is 1 (R34, R35). -/
def State.tbObserve (s : State) (n code : Nat) (o : Int) : State :=
  if code = 0 ∨ (code ≠ s.tbSource n ∧ code ≠ s.tbAlt n) then s
  else
    let t := s.tb n
    let s := s.setTb n (t.setWin code (winAdd (t.win code) (s.tbLockThr n) s.now o))
    let st := s.rd (F.TB_STATUS_STATE n)
    if st = 4 ∨ st = 5 then
      if s.srcQualified n (s.tbSource n) then s.switchTb n false
      else if s.srcQualified n (s.tbAlt n) then s.switchTb n true
      else s
    else if code = s.tbActive n then (if st = 2 ∨ st = 3 then s.servo n o else s)
    else if s.on (F.TB_STATUS_ON_ALT n) ∧ s.on (F.TB_CTRL_REVERTIVE n) ∧ s.rd (F.TB_STATUS_SWITCHING n) = 0 ∧
        code = s.tbSource n ∧ s.srcQualified n code then s.switchTb n false
    else s

/-- The active source of TB_n is lost (R34): the other source if it is qualified, else HOLDOVER. -/
def State.tbLost (s : State) (n code : Nat) : State :=
  let s := s.setTb n ((s.tb n).setWin code win0)
  let st := s.rd (F.TB_STATUS_STATE n)
  if code ≠ 0 ∧ s.tbActive n = code ∧ (st = 2 ∨ st = 3) then
    let toAlt := !s.on (F.TB_STATUS_ON_ALT n)
    let other := if toAlt then s.tbAlt n else s.tbSource n
    if s.srcQualified n other then s.switchTb n toAlt else s.enterHoldover n
  else s

/-! ### gPTP (R37 to R39, R505) -/

def vec0 : GptpVec := ⟨0, 0, 0, 0⟩

/-- The root word of a priority vector, most significant part first (R38). -/
def rootWord (p1 cls acc var p2 id : Nat) : Nat :=
  ((((p1 * 256 + cls) * 256 + acc) * 65536 + var) * 256 + p2) * 2 ^ 64 + id

/-- clockIdentity of domain d: GPTP_d_CLOCK_ID, or formed from SERIAL where the image sets none (R38). -/
def State.clockId (s : State) (d : Nat) : Nat :=
  let v := s.rd (F.GPTP_CLOCK_ID_CLOCK_ID d)
  if v = 0 then 0x5642 * 2 ^ 48 + s.rd F.SERIAL_SERIAL % 2 ^ 48 else v

/-- The module's own root word in domain d: priority1 is 255 where it may not become grandmaster (R37). -/
def State.ownRoot (s : State) (d : Nat) : Nat :=
  rootWord (if s.on (F.GPTP_CTRL_GM_CAPABLE d) then s.rd (F.GPTP_CTRL_PRIORITY1 d) else 255)
    (s.rd (F.GPTP_CTRL_CLOCK_CLASS d)) (s.rd (F.GPTP_CTRL_CLOCK_ACCURACY d)) Config.gptpVariance
    (s.rd (F.GPTP_CTRL_PRIORITY2 d)) (s.clockId d)

/-- Domain d runs: enabled and without a configuration error (R39). -/
def State.gptpRuns (s : State) (d : Nat) : Bool :=
  s.on (F.GPTP_CTRL_ENABLE d) && !s.on (F.GPTP_STATUS_CONFIG_ERROR d)

/-- One domain's configuration conflicts (R39). -/
def State.gptpConflict (s : State) (d : Nat) : Bool :=
  let n := s.rd (F.GPTP_CTRL_TB d)
  let ok (c : Nat) : Bool := c = 0 ∨ c = d + 1
  let ports := s.rd (F.GPTP_CTRL_PORT_EN d)
  (!ok (s.tbSource n) && !ok (s.tbAlt n)) ||
  (s.rd (F.GPTP_CTRL_RELAY d) = 0 && decide (1 < (bitList ports 4).length)) ||
  (s.on (F.GPTP_CTRL_ENABLE 0) && s.on (F.GPTP_CTRL_ENABLE 1) &&
    decide (s.rd (F.GPTP_CTRL_DOMAIN_NUMBER 0) = s.rd (F.GPTP_CTRL_DOMAIN_NUMBER 1))) ||
  (bitList ports 4).any (fun p => !s.on (F.ETH_CTRL_ENABLE p))

/-- A received vector as an ordered key: root, steps removed, sender, receiving MAC; the lower wins (R38). -/
def vecKey (v : GptpVec) (mac : Nat) : Nat := ((v.root * 65536 + v.steps) * 2 ^ 80 + v.sender) * 4 + mac

def State.gptpVec (s : State) (d mac : Nat) : Option GptpVec :=
  let v := mget vec0 s.time.vec (4 * d + mac)
  if v = vec0 then none else some v

/-- Best-master selection in domain d (R38): the lowest vector among the enabled MACs and the module's own decides the
grandmaster and the port roles; with EXT_CONFIG the roles are GPTP_d_TIMING's and the slave port's vector names the
grandmaster. -/
def State.bestMaster (s : State) (d : Nat) : State :=
  if !s.gptpRuns d then s
  else
    let ports := bitList (s.rd (F.GPTP_CTRL_PORT_EN d)) 4
    let ext := s.on (F.GPTP_CTRL_EXT_CONFIG d)
    let roleOf (p : Nat) : Nat := bits (s.rd (F.GPTP_TIMING_EXT_ROLE d)) (2 * p) 2
    let cand := ports.filterMap (fun p =>
      if ext ∧ roleOf p ≠ 2 then none else (s.gptpVec d p).map (fun v => (vecKey v p, p, v)))
    let best := cand.foldl (fun b c => match b with
      | none => some c
      | some x => if c.1 < x.1 then some c else some x) (none : Option (Nat × Nat × GptpVec))
    let own := vecKey ⟨s.ownRoot d, 0, s.clockId d * 65536, s.clockId d⟩ 0
    let slave := best.filter (fun b => ext || decide (b.1 < own))
    let (root, steps, gm, present, isGm) := match slave with
      | some (_, _, v) => (v.root, v.steps + 1, v.gmId, true, false)
      | none =>
        let g := s.on (F.GPTP_CTRL_GM_CAPABLE d)
        (s.ownRoot d, 0, if g then s.clockId d else 0, g, g)
    let roles := (List.range 4).foldl (fun acc p =>
      let r := if p ∉ ports then 0
        else if ext then roleOf p
        else match slave with
          | some (_, q, _) => if q = p then 2 else
            match s.gptpVec d p with
              | some v => if vecKey v p < vecKey ⟨root, steps, s.clockId d * 65536 + p + 1, gm⟩ p then 3 else 1
              | none => 1
          | none => 1
      acc + r * 4 ^ p) 0
    let changed := s.rd (F.GPTP_GM_ID_GM_ID d) ≠ gm
    let s := if changed then s.bump (F.GPTP_COUNTS_GM_CHANGES d) else s
    let s := (s.wr (F.GPTP_GM_ID_GM_ID d) gm).wr (F.GPTP_STATUS_PORT_STATE d) roles
    let s := (s.wr (F.GPTP_STATUS_IS_GM d) isGm.toNat).wr (F.GPTP_STATUS_GM_PRESENT d) present.toNat
    s.wr (F.GPTP_STATUS_STEPS_REMOVED d) steps

/-- The configuration checks of R39 on both domains, after a write that can change them. -/
def State.gptpCheck (s : State) : State :=
  [0, 1].foldl (fun s d =>
    let s := s.wr (F.GPTP_STATUS_CONFIG_ERROR d) (s.on (F.GPTP_CTRL_ENABLE d) && s.gptpConflict d).toNat
    s.bestMaster d) s

/-! ### Phase domains: the tracker (R40 to R44, R506) -/

/-- The modulus of a domain's observations, in 2^-24 revolution: one revolution, or 2^32 for a software source. -/
def State.phObsMod (s : State) (k : Nat) : Nat :=
  let c := s.rd (F.PH_CTRL_SOURCE k)
  if c = 0 ∨ 4 < c then 2 ^ 32 else 2 ^ 24

/-- The error of an observation in (−m/2, m/2]. -/
def wrapErr (m : Nat) (obs phase : Nat) : Int :=
  let d := fwd m phase obs
  if 2 * d ≤ m then (d : Int) else (d : Int) - (m : Int)

/-- The observed fraction: floor(((raw − ZERO_OFFSET) mod UNITS_PER_REV) 2^24 / UNITS_PER_REV) (R40). -/
def State.phFraction (s : State) (k : Nat) (raw : Int) : Nat :=
  let u := s.rd (F.PH_SCALE_UNITS_PER_REV k)
  ((raw - (s.rd (F.PH_SCALE_ZERO_OFFSET k) : Int)) % (u : Int)).toNat * 2 ^ 24 / u

/-- Every armed phase event of PH_k whose target lies in (old, old + d]: due late on a step, counted in SKIPPED on a
jump (R44, R46). -/
def State.phCrossed (s : State) (k old d : Nat) (jump : Bool) : State :=
  (List.range 64).foldl (fun s j =>
    if s.on (F.PE_CTRL_ARM j) ∧ s.rd (F.PE_CTRL_KIND j) = 0 ∧ s.rd (F.PE_CTRL_SOURCE j) = k then
      let g := fwd (s.peMod j) old (s.rd (F.PE_TARGET_TARGET j))
      if 0 < g ∧ g ≤ d then
        if jump then s.bump (F.PE_STATUS_SKIPPED j)
        else if (s.pe j).due then s else s.dueLate j true
      else s
    else s) s

/-- The lock counters of the tracker: ACQUIRING to LOCKED after 8 consecutive observations within LOCK_THRESHOLD, LOCKED
to ACQUIRING after 8 consecutive ones above it (R42). -/
def State.phLock (s : State) (k : Nat) (e : Int) : State :=
  let p := s.ph k
  let inside := e.natAbs ≤ s.rd (F.PH_LIMITS_LOCK_THRESHOLD k)
  let p := if inside then { p with good := p.good + 1, bad := 0 } else { p with good := 0, bad := p.bad + 1 }
  let st := s.rd (F.PH_STATUS_STATE k)
  if st = 1 ∧ 8 ≤ p.good then (s.setPh k { p with bad := 0 }).wr (F.PH_STATUS_STATE k) 2
  else if st = 2 ∧ 8 ≤ p.bad then (s.setPh k { p with good := 0, bad := 0 }).wr (F.PH_STATUS_STATE k) 1
  else s.setPh k p

/-- The pseudocode of R42 on an observation at `t`, `dt` after the last one; `held` takes the error against the phase as
it is held (R44). -/
def State.phTrack (s : State) (k : Nat) (t : Int) (obs swRate : Nat) (dt : Int) (held : Bool) : State :=
  let p := s.ph k
  let n := s.rd (F.PH_CTRL_TB k)
  let back := if held then 0 else (((s.tb n).t48 / 2 ^ 48 : Nat) : Int) - t
  let at48 := (((p.acc : Int) - (p.rateNow : Int) * back) % 2 ^ 56).toNat
  let e := wrapErr (s.phObsMod k) obs (at48 / 2 ^ 24)
  let thr : Int := (s.rd (F.PH_LIMITS_STEP_THRESHOLD k) * 16 : Nat)
  if thr < e then
    let old := p.phase
    let s := (s.setPh k { p with acc := (p.acc + e.toNat * 2 ^ 24) % 2 ^ 56, last := some (t, obs),
                                 good := 0, bad := 0 }).bump (F.PH_STATUS_STEPS k)
    let s := if s.rd (F.PH_STATUS_STATE k) = 2 then s.wr (F.PH_STATUS_STATE k) 1 else s
    s.phCrossed k old e.toNat false
  else if e < -thr then
    ((s.setPh k { p with rate := 0, rateNow := 0, last := some (t, obs) }).wr (F.PH_STATUS_REVERSED k) 1).phLock k e
  else
    let q := e * 2 ^ 24 / dt
    let sh (b : Nat) : Int := q / ((2 ^ b : Nat) : Int)
    let rate := if swRate ≠ 0 then swRate else ((p.rate : Int) + sh (s.rd (F.PH_CTRL_BETA k))).toNat
    let now := ((rate : Int) + sh (s.rd (F.PH_CTRL_ALPHA k))).toNat
    ((s.setPh k { p with rate := rate, rateNow := now, last := some (t, obs) }).wr
      (F.PH_STATUS_REVERSED k) 0).phLock k e

/-- The rate from two observations over dt, floored; two index pulses lie one revolution apart (log entry 7). -/
def obsRate (m : Nat) (index : Bool) (a b : Nat) (dt : Int) : Nat :=
  let d := if index ∧ fwd m a b = 0 then 2 ^ 24 else fwd m a b
  (((d * 2 ^ 24 : Nat) : Int) / dt).toNat

/-- The first observation in LOST: a jump forward to the next phase with the observed fraction (R44). -/
def State.phJump (s : State) (k : Nat) (t : Int) (obs : Nat) : State :=
  let p := s.ph k
  let d := let x := fwd (2 ^ 24) p.phase obs; if x = 0 then 2 ^ 24 else x
  let acc := (p.phase + d) % 2 ^ 32 * 2 ^ 24
  let s := s.phCrossed k p.phase d true
  s.setPh k { p with acc := acc, prev := acc, last := some (t, obs), awaitSecond := true, good := 0, bad := 0 }

/-- An observation (time in ns of the domain's timebase, value in 2^-24 revolution) of an enabled domain: the tracker's
action and the lock state (R42, R43, R44, R506). -/
def State.phObserve (s : State) (k : Nat) (t : Int) (obs swRate : Nat) : State :=
  let st := s.rd (F.PH_STATUS_STATE k)
  if st = 0 then s
  else
    let p := s.ph k
    let m := s.phObsMod k
    match p.last with
    | none =>
      let acc := obs % 2 ^ 32 * 2 ^ 24
      let s := s.setPh k { p with acc := acc, prev := acc, last := some (t, obs), awaitSecond := true, seen := s.now }
      s.bumpW (F.PH_STATUS_OBS_COUNT k)
    | some (t0, o0) =>
      if t ≤ t0 then s
      else
        let s := (s.setPh k { p with seen := s.now }).bumpW (F.PH_STATUS_OBS_COUNT k)
        let dt := t - t0
        if st = 4 ∧ !p.awaitSecond then s.phJump k t obs
        else
          let s := if p.awaitSecond then
              let r := obsRate m (s.rd (F.PH_CTRL_SOURCE k) = 4) o0 obs dt
              let s := s.setPh k { s.ph k with rate := r, rateNow := r, awaitSecond := false, good := 0, bad := 0 }
              if st = 4 then (s.wr (F.PH_STATUS_STATE k) 1).bump (F.PH_STATUS_REACQUIRES k) else s
            else s
          let s := if st = 3 then (s.setPh k { s.ph k with good := 0, bad := 0 }).wr (F.PH_STATUS_STATE k) 1 else s
          s.phTrack k t obs swRate dt (st = 4)

/-- An observation the source of PH_k delivers: raw units at a port stamp in ns, less LATENCY_NS (R40); the tracker acts
on it at the next PHASE_OBSERVATION. -/
def State.phDeliver (s : State) (k : Nat) (raw stamp : Int) : State :=
  if s.on (F.PH_CTRL_ENABLE k) ∧ s.rd (F.PH_SCALE_UNITS_PER_REV k) ≠ 0 then
    let p := s.ph k
    s.setPh k { p with obs := p.obs ++ [(stamp - (s.rd (F.PH_SOURCE_CFG_LATENCY_NS k) : Int), s.phFraction k raw)] }
  else s

/-- Delivers an observation to every domain with this source and index (the phase domain sources table). -/
def State.phDeliverAll (s : State) (source index : Nat) (raw stamp : Int) : State :=
  (List.range 8).foldl (fun s k =>
    if s.rd (F.PH_CTRL_SOURCE k) = source ∧ s.rd (F.PH_CTRL_SOURCE_INDEX k) = index then s.phDeliver k raw stamp
    else s) s

/-- The domain is enabled: ACQUIRING with phase 0, rate and rate_now 0 and no last observation; STEPS and REACQUIRES
stand (R506). A domain without units per revolution does not run; a cleared ENABLE takes it OFF. -/
def State.phEnable (s : State) (k : Nat) : State :=
  if s.on (F.PH_CTRL_ENABLE k) ∧ s.rd (F.PH_SCALE_UNITS_PER_REV k) ≠ 0 then
    let s := s.setPh k { ph0 with seen := s.now, swTime := (s.ph k).swTime }
    (s.wr (F.PH_STATUS_STATE k) 1).wr (F.PH_STATUS_REVERSED k) 0
  else s

/-- ENABLE cleared: the domain is OFF. -/
def State.phDisable (s : State) (k : Nat) : State :=
  if s.on (F.PH_CTRL_ENABLE k) ∧ s.rd (F.PH_SCALE_UNITS_PER_REV k) ≠ 0 then s
  else (s.wr (F.PH_STATUS_STATE k) 0).wr (F.PH_STATUS_REVERSED k) 0

/-! ### Pulse outputs (R51) -/

def State.pulse (s : State) (n : Nat) : Pulse := mget pulse0 s.time.pulse n
def State.setPulse (s : State) (n : Nat) (p : Pulse) : State :=
  { s with time := { s.time with pulse := mset pulse0 s.time.pulse n p } }

/-- A pulse started with its edge at `edge`, in 1/32 ns of TIME_CLK: PULSES counts it, and it merges with a pulse still
active or ending at that instant (R51). A disabled output holds its level. -/
def State.startPulse (s : State) (n edge : Nat) : State :=
  if s.on (F.PULSE_OUT_CTRL_ENABLE n) then
    let w := clampN 10 1000000000 (s.rd (F.PULSE_OUT_CTRL_WIDTH_NS n)) * 32
    let p := s.pulse n
    let s := s.bumpW (F.PULSE_OUT_STATUS_PULSES n)
    if p.active ∧ edge ≤ p.stop then
      (s.setPulse n ⟨true, min p.start edge, max p.stop (edge + w)⟩).bump (F.PULSE_OUT_STATUS_MERGES n)
    else s.setPulse n ⟨true, edge, edge + w⟩
  else s

/-- The level of PULSE_OUT_n now: active within its pulse, by POLARITY. -/
def State.pulseLevel (s : State) (n : Nat) : Bool :=
  let p := s.pulse n
  (p.active && decide (p.start ≤ s.now * 32) && decide (s.now * 32 < p.stop)) != s.on (F.PULSE_OUT_CTRL_POLARITY n)

/-! ### Capture inputs -/

/-- Whether a capture input admits an edge: its EDGE field selects it and its new level held for FILTER × 4 cycles
("Pulse outputs and capture inputs", R504). -/
def State.admits (s : State) (m : Nat) (rising : Bool) (held : Nat) : Bool :=
  bit (s.rd (F.CAPTURE_IN_CTRL_EDGE m)) (if rising then 0 else 1) && decide (s.rd (F.CAPTURE_IN_CTRL_FILTER m) * 4 ≤ held)

/-- The value of TB_n at an edge of capture input m, in 1/65,536 ns: `held` cycles ago, at `frac`/64 ns into the cycle,
less DELAY_COMP; the stamp of an admitted edge is taken at the edge. -/
def State.edgeFine (s : State) (m n held frac : Nat) : Nat :=
  ((s.tbFine n : Int) - held * 65536 + frac * 1024 - s.rdS (F.CAPTURE_IN_CTRL_DELAY_COMP m) * 2048).toNat

end Sys2Proof.Machine
end

