-- ==== Sys2Proof/Machine/IqOps.lean ====
section
/-!
DEFINITION. The ingest queues: which slots run, ring positions, reservations, watermarks and the reader's cursors
(R57 to R59, R64 to R66, R70 to R74, R77, R80, 03_ingest.md).
-/

namespace Sys2Proof.Machine

def iq0 : IqSt := ⟨[], 0, 0, 0, none, false, 0, none, none, 0, [], []⟩

def State.q (s : State) (i : Nat) : IqSt := mget iq0 s.iq i
def State.setQ (s : State) (i : Nat) (q : IqSt) : State := { s with iq := mset iq0 s.iq i q }

/-! ### Configuration checks (R58, R80) -/

/-- The ingest storage window of frame-die SRAM: 32 MiB. -/
def ingestBase : Nat := 0x500000000000
def ingestSize : Nat := 0x2000000

/-- Usable DRAM bytes, from MC_STATUS. -/
def State.dramSize (s : State) : Nat := s.rd F.MC_STATUS_USABLE_GIB * 2 ^ 30

/-- Whether [a, a + n) lies in one of partition p's DRAM ranges. -/
def State.inRanges (s : State) (p a n : Nat) : Bool :=
  (List.range 4).any (fun k =>
    s.on (F.PART_MEM_SIZE_2M p k) && decide (s.rd (F.PART_MEM_BASE_2M p k) * 2097152 ≤ a) &&
    decide (a + n ≤ (s.rd (F.PART_MEM_BASE_2M p k) + s.rd (F.PART_MEM_SIZE_2M p k)) * 2097152))

def State.ringBase (s : State) (i : Nat) : Nat := s.rd (F.IQ_RING_BASE_BASE i)
def State.ringSize (s : State) (i : Nat) : Nat := s.rd (F.IQ_RING_CFG_SIZE_64 i)
def State.slotEnabled (s : State) (i : Nat) : Bool := s.on (F.STREAM_SRC_ENABLE i)

/-- IQ_i is in CONFIG_ERROR (R80, R70). -/
def State.iqErr (s : State) (i : Nat) : Bool :=
  let base := s.ringBase i
  let size := s.ringSize i
  let mx := s.rd (F.IQ_RING_CFG_MAX_ITEM_64 i)
  let fin := base + size * 64
  let rd := s.rd (F.IQ_RING_CFG_READER i)
  let hi := s.rd (F.IQ_WM_HIGH i)
  let sram := decide (ingestBase ≤ base ∧ fin ≤ ingestBase + ingestSize)
  decide (base % 4096 ≠ 0) || decide (size % 64 ≠ 0) || decide (size < mx) || decide (mx = 0) ||
  (List.range i).any (fun j => s.slotEnabled j && decide (base < s.ringBase j + s.ringSize j * 64) &&
    decide (s.ringBase j < fin)) ||
  (!sram && decide (s.dramSize < fin)) ||
  (decide (2 ≤ rd ∧ rd ≤ 9) && !sram && !s.inRanges (rd - 2) base (size * 64)) ||
  (decide (hi ≠ 0) && (decide (hi ≤ s.rd (F.IQ_WM_LOW i)) || decide (size < hi)))

/-- The port of a slot is enabled; a GPIO slot has no port of its own. -/
def State.portOn (s : State) (typ i : Nat) : Bool :=
  if typ = 1 then decide (i < 16) && s.on (F.CSI_CTRL_ENABLE i)
  else if typ = 2 then decide (i < 4) && s.on (F.ETH_CTRL_ENABLE i)
  else if typ = 3 then decide (i < 8) && s.on (F.CAN_CTRL_ENABLE i)
  else if typ = 4 then decide (i < 4) && s.on (F.SPI_CTRL_ENABLE i)
  else if typ = 5 then decide (i < 8) && s.on (F.ENC_CTRL_ENABLE i)
  else decide (typ = 6)

def State.slotType (s : State) (i : Nat) : Nat := s.rd (F.STREAM_SRC_PORT_TYPE i)
def State.slotPort (s : State) (i : Nat) : Nat := s.rd (F.STREAM_SRC_PORT_INDEX i)

/-- The 64-bit PINS layout of a slot's filter. -/
def State.slotFilter (s : State) (i : Nat) : Nat := s.reg (R.STREAM_FILTER i)

/-- Bytes of the row-stamp table and of a whole CSI-2 frame item (the frame layout table). -/
def csiTable (maxRows : Nat) : Nat := ceilDiv (8 * maxRows) 64 * 64
def csiBytes (maxRows stride64 : Nat) : Nat := 64 + csiTable maxRows + maxRows * (stride64 * 64)

/-- The receiving relay that feeds slot i (R444): the first enabled relay that names the slot receives into it, and the queue is
not in CONFIG_ERROR. -/
def State.relayOf (s : State) (i : Nat) : Option Nat :=
  match (List.range 8).find? (fun r => s.on (F.RLY_CFG_ENABLE r) && decide (s.rd (F.RLY_CFG_LOCAL_SLOT r) = i)) with
  | some r => if s.on (F.RLY_CFG_RECEIVE r) ∧ s.iqErr i = false then some r else none
  | none => none

/-- Slot i is in CONFIG_ERROR (R58); the port checks do not apply to a slot fed by a receiving relay (R444). -/
def State.slotErr (s : State) (i : Nat) : Bool :=
  let t := s.slotType i
  let p := s.slotPort i
  let rows := s.rd (F.STREAM_SRC_MAX_ROWS i)
  let stride := s.rd (F.STREAM_SRC_ROW_STRIDE_64 i)
  let lower (f : Nat → Bool) : Bool := (List.range i).any (fun j => s.slotEnabled j && decide (s.slotType j = t) && f j)
  s.slotEnabled i && decide (1 ≤ t ∧ t ≤ 6) && (s.relayOf i).isNone &&
  (!s.portOn t p ||
   (decide (t = 1) && lower (fun j => decide (s.slotPort j = p ∧ s.rd (F.STREAM_SRC_VC j) = s.rd (F.STREAM_SRC_VC i) ∧
      s.rd (F.STREAM_SRC_DATA_TYPE j) = s.rd (F.STREAM_SRC_DATA_TYPE i)))) ||
   (decide (t = 4 ∨ t = 5) && lower (fun j => decide (s.slotPort j = p))) ||
   (decide (t = 6) && lower (fun j => decide (s.slotFilter j &&& s.slotFilter i ≠ 0))) ||
   (decide (t = 2) && s.rd (F.STREAM_SRC_DEFAULT i) == 0 && s.rd (F.STREAM_FILTER_MATCH i) == 0) ||
   (decide (t = 1) && (decide (rows = 0) || decide (stride = 0) ||
      decide (s.rd (F.IQ_RING_CFG_MAX_ITEM_64 i) * 64 < csiBytes rows stride))) ||
   s.iqErr i)

/-- Slot i runs: enabled, with a source, and not in CONFIG_ERROR. -/
def State.slotRuns (s : State) (i : Nat) : Bool :=
  s.slotEnabled i && decide (1 ≤ s.slotType i ∧ s.slotType i ≤ 6) && !s.slotErr i

/-- Slot i runs and takes samples from local ports (R57, R444). -/
def State.slotLocal (s : State) (i : Nat) : Bool := s.slotRuns i && (s.relayOf i).isNone

/-- The lowest-numbered running slot of a port that takes a sample (R57). -/
def State.pickSlot (s : State) (typ port : Nat) (f : Nat → Bool) : Option Nat :=
  (List.range 32).find? (fun i => s.slotLocal i && decide (s.slotType i = typ) &&
    (decide (typ = 6) || decide (s.slotPort i = port)) && f i)

/-! ### Positions and fill -/

/-- FILL: from RELEASE to the end of WRITE, the open item's reservation and every pad included. -/
def IqSt.fill (q : Sys2Proof.Machine.IqSt) : Nat :=
  q.items.foldl (fun a e => a + e.pad + e.len) 0 + match q.opn with
    | some o => o.pad + o.len
    | none => 0

/-- Where the first occupied byte of the ring lies, pads included, and where the next item would be written. -/
def IqSt.front (q : Sys2Proof.Machine.IqSt) (size : Nat) : Option Nat :=
  let start (pad off : Nat) : Nat := if pad = 0 then off else size - pad
  match q.items, q.opn with
  | e :: _, _ => some (start e.pad e.off)
  | [], some o => some (start o.pad o.off)
  | [], none => none

/-- A place for `units` contiguous free units: at the write position, or at the ring base with the ring end as pad (R59).
Answers pad and offset. -/
def IqSt.place (q : Sys2Proof.Machine.IqSt) (size units : Nat) : Option (Nat × Nat) :=
  let w := match q.opn with
    | some o => o.off + o.len
    | none => q.wr
  match q.front size with
  | some r =>
    if w ≤ r ∧ (q.fill ≠ 0) then (if w + units ≤ r then some (0, w) else none)
    else if w + units ≤ size then some (0, w)
    else if units ≤ r then some (size - w, 0)
    else none
  | none =>
    if w + units ≤ size then some (0, w) else if units ≤ w then some (size - w, 0) else none

/-- Position READ: the next item a head read returns, or WRITE. -/
def IqSt.posOf (q : Sys2Proof.Machine.IqSt) (size i : Nat) : Nat :=
  match q.items[i]? with
  | some e => e.off
  | none => q.wr % max 1 size

/-- The head word of an item (the head word table). -/
def headWord (i : Nat) (e : IqItem) : Nat :=
  e.off % 2 ^ 32 + i * 2 ^ 32 + e.prio % 16 * 2 ^ 40 + e.seq % 2 ^ 14 * 2 ^ 48 + e.gap.toNat * 2 ^ 62

/-! ### Watermarks and pause (R70 to R72, R74) -/

/-- A pause frame of MAC p: counted; PAUSING says whether one is in force (R72). -/
def State.sendPause (s : State) (p : Nat) (on : Bool) : State :=
  (s.bumpW (F.ETH_STATUS_PAUSES_SENT p)).wr (F.ETH_STATUS_PAUSING p) on.toNat

/-- Some queue of MAC p's pause mask has its watermark asserted, and QUANTA is non-zero. -/
def State.wantsPause (s : State) (p : Nat) : Bool :=
  decide (s.rd (F.ETH_PAUSE_QUANTA p) ≠ 0) &&
    (bitList (s.rd (F.ETH_PAUSE_QUEUE_MASK p)) 32).any (fun i => (s.q i).above)

/-- The pause frames a watermark change brings: the first at the assertion, one with quanta 0 when all have released. -/
def State.pauseEval (s : State) : State :=
  (List.range 4).foldl (fun s p =>
    if s.wantsPause p = s.on (F.ETH_STATUS_PAUSING p) then s else s.sendPause p (s.wantsPause p)) s

/-- FC_f is driven active (R71): pin level by POLARITY; a disabled pin is inactive. -/
def State.fcLevel (s : State) (f : Nat) : Bool :=
  (s.on (F.FC_CTRL_ENABLE f) && (bitList (s.rd (F.FC_CTRL_QUEUE_MASK f)) 32).any (fun i => (s.q i).above))
    != s.on (F.FC_CTRL_POLARITY f)

/-- A notification of IQ_i: kind 0 carries a head word, kind 1 the FILL (R74, R507). -/
def State.iqNotify (s : State) (i kind v : Nat) : State :=
  s.post (0x4000 + i) (s.rd (F.IQ_NOTIFY_NOTIFY_UNIT i)) 3 0x04 i
    (toBytes 4 i ++ toBytes 4 kind ++ toBytes 8 v)

/-- The watermark of IQ_i after its FILL changed (R70). -/
def State.iqLevel (s : State) (i : Nat) : State :=
  let hi := s.rd (F.IQ_WM_HIGH i)
  let q := s.q i
  let up := decide (hi ≠ 0) && (decide (hi ≤ q.fill) || (q.above && decide (s.rd (F.IQ_WM_LOW i) < q.fill)))
  if up = q.above then s
  else
    let s := s.setQ i { q with above := up }
    let s := if up then
        let s := s.bump (F.IQ_COUNTS_HIGH_CROSSINGS i)
        if s.on (F.IQ_NOTIFY_ON_HIGH i) then s.iqNotify i 1 q.fill else s
      else s
    s.pauseEval

/-! ### The reader's side (R64 to R66) -/

/-- The READER code a requester has (R53): host 0, castle 1, partition p 2 + p. -/
def State.readerCode (s : State) (r : Req) : Option Nat :=
  match r with
  | .host => some 0
  | .castle => some 1
  | .sequencer => none
  | _ => (s.reqPart r).map (· + 2)

def State.isReader (s : State) (r : Req) (i : Nat) : Bool := s.readerCode r = some (s.rd (F.IQ_RING_CFG_READER i))

/-- The oldest unread item of IQ_i, if its close is visible. -/
def State.iqHead (s : State) (i : Nat) : Option IqItem :=
  match (s.q i).items[(s.q i).read]? with
  | some e => if e.visible then some e else none
  | none => none

/-- READ advances past the head item. -/
def State.iqAdvance (s : State) (i : Nat) : State := s.setQ i { s.q i with read := (s.q i).read + 1 }

/-- RELEASE of the first `n` items and every pad before them (R66). -/
def State.iqFree (s : State) (i n : Nat) : State :=
  let q := s.q i
  (s.setQ i { q with items := q.items.drop n, read := q.read - n, mark := q.mark - n }).iqLevel i

/-- A RELEASE write by the reader: the named item must be a returned one (R66). -/
def State.iqRelease (s : State) (i off : Nat) : State :=
  let q := s.q i
  match (q.items.take q.read).findIdx? (fun e => e.off = off) with
  | some k => s.iqFree i (k + 1)
  | none => s.bump (F.IQ_COUNTS_BAD_OPS i)

/-- A CURSOR write by the reader: REWIND first, then MARK (R66). -/
def State.iqCursor (s : State) (i v : Nat) : State :=
  let q := s.q i
  let q := if bit v 1 then { q with read := q.mark } else q
  s.setQ i (if bit v 0 then { q with mark := q.read } else q)

/-- An access to the IQ block refused and counted (R64, R66). -/
def State.iqReject (s : State) (reg : Nat) : State := s.reject R.IQ_REJECTS (reg % 0x10000)

/-- The queue releases all its items; RELEASE, MARK and READ at the end of the last closed item (R77). -/
def State.iqDrain (s : State) (i : Nat) : State := s.iqFree i (s.q i).items.length

/-- The ring of IQ_i emptied: a write of its base or size starts it again at its base (log entry 8). -/
def State.iqEmpty (s : State) (i : Nat) : State :=
  (s.setQ i { s.q i with items := [], read := 0, mark := 0, wr := 0, opn := none, owed := [] }).iqLevel i

end Sys2Proof.Machine
end

