-- ==== Sys2Proof/Machine/PowerOps.lean ====
section
/-!
DEFINITION. Module states: where the module is, starting or holding a wake, and abandoning an entry (R451 to R458,
16_power.md).
-/

namespace Sys2Proof.Machine

def stDeep : Nat := 1
def stPark : Nat := 2
def stRun : Nat := 3
def stSafe : Nat := 4

/-- Phases of PWR_STATUS. -/
def pwSteady : Nat := 0
def pwHandshake : Nat := 1
def pwCommitted : Nat := 2
def pwSaving : Nat := 3
def pwWaking : Nat := 4
def pwShutdown : Nat := 5

def State.modState (s : State) : Nat := s.rd F.MODULE_STATE_STATE
def State.pwPhase (s : State) : Nat := s.rd F.PWR_STATUS_PHASE

/-- MODULE_STATE set, with no transition in progress; PWR_STATUS.STATE follows it. -/
def State.setModState (s : State) (st cause : Nat) : State :=
  let s := ((s.wr F.MODULE_STATE_STATE st).wr F.MODULE_STATE_TARGET st).wr F.MODULE_STATE_IN_TRANSITION 0
  (s.wr F.MODULE_STATE_LAST_CAUSE cause).wr F.PWR_STATUS_STATE st

/-- The module is asleep: in PARK or DEEP with no transition in progress. -/
def State.asleep (s : State) : Bool :=
  (s.modState = stPark ∨ s.modState = stDeep) ∧ s.pwPhase = pwSteady

/-- Between the commit of an entry and its end. -/
def State.entering (s : State) : Bool := s.pwPhase = pwCommitted ∨ s.pwPhase = pwSaving

/-- A wake taken (wake table step 1): IN_TRANSITION, TARGET RUN. -/
def State.takeWake (s : State) (cause detail : Nat) : State :=
  let s := ((s.wr F.MODULE_STATE_TARGET stRun).wr F.MODULE_STATE_IN_TRANSITION 1).wr F.PWR_STATUS_PHASE pwWaking
  let s := (s.wr F.PWR_WAKE_STATUS_LAST_SOURCE cause).wr F.PWR_WAKE_STATUS_DETAIL detail
  let s := (s.bump F.PWR_WAKE_STATUS_WAKES).wr F.PWR_STATUS_WAKE_HELD 0
  { s with pwr := { s.pwr with held := none, wakeAt := s.now } }

/-- A wake event: taken while asleep, held during an entry, nothing in RUN or during a wake (R455). -/
def State.wake (s : State) (cause detail : Nat) : State :=
  if s.asleep then s.takeWake cause detail
  else if s.pwPhase = pwHandshake ∨ s.entering then
    if s.pwr.held.isSome then s
    else { s.wr F.PWR_STATUS_WAKE_HELD 1 with pwr := { s.pwr with held := some (cause, detail) } }
  else s

/-- A wake source enabled in PWR_WAKE_CFG.SOURCES. -/
def State.wakeOn (s : State) (b : Nat) : Bool := bit (s.rd F.PWR_WAKE_CFG_SOURCES) b

/-- An entry abandoned (R453, R455): the refuser, whether it refused or still delayed, and the held wake discarded. -/
def State.abandonEntry (s : State) (code : Nat) (delayed : Bool) : State :=
  let t := s.pwr.target
  let s := if delayed then s.bump F.PWR_REFUSALS_DELAY_TIMEOUTS else s.bump F.PWR_REFUSALS_REFUSALS
  let s := (s.wr F.PWR_REFUSALS_LAST_REFUSER code).wr F.PWR_REFUSALS_LAST_TARGET t
  let s := (s.wr F.PWR_REFUSALS_LAST_KIND delayed.toNat).wr F.PWR_STATUS_PHASE pwSteady
  let s := (s.wr F.PWR_STATUS_WAKE_HELD 0).setModState s.modState (s.rd F.MODULE_STATE_LAST_CAUSE)
  let s : State := { s with pwr := { s.pwr with held := none, result := some St.refused } }
  s.event 0xE000 0x8001 code [t, delayed.toNat]

/-- The port's bit of PARK_PORTS. -/
def parkBit (typ i : Nat) : Option Nat :=
  if typ = 3 then some i else if typ = 5 then some (8 + i) else if typ = 4 then some (16 + i)
  else if typ = 2 then some (20 + i) else if typ = 6 then some 24 else none

/-- A port is powered: in RUN and SAFE, and in PARK when PARK_PORTS names it (R450, R78). -/
def State.portPowered (s : State) (typ i : Nat) : Bool :=
  if s.modState = stRun ∨ s.modState = stSafe then true
  else if s.modState = stPark then
    match parkBit typ i with
    | some b => bit (s.rd F.PWR_ENTRY_CFG_PARK_PORTS) b
    | none => false
  else false

/-- Clock domain d has failed: its monitor has stopped its units and floated its pins (R475). -/
def State.clkFailed (s : State) (d : Nat) : Bool :=
  if d < 64 then bit (s.rd F.CLK_FAILED_LO_FAILED) d else bit (s.rd F.CLK_FAILED_HI_FAILED) (d - 64)

/-- The reflex unit and egress run: in RUN and SAFE, and in PARK with PARK_REFLEX, while domain 108 has its clock (R450,
R475). -/
def State.rfxRuns (s : State) : Bool :=
  (decide (s.modState = stRun) || decide (s.modState = stSafe) ||
    (decide (s.modState = stPark) && s.on F.PWR_ENTRY_CFG_PARK_REFLEX)) && !s.clkFailed 108

/-- A port receives: enabled, its settings in range, and powered (R57, "Port registers"). -/
def State.portLive (s : State) (typ i : Nat) : Bool :=
  s.portOn typ i && s.portPowered typ i &&
    (decide (typ ≠ 1) || (decide (s.rd (F.CSI_CTRL_LANES i) ≠ 3) &&
      decide (80 ≤ s.rd (F.CSI_CTRL_LANE_RATE_MBPS i) ∧ s.rd (F.CSI_CTRL_LANE_RATE_MBPS i) ≤ 4500))) &&
    (decide (typ ≠ 5) || !s.on (F.ENC_CTRL_SSI i) ||
      decide (10 ≤ s.rd (F.ENC_CTRL_SSI_BITS i) ∧ s.rd (F.ENC_CTRL_SSI_BITS i) ≤ 32))

end Sys2Proof.Machine
end

