-- ==== Sys2Proof/Machine/TrajOps.lean ====
section
/-!
DEFINITION. The trajectory slots of the collision checker and requests for a fallback (R300 to R306, 11_planner.md).
-/

namespace Sys2Proof.Machine

def ccUnit : Nat := 0x8000

/-- Causes of a fallback (R305). -/
def fbStalemate : Nat := 1
def fbExpired : Nat := 2
def fbJob : Nat := 3
def fbSafe : Nat := 4

/-- The rank of a cause: SAFE, STALEMATE, REQUEST, EXPIRED. -/
def fbRank (cause : Nat) : Nat := if cause = 4 then 4 else if cause = 1 then 3 else if cause = 3 then 2 else 1

/-- States of a trajectory slot. -/
def trTentative : Nat := 1
def trPending : Nat := 2
def trActive : Nat := 3

/-- Kinds of the active trajectory. -/
def Traj.fallback (t : Sys2Proof.Machine.Traj) : Bool := bit t.flags 1

/-- The bytes of a trajectory as its window shows them ("Trajectory header"). -/
def Traj.bytes (t : Sys2Proof.Machine.Traj) (switches : Nat) : List Byte :=
  toBytes 4 t.id ++ toBytes 1 t.state ++ toBytes 1 t.samples ++ toBytes 1 t.joints ++ toBytes 1 t.flags ++ toBytes 8 t.t0 ++
    toBytes 4 t.dt ++ toBytes 4 t.alpha ++ toBytes 4 t.cMin ++ toBytes 4 t.tag ++ toBytes 4 t.cand ++ toBytes 4 t.tb ++
    toBytes 4 0 ++ toBytes 4 switches ++ toBytes 8 t.tSwitch ++ toBytes 8 0 ++ t.q.flatMap (toBytes 4)

/-- Sample k of a trajectory. -/
def Traj.sample (t : Sys2Proof.Machine.Traj) (k : Nat) : List Nat := (t.q.drop (k * t.joints)).take t.joints

/-- STAGE_ID n's successor: it wraps and skips 0. -/
def nextStage (n : Nat) : Nat := if (n + 1) % 2 ^ 32 = 0 then 1 else (n + 1) % 2 ^ 32

/-- ENGINE: BUILDING_FALLBACK, WAITING, CHECKING or IDLE. Loads complete within their command. -/
def CcSt.engine (c : Sys2Proof.Machine.CcSt) : Nat :=
  if c.build.isSome then 3
  else match c.run with
    | some r => if r.waiting then 4 else 1
    | none => 0

/-- The checker's state set, with the registers that show it. -/
def State.setCc (s : State) (c : CcSt) : State :=
  let s : State := { s with cc := c }
  let s := (s.wr F.CC_STATE_ENGINE c.engine).wr F.CC_STATE_JOBQ_FILL (c.queue.length + c.run.isSome.toNat)
  let s := ((s.wr F.CC_STATE_MODEL_VALID c.model.isSome.toNat).wr F.CC_STATE_SDF_VALID c.sdf.isSome.toNat).wr F.CC_STATE_BEV_VALID c.bev.isSome.toNat
  let s := (s.wr F.CC_TRAJ_IDS_ACTIVE_ID (c.active.elim 0 (·.id))).wr F.CC_TRAJ_IDS_STAGED_ID (c.staged.elim 0 (·.id))
  let s := (s.wr F.CC_TRAJ_STATE_ACTIVE_KIND (c.active.elim 0 (fun t => if t.fallback then 2 else 1))).wr F.CC_TRAJ_STATE_STAGED
    (c.staged.elim 0 (·.state))
  if s.serving ccUnit then s.setUstate ccUnit (if c.run.isSome then US.busy else US.ready) else s

/-- The report of R306, where REPORT_UNIT is of class 0xA: a posted TC_1 SEND of the first 32 bytes of a result record. -/
def State.ccReport (s : State) (rec : List Byte) : State :=
  let u := s.rd F.CC_CFG_REPORT_UNIT
  if u / 0x1000 = 0xA then s.post ccUnit u 1 1 0 (rec.take 32) else s

/-- The first 32 bytes of a result record that describes a fallback. What it holds of a CHECK is not stated for a fallback no
CHECK started, and is free (log entry 31). -/
def State.fbRecord (s : State) (flags id cMin alpha : Nat) : List Byte × State :=
  let (f, s) := s.draw 58
  (toBytes 1 (bits f 0 8) ++ toBytes 1 (bits f 8 8) ++ toBytes 1 flags ++ toBytes 1 0 ++ toBytes 4 0xFFFFFFFF ++ toBytes 4 0 ++
    toBytes 4 (bits f 16 32) ++ toBytes 4 cMin ++ toBytes 4 alpha ++ toBytes 4 id ++ toBytes 2 (bits f 48 16) ++ toBytes 2 (bits f 64 16), s)

/-- A fallback is requested (R305): counted; merged into a running build at the higher rank; nothing more while a fallback is
active; with no active trajectory the cause is recorded and the report sent; else the build starts. It cancels a TENTATIVE
trajectory, and a PENDING one for the causes STALEMATE and SAFE. -/
def State.fbRequest (s : State) (cause : Nat) : State :=
  let s := s.bump F.CC_COUNTS_FALLBACKS
  let c := s.cc
  let keep (cause : Nat) : Option Traj := c.staged.filter (fun t => t.state = trPending && !(cause = 1 || cause = 4))
  match c.build with
  | some b => s.setCc { c with
      build := some { b with cause := if fbRank b.cause < fbRank cause then cause else b.cause }, staged := keep cause }
  | none =>
    match c.active with
    | none =>
      let s := s.wr F.CC_TRAJ_STATE_FB_CAUSE cause
      let (r, s) := s.fbRecord 0 0 f32nan f32one
      s.ccReport r
    | some t =>
      if t.fallback then s
      else s.setCc { c with build := some ⟨cause, s.ts64 t.tb, t⟩, staged := keep cause }

end Sys2Proof.Machine
end

