-- ==== Sys2Proof/Machine/SafeOps.lean ====
section
/-!
DEFINITION. The safe-state decision and latching, stage clocks, task supervisors, frozen-input detectors and the verdict
of a comparison point (R381 to R395, R400 to R405, 14_safety.md).
-/

namespace Sys2Proof.Machine

def sc0 : ScSt := ⟨0, false⟩
def ts0 : TsSt := ⟨0, 0⟩
def fz0 : FzSt := ⟨0, 0⟩
def chan0 : CpChan := ⟨[], false, false, false⟩
def cp0 : CpSt := ⟨none, none, none, [], []⟩

def State.sc (s : State) (n : Nat) : ScSt := mget sc0 s.castle.sc n
def State.setSc (s : State) (n : Nat) (v : ScSt) : State :=
  { s with castle := { s.castle with sc := mset sc0 s.castle.sc n v } }
def State.tsv (s : State) (t : Nat) : TsSt := mget ts0 s.castle.ts t
def State.setTsv (s : State) (t : Nat) (v : TsSt) : State :=
  { s with castle := { s.castle with ts := mset ts0 s.castle.ts t v } }
def State.cp (s : State) (c : Nat) : CpSt := mget cp0 s.castle.cp c
def State.setCp (s : State) (c : Nat) (v : CpSt) : State :=
  { s with castle := { s.castle with cp := mset cp0 s.castle.cp c v } }

/-! ### The safe state (R400 to R405) -/

def phNormal : Nat := 0
def phRestarting : Nat := 1
def phHeld : Nat := 2
def phLatched : Nat := 3

def State.safePhase (s : State) : Nat := s.rd F.SAFE_STATUS_PHASE

/-- SAFE_HOLD asserted and the hold generator running. -/
def State.assertHold (s : State) : State := (s.wr F.SAFE_STATUS_SAFE_HOLD 1).wr F.SAFE_STATUS_HOLD_GEN 1

/-- The levels of the SAFE_HOLD balls: SAFE_HOLD_A_N low and SAFE_HOLD_B high while asserted (R401). -/
def State.safeHoldPins (s : State) : Bool × Bool :=
  (!s.on F.SAFE_STATUS_SAFE_HOLD, s.on F.SAFE_STATUS_SAFE_HOLD)

/-- The safe state latches until module reset (R405): `code` as the event code table numbers its reason. -/
def State.safeLatch (s : State) (code : Nat) (restartFail : Bool) : State :=
  if s.safePhase = phLatched then s
  else
    let s := (s.assertHold).wr F.SAFE_STATUS_PHASE phLatched
    let s := if restartFail then s.wr F.SAFE_STATUS_RESTART_FAIL 1 else s
    s.event 0xA000 0x7009 code []

/-- Stage clocks, supervisors and points are disarmed; with `keep`, those whose KEEP_IN_SAFE is set stand (R383, R393). -/
def State.disarmAll (s : State) (keep : Bool) : State :=
  let s := (List.range 128).foldl (fun s n =>
    if keep && s.on (F.SC_CFG_KEEP_IN_SAFE n) then s
    else (s.wr (F.SC_CFG_ARM n) 0).wr (F.SC_STATUS_STATE n) 0) s
  let s := (List.range 64).foldl (fun s t =>
    if keep && s.on (F.TS_CFG_KEEP_IN_SAFE t) then s
    else (s.wr (F.TS_CFG_ARM t) 0).wr (F.TS_STATUS_STATE t) 0) s
  (List.range 32).foldl (fun s c =>
    if keep && s.on (F.CP_CFG_KEEP_IN_SAFE c) then s
    else s.wr (F.CP_CFG_ENABLE c) 0) s

/-- Every comparison point discards its open frame. -/
def State.dropFrames (s : State) : State :=
  (List.range 32).foldl (fun s c =>
    (s.setCp c { s.cp c with opn := none }).wr (F.CP_VERDICT_OPEN c) 0) s

/-- SAFE_LIMIT decisions have fallen within SAFE_WINDOW_S (R405). -/
def State.tooManyDecisions (s : State) : Bool :=
  let window := s.rd F.SAFE_CFG_SAFE_WINDOW_S * 1000000000
  decide (max 1 (s.rd F.SAFE_CFG_SAFE_LIMIT) ≤ (s.castle.decisions.filter (fun t => s.now ≤ t + window)).length)

/-- The decision as the registers record it: the cause and its detail, MODULE_STATE on its way to SAFE, RESTARTING (R400,
R401 step 1 and 2). Causes arrive one at a time, so CAUSE_MASK holds the bit of this one. -/
def State.recordDecision (s : State) (cause detail : Nat) : State :=
  let s := (s.wr F.SAFE_CAUSE_DETAIL detail).wr F.SAFE_CAUSE_T_DECISION (s.ts64 0)
  let s := (s.wr F.SAFE_STATUS_LAST_CAUSE cause).wr F.SAFE_STATUS_CAUSE_MASK (2 ^ (cause - 1))
  let s := (s.wr F.MODULE_STATE_TARGET 4).wr F.MODULE_STATE_IN_TRANSITION 1
  let s := (s.bump F.SAFE_STATUS_SAFE_ENTRIES).bump F.MODULE_STATE_SAFE_ENTRIES
  ((s.wr F.SAFE_STATUS_PHASE phRestarting).assertHold).event 0xA000 0x7001 cause
    [detail, s.rd F.SAFE_STATUS_CAUSE_MASK]

/-- The safe-state decision in RUN (R400, R401): a cause while RESTARTING or HELD starts nothing and is counted; in
LATCHED nothing starts. The checker is asked for a fallback with cause SAFE, supervision without KEEP_IN_SAFE is disarmed,
open frames are discarded; the partition resets of step 5 are due 2 µs later (`State.safeResets`). -/
def State.decideNow (s : State) (cause detail : Nat) : State :=
  if s.safePhase = phRestarting ∨ s.safePhase = phHeld then
    (s.bump F.SAFE_STATUS_LATE_CAUSES).event 0xA000 0x7008 cause [detail]
  else if s.safePhase = phLatched then s
  else
    let s1 := ((s.recordDecision cause detail).disarmAll true).dropFrames
    let c : CastleSt := { s1.castle with
      restartAt := some s.now, stage := 0, decisions := s1.castle.decisions ++ [s.now] }
    let s2 : State := ({ s1 with castle := c } : State).fbRequest 4
    if s2.tooManyDecisions then s2.safeLatch 6 false else s2

/-- A safe-state cause (R400, R456): during HANDSHAKE it abandons the entry; after the commit, asleep or waking it asserts
SAFE_HOLD at once, wakes the module with cause 0x08, and is decided at the end of the wake. -/
def State.safeDecide (s : State) (cause detail : Nat) : State :=
  if s.pwPhase = pwHandshake then (s.abandonEntry 0xA000 false).decideNow cause detail
  else if s.entering ∨ s.asleep ∨ s.pwPhase = pwWaking then
    let s1 := s.assertHold
    let s2 : State := if s1.pwr.safeNext.isSome then s1 else { s1 with pwr := { s1.pwr with safeNext := some (cause, detail) } }
    s2.wake 0x08 0
  else s.decideNow cause detail

/-- A castle fault (R381, R382): SAFE_HOLD and the hold generator, the decision, the cores into reset; a second fault
within the window, or a readback fault, latches. Kind: 0 lockstep, 1 SRAM, 2 clock, 3 readback, 4 supply. -/
def State.castleFault (s : State) (kind : Nat) : State :=
  let s := s.assertHold
  let s := if kind = 0 then s.bump F.CASTLE_STATUS_LOCKSTEP_ERRORS
    else if kind = 2 then s.wr F.CASTLE_STATUS_CLK_FAULT 1
    else if kind = 3 then s.wr F.CASTLE_STATUS_READBACK_FAULT 1
    else if kind = 4 then s.wr F.CASTLE_STATUS_SUPPLY_FAULT 1 else s
  let s := s.bump F.CASTLE_STATUS_CASTLE_RESETS
  let s := s.event 0xA000 0x700A kind [s.rd F.CASTLE_STATUS_CASTLE_RESETS]
  let window := s.rd F.CASTLE_CFG_CASTLE_FAULT_WINDOW_MS * 1000000
  let second := match s.castle.faultAt with
    | some t => decide (s.now ≤ t + window)
    | none => false
  let s := s.safeDecide 5 kind
  let s := { s with castle := { s.castle with running := false, faultAt := some s.now } }
  if second || kind == 3 then s.safeLatch 5 false else s

/-- A decision or the castle interrupt, as an ACTION field says (0 the safe state, 1 report). -/
def State.actOn (s : State) (report : Bool) (cause detail : Nat) : State :=
  if report then s.raiseCastle else s.safeDecide cause detail

/-! ### Stage clocks (R391, R392) -/

/-- Flag fall of SC_n: kind 1 EARLY, 2 LATE, 3 BAD_TOKEN. -/
def State.scFall (s : State) (n kind : Nat) : State :=
  let s := (s.wr (F.SC_STATUS_STATE n) 3).bump (F.SC_STATUS_FALLS n)
  let s := (s.wr (F.SC_STATUS_EARLY n) (decide (kind = 1)).toNat).wr (F.SC_STATUS_LATE n) (decide (kind = 2)).toNat
  let s := s.wr (F.SC_STATUS_BAD_TOKEN n) (decide (kind = 3)).toNat
  (s.event (0xA100 + n) 0x7002 n [kind]).actOn (s.on (F.SC_CFG_ACTION n)) 1 n

/-- Writing ARM = 1: WAITING_FIRST; ARM = 0: DISARMED. -/
def State.scArm (s : State) (n : Nat) : State :=
  if s.on (F.SC_CFG_ARM n) then (s.setSc n ⟨s.now, false⟩).wr (F.SC_STATUS_STATE n) 1
  else s.wr (F.SC_STATUS_STATE n) 0

/-- Whether a kick's token is the one due: LAST_TOKEN + 1, any at the first kick after ARM. -/
def State.scTokenOk (s : State) (n : Nat) (tok : Option Nat) : Bool :=
  !s.on (F.SC_CFG_TOKEN_EN n) || match tok with
    | none => false
    | some t => !(s.sc n).token || decide (t = (s.rd (F.SC_STATUS_LAST_TOKEN n) + 1) % 65536)

/-- A kick of SC_n, with its token if it carries one. -/
def State.scKick (s : State) (n : Nat) (tok : Option Nat) : State :=
  let st := s.rd (F.SC_STATUS_STATE n)
  if st = 1 ∨ st = 2 then
    let s := s.bumpW (F.SC_STATUS_KICKS n)
    let el := s.now - (s.sc n).at_
    let opn := s.rd (F.SC_WINDOW_OPEN n)
    let close := s.rd (F.SC_WINDOW_CLOSE n)
    let first := s.rd (F.SC_CFG_FIRST_LIMIT n)
    if st = 2 ∧ el < opn * 10 then s.scFall n 1
    else if (st = 2 ∧ (close * 10 < el ∨ close ≤ opn)) ∨ (st = 1 ∧ first ≠ 0 ∧ first * 10 < el) then s.scFall n 2
    else if !s.scTokenOk n tok then s.scFall n 3
    else
      let s := match tok with
        | some t => if s.on (F.SC_CFG_TOKEN_EN n) then s.wr (F.SC_STATUS_LAST_TOKEN n) t else s
        | none => s
      (s.setSc n ⟨s.now, true⟩).wr (F.SC_STATUS_STATE n) 2
  else s

/-! ### Task supervisors (R394) -/

/-- A violation of TS_t: 1 LATE_START, 2 OVERRUN, 3 DEADLINE, 4 UNEXPECTED, 5 OVERLAP. -/
def State.tsViolate (s : State) (t v : Nat) : State :=
  let s := ((s.wr (F.TS_STATUS_FALLEN t) 1).wr (F.TS_STATUS_LAST_VIOLATION t) v).bump (F.TS_STATUS_VIOLATIONS t)
  (s.event (0xA200 + t) 0x7003 t [v]).actOn (s.on (F.TS_CFG_ACTION t)) 2 t

/-- Writing ARM = 1: IDLE and watching; ARM = 0: DISARMED. -/
def State.tsArm (s : State) (t : Nat) : State :=
  (s.wr (F.TS_STATUS_FALLEN t) 0).wr (F.TS_STATUS_STATE t) (if s.on (F.TS_CFG_ARM t) then 1 else 0)

/-- Whether a limit in 100 ns, unchecked when 0, has passed since a cycle. -/
def State.past (s : State) (limit since : Nat) : Bool := limit ≠ 0 ∧ since + limit * 100 < s.now

/-- A mark: 1 ACT, 2 START, 3 END. -/
def State.tsMark (s : State) (t k : Nat) : State :=
  let st := s.rd (F.TS_STATUS_STATE t)
  let v := s.tsv t
  if st = 0 ∨ s.on (F.TS_STATUS_FALLEN t) ∨ k = 0 ∨ 3 < k then s
  else if k = 1 then
    if st = 1 then (s.setTsv t { v with act := s.now }).wr (F.TS_STATUS_STATE t) 2 else s.tsViolate t 5
  else if k = 2 then
    if st ≠ 2 then s.tsViolate t 4
    else if s.past (s.rd (F.TS_LIMITS_START_MAX t)) v.act then s.tsViolate t 1
    else (s.setTsv t { v with start := s.now }).wr (F.TS_STATUS_STATE t) 3
  else if st ≠ 3 then s.tsViolate t 4
  else
    let ran := (s.now - v.start) / 100
    let s := s.wr (F.TS_STATUS_MAX_EXEC t) (min (max (s.rd (F.TS_STATUS_MAX_EXEC t)) ran) (2 ^ 32 - 1))
    if s.past (s.rd (F.TS_LIMITS_EXEC_MAX t)) v.start then s.tsViolate t 2
    else if s.past (s.rd (F.TS_LIMITS_DEADLINE t)) v.act then s.tsViolate t 3
    else s.wr (F.TS_STATUS_STATE t) 1

/-! ### Frozen and missing inputs (R395) -/

/-- A new detection of slot i acts: kind 1 FROZEN, 2 MISS_RUN. -/
def State.fzAct (s : State) (i kind : Nat) : State :=
  let s := s.event 0xA000 0x7005 i [kind]
  let a := s.rd (F.FZ_CFG_ACTION i)
  if a = 0 then s else if a = 1 then s.raiseCastle else s.safeDecide 4 i

/-- The signal at the start of a frozen run, taken at once (R75, R395). -/
def State.fzSignal (s : State) (i : Nat) : State :=
  ((s.wr (F.FZ_STATUS_FROZEN i) 1).bump (F.FZ_STATUS_FROZEN_RUNS i)).fzAct i 1

/-- FROZEN or a MISS_RUN detection of slot i stands. -/
def State.fzStands (s : State) (i : Nat) : Bool :=
  s.on (F.FZ_STATUS_FROZEN i) ||
    (s.on (F.FZ_CFG_MISS_LIMIT i) && decide (s.rd (F.FZ_CFG_MISS_LIMIT i) ≤ s.rd (F.FZ_STATUS_MISS_RUN i)))

/-- An input slot feeding point c is frozen or missing. -/
def State.frozenInput (s : State) (c : Nat) : Bool :=
  (List.range 32).any (fun i => bit (s.rd (F.FZ_CFG_CP_MASK i)) c && s.fzStands i)

/-! ### Comparison points (R384 to R390, R412) -/

def State.cpFormat (s : State) (c : Nat) : Nat := s.rd (F.CP_CFG_FORMAT c)

/-- The bytes of a point's buffer in the 4 MiB arbiter buffer. -/
def State.cpBuf (s : State) (c : Nat) : Nat × Nat :=
  (s.rd (F.CP_BUF_BUF_OFFSET_64 c) * 64, s.rd (F.CP_BUF_BUF_SIZE_64 c) * 64)

/-- K and N of a point, 0 taken as 1. -/
def State.cpK (s : State) (c : Nat) : Nat := max 1 (s.rd (F.CP_POLICY_K c))
def State.cpN (s : State) (c : Nat) : Nat := max 1 (s.rd (F.CP_POLICY_N c))
def State.cpTopK (s : State) (c : Nat) : Nat := clampN 1 16 (s.rd (F.CP_POLICY_TOPK_K c))

/-- A point's configuration breaks the rule of R412. -/
def State.cpErr (s : State) (c : Nat) : Bool :=
  let f := s.cpFormat c
  let n := s.rd (F.CP_CFG_ELEMENTS c)
  let (o, z) := s.cpBuf c
  !(f = 1 ∨ f = 2 ∨ f = 3 ∨ f = 7 ∨ f = 8 ∨ f = 9) || decide (n = 0) ||
  decide (z < 2 * n * (elemBits f / 8)) || decide (0x400000 < o + z) ||
  (List.range 32).any (fun d => decide (d ≠ c) && s.on (F.CP_CFG_ENABLE d) &&
    decide (o < (s.cpBuf d).1 + (s.cpBuf d).2) && decide ((s.cpBuf d).1 < o + z)) ||
  decide (s.cpN c < s.cpK c) || decide (s.cpTopK c < s.rd (F.CP_POLICY_TOPK_MIN c)) ||
  (s.on (F.CP_CFG_REPORTS c) && !s.on (F.CP_CFG_B_ANALOG c))

def State.cpTakes (s : State) (c : Nat) : Bool := s.on (F.CP_CFG_ENABLE c) && !s.cpErr c

/-- FRAME_SEQ s is newer than L (R384). -/
def newer (a l : Nat) : Bool := let d := fwd (2 ^ 32) l a; 1 ≤ d ∧ d < 2 ^ 31

/-- Indices of the `k` largest values, the lower index winning ties (R385). -/
def topK (k : Nat) (v : List Nat) : List Nat :=
  let idx := List.range v.length
  let best (taken : List Nat) : Option Nat :=
    idx.foldl (fun b i =>
      if i ∈ taken then b
      else match b with
        | none => some i
        | some j => if f32lt (v.getD j 0) (v.getD i 0) then some i else some j) none
  (List.range k).foldl (fun t _ => match best t with
    | some i => t ++ [i]
    | none => t) []

/-- The elements of a channel at or above OCC_THRESH. -/
def occupied (thr : Nat) (v : List Nat) : List Bool := v.map (fun x => f32le thr x)

/-- A verdict's metrics: MAX_ABS and MEAN_ABS in FP32, TOPK_COMMON, IoU in 1/65,536, and the budget (R385). -/
structure CpMetrics where
  maxAbs : Nat
  meanAbs : Nat
  topk : Nat
  iou : Nat
  budget : Nat
  cause : Nat
  deriving DecidableEq, Repr

/-- The metrics of two complete and valid channels, and the cause bits of those that fail (R385, R386). -/
def State.cpMetrics (s : State) (c : Nat) (a b : List Nat) (budget : Nat) : CpMetrics :=
  let d := (a.zip b).map (fun p => f32abs (f32sub p.1 p.2))
  let mx := d.foldl (fun m x => if f32lt m x then x else m) 0
  let sum := d.foldl (fun t x => f64add t (f32to64 x)) 0
  let mean := fmtF32.div (f64 sum) (.ofInt a.length)
  let k := s.cpTopK c
  let tb := topK k b
  let common := ((topK k a).filter (fun i => decide (i ∈ tb))).length
  let thr := s.rd (F.CP_BUDGET_OCC_THRESH c)
  let occ := (occupied thr a).zip (occupied thr b)
  let both := (occ.filter (fun p => p.1 && p.2)).length
  let uni := (occ.filter (fun p => p.1 || p.2)).length
  let iou := if uni = 0 then 65536 else both * 65536 / uni
  let en := s.rd (F.CP_CFG_METRICS c)
  let lim (tol : Nat) (add : Bool) : Nat := if add then f32add tol budget else tol
  let f0 := bit en 0 && !f32le mx (lim (s.rd (F.CP_TOL_TOL_MAX c)) (s.on (F.CP_CFG_BUDGET_MAX c)))
  let f1 := bit en 1 && !f32le mean (lim (s.rd (F.CP_TOL_TOL_MEAN c)) (s.on (F.CP_CFG_BUDGET_MEAN c)))
  let f2 := bit en 2 && decide (common < s.rd (F.CP_POLICY_TOPK_MIN c))
  let f3 := bit en 3 && decide (iou < s.rd (F.CP_POLICY_IOU_MIN c))
  ⟨if bit en 0 then mx else f32nan, if bit en 1 then mean else f32nan, if bit en 2 then common else 0xFFFF,
    if bit en 3 then min iou 65535 else 0xFFFF, budget, f0.toNat + 2 * f1.toNat + 4 * f2.toNat + 8 * f3.toNat⟩

/-- The cautious channel among valid ones (R387): false A, true B. -/
def State.cautious (s : State) (c : Nat) (a b : List Nat) : Bool :=
  let dflt := s.on (F.CP_POLICY_DEFAULT_CH c)
  let sum (v : List Nat) : Val := f64 (v.foldl (fun t x => f64add t (f32to64 x)) 0)
  let thr := s.rd (F.CP_BUDGET_OCC_THRESH c)
  let cnt (v : List Nat) : Nat := ((occupied thr v).filter id).length
  let by_ (more : Bool) (less : Bool) : Bool := if more then true else if less then false else dflt
  match s.rd (F.CP_POLICY_CAUTION c) with
  | 0 => by_ ((sum a).lt (sum b)) ((sum b).lt (sum a))
  | 1 => by_ ((sum b).lt (sum a)) ((sum a).lt (sum b))
  | 2 => by_ (decide (cnt a < cnt b)) (decide (cnt b < cnt a))
  | _ => s.on (F.CP_POLICY_FIXED_CH c)

/-- The budget: ERR_GAIN × bound × 2^-24 in FP32, with the largest ERR_BOUND, or ERR_WORST with BOUND_SEL, of the frame's
reports (R385). -/
def State.cpBudget (s : State) (c : Nat) (rs : List CpReport) : Nat :=
  let bound := rs.foldl (fun m r => max m (if s.on (F.CP_CFG_BOUND_SEL c) then r.worst else r.bound)) 0
  toF32 (((f32 (s.rd (F.CP_BUDGET_ERR_GAIN c))).mul (.ofInt bound)).scale2 (-24))

/-- The reports of the open frame. -/
def CpSt.frameReports (p : Sys2Proof.Machine.CpSt) (seq : Nat) : List CpReport := p.reports.filter (fun r => r.seq = seq)

/-- The verdict on the open frame of CP_c (R386, R387, R389, R390). -/
def State.cpVerdict (s : State) (c : Nat) : State :=
  let p := s.cp c
  match p.opn with
  | none => s
  | some f =>
    let rs := p.frameReports f.seq
    let need := s.rd (F.CP_CFG_REPORTS c)
    let contract := s.on (F.CP_CFG_B_ANALOG c) && (decide (rs.length < need) || rs.any (·.bad))
    let missing := !f.a.complete || !f.b.complete
    let invalid := f.a.invalid || f.b.invalid
    let okA := f.a.complete && !f.a.invalid
    let okB := f.b.complete && !f.b.invalid && !contract
    let budget := s.cpBudget c rs
    let m : CpMetrics := if okA && okB then s.cpMetrics c f.a.vals f.b.vals budget
      else ⟨f32nan, f32nan, 0xFFFF, 0xFFFF, budget, 0⟩
    let cause := m.cause + 16 * missing.toNat + 32 * invalid.toNat + 64 * f.frozen.toNat + 128 * contract.toNat
    let suspect := decide (cause ≠ 0)
    let reduced := f.a.reduced || f.b.reduced
    let hold : Nat := if p.hold.isSome then 2 else 3
    let dflt := (s.on (F.CP_POLICY_DEFAULT_CH c)).toNat
    let deliver : Nat :=
      if !suspect then (if reduced then (s.cautious c f.a.vals f.b.vals).toNat else dflt)
      else if !s.on (F.CP_POLICY_POLICY c) then hold
      else if okA && okB then (s.cautious c f.a.vals f.b.vals).toNat
      else if okA then 0 else if okB then 1 else hold
    let outs := (suspect :: p.outs).take (s.cpN c)
    let count := (outs.filter id).length
    let esc := suspect && decide (s.cpK c ≤ count)
    let hseq := if suspect then p.hold else some f.seq
    let s := s.setCp c { p with opn := none, hold := hseq, outs := if esc then [] else outs,
                                reports := p.reports.filter (fun r => newer r.seq f.seq) }
    let s := (s.wr (F.CP_VERDICT_FRAME_SEQ c) f.seq).wr (F.CP_VERDICT_SUSPECT c) suspect.toNat
    let s := (s.wr (F.CP_VERDICT_DELIVER c) deliver).wr (F.CP_VERDICT_CAUSE c) cause
    let s := (s.wr (F.CP_VERDICT_REDUCED_COVERAGE c) reduced.toNat).wr (F.CP_VERDICT_WINDOW_COUNT c) count
    let s := (s.wr (F.CP_VERDICT_OPEN c) 0).wr (F.CP_METRICS_MAX_ABS c) m.maxAbs
    let s := s.wr (F.CP_METRICS_MEAN_ABS c) m.meanAbs
    let s := if suspect then s.bump (F.CP_COUNTS_SUSPECT c) else s.bumpW (F.CP_COUNTS_AGREED c)
    let s := if missing then s.bump (F.CP_COUNTS_MISSING c) else s
    let s := if suspect then s.event (0xA400 + c) 0x7004 c [f.seq, cause, deliver] else s
    let flags := reduced.toNat + 2 * (rs.any (·.bad)).toNat + 4 * esc.toNat
    let payload := toBytes 4 f.seq ++ toBytes 1 c ++ toBytes 1 suspect.toNat ++ toBytes 1 deliver ++ toBytes 1 cause ++
      toBytes 4 (hseq.getD 0xFFFFFFFF) ++ toBytes 4 m.maxAbs ++ toBytes 4 m.meanAbs ++ toBytes 2 m.topk ++
      toBytes 2 m.iou ++ toBytes 4 m.budget ++ toBytes 1 count ++ toBytes 1 flags ++ toBytes 2 0
    let s := if s.on (F.CP_BUF_NOTIFY_EN c) then
        s.post (0xA400 + c) (s.rd (F.CP_BUF_NOTIFY_UNIT c)) 1 0x01 c payload else s
    if esc then (s.bump (F.CP_COUNTS_ESCALATIONS c)).actOn (s.on (F.CP_CFG_ACTION c)) 3 c else s

/-- Both channels complete and the frame's reports all arrived (R386). -/
def State.cpReady (s : State) (c : Nat) : Bool :=
  match (s.cp c).opn with
  | some f => f.a.complete && f.b.complete &&
      decide (s.rd (F.CP_CFG_REPORTS c) ≤ ((s.cp c).frameReports f.seq).length)
  | none => false

/-- A submission's elements as FP32 words (R385). -/
def State.cpElems (s : State) (c : Nat) (payload : List Byte) : List Nat :=
  let f := s.cpFormat c
  let sz := elemBits f / 8
  let n := min (field payload 8 2) ((payload.length - 16) / max 1 sz)
  (List.range n).map (fun i => toF32 (decElem f (field payload (16 + i * sz) sz)))

/-- One submission taken into a channel (R384, R385). -/
def State.cpTake (s : State) (c : Nat) (ch : CpChan) (m : Msg) : CpChan :=
  let p := m.payload
  let total := s.rd (F.CP_CFG_ELEMENTS c)
  let es := s.cpElems c p
  let flags := field p 10 1
  let vals := (ch.vals ++ es).take total
  let bad := m.poison || decide (field p 4 4 ≠ ch.vals.length) || decide (total < ch.vals.length + es.length) ||
    bit flags 2 || es.any (fun v => !(f32 v).isFin)
  ⟨vals, ch.complete || (bit flags 0 && decide (vals.length = total)), ch.invalid || bad, ch.reduced || bit flags 1⟩

/-- A channel submission to CP_c (R384): a newer frame closes the open one, an older one is discarded. -/
def State.cpSubmit (s : State) (c : Nat) (m : Msg) : State :=
  if s.cpTakes c then
    let seq := field m.payload 0 4
    let chB := decide (field m.payload 11 1 = 1)
    let fresh : CpFrame := ⟨seq, s.now, chan0, chan0, s.frozenInput c⟩
    let put (s : State) (f : CpFrame) : State :=
      let f := if chB then { f with b := s.cpTake c f.b m } else { f with a := s.cpTake c f.a m }
      (s.setCp c { s.cp c with opn := some f, last := some f.seq }).wr (F.CP_VERDICT_OPEN c) 1
    match (s.cp c).opn, (s.cp c).last with
    | some f, _ =>
      if f.seq = seq then put s f
      else if newer seq f.seq then
        let s := s.cpVerdict c
        if s.cpTakes c then put s { fresh with frozen := s.frozenInput c } else s
      else s.bump (F.CP_COUNTS_STALE_SUBMITS c)
    | none, some l => if newer seq l then put s fresh else s.bump (F.CP_COUNTS_STALE_SUBMITS c)
    | none, none => put s fresh
  else s

/-- A plane report of KIND 0 handed to the arbiter (R380, R386). -/
def State.cpReport (s : State) (m : Msg) : State :=
  let p := m.payload
  let c := field p 3 1 % 32
  let fl := field p 25 1
  let r : CpReport := ⟨field p 4 4, field p 12 4, field p 16 4, bit fl 0 || bit fl 2⟩
  if s.cpTakes c then s.setCp c { s.cp c with reports := (s.cp c).reports ++ [r] } else s

/-! ### Arrivals at the castle (R380, R391, R394) -/

/-- A plane report of KIND 0 (R237). -/
def isPlaneReport (m : Msg) : Bool :=
  decide (m.src / 0x1000 = 2) && decide (m.op = 1) && decide (m.kind = 1) && decide (m.payload.length = 32) &&
    decide (field m.payload 2 1 = 0) && decide (field m.payload 0 2 = m.src)

/-- The castle unit IDs that take messages. -/
def castleUnit (d : Nat) : Bool :=
  d = 0xA000 ∨ (0xA100 ≤ d ∧ d < 0xA180) ∨ (0xA200 ≤ d ∧ d < 0xA240) ∨ (0xA400 ≤ d ∧ d < 0xA420)

/-- A message leaves the mesh. -/
def State.takeMsg (s : State) (m : Msg) : State := { s with net := s.net.erase m }

/-- An ACK to a non-posted message. -/
def State.ack (s : State) (m : Msg) : State := if m.kind = 0 then s.send (replyTo s m 0x10 St.ok []) else s

/-- A source the register allows: any when 0; any other is counted in SAFE_REJECTS (R391, R394). -/
def srcOk (allowed src : Nat) : Bool := allowed = 0 ∨ allowed = src

/-- A message at a castle unit ID: taken by its unit, or answered (R380). -/
def State.castleDeliver (s : State) (m : Msg) : State :=
  let s := s.takeMsg m
  let d := m.dest
  if !castleUnit d then s.answer m St.absent
  else if m.cls ≠ 1 ∧ m.cls ≠ 3 then s.answer m St.badArgument
  else
    let s := if isPlaneReport m then s.cpReport m else s
    if d = 0xA000 then
      if s.castle.inbox.length < 256 then
        let s := { s with castle := { s.castle with
          inbox := s.castle.inbox ++ [{ m with payload := m.payload.take 48 }] } }
        (s.wr F.CASTLE_INBOX_FILL s.castle.inbox.length).ack m
      else if m.kind = 0 then s.answer m St.noSpace
      else s.bump F.CASTLE_INBOX_DROPPED
    else if d < 0xA200 then
      let n := d - 0xA100
      let s := if srcOk (s.rd (F.SC_CFG_SOURCE_UNIT n)) m.src then
          s.scKick n (if m.op = 1 then some (field m.payload 0 2) else none)
        else s.reject R.SAFE_REJECTS 0xFFFF
      s.ack m
    else if d < 0xA400 then
      let t := d - 0xA200
      let s := if srcOk (s.rd (F.TS_CFG_SOURCE_UNIT t)) m.src then
          s.tsMark t (if m.op = 4 then 1 else field m.payload 0 1)
        else s.reject R.SAFE_REJECTS 0xFFFF
      s.ack m
    else
      let s := if m.op = 1 ∧ 16 ≤ m.payload.length then s.cpSubmit (d - 0xA400) m else s
      s.ack m

end Sys2Proof.Machine
end

