-- ==== Sys2Proof/Machine/ReflexOps.lean ====
section
/-!
DEFINITION. Taps, reflex rules, egress slots and gate control lists (R333 to R342, 12_dynamics.md).
-/

namespace Sys2Proof.Machine

def eg0 : EgSt := ⟨none, 0, 0⟩
def gcl0 : GclSt := ⟨false, [], 0, 0⟩

def State.eg (s : State) (i : Nat) : EgSt := mget eg0 s.rfx.eg i
def State.setEg (s : State) (i : Nat) (v : EgSt) : State := { s with rfx := { s.rfx with eg := mset eg0 s.rfx.eg i v } }
def State.gcl (s : State) (p : Nat) : GclSt := mget gcl0 s.rfx.gcl p
def State.setGcl (s : State) (p : Nat) (v : GclSt) : State :=
  { s with rfx := { s.rfx with gcl := mset gcl0 s.rfx.gcl p v } }

/-- The module is in the safe state or on its way there: from the decision to SAFE_EXIT (R334, R339, R401, R404). -/
def State.inSafe (s : State) : Bool := s.rd F.MODULE_STATE_TARGET = 4

/-! ### Numeric fields of payloads -/

/-- Bytes of an ALN_CH_c.TYPE code. -/
def chBytes (t : Nat) : Nat :=
  if t ≤ 1 then 1 else if t = 2 ∨ t = 3 ∨ t = 6 then 2 else if t = 4 ∨ t = 5 ∨ t = 7 then 4 else 8

/-- The exact value of a field under an ALN_CH_c.TYPE code. -/
def chVal (t v : Nat) : Val :=
  match t with
  | 0 => .ofInt (sgn 8 v)
  | 1 => .ofInt (v % 256 : Nat)
  | 2 => .ofInt (sgn 16 v)
  | 3 => .ofInt (v % 65536 : Nat)
  | 4 => .ofInt (sgn 32 v)
  | 5 => .ofInt (v % 2 ^ 32 : Nat)
  | 6 => fmtF16.dec (v % 65536)
  | 7 => f32 (v % 2 ^ 32)
  | _ => .ofInt (sgn 64 v)

/-- A field of a byte list under TYPE, BE and SCALE (0 taken as 1.0) as FP32, or none where it does not fit or is not
finite (R333). -/
def readChannel (p : List Byte) (off t : Nat) (be : Bool) (scale : Nat) : Option Nat :=
  let n := chBytes t
  if off + n ≤ p.length then
    let bs := slice p off n
    let v := ofBytes (if be then bs.reverse else bs)
    let x := toF32 (f32 (toF32 (chVal t v)))
    let y := f32mul x (if scale = 0 then f32one else scale)
    if (f32 y).isFin then some y else none
  else none

/-! ### Egress fills (R337 to R339) -/

/-- The TENTATIVE flag of the current command (DYN_CMD byte 5 bit 1). -/
def State.cmdTentative (s : State) : Bool := bit (s.rd (F.DYN_CMD_DATA 0)) 41

/-- TAU, Q_CMD, QD_CMD of degree of freedom j of the current command, or a tap's value (R337). -/
def State.fieldSource (s : State) (i k : Nat) : Nat :=
  let j := s.rd (F.EG_FIELD_DOF i k)
  match s.rd (F.EG_FIELD_QUANTITY i k) with
  | 0 => bits (s.rd (F.DYN_CMD_DATA (8 + 2 * j))) 0 32
  | 1 => bits (s.rd (F.DYN_CMD_DATA (8 + 2 * j))) 32 32
  | 2 => bits (s.rd (F.DYN_CMD_DATA (9 + 2 * j))) 0 32
  | _ => s.rd (F.TAP_VALUE_VALUE (s.rd (F.EG_FIELD_TAP i k)))

/-- Bytes of `l` from `off` replaced, the length kept. -/
def patch (l : List Byte) (off : Nat) (b : List Byte) : List Byte :=
  (l.take off ++ b ++ l.drop (off + b.length)).take l.length

def orderBytes (be : Bool) (b : List Byte) : List Byte := if be then b.reverse else b

/-- Field k of slot i written into a frame: values and sequence counts with `crc` false, CRC-32C with `crc` true. -/
def State.putField (s : State) (i : Nat) (crc : Bool) (b : List Byte) (k : Nat) : List Byte :=
  let t := s.rd (F.EG_FIELD_TYPE i k)
  let off := s.rd (F.EG_FIELD_OFFSET i k)
  let be := s.on (F.EG_FIELD_BE i k)
  let sc := s.rd (F.EG_FIELD_SCALE i k)
  let num (code n : Nat) : List Byte :=
    let v := (f32 (s.fieldSource i k)).mul (f32 (if sc = 0 then f32one else sc))
    orderBytes be (toBytes n (convElem code true v).1)
  if crc then (if t = 6 then patch b off (orderBytes be (toBytes 4 (crc32c (b.take off)))) else b)
  else match t with
    | 0 => patch b off (num 2 2)
    | 1 => patch b off (num 3 4)
    | 2 => patch b off (num 9 4)
    | 3 => patch b off (num 7 2)
    | 4 => patch b off (toBytes 1 (s.eg i).seq)
    | 5 => patch b off (orderBytes be (toBytes 2 (s.eg i).seq))
    | _ => b

/-- A slot's frame assembled from its template and fields; Ethernet is padded to 60 bytes by the MAC. -/
def State.egFrame (s : State) (i : Nat) : List Byte :=
  let tpl := (List.range 32).flatMap (fun w => toBytes 8 (s.rd (F.EG_TEMPLATE_BYTES i w)))
  let b := (List.range 16).foldl (s.putField i false) tpl
  let b := (List.range 16).foldl (s.putField i true) b
  let b := b.take (s.rd (F.EG_CFG_LENGTH i))
  if s.on (F.EG_CFG_PORT_TYPE i) then b else padTo 60 b

/-- A field of slot i reads the current command. -/
def State.egReadsCmd (s : State) (i : Nat) : Bool :=
  (List.range 16).any (fun k => decide (s.rd (F.EG_FIELD_TYPE i k) ≤ 3) && decide (s.rd (F.EG_FIELD_QUANTITY i k) ≤ 2))

/-- A field of slot i reads a command that carries TENTATIVE. -/
def State.egTentative (s : State) (i : Nat) : Bool := s.cmdTentative && s.egReadsCmd i

/-- Slot i takes fills: enabled, on a port that exists, with the unit enabled, not stopped by the safe state, and
reading no command of a dynamics unit that is STARVED (R328). -/
def State.egOpen (s : State) (i : Nat) : Bool :=
  s.on F.RFX_CTRL_ENABLE && s.on (F.EG_CFG_ENABLE i) &&
    (s.on (F.EG_CFG_PORT_TYPE i) || decide (s.rd (F.EG_CFG_PORT i) ≤ 3)) &&
    (!s.inSafe || decide (s.rd (F.EG_CFG_SOURCE i) = 3)) && !(s.on F.DYN_STATE_STARVED && s.egReadsCmd i)

/-- A fill of slot i (R337, R338, R339); answers whether it was refused for TENTATIVE. -/
def State.egFill (s : State) (i : Nat) : Bool × State :=
  if s.egOpen i then
    if s.egTentative i then (true, s.bump (F.EG_STATUS_TENT_REFUSED i))
    else
      let e := s.eg i
      let s1 := if e.wait.isSome then s.bump (F.EG_STATUS_SUPERSEDED i) else s
      let s2 := s1.setEg i { e with wait := some ⟨s.egFrame i, s.rfx.order⟩ }
      (false, { s2 with rfx := { s2.rfx with order := s2.rfx.order + 1 } })
  else (false, s)

/-- The waiting frame of slot i leaves: handed to the port, counted, the sequence count advanced. -/
def State.egSent (s : State) (i port : Nat) (b : List Byte) : State :=
  let e := s.eg i
  let s := (s.setEg i { e with wait := none, seq := (e.seq + 1) % 65536 }).bumpW (F.EG_STATUS_SENT i)
  { s with rfx := { s.rfx with sent := mset [] s.rfx.sent port b } }

/-! ### Reflex rules (R334, R335) -/

/-- Trigger truth of a tap rule: the crossing with its hysteresis. -/
def State.tapTruth (s : State) (r : Nat) (old : Bool) : Bool :=
  let tap := s.rd (F.RULE_COND_INDEX r)
  let v := s.rd (F.TAP_VALUE_VALUE tap)
  let th := s.rd (F.RULE_COND_THRESH r)
  let h := let x := s.rd (F.RULE_COND2_HYST r); if f32lt x 0 then 0 else x
  if !s.on (F.TAP_VALUE_VALID tap) then false
  else if s.rd (F.RULE_COND_KIND r) = 1 then
    (if f32lt th v then true else if f32lt v (f32sub th h) then false else old)
  else (if f32lt v th then true else if f32lt (f32add th h) v then false else old)

/-- A rule's qualifier. -/
def State.qualifier (s : State) (r : Nat) : Bool :=
  !s.on (F.RULE_COND_AND_EN r) ||
    ((if s.on (F.RULE_COND_AND_KIND r) then
        s.on (F.TAP_VALUE_VALID (s.rd (F.RULE_COND_AND_INDEX r))) &&
          f32lt (s.rd (F.RULE_COND2_AND_THRESH r)) (s.rd (F.TAP_VALUE_VALUE (s.rd (F.RULE_COND_AND_INDEX r))))
      else bit (s.rd F.GPIO_LEVEL_LEVELS) (s.rd (F.RULE_COND_AND_INDEX r)))
      != s.on (F.RULE_COND_AND_INVERT r))

/-- Whether rule r fires in a cycle with these GPIO edges, given the truth of its tap trigger before. -/
def State.ruleFires (s : State) (r rise fall : Nat) (old : Bool) : Bool :=
  let k := s.rd (F.RULE_COND_KIND r)
  let trig := if k = 0 then bit (if s.on (F.RULE_COND_EDGE r) then fall else rise) (s.rd (F.RULE_COND_INDEX r))
    else if k = 3 then false else !old && s.tapTruth r old
  s.rfxRuns && s.on F.RFX_CTRL_ENABLE && s.on (F.RULE_COND_ENABLE r) && !bit (s.rd F.RFX_MASK_RULES) r &&
    !bit (s.rd F.RFX_LATCHED_RULES) r && !(s.on (F.RULE_COND_SAFE_MASK r) && s.inSafe) && trig && s.qualifier r

/-- An output pin of the unit driven to a level; it appears in GPIO_LEVEL. -/
def State.drivePin (s : State) (g : Nat) (lvl : Bool) : State :=
  (s.wrBit F.RFX_GPIO_OUT_LEVELS g lvl).wrBit F.GPIO_LEVEL_LEVELS g lvl

/-- The pin action of rule r (R335): 1 set, 2 clear, 3 pulse of PULSE_CYC REFLEX_CLK. -/
def State.pinAction (s : State) (r : Nat) : State :=
  let g := s.rd (F.RULE_ACTION_OUT_PIN r)
  let op := s.rd (F.RULE_ACTION_OUT_OP r)
  if op ≠ 0 ∧ bit (s.rd F.RFX_GPIO_OUT_EN_PINS) g then
    let s := s.drivePin g (op ≠ 2)
    let stop := if op = 3 then s.now + 2 * max 1 (s.rd (F.RULE_ACTION_PULSE_CYC r)) else 0
    { s with rfx := { s.rfx with pulse := mset 0 s.rfx.pulse g stop } }
  else s

/-- The rules that fire act, all in one cycle: inhibits before any fill, the lowest-numbered rule's action on a pin,
fills in rule order (R334, R335, R338). -/
def State.fireRules (s : State) (fired : List Nat) : State :=
  let s := fired.foldl (fun s r =>
    let s := s.bumpW (F.RULE_STATUS_FIRED r)
    let s := if s.on (F.RULE_COND_LATCH r) then s.wrBit F.RFX_LATCHED_RULES r true else s
    if s.on (F.RULE_ACTION_INHIBIT_EN r) then
      s.wr F.RFX_INHIBIT_SLOTS (s.rd F.RFX_INHIBIT_SLOTS ||| s.rd (F.RULE_ACTION_INHIBIT_MASK r))
    else s) s
  let s := fired.reverse.foldl State.pinAction s
  fired.foldl (fun s r =>
    if s.on (F.RULE_ACTION_SEND r) then
      let (refused, s) := s.egFill (s.rd (F.RULE_ACTION_SLOT r))
      if refused then s.bump (F.RULE_STATUS_REFUSED_FRAMES r) else s
    else s) s

/-- One evaluation of all rules after GPIO edges or tap updates (R334). -/
def State.reflexEval (s : State) (rise fall : Nat) : State :=
  let old (r : Nat) : Bool := mget 0 s.rfx.truth r = 1
  let fired := (List.range 32).filter (fun r => s.ruleFires r rise fall (old r))
  let truth := (List.range 32).foldl (fun m r =>
    let k := s.rd (F.RULE_COND_KIND r)
    mset 0 m r (if k = 1 ∨ k = 2 then (s.tapTruth r (old r)).toNat else 0)) s.rfx.truth
  ({ s with rfx := { s.rfx with truth := truth } }).fireRules fired

/-! ### Taps (R333) -/

/-- Whether TAP_t observes samples of a port. -/
def State.tapOn (s : State) (t typ port : Nat) : Bool :=
  s.on (F.TAP_CFG_ENABLE t) && decide (s.rd (F.TAP_CFG_PORT_TYPE t) = typ) && decide (3 ≤ typ ∧ typ ≤ 5) &&
    decide (s.rd (F.TAP_CFG_PORT_INDEX t) = port) && decide (s.rd (F.TAP_CFG_TYPE t) ≤ 8) && s.portOn typ port

/-- A CAN identifier passes a filter of identifier, IDE and mask. -/
def canMatch (id : Nat) (ide : Bool) (fid fmask : Nat) (fide : Bool) : Bool :=
  decide ((id ^^^ fid) &&& fmask = 0) && ide == fide

/-- TAP_t's filter passes a CAN frame; a mask of 0 passes every frame. -/
def State.tapPasses (s : State) (t id : Nat) (ide : Bool) : Bool :=
  s.rd (F.TAP_FILTER_ID_MASK t) == 0 ||
    canMatch id ide (s.rd (F.TAP_FILTER_ID t)) (s.rd (F.TAP_FILTER_ID_MASK t)) (s.on (F.TAP_FILTER_IDE t))

/-- Every tap on a port observes a sample, and the rules are evaluated in the same cycle. -/
def State.tapSample (s : State) (typ port : Nat) (pass : Nat → Bool) (payload : List Byte) (stamp : BitVec 128) : State :=
  let s := (List.range 64).foldl (fun s t =>
    if s.tapOn t typ port && pass t then
      match readChannel payload (s.rd (F.TAP_CFG_BYTE_OFFSET t)) (s.rd (F.TAP_CFG_TYPE t)) (s.on (F.TAP_CFG_BE t))
          (s.rd (F.TAP_CFG_SCALE t)) with
      | some v =>
        let old := if s.on (F.TAP_VALUE_VALID t) then some (s.rd (F.TAP_VALUE_VALUE t), s.rd (F.TAP_STAMP_TS64 t)) else none
        let s : State := { s with rfx := { s.rfx with tapPrev := mset none s.rfx.tapPrev t old } }
        let s := ((s.wr (F.TAP_VALUE_VALUE t) v).wr (F.TAP_VALUE_VALID t) 1).bumpW (F.TAP_VALUE_UPDATES t)
        (s.wr (F.TAP_VALUE_HOLDOVER t) (tsHold stamp).toNat).wr (F.TAP_STAMP_TS64 t) (Machine.ts64 stamp)
      | none => s
    else s) s
  s.reflexEval 0 0

/-! ### Gate control (R341) -/

/-- Entries of the list of MAC p as configured: (gates, interval). -/
def State.gclList (s : State) (p : Nat) : List (Nat × Nat) :=
  (List.range (clampN 1 256 (s.rd (F.EG_GCL_CTRL_LENGTH p)))).map (fun i =>
    (s.rd (F.EG_GCL_ENTRY_GATES p i), s.rd (F.EG_GCL_ENTRY_INTERVAL_NS p i)))

def State.gclCycle (s : State) (p : Nat) : Nat := max 1000 (s.rd (F.EG_GCL_CYCLE_CYCLE_NS p))

/-- A list fitted to its cycle: cut at the cycle's end, the last entry held to it. -/
def gclFit : List (Nat × Nat) → Nat → List (Nat × Nat)
  | [], _ => []
  | [(g, _)], left => [(g, left)]
  | (g, n) :: r, left => if left ≤ n then [(g, left)] else (g, n) :: gclFit r (left - n)

/-- How long, in ns, the gate of a class stays open from now, at least until the end of the next cycle; 0 when it is
closed. With ENABLE 0, and before the first cycle begins, every gate is open. -/
def State.gateOpen (s : State) (p cls : Nat) : Nat :=
  let g := s.gcl p
  if !s.on (F.EG_GCL_CTRL_ENABLE p) || !g.running then 2 ^ 63
  else
    let i := s.rd (F.EG_GCL_STATUS_ENTRY p)
    let t := s.ts64 (s.rd (F.EG_GCL_CTRL_TB p))
    let rest := (g.list.drop i) ++ g.list
    let open_ := (rest.takeWhile (fun e => bit e.1 cls)).foldl (fun a e => a + e.2) 0
    open_ - (t - g.entryAt)

/-- Bit time of MAC p in 1/10 ns: 10, 5, 2.5 or 1 Gb/s. -/
def State.bitTenths (s : State) (p : Nat) : Nat :=
  match s.rd (F.ETH_CTRL_SPEED p) with
  | 0 => 1
  | 1 => 2
  | 2 => 4
  | _ => 10

/-- Time of a frame on the wire in ns, with FCS, preamble and inter-frame gap, rounded up. -/
def State.frameNs (s : State) (p : Nat) (b : List Byte) : Nat := ceilDiv ((b.length + 24) * 8 * s.bitTenths p) 10

/-- The slot MAC p sends from next: highest open class first, then in ready order; its frame ends before its gate closes
(R341). -/
def State.egPick (s : State) (p : Nat) : Option (Nat × List Byte) :=
  let cand := (List.range 32).filterMap (fun i =>
    match (s.eg i).wait with
    | some w =>
      let c := s.rd (F.EG_CFG_TRAFFIC_CLASS i)
      if s.rd (F.EG_CFG_PORT_TYPE i) = 0 ∧ s.rd (F.EG_CFG_PORT i) = p ∧ s.frameNs p w.bytes ≤ s.gateOpen p c then
        some (c, w.ready, i, w.bytes)
      else none
    | none => none)
  (cand.foldl (fun (b : Option (Nat × Nat × Nat × List Byte)) c => match b with
    | none => some c
    | some x => if x.1 < c.1 ∨ (x.1 = c.1 ∧ c.2.1 < x.2.1) then some c else some x) none).map (fun x => x.2.2)

/-- Arbitration rank of a CAN identifier: the lower wins, a standard frame before an extended one with the same base. -/
def canRank (id : Nat) (ide : Bool) : Nat :=
  if ide then id / 2 ^ 18 % 2048 * 2 ^ 19 + 2 ^ 18 + id % 2 ^ 18 else id % 2048 * 2 ^ 19

/-- The slot CAN_b sends from next: lowest identifier first (R342). -/
def State.canPick (s : State) (b : Nat) : Option (Nat × List Byte) :=
  let rank (i : Nat) : Nat := canRank (s.rd (F.EG_CFG_CAN_ID i)) (s.on (F.EG_CFG_CAN_IDE i))
  let cand := (List.range 32).filterMap (fun i =>
    match (s.eg i).wait with
    | some w => if s.on (F.EG_CFG_PORT_TYPE i) ∧ s.rd (F.EG_CFG_PORT i) = b then some (i, w.bytes) else none
    | none => none)
  cand.foldl (fun (x : Option (Nat × List Byte)) c => match x with
    | none => some c
    | some y => if rank c.1 < rank y.1 then some c else some y) none

/-- Gate control of MAC p moves on: to the next entry, or at the cycle's end to a new cycle with the list as configured;
the first cycle begins at BASE + k × CYCLE_NS, and so does the
first after a step of the timebase (R341). -/
def State.gclAdvance (s : State) (p : Nat) : State :=
  let g := s.gcl p
  let t := s.ts64 (s.rd (F.EG_GCL_CTRL_TB p))
  let cyc := s.gclCycle p
  let i := s.rd (F.EG_GCL_STATUS_ENTRY p)
  let steps := s.rd (F.TB_STATUS_STEPS (s.rd (F.EG_GCL_CTRL_TB p)))
  if g.running ∧ i + 1 < g.list.length ∧ g.steps = steps then
    (s.setGcl p { g with entryAt := g.entryAt + (g.list.getD i (0, 0)).2 }).wr (F.EG_GCL_STATUS_ENTRY p) (i + 1)
  else
    let base := s.rd (F.EG_GCL_BASE_BASE p)
    let start := if t < base then t else base + (t - base) / cyc * cyc
    let s := (s.setGcl p ⟨true, gclFit (s.gclList p) cyc, start, steps⟩).wr (F.EG_GCL_STATUS_ENTRY p) 0
    if g.running then s.bumpW (F.EG_GCL_STATUS_CYCLES p) else s

/-- One round of the hold generator (R401): every slot of HOLD_SLOTS whose SOURCE is CASTLE is filled. -/
def State.holdFill (s : State) : State :=
  (bitList (s.rd F.SAFE_CFG_HOLD_SLOTS) 32).foldl (fun s i => if s.rd (F.EG_CFG_SOURCE i) = 3 then (s.egFill i).2 else s) s

end Sys2Proof.Machine
end

