-- ==== Sys2Proof/Machine/IngestOps.lean ====
section
/-!
DEFINITION. Samples into items: opening, closing and discarding, the frozen-sample detector, expect windows, CSI-2 frames
and port stamps (R55 to R63, R75, R76, 03_ingest.md).
-/

namespace Sys2Proof.Machine

/-! ### Items (R59 to R64) -/

/-- The next SEQUENCE of slot i, taken by one sample or placeholder (R62). -/
def State.takeSeq (s : State) (i : Nat) : State := s.setQ i { s.q i with seq := ((s.q i).seq + 1) % 2 ^ 32 }

/-- A sample or placeholder discarded for want of room (R59, R63). -/
def State.discard (s : State) (i seq : Nat) : State :=
  (s.bump (F.IQ_DISCARDS_DISCARDS i)).wr (F.IQ_DISCARDS_LAST_SEQ i) seq

/-- GAP of an item with this SEQUENCE (the head word table). -/
def IqSt.gapOf (q : Sys2Proof.Machine.IqSt) (seq : Nat) : Bool :=
  match q.last with
  | some l => seq ≠ (l + 1) % 2 ^ 32
  | none => seq ≠ 0

/-- An item opened for a new sample, if MAX_ITEM_64 units lie free and contiguous and none is open; otherwise the whole
sample is discarded (R59, R62, R63). -/
def State.openItem (s : State) (i : Nat) (stamp : BitVec 128) (frame : Nat) : State :=
  let q := s.q i
  let seq := q.seq
  let s := s.takeSeq i
  match q.opn, q.place (s.ringSize i) (s.rd (F.IQ_RING_CFG_MAX_ITEM_64 i)) with
  | none, some (pad, off) =>
    let o : IqOpen := ⟨pad, off, s.rd (F.IQ_RING_CFG_MAX_ITEM_64 i), seq, q.gapOf seq, stamp, frame, 0, 0, false, false⟩
    (s.setQ i { s.q i with opn := some o, last := some seq, expect := [] }).iqLevel i
  | _, _ => s.discard i seq

/-- The header of an item (the ingest item header table). -/
def itemHeader (length flags seq crc : Nat) (stamp : BitVec 128) : List Byte :=
  toBytes 4 length ++ toBytes 4 flags ++ toBytes 4 seq ++ toBytes 4 crc ++ toBytes 16 stamp.toNat

def flagComplete : Nat := 2 ^ 9
def flagTruncated : Nat := 2 ^ 10
def flagFrozen : Nat := 2 ^ 11
def flagMissing : Nat := 2 ^ 12

/-- Sum of absolute differences of two sample grids. -/
def sad (a b : List Nat) : Nat := (a.zip b).foldl (fun t p => t + (if p.1 ≤ p.2 then p.2 - p.1 else p.1 - p.2)) 0

/-- The comparison that matches an item with the one before, under FROZEN_MODE: 1 EXACT, 2 NEAR, 3 REPEAT, 0 none. -/
def State.frozenMatch (s : State) (i : Nat) (k : FrozenKey) : Nat :=
  let mode := s.rd (F.STREAM_DETECT_FROZEN_MODE i)
  let csi := s.slotType i = 1
  match (s.q i).prev with
  | none => 0
  | some p =>
    if mode = 0 then 0
    else if p.crc = k.crc ∧ p.length = k.length then 1
    else if 2 ≤ mode ∧ csi ∧ p.grid.length = k.grid.length ∧ k.grid ≠ [] ∧
        sad p.grid k.grid ≤ s.rd (F.STREAM_DETECT_FROZEN_SAD i) then 2
    else if mode = 3 ∧ csi ∧ k.frame ≠ 0 ∧ p.frame = k.frame then 3
    else 0

/-- The run of matches after an item (R75): answers whether the item is FROZEN_SUSPECT. MISSING and TRUNCATED items end
a run. The first suspect of a run is counted, logged and signalled to the castle's detector. -/
def State.frozenStep (s : State) (i : Nat) (k : Option FrozenKey) (ends : Bool) : Bool × State :=
  let q := s.q i
  let m := match k with
    | some k => if ends then 0 else s.frozenMatch i k
    | none => 0
  if m = 0 then (false, (s.setQ i { q with prev := k, run := 0 }).wr (F.STREAM_STATUS_FROZEN i) 0)
  else
    let cnt := max 1 (s.rd (F.STREAM_DETECT_FROZEN_COUNT i))
    let run := q.run + 1
    let s := s.setQ i { q with prev := k, run := run }
    if run < cnt then (false, s)
    else if run = cnt then
      let s := (s.wr (F.STREAM_STATUS_FROZEN i) 1).bump (F.STREAM_STATUS_FROZEN_RUNS i)
      (true, (s.event (0x4000 + i) 0x4002 i [m]).fzSignal i)
    else (true, s)

/-- A closed item entered in its ring: header written, counted, watermark, notification, and a wake from PARK (R59, R61,
R64, R70, R74, R458). The payload is already in place. -/
def State.enterItemAt (s : State) (i : Nat) (o : IqOpen) (prio length crc flags : Nat) : State :=
  let fl := prio + i * 16 + flags
  let units := ceilDiv (32 + length) 64
  let e : IqItem := ⟨o.pad, o.off, units, o.seq, o.gap, prio, o.stamp, length, fl, false⟩
  let s := s.store (s.ringBase i + o.off * 64) (itemHeader length fl o.seq crc o.stamp)
  let q := s.q i
  let s := s.setQ i { q with opn := none, items := q.items ++ [e], wr := o.off + units }
  let s := (s.bumpW (F.IQ_COUNTS_ITEMS i)).iqLevel i
  let s := if s.on (F.IQ_NOTIFY_ON_CLOSE i) then s.iqNotify i 0 (headWord i e) else s
  if s.modState = stPark ∧ s.wakeOn 2 ∧ bit (s.rd F.PWR_WAKE_CFG_WAKE_SLOTS) i then s.wake 0x05 i else s

/-- An item of the slot's own, under its PRIORITY. -/
def State.enterItem (s : State) (i : Nat) (o : IqOpen) (length crc flags : Nat) : State :=
  s.enterItemAt i o (s.rd (F.STREAM_SRC_PRIORITY i)) length crc flags

/-- A MISSING placeholder for an expected sample (R63): LENGTH 0, COMPLETE clear, the firing stamp. -/
def State.putMissing (s : State) (i seq : Nat) (stamp : BitVec 128) : State :=
  let q := s.q i
  match q.place (s.ringSize i) 1 with
  | some (pad, off) =>
    let o : IqOpen := ⟨pad, off, 1, seq, q.gapOf seq, stamp, 0, 0, 0, false, false⟩
    let (_, s) := (s.setQ i { q with last := some seq }).frozenStep i none true
    let s := (s.bump (F.STREAM_STATUS_MISSING_ITEMS i)).store (s.ringBase i + off * 64 + 32) (List.replicate 32 0)
    s.enterItem i o 0 (crc32c []) flagMissing
  | none => s.discard i seq

/-- Placeholders that waited for the open item to close (log entry 9). -/
def State.payOwed (s : State) (i : Nat) : State :=
  let l := (s.q i).owed
  l.foldl (fun s e => s.putMissing i e.1 e.2) (s.setQ i { s.q i with owed := [] })

/-- An item of slot i closes with its payload (R60, R61): what exceeds the reservation is cut. `cut` says that something
was discarded, `whole` that the sample came whole. -/
def State.closeItem (s : State) (i : Nat) (payload : List Byte) (cut whole : Bool) : State :=
  match (s.q i).opn with
  | none => s
  | some o =>
    let room := o.len * 64 - 32
    let cut := cut || decide (room < payload.length)
    let p := payload.take room
    let crc := crc32c p
    let (frz, s) := s.frozenStep i (some ⟨crc, p.length, 0, []⟩) cut
    let s := if cut then s.bump (F.STREAM_STATUS_TRUNCATIONS i) else s
    let flags := (if cut then flagTruncated else if whole then flagComplete else 0) + (if frz then flagFrozen else 0)
    let units := ceilDiv (32 + p.length) 64
    let s := s.store (s.ringBase i + o.off * 64 + 32) (padTo (units * 64 - 32) p)
    (s.enterItem i o p.length crc flags).payOwed i

/-- A whole sample taken by slot i in one command (R59 to R62). -/
def State.putSample (s : State) (i : Nat) (stamp : BitVec 128) (payload : List Byte) : State :=
  let busy := (s.q i).opn.isSome
  let s := s.openItem i stamp 0
  if busy then s else s.closeItem i payload false true

/-! ### CSI-2 frames -/

/-- Row stride and rows of a CSI-2 slot. -/
def State.csiStride (s : State) (i : Nat) : Nat := s.rd (F.STREAM_SRC_ROW_STRIDE_64 i) * 64
def State.csiRows (s : State) (i : Nat) : Nat := s.rd (F.STREAM_SRC_MAX_ROWS i)

/-- Start of an open item's bytes. -/
def State.itemAddr (s : State) (i : Nat) (o : IqOpen) : Nat := s.ringBase i + o.off * 64

/-- A frame's item opened: its row-stamp table and rows zero, its prefix written (the frame layout table). -/
def State.openFrame (s : State) (i : Nat) (stamp : BitVec 128) (frame : Nat) : State :=
  let busy := (s.q i).opn.isSome
  let s := s.openItem i stamp frame
  match busy, (s.q i).opn with
  | false, some o =>
    let prefix_ := toBytes 4 frame ++ toBytes 1 (s.rd (F.STREAM_SRC_VC i)) ++ toBytes 1 (s.rd (F.STREAM_SRC_DATA_TYPE i)) ++
      toBytes 2 0 ++ toBytes 4 0 ++ toBytes 4 (s.csiStride i) ++ toBytes 4 0 ++ toBytes 4 (s.csiRows i)
    s.store (s.itemAddr i o + 32)
      (padTo (csiBytes (s.csiRows i) (s.rd (F.STREAM_SRC_ROW_STRIDE_64 i)) - 32) prefix_)
  | _, _ => s

/-- A row of the open frame (R60): stamped, cut to ROW_STRIDE; rows beyond MAX_ROWS are discarded. -/
def State.putRow (s : State) (i : Nat) (stamp : BitVec 128) (data : List Byte) (bad : Bool) : State :=
  match (s.q i).opn with
  | none => s
  | some o =>
    let hold : BitVec 128 := if tsHold stamp then 2048 else 0
    if o.rows < s.csiRows i then
      let a := s.itemAddr i o
      let row := data.take (s.csiStride i)
      let s := s.store (a + 64 + 8 * o.rows) (toBytes 8 (Machine.ts64 stamp))
      let s := s.store (a + 64 + csiTable (s.csiRows i) + o.rows * s.csiStride i) row
      s.setQ i { s.q i with opn := some { o with
        rows := o.rows + 1, rowBytes := if o.rows = 0 then row.length else o.rowBytes, bad := o.bad || bad,
        cut := o.cut || decide (s.csiStride i < data.length), stamp := o.stamp ||| hold } }
    else s.setQ i { s.q i with opn := some { o with cut := true, bad := o.bad || bad } }

/-- Pixels of a row of `n` bytes, and the byte that holds the top 8 bits of pixel x, by CSI-2 data type (log entry 10). -/
def csiPixels (dt n : Nat) : Nat :=
  if dt = 0x2B then n * 4 / 5 else if dt = 0x2C then n * 2 / 3 else if dt = 0x2E ∨ dt = 0x1E then n / 2 else n

def csiTopByte (dt x : Nat) : Nat :=
  if dt = 0x2B then x / 4 * 5 + x % 4 else if dt = 0x2C then x / 2 * 3 + x % 2
  else if dt = 0x2E then 2 * x else if dt = 0x1E then 2 * x + 1 else x

/-- The 32 × 32 sample grid of a frame (R75, NEAR). -/
def State.csiGrid (s : State) (i : Nat) (o : IqOpen) : List Nat :=
  let dt := s.rd (F.STREAM_SRC_DATA_TYPE i)
  let w := csiPixels dt o.rowBytes
  let a := s.itemAddr i o + 64 + csiTable (s.csiRows i)
  (List.range 32).flatMap (fun j => (List.range 32).map (fun k =>
    (s.byte (a + (2 * j + 1) * o.rows / 64 * s.csiStride i + csiTopByte dt ((2 * k + 1) * w / 64))).toNat))

/-- A frame's item closes (R61); `endTs` is the frame-end packet's stamp, if one came. -/
def State.closeFrame (s : State) (i : Nat) (endTs : Option (BitVec 128)) : State :=
  match (s.q i).opn with
  | none => s
  | some o =>
    let a := s.itemAddr i o
    let rows := s.csiRows i
    let len := csiBytes rows (s.rd (F.STREAM_SRC_ROW_STRIDE_64 i)) - 32
    let fe := match endTs with
      | some t => Machine.ts64 t
      | none => 0
    let s := s.store (a + 40) (toBytes 4 o.rowBytes)
    let s := s.store (a + 48) (toBytes 4 o.rows)
    let s := s.store (a + 56) (toBytes 8 fe)
    let hold : BitVec 128 := match endTs with
      | some t => if tsHold t then 2048 else 0
      | none => 0
    let o := { o with stamp := o.stamp ||| hold }
    let crc := crc32c (s.bytes (a + 32) len)
    let rowsCrc := crc32c (s.bytes (a + 64 + csiTable rows) (rows * s.csiStride i))
    let (frz, s) := s.frozenStep i (some ⟨rowsCrc, len, o.frame, s.csiGrid i o⟩) o.cut
    let s := if o.cut then s.bump (F.STREAM_STATUS_TRUNCATIONS i) else s
    let whole := endTs.isSome && decide (o.rows = rows) && !o.bad && !o.cut
    let flags := (if o.cut then flagTruncated else 0) + (if whole then flagComplete else 0) + (if frz then flagFrozen else 0)
    (s.enterItem i o len crc flags).payOwed i

/-- An open frame closed without its frame end: counted in its port (R61). -/
def State.abandonFrame (s : State) (i : Nat) : State :=
  if (s.q i).opn.isSome then (s.bump (F.CSI_STATUS_ABANDONED (s.slotPort i))).closeFrame i none else s

/-! ### Enabling and disabling (R76) -/

/-- An open item closed at once with COMPLETE clear and TRUNCATED set (R76). -/
def State.abortItem (s : State) (i : Nat) : State :=
  match (s.q i).opn with
  | none => s
  | some o =>
    if s.slotType i = 1 then (s.setQ i { s.q i with opn := some { o with cut := true } }).closeFrame i none
    else s.closeItem i [] true false

/-- A slot restarted: SEQUENCE at 0, any frozen run ended (R62, R76). -/
def State.restartSlot (s : State) (i : Nat) : State :=
  (s.setQ i { s.q i with seq := 0, last := none, run := 0, prev := none, owed := [] }).wr (F.STREAM_STATUS_FROZEN i) 0

/-! ### Stamps (R55, R56) -/

/-- The value of TB_n `ago` ns before now, as a TS128 (log entry 11). -/
def State.stampAgo (s : State) (n ago : Nat) : BitVec 128 := mkTs128 ((s.tb n).t48 - ago * 2 ^ 48) n false (s.tbHold n)

/-- Delivers an observation to the phase domains that follow a port: raw units, taken `ago` ns before now, on each
domain's timebase (the phase domain sources table). -/
def State.phSense (s : State) (source index : Nat) (raw : Int) (ago : Nat) : State :=
  (List.range 8).foldl (fun s k =>
    if s.rd (F.PH_CTRL_SOURCE k) = source ∧ s.rd (F.PH_CTRL_SOURCE_INDEX k) = index then
      s.phDeliver k raw ((Machine.ts64 (s.stampAgo (s.rd (F.PH_CTRL_TB k)) ago) : Nat) : Int)
    else s) s

/-! ### SPI masters and encoder inputs -/

def spi0 : SpiSt := ⟨false, 0, none⟩
def enc0 : EncSt := ⟨0, 0, false, false, 0⟩

def State.spi (s : State) (m : Nat) : SpiSt := mget spi0 s.port.spi m
def State.setSpi (s : State) (m : Nat) (v : SpiSt) : State := { s with port := { s.port with spi := mset spi0 s.port.spi m v } }
def State.enc (s : State) (e : Nat) : EncSt := mget enc0 s.port.enc e
def State.setEnc (s : State) (e : Nat) (v : EncSt) : State := { s with port := { s.port with enc := mset enc0 s.port.enc e v } }

/-- A start trigger of an SPI master; ignored while a transfer is in progress (R514). -/
def State.spiStart (s : State) (m : Nat) (stamp : BitVec 128) : State :=
  if s.portLive 4 m && !(s.spi m).busy then
    match s.pickSlot 4 m (fun _ => true) with
    | some i =>
      let s := s.openItem i stamp 0
      s.setSpi m ⟨true, stamp, some i⟩
    | none => s.setSpi m ⟨true, stamp, none⟩
  else s

/-- Gray code to binary over 32 bits. -/
def gray (v : Nat) : Nat :=
  let v := v ^^^ (v / 2 ^ 16)
  let v := v ^^^ (v / 2 ^ 8)
  let v := v ^^^ (v / 2 ^ 4)
  let v := v ^^^ (v / 2 ^ 2)
  v ^^^ (v / 2)

/-- An encoder's position latched into an item (the payload table); `ssi` is the word an SSI encoder shifts out and
whether its frame was good. Taps read the sample, and an SSI read is an observation of the domains that follow it. -/
def State.encLatch (s : State) (e : Nat) (ssi : Nat × Bool) : State :=
  if s.portLive 5 e then
    let n := s.rd (F.ENC_CTRL_TB e)
    let isSsi := s.on (F.ENC_CTRL_SSI e)
    let c := s.enc e
    let w := s.rd (F.ENC_CTRL_SSI_BITS e)
    let val := if s.on (F.ENC_CTRL_GRAY e) then gray (ssi.1 % 2 ^ w) else ssi.1 % 2 ^ w
    let noEdge := !isSsi && decide (c.edges = 0)
    let stamp := if isSsi || noEdge then s.stamp n else c.edgeTs
    let err := if isSsi then !ssi.2 else c.err
    let payload := (if isSsi then toBytes 8 val else toBytes 8 (unsgn 64 c.pos)) ++
      toBytes 4 (if isSsi then 0 else c.edges) ++
      toBytes 4 ((!isSsi && c.dir).toNat + 2 * err.toNat + 4 * noEdge.toNat)
    let s := if isSsi then
        let s := s.wr (F.ENC_STATUS_POSITION e) val
        let s := if ssi.2 then s else s.bump (F.ENC_STATUS_ERRORS e)
        s.phSense 3 e val 0
      else s.setEnc e { c with edges := 0, err := false }
    let s := s.tapSample 5 e (fun _ => true) payload stamp
    match s.pickSlot 5 e (fun _ => true) with
    | some i => s.putSample i stamp payload
    | none => s
  else s

end Sys2Proof.Machine
end

