-- ==== Sys2Proof/Machine/PointOps.lean ====
section
/-!
DEFINITION. Lidar sweeps and slices, and the voxel engine's point decoder (R95, R110 to R112, R116).
-/

namespace Sys2Proof.Machine

/-! ### Sweeps -/

/-- The phase fraction PH_k held at an instant of its timebase, in ns, carried back at the current rate (log entry 16). -/
def State.phFracAt (s : State) (k t : Nat) : Nat :=
  let p := s.ph k
  let back : Int := nsDiff ((s.tb (s.rd (F.PH_CTRL_TB k))).t48 / 2 ^ 48) t
  (((p.acc : Int) - (p.rateNow : Int) * back) % 2 ^ 48).toNat / 2 ^ 24

def IqItem.missing (e : Sys2Proof.Machine.IqItem) : Bool := bit e.flags 12
def IqItem.frozen (e : Sys2Proof.Machine.IqItem) : Bool := bit e.flags 11

/-- Address of an item's payload in its ring. -/
def State.payloadAt (s : State) (i : Nat) (e : IqItem) : Nat := s.ringBase i + e.off * 64 + 32

/-- The fraction of an item of slot i: its azimuth under R40, or the phase its domain held at its stamp where the item is
MISSING or too short. -/
def State.itemFrac (s : State) (i k : Nat) (e : IqItem) : Nat :=
  let off := s.rd (F.PH_SOURCE_CFG_FIELD_OFFSET k)
  let n := if s.on (F.PH_SOURCE_CFG_FIELD_32 k) then 4 else 2
  if e.missing || decide (e.length < off + n) || !s.on (F.PH_SCALE_UNITS_PER_REV k) then s.phFracAt k (Machine.ts64 e.stamp)
  else
    let b := s.bytes (s.payloadAt i e + off) n
    s.phFraction k ((ofBytes (if s.on (F.PH_SOURCE_CFG_FIELD_BE k) then b.reverse else b) : Nat) : Int)

/-- The items, newest first, that lie within `span` of a fraction, walking back: each with its fraction. -/
def sweepBack (span : Nat) : Nat → Nat → List (IqItem × Nat) → List (IqItem × Nat)
  | _, _, [] => []
  | prev, cum, (e, f) :: r =>
    let cum := cum + fwd (2 ^ 24) f prev
    if span ≤ cum then [] else (e, f) :: sweepBack span f cum r

/-- The revolution of slot i that ends at the phase PH_k held at `t`, in ring order, each item with its fraction (R95). -/
def State.sweepAt (s : State) (i k t : Nat) (items : List IqItem) : List (IqItem × Nat) :=
  let l := (items.filter (fun e => Machine.ts64 e.stamp ≤ t)).map (fun e => (e, s.itemFrac i k e))
  (sweepBack (2 ^ 24) (s.phFracAt k t) 0 l.reverse).reverse

/-- The slice of a fraction. -/
def sliceOf (slices f : Nat) : Nat := f * (slices + 1) / 2 ^ 24

/-- Mask of the present slices of a sweep (R95). -/
def sliceMask (slices : Nat) (sw : List (IqItem × Nat)) : Nat :=
  sw.foldl (fun m e => if e.1.missing then m else setBit m (sliceOf slices e.2) true) 0

/-- COVERAGE: floor(255 × present slices / slices). -/
def coverOf (mask total : Nat) : Nat := if total = 0 then 0 else 255 * (bitList mask 256).length / total

/-! ### The point decoder (R111, R112) -/

/-- A decoded point and whether it passes check 1 of R112; none stands for a point of a poisoned read. -/
structure DecPt where
  ok : Bool
  ps : V3
  pt : VPoint
  deriving DecidableEq, Repr

/-- A field of a point: its number in the byte order of the source. -/
def State.ptField (s : State) (l a n : Nat) : Nat :=
  let b := s.bytes a n
  ofBytes (if s.on (F.VOX_SRC_FMT_BE l) then b.reverse else b)

def State.coordScale (s : State) (l : Nat) : Nat :=
  let v := s.rd (F.VOX_SRC_SCALE_COORD_SCALE l)
  if v = 0 then f32one else v

/-- Elevation entry of a ring: the FP32 table at VOX_ELEV_BASE + l × 1,024. -/
def State.elevation (s : State) (l ring : Nat) : Nat := s.ld (s.rd F.VOX_ELEV_BASE_BASE + l * 1024 + ring * 4) 4

/-- 2π n / d. -/
def turn (n d : Nat) : Val := ((ofFix precBits (2 * piFix precBits)).mul (.ofNat n)).div (.ofNat d)

/-- Sensor-frame coordinates of the point at `a` (the point coordinate formats table). -/
def State.coords (s : State) (l a frac : Nat) : V3 :=
  let sc := f32 (s.coordScale l)
  let x := a + s.rd (F.VOX_SRC_FIELDS_X_OFF l)
  let y := a + s.rd (F.VOX_SRC_FIELDS_Y_OFF l)
  let z := a + s.rd (F.VOX_SRC_FIELDS_Z_OFF l)
  let int (w at_ : Nat) : Nat := toF32 ((Val.ofInt (sgn w (s.ptField l at_ (w / 8)))).mul sc)
  match s.rd (F.VOX_SRC_FMT_COORD l) with
  | 0 => ⟨int 16 x, int 16 y, int 16 z⟩
  | 1 => ⟨int 32 x, int 32 y, int 32 z⟩
  | 2 => ⟨s.ptField l x 4, s.ptField l y 4, s.ptField l z 4⟩
  | _ =>
    let r := f32 (toF32 ((Val.ofNat (s.ptField l x 4)).mul sc))
    let az := if s.rd (F.VOX_SRC_FIELDS_Y_OFF l) = 0xFF then turn frac (2 ^ 24)
      else turn (s.ptField l y 2) (max 1 (s.rd (F.PH_SCALE_UNITS_PER_REV (s.rd (F.VOX_SRC_CTRL_PH l)))))
    let el := f32 (s.elevation l (s.ptField l (a + s.rd (F.VOX_SRC_FIELDS_RING_OFF l)) 1))
    let (sa, ca) := sinCos az
    let (se, ce) := if el.isFin then sinCos el else (.nan, .nan)
    ⟨toF32 ((r.mul ce).mul ca), toF32 ((r.mul ce).mul sa), toF32 (r.mul se)⟩

def V3.finite (p : Sys2Proof.Machine.V3) : Bool := (f32 p.x).isFin && (f32 p.y).isFin && (f32 p.z).isFin

/-- Check 1 of R112: finite, and the sensor-frame norm within the range limits, compared exactly. -/
def State.inRange (s : State) (l : Nat) (p : V3) : Bool :=
  let n2 := (((f32 p.x).mul (f32 p.x)).add ((f32 p.y).mul (f32 p.y))).add ((f32 p.z).mul (f32 p.z))
  let lo := s.rd (F.VOX_SRC_SCALE_MIN_RANGE_CM l)
  let hi := s.rd (F.VOX_SRC_SCALE_MAX_RANGE_M l)
  p.finite && (Val.ofNat (lo * lo)).le (n2.mul (.ofNat 10000)) && (decide (hi = 0) || n2.le (.ofNat (hi * hi)))

/-- The mounting transform of source l: p_b = R·p_s + t. -/
def State.mount (s : State) (l : Nat) (p : V3) : V3 :=
  let a (x : Nat) : Nat := s.rd (F.VOX_SRC_EXT_A l x)
  let b (x : Nat) : Nat := s.rd (F.VOX_SRC_EXT_B l x)
  (M3.apply ⟨⟨a 0, b 0, a 1⟩, ⟨a 2, b 2, a 3⟩, ⟨a 4, b 4, a 5⟩⟩ p).add ⟨b 1, b 3, b 5⟩

/-- Bytes a point's named fields reach, from the start of the point. -/
def State.ptReach (s : State) (l : Nat) : Nat :=
  let c := s.rd (F.VOX_SRC_FMT_COORD l)
  let w := if c = 0 then 2 else 4
  let f (off n : Nat) : Nat := if off = 0xFF then 0 else off + n
  let i := f (s.rd (F.VOX_SRC_FIELDS_I_OFF l)) (if s.on (F.VOX_SRC_FMT_I_16 l) then 2 else 1)
  let r := f (s.rd (F.VOX_SRC_FIELDS_RING_OFF l)) 1
  let t := f (s.rd (F.VOX_SRC_FIELDS_T_OFF l)) 2
  let xyz := if c = 3 then max (f (s.rd (F.VOX_SRC_FIELDS_X_OFF l)) 4) (f (s.rd (F.VOX_SRC_FIELDS_Y_OFF l)) 2)
    else max (f (s.rd (F.VOX_SRC_FIELDS_X_OFF l)) w) (max (f (s.rd (F.VOX_SRC_FIELDS_Y_OFF l)) w) (f (s.rd (F.VOX_SRC_FIELDS_Z_OFF l)) w))
  max (max i r) (max t xyz)

/-- Points an item of LENGTH bytes holds for source l (R111). -/
def State.ptCount (s : State) (l length : Nat) : Nat :=
  let first := s.rd (F.VOX_SRC_FMT_POINT_FIRST l)
  let stride := max 1 (s.rd (F.VOX_SRC_FMT_POINT_STRIDE l))
  let reach := s.ptReach l
  let fits := if first + reach ≤ length then (length - first - reach) / stride + 1 else 0
  let cnt := s.rd (F.VOX_SRC_FMT_POINT_COUNT l)
  if cnt = 0 then min fits ((length - first) / stride) else min fits cnt

/-- One point of an item. -/
def State.decPoint (s : State) (l a : Nat) (e : IqItem) (slice frac idx : Nat) : DecPt :=
  let opt (off n : Nat) : Nat := if off = 0xFF then 0 else s.ptField l (a + off) n
  let ps := s.coords l a frac
  let iw := if s.on (F.VOX_SRC_FMT_I_16 l) then 2 else 1
  let inten := (fmtF16.conv true (.ofNat (opt (s.rd (F.VOX_SRC_FIELDS_I_OFF l)) iw)) false).1
  let t := Machine.ts64 e.stamp + opt (s.rd (F.VOX_SRC_FIELDS_T_OFF l)) 2 * s.rd (F.VOX_SRC_FMT_T_SCALE_NS l)
  ⟨s.inRange l ps, ps,
    ⟨l, slice, idx, s.mount l ps, t, inten, opt (s.rd (F.VOX_SRC_FIELDS_RING_OFF l)) 1, tsHold e.stamp, e.frozen⟩⟩

/-- The points of an item in payload order: none from the first whose read returns poison on. `idx` is the index of the
first in its sweep. -/
def State.decItem (s : State) (slot l : Nat) (e : IqItem) (slice frac idx : Nat) : List (Option DecPt) :=
  let base := s.payloadAt slot e + s.rd (F.VOX_SRC_FMT_POINT_FIRST l)
  let stride := max 1 (s.rd (F.VOX_SRC_FMT_POINT_STRIDE l))
  let reach := s.ptReach l
  let bad (n : Nat) : Bool := s.poisoned (base + n * stride) reach
  let first := (List.range (s.ptCount l e.length)).find? bad
  (List.range (s.ptCount l e.length)).map (fun n =>
    if (match first with | some f => decide (f ≤ n) | none => false) then none
    else some (s.decPoint l (base + n * stride) e slice frac (idx + n)))

/-- The points of a sweep of source l in ring order. -/
def State.decSweep (s : State) (slot l slices : Nat) (sw : List (IqItem × Nat)) : List (Option DecPt) :=
  (sw.foldl (fun (x : Nat × List (Option DecPt)) e =>
    if e.1.missing then x
    else
      let p := s.decItem slot l e.1 (sliceOf slices e.2) e.2 x.1
      (x.1 + p.length, x.2 ++ p)) (0, [])).2

end Sys2Proof.Machine
end

