-- ==== Sys2Proof/Machine/AlnOps.lean ====
section
/-!
DEFINITION. The alignment engine: fusion instants, resampling, camera rows, ego-motion, sweeps, objects, voting and the
bundle (R81 to R109, 04_alignment.md).
-/

namespace Sys2Proof.Machine

/-! ### Configuration (R108) -/

def State.alnOn (s : State) (i : Nat) : Bool := s.on (F.ALN_STREAM_CTRL_ENABLE i) && decide (s.rd (F.ALN_STREAM_CTRL_KIND i) ≤ 3)
def State.alnKind (s : State) (i : Nat) : Nat := s.rd (F.ALN_STREAM_CTRL_KIND i)

/-- The timebase of the port of slot i; of a slot fed by a receiving relay, the relay's TB (R444). -/
def State.slotTb (s : State) (i : Nat) : Nat :=
  let p := s.slotPort i
  match s.relayOf i with
  | some r => s.rd (F.RLY_CFG_TB r)
  | none =>
  match s.slotType i with
  | 1 => s.rd (F.CSI_CTRL_TB p)
  | 2 => s.rd (F.ETH_CTRL_TB p)
  | 3 => s.rd (F.CAN_CTRL_TB p)
  | 4 => s.rd (F.SPI_CTRL_TB p)
  | 5 => s.rd (F.ENC_CTRL_TB p)
  | _ => s.rd F.INGEST_CTRL_GPIO_TB

/-- Enabled streams of a kind below slot i. -/
def State.alnBefore (s : State) (i kind : Nat) : Nat :=
  ((List.range i).filter (fun j => s.alnOn j && decide (s.alnKind j = kind))).length

/-- Slot i is in CONFIG_ERROR in the alignment engine. -/
def State.alnErr (s : State) (i : Nat) : Bool :=
  let k := s.alnKind i
  let ph := s.rd (F.ALN_STREAM_CTRL_PH i)
  decide (s.rd (F.IQ_RING_CFG_READER i) ≠ 10) || decide (s.slotTb i ≠ s.rd F.ALN_CFG_TB) ||
  (decide (k = 1) && (decide (s.slotType i ≠ 1) || decide (16 ≤ s.alnBefore i 1))) ||
  (decide (k = 2) && (decide (s.slotType i ≠ 2) || decide (s.rd (F.PH_CTRL_SOURCE ph) ≠ 1) ||
    decide (s.rd (F.PH_CTRL_SOURCE_INDEX ph) ≠ i) || decide (8 ≤ s.alnBefore i 2)))

def State.alnRuns (s : State) (i : Nat) : Bool := s.alnOn i && !s.alnErr i

/-- Running streams of a kind, ascending. -/
def State.alnStreams (s : State) (kind : Nat) : List Nat :=
  (List.range 32).filter (fun i => s.alnRuns i && decide (s.alnKind i = kind))

def State.chStream (s : State) (c : Nat) : Nat := s.rd (F.ALN_CH_STREAM c)

/-- Channel c supplies values from a running stream of a kind. -/
def State.chLive (s : State) (kind c : Nat) : Bool :=
  s.on (F.ALN_CH_VALID c) && decide (s.rd (F.ALN_CH_TYPE c) ≤ 8) && s.alnRuns (s.chStream c) &&
    decide (s.alnKind (s.chStream c) = kind)

/-- The scalar channels, ascending. -/
def State.alnChans (s : State) : List Nat := (List.range 256).filter (s.chLive 0)

def State.rowGroup (s : State) (i : Nat) : Nat := 2 ^ min 6 (s.rd (F.ALN_STREAM_CTRL_ROW_GROUP_LOG i))
def State.camGroups (s : State) (i : Nat) : Nat := ceilDiv (s.csiRows i) (s.rowGroup i)

/-- Valid feature entries. -/
def State.alnFeats (s : State) : List Nat := (List.range 16).filter (fun q => s.on (F.ALN_FEAT_DESC_VALID q))

def up64 (n : Nat) : Nat := ceilDiv n 64 * 64

/-- The worst-case bundle size (R108). -/
def State.alnWorst (s : State) : Nat :=
  let streams := ((List.range 32).filter s.alnRuns).length
  let cams := (s.alnStreams 1).foldl (fun a i => a + 32 + 32 * s.camGroups i) 0
  let objs := (s.alnStreams 3).foldl (fun a i => a + s.rd (F.ALN_STREAM_CTRL_OBJ_MAX i)) 0
  256 + 64 * streams + up64 (16 * s.alnChans.length) + up64 cams + 64 * (s.alnStreams 2).length + 64 * objs +
    64 * s.alnFeats.length

/-- The engine is in CONFIG_ERROR and builds nothing. -/
def State.alnConfigErr (s : State) : Bool := decide (s.rd F.ALN_RING_CFG_SLOT_64 * 64 < s.alnWorst)

/-! ### Instants (R81, R82) -/

/-- The sequence the next visible bundle will carry. -/
def AlnSt.nextSeq (a : Sys2Proof.Machine.AlnSt) : Nat :=
  match a.build, a.inst with
  | some b, _ => b.seq
  | none, (_, q) :: _ => q
  | none, [] => a.seq

def State.setAln (s : State) (a : AlnSt) : State := { s with aln := a }.wr F.ALN_RING_POS_NEXT_SEQ a.nextSeq

/-- Not later than the last accepted instant, STEPS of its timebase unchanged since. -/
def notLater (s : State) (stamp : BitVec 128) (last : Option (BitVec 128 × Nat)) (tb : Nat) : Bool :=
  match last with
  | none => false
  | some (t, st) => decide (tsFine stamp ≤ tsFine t) && decide (st = s.rd (F.TB_STATUS_STEPS tb))

/-- A fusion instant handed over by a FUSE firing. -/
def State.fuse (s : State) (stamp : BitVec 128) : State :=
  let tb := s.rd F.ALN_CFG_TB
  if !s.on F.ALN_CTRL_ENABLE || !s.serving 0x6000 then s
  else if bits stamp.toNat 13 3 ≠ tb || notLater s stamp s.aln.lastInst tb then s.bump F.ALN_COUNTS_INSTANT_REJECTS
  else
    let a := s.aln
    let last := some (stamp, s.rd (F.TB_STATUS_STEPS tb))
    let s := s.wr F.ALN_STATUS_LAST_SEQ a.seq
    let next := (a.seq + 1) % 2 ^ 32
    if 4 ≤ a.inst.length then
      (s.bump F.ALN_COUNTS_OVERRUNS).setAln { a with seq := next, lastInst := last, dropped := a.dropped ++ [a.seq] }
    else s.setAln { a with seq := next, lastInst := last, inst := a.inst ++ [(stamp, a.seq)] }

/-! ### Samples (R84 to R88) -/

/-- A sample held for a channel: instant, value, and its item. -/
structure Samp where
  t : Nat
  v : Nat
  e : IqItem
  deriving DecidableEq, Repr

/-- A channel's value in a bundle: FP32, value flags, AGE_NS, the items used. -/
structure ChanVal where
  v : Nat
  flags : Nat
  age : Int
  used : List IqItem
  deriving DecidableEq, Repr

def vfStale : Nat := 1
def vfExtrap : Nat := 2
def vfHold : Nat := 4
def vfFrozen : Nat := 8
def vfGap : Nat := 16
def vfVoted : Nat := 32
def vfAbsent : Nat := 64

/-- The items of slot i held for a build: those still in the ring whose offset is listed. -/
def State.heldItems (s : State) (i : Nat) : List IqItem :=
  let h := mget [] s.aln.held i
  (s.q i).items.filter (fun e => decide (e.off ∈ h))

/-- The FP32 value of a channel's field in an item, `base` bytes into its payload. -/
def State.chanRead (s : State) (c i : Nat) (e : IqItem) (base : Nat) : Option Nat :=
  let off := base + s.rd (F.ALN_CH_OFFSET c)
  let t := s.rd (F.ALN_CH_TYPE c)
  let n := chBytes t
  if off + n ≤ e.length then
    readChannel (s.bytes (s.payloadAt i e + off) n) 0 t (s.on (F.ALN_CH_BE c)) (s.rd (F.ALN_CH_SCALE c))
  else none

/-- The samples held for channel c (R87). -/
def State.samples (s : State) (c : Nat) (items : List IqItem) : List Samp :=
  items.filterMap (fun e => if e.missing then none
    else (s.chanRead c (s.chStream c) e 0).map (fun v => ⟨Machine.ts64 e.stamp, v, e⟩))

/-- The latest sample at or before t, and before t. -/
def lastAt (l : List Samp) (t : Nat) : Option Samp :=
  l.foldl (fun b x => if x.t ≤ t then (match b with | some y => if y.t ≤ x.t then some x else b | none => some x) else b) none

def lastBefore (l : List Samp) (t : Nat) : Option Samp := if t = 0 then none else lastAt l (t - 1)

/-- The earliest sample after t. -/
def firstAfter (l : List Samp) (t : Nat) : Option Samp :=
  l.foldl (fun b x => if t < x.t then (match b with | some y => if x.t < y.t then some x else b | none => some x) else b) none

/-- A time difference as an FP32 value (R88). -/
def dtVal (a b : Nat) : Val := f32 (f32ofInt (nsDiff a b))

/-- x₀ + (x₁ − x₀)·u, within 2 ULP (R84, R88). -/
def linear (x0 x1 : Nat) (num den : Val) : Nat :=
  let e := (f32 x0).add (((f32 x1).sub (f32 x0)).mul (num.div den))
  boundedF32 1 [x0, x1, toF32 num, toF32 den] e ((ulpAt e).scale2 1)

/-- The cubic of R84 on the samples around, within 8 × 2⁻²⁴ × max|x| (R88). -/
def cubic (sm : Option Samp) (s0 s1 : Samp) (s2 : Option Samp) (tf : Nat) : Nat :=
  let x0 := f32 s0.v
  let x1 := f32 s1.v
  let h := dtVal s1.t s0.t
  let u := (dtVal tf s0.t).div h
  let slope := (x1.sub x0).div h
  let m0 := match sm with
    | some p => (x1.sub (f32 p.v)).div (dtVal s1.t p.t)
    | none => slope
  let m1 := match s2 with
    | some n => ((f32 n.v).sub x0).div (dtVal n.t s0.t)
    | none => slope
  let u2 := u.mul u
  let u3 := u2.mul u
  let two (v : Val) : Val := v.scale2 1
  let three (v : Val) : Val := v.mul (.ofNat 3)
  let e := (((((two u3).sub (three u2)).add (.ofNat 1)).mul x0).add (((u3.sub (two u2)).add u).mul (h.mul m0))).add
    ((((three u2).sub (two u3)).mul x1).add ((u3.sub u2).mul (h.mul m1)))
  let xs := [some s0, some s1, sm, s2].filterMap id
  let mx := xs.foldl (fun b x => maxVal b (f32 x.v).abs) .zero
  boundedF32 2 (tf :: xs.flatMap (fun x => [x.t, x.v])) e (mx.scale2 (-21))

/-- Flags a value takes from the items it is computed from (R87). -/
def usedFlags (l : List IqItem) : Nat :=
  (if l.any (fun e => tsHold e.stamp) then vfHold else 0) + (if l.any (fun e => e.frozen) then vfFrozen else 0)

/-- With no later sample: s₀, or the linear extrapolation of ORDER 2 and 3 (R85). -/
def extrapolate (order maxNs tf : Nat) (l : List Samp) (s0 : Samp) : Nat × Nat × List Samp :=
  match lastBefore l s0.t with
  | some p =>
    if 2 ≤ order ∧ s0.t < tf ∧ tf - s0.t ≤ maxNs then
      (linear p.v s0.v (dtVal tf p.t) (dtVal s0.t p.t), vfExtrap, [p, s0])
    else (s0.v, 0, [s0])
  | none => (s0.v, 0, [s0])

/-- The value of ORDER with s₀ and s₁ held (R84). -/
def interpolate (order tf : Nat) (l : List Samp) (s0 s1 : Samp) : Nat × List Samp :=
  if order = 0 then (s0.v, [s0])
  else if order = 1 then (if s1.t - tf < tf - s0.t then (s1.v, [s1]) else (s0.v, [s0]))
  else if order = 2 then (linear s0.v s1.v (dtVal tf s0.t) (dtVal s1.t s0.t), [s0, s1])
  else
    let sm := lastBefore l s0.t
    let s2 := firstAfter l s1.t
    (cubic sm s0 s1 s2 tf, [sm, some s0, some s1, s2].filterMap id)

/-- AGE_NS: t_f minus the stamp of the nearest sample used. -/
def ageOf (tf : Nat) (l : List Samp) : Int :=
  (l.foldl (fun (b : Option Int) x =>
    let d := nsDiff tf x.t
    match b with
    | none => some d
    | some a => if d.natAbs < a.natAbs then some d else some a) none).getD 0

/-- The value of channel c at t_f (R84 to R87). -/
def State.chanVal (s : State) (c tf : Nat) (items : List IqItem) : ChanVal :=
  let i := s.chStream c
  let order := s.rd (F.ALN_STREAM_CTRL_ORDER i)
  let us (f : Nat → Fld) : Nat := s.rd (f i) * 1000
  let l := s.samples c items
  match lastAt l tf with
  | none => ⟨0, vfAbsent, 0, []⟩
  | some s0 =>
    let s1 := firstAfter l tf
    let gap := match s1 with
      | some n => decide (us F.ALN_STREAM_LIMITS_MAX_GAP_US < n.t - s0.t) ||
          items.any (fun e => e.missing && decide (s0.t < Machine.ts64 e.stamp) && decide (Machine.ts64 e.stamp < n.t))
      | none => false
    let (v, fl, used) := match s1, gap with
      | some n, false => let (v, u) := interpolate order tf l s0 n; (v, 0, u)
      | _, _ => extrapolate order (us F.ALN_STREAM_LIMITS_MAX_EXTRAP_US) tf l s0
    let stale := if us F.ALN_STREAM_LIMITS_STALE_US < tf - s0.t then vfStale else 0
    let ui := used.map (·.e)
    ⟨v, fl + stale + (if gap then vfGap else 0) + usedFlags ui, ageOf tf used, ui⟩

/-! ### Voting (R99 to R101) -/

/-- The members of group g: scalar channels whose VG is g + 1. -/
def State.vgMembers (s : State) (g : Nat) : List Nat := s.alnChans.filter (fun c => s.rd (F.ALN_CH_VG c) = g + 1)

def State.outK (s : State) (g : Nat) : Nat := max 1 (s.rd (F.ALN_VG_CFG_OUT_K g))
def State.outN (s : State) (g : Nat) : Nat := max 1 (s.rd (F.ALN_VG_CFG_OUT_N g))

/-- Group g is in CONFIG_ERROR (R108). -/
def State.vgErr (s : State) (g : Nat) : Bool :=
  let tol := f32 (s.rd (F.ALN_VG_TOL_TOL g))
  decide (8 < (s.vgMembers g).length) || decide (s.outN g < s.outK g) || tol.isNan || tol.isNeg

def insSort (lt : Nat → Nat → Bool) (l : List Nat) : List Nat :=
  l.foldr (fun x acc => acc.takeWhile (fun y => lt y x) ++ [x] ++ acc.dropWhile (fun y => lt y x)) []

/-- The median of FP32 values, the mean of the middle two for an even count. -/
def median (l : List Nat) : Nat :=
  let o := insSort f32lt l
  let n := o.length
  if n % 2 = 1 then o.getD (n / 2) 0
  else f32mul (f32add (o.getD (n / 2 - 1) 0) (o.getD (n / 2) 0)) 0x3F000000

def absent (v : ChanVal) : Bool := v.flags &&& (vfAbsent ||| vfStale) ≠ 0
def chFrozen (v : ChanVal) : Bool := v.flags &&& vfFrozen ≠ 0

/-- |a − b| > TOL in FP32. -/
def beyond (tol a b : Nat) : Bool := f32lt tol (f32abs (f32sub a b))

/-- What a group's vote found: its members, SPLIT, NO_QUORUM, the channels voted out and readmitted in this bundle. -/
structure VoteOut where
  members : List VoteMember
  split : Bool
  quorum : Bool
  outs : List Nat
  ins : List Nat
  deriving DecidableEq, Repr

/-- One bundle's vote of group g, with the value of each channel. -/
def State.vote (s : State) (g : Nat) (val : Nat → ChanVal) : VoteOut :=
  let old := mget [] s.aln.votes g
  let ms := (s.vgMembers g).map (fun c => (old.find? (fun m => m.ch = c)).getD ⟨c, true, 0, 0⟩)
  let tol := s.rd (F.ALN_VG_TOL_TOL g)
  let here := (ms.filter (fun m => m.admitted && !absent (val m.ch))).map (fun m => (val m.ch).v)
  let n := here.length
  let split := n = 2 && beyond tol (here.getD 0 0) (here.getD 1 0)
  let ref := median here
  let strike (m : VoteMember) : Bool :=
    !split && (absent (val m.ch) || chFrozen (val m.ch) || (decide (3 ≤ n) && beyond tol (val m.ch).v ref))
  let upd (m : VoteMember) : VoteMember :=
    if m.admitted then
      let st := (m.strikes * 2 + (strike m).toNat) % 2 ^ 15
      { m with strikes := st, agree := 0,
               admitted := decide ((bitList (st % 2 ^ s.outN g) 15).length < s.outK g) }
    else if n = 0 then m
    else
      let good := !absent (val m.ch) && !chFrozen (val m.ch) && !beyond tol (val m.ch).v ref
      let a := if good then m.agree + 1 else 0
      if max 1 (s.rd (F.ALN_VG_CFG_IN_COUNT g)) ≤ a then ⟨m.ch, true, 0, 0⟩ else { m with agree := a }
  let ms' := ms.map upd
  let both := ms.zip ms'
  ⟨ms', split, decide (2 ≤ n), (both.filter (fun p => p.1.admitted && !p.2.admitted)).map (·.1.ch),
    (both.filter (fun p => !p.1.admitted && p.2.admitted)).map (·.1.ch)⟩

/-- ADMITTED and VOTED_OUT as masks over the members. -/
def voteMasks (l : List VoteMember) : Nat × Nat :=
  let n := l.length
  (((List.range n).filter (fun i => (l.getD i ⟨0, false, 0, 0⟩).admitted)).foldl (fun a i => a + 2 ^ i) 0,
   ((List.range n).filter (fun i => !(l.getD i ⟨0, true, 0, 0⟩).admitted)).foldl (fun a i => a + 2 ^ i) 0)

/-- Group g votes: its status, counts and events. -/
def State.voteGroup (s : State) (g : Nat) (val : Nat → ChanVal) : State :=
  let err := s.on (F.ALN_VG_CFG_ENABLE g) && s.vgErr g
  let s := s.wr (F.ALN_VG_STATUS_CONFIG_ERROR g) err.toNat
  let put (s : State) (l : List VoteMember) : State := { s with aln := { s.aln with votes := mset [] s.aln.votes g l } }
  if !s.on (F.ALN_VG_CFG_ENABLE g) || err then
    let s := (s.wr (F.ALN_VG_STATUS_ADMITTED g) 0).wr (F.ALN_VG_STATUS_VOTED_OUT g) 0
    put ((s.wr (F.ALN_VG_STATUS_SPLIT g) 0).wr (F.ALN_VG_STATUS_NO_QUORUM g) 0) []
  else
    let o := s.vote g val
    let (adm, out) := voteMasks o.members
    let s := (s.wr (F.ALN_VG_STATUS_ADMITTED g) adm).wr (F.ALN_VG_STATUS_VOTED_OUT g) out
    let s := (s.wr (F.ALN_VG_STATUS_SPLIT g) o.split.toNat).wr (F.ALN_VG_STATUS_NO_QUORUM g) (!o.quorum).toNat
    let s := o.outs.foldl (fun s c => (s.bump (F.ALN_VG_STATUS_VOTE_OUTS g)).event 0x6000 0x5002 c [g]) s
    let s := o.ins.foldl (fun s c => (s.bump (F.ALN_VG_STATUS_READMITS g)).event 0x6000 0x5003 c [g]) s
    put s o.members

/-- Channel c is voted out. -/
def State.votedOut (s : State) (c : Nat) : Bool :=
  (List.range 8).any (fun g => (mget [] s.aln.votes g).any (fun m => decide (m.ch = c) && !m.admitted))

/-! ### Ego-motion (R92, R93) -/

/-- The mean of the channels of a role that are present, admitted and not FROZEN. -/
def State.roleMean (s : State) (role : Nat) (vals : List (Nat × ChanVal)) : Option Nat :=
  let l := vals.filter (fun c => decide (s.rd (F.ALN_CH_ROLE c.1) = role) && !absent c.2 && !chFrozen c.2 && !s.votedOut c.1)
  if l.isEmpty then none
  else some (f32div (l.foldl (fun a c => f32add a c.2.v) 0) (f32ofInt l.length))

/-- A value times 2⁻ⁿ. -/
def shr32 (v n : Nat) : Nat := toF32 ((f32 v).scale2 (-(n : Int)))

/-- The ego state of a bundle: rates, bias, EGO_STATE, and whether a source was used. -/
structure Ego where
  omega : V3
  vel : V3
  bias : V3
  state : Nat
  used : Bool
  deriving DecidableEq, Repr

def V3.get (v : Sys2Proof.Machine.V3) (k : Nat) : Nat := if k = 0 then v.x else if k = 1 then v.y else v.z
def v3of (f : Nat → Nat) : V3 := ⟨f 0, f 1, f 2⟩

def State.bias (s : State) : V3 := ⟨s.rd F.ALN_BIAS_XY_BIAS_X, s.rd F.ALN_BIAS_XY_BIAS_Y, s.rd F.ALN_BIAS_Z_BIAS_Z⟩

/-- The registration that counts at t_f: the latest accepted one within REG_MAX_AGE_MS. -/
def State.regAt (s : State) (tf : Nat) : Option RegResult :=
  s.aln.reg.filter (fun r => (nsDiff r.mid tf).natAbs ≤ s.rd F.ALN_EGO_LIMITS_REG_MAX_AGE_MS * 1000000)

/-- Angular rate of one axis, before the bias moves. -/
def State.omegaAxis (s : State) (g : Option Nat) (reg : Option RegResult) (k : Nat) : Nat :=
  let w := s.rd F.ALN_EGO_CFG_W_ROT
  match g, reg with
  | some g, some r =>
    let o := f32sub g (s.bias.get k)
    if w < 15 then f32add o (shr32 (f32sub (r.omega.get k) o) w) else o
  | some g, none => f32sub g (s.bias.get k)
  | none, some r => r.omega.get k
  | none, none => s.aln.omega.get k

/-- The bias of one axis after the bundle. -/
def State.biasAxis (s : State) (g : Option Nat) (reg : Option RegResult) (k : Nat) : Nat :=
  match g, reg with
  | some g, some r =>
    if s.rd F.ALN_EGO_CFG_W_ROT < 15 then
      f32add (s.bias.get k) (shr32 (f32sub (f32sub g (r.omega.get k)) (s.bias.get k)) (s.rd F.ALN_EGO_CFG_K_BIAS))
    else s.bias.get k
  | _, _ => s.bias.get k

/-- The ego state at t_f, with the mean gyro of each axis, the mean speed, and the registration (the pseudocode of R93). -/
def State.egoAt (s : State) (tf : Nat) (g : Nat → Option Nat) (speed : Option Nat) (reg : Option RegResult) : Ego :=
  let anyG := (g 0).isSome || (g 1).isSome || (g 2).isSome
  let allG := (g 0).isSome && (g 1).isSome && (g 2).isSome
  let wr := decide (s.rd F.ALN_EGO_CFG_W_ROT < 15)
  let wv := s.rd F.ALN_EGO_CFG_W_VEL
  let omega := v3of (fun k => s.omegaAxis (g k) reg k)
  let sp (v : Nat) : V3 := ⟨v, 0, 0⟩
  let vel := match speed, reg with
    | some v, some r =>
      if wv < 15 then v3of (fun k => f32add ((sp v).get k) (shr32 (f32sub (r.vel.get k) ((sp v).get k)) wv)) else sp v
    | some v, none => sp v
    | none, some r => r.vel
    | none, none => s.aln.vel
  let regUsed := reg.isSome && (!allG || (anyG && wr) || speed.isNone || decide (wv < 15))
  let data := speed.isSome || regUsed
  let st := if anyG && data then 1 else if anyG then 2 else if data then 3
    else if s.rd F.ALN_STATUS_EGO_STATE = 0 then 0
    else if s.aln.coast + s.rd F.ALN_CFG_EGO_COAST_MS * 1000000 < tf then 5 else 4
  let inv := decide (st = 5)
  ⟨if inv then v30 else omega, if inv then v30 else vel, v3of (fun k => s.biasAxis (g k) reg k), st, anyG || data⟩

/-- Pose of the ego frame at `t` in the ego frame at t_f: rotation vector, translation, POSE_STALE, POSE_INVALID (R92). -/
def poseAt (e : Ego) (spanNs tf t : Nat) : V3 × V3 × Bool × Bool :=
  if e.state = 0 ∨ e.state = 5 then (v30, v30, decide (spanNs < (nsDiff t tf).natAbs), true)
  else (e.omega.over (nsDiff t tf), e.vel.over (nsDiff t tf), decide (spanNs < (nsDiff t tf).natAbs), false)

/-! ### Sections of the bundle -/

/-- What a stream puts into a bundle: its section entries, value flags, and items used in ring order. -/
structure StreamOut where
  flags : Nat
  used : List IqItem
  deriving DecidableEq, Repr

/-- The 64-byte stream entry. -/
def State.streamEntry (s : State) (i : Nat) (o : StreamOut) : List Byte :=
  let last := o.used.getLast?
  let stamp := match last with
    | some e => e.stamp.toNat ||| (if o.flags &&& vfExtrap ≠ 0 then 4096 else 0)
    | none => 0
  padTo 64 (toBytes 16 stamp ++ toBytes 1 i ++ toBytes 1 (s.alnKind i) ++ toBytes 2 o.flags ++
    toBytes 4 (match o.used.head? with | some e => e.off | none => 0) ++
    toBytes 4 (match last with | some e => e.off | none => 0) ++ toBytes 4 o.used.length ++
    toBytes 4 (match last with | some e => e.seq | none => 0))

/-- The 16-byte scalar entry. -/
def scalarEntry (c : Nat) (v : ChanVal) : List Byte :=
  toBytes 4 v.v ++ toBytes 2 c ++ toBytes 2 v.flags ++ toBytes 4 (sat32 v.age) ++ toBytes 4 0

/-- The instant of row `row` of a camera frame at `a` (item start), and whether it was synthesised (R91). -/
def State.rowInstant (s : State) (i a rows row : Nat) : Int × Bool :=
  let stamp (r : Nat) : Nat := s.ld (a + 64 + 8 * r) 8
  let off := s.rdS (F.ALN_STREAM_AUX_EXPOSURE_OFFSET_NS i)
  if row < rows ∧ stamp row ≠ 0 then ((stamp row : Int) + off, false)
  else if rows < 2 then ((stamp 0 : Int) + off, true)
  else ((stamp 0 : Int) + (row : Int) * (((stamp (rows - 1) : Int) - (stamp 0 : Int)) / ((rows - 1 : Nat) : Int)) + off, true)

/-- A camera's section part and what it used (R90, R91). -/
def State.camOut (s : State) (i tf : Nat) (ego : Ego) (items : List IqItem) : List Byte × StreamOut :=
  let frames := items.filter (fun e => !e.missing && decide (Machine.ts64 e.stamp ≤ tf))
  let lg := min 6 (s.rd (F.ALN_STREAM_CTRL_ROW_GROUP_LOG i))
  let span := s.rd F.ALN_CFG_EGO_SPAN_MS * 1000000
  match frames.getLast? with
  | none => (padTo 32 (toBytes 1 i ++ toBytes 1 lg ++ toBytes 2 0 ++ toBytes 4 0 ++ toBytes 4 0 ++ toBytes 2 1), ⟨vfAbsent, []⟩)
  | some e =>
    let a := s.ringBase i + e.off * 64
    let rows := s.ld (a + 48) 4
    let maxRows := s.ld (a + 52) 4
    let g := 2 ^ lg
    let n := ceilDiv maxRows g
    let inst (k : Nat) : Int × Bool := s.rowInstant i a rows (k * g + g / 2)
    let mid := (inst (n / 2)).1
    let stale := decide ((s.rd (F.ALN_STREAM_LIMITS_STALE_US i) * 1000 : Nat) < (tf : Int) - mid)
    let group (k : Nat) : List Byte :=
      let (t, syn) := inst k
      let (r, p, ps, pi) := poseAt ego span tf t.toNat
      toBytes 4 (sat32 (t - (tf : Int))) ++ r.bytes ++ p.bytes ++ toBytes 2 (syn.toNat + 2 * ps.toNat + 4 * pi.toNat) ++ toBytes 2 0
    let incomplete := !bit e.flags 9
    let head := padTo 32 (toBytes 1 i ++ toBytes 1 lg ++ toBytes 2 n ++ toBytes 4 e.off ++ toBytes 4 rows ++
      toBytes 2 (2 * stale.toNat + 4 * incomplete.toNat))
    (head ++ (List.range n).flatMap group, ⟨(if stale then vfStale else 0) + usedFlags [e], [e]⟩)

/-- A lidar's section part, its coverage and what it used (R95). -/
def State.lidarOut (s : State) (i tf : Nat) (items : List IqItem) : List Byte × Nat × StreamOut :=
  let slices := s.rd (F.ALN_STREAM_CTRL_SLICES i)
  let sw := s.sweepAt i (s.rd (F.ALN_STREAM_CTRL_PH i)) tf items
  let mask := sliceMask slices sw
  let cover := coverOf mask (slices + 1)
  let used := (sw.map (·.1)).filter (fun e => !e.missing)
  let off (e : Option IqItem) : Nat := match e with
    | some e => e.off
    | none => 0
  let stale := match used.getLast? with
    | some e => if s.rd (F.ALN_STREAM_LIMITS_STALE_US i) * 1000 < tf - Machine.ts64 e.stamp then vfStale else 0
    | none => vfAbsent
  (padTo 64 (toBytes 1 i ++ toBytes 1 slices ++ toBytes 1 cover ++ toBytes 1 0 ++ toBytes 4 (off used.head?) ++
    toBytes 4 (off used.getLast?) ++ toBytes 4 used.length ++ toBytes 32 mask), cover, ⟨stale + usedFlags used, used⟩)

/-- The channels of an object-list stream. -/
def State.objChans (s : State) (i : Nat) : List Nat :=
  (List.range 256).filter (fun c => s.chLive 3 c && decide (s.chStream c = i))

/-- The objects of a stream (R97): its entries and what it used. -/
def State.objOut (s : State) (i tf : Nat) (ego : Ego) (items : List IqItem) : List (List Byte) × StreamOut :=
  match (items.filter (fun e => !e.missing && decide (Machine.ts64 e.stamp ≤ tf))).foldl
      (fun (b : Option IqItem) e => match b with
        | some x => if Machine.ts64 x.stamp ≤ Machine.ts64 e.stamp then some e else b
        | none => some e) none with
  | none => ([], ⟨vfAbsent, []⟩)
  | some e =>
    let t := Machine.ts64 e.stamp
    let stale := decide (s.rd (F.ALN_STREAM_LIMITS_STALE_US i) * 1000 < tf - t)
    let (r, p, ps, _) := poseAt ego (s.rd F.ALN_CFG_EGO_SPAN_MS * 1000000) tf t
    let m := rotMat r
    let chans := s.objChans i
    let rec_ (k : Nat) : Option (List Byte) :=
      let base := s.rd (F.ALN_STREAM_CTRL_OBJ_FIRST i) + k * (s.rd (F.ALN_STREAM_CTRL_OBJ_STRIDE_8 i) * 8)
      if chans.all (fun c => decide (base + s.rd (F.ALN_CH_OFFSET c) + chBytes (s.rd (F.ALN_CH_TYPE c)) ≤ e.length)) then
        let val (role : Nat) : Nat := match chans.find? (fun c => s.rd (F.ALN_CH_ROLE c) = role) with
          | some c => (s.chanRead c i e base).getD 0
          | none => 0
        let v : V3 := ⟨val 9, val 10, val 11⟩
        let x : V3 := ⟨val 6, val 7, val 8⟩
        let pos := (m.apply (x.add (v.over (nsDiff tf t)))).add p
        some (padTo 64 (toBytes 4 (val 12) ++ toBytes 1 i ++ toBytes 1 (stale.toNat + 2 * ps.toNat) ++ toBytes 2 0 ++
          pos.bytes ++ (m.apply v).bytes ++ toBytes 4 (sat32 (nsDiff tf t))))
      else none
    ((List.range (s.rd (F.ALN_STREAM_CTRL_OBJ_MAX i))).filterMap rec_, ⟨(if stale then vfStale else 0) + usedFlags [e], [e]⟩)

/-- A feature entry (R98). -/
def State.featEntry (s : State) (q tf : Nat) (ego : Ego) : List Byte :=
  let t := s.rd (F.ALN_FEAT_STAMP_TS64 q)
  let (r, p, ps, pi) := poseAt ego (s.rd F.ALN_CFG_EGO_SPAN_MS * 1000000) tf t
  padTo 64 (toBytes 8 (s.rd (F.ALN_FEAT_DESC_ADDR q)) ++ toBytes 8 t ++ r.bytes ++ p.bytes ++ toBytes 2 (ps.toNat + 2 * pi.toNat))

/-- Sections laid out after the header, each 64-byte aligned: the directory (offset, count) and the bytes. -/
def layOut (l : List (Nat × List Byte)) : List (Nat × Nat) × List Byte :=
  let r := l.foldl (fun (x : List (Nat × Nat) × List Byte) e =>
    (x.1 ++ [(256 + x.2.length, e.1)], x.2 ++ padTo (up64 e.2.length) e.2)) ([], [])
  r

/-! ### A build (R83, R89) -/

/-- The engine takes the visible items of a stream's queue into what it holds. -/
def State.takeVisible (s : State) (i : Nat) : State :=
  let q := s.q i
  let n := ((q.items.drop q.read).takeWhile (·.visible)).length
  let offs := ((q.items.drop q.read).take n).map (·.off)
  let s := s.setQ i { q with read := q.read + n }
  { s with aln := { s.aln with held := mset [] s.aln.held i (mget [] s.aln.held i ++ offs) } }

/-- Every running stream's visible items taken, or, when the timebase stepped since the previous build, every history
emptied (R89). -/
def State.gather (s : State) (step : Bool) : State :=
  let s := ((List.range 32).filter s.alnRuns).foldl State.takeVisible s
  if step then { s with aln := { s.aln with held := [] } } else s

/-- The items a stream keeps after a build: the newest HISTORY, the newest frame, or the current and the previous
revolution (R105). -/
def State.keepOf (s : State) (i : Nat) : List Nat :=
  let items := s.heldItems i
  let n := items.length
  match s.alnKind i with
  | 1 => (items.drop (n - 1)).map (·.off)
  | 2 =>
    let k := s.rd (F.ALN_STREAM_CTRL_PH i)
    let l := items.map (fun e => (e, s.itemFrac i k e))
    match l.getLast? with
    | some (_, f) => ((sweepBack (2 ^ 25) f 0 l.reverse).reverse).map (fun x => x.1.off)
    | none => []
  | _ => (items.drop (n - max 2 (s.rd (F.ALN_STREAM_CTRL_HISTORY i)))).map (·.off)

/-- Releases the items of slot i that no unreleased bundle references and its history does not need (R105). -/
def State.alnFree (s : State) (i : Nat) : State :=
  let refs := (s.aln.bundles ++ s.aln.build.toList).flatMap (·.refs)
  let need (e : IqItem) : Bool := decide (e.off ∈ mget [] s.aln.held i) || decide ((i, e.off) ∈ refs)
  let q := s.q i
  let n := ((q.items.take q.read).takeWhile (fun e => !need e)).length
  if n = 0 then s else s.iqFree i n

/-- The histories cut to what is kept, and what nothing needs released, in every queue the engine reads. -/
def State.alnTrim (s : State) : State :=
  (List.range 32).foldl (fun s i =>
    if s.rd (F.IQ_RING_CFG_READER i) = 10 ∧ s.alnOn i then
      ({ s with aln := { s.aln with held := mset [] s.aln.held i (s.keepOf i) } }).alnFree i
    else s) s

/-- STREAM_STATUS after a bundle. -/
def State.streamStatus (s : State) (i : Nat) (fl : Nat) : State :=
  let stale := fl &&& (vfStale ||| vfAbsent) ≠ 0
  let s := s.wr (F.ALN_STREAM_STATUS_STATE i) (if stale then 2 else 1)
  let s := if stale then s.bump (F.ALN_STREAM_STATUS_STALE_BUNDLES i) else s
  if fl &&& vfExtrap ≠ 0 then s.bump (F.ALN_STREAM_STATUS_EXTRAP_BUNDLES i) else s

/-- The sweep of REG_STREAM queued for its registration, decoded by the lowest enabled source on that slot (R94). -/
def State.queueSweep (s : State) (tf : Nat) : State :=
  let i := s.rd F.ALN_EGO_CFG_REG_STREAM
  if s.on F.ALN_EGO_CFG_REG_EN && s.alnRuns i && decide (s.alnKind i = 2) then
    let slices := s.rd (F.ALN_STREAM_CTRL_SLICES i)
    let sw := s.sweepAt i (s.rd (F.ALN_STREAM_CTRL_PH i)) tf (s.heldItems i)
    let used := (sw.map (·.1)).filter (fun e => !e.missing)
    let pts := match (List.range 8).find? (fun l => s.on (F.VOX_SRC_CTRL_ENABLE l) && decide (s.rd (F.VOX_SRC_CTRL_SLOT l) = i)) with
      | some l => (s.decSweep i l slices sw).filterMap (fun d => d.bind (fun d => if d.ok then some d.pt else none))
      | none => []
    let t (e : Option IqItem) : Nat := match e with
      | some e => Machine.ts64 e.stamp
      | none => tf
    let r : RegSweep := ⟨pts, t used.head?, t used.getLast?, coverOf (sliceMask slices sw) (slices + 1)⟩
    { s with aln := { s.aln with sweeps := s.aln.sweeps ++ [r] } }
  else s

/-- What a build computes from the state at its start: channel values, votes, ego state, and the sections. -/
structure BuildOut where
  body : List Byte
  dir : List (Nat × Nat)
  cover : List Nat
  trunc : Bool
  stale : Nat
  voted : Nat
  refs : List (Nat × Nat)
  flags : List (Nat × Nat)
  deriving DecidableEq, Repr

/-- The items a stream's channels used, in ring order. -/
def ringOrder (items : List IqItem) (used : List IqItem) : List IqItem := items.filter (fun e => decide (e ∈ used))

/-- The sections of a bundle at t_f. -/
def State.sections (s : State) (tf : Nat) (ego : Ego) (vals : List (Nat × ChanVal)) : BuildOut :=
  let runs := (List.range 32).filter s.alnRuns
  let cams := (s.alnStreams 1).map (fun i => (i, s.camOut i tf ego (s.heldItems i)))
  let lids := (s.alnStreams 2).map (fun i => (i, s.lidarOut i tf (s.heldItems i)))
  let objs := (s.alnStreams 3).map (fun i => (i, s.objOut i tf ego (s.heldItems i)))
  let out (i : Nat) : StreamOut :=
    match cams.find? (fun c => c.1 = i), lids.find? (fun c => c.1 = i), objs.find? (fun c => c.1 = i) with
    | some c, _, _ => c.2.2
    | _, some l, _ => l.2.2.2
    | _, _, some o => o.2.2
    | _, _, _ =>
      let mine := vals.filter (fun v => s.chStream v.1 = i)
      ⟨mine.foldl (fun a v => a ||| v.2.flags) 0, ringOrder (s.heldItems i) (mine.flatMap (fun v => v.2.used))⟩
  let outs := runs.map (fun i => (i, out i))
  let allObjs := objs.flatMap (fun o => o.2.1)
  let feats := s.alnFeats
  let (dir, body) := layOut [
    (runs.length, outs.flatMap (fun o => s.streamEntry o.1 o.2)),
    (vals.length, vals.flatMap (fun v => scalarEntry v.1 v.2)),
    (cams.length, cams.flatMap (fun c => c.2.1)),
    (lids.length, lids.flatMap (fun l => l.2.1)),
    (min 256 allObjs.length, (allObjs.take 256).flatMap id),
    (feats.length, feats.flatMap (fun q => s.featEntry q tf ego))]
  let bitsOf (f : Nat → Bool) : Nat := (runs.filter f).foldl (fun a i => a + 2 ^ i) 0
  ⟨body, dir, lids.map (fun l => l.2.2.1), decide (256 < allObjs.length),
    bitsOf (fun i => (out i).flags &&& (vfStale ||| vfAbsent) ≠ 0), bitsOf (fun i => (out i).flags &&& vfVoted ≠ 0),
    outs.flatMap (fun o => o.2.used.map (fun e => (o.1, e.off))), outs.map (fun o => (o.1, o.2.flags))⟩

/-- Channel values with their votes: VOTED_OUT where the member is out after this bundle's vote. -/
def State.votedVals (s : State) (vals : List (Nat × ChanVal)) : List (Nat × ChanVal) :=
  vals.map (fun v => if s.votedOut v.1 then (v.1, { v.2 with flags := v.2.flags ||| vfVoted }) else v)

/-- Ego state, bias and EGO_STATE stored (R93). -/
def State.setEgo (s : State) (e : Ego) (tf : Nat) : State :=
  let s := (s.wr F.ALN_BIAS_XY_BIAS_X e.bias.x).wr F.ALN_BIAS_XY_BIAS_Y e.bias.y
  let s := (s.wr F.ALN_BIAS_Z_BIAS_Z e.bias.z).wr F.ALN_STATUS_EGO_STATE e.state
  { s with aln := { s.aln with omega := e.omega, vel := e.vel, coast := if e.used then tf else s.aln.coast } }

/-- FLAGS of a bundle but for PRIOR_DROP and REC_SKIPPED, which its emission knows. -/
def State.bundleFlags (s : State) (stamp : BitVec 128) (step deadline : Bool) (ego : Ego) (o : BuildOut) : Nat :=
  let vg (f : Nat → Fld) (at_ : Nat) : Nat := (List.range 8).foldl (fun a g => a + s.rd (f g) * 2 ^ (at_ + g)) 0
  let low := (o.cover.any (fun c => decide (c < s.rd F.ALN_EGO_LIMITS_COVER_MIN)))
  (tsHold stamp).toNat + 2 * step.toNat + 4 * deadline.toNat + 16 * low.toNat + 32 * ego.state +
    vg F.ALN_VG_STATUS_SPLIT 8 + vg F.ALN_VG_STATUS_NO_QUORUM 16 + 2 ^ 25 * o.trunc.toNat

/-- The build of the oldest waiting instant (R83): everything the bundle holds is taken from the state now. -/
def State.startBuild (s : State) (deadline : Bool) : State :=
  match s.aln.inst with
  | [] => s
  | (stamp, seq) :: rest =>
    let tf := Machine.ts64 stamp
    let steps := s.rd (F.TB_STATUS_STEPS (s.rd F.ALN_CFG_TB))
    let step := match s.aln.steps with
      | some n => decide (n ≠ steps)
      | none => false
    let s1 := s.gather step
    let raw := s1.alnChans.map (fun c => (c, s1.chanVal c tf (s1.heldItems (s1.chStream c))))
    let look (c : Nat) : ChanVal := ((raw.find? (fun v => v.1 = c)).map (·.2)).getD ⟨0, vfAbsent, 0, []⟩
    let s2 := (List.range 8).foldl (fun s g => s.voteGroup g look) s1
    let vals := s2.votedVals raw
    let ego := s2.egoAt tf (fun k => s2.roleMean (k + 1) vals) (s2.roleMean 4 vals) (s2.regAt tf)
    let o := s2.sections tf ego vals
    let s3 := (s2.setEgo ego tf).queueSweep tf
    let s4 := o.flags.foldl (fun s f => s.streamStatus f.1 f.2) s3
    let back := match s4.aln.prevTf, step with
      | some p, false => some p
      | _, _ => none
    let (rot, shift, dt) := match back with
      | some p => let (r, t, _, _) := poseAt ego 0 tf p; (r, t, unsgn 64 (nsDiff tf p))
      | none => (v30, v30, 0)
    let b : AlnBundle := ⟨stamp, seq, s4.bundleFlags stamp step deadline ego o, dt, ego.omega, ego.vel, rot, shift,
      o.stale, o.voted, o.cover, o.dir, o.body, o.refs⟩
    let s5 := s4.setAln { s4.aln with inst := rest, build := some b, steps := some steps }
    let s6 := if deadline then s5.bump F.ALN_COUNTS_DEADLINE_STARTS else s5
    s6.alnTrim

/-- Every running REQUIRED stream has a usable sample at or after t_f visible (R83). -/
def State.alnReady (s : State) (tf : Nat) : Bool :=
  ((List.range 32).filter (fun i => s.alnRuns i && s.on (F.ALN_STREAM_CTRL_REQUIRED i))).all (fun i =>
    let vis := (s.q i).items.filter (·.visible)
    if s.alnKind i = 1 then vis.any (fun e => !e.missing && decide (Machine.ts64 e.stamp ≤ tf))
    else vis.any (fun e => decide (tf < Machine.ts64 e.stamp)))

/-- The engine can start a build: no build in progress, an instant waiting, ready, configured. -/
def State.alnIdle (s : State) : Bool :=
  s.aln.build.isNone && !s.aln.inst.isEmpty && s.serving 0x6000 && !s.alnConfigErr

/-! ### Emission (R103, R104) -/

def State.alnSlots (s : State) : Nat := clampN 2 4096 (s.rd F.ALN_RING_CFG_SLOTS)

/-- Offset and bytes of the local store of square n. -/
def storeBase (n : Nat) : Nat := 0x400000000000 + n * 0x1000000
def storeSize : Nat := 0x300000

/-- A recurrent region: enabled, on a present square, inside its store. -/
def State.recEnabled (s : State) (r : Nat) : Bool :=
  s.on (F.ALN_REC_CFG_ENABLE r) && s.present (0x1000 + s.rd (F.ALN_REC_CFG_SQUARE r)) &&
    decide (s.rd (F.ALN_REC_CFG_OFFSET_64 r) * 64 + max 2 (s.rd (F.ALN_REC_CFG_SIZE_64 r)) * 64 ≤ storeSize)

/-- The region header (the recurrent region header table). -/
def recHeader (b : AlnBundle) (flags : Nat) : List Byte :=
  toBytes 4 b.seq ++ toBytes 4 flags ++ toBytes 8 b.dt ++ toBytes 16 b.stamp.toNat ++ b.rot.bytes ++ b.trans.bytes ++
    b.omega.bytes ++ b.vel.bytes ++ toBytes 44 0 ++ toBytes 4 b.seq

/-- The bundle header (the bundle header table). -/
def bundleHeader (b : AlnBundle) (flags : Nat) : List Byte :=
  padTo 256 (toBytes 16 b.stamp.toNat ++ toBytes 4 b.seq ++ toBytes 4 flags ++ toBytes 8 b.dt ++ b.omega.bytes ++
    b.vel.bytes ++ b.rot.bytes ++ b.trans.bytes ++ toBytes 4 b.stale ++ toBytes 4 b.voted ++
    padTo 8 (b.cover.flatMap (toBytes 1)) ++ b.dir.flatMap (fun d => toBytes 4 d.1 ++ toBytes 4 d.2))

/-- Header of region r: written, or skipped with its record (R103). -/
def State.recWrite (s : State) (b : AlnBundle) (flags r : Nat) : State :=
  let n := s.rd (F.ALN_REC_CFG_SQUARE r)
  let a := answerOf (s.ustate (0x1000 + n))
  if a = St.ok then
    (s.store (storeBase n + s.rd (F.ALN_REC_CFG_OFFSET_64 r) * 64) (recHeader b flags)).wr (F.ALN_REC_STATUS_LAST_SEQ r) b.seq
  else (s.bump (F.ALN_REC_STATUS_SKIPS r)).event 0x6000 0x4004 r [a]

/-- A sequence number lies before another, modulo 2³². -/
def before (d q : Nat) : Bool := let x := fwd (2 ^ 32) d q; decide (0 < x) && decide (x < 2 ^ 31)

/-- A finished build is emitted: slot, region headers, NEXT_SEQ, notification; or its sequence dropped (R104). -/
def State.emitBundle (s : State) : State :=
  match s.aln.build with
  | none => s
  | some b =>
    let a := s.aln
    if s.alnSlots ≤ fwd (2 ^ 32) (s.rd F.ALN_RING_POS_OLDEST_SEQ) b.seq then
      ((s.bump F.ALN_COUNTS_BUNDLE_DROPS).event 0x6000 0x4003 b.seq [0]).setAln { a with build := none, dropped := a.dropped ++ [b.seq] }
    else
      let recs := (List.range 4).filter s.recEnabled
      let skipped := recs.any (fun r => !s.serving (0x1000 + s.rd (F.ALN_REC_CFG_SQUARE r)))
      let flags := b.flags + 8 * (a.dropped.any (fun d => before d b.seq)).toNat + 2 ^ 24 * skipped.toNat
      let off := b.seq % s.alnSlots * s.rd F.ALN_RING_CFG_SLOT_64 * 64
      let s1 := s.store (s.rd F.ALN_RING_BASE_BASE + off) (bundleHeader b flags ++ b.body)
      let s2 := recs.foldl (fun s r => s.recWrite b flags r) s1
      let s3 := s2.setAln { s2.aln with
        build := none, dropped := a.dropped.filter (fun d => !before d b.seq), prevTf := some (Machine.ts64 b.stamp),
        bundles := s2.aln.bundles ++ [{ b with flags := flags }] }
      let s4 := if s3.on F.ALN_RING_CFG_NOTIFY_EN then
          s3.post 0x6000 (s3.rd F.ALN_RING_CFG_NOTIFY_UNIT) 3 0x04 0 (toBytes 4 b.seq ++ toBytes 4 0 ++ toBytes 8 off)
        else s3
      if s4.on F.VOX_CTRL_ENABLE && s4.rd F.VOX_CFG_TRIGGER == 0 then
        { s4 with vox := { s4.vox with offered := s4.vox.offered ++ [b.seq] } }
      else s4

/-! ### Registration (R94) -/

/-- The estimate of a registration from the sampled points and the previous map: component 0 inliers, 1 RMS residual in
mm, 2 whether the normal matrix is positive definite, 3 to 5 rotation vector, 6 to 8 translation (log entry 17). -/
def regEst (part : Nat) (ops : List Nat) : Nat := Config.openFn 3 (part :: ops)

/-- Every m-th point. -/
def everyNth (m : Nat) (l : List VPoint) : List VPoint :=
  (List.range (ceilDiv l.length (max 1 m))).filterMap (fun i => l[i * max 1 m]?)

/-- A sweep's registration completes: accepted for the next bundle, or rejected and counted; either way its map serves
the next sweep. -/
def State.regDone (s : State) (sw : RegSweep) : State :=
  let n := clampN 1 4096 (s.rd F.ALN_EGO_CFG_REG_POINTS)
  let mid := (sw.t0 + sw.t1) / 2
  let move (p : VPoint) : V3 :=
    ((rotMat (s.aln.omega.over (nsDiff p.t mid))).apply p.p).add (s.aln.vel.over (nsDiff p.t mid))
  let pts := (everyNth (ceilDiv sw.pts.length n) sw.pts).map move
  let flat (l : List V3) : List Nat := l.flatMap (fun p => [p.x, p.y, p.z])
  let ops := [clampN 1 8 (s.rd F.ALN_EGO_CFG_REG_ITERS), max 1 (s.rd F.ALN_EGO_CFG_REG_VOXEL_CM),
    s.rd F.ALN_EGO_CFG_REG_MAX_DIST_CM, pts.length] ++ flat pts ++ flat (s.aln.regMap.getD [])
  let inl := regEst 0 ops % (pts.length + 1)
  let rms := regEst 1 ops
  let ok := s.aln.regMap.isSome && regEst 2 ops % 2 == 1 &&
    decide (s.rd F.ALN_EGO_LIMITS_REG_MIN_INLIER_PCT * pts.length ≤ inl * 100) &&
    decide (rms ≤ s.rd F.ALN_EGO_LIMITS_REG_MAX_RMS_MM) && decide (s.rd F.ALN_EGO_LIMITS_REG_COVER_MIN ≤ sw.cover) &&
    decide (sw.t0 < sw.t1)
  let s := s.bumpW F.ALN_EGO_STATUS_REG_RUNS
  let s := (s.wr F.ALN_EGO_STATUS_REG_VALID ok.toNat).wr F.ALN_EGO_STATUS_REG_INLIER_PCT
    (if pts.length = 0 then 0 else inl * 100 / pts.length)
  let s := s.wr F.ALN_EGO_STATUS_REG_RMS_MM (min rms 65535)
  let s := { s with aln := { s.aln with regMap := some (sw.pts.map move) } }
  if ok then
    let dur := (Val.ofNat (sw.t1 - sw.t0)).div (.ofNat 1000000000)
    let per (k : Nat) : Nat := toF32 ((f32 (regEst k ops % 2 ^ 32)).div dur)
    { s with aln := { s.aln with reg := some ⟨mid, ⟨per 3, per 4, per 5⟩, ⟨per 6, per 7, per 8⟩⟩ } }
  else s.bump F.ALN_EGO_STATUS_REG_REJECTS

/-! ### Release and reset (R105, R107) -/

/-- SEQ released, with every bundle before it. -/
def State.alnReleaseTo (s : State) (seq : Nat) : State :=
  let old := s.rd F.ALN_RING_POS_OLDEST_SEQ
  let d := fwd (2 ^ 32) old seq
  let s := s.wr F.ALN_RING_POS_OLDEST_SEQ (seq + 1)
  ({ s with aln := { s.aln with bundles := s.aln.bundles.filter (fun b => decide (d < fwd (2 ^ 32) old b.seq)) } }).alnTrim

/-- What entry into RESETTING or OFF does to the engine (R107). -/
def State.alnReset (s : State) (st : Nat) : State :=
  let a := s.aln
  let s1 := (s.bumpEpoch 0x6000).setUstate 0x6000 st
  let s2 := s1.setAln { a with
    inst := [], build := none, held := [], reg := none, regMap := none, sweeps := [],
    votes := [], omega := v30, vel := v30, bundles := [] }
  let s3 := s2.wr F.ALN_RING_POS_OLDEST_SEQ s2.aln.nextSeq
  let s4 := ((s3.wr F.ALN_BIAS_XY_BIAS_X 0).wr F.ALN_BIAS_XY_BIAS_Y 0).wr F.ALN_BIAS_Z_BIAS_Z 0
  let s5 := s4.wr F.ALN_STATUS_EGO_STATE 0
  (List.range 32).foldl (fun s i => if s.rd (F.IQ_RING_CFG_READER i) = 10 then s.iqFree i (s.q i).read else s) s5

end Sys2Proof.Machine
end

