-- ==== Sys2Proof/Machine/Aln.lean ====
section
/-!
DEFINITION. The commands of the alignment engine (04_alignment.md).
-/

namespace Sys2Proof.Machine

/-- BUNDLE_BUILD_START (R83): every REQUIRED stream has a usable sample at or after t_f. -/
def execBundleBuildStart (s : State) : Out :=
  .next (
    match s.aln.inst with
    | [] => s
    | (stamp, _) :: _ => if s.alnIdle && s.alnReady (Machine.ts64 stamp) then s.startBuild false else s)

/-- BUNDLE_WAIT_EXPIRE (R83): TIME_CLK reaches t_f + WAIT_US and the build starts on the deadline. -/
def execBundleWaitExpire (s : State) : Out := .next (if s.alnIdle then s.startBuild true else s)

/-- BUNDLE_EMIT (R103, R104): the build is finished. -/
def execBundleEmit (s : State) : Out := .next s.emitBundle

/-- REGISTRATION_DONE (R94): the registration of the oldest waiting sweep completes. -/
def execRegistrationDone (s : State) : Out :=
  .next (
    match s.aln.sweeps with
    | [] => s
    | sw :: rest => { s with aln := { s.aln with sweeps := rest } }.regDone sw)

/-- A write to the ALIGN block: by the host, the castle or the partition that has the engine. -/
def State.alnWrite (s : State) (r : Req) (reg : Nat) (ok : Bool) (act : State → State) : State :=
  if s.mayUse r 0x6000 && ok then act s else s.reject R.ALN_REJECTS (reg % 0x10000)

/-- SEQ lies from OLDEST_SEQ to below NEXT_SEQ. -/
def seqHeld (old next seq : Nat) : Bool := decide (fwd (2 ^ 32) old seq < fwd (2 ^ 32) old next)

/-- ALN_RELEASE_WRITE (R105). -/
def execAlnReleaseWrite (r : Req) (d : WData) (s : State) : Out :=
  .next (
    let seq := bits d.bits1 0 32
    if s.mayUse r 0x6000 && !d.lowWritten then s else
    s.alnWrite r R.ALN_RELEASE (seqHeld (s.rd F.ALN_RING_POS_OLDEST_SEQ) (s.rd F.ALN_RING_POS_NEXT_SEQ) seq)
      (fun s => s.alnReleaseTo seq))

/-- ALN_RESET_DONE (R107): the drain is complete. -/
def execAlnResetDone (s : State) : Out :=
  .next (if s.ustate 0x6000 = US.resetting then s.setUstate 0x6000 US.ready else s)

end Sys2Proof.Machine
end

