-- ==== Sys2Proof/Machine/SquareOps.lean ====
section
/-!
DEFINITION. Squares: their tags, queues and states, messages at their router, LOAD, START, HALT, RESET and FAULT, rests,
and the SQUARE register block (R139 to R164, R182, R503; 06_grid.md).
-/

namespace Sys2Proof.Machine

/-- A buffer as LOAD leaves it: zero, INT8, K_VALID and N_VALID 0 (R182). -/
def tile0 : Tile := ⟨1, 0, 0, [], []⟩

def sqTag0 : SqTag := ⟨0, 0, none⟩

def sq0 : SqSt where
  pc := 0
  x := []
  mie := false
  mpie := false
  ie := 0
  mtvec := 0
  mscratch := 0
  mepc := 0
  mcause := 0
  mtval := 0
  msgMask := 0
  cycle0 := 0
  instret := 0
  ts := 0
  fresh := true
  loading := none
  fence := false
  resting := none
  rested := none
  tags := []
  txq := []
  arr := ⟨tile0, tile0, false, [], []⟩
  inq := []
  cache := []
  others := []
  orphans := []

def State.sqr (s : State) (n : Nat) : SqSt := mget sq0 s.sq n
def State.setSq (s : State) (n : Nat) (q : SqSt) : State := { s with sq := mset sq0 s.sq n q }

def sqUnit (n : Nat) : Nat := 0x1000 + n

/-- SQ_STATE.RUN codes. -/
def runHalted : Nat := 0
def runRunning : Nat := 1
def runWaiting : Nat := 2
def runDraining : Nat := 3

def State.sqRun (s : State) (n : Nat) : Nat := s.rd (F.SQ_STATE_RUN n)

/-! ### Time-shared squares (R364) -/

def share0 : ShareCtx := ⟨sq0, runHalted, US.ready, 0, 0, 0, none, false⟩

def State.shareCtx (s : State) (n : Nat) : ShareCtx := mget share0 s.sched.ctx n
def State.setShareCtx (s : State) (n : Nat) (c : ShareCtx) : State :=
  { s with sched := { s.sched with ctx := mset share0 s.sched.ctx n c } }

def State.shared (s : State) (n : Nat) : Bool := s.on (F.PART_SQ_SHARE_ENABLE n)
def State.secondRuns (s : State) (n : Nat) : Bool := s.shared n && s.on (F.PART_SQ_SHARE_RUNNING_SECOND n)

/-- The part of the store that belongs to the running context. -/
def State.ctxLo (s : State) (n : Nat) : Nat := if s.secondRuns n then s.rd (F.PART_SQ_SHARE_SPLIT_64K n) * 65536 else 0
def State.ctxHi (s : State) (n : Nat) : Nat :=
  if s.shared n && !s.secondRuns n then s.rd (F.PART_SQ_SHARE_SPLIT_64K n) * 65536 else storeSize

/-- The accumulator rows of the running context. -/
def State.accRows (s : State) (n : Nat) : Nat × Nat :=
  if !s.shared n then (0, 1024) else if s.secondRuns n then (512, 1024) else (0, 512)

/-- A switch stands at the boundary, or neither context runs. -/
def State.shareStops (s : State) (n : Nat) : Bool := s.shared n && ((s.shareCtx n).due.isSome || (s.shareCtx n).idle)

/-- The contexts exchanged: sequencer registers, CSRs, tags and tile buffers, with the run state they were saved in; inbound
queues, the epoch cache and the accumulators stay. -/
def State.swapCtx (s : State) (n : Nat) : State :=
  let q := s.sqr n
  let c := s.shareCtx n
  let mine : SqSt := { q with inq := [], cache := [], others := [], orphans := [], arr := { q.arr with acc := [], f32 := [] } }
  let s := s.setShareCtx n { c with
    sq := mine, run := s.rd (F.SQ_STATE_RUN n), state := s.ustate (sqUnit n), entry := s.rd (F.SQ_ENTRY_ENTRY n),
    pc := s.rd (F.SQ_PC_PC n), handler := s.rd (F.SQ_STATE_IN_HANDLER n) }
  let s := s.setSq n { c.sq with
    inq := q.inq, cache := q.cache, others := q.others, orphans := q.orphans,
    arr := { c.sq.arr with acc := q.arr.acc, f32 := q.arr.f32 } }
  let s := ((s.wr (F.SQ_STATE_RUN n) c.run).setUstate (sqUnit n) c.state).wr (F.SQ_ENTRY_ENTRY n) c.entry
  let s := (s.wr (F.SQ_PC_PC n) c.pc).wr (F.SQ_STATE_IN_HANDLER n) c.handler
  s.wr (F.PART_SQ_SHARE_RUNNING_SECOND n) (!s.secondRuns n).toNat

/-- The switch that is due happens once the tensor queue is empty, in a square that serves and does not rest (R364). -/
def State.shareSwitch (s : State) (n : Nat) : State :=
  match (s.shareCtx n).due with
  | none => s
  | some k =>
    let q := s.sqr n
    if !s.shared n || !q.txq.isEmpty || !s.serving (sqUnit n) || q.loading.isSome || q.resting.isSome then s
    else
      let s := s.setShareCtx n { s.shareCtx n with due := none, idle := k = 2 }
      if k = 2 ∨ k = (s.secondRuns n).toNat then s else s.swapCtx n

/-- The sequencer issues: BUSY, running or blocked, with no rest standing at the boundary (R161) and no switch (R364). -/
def State.sqIssues (s : State) (n : Nat) : Bool :=
  !s.shareStops n &&
  decide (s.ustate (sqUnit n) = US.busy) && (decide (s.sqRun n = runRunning) || decide (s.sqRun n = runWaiting)) &&
    !(s.sqr n).resting.isSome && !(s.on (F.SQ_CFG_REST_EN n) && s.on (F.SQ_REST_FORCE n))

/-! ### Tags (R141, R144) -/

def SqSt.tag (q : Sys2Proof.Machine.SqSt) (t : Nat) : SqTag := mget sqTag0 q.tags t
def SqSt.setTag (q : Sys2Proof.Machine.SqSt) (t : Nat) (v : SqTag) : Sys2Proof.Machine.SqSt :=
  { q with tags := mset sqTag0 q.tags t v }

def SqSt.outMask (q : Sys2Proof.Machine.SqSt) : Nat :=
  (List.range 32).foldl (fun m t => if (q.tag t).st = 1 then m + 2 ^ t else m) 0
def SqSt.doneMask (q : Sys2Proof.Machine.SqSt) : Nat :=
  (List.range 32).foldl (fun m t => if (q.tag t).st = 2 then m + 2 ^ t else m) 0

def SqSt.freeTag (q : Sys2Proof.Machine.SqSt) : Option Nat := (List.range 32).find? (fun t => (q.tag t).st = 0)

/-- The tags of a mask freed. -/
def SqSt.freeTags (q : Sys2Proof.Machine.SqSt) (mask : Nat) : Sys2Proof.Machine.SqSt :=
  { q with tags := q.tags.filter (fun e => !bit mask e.1) }

/-- A tag done with a status. -/
def State.sqTagDone (s : State) (n t status : Nat) : State :=
  s.setSq n ((s.sqr n).setTag t { (s.sqr n).tag t with st := 2, status := status })

/-! ### The tensor queue -/

def State.setTxq (s : State) (n : Nat) (l : List TxOp) : State :=
  (s.setSq n { s.sqr n with txq := l }).wr (F.SQ_STATE_TXQ_FILL n) (min 16 l.length)

/-- DRAINING ends when the tensor queue is empty: HALTED, READY (R145); and a switch that is due happens (R364). -/
def State.sqDrained (s : State) (n : Nat) : State :=
  (if s.sqRun n = runDraining ∧ (s.sqr n).txq = [] ∧ s.ustate (sqUnit n) = US.busy then
    (s.wr (F.SQ_STATE_RUN n) runHalted).setUstate (sqUnit n) US.ready
  else s).shareSwitch n

/-! ### The epoch cache (R159) -/

/-- The epoch a square's cache holds for a unit, if any. -/
def State.cacheGet (s : State) (n module unit : Nat) : Option Nat :=
  let q := s.sqr n
  if module = s.moduleNo ∧ unit / 0x1000 = 1 then
    let v := mget 0 q.cache (unit % 0x1000)
    if v = 0 then none else some (v - 1)
  else (q.others.find? (fun e => decide (e.module = module) && decide (e.unit = unit))).map (·.epoch)

/-- The cache takes an epoch; outside the module's squares the 32 last used are kept. -/
def State.cachePut (s : State) (n module unit epoch : Nat) : State :=
  let q := s.sqr n
  if module = s.moduleNo ∧ unit / 0x1000 = 1 then
    s.setSq n { q with cache := mset 0 q.cache (unit % 0x1000) (epoch + 1) }
  else
    let l := q.others.filter (fun e => !(decide (e.module = module) && decide (e.unit = unit))) ++ [⟨module, unit, epoch⟩]
    s.setSq n { q with others := l.drop (l.length - 32) }

/-- A use of an entry makes it the most recent. -/
def State.cacheTouch (s : State) (n module unit : Nat) : State :=
  match s.cacheGet n module unit with
  | some e => s.cachePut n module unit e
  | none => s

/-! ### Inbound queues (R155 to R157) -/

def msgFlits (len : Nat) : Nat := ceilDiv (16 + len) 64

def SqSt.inbound (q : Sys2Proof.Machine.SqSt) (p : Nat) : List Msg := mget [] q.inq p

def State.setInq (s : State) (n p : Nat) (l : List Msg) : State :=
  (s.setSq n { s.sqr n with inq := mset [] (s.sqr n).inq p l }).wr (F.SQ_INQ_STATUS_FILL n p)
    (l.foldl (fun a m => a + msgFlits m.payload.length) 0)

/-- Every waiting message answered, non-posted and posted, and the queues emptied (R20). -/
def State.answerQueues (s : State) (n status : Nat) : State :=
  (List.range 8).foldl (fun s p =>
    (((s.sqr n).inbound p).foldl (fun s m => s.answer m status) s).setInq n p []) s

/-! ### States -/

/-- The square leaves READY or BUSY for another state: its messages are answered as that state gives (R20). -/
def State.sqLeave (s : State) (n st : Nat) : State :=
  let was := s.serving (sqUnit n)
  let s := s.setUstate (sqUnit n) st
  if was then s.answerQueues n (answerOf st) else s

/-- WRITE bursts in flight: they complete at their targets whatever becomes of the square (R211). -/
def SqSt.writesOut (q : Sys2Proof.Machine.SqSt) : List Burst :=
  q.txq.flatMap (fun o => match o.xfer with
    | some x => x.flight.filter (fun b => b.data.isSome)
    | none => [])

/-- The tensor queue abandoned and the tags freed. -/
def State.sqAbandon (s : State) (n : Nat) : State :=
  (s.setSq n { s.sqr n with orphans := (s.sqr n).orphans ++ (s.sqr n).writesOut, tags := [], fence := false, loading := none, resting := none, rested := none }).setTxq n []

/-- FAULT (R140): stopped, SQ_TRAP recorded, tags freed, messages answered, the record of R12 written. -/
def State.sqFault (s : State) (n kind cause tval : Nat) (irq : Bool) : State :=
  let s := ((s.wr (F.SQ_TRAP_KIND n) kind).wr (F.SQ_TRAP_CAUSE n) cause).wr (F.SQ_TRAP_TVAL n) tval
  let s := ((s.wr (F.SQ_TRAP_INTERRUPT n) irq.toNat).wr (F.SQ_PC_PC n) (s.sqr n).pc).wr (F.SQ_STATE_RUN n) runHalted
  ((s.sqLeave n US.fault).sqAbandon n).event (sqUnit n) 0x6001 (sqUnit n) [kind]

/-- What a square loses whenever it enters RESETTING, OFF or RETAINED: issue stops, the tensor queue is abandoned, the tags
freed, and requests answered with the incremented epoch (R19, R20). -/
def State.sqStop (s : State) (n st : Nat) : State :=
  let s := (s.bumpEpoch (sqUnit n)).sqLeave n st
  let s := s.sqAbandon n
  (s.wr (F.SQ_STATE_RUN n) runHalted).wr (F.SQ_STATE_IN_HANDLER n) 0

/-- A square as if newly powered: registers, array and stores zero, its program gone (R148, R182). -/
def State.sqClear (s : State) (n : Nat) : State :=
  let q := s.sqr n
  let s := (s.setSq n { sq0 with cache := q.cache, others := q.others, orphans := q.orphans, cycle0 := s.fab / 1000 }).zeroRange (storeBase n) storeSize
  let s := (s.wr (F.SQ_PC_PC n) (s.rd (F.SQ_ENTRY_ENTRY n))).wr (F.SQ_EVENT_EVENT n) 0
  let s := if s.shared n then s.setShareCtx n { share0 with due := (s.shareCtx n).due, idle := (s.shareCtx n).idle, entry := (s.shareCtx n).entry, pc := (s.shareCtx n).entry } else s
  { s with badWords := s.badWords.filter (fun e => !(decide (storeBase n ≤ e.1 * 8) && decide (e.1 * 8 < storeBase n + storeSize))) }

/-- The square enters RESETTING (3), OFF (1) or RETAINED (2); RETAINED keeps its content. -/
def State.sqEnter (s : State) (n st : Nat) : State :=
  let s := s.sqStop n st
  if st = US.retained then s else s.sqClear n

/-- RESET (R148): into RESETTING at once, or once 2 µs have passed since the last epoch increment (R19). A square already
RESETTING ignores it; from ABSENT, OFF and QUARANTINED it is ignored and counted. -/
def State.sqReset (s : State) (n : Nat) : State :=
  let st := s.ustate (sqUnit n)
  if st = US.resetting then s
  else if st = US.absent ∨ st = US.off ∨ st = US.quarantined then s.reject (R.SQ_REJECTS n) 0
  else if s.epochFree (sqUnit n) then s.sqEnter n US.resetting
  else s.holdEpoch (sqUnit n) US.resetting

/-- Codes of a held load (R19), beside the unit states. -/
def holdLoad : Nat := 16
def holdLoadStart : Nat := 17

/-- Steps 1 to 4 of LOAD (R146), in the first of its 64 cycles: epoch, queues answered with UNIT_RESET, tags freed, registers
and CSRs zero; the tile buffers become zero and the accumulators stay (R182). -/
def State.sqLoadNow (s : State) (n : Nat) (start : Bool) : State :=
  let s := (s.bumpEpoch (sqUnit n)).answerQueues n St.unitReset
  let q := s.sqr n
  let s := s.setSq n { sq0 with
    pc := q.pc, cycle0 := s.fab / 1000, loading := some start, cache := q.cache, others := q.others, orphans := q.orphans ++ q.writesOut,
    arr := { q.arr with t0 := tile0, t1 := tile0 } }
  (s.wr (F.SQ_STATE_IN_HANDLER n) 0).wr (F.SQ_STATE_TXQ_FILL n) 0

/-- Whether a load or an entry of the unit is held for its epoch (R19). -/
def State.epochHeld (s : State) (u : Nat) : Bool := (mget epochRec0 s.epoch u).held.isSome

/-- LOAD (R146), with START after it where the same write sets it (R503); ignored and counted unless READY. -/
def State.sqLoad (s : State) (n : Nat) (start : Bool) : State :=
  if s.ustate (sqUnit n) = US.ready ∧ (s.sqr n).loading = none ∧ s.epochHeld (sqUnit n) = false then
    if s.epochFree (sqUnit n) then s.sqLoadNow n start
    else s.holdEpoch (sqUnit n) (if start then holdLoadStart else holdLoad)
  else s.reject (R.SQ_REJECTS n) 0

/-- START (R147): from SQ_ENTRY after a load or reset, from SQ_PC after a halt. Written during a load's 64 cycles it acts at
their end (log entry 21). -/
def State.sqStart (s : State) (n : Nat) : State :=
  let q := s.sqr n
  let addr := if q.fresh then s.rd (F.SQ_ENTRY_ENTRY n) else s.rd (F.SQ_PC_PC n)
  if s.ustate (sqUnit n) ≠ US.ready ∨ s.epochHeld (sqUnit n) = true then s.reject (R.SQ_REJECTS n) 0
  else if q.loading.isSome then s.setSq n { q with loading := some true }
  else if storeSize ≤ addr then s.reject (R.SQ_REJECTS n) 0
  else ((s.setSq n { q with pc := addr, fresh := false }).setUstate (sqUnit n) US.busy).wr (F.SQ_STATE_RUN n) runRunning

/-- The stop of issue at the boundary: DRAINING until the tensor queue is empty; SQ_PC holds the next instruction, which is
the one a blocked sequencer abandons (R145). -/
def State.sqStopIssue (s : State) (n : Nat) : State :=
  ((s.wr (F.SQ_STATE_RUN n) runDraining).wr (F.SQ_PC_PC n) (s.sqr n).pc).sqDrained n

/-- HALT (R145), ignored and counted where nothing runs. -/
def State.sqHalt (s : State) (n : Nat) : State :=
  if s.ustate (sqUnit n) = US.busy then
    if s.sqRun n = runDraining then s else s.sqStopIssue n
  else s.reject (R.SQ_REJECTS n) 0

/-- The end of a load's 64 cycles (R146 step 5): the PC is SQ_ENTRY; a START that was to follow acts. -/
def State.sqLoadDone (s : State) (n : Nat) : State :=
  match (s.sqr n).loading with
  | none => s
  | some start =>
    let e := s.rd (F.SQ_ENTRY_ENTRY n)
    let s := (s.setSq n { s.sqr n with loading := none, pc := e, fresh := true }).wr (F.SQ_PC_PC n) e
    if start then s.sqStart n else s

/-- The end of RESETTING (R148): READY, HALTED, PC at SQ_ENTRY. -/
def State.sqResetDone (s : State) (n : Nat) : State :=
  if s.ustate (sqUnit n) = US.resetting then
    let s := s.setUstate (sqUnit n) US.ready
    let e := s.rd (F.SQ_ENTRY_ENTRY n)
    (s.setSq n { s.sqr n with pc := e, fresh := true }).wr (F.SQ_PC_PC n) e
  else s

/-- A write of SQ_CTRL with several action bits (R503), and its LOCK (R497). -/
def State.sqCtrl (s : State) (n v : Nat) : State :=
  let b (i : Nat) : Bool := bit v i
  let s := if b 4 then
      let s := s.sqReset n
      if b 1 || b 2 || b 3 then s.reject (R.SQ_REJECTS n) 0 else s
    else if b 2 then
      let s := s.sqHalt n
      if b 1 || b 3 then s.reject (R.SQ_REJECTS n) 0 else s
    else if b 3 then s.sqLoad n (b 1)
    else if b 1 then s.sqStart n
    else s
  if b 0 then s.wr (F.SQ_CTRL_LOCK n) 1 else s

/-! ### The rest region and recurrent regions -/

/-- A range of a store touches the rest region while REST_EN is set (R162). -/
def State.inRest (s : State) (n off len : Nat) : Bool :=
  s.on (F.SQ_CFG_REST_EN n) && decide (0x2F0000 < off + len) && decide (off < storeSize) && decide (0 < len)

/-- A range of a store outside its 3 MiB or in the rest region. -/
def State.storeOut (s : State) (n off len : Nat) : Bool := decide (storeSize < off + len) || s.inRest n off len

/-- A range the sequencer may not touch: outside the store or its context's part of it, or in the rest region (R162, R364). -/
def State.storeBadRange (s : State) (n off len : Nat) : Bool :=
  s.storeOut n off len || decide (off < s.ctxLo n) || decide (s.ctxHi n < off + len)

/-- The end of the store a program may name: below the rest region while REST_EN is set (R162), and within its context's part. -/
def State.storeEnd (s : State) (n : Nat) : Nat := min (if s.on (F.SQ_CFG_REST_EN n) then 0x2F0000 else storeSize) (s.ctxHi n)

/-- A range of a store meets an enabled recurrent region (R102). -/
def State.inRecurrent (s : State) (n off len : Nat) : Bool :=
  (List.range 64).any (fun r => s.recEnabled r && decide (s.rd (F.ALN_REC_CFG_SQUARE r) = n) &&
    decide (s.rd (F.ALN_REC_CFG_OFFSET_64 r) * 64 < off + len) &&
    decide (off < (s.rd (F.ALN_REC_CFG_OFFSET_64 r) + max 2 (s.rd (F.ALN_REC_CFG_SIZE_64 r))) * 64))

/-! ### Partition fences (R158) -/

/-- Partition p reaches what belongs to partition t: its own, and what its open paths lead to (R158, R361). -/
def State.pathOpen (s : State) (p t : Nat) : Bool := decide (t = p) || (decide (t < 8) && bit (s.rd (F.PART_STATE_PATHS p)) t)

/-- Whether sender and target of different assignment may exchange SEND, READ and WRITE: same partition, an open path, or
neither assigned; a time-shared square belongs to two (R364). Castle units as targets, and the host, the castle and their mailbox
movers as senders, are never fenced. -/
def State.fenceOk (s : State) (srcPart : Option Nat) (target : Nat) : Bool :=
  if target / 0x1000 = 0xA then true
  else
    let t := s.ownerOf target
    match srcPart with
    | some p => s.pathOpen p t || (decide (target / 0x1000 = 1) && s.shared (target % 0x1000) &&
        s.pathOpen p (s.rd (F.PART_SQ_SHARE_SECOND (target % 0x1000))))
    | none => decide (8 ≤ t)

/-- A mesh access of a partition to the range of a time-shared square that belongs to another partition (R364). -/
def State.rangeFenced (s : State) (srcPart : Option Nat) (n off len : Nat) : Bool :=
  match srcPart with
  | none => false
  | some p =>
    let b := s.rd (F.PART_SQ_SHARE_SPLIT_64K n) * 65536
    s.shared n && ((decide (off < b) && !s.pathOpen p (s.ownerOf (sqUnit n))) ||
      (decide (b < off + len) && !s.pathOpen p (s.rd (F.PART_SQ_SHARE_SECOND n))))

/-- The partition of a unit as a sender: a time-shared square's is that of its running context. -/
def State.unitPart (s : State) (u : Nat) : Option Nat :=
  if u / 0x1000 = 1 ∧ s.secondRuns (u % 0x1000) then some (s.rd (F.PART_SQ_SHARE_SECOND (u % 0x1000)))
  else
    let p := s.ownerOf u
    if p < 8 then some p else none

/-- A message's partition: a sending unit's own, from the router's record of it; of another module's sender, the header's. -/
def State.msgPart (s : State) (m : Msg) : Option Nat :=
  let c := m.src / 0x1000
  if m.srcModule ≠ s.moduleNo then some m.part
  else if c = 0xA ∨ c = 0xE ∨ c = 0xF then none
  else s.unitPart m.src

/-- A sending unit's assignment decides; a peer's castle or sequencer passes only with TRUST_PEER_HOST (R443). The host, the castle
and the mailbox sequencer are never fenced. -/
def State.msgFenced (s : State) (m : Msg) : Bool :=
  let c := m.src / 0x1000
  let high := decide (c = 0xA) || decide (c = 0xE) || decide (c = 0xF)
  if high then decide (m.srcModule ≠ s.moduleNo) && !s.on F.LINK_CTRL_TRUST_PEER_HOST else !s.fenceOk (s.msgPart m) m.dest

/-- A SEND or NOTIFY of the partition whose context is not running (R364). -/
def State.ctxAway (s : State) (n : Nat) (m : Msg) : Bool :=
  let first := s.ownerOf (sqUnit n)
  let second := s.rd (F.PART_SQ_SHARE_SECOND n)
  s.shared n && (match s.msgPart m with
    | some p =>
      let idle := (s.shareCtx n).idle
      (decide (p = first) && (s.secondRuns n || idle)) || (decide (p = second) && (!s.secondRuns n || idle))
    | none => false)

/-! ### Messages at a square's router (R155) -/

/-- Earlier messages of the same source, destination, class and priority arrive first (R152). -/
def State.inOrder (s : State) (m : Msg) : Bool :=
  match s.net.find? (fun x => decide (x.src = m.src) && decide (x.srcModule = m.srcModule) && decide (x.dest = m.dest) &&
      decide (x.destModule = m.destModule) && decide (x.cls = m.cls) && decide (x.prio = m.prio)) with
  | some x => decide (x = m)
  | none => true

/-- A READ or WRITE request: the address in payload bytes 0 to 7; a READ's length in bytes 8 to 11, a WRITE's data from byte
8 (log entry 22). -/
def rwAddr (m : Msg) : Nat := field m.payload 0 8
def rwLen (m : Msg) : Nat := if m.op = 2 then field m.payload 8 4 else m.payload.length - 8

/-- The local-store port's answer to a READ or WRITE by another master at a store offset: done, or a refusal (R102, R162). -/
def State.storePort (s : State) (n off len : Nat) (data : Option (List Byte)) (poison : Bool) : Nat × List Byte × Bool × State :=
  if s.storeOut n off len then (St.badArgument, [], false, s)
  else
    let a := storeBase n + off
    match data with
    | none => (St.ok, s.bytes a len, s.badAt a len, s)
    | some b =>
      if s.inRecurrent n off len then (St.notPermitted, [], false, s)
      else
        let s := s.store a b
        let s := if poison then
            { s with badWords := (List.range (len / 8)).foldl (fun m i => mset 0 m ((a + 8 * i) / 8) 1) s.badWords }
          else s
        (St.ok, [], false, s)

/-- A READ or WRITE message at the local store of its square. -/
def State.sqReadWrite (s : State) (n : Nat) (m : Msg) : State :=
  let a := rwAddr m
  if a < storeBase n then s.answer m St.badArgument
  else if s.rangeFenced (s.msgPart m) n (a - storeBase n) (rwLen m) then s.answer m St.notPermitted
  else
    let (st, data, bad, s) := s.storePort n (a - storeBase n) (rwLen m)
      (if m.op = 3 then some (m.payload.drop 8) else none) m.poison
    if st ≠ St.ok then s.answer m st
    else if m.op = 2 then s.send { replyTo s m 0x11 St.ok data with poison := bad }
    else if m.kind = 0 then s.send (replyTo s m 0x12 St.ok [])
    else s

/-- The pseudocode of R155 on a request or posted message. -/
def State.sqDeliver (s : State) (n : Nat) (m : Msg) : State :=
  let st := s.ustate (sqUnit n)
  if st ≠ US.ready ∧ st ≠ US.busy then s.answer m (answerOf st)
  else if (s.sqr n).loading.isSome then s.answer m St.unitReset
  else if m.op ≠ 4 ∧ s.msgFenced m = true then s.answer m St.notPermitted
  else if (m.op ≠ 1 ∧ m.op ≠ 2 ∧ m.op ≠ 3 ∧ m.op ≠ 4) ∨ m.kind = 3 then s.answer m St.badArgument
  else if m.op = 2 ∨ m.op = 3 then s.sqReadWrite n m
  else if s.ctxAway n m then s.answer m St.busy
  else
    let s := if m.op = 4 then s.cachePut n m.srcModule m.src m.epoch else s
    let p := if m.op = 4 then s.rd (F.SQ_CFG_NOTIFY_PRIO n) else m.prio
    if s.rd (F.SQ_INQ_STATUS_FILL n p) + msgFlits m.payload.length ≤ s.rd (F.SQ_INQ_CFG_QUOTA n p) then
      s.setInq n p ((s.sqr n).inbound p ++ [m])
    else
      let s := ((s.bump (F.SQ_REFUSED_NO_SPACE n)).wr (F.SQ_REFUSED_LAST_SRC n) m.src).wr (F.SQ_REFUSED_LAST_MODULE n) m.srcModule
      s.answer m St.noSpace

/-! ### Replies (R157, R159, R160) -/

def State.sqStale (s : State) (n : Nat) (m : Msg) : State :=
  ((s.bump (F.SQ_STALE_COUNT n)).wr (F.SQ_STALE_LAST_UNIT n) m.src).wr (F.SQ_STALE_LAST_MODULE n) m.srcModule

/-- A square whose tag table takes replies: not in a state that freed its tags. -/
def State.sqTakesReplies (s : State) (n : Nat) : Bool :=
  let st := s.ustate (sqUnit n)
  st = US.ready ∨ st = US.busy ∨ st = US.resting ∨ st = US.quarantined

/-- A reply with a tag: completes it, or is discarded as stale and counted (R160). A tag that is outstanding only in the saved
table of a time-shared square is completed there (R364). -/
def State.sqReply (s : State) (n : Nat) (m : Msg) : State :=
  if !s.sqTakesReplies n then s.sqStale n m
  else
    let away := s.shared n && decide (((s.sqr n).tag m.tag).st ≠ 1)
    let t := if away then (s.shareCtx n).sq.tag m.tag else (s.sqr n).tag m.tag
    let reset := decide (m.op = 0x1F) && decide (m.status = St.unitReset)
    let epochOff := match t.epoch with
      | some e => decide (e ≠ m.epoch)
      | none => false
    if 32 ≤ m.tag ∨ t.st ≠ 1 ∨ m.user ≠ s.epochOf (sqUnit n) ∨ (!reset && epochOff) = true then s.sqStale n m
    else
      let s := s.cachePut n m.srcModule m.src m.epoch
      let s := if m.op ≠ 0x1F then s
        else if m.status = St.unitReset then s.bump (F.SQ_ANSWERS_UNIT_RESET n)
        else if m.status = St.busy then s.bump (F.SQ_ANSWERS_BUSY n)
        else if m.status = St.absent ∨ m.status = St.notPermitted ∨ m.status = St.noSpace ∨ m.status = St.timeout then
          s.bump (F.SQ_ANSWERS_OTHER n)
        else s
      if away then
        let c := s.shareCtx n
        s.setShareCtx n { c with sq := c.sq.setTag m.tag { t with st := 2, status := m.status } }
      else s.sqTagDone n m.tag m.status

/-- An ANSWER with TAG 0xFF (R157). -/
def State.sqPostedAnswer (s : State) (n : Nat) (m : Msg) : State :=
  if m.user = s.epochOf (sqUnit n) then s.bump (F.SQ_ANSWERS_POSTED_REFUSED n) else s.sqStale n m

/-! ### Rests (R161, R162) -/

/-- The boundary of a rest: issue stops, and the square rests once its queue is empty. -/
def State.sqRestAt (s : State) (n : Nat) (rd : Option Nat) (forced : Bool) : State :=
  s.setSq n { s.sqr n with resting := some ⟨rd, forced, s.ustate (sqUnit n), s.sqRun n⟩ }

/-- Entry into RESTING, with the boundary of FORCE where no TX.REST offered one (R161). -/
def State.sqRestEnter (s : State) (n : Nat) : State :=
  let s := if (s.sqr n).resting.isNone ∧ s.serving (sqUnit n) ∧ s.on (F.SQ_CFG_REST_EN n) ∧ s.on (F.SQ_REST_FORCE n) then
      (s.sqRestAt n none true).wr (F.SQ_PC_PC n) (s.sqr n).pc else s
  match (s.sqr n).resting with
  | none => s
  | some r =>
    if (s.sqr n).txq = [] ∧ s.serving (sqUnit n) then
      let s := s.sqLeave n US.resting
      let s := s.setSq n { s.sqr n with resting := none, rested := some r }
      let s := if r.forced then s.bump (F.SQ_REST_FORCED n) else s
      (s.wr (F.SQ_REST_REQUEST n) 0).wr (F.SQ_REST_FORCE n) 0
    else s

/-- The end of a rest (R161, R162): the state it left, epoch unchanged, TX.REST returning 0; or FAULT when the test found a
fault. The rest region's content is undefined. -/
def State.sqRestDone (s : State) (n : Nat) (fault : Bool) (part : Nat) : State :=
  match (s.sqr n).rested with
  | none => s
  | some r =>
    if s.ustate (sqUnit n) ≠ US.resting then s
    else
      let s := s.scramble 30 (storeBase n + 0x2F0000) 0x10000
      if fault then
        let s := (s.bump (F.SQ_REST_FAILS n)).event (sqUnit n) 0x6002 (sqUnit n) [part]
        s.sqFault n 5 0 0 false
      else
        let q := { s.sqr n with rested := none }
        let q := match r.rd with
          | some rd => { q with pc := q.pc + 4, instret := q.instret + 1, x := if rd = 0 then q.x else mdel q.x rd }
          | none => q
        ((s.setSq n q).bump (F.SQ_REST_RESTS n)).setUstate (sqUnit n) r.state

/-! ### The SQUARE register block (R10, R164) -/

/-- Who may write the block: host, castle, mailbox sequencer, the square itself, and its partition. -/
def State.sqWriter (s : State) (r : Req) (n : Nat) : Bool :=
  r.trusted || (match r with | .square k => k.val = n | _ => false) ||
    match s.reqPart r with
    | some p => decide (s.unitPart (sqUnit n) = some p)
    | none => false

/-- A write of the block at a block offset. -/
def State.sqWrite (s : State) (r : Req) (n off : Nat) (d : WData) : State :=
  let a := R.SQ_CTRL n + off
  if !s.sqWriter r n || (decide (off = 0x70) && decide (r ≠ .castle)) then s.reject (R.SQ_REJECTS n) off
  else if off = 0 then s.sqCtrl n d.bits1
  else if off = 0x70 then
    let v := d.bits1
    let s := if bit v 0 then s.wr (F.SQ_REST_REQUEST n) 1 else s
    let s := if bit v 1 then s.wr (F.SQ_REST_FORCE n) 1 else s
    if bit v 8 then s.wr (F.SQ_REST_REQUEST n) 0 else s
  else if off = 0x98 then
    let v := d.bits1
    let s := if bit v 0 then s.wr (F.SQ_EVENT_EVENT n) 1 else s
    if bit v 1 then s.wr (F.SQ_EVENT_EVENT n) 0 else s
  else if off = 0x38 then
    let v := d.over (s.reg a)
    if 512 < (List.range 8).foldl (fun t p => t + bits v (8 * p) 8) 0 then s.reject (R.SQ_REJECTS n) off
    else s.writeReg a d
  else s.writeReg a d

/-- The ports of the router of square n: mesh links in service, edge ports fitted, and the plane port of a dark square ("Mesh
attachments", R149). -/
def routerPorts (n : Nat) : Nat :=
  let file := n % 8
  let rank := n / 8
  let link := (decide (rank < 7)).toNat + (decide (file < 7)).toNat * 2 + (decide (0 < rank)).toNat * 4 + (decide (0 < file)).toNat * 8
  link + (15 - link) * 16 + (decide ((file + rank) % 2 = 0)).toNat * 256

/-- What the block's registers read as, where that is more than the register file holds. -/
def State.sqView (s : State) (n off : Nat) : Nat :=
  let a := R.SQ_CTRL n + off
  if !s.present (sqUnit n) then 0
  else if off = 0x8 then
    let p := (s.reqPart (.square (Fin.ofNat 64 n))).getD 0xFF
    let v := insField (s.reg a) 7 1 (s.on (F.SQ_REST_REQUEST n) || s.on (F.SQ_REST_FORCE n)).toNat
    insField (insField v 8 3 (if p < 8 then p else 0)) 11 1 (decide (p < 8)).toNat
  else if off = 0x10 then insField (s.reg a) 28 3 s.moduleNo
  else if off = 0x68 then s.reg a + routerPorts n
  else if off = 0xA0 then (s.sqr n).outMask + (s.sqr n).doneMask * 2 ^ 32
  else s.reg a

/-- The RC fields of a register cleared by a read (R10). -/
def State.clearRc (s : State) (addr : Nat) : State :=
  match regSpec addr with
  | some r => if r.mask .rc = 0 then s else s.setReg addr (s.reg addr &&& (0xFFFFFFFFFFFFFFFF ^^^ r.mask .rc))
  | none => s

def half0 : HalfLatch := ⟨0, 0⟩

/-- A 32-bit load of a register's half by a requester (R10): the low half reads and clears the whole register and keeps the
high half; the high half answers the kept one when the requester's previous access was the low half of the same register. -/
def State.halfRead (s : State) (r : Req) (reg : Nat) (high : Bool) (view : Nat) (clear : State → State) : Nat × State :=
  let k := r.num
  if high then
    let h := mget half0 s.half k
    (if h.addr = reg ∧ reg ≠ 0 then h.high else view / 2 ^ 32, { s with half := mset half0 s.half k half0 })
  else
    let s := clear s
    (view % 2 ^ 32, { s with half := mset half0 s.half k ⟨reg, view / 2 ^ 32⟩ })

end Sys2Proof.Machine
end

