-- ==== Sys2Proof/Machine/RvOps.lean ====
section
/-!
DEFINITION. The sequencer of a square: RV32IMC decoding and execution, its CSRs, traps and interrupts, and the tensor
instructions (R139 to R145, R157, R161; 06_grid.md).
-/

namespace Sys2Proof.Machine

def w32 (v : Nat) : Nat := v % 2 ^ 32
def s32 (v : Nat) : Int := sgn 32 v
def u32 (v : Int) : Nat := unsgn 32 v

def SqSt.rx (q : Sys2Proof.Machine.SqSt) (i : Nat) : Nat := if i = 0 then 0 else mget 0 q.x i
def SqSt.wx (q : Sys2Proof.Machine.SqSt) (i v : Nat) : Sys2Proof.Machine.SqSt :=
  if i = 0 then q else { q with x := mset 0 q.x i (w32 v) }

/-! ### Encodings -/

def encI (imm : Int) (rs1 f3 rd op : Nat) : Nat := unsgn 12 imm * 2 ^ 20 + rs1 * 2 ^ 15 + f3 * 2 ^ 12 + rd * 2 ^ 7 + op
def encR (f7 rs2 rs1 f3 rd op : Nat) : Nat := f7 * 2 ^ 25 + rs2 * 2 ^ 20 + rs1 * 2 ^ 15 + f3 * 2 ^ 12 + rd * 2 ^ 7 + op
def encS (imm rs2 rs1 f3 : Nat) : Nat := encR (bits imm 5 7) rs2 rs1 f3 (bits imm 0 5) 0x23
def encB (imm : Int) (rs2 rs1 f3 : Nat) : Nat :=
  let v := unsgn 13 imm
  encR (bits v 12 1 * 64 + bits v 5 6) rs2 rs1 f3 (bits v 1 4 * 2 + bits v 11 1) 0x63
def encJ (imm : Int) (rd : Nat) : Nat :=
  let v := unsgn 21 imm
  bits v 20 1 * 2 ^ 31 + bits v 1 10 * 2 ^ 21 + bits v 11 1 * 2 ^ 20 + bits v 12 8 * 2 ^ 12 + rd * 2 ^ 7 + 0x6F

/-- The base instruction a 16-bit instruction of RV32C stands for; none for a reserved encoding or one of an extension the
sequencer does not have. -/
def expandC (h : Nat) : Option Nat :=
  let f3 := bits h 13 3
  let rd := bits h 7 5
  let rs2 := bits h 2 5
  let rdq := 8 + bits h 2 3
  let rs1q := 8 + bits h 7 3
  let imm6 : Int := sgn 6 (bits h 12 1 * 32 + bits h 2 5)
  let b (i : Nat) : Nat := bits h i 1
  let jimm : Int := sgn 12 (b 12 * 2048 + b 8 * 1024 + bits h 9 2 * 256 + b 6 * 128 + b 7 * 64 + b 2 * 32 + b 11 * 16 + bits h 3 3 * 2)
  let bimm : Int := sgn 9 (b 12 * 256 + bits h 5 2 * 64 + b 2 * 32 + bits h 10 2 * 8 + bits h 3 2 * 2)
  let lwimm := b 5 * 64 + bits h 10 3 * 8 + b 6 * 4
  match bits h 0 2, f3 with
  | 0, 0 =>
    let imm := bits h 7 4 * 64 + bits h 11 2 * 16 + b 5 * 8 + b 6 * 4
    if imm = 0 then none else some (encI imm 2 0 rdq 0x13)
  | 0, 2 => some (encI lwimm rs1q 2 rdq 0x03)
  | 0, 6 => some (encS lwimm rdq rs1q 2)
  | 1, 0 => some (encI imm6 rd 0 rd 0x13)
  | 1, 1 => some (encJ jimm 1)
  | 1, 2 => some (encI imm6 0 0 rd 0x13)
  | 1, 3 =>
    if rd = 2 then
      let imm : Int := sgn 10 (b 12 * 512 + bits h 3 2 * 128 + b 5 * 64 + b 2 * 32 + b 6 * 16)
      if imm = 0 then none else some (encI imm 2 0 2 0x13)
    else if imm6 = 0 then none
    else some (unsgn 20 imm6 * 2 ^ 12 + rd * 2 ^ 7 + 0x37)
  | 1, 4 =>
    match bits h 10 2 with
    | 0 => if b 12 = 1 then none else some (encI (rs2 : Nat) rs1q 5 rs1q 0x13)
    | 1 => if b 12 = 1 then none else some (encI ((rs2 + 0x400 : Nat) : Int) rs1q 5 rs1q 0x13)
    | 2 => some (encI imm6 rs1q 7 rs1q 0x13)
    | _ =>
      if b 12 = 1 then none
      else
        match bits h 5 2 with
        | 0 => some (encR 0x20 rdq rs1q 0 rs1q 0x33)
        | 1 => some (encR 0 rdq rs1q 4 rs1q 0x33)
        | 2 => some (encR 0 rdq rs1q 6 rs1q 0x33)
        | _ => some (encR 0 rdq rs1q 7 rs1q 0x33)
  | 1, 5 => some (encJ jimm 0)
  | 1, 6 => some (encB bimm 0 rs1q 0)
  | 1, 7 => some (encB bimm 0 rs1q 1)
  | 2, 0 => if b 12 = 1 then none else some (encI (rs2 : Nat) rd 1 rd 0x13)
  | 2, 2 =>
    if rd = 0 then none else some (encI ((bits h 2 2 * 64 + b 12 * 32 + bits h 4 3 * 4 : Nat) : Int) 2 2 rd 0x03)
  | 2, 4 =>
    if b 12 = 0 then
      if rs2 = 0 then (if rd = 0 then none else some (encI 0 rd 0 0 0x67)) else some (encR 0 rs2 0 0 rd 0x33)
    else if rs2 = 0 then (if rd = 0 then some 0x00100073 else some (encI 0 rd 0 1 0x67))
    else some (encR 0 rs2 rd 0 rd 0x33)
  | 2, 6 => some (encS (bits h 7 2 * 64 + bits h 9 4 * 4) rs2 2 2)
  | _, _ => none

/-! ### Fetch -/

/-- What a fetch gives: a word as fetched, its base instruction (none: illegal) and its length; an exception; or an
uncorrectable word. -/
inductive Fetched where
  | word (raw : Nat) (w : Option Nat) (len : Nat)
  | trap (cause tval : Nat)
  | bad
  deriving DecidableEq, Repr

def State.fetchAt (s : State) (n pc : Nat) : Fetched :=
  if pc % 2 = 1 then .trap 0 pc
  else if s.storeBadRange n pc 2 then .trap 1 pc
  else if s.badAt (storeBase n + pc) 2 then .bad
  else
    let lo := s.ld (storeBase n + pc) 2
    if lo % 4 ≠ 3 then .word lo (expandC lo) 2
    else if s.storeBadRange n (pc + 2) 2 then .trap 1 (pc + 2)
    else if s.badAt (storeBase n + pc + 2) 2 then .bad
    else
      let w := lo + s.ld (storeBase n + pc + 2) 2 * 65536
      .word w (some w) 4

/-! ### Traps and interrupts (R139, R140) -/

/-- Takes a trap: into the handler, or into FAULT where R140 says so. -/
def State.sqTrap (s : State) (n cause tval : Nat) (irq : Bool) : State :=
  let q := s.sqr n
  if !irq && s.on (F.SQ_STATE_IN_HANDLER n) then s.sqFault n 1 cause tval irq
  else if q.mtvec / 4 = 0 then s.sqFault n 2 cause tval irq
  else if s.on (F.SQ_CFG_TRAP_FAULT n) then s.sqFault n 3 cause tval irq
  else
    (s.setSq n { q with
      mepc := q.pc, mcause := cause + (if irq then 2 ^ 31 else 0), mtval := tval, mpie := q.mie, mie := false,
      pc := q.mtvec / 4 * 4 }).wr (F.SQ_STATE_IN_HANDLER n) 1

/-- mip: MSG [16], TAG [17], EVENT [18], REST [19]. -/
def State.sqMip (s : State) (n : Nat) : Nat :=
  let q := s.sqr n
  let msg := (List.range 8).any (fun p => bit q.msgMask p && !(q.inbound p).isEmpty)
  msg.toNat * 2 ^ 16 + (decide (q.doneMask ≠ 0)).toNat * 2 ^ 17 + (s.on (F.SQ_EVENT_EVENT n)).toNat * 2 ^ 18 +
    (s.on (F.SQ_REST_REQUEST n)).toNat * 2 ^ 19

/-- The enabled pending interrupts, as bit numbers. -/
def State.sqIrqs (s : State) (n : Nat) : List Nat :=
  if (s.sqr n).mie then [16, 17, 18, 19].filter (fun i => bit (s.sqMip n) i && bit (s.sqr n).ie i) else []

/-! ### CSRs -/

/-- FABRIC_CLK cycles since mcycle's origin. -/
def State.sqCycles (s : State) (n : Nat) : Nat :=
  (s.fab / 1000 + 2 ^ 64 - (s.sqr n).cycle0 % 2 ^ 64) % 2 ^ 64

/-- A CSR's value, and the state after the read (txtimelo latches); none for a CSR that does not exist. The TS64 latched
lies within 50 ns of the timebase: a free value in that range. -/
def State.csrRead (s : State) (n c : Nat) : Option (Nat × State) :=
  let q := s.sqr n
  let v (x : Nat) : Option (Nat × State) := some (w32 x, s)
  if c = 0x300 then v (q.mie.toNat * 8 + q.mpie.toNat * 128)
  else if c = 0x304 then v q.ie
  else if c = 0x305 then v q.mtvec
  else if c = 0x340 then v q.mscratch
  else if c = 0x341 then v q.mepc
  else if c = 0x342 then v q.mcause
  else if c = 0x343 then v q.mtval
  else if c = 0x344 then v (s.sqMip n)
  else if c = 0xB00 then v (s.sqCycles n)
  else if c = 0xB80 then v (s.sqCycles n / 2 ^ 32)
  else if c = 0xB02 then v q.instret
  else if c = 0xB82 then v (q.instret / 2 ^ 32)
  else if c = 0xF14 then v (s.moduleNo * 64 + n)
  else if c = 0x7C0 then v q.msgMask
  else if c = 0xFC0 then v (s.epochOf (sqUnit n))
  else if c = 0xFC1 then v q.doneMask
  else if c = 0xFC2 then
    let (x, s) := s.draw 31
    let t := ((s.ts64 (s.rd (F.SQ_CFG_TB n)) : Int) + (x % 101 : Nat) - 50).toNat
    some (w32 t, s.setSq n { s.sqr n with ts := t })
  else if c = 0xFC3 then v (q.ts / 2 ^ 32)
  else none

/-- A CSR written; the read-only ones are not reached. -/
def State.csrWrite (s : State) (n c v : Nat) : State :=
  let q := s.sqr n
  let cyc (x : Nat) : SqSt := { q with cycle0 := (s.fab / 1000 + 2 ^ 64 - x) % 2 ^ 64 }
  s.setSq n (
    if c = 0x300 then { q with mie := bit v 3, mpie := bit v 7 }
    else if c = 0x304 then { q with ie := v &&& 0xF0000 }
    else if c = 0x305 then { q with mtvec := v }
    else if c = 0x340 then { q with mscratch := v }
    else if c = 0x341 then { q with mepc := v }
    else if c = 0x342 then { q with mcause := v }
    else if c = 0x343 then { q with mtval := v }
    else if c = 0xB00 then cyc (insField (s.sqCycles n) 0 32 v)
    else if c = 0xB80 then cyc (insField (s.sqCycles n) 32 32 v)
    else if c = 0xB02 then { q with instret := insField q.instret 0 32 v }
    else if c = 0xB82 then { q with instret := insField q.instret 32 32 v }
    else if c = 0x7C0 then { q with msgMask := v % 256 }
    else q)

/-- Top bits 0b11 of a CSR's number: read only. -/
def csrRo (c : Nat) : Bool := c = 0x344 ∨ c / 0x400 = 3

/-! ### Loads and stores -/

/-- What an instruction leads to: a state, or an exception. -/
inductive RvRes where
  | ok (s : State)
  | trap (cause tval : Nat)
  | trapIn (cause tval : Nat) (s : State)
  deriving DecidableEq, Repr

/-- The instruction retires: the pc at `pc`, one more instruction retired. -/
def State.retire (s : State) (n pc : Nat) : State :=
  s.setSq n { s.sqr n with pc := w32 pc, instret := ((s.sqr n).instret + 1) % 2 ^ 64 }

def State.setX (s : State) (n rd v : Nat) : State := s.setSq n ((s.sqr n).wx rd v)

/-- The square's own register block in its address space. -/
def inRegs (a : Nat) : Bool := 0x800000 ≤ a ∧ a < 0x810000

/-- A load of `size` bytes into rd, sign-extended where `sx`. -/
def State.rvLoad (s : State) (n a size rd : Nat) (sx : Bool) (next : Nat) : RvRes :=
  let ext (v : Nat) : Nat := if sx then u32 (sgn (8 * size) v) else v
  if a % size ≠ 0 then .trap 4 a
  else if inRegs a then
    if size ≠ 4 then .trap 5 a
    else
      let off := a % 0x10000 / 8 * 8
      let reg := R.SQ_CTRL n + off
      let (v, s) := s.halfRead (.square (Fin.ofNat 64 n)) reg (decide (a % 8 = 4)) (s.sqView n off) (fun s => s.clearRc reg)
      .ok ((s.retire n next).setX n rd v)
  else if s.storeBadRange n a size then .trap 5 a
  else if s.badAt (storeBase n + a) size then
    .trapIn 25 a ((s.bump (F.SQ_ECC_UNCORRECTED n)).wr (F.SQ_ECC_LAST_ADDR n) a)
  else .ok ((s.retire n next).setX n rd (ext (s.ld (storeBase n + a) size)))

/-- A store of the low `size` bytes of v. A store to the register block acts once the instruction has retired. -/
def State.rvStore (s : State) (n a size v next : Nat) : RvRes :=
  if a % size ≠ 0 then .trap 6 a
  else if inRegs a then
    if size ≠ 4 then .trap 7 a
    else
      let r : Req := .square (Fin.ofNat 64 n)
      let high := decide (a % 8 = 4)
      let d : WData := ⟨if high then .high else .low, BitVec.ofNat 64 (if high then v * 2 ^ 32 else v)⟩
      let s := { s.retire n next with half := mset half0 s.half r.num half0 }
      .ok (s.sqWrite r n (a % 0x10000 / 8 * 8) d)
  else if s.storeBadRange n a size then .trap 7 a
  else .ok ((s.retire n next).st (storeBase n + a) size v)

/-! ### RV32IM -/

/-- The result of an OP or OP-IMM function; none where it is not defined. -/
def rvAlu (f7 f3 a b : Nat) : Option Nat :=
  let sh := b % 32
  match f7, f3 with
  | 0, 0 => some (w32 (a + b))
  | 0x20, 0 => some (u32 (s32 a - s32 b))
  | 0, 1 => some (w32 (a * 2 ^ sh))
  | 0, 2 => some (decide (s32 a < s32 b)).toNat
  | 0, 3 => some (decide (a < b)).toNat
  | 0, 4 => some (a ^^^ b)
  | 0, 5 => some (a / 2 ^ sh)
  | 0x20, 5 => some (u32 (s32 a / ((2 ^ sh : Nat) : Int)))
  | 0, 6 => some (a ||| b)
  | 0, 7 => some (a &&& b)
  | 1, 0 => some (w32 (a * b))
  | 1, 1 => some (u32 (s32 a * s32 b / ((2 ^ 32 : Nat) : Int)))
  | 1, 2 => some (u32 (s32 a * (b : Int) / ((2 ^ 32 : Nat) : Int)))
  | 1, 3 => some (a * b / 2 ^ 32)
  | 1, 4 => some (if b = 0 then 0xFFFFFFFF else u32 (Int.tdiv (s32 a) (s32 b)))
  | 1, 5 => some (if b = 0 then 0xFFFFFFFF else a / b)
  | 1, 6 => some (if b = 0 then a else u32 (Int.tmod (s32 a) (s32 b)))
  | 1, 7 => some (if b = 0 then a else a % b)
  | _, _ => none

/-- Whether a conditional branch is taken; none for an undefined condition. -/
def rvTaken (f3 a b : Nat) : Option Bool :=
  match f3 with
  | 0 => some (decide (a = b))
  | 1 => some (decide (a ≠ b))
  | 4 => some (decide (s32 a < s32 b))
  | 5 => some (decide (s32 b ≤ s32 a))
  | 6 => some (decide (a < b))
  | 7 => some (decide (b ≤ a))
  | _ => none

/-- A CSR instruction (f3 1 to 3, 5 to 7). -/
def State.rvCsr (s : State) (n raw w next : Nat) : RvRes :=
  let f3 := bits w 12 3
  let c := bits w 20 12
  let rs1 := bits w 15 5
  let rd := bits w 7 5
  let src := if 4 ≤ f3 then rs1 else (s.sqr n).rx rs1
  let writes := f3 % 4 = 1 ∨ rs1 ≠ 0
  match s.csrRead n c with
  | none => .trap 2 raw
  | some (old, s) =>
    if writes ∧ csrRo c then .trap 2 raw
    else
      let v := if f3 % 4 = 1 then src else if f3 % 4 = 2 then old ||| src else old &&& (0xFFFFFFFF ^^^ src)
      let s := (s.retire n next).setX n rd old
      .ok (if writes then s.csrWrite n c v else s)

/-- A base instruction at the pc, of `len` bytes as fetched; `raw` is the encoding fetched (mtval of an illegal one). -/
def State.rvBase (s : State) (n raw w len : Nat) : RvRes :=
  let q := s.sqr n
  let next := q.pc + len
  let rd := bits w 7 5
  let f3 := bits w 12 3
  let f7 := bits w 25 7
  let a := q.rx (bits w 15 5)
  let b := q.rx (bits w 20 5)
  let immI : Int := sgn 12 (bits w 20 12)
  let immS : Int := sgn 12 (f7 * 32 + rd)
  let immB : Int := sgn 13 (bits w 31 1 * 4096 + bits w 7 1 * 2048 + bits w 25 6 * 32 + bits w 8 4 * 2)
  let immJ : Int := sgn 21 (bits w 31 1 * 2 ^ 20 + bits w 12 8 * 4096 + bits w 20 1 * 2048 + bits w 21 10 * 2)
  let immU := bits w 12 20 * 4096
  let put (v : Nat) : RvRes := .ok ((s.retire n next).setX n rd v)
  let jump (t : Nat) : RvRes := if t % 2 = 1 then .trap 0 t else .ok ((s.retire n t).setX n rd next)
  match bits w 0 7 with
  | 0x37 => put immU
  | 0x17 => put (q.pc + immU)
  | 0x6F => jump (u32 ((q.pc : Int) + immJ))
  | 0x67 => if f3 = 0 then jump (u32 ((a : Int) + immI) / 2 * 2) else .trap 2 raw
  | 0x63 =>
    match rvTaken f3 a b with
    | none => .trap 2 raw
    | some t => .ok (s.retire n (if t then u32 ((q.pc : Int) + immB) else next))
  | 0x03 =>
    let ea := u32 ((a : Int) + immI)
    match f3 with
    | 0 => s.rvLoad n ea 1 rd true next
    | 1 => s.rvLoad n ea 2 rd true next
    | 2 => s.rvLoad n ea 4 rd false next
    | 4 => s.rvLoad n ea 1 rd false next
    | 5 => s.rvLoad n ea 2 rd false next
    | _ => .trap 2 raw
  | 0x23 =>
    let ea := u32 ((a : Int) + immS)
    if f3 < 3 then s.rvStore n ea (2 ^ f3) (b % 2 ^ (8 * 2 ^ f3)) next else .trap 2 raw
  | 0x13 =>
    let f := if f3 = 1 ∨ f3 = 5 then f7 else 0
    if (f3 = 1 ∧ f7 ≠ 0) ∨ f = 1 then .trap 2 raw
    else
      match rvAlu f f3 a (if f3 = 1 ∨ f3 = 5 then bits w 20 5 else u32 immI) with
      | some v => put v
      | none => .trap 2 raw
  | 0x33 =>
    match rvAlu f7 f3 a b with
    | some v => put v
    | none => .trap 2 raw
  | 0x0F => if f3 = 0 then .ok (s.retire n next) else .trap 2 raw
  | 0x73 =>
    if w = 0x00000073 then .trap 11 0
    else if w = 0x00100073 then .trap 3 0
    else if w = 0x30200073 then
      if q.mepc % 2 = 1 then .trap 0 q.mepc
      else
        let s := (s.retire n q.mepc).wr (F.SQ_STATE_IN_HANDLER n) 0
        .ok (s.setSq n { s.sqr n with mie := q.mpie, mpie := true })
    else if f3 = 0 ∨ f3 = 4 then .trap 2 raw
    else s.rvCsr n raw w next
  | _ => .trap 2 raw

/-! ### Tensor instructions -/

/-- A tensor instruction ("Tensor instruction encodings"). -/
inductive Tx where
  | mm | wload | vec (fn : Nat) | quant | move | dma
  | send | recv (blocking : Bool) | wait | poll | fence | rest | halt
  deriving DecidableEq, Repr

/-- The function codes of the vector unit. -/
def vecCodes : List Nat :=
  [0x00, 0x01, 0x02, 0x03, 0x04, 0x05, 0x06, 0x07, 0x10, 0x11, 0x12, 0x13, 0x14, 0x15, 0x16, 0x20, 0x21, 0x22, 0x23, 0x24,
    0x25, 0x26, 0x30, 0x31, 0x32, 0x40, 0x48, 0x49]

/-- The tensor instruction of a word; none where it is no legal one. -/
def txDecode (w : Nat) : Option Tx :=
  let f3 := bits w 12 3
  let f7 := bits w 25 7
  let rs2 := bits w 20 5
  let rs1 := bits w 15 5
  let rd := bits w 7 5
  if bits w 0 7 = 0x0B then
    if rs2 ≠ 0 then none
    else if f3 = 2 then (if f7 ∈ vecCodes then some (.vec f7) else none)
    else if f7 ≠ 0 then none
    else
      match f3 with
      | 0 => some .mm
      | 1 => some .wload
      | 3 => some .quant
      | 4 => some .move
      | 5 => some .dma
      | _ => none
  else if bits w 0 7 = 0x2B then
    if f3 = 1 then (if f7 = 0 then some (.recv false) else if f7 = 1 then some (.recv true) else none)
    else if f7 ≠ 0 ∨ rs2 ≠ 0 then none
    else
      match f3 with
      | 0 => some .send
      | 2 => some .wait
      | 3 => some .poll
      | 4 => if rs1 = 0 ∧ rd = 0 then some .fence else none
      | 5 => if rs1 = 0 then some .rest else none
      | 6 => if rs1 = 0 ∧ rd = 0 then some .halt else none
      | _ => none
  else none

/-- One issue of the sequencer: a pending enabled interrupt is taken first, among several a free one (a blocked TX.WAIT or
TX.RECV is not at a boundary); then the fetch, its exceptions, and `act` on an instruction that is `mine`. -/
def State.sqIssue (s : State) (n : Nat) (mine : Option Nat → Bool) (act : State → Nat → Option Nat → Nat → State) : State :=
  if !s.sqIssues n then s
  else
    let irqs := s.sqIrqs n
    if s.sqRun n = runRunning ∧ irqs ≠ [] then
      let (x, s) := s.draw 32
      s.sqTrap n (irqs.getD (x % irqs.length) 16) 0 true
    else
      match s.fetchAt n (s.sqr n).pc with
      | .bad => s.sqFault n 4 0 0 false
      | .trap c t => s.sqTrap n c t false
      | .word raw w len => if mine w then act s raw w len else s

/-- One issue of a tensor instruction of a kind; a fence that stands holds it until the tensor queue is empty (R143). -/
def State.txIssue (s : State) (n : Nat) (mine : Tx → Bool) (act : State → Tx → Nat → State) : State :=
  s.sqIssue n (fun w => match w.bind txDecode with | some t => mine t | none => false) (fun s _ w _ =>
    match w.bind txDecode with
    | none => s
    | some t =>
      if (s.sqr n).fence ∧ (s.sqr n).txq ≠ [] then s
      else act (s.setSq n { s.sqr n with fence := false }) t (w.getD 0))

/-- The instruction's end: rd written, the pc past it, running. -/
def State.txDone (s : State) (n w v : Nat) : State :=
  ((s.retire n ((s.sqr n).pc + 4)).setX n (bits w 7 5) v).wr (F.SQ_STATE_RUN n) runRunning

/-- A local check fails: no tag, 0x8000_0000 with the status (R142). -/
def State.txFail (s : State) (n w st : Nat) : State := s.txDone n w (0x80000000 + st)

/-- Takes the lowest free tag; without one the instruction stalls, or raises TAG_EXHAUSTED when none is outstanding (R141). -/
def State.txTag (s : State) (n : Nat) (act : Nat → State) : State :=
  match (s.sqr n).freeTag with
  | some t => act t
  | none => if (s.sqr n).outMask = 0 then s.sqTrap n 24 0 false else s

/-- An operation instruction: its descriptor is checked, and it takes a tag and enters the tensor queue; a full queue stalls
(R141 to R143). -/
def State.txEnqueue (s : State) (n w lane fn : Nat) (quant : Bool) : State :=
  let a := (s.sqr n).rx (bits w 15 5)
  if a % 64 ≠ 0 ∨ s.storeBadRange n a 64 = true then s.txFail n w St.badArgument
  else if 16 ≤ (s.sqr n).txq.length then s
  else s.txTag n (fun t =>
    let d := s.bytes (storeBase n + a) 64
    let fn := if lane = 3 then field d 16 1 else fn
    let s := s.setSq n ((s.sqr n).setTag t ⟨1, 0, none⟩)
    (s.setTxq n ((s.sqr n).txq ++ [⟨lane, quant, fn, a, d, t, false, none, none⟩])).txDone n w t)

/-- A message header's 16 bytes ("Message header"). -/
def msgHeader (m : Msg) : Nat :=
  m.dest % 2 ^ 16 + m.destModule % 8 * 2 ^ 16 + m.poison.toNat * 2 ^ 19 + m.src % 2 ^ 16 * 2 ^ 20 + m.srcModule % 8 * 2 ^ 36 +
    m.cls % 8 * 2 ^ 40 + m.prio % 8 * 2 ^ 43 + m.kind % 4 * 2 ^ 46 + m.op % 256 * 2 ^ 48 + m.tag % 256 * 2 ^ 56 +
    m.epoch % 2 ^ 16 * 2 ^ 64 + m.payload.length % 2 ^ 13 * 2 ^ 80 + m.part % 8 * 2 ^ 93 + m.status % 256 * 2 ^ 96 +
    m.channel % 256 * 2 ^ 104 + m.user % 2 ^ 16 * 2 ^ 112

/-- Whether a module is reached over an enabled link (R142, R163). -/
def State.moduleReached (s : State) (m : Nat) : Bool := s.on (F.NET_ROUTE_VALID m)

/-- TX.SEND (R141, R142, R154, R159). -/
def State.txSend (s : State) (n w : Nat) : State :=
  let a := (s.sqr n).rx (bits w 15 5)
  if a % 64 ≠ 0 ∨ s.storeBadRange n a 16 = true then s.txFail n w St.badArgument
  else
    let h := s.ld (storeBase n + a) 16
    let len := bits h 80 13
    let dest := bits h 0 16
    let dm := bits h 16 3
    let cls := bits h 40 3
    let kind := bits h 46 2
    if s.storeBadRange n a (16 + len) = true ∨ 4096 < len ∨ 2 ≤ kind ∨ (cls ≠ 3 ∧ (cls ≠ 1 ∨ dest / 0x1000 ≠ 0xA)) then
      s.txFail n w St.badArgument
    else if dm = s.moduleNo ∧ dest / 0x1000 = 1 ∧ s.present dest = false then s.txFail n w St.absent
    else if dm ≠ s.moduleNo ∧ s.moduleReached dm = false then s.txFail n w St.absent
    else
      let go (t : Nat) : State :=
        let p := (s.unitPart (sqUnit n)).getD 0
        let m : Msg := ⟨dest, dm, s.badAt (storeBase n + a + 16) len, sqUnit n, s.moduleNo, cls, bits h 43 3, kind, bits h 48 8, t,
          s.epochOf (sqUnit n), p, 0, bits h 104 8, bits h 112 16, s.bytes (storeBase n + a + 16) len⟩
        let s := if kind = 0 then
            (s.setSq n ((s.sqr n).setTag t ⟨1, 0, s.cacheGet n dm dest⟩)).cacheTouch n dm dest
          else s
        ((s.bumpW (F.SQ_MSG_COUNTS_SENT n)).send m).txDone n w t
      if kind = 0 then s.txTag n go else go 0xFF

/-- The highest-priority non-empty inbound queue of a mask. -/
def SqSt.pickQueue (q : Sys2Proof.Machine.SqSt) (mask : Nat) : Option Nat :=
  [7, 6, 5, 4, 3, 2, 1, 0].find? (fun p => bit mask p && !(q.inbound p).isEmpty)

/-- TX.RECV (R157). -/
def State.txRecv (s : State) (n w : Nat) (blocking : Bool) : State :=
  let q := s.sqr n
  let a := q.rx (bits w 15 5)
  let r2 := q.rx (bits w 20 5)
  let limit := if bits r2 16 13 = 0 then 4096 else bits r2 16 13
  if a % 64 ≠ 0 ∨ s.storeBadRange n a 16 = true then s.txFail n w St.badArgument
  else
    match q.pickQueue (r2 % 256) with
    | none =>
      if blocking ∧ s.sqIrqs n = [] then s.wr (F.SQ_STATE_RUN n) runWaiting
      else s.txDone n w 0x80000000
    | some p =>
      match q.inbound p with
      | [] => s
      | m :: rest =>
        let len := m.payload.length
        if limit < len then s.txDone n w (2 ^ 30 + p * 2 ^ 13 + len)
        else if s.storeBadRange n a (16 + len) then s.txFail n w St.badArgument
        else
          let s := (s.setInq n p rest).store (storeBase n + a) (toBytes 16 (msgHeader m) ++ m.payload)
          let s := s.bumpW (F.SQ_MSG_COUNTS_RECEIVED n)
          let s := if m.kind = 0 then s.send (replyTo s m 0x10 St.ok []) else s
          s.txDone n w (len + p * 2 ^ 13 + m.poison.toNat * 2 ^ 29)

/-- TX.WAIT (R144): blocks while a tag of the mask is outstanding; then the first status that is not OK, and the tags freed. -/
def State.txWait (s : State) (n w : Nat) : State :=
  let q := s.sqr n
  let mask := q.rx (bits w 15 5)
  if q.outMask &&& mask ≠ 0 then s.wr (F.SQ_STATE_RUN n) runWaiting
  else
    let bad := (List.range 32).find? (fun t => bit mask t && decide ((q.tag t).st = 2) && decide ((q.tag t).status ≠ St.ok))
    let v := match bad with
      | some t => (q.tag t).status + t * 256
      | none => St.ok
    (s.setSq n (q.freeTags mask)).txDone n w v

/-- TX.REST (R161, R162): with a request standing the boundary of the rest, else 1. -/
def State.txRest (s : State) (n w : Nat) : State :=
  if s.on (F.SQ_CFG_REST_EN n) ∧ s.on (F.SQ_REST_REQUEST n) then s.sqRestAt n (some (bits w 7 5)) false
  else s.txDone n w 1

/-- The sequencer executes the instruction at its pc where that is an RV32IMC instruction, TX.VEC or TX.MOVE, or no legal
instruction; the other tensor instructions have commands of their own. -/
def State.rvStep (s : State) (n : Nat) : State :=
  s.sqIssue n (fun w => match w.bind txDecode with
      | some (.vec _) => true
      | some .move => true
      | some _ => false
      | none => true) (fun s raw w len =>
    match w with
    | none => s.sqTrap n 2 raw false
    | some w =>
      match txDecode w with
      | some t =>
        if (s.sqr n).fence ∧ (s.sqr n).txq ≠ [] then s
        else
          let s := s.setSq n { s.sqr n with fence := false }
          match t with
          | .vec fn => s.txEnqueue n w 2 fn false
          | _ => s.txEnqueue n w 3 0 false
      | none =>
        match s.rvBase n raw w len with
        | .ok s => s
        | .trap c t => s.sqTrap n c t false
        | .trapIn c t s => s.sqTrap n c t false)

end Sys2Proof.Machine
end

