-- ==== Sys2Proof/Machine/ArithOps.lean ====
section
/-!
DEFINITION. The array of a square: weight tiles, weight-stationary and output-stationary products, their sums and outputs;
quantisation; and the STATUS word (R166 to R185; 07_arithmetic.md).
-/

namespace Sys2Proof.Machine

/-! ### Elements in the local store -/

/-- Codes of packed elements: 4-bit ones low nibble first, others little-endian (R166). -/
def unpackGo (bits : Nat) : Nat → List Byte → List Nat
  | 0, _ => []
  | k + 1, l =>
    if bits = 4 then
      match l with
      | [] => []
      | b :: r => b.toNat % 16 :: b.toNat / 16 :: unpackGo bits k r
    else if l.isEmpty then [] else ofBytes (l.take (bits / 8)) :: unpackGo bits k (l.drop (bits / 8))

/-- The first `n` element codes of a row. -/
def unpack (bits n : Nat) (l : List Byte) : List Nat := (unpackGo bits (n + 1) l).take n

/-- Element codes packed into bytes. -/
def pack (bits : Nat) (l : List Nat) : List Byte :=
  if bits = 4 then
    let rec go : List Nat → List Byte
      | [] => []
      | [a] => [BitVec.ofNat 8 (a % 16)]
      | a :: b :: r => BitVec.ofNat 8 (a % 16 + b % 16 * 16) :: go r
    go l
  else l.flatMap (toBytes (bits / 8))

def rowBytes (code n : Nat) : Nat := ceilDiv (n * elemBits code) 8

/-- The codes of `n` elements of a format at a store offset of square k. -/
def State.rowAt (s : State) (k off code n : Nat) : List Nat :=
  unpack (elemBits code) n (s.bytes (storeBase k + off) (rowBytes code n))

/-- Rows of `bytes` bytes, `stride16` × 16 apart, lie in the store and start on 16-byte boundaries. -/
def State.rowsOk (s : State) (n a stride16 rows bytes : Nat) : Bool :=
  decide (a % 16 = 0) && decide (s.ctxLo n ≤ a) && decide (a + (rows - 1) * stride16 * 16 + bytes ≤ s.storeEnd n)

/-- Block scales: `stride` bytes apart, on 16-byte boundaries as every address and stride (R173). -/
def State.scalesOk (s : State) (n a stride rows bytes : Nat) : Bool :=
  decide (a % 16 = 0) && decide (stride % 16 = 0) && decide (s.ctxLo n ≤ a) && decide (a + (rows - 1) * stride + bytes ≤ s.storeEnd n)

/-- Whether any of the rows holds an uncorrectable word. -/
def State.rowsBad (s : State) (n a stride16 rows bytes : Nat) : Bool :=
  !s.badWords.isEmpty && (List.range rows).any (fun r => s.badAt (storeBase n + a + r * stride16 * 16) bytes)

/-! ### Values of operands (R168) -/

/-- The formats that may carry block scales, with the largest element exponent. -/
def mxMax (code : Nat) : Option Int :=
  if code = 1 then some 0 else if code = 5 then some 8 else if code = 6 then some 15 else if code = 4 then some 2 else none

/-- The value of an element of a block-scaled tensor with scale code c. -/
def mxVal (code v c : Nat) : Val :=
  if c = 0xFF then .nan
  else ((decElem code v).scale2 (if code = 1 then -6 else 0)).scale2 ((c : Int) - 127)

/-- An operand's value: block-scaled where its format carries the flag (log entry 24). -/
def opVal (fmt v c : Nat) : Val := if bit fmt 4 then mxVal (fmt % 16) v c else decElem fmt v

/-! ### STATUS (R180) -/

/-- The flags and count an operation gathers. -/
structure TxFlags where
  accSat : Bool
  accInf : Bool
  nanIn : Bool
  nanOut : Bool
  infOut : Bool
  under : Bool
  masked : Bool
  sats : Nat
  deriving DecidableEq, Repr

def tx0 : TxFlags := ⟨false, false, false, false, false, false, false, 0⟩

def TxFlags.word (f : Sys2Proof.Machine.TxFlags) : Nat :=
  f.accSat.toNat + f.accInf.toNat * 2 + (decide (0 < f.sats)).toNat * 4 + f.nanIn.toNat * 8 + f.nanOut.toNat * 16 +
    f.infOut.toNat * 32 + f.under.toNat * 64 + f.masked.toNat * 128 + min f.sats 65535 * 65536

/-- The flags of one conversion joined in. -/
def TxFlags.conv (f : Sys2Proof.Machine.TxFlags) (c : CvFlags) : Sys2Proof.Machine.TxFlags :=
  { f with
    nanIn := f.nanIn || c.nanIn, nanOut := f.nanOut || c.nanOut, infOut := f.infOut || c.infOut,
    under := f.under || c.under, sats := f.sats + c.sat.toNat }

/-- Values converted one after the other into codes, with the flags. -/
def convRow (code : Nat) (sat : Bool) (l : List Val) (f : TxFlags) : List Nat × TxFlags :=
  let (r, f) := l.foldl (fun (a : List Nat × TxFlags) v =>
    let (c, fl) := convElem code sat v
    (c :: a.1, a.2.conv fl)) ([], f)
  (r.reverse, f)

/-- The result of an operation: its tag's status, its STATUS word, and the state after it. -/
abbrev TxRes := Nat × Option Nat × State

/-- STATUS written into the operation's own descriptor; nothing with BAD_ARGUMENT (R180, R204). -/
def State.putStatus (s : State) (n at_ w : Nat) : State := s.st (storeBase n + at_ + 60) 4 w

/-- An operation stops at an uncorrectable word (R181): the record, INTEGRITY, STATUS with the flags gathered so far. -/
def State.txIntegrity (s : State) (n off : Nat) : TxRes :=
  let s := (s.bump (F.SQ_ECC_UNCORRECTED n)).wr (F.SQ_ECC_LAST_ADDR n) off
  let s := s.event (sqUnit n) 0x2004 off [0]
  let (x, s) := s.draw 33
  (St.integrity, some (x % 512), s)

/-! ### Weight tiles (R171, R172) -/

/-- K and N of a tile by the weight's format. -/
def tileK (code : Nat) : Nat := if elemBits code = 4 then 128 else 64
def tileN (code : Nat) : Nat := if elemBits code = 16 then 32 else if elemBits code = 32 then 16 else 64

/-- The format of an operand may carry the block-scale flag it carries. -/
def fmtOk (fmt : Nat) : Bool := decide (fmt < 32) && (!bit fmt 4 || (mxMax (fmt % 16)).isSome)

/-- TX.WLOAD (R172). -/
def State.wload (s : State) (n : Nat) (d : List Byte) : TxRes :=
  let fmt := field d 14 1
  let code := fmt % 16
  let src := field d 8 4
  let k := if field d 15 1 = 0 then tileK code else field d 15 1
  let c := if field d 16 1 = 0 then tileN code else field d 16 1
  let mx := bit fmt 4
  let stride := field d 12 2
  let blocks := ceilDiv k 32
  if !(fmtOk fmt && decide (code ∈ [0, 1, 4, 5, 6, 7, 8, 9])) || decide (tileK code < k) || decide (tileN code < c) ||
      (decide (elemBits code = 4) && decide (c % 2 = 1)) || !s.rowsOk n src stride k (rowBytes code c) ||
      (mx && !s.scalesOk n (field d 20 4) (field d 24 2) blocks c) || decide (field d 4 4 ≠ 0) || decide (field d 17 3 ≠ 0) ||
      decide (field d 26 34 ≠ 0) then (St.badArgument, none, s)
  else if s.rowsBad n src stride k (rowBytes code c) then
    let (st, w, s) := s.txIntegrity n src
    (st, w, s)
  else
    let t : Tile := ⟨fmt, k, c, (List.range k).map (fun r => s.rowAt n (src + r * stride * 16) code c),
      if mx then (List.range blocks).map (fun j => s.rowAt n (field d 20 4 + j * field d 24 2) 0xB c) else []⟩
    let a := (s.sqr n).arr
    let a := if a.act then { a with t0 := t } else { a with t1 := t }
    (St.ok, some 0, s.setSq n { s.sqr n with arr := a })

def ArraySt.active (a : Sys2Proof.Machine.ArraySt) : Tile := if a.act then a.t1 else a.t0
def ArraySt.idle (a : Sys2Proof.Machine.ArraySt) : Tile := if a.act then a.t0 else a.t1

/-- A permitted pair of R171: whether it accumulates in FP32, and whether it may be output-stationary. -/
def pairOf (b a : Nat) : Option (Bool × Bool) :=
  let bc := b % 16
  let ac := a % 16
  let mx := bit b 4 || bit a 4
  if !(fmtOk b && fmtOk a) then none
  else if bc = 1 ∧ ac = 1 then some (mx, true)
  else if bc = 1 ∧ ac = 0 ∧ !mx then some (false, false)
  else if bc = 0 ∧ (ac = 0 ∨ ac = 1) ∧ !mx then some (false, false)
  else if (bc = 5 ∨ bc = 6) ∧ (ac = 4 ∨ ac = 5 ∨ ac = 6) then some (true, decide (ac ≠ 4))
  else if bc = 4 ∧ (ac = 4 ∨ ac = 5 ∨ ac = 6) then some (true, false)
  else if (bc = 7 ∨ bc = 8 ∨ bc = 9) ∧ ac = bc then some (true, false)
  else none

/-! ### Sums (R175 to R177) -/

/-- The sum of one group of exact products for an FP32 accumulator (R176, R177). -/
def groupSum (ps : List Val) : Nat :=
  if ps.any (·.isNan) then f32nan
  else
    let pos := ps.any (fun p => decide (p = .inf false))
    let ng := ps.any (fun p => decide (p = .inf true))
    if pos && ng then f32nan
    else if pos then toF32 (.inf false)
    else if ng then toF32 (.inf true)
    else
      let nz := ps.filter (fun p => !p.isZero)
      match nz with
      | [] => 0
      | p :: r =>
        let e := r.foldl (fun m x => max m x.ilog2) p.ilog2 - 40
        let t := nz.foldl (fun (a : Int) x => a + (x.scale2 (-e)).floor) 0
        toF32 ((Val.ofInt t).scale2 e)

/-- An FP32 entry after a group. -/
def accAdd (acc : Option Nat) (g : Nat) : Nat :=
  match acc with
  | some a => f32add a g
  | none => g

def isInf32 (v : Nat) : Bool := v % 2 ^ 31 = 0x7F800000

/-- The integer a product of an INT32 pair is. -/
def intVal (v : Val) : Int := v.floor

/-- One accumulator entry after the products of its groups: the new entry and the flags (R175 to R177). -/
def accEntry (fp : Bool) (old : Option Nat) (groups : List (List Val)) (f : TxFlags) : Nat × TxFlags :=
  if fp then
    let r := groups.foldl (fun (a : Option Nat) g => some (accAdd a (groupSum g))) old
    let v := r.getD 0
    (v, { f with accInf := f.accInf || isInf32 v })
  else
    let t : Int := groups.foldl (fun a g => g.foldl (fun a p => a + intVal p) a) 0
    let b : Int := match old with | some o => sgn 32 o | none => 0
    let x := b + t
    (satI 32 x, { f with accSat := f.accSat || decide (x < -2147483648) || decide (2147483647 < x) })

/-! ### TX.MM (R173, R174, R179) -/

/-- The fields of a TX.MM descriptor. -/
structure MmDesc where
  aAddr : Nat
  aStride : Nat
  m : Nat
  accRow : Nat
  aFmt : Nat
  os : Bool
  accum : Bool
  swap : Bool
  out : Bool
  outSat : Bool
  biasEn : Bool
  scaleVec : Bool
  outFmt : Nat
  aScale : Nat
  aScaleStride : Nat
  kOs : Nat
  bAddr : Nat
  bStride : Nat
  bFmt : Nat
  nOs : Nat
  bScale : Nat
  outAddr : Nat
  outStride : Nat
  bScaleStride : Nat
  outScale : Nat
  biasAddr : Nat
  zero : Bool
  deriving DecidableEq, Repr

def mmDesc (d : List Byte) : MmDesc :=
  let fa := field d 18 1
  let fo := field d 19 1
  { aAddr := field d 8 4, aStride := field d 12 2, m := field d 14 2, accRow := field d 16 2, aFmt := fa % 32, os := bit fa 5
    accum := bit fa 6, swap := bit fa 7, out := bit fo 0, outSat := bit fo 1, biasEn := bit fo 2, scaleVec := bit fo 3
    outFmt := fo / 16, aScale := field d 20 4, aScaleStride := field d 24 2, kOs := field d 26 2, bAddr := field d 28 4
    bStride := field d 32 2, bFmt := field d 34 1, nOs := field d 35 1, bScale := field d 36 4, outAddr := field d 40 4
    outStride := field d 44 2, bScaleStride := field d 46 2, outScale := field d 48 4, biasAddr := field d 52 4
    zero := decide (field d 4 4 = 0) && decide (field d 56 4 = 0) }

/-- The tile a TX.MM works on: the one ACTIVE after its SWAP. -/
def ArraySt.tileFor (a : Sys2Proof.Machine.ArraySt) (swap : Bool) : Tile := if swap then a.idle else a.active

/-- Columns and steps of a product. -/
def MmDesc.cols (x : Sys2Proof.Machine.MmDesc) (t : Tile) : Nat := if x.os then x.nOs else t.n
def MmDesc.depth (x : Sys2Proof.Machine.MmDesc) (t : Tile) : Nat := if x.os then x.kOs else t.k
def MmDesc.weight (x : Sys2Proof.Machine.MmDesc) (t : Tile) : Nat := if x.os then x.bFmt else t.fmt

/-- The checks of R173, with the tile the product would use. -/
def State.mmOk (s : State) (n : Nat) (x : MmDesc) (t : Tile) : Bool :=
  let k := x.depth t
  let c := x.cols t
  let pair := pairOf (x.weight t) x.aFmt
  let fp := match pair with | some p => p.1 | none => false
  let osOk := match pair with | some p => p.2 | none => false
  let aCode := x.aFmt % 16
  let aRows := if x.os then k else x.m
  let aLen := if x.os then x.m else k
  pair.isSome && (!x.os || osOk) && x.zero && decide (1 ≤ x.m) && decide (x.m ≤ if x.os then 64 else 1024) &&
    decide ((s.accRows n).1 ≤ x.accRow) && decide (x.accRow + x.m ≤ (s.accRows n).2) &&
    (if x.os then decide (1 ≤ x.kOs) && decide (1 ≤ x.nOs) && decide (x.nOs ≤ 64) && decide (x.bFmt < 32)
     else decide (x.kOs = 0) && decide (x.bAddr = 0) && decide (x.bStride = 0) && decide (x.bFmt = 0) && decide (x.nOs = 0) &&
       decide (x.bScale = 0) && decide (x.bScaleStride = 0)) &&
    (!x.accum || (List.range x.m).all (fun r => decide (mget 0 (s.sqr n).arr.f32 (x.accRow + r) = fp.toNat))) &&
    !(decide (elemBits aCode = 4) && decide (aLen % 2 = 1)) &&
    s.rowsOk n x.aAddr x.aStride aRows (rowBytes aCode aLen) &&
    (!bit x.aFmt 4 || s.scalesOk n x.aScale x.aScaleStride aRows (ceilDiv aLen 32)) &&
    (!x.os || (s.rowsOk n x.bAddr x.bStride k (rowBytes (x.bFmt % 16) c) &&
      (!bit x.bFmt 4 || s.scalesOk n x.bScale x.bScaleStride (ceilDiv k 32) c))) &&
    (!x.out || (decide (x.outFmt ≤ 9) && !(decide (elemBits x.outFmt = 4) && decide (c % 2 = 1)) &&
      s.rowsOk n x.outAddr x.outStride x.m (rowBytes x.outFmt c) &&
      (!x.scaleVec || s.rowsOk n x.outScale 0 1 (4 * c)) && (!x.biasEn || s.rowsOk n x.biasAddr 0 1 (4 * c))))

/-- The value of A's element in row (or step) r at position i. -/
def State.mmA (s : State) (n : Nat) (x : MmDesc) (r len : Nat) : List Val :=
  let code := x.aFmt % 16
  let scales := if bit x.aFmt 4 then s.rowAt n (x.aScale + r * x.aScaleStride) 0xB (ceilDiv len 32) else []
  (s.rowAt n (x.aAddr + r * x.aStride * 16) code len).zipIdx.map (fun p => opVal x.aFmt p.1 (scales.getD (p.2 / 32) 127))

/-- B by rows: the tile's, or the steps of an output-stationary product. -/
def State.mmB (s : State) (n : Nat) (x : MmDesc) (t : Tile) : List (List Val) :=
  if x.os then
    (List.range x.kOs).map (fun k =>
      let scales := if bit x.bFmt 4 then s.rowAt n (x.bScale + k / 32 * x.bScaleStride) 0xB x.nOs else []
      (s.rowAt n (x.bAddr + k * x.bStride * 16) (x.bFmt % 16) x.nOs).zipIdx.map (fun p => opVal x.bFmt p.1 (scales.getD p.2 127)))
  else
    t.rows.zipIdx.map (fun r => r.1.zipIdx.map (fun p => opVal t.fmt p.1 ((t.scales.getD (r.2 / 32) []).getD p.2 127)))

/-- Lists cut into runs of `k`. -/
def runs {α : Type} (k : Nat) : Nat → List α → List (List α)
  | 0, _ => []
  | f + 1, l => if l.isEmpty then [] else l.take k :: runs k f (l.drop k)

/-- The written value of an output: accumulator, bias and scale (R179). -/
def outVal (fp : Bool) (acc : Nat) (bias : Option Nat) (scale : Nat) : Val :=
  if fp then
    let t := match bias with | some b => f32add acc b | none => acc
    (f32 t).mul (f32 scale)
  else
    let t : Int := sgn 32 acc + (match bias with | some b => sgn 32 b | none => 0)
    (Val.ofInt t).mul (f32 scale)

/-- TX.MM with its operands checked; the SWAP has been made when it started. -/
def State.mm (s : State) (n : Nat) (d : List Byte) : TxRes :=
  let x := mmDesc d
  let t := (s.sqr n).arr.active
  let k := x.depth t
  let c := x.cols t
  let fp := match pairOf (x.weight t) x.aFmt with | some p => p.1 | none => false
  let aCode := x.aFmt % 16
  let aRows := if x.os then k else x.m
  let aLen := if x.os then x.m else k
  if s.rowsBad n x.aAddr x.aStride aRows (rowBytes aCode aLen) ||
      (x.os && s.rowsBad n x.bAddr x.bStride k (rowBytes (x.bFmt % 16) c)) then
    let (st, w, s) := s.txIntegrity n x.aAddr
    let q := s.sqr n
    let acc := (List.range (x.m * c)).foldl (fun m i =>
      mset 0 m ((x.accRow + i / c) * 64 + i % c) (Config.freeNat 34 (s.freeCtr + i) % 2 ^ 32)) q.arr.acc
    let s := { s.setSq n { q with arr := { q.arr with acc := acc } } with freeCtr := s.freeCtr + x.m * c }
    let s := if x.out then
        (List.range x.m).foldl (fun s r => s.scramble 35 (storeBase n + x.outAddr + r * x.outStride * 16) (rowBytes x.outFmt c)) s
      else s
    (st, w, s)
  else
    let av := (List.range aRows).map (fun r => s.mmA n x r aLen)
    let bv := s.mmB n x t
    let products (r col : Nat) : List (List Val) :=
      if x.os then runs 64 k ((List.range k).map (fun i => ((av.getD i []).getD r .zero).mul ((bv.getD i []).getD col .zero)))
      else [((av.getD r []).zip bv).map (fun p => p.1.mul (p.2.getD col .zero))]
    let nanIn := av.any (fun r => r.any (·.isNan)) || bv.any (fun r => (r.take c).any (·.isNan))
    let a := (s.sqr n).arr
    let idx := (List.range x.m).flatMap (fun r => (List.range c).map (fun col => (r, col)))
    let (acc, f) := idx.foldl (fun (m : Map Nat × TxFlags) p =>
      let key := (x.accRow + p.1) * 64 + p.2
      let (v, f) := accEntry fp (if x.accum then some (mget 0 a.acc key) else none) (products p.1 p.2) m.2
      (mset 0 m.1 key v, f)) (a.acc, { tx0 with nanIn := nanIn })
    let types := if x.accum then a.f32 else (List.range x.m).foldl (fun m r => mset 0 m (x.accRow + r) fp.toNat) a.f32
    let s := s.setSq n { s.sqr n with arr := { a with acc := acc, f32 := types } }
    if x.out then
      let (s, f) := (List.range x.m).foldl (fun (q : State × TxFlags) r =>
        let vals := (List.range c).map (fun col =>
          outVal fp (mget 0 acc ((x.accRow + r) * 64 + col))
            (if x.biasEn then some (s.ld (storeBase n + x.biasAddr + 4 * col) 4) else none)
            (if x.scaleVec then s.ld (storeBase n + x.outScale + 4 * col) 4 else x.outScale))
        let (codes, f) := convRow x.outFmt x.outSat vals q.2
        (q.1.store (storeBase n + x.outAddr + r * x.outStride * 16) (pack (elemBits x.outFmt) codes), f)) (s, f)
      (St.ok, some f.word, s)
    else (St.ok, some f.word, s)

/-! ### TX.QUANT (R184, R185) -/

/-- The scale code of a block of 32 values. -/
def mxScale (emax : Int) (ws : List Val) : Nat :=
  if ws.any (·.isNan) then 0xFF
  else if ws.any (fun w => !w.isFin) then 254
  else
    match ws.filter (fun w => !w.isZero) with
    | [] => 0
    | w :: r => (clampI 0 254 (r.foldl (fun m x => max m x.ilog2) w.ilog2 - emax + 127)).toNat

/-- The code of an element of a block with scale code c. -/
def mxElem (code c : Nat) (w : Val) : Nat × CvFlags :=
  if c = 0xFF then (0, if w.isNan then { cv0 with nanIn := true } else cv0)
  else convElem code true ((w.scale2 (127 - (c : Int))).scale2 (if code = 1 then 6 else 0))

/-- TX.QUANT. -/
def State.quantOp (s : State) (n : Nat) (d : List Byte) : TxRes :=
  let src := field d 8 4
  let sStride := field d 12 2
  let rows := field d 14 2
  let dst := field d 16 4
  let dStride := field d 20 2
  let cols := field d 22 2
  let sf := field d 24 1
  let df := field d 25 1
  let mode := field d 26 1
  let sc := sf % 16
  let dc := df % 16
  let smx := bit sf 4
  let dmx := bit df 4
  let sAddr := field d 36 4
  let zAddr := field d 40 4
  let vlen := if mode = 1 then rows else cols
  let bad := decide (rows = 0) || decide (cols = 0) || decide (32 ≤ sf) || decide (64 ≤ df) || decide (2 < mode) ||
    !(decide (sc ≤ 9) || decide (sc = 0xB)) || decide (9 < dc) || (smx && (mxMax sc).isNone) || (dmx && (mxMax dc).isNone) ||
    (smx && dmx) || ((smx || dmx) && decide (cols % 32 ≠ 0)) ||
    ((decide (elemBits sc = 4) || decide (elemBits dc = 4)) && decide (cols % 2 = 1)) ||
    !s.rowsOk n src sStride rows (rowBytes sc cols) || !s.rowsOk n dst dStride rows (rowBytes dc cols) ||
    ((smx || dmx) && !s.scalesOk n (field d 44 4) (field d 48 2) rows (cols / 32)) ||
    (decide (mode ≠ 0) && (!s.rowsOk n sAddr 0 1 (4 * vlen) || (decide (zAddr ≠ 0) && !s.rowsOk n zAddr 0 1 (4 * vlen)))) ||
    decide (field d 4 4 ≠ 0) || decide (field d 27 1 ≠ 0) || decide (field d 50 10 ≠ 0)
  if bad then (St.badArgument, none, s)
  else if s.rowsBad n src sStride rows (rowBytes sc cols) then
    let (st, w, s) := s.txIntegrity n src
    (st, w, (List.range rows).foldl (fun s r => s.scramble 35 (storeBase n + dst + r * dStride * 16) (rowBytes dc cols)) s)
  else
    let mxAt (r : Nat) : Nat := field d 44 4 + r * field d 48 2
    let (s', f) := (List.range rows).foldl (fun (q : State × TxFlags) r =>
      let scales := if smx then s.rowAt n (mxAt r) 0xB (cols / 32) else []
      let ws := (s.rowAt n (src + r * sStride * 16) sc cols).zipIdx.map (fun p =>
        let i := if mode = 1 then r else p.2
        let mul := if mode = 0 then field d 28 4 else s.ld (storeBase n + sAddr + 4 * i) 4
        let off := if mode = 0 then field d 32 4 else if zAddr = 0 then 0 else s.ld (storeBase n + zAddr + 4 * i) 4
        let v := opVal sf p.1 (scales.getD (p.2 / 32) 127)
        (v.isNan || (f32 mul).isNan || (f32 off).isNan, f32 (toF32 ((v.mul (f32 mul)).add (f32 off)))))
      let f := { q.2 with nanIn := q.2.nanIn || ws.any (·.1) }
      let vals := ws.map (·.2)
      let at_ := storeBase n + dst + r * dStride * 16
      match (if dmx then mxMax dc else none) with
      | some emax =>
        let blocks := runs 32 cols vals
        let cs := blocks.map (mxScale emax)
        let (codes, f) := (blocks.zip cs).foldl (fun (a : List Nat × TxFlags) b =>
          let es := b.1.map (mxElem dc b.2)
          (a.1 ++ es.map (·.1), es.foldl (fun f e => f.conv e.2) a.2)) ([], f)
        ((q.1.store at_ (pack (elemBits dc) codes)).store (storeBase n + mxAt r) (cs.map (BitVec.ofNat 8)), f)
      | none =>
        let (codes, f) := convRow dc (bit df 5) vals f
        (q.1.store at_ (pack (elemBits dc) codes), f)) (s, tx0)
    (St.ok, some f.word, s')

end Sys2Proof.Machine
end

