-- ==== Sys2Proof/Machine/LayoutOps.lean ====
section
/-!
DEFINITION. Tensor descriptors: the address of an element in each layout, malformed descriptors, extents, and the pairs of
elements a copy, a transpose or a list moves (R194 to R199; 08_layout.md). Addresses are counted in nibbles, so that 4-bit
elements and bytes share one form.
-/

namespace Sys2Proof.Machine

/-- A tensor descriptor ("Tensor descriptor"). -/
structure TDesc where
  base : Nat
  module : Nat
  remote : Bool
  fmt : Nat
  mx : Bool
  rank : Nat
  layout : Nat
  dims : List Nat
  strides : List Nat
  scale : Nat
  reserved : Bool
  deriving DecidableEq, Repr

def tdesc (l : List Byte) : TDesc :=
  let b := field l 0 8
  let f := field l 8 1
  { base := bits b 0 48, module := bits b 48 3, remote := bit b 51, fmt := f % 16, mx := bit f 4, rank := field l 9 1
    layout := field l 10 1, dims := (List.range 5).map (fun k => field l (16 + 4 * k) 4)
    strides := (List.range 4).map (fun k => field l (36 + 5 * k) 5), scale := bits (field l 56 6) 0 48
    reserved := decide (b / 2 ^ 52 ≠ 0) || decide (f / 32 ≠ 0) || decide (field l 11 5 ≠ 0) || decide (field l 62 2 ≠ 0) ||
      (!bit f 4 && decide (field l 56 6 ≠ 0)) }

/-- Indices along dimension k. -/
def TDesc.dim (t : Sys2Proof.Machine.TDesc) (k : Nat) : Nat := max 1 (t.dims.getD k 0)

/-- STRIDE_k, k = 1 to 4. -/
def TDesc.stride (t : Sys2Proof.Machine.TDesc) (k : Nat) : Nat := t.strides.getD (k - 1) 0

/-- Nibbles of an element. -/
def TDesc.nib (t : Sys2Proof.Machine.TDesc) : Nat := elemBits t.fmt / 4

/-- Bytes of an element, 0 for a 4-bit one. -/
def TDesc.eBytes (t : Sys2Proof.Machine.TDesc) : Nat := elemBits t.fmt / 8

/-- Rows: the indices i1 to i4 as one number ρ. -/
def TDesc.rows (t : Sys2Proof.Machine.TDesc) : Nat := t.dim 1 * t.dim 2 * t.dim 3 * t.dim 4

def TDesc.nb0 (t : Sys2Proof.Machine.TDesc) : Nat := ceilDiv (t.dim 0) 64
def TDesc.nb1 (t : Sys2Proof.Machine.TDesc) : Nat := ceilDiv (t.dim 1) 64

/-- The rotation of a line and the placement of R197, on a store offset in bytes. -/
def rotLine (l : Nat) : Nat := (l + l / 32) % 32
def diagPlace (a : Nat) : Nat := a / 512 * 512 + 16 * ((a / 16 % 32 + rotLine (a / 512)) % 32) + a % 16

def inStores (a : Nat) : Bool := decide (storeBase 0 ≤ a) && decide (a < storeBase 64)

/-- Σ i_k × STRIDE_k for k = 2 to 4, in bytes, where `hi` numbers (i2, i3, i4). -/
def TDesc.upper (t : Sys2Proof.Machine.TDesc) (hi : Nat) : Nat :=
  hi % t.dim 2 * t.stride 2 + hi / t.dim 2 % t.dim 3 * t.stride 3 + hi / t.dim 2 / t.dim 3 * t.stride 4

/-- The nibble address of element (i0, i1) of plane `hi` (R194, R197). -/
def TDesc.at3 (t : Sys2Proof.Machine.TDesc) (i0 i1 hi : Nat) : Nat :=
  let up := t.upper hi * 2
  if t.layout = 1 then t.base * 2 + i1 * t.nib + i0 * t.stride 1 * 2 + up
  else if t.layout = 2 then
    t.base * 2 + ((i0 / 64 * t.nb1 + i1 / 64) * 4096 + i1 % 64 * 64 + i0 % 64) * t.nib + up
  else
    let off := i0 * t.nib + i1 * t.stride 1 * 2 + up
    if t.layout = 3 then
      let win := t.base / 0x1000000 * 0x1000000
      let a := (t.base - win) * 2 + off
      (win + diagPlace (a / 2)) * 2 + a % 2
    else t.base * 2 + off

/-- The nibble address of element i0 of row ρ. -/
def TDesc.elem (t : Sys2Proof.Machine.TDesc) (r i0 : Nat) : Nat := t.at3 i0 (r % t.dim 1) (r / t.dim 1)

/-- Bytes of block scales of a row, and the address of scale j of row ρ. -/
def TDesc.scaleCols (t : Sys2Proof.Machine.TDesc) : Nat := ceilDiv (t.dim 0) 32
def TDesc.scaleAt (t : Sys2Proof.Machine.TDesc) (r j : Nat) : Nat := t.scale + r * t.scaleCols + j

/-- Malformed (R195). -/
def TDesc.malformed (t : Sys2Proof.Machine.TDesc) : Bool :=
  let raw (k : Nat) : Nat := t.dims.getD k 0
  decide (12 ≤ t.fmt) || (t.mx && ((mxMax t.fmt).isNone || decide (t.layout = 1))) || decide (t.rank = 0) || decide (5 < t.rank) ||
    (List.range 5).any (fun k => if k < t.rank then decide (raw k = 0) else decide (raw k ≠ 0) || (decide (0 < k) && decide (t.stride k ≠ 0))) ||
    decide (3 < t.layout) || ((decide (t.layout = 1) || decide (t.layout = 2)) && decide (t.rank < 2)) ||
    (decide (t.layout = 2) && decide (t.stride 1 ≠ 0)) || (decide (t.layout = 3) && !inStores t.base) ||
    (decide (elemBits t.fmt = 4) && decide ((if t.layout = 1 then raw 1 else raw 0) % 2 = 1)) ||
    (decide (0 < t.eBytes) && t.strides.any (fun x => decide (x % t.eBytes ≠ 0))) || (!t.remote && decide (t.module ≠ 0)) || t.reserved

/-- A destination whose elements could share bytes (R196). -/
def TDesc.badDest (t : Sys2Proof.Machine.TDesc) : Bool :=
  let need (k : Nat) : Nat :=
    if t.layout = 1 ∧ k = 2 then t.stride 1 * t.dim 0 * 2
    else if t.layout = 2 ∧ k = 2 then t.nb0 * t.nb1 * 4096 * t.nib
    else t.stride (k - 1) * t.dim (k - 1) * 2
  (decide (2 ≤ t.rank) && decide (t.layout ≠ 2) && decide (t.stride 1 * 2 < (if t.layout = 1 then t.dim 1 else t.dim 0) * t.nib)) ||
    [2, 3, 4].any (fun k => decide (k < t.rank) && decide (1 < t.dim k) && decide (t.stride k * 2 < need k))

/-- The extent: first byte and the byte past the last, block padding included. -/
def TDesc.extent (t : Sys2Proof.Machine.TDesc) : Nat × Nat :=
  let up := (t.dim 2 - 1) * t.stride 2 + (t.dim 3 - 1) * t.stride 3 + (t.dim 4 - 1) * t.stride 4
  if t.layout = 1 then (t.base, t.base + ceilDiv (t.dim 1 * t.nib) 2 + (t.dim 0 - 1) * t.stride 1 + up)
  else if t.layout = 2 then (t.base, t.base + t.nb0 * t.nb1 * 2048 * t.nib + up)
  else if t.layout = 0 then (t.base, t.base + ceilDiv (t.dim 0 * t.nib) 2 + (t.dim 1 - 1) * t.stride 1 + up)
  else
    let a0 := t.elem 0 0 / 2
    (List.range t.rows).foldl (fun e r => (List.range (t.dim 0)).foldl (fun e i =>
      let a := t.elem r i
      (min e.1 (a / 2), max e.2 (ceilDiv (a + t.nib) 2))) e) (a0, a0 + 1)

/-- The extent of the block scales; empty without them. -/
def TDesc.scaleExtent (t : Sys2Proof.Machine.TDesc) : Nat × Nat :=
  if t.mx then (t.scale, t.scale + t.rows * t.scaleCols) else (0, 0)

def meets (a b : Nat × Nat) : Bool := decide (a.1 < b.2) && decide (b.1 < a.2)

/-- The nibble addresses of a blocked tensor's padding. -/
def TDesc.padding (t : Sys2Proof.Machine.TDesc) : List Nat :=
  if t.layout ≠ 2 then []
  else
    (List.range (t.dim 2 * t.dim 3 * t.dim 4)).flatMap (fun hi => (List.range (t.nb1 * 64)).flatMap (fun i1 =>
      (List.range (t.nb0 * 64)).filterMap (fun i0 =>
        if t.dim 0 ≤ i0 ∨ t.dim 1 ≤ i1 then some (t.at3 i0 i1 hi) else none)))

/-! ### Elements in memory -/

/-- The code of `w` nibbles at a nibble address. -/
def State.ldN (s : State) (a w : Nat) : Nat :=
  if w = 1 then (if a % 2 = 0 then (s.byte (a / 2)).toNat % 16 else (s.byte (a / 2)).toNat / 16) else s.ld (a / 2) (w / 2)

def State.stN (s : State) (a w v : Nat) : State :=
  if w = 1 then s.setByte (a / 2) (BitVec.ofNat 8 (insField (s.byte (a / 2)).toNat (a % 2 * 4) 4 v))
  else s.storeBytes (a / 2) (toBytes (w / 2) v)

/-- The words and lines that a list of written bytes covers whole lose their marks (R193, R417). -/
def State.cleanBytes (s : State) (l : List Nat) : State :=
  if s.badWords.isEmpty && s.poison.isEmpty then s
  else { s with
    poison := s.poison.filter (fun e => !(List.range 64).all (fun i => l.contains (e.1 * 64 + i))),
    badWords := s.badWords.filter (fun e => !(List.range 8).all (fun i => l.contains (e.1 * 8 + i))) }

/-- One element moved: destination, and source or the pattern written, as nibble addresses. -/
structure Mv where
  dst : Nat
  src : Option Nat
  fill : Nat
  w : Nat
  deriving DecidableEq, Repr

def Mv.bytes (m : Sys2Proof.Machine.Mv) : List Nat := (List.range (ceilDiv m.w 2)).map (m.dst / 2 + ·)

/-- Every move of a list made, sources read as they stood. -/
def State.moveAll (s : State) (l : List Mv) : State :=
  let s0 := s
  let s := l.foldl (fun (s : State) m => s.stN m.dst m.w (match m.src with | some a => s0.ldN a m.w | none => m.fill)) s
  s.cleanBytes (l.flatMap Mv.bytes)

/-- Whether a source of the list is uncorrectable. -/
def State.movesBad (s : State) (l : List Mv) : Bool :=
  !s.badWords.isEmpty && l.any (fun m => match m.src with | some a => s.badAt (a / 2) (ceilDiv m.w 2) | none => false)

/-! ### Rows and blocks -/

/-- Row `rs` of a tensor moved to row `rd` of another of the same DIM_0 and format, block scales with it; the row's own
padding in a blocked destination is written zero. -/
def mvRow (d : TDesc) (rd : Nat) (src : Option (TDesc × Nat)) : List Mv :=
  (List.range (d.dim 0)).map (fun i => ⟨d.elem rd i, src.map (fun p => p.1.elem p.2 i), 0, d.nib⟩) ++
    (if d.layout = 2 then (List.range (d.nb0 * 64 - d.dim 0)).map (fun i => ⟨d.elem rd (d.dim 0 + i), none, 0, d.nib⟩) else []) ++
    (if d.mx then (List.range d.scaleCols).map (fun j => ⟨d.scaleAt rd j * 2, src.map (fun p => p.1.scaleAt p.2 j * 2), 0, 2⟩) else [])

/-- Block (b0, b1) of a tensor moved to block (c0, c1) of another; padding of the destination is written zero, and scales of
rows both tensors have move with them. -/
def mvBlock (d : TDesc) (c : Nat × Nat) (src : Option (TDesc × Nat × Nat)) : List Mv :=
  (List.range 64).flatMap (fun r => (List.range 64).map (fun i =>
    let i0 := c.1 * 64 + i
    let i1 := c.2 * 64 + r
    let pad := decide (d.dim 0 ≤ i0) || decide (d.dim 1 ≤ i1)
    ⟨d.at3 i0 i1 0, if pad then none else src.map (fun p => p.1.at3 (p.2.1 * 64 + i) (p.2.2 * 64 + r) 0), 0, d.nib⟩)) ++
    (if d.mx then
      (List.range 64).flatMap (fun r => (List.range 2).filterMap (fun j =>
        let rd := c.2 * 64 + r
        let inS := match src with
          | some p => decide (p.2.2 * 64 + r < p.1.dim 1) && decide (p.2.1 * 2 + j < p.1.scaleCols)
          | none => true
        if rd < d.dim 1 ∧ c.1 * 2 + j < d.scaleCols ∧ inS = true then
          some ⟨d.scaleAt rd (c.1 * 2 + j) * 2, src.map (fun p => p.1.scaleAt (p.2.2 * 64 + r) (p.2.1 * 2 + j) * 2), 0, 2⟩
        else none))
    else [])

/-- The padding of a blocked tensor written zero. -/
def mvPad (d : TDesc) : List Mv := d.padding.map (fun a => ⟨a, none, 0, d.nib⟩)

/-- Equal dimensions, formats and block-scale flags. -/
def TDesc.sameKind (a b : Sys2Proof.Machine.TDesc) : Bool := decide (a.fmt = b.fmt) && decide (a.mx = b.mx)
def TDesc.sameDims (a b : Sys2Proof.Machine.TDesc) : Bool := (List.range 5).all (fun k => decide (a.dim k = b.dim k))

/-- COPY, in the destination's index order. -/
def mvCopy (d x : TDesc) : List Mv :=
  (List.range d.rows).flatMap (fun r => (List.range (d.dim 0)).map (fun i => (⟨d.elem r i, some (x.elem r i), 0, d.nib⟩ : Mv))) ++ mvPad d ++
    (if d.mx then (List.range d.rows).flatMap (fun r => (List.range d.scaleCols).map (fun j =>
      (⟨d.scaleAt r j * 2, some (x.scaleAt r j * 2), 0, 2⟩ : Mv))) else [])

/-- TRANSPOSE: dst(i1, i0, …) = src(i0, i1, …). -/
def mvTranspose (d x : TDesc) : List Mv :=
  (List.range d.rows).flatMap (fun r => (List.range (d.dim 0)).map (fun i =>
    (⟨d.elem r i, some (x.at3 (r % d.dim 1) i (r / d.dim 1)), 0, d.nib⟩ : Mv))) ++ mvPad d

/-- Whether a list's tensors correspond ("The listed tensor and the dense tensor have equal DIM_0"). -/
def listOk (unit count : Nat) (listed dense : TDesc) : Bool :=
  decide (count ≠ 0) &&
    (if unit = 0 then decide (listed.dim 0 = dense.dim 0) && decide (dense.rows = count)
     else decide (unit = 1) && decide (listed.layout = 2) && decide (dense.layout = 2) && decide (listed.rank = 2) &&
       decide (dense.rank = 2) && decide (dense.dim 0 = 64) && decide (dense.dim 1 = 64 * count))

/-- An entry names a unit of the listed tensor. -/
def entryIn (unit e : Nat) (listed : TDesc) : Bool :=
  if unit = 0 then decide (e < listed.rows) else decide (e % 65536 < listed.nb0) && decide (e / 65536 < listed.nb1)

/-- The moves of entry n: gather (or scatter) of the unit it names; 0xFFFF_FFFF writes zeros (or nothing). -/
def mvEntry (gather : Bool) (unit n e : Nat) (listed dense : TDesc) : List Mv :=
  let skip := decide (e = 0xFFFFFFFF)
  if gather then
    if unit = 0 then mvRow dense n (if skip then none else some (listed, e))
    else mvBlock dense (0, n) (if skip then none else some (listed, e % 65536, e / 65536))
  else if skip then []
  else if unit = 0 then mvRow listed e (some (dense, n))
  else mvBlock listed (e % 65536, e / 65536) (some (dense, 0, n))

end Sys2Proof.Machine
end

