-- ==== Sys2Proof/Machine/MoveOps.lean ====
section
/-!
DEFINITION. The move unit: TX.MOVE's descriptor, its checks and its operations (R200 to R204; 08_layout.md).
-/

namespace Sys2Proof.Machine

/-- The fields of a TX.MOVE descriptor. -/
structure MoveDesc where
  src : Nat
  dst : Nat
  unit : Nat
  stride : Nat
  list : Nat
  count : Nat
  fill : Nat
  zero : Bool
  deriving DecidableEq, Repr

def moveDesc (d : List Byte) : MoveDesc :=
  { src := field d 8 4, dst := field d 12 4, unit := field d 17 1, stride := field d 18 1, list := field d 20 4
    count := field d 24 4, fill := field d 28 4
    zero := decide (field d 4 4 = 0) && decide (field d 19 1 = 0) && decide (field d 32 28 = 0) }

/-- A tensor descriptor at an offset of square n's store. -/
def State.tdescAt (s : State) (n off : Nat) : TDesc := tdesc (s.bytes (storeBase n + off) 64)

/-- A descriptor's place: 64-byte aligned and in the store. -/
def State.descOk (s : State) (n off : Nat) : Bool := decide (off % 64 = 0) && decide (s.ctxLo n ≤ off) && decide (off + 64 ≤ s.storeEnd n)

/-- An extent in the square's own store, below the rest region where there is one. -/
def State.extentOwn (s : State) (n : Nat) (e : Nat × Nat) : Bool :=
  decide (e.1 = e.2) || (decide (storeBase n + s.ctxLo n ≤ e.1) && decide (e.2 ≤ storeBase n + s.storeEnd n))

/-- A tensor's extents lie in the square's own store. -/
def State.tensorOwn (s : State) (n : Nat) (t : TDesc) : Bool :=
  (!t.remote || decide (t.module = s.moduleNo)) && s.extentOwn n t.extent && s.extentOwn n t.scaleExtent

def TDesc.meet (a b : Sys2Proof.Machine.TDesc) : Bool :=
  meets a.extent b.extent || meets a.extent b.scaleExtent || meets a.scaleExtent b.extent || meets a.scaleExtent b.scaleExtent

/-- List entry n (R201). -/
def State.listEntry (s : State) (sq list stride n : Nat) : Nat := s.ld (storeBase sq + list + n * stride) 4

/-- The checks of R200, and FP64, which no square operation takes (R165). -/
def State.moveOk (s : State) (n op : Nat) (x : MoveDesc) : Bool :=
  let d := s.tdescAt n x.dst
  let t := s.tdescAt n x.src
  let isList := decide (op = 2) || decide (op = 3) || decide (op = 4)
  x.zero && s.descOk n x.dst && !d.malformed && !d.badDest && decide (d.fmt ≠ 0xA) && s.tensorOwn n d &&
    (if op = 5 then decide (x.src = 0)
     else
      s.descOk n x.src && !t.malformed && s.tensorOwn n t && !d.meet t && d.sameKind t &&
        (if op = 0 then d.sameDims t
         else if op = 1 then
          decide (d.dim 0 = t.dim 1) && decide (d.dim 1 = t.dim 0) && [2, 3, 4].all (fun k => decide (d.dim k = t.dim k)) &&
            decide (elemBits d.fmt ≠ 4) && !d.mx
         else
          isList && decide (4 ≤ x.stride) && decide (s.ctxLo n ≤ x.list) && decide (x.list + (x.count - 1) * x.stride + 4 ≤ s.storeEnd n) &&
            (if op = 2 then listOk x.unit x.count t d else listOk x.unit x.count d t) &&
            (decide (op ≠ 4) || ((decide (d.fmt = 3) || decide (d.fmt = 9)) && !d.mx))))

/-- One element of SCATTER_ADD: the sum and the flags (R202). -/
def addElem (fmt a b : Nat) (f : TxFlags) : Nat × TxFlags :=
  if fmt = 3 then
    let t := sgn 32 a + sgn 32 b
    (satI 32 t, { f with accSat := f.accSat || decide (t < -2147483648) || decide (2147483647 < t) })
  else
    let r := f32add a b
    (r, { f with accInf := f.accInf || isInf32 r, nanIn := f.nanIn || (f32 b).isNan, nanOut := f.nanOut || (f32 r).isNan })

/-- The moves of one entry added into their destinations; a blocked destination's padding is left. -/
def State.addAll (s : State) (fmt : Nat) (l : List Mv) (f : TxFlags) : State × TxFlags :=
  l.foldl (fun (q : State × TxFlags) m =>
    match m.src with
    | none => q
    | some a =>
      let (v, f) := addElem fmt (q.1.ldN m.dst m.w) (q.1.ldN a m.w) q.2
      (q.1.stN m.dst m.w v, f)) (s, f)

/-- The STATUS word of TX.MOVE: CONFLICT_CYCLES is free (log entry 26). -/
def State.moveStatus (s : State) (f : TxFlags) (part : Bool) : Nat × State :=
  let (c, s) := s.draw 37
  (f.accSat.toNat + f.accInf.toNat * 2 + f.nanIn.toNat * 8 + f.nanOut.toNat * 16 + part.toNat * 512 + c % 65536 * 65536, s)

/-- The list operations entry by entry: the state, the flags, and whether an entry stopped them (R201). -/
def State.moveList (s : State) (n op : Nat) (x : MoveDesc) (d t : TDesc) : Nat → Nat → TxFlags → State × TxFlags × Option Nat
  | 0, _, f => (s, f, none)
  | fuel + 1, k, f =>
    let listed := if op = 2 then t else d
    let dense := if op = 2 then d else t
    let e := s.listEntry n x.list x.stride k
    if e ≠ 0xFFFFFFFF ∧ entryIn x.unit e listed = false then (s, f, some k)
    else
      let l := mvEntry (op = 2) x.unit k e listed dense
      let (s, f) := if op = 4 then s.addAll d.fmt l f else (s.moveAll l, f)
      s.moveList n op x d t fuel (k + 1) f

/-- The moves a whole operation reads, for its check bits. -/
def State.moveReads (s : State) (n op : Nat) (x : MoveDesc) : List Mv :=
  let d := s.tdescAt n x.dst
  let t := s.tdescAt n x.src
  if op = 0 then mvCopy d t
  else if op = 1 then mvTranspose d t
  else if op = 5 then []
  else
    (List.range x.count).flatMap (fun k =>
      let e := s.listEntry n x.list x.stride k
      let l := if e ≠ 0xFFFFFFFF ∧ entryIn x.unit e (if op = 2 then t else d) = false then []
        else mvEntry (op = 2) x.unit k e (if op = 2 then t else d) (if op = 2 then d else t)
      if op = 4 then l ++ l.map (fun m => { m with src := some m.dst }) else l)

/-- TX.MOVE with operation `op` (R200 to R204). -/
def State.moveOp (s : State) (n op : Nat) (desc : List Byte) : TxRes :=
  let x := moveDesc desc
  let d := s.tdescAt n x.dst
  let t := s.tdescAt n x.src
  if 5 < op ∨ s.moveOk n op x = false then (St.badArgument, none, s)
  else
    let reads := if s.badWords.isEmpty then [] else s.moveReads n op x
    if s.movesBad reads || (decide (2 ≤ op) && decide (op ≤ 4) && s.badAt (storeBase n + x.list) ((x.count - 1) * x.stride + 4)) then
      let (st, w, s) := s.txIntegrity n ((reads.head?.bind (·.src)).getD 0 / 2 % 0x1000000)
      let s := (mvCopy d d).foldl (fun (s : State) m =>
        let (v, s) := s.draw 35
        s.stN m.dst m.w v) s
      (st, w, s)
    else if op = 0 then
      let (w, s) := (s.moveAll (mvCopy d t)).moveStatus tx0 false
      (St.ok, some w, s)
    else if op = 1 then
      let (w, s) := (s.moveAll (mvTranspose d t)).moveStatus tx0 false
      (St.ok, some w, s)
    else if op = 5 then
      let l := (List.range d.rows).flatMap (fun r => (List.range (d.dim 0)).map (fun i =>
        (⟨d.elem r i, none, x.fill % 16 ^ d.nib, d.nib⟩ : Mv))) ++ mvPad d
      let (w, s) := (s.moveAll l).moveStatus tx0 false
      (St.ok, some w, s)
    else
      let (s, f, stop) := s.moveList n op x d t x.count 0 tx0
      let s := if op = 2 ∧ stop = none ∧ x.unit = 0 then s.moveAll (mvPad d) else s
      let (w, s) := s.moveStatus f stop.isSome
      (if stop.isSome then St.badArgument else St.ok, some w, s)

end Sys2Proof.Machine
end

