-- ==== Sys2Proof/Machine/BusOps.lean ====
section
/-!
DEFINITION. Accesses of the module's masters to the memory map: DRAM with its poison, charges and error log, local stores,
plane windows, engine buffers, frame-die SRAM and mailbox windows, each with its fences (R14, R158, R210, R216, R281, R345,
R359, R413 to R419, R434, R500).
-/

namespace Sys2Proof.Machine

/-- Who makes an access: its unit ID, its partition if any, and whether it is never fenced (R158). -/
structure Master where
  unit : Nat
  part : Option Nat
  free : Bool
  deriving DecidableEq, Repr

/-- A unit as a master, under its own partition. -/
def State.masterOf (s : State) (u : Nat) : Master := ⟨u, s.unitPart u, false⟩

/-! ### DRAM (R413 to R419) -/

def State.dramEnd (s : State) : Nat := s.rd F.MC_STATUS_USABLE_GIB * 2 ^ 30

/-- Controllers fitted. -/
def State.mcCount (s : State) : Nat := (bitList (s.rd F.MC_STATUS_PRESENT) 8).length

/-- The controller of a data address (R414). -/
def mcOf (n a : Nat) : Nat :=
  let g := a / 4096
  let q := g / max 1 n
  (g % max 1 n + q + q / 64) % max 1 n

/-- The local line and the package line of a data address (R414). -/
def localLine (n a : Nat) : Nat := (a / 4096 / max 1 n * 4096 + a % 4096) / 64
def packageLine (n a : Nat) : Nat := localLine n a / 7 * 8 + localLine n a % 7

/-- The data address of a controller's local line: the inverse of R414. -/
def dataAddr (n c l : Nat) : Nat :=
  let n := max 1 n
  let q := l * 64 / 4096
  let r := (c + n * (q + q / 64 + 1) - (q + q / 64)) % n
  (q * n + r) * 4096 + l * 64 % 4096

/-- The partition whose ranges hold an address. -/
def State.dramOwner (s : State) (a : Nat) : Option Nat :=
  (List.range 8).find? (fun p => (List.range 4).any (fun k =>
    let b := s.rd (F.PART_MEM_BASE_2M p k) * 0x200000
    decide (b ≤ a) && decide (a < b + s.rd (F.PART_MEM_SIZE_2M p k) * 0x200000)))

/-- A range lies in one partition's ranges, byte for byte by 2 MiB units. -/
def State.dramIn (s : State) (p a len : Nat) : Bool :=
  (List.range ((a + max 1 len - 1) / 0x200000 + 1 - a / 0x200000)).all (fun i =>
    decide (s.dramOwner ((a / 0x200000 + i) * 0x200000) = some p))

/-- A range touches no partition's ranges. -/
def State.dramUnowned (s : State) (a len : Nat) : Bool :=
  (List.range ((a + max 1 len - 1) / 0x200000 + 1 - a / 0x200000)).all (fun i =>
    decide (s.dramOwner ((a / 0x200000 + i) * 0x200000) = none))

/-- The 64-byte lines a range touches. -/
def linesOf (a len : Nat) : List Nat := if len = 0 then [] else (List.range ((a + len - 1) / 64 + 1 - a / 64)).map (a / 64 + ·)

/-- Interface bytes of an access charged: its lines, and the check-line bursts it causes, of which the cache decides how many
(R419; log entry 27). -/
def State.mcCharge (s : State) (part : Option Nat) (a len : Nat) : State :=
  if len = 0 then s
  else
    let c := mcOf s.mcCount a
    let n := (linesOf a len).length
    let (x, s) := s.draw 47
    let b := (n + x % (n + 1)) * 64
    let s := s.wr (F.MC_BW_BYTES c) (s.rd (F.MC_BW_BYTES c) + b)
    let s := match part with
      | some p => s.wr (F.MC_SHARE_TOTAL_BYTES p) (s.rd (F.MC_SHARE_TOTAL_BYTES p) + b)
      | none => s
    let k := c * 16 + part.getD 8
    { s with mc := { s.mc with charge := mset 0 s.mc.charge k (mget 0 s.mc.charge k + b) } }

/-- The next ERR_ADDR_k entry filled. -/
def State.errLog (s : State) (kind a unit : Nat) (retired : Bool) : State :=
  let k := s.rd F.MC_ERR_HEAD_NEXT
  let own := s.dramOwner a
  let s := (s.wr (F.ERR_ADDR_ADDR k) (a / 64 * 64)).setReg (R.ERR_INFO k)
    (kind + mcOf s.mcCount a * 4 + retired.toNat * 32 + own.isSome.toNat * 64 + own.getD 0 * 256 + unit % 65536 * 65536 +
      s.ts64 0 % 2 ^ 32 * 2 ^ 32)
  (s.wr F.MC_ERR_HEAD_NEXT (k + 1)).bumpW F.MC_ERR_HEAD_TOTAL

def State.setPoison (s : State) (line : Nat) : State := { s with poison := mset 0 s.poison line 1 }

/-- A read of DRAM: poisoned lines give a poisoned response and count (R417). -/
def State.dramRead (s : State) (m : Master) (a len : Nat) : List Byte × Bool × State :=
  let s := s.mcCharge m.part a len
  let bad := (linesOf a len).filter (fun l => mget 0 s.poison l ≠ 0)
  (s.bytes a len, !bad.isEmpty, s.bumpBy F.MC_ECC_POISON_READS bad.length)

/-- A write of DRAM: part of a poisoned line is not merged (R417); poisoned data poisons its lines, logs them and fills an
entry of KIND 3 each (R210, R417). -/
def State.dramWrite (s : State) (m : Master) (a : Nat) (data : List Byte) (poison : Bool) : Nat × State :=
  let s := s.mcCharge m.part a data.length
  let lines := linesOf a data.length
  let part (l : Nat) : Bool := decide (l * 64 < a) || decide (a + data.length < l * 64 + 64)
  let bad := lines.filter (fun l => part l && decide (mget 0 s.poison l ≠ 0))
  let keep (i : Nat) : Bool := bad.contains ((a + i) / 64)
  let s := if bad.isEmpty then s.store a data
    else (data.zipIdx.foldl (fun (s : State) b => if keep b.2 then s else s.setByte (a + b.2) b.1) s).cleanBytes
      ((List.range data.length).filterMap (fun i => if keep i then none else some (a + i)))
  let s := if poison then
      lines.foldl (fun (s : State) l =>
        ((s.setPoison l).errLog 3 (l * 64) m.unit false).event (0xB000 + mcOf s.mcCount (l * 64)) 0x2003 (l * 64) [m.unit]) s
    else s
  (if bad.isEmpty then St.ok else St.integrity, s)

/-! ### Planes' weight windows (R216) -/

def planeWin (p : Nat) : Nat := 0x400100000000 + p * 0x100000

def pl0 : PlSt :=
  ⟨[], none, [], (0, 1024), false, 0, 0, false, false, none, none, 0, 0, 0, 0, [], [], false, none, none, 0, 0, [], [], 0, false⟩

def State.plane (s : State) (p : Nat) : PlSt := mget pl0 s.pl p
def State.setPlane (s : State) (p : Nat) (x : PlSt) : State := { s with pl := mset pl0 s.pl p x }

/-- Codes of PL_STATE.SHELL. -/
def shIdle : Nat := 0
def shRunning : Nat := 1
def shLoading : Nat := 2
def shChecking : Nat := 3
def shCalibrating : Nat := 4

def State.shell (s : State) (p : Nat) : Nat := s.rd (F.PL_STATE_SHELL p)

/-- The weight code of reference column r in row i. -/
def refWeight (r i : Nat) : Int := (((i * (2 * r + 1) + r) % 16 : Nat) : Int) - 8

/-- A byte of a plane's window: the reference columns hold their fixed pattern. -/
def State.planeByte (s : State) (p off : Nat) : Byte :=
  if 0x80000 ≤ off ∧ off < 0x84000 then
    let r := (off - 0x80000) / 512
    let i := (off - 0x80000) % 512 * 2
    BitVec.ofNat 8 (unsgn 4 (refWeight r i) + unsgn 4 (refWeight r (i + 1)) * 16)
  else s.byte (planeWin p + off)

def State.planeRead (s : State) (p off len : Nat) : Nat × List Byte :=
  if 0x84000 < off + len then (St.badArgument, [])
  else if s.shell p = shIdle ∨ s.shell p = shLoading then (St.ok, (List.range len).map (fun i => s.planeByte p (off + i)))
  else (St.busy, [])

def State.planeWrite (s : State) (p off : Nat) (data : List Byte) : Nat × State :=
  let len := data.length
  let o := (s.plane p).opened
  if 0x84000 < off + len then (St.badArgument, s)
  else if s.shell p = shLoading ∧ o.1 * 512 ≤ off ∧ off + len ≤ (o.1 + o.2) * 512 then (St.ok, s.store (planeWin p + off) data)
  else (St.notPermitted, s)

/-! ### Engines' buffer windows (R281) -/

def engineWin (e : Nat) : Nat := 0x400200000000 + e * 0x400000

def ae0 : AeSt := ⟨[], none, none, []⟩
def State.eng (s : State) (e : Nat) : AeSt := mget ae0 s.ae e
def State.setEng (s : State) (e : Nat) (x : AeSt) : State := { s with ae := mset ae0 s.ae e x }

/-- The profile an ATTEND in execution on an engine works with; a cache operation scores with no table. -/
def AeRun.profile (r : Sys2Proof.Machine.AeRun) : Option Nat :=
  if field r.msg.payload 0 1 = 1 then some (field r.msg.payload 3 1 % 16) else none

/-- A job of the profile is in execution on the engine, a slice of a job of it included. -/
def State.profileBusy (s : State) (e f : Nat) : Bool :=
  decide (((s.eng e).run.bind AeRun.profile) = some f) ||
    (s.eng e).help.any (fun h => decide (((s.eng h.owner).run.bind AeRun.profile) = some f))

/-- Whether a range of the window is backed: 0x0 to 0x80FF of each profile region. -/
def bufBacked (off len : Nat) : Bool :=
  decide (off + len ≤ 0x80000) && decide (off % 0x10000 + len ≤ 0x8100)

def State.engineRead (s : State) (e off len : Nat) : Nat × List Byte :=
  if 0x80000 < off + len then (St.notPermitted, [])
  else if bufBacked off len then (St.ok, s.bytes (engineWin e + off) len) else (St.badArgument, [])

def State.engineWrite (s : State) (m : Master) (e off : Nat) (data : List Byte) : Nat × State :=
  if 0x80000 < off + data.length then (St.notPermitted, s)
  else if !bufBacked off data.length then (St.badArgument, s)
  else if !m.free && decide (m.part ≠ some (s.ownerOf (0x3000 + e))) then (St.notPermitted, s)
  else if s.profileBusy e (off / 0x10000) then (St.busy, s)
  else (St.ok, s.store (engineWin e + off) data)

/-! ### Frame-die SRAM and mailbox windows (R345, R500) -/

def sramBase : Nat := 0x500000000000
def sramSize : Nat := 0x2000000
def mbxWin (m : Nat) : Nat := 0x700000000000 + m * 0x2000

/-- A partition may read a range of frame-die SRAM: within the ring of a queue whose READER it is, or the alignment engine's
bundle ring where the engine is its own. -/
def State.sramOpen (s : State) (p a len : Nat) : Bool :=
  (List.range 32).any (fun i => decide (s.rd (F.IQ_RING_CFG_READER i) = p) && decide (s.ringBase i ≤ a) &&
      decide (a + len ≤ s.ringBase i + s.ringSize i * 64)) ||
    (decide (s.ownerOf 0x6000 = p) && decide (s.rd F.ALN_RING_BASE_BASE ≤ a) &&
      decide (a + len ≤ s.rd F.ALN_RING_BASE_BASE + s.alnSlots * s.rd F.ALN_RING_CFG_SLOT_64 * 64))

/-- The partition that owns mailbox m: P_(m − 2) for MB_2 to MB_9, and P_h for MB_0 in root-port mode (R345, R432). -/
def State.mbPart (s : State) (m : Nat) : Option Nat :=
  if 2 ≤ m ∧ m < 10 then some (m - 2)
  else if m = 0 ∧ s.on F.PCIE_STATUS_ROOT_PORT ∧ s.rd F.MBX_CFG_ROOT_HOST < 8 then some (s.rd F.MBX_CFG_ROOT_HOST)
  else none

/-- A partition's access to a mailbox window: its own window to read, its own command ring to write; any other is ignored and
counted. Until the boot's end every read is zero (R485). -/
def State.mbxRead (s : State) (m : Master) (a len : Nat) : List Byte × State :=
  let i := (a - mbxWin 0) / 0x2000
  if s.boot.phase ≠ 3 ∨ s.rd F.MODULE_STATE_STATE = 1 then (List.replicate len 0, s)
  else if m.free || (m.part.isSome && decide (s.mbPart i = m.part)) then (s.bytes a len, s)
  else (List.replicate len 0, s.reject R.MBX_REJECTS ((a - mbxWin 0) % 0x2000))

def State.mbxWrite (s : State) (m : Master) (a : Nat) (data : List Byte) : State :=
  let i := (a - mbxWin 0) / 0x2000
  let ring := decide ((a - mbxWin 0) % 0x2000 + data.length ≤ 0x1000)
  if s.rd F.MODULE_STATE_STATE = 1 then s
  else if ring && ((m.part.isSome && decide (s.mbPart i = m.part)) || (m.free && decide (m.unit ≠ 0xA000) && decide (i = 0) && !s.on F.PCIE_STATUS_ROOT_PORT) ||
      (m.free && decide (m.unit = 0xA000) && decide (i = 1))) then s.store a data
  else s.reject R.MBX_REJECTS ((a - mbxWin 0) % 0x2000)

/-! ### Outbound windows (R434) -/

def obWin (k : Nat) : Nat := 0x710000000000 + k * 0x1000000000

/-- The window an address lies in, and whether it is open there to a master. -/
def obIndex (a : Nat) : Option Nat :=
  if obWin 0 ≤ a ∧ a < obWin 8 then some ((a - obWin 0) / 0x1000000000) else none

def State.obSize (s : State) (k : Nat) : Nat :=
  let l := s.rd (F.PCIE_OB_CFG_SIZE_LOG k)
  2 ^ (if 12 ≤ l ∧ l ≤ 36 then l else 12)

def State.obOpen (s : State) (m : Master) (k a len : Nat) : Bool :=
  let o := s.rd (F.PCIE_OB_CFG_OWNER k)
  s.on (F.PCIE_OB_CFG_ENABLE k) && (match m.part with | some p => decide (o = p) | none => decide (o = 8)) &&
    decide (a + len ≤ obWin k + s.obSize k) && !s.on F.PCIE_STATUS_ROOT_PORT

/-- An address outside the module: host memory behind an outbound window. -/
def outside (a : Nat) : Bool := (obIndex a).isSome

/-! ### One access -/

/-- The unit whose window holds an address: squares, planes and engines, with the offset. -/
def winUnit (a : Nat) : Option (Nat × Nat) :=
  if storeBase 0 ≤ a ∧ a < storeBase 64 then some (0x1000 + (a - storeBase 0) / 0x1000000, (a - storeBase 0) % 0x1000000)
  else if planeWin 0 ≤ a ∧ a < planeWin 32 then some (0x2000 + (a - planeWin 0) / 0x100000, (a - planeWin 0) % 0x100000)
  else if engineWin 0 ≤ a ∧ a < engineWin 8 then some (0x3000 + (a - engineWin 0) / 0x400000, (a - engineWin 0) % 0x400000)
  else none

/-- The refusal of a unit's port before its own rules: absent, not serving, in a load, fenced. -/
def State.portRefuse (s : State) (m : Master) (u : Nat) : Nat :=
  let st := s.ustate u
  if !s.present u then St.absent
  else if st ≠ US.ready ∧ st ≠ US.busy then answerOf st
  else if u / 0x1000 = 1 ∧ (s.sqr (u % 0x1000)).loading.isSome then St.unitReset
  else if !m.free && !s.fenceOk m.part u then St.notPermitted
  else St.ok

/-- Whether DRAM is open to a master: its partition's ranges; outside all ranges for a unit of no partition (log entry 28). -/
def State.dramOpen (s : State) (m : Master) (a len : Nat) : Bool :=
  m.free || (match m.part with | some p => s.dramIn p a len | none => s.dramUnowned a len)

/-- A DRAM request tagged with a partition in reset is answered UNIT_RESET until the reset's end (R365). -/
def State.partInReset (s : State) (m : Master) : Bool :=
  match m.part with
  | some p => decide (s.rd (F.PART_STATE_STATE p) = 3)
  | none => false

/-- The shared-cache tables belong to the engines; a partition's master reaches none, since they lie in no partition's range. -/
def State.busRead (s : State) (m : Master) (a len : Nat) : Nat × List Byte × Bool × State :=
  let no (st : Nat) (s : State) : Nat × List Byte × Bool × State := (st, [], false, s)
  if a < 0x400000000000 then
    if s.partInReset m then no St.unitReset s
    else if s.dramEnd < a + len then no St.badArgument s
    else if !s.dramOpen m a len then no St.notPermitted s
    else
      let (d, p, s) := s.dramRead m a len
      (St.ok, d, p, s)
  else
    match winUnit a with
    | some (u, off) =>
      let r := s.portRefuse m u
      if r ≠ St.ok then no r s
      else if u / 0x1000 = 1 ∧ m.free = false ∧ s.rangeFenced m.part (u % 0x1000) off len then no St.notPermitted s
      else if u / 0x1000 = 1 then
        let (st, d, bad, s) := s.storePort (u % 0x1000) off len none false
        (st, d, bad, s)
      else if u / 0x1000 = 2 then
        let (st, d) := s.planeRead (u % 0x1000) off len
        (st, d, false, s)
      else
        let (st, d) := s.engineRead (u % 0x1000) off len
        (st, d, false, s)
    | none =>
      if sramBase ≤ a ∧ a + len ≤ sramBase + sramSize then
        if m.free || (match m.part with | some p => s.sramOpen p a len | none => false) then (St.ok, s.bytes a len, false, s)
        else no St.notPermitted s
      else if mbxWin 0 ≤ a ∧ a + len ≤ mbxWin 16 then
        let (d, s) := s.mbxRead m a len
        (St.ok, d, false, s)
      else no St.badArgument s

def State.busWrite (s : State) (m : Master) (a : Nat) (data : List Byte) (poison : Bool) : Nat × State :=
  if a < 0x400000000000 then
    if s.partInReset m then (St.unitReset, s)
    else if s.dramEnd < a + data.length then (St.badArgument, s)
    else if !s.dramOpen m a data.length then (St.notPermitted, s)
    else s.dramWrite m a data poison
  else
    match winUnit a with
    | some (u, off) =>
      let r := s.portRefuse m u
      if r ≠ St.ok then (r, s)
      else if u / 0x1000 = 1 ∧ m.free = false ∧ s.rangeFenced m.part (u % 0x1000) off data.length then (St.notPermitted, s)
      else if u / 0x1000 = 1 then
        let (st, _, _, s) := s.storePort (u % 0x1000) off data.length (some data) poison
        (st, s)
      else if u / 0x1000 = 2 then s.planeWrite (u % 0x1000) off data
      else s.engineWrite m (u % 0x1000) off data
    | none =>
      if sramBase ≤ a ∧ a + data.length ≤ sramBase + sramSize then
        if m.free then (St.ok, s.store a data) else (St.notPermitted, s)
      else if mbxWin 0 ≤ a ∧ a + data.length ≤ mbxWin 16 then (St.ok, s.mbxWrite m a data)
      else (St.badArgument, s)

/-- A long access in pieces of at most 512 bytes: stops at the first answer other than OK. -/
def State.busReadLong (s : State) (m : Master) : Nat → Nat → Nat → Nat × List Byte × Bool × State
  | 0, _, _ => (St.ok, [], false, s)
  | fuel + 1, a, len =>
    if len = 0 then (St.ok, [], false, s)
    else
      let n := min len (512 - a % 512)
      let (st, d, p, s) := s.busRead m a n
      if st ≠ St.ok then (st, [], p, s)
      else
        let (st', d', p', s) := s.busReadLong m fuel (a + n) (len - n)
        (st', d ++ d', p || p', s)

def State.busWriteLong (s : State) (m : Master) (poison : Bool) : Nat → Nat → List Byte → Nat × State
  | 0, _, _ => (St.ok, s)
  | fuel + 1, a, d =>
    if d.isEmpty then (St.ok, s)
    else
      let n := 512 - a % 512
      let (st, s) := s.busWrite m a (d.take n) poison
      if st ≠ St.ok then (st, s) else s.busWriteLong m poison fuel (a + n) (d.drop n)

def State.busGet (s : State) (m : Master) (a len : Nat) : Nat × List Byte × Bool × State :=
  s.busReadLong m (len / 512 + 2) a len

def State.busPut (s : State) (m : Master) (a : Nat) (d : List Byte) (poison : Bool) : Nat × State :=
  s.busWriteLong m poison (d.length / 512 + 2) a d

/-! ### Checks of extents (R205, R222, R243) -/

/-- Windows of units an extent meets. -/
def windowsMet (e : Nat × Nat) : List Nat :=
  if e.2 ≤ storeBase 0 ∨ engineWin 8 ≤ e.1 then []
  else
    (List.range 64).filterMap (fun n => if meets e (storeBase n, storeBase (n + 1)) then some (0x1000 + n) else none) ++
      (List.range 32).filterMap (fun p => if meets e (planeWin p, planeWin (p + 1)) then some (0x2000 + p) else none) ++
      (List.range 8).filterMap (fun k => if meets e (engineWin k, engineWin (k + 1)) then some (0x3000 + k) else none)

/-- An extent lies in the window of an absent unit. -/
def State.extAbsent (s : State) (e : Nat × Nat) : Bool := (windowsMet e).any (fun u => !s.present u)

def State.extInStores (e : Nat × Nat) : Bool := decide (storeBase 0 ≤ e.1) && decide (e.2 ≤ storeBase 64)

/-- An extent lies in the backed range of one window, outside every rest region. -/
def State.extBacked (s : State) (e : Nat × Nat) : Bool :=
  let len := e.2 - e.1
  if e.1 < 0x400000000000 then decide (e.2 ≤ s.dramEnd)
  else
    match winUnit e.1 with
    | some (u, off) =>
      if u / 0x1000 = 1 then !s.storeOut (u % 0x1000) off len
      else if u / 0x1000 = 2 then decide (off + len ≤ 0x84000)
      else bufBacked off len
    | none =>
      (decide (sramBase ≤ e.1) && decide (e.2 ≤ sramBase + sramSize)) || (decide (mbxWin 0 ≤ e.1) && decide (e.2 ≤ mbxWin 16)) ||
        (match obIndex e.1 with
          | some k => decide (e.2 ≤ obWin (k + 1))
          | none => false)

/-- An extent is open to a master under R14 and R158. -/
def State.extOpen (s : State) (m : Master) (e : Nat × Nat) (write : Bool) : Bool :=
  let len := e.2 - e.1
  if e.1 < 0x400000000000 then s.dramOpen m e.1 len
  else
    match winUnit e.1 with
    | some (u, off) =>
      m.free || (s.fenceOk m.part u && !(decide (u / 0x1000 = 1) && s.rangeFenced m.part (u % 0x1000) off len))
    | none =>
      match obIndex e.1 with
      | some k => s.obOpen m k e.1 len
      | none =>
        m.free || decide (mbxWin 0 ≤ e.1) ||
          (!write && match m.part with | some p => s.sramOpen p e.1 len | none => false)

end Sys2Proof.Machine
end

