-- ==== Sys2Proof/Machine/PlaneOps.lean ====
section
/-!
DEFINITION. Analog planes: products, calibration, the error estimate and the contract, jobs, weight loads, reset and the
PLANE register block (R213 to R241; 09_analog.md). Converter codes are analog and so free (log entry 29); the estimator's
formulas are taken exactly, in rational numbers.
-/

namespace Sys2Proof.Machine

def planeUnit (p : Nat) : Nat := 0x2000 + p

/-! ### Numbers of the shell -/

/-- A finite value as a rational. -/
def Val.toRat : Sys2Proof.Machine.Val → Rat
  | .fin neg m e =>
    let v : Rat := if e < 0 then (m : Rat) / ((2 ^ e.natAbs : Nat) : Rat) else ((m * 2 ^ e.natAbs : Nat) : Rat)
    if neg then -v else v
  | _ => 0

def f32rat (v : Nat) : Rat := (f32 v).toRat

/-- A rational rounded once to FP32. -/
def ratF32 (r : Rat) : Nat := fmtF32.div (.ofInt r.num) (.ofNat r.den)

/-- Nearest integer, ties to even. -/
def ratRound (r : Rat) : Int := divRne r.num r.den

/-- Truncation towards zero. -/
def ratTrunc (r : Rat) : Int := if 0 ≤ r.num then r.num / (r.den : Int) else -((-r.num) / (r.den : Int))

def ratAbs (r : Rat) : Rat := if r < 0 then -r else r

def ceilSqrt (v : Nat) : Nat := if isqrt v * isqrt v = v then isqrt v else isqrt v + 1

/-! ### Registers with a place in the job state -/

/-- The plane's state set, with JOBQ_FILL. -/
def State.setPl (s : State) (p : Nat) (x : PlSt) : State :=
  (s.setPlane p x).wr (F.PL_STATE_JOBQ_FILL p) (x.queue.length + x.run.isSome.toNat)

def State.setShell (s : State) (p v : Nat) : State := s.wr (F.PL_STATE_SHELL p) v

/-- READY, or BUSY with a job in execution. -/
def State.plReady (s : State) (p : Nat) : State :=
  if s.serving (planeUnit p) then s.setUstate (planeUnit p) (if (s.plane p).run.isSome then US.busy else US.ready) else s

def State.plT (s : State) (p : Nat) : Int := s.rdS (F.PL_TEMP_T p)

/-- T less T_CAL in 1/8 °C, none under policy HOLD (R226). -/
def State.plEff (s : State) (p : Nat) : Nat := s.rd (F.PL_CAL_STATUS_EFFECTIVE p)
def polHold : Nat := 1
def polForce : Nat := 2
def State.plPolicy (s : State) (p : Nat) : Nat := let v := s.rd (F.PL_CAL_CTRL_POLICY p); if v = 3 then 0 else v

def State.plDT (s : State) (p : Nat) : Int := if s.plEff p = polHold then 0 else s.plT p - s.rdS (F.PL_TEMP_T_CAL p)

/-- Whether converter j works with a forced trim. -/
def State.plForced (s : State) (p j : Nat) : Bool :=
  s.plEff p = polForce && bit (mget 0 (s.plane p).force j) 32

/-- Effective offset and gain of converter j in FP32 (R226). -/
def State.plTrim (s : State) (p j : Nat) : Nat × Nat :=
  let forced := s.plForced p j
  let w := if forced then mget 0 (s.plane p).force j else s.reg (R.PL_TRIM p j)
  let dt := if forced then 0 else s.plDT p
  let t8 : Val := (Val.ofInt dt).scale2 (-3)
  let o := f32add (toF32 ((Val.ofInt (sgn 16 (bits w 0 16))).scale2 (-6)))
    (f32mul (toF32 ((Val.ofInt (if forced then 0 else sgn 12 (bits w 32 12))).scale2 (-12))) (toF32 t8))
  let g1 := f32add f32one (toF32 ((Val.ofInt (sgn 16 (bits w 16 16))).scale2 (-16)))
  let g2 := f32add f32one (f32mul (toF32 ((Val.ofInt (if forced then 0 else sgn 12 (bits w 44 12))).scale2 (-23))) (toF32 t8))
  (o, f32mul g1 g2)

def State.plGt (s : State) (p : Nat) : Nat := s.rd (F.PL_TRACK_GAIN_TRACK p)

/-! ### Bad converters -/

/-- The BADMAP, PL_TRIM BAD and BAD_COLS as the two kinds of marks give them. -/
def State.plBadSync (s : State) (p : Nat) (old : List Nat) : State :=
  let x := s.plane p
  let is (j : Nat) : Bool := x.wbad.contains j || x.cbad.contains j
  let s := (old ++ x.wbad ++ x.cbad).foldl (fun (s : State) j =>
    (s.wrBit (F.PL_BADMAP_COLS p (j / 64)) (j % 64) (is j)).wr (F.PL_TRIM_BAD p j) (is j).toNat) s
  s.wr (F.PL_WCHECK_BAD_COLS p) ((List.range 1024).filter is).length

def State.plBad (s : State) (p j : Nat) : Bool := (s.plane p).wbad.contains j || (s.plane p).cbad.contains j

/-! ### Reports and the contract (R232, R237) -/

def ctIn : Nat := 0
def ctWarn : Nat := 1
def ctOut : Nat := 2
def ctUnknown : Nat := 3

/-- Limits under their ceilings (R232). -/
def State.plLimRms (s : State) (p : Nat) : Nat := min 768 (s.rd (F.PL_LIMITS_LIMIT_RMS p))
def State.plWarnRms (s : State) (p : Nat) : Nat := min (s.plLimRms p) (s.rd (F.PL_LIMITS_WARN_RMS p))
def State.plLimOff (s : State) (p : Nat) : Nat := min 256 (s.rd (F.PL_LIMITS_LIMIT_OFFSET p))
def State.plLimMax (s : State) (p : Nat) : Nat := min 48 (s.rd (F.PL_LIMITS_LIMIT_MAX p))

/-- RECAL_DT in 1/8 °C. -/
def State.plRecalDt (s : State) (p : Nat) : Int := (max 1 (s.rd (F.PL_LIMITS_RECAL_DT p)) * 2 : Nat)

/-- ERR_WORST (R231). -/
def State.plWorst (s : State) (p : Nat) : Nat := ceilDiv (s.plLimMax p * 255 * 2 ^ 24) (16 * 32640)

/-- PL_BOUND for an input format: the bound of R231 rounded up. -/
def State.plBound (s : State) (p : Nat) (uint8 : Bool) : Nat :=
  let o := (s.rdS (F.PL_EST_OFFSET_EST p)).natAbs
  let r := s.rd (F.PL_EST_RMS_EST p)
  let z := clampN 1 8 (s.rd (F.PL_CFG_BOUND_Z p))
  let x := o * (if uint8 then 255 else 1) * 16384
  let q := ceilSqrt (z * z * (r * r - o * o) * (14780 * 16384) ^ 2)
  min (2 ^ 24 - 1) (ceilDiv (100 * x + q) 3264000)

/-- A plane report, or none where REPORT_UNIT is not of class 0xA (R237). -/
def State.plReport (s : State) (p kind cp frame seq bound ooc flags : Nat) : State :=
  let unit := s.rd (F.PL_CFG_REPORT_UNIT p)
  if unit / 0x1000 ≠ 0xA then s.wr (F.PL_STATE_CONFIG_ERROR p) 1
  else
    s.post (planeUnit p) unit 1 0x01 kind
      (toBytes 2 (planeUnit p) ++ toBytes 1 kind ++ toBytes 1 cp ++ toBytes 4 frame ++ toBytes 4 seq ++ toBytes 4 bound ++
        toBytes 4 (s.plWorst p) ++ toBytes 4 ooc ++ toBytes 1 (s.rd (F.PL_STATE_CONTRACT p)) ++ toBytes 1 flags ++
        toBytes 2 (s.rd (F.PL_STATE_CAL_GEN p)) ++ toBytes 4 (s.ts64 (s.rd (F.PL_CFG_TB p)) % 2 ^ 32))

/-- The contract state set; a change writes its record and sends its report (R232). -/
def State.plContract (s : State) (p c : Nat) : State :=
  if s.rd (F.PL_STATE_CONTRACT p) = c then s
  else
    let s := s.wr (F.PL_STATE_CONTRACT p) c
    let s := s.logRec (planeUnit p) 0x6003 (if c = ctOut then 2 else 1) (s.ownerOf (planeUnit p)) (planeUnit p)
      [c, s.rd (F.PL_EST_RMS_EST p), s.rd (F.PL_EST_OFFSET_EST p), s.rd (F.PL_EST_MAX_LAST p)]
    s.plReport p 1 0xFF 0 (s.plane p).jobSeq (s.plBound p false) 0 0

/-- OFFSET_EST, RMS_EST, the bounds and the peaks from the estimate (R229, R231). -/
def State.plShow (s : State) (p : Nat) : State :=
  let x := s.plane p
  let o := clampI (-32768) 32767 (ratTrunc (x.off * 1024))
  let r := min 65535 (isqrt (ratTrunc (x.ms * 1048576)).toNat)
  let s := (s.wr (F.PL_EST_OFFSET_EST p) (unsgn 16 o)).wr (F.PL_EST_RMS_EST p) r
  let s := (s.wr (F.PL_BOUND_BOUND_INT8 p) (s.plBound p false)).wr (F.PL_BOUND_BOUND_UINT8 p) (s.plBound p true)
  let s := s.wr (F.PL_EST_PEAK_PEAK_OFFSET p) (max (s.rd (F.PL_EST_PEAK_PEAK_OFFSET p)) o.natAbs)
  s.wr (F.PL_EST_PEAK_PEAK_RMS p) (max (s.rd (F.PL_EST_PEAK_PEAK_RMS p)) r)

/-- The estimate is outside a limit (R232), the product's own error apart. -/
def State.plOver (s : State) (p : Nat) : Bool :=
  let gt := f32rat (s.plGt p)
  decide (s.plLimRms p < s.rd (F.PL_EST_RMS_EST p)) || decide (s.plLimOff p < (s.rdS (F.PL_EST_OFFSET_EST p)).natAbs) ||
    decide (gt < 9 / 10) || decide (11 / 10 < gt)

/-! ### Leaving service -/

/-- Every job of the plane answered, in execution and queued (R20). -/
def State.plAnswer (s : State) (p status : Nat) : State :=
  let x := s.plane p
  let ms := (match x.run with | some r => [r.msg] | none => []) ++ x.queue
  (ms.foldl (fun s m => s.answer m status) s).setPl p { x with run := none, queue := [], breach := none }

/-- The plane leaves READY or BUSY for another state. -/
def State.plLeave (s : State) (p st : Nat) : State :=
  let was := s.serving (planeUnit p)
  let s := s.setUstate (planeUnit p) st
  if was then s.plAnswer p (answerOf st) else s

/-- FAULT (R234): left only through reset. -/
def State.plFault (s : State) (p : Nat) : State :=
  let s := (s.plLeave p US.fault).setShell p shIdle
  (s.setPl p { s.plane p with cal := none, wantFull := false, wantOffset := false, openWait := false }).event (planeUnit p) 0x6001
    (planeUnit p) [0]

/-! ### Policies (R235, R236) -/

/-- The FORCED flags of the converters a policy may touch. -/
def State.plForceFlags (s : State) (p : Nat) (js : List Nat) : State :=
  js.foldl (fun (s : State) j => s.wr (F.PL_TRIM_FORCED p j) (s.plForced p j).toNat) s

def State.plForceAll (s : State) (p : Nat) : Map Nat :=
  (List.range 1056).foldl (fun m j => mset 0 m j (s.reg (R.PL_FORCE p j))) []

/-- A policy in force. -/
def State.plEffect (s : State) (p pol : Nat) : State :=
  let old := (s.plane p).force.map (·.1)
  let s := s.wr (F.PL_CAL_STATUS_EFFECTIVE p) pol
  let s := if pol = polForce then s.setPlane p { s.plane p with force := s.plForceAll p, forceWait := [] } else s
  s.plForceFlags p (old ++ (s.plane p).force.map (·.1))

/-- The written policy applied; an override ends. -/
def State.plApply (s : State) (p : Nat) : State :=
  let s := s.setPlane p { s.plane p with policyWait := false, ovrAt := none, appliedAt := some s.now }
  ((s.plEffect p (s.plPolicy p)).wr (F.PL_CAL_STATUS_OVERRIDE p) 0).wr (F.PL_CAL_STATUS_CAUSE p) 0

/-- A vector boundary: a written policy, and forced trims written under FORCE, take effect. -/
def State.plBoundary (s : State) (p : Nat) : State :=
  let s := if (s.plane p).policyWait then s.plApply p else s
  let x := s.plane p
  if s.plEff p = polForce ∧ x.forceWait ≠ [] then
    let s := s.setPlane p { x with
      force := x.forceWait.foldl (fun m j => mset 0 m j (s.reg (R.PL_FORCE p j))) x.force, forceWait := [] }
    s.plForceFlags p x.forceWait
  else s

/-- The shell overrides HOLD or FORCE with AUTO (R236): cause 1 OUT, 2 TEMP. The fourth time in a row within RELEASE_MS of an
application sets STUCK. -/
def State.plOverride (s : State) (p cause : Nat) : State :=
  if s.plEff p = 0 then s
  else
    let x := s.plane p
    let soon := match x.appliedAt with
      | some t => decide (s.now < t + max 1 (s.rd (F.PL_CAL_CTRL_RELEASE_MS p)) * 1000000)
      | none => false
    let n := if soon then x.ovrRun + 1 else 0
    let s := s.setPlane p { x with ovrAt := some s.now, ovrRun := n, run := x.run.map (fun r => { r with ovr := true }) }
    let s := ((s.plEffect p 0).wr (F.PL_CAL_STATUS_OVERRIDE p) 1).wr (F.PL_CAL_STATUS_CAUSE p) cause
    let s := s.bump (F.PL_CAL_STATUS_OVERRIDES p)
    if 4 ≤ n then s.wr (F.PL_CAL_STATUS_STUCK p) 1 else s

/-- Entering OUT (R233, R234, R236): overrides the policy, asks for a full calibration that pauses the job once the products
already started have ended, and fails the last one when it lies within 65,536 products. -/
def State.plEnterOut (s : State) (p : Nat) : State :=
  let s := (s.plContract p ctOut).plOverride p 1
  let x := s.plane p
  let failed := decide (s.rd (F.PL_CAL_STATUS_FULL_CALS p) ≠ 0) && decide (x.since ≤ 65536)
  let fails := if failed then x.fails + 1 else 0
  let s := if failed then s.bump (F.PL_CAL_STATUS_CAL_FAILS p) else s
  let s := s.setPlane p { s.plane p with fails := fails, wantFull := true, breach := if x.run.isSome then some 2 else none }
  if failed ∧ max 1 (s.rd (F.PL_CFG_RECAL_MAX p)) ≤ fails then s.plFault p else s

/-- The contract after a product (R232). -/
def State.plJudge (s : State) (p : Nat) (breach : Bool) : State :=
  let c := s.rd (F.PL_STATE_CONTRACT p)
  if c = ctOut then s
  else if breach || s.plOver p then s.plEnterOut p
  else if s.plWarnRms p < s.rd (F.PL_EST_RMS_EST p) then
    let s := s.plContract p ctWarn
    if c ≠ ctWarn ∧ s.plEff p ≠ polHold then s.setPlane p { s.plane p with wantFull := true } else s
  else s.plContract p ctIn

/-! ### Products (R213, R214, R229) -/

/-- The signed weight of data column j in a row. -/
def State.plWeight (s : State) (p j row : Nat) : Int :=
  let b := (s.byte (planeWin p + j * 512 + row / 2)).toNat
  sgn 4 (if row % 2 = 0 then b % 16 else b / 16)

/-- The charge of column j in cycle b: the weights of the rows whose input has bit b. -/
def chargeOf (w : Nat → Int) (xs : List Nat) (row b : Nat) : Int :=
  xs.zipIdx.foldl (fun a x => if bit x.1 b then a + w (row + x.2) else a) 0

/-- The ideal code of a charge, unclamped. -/
def idealCode (g : Nat) (s : Int) : Int := divRne s (2 ^ g)

/-- A free converter code (log entry 29). -/
def freeCode (ctr : Nat) : Int := sgn 8 (Config.freeNat 48 ctr % 256)

/-- One sample of the estimate: the exact e, and the corrected code (R229). -/
structure PlSample where
  e : Rat
  c : Rat
  deriving DecidableEq, Repr

/-- The samples of one product on the reference columns not marked BAD, with the trims in force; codes are drawn in order of
column and cycle. -/
def State.plSamples (s : State) (p : Nat) (xs : List Nat) (row g : Nat) : List PlSample :=
  (List.range 32).flatMap (fun r =>
    if s.plBad p (1024 + r) then []
    else
      let (o, gn) := s.plTrim p (1024 + r)
      (List.range 8).filterMap (fun b =>
        let e : Rat := (chargeOf (refWeight r) xs row b : Rat) / ((2 ^ g : Nat) : Rat)
        if e < -128 ∨ 127 < e then none
        else some ⟨e, f32rat gn * ((freeCode (s.freeCtr + r * 8 + b) : Rat) - f32rat o)⟩))

def ratSum (l : List Rat) : Rat := l.foldl (· + ·) 0

/-- The estimate after a product (R229); answers whether the product breached LIMIT_MAX. -/
def State.plEstimate (s : State) (p : Nat) (xs : List Nat) (row g : Nat) : Bool × State :=
  let sm := s.plSamples p xs row g
  let s : State := { s with freeCtr := s.freeCtr + 256 }
  let gt := f32rat (s.plGt p)
  let ds := sm.map (fun x => gt * x.c - x.e)
  let big := ds.foldl (fun m d => if m < ratAbs d then ratAbs d else m) 0
  let max16 := min 255 (ratTrunc (big * 16)).toNat
  let s := s.wr (F.PL_EST_MAX_LAST p) max16
  let s := s.wr (F.PL_EST_PEAK_PEAK_MAX p) (max (s.rd (F.PL_EST_PEAK_PEAK_MAX p)) max16)
  let n := sm.length
  let es := s.rd (F.PL_CFG_EST_SHIFT p)
  let es := if 4 ≤ es ∧ es ≤ 12 then es else 8
  let k : Rat := ((2 ^ es : Nat) : Rat)
  let x := s.plane p
  let s := if n < 64 then s
    else
      let s := s.setPlane p { x with
        off := x.off + (ratSum ds / (n : Rat) - x.off) / k, ms := x.ms + (ratSum (ds.map (fun d => d * d)) / (n : Rat) - x.ms) / k }
      if s.plEff p = polHold then s
      else
        let q := ratSum (sm.map (fun y => (gt * y.c) * (gt * y.c)))
        if q = 0 then
          let (v, s) := s.draw 49
          s.wr (F.PL_TRACK_GAIN_TRACK p) v
        else
          let gp := ratSum (sm.map (fun y => y.e * (gt * y.c))) / q
          s.wr (F.PL_TRACK_GAIN_TRACK p) (ratF32 (gt * (1 + (gp - 1) / (k * 16))))
  let s := s.plShow p
  let s := s.setPlane p { s.plane p with since := (s.plane p).since + 1, lastProduct := s.now }
  let s := (s.bump (F.PL_EST_PRODUCTS p)).wr (F.PL_RATE_GAP_CYCLES p) (s.rd (F.PL_RATE_GAP_CYCLES p) + s.rd (F.PL_RATE_GAP p))
  (decide (((s.plLimMax p : Nat) : Rat) / 16 < big), s)

/-- The fields of a plane job descriptor. -/
structure PlJob where
  inAddr : Nat
  inStride : Nat
  vectors : Nat
  k : Nat
  row : Nat
  col : Nat
  cols : Nat
  inFmt : Nat
  outFmt : Nat
  sat : Bool
  safety : Bool
  g : Nat
  cp : Nat
  cpEn : Bool
  frame : Nat
  outAddr : Nat
  outStride : Nat
  scale : Nat
  bias : Nat
  reserved : Bool
  deriving DecidableEq, Repr

def plJob (d : List Byte) : PlJob :=
  let oc := field d 23 1
  let cp := field d 25 1
  { inAddr := field d 0 8, inStride := field d 8 4, vectors := field d 12 2, k := field d 14 2, row := field d 16 2
    col := field d 18 2, cols := field d 20 2, inFmt := field d 22 1, outFmt := oc % 16, sat := bit oc 4, safety := bit oc 5
    g := field d 24 1, cp := cp % 32, cpEn := bit cp 5, frame := field d 28 4, outAddr := field d 32 8, outStride := field d 40 4
    scale := field d 48 8, bias := field d 56 8
    reserved := decide (64 ≤ oc) || decide (64 ≤ cp) || decide (field d 26 2 ≠ 0) || decide (field d 44 4 ≠ 0) }

def PlJob.eBytes (j : Sys2Proof.Machine.PlJob) : Nat := elemBits j.outFmt / 8

/-- The outputs of data columns from drawn codes (R214, R215). -/
def State.plOutputs (s : State) (p : Nat) (j : PlJob) (scale bias : List Nat) (ctr : Nat) : List Nat :=
  let gt := s.plGt p
  (List.range j.cols).map (fun i =>
    let col := j.col + i
    let raw : Int := (List.range 8).foldl (fun a b =>
      let t := (2 ^ b : Nat) * freeCode (ctr + col * 8 + b)
      if b = 7 ∧ j.inFmt = 1 then a - t else a + t) 0
    let (o, g) := if s.plBad p col then (0, f32one) else s.plTrim p col
    let sv := f32ofInt (if j.inFmt = 1 then -1 else 255)
    let y := f32mul (f32mul (f32mul (f32ofInt ((2 ^ j.g : Nat) : Int)) gt) g) (f32sub (f32ofInt raw) (f32mul o sv))
    (convElem j.outFmt j.sat (((f32 y).mul (f32 (scale.getD i f32one))).add (f32 (bias.getD i 0)))).1)

/-- Clipped conversions of the data columns in one product (R213). -/
def State.plClips (s : State) (p : Nat) (j : PlJob) (xs : List Nat) : Nat :=
  (List.range 1024).foldl (fun a col => (List.range 8).foldl (fun a b =>
    let c := idealCode j.g (chargeOf (s.plWeight p col) xs j.row b)
    if c < -128 ∨ 127 < c then a + 1 else a) a) 0

/-- The first answer other than OK stops a job (R223). -/
def PlRun.answered (r : Sys2Proof.Machine.PlRun) (st : Nat) : Sys2Proof.Machine.PlRun :=
  if st = St.ok ∨ r.stop = true then r else { r with status := st, stop := true }

/-- A product of the job in execution and its output vector (R213 to R215, R223, R229, R233). -/
def State.plProduct (s : State) (p : Nat) (r : PlRun) : State :=
  let j := plJob r.msg.payload
  let m := s.masterOf (planeUnit p)
  let tb := s.rd (F.PL_CFG_TB p)
  let (st, inp, bad, s) := s.busGet m (j.inAddr + r.vec * j.inStride) j.k
  let (st1, sc, bad1, s) := if j.scale = 0 then (St.ok, [], false, s) else s.busGet m j.scale (4 * j.cols)
  let (st2, bi, bad2, s) := if j.bias = 0 then (St.ok, [], false, s) else s.busGet m j.bias (4 * j.cols)
  let poison := bad || bad1 || bad2
  let r := ((r.answered st).answered st1).answered st2
  if r.stop then s.setPl p { s.plane p with run := some r }
  else
    let xs := inp.map (·.toNat)
    let clips := s.plClips p j xs
    let out := s.plOutputs p j ((List.range j.cols).map (fun i => if j.scale = 0 then f32one else field sc (4 * i) 4))
      ((List.range j.cols).map (fun i => if j.bias = 0 then 0 else field bi (4 * i) 4)) s.freeCtr
    let s : State := { s with freeCtr := s.freeCtr + 8192 }
    let bound := s.plBound p (j.inFmt ≠ 1)
    let start := s.ts64 tb - 40
    let (breach, s) := s.plEstimate p xs j.row j.g
    let s := (s.wr (F.PL_JOBS_VECTORS p) (s.rd (F.PL_JOBS_VECTORS p) + 1)).bumpBy (F.PL_FLAGS_CLIPS p) clips
    let s := s.setPl p { s.plane p with run := some r, breach := (s.plane p).breach.map (· - 1) }
    let s := s.plJudge p breach
    let outC := decide (s.rd (F.PL_STATE_CONTRACT p) = ctOut)
    let s := if outC then s.bump (F.PL_FLAGS_OOC_VECTORS p) else s
    match (s.plane p).run with
    | none => s
    | some r =>
      let (st, s) := s.busPut m (j.outAddr + 64 + r.vec * j.outStride) (pack (elemBits j.outFmt) out) poison
      let r := r.answered st
      let r : PlRun := { r with
        vec := r.vec + 1, t0 := if r.vec = 0 then start else r.t0, t1 := s.ts64 tb, hold := r.hold || s.tbHold tb,
        oocFirst := if outC then some (r.oocFirst.getD r.vec) else r.oocFirst, ooc := r.ooc + outC.toNat, clips := r.clips + clips,
        bound := max r.bound bound, poison := r.poison || poison,
        colFault := r.colFault || (List.range j.cols).any (fun i => s.plBad p (j.col + i)),
        ovr := r.ovr || s.on (F.PL_CAL_STATUS_OVERRIDE p), calGen := s.rd (F.PL_STATE_CAL_GEN p), temp := s.rd (F.PL_TEMP_T p),
        contract := s.rd (F.PL_STATE_CONTRACT p), offEst := s.rd (F.PL_EST_OFFSET_EST p), rmsEst := s.rd (F.PL_EST_RMS_EST p) }
      (s.setPl p { s.plane p with run := some r }).plBoundary p

/-! ### Calibration (R227, R228) -/

/-- A calibration is wanted and the policy lets its cause act (R228, R235): the writes CAL_FULL and CAL_OFFSET always. -/
def State.plWants (s : State) (p : Nat) : Bool := (s.plane p).wantFull || (s.plane p).wantOffset

/-- The mean of `n` conversions, from a free sum (log entry 29). -/
def freeMean (ctr n : Nat) : Rat :=
  (((Config.freeNat 50 ctr % (255 * n + 1) : Nat) : Rat) - 128 * (n : Rat)) / (n : Rat)

/-- One converter's trim test: its offset and gain fields, none where it is bad. -/
def trimOf (o : Rat) (gain : Option Rat) : Option (Int × Option Int) :=
  if 16 < ratAbs o then none
  else
    match gain with
    | none => some (ratRound (o * 64), none)
    | some g => if g < 3 / 4 ∨ 5 / 4 < g then none else some (ratRound (o * 64), some (ratRound ((g - 1) * 65536)))

/-- The measurements of every converter: trims written, bad ones marked and logged. -/
def State.plMeasure (s : State) (p : Nat) (full : Bool) : State :=
  let old := (s.plane p).wbad ++ (s.plane p).cbad
  let ctr := s.freeCtr
  let s : State := { s with freeCtr := ctr + 3168 }
  let n := if full then 2048 else 1024
  let (s, bad) := (List.range 1056).foldl (fun (q : State × List Nat) j =>
    let o := freeMean (ctr + 3 * j) n
    let pn := freeMean (ctr + 3 * j + 1) n - freeMean (ctr + 3 * j + 2) n
    let gain : Option Rat := if full then some (if pn = 0 then 0 else 192 / pn) else none
    match trimOf o gain with
    | none => (q.1, j :: q.2)
    | some (of, g) =>
      let s := q.1.wr (F.PL_TRIM_OFFSET p j) (unsgn 16 of)
      (match g with | some v => s.wr (F.PL_TRIM_GAIN p j) (unsgn 16 v) | none => s, q.2)) (s, [])
  let bad := bad.reverse
  let x := s.plane p
  let bad := if full then bad else x.cbad ++ bad.filter (fun j => !x.cbad.contains j)
  let s := bad.foldl (fun (s : State) j => if x.cbad.contains j then s else s.event (planeUnit p) 0x2006 j [2]) s
  (s.setPlane p { s.plane p with cbad := bad }).plBadSync p old

/-- The 64 probe products of a full calibration: GT, the estimate, and whether it passed (R227). The probe inputs are free: the
spec gives the generator's polynomial and neither its seed nor the order of its bits (log entry 30). -/
def State.plProbes (s : State) (p : Nat) : State :=
  let (sm, s) := (List.range 64).foldl (fun (q : List PlSample × State) _ =>
    let (xs, s) := q.2.drawBytes 51 1024
    let l := s.plSamples p (xs.map (·.toNat)) 0 3
    (q.1 ++ l, { s with freeCtr := s.freeCtr + 256 })) ([], s)
  let q := ratSum (sm.map (fun y => y.c * y.c))
  let gt := if q = 0 then 0 else ratF32 (ratSum (sm.map (fun y => y.e * y.c)) / q)
  let ds := sm.map (fun y => f32rat gt * y.c - y.e)
  let n : Rat := ((max 1 sm.length : Nat) : Rat)
  let s := s.setPlane p { s.plane p with off := ratSum ds / n, ms := ratSum (ds.map (fun d => d * d)) / n }
  (s.wr (F.PL_TRACK_GAIN_TRACK p) gt).plShow p

/-- A calibration failed outright (R227). -/
def State.plCalBad (s : State) (p : Nat) : Bool :=
  let x := s.plane p
  let gt := f32rat (s.plGt p)
  decide (4 < ((List.range 32).filter (fun r => s.plBad p (1024 + r))).length) ||
    decide (s.rd (F.PL_CFG_BAD_COL_MAX p) < (x.cbad.filter (fun j => j < 1024)).length) || decide (gt < 9 / 10) || decide (11 / 10 < gt)

/-- A full calibration's work and its outcome: the state it leaves, and whether it failed. -/
def State.plFullCal (s : State) (p : Nat) : Bool × State :=
  let s := (s.wr (F.PL_TRACK_GAIN_TRACK p) f32one).plMeasure p true
  let s := (s.wr (F.PL_TEMP_T_CAL p) (s.rd (F.PL_TEMP_T p)))
  let s := s.plProbes p
  let s := (s.wr (F.PL_STATE_CAL_GEN p) (s.rd (F.PL_STATE_CAL_GEN p) + 1)).bump (F.PL_CAL_STATUS_FULL_CALS p)
  let s := (s.setPlane p { s.plane p with calAt := s.now, since := 0, wantFull := false, wantOffset := false }).wr
    (F.PL_EST_PRODUCTS p) 0
  if s.plCalBad p then (true, s)
  else if s.plOver p then (false, s)
  else (false, s.plContract p (if s.plWarnRms p < s.rd (F.PL_EST_RMS_EST p) then ctWarn else ctIn))

/-- An offset calibration's work. -/
def State.plOffsetCal (s : State) (p : Nat) : State :=
  let s := (s.plMeasure p false).bump (F.PL_CAL_STATUS_OFFSET_CALS p)
  s.setPlane p { s.plane p with calAt := s.now, wantOffset := false }

/-! ### Weight loads (R217, R218) -/

def State.plLoadRange (s : State) (p : Nat) : Nat × Nat :=
  let c := s.rd (F.PL_LOAD_COL_COUNT p)
  (s.rd (F.PL_LOAD_COL_FIRST p), if c = 0 then 1024 else c)

/-- LOAD_OPEN acts: epoch, queued jobs answered, WEIGHTS_VALID cleared, LOADING. -/
def State.plOpenNow (s : State) (p : Nat) : State :=
  let s := (s.bumpEpoch (planeUnit p)).plAnswer p St.unitReset
  let s := s.setPl p { s.plane p with openWait := false, opened := s.plLoadRange p }
  (((s.wr (F.PL_STATE_WEIGHTS_VALID p) 0).wr (F.PL_WCHECK_LOAD_FAIL p) 0).setShell p shLoading).plReady p

/-- A LOAD_OPEN that waits acts once no job and no calibration runs, held to its epoch (R19). -/
def State.plOpenTry (s : State) (p : Nat) : State :=
  let x := s.plane p
  if x.openWait ∧ x.run = none ∧ x.cal = none then
    if s.epochFree (planeUnit p) then s.plOpenNow p
    else if s.epochHeld (planeUnit p) then s else s.holdEpoch (planeUnit p) holdLoad
  else s

def State.plOpen (s : State) (p : Nat) : State :=
  let o := s.plLoadRange p
  let sh := s.shell p
  if !s.serving (planeUnit p) || decide (sh = shLoading) || decide (sh = shChecking) || decide (1024 < o.1 + o.2) || (s.plane p).openWait then
    s.reject (R.PL_REJECTS p) 0
  else (s.setPlane p { s.plane p with openWait := true }).plOpenTry p

def State.plClose (s : State) (p : Nat) : State :=
  if s.serving (planeUnit p) ∧ s.shell p = shLoading then s.setShell p shChecking else s.reject (R.PL_REJECTS p) 0

def State.plColumn (s : State) (p j : Nat) : List Byte := s.bytes (planeWin p + j * 512) 512

/-- The check at the end of a load: per-column CRCs stored, marks of the weight checker cleared, the whole compared. -/
def State.plLoadDone (s : State) (p : Nat) : State :=
  if s.shell p ≠ shChecking then s
  else
    let x := s.plane p
    let cols := (List.range x.opened.2).map (x.opened.1 + ·)
    let crc := crc32c (cols.flatMap (s.plColumn p))
    let s := (s.setPlane p { x with
      crc := cols.foldl (fun m j => mset 0 m j (crc32c (s.plColumn p j) + 1)) x.crc,
      wbad := x.wbad.filter (fun j => !cols.contains j) }).plBadSync p x.wbad
    let s := s.setShell p shIdle
    if crc = s.rd (F.PL_LOAD_EXPECT_CRC p) then (s.wr (F.PL_STATE_WEIGHTS_VALID p) 1).wr (F.PL_WCHECK_CRC_LOADED p) crc
    else
      (s.wr (F.PL_WCHECK_LOAD_FAIL p) 1).event (planeUnit p) 0x2007 crc [s.rd (F.PL_LOAD_EXPECT_CRC p), x.opened.1, x.opened.2]

/-- One column compared with its stored CRC; a mismatch marks it BAD (R219, R220). A column with no stored CRC is not checked. -/
def State.plCheckCol (s : State) (p j code : Nat) : State :=
  let c := mget 0 (s.plane p).crc j
  if c = 0 ∨ c = crc32c (s.plColumn p j) + 1 ∨ (s.plane p).wbad.contains j = true then s
  else
    ((s.setPlane p { s.plane p with wbad := (s.plane p).wbad ++ [j] }).plBadSync p []).event (planeUnit p) 0x2006 j [code]

/-- The way back from RETAINED (R219): every column checked, then a full calibration; READY or FAULT. -/
def State.plReturn (s : State) (p : Nat) : State :=
  let s := (List.range 1024).foldl (fun s j => s.plCheckCol p j 3) s
  let cal := s.plFullCal p
  if cal.1 then cal.2.plFault p else (cal.2.setUstate (planeUnit p) US.ready).setShell p shIdle

/-! ### Reset and power (R219, R239) -/

/-- What RESETTING and OFF take: weights, CRCs, marks, WEIGHTS_VALID, GT and the estimate. -/
def State.plClear (s : State) (p : Nat) : State :=
  let x := s.plane p
  let s := (s.setPl p { pl0 with force := x.force, forceWait := x.forceWait, policyWait := x.policyWait, jobSeq := x.jobSeq }).plBadSync p
    (x.wbad ++ x.cbad)
  let s := (s.zeroRange (planeWin p) 0x80000).wr (F.PL_STATE_WEIGHTS_VALID p) 0
  (s.wr (F.PL_TRACK_GAIN_TRACK p) f32one).plShow p

/-- The plane enters RESETTING, OFF or RETAINED: jobs answered with the incremented epoch; RETAINED keeps the weights and
their CRCs, and the converters and trims lose their state (R219). -/
def State.plEnter (s : State) (p st : Nat) : State :=
  let s := ((s.bumpEpoch (planeUnit p)).plLeave p st).setShell p shIdle
  let s := if st = US.retained then
      let x := s.plane p
      let s := s.setPl p { x with cal := none, wantFull := false, wantOffset := false, openWait := false, off := 0, ms := 0 }
      ((List.range 1056).foldl (fun (s : State) j => (s.wr (F.PL_TRIM_OFFSET p j) 0).wr (F.PL_TRIM_GAIN p j) 0) s).wr
        (F.PL_TRACK_GAIN_TRACK p) f32one
    else s.plClear p
  s.plContract p ctUnknown

def State.plReset (s : State) (p : Nat) : State :=
  let st := s.ustate (planeUnit p)
  if st = US.resetting then s
  else if st = US.absent ∨ st = US.off ∨ st = US.quarantined then s.reject (R.PL_REJECTS p) 0
  else if s.epochFree (planeUnit p) then s.plEnter p US.resetting
  else s.holdEpoch (planeUnit p) US.resetting

/-- The end of RESETTING: a full calibration has run; READY, or FAULT under R227. -/
def State.plResetDone (s : State) (p : Nat) : State :=
  if s.ustate (planeUnit p) ≠ US.resetting then s
  else
    let (bad, s) := s.plFullCal p
    if bad then s.plFault p else s.setUstate (planeUnit p) US.ready

/-! ### Jobs (R221 to R223) -/

/-- The extents of a job: inputs, outputs with their header, scales and biases. -/
def PlJob.extents (j : Sys2Proof.Machine.PlJob) : List (Nat × Nat) :=
  [(j.inAddr, j.inAddr + (j.vectors - 1) * j.inStride + j.k),
    (j.outAddr, j.outAddr + 64 + (j.vectors - 1) * j.outStride + j.cols * j.eBytes)] ++
    (if j.scale = 0 then [] else [(j.scale, j.scale + 4 * j.cols)]) ++ (if j.bias = 0 then [] else [(j.bias, j.bias + 4 * j.cols)])

/-- The checks on arrival, first failing first (R222). -/
def State.plCheck (s : State) (p : Nat) (j : PlJob) : Nat :=
  let ex := j.extents
  if j.reserved || decide (j.vectors = 0) || decide (j.k = 0) || decide (1024 < j.k) || decide (1024 < j.row + j.k) ||
      decide (j.cols = 0) || decide (1024 < j.cols) || decide (1024 < j.col + j.cols) || !(decide (j.inFmt = 1) || decide (j.inFmt = 0xB)) ||
      !(decide (j.outFmt ∈ [1, 2, 3, 7, 8, 9])) || decide (7 < j.g) || decide (j.inStride % 16 ≠ 0) || decide (j.outStride % 16 ≠ 0) ||
      decide (j.outStride < j.cols * j.eBytes) || decide (j.inAddr % 16 ≠ 0) || decide (j.outAddr % 64 ≠ 0) || decide (j.scale % 16 ≠ 0) ||
      decide (j.bias % 16 ≠ 0) || !ex.all State.extInStores then St.badArgument
  else if ex.any s.extAbsent then St.absent
  else if !ex.all s.extBacked then St.badArgument
  else if ex.any (fun e => (windowsMet e).any (fun u => decide (s.ownerOf u ≠ s.ownerOf (planeUnit p)))) then St.notPermitted
  else if !s.on (F.PL_STATE_WEIGHTS_VALID p) then St.integrity
  else St.ok

/-- A SEND at a plane. -/
def State.plArrive (s : State) (m : Msg) : State :=
  let p := m.dest % 0x1000
  let st := s.ustate m.dest
  if st ≠ US.ready ∧ st ≠ US.busy then s.answer m (answerOf st)
  else if s.msgFenced m then s.answer m St.notPermitted
  else if m.kind ≠ 0 then s.answer m St.badArgument
  else if m.payload.length ≠ 64 then s.send (replyTo s m 0x10 St.badArgument [])
  else if s.shell p = shLoading then s.answer m St.busy
  else if 8 ≤ (s.plane p).queue.length + (s.plane p).run.isSome.toNat then s.answer m St.noSpace
  else
    let c := s.plCheck p (plJob m.payload)
    if c ≠ St.ok then s.send (replyTo s m 0x10 c [])
    else s.setPl p { s.plane p with queue := (s.plane p).queue ++ [m] }

/-- The next message of a queue: highest priority, then arrival order. -/
def nextJob (l : List Msg) : Option Msg :=
  l.foldl (fun (b : Option Msg) m => match b with
    | none => some m
    | some x => if x.prio < m.prio then some m else some x) none

def plRun0 (m : Msg) : PlRun :=
  ⟨m, 0, 0, 0, false, none, 0, 0, 0, false, false, false, 0, false, false, 0, 0, 0, 0, 0⟩

/-- A rest is asked for and the plane may rest (R238). -/
def State.plRestDue (s : State) (p : Nat) : Bool :=
  s.on (F.PL_CFG_REST_EN p) && (s.on (F.PL_REST_REQUEST p) || s.on (F.PL_REST_FORCE p))

/-- The next queued job starts at a job boundary. -/
def State.plStart (s : State) (p : Nat) : State :=
  let x := s.plane p
  if !s.serving (planeUnit p) || decide (s.shell p ≠ shIdle) || x.run.isSome || x.openWait || s.plWants p || s.plRestDue p then s
  else
    match nextJob x.queue with
    | none => s
    | some m =>
      let s := s.setPl p { x with queue := x.queue.erase m, run := some (plRun0 m), jobSeq := (x.jobSeq + 1) % 2 ^ 32 }
      (((s.setShell p shRunning).plReady p)).plBoundary p

/-- Header FLAGS (result header, byte 31). -/
def PlRun.flags (r : Sys2Proof.Machine.PlRun) : Nat :=
  (decide (0 < r.ooc)).toNat + (decide (0 < r.clips)).toNat * 2 + r.colFault.toNat * 4 + r.recal.toNat * 8 + r.ovr.toNat * 16 +
    r.hold.toNat * 32 + r.stop.toNat * 64

/-- The end of a job: header, ACK and report (R223, R237). -/
def State.plJobDone (s : State) (p : Nat) : State :=
  let x := s.plane p
  match x.run with
  | none => s
  | some r =>
    let j := plJob r.msg.payload
    if s.shell p ≠ shRunning ∨ (r.vec < j.vectors ∧ r.stop = false) then s
    else
      let h := toBytes 4 x.jobSeq ++ toBytes 4 j.frame ++ toBytes 8 r.t0 ++ toBytes 8 r.t1 ++ toBytes 2 (s.epochOf (planeUnit p)) ++
        toBytes 2 r.calGen ++ toBytes 2 r.temp ++ toBytes 1 r.contract ++ toBytes 1 r.flags ++ toBytes 4 r.bound ++
        toBytes 4 (s.plWorst p) ++ toBytes 4 (r.oocFirst.getD 0xFFFFFFFF) ++ toBytes 4 r.ooc ++ toBytes 4 (min r.clips 0xFFFFFFFF) ++
        toBytes 2 r.offEst ++ toBytes 2 r.rmsEst
      let (st, s) := s.busPut (s.masterOf (planeUnit p)) j.outAddr (padTo 64 h) false
      let r := r.answered st
      let status := if r.stop then r.status else if r.poison then St.integrity else St.ok
      let s := s.send (replyTo s r.msg 0x10 status [])
      let s := (s.setPl p { s.plane p with run := none, breach := none }).bumpW (F.PL_JOBS_JOBS p)
      let s := if j.safety && j.cpEn then s.plReport p 0 j.cp j.frame x.jobSeq r.bound r.ooc r.flags else s
      (((s.setShell p shIdle).plReady p).plBoundary p).plOpenTry p

/-! ### The PLANE register block (R241) -/

def State.plWriter (s : State) (r : Req) (p : Nat) : Bool :=
  r.trusted || match s.reqPart r with
    | some q => decide (s.ownerOf (planeUnit p) = q)
    | none => false

/-- PL_CTRL: with RESET set, other actions of the write are made meaningless by the state and counted. -/
def State.plCtrl (s : State) (p v : Nat) : State :=
  let live := s.serving (planeUnit p)
  let s := if bit v 1 then
      let s := s.plReset p
      if bit v 2 || bit v 3 || bit v 4 || bit v 5 then s.reject (R.PL_REJECTS p) 0 else s
    else
      let s := if bit v 2 then s.plOpen p else s
      let s := if bit v 3 then s.plClose p else s
      let s := if bit v 4 then
          if live then s.setPlane p { s.plane p with wantFull := true } else s.reject (R.PL_REJECTS p) 0
        else s
      if bit v 5 then
        if live then s.setPlane p { s.plane p with wantOffset := true } else s.reject (R.PL_REJECTS p) 0
      else s
  if bit v 0 then s.wr (F.PL_CTRL_LOCK p) 1 else s

/-- PL_CAL_CTRL (R235): POLICY, RELEASE_MS and T_FORCE; STUCK ends; the policy takes effect at the next vector boundary, at
once where no job runs. -/
def State.plCalCtrl (s : State) (p : Nat) (d : WData) : State :=
  let s := (s.writeReg (R.PL_CAL_CTRL p) d).wr (F.PL_CAL_CTRL_T_FORCE p) (s.rd (F.PL_TEMP_T p))
  let s := (s.wr (F.PL_CAL_STATUS_STUCK p) 0).setPlane p { s.plane p with policyWait := true, ovrRun := 0 }
  if (s.plane p).run.isSome then s else s.plBoundary p

def State.plForceWrite (s : State) (p j : Nat) (d : WData) : State :=
  let s := s.writeReg (R.PL_FORCE p j) d
  let s := s.setPlane p { s.plane p with forceWait := (s.plane p).forceWait ++ [j] }
  if (s.plane p).run.isSome then s else s.plBoundary p

/-- A write of the block at a block offset. -/
def State.plWrite (s : State) (r : Req) (p off : Nat) (d : WData) : State :=
  let a := R.PL_CTRL p + off
  if !s.plWriter r p || (decide (off = 0x80) && decide (r ≠ .castle)) then s.reject (R.PL_REJECTS p) off
  else if off = 0 then s.plCtrl p d.bits1
  else if off = 0x28 then s.plCalCtrl p d
  else if off = 0x80 then
    let v := d.bits1
    let s := if bit v 0 then s.wr (F.PL_REST_REQUEST p) 1 else s
    let s := if bit v 1 then s.wr (F.PL_REST_FORCE p) 1 else s
    if bit v 8 then s.wr (F.PL_REST_REQUEST p) 0 else s
  else if 0x4000 ≤ off ∧ off < 0x4000 + 1056 * 8 then s.plForceWrite p ((off - 0x4000) / 8) d
  else s.writeReg a d

/-- What the block's registers read as, where that is more than the register file holds. -/
def State.plView (s : State) (p off : Nat) : Nat :=
  let a := R.PL_CTRL p + off
  if !s.present (planeUnit p) then 0
  else if off = 0x8 then
    let q := s.ownerOf (planeUnit p)
    insField (insField (s.reg a) 8 3 (if q < 8 then q else 0)) 11 1 (decide (q < 8)).toNat
  else if off = 0x10 then insField (s.reg a) 22 3 s.moduleNo
  else if off = 0x38 then insField (s.reg a) 32 32 (min (2 ^ 32 - 1) ((s.now - (s.plane p).calAt) / 1000000))
  else s.reg a

/-! ### Rests (R238) -/

/-- The plane enters its rest at a job boundary, or at a vector boundary after FORCE: every job is answered BUSY. -/
def State.plRestEnter (s : State) (p : Nat) : State :=
  let forced := s.on (F.PL_REST_FORCE p)
  let sh := s.shell p
  if !s.serving (planeUnit p) || !s.plRestDue p || ((s.plane p).run.isSome && !forced) || (s.plane p).cal.isSome ||
      decide (sh = shLoading) || decide (sh = shChecking) then s
  else
    let s := (s.plLeave p US.resting).setShell p shIdle
    let s := s.setPlane p { s.plane p with restForced := forced }
    let s := if forced then s.bump (F.PL_REST_FORCED p) else s
    (s.wr (F.PL_REST_REQUEST p) 0).wr (F.PL_REST_FORCE p) 0

/-- The end of the rest: a fault found or a failed calibration puts the plane into FAULT. -/
def State.plRestDone (s : State) (p : Nat) (fault : Bool) (part : Nat) : State :=
  if s.ustate (planeUnit p) ≠ US.resting then s
  else
    let (bad, s) := s.plFullCal p
    if fault then
      ((s.bump (F.PL_REST_FAILS p)).event (planeUnit p) 0x6002 (planeUnit p) [part]).plFault p
    else if bad then (s.bump (F.PL_REST_FAILS p)).plFault p
    else (s.bump (F.PL_REST_RESTS p)).setUstate (planeUnit p) US.ready

end Sys2Proof.Machine
end

