-- ==== Sys2Proof/Machine/VecOps.lean ====
section
/-!
DEFINITION. The vector unit: operands of TX.VEC, its functions on one row, and the performance of an operation (R186 to
R190; 07_arithmetic.md). A result given by a bound is a free function of the operands within it (log entry 14).
-/

namespace Sys2Proof.Machine

/-! ### Functions of one element -/

/-- The larger of `ulps` units in the last place and an absolute bound. -/
def ulpBound (ulps : Nat) (absExp : Option Int) (exact : Val) : Val :=
  let u := (ulpAt exact).mul (.ofNat ulps)
  match absExp with
  | some e => maxVal u (.exp2i e)
  | none => u

/-- A special function's result, and whether it underflowed: +0 below 2^-126 (R187). -/
def special (site : Nat) (ops : List Nat) (exact bound : Val) : Nat × Bool :=
  if exact.isZero then (0, false)
  else
    let c := boundedF32 site ops exact bound
    if ((f32 c).abs).lt (.exp2i (-126)) then (0, true) else (c, false)

def cst (n d : Int) : Val := (Val.ofInt n).div (.ofInt d)

/-- The exact value of a special function of a finite operand, where the reals give one. -/
def specialExact (fn : Nat) (a : Val) : Val :=
  if fn = 0x12 then
    let i := (cst 7978846 10000000).mul (a.add ((cst 44715 1000000).mul ((a.mul a).mul a)))
    (a.scale2 (-1)).mul ((tanhVal i).add (.ofNat 1))
  else if fn = 0x13 then (a.scale2 (-1)).mul ((erfVal (a.div (sqrtVal (.ofNat 2)))).add (.ofNat 1))
  else if fn = 0x14 then a.div ((expVal a.neg).add (.ofNat 1))
  else if fn = 0x15 then (Val.ofNat 1).div ((expVal a.neg).add (.ofNat 1))
  else if fn = 0x16 then tanhVal a
  else if fn = 0x20 then expVal a
  else if fn = 0x21 then exp2Val a
  else if fn = 0x22 then lnVal a
  else if fn = 0x23 then (Val.ofNat 1).div a
  else (Val.ofNat 1).div (sqrtVal a)

/-- Whether an exponential of an operand this large would be formed in full: beyond it the function is at its limit. -/
def specialBound (fn : Nat) : Nat × Option Int :=
  if fn = 0x12 ∨ fn = 0x13 then (4, some (-20)) else if fn = 0x14 then (4, some (-22)) else if fn = 0x15 then (3, some (-24))
  else if fn = 0x16 then (3, some (-22)) else if fn = 0x23 then (1, none) else (2, none)

def inf32 (neg : Bool) : Nat := if neg then 0xFF800000 else 0x7F800000

/-- A special function of an FP32 word: result and underflow. Its limits at infinities and poles are the IEEE 754 ones; where
the formula has none, the result is a free function (log entry 14). -/
def vecSpecial (fn a : Nat) : Nat × Bool :=
  let v := f32 a
  let free : Nat := Config.openFn 40 [fn, a] % 2 ^ 32
  match v with
  | .nan => (f32nan, false)
  | .inf neg =>
    if fn = 0x12 ∨ fn = 0x13 ∨ fn = 0x14 then (if neg then free else inf32 false, false)
    else if fn = 0x15 then (if neg then 0 else f32one, false)
    else if fn = 0x16 then (if neg then 0xBF800000 else f32one, false)
    else if fn = 0x20 ∨ fn = 0x21 then (if neg then 0 else inf32 false, false)
    else if fn = 0x23 then (0, false)
    else (if neg then f32nan else if fn = 0x22 then inf32 false else 0, false)
  | .fin neg m _ =>
    if fn = 0x20 ∧ (cst 887228 10000).lt v then (inf32 false, false)
    else if fn = 0x20 ∧ v.lt (cst (-873365) 10000) then (0, true)
    else if fn = 0x21 ∧ (Val.ofNat 128).le v then (inf32 false, false)
    else if fn = 0x21 ∧ v.lt (.ofInt (-126)) then (0, true)
    else if fn = 0x22 ∧ m = 0 then (inf32 true, false)
    else if (fn = 0x22 ∨ fn = 0x25) ∧ neg ∧ m ≠ 0 then (f32nan, false)
    else if (fn = 0x23 ∨ fn = 0x25) ∧ m = 0 then (inf32 neg, false)
    else if fn = 0x14 ∧ v.lt (.ofInt (-400)) then (0, true)
    else if fn = 0x15 ∧ v.lt (.ofInt (-400)) then (0, true)
    else if fn = 0x14 ∧ (Val.ofNat 400).lt v then (a, false)
    else if fn = 0x15 ∧ (Val.ofNat 400).lt v then
      special 41 [fn, a] (.ofNat 1) (ulpBound 3 (some (-24)) (.ofNat 1))
    else if fn = 0x12 ∧ (Val.ofNat 64).lt v.abs then
      let e := if neg then Val.zero else v
      if neg then special 41 [fn, a] (.fin true 1 (-1000)) (.exp2i (-20)) else special 41 [fn, a] e (ulpBound 4 (some (-20)) e)
    else
      let e := specialExact fn v
      let (u, ab) := specialBound fn
      special 41 [fn, a] e (ulpBound u ab e)

/-- DIV: within 2 ULP of the quotient; the IEEE 754 results at zeros and infinities. -/
def vecDiv (a b : Nat) : Nat × Bool :=
  match f32 a, f32 b with
  | .fin n m e, .fin k p g =>
    if p = 0 ∨ m = 0 then ((f32div a b) % (if m = 0 ∧ p ≠ 0 then 1 else 2 ^ 32), false)
    else
      let x := (Val.fin n m e).div (.fin k p g)
      special 41 [0x26, a, b] x (ulpBound 2 none x)
  | .fin _ _ _, .inf _ => (0, false)
  | _, _ => (f32div a b, false)

/-- An elementwise function of FP32 words: result and underflow before conversion. -/
def vecElem (fn a b c arg : Nat) : Nat × Bool :=
  if fn = 0x00 then (toF32 (f32 a), false)
  else if fn = 0x01 then (f32add a b, false)
  else if fn = 0x02 then (f32sub a b, false)
  else if fn = 0x03 then (f32mul a b, false)
  else if fn = 0x04 then (f32fma a b c, false)
  else if fn = 0x05 then (f32max a b, false)
  else if fn = 0x06 then (f32min a b, false)
  else if fn = 0x07 then (f32abs a, false)
  else if fn = 0x10 then (if (f32 a).isNan then f32nan else if f32lt 0 a then a else 0, false)
  else if fn = 0x11 then (if f32le 0 a then a else f32mul a arg, false)
  else if fn = 0x24 then (f32sqrt a, false)
  else if fn = 0x26 then vecDiv a b
  else vecSpecial fn a

/-! ### Rows -/

/-- The fixed pairwise tree of a chunk: neighbours added, level by level; absent lanes count as +0 (log entry 25). -/
def treeSum : Nat → List Nat → Nat
  | 0, l => l.headD 0
  | k + 1, l => treeSum k ((List.range (2 ^ k)).map (fun i => f32add (l.getD (2 * i) 0) (l.getD (2 * i + 1) 0)))

/-- The sum of a row (R188). -/
def rowSum (l : List Nat) : Nat := (runs 64 l.length l).foldl (fun a c => f32add a (treeSum 6 c)) 0

def sumVals (l : List Val) : Val := l.foldl Val.add .zero

/-- SOFTMAX of a row of x (R190): the row, whether it was masked, and whether an element underflowed. -/
def softmaxRow (xs : List Nat) : List Nat × Bool × Bool :=
  if xs.any (fun x => (f32 x).isNan) then (xs.map (fun _ => f32nan), false, false)
  else if xs.all (fun x => x = inf32 true) then (xs.map (fun _ => 0), true, false)
  else if xs.any (fun x => x = inf32 false) then
    (xs.zipIdx.map (fun x => Config.openFn 42 (x.2 :: xs) % 2 ^ 32), false, false)
  else
    let m := f32 (xs.foldl f32max (inf32 true))
    let small (x : Nat) : Bool := x = inf32 true || ((f32 x).sub m).lt (cst (-873365) 10000)
    let es := xs.map (fun x => if small x then Val.zero else expVal ((f32 x).sub m))
    let t := sumVals es
    let k := .ofNat (ceilDiv xs.length 64 + 10)
    let ys := (xs.zip es).zipIdx.map (fun p =>
      if small p.1.1 then 0
      else
        let y := p.1.2.div t
        boundedF32 43 (p.2 :: xs) y ((y.abs.mul k).scale2 (-24)))
    (ys, false, xs.any (fun x => decide (x ≠ inf32 true) && small x))

/-- RMSNORM and LAYERNORM of a row: a NaN operand gives NaN; where the root has no positive finite argument the result is a
free function (log entry 14). -/
def normRow (layer : Bool) (as bs cs : List Nat) (arg : Nat) : List Nat :=
  let vs := as.map f32
  let n := Val.ofNat as.length
  let anyNan := vs.any (·.isNan) || (f32 arg).isNan
  let mean := if layer then (sumVals vs).div n else .zero
  let dev := vs.map (fun v => v.sub mean)
  let rad := ((sumVals (dev.map (fun v => v.mul v))).div n).add (f32 arg)
  let ok := vs.all (·.isFin) && (f32 arg).isFin && !rad.isZero && !rad.isNeg
  let k := Val.ofNat (ceilDiv as.length 64 + if layer then 10 else 8)
  dev.zipIdx.map (fun p =>
    let b := f32 (bs.getD p.2 0)
    let c := f32 (cs.getD p.2 0)
    if anyNan || b.isNan || (layer && c.isNan) then f32nan
    else if !ok || !b.isFin || (layer && !c.isFin) then Config.openFn 44 (p.2 :: arg :: as ++ bs ++ cs) % 2 ^ 32
    else
      let y := ((p.1.div (sqrtVal rad)).mul b).add (if layer then c else .zero)
      let bound := ((y.abs.mul k).add (if layer then c.abs else .zero)).scale2 (-24)
      boundedF32 45 (p.2 :: arg :: as ++ bs ++ cs) y bound)

/-- Index of the first largest element, or of the first NaN (R187). -/
def argMax (l : List Nat) : Nat :=
  match l.findIdx? (fun x => (f32 x).isNan) with
  | some i => i
  | none =>
    (l.zipIdx.foldl (fun (b : Option (Nat × Nat)) x =>
      match b with
      | none => some x
      | some y => if f32lt y.1 x.1 then some x else some y) none).elim 0 (·.2)

/-! ### TX.VEC -/

def readsB (fn : Nat) : Bool := fn ∈ [0x01, 0x02, 0x03, 0x04, 0x05, 0x06, 0x26, 0x40, 0x48, 0x49]
def readsC (fn : Nat) : Bool := fn ∈ [0x04, 0x49]
def isReduce (fn : Nat) : Bool := fn ∈ [0x30, 0x31, 0x32]

/-- The fields of a TX.VEC descriptor. -/
structure VecDesc where
  a : Nat
  b : Nat
  c : Nat
  dst : Nat
  sa : Nat
  sb : Nat
  sc : Nat
  sd : Nat
  rows : Nat
  cols : Nat
  af : Nat
  bf : Nat
  bMode : Nat
  cf : Nat
  cMode : Nat
  df : Nat
  sat : Bool
  constB : Nat
  constC : Nat
  arg : Nat
  zero : Bool
  deriving DecidableEq, Repr

def vecDesc (d : List Byte) : VecDesc :=
  { a := field d 8 4, b := field d 12 4, c := field d 16 4, dst := field d 20 4, sa := field d 24 2, sb := field d 26 2
    sc := field d 28 2, sd := field d 30 2, rows := field d 32 2, cols := field d 34 2, af := field d 36 1 % 16
    bf := field d 37 1 % 16, bMode := field d 37 1 / 16 % 4, cf := field d 38 1 % 16, cMode := field d 38 1 / 16 % 4
    df := field d 39 1 % 16, sat := bit (field d 39 1) 4, constB := field d 40 4, constC := field d 44 4, arg := field d 48 4
    zero := decide (field d 4 4 = 0) && decide (field d 36 1 < 16) && decide (field d 37 1 < 64) && decide (field d 38 1 < 64) &&
      decide (field d 39 1 < 32) && decide (field d 52 8 = 0) }

def srcFmt (c : Nat) : Bool := decide (c ≤ 9) || decide (c = 0xB)

/-- The format an operation writes in, and the columns of a row it writes. -/
def VecDesc.outFmt (x : Sys2Proof.Machine.VecDesc) (fn : Nat) : Nat := if fn = 0x32 then 3 else x.df
def VecDesc.outCols (x : Sys2Proof.Machine.VecDesc) (fn : Nat) : Nat := if isReduce fn then 1 else x.cols

/-- An operand in mode 0, 1 or 3 lies in the store. -/
def State.operandOk (s : State) (n : Nat) (x : VecDesc) (at_ stride fmt mode : Nat) : Bool :=
  mode = 2 || (srcFmt fmt &&
    (if mode = 0 then s.rowsOk n at_ stride x.rows (rowBytes fmt x.cols) && !(decide (elemBits fmt = 4) && decide (x.cols % 2 = 1))
     else
      let len := if mode = 1 then x.cols else x.rows
      s.rowsOk n at_ 0 1 (rowBytes fmt len) && !(decide (elemBits fmt = 4) && decide (len % 2 = 1))))

/-- The checks of R189. -/
def State.vecOk (s : State) (n fn : Nat) (x : VecDesc) : Bool :=
  let oc := x.outCols fn
  x.zero && decide (x.rows ≠ 0) && decide (x.cols ≠ 0) && s.operandOk n x x.a x.sa x.af 0 &&
    (if readsB fn then s.operandOk n x x.b x.sb x.bf x.bMode else decide (x.bMode = 0)) &&
    (if readsC fn then s.operandOk n x x.c x.sc x.cf x.cMode else decide (x.cMode = 0)) &&
    (!(decide (fn = 0x48) || decide (fn = 0x49)) || decide (x.bMode = 1)) && (decide (fn ≠ 0x49) || decide (x.cMode = 1)) &&
    decide (x.outFmt fn ≤ 9) && !(decide (elemBits (x.outFmt fn) = 4) && decide (oc % 2 = 1)) &&
    s.rowsOk n x.dst x.sd x.rows (rowBytes (x.outFmt fn) oc)

/-- An element decoded to FP32 (R186). -/
def decF32 (fmt v : Nat) : Nat := toF32 (decElem fmt v)

/-- An operand's row in FP32. -/
def State.operandRow (s : State) (n : Nat) (x : VecDesc) (at_ stride fmt mode k r : Nat) : List Nat :=
  if mode = 2 then List.replicate x.cols k
  else if mode = 1 then (s.rowAt n at_ fmt x.cols).map (decF32 fmt)
  else if mode = 3 then List.replicate x.cols (decF32 fmt ((s.rowAt n at_ fmt x.rows).getD r 0))
  else (s.rowAt n (at_ + r * stride * 16) fmt x.cols).map (decF32 fmt)

/-- The rows [a, a + n) of two tensors share bytes without being the same rows of the same width (R189). -/
def badOverlap (a sa ea dst sd ed rows cols oc : Nat) : Bool :=
  let la := (rows - 1) * sa * 16 + ceilDiv (cols * ea) 8
  let ld := (rows - 1) * sd * 16 + ceilDiv (oc * ed) 8
  decide (a < dst + ld) && decide (dst < a + la) && !(decide (a = dst) && decide (sa = sd) && decide (ea = ed))

/-- One row of a function: the values written, the flags before conversion (masked row, underflow). -/
def vecRow (fn : Nat) (as bs cs : List Nat) (arg : Nat) : List Nat × Bool × Bool :=
  if fn = 0x30 then ([rowSum as], false, false)
  else if fn = 0x31 then ([as.tail.foldl f32max (as.headD 0)], false, false)
  else if fn = 0x40 then softmaxRow ((as.zip bs).map (fun p => f32fma p.1 arg p.2))
  else if fn = 0x48 then (normRow false as bs cs arg, false, false)
  else if fn = 0x49 then (normRow true as bs cs arg, false, false)
  else
    let r := as.zipIdx.map (fun p => vecElem fn p.1 (bs.getD p.2 0) (cs.getD p.2 0) arg)
    (r.map (·.1), false, r.any (·.2))

/-- TX.VEC with function code `fn`. -/
def State.vecOp (s : State) (n fn : Nat) (d : List Byte) : TxRes :=
  let x := vecDesc d
  let of := x.outFmt fn
  let oc := x.outCols fn
  let put (s : State) (r : Nat) (b : List Byte) : State := s.store (storeBase n + x.dst + r * x.sd * 16) b
  let lose (s : State) : State :=
    (List.range x.rows).foldl (fun s r => s.scramble 35 (storeBase n + x.dst + r * x.sd * 16) (rowBytes of oc)) s
  if !s.vecOk n fn x then (St.badArgument, none, s)
  else if s.rowsBad n x.a x.sa x.rows (rowBytes x.af x.cols) ||
      (readsB fn && decide (x.bMode = 0) && s.rowsBad n x.b x.sb x.rows (rowBytes x.bf x.cols)) ||
      (readsC fn && decide (x.cMode = 0) && s.rowsBad n x.c x.sc x.rows (rowBytes x.cf x.cols)) then
    let (st, w, s) := s.txIntegrity n x.a
    (st, w, lose s)
  else
    let clash (at_ st fmt mode : Nat) : Bool :=
      decide (mode ≠ 2) && badOverlap at_ (if mode = 0 then st else 0) (elemBits fmt) x.dst x.sd (elemBits of)
        x.rows (if mode = 3 then x.rows else x.cols) oc
    let undef := clash x.a x.sa x.af 0 || (readsB fn && clash x.b x.sb x.bf x.bMode) || (readsC fn && clash x.c x.sc x.cf x.cMode)
    let (s', f) := (List.range x.rows).foldl (fun (q : State × TxFlags) r =>
      let as := s.operandRow n x x.a x.sa x.af 0 0 r
      let bs := if readsB fn then s.operandRow n x x.b x.sb x.bf x.bMode x.constB r else []
      let cs := if readsC fn then s.operandRow n x x.c x.sc x.cf x.cMode x.constC r else []
      let nanIn := (as ++ bs ++ cs).any (fun v => (f32 v).isNan)
      if fn = 0x32 then (put q.1 r (toBytes 4 (argMax as)), { q.2 with nanIn := q.2.nanIn || nanIn })
      else
        let (vals, masked, under) := vecRow fn as bs cs x.arg
        let f := { q.2 with nanIn := q.2.nanIn || nanIn, masked := q.2.masked || masked, under := q.2.under || under }
        let (codes, f) := convRow of x.sat (vals.map f32) f
        (put q.1 r (pack (elemBits of) codes), f)) (s, tx0)
    if undef then
      let (y, s) := s.draw 36
      (St.ok, some (y % 2 ^ 32), lose s)
    else (St.ok, some f.word, s')

end Sys2Proof.Machine
end

