-- ==== Sys2Proof/Machine/KvOps.lean ====
section
/-!
DEFINITION. The key-value cache: its tables in DRAM, profiles and row formats, pools with their free stacks and limbo, the
prefix tree, eviction, and the cache operations (R245 to R255, R265 to R276; 10_attention.md).
-/

namespace Sys2Proof.Machine

def engineUnit (e : Nat) : Nat := 0x3000 + e

/-! ### Tables in DRAM -/

/-- A field of a table entry: first byte and length. -/
abbrev TabField := Nat × Nat

def pdSeq : TabField := (0, 2)
def pdLayer : TabField := (2, 1)
def pdHead : TabField := (3, 1)
def pdBlock : TabField := (4, 4)
def pdGen : TabField := (8, 4)
def pdPoolGen : TabField := (12, 4)
def pdFill : TabField := (16, 2)
def pdRefs : TabField := (18, 2)
def pdFlags : TabField := (20, 1)
def pdProfile : TabField := (21, 1)
def pdPart : TabField := (22, 1)
def pdTent : TabField := (24, 8)
def pdScore : TabField := (32, 4)
def pdLastUse : TabField := (36, 4)

def seState : TabField := (0, 1)
def seProfile : TabField := (1, 1)
def sePart : TabField := (2, 1)
def seFlags : TabField := (3, 1)
def seLen : TabField := (4, 4)
def seTent : TabField := (8, 4)
def seMax : TabField := (12, 4)
def seKeep : TabField := (16, 4)
def sePublished : TabField := (20, 4)
def sePt : TabField := (24, 8)
def seHash : TabField := (32, 8)
def seNode : TabField := (40, 4)
def seHome : TabField := (44, 1)
def sePages : TabField := (48, 4)
def sePoolGen : TabField := (52, 4)

def drHash : TabField := (0, 8)
def drCheck : TabField := (8, 4)
def drParent : TabField := (12, 4)
def drUsers : TabField := (16, 2)
def drChildren : TabField := (18, 2)
def drProfile : TabField := (20, 1)
def drPart : TabField := (21, 1)
def drPoolGen : TabField := (24, 4)
def drLastUse : TabField := (28, 4)

def State.pdAt (s : State) (n : Nat) : Nat := s.rd F.KV_PDT_BASE_BASE + n * 64
def State.centAt (s : State) (n : Nat) : Nat := s.rd F.KV_CENT_BASE_BASE + n * 512
def State.freeAt (s : State) (n : Nat) : Nat := s.rd F.KV_FREE_BASE_BASE + n * 4
def State.seAt (s : State) (n : Nat) : Nat := s.rd F.KV_SEQ_BASE_BASE + n * 128
def State.drAt (s : State) (n : Nat) : Nat := s.rd F.KV_DIR_BASE_BASE + n * 32
def State.nodeStride (s : State) : Nat := s.rd F.KV_DIR_CFG_NODE_STRIDE_64 * 64
def State.nodeAt (s : State) (n : Nat) : Nat := s.rd F.KV_NODE_BASE_BASE + n * s.nodeStride

def State.pd (s : State) (n : Nat) (f : TabField) : Nat := s.ld (s.pdAt n + f.1) f.2
def State.setPd (s : State) (n : Nat) (f : TabField) (v : Nat) : State := s.st (s.pdAt n + f.1) f.2 v
def State.se (s : State) (n : Nat) (f : TabField) : Nat := s.ld (s.seAt n + f.1) f.2
def State.setSe (s : State) (n : Nat) (f : TabField) (v : Nat) : State := s.st (s.seAt n + f.1) f.2 v
def State.dr (s : State) (n : Nat) (f : TabField) : Nat := s.ld (s.drAt n + f.1) f.2
def State.setDr (s : State) (n : Nat) (f : TabField) (v : Nat) : State := s.st (s.drAt n + f.1) f.2 v

/-- FLAGS bits of a page descriptor. -/
def pfShared : Nat := 0
def pfRetired : Nat := 1
def pfNan : Nat := 2
def pfCent : Nat := 3

def State.pdOn (s : State) (n i : Nat) : Bool := bit (s.pd n pdFlags) i
def State.setPdOn (s : State) (n i : Nat) (b : Bool) : State := s.setPd n pdFlags (setBit (s.pd n pdFlags) i b)

def pageAddr (n : Nat) : Nat := n * 32768

/-! ### Profiles and pools (R245, R247) -/

structure Prof where
  layers : Nat
  hq : Nat
  hkv : Nat
  d : Nat
  kf : Nat
  vf : Nat
  deriving DecidableEq, Repr

def State.prof (s : State) (f : Nat) : Prof :=
  ⟨s.rd (F.KV_PROF_SHAPE_LAYERS f), s.rd (F.KV_PROF_SHAPE_H_Q f), s.rd (F.KV_PROF_SHAPE_H_KV f),
    s.rd (F.KV_PROF_SHAPE_D_32 f) * 32, s.rd (F.KV_PROF_SHAPE_K_FMT f), s.rd (F.KV_PROF_SHAPE_V_FMT f)⟩

/-- Query heads that share a key-value head. -/
def Prof.g (p : Sys2Proof.Machine.Prof) : Nat := p.hq / max 1 p.hkv

/-- Bytes of a row by format and head dimension. -/
def kvRowBytes (fmt d : Nat) : Nat :=
  if fmt ≤ 1 then 2 * d else if fmt = 2 then d + d / 16 else if fmt = 3 then d + d / 32 else d / 2 + d / 8

def State.profValid (s : State) (p : Prof) : Bool :=
  decide (p.layers ≤ 128) && decide (1 ≤ p.hq) && decide (p.hq ≤ 64) && decide (1 ≤ p.hkv) && decide (p.hkv ≤ 64) &&
    decide (p.hq % max 1 p.hkv = 0) && decide (1 ≤ p.d) && decide (p.d ≤ 256) && decide (p.kf ≤ 4) && decide (p.vf ≤ 4) &&
    decide (kvRowBytes p.kf p.d ≤ 256) && decide (kvRowBytes p.vf p.d ≤ 256) && decide (p.layers * p.hkv * 4 ≤ s.nodeStride)

def State.poolFirst (s : State) (p : Nat) : Nat := s.rd (F.KV_POOL_RANGE_FIRST_PAGE p)
def State.poolCount (s : State) (p : Nat) : Nat := if p < 8 then s.rd (F.KV_POOL_RANGE_PAGE_COUNT p) else 0
def State.poolFree (s : State) (p : Nat) : Nat := if p < 8 then s.rd (F.KV_POOL_STATUS_FREE p) else 0
def State.poolLimbo (s : State) (p : Nat) : Nat := if p < 8 then s.rd (F.KV_POOL_STATUS_LIMBO p) else 0
def State.poolGen (s : State) (p : Nat) : Nat := if p < 8 then s.rd (F.KV_POOL_STATUS_GEN p) else 0
def State.inPool (s : State) (p n : Nat) : Bool := decide (s.poolFirst p ≤ n) && decide (n < s.poolFirst p + s.poolCount p)

def State.poolsOn (s : State) : List Nat := (List.range 8).filter (fun p => s.poolCount p ≠ 0)

/-- The pool a page of the cache belongs to, while the cache is enabled. -/
def State.poolOf (s : State) (n : Nat) : Option Nat :=
  if s.on F.KV_CTRL_ENABLE then s.poolsOn.find? (fun p => s.inPool p n) else none

/-- Directory entries. -/
def State.dirSize (s : State) : Nat := 8 * 2 ^ s.rd F.KV_DIR_CFG_DIR_LOG

/-- The tables other than page tables, as ranges. -/
def State.kvTables (s : State) : List (Nat × Nat) :=
  let n := s.poolsOn.foldl (fun m p => max m (s.poolFirst p + s.poolCount p)) 0
  let r (b len : Nat) : Nat × Nat := (b, b + len)
  [r (s.pdAt 0) (n * 64), r (s.centAt 0) (n * 512), r (s.freeAt 0) (n * 4), r (s.seAt 0) (4096 * 128),
    r (s.drAt 0) (s.dirSize * 32), r (s.nodeAt 0) (s.dirSize * s.nodeStride), r (s.rd F.KV_INTENT_BASE_BASE) 8192]

/-- KV_STATUS.CONFIG_ERROR (R245). -/
def State.kvConfigError (s : State) : Bool :=
  let pool (p : Nat) : Nat × Nat := (pageAddr (s.poolFirst p), pageAddr (s.poolFirst p + s.poolCount p))
  let tabs := s.kvTables
  s.on F.KV_CTRL_ENABLE &&
    (tabs.any (fun t => decide (t.1 % 4096 ≠ 0) || decide (s.dramEnd < t.2) || (decide (t.1 < t.2) && !s.dramUnowned t.1 (t.2 - t.1))) ||
      s.poolsOn.any (fun p => decide (s.dramEnd < (pool p).2) || !s.dramIn p (pool p).1 ((pool p).2 - (pool p).1) ||
        s.poolsOn.any (fun q => decide (p ≠ q) && meets (pool p) (pool q)) || tabs.any (meets (pool p))) ||
      decide (s.rd F.KV_DIR_CFG_DIR_LOG < 10) || decide (15 < s.rd F.KV_DIR_CFG_DIR_LOG) ||
      (List.range 8).any (fun f => decide (0 < (s.prof f).layers) && !s.profValid (s.prof f)))

/-- The cache serves: KV_CTRL.ENABLE without CONFIG_ERROR. -/
def State.kvOn (s : State) : Bool := s.on F.KV_CTRL_ENABLE && !s.kvConfigError

/-- A directory entry in use; one of an old pool generation is stale and counts as empty (R278). -/
def State.drUsed (s : State) (n : Nat) : Bool :=
  decide (s.dr n drHash ≠ 0) && decide (s.dr n drPoolGen = s.poolGen (s.dr n drPart))

/-- Milliseconds of the engine's timebase, modulo 2^32. -/
def State.kvMs (s : State) (e : Nat) : Nat := s.ts64 (s.rd (F.AE_CFG_TB e)) / 1000000 % 2 ^ 32

def State.kvAge (s : State) (e t : Nat) : Nat := (s.kvMs e + 2 ^ 32 - t % 2 ^ 32) % 2 ^ 32

/-! ### Free stacks and limbo (R246, R273, R278, R422) -/

/-- The retired pages of a pool. -/
def State.poolRetired (s : State) (p : Nat) : Nat :=
  ((List.range (s.poolCount p)).filter (fun i => s.pdOn (s.poolFirst p + i) pfRetired)).length

/-- A pool as a partition reset or KV_CTRL.ENABLE leaves it: every page on its stack, LIMBO 0, GEN one further. -/
def State.poolInit (s : State) (p : Nat) : State :=
  let n := s.poolCount p
  if n = 0 then s
  else
    let s := (List.range n).foldl (fun (s : State) i => s.st (s.freeAt (s.poolFirst p + i)) 4 (s.poolFirst p + i)) s
    let s := { s with kv := { s.kv with limbo := s.kv.limbo.filter (fun x => x.pool ≠ p), depth := mset 0 s.kv.depth p n } }
    ((s.wr (F.KV_POOL_STATUS_FREE p) (n - s.poolRetired p)).wr (F.KV_POOL_STATUS_LIMBO p) 0).wr
      (F.KV_POOL_STATUS_GEN p) (s.poolGen p + 1)

/-- Numbers of the jobs in execution on any engine. -/
def State.kvRunning (s : State) : List Nat :=
  (List.range 8).flatMap (fun e => ((s.eng e).run.toList ++ (s.eng e).yielded.toList).map (·.job))

/-- A page freed by job `by_` (0: by no engine's job): GEN increments; it waits in limbo for the other jobs in execution. A
retired page returns to no pool. -/
def State.freePage (s : State) (n by_ : Nat) : State :=
  let p := s.pd n pdPart
  let s := ((s.setPd n pdGen (s.pd n pdGen + 1)).setPd n pdRefs 0).setPdOn n pfShared false
  if s.pdOn n pfRetired then s
  else
    let s := { s with kv := { s.kv with limbo := s.kv.limbo ++ [({ page := n, pool := p, jobs := s.kvRunning.filter (fun j => j ≠ by_) } : Limbo)] } }
    s.wr (F.KV_POOL_STATUS_LIMBO p) (s.poolLimbo p + 1)

/-- A job ended or was stopped: no freed page waits for it any more. -/
def State.kvEnded (s : State) (job : Nat) : State :=
  { s with kv := { s.kv with limbo := s.kv.limbo.map (fun x => { x with jobs := x.jobs.filter (fun j => j ≠ job) }) } }

/-- A page pushed on its pool's stack. -/
def State.pushPage (s : State) (p n : Nat) : State :=
  let d := mget 0 s.kv.depth p
  let s := s.st (s.freeAt (s.poolFirst p + d)) 4 n
  let s := { s with kv := { s.kv with depth := mset 0 s.kv.depth p (d + 1) } }
  s.wr (F.KV_POOL_STATUS_FREE p) (s.poolFree p + 1)

/-- The oldest page in limbo for which every job has ended moves to its stack. -/
def State.limboRelease (s : State) : State :=
  match s.kv.limbo.find? (fun x => x.jobs.isEmpty) with
  | none => s
  | some x =>
    let s := { s with kv := { s.kv with limbo := s.kv.limbo.erase x } }
    (s.wr (F.KV_POOL_STATUS_LIMBO x.pool) (s.poolLimbo x.pool - 1)).pushPage x.pool x.page

/-- A page taken from a stack; retired ones met on it are discarded. -/
def State.popPage (s : State) (p : Nat) : Nat → Option (Nat × State)
  | 0 => none
  | fuel + 1 =>
    let d := mget 0 s.kv.depth p
    if d = 0 then none
    else
      let n := s.ld (s.freeAt (s.poolFirst p + d - 1)) 4
      let s := { s with kv := { s.kv with depth := mset 0 s.kv.depth p (d - 1) } }
      if s.pdOn n pfRetired then s.popPage p fuel
      else some (n, s.wr (F.KV_POOL_STATUS_FREE p) (s.poolFree p - 1))

/-- `k` pages taken. -/
def State.popPages (s : State) (p : Nat) : Nat → List Nat × State
  | 0 => ([], s)
  | k + 1 =>
    match s.popPage p (mget 0 s.kv.depth p) with
    | none => ([], s)
    | some (n, s) =>
      let (l, s) := s.popPages p k
      (n :: l, s)

/-- A page of an enabled pool is retired: out of the free pages or limbo at once, masked wherever it is mapped (R422). -/
def State.retirePage (s : State) (n : Nat) : Bool × State :=
  match s.poolOf n with
  | none => (false, s)
  | some p =>
    if s.pdOn n pfRetired then (false, s)
    else
      let inLimbo := s.kv.limbo.any (fun x => x.page = n)
      let free := !inLimbo && decide (s.pd n pdRefs = 0)
      let s := (s.setPdOn n pfRetired true).setPd n pdGen (s.pd n pdGen + 1)
      let s := { s with kv := { s.kv with limbo := s.kv.limbo.filter (fun x => x.page ≠ n) } }
      let s := if inLimbo then s.wr (F.KV_POOL_STATUS_LIMBO p) (s.poolLimbo p - 1) else s
      let s := if free then s.wr (F.KV_POOL_STATUS_FREE p) (s.poolFree p - 1) else s
      (true, (s.bumpW F.MC_RETIRE_RETIRED_PAGES).wr F.MC_RETIRE_LAST_PAGE n)

/-! ### Page tables -/

def State.pteAt (s : State) (q l h b : Nat) : Nat :=
  s.se q sePt + ((l * (s.prof (s.se q seProfile)).hkv + h) * s.se q seMax + b) * 8
def State.pte (s : State) (q l h b : Nat) : Nat := s.ld (s.pteAt q l h b) 8
def State.setPte (s : State) (q l h b v : Nat) : State := s.st (s.pteAt q l h b) 8 v

def ptePage (v : Nat) : Nat := bits v 0 24
def pteValid (v : Nat) : Bool := bit v 24
def pteEvicted (v : Nat) : Bool := bit v 25
def pteShared (v : Nat) : Bool := bit v 26
def pteGen (v : Nat) : Nat := bits v 32 32
def mkPte (page gen : Nat) (shared : Bool) : Nat := page % 2 ^ 24 + 2 ^ 24 + shared.toNat * 2 ^ 26 + gen % 2 ^ 32 * 2 ^ 32

def State.seProf (s : State) (q : Nat) : Prof := s.prof (s.se q seProfile)

/-- Every list of a sequence: layers and key-value heads. -/
def State.kvLists (s : State) (q : Nat) : List (Nat × Nat) :=
  (List.range (s.seProf q).layers).flatMap (fun l => (List.range (s.seProf q).hkv).map (fun h => (l, h)))

/-- Positions of a block that a list holds: the page's FILL; a retired page of the list keeps it, an evicted one was full. -/
def State.blockFill (s : State) (q l h b : Nat) : Nat :=
  let v := s.pte q l h b
  let n := ptePage v
  if pteValid v then s.pd n pdFill
  else if pteEvicted v then
    if s.pdOn n pfRetired && decide (s.pd n pdSeq = q) && decide (s.pd n pdLayer = l) && decide (s.pd n pdHead = h) &&
        decide (s.pd n pdBlock = b) && decide (s.pd n pdPoolGen = s.se q sePoolGen) then s.pd n pdFill
    else 64
  else 0

/-- The extent of a layer: positions written in it. -/
def State.extent (s : State) (q l : Nat) : Nat :=
  match (List.range (s.se q seMax)).reverse.find? (fun b => decide (s.blockFill q l 0 b ≠ 0)) with
  | some b => 64 * b + s.blockFill q l 0 b
  | none => 0

/-- The home engine marks the entries of retired pages EVICTED (R276). -/
def State.markRetired (s : State) (q : Nat) : State :=
  (s.kvLists q).foldl (fun (s : State) lh => (List.range (s.se q seMax)).foldl (fun (s : State) b =>
    let v := s.pte q lh.1 lh.2 b
    if pteValid v && s.pdOn (ptePage v) pfRetired then
      (s.setPte q lh.1 lh.2 b (setBit (setBit v 24 false) 25 true)).setSe q sePages (s.se q sePages - 1)
    else s) s) s

/-! ### Row formats (R251, R252) -/

/-- The smallest FP16 value at or above a rational, and the largest at or below. -/
def f16Up (r : Rat) : Nat :=
  let c := fmtF16.div (.ofInt r.num) (.ofNat r.den)
  if 0 ≤ r.num then (if (fmtF16.dec c).isFin ∧ (fmtF16.dec c).toRat < r then c + 1 else c)
  else
    let m := fmtF16.div (.ofNat r.num.natAbs) (.ofNat r.den)
    if (fmtF16.dec m).isFin = false then 0xFBFF
    else if -(fmtF16.dec m).toRat < r then 0x8000 + (m - 1) else 0x8000 + m

def f16Down (r : Rat) : Nat :=
  if 0 ≤ r.num then
    let c := fmtF16.div (.ofInt r.num) (.ofNat r.den)
    if (fmtF16.dec c).isFin = false then 0x7BFF else if r < (fmtF16.dec c).toRat then c - 1 else c
  else
    let m := f16Up (-r)
    0x8000 + m

def maxRat (l : List Rat) : Rat := l.foldl (fun a b => if a < b then b else a) (l.headD 0)
def minRat (l : List Rat) : Rat := l.foldl (fun a b => if b < a then b else a) (l.headD 0)

/-- The codes and scale bytes of one group of 32 in a quantised format, and whether it is a NaN group. -/
def encGroup (fmt : Nat) (xs : List Val) : List Nat × List Byte × Bool :=
  let zero := xs.map (fun _ => 0)
  if xs.any (fun x => !x.isFin) then
    (zero, if fmt = 3 then [0xFF] else toBytes 2 0x7E00 ++ (if fmt = 4 then toBytes 2 0x7E00 else []), true)
  else
    let rs := xs.map (·.toRat)
    if fmt = 3 then
      let c := mxScale 8 xs
      (xs.map (fun x => (mxElem 5 c x).1), toBytes 1 c, false)
    else if fmt = 2 then
      let sc := f16Up (maxRat (rs.map ratAbs) / 127)
      let q (r : Rat) : Nat :=
        if (fmtF16.dec sc).isFin ∧ sc ≠ 0 then unsgn 8 (clampI (-127) 127 (ratRound (r / (fmtF16.dec sc).toRat))) else 0
      (rs.map q, toBytes 2 sc, false)
    else
      let z := f16Down (minRat rs)
      let sc := if (fmtF16.dec z).isFin then f16Up ((maxRat rs - (fmtF16.dec z).toRat) / 15) else 0x7C00
      let q (r : Rat) : Nat :=
        if (fmtF16.dec z).isFin = false then Config.openFn 52 (xs.map toF32) % 16
        else if (fmtF16.dec sc).isFin ∧ sc ≠ 0 then
          (clampI 0 15 (ratRound ((r - (fmtF16.dec z).toRat) / (fmtF16.dec sc).toRat))).toNat
        else 0
      (rs.map q, toBytes 2 sc ++ toBytes 2 z, false)

/-- A row encoded, padded to 256 bytes, and whether it holds a NaN group. -/
def encRow (fmt : Nat) (xs : List Val) : List Byte × Bool :=
  if fmt ≤ 1 then (padTo 256 ((xs.map (fun x => (convElem (fmt + 7) true x).1)).flatMap (toBytes 2)), false)
  else
    let gs := (runs 32 xs.length xs).map (encGroup fmt)
    (padTo 256 (pack (if fmt = 4 then 4 else 8) (gs.flatMap (·.1)) ++ gs.flatMap (·.2.1)), gs.any (·.2.2))

/-- A row decoded to its D values. -/
def decRow (fmt d : Nat) (l : List Byte) : List Val :=
  if fmt ≤ 1 then (unpack 16 d l).map (decElem (fmt + 7))
  else
    let cw := if fmt = 4 then 4 else 8
    let cs := unpack cw d l
    let at_ (j : Nat) : Nat := d * cw / 8 + j * (if fmt = 4 then 4 else if fmt = 3 then 1 else 2)
    cs.zipIdx.map (fun c =>
      let o := at_ (c.2 / 32)
      if fmt = 3 then mxVal 5 c.1 (field l o 1)
      else
        let sc := fmtF16.dec (field l o 2)
        if fmt = 2 then (Val.ofInt (sgn 8 c.1)).mul sc
        else f32 (toF32 ((fmtF16.dec (field l (o + 2) 2)).add ((Val.ofNat c.1).mul sc))))

def State.keyRow (s : State) (p : Prof) (page i : Nat) : List Val :=
  decRow p.kf p.d (s.bytes (pageAddr page + i * 256) (kvRowBytes p.kf p.d))
def State.valRow (s : State) (p : Prof) (page i : Nat) : List Val :=
  decRow p.vf p.d (s.bytes (pageAddr page + 16384 + i * 256) (kvRowBytes p.vf p.d))

/-- A dot product: 64-element chunks as groups, added in ascending order (R258). -/
def dotF32 (a b : List Val) : Nat :=
  match (runs 64 a.length (a.zipWith Val.mul b)).map groupSum with
  | [] => 0
  | g :: r => r.foldl f32add g

/-- The centroid of a full page (R266). -/
def State.centroid (s : State) (p : Prof) (page : Nat) : State :=
  let rows := (List.range 64).map (fun i => s.keyRow p page i)
  let c (x : Nat) : Nat :=
    let t := (rows.drop 1).foldl (fun a r => f32add a (toF32 (r.getD x .zero))) (toF32 ((rows.headD []).getD x .zero))
    (convElem 7 true ((f32 t).scale2 (-6))).1
  (s.store (s.centAt page) ((List.range p.d).flatMap (fun x => toBytes 2 (c x)))).setPdOn page pfCent true

/-- Pages of a list that are full with TENT_MASK zero and have no centroid yet receive one. -/
def State.centroids (s : State) (q l h : Nat) : State :=
  (List.range (s.se q seMax)).foldl (fun (s : State) b =>
    let v := s.pte q l h b
    let n := ptePage v
    if pteValid v && decide (s.pd n pdFill = 64) && decide (s.pd n pdTent = 0) && !s.pdOn n pfCent then s.centroid (s.seProf q) n
    else s) s

/-! ### Eviction (R272) and the prefix tree (R267 to R270) -/

def State.recentBlocks (s : State) (f : Nat) : Nat := max 1 (s.rd (F.KV_PROF_EVICT_RECENT_BLOCKS f))

/-- Whether the page of block b may be evicted; the recent blocks lie at the end of the list's extent. -/
def State.evictable (s : State) (q l h b : Nat) : Bool :=
  let v := s.pte q l h b
  let n := ptePage v
  let f := s.se q seProfile
  pteValid v && decide (s.rd (F.KV_PROF_EVICT_SINK_BLOCKS f) ≤ b) && decide (b + s.recentBlocks f < ceilDiv (s.extent q l) 64) &&
    decide (s.pd n pdRefs = 1) && !s.pdOn n pfShared && decide (s.pd n pdFill = 64) && decide (s.pd n pdTent = 0)

/-- The block of a list to evict: lowest SCORE, lowest block among equals. -/
def State.evictPick (s : State) (q l h : Nat) : Option Nat :=
  ((List.range (s.se q seMax)).filter (s.evictable q l h)).foldl (fun (o : Option Nat) b =>
    match o with
    | none => some b
    | some c => if s.pd (ptePage (s.pte q l h b)) pdScore < s.pd (ptePage (s.pte q l h c)) pdScore then some b else some c) none

def State.evict (s : State) (q l h b by_ : Nat) : State :=
  let v := s.pte q l h b
  let p := s.se q sePart
  let s := (s.setPte q l h b (setBit (setBit v 24 false) 25 true)).setSe q sePages (s.se q sePages - 1)
  (s.freePage (ptePage v) by_).bump (F.KV_POOL_COUNTS_EVICTIONS p)

/-- A reference of a page dropped; the page is freed at 0. The state, and 1 where it was freed. -/
def State.dropRef (s : State) (n by_ : Nat) : Nat × State :=
  let r := s.pd n pdRefs - 1
  if r = 0 then (1, s.freePage n by_) else (0, s.setPd n pdRefs r)

/-- The page IDs of a node. -/
def State.nodePages (s : State) (n : Nat) : List Nat :=
  let p := s.prof (s.dr n drProfile)
  (List.range (p.layers * p.hkv)).map (fun i => s.ld (s.nodeAt n + i * 4) 4)

/-- A node is reclaimed (R270). -/
def State.reclaim (s : State) (n by_ : Nat) : State :=
  let parent := s.dr n drParent
  let s := (s.nodePages n).foldl (fun (s : State) pg =>
    let (x, s) := s.dropRef pg by_
    if x = 0 then s.setPdOn pg pfShared false else s) s
  let s := if parent ≠ 0xFFFFFFFF then s.setDr parent drChildren (s.dr parent drChildren - 1) else s
  (s.store (s.drAt n) (List.replicate 32 0)).bump F.KV_EVENTS_RECLAIMS

/-- The unreferenced leaf among some entries with the oldest LAST_USE, the lowest index among equals. -/
def State.leafAmong (s : State) (e : Nat) (l : List Nat) : Option Nat :=
  (l.filter (fun n => s.drUsed n && decide (s.dr n drUsers = 0) && decide (s.dr n drChildren = 0))).foldl
    (fun (o : Option Nat) n => match o with
      | none => some n
      | some c => if s.kvAge e (s.dr c drLastUse) < s.kvAge e (s.dr n drLastUse) then some n else some c) none

/-- The hash of a block (R267). -/
def blockHash (tag part prof parent : Nat) (toks : List Nat) : Nat :=
  let ws := (tag * 2 ^ 32 + part * 256 + prof) :: (List.range 32).map (fun i => toks.getD (2 * i) 0 + toks.getD (2 * i + 1) 0 * 2 ^ 32)
  let x := ws.foldl (fun x w =>
    let y := (x ^^^ w) * 0x9E3779B97F4A7C15 % 2 ^ 64
    y ^^^ (y / 2 ^ 29)) parent
  let x := x ^^^ (x / 2 ^ 32)
  if x = 0 then 1 else x

def State.bucketOf (s : State) (x : Nat) : List Nat :=
  let b := x / 2 ^ (64 - s.rd F.KV_DIR_CFG_DIR_LOG)
  (List.range 8).map (b * 8 + ·)

/-- The matching node of a bucket, with CHECK mismatches counted. -/
def State.dirMatch (s : State) (x chk parent prof part : Nat) : Option Nat × State :=
  let l := (s.bucketOf x).filter (fun n => s.drUsed n && decide (s.dr n drHash = x))
  let s := (l.filter (fun n => s.dr n drCheck ≠ chk)).foldl (fun (s : State) _ => s.bump F.KV_EVENTS_CHECK_MISMATCH) s
  (l.find? (fun n => decide (s.dr n drCheck = chk) && decide (s.dr n drParent = parent) && decide (s.dr n drProfile = prof) &&
    decide (s.dr n drPart = part)), s)

/-! ### Cache operations -/

/-- A cache operation in execution: the engine, its job's number, its partition, its master and its descriptor. -/
structure KvJob where
  e : Nat
  job : Nat
  part : Nat
  m : Master
  d : List Byte
  deriving DecidableEq, Repr

def KvJob.op (k : Sys2Proof.Machine.KvJob) : Nat := field k.d 0 1
def KvJob.flags (k : Sys2Proof.Machine.KvJob) : Nat := field k.d 1 1
def KvJob.q (k : Sys2Proof.Machine.KvJob) : Nat := field k.d 2 2 % 4096
def KvJob.arg (k : Sys2Proof.Machine.KvJob) (i : Nat) : Nat := field k.d (4 + 4 * i) 4
def KvJob.addr (k : Sys2Proof.Machine.KvJob) (i : Nat) : Nat := field k.d (24 + 8 * i) 6
def KvJob.resultAddr (k : Sys2Proof.Machine.KvJob) : Nat := field k.d 56 6

/-- What an operation answers: status, the three values, and whether it waits for limbo to drain (R253). -/
structure KvRes where
  status : Nat
  v0 : Nat
  v1 : Nat
  v2 : Nat
  wait : Bool
  s : State
  deriving DecidableEq, Repr

/-- A read of an engine: bytes from DRAM count in AE_BYTES. -/
def State.aeGet (s : State) (e : Nat) (m : Master) (a len : Nat) : Nat × List Byte × Bool × State :=
  let (st, d, p, s) := s.busGet m a len
  (st, d, p, if a < 0x400000000000 then s.wr (F.AE_BYTES_BYTES e) (s.rd (F.AE_BYTES_BYTES e) + d.length) else s)

/-- SEQ_OPEN's matching: block b on, with the parent's hash and entry; blocks matched, last hash and node. -/
def State.matchBlocks (s : State) (k : KvJob) : Nat → Nat → Nat → Nat → Nat × Nat × Nat × Nat × State
  | 0, b, h, n => (St.ok, b, h, n, s)
  | fuel + 1, b, h, n =>
    let (st, t, bad, s) := s.aeGet k.e k.m (k.addr 1 + b * 256) 256
    if st ≠ St.ok ∨ bad = true then (if st ≠ St.ok then st else St.integrity, b, h, n, s)
    else
      let f := s.se k.q seProfile
      let x := blockHash (s.rd (F.KV_PROF_TAG_MODEL_TAG f)) k.part f h ((List.range 64).map (fun i => field t (i * 4) 4))
      match s.dirMatch x (crc32c t) n f k.part with
      | (none, s) => (St.ok, b, h, n, s)
      | (some m, s) =>
        let pgs := s.nodePages m
        if pgs.any (fun pg => s.pdOn pg pfRetired) then (St.ok, b, h, n, s)
        else
          let hk := (s.prof f).hkv
          let s := pgs.zipIdx.foldl (fun (s : State) pg =>
            (s.setPte k.q (pg.2 / max 1 hk) (pg.2 % max 1 hk) b (mkPte pg.1 (s.pd pg.1 pdGen) true)).setPd pg.1 pdRefs (s.pd pg.1 pdRefs + 1)) s
          let s := (s.setDr m drUsers (s.dr m drUsers + 1)).setDr m drLastUse (s.kvMs k.e)
          (s.setSe k.q sePages (s.se k.q sePages + pgs.length)).matchBlocks k fuel (b + 1) x m

/-- SEQ_OPEN (R249, R269). -/
def State.kvOpen (s : State) (k : KvJob) : KvRes :=
  let f := k.arg 0
  let p := s.prof f
  let no (st : Nat) : KvRes := ⟨st, s.se k.q seLen, 0, s.poolFree k.part, false, s⟩
  if s.se k.q seState ≠ 0 then no St.refused
  else if p.layers = 0 then no St.badArgument
  else if k.part < 8 ∧ s.poolFree k.part + s.poolLimbo k.part < s.rd (F.KV_POOL_LIMITS_ADMIT_MIN k.part) then
    let s := s.bump (F.KV_POOL_COUNTS_REFUSED_ADMIT k.part)
    ⟨St.noSpace, s.se k.q seLen, 0, s.poolFree k.part, false, s⟩
  else if 8 ≤ k.part ∨ s.dramEnd < k.addr 0 + p.layers * p.hkv * k.arg 1 * 8 ∨
      s.dramIn k.part (k.addr 0) (p.layers * p.hkv * k.arg 1 * 8) = false then no St.notPermitted
  else
    let s := s.store (s.seAt k.q) (toBytes 1 1 ++ toBytes 1 f ++ toBytes 1 k.part ++ toBytes 1 (k.flags % 8) ++ toBytes 4 0 ++ toBytes 4 0 ++
      toBytes 4 (k.arg 1) ++ toBytes 4 (k.arg 2) ++ toBytes 4 0 ++ toBytes 8 (k.addr 0) ++ toBytes 8 0 ++ toBytes 4 0xFFFFFFFF ++
      toBytes 1 k.e ++ toBytes 3 0 ++ toBytes 4 0 ++ toBytes 4 (s.poolGen k.part) ++ List.replicate 72 0)
    let (st, b, h, n, s) := s.matchBlocks k (min (k.arg 3 / 64) (k.arg 1)) 0 0 0xFFFFFFFF
    let s := (((s.setSe k.q seLen (64 * b)).setSe k.q sePublished b).setSe k.q seHash h).setSe k.q seNode n
    ⟨st, 64 * b, b, s.poolFree k.part, false, s⟩

/-- The blocks an APPEND needs new pages for, as (head, block). -/
def State.appendNeed (s : State) (q l pos count : Nat) : List (Nat × Nat) :=
  (List.range (s.seProf q).hkv).flatMap (fun h =>
    ((List.range ((pos + count - 1) / 64 + 1 - pos / 64)).map (pos / 64 + ·)).filterMap (fun b =>
      let v := s.pte q l h b
      if pteValid v || pteEvicted v then none else some (h, b)))

/-- The loop of R253: reclaims, then evictions, until the pool holds enough; evictions made, and whether it does. -/
def State.makeRoom (s : State) (k : KvJob) (need thr : Nat) : Nat → Nat → Bool × Nat × State
  | 0, n => (false, n, s)
  | fuel + 1, n =>
    if need + thr ≤ s.poolFree k.part + s.poolLimbo k.part then (true, n, s)
    else
      match s.leafAmong k.e ((List.range s.dirSize).filter (fun i => s.dr i drPart = k.part)) with
      | some i => (s.reclaim i k.job).makeRoom k need thr fuel n
      | none =>
        let l := k.arg 0 % 256
        let cand := if bit (s.se k.q seFlags) 1 then
            (List.range (s.seProf k.q).hkv).findSome? (fun h => (s.evictPick k.q l h).map (fun b => (h, b)))
          else none
        match cand with
        | some (h, b) => (s.evict k.q l h b k.job).makeRoom k need thr fuel (n + 1)
        | none => (false, n, s)

/-- Evictions down to KEEP_PAGES resident pages of a list. -/
def State.keepPages (s : State) (k : KvJob) (l h : Nat) : Nat → Nat → Nat × State
  | 0, n => (n, s)
  | fuel + 1, n =>
    let keep := s.se k.q seKeep
    let have_ := ((List.range (s.se k.q seMax)).filter (fun b => pteValid (s.pte k.q l h b))).length
    if keep = 0 ∨ have_ ≤ keep then (n, s)
    else
      match s.evictPick k.q l h with
      | some b => (s.evict k.q l h b k.job).keepPages k l h fuel (n + 1)
      | none => (n, s.bump F.KV_EVENTS_KEEP_OVERRUNS)

/-- Rows i to i + n - 1 of a source in memory, in order, up to the first that is not answered OK. -/
def State.sourceRowsAt (s : State) (k : KvJob) (base len stride : Nat) : Nat → Nat → Nat × List (List Byte) × Bool × State
  | 0, _ => (St.ok, [], false, s)
  | n + 1, i =>
    let (st, d, p, s) := s.aeGet k.e k.m (base + i * stride) len
    if st ≠ St.ok then (st, [d], p, s)
    else
      let (st, l, p', s) := s.sourceRowsAt k base len stride n (i + 1)
      (st, d :: l, p || p', s)

/-- The first n rows of a source in memory. -/
def State.sourceRows (s : State) (k : KvJob) (base len stride n : Nat) : Nat × List (List Byte) × Bool × State :=
  s.sourceRowsAt k base len stride n 0

/-- One position of one head written; a block whose page was retired only counts it. -/
def State.appendRow (s : State) (k : KvJob) (h pos : Nat) (kr vr : List Val) : State :=
  let p := s.seProf k.q
  let l := k.arg 0 % 256
  let v := s.pte k.q l h (pos / 64)
  let n := ptePage v
  let i := pos % 64
  let s := if pteValid v then
      let (kb, x) := encRow p.kf kr
      let (vb, y) := encRow p.vf vr
      let s := (s.dramWrite k.m (pageAddr n + i * 256) kb false).2
      let s := (s.dramWrite k.m (pageAddr n + 16384 + i * 256) vb false).2
      if x || y then s.setPdOn n pfNan true else s
    else s
  let s := s.setPd n pdFill (i + 1)
  if bit k.flags 0 then s.setPd n pdTent (setBit (s.pd n pdTent) i true) else s

/-- The checks of R250. -/
def State.appendOk (s : State) (k : KvJob) : Bool :=
  let l := k.arg 0 % 256
  let pos := k.arg 1
  let n := k.arg 2
  let tent := (List.range (s.seProf k.q).hkv).any (fun h => (List.range (s.se k.q seMax)).any (fun b =>
    let v := s.pte k.q l h b
    pteValid v && decide (s.pd (ptePage v) pdTent ≠ 0)))
  decide (pos = s.extent k.q l) && (decide (l = 0) || decide (pos + n ≤ s.extent k.q (l - 1))) &&
    decide ((pos + n - 1) / 64 < s.se k.q seMax) &&
    (if bit k.flags 0 then decide (pos + n ≤ s.se k.q seLen + 64) else decide (s.se k.q seTent = 0) && !tent)

/-- A free descriptor taken for a block. -/
def State.takeFor (s : State) (k : KvJob) (h b n : Nat) : State :=
  let s := s.store (s.pdAt n) (toBytes 2 k.q ++ toBytes 1 (k.arg 0) ++ toBytes 1 h ++ toBytes 4 b ++ toBytes 4 (s.pd n pdGen) ++
    toBytes 4 (s.poolGen k.part) ++ toBytes 2 0 ++ toBytes 2 1 ++ toBytes 1 0 ++ toBytes 1 (s.se k.q seProfile) ++ toBytes 1 k.part ++
    toBytes 1 0 ++ toBytes 8 0 ++ toBytes 4 0 ++ toBytes 4 (s.pd n pdLastUse) ++ List.replicate 24 0)
  (s.setPte k.q (k.arg 0 % 256) h b (mkPte n (s.pd n pdGen) false)).setSe k.q sePages (s.se k.q sePages + 1)

/-- Taking the pages and writing the positions, all or nothing (R253, R254). -/
def State.appendTake (s : State) (k : KvJob) (evicted : Nat) : KvRes :=
  let l := k.arg 0 % 256
  let sf := k.arg 0 / 256 % 16
  let sz := if sf = 9 then 4 else 2
  let p := s.seProf k.q
  let need := s.appendNeed k.q l (k.arg 1) (k.arg 2)
  let no (st : Nat) (s : State) : KvRes := ⟨st, 0, evicted, s.poolFree k.part, false, s⟩
  if s.poolFree k.part < need.length then ⟨St.ok, 0, evicted, 0, true, s⟩
  else
    let depth := mget 0 s.kv.depth k.part
    let free := s.poolFree k.part
    let (pgs, s) := s.popPages k.part need.length
    let back (s : State) : State :=
      ({ s with kv := { s.kv with depth := mset 0 s.kv.depth k.part depth } }).wr (F.KV_POOL_STATUS_FREE k.part) free
    let (st, kd, kp, s) := s.sourceRows k (k.addr 0) (p.hkv * p.d * sz) (k.arg 3) (k.arg 2)
    if st ≠ St.ok then no st (back s)
    else
      let (st, vd, vp, s) := s.sourceRows k (k.addr 1) (p.hkv * p.d * sz) (k.arg 3) (k.arg 2)
      if st ≠ St.ok then no st (back s)
      else if kp || vp then no St.integrity (back s)
      else
        let s := (need.zip pgs).foldl (fun (s : State) x => s.takeFor k x.1.1 x.1.2 x.2) s
        let (n, s) := (List.range p.hkv).foldl (fun (q : Nat × State) h =>
          let (n, s) := q.2.keepPages k l h (q.2.se k.q seMax + 1) 0
          (q.1 + n, s)) (evicted, s)
        let row (d : List Byte) (h : Nat) : List Val := (unpack (8 * sz) p.d (slice d (h * p.d * sz) (p.d * sz))).map (decElem sf)
        let s := (List.range (k.arg 2)).foldl (fun (s : State) j => (List.range p.hkv).foldl (fun (s : State) h =>
          s.appendRow k h (k.arg 1 + j) (row (kd.getD j []) h) (row (vd.getD j []) h)) s) s
        let s := (List.range p.hkv).foldl (fun (s : State) h => s.centroids k.q l h) s
        let s := if l + 1 = p.layers then
            if bit k.flags 0 then s.setSe k.q seTent (s.se k.q seTent + k.arg 2) else s.setSe k.q seLen (s.se k.q seLen + k.arg 2)
          else s
        ⟨St.ok, need.length, n, s.poolFree k.part, false, s⟩

/-- APPEND (R250, R253). -/
def State.kvAppend (s : State) (k : KvJob) : KvRes :=
  let s := s.markRetired k.q
  if s.appendOk k = false then ⟨St.badArgument, 0, 0, s.poolFree k.part, false, s⟩
  else
    let need := (s.appendNeed k.q (k.arg 0 % 256) (k.arg 1) (k.arg 2)).length
    let batch := bit (s.se k.q seFlags) 2
    let thr := if batch && decide (k.part < 8) then s.rd (F.KV_POOL_LIMITS_BATCH_RESERVE k.part) else 0
    let (ok, n, s) := s.makeRoom k need thr (s.dirSize + s.poolCount k.part + 1) 0
    if ok then s.appendTake k n
    else
      let s := s.bump (if batch then F.KV_POOL_COUNTS_REFUSED_BATCH k.part else F.KV_POOL_COUNTS_REFUSED_LATENCY k.part)
      ⟨St.noSpace, 0, n, s.poolFree k.part, false, s⟩

/-- COMMIT (R255). -/
def State.kvCommit (s : State) (k : KvJob) : KvRes :=
  let s := s.markRetired k.q
  let n := k.arg 2
  let len := s.se k.q seLen
  let t := s.se k.q seTent
  let p := s.seProf k.q
  if n = 0 then ⟨St.ok, len, t, 0, false, s⟩
  else if t < n ∨ ((List.range p.layers).any (fun l => decide (s.extent k.q l ≠ len + t))) = true then ⟨St.badArgument, len, t, 0, false, s⟩
  else
    let s := (s.kvLists k.q).foldl (fun (s : State) lh => (List.range n).foldl (fun (s : State) j =>
      let v := s.pte k.q lh.1 lh.2 ((len + j) / 64)
      if pteValid v then s.setPd (ptePage v) pdTent (setBit (s.pd (ptePage v) pdTent) ((len + j) % 64) false) else s) s) s
    let s := (s.setSe k.q seLen (len + n)).setSe k.q seTent (t - n)
    let s := (s.kvLists k.q).foldl (fun (s : State) lh => s.centroids k.q lh.1 lh.2) s
    ⟨St.ok, len + n, t - n, 0, false, s⟩

/-- One block cut to the positions below `r`: freed pages counted. -/
def State.cutBlock (s : State) (k : KvJob) (l h b r : Nat) : Nat × State :=
  let v := s.pte k.q l h b
  let n := ptePage v
  let fill := r - 64 * b
  if s.blockFill k.q l h b ≤ fill then (0, s)
  else if fill = 0 then
    let s := s.setPte k.q l h b 0
    if pteValid v then (1, (s.setSe k.q sePages (s.se k.q sePages - 1)).freePage n k.job) else (0, s)
  else if pteValid v then
    (0, ((s.setPd n pdFill fill).setPd n pdTent (s.pd n pdTent % 2 ^ fill)).setPdOn n pfCent false)
  else (0, s)

/-- ROLLBACK (R255). -/
def State.kvRollback (s : State) (k : KvJob) : KvRes :=
  let s := s.markRetired k.q
  let n := k.arg 2
  let len := s.se k.q seLen
  let t := s.se k.q seTent
  if t < n then ⟨St.badArgument, len, t, 0, false, s⟩
  else
    let r := len + t - n
    let (freed, s) := (s.kvLists k.q).foldl (fun (a : Nat × State) lh => (List.range (a.2.se k.q seMax)).foldl (fun (a : Nat × State) b =>
      let (x, s) := a.2.cutBlock k lh.1 lh.2 b r
      (a.1 + x, s)) a) (0, s)
    let s := s.setSe k.q seTent (t - n)
    let s := (s.kvLists k.q).foldl (fun (s : State) lh => s.centroids k.q lh.1 lh.2) s
    ⟨St.ok, len, t - n, freed, false, s⟩

/-- A node written into an entry (R268). -/
def State.insertNode (s : State) (k : KvJob) (i x chk b : Nat) : State :=
  let f := s.se k.q seProfile
  let parent := s.se k.q seNode
  let s := s.store (s.drAt i) (toBytes 8 x ++ toBytes 4 chk ++ toBytes 4 parent ++ toBytes 2 1 ++ toBytes 2 0 ++ toBytes 1 f ++ toBytes 1 k.part ++
    toBytes 2 0 ++ toBytes 4 (s.poolGen k.part) ++ toBytes 4 (s.kvMs k.e))
  let s := (s.kvLists k.q).zipIdx.foldl (fun (s : State) lh =>
    let v := s.pte k.q lh.1.1 lh.1.2 b
    let n := ptePage v
    let s := s.st (s.nodeAt i + lh.2 * 4) 4 n
    let s := (s.setPd n pdRefs (s.pd n pdRefs + 1)).setPdOn n pfShared true
    s.setPte k.q lh.1.1 lh.1.2 b (setBit v 26 true)) s
  if parent ≠ 0xFFFFFFFF then s.setDr parent drChildren (s.dr parent drChildren + 1) else s

/-- PUBLISH (R268). -/
def State.kvPublish (s : State) (k : KvJob) : KvRes :=
  let b := k.arg 1
  let f := s.se k.q seProfile
  let (fr, s) := s.draw 53
  let no (st : Nat) (s : State) : KvRes := ⟨st, fr % 2 ^ 32, fr / 2 ^ 32 % 2 ^ 32, s.se k.q sePublished, false, s⟩
  let full := (s.kvLists k.q).all (fun lh =>
    let v := s.pte k.q lh.1 lh.2 b
    pteValid v && decide (s.pd (ptePage v) pdFill = 64) && decide (s.pd (ptePage v) pdTent = 0))
  if bit (s.se k.q seFlags) 0 = false ∨ b ≠ s.se k.q sePublished ∨ s.se k.q seMax ≤ b ∨ full = false then no St.badArgument s
  else
    let (st, t, bad, s) := s.aeGet k.e k.m (k.addr 0) 256
    if st ≠ St.ok then no st s
    else if bad then no St.integrity s
    else
      let x := blockHash (s.rd (F.KV_PROF_TAG_MODEL_TAG f)) k.part f (s.se k.q seHash) ((List.range 64).map (fun i => field t (i * 4) 4))
      let chk := crc32c t
      let adv (s : State) (i v1 : Nat) : KvRes :=
        let s := ((s.setSe k.q sePublished (b + 1)).setSe k.q seNode i).setSe k.q seHash x
        ⟨St.ok, i, v1, b + 1, false, s⟩
      match s.dirMatch x chk (s.se k.q seNode) f k.part with
      | (some i, s) => adv (s.setDr i drLastUse (s.kvMs k.e)) i 0
      | (none, s) =>
        match (s.bucketOf x).find? (fun i => !s.drUsed i) with
        | some i => adv (s.insertNode k i x chk b) i 1
        | none =>
          match s.leafAmong k.e (s.bucketOf x) with
          | some i => adv ((s.reclaim i k.job).insertNode k i x chk b) i 1
          | none => no St.noSpace (s.bump F.KV_EVENTS_DIR_FULL)

/-- The prefix chain of a sequence from its last block: for each of its blocks, the node and the block. -/
def State.chain (s : State) : Nat → Nat → List (Nat × Nat)
  | 0, _ => []
  | b + 1, n => if n = 0xFFFFFFFF then [] else (n, b) :: s.chain b (s.dr n drParent)

/-- SEQ_CLOSE (R275): references of pages, and USERS of every node whose pages the sequence maps. -/
def State.kvClose (s : State) (k : KvJob) : KvRes :=
  let s := s.markRetired k.q
  let nodes := (s.chain (s.se k.q sePublished) (s.se k.q seNode)).filter (fun x => pteShared (s.pte k.q 0 0 x.2))
  let (rel, freed, s) := (s.kvLists k.q).foldl (fun (a : Nat × Nat × State) lh =>
    (List.range (a.2.2.se k.q seMax)).foldl (fun (a : Nat × Nat × State) b =>
      let v := a.2.2.pte k.q lh.1 lh.2 b
      if pteValid v then
        let (x, s) := a.2.2.dropRef (ptePage v) k.job
        (a.1 + 1, a.2.1 + x, s)
      else a) a) (0, 0, s)
  let s := nodes.foldl (fun (s : State) x => s.setDr x.1 drUsers (s.dr x.1 drUsers - 1)) s
  ⟨St.ok, rel, freed, 0, false, s.setSe k.q seState 0⟩

/-! ### SELECT (R265) -/

/-- A page-walk descriptor. -/
def pwdBytes (page gen block flags : Nat) : List Byte := toBytes 4 (page % 2 ^ 24) ++ toBytes 4 gen ++ toBytes 4 block ++ toBytes 4 (flags % 256)

def State.blockValid (s : State) (q l h b : Nat) : Bool := decide (b < s.se q seMax) && pteValid (s.pte q l h b)

/-- Whether score a ranks above score b: NaN lowest. -/
def scoreAbove (a b : Nat) : Bool := !(f32 a).isNan && ((f32 b).isNan || f32lt b a)

/-- The list of key-value head h: its blocks, and the candidates scored. -/
def State.selectList (s : State) (q l h kvLen topK : Nat) (qs : List (List Val)) : List Nat × Nat :=
  let f := s.se q seProfile
  let p := s.seProf q
  let nb := ceilDiv kvLen 64
  let sink (b : Nat) : Bool := decide (b < s.rd (F.KV_PROF_EVICT_SINK_BLOCKS f))
  let recent (b : Nat) : Bool := decide (nb ≤ b + s.recentBlocks f)
  let vs := (List.range (min nb (s.se q seMax))).filter (fun b => s.blockValid q l h b)
  let cand := vs.filter (fun b => !sink b && !recent b && s.pdOn (ptePage (s.pte q l h b)) pfCent)
  let score (b : Nat) : Nat :=
    let c := (unpack 16 p.d (s.bytes (s.centAt (ptePage (s.pte q l h b))) (2 * p.d))).map (decElem 7)
    let ds := (List.range p.g).map (fun i => dotF32 (qs.getD (h * p.g + i) []) c)
    ds.foldl (fun m x => if scoreAbove x m then x else m) (ds.headD f32nan)
  let sc := cand.map (fun b => (b, score b))
  let chosen := (sc.filter (fun x =>
    decide ((sc.filter (fun y => scoreAbove y.2 x.2 || (!scoreAbove x.2 y.2 && decide (y.1 < x.1)))).length < topK))).map (·.1)
  (vs.filter (fun b => sink b || recent b || chosen.contains b), cand.length)

def State.kvSelect (s : State) (k : KvJob) : KvRes :=
  let l := k.arg 0 % 256
  let p := s.seProf k.q
  let (fr, s) := s.draw 54
  let (st, d, bad, s) := s.aeGet k.e k.m (k.addr 0) (p.hq * p.d * 2)
  if st ≠ St.ok ∨ bad = true then ⟨if st ≠ St.ok then st else St.integrity, fr % 2 ^ 32, 0, 0, false, s⟩
  else
    let qs := (List.range p.hq).map (fun h => (unpack 16 p.d (slice d (h * p.d * 2) (p.d * 2))).map (decElem (k.arg 0 / 256 % 16)))
    let ls := (List.range p.hkv).map (fun h => s.selectList k.q l h (k.arg 2) (k.arg 1) qs)
    let n := ls.foldl (fun m x => max m x.1.length) 0
    let (pad, s) := s.drawBytes 55 12
    let out := ls.zipIdx.flatMap (fun x =>
      let ds := x.1.1.map (fun b => pwdBytes (ptePage (s.pte k.q l x.2 b)) (pteGen (s.pte k.q l x.2 b)) b 0)
      (ds ++ List.replicate (n - ds.length) (pwdBytes (field pad 0 4) (field pad 4 4) (field pad 8 4) 1)).flatten)
    let (st, s) := s.busPut k.m (k.addr 1) out false
    ⟨st, n, ls.foldl (fun m x => max m x.2) 0, 0, false, s⟩

/-! ### An operation -/

/-- The states a sequence must be in, at the start of an operation; a retried APPEND that waited goes on where it stood. -/
def State.kvOp (s : State) (k : KvJob) (waited : Option Nat) : KvRes :=
  let (fr, s) := s.draw 56
  let no (st : Nat) : KvRes := ⟨st, fr % 2 ^ 32, fr / 2 ^ 32 % 2 ^ 32, fr / 2 ^ 64 % 2 ^ 32, false, s⟩
  match waited with
  | some n => s.appendTake k n
  | none =>
    if k.op = 7 then s.kvOpen k
    else if s.se k.q seState ≠ 1 then no St.refused
    else if s.se k.q sePart ≠ k.part then no St.notPermitted
    else if k.op ≠ 2 ∧ s.se k.q seHome ≠ k.e then no St.refused
    else if k.op = 2 then s.kvSelect k
    else if k.op = 3 then s.kvAppend k
    else if k.op = 4 then s.kvCommit k
    else if k.op = 5 then s.kvRollback k
    else if k.op = 6 then s.kvPublish k
    else s.kvClose k

/-- The result record. -/
def KvRes.record (r : Sys2Proof.Machine.KvRes) (q : Nat) : List Byte :=
  toBytes 1 r.status ++ toBytes 1 0 ++ toBytes 2 q ++ toBytes 4 r.v0 ++ toBytes 4 r.v1 ++ toBytes 4 r.v2

end Sys2Proof.Machine
end

