-- ==== Sys2Proof/Machine/AttnOps.lean ====
section
/-!
DEFINITION. Attention engines: the attention pass with its partials, merge, retention and scores; jobs with their checks and
order; resets, rests and the AE register block (R242 to R244, R256 to R264, R271, R276 to R283; 10_attention.md).
-/

namespace Sys2Proof.Machine

/-! ### Descriptors -/

structure AtDesc where
  flags : Nat
  layer : Nat
  prof : Nat
  entries : Nat
  qFmt : Nat
  oFmt : Nat
  lt : Nat
  q : Nat
  o : Nat
  pwd : Nat
  scale : Nat
  mask : Nat
  bias : Nat
  maskArg : Nat
  ret : Nat
  deriving DecidableEq, Repr

def atDesc (d : List Byte) : AtDesc :=
  ⟨field d 1 1, field d 2 1, field d 3 1 % 16, field d 4 2, field d 6 1, field d 7 1, field d 8 6, field d 16 6, field d 24 6,
    field d 32 6, field d 40 4, field d 44 1, field d 45 1, field d 48 6, field d 56 6⟩

def AtDesc.batch (x : Sys2Proof.Machine.AtDesc) : Bool := bit x.flags 0
def AtDesc.score (x : Sys2Proof.Machine.AtDesc) : Bool := bit x.flags 1
def AtDesc.retain (x : Sys2Proof.Machine.AtDesc) : Bool := bit x.flags 2
def AtDesc.retainP (x : Sys2Proof.Machine.AtDesc) : Bool := bit x.flags 3
def AtDesc.oCode (x : Sys2Proof.Machine.AtDesc) : Nat := x.oFmt % 16
def AtDesc.oSat (x : Sys2Proof.Machine.AtDesc) : Bool := bit x.oFmt 4
def AtDesc.oSize (x : Sys2Proof.Machine.AtDesc) : Nat := if x.oCode = 9 then 4 else 2

/-- A length-table entry. -/
structure LtEntry where
  seq : Nat
  nq : Nat
  qPos : Nat
  kvLen : Nat
  qRow : Nat
  pwdOff : Nat
  nPwd : Nat
  oRow : Nat
  bad : Bool
  deriving DecidableEq, Repr

def ltEntry (d : List Byte) : LtEntry :=
  ⟨field d 0 2 % 4096, field d 2 1, field d 4 4, field d 8 4, field d 12 4, field d 16 4, field d 20 4, field d 24 4,
    decide (4096 ≤ field d 0 2) || decide (field d 3 1 ≠ 0) || decide (field d 2 1 = 0) || decide (64 < field d 2 1) ||
      decide (field d 20 4 = 0) || decide (16384 < field d 20 4)⟩

def ltEntries (n : Nat) (l : List Byte) : List LtEntry := (List.range n).map (fun k => ltEntry (slice l (k * 32) 32))

/-! ### Extents and the checks on arrival (R243) -/

def ext (a n : Nat) : List (Nat × Nat) := if n = 0 then [] else [(a, a + n)]

/-- Every range an ATTEND reads or writes. -/
def AtDesc.extents (x : Sys2Proof.Machine.AtDesc) (p : Prof) (ls : List LtEntry) : List (Nat × Nat) :=
  let qs := p.hq * p.d * 2
  let os := p.hq * p.d * x.oSize
  (x.lt, x.lt + 32 * x.entries) :: ls.flatMap (fun n =>
    ext (x.q + n.qRow * qs) (n.nq * qs) ++ ext (x.o + n.oRow * os) (n.nq * os) ++
      ext (x.pwd + n.pwdOff * 16) (p.hkv * n.nPwd * 16) ++ (if x.mask = 2 then ext (x.maskArg + n.qRow * 8) (n.nq * 8) else []) ++
      (if x.retain then ext x.ret (n.nq * p.hq * 4) else []) ++
      (if x.retainP then ext (x.ret + 16384) (n.nq * p.hq * n.nPwd * 128) else []))

/-- The fields of an ATTEND descriptor lie in their ranges. -/
def AtDesc.fieldsOk (x : Sys2Proof.Machine.AtDesc) (d : List Byte) (p : Prof) (ls : List LtEntry) : Bool :=
  decide (x.flags < 16) && decide (field d 3 1 < 8) && (decide (p.layers = 0) || decide (x.layer < p.layers)) &&
    decide (1 ≤ x.entries) && decide (x.entries ≤ (if x.batch then 256 else 1)) && (decide (x.qFmt = 7) || decide (x.qFmt = 8)) &&
    (decide (x.oCode = 7) || decide (x.oCode = 8) || decide (x.oCode = 9)) && decide (x.oFmt < 32) &&
    decide (x.mask < 4) && decide (x.bias < 4) && decide (field d 46 2 = 0) &&
    [8, 16, 24, 32, 56].all (fun o => decide (field d (o + 6) 2 = 0) && decide (field d o 6 % 16 = 0)) &&
    (if x.mask = 1 then decide (field d 52 4 = 0) else if x.mask = 2 then decide (field d 54 2 = 0) && decide (x.maskArg % 16 = 0)
      else decide (field d 48 8 = 0)) &&
    (x.retain || decide (x.ret = 0)) && ls.all (fun e => !e.bad)

/-- Every range a cache operation reads or writes, as far as its sequence's profile is known. -/
def State.kvExtents (s : State) (k : KvJob) : List (Nat × Nat) :=
  let known := k.op ≠ 7 ∧ s.se k.q seState ≠ 0
  let f := s.se k.q seProfile
  let p := s.seProf k.q
  let sz := if k.arg 0 / 256 % 16 = 9 then 4 else 2
  (if k.resultAddr = 0 then [] else ext k.resultAddr 16) ++
    (if k.op = 2 then
      if known then ext (k.addr 0) (p.hq * p.d * 2) ++ ext (k.addr 1)
        (min (ceilDiv (k.arg 2) 64) (s.rd (F.KV_PROF_EVICT_SINK_BLOCKS f) + k.arg 1 + s.recentBlocks f) * p.hkv * 16) else []
    else if k.op = 3 then
      if known then ext (k.addr 0) ((k.arg 2 - 1) * k.arg 3 + p.hkv * p.d * sz) ++
        ext (k.addr 1) ((k.arg 2 - 1) * k.arg 3 + p.hkv * p.d * sz) else []
    else if k.op = 6 then ext (k.addr 0) 256
    else if k.op = 7 then
      let p := s.prof (k.arg 0)
      ext (k.addr 0) (p.layers * p.hkv * k.arg 1 * 8) ++ ext (k.addr 1) (k.arg 3 * 4)
    else [])

/-- The fields of a cache operation lie in their ranges. -/
def State.kvFieldsOk (s : State) (k : KvJob) : Bool :=
  let known := k.op ≠ 7 ∧ s.se k.q seState ≠ 0
  let p := s.seProf k.q
  let fmt := k.arg 0 / 256
  let zero (l : List Nat) : Bool := l.all (fun i => decide (k.arg i = 0))
  let sz := if fmt = 9 then 4 else 2
  decide (field k.d 2 2 < 4096) && decide (field k.d 20 4 = 0) && decide (field k.d 48 8 = 0) && decide (k.addr 2 = 0) &&
    [24, 32, 40, 56].all (fun o => decide (field k.d (o + 6) 2 = 0) && decide (field k.d o 6 % 16 = 0)) &&
    (if k.op = 2 then decide (k.flags = 0) && (decide (fmt = 7) || decide (fmt = 8)) && decide (1 ≤ k.arg 1) && decide (k.arg 1 ≤ 4096) &&
        zero [3] && (!decide known || decide (k.arg 0 % 256 < p.layers))
      else if k.op = 3 then decide (k.flags < 2) && (decide (fmt = 7) || decide (fmt = 8) || decide (fmt = 9)) && decide (1 ≤ k.arg 2) &&
        decide (k.arg 2 ≤ 64) && decide (k.arg 3 % 16 = 0) &&
        (!decide known || (decide (k.arg 0 % 256 < p.layers) && decide (p.hkv * p.d * sz ≤ k.arg 3)))
      else if k.op = 4 ∨ k.op = 5 then decide (k.flags = 0) && zero [0, 1, 3] && decide (k.arg 2 ≤ 64) && decide (k.addr 0 = 0) && decide (k.addr 1 = 0)
      else if k.op = 6 then decide (k.flags = 0) && zero [0, 2, 3] && decide (k.addr 1 = 0)
      else if k.op = 7 then decide (k.flags < 8) && decide (k.arg 0 < 8) && decide (1 ≤ k.arg 1) && decide (k.arg 1 ≤ 16384)
      else decide (k.flags = 0) && zero [0, 1, 2, 3] && decide (k.addr 0 = 0) && decide (k.addr 1 = 0))

/-- The placement checks of an operation's extents (checks 2 to 5). -/
def State.aePlaced (s : State) (m : Master) (ex : List (Nat × Nat)) (ret : Bool) : Nat :=
  if ex.any (fun e => !State.extInStores e && !(decide (e.2 ≤ 0x400000000000) && decide (e.2 ≤ s.dramEnd))) then St.badArgument
  else if ex.any s.extAbsent || (ret && !s.on F.FEATURE_MASK_PROB_RET) then St.absent
  else if !ex.all s.extBacked then St.badArgument
  else if !ex.all (fun e => s.extOpen m e true) then St.notPermitted
  else St.ok

/-- Checks 6 and 7 for a named sequence, and the rest of its home engine (R279). -/
def State.seqCheck (s : State) (e part q op : Nat) : Nat :=
  let st := s.se q seState
  if st = 0 then St.ok
  else if s.se q sePart ≠ part then St.notPermitted
  else if st = 2 then St.refused
  else if (op = 3 ∨ op = 4 ∨ op = 5 ∨ op = 6 ∨ op = 8) ∧ s.se q seHome ≠ e then St.refused
  else if s.ustate (engineUnit (s.se q seHome)) = US.resting then St.busy
  else St.ok

/-- The checks of R243 on a job's 64 bytes; OK where it may be queued. -/
def State.aeCheck (s : State) (e job : Nat) (d : List Byte) : Nat :=
  let m := s.masterOf (engineUnit e)
  let part := s.ownerOf (engineUnit e)
  if !s.kvOn then St.refused
  else if field d 0 1 = 1 then
    let x := atDesc d
    let p := s.prof x.prof
    let lt := (x.lt, x.lt + 32 * x.entries)
    let ls := if s.aePlaced m [lt] false = St.ok then ltEntries x.entries (s.bytes x.lt (32 * x.entries)) else []
    if !x.fieldsOk d p ls then St.badArgument
    else
      let c := s.aePlaced m (x.extents p ls) (x.retain || x.retainP)
      if c ≠ St.ok then c
      else ls.foldl (fun c n => if c = St.ok then s.seqCheck e part n.seq 1 else c) St.ok
  else
    let k : KvJob := ⟨e, job, part, m, d⟩
    if !s.kvFieldsOk k then St.badArgument
    else
      let c := s.aePlaced m (s.kvExtents k) false
      if c ≠ St.ok then c
      else s.seqCheck e part k.q k.op

/-! ### The attention pass (R257 to R261) -/

/-- What a page-walk descriptor leads to. -/
inductive PgRef where
  | skip
  | stale
  | page (n block : Nat)
  deriving DecidableEq, Repr

/-- The check of R257 before a page is read. -/
def State.pageRef (s : State) (x : AtDesc) (n : LtEntry) (part h : Nat) (d : List Byte) : PgRef :=
  let pg := field d 0 3
  let b := field d 8 4
  if bit (field d 12 1) 0 then .skip
  else if s.inPool part pg && decide (part < 8) && decide (s.pd pg pdGen = field d 4 4) && decide (s.pd pg pdBlock = b) &&
      decide (s.pd pg pdPoolGen = s.poolGen part) && decide (s.pd pg pdPart = part) && decide (s.pd pg pdProfile = x.prof) &&
      decide (s.pd pg pdLayer = x.layer) && decide (s.pd pg pdHead = h) && decide (1 ≤ s.pd pg pdRefs) && !s.pdOn pg pfRetired &&
      (decide (s.pd pg pdSeq = n.seq) || s.pdOn pg pfShared) then .page pg b
  else .stale

/-- A page as read. -/
structure PgData where
  n : Nat
  block : Nat
  keys : List (List Val)
  vals : List (List Val)
  tent : Nat
  deriving DecidableEq, Repr

/-- A page's row bytes are read: charges, counters and poison. -/
def State.readPage (s : State) (e : Nat) (m : Master) (p : Prof) (pg b : Nat) : PgData × Bool × State :=
  let kb := kvRowBytes p.kf p.d
  let vb := kvRowBytes p.vf p.d
  let bad := ((List.range 64).map (fun i =>
    ((linesOf (pageAddr pg + i * 256) kb ++ linesOf (pageAddr pg + 16384 + i * 256) vb).filter (fun l => mget 0 s.poison l ≠ 0)).length)).sum
  let x : PgData := ⟨pg, b, (List.range 64).map (fun i => s.keyRow p pg i), (List.range 64).map (fun i => s.valRow p pg i), s.pd pg pdTent⟩
  let s := s.mcCharge m.part (pageAddr pg) ((ceilDiv kb 64 + ceilDiv vb 64) * 4096)
  let s := (s.wr (F.AE_BYTES_BYTES e) (s.rd (F.AE_BYTES_BYTES e) + 64 * (kb + vb))).bumpW (F.AE_JOBS_PAGES e)
  (x, decide (bad ≠ 0), s.bumpBy F.MC_ECC_POISON_READS bad)

/-- What visibility and scores need, fixed for an entry. -/
structure AtCtx where
  x : AtDesc
  n : LtEntry
  masks : List Nat
  exact : Nat
  steps : Nat
  bias : List Nat
  slopes : List Nat
  deriving DecidableEq, Repr

/-- Whether the key at position k is visible to row j. -/
def AtCtx.sees (c : Sys2Proof.Machine.AtCtx) (j k : Nat) : Bool :=
  let q := c.n.qPos + j
  decide (k < c.n.kvLen) &&
    (if c.x.mask = 0 then decide (k ≤ q)
      else if c.x.mask = 1 then decide (k ≤ q) && decide (q - k < c.x.maskArg % 2 ^ 32)
      else if c.x.mask = 2 then decide (k < c.n.qPos) || (decide (k - c.n.qPos < 64) && bit (c.masks.getD j 0) (k - c.n.qPos))
      else true)

/-- The bucket of a distance (R258). -/
def AtCtx.bucket (c : Sys2Proof.Machine.AtCtx) (d : Nat) : Nat :=
  if d < c.exact then d else min 255 (c.exact + Nat.log2 (d ^ c.steps / c.exact ^ c.steps))

/-- β of head h at a distance, in FP32. -/
def AtCtx.beta (c : Sys2Proof.Machine.AtCtx) (h d : Nat) : Nat :=
  let t := toF32 (fmtF16.dec (c.bias.getD (h * 256 + c.bucket d) 0))
  let sl := f32mul (f32neg (c.slopes.getD h 0)) (f32ofInt d)
  if c.x.bias = 0 then 0 else if c.x.bias = 1 then t else if c.x.bias = 2 then sl else f32add t sl

/-- The score of one key (R258); an invisible key has −infinity. -/
def AtCtx.scoreOf (c : Sys2Proof.Machine.AtCtx) (q : List Val) (h j k : Nat) (key : List Val) : Nat :=
  if c.sees j k then
    let d := (c.n.qPos + j - k) + (k - (c.n.qPos + j))
    f32add (f32mul c.x.scale (dotF32 q key)) (c.beta h d)
  else inf32 true

def f32exp (v : Nat) : Nat := (vecSpecial 0x20 v).1
def f32recip (v : Nat) : Nat := (vecSpecial 0x23 v).1
def f32ln (v : Nat) : Nat := (vecSpecial 0x22 v).1

def part0 (d : Nat) : AePart := ⟨inf32 true, 0, List.replicate d 0⟩

/-- The scores of a page's 64 positions. -/
def AtCtx.scores (c : Sys2Proof.Machine.AtCtx) (q : List Val) (h j : Nat) (pg : PgData) : List Nat :=
  pg.keys.zipIdx.map (fun k => c.scoreOf q h j (64 * pg.block + k.2) k.1)

/-- One page of the pass of R259 for one row and head; invisible positions add no product. -/
def AtCtx.pass (c : Sys2Proof.Machine.AtCtx) (q : List Val) (h j : Nat) (a : AePart) (pg : PgData) : AePart :=
  let ss := c.scores q h j pg
  let mp := ss.foldl f32max (inf32 true)
  if mp = inf32 true then a
  else
    let m := f32max a.m mp
    let al := f32exp (f32sub a.m m)
    let ps := ss.map (fun v => if v = inf32 true then 0 else f32exp (f32sub v m))
    let vis := (List.range 64).filter (fun i => c.sees j (64 * pg.block + i))
    ⟨m, f32add (f32mul a.l al) (rowSum ps),
      a.acc.zipIdx.map (fun y => f32add (f32mul y.1 al)
        (groupSum (vis.map (fun i => (f32 (ps.getD i 0)).mul ((pg.vals.getD i []).getD y.2 .zero)))))⟩

/-- A visible score or value of the page is NaN (R261). -/
def AtCtx.nanIn (c : Sys2Proof.Machine.AtCtx) (q : List Val) (h j : Nat) (pg : PgData) : Bool :=
  let ss := c.scores q h j pg
  (List.range 64).any (fun i => c.sees j (64 * pg.block + i) &&
    ((f32 (ss.getD i 0)).isNan || (pg.vals.getD i []).any (·.isNan)))

/-- The partials joined in engine order with the step of R259. -/
def mergePart (a b : AePart) : AePart :=
  if b.m = inf32 true then a
  else
    let m := f32max a.m b.m
    let x := f32exp (f32sub a.m m)
    let y := f32exp (f32sub b.m m)
    ⟨m, f32add (f32mul a.l x) (f32mul b.l y), (a.acc.zip b.acc).map (fun v => f32add (f32mul v.1 x) (f32mul v.2 y))⟩

/-- Queries by row and head, TREE masks, and the bias tables in an engine's own buffer. -/
def State.atCtx (s : State) (e : Nat) (x : AtDesc) (n : LtEntry) (masks : List Byte) : AtCtx :=
  let w := engineWin e + x.prof * 0x10000
  let ex := s.rd (F.KV_PROF_BIAS_EXACT x.prof)
  let st := s.rd (F.KV_PROF_BIAS_STEPS x.prof)
  let p := s.prof x.prof
  ⟨x, n, (List.range n.nq).map (fun j => field masks (j * 8) 8), clampN 1 128 ex, clampN 1 64 st,
    if x.bias % 2 = 1 then unpack 16 (p.hq * 256) (s.bytes w (p.hq * 512)) else [],
    if 2 ≤ x.bias then unpack 32 p.hq (s.bytes (w + 0x8000) (p.hq * 4)) else []⟩

def queryRow (p : Prof) (fmt : Nat) (qs : List Byte) (j h : Nat) : List Val :=
  (unpack 16 p.d (slice qs ((j * p.hq + h) * p.d * 2) (p.d * 2))).map (decElem fmt)

/-- What an entry's pass reads before its pages: queries and TREE masks. -/
def State.atInputs (s : State) (e : Nat) (m : Master) (x : AtDesc) (n : LtEntry) : Nat × List Byte × List Byte × State :=
  let p := s.prof x.prof
  let (st, q, bad, s) := s.aeGet e m (x.q + n.qRow * p.hq * p.d * 2) (n.nq * p.hq * p.d * 2)
  if st ≠ St.ok ∨ bad = true then (if st ≠ St.ok then st else St.integrity, q, [], s)
  else if x.mask = 2 then
    let (st, k, bad, s) := s.aeGet e m (x.maskArg + n.qRow * 8) (n.nq * 8)
    (if st ≠ St.ok then st else if bad then St.integrity else St.ok, q, k, s)
  else (St.ok, q, [], s)

/-- The pages of descriptors i0 to i0 + len - 1 of one list, read in order: pages, RESULT flags, pages read, poison. -/
def State.listPages (s : State) (e : Nat) (m : Master) (x : AtDesc) (n : LtEntry) (part h : Nat) (ds : List Byte) :
    Nat → List (Option PgData) × Nat × Nat × Bool × State
  | 0 => ([], 0, 0, false, s)
  | i + 1 =>
    let (l, fl, k, bad, s) := s.listPages e m x n part h ds i
    match s.pageRef x n part h (slice ds (i * 16) 16) with
    | .skip => (l ++ [none], fl ||| 2, k, bad, s)
    | .stale => (l ++ [none], fl ||| 1, k, bad, s.bump (F.AE_FLAGS_STALE_PAGES e))
    | .page pg b =>
      let (d, bad', s) := s.readPage e m (s.prof x.prof) pg b
      (l ++ [some d], fl, k + 1, bad || bad', s)

/-- The slices of one list joined in head order. -/
structure SliceAcc where
  st : Nat
  parts : List (List AePart)
  flags : Nat
  pages : Nat
  bad : List Nat
  nans : List Nat
  s : State
  deriving DecidableEq, Repr

/-- One engine's slice of an entry (R257 to R261, R263): descriptors i0 to i0 + len - 1 of every head's list. -/
def State.aeSlice (s : State) (e part : Nat) (x : AtDesc) (n : LtEntry) (i0 len : Nat) : Nat × AeSlice × State :=
  let m := s.masterOf (engineUnit e)
  let p := s.prof x.prof
  let (st, qs, ks, s) := s.atInputs e m x n
  if st ≠ St.ok then (st, ⟨[], 0, 0, [], []⟩, s)
  else
    let c := s.atCtx e x n ks
    let one (a : SliceAcc) (k : Nat) : SliceAcc :=
      if a.st ≠ St.ok then a
      else
        let (st, ds, bad, s) := a.s.aeGet e m (x.pwd + (n.pwdOff + k * n.nPwd + i0) * 16) (len * 16)
        if st ≠ St.ok ∨ bad = true then { a with st := if st ≠ St.ok then st else St.integrity, s := s }
        else
          let (l, fl, cnt, pois, s) := s.listPages e m x n part k ds len
          let pgs := l.filterMap id
          let rows := (List.range n.nq).map (fun j => (List.range p.g).map (fun i =>
            let q := queryRow p x.qFmt qs j (k * p.g + i)
            (pgs.foldl (c.pass q (k * p.g + i) j) (part0 p.d), pgs.any (c.nanIn q (k * p.g + i) j))))
          let tent := pgs.any (fun g => (List.range 64).any (fun i =>
            bit g.tent i && (List.range n.nq).any (fun j => c.sees j (64 * g.block + i))))
          { a with
            parts := (List.range n.nq).map (fun j => a.parts.getD j [] ++ (rows.getD j []).map (·.1)),
            flags := a.flags ||| fl ||| pois.toNat * 16 ||| tent.toNat * 32,
            pages := a.pages + cnt,
            bad := if pois then a.bad ++ [k] else a.bad,
            nans := a.nans ++ (List.range n.nq).flatMap (fun j =>
              (List.range p.g).filterMap (fun i => if ((rows.getD j []).getD i (part0 0, false)).2 then some (j * p.hq + k * p.g + i) else none)),
            s := s }
    let a := (List.range p.hkv).foldl one ⟨St.ok, [], 0, 0, [], [], s⟩
    (a.st, ⟨a.parts.flatten, a.flags, a.pages, a.bad, a.nans⟩, a.s)

/-! ### Outputs, retention and scores of an entry (R261, R262, R271, R276) -/

/-- The slices of all engines merged in engine order. -/
def mergeSlices : List AeSlice → AeSlice
  | [] => ⟨[], 0, 0, [], []⟩
  | a :: r => r.foldl (fun a b => ⟨a.parts.zipWith mergePart b.parts, a.flags ||| b.flags, a.pages + b.pages,
      a.bad ++ b.bad.filter (fun k => !a.bad.contains k), a.nans ++ b.nans.filter (fun k => !a.nans.contains k)⟩) a

/-- The output codes of one row and head. -/
def outCodes (x : AtDesc) (a : AePart) (nan : Bool) : List Nat :=
  if nan then a.acc.map (fun _ => (convElem x.oCode x.oSat .nan).1)
  else if a.m = inf32 true then a.acc.map (fun _ => 0)
  else
    let r := f32recip a.l
    a.acc.map (fun v => (convElem x.oCode x.oSat (f32 (f32mul v r))).1)

/-- Writes in order, stopping at the first answer other than OK. -/
def State.putAll (s : State) (m : Master) : List (Nat × List Byte × Bool) → Nat × State
  | [] => (St.ok, s)
  | (a, d, p) :: r =>
    let (st, s) := s.busPut m a d p
    if st ≠ St.ok then (st, s) else s.putAll m r

/-- LSE of a row and head (R262). -/
def lse (a : AePart) (nan : Bool) : Nat := if nan then f32nan else if a.m = inf32 true then inf32 true else f32add a.m (f32ln a.l)

/-- The retained probabilities of one page for a row and head, as FP16. -/
def AtCtx.probs (c : Sys2Proof.Machine.AtCtx) (q : List Val) (h j l : Nat) (pg : Option PgData) : List Nat :=
  match pg with
  | none => List.replicate 64 0
  | some g => (c.scores q h j g).map (fun v => if v = inf32 true then 0 else (convElem 7 false (f32 (f32exp (f32sub v l)))).1)

/-- The mass of a page for a row and head, formed exactly. -/
def AtCtx.mass (c : Sys2Proof.Machine.AtCtx) (q : List Val) (h j : Nat) (a : AePart) (pg : PgData) : Val :=
  if a.m = inf32 true then .zero
  else (sumVals ((c.scores q h j pg).map (fun v => if v = inf32 true then .zero else expVal ((f32 v).sub (f32 a.m))))).div (f32 a.l)

/-- SCORE and LAST_USE of a page the list read (R271). -/
def State.scorePage (s : State) (e f : Nat) (pg : Nat) (mu : Option Val) : State :=
  let (fr, s) := s.draw 57
  let add := match mu with
    | some v => (clampI 0 65536 (sgn 32 (convElem 3 true (v.scale2 16)).1)).toNat
    | none => fr % 65537
  let old := s.pd pg pdScore
  let d := s.rd (F.KV_PROF_EVICT_DECAY f)
  (s.setPd pg pdScore (min (2 ^ 32 - 1) (old - (if d = 0 then 0 else old / 2 ^ d) + add))).setPd pg pdLastUse (s.kvMs e)

/-- Scores of every list of an entry, from its final m and l; none from a poisoned list. -/
def State.scoreLists (s : State) (e part : Nat) (x : AtDesc) (n : LtEntry) (z : AeSlice) : State :=
  let p := s.prof x.prof
  let qs := s.bytes (x.q + n.qRow * p.hq * p.d * 2) (n.nq * p.hq * p.d * 2)
  let c := s.atCtx e x n (s.bytes (x.maskArg + n.qRow * 8) (if x.mask = 2 then n.nq * 8 else 0))
  (List.range p.hkv).foldl (fun (s : State) k =>
    if z.bad.contains k then s
    else (List.range n.nPwd).foldl (fun (s : State) i =>
      match s.pageRef x n part k (s.bytes (x.pwd + (n.pwdOff + k * n.nPwd + i) * 16) 16) with
      | .page pg b =>
        if s.pd pg pdRefs = 1 ∧ s.pd pg pdSeq = n.seq then
          let g : PgData := ⟨pg, b, (List.range 64).map (fun i => s.keyRow p pg i), [], 0⟩
          let ix := (List.range n.nq).flatMap (fun j => (List.range p.g).map (fun i => (j, k * p.g + i)))
          let odd := ix.any (fun y => z.nans.contains (y.1 * p.hq + y.2) ||
            !(f32 (z.parts.getD (y.1 * p.hq + y.2) (part0 0)).l).isFin)
          let ms := ix.map (fun y => c.mass (queryRow p x.qFmt qs y.1 y.2) y.2 y.1 (z.parts.getD (y.1 * p.hq + y.2) (part0 0)) g)
          s.scorePage e x.prof pg (if odd then none else some ((sumVals ms).div (.ofNat (n.nq * p.g))))
        else s
      | _ => s) s) s

/-- The second pass of RETAIN_P (R262): every page read again. -/
def State.retainProbs (s : State) (e part : Nat) (x : AtDesc) (n : LtEntry) (z : AeSlice) : Nat × State :=
  let m := s.masterOf (engineUnit e)
  let p := s.prof x.prof
  let (st, qs, ks, s) := s.atInputs e m x n
  if st ≠ St.ok then (st, s)
  else
    let c := s.atCtx e x n ks
    (List.range p.hkv).foldl (fun (a : Nat × State) k =>
      if a.1 ≠ St.ok then a
      else
        let (st, ds, bad, s) := a.2.aeGet e m (x.pwd + (n.pwdOff + k * n.nPwd) * 16) (n.nPwd * 16)
        if st ≠ St.ok ∨ bad = true then (if st ≠ St.ok then st else St.integrity, s)
        else
          let (l, _, _, pois, s) := s.listPages e m x n part k ds n.nPwd
          let ws := (List.range n.nq).flatMap (fun j => (List.range p.g).flatMap (fun i =>
            let h := k * p.g + i
            let r := j * p.hq + h
            let ls := lse (z.parts.getD r (part0 0)) (z.nans.contains r)
            l.zipIdx.map (fun g => (x.ret + 16384 + (r * n.nPwd + g.2) * 128,
              (c.probs (queryRow p x.qFmt qs j h) h j ls g.1).flatMap (toBytes 2), pois))))
          s.putAll m ws) (St.ok, s)

/-- The end of an entry: outputs, LSE, probabilities, scores, and RESULT after the outputs. -/
def State.aeFinish (s : State) (e part k engines : Nat) (x : AtDesc) (n : LtEntry) (z : AeSlice) : Nat × State :=
  let m := s.masterOf (engineUnit e)
  let p := s.prof x.prof
  let os := p.hq * p.d * x.oSize
  let at_ (r : Nat) : AePart := z.parts.getD r (part0 p.d)
  let outs := (List.range n.nq).flatMap (fun j => (List.range p.hkv).map (fun h =>
    (x.o + (n.oRow + j) * os + h * p.g * p.d * x.oSize,
      (List.range p.g).flatMap (fun i =>
        let r := j * p.hq + h * p.g + i
        (outCodes x (at_ r) (z.nans.contains r)).flatMap (toBytes x.oSize)),
      z.bad.contains h)))
  let masked := ((List.range (n.nq * p.hq)).filter (fun r => decide ((at_ r).m = inf32 true) && !z.nans.contains r)).length
  let (st, s) := s.putAll m outs
  if st ≠ St.ok then (st, s)
  else
    let (st, s) := if x.retain then
        s.putAll m ((List.range (n.nq * p.hq)).map (fun r =>
          (x.ret + r * 4, toBytes 4 (lse (at_ r) (z.nans.contains r)), z.bad.contains (r % max 1 p.hq / max 1 p.g))))
      else (St.ok, s)
    if st ≠ St.ok then (st, s)
    else
      let (st, s) := if x.retainP then s.retainProbs e part x n z else (St.ok, s)
      if st ≠ St.ok then (st, s)
      else
        let s := if x.score then s.scoreLists e part x n z else s
        let res := z.flags + (decide (0 < masked)).toNat * 4 + (!z.nans.isEmpty).toNat * 8 + engines * 256 + min 65535 z.pages * 65536
        let (st, s) := s.busPut m (x.lt + k * 32 + 28) (toBytes 4 res) false
        let s := ((s.bumpBy (F.AE_FLAGS_POISON_LISTS e) z.bad.length).bumpBy (F.AE_FLAGS_NAN_ROWS e) z.nans.length).bumpBy
          (F.AE_FLAGS_MASKED_ROWS e) masked
        (if st ≠ St.ok then st else if z.bad.isEmpty then St.ok else St.integrity, s)

/-! ### Engine states -/

def enIdle : Nat := 0
def enRunning : Nat := 1
def enMerging : Nat := 3
def enRecovering : Nat := 4

/-- The engine's state set, with JOBQ_FILL, ENGINE, and READY or BUSY. -/
def State.setAe (s : State) (e : Nat) (x : AeSt) : State :=
  let n := x.queue.length + x.run.isSome.toNat + x.yielded.isSome.toNat
  let s := (s.setEng e x).wr (F.AE_STATE_JOBQ_FILL e) n
  let s := s.wr (F.AE_STATE_ENGINE e)
    (match x.run with
      | none => enIdle
      | some r => if !r.finished && decide (1 < r.slices.length) && (r.slices.headD (0, none)).2.isSome then enMerging else enRunning)
  if s.serving (engineUnit e) then s.setUstate (engineUnit e) (if x.run.isSome || x.yielded.isSome then US.busy else US.ready) else s

/-- The job in execution ends with a status; only the ACK is left. -/
def State.aeEnd (s : State) (e : Nat) (r : AeRun) (status : Nat) : State :=
  s.setAe e { s.eng e with run := some { r with status := status, finished := true } }

/-- The slices of an owner's job are dropped at every helper. -/
def State.dropSlices (s : State) (e : Nat) : State :=
  (List.range 8).foldl (fun (s : State) k =>
    if (s.eng k).help.any (fun h => h.owner = e) then s.setEng k { s.eng k with help := (s.eng k).help.filter (fun h => h.owner ≠ e) } else s) s

/-- A helper leaves its slices undone: the jobs they belong to complete with a status (R263). -/
def State.failSlices (s : State) (e status : Nat) : State :=
  let s := (s.eng e).help.foldl (fun (s : State) h =>
    match (s.eng h.owner).run with
    | some r => if r.job = h.job ∧ r.finished = false then (s.dropSlices h.owner).aeEnd h.owner r status else s
    | none => s) s
  s.setEng e { s.eng e with help := [] }

/-- Every job of the engine is answered and its slices elsewhere dropped. -/
def State.aeAnswer (s : State) (e status : Nat) : State :=
  let x := s.eng e
  let rs := x.run.toList ++ x.yielded.toList
  let s := (rs.map (·.msg) ++ x.queue).foldl (fun (s : State) m => s.answer m status) s
  let s := rs.foldl (fun (s : State) r => s.kvEnded r.job) s
  (s.dropSlices e).setAe e { x with queue := [], run := none, yielded := none }

/-- The engine leaves READY or BUSY. -/
def State.aeLeave (s : State) (e st : Nat) : State :=
  let was := s.serving (engineUnit e)
  let s := s.setUstate (engineUnit e) st
  if was then (s.failSlices e (answerOf st)).aeAnswer e (answerOf st) else s

def State.aeFault (s : State) (e : Nat) : State := (s.aeLeave e US.fault).event (engineUnit e) 0x6001 (engineUnit e) [0]

/-- RESETTING, OFF or RETAINED: jobs answered with the incremented epoch; OFF loses the bias tables (R281). -/
def State.aeEnter (s : State) (e st : Nat) : State :=
  let s := (s.bumpEpoch (engineUnit e)).aeLeave e st
  let s := if st = US.off then s.zeroRange (engineWin e) 0x80000 else s
  s.wr (F.AE_STATE_ENGINE e) (if st = US.resetting then enRecovering else enIdle)

def State.aeReset (s : State) (e : Nat) : State :=
  let st := s.ustate (engineUnit e)
  if st = US.resetting then s
  else if st = US.absent ∨ st = US.off ∨ st = US.quarantined then s.reject (R.AE_REJECTS e) 0
  else if s.epochFree (engineUnit e) then s.aeEnter e US.resetting
  else s.holdEpoch (engineUnit e) US.resetting

def State.aeResetDone (s : State) (e : Nat) : State :=
  if s.ustate (engineUnit e) = US.resetting then (s.setUstate (engineUnit e) US.ready).wr (F.AE_STATE_ENGINE e) enIdle else s

/-- A partition reset at the engines and the cache (R278): jobs and slices of P_p, its sequences and its pool. -/
def State.aePartReset (s : State) (p : Nat) : State :=
  let s := (List.range 8).foldl (fun (s : State) e =>
    if s.ownerOf (engineUnit e) = p ∧ s.serving (engineUnit e) = true then (s.failSlices e St.unitReset).aeAnswer e St.unitReset else s) s
  if s.kvOn then
    let s := (List.range 4096).foldl (fun (s : State) q =>
      if s.se q seState ≠ 0 ∧ s.se q sePart = p then s.setSe q seState 0 else s) s
    s.poolInit p
  else s

/-! ### Jobs (R242 to R244, R263, R264) -/

def isAttend (m : Msg) : Bool := field m.payload 0 1 = 1
def isLatency (m : Msg) : Bool := isAttend m && !bit (field m.payload 1 1) 0
def msgSeq (m : Msg) : Nat := field m.payload 2 2 % 4096

/-- Queued jobs that no earlier cache operation on the same sequence holds back. -/
def startable : List Msg → List Nat → List Msg
  | [], _ => []
  | m :: r, held =>
    if isAttend m then m :: startable r held
    else if held.contains (msgSeq m) then startable r held
    else m :: startable r (msgSeq m :: held)

/-- The job that starts next: latency-class ATTENDs first, then priority, then arrival. -/
def nextAeJob (q : List Msg) : Option Msg :=
  match nextJob (q.filter isLatency) with
  | some m => some m
  | none => nextJob (startable q [])

/-- A rest is asked for and the engine may rest (R279). -/
def State.aeRestDue (s : State) (e : Nat) : Bool :=
  s.on (F.AE_CFG_REST_EN e) && (s.on (F.AE_REST_REQUEST e) || s.on (F.AE_REST_FORCE e))

/-- A SEND at an engine (R242, R243). -/
def State.aeArrive (s : State) (m : Msg) : State :=
  let e := m.dest % 0x1000
  let st := s.ustate m.dest
  let ack (st : Nat) (s : State) : State := s.send (replyTo s m 0x10 st [])
  let x := s.eng e
  if st ≠ US.ready ∧ st ≠ US.busy then
    (if st = US.resting then s.bump (F.AE_REFUSALS_BUSY e) else s).answer m (answerOf st)
  else if s.msgFenced m || (decide (m.srcModule = s.moduleNo) && decide (s.ownerOf m.src < 8) && decide (s.ownerOf m.src ≠ s.ownerOf m.dest)) then
    s.answer m St.notPermitted
  else if m.kind ≠ 0 then s.answer m St.badArgument
  else if m.payload.length ≠ 64 ∨ field m.payload 0 1 = 0 ∨ 8 < field m.payload 0 1 then ack St.badArgument s
  else if 16 ≤ x.queue.length + x.run.isSome.toNat + x.yielded.isSome.toNat then (s.bump (F.AE_REFUSALS_QUEUE_FULL e)).answer m St.noSpace
  else
    let c := s.aeCheck e 0 m.payload
    if c = St.ok then s.setAe e { x with queue := x.queue ++ [m] }
    else
      let s := if c = St.refused then s.bump (F.AE_REFUSALS_WRONG_HOME e) else if c = St.busy then s.bump (F.AE_REFUSALS_BUSY e) else s
      ack c s

/-- The engine may start a job of the kind a command stands for: idle, at a job boundary, and such a job is next. -/
def State.aeNext (s : State) (e op : Nat) : Option Msg :=
  let x := s.eng e
  if s.serving (engineUnit e) ∧ x.run = none ∧ x.yielded = none ∧ s.aeRestDue e = false then
    match nextAeJob x.queue with
    | some m => if field m.payload 0 1 = op then some m else none
    | none => none
  else none

def aeRun0 (m : Msg) (job : Nat) : AeRun := ⟨m, job, 0, St.ok, [], 0, false, false, []⟩

/-- A job begins: its number, BUSY. -/
def State.aeBegin (s : State) (e : Nat) (m : Msg) : AeRun × State :=
  let s := { s with kv := { s.kv with job := s.kv.job + 1 } }
  let r := aeRun0 m s.kv.job
  (r, s.setAe e { s.eng e with queue := (s.eng e).queue.erase m, run := some r })

/-- A cache operation of an engine: started if it is next, or gone on with where it waits (R253). -/
def State.aeKv (s : State) (e op : Nat) : State :=
  let go (s : State) (r : AeRun) (waited : Option Nat) : State :=
    let k : KvJob := ⟨e, r.job, s.ownerOf (engineUnit e), s.masterOf (engineUnit e), r.msg.payload⟩
    let c := if waited.isSome then St.ok else s.aeCheck e r.job r.msg.payload
    let a : KvRes := if c = St.ok then s.kvOp k waited else let (f, s) := s.draw 56; ⟨c, f % 2 ^ 32, f / 2 ^ 32 % 2 ^ 32, f / 2 ^ 64 % 2 ^ 32, false, s⟩
    if a.wait then a.s.setAe e { a.s.eng e with run := some { r with waiting := true, evicted := a.v1 } }
    else if k.resultAddr = 0 then a.s.aeEnd e r a.status
    else
      let (st, s) := a.s.busPut k.m k.resultAddr (a.record k.q) false
      s.aeEnd e r (if a.status = St.ok then st else a.status)
  match (s.eng e).run with
  | some r => if r.finished = false ∧ r.waiting = true ∧ field r.msg.payload 0 1 = op then go s r (some r.evicted) else s
  | none =>
    match s.aeNext e op with
    | some m =>
      let (r, s) := s.aeBegin e m
      go s r none
    | none => s

/-- The checks of R256 at the start of an ATTEND. -/
def State.attendOk (s : State) (part : Nat) (x : AtDesc) (ls : List LtEntry) : Nat :=
  let p := s.prof x.prof
  if ls.any (fun n => decide (s.se n.seq seState = 1) && decide (s.se n.seq sePart ≠ part)) then St.notPermitted
  else if p.layers = 0 || decide (p.layers ≤ x.layer) ||
      ls.any (fun n => n.bad || decide (s.se n.seq seState ≠ 1) || decide (s.se n.seq seProfile ≠ x.prof) ||
        decide (s.se n.seq seLen + s.se n.seq seTent < n.kvLen) || (decide (x.mask < 3) && decide (n.kvLen < n.qPos + n.nq))) ||
      decide (262144 < (ls.map (fun n => n.nq * p.hq * p.d)).sum) ||
      (x.score && decide (32768 < (ls.map (fun n => n.nPwd * p.hkv)).sum)) || (x.retain && x.batch) || (x.retainP && !x.retain) ||
      (decide (x.mask = 1) && decide (x.maskArg % 2 ^ 32 = 0)) then St.badArgument
  else St.ok

/-- The engines of a latency-class job, the receiving one first (R263). -/
def State.splitOver (s : State) (e : Nat) : List Nat :=
  let n := clampN 1 8 (s.rd (F.AE_CFG_SPLIT_MAX e))
  e :: ((List.range 8).filter (fun k => decide (k ≠ e) && s.serving (engineUnit k) &&
    decide (s.ownerOf (engineUnit k) = s.ownerOf (engineUnit e)))).take (n - 1)

/-- The entry an ATTEND works on. -/
def AeRun.ltEntry (r : Sys2Proof.Machine.AeRun) : LtEntry := Machine.ltEntry (slice r.lt (r.entry * 32) 32)

/-- Descriptors of a list that the engine at a place takes: first and count. -/
def splitSlice (nPwd engines place : Nat) : Nat × Nat :=
  let c := ceilDiv nPwd engines
  (min nPwd (place * c), min c (nPwd - place * c))

/-- One slice of an entry performed and recorded. -/
def State.doSlice (s : State) (owner e place : Nat) (r : AeRun) : State :=
  let x := atDesc r.msg.payload
  let n := r.ltEntry
  let (i0, len) := splitSlice n.nPwd r.slices.length place
  let (st, z, s) := s.aeSlice e (s.ownerOf (engineUnit owner)) x n i0 len
  let r := { r with slices := r.slices.zipIdx.map (fun y => if y.2 = place then (y.1.1, some z) else y.1) }
  if st = St.ok then s.setAe owner { s.eng owner with run := some r } else (s.dropSlices owner).aeEnd owner r st

/-- Every slice is in: the entry ends, and with the last one the job. -/
def State.doMerge (s : State) (e : Nat) (r : AeRun) : State :=
  match r.slices.mapM (·.2) with
  | none => s
  | some zs =>
    let x := atDesc r.msg.payload
    let (st, s) := s.aeFinish e (s.ownerOf (engineUnit e)) r.entry r.slices.length x r.ltEntry (mergeSlices zs)
    let stop := decide (st ≠ St.ok) && decide (st ≠ St.integrity)
    let r := { r with status := if st = St.ok then r.status else st, entry := r.entry + 1, slices := [] }
    if stop || decide (x.entries ≤ r.entry) then s.aeEnd e r r.status
    else s.setAe e { s.eng e with run := some r }

/-- The next entry of the ATTEND in execution: its engines chosen, the own slice performed, merged where it is the only one. -/
def State.doEntry (s : State) (e : Nat) (r : AeRun) : State :=
  let x := atDesc r.msg.payload
  let es := if x.batch then [e] else s.splitOver e
  let r := { r with slices := es.map (fun k => (k, none)) }
  let s := es.zipIdx.foldl (fun (s : State) k => if k.2 = 0 then s
    else s.setEng k.1 { s.eng k.1 with help := (s.eng k.1).help ++ [⟨e, r.job, k.2⟩] }) s
  let s := s.doSlice e e 0 r
  match (s.eng e).run with
  | some r => if r.finished = false ∧ r.slices.length = 1 then s.doMerge e r else s
  | none => s

/-- An ATTEND starts: its length table is read and R256 checked, then its first entry runs. -/
def State.attendStart (s : State) (e : Nat) (m : Msg) : State :=
  let (r, s) := s.aeBegin e m
  let x := atDesc m.payload
  let c := s.aeCheck e r.job m.payload
  if c ≠ St.ok then s.aeEnd e r c
  else
    let (st, lt, bad, s) := s.aeGet e (s.masterOf (engineUnit e)) x.lt (32 * x.entries)
    if st ≠ St.ok then s.aeEnd e r st
    else if bad then s.aeEnd e r St.integrity
    else
      let r := { r with lt := lt }
      let c := s.attendOk (s.ownerOf (engineUnit e)) x (ltEntries x.entries lt)
      if c ≠ St.ok then s.aeEnd e r c else s.doEntry e r

/-- ATTEND at an engine: goes on with its job, yields at an entry boundary to a waiting latency-class job, resumes, or starts. -/
def State.aeAttend (s : State) (e : Nat) : State :=
  let x := s.eng e
  let latency := nextJob (x.queue.filter isLatency)
  if !s.serving (engineUnit e) then s
  else
    match x.run with
    | some r =>
      if r.finished || !isAttend r.msg then s
      else if !r.slices.isEmpty then s.doMerge e r
      else
        match latency with
        | some m => if isLatency r.msg then s.doEntry e r
          else (s.setAe e { x with run := none, yielded := some r }).attendStart e m
        | none => s.doEntry e r
    | none =>
      if s.aeRestDue e then s
      else
        match latency, x.yielded with
        | some m, _ => s.attendStart e m
        | none, some r => (s.setAe e { x with run := some r, yielded := none }).doEntry e r
        | none, none =>
          match s.aeNext e 1 with
          | some m => s.attendStart e m
          | none => s

/-- A helper serves the first slice it owes (R263). -/
def State.helperSlice (s : State) (e : Nat) : State :=
  match (s.eng e).help with
  | [] => s
  | h :: rest =>
    if !s.serving (engineUnit e) then s
    else
      let s := s.setEng e { s.eng e with help := rest }
      match (s.eng h.owner).run with
      | some r => if r.job = h.job ∧ r.finished = false then s.doSlice h.owner e h.place r else s
      | none => s

/-- A job ends: its ACK, and the pages that waited for it. -/
def State.aeDone (s : State) (e : Nat) : State :=
  let x := s.eng e
  match x.run with
  | none => s
  | some r =>
    if r.finished then
      let s := s.send (replyTo s r.msg 0x10 r.status [])
      ((s.setAe e { x with run := none }).kvEnded r.job).bumpW (F.AE_JOBS_JOBS e)
    else s

/-! ### Rests (R279) -/

/-- The engine rests at a job boundary, or at an entry boundary after FORCE: jobs and slices are answered BUSY. -/
def State.aeRestEnter (s : State) (e : Nat) : State :=
  let x := s.eng e
  let forced := s.on (F.AE_REST_FORCE e)
  let inJob := x.run.isSome || x.yielded.isSome
  if !s.serving (engineUnit e) || !s.aeRestDue e || (inJob && !forced) || (x.run.any (fun r => !r.slices.isEmpty)) then s
  else
    let n := x.queue.length + x.run.isSome.toNat + x.yielded.isSome.toNat
    let s := (s.aeLeave e US.resting).bumpBy (F.AE_REFUSALS_BUSY e) n
    let s := if forced then s.bump (F.AE_REST_FORCED e) else s
    (s.wr (F.AE_REST_REQUEST e) 0).wr (F.AE_REST_FORCE e) 0

def State.aeRestDone (s : State) (e : Nat) (fault : Bool) (part : Nat) : State :=
  if s.ustate (engineUnit e) ≠ US.resting then s
  else if fault then ((s.bump (F.AE_REST_FAILS e)).event (engineUnit e) 0x6002 (engineUnit e) [part]).aeFault e
  else (s.bump (F.AE_REST_RESTS e)).setUstate (engineUnit e) US.ready

/-! ### The AE register block (R245, R283) -/

/-- KV_CTRL.ENABLE set or cleared: pools, directory and sequences initialised; retirements end with the pools. -/
def State.kvEnable (s : State) (on : Bool) : State :=
  if on = s.on F.KV_CTRL_ENABLE then s
  else if on then
    let s := s.wr F.KV_CTRL_ENABLE 1
    if s.kvConfigError then s
    else
      let s := (s.zeroRange (s.drAt 0) (s.dirSize * 32))
      let s := (List.range 4096).foldl (fun (s : State) q => s.setSe q seState 0) s
      s.poolsOn.foldl (fun (s : State) p => s.poolInit p) s
  else
    let s := s.poolsOn.foldl (fun (s : State) p => (List.range (s.poolCount p)).foldl (fun (s : State) i =>
      if s.pdOn (s.poolFirst p + i) pfRetired then s.setPdOn (s.poolFirst p + i) pfRetired false else s) s) s
    s.wr F.KV_CTRL_ENABLE 0

/-- A shared register is a pool's LIMITS: its pool. -/
def limitsPool (off : Nat) : Option Nat := if 0x900 ≤ off ∧ off < 0xA00 ∧ off % 0x20 = 8 then some ((off - 0x900) / 0x20) else none

/-- A write of the block at a block offset. -/
def State.aeWrite (s : State) (r : Req) (e off : Nat) (d : WData) : State :=
  let no := s.reject (R.AE_REJECTS e) off
  if off < 0x800 then
    let own := r.trusted || match s.reqPart r with
      | some q => decide (s.ownerOf (engineUnit e) = q)
      | none => false
    if !own || (decide (off = 0x40) && decide (r ≠ .castle)) then no
    else if off = 0 then
      let s := if bit d.bits1 1 then s.aeReset e else s
      if bit d.bits1 0 then s.wr (F.AE_CTRL_LOCK e) 1 else s
    else if off = 0x40 then
      let v := d.bits1
      let s := if bit v 0 then s.wr (F.AE_REST_REQUEST e) 1 else s
      let s := if bit v 1 then s.wr (F.AE_REST_FORCE e) 1 else s
      if bit v 8 then s.wr (F.AE_REST_REQUEST e) 0 else s
    else s.writeReg (R.AE_CTRL e + off) d
  else
    let a := R.KV_CTRL + (off - 0x800)
    let pool := match limitsPool off, s.reqPart r with
      | some p, some q => decide (p = q)
      | _, _ => false
    if !r.trusted && !pool then no
    else if off = 0x800 then
      let s := if bit d.bits1 0 then s.wr F.KV_CTRL_LOCK 1 else s
      s.kvEnable (bit (d.over (s.reg R.KV_CTRL)) 1)
    else if s.on F.KV_CTRL_ENABLE && (match regSpec a with | some q => decide (q.mask .rwl &&& d.half.mask ≠ 0) | none => false) then no
    else s.writeReg a d

/-- What the block's registers read as, where that is more than the register file holds. -/
def State.aeView (s : State) (e off : Nat) : Nat :=
  let a := R.AE_CTRL e + off
  if !s.present (engineUnit e) then 0
  else if off = 0x8 then
    let q := s.ownerOf (engineUnit e)
    insField (insField (s.reg a) 8 3 (if q < 8 then q else 0)) 11 1 (decide (q < 8)).toNat
  else if off = 0x10 then insField (s.reg a) 25 3 s.moduleNo
  else if off = 0x848 then
    if s.on F.KV_CTRL_ENABLE then
      s.kvConfigError.toNat + ((List.range 4096).filter (fun q => s.se q seState ≠ 0)).length * 2 ^ 16 +
        ((List.range s.dirSize).filter s.drUsed).length * 2 ^ 32
    else 0
  else s.reg (canonReg a)

end Sys2Proof.Machine
end

