-- ==== Sys2Proof/Machine/Square.lean ====
section
/-!
DEFINITION. The commands of a square's control register and router: START, HALT, LOAD, RESET and their ends, EVENT, and
messages and replies that arrive (R145 to R148, R155 to R160; 06_grid.md).
-/

namespace Sys2Proof.Machine

/-- SQ_START (R147): a write of SQ_CTRL with START set. -/
def execSqStart (r : Req) (n : Fin 64) (d : WData) (s : State) : Out := .next (s.sqWrite r n.val 0 (d.withBit 1))

/-- SQ_HALT (R145): a write of SQ_CTRL with HALT set. -/
def execSqHalt (r : Req) (n : Fin 64) (d : WData) (s : State) : Out := .next (s.sqWrite r n.val 0 (d.withBit 2))

/-- SQ_CTRL_LOAD (R146): a write of SQ_CTRL with LOAD set. -/
def execSqCtrlLoad (r : Req) (n : Fin 64) (d : WData) (s : State) : Out := .next (s.sqWrite r n.val 0 (d.withBit 3))

/-- SQ_LOAD_COMPLETE (R146): the last of the 64 load cycles. -/
def execSqLoadComplete (n : Fin 64) (s : State) : Out := .next (s.sqLoadDone n.val)

/-- SQ_RESET (R148): a write of SQ_CTRL with RESET set. -/
def execSqReset (r : Req) (n : Fin 64) (d : WData) (s : State) : Out := .next (s.sqWrite r n.val 0 (d.withBit 4))

/-- SQ_RESET_COMPLETE (R148). -/
def execSqResetComplete (n : Fin 64) (s : State) : Out := .next (s.sqResetDone n.val)

/-- SQ_EVENT_WRITE (R139): sets or clears the EVENT interrupt. -/
def execSqEventWrite (r : Req) (n : Fin 64) (d : WData) (s : State) : Out := .next (s.sqWrite r n.val 0x98 d)

/-- POSTED_ANSWER_ARRIVE (R157). -/
def execPostedAnswerArrive (m : Msg) (s : State) : Out :=
  .next (
    if m.kind ≠ 2 ∨ m.op ≠ 0x1F ∨ m.tag ≠ 0xFF ∨ m.dest / 0x1000 ≠ 1 ∨ m.destModule ≠ s.moduleNo ∨ s.inOrder m = false then s
    else if s.present m.dest = false then s.takeMsg m
    else (s.takeMsg m).sqPostedAnswer (m.dest % 0x1000) m)

end Sys2Proof.Machine
end

