-- ==== Sys2Proof/Machine/Attention.lean ====
section
/-!
DEFINITION. The commands of the attention engines and the key-value cache (10_attention.md).
-/

namespace Sys2Proof.Machine

/-- AE_JOB_ARRIVE (R242, R243): a SEND at an engine. -/
def execAeJobArrive (m : Msg) (s : State) : Out :=
  .next (
    if m.kind = 2 ∨ m.op ≠ 1 ∨ m.dest / 0x1000 ≠ 3 ∨ m.destModule ≠ s.moduleNo ∨ s.inOrder m = false then s
    else if s.present m.dest = false then (s.takeMsg m).answer m St.absent
    else (s.takeMsg m).aeArrive m)

/-- ATTEND (R256 to R264): the engine starts its next ATTEND job, goes on with the next entry, or merges its helpers' slices. -/
def execAttend (e : Fin 8) (s : State) : Out := .next (s.aeAttend e.val)

/-- SELECT (R265). -/
def execSelect (e : Fin 8) (s : State) : Out := .next (s.aeKv e.val 2)

/-- APPEND (R250 to R254): starts, or goes on once limbo has drained. -/
def execAppend (e : Fin 8) (s : State) : Out := .next (s.aeKv e.val 3)

/-- COMMIT (R255). -/
def execCommit (e : Fin 8) (s : State) : Out := .next (s.aeKv e.val 4)

/-- ROLLBACK (R255). -/
def execRollback (e : Fin 8) (s : State) : Out := .next (s.aeKv e.val 5)

/-- PUBLISH (R268). -/
def execPublish (e : Fin 8) (s : State) : Out := .next (s.aeKv e.val 6)

/-- SEQ_OPEN (R249, R269). -/
def execSeqOpen (e : Fin 8) (s : State) : Out := .next (s.aeKv e.val 7)

/-- SEQ_CLOSE (R275). -/
def execSeqClose (e : Fin 8) (s : State) : Out := .next (s.aeKv e.val 8)

/-- LIMBO_RELEASE (R273). -/
def execLimboRelease (s : State) : Out := .next s.limboRelease

/-- HELPER_SLICE (R263). -/
def execHelperSlice (e : Fin 8) (s : State) : Out := .next (s.helperSlice e.val)

/-- AE_JOB_COMPLETE (R244). -/
def execAeJobComplete (e : Fin 8) (s : State) : Out := .next (s.aeDone e.val)

/-- AE_RESET (R277): a write of AE_CTRL with RESET set. -/
def execAeReset (r : Req) (e : Fin 8) (d : WData) (s : State) : Out :=
  .next (if s.present (engineUnit e.val) then s.aeWrite r e.val 0 (d.withBit 1) else s)

/-- AE_RESET_COMPLETE (R277). -/
def execAeResetComplete (e : Fin 8) (s : State) : Out := .next (s.aeResetDone e.val)

/-- KV_ENABLE (R245): a write of KV_CTRL through an engine's block with ENABLE set. -/
def execKvEnable (r : Req) (e : Fin 8) (d : WData) (s : State) : Out :=
  .next (if s.present (engineUnit e.val) then s.aeWrite r e.val 0x800 (d.withBit 1) else s)

end Sys2Proof.Machine
end

