-- ==== Sys2Proof/Machine/Crypto.lean ====
section
/-!
DEFINITION. SHA-384 (FIPS 180-4) and the verification of ECDSA on P-384 (FIPS 186-5), which the configuration image is checked with
(R368, R372). PRESUMED: the two standards the spec names.
-/

namespace Sys2Proof.Machine

/-! ### SHA-384 -/

/-- The round constants of SHA-512. -/
def shaK : List (BitVec 64) :=
  [0x428A2F98D728AE22, 0x7137449123EF65CD, 0xB5C0FBCFEC4D3B2F, 0xE9B5DBA58189DBBC,
    0x3956C25BF348B538, 0x59F111F1B605D019, 0x923F82A4AF194F9B, 0xAB1C5ED5DA6D8118,
    0xD807AA98A3030242, 0x12835B0145706FBE, 0x243185BE4EE4B28C, 0x550C7DC3D5FFB4E2,
    0x72BE5D74F27B896F, 0x80DEB1FE3B1696B1, 0x9BDC06A725C71235, 0xC19BF174CF692694] ++
  [0xE49B69C19EF14AD2, 0xEFBE4786384F25E3, 0x0FC19DC68B8CD5B5, 0x240CA1CC77AC9C65,
    0x2DE92C6F592B0275, 0x4A7484AA6EA6E483, 0x5CB0A9DCBD41FBD4, 0x76F988DA831153B5,
    0x983E5152EE66DFAB, 0xA831C66D2DB43210, 0xB00327C898FB213F, 0xBF597FC7BEEF0EE4,
    0xC6E00BF33DA88FC2, 0xD5A79147930AA725, 0x06CA6351E003826F, 0x142929670A0E6E70] ++
  [0x27B70A8546D22FFC, 0x2E1B21385C26C926, 0x4D2C6DFC5AC42AED, 0x53380D139D95B3DF,
    0x650A73548BAF63DE, 0x766A0ABB3C77B2A8, 0x81C2C92E47EDAEE6, 0x92722C851482353B,
    0xA2BFE8A14CF10364, 0xA81A664BBC423001, 0xC24B8B70D0F89791, 0xC76C51A30654BE30,
    0xD192E819D6EF5218, 0xD69906245565A910, 0xF40E35855771202A, 0x106AA07032BBD1B8] ++
  [0x19A4C116B8D2D0C8, 0x1E376C085141AB53, 0x2748774CDF8EEB99, 0x34B0BCB5E19B48A8,
    0x391C0CB3C5C95A63, 0x4ED8AA4AE3418ACB, 0x5B9CCA4F7763E373, 0x682E6FF3D6B2B8A3,
    0x748F82EE5DEFB2FC, 0x78A5636F43172F60, 0x84C87814A1F0AB72, 0x8CC702081A6439EC,
    0x90BEFFFA23631E28, 0xA4506CEBDE82BDE9, 0xBEF9A3F7B2C67915, 0xC67178F2E372532B] ++
  [0xCA273ECEEA26619C, 0xD186B8C721C0C207, 0xEADA7DD6CDE0EB1E, 0xF57D4F7FEE6ED178,
    0x06F067AA72176FBA, 0x0A637DC5A2C898A6, 0x113F9804BEF90DAE, 0x1B710B35131C471B,
    0x28DB77F523047D84, 0x32CAAB7B40C72493, 0x3C9EBE0A15C9BEBC, 0x431D67C49C100D4C,
    0x4CC5D4BECB3E42B6, 0x597F299CFC657E2A, 0x5FCB6FAB3AD6FAEC, 0x6C44198C4A475817]

/-- The initial hash value of SHA-384. -/
def shaInit : List (BitVec 64) := [0xCBBB9D5DC1059ED8, 0x629A292A367CD507, 0x9159015A3070DD17, 0x152FECD8F70E5939, 0x67332667FFC00B31, 0x8EB44A8768581511, 0xDB0C2E0D64F98FA7, 0x47B5481DBEFA4FA4]

/-- Words of a block, eight bytes each, most significant byte first. -/
def shaWords : Nat → List Byte → List (BitVec 64)
  | 0, _ => []
  | n + 1, l => BitVec.ofNat 64 (ofBytes (l.take 8).reverse) :: shaWords n (l.drop 8)

/-- The message schedule, newest word first. -/
def shaSchedule : Nat → List (BitVec 64) → List (BitVec 64)
  | 0, w => w
  | n + 1, w =>
    let a := w.getD 1 0
    let b := w.getD 14 0
    let s1 := a.rotateRight 19 ^^^ a.rotateRight 61 ^^^ (a >>> (6 : Nat))
    let s0 := b.rotateRight 1 ^^^ b.rotateRight 8 ^^^ (b >>> (7 : Nat))
    shaSchedule n ((s1 + w.getD 6 0 + s0 + w.getD 15 0) :: w)

/-- One round on the eight working variables. -/
def shaRound (v : List (BitVec 64)) (k w : BitVec 64) : List (BitVec 64) :=
  let g (i : Nat) : BitVec 64 := v.getD i 0
  let e := g 4
  let a := g 0
  let t1 := g 7 + (e.rotateRight 14 ^^^ e.rotateRight 18 ^^^ e.rotateRight 41) + ((e &&& g 5) ^^^ (~~~e &&& g 6)) + k + w
  let t2 := (a.rotateRight 28 ^^^ a.rotateRight 34 ^^^ a.rotateRight 39) + ((a &&& g 1) ^^^ (a &&& g 2) ^^^ (g 1 &&& g 2))
  [t1 + t2, a, g 1, g 2, g 3 + t1, e, g 5, g 6]

/-- One block of 128 bytes. -/
def shaBlock (h : List (BitVec 64)) (b : List Byte) : List (BitVec 64) :=
  let w := (shaSchedule 64 (shaWords 16 b).reverse).reverse
  let v := (shaK.zip w).foldl (fun v p => shaRound v p.1 p.2) h
  (h.zip v).map (fun p => p.1 + p.2)

def shaBlocks : Nat → List (BitVec 64) → List Byte → List (BitVec 64)
  | 0, h, _ => h
  | n + 1, h, l => shaBlocks n (shaBlock h (l.take 128)) (l.drop 128)

/-- The padding of a message: a one bit, zeros, and the length in bits as 16 bytes. -/
def shaPad (l : List Byte) : List Byte :=
  l ++ (0x80 : Byte) :: List.replicate ((239 - l.length % 128) % 128) 0 ++ (toBytes 16 (8 * l.length)).reverse

/-- The SHA-384 of a message as its 48 bytes. -/
def sha384 (l : List Byte) : List Byte :=
  let p := shaPad l
  ((shaBlocks (p.length / 128) shaInit p).take 6).flatMap (fun w => (toBytes 8 w.toNat).reverse)

/-- The number big-endian bytes spell. -/
def ofBytesBE (l : List Byte) : Nat := ofBytes l.reverse

/-! ### ECDSA on P-384 -/

def ecP : Nat := 2 ^ 384 - 2 ^ 128 - 2 ^ 96 + 2 ^ 32 - 1
def ecN : Nat := 0xffffffffffffffffffffffffffffffffffffffffffffffffc7634d81f4372ddf581a0db248b0a77aecec196accc52973
def ecB : Nat := 0xb3312fa7e23ee7e4988e056be3f82d19181d9c6efe8141120314088f5013875ac656398d8a2ed19d2a85c8edd3ec2aef
def ecGx : Nat := 0xaa87ca22be8b05378eb1c71ef320ad746e1d3b628ba79b9859f741e082542a385502f25dbf55296c3a545e3872760ab7
def ecGy : Nat := 0x3617de4a96262c6f5d9e98bf9292dc29f8f41dbd289a147ce9da3113b5f0b8c00a60b1ce1d7e819d7a431d7c90ea0e5f

/-- A power modulo m, its exponent in `n` bits. -/
def powMod (m : Nat) : Nat → Nat → Nat → Nat
  | 0, _, _ => 1 % m
  | n + 1, a, e => powMod m n (a * a % m) (e / 2) * (if e % 2 = 1 then a else 1) % m

/-- The inverse modulo a prime. -/
def invMod (m a : Nat) : Nat := powMod m 384 (a % m) (m - 2)

/-- A point of the curve; none is the point at infinity. -/
abbrev EcPoint := Option (Nat × Nat)

def subP (a b : Nat) : Nat := (a + ecP - b % ecP) % ecP

def ecAdd : EcPoint → EcPoint → EcPoint
  | none, q => q
  | some a, none => some a
  | some a, some b =>
    if a.1 = b.1 ∧ (a.2 + b.2) % ecP = 0 then none
    else
      let l := if a.1 = b.1 then subP (3 * a.1 * a.1) 3 * invMod ecP (2 * a.2) % ecP
        else subP b.2 a.2 * invMod ecP (subP b.1 a.1) % ecP
      let x := subP (subP (l * l) a.1) b.1
      some (x, subP (l * subP a.1 x) a.2)

/-- A multiple of a point, its factor in `n` bits. -/
def ecMul : Nat → Nat → EcPoint → EcPoint
  | 0, _, _ => none
  | n + 1, k, a => ecAdd (if k % 2 = 1 then a else none) (ecMul n (k / 2) (ecAdd a a))

def onCurve (x y : Nat) : Bool :=
  decide (x < ecP) && decide (y < ecP) && decide (y * y % ecP = (x * x * x + (ecP - 3) * x + ecB) % ecP)

/-- Whether (r, s) is a signature of a message under the public key (x, y). -/
def ecdsaOk (x y r s : Nat) (msg : List Byte) : Bool :=
  if onCurve x y && decide (0 < r) && decide (r < ecN) && decide (0 < s) && decide (s < ecN) then
    let w := invMod ecN s
    let e := ofBytesBE (sha384 msg)
    match ecAdd (ecMul 384 (e * w % ecN) (some (ecGx, ecGy))) (ecMul 384 (r * w % ecN) (some (x, y))) with
    | some q => decide (q.1 % ecN = r)
    | none => false
  else false

end Sys2Proof.Machine
end

