-- ==== Sys2Proof/Machine/CheckOps.lean ====
section
/-!
DEFINITION. The geometry of the collision checker: robot model, forward kinematics, distance fields, clearance, the evaluation of
a candidate, and the building of a fallback (R287 to R296, R306 to R308, 11_planner.md).
-/

namespace Sys2Proof.Machine

/-! ### The model (R287) -/

def v3At (l : List Byte) (off : Nat) : V3 := ⟨field l off 4, field l (off + 4) 4, field l (off + 8) 4⟩

def finF32 (v : Nat) : Bool := (f32 v).isFin
def V3.fin (v : Sys2Proof.Machine.V3) : Bool := finF32 v.x && finF32 v.y && finF32 v.z
def allZero (l : List Byte) : Bool := l.all (fun b => b = 0)

/-- Offset of the link records, and size of a model image. -/
def modelLinksAt (joints : Nat) : Nat := 64 + (16 * joints + 63) / 64 * 64
def modelSize (h : List Byte) : Nat := modelLinksAt (field h 1 1) + 64 * field h 0 1 + 32 * field h 2 1

/-- The counts of a header lie within their ranges. -/
def modelCounts (h : List Byte) : Bool := [0, 1, 2].all (fun i => decide (1 ≤ field h i 1) && decide (field h i 1 ≤ 64))

def ccJoint (l : List Byte) : CcJoint := ⟨field l 0 4, field l 4 4, field l 8 4, field l 12 4⟩
def ccLink (l : List Byte) : CcLink :=
  ⟨field l 0 1, field l 1 1, field l 2 1, field l 3 1, v3At l 4, [field l 16 4, field l 20 4, field l 24 4, field l 28 4], field l 32 4⟩
def ccCap (l : List Byte) : CcCap := ⟨field l 0 1, field l 1 1, field l 2 1, v3At l 4, v3At l 16, field l 28 4⟩

/-- The records of an image with valid counts. -/
def modelOf (d : List Byte) : CcModel :=
  let j := field d 1 1
  let n := field d 0 1
  let b := modelLinksAt j
  ⟨field d 4 4, (List.range j).map (fun i => ccJoint (slice d (64 + 16 * i) 16)),
    (List.range n).map (fun i => ccLink (slice d (b + 64 * i) 64)),
    (List.range (field d 2 1)).map (fun i => ccCap (slice d (b + 64 * n + 32 * i) 32))⟩

/-- The norm of a quaternion lies within 1 ± 2^-10. -/
def quatNormOk (q : List Nat) : Bool :=
  let n := ratSum (q.map (fun v => f32rat v * f32rat v))
  decide ((1023 / 1024 : Rat) * (1023 / 1024) ≤ n) && decide (n ≤ (1025 / 1024 : Rat) * (1025 / 1024))

/-- The checks of R287 on an image whose counts are valid. -/
def modelOk (d : List Byte) : Bool :=
  let m := modelOf d
  let j := field d 1 1
  let n := field d 0 1
  let b := modelLinksAt j
  allZero (slice d 3 1) && allZero (slice d 12 52) &&
    m.joints.all (fun x => finF32 x.qmin && finF32 x.qmax && finF32 x.vmax && finF32 x.amax) &&
    m.links.zipIdx.all (fun e =>
      let x := e.1
      (decide (x.parent < e.2) || decide (x.parent = 0xFF)) && decide (x.typ ≤ 2) && decide (x.axis < 8) && decide (x.axis % 4 ≠ 3) &&
        (decide (x.typ = 0) || decide (x.joint < j)) && x.offT.fin && x.offQ.all finF32 && finF32 x.qOff && quatNormOk x.offQ &&
        allZero (slice d (b + 64 * e.2 + 36) 28)) &&
    m.caps.zipIdx.all (fun e =>
      let x := e.1
      decide (x.link < n) && decide (1 ≤ x.probes) && decide (x.probes ≤ 8) && decide (x.fields < 4) && x.a.fin && x.b.fin &&
        finF32 x.radius && f32lt 0 x.radius && allZero (slice d (b + 64 * n + 32 * e.2 + 3) 1))

/-! ### Forward kinematics (R288) -/

/-- A frame in exact values: the rows of its rotation, and its origin. -/
structure Frame where
  r : List (List Val)
  t : List Val
  deriving DecidableEq, Repr

def dotV (a b : List Val) : Val := (a.zip b).foldl (fun s p => s.add (p.1.mul p.2)) .zero
def frame0 : Frame := ⟨[[.ofNat 1, .zero, .zero], [.zero, .ofNat 1, .zero], [.zero, .zero, .ofNat 1]], [.zero, .zero, .zero]⟩
def Frame.rot (f : Sys2Proof.Machine.Frame) (v : List Val) : List Val := f.r.map (fun row => dotV row v)
def Frame.place (f : Sys2Proof.Machine.Frame) (v : List Val) : List Val := List.zipWith Val.add (f.rot v) f.t
def col (m : List (List Val)) (i : Nat) : List Val := m.map (fun r => r.getD i .zero)

/-- The frame of a frame in another. -/
def Frame.comp (f g : Sys2Proof.Machine.Frame) : Sys2Proof.Machine.Frame :=
  ⟨f.r.map (fun row => (List.range 3).map (fun i => dotV row (col g.r i))), f.place g.t⟩

/-- The rotation of a quaternion w, x, y, z, normalised. -/
def quatRows (q : List Val) : List (List Val) :=
  let w := q.getD 0 .zero
  let x := q.getD 1 .zero
  let y := q.getD 2 .zero
  let z := q.getD 3 .zero
  let n := dotV q q
  let e (a b c d : Val) (neg : Bool) : Val := (((a.mul b).add (if neg then (c.mul d).neg else c.mul d)).scale2 1).div n
  let d (a b : Val) : Val := (Val.ofNat 1).sub ((((a.mul a).add (b.mul b)).scale2 1).div n)
  [[d y z, e x y w z true, e x z w y false], [e x y w z false, d x z, e y z w x true], [e x z w y true, e y z w x false, d x y]]

/-- A joint's motion by a value about or along its axis. -/
def jointFrame (typ axis : Nat) (v : Val) : Frame :=
  let v := if bit axis 2 then v.neg else v
  let i := axis % 4
  if typ = 2 then { frame0 with t := (List.range 3).map (fun k => if k = i then v else .zero) }
  else if typ = 1 then
    let (sn, cs) := sinCos v
    { frame0 with r := (List.range 3).map (fun a => (List.range 3).map (fun b =>
      if a = i ∨ b = i then (if a = b then .ofNat 1 else .zero)
      else if a = b then cs
      else if (a + 1) % 3 = b then sn.neg else sn)) }
  else frame0

def vals (v : V3) : List Val := [f32 v.x, f32 v.y, f32 v.z]
def normV (l : List Val) : Val := sqrtVal (dotV l l)

/-- A link's frame with the sum of the offset norms along its chain, and the words its chain depends on. -/
structure LinkAt where
  f : Frame
  reach : Val
  words : List Nat
  deriving DecidableEq, Repr

/-- The frames of every link, in link order. -/
def linkFrames (m : CcModel) (q : List Nat) : List LinkAt :=
  m.links.foldl (fun (l : List LinkAt) x =>
    let p := if x.parent = 0xFF then ⟨frame0, .zero, []⟩ else l.getD x.parent ⟨frame0, .zero, []⟩
    let v := if x.typ = 0 then 0 else q.getD x.joint 0
    let off : Frame := ⟨quatRows (x.offQ.map f32), vals x.offT⟩
    l ++ [⟨(p.f.comp off).comp (jointFrame x.typ x.axis ((f32 v).add (f32 x.qOff))), p.reach.add (normV (vals x.offT)),
      p.words ++ [x.typ, x.axis, x.offT.x, x.offT.y, x.offT.z, x.qOff, v] ++ x.offQ⟩]) []

/-- A point of a link in the planning frame: a free function within 2^-18 of R of the exact value, coordinate by coordinate
(R288, log entry 14). -/
def endPoint (l : LinkAt) (p : V3) : V3 :=
  let e := l.f.place (vals p)
  let bound := (l.reach.add (normV (vals p))).scale2 (-18)
  let c (i : Nat) : Nat := boundedF32 60 ([i, p.x, p.y, p.z] ++ l.words) (e.getD i .zero) bound
  ⟨c 0, c 1, c 2⟩

/-- The end points of every capsule at a sample. -/
def capPoints (m : CcModel) (q : List Nat) : List (V3 × V3) :=
  let ls := linkFrames m q
  m.caps.map (fun c => let l := ls.getD c.link ⟨frame0, .zero, []⟩; (endPoint l c.a, endPoint l c.b))

/-! ### The fields (R289 to R291) -/

def f32ofNat (n : Nat) : Nat := f32ofInt (n : Int)

/-- Millimetres as metres in FP32. -/
def mmF32 (n : Nat) : Nat := f32div (f32ofNat n) (f32ofNat 1000)

/-- Cells of a volume along x, y and z. -/
def CcSdf.size (f : Sys2Proof.Machine.CcSdf) : Nat × Nat × Nat := (8 * f.nx, 8 * f.ny, 8 * f.nz)

/-- The value of a cell. -/
def CcSdf.cellAt (f : Sys2Proof.Machine.CcSdf) (i j k : Nat) : Int :=
  let e := f.index.getD (((k / 8) * f.ny + j / 8) * f.nx + i / 8) 0xFFFF
  if e = 0xFFFF then 127
  else if e = 0xFFFE then -128
  else sgn 8 ((f.pool.getD (e * 512 + ((k % 8) * 8 + j % 8) * 8 + i % 8) 0).toNat)

/-- A fractional cell index: (p - origin) / cell - 0.5. -/
def cellPos (p org cell : Nat) : Nat := f32sub (f32div (f32sub p org) cell) 0x3F000000

/-- The two indices around a fractional index, clamped to n cells, and the fraction. -/
def around (u n : Nat) : Nat × Nat × Nat :=
  let i := (f32 u).floor
  ((clampI 0 ((n : Int) - 1) i).toNat, (clampI 0 ((n : Int) - 1) (i + 1)).toNat, f32sub u (f32ofInt i))

/-- More than half a cell outside n cells. -/
def outsideCells (u n : Nat) : Bool := f32lt u (f32ofInt (-1)) || f32lt (f32ofNat n) u

/-- Linear interpolation in FP32. -/
def lerp (a b t : Nat) : Nat := f32add a (f32mul (f32sub b a) t)

/-- The value of a field at a probe: metres, and whether an infinity came from data outside. -/
structure FieldVal where
  v : Nat
  outside : Bool
  deriving DecidableEq, Repr

def outsideVal (mode : Bool) : FieldVal := ⟨inf32 mode, mode⟩

/-- The volume at a point: the interpolation goes along x, then y, then z. -/
def CcSdf.at (f : Sys2Proof.Machine.CcSdf) (mode : Bool) (p : V3) : FieldVal :=
  let (nx, ny, nz) := f.size
  let c := mmF32 f.cell
  let u := cellPos p.x f.org.x c
  let v := cellPos p.y f.org.y c
  let w := cellPos p.z f.org.z c
  if outsideCells u nx || outsideCells v ny || outsideCells w nz then outsideVal mode
  else
    let (i0, i1, a) := around u nx
    let (j0, j1, b) := around v ny
    let (k0, k1, g) := around w nz
    let line (j k : Nat) : Nat := lerp (f32ofInt (f.cellAt i0 j k)) (f32ofInt (f.cellAt i1 j k)) a
    let face (k : Nat) : Nat := lerp (line j0 k) (line j1 k) b
    if [i0, i1].any (fun i => [j0, j1].any (fun j => [k0, k1].any (fun k => decide (f.cellAt i j k = -128)))) then ⟨inf32 true, false⟩
    else ⟨f32mul (lerp (face k0) (face k1) g) (mmF32 f.dUnit), false⟩

/-- The map at a point, where its height bounds apply to a probe that reaches `reach` up and down. -/
def CcBev.at (f : Sys2Proof.Machine.CcBev) (mode : Bool) (p : V3) (r h : Nat) : FieldVal :=
  let cm (v : Int) : Nat := f32div (f32ofInt v) (f32ofNat 100)
  if !(f32le (f32sub (f32sub p.z r) h) (cm f.zHi) && f32le (cm f.zLo) (f32add (f32add p.z r) h)) then ⟨inf32 false, false⟩
  else
    let (sn, cs) := sinCos (f32 f.pose.z)
    let c := toF32 cs
    let n := toF32 sn
    let dx := f32sub p.x f.pose.x
    let dy := f32sub p.y f.pose.y
    let u := cellPos (f32add (f32mul c dx) (f32mul n dy)) f.xMin (mmF32 f.cell)
    let v := cellPos (f32sub (f32mul c dy) (f32mul n dx)) f.yMin (mmF32 f.cell)
    if outsideCells u f.w || outsideCells v f.h then outsideVal mode
    else
      let (i0, i1, a) := around u f.w
      let (j0, j1, b) := around v f.h
      let at_ (i j : Nat) : Nat := f32ofNat (f.field.getD (j * f.w + i) 0)
      let line (j : Nat) : Nat := lerp (at_ i0 j) (at_ i1 j) a
      ⟨f32div (lerp (line j0) (line j1) b) (f32ofNat 1000), false⟩

/-- The stored distance of a cell whose nearest occupied cell is the square root of `d2` cells away, in millimetres: e less 0.7071
of a cell, to one side or the other of the exact value where it is no whole number (R290, log entry 14). -/
def bevDist (cell d2 : Nat) : Nat :=
  let e := isqrt (cell * cell * d2 * 100000000)
  let x := e - 7071 * cell
  let exact := decide (e * e = cell * cell * d2 * 100000000) && decide (x % 10000 = 0)
  min 65535 (if e ≤ 7071 * cell then 0 else if exact then x / 10000 else x / 10000 + Config.openFn 59 [cell, d2] % 2)

/-- The least squared distance in cells to an occupied cell. -/
def nearest2 (occ : List (Nat × Nat)) (x y : Nat) : Option Nat :=
  occ.foldl (fun (b : Option Nat) c =>
    let dx := (c.1 - x) + (x - c.1)
    let dy := (c.2 - y) + (y - c.2)
    let d := dx * dx + dy * dy
    some (match b with | some m => min m d | none => d)) none

/-- The distance field of a map's FP16 cells, row by row (R290). -/
def bevField (w h cell thr : Nat) (rows : List (List Byte)) : List Nat :=
  let occ := (List.range h).flatMap (fun y => (List.range w).filterMap (fun x =>
    let v := fmtF16.dec (field (rows.getD y []) (2 * x) 2)
    if v.isNan || (fmtF16.dec thr).le v then some (x, y) else none))
  (List.range h).flatMap (fun y => (List.range w).map (fun x =>
    match nearest2 occ x y with
    | some d => bevDist cell d
    | none => 65535))

/-! ### Clearance (R292) -/

/-- What a batch tests against: the fields, and the registers it uses. -/
structure CcCtx where
  m : CcModel
  sdf : Option CcSdf
  bev : Option CcBev
  mode : Bool
  margin : Nat
  deriving DecidableEq, Repr

def V3.sub (a b : Sys2Proof.Machine.V3) : Sys2Proof.Machine.V3 := ⟨f32sub a.x b.x, f32sub a.y b.y, f32sub a.z b.z⟩
def V3.len (a : Sys2Proof.Machine.V3) : Nat := f32sqrt (dot3 a a)

/-- The field value at a probe: the smaller one, and whether every infinity in it came from outside data. -/
def CcCtx.fieldAt (x : Sys2Proof.Machine.CcCtx) (c : CcCap) (p : V3) (h : Nat) : FieldVal :=
  let a := match x.sdf with
    | some f => if bit c.fields 0 then f.at x.mode p else ⟨inf32 false, false⟩
    | none => ⟨inf32 false, false⟩
  let b := match x.bev with
    | some f => if bit c.fields 1 then f.at x.mode p c.radius h else ⟨inf32 false, false⟩
    | none => ⟨inf32 false, false⟩
  let inside (v : FieldVal) : Bool := decide (v.v = inf32 true) && !v.outside
  ⟨f32min a.v b.v, (a.outside || b.outside) && !(inside a || inside b)⟩

/-- The clearance of a capsule whose end points are (a, b), with the end points at the neighbouring samples. -/
def CcCtx.clearance (x : Sys2Proof.Machine.CcCtx) (c : CcCap) (ab : V3 × V3) (near : List (V3 × V3)) : FieldVal :=
  let d := ab.2.sub ab.1
  let two := f32ofNat (2 * c.probes)
  let h := f32div d.len two
  let s := near.foldl (fun t n => f32max t (f32max (n.1.sub ab.1).len (n.2.sub ab.2).len)) 0
  let less (v : Nat) : Nat := f32sub (f32sub (f32sub (f32sub v c.radius) h) (f32div s (f32ofNat 2))) x.margin
  let fs := (List.range c.probes).map (fun n =>
    let k := f32ofNat (2 * n + 1)
    x.fieldAt c ⟨f32add ab.1.x (f32div (f32mul d.x k) two), f32add ab.1.y (f32div (f32mul d.y k) two),
      f32add ab.1.z (f32div (f32mul d.z k) two)⟩ h)
  ⟨less (fs.foldl (fun v f => f32min v f.v) (inf32 false)),
    fs.any (·.outside) && !fs.any (fun f => decide (f.v = inf32 true) && !f.outside)⟩

/-- Capsules' end points at the samples next to sample k. -/
def beside (pts : List (List (V3 × V3))) (k c : Nat) : List (V3 × V3) :=
  ((if k = 0 then [] else [k - 1]) ++ [k + 1]).filterMap (fun i => (pts[i]?).bind (fun l => l[c]?))

/-- The tests of stage 4 in order: sample, capsule, clearance, outside. -/
def CcCtx.tests (x : Sys2Proof.Machine.CcCtx) (samples joints : Nat) (q : List Nat) : List (Nat × Nat × FieldVal) :=
  let pts := (List.range samples).map (fun k => capPoints x.m ((q.drop (k * joints)).take joints))
  (List.range samples).flatMap (fun k => x.m.caps.zipIdx.map (fun c =>
    (k, c.2, x.clearance c.1 ((pts.getD k []).getD c.2 (v30, v30)) (beside pts k c.2))))

/-- The tests up to and with the first collision: C_MIN over them, and the collision. -/
def runTests : List (Nat × Nat × FieldVal) → Nat → Nat × Option (Nat × Nat × Bool)
  | [], m => (m, none)
  | (k, c, f) :: r, m =>
    let m := f32min m f.v
    if f32lt f.v 0 then (m, some (k, c, f.outside)) else runTests r m

/-! ### Evaluating a candidate (R294 to R296) -/

def rsFeasible : Nat := 0
def rsCollision : Nat := 1
def rsOutside : Nat := 2
def rsPosition : Nat := 3
def rsTimeScale : Nat := 4
def rsNan : Nat := 5
def rsNotEvaluated : Nat := 6

/-- One smoothing pass: ((before + after) + 2 q) × 0.25 at every interior sample. -/
def smoothPass (samples joints : Nat) (q : List Nat) : List Nat :=
  (List.range (samples * joints)).map (fun i =>
    let at_ (j : Nat) : Nat := q.getD j 0
    if i < joints ∨ (samples - 1) * joints ≤ i then at_ i
    else f32mul (f32add (f32add (at_ (i - joints)) (at_ (i + joints))) (f32mul 0x40000000 (at_ i))) 0x3E800000)

def smooth (samples joints : Nat) : Nat → List Nat → List Nat
  | 0, q => q
  | n + 1, q => smooth samples joints n (smoothPass samples joints q)

/-- The time-scale terms of R295 in order: sample, joint, value. -/
def scaleTerms (m : CcModel) (samples dtNs : Nat) (q : List Nat) : List (Nat × Nat × Nat) :=
  let n := m.joints.length
  let dt := toF32 ((Val.ofNat dtNs).div (.ofNat 1000000000))
  let at_ (k j : Nat) : Nat := q.getD (k * n + j) 0
  (List.range (samples - 1)).flatMap (fun k => m.joints.zipIdx.flatMap (fun e =>
    let v := f32div (f32sub (at_ (k + 1) e.2) (at_ k e.2)) dt
    let a := f32div (f32add (f32sub (at_ (k + 1) e.2) (f32mul 0x40000000 (at_ k e.2))) (at_ (k - 1) e.2)) (f32mul dt dt)
    (if (f32 e.1.vmax).isZero then [] else [(k, e.2, f32div (f32abs v) e.1.vmax)]) ++
      (if k = 0 ∨ (f32 e.1.amax).isZero = true then [] else [(k, e.2, f32sqrt (f32div (f32abs a) e.1.amax))])))

/-- A joint's value lies outside its limits. -/
def CcJoint.outside (j : Sys2Proof.Machine.CcJoint) (v : Nat) : Bool :=
  !f32lt j.qmax j.qmin && (f32lt v j.qmin || f32lt j.qmax v)

/-- The registers an evaluation uses (R294 to R296). -/
structure EvalCfg where
  limit : Bool
  passes : Nat
  alphaMax : Nat
  soft : Nat
  wClear : Nat
  wTime : Nat
  deriving DecidableEq, Repr

/-- The cost of R296. -/
def EvalCfg.cost (g : Sys2Proof.Machine.EvalCfg) (base cMin alpha : Nat) : Nat :=
  f32add (f32add base (f32mul g.wClear (f32max 0 (f32sub g.soft cMin)))) (f32mul g.wTime (f32sub alpha f32one))

/-- The verdict on a candidate. -/
def CcCtx.evaluate (x : Sys2Proof.Machine.CcCtx) (g : EvalCfg) (samples dtNs base tag : Nat) (raw : List Nat) : CcVerdict :=
  let n := x.m.joints.length
  let q := if g.limit then smooth samples n g.passes raw else raw
  let fail (alpha reason sample item : Nat) : CcVerdict := ⟨f32nan, f32nan, alpha, reason, sample, item, tag, q⟩
  let bad (l : List Nat) : Option Nat := (l.findIdx? (fun v => !finF32 v)).map (fun i => i / max 1 n)
  match (bad raw).or (bad q) with
  | some k => fail f32nan rsNan k 0xFF
  | none =>
    if !finF32 base then fail f32nan rsNan 0xFF 0xFF
    else
      match (List.range (samples * n)).find? (fun i => (x.m.joints.getD (i % n) ⟨0, 0, 0, 0⟩).outside (q.getD i 0)) with
      | some i => fail f32nan rsPosition (i / n) (i % n)
      | none =>
        let ts := scaleTerms x.m samples dtNs q
        let alpha := ts.foldl (fun a t => f32max a t.2.2) f32one
        let lim := if g.limit then g.alphaMax else f32one
        if f32lt lim alpha then
          match ts.find? (fun t => f32lt lim t.2.2) with
          | some t => fail alpha rsTimeScale t.1 t.2.1
          | none => fail alpha rsTimeScale 0xFF 0xFF
        else
          match runTests (x.tests samples n q) (inf32 false) with
          | (m, some (k, c, out)) => ⟨m, f32nan, alpha, if out then rsOutside else rsCollision, k, c, tag, q⟩
          | (m, none) => ⟨m, g.cost base m alpha, alpha, rsFeasible, 0xFF, 0xFF, tag, q⟩

/-- The lowest cost, and the lowest index among equal ones. -/
def bestOf (vs : List CcVerdict) : Option (Nat × CcVerdict) :=
  vs.zipIdx.foldl (fun (b : Option (Nat × CcVerdict)) e =>
    if e.1.reason ≠ rsFeasible then b
    else match b with
      | none => some (e.2, e.1)
      | some (i, v) => if f32lt e.1.cost v.cost then some (e.2, e.1) else some (i, v)) none

/-- A verdict record. -/
def CcVerdict.bytes (v : Sys2Proof.Machine.CcVerdict) : List Byte :=
  toBytes 4 v.cMin ++ toBytes 4 v.cost ++ toBytes 4 v.alpha ++ toBytes 1 v.reason ++ toBytes 1 v.sample ++ toBytes 1 v.item ++ toBytes 1 0

def notEvaluated : CcVerdict := ⟨f32nan, f32nan, f32nan, rsNotEvaluated, 0xFF, 0xFF, 0, []⟩

/-! ### Registers an evaluation reads -/

def State.evalCfg (s : State) : EvalCfg :=
  ⟨s.on F.CC_CFG_LIMIT_MODE, s.rd F.CC_CFG_SMOOTH_PASSES,
    f32div (f32ofNat (clampN 256 1024 (s.rd F.CC_MARGINS_ALPHA_MAX))) (f32ofNat 256),
    mmF32 (s.rd F.CC_MARGINS_CLEAR_SOFT_MM), s.rd F.CC_COST_W_CLEAR, s.rd F.CC_COST_W_TIME⟩

/-- What a batch or a fallback tests against, by the fields named (bit 0 the volume, bit 1 the map). -/
def State.ccCtx (s : State) (m : CcModel) (env : Nat) : CcCtx :=
  ⟨m, if bit env 0 then s.cc.sdf else none, if bit env 1 then s.cc.bev else none, s.on F.CC_CFG_OUTSIDE_MODE,
    mmF32 (s.rd F.CC_MARGINS_SWEEP_MARGIN_MM)⟩

/-! ### Building a fallback (R306 to R308) -/

/-- The joint values at a fractional sample index, linear between samples, held at the last one. -/
def Traj.posAt (t : Sys2Proof.Machine.Traj) (sigma : Rat) : List Rat :=
  let k := sigma.floor.toNat
  if t.samples ≤ k + 1 then (t.sample (t.samples - 1)).map f32rat
  else List.zipWith (fun a b => f32rat a + (f32rat b - f32rat a) * (sigma - (k : Rat))) (t.sample k) (t.sample (k + 1))

/-- The joint velocities of the segment that holds a fractional sample index, per second; zero beyond the last sample. -/
def Traj.velAt (t : Sys2Proof.Machine.Traj) (sigma : Rat) : List Rat :=
  let k := sigma.floor.toNat
  if t.samples ≤ k + 1 then List.replicate t.joints 0
  else List.zipWith (fun a b => (f32rat b - f32rat a) * 1000000000 / ((max 1 t.dt : Nat) : Rat)) (t.sample k) (t.sample (k + 1))

/-- The fallback's samples, DT_NS and flags (bit 2 STOP_SHORT, bit 4 HOLD_DENIED) from the active trajectory at t_n. -/
def stopOf (js : List CcJoint) (hold : Bool) (frac vfrac n : Nat) (b : CcBuild) : List Nat × Nat × Nat :=
  let t := b.src
  let dt : Rat := ((max 1 t.dt : Nat) : Rat) / 1000000000
  let last : Rat := ((t.samples - 1 : Nat) : Rat)
  let s0 : Rat := min last (((b.tn - t.t0 : Nat) : Rat) / ((max 1 t.dt : Nat) : Rat))
  let vs := (t.velAt s0).zip js
  let still : List Nat := (List.replicate n ((t.posAt s0).map ratF32)).flatten
  let fast := vs.any (fun p => !(f32 p.2.vmax).isZero && decide (f32rat p.2.vmax * (vfrac : Rat) / 256 < ratAbs p.1))
  if hold && !fast then (still, 0, 0)
  else
    let denied := (hold && fast).toNat * 16
    let ts := (vs.filter (fun p => !(f32 p.2.amax).isZero)).map (fun p => ratAbs p.1 / (f32rat p.2.amax * (frac : Rat) / 256))
    let stop := ts.foldl (fun a x => if a < x then x else a) 0
    if stop = 0 then (still, 0, denied)
    else
      let short := decide (last < s0 + stop / dt / 2)
      let stop := if short then 2 * (last - s0) * dt else stop
      let m : Rat := ((n - 1 : Nat) : Rat)
      let at_ (k : Nat) : List Nat :=
        let tau := (k : Rat) * stop / m
        (t.posAt (if stop = 0 then s0 else s0 + tau / dt - tau * tau / (2 * stop * dt))).map ratF32
      ((List.range n).flatMap at_, (ratRound (stop / m * 1000000000)).toNat, denied + short.toNat * 4)

/-- The fallback trajectory of a build, tested against the fields the last CHECK used: C_MIN over its samples and FB_COLLIDES. -/
def State.buildFallback (s : State) (b : CcBuild) : Traj :=
  let js := (s.cc.model.map (·.joints)).getD []
  let n := let k := s.rd F.CC_FB_CFG_FB_SAMPLES; if k < 2 ∨ 32 < k then 32 else k
  let frac := let f := s.rd F.CC_FB_CFG_STOP_FRAC; if f = 0 then 256 else min 256 f
  let (q, dt, fl) := stopOf js (s.on F.CC_CFG_FALLBACK_KIND) frac (s.rd F.CC_FB_CFG_HOLD_VFRAC) n b
  let tests := match s.cc.model with
    | some m =>
      let x := s.ccCtx m s.cc.lastEnv
      if x.sdf.isSome || x.bev.isSome then x.tests n b.src.joints q else []
    | none => []
  let cMin := if tests.isEmpty then f32nan else tests.foldl (fun v t => f32min v t.2.2.v) (inf32 false)
  let hits := tests.any (fun t => f32lt t.2.2.v 0)
  ⟨nextStage s.cc.lastId, trActive, n, b.src.joints, 2 + fl + hits.toNat * 8, b.tn, dt, f32one, cMin, 0, 0xFFFFFFFF, b.src.tb,
    s.ts64 b.src.tb, q⟩

end Sys2Proof.Machine
end

