-- ==== Sys2Proof/Machine/PlannerOps.lean ====
section
/-!
DEFINITION. The jobs of the collision checker, the switch logic, its resets and its registers (R284 to R286, R297 to R312,
11_planner.md).
-/

namespace Sys2Proof.Machine

/-! ### Jobs and their checks (R284, R285) -/

def joCheck : Nat := 1
def joModel : Nat := 2
def joSdf : Nat := 3
def joBev : Nat := 4
def joCommit : Nat := 5
def joCancel : Nat := 6
def joFallback : Nat := 7

/-- A CHECK descriptor. -/
structure ChkDesc where
  flags : Nat
  count : Nat
  samples : Nat
  cand : Nat
  stride : Nat
  dt : Nat
  t0 : Nat
  cost : Nat
  result : Nat
  verdict : Nat
  deadline : Nat
  deriving DecidableEq, Repr

def chkDesc (d : List Byte) : ChkDesc :=
  ⟨field d 1 1, field d 2 2, field d 4 1, field d 8 6, field d 16 4, field d 20 4, field d 24 8, field d 32 6, field d 40 6, field d 48 6,
    field d 56 4⟩

def ChkDesc.env (x : Sys2Proof.Machine.ChkDesc) : Nat := x.flags % 4
def ChkDesc.commit (x : Sys2Proof.Machine.ChkDesc) : Bool := bit x.flags 2
def ChkDesc.stage (x : Sys2Proof.Machine.ChkDesc) : Bool := bit x.flags 3

/-- The extents a CHECK reads, and those it writes. -/
def ChkDesc.reads (x : Sys2Proof.Machine.ChkDesc) (joints : Nat) : List (Nat × Nat) :=
  ext x.cand ((x.count - 1) * x.stride + x.samples * joints * 4) ++ (if x.cost = 0 then [] else ext x.cost (8 * x.count))
def ChkDesc.writes (x : Sys2Proof.Machine.ChkDesc) : List (Nat × Nat) :=
  (if x.result = 0 then [] else ext x.result 64) ++ (if x.verdict = 0 then [] else ext x.verdict (16 * x.count))

def aligned (a n : Nat) : Bool := decide (a % n = 0)

/-- The fields of a CHECK lie within their ranges, its reserved fields are zero and its addresses aligned. -/
def ChkDesc.ok (x : Sys2Proof.Machine.ChkDesc) (d : List Byte) (joints : Nat) : Bool :=
  decide (x.flags < 16) && (x.stage || !x.commit) && decide (x.env ≠ 0) && decide (1 ≤ x.count ∧ x.count ≤ 256) &&
    decide (2 ≤ x.samples ∧ x.samples ≤ 32) && allZero (slice d 5 3 ++ slice d 14 2 ++ slice d 38 2 ++ slice d 46 2 ++ slice d 54 2 ++ slice d 60 4) &&
    decide (x.stride % 64 = 0) && decide (x.samples * joints * 4 ≤ x.stride) && decide (10000 ≤ x.dt ∧ x.dt ≤ 1000000000) &&
    aligned x.cand 16 && aligned x.cost 16 && aligned x.result 64 && aligned x.verdict 16

/-- Checks 2 to 5 on the extents a unit's job reads and writes. -/
def State.jobPlaced (s : State) (u : Nat) (rs ws : List (Nat × Nat)) : Nat :=
  let m := s.masterOf u
  let ex := rs ++ ws
  if ex.any (fun e => !State.extInStores e && !(decide (e.2 ≤ 0x400000000000) && decide (e.2 ≤ s.dramEnd))) then St.badArgument
  else if ex.any s.extAbsent then St.absent
  else if !ex.all s.extBacked then St.badArgument
  else if !(rs.all (fun e => s.extOpen m e false) && ws.all (fun e => s.extOpen m e true)) then St.notPermitted
  else St.ok

def State.ccPlaced (s : State) (rs ws : List (Nat × Nat)) : Nat := s.jobPlaced ccUnit rs ws

/-- The pool bricks an index uses: the highest entry that names one, plus one. -/
def bricksUsed (ix : List Nat) : Nat := ix.foldl (fun n e => if e < 4096 then max n (e + 1) else n) 0

def sdfIndex (d : List Byte) : Nat × Nat := (field d 8 6, field d 2 2 * field d 4 2 * field d 6 1 * 2)

/-- The fields of LOAD_SDF. -/
def sdfOk (d : List Byte) : Bool :=
  let inR (v lo hi : Nat) : Bool := decide (lo ≤ v) && decide (v ≤ hi)
  inR (field d 2 2) 1 64 && inR (field d 4 2) 1 64 && inR (field d 6 1) 1 8 && inR (field d 24 2) 1 1000 && inR (field d 26 2) 1 1000 &&
    allZero (slice d 1 1 ++ slice d 7 1 ++ slice d 14 2 ++ slice d 22 2 ++ slice d 48 16) && aligned (field d 8 6) 16 && aligned (field d 16 6) 16

/-- The fields of LOAD_BEV. -/
def bevOk (d : List Byte) : Bool :=
  let inR (v lo hi : Nat) : Bool := decide (lo ≤ v) && decide (v ≤ hi)
  inR (field d 2 2) 8 1024 && inR (field d 4 2) 8 1024 && inR (field d 24 2) 1 1000 && aligned (field d 16 4) 16 &&
    decide (2 * field d 2 2 ≤ field d 16 4) && aligned (field d 8 6) 16 &&
    allZero (slice d 1 1 ++ slice d 6 2 ++ slice d 14 2 ++ slice d 20 4 ++ slice d 52 4)

/-- The checks of R285 on a job's 64 bytes; OK where it may be queued. The counts of a model and the entries of a brick index that
set an extent are those in memory on arrival. -/
def State.ccCheckJob (s : State) (d : List Byte) : Nat :=
  let op := field d 0 1
  if !s.on F.CC_CTRL_ENABLE || (decide (op = joCheck) && s.cc.model.isNone) then St.refused
  else if op = joCheck then
    let x := chkDesc d
    let j := (s.cc.model.map (·.joints.length)).getD 0
    if !x.ok d j then St.badArgument else s.ccPlaced (x.reads j) x.writes
  else if op = joModel then
    let a := field d 8 6
    if !(allZero (slice d 14 2) && aligned a 16) then St.badArgument
    else
      let c := s.ccPlaced (ext a 64) []
      if c ≠ St.ok then c
      else
        let h := s.bytes a 64
        if modelCounts h then s.ccPlaced (ext a (modelSize h)) [] else St.ok
  else if op = joSdf then
    if !sdfOk d then St.badArgument
    else
      let (a, n) := sdfIndex d
      let c := s.ccPlaced (ext a n) []
      if c ≠ St.ok then c
      else s.ccPlaced (ext (field d 16 6) (512 * bricksUsed ((List.range (n / 2)).map (fun i => s.ld (a + 2 * i) 2)))) []
  else if op = joBev then
    if !bevOk d then St.badArgument else s.ccPlaced (ext (field d 8 6) ((field d 4 2 - 1) * field d 16 4 + 2 * field d 2 2)) []
  else St.ok

/-- A SEND at a unit of the MOTION block that takes jobs (R284, R314): its state, its partition, posted, the form of the job, a full
queue, and the checks of R285. -/
def State.jobArrive (s : State) (u : Nat) (m : Msg) (opOk full : Bool) (check : Nat) (queued : State) : State :=
  let st := s.ustate u
  let ack (st : Nat) : State := s.send (replyTo s m 0x10 st [])
  if st ≠ US.ready ∧ st ≠ US.busy then s.answer m (answerOf st)
  else if s.msgFenced m || (decide (m.srcModule = s.moduleNo) && decide (s.ownerOf m.src < 8) && decide (s.ownerOf m.src ≠ s.ownerOf u)) then
    s.answer m St.notPermitted
  else if m.kind ≠ 0 then s.answer m St.badArgument
  else if m.payload.length ≠ 64 ∨ opOk = false then ack St.badArgument
  else if full then s.answer m St.noSpace
  else if check = St.ok then queued
  else ack check

/-- A SEND at the checker (R284, R285). -/
def State.ccArrive (s : State) (m : Msg) : State :=
  let op := field m.payload 0 1
  s.jobArrive ccUnit m (decide (1 ≤ op) && decide (op ≤ 7)) (decide (8 ≤ s.cc.queue.length + s.cc.run.isSome.toNat))
    (s.ccCheckJob m.payload) (s.setCc { s.cc with queue := s.cc.queue ++ [m] })

/-! ### The job that executes next (R284) -/

/-- The next job, where it is of a kind and none is in execution; it leaves the queue. -/
def State.ccTake (s : State) (op : Nat) : Option (Msg × State) :=
  if s.serving ccUnit ∧ s.cc.run = none then
    match nextJob s.cc.queue with
    | some m => if field m.payload 0 1 = op then some (m, s.setCc { s.cc with queue := s.cc.queue.erase m }) else none
    | none => none
  else none

/-- A job's ACK (R286). -/
def State.ccAck (s : State) (m : Msg) (status : Nat) : State := s.send (replyTo s m 0x10 status [])

/-- A read of the checker: a poisoned one gives INTEGRITY (R286). -/
def State.ccGet (s : State) (a len : Nat) : Nat × List Byte × State :=
  let (st, d, p, s) := s.busGet (s.masterOf ccUnit) a len
  (if st = St.ok ∧ p = true then St.integrity else st, d, s)

/-! ### Loads (R287, R289, R290) -/

/-- LOAD_MODEL: counts, the image with its CRC, the other checks, and last whether the active trajectory allows it. -/
def State.loadModel (s : State) (d : List Byte) : Nat × State :=
  let a := field d 8 6
  let (st, h, s) := s.ccGet a 64
  if st ≠ St.ok then (st, s)
  else if !modelCounts h then (St.badArgument, s)
  else
    let (st, b, s) := s.ccGet (a + 64) (modelSize h - 64)
    let img := h ++ b
    if st ≠ St.ok then (st, s)
    else if crc32c b ≠ field h 8 4 then (St.integrity, s)
    else if !modelOk img then (St.badArgument, s)
    else
      let m := modelOf img
      if s.cc.active.any (fun t => t.joints ≠ m.joints.length) then (St.refused, s)
      else (St.ok, (s.setCc { s.cc with model := some m }).wr F.CC_ENV_MODEL_TAG m.tag)

/-- LOAD_SDF. -/
def State.loadSdf (s : State) (d : List Byte) : Nat × State :=
  let (a, n) := sdfIndex d
  let (st, b, s) := s.ccGet a n
  if st ≠ St.ok then (st, s)
  else
    let ix := (List.range (n / 2)).map (fun i => field b (2 * i) 2)
    if ix.any (fun e => decide (4096 ≤ e) && decide (e < 0xFFFE)) then (St.badArgument, s)
    else
      let k := bricksUsed ix
      let (st, p, s) := s.ccGet (field d 16 6) (512 * k)
      if st ≠ St.ok then (st, s)
      else
        let f : CcSdf := ⟨field d 2 2, field d 4 2, field d 6 1, field d 24 2, field d 26 2, v3At d 28, ix, p, field d 40 8⟩
        (St.ok, ((s.setCc { s.cc with sdf := some f }).wr F.CC_ENV_SDF_BRICKS k).wr F.CC_SDF_TV_TV f.tv)

/-- LOAD_BEV. -/
def State.loadBev (s : State) (d : List Byte) : Nat × State :=
  let w := field d 2 2
  let h := field d 4 2
  let (st, rows, s) := (List.range h).foldl (fun (q : Nat × List (List Byte) × State) y =>
    if q.1 ≠ St.ok then q
    else
      let (st, r, s) := q.2.2.ccGet (field d 8 6 + y * field d 16 4) (2 * w)
      (st, q.2.1 ++ [r], s)) (St.ok, [], s)
  if st ≠ St.ok then (st, s)
  else
    let f : CcBev := ⟨w, h, field d 24 2, v3At d 28, field d 40 4, field d 44 4, sgn 16 (field d 48 2), sgn 16 (field d 50 2),
      bevField w h (field d 24 2) (field d 26 2) rows, field d 56 8⟩
    (St.ok, ((s.setCc { s.cc with bev := some f }).wr F.CC_ENV_BEV_W w).wr F.CC_BEV_TV_TV f.tv)

/-- A job that executes at once, from its bytes to its ACK. -/
def State.ccJob (s : State) (op : Nat) (act : State → List Byte → Nat × State) : State :=
  match s.ccTake op with
  | some (m, s) =>
    let (st, s) := act s m.payload
    s.ccAck m st
  | none => s

/-! ### Staging and switching (R300 to R302) -/

/-- The staged trajectory becomes PENDING: T_SWITCH is T0 or the instant of the commit. -/
def State.pend (s : State) (t : Traj) : Traj :=
  { t with state := trPending, flags := setBit t.flags 0 false, tSwitch := max t.t0 (s.ts64 t.tb) }

/-- COMMIT (R301). -/
def State.ccCommit (s : State) (d : List Byte) : Nat × State :=
  match s.cc.staged with
  | some t => if t.id = field d 4 4 ∧ t.state = trTentative then (St.ok, s.setCc { s.cc with staged := some (s.pend t) }) else (St.refused, s)
  | none => (St.refused, s)

/-- CANCEL (R301). -/
def State.ccCancel (s : State) (d : List Byte) : Nat × State :=
  match s.cc.staged with
  | some t => if t.id = field d 4 4 ∧ t.state = trTentative then (St.ok, s.setCc { s.cc with staged := none }) else (St.refused, s)
  | none => (St.refused, s)

/-- A trajectory becomes active: SWITCH_COUNT, and the notification. -/
def State.ccSwitchIn (s : State) (t : Traj) (staged : Option Traj) : State :=
  let s := (s.setCc { s.cc with active := some { t with state := trActive }, staged := staged }).bumpW F.CC_TRAJ_STATE_SWITCH_COUNT
  if s.on F.CC_CFG_NOTIFY_EN then
    s.post ccUnit (s.rd F.CC_CFG_NOTIFY_UNIT) 3 4 0 (toBytes 4 t.id ++ toBytes 4 0 ++ toBytes 8 t.tSwitch)
  else s

/-- The PENDING trajectory's T_SWITCH has come. -/
def State.trajSwitch (s : State) : State :=
  match s.cc.staged with
  | some t => if t.state = trPending then s.ccSwitchIn t none else s
  | none => s

/-- The expiry test on an active trajectory of kind CHOSEN. -/
def State.trajExpiry (s : State) : State :=
  match s.cc.active with
  | some t => if t.fallback then s else s.fbRequest fbExpired
  | none => s

/-! ### CHECK (R294 to R299) -/

/-- The result record. TAG, COST, C_MIN and ALPHA are not stated where nothing is chosen, and are then taken from the free value `f`
(log entry 31). -/
def CcRun.result (r : Sys2Proof.Machine.CcRun) (reason flags id ended f : Nat) : List Byte :=
  let b := if reason = 0 then bestOf r.verdicts else none
  let n (k : Nat) : Nat := (r.verdicts.filter (fun v => v.reason = k)).length
  let ch := b.getD (0xFFFFFFFF, { notEvaluated with tag := bits f 0 32, cost := bits f 32 32, cMin := bits f 64 32, alpha := bits f 96 32 })
  toBytes 1 (if reason = 0 then 0 else 1) ++ toBytes 1 reason ++ toBytes 1 flags ++ toBytes 1 0 ++ toBytes 4 ch.1 ++ toBytes 4 ch.2.tag ++
    toBytes 4 ch.2.cost ++ toBytes 4 ch.2.cMin ++ toBytes 4 ch.2.alpha ++ toBytes 4 id ++ toBytes 2 r.verdicts.length ++ toBytes 2 (n 0) ++
    toBytes 2 (n 1) ++ toBytes 2 (n 2) ++ toBytes 2 (n 3) ++ toBytes 2 (n 4) ++ toBytes 2 (n 5) ++ toBytes 6 0 ++ toBytes 8 r.tStart ++ toBytes 8 ended

/-- A CHECK ends with its ACK. -/
def State.ccEnd (s : State) (r : CcRun) (status : Nat) : State :=
  ((s.setCc { s.cc with run := none }).ccAck r.msg status).bumpW F.CC_COUNTS_BATCHES

/-- The result record and the ACK. -/
def State.ccRecord (s : State) (r : CcRun) (rcd : List Byte) : State :=
  let a := (chkDesc r.msg.payload).result
  if a = 0 then s.ccEnd r St.ok
  else
    let (st, s) := s.busPut (s.masterOf ccUnit) a rcd false
    s.ccEnd r st

/-- FLAGS of a result record from PARTIAL, STAGED, COMMITTED, ENV_STALE and the two of a fallback. -/
def ccFlags (r : CcRun) (staged committed fb hits : Bool) : Nat :=
  r.cut.toNat + staged.toNat * 2 + committed.toNat * 4 + r.stale.toNat * 8 + fb.toNat * 16 + hits.toNat * 32

/-- CC_LAST after a CHECK's choice or STALEMATE. -/
def State.ccLast (s : State) (r : CcRun) (reason : Nat) (chosen : Option Nat) : State :=
  let s := match chosen with
    | some i => s.wr F.CC_LAST_CHOSEN i
    | none => s
  let s := ((s.wr F.CC_LAST_OUTCOME (decide (reason ≠ 0)).toNat).wr F.CC_LAST_REASON reason).wr F.CC_LAST_PARTIAL r.cut.toNat
  (s.wr F.CC_LAST_EVALUATED r.verdicts.length).wr F.CC_LAST_FEASIBLE ((r.verdicts.filter (fun v => v.reason = rsFeasible)).length)

/-- The choice: staged or committed where the job asks for it (R300); T_SWITCH of a TENTATIVE trajectory is not stated, and is free
(log entry 31). -/
def State.ccChoose (s : State) (r : CcRun) (i : Nat) (v : CcVerdict) : State :=
  let x := chkDesc r.msg.payload
  let tb := s.rd F.CC_CFG_TB
  let ended := s.ts64 tb
  let s := s.ccLast r 0 (some i)
  if !x.stage then s.ccRecord r (r.result 0 (ccFlags r false false false false) 0 ended 0)
  else
    let id := nextStage s.cc.lastId
    let dt := if s.on F.CC_CFG_LIMIT_MODE then (ratRound (f32rat v.alpha * (x.dt : Rat))).toNat else x.dt
    let (f, s) := s.draw 61
    let t : Traj := ⟨id, trTentative, x.samples, v.q.length / max 1 x.samples, 1, x.t0, dt, v.alpha, v.cMin, v.tag, i, tb, f % 2 ^ 64, v.q⟩
    let t := if x.commit then s.pend t else t
    let s := s.setCc { s.cc with staged := some t, lastId := id }
    s.ccRecord r (r.result 0 (ccFlags r true x.commit false false) id ended 0)

/-- A STALEMATE (R298): the staged trajectory and a pending switch are cancelled, and the fallback requested; the job waits for a
fallback that is being built (R299). -/
def State.ccStalemate (s : State) (r : CcRun) (reason : Nat) : State :=
  let ended := s.ts64 (s.rd F.CC_CFG_TB)
  let s := (s.ccLast r reason none).bump F.CC_COUNTS_STALEMATES
  let s := (s.setCc { s.cc with staged := none }).event ccUnit 0x700B reason [r.verdicts.length]
  let s := if s.on F.CC_CFG_FB_ON_STALEMATE then s.fbRequest fbStalemate else s
  if s.cc.build.isSome && s.on F.CC_CFG_FB_ON_STALEMATE then s.setCc { s.cc with run := some { r with ended := some (ended, reason) } }
  else
    let (f, s) := s.draw 62
    let rcd := r.result reason (ccFlags r false false false false) 0 ended f
    let s := if s.cc.active.isNone && s.on F.CC_CFG_FB_ON_STALEMATE then s else s.ccReport rcd
    s.ccRecord r rcd

/-- The end of a batch: verdicts, then the choice or the STALEMATE (R299). -/
def State.ccConclude (s : State) (r : CcRun) (reason : Nat) : State :=
  let x := chkDesc r.msg.payload
  let (st, s) := if x.verdict = 0 then (St.ok, s)
    else s.busPut (s.masterOf ccUnit) x.verdict
      ((List.range x.count).flatMap (fun i => (r.verdicts.getD i notEvaluated).bytes)) false
  if st ≠ St.ok then s.ccEnd r st
  else
    match if reason = 3 then none else bestOf r.verdicts with
    | some (i, v) => s.ccChoose r i v
    | none => s.ccStalemate r (if reason = 3 then 3 else if r.verdicts.length = x.count then 1 else 2)

/-- The next candidate read and evaluated; an answer other than OK ends the job. -/
def State.ccEvalOne (s : State) (r : CcRun) : Nat × CcRun × State :=
  let x := chkDesc r.msg.payload
  let i := r.verdicts.length
  match s.cc.model with
  | none => (St.refused, r, s)
  | some m =>
    let n := m.joints.length
    let (st, c, s) := s.ccGet (x.cand + i * x.stride) (x.samples * n * 4)
    if st ≠ St.ok then (st, r, s)
    else
      let (st, k, s) := if x.cost = 0 then (St.ok, List.replicate 8 0, s) else s.ccGet (x.cost + 8 * i) 8
      if st ≠ St.ok then (st, r, s)
      else
        let v := (s.ccCtx m x.env).evaluate s.evalCfg x.samples x.dt (field k 0 4) (field k 4 4)
          ((List.range (x.samples * n)).map (fun j => field c (4 * j) 4))
        (St.ok, { r with verdicts := r.verdicts ++ [v] }, s)

/-- Up to `fuel` candidates evaluated; the batch ends once all are. -/
def State.ccEvalSome (s : State) (r : CcRun) : Nat → State
  | 0 => s.setCc { s.cc with run := some r }
  | fuel + 1 =>
    let (st, r, s) := s.ccEvalOne r
    if st ≠ St.ok then s.ccEnd r st
    else if (chkDesc r.msg.payload).count ≤ r.verdicts.length then s.ccConclude r 0
    else s.ccEvalSome r fuel

/-- The job starts: its fields are noted, and tested for presence and age (R297, R298). -/
def State.ccStart (s : State) (r : CcRun) (n : Nat) : State :=
  let x := chkDesc r.msg.payload
  let c := s.cc
  let limit : Int := (x.t0 : Int) - ((s.rd F.CC_MARGINS_MAX_ENV_AGE_MS * 1000000 : Nat) : Int)
  let old (tv : Nat) : Bool := decide ((tv : Int) < limit)
  let absent := (bit x.env 0 && c.sdf.isNone) || (bit x.env 1 && c.bev.isNone)
  let stale := (bit x.env 0 && c.sdf.any (fun f => old f.tv)) || (bit x.env 1 && c.bev.any (fun f => old f.tv))
  let r : CcRun := { r with waiting := false, tStart := s.ts64 (s.rd F.CC_CFG_TB), stale := stale }
  let s := s.setCc { c with lastEnv := x.env, run := some r }
  if absent || (stale && s.on F.CC_CFG_ENV_STRICT) then s.ccConclude r 3 else s.ccEvalSome r n

def State.stagePending (s : State) : Bool := s.cc.staged.any (fun t => t.state = trPending)

/-- CC_CHECK: the next job starts if it is a CHECK (or waits while a switch is PENDING), or the one in execution goes on; up to n
candidates are evaluated. -/
def State.ccCheck (s : State) (n : Nat) : State :=
  match s.cc.run with
  | some r => if r.waiting || r.ended.isSome || !s.serving ccUnit then s else s.ccEvalSome r n
  | none =>
    match s.ccTake joCheck with
    | none => s
    | some (m, s) =>
      let r : CcRun := ⟨m, false, [], 0, none, false, false⟩
      if (chkDesc m.payload).stage && s.stagePending then
        s.setCc { s.cc with run := some { r with waiting := true, tStart := s.ts64 (s.rd F.CC_CFG_TB) } }
      else s.ccStart r n

/-- CHECK_RESUME: the switch a CHECK waited for has taken effect. -/
def State.ccResume (s : State) : State :=
  match s.cc.run with
  | some r => if r.waiting && !s.stagePending then s.ccStart r 0 else s
  | none => s

/-- CHECK_DEADLINE: the candidate in progress is finished, and the choice made among those evaluated (R297). -/
def State.ccDeadline (s : State) : State :=
  match s.cc.run with
  | some r =>
    if (chkDesc r.msg.payload).deadline = 0 || r.ended.isSome then s
    else
      let r := { r with cut := true }
      if r.waiting then s.ccConclude { r with waiting := false } 2
      else
        let (st, r, s) := s.ccEvalOne r
        if st ≠ St.ok then s.ccEnd r st else s.ccConclude r 0
  | none => s

/-! ### The end of a fallback build (R306) -/

/-- FALLBACK_SWITCH: the fallback is built, tested and switched in; the event record and the report; a CHECK whose STALEMATE
started it writes its result record and its ACK. -/
def State.fbSwitch (s : State) : State :=
  match s.cc.build with
  | none => s
  | some b =>
    let t := s.buildFallback b
    let hits := bit t.flags 3
    let s := s.setCc { s.cc with build := none, lastId := t.id }
    let s := (s.wr F.CC_TRAJ_STATE_FB_CAUSE b.cause).wr F.CC_TRAJ_STATE_FB_COLLIDES hits.toNat
    let s := (s.wr F.CC_TRAJ_STATE_STOP_SHORT (bit t.flags 2).toNat).wr F.CC_TRAJ_STATE_HOLD_DENIED (bit t.flags 4).toNat
    let s := (s.ccSwitchIn t s.cc.staged).event ccUnit 0x700C b.cause [t.id, hits.toNat]
    match s.cc.run.bind (fun r => r.ended.map (fun e => (r, e))) with
    | some (r, ended, reason) =>
      let (f, s) := s.draw 62
      let rcd := r.result reason (ccFlags r false false true hits) 0 ended f
      (s.ccReport rcd).ccRecord r rcd
    | none =>
      let (rcd, s) := s.fbRecord (16 + hits.toNat * 32) t.id t.cMin t.alpha
      s.ccReport rcd

/-! ### Resets and power (R310) -/

/-- Jobs answered with a status; staged trajectory and pending switch cancelled; both fields cleared. -/
def State.ccDrop (s : State) (status : Nat) : State :=
  let c := s.cc
  let s := ((c.run.map (·.msg)).toList ++ c.queue).foldl (fun (s : State) m => s.answer m status) s
  let s := s.setCc { c with queue := [], run := none, staged := none, sdf := none, bev := none }
  (s.wr F.CC_ENV_SDF_BRICKS 0).wr F.CC_ENV_BEV_W 0

/-- The checker enters RESETTING, RETAINED or OFF; OFF loses the model, the active trajectory and what is being built. -/
def State.ccEnter (s : State) (st : Nat) : State :=
  let s := ((s.bumpEpoch ccUnit).setUstate ccUnit st).ccDrop St.unitReset
  if st = US.off then
    (s.setCc { s.cc with model := none, active := none, build := none }).wr F.CC_ENV_MODEL_TAG 0
  else s

def State.ccReset (s : State) : State :=
  let st := s.ustate ccUnit
  if st = US.resetting then s
  else if st = US.absent ∨ st = US.off ∨ st = US.quarantined then s.reject R.CC_REJECTS 0
  else if s.epochFree ccUnit then s.ccEnter US.resetting
  else s.holdEpoch ccUnit US.resetting

def State.ccResetDone (s : State) : State :=
  if s.ustate ccUnit = US.resetting then s.setUstate ccUnit US.ready else s

/-! ### The checker's registers (R312) -/

/-- A write at a block offset below 0x8000. -/
def State.ccWrite (s : State) (r : Req) (off : Nat) (d : WData) : State :=
  let v := d.bits1
  if !s.mayUse r ccUnit then s.reject R.CC_REJECTS off
  else if off = 0 then
    let s := s.wr F.CC_CTRL_ENABLE (bits (d.over (s.reg R.CC_CTRL)) 1 1)
    let s := if bit v 2 then s.ccReset else s
    let s := if bit v 3 then
        (if s.ustate ccUnit = US.off ∨ s.ustate ccUnit = US.quarantined then s.reject R.CC_REJECTS 0 else s.fbRequest fbJob)
      else s
    if bit v 0 then s.wr F.CC_CTRL_LOCK 1 else s
  else s.writeReg (R.CC_CTRL + off) d

/-- What a register of the checker reads as. -/
def State.ccView (s : State) (off : Nat) : Nat :=
  let win (t : Option Traj) (base n : Nat) : Nat :=
    match t with
    | some t => field (t.bytes n) (off - base) 8
    | none => 0
  if off = 0x8 then
    let q := s.ownerOf ccUnit
    insField (insField (s.reg R.CC_STATE) 8 3 (if q < 8 then q else 0)) 11 1 (decide (q < 8)).toNat
  else if off < 0x2000 then s.reg (canonReg (R.CC_CTRL + off))
  else if off < 0x4040 then win s.cc.active 0x2000 (s.rd F.CC_TRAJ_STATE_SWITCH_COUNT)
  else if 0x5000 ≤ off ∧ off < 0x7040 then win s.cc.staged 0x5000 0
  else 0

end Sys2Proof.Machine
end

