-- ==== Sys2Proof/Machine/BodyOps.lean ====
section
/-!
DEFINITION. The arithmetic of the dynamics unit and its body tree: sums in FP64 whose order the spec leaves open, the model image, forward
kinematics, Jacobians, the mass matrix and the bias force (R316 to R318, R330, 12_dynamics.md).
-/

namespace Sys2Proof.Machine

/-! ### Sums of products in FP64 (R318)

Every operation is rounded to nearest, ties to even. The spec fixes no order and does not say where the fused multiply-add lanes fuse;
both depend only on the model and the task set. They are free here: functions of the key `K`, which is the loaded images followed by the
place of the sum (log entry 32). -/

inductive Term where
  | prod (a b : Nat)
  | val (v : Nat)
  deriving DecidableEq, Repr

def Term.round : Sys2Proof.Machine.Term → Nat
  | .prod a b => f64mul a b
  | .val v => v

/-- Two terms added, with at most one product fused. -/
def Term.join (c : Nat) (t u : Sys2Proof.Machine.Term) : Nat :=
  match t, u with
  | .prod a b, u => if c % 3 = 0 then f64fma a b u.round else f64add t.round u.round
  | t, .prod a b => if c % 3 = 1 then f64fma a b t.round else f64add t.round u.round
  | t, u => f64add t.round u.round

def openSum (K : List Nat) : Nat → List Term → Nat
  | 0, l => (l.headD (.val 0)).round
  | fuel + 1, l =>
    match l with
    | [] => 0
    | [t] => t.round
    | l =>
      let i := Config.openFn 63 (l.length :: K) % l.length
      let r := l.eraseIdx i
      let j := Config.openFn 64 (l.length :: K) % r.length
      openSum K fuel (r.eraseIdx j ++ [.val ((l.getD i (.val 0)).join (Config.openFn 65 (l.length :: K)) (r.getD j (.val 0)))])

def dot (K : List Nat) (loc : Nat) (a b : List Nat) : Nat := openSum (loc :: K) a.length (List.zipWith Term.prod a b)
def sum64 (K : List Nat) (loc : Nat) (a : List Nat) : Nat := openSum (loc :: K) a.length (a.map Term.val)

def neg64 (a : Nat) : Nat := toF64 (f64 a).neg
def abs64 (a : Nat) : Nat := toF64 (f64 a).abs
def lt64 (a b : Nat) : Bool := (f64 a).lt (f64 b)
def le64 (a b : Nat) : Bool := (f64 a).le (f64 b)
def max64 (a b : Nat) : Nat := if lt64 a b then b else a
def min64 (a b : Nat) : Nat := if lt64 b a then b else a
def fin64 (a : Nat) : Bool := (f64 a).isFin
def one64 : Nat := toF64 (.ofNat 1)
def inf64 (neg : Bool) : Nat := toF64 (.inf neg)
def nat64 (n : Nat) : Nat := toF64 (.ofNat n)

/-! Vectors and matrices are lists, a matrix by rows. -/

def vadd (a b : List Nat) : List Nat := List.zipWith f64add a b
def vscale (k : Nat) (a : List Nat) : List Nat := a.map (f64mul k)
def zeros (n : Nat) : List Nat := List.replicate n 0
def at64 (l : List Nat) (i : Nat) : Nat := l.getD i 0
def unit64 (n i : Nat) : List Nat := (List.range n).map (fun k => if k = i then one64 else 0)
def mcol (m : List (List Nat)) (j : Nat) : List Nat := m.map (fun r => at64 r j)
def mulV (K : List Nat) (loc : Nat) (m : List (List Nat)) (v : List Nat) : List Nat := m.map (fun r => dot K loc r v)
def mulM (K : List Nat) (loc cols : Nat) (a b : List (List Nat)) : List (List Nat) :=
  a.map (fun r => (List.range cols).map (fun j => dot K loc r (mcol b j)))
def transp (cols : Nat) (m : List (List Nat)) : List (List Nat) := (List.range cols).map (mcol m)
def madd (a b : List (List Nat)) : List (List Nat) := List.zipWith vadd a b

def cross (K : List Nat) (loc : Nat) (a b : List Nat) : List Nat :=
  let c (i j : Nat) : Nat := dot K loc [at64 a i, neg64 (at64 a j)] [at64 b j, at64 b i]
  [c 1 2, c 2 0, c 0 1]

/-- The matrix of a cross product from the left. -/
def skew (a : List Nat) : List (List Nat) :=
  [[0, neg64 (at64 a 2), at64 a 1], [at64 a 2, 0, neg64 (at64 a 0)], [neg64 (at64 a 1), at64 a 0, 0]]

def v64 (v : V3) : List Nat := [f32to64 v.x, f32to64 v.y, f32to64 v.z]

/-- The rotation of a quaternion w, x, y, z, normalised, each entry rounded once. -/
def quatMat (q : List Val) : List (List Nat) := (quatRows q).map (fun r => r.map toF64)

/-- The product of two quaternions. -/
def quatMul (K : List Nat) (loc : Nat) (a b : List Nat) : List Nat :=
  let w := at64 a 0
  let x := at64 a 1
  let y := at64 a 2
  let z := at64 a 3
  [dot K loc [w, neg64 x, neg64 y, neg64 z] b, dot K loc [x, w, neg64 z, y] b, dot K loc [y, z, w, neg64 x] b,
    dot K loc [z, neg64 y, x, w] b]

/-- The rotation vector of a quaternion, the shorter way, each entry rounded once. -/
def rotVec (q : List Nat) : List Nat :=
  let v := q.map f64
  let v := if (v.getD 0 .zero).isNeg then v.map Val.neg else v
  let w := v.getD 0 .zero
  let im := v.drop 1
  let n := normV im
  if n.isZero || !n.isFin then [0, 0, 0]
  else
    let half := if w.isZero then (ofFix precBits (piFix precBits)).scale2 (-1) else atanVal (n.div w)
    im.map (fun c => toF64 ((c.mul (half.scale2 1)).div n))

/-! ### The model image (R316) -/

/-- Offsets of the degree-of-freedom records, the contact records and the measurement entries, and the size of an image. -/
def dynDofsAt (h : List Byte) : Nat := 64 + up64 (96 * field h 0 1)
def dynContactsAt (h : List Byte) : Nat := dynDofsAt h + up64 (32 * field h 1 1)
def dynMeasAt (h : List Byte) : Nat := dynContactsAt h + up64 (32 * field h 2 1)
def dynImageSize (h : List Byte) : Nat := dynMeasAt h + 16 * field h 1 1

def dynCounts (h : List Byte) : Bool :=
  decide (1 ≤ field h 0 1 ∧ field h 0 1 ≤ 64) && decide (1 ≤ field h 1 1 ∧ field h 1 1 ≤ 64) && decide (field h 2 1 ≤ 16)

def words4 (l : List Byte) (off n : Nat) : List Nat := (List.range n).map (fun i => field l (off + 4 * i) 4)

def dynBody (l : List Byte) : DynBody :=
  ⟨field l 0 1, field l 1 1, field l 2 1, field l 3 1, v3At l 4, words4 l 16 4, field l 32 4, v3At l 36, words4 l 48 6, field l 72 4,
    field l 76 4, field l 80 4⟩
def dynDof (l : List Byte) : DynDof :=
  ⟨field l 0 4, field l 4 4, field l 8 4, field l 12 4, field l 16 4, field l 20 4, bit (field l 24 1) 0⟩
def dynContact (l : List Byte) : DynContact := ⟨field l 0 1, v3At l 4, v3At l 16, field l 28 1, field l 30 2⟩
def dynMeas (l : List Byte) : DynMeas :=
  ⟨field l 0 1, field l 1 1, field l 2 1, field l 3 1, field l 4 4, field l 8 4, field l 12 4⟩

def dynModelOf (d : List Byte) : DynModel :=
  let recs {α : Type} (off n size : Nat) (f : List Byte → α) : List α := (List.range n).map (fun i => f (slice d (off + size * i) size))
  ⟨field d 4 4, bit (field d 3 1) 0, v3At d 12, recs 64 (field d 0 1) 96 dynBody, recs (dynDofsAt d) (field d 1 1) 32 dynDof,
    recs (dynContactsAt d) (field d 2 1) 32 dynContact, recs (dynMeasAt d) (field d 1 1) 16 dynMeas, d⟩

/-- A symmetric 3 × 3 matrix (xx, yy, zz, xy, xz, yz) is positive semidefinite: no principal minor is negative. -/
def psd3 (l : List Nat) : Bool :=
  let r (i : Nat) : Rat := f32rat (l.getD i 0)
  let m2 (a b c : Nat) : Rat := r a * r b - r c * r c
  let det := r 0 * m2 1 2 5 - r 3 * (r 3 * r 2 - r 5 * r 4) + r 4 * (r 3 * r 5 - r 1 * r 4)
  [r 0, r 1, r 2, m2 0 1 3, m2 0 2 4, m2 1 2 5, det].all (fun x => decide (0 ≤ x))

/-- The checks of R316 on an image whose counts are valid, but for the size of its QP. -/
def dynModelOk (d : List Byte) : Bool :=
  let m := dynModelOf d
  let nv := m.dofs.length
  let fl := m.floating
  let joints := (m.bodies.filter (fun b => b.typ = 1 ∨ b.typ = 2)).map (·.dof)
  let want := (List.range nv).drop (if fl then 6 else 0)
  let normOk (l : List Nat) : Bool := quatNormOk l
  let rec_ (off i size lo n : Nat) : List Byte := slice d (off + size * i + lo) n
  decide (field d 3 1 < 2) && allZero (slice d 24 40) && m.gravity.fin && (decide (!fl) || decide (6 ≤ nv)) &&
    m.bodies.zipIdx.all (fun e =>
      let b := e.1
      (decide (b.parent < e.2) || decide (b.parent = 0xFF)) && decide (b.typ ≤ 3) && (decide (b.typ ≠ 3) || decide (e.2 = 0)) &&
        (decide (e.2 ≠ 0) || (fl == decide (b.typ = 3))) && decide (b.axis < 8) && decide (b.axis % 4 ≠ 3) && b.offT.fin &&
        b.offQ.all finF32 && normOk b.offQ && finF32 b.mass && !f32lt b.mass 0 && b.com.fin && b.inertia.all finF32 && psd3 b.inertia &&
        finF32 b.armature && finF32 b.damping && finF32 b.qOff && allZero (rec_ 64 e.2 96 84 12)) &&
    decide (joints.length = want.length) && want.all (fun j => joints.contains j) &&
    m.dofs.zipIdx.all (fun e =>
      let x := e.1
      [x.qmin, x.qmax, x.vmax, x.amax, x.tmin, x.tmax].all finF32 && decide (field d (dynDofsAt d + 32 * e.2 + 24) 1 < 2) &&
        allZero (rec_ (dynDofsAt d) e.2 32 25 7)) &&
    m.contacts.zipIdx.all (fun e =>
      let x := e.1
      decide (x.body < m.bodies.length) && x.point.fin && x.normal.fin && normOk [x.normal.x, x.normal.y, x.normal.z] &&
        allZero (rec_ (dynContactsAt d) e.2 32 1 3 ++ rec_ (dynContactsAt d) e.2 32 29 1)) &&
    m.meas.all (fun x => decide (x.posKind ≤ 1) && decide (x.velKind ≤ 2) && decide (x.posTap < 64) && decide (x.velTap < 64) &&
      finF32 x.posScale && finF32 x.posOffset && finF32 x.velScale)

def DynModel.nv (m : Sys2Proof.Machine.DynModel) : Nat := m.dofs.length
def DynModel.body (m : Sys2Proof.Machine.DynModel) (i : Nat) : DynBody := m.bodies.getD i ⟨0, 0, 0, 0, v30, [], 0, v30, [], 0, 0, 0⟩

/-- The bodies from a body to its root, itself first. -/
def DynModel.path (m : Sys2Proof.Machine.DynModel) : Nat → Nat → List Nat
  | 0, _ => []
  | fuel + 1, i =>
    let p := (m.body i).parent
    i :: (if p = 0xFF then [] else m.path fuel p)

def DynModel.chain (m : Sys2Proof.Machine.DynModel) (i : Nat) : List Nat := m.path 64 i

/-- The degrees of freedom of a body's joint. -/
def DynModel.dofsOf (m : Sys2Proof.Machine.DynModel) (i : Nat) : List Nat :=
  let b := m.body i
  if b.typ = 3 then List.range 6 else if b.typ = 1 ∨ b.typ = 2 then [b.dof] else []

/-- The degrees of freedom on a body's path to the root. -/
def DynModel.pathDofs (m : Sys2Proof.Machine.DynModel) (i : Nat) : List Nat := (m.chain i).flatMap m.dofsOf

/-- The body a degree of freedom moves. -/
def DynModel.bodyOf (m : Sys2Proof.Machine.DynModel) (j : Nat) : Nat :=
  ((List.range m.bodies.length).find? (fun i => (m.dofsOf i).contains j)).getD 0

/-! ### Kinematics -/

/-- A body in the world: rotation, origin and quaternion of its frame, its joint's motion subspace as spatial columns (angular, linear at
the world's origin), its spatial velocity and its bias acceleration. -/
structure BodyAt where
  r : List (List Nat)
  p : List Nat
  quat : List Nat
  s : List (List Nat)
  v : List Nat
  a : List Nat
  deriving DecidableEq, Repr

def root64 : BodyAt := ⟨[unit64 3 0, unit64 3 1, unit64 3 2], zeros 3, unit64 4 0, [], zeros 6, zeros 6⟩

def ang (v : List Nat) : List Nat := v.take 3
def lin (v : List Nat) : List Nat := v.drop 3

/-- The motion cross product v × s. -/
def motionCross (K : List Nat) (loc : Nat) (v s : List Nat) : List Nat :=
  cross K loc (ang v) (ang s) ++ vadd (cross K loc (ang v) (lin s)) (cross K loc (lin v) (ang s))

/-- The force cross product v ×* f. -/
def forceCross (K : List Nat) (loc : Nat) (v f : List Nat) : List Nat :=
  vadd (cross K loc (ang v) (ang f)) (cross K loc (lin v) (lin f)) ++ cross K loc (ang v) (lin f)

/-- A configuration: base position and quaternion, and the joint values by degree of freedom. -/
structure DynPose where
  pos : List Nat
  quat : List Nat
  q : List Nat
  deriving DecidableEq, Repr

/-- Every body in the world for a pose and velocities, in body order (steps 1 and 2 of the front stage). -/
def forwardKin (K : List Nat) (m : DynModel) (x : DynPose) (qd : List Nat) : List BodyAt :=
  m.bodies.zipIdx.foldl (fun (l : List BodyAt) e =>
    let b := e.1
    let loc := e.2
    let up := if b.parent = 0xFF then root64 else l.getD b.parent root64
    let rj := mulM K (1000 + loc) 3 up.r (quatMat (b.offQ.map f32))
    let pj := vadd up.p (mulV K (2000 + loc) up.r (v64 b.offT))
    let qj := quatMul K (3000 + loc) up.quat (b.offQ.map f32to64)
    let i := b.axis % 4
    let sg (v : Nat) : Nat := if bit b.axis 2 then neg64 v else v
    let a := (mcol rj i).map sg
    let val := f64add (at64 x.q b.dof) (f32to64 b.qOff)
    let rate := at64 qd b.dof
    if b.typ = 3 then
      let r := mulM K (4000 + loc) 3 rj (quatMat (x.quat.map f64))
      let p := vadd pj (mulV K (5000 + loc) rj x.pos)
      let axes := (List.range 3).map (mcol r)
      let w := mulV K (6000 + loc) r ((qd.drop 3).take 3)
      let v0 := qd.take 3
      let s := (List.range 3).map (fun k => zeros 3 ++ unit64 3 k) ++ axes.map (fun u => u ++ cross K (7000 + loc) p u)
      l ++ [⟨r, p, quatMul K (8000 + loc) qj x.quat, s, w ++ vadd v0 (cross K (9000 + loc) p w), zeros 3 ++ cross K (10000 + loc) v0 w⟩]
    else if b.typ = 1 then
      let (sn, cs) := sinCos (f64 (sg val))
      let rot := (List.range 3).map (fun u => (List.range 3).map (fun v =>
        if u = i ∨ v = i then (if u = v then one64 else 0)
        else if u = v then toF64 cs
        else if (u + 1) % 3 = v then neg64 (toF64 sn) else toF64 sn))
      let (sh, ch) := sinCos ((f64 (sg val)).scale2 (-1))
      let s := a ++ cross K (7000 + loc) pj a
      let v := vadd up.v (vscale rate s)
      l ++ [⟨mulM K (4000 + loc) 3 rj rot, pj, quatMul K (8000 + loc) qj (toF64 ch :: (unit64 3 i).map (f64mul (toF64 sh))), [s], v,
        vadd up.a (vscale rate (motionCross K (9000 + loc) v s))⟩]
    else if b.typ = 2 then
      let s := zeros 3 ++ a
      let v := vadd up.v (vscale rate s)
      l ++ [⟨rj, vadd pj (vscale val a), qj, [s], v, vadd up.a (vscale rate (motionCross K (9000 + loc) v s))⟩]
    else l ++ [⟨rj, pj, qj, [], up.v, up.a⟩]) []

def bodyAt (l : List BodyAt) (i : Nat) : BodyAt := l.getD i root64

/-- A point of a body in the world. -/
def pointOf (K : List Nat) (l : List BodyAt) (i : Nat) (pt : List Nat) : List Nat :=
  vadd (bodyAt l i).p (mulV K (11000 + i) (bodyAt l i).r pt)

/-- The Jacobian of a body at a point: angular rows and linear rows, over the degrees of freedom. -/
def jacobian (K : List Nat) (m : DynModel) (l : List BodyAt) (i : Nat) (pw : List Nat) : List (List Nat) × List (List Nat) :=
  let cols := (List.range m.nv).map (fun j =>
    if (m.pathDofs i).contains j then
      let b := m.bodyOf j
      let s := (bodyAt l b).s.getD (if (m.body b).typ = 3 then j else 0) (zeros 6)
      (ang s, vadd (lin s) (cross K (12000 + j) (ang s) pw))
    else (zeros 3, zeros 3))
  (transp 3 (cols.map (·.1)), transp 3 (cols.map (·.2)))

/-- The velocity and the bias acceleration of a body at a point: angular, then linear. -/
def pointMotion (K : List Nat) (l : List BodyAt) (i : Nat) (pw : List Nat) : List Nat × List Nat × List Nat × List Nat :=
  let x := bodyAt l i
  let v := vadd (lin x.v) (cross K (13000 + i) (ang x.v) pw)
  let a := vadd (vadd (lin x.a) (cross K (14000 + i) (ang x.a) pw)) (cross K (15000 + i) (ang x.v) v)
  (ang x.v, v, ang x.a, a)

/-! ### Mass matrix and bias force -/

/-- A body's spatial inertia about the world's origin, as six rows. -/
def spatialInertia (K : List Nat) (m : DynModel) (l : List BodyAt) (i : Nat) : List (List Nat) :=
  let b := m.body i
  let x := bodyAt l i
  let g (k : Nat) : Nat := f32to64 (b.inertia.getD k 0)
  let local_ := [[g 0, g 3, g 4], [g 3, g 1, g 5], [g 4, g 5, g 2]]
  let iw := mulM K (16000 + i) 3 (mulM K (17000 + i) 3 x.r local_) (transp 3 x.r)
  let c := pointOf K l i (v64 b.com)
  let ms := f32to64 b.mass
  let mc := (skew c).map (vscale ms)
  let top := madd iw (mulM K (18000 + i) 3 mc (transp 3 (skew c)))
  List.zipWith (· ++ ·) top mc ++ List.zipWith (· ++ ·) (transp 3 mc) ((List.range 3).map (fun k => vscale ms (unit64 3 k)))

/-- A value gathered from each body towards the root: every body's own with those of its children. -/
def gather {α : Type} (m : DynModel) (add : α → α → α) (dflt : α) (own : List α) : List α :=
  (List.range m.bodies.length).reverse.foldl (fun (l : List α) i =>
    let p := (m.body i).parent
    if p = 0xFF then l else l.set p (add (l.getD p dflt) (l.getD i dflt))) own

/-- The joint-space mass matrix by composite rigid bodies, with ARMATURE on the diagonal. -/
def massMatrix (K : List Nat) (m : DynModel) (l : List BodyAt) : List (List Nat) :=
  let own := (List.range m.bodies.length).map (spatialInertia K m l)
  let comp := gather m madd [] own
  let col (j : Nat) : List Nat :=
    let b := m.bodyOf j
    (bodyAt l b).s.getD (if (m.body b).typ = 3 then j else 0) (zeros 6)
  (List.range m.nv).map (fun i => (List.range m.nv).map (fun j =>
    let bi := m.bodyOf i
    let bj := m.bodyOf j
    let e (lo hi blo : Nat) : Nat := dot K (19000 + lo) (col hi) (mulV K (20000 + lo) (comp.getD blo []) (col lo))
    let v := if (m.chain bi).contains bj then (if bi = bj then e (max i j) (min i j) bi else e i j bi)
      else if (m.chain bj).contains bi then e j i bj else 0
    if i = j ∧ (m.body bi).typ ≠ 3 then f64add v (f32to64 (m.body bi).armature) else v))

/-- The damping force of a degree of freedom. -/
def dampOf (m : DynModel) (qd : List Nat) (j : Nat) : Nat :=
  let b := m.body (m.bodyOf j)
  if b.typ = 3 then 0 else f64mul (f32to64 b.damping) (at64 qd j)

/-- The generalised force of given body forces along the joints' subspaces. -/
def alongJoints (K : List Nat) (m : DynModel) (l : List BodyAt) (f : List (List Nat)) : List Nat :=
  (List.range m.nv).map (fun j =>
    let b := m.bodyOf j
    dot K (21000 + j) ((bodyAt l b).s.getD (if (m.body b).typ = 3 then j else 0) (zeros 6)) (f.getD b []))

/-- A body's own force for a spatial acceleration, gravity included in it. -/
def bodyForce (K : List Nat) (m : DynModel) (l : List BodyAt) (i : Nat) (a : List Nat) : List Nat :=
  let n := spatialInertia K m l i
  let v := (bodyAt l i).v
  vadd (mulV K (22000 + i) n a) (forceCross K (23000 + i) v (mulV K (24000 + i) n v))

/-- The acceleration that stands for gravity. -/
def gravity6 (m : DynModel) : List Nat := zeros 3 ++ (v64 m.gravity).map neg64

/-- The bias force h = C(q, q̇)q̇ + g(q) + DAMPING × q̇ by the recursive Newton–Euler algorithm. -/
def biasForce (K : List Nat) (m : DynModel) (l : List BodyAt) (qd : List Nat) : List Nat :=
  let own := (List.range m.bodies.length).map (fun i => bodyForce K m l i (vadd (bodyAt l i).a (gravity6 m)))
  let f := gather m vadd [] own
  List.zipWith f64add (alongJoints K m l f) ((List.range m.nv).map (dampOf m qd))

/-! ### Factorisation -/

/-- The lower Cholesky factor by rows; none where a pivot is not above zero. -/
def cholesky (K : List Nat) (k : List (List Nat)) : Option (List (List Nat)) :=
  (List.range k.length).foldl (fun (o : Option (List (List Nat))) i =>
    o.bind (fun l =>
      let row := (List.range i).foldl (fun (r : List Nat) j =>
        let lj := l.getD j []
        r ++ [f64div (f64sub (at64 (k.getD j []) i) (dot K (25000 + i) r (lj.take j))) (at64 lj j)]) []
      let d := f64sub (at64 (k.getD i []) i) (dot K (26000 + i) row row)
      if lt64 0 d then some (l ++ [row ++ [f64sqrt d]]) else none)) (some [])

/-- The solution of L Lᵀ x = b. -/
def cholSolve (K : List Nat) (l : List (List Nat)) (b : List Nat) : List Nat :=
  let n := l.length
  let y := (List.range n).foldl (fun (y : List Nat) i =>
    y ++ [f64div (f64sub (at64 b i) (dot K (27000 + i) ((l.getD i []).take i) y)) (at64 (l.getD i []) i)]) []
  (List.range n).reverse.foldl (fun (x : List Nat) i =>
    f64div (f64sub (at64 y i) (dot K (28000 + i) ((mcol l i).drop (i + 1)) x)) (at64 (l.getD i []) i) :: x) []

/-! ### Forward dynamics (R330) -/

/-- The articulated-body pass towards the root: inertia and bias force of every body. -/
def articulated (K : List Nat) (m : DynModel) (l : List BodyAt) (qd tau : List Nat) : List (List (List Nat) × List Nat) :=
  let own := (List.range m.bodies.length).map (fun i =>
    let n := spatialInertia K m l i
    (n, forceCross K (23000 + i) (bodyAt l i).v (mulV K (24000 + i) n (bodyAt l i).v)))
  (List.range m.bodies.length).reverse.foldl (fun (g : List (List (List Nat) × List Nat)) i =>
    let b := m.body i
    let (ia, pa) := g.getD i ([], [])
    let up : List (List Nat) × List Nat :=
      if b.typ = 1 ∨ b.typ = 2 then
        let s := (bodyAt l i).s.headD (zeros 6)
        let c := vscale (at64 qd b.dof) (motionCross K (9000 + i) (bodyAt l i).v s)
        let u := mulV K (29000 + i) ia s
        let d := f64add (dot K (30000 + i) s u) (f32to64 b.armature)
        let w := f64sub (f64sub (at64 tau b.dof) (dot K (31000 + i) s pa)) (dampOf m qd b.dof)
        let ia' := madd ia (u.map (fun x => vscale (neg64 (f64div x d)) u))
        (ia', vadd (vadd pa (mulV K (32000 + i) ia' c)) (vscale (f64div w d) u))
      else (ia, pa)
    if b.parent = 0xFF then g
    else
      let (ip, pp) := g.getD b.parent ([], [])
      g.set b.parent (madd ip up.1, vadd pp up.2)) own

/-- q̈ for a torque, by the articulated-body algorithm. -/
def forwardDyn (K : List Nat) (m : DynModel) (l : List BodyAt) (qd tau : List Nat) : List Nat :=
  let g := articulated K m l qd tau
  let out := (List.range m.bodies.length).foldl (fun (o : List (List Nat) × List Nat) i =>
    let b := m.body i
    let (ia, pa) := g.getD i ([], [])
    let up := if b.parent = 0xFF then gravity6 m else o.1.getD b.parent (zeros 6)
    if b.typ = 1 ∨ b.typ = 2 then
      let s := (bodyAt l i).s.headD (zeros 6)
      let c := vscale (at64 qd b.dof) (motionCross K (9000 + i) (bodyAt l i).v s)
      let a := vadd up c
      let u := mulV K (29000 + i) ia s
      let d := f64add (dot K (30000 + i) s u) (f32to64 b.armature)
      let w := f64sub (f64sub (at64 tau b.dof) (dot K (31000 + i) s pa)) (dampOf m qd b.dof)
      let qdd := f64div (f64sub w (dot K (33000 + i) u a)) d
      (o.1 ++ [vadd a (vscale qdd s)], o.2.set b.dof qdd)
    else if b.typ = 3 then
      let a := vadd up (bodyAt l i).a
      let f := vadd (mulV K (34000 + i) ia a) pa
      let ss := (bodyAt l i).s
      let d := ss.map (fun s => ss.map (fun t => dot K (35000 + i) s (mulV K (36000 + i) ia t)))
      let rhs := ss.zipIdx.map (fun e => f64sub (at64 tau e.2) (dot K (37000 + i) e.1 f))
      let qdd := match cholesky K d with
        | some c => cholSolve K c rhs
        | none => List.replicate 6 (toF64 .nan)
      (o.1 ++ [vadd a (mulV K (38000 + i) (transp 6 ss) qdd)], qdd ++ o.2.drop 6)
    else (o.1 ++ [up], o.2)) ([], zeros m.nv)
  out.2

end Sys2Proof.Machine
end

