-- ==== Sys2Proof/Machine/QpOps.lean ====
section
/-!
DEFINITION. The whole-body QP of the dynamics unit: its size, its rows and cost, and its solve (R319 to R325, 12_dynamics.md).
-/

namespace Sys2Proof.Machine

/-! ### Tasks (R322) -/

def dynTask (l : List Byte) : DynTask :=
  ⟨field l 0 1, field l 1 1, field l 2 1, field l 3 1, field l 4 4, field l 8 4, field l 12 4, v3At l 16, field l 32 6⟩

/-- A task record keeps its ranges. -/
def dynTaskOk (nb : Nat) (l : List Byte) : Bool :=
  let t := dynTask l
  decide (t.kind ≤ 2) && (decide (t.kind = 0) || decide (t.body < nb)) && decide (t.mask < 8) && decide (t.mode ≤ 2) && finF32 t.weight &&
    finF32 t.kp && finF32 t.kd && t.point.fin && allZero (slice l 28 4 ++ slice l 38 2 ++ slice l 40 24) && decide (t.target % 16 = 0) &&
    (decide (t.kind ≠ 0) || decide (t.target = 0))

/-- The rows of a task: the axes used, or every degree of freedom of a POSTURE. -/
def DynTask.rows (t : Sys2Proof.Machine.DynTask) (nv : Nat) : List Nat := if t.kind = 0 then List.range nv else bitList t.mask 3

/-! ### The size of the QP (R320, R322, R323) -/

def DynModel.acts (m : Sys2Proof.Machine.DynModel) : List Nat := (List.range m.nv).filter (fun j => (m.dofs.getD j ⟨0, 0, 0, 0, 0, 0, false⟩).act)

/-- Two degrees of freedom are related by ancestry. -/
def DynModel.related (m : Sys2Proof.Machine.DynModel) (i j : Nat) : Bool :=
  (m.chain (m.bodyOf i)).contains (m.bodyOf j) || (m.chain (m.bodyOf j)).contains (m.bodyOf i)

structure QpSize where
  n : Nat
  m : Nat
  nnz : Nat
  w : Nat
  deriving DecidableEq, Repr

/-- The structural non-zeros of every constraint row, and of every mode 0 row. -/
def qpRows (m : DynModel) (ts : List DynTask) : List Nat × List Nat :=
  let nv := m.nv
  let dyn := (List.range nv).map (fun i =>
    ((List.range nv).filter (m.related i)).length +
      3 * (m.contacts.filter (fun c => (m.chain c.body).contains (m.bodyOf i))).length + (m.acts.contains i).toNat)
  let path (b : Nat) : Nat := (m.pathDofs b).length
  let con := m.contacts.flatMap (fun c => List.replicate 3 (path c.body))
  let fric := m.contacts.flatMap (fun _ => [2, 2, 2, 2, 1])
  let row (t : DynTask) : Nat := if t.kind = 0 then 1 else path t.body
  let task := (ts.filter (fun t => t.mode ≠ 0)).flatMap (fun t => List.replicate (t.rows nv).length (row t + (decide (t.mode = 2)).toNat))
  let cost := (ts.filter (fun t => t.mode = 0)).flatMap (fun t => List.replicate (t.rows nv).length (row t))
  (dyn ++ con ++ fric ++ List.replicate m.acts.length 1 ++ List.replicate nv 1 ++ task, cost)

def slackCount (nv : Nat) (ts : List DynTask) : Nat := ((ts.filter (fun t => t.mode = 2)).map (fun t => (t.rows nv).length)).sum

def qpSize (m : DynModel) (ts : List DynTask) : QpSize :=
  let (rs, cs) := qpRows m ts
  ⟨m.nv + 3 * m.contacts.length + m.acts.length + slackCount m.nv ts, rs.length, rs.sum, ((rs ++ cs).map (fun x => x * x)).sum⟩

/-- The QP keeps the limits of R323. -/
def QpSize.ok (z : Sys2Proof.Machine.QpSize) : Bool :=
  decide (z.n ≤ 512) && decide (z.m ≤ 1024) && decide (z.nnz ≤ 16384) && decide (z.w ≤ 1048576)

/-! ### Rows and cost (R320, R321) -/

/-- A row of a QP: its coefficients and its bounds. -/
structure QpRow where
  a : List Nat
  l : Nat
  u : Nat
  deriving DecidableEq, Repr

structure Qp where
  p : List (List Nat)
  q : List Nat
  rows : List QpRow
  conflict : Bool
  deriving DecidableEq, Repr

/-- The registers a cycle reads, FP64: horizon and command step in seconds, and the cost weights. W_F has no register (log entry 33). -/
structure QpCfg where
  h : Nat
  wQdd : Nat
  wTau : Nat
  wF : Nat
  deriving DecidableEq, Repr

/-- The directions of a contact: the normal and two tangents. -/
def contactFrame (K : List Nat) (n : List Nat) : List (List Nat) :=
  let e := if lt64 (toF64 ((Val.ofNat 9).div (.ofNat 10))) (abs64 (at64 n 0)) then unit64 3 1 else unit64 3 0
  let c := cross K 40000 n e
  let len := f64sqrt (dot K 40001 c c)
  let t1 := c.map (fun v => f64div v len)
  [n, t1, cross K 40002 n t1]

/-- The bounds of a joint's acceleration (R321), and whether they conflict. The position terms need a scalar position, which a base's
angular degrees of freedom have not. -/
def accelBounds (d : DynDof) (scalar : Bool) (h q qd : Nat) : Nat × Nat × Bool :=
  let qmin := f32to64 d.qmin
  let qmax := f32to64 d.qmax
  let v := f32to64 d.vmax
  let a := f32to64 d.amax
  let two := nat64 2
  let reach (lim : Nat) : Nat := f64div (f64mul two (f64sub (f64sub lim q) (f64mul qd h))) (f64mul h h)
  let pos := scalar && !lt64 qmax qmin
  let ls := (if (f64 a).isZero then [] else [neg64 a]) ++ (if (f64 v).isZero then [] else [f64div (f64sub (neg64 v) qd) h]) ++
    (if pos then [reach qmin] else [])
  let us := (if (f64 a).isZero then [] else [a]) ++ (if (f64 v).isZero then [] else [f64div (f64sub v qd) h]) ++
    (if pos then [reach qmax] else [])
  let l := ls.foldl max64 (inf64 true)
  let u := us.foldl min64 (inf64 false)
  if lt64 u l then let mid := f64div (f64add l u) two; (mid, mid, true) else (l, u, false)

/-- The position of a degree of freedom where it is a number: a base's angular ones have none, and a value the spec does not give
(log entry 34). -/
def scalarPos (m : DynModel) (x : DynPose) (j : Nat) : Nat :=
  if m.floating ∧ j < 3 then at64 x.pos j
  else if m.floating ∧ j < 6 then Config.openFn 66 (j :: x.quat) % 2 ^ 64
  else at64 x.q j

/-- A reference value of degree of freedom j: joint j of the trajectory; what stands for a joint it does not hold, or for a base's
angular position, is open (log entry 34). -/
def refAt (r : DynRef) (l : List Nat) (which j : Nat) : Nat := l.getD j (Config.openFn 67 [which, j, r.stage] % 2 ^ 64)

/-- A task's rows: Jacobian, bias acceleration, and desired acceleration a_ff + KP e + KD ė. -/
def taskRows (K : List Nat) (m : DynModel) (x : DynPose) (qd : List Nat) (r : DynRef) (l : List BodyAt) (t : DynTask) (target : List Nat) :
    List (List Nat × Nat × Nat) :=
  let kp := f32to64 t.kp
  let kd := f32to64 t.kd
  let want (i ff e de : Nat) : Nat := sum64 K (41000 + i) [ff, f64mul kp e, f64mul kd de]
  if t.kind = 0 then
    (List.range m.nv).map (fun j =>
      let e := if m.floating ∧ 3 ≤ j ∧ j < 6 then Config.openFn 68 (j :: x.quat ++ r.q) % 2 ^ 64
        else f64sub (refAt r r.q 0 j) (scalarPos m x j)
      (unit64 m.nv j, 0, want j (refAt r r.qdd 2 j) e (f64sub (refAt r r.qd 1 j) (at64 qd j))))
  else
    let part (i : Nat) : List Nat := (target.drop i).take 3
    let pw := pointOf K l t.body (v64 t.point)
    let (ja, jl) := jacobian K m l t.body (if t.kind = 1 then pw else (bodyAt l t.body).p)
    let (va, vl, aa, al) := pointMotion K l t.body (if t.kind = 1 then pw else (bodyAt l t.body).p)
    let (js, v, bias, e) := if t.kind = 1 then (jl, vl, al, List.zipWith f64sub (part 0) pw)
      else
        let b := (bodyAt l t.body).quat
        (ja, va, aa, rotVec (quatMul K 42000 (target.drop 9) (at64 b 0 :: (b.drop 1).map neg64)))
    (bitList t.mask 3).map (fun i => (js.getD i [], at64 bias i, want i (at64 (part 6) i) (at64 e i) (f64sub (at64 (part 3) i) (at64 v i))))

/-- The QP of a cycle. -/
def buildQp (K : List Nat) (m : DynModel) (ts : List DynTask) (g : QpCfg) (s : DynSnap) (r : DynRef) : Qp :=
  let nv := m.nv
  let nc := m.contacts.length
  let acts := m.acts
  let na := acts.length
  let ns := slackCount nv ts
  let n := nv + 3 * nc + na + ns
  let x : DynPose := ⟨s.basePos, s.baseQuat, s.q⟩
  let l := forwardKin K m x s.qd
  let mm := massMatrix K m l
  let h := biasForce K m l s.qd
  let on (k : Nat) : Bool := bit s.contacts k
  let cons := m.contacts.map (fun c =>
    let pw := pointOf K l c.body (v64 c.point)
    let fr := contactFrame K (v64 c.normal)
    let (_, jl) := jacobian K m l c.body pw
    let (_, _, _, al) := pointMotion K l c.body pw
    (fr.map (fun d => (List.range nv).map (fun j => dot K (43000 + j) d (mcol jl j))), fr.map (fun d => dot K 43999 d al)))
  let row (a f t sl : List Nat) (lo hi : Nat) : QpRow := ⟨a ++ f ++ t ++ sl, lo, hi⟩
  let z3 := zeros (3 * nc)
  let zt := zeros na
  let zs := zeros ns
  let ninf := inf64 true
  let dyn := (List.range nv).map (fun i =>
    let b := neg64 (at64 h i)
    row (mm.getD i []) (cons.flatMap (fun c => c.1.map (fun d => neg64 (at64 d i)))) (acts.map (fun j => if j = i then neg64 one64 else 0)) zs b b)
  let con := cons.zipIdx.flatMap (fun c => (List.range 3).map (fun d =>
    let b := neg64 (at64 c.1.2 d)
    row (c.1.1.getD d []) z3 zt zs (if on c.2 then b else ninf) (if on c.2 then b else inf64 false)))
  let fric := m.contacts.zipIdx.flatMap (fun c =>
    let mu := f64div (toF64 ((Val.ofNat c.1.mu).scale2 (-6))) (f64sqrt (nat64 2))
    let f (v : List (Nat × Nat)) : List Nat := (List.range (3 * nc)).map (fun k => ((v.find? (fun p => 3 * c.2 + p.1 = k)).map (·.2)).getD 0)
    let le0 (v : List (Nat × Nat)) : QpRow := row (zeros nv) (f v) zt zs ninf 0
    [le0 [(1, one64), (0, neg64 mu)], le0 [(1, neg64 one64), (0, neg64 mu)], le0 [(2, one64), (0, neg64 mu)], le0 [(2, neg64 one64), (0, neg64 mu)],
      row (zeros nv) (f [(0, one64)]) zt zs 0 (if on c.2 then nat64 c.1.fnMax else 0)])
  let dof (j : Nat) : DynDof := m.dofs.getD j ⟨0, 0, 0, 0, 0, 0, false⟩
  let torq := acts.zipIdx.map (fun e => row (zeros nv) z3 (unit64 na e.2) zs (f32to64 (dof e.1).tmin) (f32to64 (dof e.1).tmax))
  let bounds := (List.range nv).map (fun j => accelBounds (dof j) (!(m.floating && decide (3 ≤ j) && decide (j < 6))) g.h (scalarPos m x j) (at64 s.qd j))
  let acc := bounds.zipIdx.map (fun e => row (unit64 nv e.2) z3 zt zs e.1.1 e.1.2.1)
  let rowsOf := ts.zipIdx.map (fun t => (t.1, taskRows K m x s.qd r l t.1 (s.targets.getD t.2 [])))
  let hard := (rowsOf.filter (fun t => t.1.mode ≠ 0)).flatMap (fun t => t.2.map (fun e => (t.1.mode, e)))
  let task := (hard.foldl (fun (o : List QpRow × Nat) e =>
    let b := f64sub e.2.2.2 e.2.2.1
    let sl := if e.1 = 2 then (unit64 ns o.2).map (fun v => if v = one64 then neg64 one64 else v) else zs
    (o.1 ++ [row e.2.1 z3 zt sl b b], if e.1 = 2 then o.2 + 1 else o.2)) ([], 0)).1
  let soft := (rowsOf.filter (fun t => t.1.mode = 2)).flatMap (fun t => List.replicate t.2.length (f32to64 t.1.weight))
  let cost := (rowsOf.filter (fun t => t.1.mode = 0)).flatMap (fun t => t.2.map (fun e => (f32to64 t.1.weight, e)))
  let diag := List.replicate nv g.wQdd ++ List.replicate (3 * nc) g.wF ++ List.replicate na g.wTau ++ soft
  let p := (List.range n).map (fun i => (List.range n).map (fun j =>
    let d := if i = j then [at64 diag i] else []
    sum64 K (44000 + i) (if i < nv ∧ j < nv then cost.map (fun e => f64mul e.1 (f64mul (at64 e.2.1 i) (at64 e.2.1 j))) ++ d else if d.isEmpty then [0] else d)))
  let q := (List.range n).map (fun i =>
    if i < nv then dot K (45000 + i) (cost.map (fun e => f64mul e.1 (at64 e.2.1 i))) (cost.map (fun e => f64sub e.2.2.1 e.2.2.2)) else 0)
  ⟨p, q, dyn ++ con ++ fric ++ torq ++ acc ++ task, bounds.any (·.2.2)⟩

/-! ### The solve (R324, R325) -/

/-- The registers a solve reads: ITERS, ρ, EQ_SCALE, the tolerances; σ and EPS_INF have no register (log entry 33). -/
structure AdmmCfg where
  iters : Nat
  rho : Nat
  eqScale : Nat
  sigma : Nat
  epsP : Nat
  epsD : Nat
  epsInf : Nat
  deriving DecidableEq, Repr

/-- What a solve yields: status, iterations, residuals, WORST_ROW, and x, z, y. -/
structure DynSol where
  status : Nat
  iters : Nat
  rPrim : Nat
  rDual : Nat
  worst : Nat
  x : List Nat
  z : List Nat
  y : List Nat
  deriving DecidableEq, Repr

def maxOf (l : List Nat) : Nat := l.foldl max64 0

def clamp64 (v l u : Nat) : Nat := if lt64 v l then l else if lt64 u v then u else v

/-- One iteration. -/
def admmStep (K : List Nat) (c : AdmmCfg) (fac : List (List Nat)) (q : List Nat) (rows : List QpRow) (rho : List Nat) (n : Nat)
    (o : List Nat × List Nat × List Nat) : List Nat × List Nat × List Nat :=
  let (x, z, y) := o
  let w := List.zipWith f64sub (List.zipWith f64mul rho z) y
  let rhs := (List.range n).map (fun i => sum64 K (46000 + i)
    [f64sub (f64mul c.sigma (at64 x i)) (at64 q i), dot K (47000 + i) (rows.map (fun r => at64 r.a i)) w])
  let x := cholSolve K fac rhs
  let ax := rows.map (fun r => dot K 48000 r.a x)
  let z := (List.range rows.length).map (fun k =>
    let r := rows.getD k ⟨[], 0, 0⟩
    if (f64 (at64 rho k)).isZero then at64 ax k else clamp64 (f64add (at64 ax k) (f64div (at64 y k) (at64 rho k))) r.l r.u)
  let y := (List.range rows.length).map (fun k => f64add (at64 y k) (f64mul (at64 rho k) (f64sub (at64 ax k) (at64 z k))))
  (x, z, y)

/-- `iters` iterations, with y before the last one. -/
def admmRun (step : List Nat × List Nat × List Nat → List Nat × List Nat × List Nat) :
    Nat → List Nat × List Nat × List Nat → List Nat → (List Nat × List Nat × List Nat) × List Nat
  | 0, o, prev => (o, prev)
  | k + 1, o, _ => admmRun step k (step o) o.2.2

/-- The row whose scaled-back residual is largest, and that residual. -/
def worstRow (res : List Nat) : Nat × Nat :=
  res.zipIdx.foldl (fun (b : Nat × Nat) e => if lt64 b.2 e.1 then (e.2, e.1) else b) (0, 0)

/-- The infeasibility test of R325 on δy. -/
def infeasible (K : List Nat) (c : AdmmCfg) (rows : List QpRow) (n : Nat) (dy : List Nat) : Bool :=
  let m := maxOf (dy.map abs64)
  let at_ := maxOf ((List.range n).map (fun i => abs64 (dot K (49000 + i) (rows.map (fun r => at64 r.a i)) dy)))
  let open_ := (rows.zip dy).any (fun e => !(f64 e.2).isZero && !fin64 (if lt64 0 e.2 then e.1.u else e.1.l))
  let s := sum64 K 50000 ((rows.zip dy).map (fun e =>
    if (f64 e.2).isZero then 0 else f64mul (if lt64 0 e.2 then e.1.u else e.1.l) e.2))
  le64 at_ (f64mul c.epsInf m) && !open_ && lt64 s (neg64 (f64mul c.epsInf m))

/-- The solve of a QP from a warm start. -/
def solveQp (K : List Nat) (c : AdmmCfg) (g : Qp) (warm : List Nat × List Nat × List Nat) : DynSol :=
  let n := g.q.length
  let es := g.rows.map (fun r => let m := maxOf (r.a.map abs64); if (f64 m).isZero then one64 else f64div one64 m)
  let rows := List.zipWith (fun (r : QpRow) e => (⟨vscale e r.a, f64mul e r.l, f64mul e r.u⟩ : QpRow)) g.rows es
  let rho := rows.map (fun r =>
    if !fin64 r.l && !fin64 r.u then 0 else if r.l = r.u then f64mul c.rho c.eqScale else c.rho)
  let k := (List.range n).map (fun i => (List.range n).map (fun j =>
    sum64 K (51000 + i) ((at64 (g.p.getD i []) j :: (if i = j then [c.sigma] else [])) ++
      (rows.zip rho).filterMap (fun e =>
        if (f64 (at64 e.1.a i)).isZero || (f64 (at64 e.1.a j)).isZero then none
        else some (f64mul e.2 (f64mul (at64 e.1.a i) (at64 e.1.a j)))))))
  match cholesky K k with
  | none => ⟨3, 0, 0, 0, 0, warm.1, warm.2.1, warm.2.2⟩
  | some fac =>
    let ((x, z, y), prev) := admmRun (admmStep K c fac g.q rows rho n) c.iters warm warm.2.2
    let res := (List.range rows.length).map (fun k =>
      f64div (abs64 (f64sub (dot K 48000 (rows.getD k ⟨[], 0, 0⟩).a x) (at64 z k))) (at64 es k))
    let (worst, rp) := worstRow res
    let rd := maxOf ((List.range n).map (fun i =>
      abs64 (sum64 K (52000 + i) [dot K (53000 + i) (g.p.getD i []) x, at64 g.q i, dot K (54000 + i) (rows.map (fun r => at64 r.a i)) y])))
    let st := if le64 rp c.epsP && le64 rd c.epsD then 0
      else if infeasible K c rows n (List.zipWith f64sub y prev) then 2 else 1
    ⟨st, c.iters, rp, rd, worst, x, z, y⟩

end Sys2Proof.Machine
end

