-- ==== Sys2Proof/Machine/DynOps.lean ====
section
/-!
DEFINITION. The dynamics unit: its jobs, control cycles, commands, resets and registers (R313 to R317, R322 to R332, R343,
12_dynamics.md).
-/

namespace Sys2Proof.Machine

def dynUnit : Nat := 0x8001

/-- What the order of the unit's operations may depend on: the model and the task set (R318). -/
def DynSt.key (d : Sys2Proof.Machine.DynSt) : List Nat :=
  ((d.model.map (·.image)).getD [] ++ d.taskImage).map BitVec.toNat

/-- The unit's state set, with JOBQ_FILL, MODEL_VALID, SOLVER and READY or BUSY. The phases of a solve are one: SOLVER shows FRONT until
it ends. -/
def State.setDyn (s : State) (d : DynSt) : State :=
  let s : State := { s with dyn := d }
  let s := (s.wr F.DYN_STATE_JOBQ_FILL (d.queue.length + d.paused.isSome.toNat)).wr F.DYN_STATE_MODEL_VALID d.model.isSome.toNat
  let s := s.wr F.DYN_STATE_SOLVER (if d.solve.isSome then 1 else if d.paused.isSome then 6 else 0)
  if s.serving dynUnit then s.setUstate dynUnit (if d.solve.isSome || d.paused.isSome then US.busy else US.ready) else s

/-! ### Jobs (R314, R316, R322, R330) -/

def djModel : Nat := 2
def djTasks : Nat := 3
def djCompute : Nat := 4

/-- The state COMPUTE reads: its size in FP64 values. -/
def DynModel.stateLen (m : Sys2Proof.Machine.DynModel) : Nat := m.nv + m.floating.toNat + 2 * m.nv

/-- Sizes of COMPUTE's results in bytes, by bit of byte 1. -/
def DynModel.outSizes (m : Sys2Proof.Machine.DynModel) (sel : Nat) : List (Nat × Nat) :=
  let nb := m.bodies.length
  ([(0, 96 * nb), (1, 48 * m.nv), (2, 8 * m.nv), (3, 8 * m.nv), (4, 8 * m.nv * m.nv)].filter (fun e => bit sel e.1))

/-- Where each selected result lies: its bit, its address and its size. -/
def outPlaces : Nat → List (Nat × Nat) → List (Nat × Nat × Nat)
  | _, [] => []
  | a, (b, n) :: r => (b, up64 a, n) :: outPlaces (up64 a + n) r

/-- The checks of R285 on a job's 64 bytes. -/
def State.dynCheckJob (s : State) (d : List Byte) : Nat :=
  let op := field d 0 1
  let a := field d 8 6
  if !s.on F.DYN_CTRL_ENABLE || (decide (op = djCompute) && s.dyn.model.isNone) then St.refused
  else if !(allZero (slice d 14 2) && aligned a 16 && allZero (slice d 3 5) && allZero (slice d 24 40)) then St.badArgument
  else if op = djModel then
    if !allZero (slice d 1 2 ++ slice d 16 8) then St.badArgument
    else
      let c := s.jobPlaced dynUnit (ext a 64) []
      if c ≠ St.ok then c
      else
        let h := s.bytes a 64
        if dynCounts h then s.jobPlaced dynUnit (ext a (dynImageSize h)) [] else St.ok
  else if op = djTasks then
    if !(allZero (slice d 1 1 ++ slice d 16 8) && decide (field d 2 1 ≤ 32)) then St.badArgument
    else s.jobPlaced dynUnit (ext a (64 * field d 2 1)) []
  else
    match s.dyn.model with
    | none => St.refused
    | some m =>
      if !(allZero (slice d 22 2) && aligned (field d 16 6) 16 && decide (field d 1 1 < 32) && decide (field d 2 1 < m.bodies.length)) then
        St.badArgument
      else s.jobPlaced dynUnit (ext a (8 * m.stateLen)) ((outPlaces (field d 16 6) (m.outSizes (field d 1 1))).flatMap (fun e => ext e.2.1 e.2.2))

/-- A SEND at the dynamics unit. -/
def State.dynArrive (s : State) (m : Msg) : State :=
  let op := field m.payload 0 1
  s.jobArrive dynUnit m (decide (2 ≤ op) && decide (op ≤ 4)) (decide (8 ≤ s.dyn.queue.length + s.dyn.paused.isSome.toNat))
    (s.dynCheckJob m.payload) (s.setDyn { s.dyn with queue := s.dyn.queue ++ [m] })

/-- A read of the unit: none where the answer is not OK; a poisoned one gives INTEGRITY. -/
def State.dynGet (s : State) (a len : Nat) : Nat × List Byte × State :=
  let (st, d, p, s) := s.busGet (s.masterOf dynUnit) a len
  (if st = St.ok ∧ p = true then St.integrity else st, d, s)

/-- DYN_SIZE and DYN_SIZE2. -/
def State.showSize (s : State) (z : QpSize) : State :=
  (((s.wr F.DYN_SIZE_N z.n).wr F.DYN_SIZE_M z.m).wr F.DYN_SIZE_W z.w).wr F.DYN_SIZE2_NNZ z.nnz

/-- LOAD_MODEL (R316): the next solve starts cold, and DYN_TIMES.MAX_CYCLES starts anew. -/
def State.dynLoadModel (s : State) (d : List Byte) : Nat × State :=
  let a := field d 8 6
  let (st, h, s) := s.dynGet a 64
  if st ≠ St.ok then (st, s)
  else if !dynCounts h then (St.badArgument, s)
  else
    let (st, b, s) := s.dynGet (a + 64) (dynImageSize h - 64)
    let img := h ++ b
    if st ≠ St.ok then (st, s)
    else if crc32c b ≠ field h 8 4 then (St.integrity, s)
    else if !dynModelOk img then (St.badArgument, s)
    else
      let m := dynModelOf img
      let z := qpSize m []
      if !z.ok then (St.badArgument, s)
      else
        let s := (s.setDyn { s.dyn with model := some m, tasks := [], taskImage := [], warm := none }).wr F.DYN_STATE_TASKS_VALID 0
        (St.ok, ((s.showSize z).wr F.DYN_SIZE2_MODEL_TAG m.tag).wr F.DYN_TIMES_MAX_CYCLES 0)

/-- LOAD_TASKS (R322): with no model there is no body to name, and the load is refused as out of range. -/
def State.dynLoadTasks (s : State) (d : List Byte) : Nat × State :=
  let n := field d 2 1
  let (st, b, s) := s.dynGet (field d 8 6) (64 * n)
  if st ≠ St.ok then (st, s)
  else
    match s.dyn.model with
    | none => (St.badArgument, s)
    | some m =>
      let recs := (List.range n).map (fun i => slice b (64 * i) 64)
      let ts := recs.map dynTask
      let z := qpSize m ts
      if !recs.all (dynTaskOk m.bodies.length) || !z.ok then (St.badArgument, s)
      else
        let s := (s.setDyn { s.dyn with tasks := ts, taskImage := b, warm := none }).wr F.DYN_STATE_TASKS_VALID 1
        (St.ok, (s.showSize z).wr F.DYN_TIMES_MAX_CYCLES 0)

def words64 (l : List Byte) (off n : Nat) : List Nat := (List.range n).map (fun i => field l (off + 8 * i) 8)

/-- A result of COMPUTE in FP64 values (R330). -/
def computeOut (K : List Nat) (m : DynModel) (x : DynPose) (qd third : List Nat) (body b : Nat) : List Nat :=
  let l := forwardKin K m x qd
  if b = 0 then (List.range m.bodies.length).flatMap (fun i => (bodyAt l i).p ++ (bodyAt l i).r.flatten)
  else if b = 1 then
    let (ja, jl) := jacobian K m l body (bodyAt l body).p
    (jl ++ ja).flatten
  else if b = 2 then List.zipWith f64add (mulV K 55000 (massMatrix K m l) third) (biasForce K m l qd)
  else if b = 3 then forwardDyn K m l qd third
  else (massMatrix K m l).flatten

/-- COMPUTE. -/
def State.dynCompute (s : State) (d : List Byte) : Nat × State :=
  match s.dyn.model with
  | none => (St.refused, s)
  | some m =>
    let (st, b, s) := s.dynGet (field d 8 6) (8 * m.stateLen)
    if st ≠ St.ok then (st, s)
    else
      let w := words64 b 0 m.stateLen
      if !w.all fin64 then (St.badArgument, s)
      else
        let nc := m.nv + m.floating.toNat
        let x : DynPose := if m.floating then ⟨w.take 3, (w.drop 3).take 4, zeros 6 ++ (w.drop 7).take (m.nv - 6)⟩
          else ⟨zeros 3, unit64 4 0, w.take m.nv⟩
        let qd := (w.drop nc).take m.nv
        let third := (w.drop (nc + m.nv)).take m.nv
        let K := s.dyn.key
        s.putAll (s.masterOf dynUnit) ((outPlaces (field d 16 6) (m.outSizes (field d 1 1))).map (fun e =>
          (e.2.1, (computeOut K m x qd third (field d 2 1) e.1).flatMap (toBytes 8), false)))

/-- A job's effect and its ACK. -/
def State.dynRunJob (s : State) (m : Msg) : State :=
  let d := m.payload
  let op := field d 0 1
  let (st, s) := if op = djModel then s.dynLoadModel d else if op = djTasks then s.dynLoadTasks d else s.dynCompute d
  s.send (replyTo s m 0x10 st [])

/-- The next job, where it is of a kind: it executes, or a trigger pauses it before its end (R315). -/
def State.dynJob (s : State) (op : Nat) (paused : Bool) : State :=
  if s.serving dynUnit ∧ s.dyn.solve = none ∧ s.dyn.paused = none then
    match nextJob s.dyn.queue with
    | none => s
    | some m =>
      if field m.payload 0 1 ≠ op then s
      else if paused then s.setDyn { s.dyn with queue := s.dyn.queue.erase m, paused := some m }
      else (s.setDyn { s.dyn with queue := s.dyn.queue.erase m }).dynRunJob m
  else s

/-- The paused job resumes after the solve (R315). -/
def State.dynResume (s : State) : State :=
  match s.dyn.paused with
  | some m => if s.dyn.solve.isNone && s.serving dynUnit then (s.setDyn { s.dyn with paused := none }).dynRunJob m else s
  | none => s

/-! ### The snapshot (R317, R319) -/

def State.dynPeriod (s : State) : Nat := max 10000 (s.rd F.DYN_PERIOD_PERIOD_NS)
def State.cmdDt (s : State) : Nat := let d := s.rd F.DYN_STEP_CMD_DT_NS; if d = 0 then s.dynPeriod else d
def State.dynHorizon (s : State) : Nat := let h := s.rd F.DYN_STEP_HORIZON_NS; if h = 0 then s.cmdDt else h

/-- Nanoseconds as seconds in FP64. -/
def ns64 (n : Nat) : Nat := toF64 ((Val.ofNat n).div (.ofNat 1000000000))

/-- The reference of R319 from a trajectory at an instant. -/
def refOf (t : Traj) (tc : Nat) : DynRef :=
  let last := (t.sample (t.samples - 1)).map f32to64
  let tent := bit t.flags 0
  let beyond := decide (t.dt = 0) || decide (t.t0 + (t.samples - 1) * t.dt < tc)
  if beyond then ⟨last, zeros t.joints, zeros t.joints, t.id, tent⟩
  else
    let sigma := f64div (nat64 (tc - t.t0)) (nat64 t.dt)
    let k := min (t.samples - 2) ((tc - t.t0) / max 1 t.dt)
    let at_ (i : Nat) : List Nat := (t.sample i).map f32to64
    let diff := List.zipWith f64sub (at_ (k + 1)) (at_ k)
    let fr := f64sub sigma (nat64 k)
    let dt := ns64 t.dt
    let k1 := max k 1
    ⟨List.zipWith (fun a d => f64add a (f64mul d fr)) (at_ k) diff, diff.map (fun d => f64div d dt),
      (List.range t.joints).map (fun j =>
        if t.samples ≤ k1 + 1 then Config.openFn 69 [t.id, j] % 2 ^ 64
        else f64div (f64add (f64sub (at64 (at_ (k1 + 1)) j) (f64mul (nat64 2) (at64 (at_ k1) j))) (at64 (at_ (k1 - 1)) j)) (f64mul dt dt)),
      t.id, tent⟩

/-- A joint's measurement: position, velocity, invalid, stale, holdover. A velocity by difference before a tap has two stamps, or of a
position from memory, is not stated, and is open (log entry 34). -/
def State.measure (s : State) (K : List Nat) (trig : Nat) (mem : List Byte) (j : Nat) (m : DynMeas) : Nat × Nat × Bool × Bool × Bool :=
  let tap (t : Nat) : Nat := f32to64 (s.rd (F.TAP_VALUE_VALUE t))
  let none_ (t : Nat) : Bool := !s.on (F.TAP_VALUE_VALID t)
  let old (t : Nat) : Bool := decide (s.rd (F.TAP_STAMP_TS64 t) + s.rd F.DYN_LIMITS_STALE_US * 1000 < trig)
  let hold (t : Nat) : Bool := s.on (F.TAP_VALUE_HOLDOVER t)
  let toQ (v : Nat) : Nat := openSum (56000 :: K) 2 [.prod v (f32to64 m.posScale), .val (f32to64 m.posOffset)]
  let q := toQ (if m.posKind = 0 then tap m.posTap else field mem (16 * j) 8)
  let t := m.posTap
  let qd :=
    if m.velKind = 0 then f64mul (tap m.velTap) (f32to64 m.velScale)
    else if m.velKind = 1 then f64mul (field mem (16 * j + 8) 8) (f32to64 m.velScale)
    else match (if m.posKind = 0 then mget none s.rfx.tapPrev t else none) with
      | some (v, ts) => f64div (f64sub q (toQ (f32to64 v))) (ns64 (s.rd (F.TAP_STAMP_TS64 t) - ts))
      | none => Config.openFn 70 [j, q, trig] % 2 ^ 64
  let used := (if m.posKind = 0 then [m.posTap] else []) ++ (if m.velKind = 0 then [m.velTap] else [])
  (q, qd, used.any none_ || !fin64 q || !fin64 qd, used.any old, used.any hold)

def quat64Ok (q : List Nat) : Bool :=
  q.all fin64 &&
    let n := ratSum (q.map (fun v => (f64 v).toRat * (f64 v).toRat))
    decide ((1023 / 1024 : Rat) * (1023 / 1024) ≤ n) && decide (n ≤ (1025 / 1024 : Rat) * (1025 / 1024))

/-- The snapshot at a trigger. A memory source the unit cannot read counts as an invalid value. A target record is read with every field
the spec lists for it, 112 bytes with its zeros (log entry 35). -/
def State.dynSnap (s : State) (m : DynModel) : DynSnap × State :=
  let tb := s.rd F.DYN_CFG_TB
  let trig := s.ts64 tb
  let tc := trig + s.rd F.DYN_LIMITS_CMD_LEAD_NS
  let nv := m.nv
  let K := s.dyn.key
  let used := m.meas.drop (if m.floating then 6 else 0)
  let (s1, mem, s) := if used.any (fun x => x.posKind = 1 ∨ x.velKind = 1) then s.dynGet (s.rd F.DYN_MEAS_ADDR_ADDR) (16 * nv) else (St.ok, [], s)
  let (s2, base, s) := if m.floating then s.dynGet (s.rd F.DYN_BASE_ADDR_ADDR) 128 else (St.ok, [], s)
  let (s3, mask, s) := if m.contacts.isEmpty then (St.ok, [], s) else s.dynGet (s.rd F.DYN_CONTACT_ADDR_ADDR) 2
  let (s4, ts, s) := s.dyn.tasks.foldl (fun (o : Nat × List (List Nat) × State) t =>
    if t.kind = 0 then (o.1, o.2.1 ++ [[]], o.2.2)
    else
      let (st, b, s) := o.2.2.dynGet t.target 112
      (if st = St.ok then o.1 else st, o.2.1 ++ [words64 b 0 13], s)) (St.ok, [], s)
  let js := (List.range nv).map (fun j =>
    if m.floating ∧ j < 6 then (0, at64 (words64 base 64 6) j, false, false, false)
    else s.measure K trig mem j (m.meas.getD j ⟨0, 0, 0, 0, 0, 0, 0⟩))
  let pos := words64 base 8 3
  let quat := if m.floating then words64 base 32 4 else unit64 4 0
  let src := s.rd F.DYN_CFG_REF_SOURCE
  let stamp := field base 0 8
  let stale := s.rd F.DYN_LIMITS_STALE_US * 1000
  let bad := [s1, s2, s3, s4].any (fun st => decide (st ≠ St.ok)) || js.any (fun x => x.2.2.1) ||
    (m.floating && !((pos ++ words64 base 64 6).all fin64 && quat64Ok quat)) ||
    (s.dyn.tasks.zip ts).any (fun e => !e.2.all fin64 || (decide (e.1.kind = 2) && !quat64Ok (e.2.drop 9)))
  (⟨trig, tc, if m.floating then pos else zeros 3, quat, js.map (·.1), js.map (·.2.1), field mask 0 2,
    (if src = 1 then s.cc.staged else s.cc.active).map (fun t => refOf t tc), src, ts, bad,
    js.any (fun x => x.2.2.2.1) || (m.floating && decide (stamp + stale < trig)), s.tbHold tb || js.any (fun x => x.2.2.2.2)⟩, s)

/-! ### Commands (R327 to R329) -/

/-- A command's header: what the cycle yields, and the free value `f` for what no solve yielded. -/
structure DynHead where
  status : Nat
  reused : Bool
  iters : Nat
  rPrim : Nat
  rDual : Nat
  worst : Nat
  cycles : Nat
  conflict : Bool
  run : Nat
  deriving DecidableEq, Repr

def headBytes (seq : Nat) (h : DynHead) (z : DynSnap) (stage : Nat) (tent : Bool) : List Byte :=
  toBytes 4 seq ++ toBytes 1 h.status ++
    toBytes 1 (h.reused.toNat + tent.toNat * 2 + z.stale.toNat * 4 + z.hold.toNat * 8 + h.conflict.toNat * 16) ++ toBytes 1 h.iters ++
    toBytes 1 0 ++ toBytes 4 stage ++ toBytes 4 h.run ++ toBytes 8 z.cmdAt ++ toBytes 8 z.trig ++ toBytes 4 h.rPrim ++ toBytes 4 h.rDual ++
    toBytes 4 h.cycles ++ toBytes 2 h.worst ++ toBytes 18 0

/-- Fills of the slots whose SOURCE is DYN: every DYN_DIV-th command; an inhibited slot's fill is not made (R337, R339). -/
def State.dynFills (s : State) : State :=
  (List.range 32).foldl (fun (s : State) i =>
    if s.on (F.EG_CFG_ENABLE i) ∧ s.rd (F.EG_CFG_SOURCE i) = 0 then
      let n := (s.eg i).cmds + 1
      if n < max 1 (s.rd (F.EG_TX_DYN_DIV i)) then s.setEg i { s.eg i with cmds := n }
      else
        let s := s.setEg i { s.eg i with cmds := 0 }
        if bit (s.rd F.RFX_INHIBIT_SLOTS) i then s.bump (F.EG_STATUS_INHIBITED i) else (s.egFill i).2
    else s) s

/-- A command emitted: the DYN_CMD window, the copy at OUT_ADDR, and the fills. -/
def State.dynEmit (s : State) (head : List Byte) (v : DynVals) : State :=
  let dofs := (List.range v.tau.length).flatMap (fun j =>
    toBytes 4 (f64to32 (at64 v.tau j)) ++ toBytes 4 (f64to32 (at64 v.q j)) ++ toBytes 4 (f64to32 (at64 v.qd j)) ++ toBytes 4 (f64to32 (at64 v.qdd j)))
  let b := head ++ dofs
  let s := (List.range 136).foldl (fun (s : State) w => s.wr (F.DYN_CMD_DATA w) (field b (8 * w) 8)) s
  let s := s.setDyn { s.dyn with last := some v }
  let a := s.rd F.DYN_OUT_ADDR_ADDR
  let s := if a = 0 then s else (s.busPut (s.masterOf dynUnit) a b false).2
  s.dynFills

/-- The report of R325 to REPORT_UNIT of class 0xA: the first 48 bytes of a command header. -/
def State.dynReport (s : State) (status worst : Nat) (head : List Byte) : State :=
  let s := s.event dynUnit 0x700D status [worst, s.rd F.DYN_COUNTS_CYCLES]
  let u := s.rd F.DYN_CFG_REPORT_UNIT
  if u / 0x1000 = 0xA then s.post dynUnit u 1 1 0 (head.take 48) else s

/-- The previous command shifted by one step (R327). -/
def DynVals.shift (v : Sys2Proof.Machine.DynVals) (K : List Nat) (dt : Nat) : Sys2Proof.Machine.DynVals :=
  let half := f64mul dt (f64mul dt (toF64 ((Val.ofNat 1).scale2 (-1))))
  { v with
    q := (List.range v.q.length).map (fun j => openSum (57000 :: K) 3 [.val (at64 v.q j), .prod (at64 v.qd j) dt, .prod (at64 v.qdd j) half])
    qd := (List.range v.qd.length).map (fun j => openSum (57001 :: K) 2 [.val (at64 v.qd j), .prod (at64 v.qdd j) dt]) }

/-- A cycle's end without a new command (R327, R328). -/
def State.dynReuse (s : State) (h : DynHead) (z : DynSnap) : State :=
  match s.dyn.last with
  | none => s
  | some v =>
    if s.on F.DYN_STATE_STARVED then s
    else
      let n := s.dyn.reuse + 1
      let s := (s.setDyn { s.dyn with reuse := n }).bump F.DYN_COUNTS_REUSES
      let v := v.shift s.dyn.key (ns64 s.cmdDt)
      let head := headBytes (s.rd F.DYN_COUNTS_CYCLES) { h with reused := true, run := n } z v.stage v.tentative
      let s := s.dynEmit head v
      if max 1 (s.rd F.DYN_LIMITS_REUSE_MAX) ≤ n then
        ((s.wr F.DYN_STATE_STARVED 1).bump F.DYN_COUNTS2_STARVED_ENTRIES).dynReport 7 h.worst head
      else s

/-- The counters of a status, LAST_STATUS, and the record and report of a change of status. -/
def State.dynStatus (s : State) (h : DynHead) (z : DynSnap) (stage : Nat) (tent : Bool) : State :=
  let st := h.status
  let s := if st = 5 then s.bump F.DYN_COUNTS_MISSES
    else if st = 2 then s.bump F.DYN_COUNTS2_INFEASIBLE
    else if st = 3 ∨ st = 4 then s.bump F.DYN_COUNTS2_NOT_PD_NAN
    else if st = 6 then s.bump F.DYN_COUNTS2_NO_REF else s
  if s.rd F.DYN_STATE_LAST_STATUS = st then s
  else (s.wr F.DYN_STATE_LAST_STATUS st).dynReport st h.worst (headBytes (s.rd F.DYN_COUNTS_CYCLES) h z stage tent)

/-- The most FRAME_CLK a solve takes (R331). -/
def solveMax (m : DynModel) (z : QpSize) (iters : Nat) : Nat :=
  300 + 16 * m.bodies.length + 16 * m.contacts.length + 200 + ceilDiv z.w 256 + ceilDiv (z.n * z.n * z.n) 768 +
    iters * (ceilDiv (z.n * z.n) 128 + ceilDiv z.nnz 64 + 32) + 150

def State.dynIters (s : State) : Nat := max 1 (s.rd F.DYN_ADMM_ITERS)

/-- The time of a solve: at most what R331 allows, and otherwise free. DYN_TIMES shows it. -/
def State.dynTime (s : State) (m : DynModel) : Nat × State :=
  let (f, s) := s.draw 71
  let t := f % (solveMax m (qpSize m s.dyn.tasks) s.dynIters + 1)
  (t, (s.wr F.DYN_TIMES_LAST_CYCLES t).wr F.DYN_TIMES_MAX_CYCLES (max t (s.rd F.DYN_TIMES_MAX_CYCLES)))

/-- What a header holds of a cycle no solve ended: free values. -/
def headFree (status iters cycles f : Nat) (conflict : Bool) : DynHead :=
  ⟨status, false, iters, bits f 0 32, bits f 32 32, bits f 64 16, cycles, conflict, 0⟩

/-- Weights and horizon, and the solver's registers. W_F, σ and EPS_INF are fixed values the spec does not give (log entry 33). -/
def State.qpCfg (s : State) : QpCfg :=
  ⟨ns64 s.dynHorizon, f32to64 (s.rd F.DYN_WEIGHTS_W_QDD), f32to64 (s.rd F.DYN_WEIGHTS_W_TAU), Config.openFn 72 [] % 2 ^ 64⟩
def State.admmCfg (s : State) : AdmmCfg :=
  ⟨s.dynIters, f32to64 (s.rd F.DYN_ADMM_RHO), nat64 (2 ^ min 20 (s.rd F.DYN_ADMM_EQ_SCALE_LOG)), Config.openFn 73 [] % 2 ^ 64,
    f32to64 (s.rd F.DYN_EPS_EPS_P), f32to64 (s.rd F.DYN_EPS_EPS_D), Config.openFn 74 [] % 2 ^ 64⟩

/-- The solve in progress ends as MISSED (R326). -/
def State.dynMissed (s : State) : State :=
  match s.dyn.solve, s.dyn.model with
  | some z, some m =>
    let (t, s) := s.dynTime m
    let (f, s) := s.draw 75
    let conflict := !z.bad && (z.ref.any (fun r => (buildQp s.dyn.key m s.dyn.tasks s.qpCfg z r).conflict))
    let h := headFree 5 (bits f 80 8 % (s.dynIters + 1)) t f conflict
    let s := s.setDyn { s.dyn with solve := none }
    let stage := (z.ref.map (·.stage)).getD 0
    (s.dynStatus h z stage (z.ref.any (·.tentative))).dynReuse h z
  | _, _ => s.setDyn { s.dyn with solve := none }

/-- The solve ends with its status: a new command, a reused one, or none (R325, R327). -/
def State.dynSolveDone (s : State) : State :=
  match s.dyn.solve, s.dyn.model with
  | some z, some m =>
    let (t, s) := s.dynTime m
    let (f, s) := s.draw 75
    let s := s.setDyn { s.dyn with solve := none }
    match z.ref with
    | none => s.dynStatus (headFree 6 0 t f false) z 0 false
    | some r =>
      if z.bad then
        let h := headFree 4 0 t f false
        (s.dynStatus h z r.stage r.tentative).dynReuse h z
      else
        let K := s.dyn.key
        let g := buildQp K m s.dyn.tasks s.qpCfg z r
        let n := g.q.length
        let cold := (zeros n, zeros g.rows.length, zeros g.rows.length)
        let warm := match s.dyn.warm with
          | some w => if w.refSource = z.refSource then (w.x, w.z, w.y) else cold
          | none => cold
        let o := solveQp K s.admmCfg g warm
        let h : DynHead := if o.status = 3 then headFree 3 0 t f g.conflict
          else ⟨o.status, false, o.iters, f64to32 o.rPrim, f64to32 o.rDual, o.worst, t, g.conflict, 0⟩
        let s := s.dynStatus h z r.stage r.tentative
        let accept := decide (o.status = 0) || (decide (o.status = 1) && s.on F.DYN_CFG_ACCEPT_INACCURATE) ||
          (decide (o.status = 2) && s.on F.DYN_CFG_ACCEPT_INFEASIBLE)
        if !accept then s.dynReuse h z
        else
          let nv := m.nv
          let dt := ns64 s.cmdDt
          let x : DynPose := ⟨z.basePos, z.baseQuat, z.q⟩
          let qdd := o.x.take nv
          let tau := (List.range nv).map (fun j =>
            match m.acts.idxOf? j with
            | some k => at64 o.x (nv + 3 * m.contacts.length + k)
            | none => 0)
          let v : DynVals := DynVals.shift ⟨tau, (List.range nv).map (scalarPos m x), z.qd, qdd, r.stage, r.tentative⟩ K dt
          let s := (s.setDyn { s.dyn with reuse := 0, warm := some ⟨o.x, o.z, o.y, z.refSource⟩ }).wr F.DYN_STATE_STARVED 0
          s.dynEmit (headBytes (s.rd F.DYN_COUNTS_CYCLES) h z r.stage r.tentative) v
  | _, _ => s

/-- A trigger (R326): a solve still running ends as MISSED, and the new cycle starts at once. -/
def State.dynTrigger (s : State) : State :=
  match s.dyn.model with
  | none => s
  | some m =>
    if s.present dynUnit && s.on F.DYN_CTRL_RUN && s.on F.DYN_STATE_TASKS_VALID && s.serving dynUnit then
      let s := if s.dyn.solve.isSome then s.dynMissed else s
      let s := s.bumpW F.DYN_COUNTS_CYCLES
      let (z, s) := s.dynSnap m
      s.setDyn { s.dyn with solve := some z }
    else s

/-- DEADLINE_US has passed since the trigger. -/
def State.dynDeadline (s : State) : State :=
  if s.dyn.solve.isSome && decide (s.rd F.DYN_PERIOD_DEADLINE_US ≠ 0) then s.dynMissed else s

/-! ### Resets and power (R332) -/

/-- Jobs answered; the solve ends without a command; warm start and STARVED cleared. -/
def State.dynDrop (s : State) (status : Nat) : State :=
  let d := s.dyn
  let s := (d.paused.toList ++ d.queue).foldl (fun (s : State) m => s.answer m status) s
  (s.setDyn { d with queue := [], paused := none, solve := none, warm := none, reuse := 0 }).wr F.DYN_STATE_STARVED 0

/-- The unit enters RESETTING, RETAINED or OFF; OFF loses the model and the tasks. -/
def State.dynEnter (s : State) (st : Nat) : State :=
  let s := ((s.bumpEpoch dynUnit).setUstate dynUnit st).dynDrop St.unitReset
  if st = US.off then (s.setDyn { s.dyn with model := none, tasks := [], taskImage := [], last := none }).wr F.DYN_STATE_TASKS_VALID 0 else s

def State.dynReset (s : State) : State :=
  let st := s.ustate dynUnit
  if st = US.resetting ∨ st = US.absent then s
  else if st = US.off ∨ st = US.quarantined then s.reject R.DYN_REJECTS 0x8000
  else if s.epochFree dynUnit then s.dynEnter US.resetting
  else s.holdEpoch dynUnit US.resetting

def State.dynResetDone (s : State) : State :=
  if s.ustate dynUnit = US.resetting then s.setUstate dynUnit US.ready else s

/-! ### The unit's registers (R313, R343) -/

/-- A write at a block offset from 0x8000. -/
def State.dynWrite (s : State) (r : Req) (off : Nat) (d : WData) : State :=
  let v := d.bits1
  if !s.present dynUnit then s
  else if !s.mayUse r dynUnit then s.reject R.DYN_REJECTS off
  else if off = 0x8000 then
    let w := d.over (s.reg R.DYN_CTRL)
    let s := (s.wr F.DYN_CTRL_ENABLE (bits w 1 1)).wr F.DYN_CTRL_RUN (bits w 2 1)
    let s := if bit v 4 then s.dynReset else s
    let s := if bit v 3 ∧ 2 ≤ s.rd F.DYN_CFG_TRIGGER then s.dynTrigger else s
    if bit v 0 then s.wr F.DYN_CTRL_LOCK 1 else s
  else s.writeReg (R.DYN_CTRL + (off - 0x8000)) d

/-- What a register of the unit reads as. -/
def State.dynView (s : State) (off : Nat) : Nat :=
  let a := R.DYN_CTRL + (off - 0x8000)
  if !s.present dynUnit then 0
  else if off = 0x8008 then
    let q := s.ownerOf dynUnit
    insField (insField (s.reg R.DYN_STATE) 11 3 (if q < 8 then q else 0)) 10 1 (decide (q < 8)).toNat
  else s.reg (canonReg a)

end Sys2Proof.Machine
end

