-- ==== Sys2Proof/Machine/MemOps.lean ====
section
/-!
DEFINITION. Memory controllers, host cores and the MEMCTL register block beyond one access: error findings, scrubbing, bandwidth
windows, interrupt routes, cores starting and stopping (R416 to R429, R447, 15_memory.md).
-/

namespace Sys2Proof.Machine

/-- A unit as a master: the castle, the mailbox sequencer and the PCIe port in endpoint mode are not fenced (R158, R433). -/
def State.unitMaster (s : State) (u : Nat) : Master :=
  if u = 0xA000 ∨ u = 0xF000 ∨ (u = 0xC200 ∧ s.on F.PCIE_STATUS_ROOT_PORT = false) then ⟨u, none, true⟩ else s.masterOf u

/-- The unit ID under which a requester's accesses are logged. -/
def Req.unit : Req → Nat
  | .host => 0xC200
  | .castle => 0xA000
  | .sequencer => 0xF000
  | .core c => 0xD000 + c.val
  | .square n => 0x1000 + n.val
  | .part _ => 0xF000

/-- A requester as a master. -/
def State.reqMaster (s : State) (r : Req) : Master := ⟨Req.unit r, s.reqPart r, r.trusted⟩

/-- The access refused: an access-fault exception where a core made it (R413, R425). -/
def State.withAcc (s : State) (u status : Nat) (data : List Byte) (poison : Bool) : State :=
  { s with acc := ⟨status, data, poison,
    decide (u / 0x1000 = 0xD) && decide (status = St.notPermitted ∨ status = St.badArgument), false, 0⟩ }

/-! ### Findings of the inline code (R416, R421, R422) -/

/-- The key-value page that holds a data address is retired. -/
def State.retireAt (s : State) (a : Nat) : Bool × State := s.retirePage (a / 32768)

/-- A demand read of a line finds an error (R416). -/
def State.demandFind (s : State) (u line : Nat) (found : Ecc) : State :=
  match found with
  | .clean => s
  | .correctable => s.bump F.MC_ECC_CORRECTED
  | .uncorrectable =>
    let a := line * 64
    let s := (s.setPoison line).bump F.MC_ECC_UNCORRECTED
    (s.errLog 1 a u false).event (0xB000 + mcOf s.mcCount a) 0x2001 a [mcOf s.mcCount a, u]

/-- A read of one 64-byte line by a master (R413, R416, R417). -/
def State.lineRead (s : State) (u a : Nat) (found : Ecc) : State :=
  let m := s.unitMaster u
  let a := a / 64 * 64
  if 0x400000000000 ≤ a then s.withAcc u St.badArgument [] false
  else if s.partInReset m then s.withAcc u St.unitReset [] false
  else if s.dramEnd < a + 64 then s.withAcc u St.badArgument [] false
  else if !s.dramOpen m a 64 then s.withAcc u St.notPermitted [] false
  else
    let old := mget 0 s.poison (a / 64) ≠ 0
    let s := if old then s else s.demandFind u (a / 64) found
    let (d, p, s) :=
      if old ∨ found ≠ .uncorrectable then s.dramRead m a 64 else (s.bytes a 64, true, s.mcCharge m.part a 64)
    s.withAcc u St.ok d p

/-- MEMERR_p of the partition whose line was lost, if any, and MSI-X vector 4 (R421, R429). -/
def State.memErrorIrq (s : State) (part : Option Nat) : State :=
  match part with
  | some p => (s.raiseIrq (8 + p)).raiseMsix 4
  | none => s

/-- The scrubber of MC_c finds an uncorrectable line (R421): poison, page retirement, event, ERR entry and MEMERR_p. -/
def State.scrubFind (s : State) (c a : Nat) : State :=
  let s := (s.setPoison (a / 64)).bump F.MC_ECC_UNCORRECTED
  let ret := s.retireAt a
  let part := ret.2.dramOwner a
  let s := ret.2.errLog 2 a (0xB000 + c) ret.1
  (s.logRec (0xB000 + c) 0x2002 3 (part.getD 0xFF) a [c, ret.1.toNat]).memErrorIrq part

/-- Package lines of one controller: 16 GiB of raw lines. -/
def packageLines : Nat := 2 ^ 28

/-- One line scrubbed by MC_c (R418, R421). A check line carries no code of its own. -/
def State.scrub (s : State) (c : Nat) (found : Ecc) : State :=
  let n := mget 0 s.mc.scrub c
  let pl := n % packageLines
  let s := { s with mc := { s.mc with scrub := mset 0 s.mc.scrub c (n + 1) } }
  let low := (bitList (s.rd F.MC_STATUS_PRESENT) 8).foldl (fun m k => min m (mget 0 s.mc.scrub k)) (n + 1)
  let s := (s.wr F.MC_SCRUB_POSITION_MIB (low % packageLines * 64 / 2 ^ 20)).wr F.MC_SCRUB_PASSES (low / packageLines)
  if pl % 8 = 7 then s
  else
    let a := dataAddr s.mcCount c (pl / 8 * 7 + pl % 8)
    if s.dramEnd ≤ a ∨ mget 0 s.poison (a / 64) ≠ 0 then s
    else match found with
      | .clean => s
      | .correctable => s.bump F.MC_ECC_CORRECTED
      | .uncorrectable => s.scrubFind c a

/-! ### Bandwidth windows (R419, R420) -/

/-- The guarantee and the cap of a partition, or of the traffic of none (8), in bytes of a window; at step 15 of the reduction
ladder the CAP is taken as GUARANTEED. -/
def State.shareMin (s : State) (p : Nat) : Nat := (if p < 8 then s.rd (F.PART_SHARE_GUARANTEED p) else 8) * 1200
def State.shareMax (s : State) (p : Nat) : Option Nat :=
  if p < 8 then
    (let c := if s.on F.PWR_OPP_MEM_HELD then s.rd (F.PART_SHARE_GUARANTEED p) else s.rd (F.PART_SHARE_CAP p)
     if c = 0 ∧ s.rd F.PWR_OPP_MEM_HELD = 0 then none else some (c * 1200))
  else none

/-- A window ends: what each was charged in it, and who fell short or was held by its cap at a controller where it kept
requests waiting. -/
def State.shareWindow (s : State) (waiting : List (Nat × Nat)) : State :=
  let charged (c p : Nat) : Nat := mget 0 s.mc.charge (c * 16 + p)
  let s' := (List.range 9).foldl (fun (t : State) p =>
    let total := (List.range 8).foldl (fun n c => n + charged c p) 0
    let at_ := waiting.filter (fun w => w.2 = p)
    let short := at_.any (fun w => decide (charged w.1 p < s.shareMin p))
    let held := at_.any (fun w => match s.shareMax p with | some m => decide (m ≤ charged w.1 p) | none => false)
    if p < 8 then
      let t := t.wr (F.MC_SHARE_LAST_WINDOW p) total
      let t := if short then t.bump (F.MC_SHARE_SHORTFALL p) else t
      if held then t.bump (F.MC_SHARE_CAPPED p) else t
    else
      let t := t.wr F.MC_SHARE_NONE_LAST_WINDOW total
      if short then t.bump F.MC_SHARE_NONE_SHORTFALL else t) s
  { s' with mc := { s'.mc with charge := [] } }

/-! ### The MEMCTL register block (R429, R447) -/

/-- The partition of an interrupt source, none for any (R429). -/
def State.irqPart (s : State) (i : Nat) : Option Nat :=
  if i < 8 then some i else if i < 16 then some (i - 8) else if 19 ≤ i ∧ i < 27 then some (i - 19)
  else if i = 27 then some (s.rd F.MBX_CFG_ROOT_HOST) else none

/-- A write of MC_IRQ_ROUTE_i is refused when the route names a core outside the source's partition. -/
def State.irqRouteOk (s : State) (i v : Nat) : Bool :=
  match s.irqPart i with
  | some p => decide (s.ownerOf (0xD000 + bits v 0 4) = p)
  | none => true

/-- A write of the block at a block offset; an IOMMU's register file belongs to its partition. -/
def State.mcWrite (s : State) (r : Req) (off : Nat) (d : WData) : State :=
  let a := R.MC_CTRL + off
  let i := (off - 0x240) / 8
  if 0x8000 ≤ off then
    if r.trusted || decide (s.reqPart r = some ((off - 0x8000) / 0x1000)) then
      let old := (mget 0 s.pcie.iommu off).toNat
      { s with pcie := { s.pcie with iommu := mset 0 s.pcie.iommu off (BitVec.ofNat 64 (d.over old)) } }
    else s.reject R.MC_REJECTS off
  else if !r.trusted then s.reject R.MC_REJECTS off
  else if 0x240 ≤ off ∧ off < 0x340 ∧ s.irqRouteOk i (d.over (s.reg a)) = false then s.reject R.MC_REJECTS off
  else s.writeReg a d

/-- What a requester reads of the block. -/
def State.mcView (s : State) (r : Req) (off : Nat) : Nat :=
  if 0x8000 ≤ off then
    if r.trusted || decide (s.reqPart r = some ((off - 0x8000) / 0x1000)) then (mget 0 s.pcie.iommu off).toNat else 0
  else s.reg (R.MC_CTRL + off)

/-! ### Host cores (R425 to R428, R490) -/

/-- The present cores of a partition. -/
def State.coresOf (s : State) (p : Nat) : List Nat :=
  (bitList (s.rd F.CORE_MASK_CORES) 12).filter (fun c => decide (s.ownerOf (0xD000 + c) = p))

/-- The cores of P_p start at an address. -/
def State.coresStart (s : State) (p entry : Nat) : State :=
  { s with cores := { s.cores with
    running := (s.coresOf p).foldl (fun m c => setBit m c true) s.cores.running,
    entry := (s.coresOf p).foldl (fun m c => mset 0 m c entry) s.cores.entry } }

/-- Cores held in reset: what their half-word latches and access state held is gone. -/
def State.coresHold (s : State) (l : List Nat) : State :=
  { s with
    cores := { s.cores with
      running := l.foldl (fun m c => setBit m c false) s.cores.running,
      entry := l.foldl (fun m c => mset 0 m c 0) s.cores.entry },
    half := l.foldl (fun m c => mdel m (16 + c)) s.half }

/-- The host-cluster local region, reachable from host cores only: mtime at 0x6100_0200_0000 and mtimecmp of core c at
+ 8 + 8c (log entry 36). -/
def State.coreLocal (s : State) (r : Req) (a : Nat) (d : WData) : State :=
  match r with
  | .core _ =>
    if 0x610002000008 ≤ a ∧ a < 0x610002000008 + 12 * 8 then
      let c := (a - 0x610002000008) / 8
      let v := d.over (mget 0 s.cores.cmp c)
      { s with cores := { s.cores with cmp := mset 0 s.cores.cmp c v, timer := setBit s.cores.timer c false } }
    else s
  | _ => s

def State.coreLocalView (s : State) (a : Nat) : Nat :=
  if a = 0x610002000000 then s.cores.mtime % 2 ^ 64
  else if 0x610002000008 ≤ a ∧ a < 0x610002000008 + 12 * 8 then mget 0 s.cores.cmp ((a - 0x610002000008) / 8)
  else 0

end Sys2Proof.Machine
end

