-- ==== Sys2Proof/Machine/VoxOps.lean ====
section
/-!
DEFINITION. The voxel engine: triggers, the frame's points, hashing and pillars, the list, the BEV map, the sparse
convolution tables and the output ring (R110 to R137, 05_voxel.md).
-/

namespace Sys2Proof.Machine

/-! ### Configuration (R110, R137) -/

def State.vsOn (s : State) (l : Nat) : Bool := s.on (F.VOX_SRC_CTRL_ENABLE l)
def State.vsSlot (s : State) (l : Nat) : Nat := s.rd (F.VOX_SRC_CTRL_SLOT l)
def State.vsPh (s : State) (l : Nat) : Nat := s.rd (F.VOX_SRC_CTRL_PH l)
def State.vsSlices (s : State) (l : Nat) : Nat := s.rd (F.VOX_SRC_CTRL_SLICES l)
def State.vsBundle (s : State) (l : Nat) : Bool := s.on (F.VOX_SRC_CTRL_VIA_BUNDLE l)

/-- Source l is in CONFIG_ERROR (R110). -/
def State.vsErr (s : State) (l : Nat) : Bool :=
  let i := s.vsSlot l
  let k := s.vsPh l
  let c := s.rd (F.VOX_SRC_FMT_COORD l)
  let ff (f : Nat → Fld) : Bool := s.rd (f l) == 0xFF
  (s.vsBundle l && (!s.alnRuns i || decide (s.alnKind i ≠ 2) || decide (s.vsSlices l ≠ s.rd (F.ALN_STREAM_CTRL_SLICES i)))) ||
  (!s.vsBundle l && decide (s.rd (F.IQ_RING_CFG_READER i) ≠ 11)) ||
  decide (s.rd (F.PH_CTRL_SOURCE k) ≠ 1) || decide (s.rd (F.PH_CTRL_SOURCE_INDEX k) ≠ i) ||
  decide (s.slotTb i ≠ s.rd F.VOX_CFG_TB) ||
  (List.range l).any (fun m => s.vsOn m && decide (s.vsSlot m = i)) ||
  decide (s.rd (F.VOX_SRC_FMT_POINT_STRIDE l) = 0) ||
  ff F.VOX_SRC_FIELDS_X_OFF || (if c = 3 then ff F.VOX_SRC_FIELDS_RING_OFF else ff F.VOX_SRC_FIELDS_Y_OFF || ff F.VOX_SRC_FIELDS_Z_OFF)

def State.vsRuns (s : State) (l : Nat) : Bool := s.vsOn l && !s.vsErr l

def State.voxN (s : State) : Nat × Nat × Nat := (s.rd F.VOX_GRID_X_N, s.rd F.VOX_GRID_Y_N, s.rd F.VOX_GRID_Z_N)
def State.poolLog (s : State) : Nat := s.rd F.VOX_BEV_CFG_POOL_LOG
def State.bevW (s : State) : Nat := s.rd F.VOX_GRID_X_N / 2 ^ s.poolLog
def State.bevH (s : State) : Nat := s.rd F.VOX_GRID_Y_N / 2 ^ s.poolLog
def State.bevC (s : State) : Nat := s.rd F.VOX_BEV_CFG_CHANNELS
def State.pillarPts (s : State) : Nat := 4 * 2 ^ s.rd F.VOX_BEV_CFG_PILLAR_PTS
def State.hashLog (s : State) : Nat := s.rd F.VOX_CFG_HASH_LOG

def up4k (n : Nat) : Nat := ceilDiv n 4096 * 4096

def State.siteMax (s : State) (i : Nat) : Nat := min 4194304 (s.rd (F.VOX_SC_LIMIT_SITE_MAX i))
def State.pairMax (s : State) (i : Nat) : Nat := min 67108864 (s.rd (F.VOX_SC_LIMIT_PAIR_MAX i))
def State.scK (s : State) (i : Nat) : Nat := if s.on (F.VOX_SC_CFG_KERNEL i) then 9 else 27

def State.pointMaxSum (s : State) : Nat :=
  (List.range 8).foldl (fun a l => if s.vsOn l then a + s.rd (F.VOX_SRC_CTRL_POINT_MAX l) else a) 0

/-- The worst-case slot size (the provisioning table). -/
def State.voxWorst (s : State) : Nat :=
  let list := 32 * max (min s.pointMaxSum (8 * 2 ^ s.hashLog)) (s.bevW * s.bevH * s.pillarPts)
  let layer (i : Nat) : Nat :=
    if s.on (F.VOX_SC_CFG_ENABLE i) then
      up4k (s.siteMax i * 4) + up4k (if s.on (F.VOX_SC_CFG_MODE i) then 256 + 8 * (s.pairMax i + 64 * s.scK i) else s.siteMax i * 128)
    else 0
  4096 + up4k list + up4k (s.bevW * s.bevH * s.bevC * 2) + (List.range 8).foldl (fun a i => a + layer i) 0

def State.voxSlots (s : State) : Nat := clampN 2 8 (s.rd F.VOX_OUT_CFG_SLOTS)
def State.voxSlotSize (s : State) : Nat := s.rd F.VOX_OUT_CFG_SLOT_SIZE_4K * 4096

/-- The engine is in CONFIG_ERROR and builds no frame (R137). -/
def State.voxConfigErr (s : State) : Bool :=
  let (nx, ny, nz) := s.voxN
  let p := s.ownerOf 0x7000
  let mine (a n : Nat) : Bool := decide (p < 8) && s.inRanges p a n
  decide (4194304 < s.pointMaxSum) || decide (s.hashLog < 10) || decide (19 < s.hashLog) ||
  decide (4096 < nx) || decide (4096 < ny) || decide (256 < nz) ||
  decide (1024 < s.bevW) || decide (1024 < s.bevH) || decide (nx % 2 ^ s.poolLog ≠ 0) || decide (ny % 2 ^ s.poolLog ≠ 0) ||
  decide (s.bevC < 1) || decide (64 < s.bevC) || decide (4194304 < s.bevW * s.bevH * s.pillarPts) ||
  decide (s.voxSlotSize < s.voxWorst) ||
  !mine (s.rd F.VOX_HASH_BASE_BASE) (2 ^ s.hashLog * 256) || !mine (s.rd F.VOX_OUT_BASE_BASE) (s.voxSlots * s.voxSlotSize) ||
  [s.rd F.VOX_HASH_BASE_BASE, s.rd F.VOX_OUT_BASE_BASE, s.rd F.VOX_ELEV_BASE_BASE].any (fun b => decide (b % 4096 ≠ 0))

/-! ### Triggers (R113, R114) -/

def VoxSt.nextSeq (v : Sys2Proof.Machine.VoxSt) : Nat :=
  match v.build, v.trig with
  | some b, _ => b.trig.seq
  | none, t :: _ => t.seq
  | none, [] => v.seq

def State.setVox (s : State) (v : VoxSt) : State := { s with vox := v }.wr F.VOX_OUT_POS_NEXT_SEQ v.nextSeq

/-- A trigger of a frame: rejected, queued, or dropped. -/
def State.voxTrigger (s : State) (stamp : BitVec 128) (bundle : Option Nat) : State :=
  let tb := s.rd F.VOX_CFG_TB
  let v := s.vox
  if !s.on F.VOX_CTRL_ENABLE || (!s.serving 0x7000 && decide (s.ustate 0x7000 ≠ US.resting)) then s
  else if bits stamp.toNat 13 3 ≠ tb || notLater s stamp v.last tb then s.bump F.VOX_COUNTS_TRIGGER_REJECTS
  else
    let last := some (stamp, s.rd (F.TB_STATUS_STEPS tb))
    let next := (v.seq + 1) % 2 ^ 32
    if 2 ≤ v.trig.length then
      ((s.bump F.VOX_COUNTS_OVERRUNS).wr F.VOX_STATUS_LAST_SEQ v.seq).setVox
        { v with seq := next, last := last, dropped := v.dropped ++ [v.seq] }
    else s.setVox { v with seq := next, last := last, trig := v.trig ++ [⟨stamp, v.seq, bundle⟩] }

/-! ### Points of a frame (R112, R115 to R118) -/

/-- The ego state a frame uses: rates, and whether it takes the identity. -/
structure VoxEgo where
  omega : V3
  vel : V3
  off : Bool
  step : Bool
  deriving DecidableEq, Repr

/-- The bundle of a frame: the one that triggered it, or the newest visible one within EGO_MAX_AGE_MS before t_v. -/
def State.frameBundle (s : State) (t : VoxTrig) : Option AlnBundle :=
  match t.bundle with
  | some q => s.aln.bundles.find? (fun b => b.seq = q)
  | none =>
    let tv := Machine.ts64 t.stamp
    let near (b : AlnBundle) : Bool := decide (Machine.ts64 b.stamp ≤ tv) &&
      decide (tv ≤ Machine.ts64 b.stamp + s.rd F.VOX_CFG2_EGO_MAX_AGE_MS * 1000000)
    (s.aln.bundles.filter near).getLast?

def egoOf (b : Option AlnBundle) : VoxEgo :=
  match b with
  | none => ⟨v30, v30, true, false⟩
  | some b =>
    let st := bits b.flags 5 3
    let step := bit b.flags 1
    ⟨b.omega, b.vel, decide (st = 0) || decide (st = 5) || step, step⟩

/-- Slice j of a source takes part (R116). -/
def State.inSector (s : State) (slices j : Nat) : Bool :=
  let a := s.rd F.VOX_BEV_CFG_SECTOR_FIRST
  let b := s.rd F.VOX_BEV_CFG_SECTOR_LAST
  let p := j * 256 / (slices + 1)
  !s.on F.VOX_BEV_CFG_SECTOR_EN || (if a ≤ b then decide (a ≤ p) && decide (p ≤ b) else decide (a ≤ p) || decide (p ≤ b))

/-- The sweep of source l for a frame: its items with fractions, in ring order. -/
def State.voxSweep (s : State) (l : Nat) (t : VoxTrig) (b : Option AlnBundle) : List (IqItem × Nat) :=
  let i := s.vsSlot l
  let k := s.vsPh l
  if s.vsBundle l then
    match b with
    | some b => ((s.q i).items.filter (fun e => decide ((i, e.off) ∈ b.refs))).map (fun e => (e, s.itemFrac i k e))
    | none => []
  else
    let h := mget [] s.vox.held i
    s.sweepAt i k (Machine.ts64 t.stamp) ((s.q i).items.filter (fun e => decide (e.off ∈ h)))

/-- Check 2 of R112: outside the exclusion box, compared exactly in cm. -/
def State.outsideBox (s : State) (p : V3) : Bool :=
  let cm (v : Nat) : Val := (f32 v).mul (.ofNat 100)
  let top : Int := s.rdS F.VOX_EXCL_TOP_CM
  decide (s.reg R.VOX_EXCL = 0) ||
  !((Val.ofInt (-(s.rd F.VOX_EXCL_REAR_CM : Int))).le (cm p.x) && (cm p.x).le (.ofNat (s.rd F.VOX_EXCL_FRONT_CM)) &&
    (cm p.y).abs.le (.ofNat (s.rd F.VOX_EXCL_HALF_WIDTH_CM)) && (cm p.z).le (.ofInt top))

/-- Edge of an axis in FP32, and its voxel size (R118). -/
def axisMin (cm : Int) : Nat := f32div (f32ofInt cm) (f32ofInt 100)
def axisV (mm : Nat) : Nat := f32div (f32ofInt (max 1 mm : Nat)) (f32ofInt 1000)

def axisIndex (x : Nat) (cm : Int) (mm : Nat) : Int := (f32 (f32div (f32sub x (axisMin cm)) (axisV mm))).floor

/-- The voxel of a point, or none outside the grid (R118). -/
def State.voxelOf (s : State) (p : V3) : Option (Nat × Nat × Nat) :=
  let (nx, ny, nz) := s.voxN
  let ix := axisIndex p.x (s.rdS F.VOX_GRID_X_MIN_CM) (s.rd F.VOX_GRID_X_V_MM)
  let iy := axisIndex p.y (s.rdS F.VOX_GRID_Y_MIN_CM) (s.rd F.VOX_GRID_Y_V_MM)
  let iz := axisIndex p.z (s.rdS F.VOX_GRID_Z_MIN_CM) (s.rd F.VOX_GRID_Z_V_MM)
  if p.finite ∧ 0 ≤ ix ∧ ix < nx ∧ 0 ≤ iy ∧ iy < ny ∧ 0 ≤ iz ∧ iz < nz then some (ix.toNat, iy.toNat, iz.toNat) else none

def keyOf (v : Nat × Nat × Nat) : Nat := v.1 + v.2.1 * 2 ^ 12 + v.2.2 * 2 ^ 24

/-- A point that passed checks 1 to 4: the decoded point, its place in the ego frame, its voxel. -/
structure VCand where
  pt : VPoint
  p : V3
  v : Nat × Nat × Nat
  deriving DecidableEq, Repr

/-- What a source gives a frame: points decoded, drops by check (invalid, outside, budget), candidates in order, slice
instants that lay beyond EGO_SPAN_MS, poison seen, present mask, sector size. -/
structure SrcOut where
  decoded : Nat
  invalid : Nat
  outside : Nat
  budget : Nat
  cands : List VCand
  stale : Bool
  poison : Bool
  mask : Nat
  sector : Nat
  hold : Bool
  frozen : Bool
  deriving DecidableEq, Repr

/-- The instant of slice j: the midpoint of its earliest and latest point time (R116). -/
def sliceInstant (pts : List VPoint) (j : Nat) : Nat :=
  match pts.filter (fun p => p.slice = j) with
  | [] => 0
  | p :: r =>
    let lo := r.foldl (fun a x => min a x.t) p.t
    let hi := r.foldl (fun a x => max a x.t) p.t
    (lo + hi) / 2

/-- The points of source l through checks 1 to 4 of R112. -/
def State.srcOut (s : State) (l : Nat) (t : VoxTrig) (b : Option AlnBundle) (ego : VoxEgo) : SrcOut :=
  let slices := s.vsSlices l
  let sw := (s.voxSweep l t b).filter (fun e => s.inSector slices (sliceOf slices e.2))
  let dec := s.decSweep (s.vsSlot l) l slices sw
  let good := dec.filterMap (fun d => d.bind (fun d => if d.ok then some d.pt else none))
  let js := (List.range (slices + 1)).filter (fun j => good.any (fun p => p.slice = j))
  let tv := Machine.ts64 t.stamp
  let xf := js.map (fun j =>
    let dt := nsDiff (sliceInstant good j) tv
    (j, rotMat (ego.omega.over dt), ego.vel.over dt, dt))
  let move (p : VPoint) : V3 :=
    if ego.off then p.p
    else match xf.find? (fun x => x.1 = p.slice) with
      | some (_, m, v, _) => (m.apply p.p).add v
      | none => p.p
  let boxed := good.filter (fun p => s.outsideBox p.p)
  let placed := boxed.filterMap (fun p => (s.voxelOf (move p)).map (fun v => (⟨p, move p, v⟩ : VCand)))
  let max_ := s.rd (F.VOX_SRC_CTRL_POINT_MAX l)
  let items := sw.map (·.1)
  ⟨dec.length, dec.length - good.length, good.length - placed.length, placed.length - max_, placed.take max_,
    !ego.off && xf.any (fun x => decide (s.rd F.ALN_CFG_EGO_SPAN_MS * 1000000 < x.2.2.2.natAbs)),
    dec.any (·.isNone), sliceMask slices sw, ((List.range (slices + 1)).filter (s.inSector slices)).length,
    items.any (fun e => tsHold e.stamp), items.any (fun e => e.frozen && !e.missing)⟩

def srcNone : SrcOut := ⟨0, 0, 0, 0, [], false, false, 0, 0, false, false⟩

/-! ### Voxels (R119, R120, R123) -/

/-- An occupied voxel: key, COUNT, the kept candidate. -/
structure Voxel where
  key : Nat
  count : Nat
  kept : VCand
  deriving DecidableEq, Repr

/-- Squared distance of a candidate from its voxel's centre, exact, in units of (1/2000 m)². -/
def State.centreDist (s : State) (c : VCand) : Val :=
  let d (x : Nat) (cm : Int) (mm i : Nat) : Val :=
    let centre : Int := cm * 20 + ((2 * i + 1) * max 1 mm : Nat)
    let e := ((f32 x).mul (.ofNat 2000)).sub (.ofInt centre)
    e.mul e
  ((d c.p.x (s.rdS F.VOX_GRID_X_MIN_CM) (s.rd F.VOX_GRID_X_V_MM) c.v.1).add
    (d c.p.y (s.rdS F.VOX_GRID_Y_MIN_CM) (s.rd F.VOX_GRID_Y_V_MM) c.v.2.1)).add
    (d c.p.z (s.rdS F.VOX_GRID_Z_MIN_CM) (s.rd F.VOX_GRID_Z_V_MM) c.v.2.2)

/-- Ties go to the lower source, then to the earlier point. -/
def tieWins (a b : VCand) : Bool := decide (a.pt.src < b.pt.src) || (decide (a.pt.src = b.pt.src) && decide (a.pt.t < b.pt.t))

def hash32 (k : Nat) : Nat := k * 0x9E3779B1 % 2 ^ 32

/-- Whether the k-th point to reach a voxel replaces the kept one (the sampling policies table). -/
def State.replaces (s : State) (seq k : Nat) (old new : VCand) : Bool :=
  match s.rd F.VOX_CFG_POLICY with
  | 0 => false
  | 1 => true
  | 3 =>
    let a := fmtF16.dec new.pt.inten
    let b := fmtF16.dec old.pt.inten
    b.lt a || (a.le b && b.le a && tieWins new old)
  | 4 => hash32 (seq * 2 ^ 24 + new.pt.src * 2 ^ 21 + new.pt.idx) % k = 0
  | _ =>
    let a := s.centreDist new
    let b := s.centreDist old
    a.lt b || (a.le b && b.le a && tieWins new old)

/-- One point enters a voxel that holds its key. -/
def State.joinVoxel (s : State) (seq : Nat) (v : Voxel) (c : VCand) : Voxel :=
  let k := min 65535 (v.count + 1)
  ⟨v.key, k, if s.replaces seq k v.kept c then c else v.kept⟩

/-- A point placed in the hash table (R119): buckets of 8 slots by index, slots in claim order; none when it is full. -/
def State.hashPut (s : State) (seq : Nat) (tab : Map (List Voxel)) (c : VCand) : Nat → Nat → Option (Map (List Voxel))
  | 0, _ => none
  | n + 1, q =>
    let k := keyOf c.v
    let b := (hash32 k / 2 ^ (32 - s.hashLog) + q) % 2 ^ s.hashLog
    let l := mget [] tab b
    if l.any (fun v => v.key = k) then
      some (mset [] tab b (l.map (fun v => if v.key = k then s.joinVoxel seq v c else v)))
    else if l.length < 8 then some (mset [] tab b (l ++ [⟨k, 1, c⟩]))
    else s.hashPut seq tab c n (q + 1)

/-- The four lanes merged in an order that the spec leaves to timing (R121): lane choices are free (log entry 18). -/
def mergeLanes (ctr : Nat) : Nat → List (List VCand) → List VCand
  | 0, _ => []
  | n + 1, lanes =>
    let live := lanes.filter (fun l => !l.isEmpty)
    match live with
    | [] => []
    | _ =>
      let pick := Config.openFn 4 [ctr, n] % live.length
      match live[pick]? with
      | some (c :: r) => c :: mergeLanes ctr n (live.set pick r)
      | _ => []

/-- The occupied voxels in ascending KEY and the points dropped under check 5, in hash mode. -/
def State.hashFrame (s : State) (seq : Nat) (srcs : List SrcOut) : List Voxel × Nat :=
  let lane (m : Nat) : List VCand := (srcs.getD m srcNone).cands ++ (srcs.getD (m + 4) srcNone).cands
  let lanes := (List.range 4).map lane
  let order := mergeLanes s.freeCtr (lanes.foldl (fun a l => a + l.length) 0) lanes
  let (tab, drops) := order.foldl (fun (x : Map (List Voxel) × Nat) c =>
    match s.hashPut seq x.1 c (s.rd F.VOX_CFG_PROBE + 1) 0 with
    | some t => (t, x.2)
    | none => (x.1, x.2 + 1)) ([], 0)
  let all := tab.flatMap (·.2)
  let sorted := all.foldl (fun (m : Map (List Voxel)) v => mset [] m v.key [v]) []
  (sorted.flatMap (·.2), drops)

/-- The pillar of a candidate: its BEV cell. -/
def State.cellOf (s : State) (v : Nat × Nat × Nat) : Nat := v.2.1 / 2 ^ s.poolLog * s.bevW + v.1 / 2 ^ s.poolLog

/-- The kept points of pillar mode by record index, in fixed order, and the points dropped (R123). -/
def State.pillarFrame (s : State) (srcs : List SrcOut) : Map (List Voxel) × Nat :=
  (srcs.flatMap (·.cands)).foldl (fun (x : Map (List Voxel) × Nat) c =>
    let cell := s.cellOf c.v
    let l := mget [] x.1 cell
    if l.length < s.pillarPts then (mset [] x.1 cell (l ++ [⟨keyOf c.v, 1, c⟩]), x.2) else (x.1, x.2 + 1)) ([], 0)

/-- The 32-byte voxel record (the voxel record table). -/
def voxRecord (off : Bool) (tv : Nat) (v : Voxel) : List Byte :=
  let c := v.kept
  toBytes 4 v.key ++ toBytes 2 v.count ++ toBytes 1 c.pt.slice ++
    toBytes 1 (c.pt.src + 8 * off.toNat + 16 * c.pt.hold.toNat + 32 * c.pt.frozen.toNat) ++ c.p.bytes ++
    toBytes 2 c.pt.inten ++ toBytes 2 c.pt.ring ++ toBytes 4 (sat32 (nsDiff c.pt.t tv)) ++ toBytes 4 0

/-! ### BEV (R125, R126) -/

/-- FP16 of an FP32 value, saturating. -/
def bevF16 (v : Nat) : Nat := (fmtF16.conv true (f32 v) false).1

def sumF32 (l : List Nat) : Nat := l.foldl f32add 0

/-- The azimuth of (x, y) as a fraction of a turn in [0, 1). -/
def turnOf (x y : Val) : Val :=
  let two := ofFix precBits (2 * piFix precBits)
  let one := Val.ofNat 1
  if x.isZero && y.isZero then .zero
  else if x.isZero then (if y.isNeg then .fin false 3 (-2) else .fin false 1 (-2))
  else
    let a := (atanVal (y.div x)).div two
    let a := if x.isNeg then a.add (.fin false 1 (-1)) else a
    if a.isNeg then a.add one else a

/-- The slice of source l in the direction of a cell's centre (R126). -/
def State.cellSlice (s : State) (l cx cy : Nat) : Nat :=
  let ctr (i : Nat) (cm : Int) (mm : Nat) : Val := .ofInt (cm * 20 + ((2 * i + 1) * 2 ^ s.poolLog * max 1 mm : Nat))
  let x := ctr cx (s.rdS F.VOX_GRID_X_MIN_CM) (s.rd F.VOX_GRID_X_V_MM)
  let y := ctr cy (s.rdS F.VOX_GRID_Y_MIN_CM) (s.rd F.VOX_GRID_Y_V_MM)
  let d := (turnOf x y).sub ((Val.ofNat (s.rd (F.VOX_SRC_CTRL_AZ_ZERO l))).scale2 (-16))
  let d := if s.on (F.VOX_SRC_CTRL_CW l) then d.neg else d
  let f := d.sub (.ofInt d.floor)
  (f.mul (.ofNat (s.vsSlices l + 1))).floor.toNat

/-- One channel's value of a cell, as an FP16 word. -/
def State.bevChan (s : State) (tv cx cy src arg : Nat) (recs : List Voxel) (srcs : List SrcOut) : Nat :=
  let z := recs.map (fun v => v.kept.p.z)
  let inten := recs.map (fun v => toF32 (fmtF16.dec v.kept.pt.inten))
  let mean (l : List Nat) : Nat := f32div (sumF32 l) (f32ofInt l.length)
  let nz := s.rd F.VOX_GRID_Z_N
  let slab := recs.filter (fun v => decide (arg * nz / 16 ≤ v.kept.v.2.2) && decide (v.kept.v.2.2 < (arg + 1) * nz / 16))
  let some_ (v : Nat) : Nat := if recs.isEmpty then 0 else bevF16 v
  match src with
  | 1 => some_ f32one
  | 2 => some_ (sumF32 (recs.map (fun v => f32ofInt v.count)))
  | 3 => some_ (z.tail.foldl f32max (z.headD 0))
  | 4 => some_ (z.tail.foldl f32min (z.headD 0))
  | 5 => some_ (mean z)
  | 6 => some_ (inten.tail.foldl f32max (inten.headD 0))
  | 7 => some_ (mean inten)
  | 8 => if slab.isEmpty then 0 else bevF16 f32one
  | 9 => some_ (f32ofInt slab.length)
  | 10 =>
    let dts := recs.map (fun v => nsDiff v.kept.pt.t tv)
    some_ (toF32 ((Val.ofInt (dts.tail.foldl max (dts.headD 0))).div (.ofNat 1000000)))
  | 11 =>
    let covered := (List.range 8).any (fun l => s.vsRuns l &&
      (let j := s.cellSlice l cx cy
       bit (srcs.getD l srcNone).mask j && s.inSector (s.vsSlices l) j))
    if covered then bevF16 f32one else 0
  | 12 => some_ (f32ofInt ((List.range 8).foldl (fun a l => if recs.any (fun v => v.kept.pt.src = l) then a + 2 ^ l else a) 0))
  | _ => 0

/-- The BEV map's bytes. -/
def State.bevBytes (s : State) (tv : Nat) (recs : List Voxel) (srcs : List SrcOut) : List Byte :=
  (List.range (s.bevW * s.bevH)).flatMap (fun cell =>
    let mine := recs.filter (fun v => s.cellOf v.kept.v = cell)
    (List.range s.bevC).flatMap (fun c =>
      toBytes 2 (s.bevChan tv (cell % s.bevW) (cell / s.bevW) (s.rd (F.VOX_BEV_MAP_SOURCE (c / 8) (c % 8)))
        (s.rd (F.VOX_BEV_MAP_ARG (c / 8) (c % 8))) mine srcs)))

/-- The BEV's tensor descriptor: FP16, rank 3, row-major, CHANNELS, W, H. -/
def State.bevDesc (s : State) (addr : Nat) : List Byte :=
  padTo 64 (toBytes 8 addr ++ toBytes 1 7 ++ toBytes 1 3 ++ toBytes 1 0 ++ toBytes 5 0 ++ toBytes 4 s.bevC ++ toBytes 4 s.bevW ++
    toBytes 4 s.bevH ++ toBytes 8 0 ++ toBytes 5 (s.bevC * 2) ++ toBytes 5 (s.bevC * 2 * s.bevW))

/-! ### Sparse convolution tables (R127 to R130) -/

/-- Offset number n of a kernel of K offsets. -/
def kernelOff (k n : Nat) : Int × Int × Int :=
  ((n % 3 : Nat) - 1, (n / 3 % 3 : Nat) - 1, if k = 27 then (n / 9 : Nat) - 1 else 0)

def unkey (k : Nat) : Int × Int × Int := ((k % 2 ^ 12 : Nat), (k / 2 ^ 12 % 2 ^ 12 : Nat), (k / 2 ^ 24 : Nat))

/-- A layer's sites with the size of their grid, its pairs, and its flags. -/
structure ScLayer where
  built : Bool
  sites : List Nat
  dims : Nat × Nat × Nat
  pairs : Nat
  table : List Byte
  overflow : Bool
  refused : Bool
  deriving DecidableEq, Repr

def scNone : ScLayer := ⟨false, [], (0, 0, 0), 0, [], false, false⟩

/-- Index of the site S·o + d in the input list, or none. -/
def neighbour (inp : List Nat) (st : Nat) (o : Nat) (d : Int × Int × Int) : Option Nat :=
  let (x, y, z) := unkey o
  let a := x * st + d.1
  let b := y * st + d.2.1
  let c := z * st + d.2.2
  if 0 ≤ a ∧ 0 ≤ b ∧ 0 ≤ c ∧ a < 4096 ∧ b < 4096 then inp.findIdx? (fun k => k = keyOf (a.toNat, b.toNat, c.toNat)) else none

def sortKeys (l : List Nat) : List Nat := (l.foldl (fun (m : Map Nat) k => mset 0 m k 1) []).map (·.1)

/-- The output sites of a layer: its inputs, their halves, or every site an input reaches, inside the output grid. -/
def outSites (mode : Nat) (subm : Bool) (st k : Nat) (inp : List Nat) (n : Nat × Nat × Nat) : List Nat :=
  let fit (v : Int × Int × Int) : Bool := decide (0 ≤ v.1) && decide (0 ≤ v.2.1) && decide (0 ≤ v.2.2) &&
    decide (v.1 < (n.1 : Int)) && decide (v.2.1 < (n.2.1 : Int)) && decide (v.2.2 < (n.2.2 : Int))
  let key (v : Int × Int × Int) : Nat := keyOf (v.1.toNat, v.2.1.toNat, v.2.2.toNat)
  if mode = 0 ∧ st = 1 ∨ mode ≠ 0 ∧ subm = true then inp.filter (fun o => fit (unkey o))
  else if mode = 0 then
    sortKeys ((inp.map unkey).filterMap (fun v => let h := (v.1 / 2, v.2.1 / 2, v.2.2 / 2); if fit h then some (key h) else none))
  else
    sortKeys (inp.flatMap (fun i => (List.range k).filterMap (fun m =>
      let d := kernelOff k m
      let v := unkey i
      let a := v.1 - d.1
      let b := v.2.1 - d.2.1
      let c := v.2.2 - d.2.2
      if a % st = 0 ∧ b % st = 0 ∧ c % st = 0 then
        (let h := (a / st, b / st, c / st); if fit h then some (key h) else none)
      else none)))

/-- The neighbour table: 32 entries of 4 bytes per output site (R127). -/
def nbTable (inp out : List Nat) (st k : Nat) : List Byte :=
  out.flatMap (fun o => (List.range 32).flatMap (fun n =>
    toBytes 4 (if n < k then (neighbour inp st o (kernelOff k n)).getD 0xFFFFFFFF else 0xFFFFFFFF)))

/-- The pairs of each offset in ascending output index, at most `room` in all (R128, R130). -/
def ruleLists (inp out : List Nat) (st k room : Nat) : List (List (Nat × Nat)) × Bool :=
  let all := (List.range k).map (fun n =>
    (List.range out.length).filterMap (fun j => (neighbour inp st (out.getD j 0) (kernelOff k n)).map (fun i => (i, j))))
  let cut := all.foldl (fun (x : List (List (Nat × Nat)) × Nat) l => (x.1 ++ [l.take x.2], x.2 - l.length)) ([], room)
  (cut.1, decide (room < all.foldl (fun a l => a + l.length) 0))

/-- The rule book: a 256-byte header (COUNT, list offset), then each list padded to a multiple of 64 pairs. -/
def ruleBook (lists : List (List (Nat × Nat))) : List Byte :=
  let padded := lists.map (fun l => l ++ List.replicate (ceilDiv l.length 64 * 64 - l.length) (0xFFFFFFFF, 0xFFFFFFFF))
  let head := (List.range 32).flatMap (fun n =>
    if n < lists.length then
      toBytes 4 (lists.getD n []).length ++ toBytes 4 (256 + 8 * ((padded.take n).foldl (fun a l => a + l.length) 0))
    else toBytes 8 0)
  head ++ padded.flatMap (fun l => l.flatMap (fun p => toBytes 4 p.1 ++ toBytes 4 p.2))

/-- Layer i on its input: the voxel list's keys, or an earlier layer. -/
def State.scLayer (s : State) (keys : List Nat) (done : List ScLayer) (i : Nat) : ScLayer :=
  let j := s.rd (F.VOX_SC_CFG_INPUT i)
  let inp := if j = 0 then some (⟨true, keys, s.voxN, 0, [], false, false⟩ : ScLayer)
    else if j - 1 < i then some (done.getD (j - 1) scNone) else none
  match inp with
  | none => scNone
  | some d =>
    let mode := s.rd (F.VOX_SC_CFG_MODE i)
    if !s.on (F.VOX_SC_CFG_ENABLE i) then scNone
    else if d.refused || (decide (mode = 1) && !s.on F.FEATURE_MASK_RULEBOOK) then { scNone with refused := true }
    else if !d.built then scNone
    else
      let st := 1 + s.rd (F.VOX_SC_CFG_STRIDE i)
      let k := s.scK i
      let n := (d.dims.1 / st, d.dims.2.1 / st, d.dims.2.2 / st)
      let all := outSites mode (s.on (F.VOX_SC_CFG_SUBM i)) st k d.sites n
      let out := all.take (s.siteMax i)
      let excess := decide (s.siteMax i < all.length)
      if mode = 0 then ⟨true, out, n, 0, nbTable d.sites out st k, excess || d.overflow, false⟩
      else
        let (lists, cut) := ruleLists d.sites out st k (s.pairMax i)
        ⟨true, out, n, lists.foldl (fun a l => a + l.length) 0, ruleBook lists, excess || cut || d.overflow, false⟩

def State.scLayers (s : State) (keys : List Nat) : List ScLayer :=
  (List.range 8).foldl (fun done i => done ++ [s.scLayer keys done i]) []

/-! ### A build (R115, R122) -/

/-- The cause of pillar mode, 0 for hash mode. -/
def State.modeCause (s : State) : Nat :=
  if s.on F.VOX_CTRL_FORCE_PILLAR then 1
  else if s.modState = stSafe then 2
  else if s.vox.written < s.rd F.VOX_CFG_WARMUP then 4
  else if s.vox.fallback ≠ 0 ∧ s.on F.VOX_CFG_FALLBACK_DROPS then 5
  else 0

/-- Regions laid out from offset 4,096, each on a 4 KiB boundary: offsets and the end. -/
def placeRegions : Nat → List (List Byte) → List (Nat × List Byte)
  | _, [] => []
  | o, b :: r => (o, b) :: placeRegions (o + up4k b.length) r

/-- Address of a region of a slot. -/
def State.voxSlotAddr (s : State) (seq : Nat) : Nat :=
  s.rd F.VOX_OUT_BASE_BASE + seq % s.voxSlots * s.voxSlotSize

/-- The frame header from byte 24 on (the frame header table). -/
def State.voxHeader (s : State) (t : VoxTrig) (srcs : List SrcOut) (records full crc : Nat) (layers : List ScLayer)
    (regions : List (Nat × List Byte)) (skip : Bool) : List Byte :=
  let base := s.voxSlotAddr t.seq
  let at_ (n : Nat) : Nat := base + (regions.getD n (0, [])).1
  let tot (f : SrcOut → Nat) : Nat := srcs.foldl (fun a o => a + f o) 0
  let cover (l : Nat) : Nat := let o := srcs.getD l srcNone; if s.vsOn l then coverOf o.mask o.sector else 0
  let layer (i : Nat) : List Byte :=
    let y := layers.getD i scNone
    let skipped := s.on (F.VOX_SC_CFG_ENABLE i) && !y.built && !y.refused || skip
    toBytes 6 (if y.built then at_ (3 + 2 * i) else 0) ++
      toBytes 2 (y.overflow.toNat + 2 * y.refused.toNat + 4 * skipped.toNat) ++
      toBytes 4 y.sites.length ++ toBytes 4 y.pairs
  toBytes 4 (t.bundle.getD 0xFFFFFFFF) ++ toBytes 4 (tot (·.decoded)) ++ toBytes 4 records ++
    toBytes 4 (tot (·.invalid)) ++ toBytes 4 (tot (·.outside)) ++ toBytes 4 (tot (·.budget)) ++ toBytes 4 full ++
    toBytes 4 crc ++ (List.range 8).flatMap (fun l => toBytes 1 (cover l)) ++ toBytes 8 (at_ 0) ++ toBytes 8 (at_ 1) ++
    toBytes 2 s.bevW ++ toBytes 2 s.bevH ++ toBytes 2 s.bevC ++ toBytes 42 0 ++ (List.range 8).flatMap layer ++
    (List.range 8).flatMap (fun l => toBytes 32 (srcs.getD l srcNone).mask)

/-- FLAGS of a frame but for PRIOR_DROP. -/
def State.voxFlags (s : State) (t : VoxTrig) (ego : VoxEgo) (srcs : List SrcOut) (cause full : Nat) (deadline : Bool) : Nat :=
  let any (f : SrcOut → Bool) : Nat := (srcs.any f).toNat
  let low := (List.range 8).any (fun l => s.vsOn l &&
    (let o := srcs.getD l srcNone; decide (coverOf o.mask o.sector < s.rd F.VOX_BEV_CFG_COVER_MIN)))
  let pillar := decide (cause ≠ 0)
  (tsHold t.stamp || srcs.any (·.hold)).toNat + 2 * ego.step.toNat + 4 * pillar.toNat + 8 * ego.off.toNat +
    16 * any (·.stale) + 32 * low.toNat + 64 * any (fun o => decide (o.budget ≠ 0)) +
    128 * (!pillar && decide (full ≠ 0)).toNat + 512 * deadline.toNat + 1024 * pillar.toNat + 2048 * any (·.frozen) +
    4096 * any (·.poison) + 8192 * cause

/-- The frame of a trigger from the state now. -/
def State.makeFrame (s : State) (t : VoxTrig) (deadline : Bool) : VoxFrame :=
  let b := s.frameBundle t
  let ego := egoOf b
  let deadline := deadline || (match t.bundle, b with
    | some _, some b => bit b.flags 2
    | _, _ => false)
  let srcs := (List.range 8).map (fun l => if s.vsRuns l then s.srcOut l t b ego else srcNone)
  let tv := Machine.ts64 t.stamp
  let cause := s.modeCause
  let pillar := decide (cause ≠ 0)
  let (voxels, full) := s.hashFrame t.seq srcs
  let (tab, pfull) := s.pillarFrame srcs
  let recs := if pillar then tab.flatMap (·.2) else voxels
  let full := if pillar then pfull else full
  let list := if pillar then
      (List.range (s.bevW * s.bevH)).flatMap (fun c =>
        padTo (32 * s.pillarPts) ((mget [] tab c).flatMap (voxRecord ego.off tv)))
    else voxels.flatMap (voxRecord ego.off tv)
  let bev := s.bevBytes tv recs srcs
  let layers := if pillar then [] else s.scLayers (voxels.map (·.key))
  let regions := placeRegions 4096 ([list, bev] ++
    (List.range 8).flatMap (fun i => let y := layers.getD i scNone; [y.sites.flatMap (toBytes 4), y.table]))
  let header := s.voxHeader t srcs recs.length full (crc32c (list ++ bev)) layers regions pillar
  ⟨t, s.voxFlags t ego srcs cause full deadline, pillar, full, header,
    (512, s.bevDesc (s.voxSlotAddr t.seq + (regions.getD 1 (0, [])).1)) :: regions,
    srcs.map (fun o => (coverOf o.mask o.sector, o.decoded, o.invalid + o.outside + o.budget)),
    (List.range 8).map (fun i => let y := layers.getD i scNone; (y.built, y.sites.length, y.pairs, y.overflow, y.refused))⟩

/-- Direct sources' visible items taken, and no more than the current and the previous revolution held (R134). -/
def State.voxTake (s : State) (l : Nat) : State :=
  let i := s.vsSlot l
  let q := s.q i
  let n := ((q.items.drop q.read).takeWhile (·.visible)).length
  let offs := ((q.items.drop q.read).take n).map (·.off)
  let s := s.setQ i { q with read := q.read + n }
  let h := mget [] s.vox.held i ++ offs
  let items := ((s.q i).items.filter (fun e => decide (e.off ∈ h))).map (fun e => (e, s.itemFrac i (s.vsPh l) e))
  let keep := match items.getLast? with
    | some (_, f) => ((sweepBack (2 ^ 25) f 0 items.reverse).reverse).map (fun x => x.1.off)
    | none => []
  { s with vox := { s.vox with held := mset [] s.vox.held i keep } }

/-- Releases what a direct source no longer holds. -/
def State.voxFree (s : State) (l : Nat) : State :=
  let i := s.vsSlot l
  let q := s.q i
  let n := ((q.items.take q.read).takeWhile (fun e => !decide (e.off ∈ mget [] s.vox.held i))).length
  if n = 0 then s else s.iqFree i n

def State.directs (s : State) : List Nat := (List.range 8).filter (fun l => s.vsRuns l && !s.vsBundle l)

/-- Starts the build of the oldest trigger. -/
def State.voxStart (s : State) (deadline : Bool) : State :=
  match s.vox.trig with
  | [] => s
  | t :: rest =>
    let s1 := s.directs.foldl (fun s l => (s.voxTake l).voxFree l) s
    let cause := s1.modeCause
    let f := s1.makeFrame t deadline
    let s2 := { s1 with freeCtr := s1.freeCtr + 1 }
    let s3 := if cause = 5 ∧ s2.vox.fresh then s2.bump F.VOX_COUNTS_FALLBACKS else s2
    let s4 := (s3.wr F.VOX_STATUS_PILLAR_ACTIVE f.pillar.toNat).wr F.VOX_STATUS_MODE_CAUSE cause
    let s5 := (List.range 8).foldl (fun s i =>
      if (f.layers.getD i (false, 0, 0, false, false)).2.2.2.2 then s.event 0x7000 0x4005 i [] else s) s4
    s5.setVox { s5.vox with trig := rest, build := some f, fresh := if cause = 5 then false else s5.vox.fresh }

/-- Every running direct source has a visible item stamped after t_v, or its newest one of the sweep past the sector's end
(R115). -/
def State.voxReady (s : State) (t : VoxTrig) : Bool :=
  let tv := Machine.ts64 t.stamp
  s.directs.all (fun l =>
    let i := s.vsSlot l
    let vis := (s.q i).items.filter (fun e => e.visible)
    vis.any (fun e => decide (tv < Machine.ts64 e.stamp)) ||
      match (s.sweepAt i (s.vsPh l) tv vis).getLast? with
      | some (_, f) => !s.inSector (s.vsSlices l) (sliceOf (s.vsSlices l) f)
      | none => false)

/-- A queued trigger can start: no build, and no self-test, which queues triggers like one (R114, R396). -/
def State.voxIdle (s : State) : Bool :=
  s.vox.build.isNone && !s.vox.trig.isEmpty && s.serving 0x7000 && !s.voxConfigErr && decide (s.castle.rot.unit ≠ some 0x7000)

/-! ### Emission (R131, R134) -/

/-- Registers of the sources and layers after a frame. -/
def State.voxStatus (s : State) (f : VoxFrame) : State :=
  let s := (List.range 8).foldl (fun s l =>
    let (c, n, d) := f.srcs.getD l (0, 0, 0)
    ((s.wr (F.VOX_SRC_STATUS_COVERAGE l) c).wr (F.VOX_SRC_STATUS_POINTS_LAST l) n).wr (F.VOX_SRC_STATUS_DROPS_LAST l)
      (min d (2 ^ 24 - 1))) s
  (List.range 8).foldl (fun s i =>
    let (_, sites, pairs, o, r) := f.layers.getD i (false, 0, 0, false, false)
    ((s.wr (F.VOX_SC_STATUS_SITES_LAST i) sites).wr (F.VOX_SC_STATUS_PAIRS_LAST i) pairs).wr (F.VOX_SC_STATUS_OVERFLOW i) o.toNat
      |>.wr (F.VOX_SC_STATUS_REFUSED i) r.toNat) s

/-- A direct source keeps, after a frame, only the items after the end of its sweep (R134). -/
def State.voxDone (s : State) (f : VoxFrame) (l : Nat) : State :=
  let i := s.vsSlot l
  let tv := Machine.ts64 f.trig.stamp
  let keep := ((s.q i).items.filter (fun e => decide (e.off ∈ mget [] s.vox.held i) && decide (tv < Machine.ts64 e.stamp))).map (·.off)
  { s with vox := { s.vox with held := mset [] s.vox.held i keep } }.voxFree l

/-- The fallback's state after a frame: one that dropped enough starts it, any other frame uses it up (R122). -/
def State.voxFallback (s : State) (f : VoxFrame) : State :=
  let lim := s.rd F.VOX_CFG_FALLBACK_DROPS
  let v := s.vox
  if !f.pillar ∧ lim ≠ 0 ∧ lim ≤ f.full then
    { s with vox := { v with fallback := s.rd F.VOX_CFG_FALLBACK_FRAMES, fresh := true } }
  else { s with vox := { v with fallback := v.fallback - 1 } }

/-- A finished frame is emitted, or its sequence dropped (R131); the hash table is clear again (R119). -/
def State.emitFrame (s : State) : State :=
  match s.vox.build with
  | none => s
  | some f =>
    let seq := f.trig.seq
    let s1 := s.directs.foldl (fun s l => s.voxDone f l) (s.voxStatus f)
    let s2 := (if f.pillar then s1 else s1.zeroRange (s1.rd F.VOX_HASH_BASE_BASE) (2 ^ s1.hashLog * 256)).wr F.VOX_STATUS_LAST_SEQ seq
    if s2.voxSlots ≤ fwd (2 ^ 32) (s2.rd F.VOX_OUT_POS_OLDEST_SEQ) seq then
      let s3 := (s2.bump F.VOX_COUNTS_FRAME_DROPS).event 0x7000 0x4003 seq [1]
      s3.setVox { s3.vox with build := none, dropped := s3.vox.dropped ++ [seq] }
    else
      let flags := f.flags + 256 * (s2.vox.dropped.any (fun d => before d seq)).toNat
      let base := s2.voxSlotAddr seq
      let head := toBytes 16 f.trig.stamp.toNat ++ toBytes 4 seq ++ toBytes 4 flags ++ f.header
      let s3 := f.regions.foldl (fun s r => s.store (base + r.1) r.2) s2
      let s4 := (s3.store base head).voxFallback f
      let s5 := s4.setVox { s4.vox with
        build := none, dropped := s4.vox.dropped.filter (fun d => !before d seq), written := s4.vox.written + 1 }
      if s5.on F.VOX_OUT_CFG_NOTIFY_EN then
        s5.post 0x7000 (s5.rd F.VOX_OUT_CFG_NOTIFY_UNIT) 3 0x04 0 (toBytes 4 seq ++ toBytes 4 0 ++ toBytes 8 base)
      else s5

/-- What entry into RESETTING or OFF does to the engine (R136). -/
def State.voxReset (s : State) (st : Nat) : State :=
  let s1 := (s.bumpEpoch 0x7000).setUstate 0x7000 st
  let s2 := match s1.vox.build with
    | some f => if f.pillar then s1 else s1.zeroRange (s1.rd F.VOX_HASH_BASE_BASE) (2 ^ s1.hashLog * 256)
    | none => s1
  let s3 := s2.setVox { s2.vox with offered := [], trig := [], build := none, written := 0, fallback := 0, held := [] }
  let s4 := s3.wr F.VOX_OUT_POS_OLDEST_SEQ s3.vox.nextSeq
  (List.range 32).foldl (fun s i => if s.rd (F.IQ_RING_CFG_READER i) = 11 then s.iqFree i (s.q i).read else s) s4

end Sys2Proof.Machine
end

