-- ==== Sys2Proof/Machine/UnitOps.lean ====
section
/-!
DEFINITION. Unit states across the classes: entry into RESETTING, OFF and RETAINED with its epoch held where R19 asks for
it, UNIT_RESET, quarantine and release, and the way back to READY (R19, R354, "Transitions of a unit's state",
13_mailbox.md).
-/

namespace Sys2Proof.Machine

/-- Units that answer requests and have a state of their own: squares, planes, engines, the alignment and voxel engines, the
checker, the dynamics unit, memory controllers and DMA movers. -/
def hasState (u : Nat) : Bool :=
  let c := u / 0x1000
  decide (c = 1) || decide (c = 2) || decide (c = 3) || decide (c = 6) || decide (c = 7) || decide (c = 8) || decide (c = 0xB)

/-- The present units of `hasState`, by ID. -/
def State.unitList (s : State) : List Nat :=
  ((List.range 64).map (0x1000 + ·) ++ (List.range 32).map (0x2000 + ·) ++ (List.range 8).map (0x3000 + ·) ++
    [0x6000, 0x7000, 0x8000, 0x8001] ++ (List.range 8).map (0xB000 + ·) ++ (List.range 4).map (0xB100 + ·)).filter s.present

/-- A unit enters RESETTING (3), OFF (1) or RETAINED (2), with what its chapter says the entry takes. -/
def State.unitEnter (s : State) (u st : Nat) : State :=
  let c := u / 0x1000
  let i := u % 0x1000
  if c = 1 then s.sqEnter i st
  else if c = 2 then s.plEnter i st
  else if c = 3 then s.aeEnter i st
  else if c = 6 then s.alnReset st
  else if c = 7 then s.voxReset st
  else if u = ccUnit then s.ccEnter st
  else if u = dynUnit then s.dynEnter st
  else (s.bumpEpoch u).setUstate u st

/-- The entry at once, or held until 2 µs have passed since the unit's last epoch increment (R19). -/
def State.unitGo (s : State) (u st : Nat) : State := if s.epochFree u then s.unitEnter u st else s.holdEpoch u st

/-- A held load or entry takes effect (R19). -/
def State.epochRelease (s : State) (u : Nat) : State :=
  match (mget epochRec0 s.epoch u).held with
  | none => s
  | some code =>
    if s.epochFree u then
      if code = holdLoad ∨ code = holdLoadStart then
        (if u / 0x1000 = 1 then s.sqLoadNow (u % 0x1000) (code = holdLoadStart) else s.plOpenNow (u % 0x1000))
      else s.unitEnter u code
    else s

/-- The register a unit's state reads from, none where no register shows it. -/
def stateReg (u : Nat) : Option Nat :=
  let c := u / 0x1000
  let i := u % 0x1000
  if c = 1 then some (R.SQ_STATE i)
  else if c = 2 then some (R.PL_STATE i)
  else if c = 3 then some (R.AE_STATE i)
  else if c = 6 then some R.ALN_STATUS
  else if c = 7 then some R.VOX_STATUS
  else if u = ccUnit then some R.CC_STATE
  else if u = dynUnit then some R.DYN_STATE
  else none

/-- Units whose chapter gives them a RESET (R148, R239, R278, R310, R332); the alignment and voxel engines have none (R107,
R136). -/
def hasReset (u : Nat) : Bool :=
  let c := u / 0x1000
  decide (c = 1) || decide (c = 2) || decide (c = 3) || decide (c = 8)

/-- The unit's RESET under its chapter. -/
def State.unitReset (s : State) (u : Nat) : State :=
  let c := u / 0x1000
  let i := u % 0x1000
  if c = 1 then s.sqReset i
  else if c = 2 then s.plReset i
  else if c = 3 then s.aeReset i
  else if u = ccUnit then s.ccReset
  else if u = dynUnit then s.dynReset
  else s

/-- A held entry or load of the unit dropped. -/
def State.dropHeld (s : State) (u : Nat) : State :=
  { s with epoch := mset epochRec0 s.epoch u { mget epochRec0 s.epoch u with held := none, heldReset := false } }

/-- UNIT_QUARANTINE (R354): any present unit; what it holds is answered NOT_PERMITTED, and its epoch stands (R19, R20). A
square stops with its tensor queue dropped and its tags standing (log entry 37). -/
def State.quarantine (s : State) (u : Nat) : State :=
  let c := u / 0x1000
  let i := u % 0x1000
  let st := US.quarantined
  let s := s.dropHeld u
  let s :=
    if c = 1 then
      let s := s.sqLeave i st
      let q := s.sqr i
      let s := (s.setSq i { q with orphans := q.orphans ++ q.writesOut, loading := none, resting := none, rested := none }).setTxq i []
      (s.wr (F.SQ_PC_PC i) q.pc).wr (F.SQ_STATE_RUN i) runHalted
    else if c = 2 then
      let s := (s.plLeave i st).setShell i shIdle
      s.setPl i { s.plane i with cal := none, wantFull := false, wantOffset := false, openWait := false }
    else if c = 3 then (s.aeLeave i st).wr (F.AE_STATE_ENGINE i) enIdle
    else if u = ccUnit then (s.setUstate u st).ccDrop St.notPermitted
    else if u = dynUnit then (s.setUstate u st).dynDrop St.notPermitted
    else s.setUstate u st
  s.event u 0x6007 u [1]

/-- UNIT_RELEASE (R354): from QUARANTINED to RESETTING, and from there READY. -/
def State.unquarantine (s : State) (u : Nat) : State := (s.unitGo u US.resetting).event u 0x6007 u [2]

/-- RESETTING ends for a unit: READY, a plane after its calibration (R239). -/
def State.unitResetDone (s : State) (u : Nat) : State :=
  let c := u / 0x1000
  let i := u % 0x1000
  if c = 1 then s.sqResetDone i
  else if c = 2 then s.plResetDone i
  else if c = 3 then s.aeResetDone i
  else if u = ccUnit then s.ccResetDone
  else if u = dynUnit then s.dynResetDone
  else if s.ustate u = US.resetting then s.setUstate u US.ready else s

/-- A RETAINED unit's supply is back: squares, engines, the checker and the dynamics unit are READY, a plane passes through R219,
and a unit that keeps nothing in RETAINED passes through RESETTING ("Transitions of a unit's state"). -/
def State.unitReturn (s : State) (u : Nat) : State :=
  let c := u / 0x1000
  if c = 2 then s.plReturn (u % 0x1000)
  else if c = 6 ∨ c = 7 then s.unitGo u US.resetting
  else s.setUstate u US.ready

end Sys2Proof.Machine
end

