-- ==== Sys2Proof/Machine/MbxRegOps.lean ====
section
/-!
DEFINITION. The MBX register block: doorbells, consumed responses, the two resets of a mailbox, and what its registers read as
(R345, R346, R350, R378, R432, R446, 13_mailbox.md).
-/

namespace Sys2Proof.Machine

def mb0 : MbSt := ⟨[], none⟩
def State.mb (s : State) (m : Nat) : MbSt := mget mb0 s.mbx.mb m
def State.setMb (s : State) (m : Nat) (v : MbSt) : State := { s with mbx := { s.mbx with mb := mset mb0 s.mbx.mb m v } }
def State.mbExec (s : State) (m : Nat) : Option MbExec := (s.mb m).exec
def State.setExec (s : State) (m : Nat) (e : Option MbExec) : State := s.setMb m { s.mb m with exec := e }

/-- The distance from one ring position to another, modulo 128 (R346). -/
def ringDist (a b : Nat) : Nat := fwd 128 a b

/-- Commands written and not yet taken. -/
def State.mbWaiting (s : State) (m : Nat) : Nat := ringDist (s.rd (F.MB_POS_HEAD m)) (s.rd (F.MB_POS_TAIL m))

/-- MB_m takes doorbells: ENABLE, for a peer mailbox EN_k too, and for MB_0 in root-port mode a ROOT_HOST below 8 (R432,
R446). -/
def State.mbOpen (s : State) (m : Nat) : Bool :=
  s.on (F.MB_CTRL_ENABLE m) && (decide (m < 10) || bit (s.reg R.MBX_PEER_CFG) (4 * (m - 10) + 3)) &&
    !(decide (m = 0) && s.on F.PCIE_STATUS_ROOT_PORT && decide (8 ≤ s.rd F.MBX_CFG_ROOT_HOST))

/-- A write of MB_m's registers at an offset of its own: CTRL, DOORBELL or RESP_HEAD. A write of the high half carries no bit
of the two write-only registers (R10). -/
def State.mbRegWrite (s : State) (m off : Nat) (d : WData) : State :=
  let no := s.reject R.MBX_REJECTS (0x100 + m * 0x40 + off)
  if off = 0 then
    let v := d.over (s.reg (R.MB_CTRL m))
    let s := (s.wr (F.MB_CTRL_ENABLE m) (bits v 0 1)).wr (F.MB_CTRL_NOTIFY_EN m) (bits v 3 1)
    let s := if bit d.bits1 1 then s.wr (F.MB_SEQ_SEQ_VALID m) 0 else s
    if bit d.bits1 2 then
      if (s.mbExec m).isSome then s.reject R.MBX_REJECTS (0x100 + m * 0x40)
      else (((s.wr (F.MB_POS_HEAD m) 0).wr (F.MB_POS_TAIL m) 0).wr (F.MB_POS_RESP_TAIL m) 0).wr (F.MB_POS_RESP_HEAD m) 0
    else s
  else if d.half = .high then s
  else if off = 8 then
    let t := bits d.bits1 0 7
    if s.mbOpen m ∧ ringDist (s.rd (F.MB_POS_RESP_HEAD m)) t ≤ 64 then s.wr (F.MB_POS_TAIL m) t else no
  else
    let h := bits d.bits1 0 7
    let old := s.rd (F.MB_POS_RESP_HEAD m)
    if ringDist old h ≤ ringDist old (s.rd (F.MB_POS_RESP_TAIL m)) then s.wr (F.MB_POS_RESP_HEAD m) h else no

/-- A write of the block at a block offset (R378): host and castle every register, the owner of MB_m its CTRL, DOORBELL and
RESP_HEAD. -/
def State.mbxRegWrite (s : State) (r : Req) (off : Nat) (d : WData) : State :=
  let m := (off - 0x100) / 0x40
  let k := (off - 0x100) % 0x40
  let mine := decide (0x100 ≤ off ∧ off < 0x500 ∧ k ≤ 0x10)
  if mine then
    if r.trusted || ((s.reqPart r).isSome && decide (s.mbPart m = s.reqPart r)) then s.mbRegWrite m k d
    else s.reject R.MBX_REJECTS off
  else if r.trusted then s.writeReg (R.MBX_CTRL + off) d
  else s.reject R.MBX_REJECTS off

/-- What the block's registers read as. -/
def State.mbxRegView (s : State) (off : Nat) : Nat :=
  let a := R.MBX_CTRL + off
  if off = 0x18 then
    (List.range 16).foldl (fun v m =>
      let run := (s.mbExec m).isSome
      v + (if run then 2 ^ m else 0) + (if run.toNat < s.mbWaiting m then 2 ^ (16 + m) else 0)) 0
  else if 0x100 ≤ off ∧ off < 0x500 ∧ (off - 0x100) % 0x40 = 0x28 then
    match s.mbExec ((off - 0x100) / 0x40) with
    | some e => s.reg a % 2 ^ 32 + min ((s.now - e.start) / 1000) (2 ^ 32 - 1) * 2 ^ 32
    | none => 0
  else s.reg a

/-! ### A peer's accesses (R446) -/

/-- The mailbox a link module serves: the lowest peer mailbox whose LINK_PEER_i.MODULE it is. -/
def State.peerMbs (s : State) (module : Nat) : List Nat :=
  ((List.range 6).filter (fun i => decide (s.rd (F.LINK_PEER_MODULE i) = module))).map (· + 10)

/-- A peer's WRITE to a mailbox of its own: bytes of the command ring, or its DOORBELL or RESP_HEAD. Answers whether it was one. -/
def State.peerMbWrite (s : State) (module a : Nat) (data : List Byte) : Bool × State :=
  match (s.peerMbs module).find? (fun m =>
      (decide (mbxWin m ≤ a) && decide (a + data.length ≤ mbxWin m + 0x1000)) ||
        decide (a = R.MB_DOORBELL m) || decide (a = R.MB_RESP_HEAD m)) with
  | some m =>
    if a = R.MB_DOORBELL m then (true, s.mbRegWrite m 8 ⟨.low, BitVec.ofNat 64 (ofBytes data)⟩)
    else if a = R.MB_RESP_HEAD m then (true, s.mbRegWrite m 0x10 ⟨.low, BitVec.ofNat 64 (ofBytes data)⟩)
    else (true, s.store a data)
  | none => (false, s.reject R.MBX_REJECTS (a % 0x10000))

end Sys2Proof.Machine
end

