-- ==== Sys2Proof/Machine/PwrOps.lean ====
section
/-!
DEFINITION. Operating points and the reduction ladder, the entry handshake and its participants, what PARK and DEEP keep, and
clock references (R449 to R475, 16_power.md).
-/

namespace Sys2Proof.Machine

/-! ### Operating points and the ladder (R462 to R466) -/

/-- FABRIC_CLK of an operating point in MHz (the operating points table). -/
def oppMhz (p : Nat) : Nat := [400, 550, 700, 850, 1000, 1150, 1300, 1500].getD p 1500

def State.setLoops (s : State) (l : LoopSt) : State := { s with loops := l }

/-- The voltage-frequency sequencer starts its next step, one point towards OPP_EFF, where none is in progress (R463). -/
def State.vfNext (s : State) : State :=
  let eff := s.rd F.PWR_STATUS_OPP_EFF
  if s.loops.step.isSome ∨ s.loops.opp = eff then s
  else s.setLoops { s.loops with step := some (if s.loops.opp < eff then s.loops.opp + 1 else s.loops.opp - 1) }

/-- CLK_FREQ shows the clocks in force: 0 for a stopped one. -/
def State.showFreq (s : State) : State :=
  let run := s.modState = stRun ∨ s.modState = stSafe
  let div := if s.clk.dst.isSome then 4 else 1
  let s := s.wr F.CLK_FREQ_FABRIC_MHZ (if run then oppMhz s.loops.opp / div else 0)
  let s := s.wr F.CLK_FREQ_AE_MHZ (if run then (1200 - 300 * s.rd F.PWR_OPP_AE_LEVEL) / div else 0)
  let s := s.wr F.CLK_FREQ_CPU_MHZ (if run then (2400 - 600 * s.rd F.PWR_OPP_CPU_LEVEL) / div else 0)
  s.wr F.CLK_FREQ_FRAME_MHZ (if s.modState = stDeep then 0 else 1000 / div)

/-- PL_RATE.GAP of a ladder step (R240, R465). -/
def ladderGap (step : Nat) : Nat := if step < 8 then 0 else if step = 8 then 8 else if step = 9 then 24 else 56

/-- LIMIT_STEP, OPP_EFF and the ladder follow the request and the two loops (R464); `cause` is the loop that moved. -/
def State.oppEval (s : State) (cause : Nat) : State :=
  let old := s.rd F.PWR_STATUS_LIMIT_STEP
  let limit := max (s.rd F.PWR_OPP_CAP_STEP) (s.rd F.PWR_OPP_THERMAL_STEP)
  let eff := min (s.rd F.PWR_OPP_OPP_REQ) (7 - min limit 7)
  let s := (s.wr F.PWR_STATUS_LIMIT_STEP limit).wr F.PWR_STATUS_OVERRIDE_ACTIVE (decide (0 < limit)).toNat
  let s := (s.wr F.PWR_STATUS_OPP_EFF eff).wr F.PWR_OPP_OPP_EFF eff
  let s := if old = 0 ∧ 0 < limit then (s.bump F.PWR_OVERRIDE_OVERRIDES).wr F.PWR_OVERRIDE_LAST_CAUSE cause else s
  let gap := ladderGap limit
  let s := if s.rd F.PWR_OPP_PLANE_GAP = gap then s
    else (List.range 32).foldl (fun (s : State) p => if s.present (0x2000 + p) then s.wr (F.PL_RATE_GAP p) gap else s)
      (s.wr F.PWR_OPP_PLANE_GAP gap)
  let s := s.wr F.PWR_OPP_AE_LEVEL (if limit < 11 then 0 else if limit = 11 then 1 else 2)
  let s := s.wr F.PWR_OPP_CPU_LEVEL (if limit < 13 then 0 else if limit = 13 then 1 else 2)
  (s.wr F.PWR_OPP_MEM_HELD (decide (limit = 15)).toNat).showFreq.vfNext

/-- The end of a voltage-frequency step: FABRIC_CLK runs at the new point, and the next step starts (R463). -/
def State.vfDone (s : State) : State :=
  match s.loops.step with
  | some p => (s.setLoops { s.loops with opp := p, step := none }).showFreq.vfNext
  | none => s

/-- The end of a 50 µs window of the cap loop with its measured mean power in mW (R465, R466, R468). -/
def State.capWindow (s : State) (mw : Nat) : State :=
  let cap := s.rd F.PWR_CAP_CAP * 125
  let hyst := s.rd F.PWR_CAP_HYST * 125
  let step := s.rd F.PWR_OPP_CAP_STEP
  let s := s.wr F.PWR_MEAS_POWER_MW (min mw (2 ^ 20 - 1))
  let s := match s.loops.raised with
    | some before => s.setLoops { s.loops with falls := (before - mw) :: s.loops.falls, raised := none }
    | none => s
  let l := s.loops
  if cap ≤ mw then
    if step < 15 then
      ((s.setLoops { l with raised := some mw, calm := 0 }).wr F.PWR_OPP_CAP_STEP (step + 1)).oppEval 1
    else
      let s := s.setLoops { l with calm := 0 }
      if s.on F.PWR_STATUS_CAP_UNREACHABLE then s
      else (s.wr F.PWR_STATUS_CAP_UNREACHABLE 1).event 0xE000 0x8005 (s.rd F.PWR_CAP_CAP) [mw]
  else
    let s := s.wr F.PWR_STATUS_CAP_UNREACHABLE 0
    if step = 0 then s
    else if mw + l.falls.headD 0 + hyst ≤ cap then
      if 20 ≤ l.calm + 1 then
        ((s.setLoops { l with falls := l.falls.tail, calm := 0 }).wr F.PWR_OPP_CAP_STEP (step - 1)).oppEval 1
      else s.setLoops { l with calm := l.calm + 1 }
    else s.setLoops { l with calm := 0 }

/-- A millisecond of the thermal loop with the hottest junction reading in 1/8 °C (R469). -/
def State.thermalTick (s : State) (t : Int) : State :=
  let s := s.wr F.PWR_MEAS_TJ_MAX (satI 12 t)
  let step := s.rd F.PWR_OPP_THERMAL_STEP
  let hot := s.rdS F.PWR_LIMITS_THROTTLE_C * 8
  let cold := hot - (s.rd F.PWR_LIMITS_THERMAL_HYST * 8 : Nat)
  let l := s.loops
  let s := if hot ≤ t then
      ((s.setLoops { l with cool := 0 }).wr F.PWR_OPP_THERMAL_STEP (min 15 (step + 1))).oppEval 2
    else if t < cold ∧ step ≠ 0 then
      if 10 ≤ l.cool + 1 then ((s.setLoops { l with cool := 0 }).wr F.PWR_OPP_THERMAL_STEP (step - 1)).oppEval 2
      else s.setLoops { l with cool := l.cool + 1 }
    else s.setLoops { l with cool := 0 }
  if s.rdS F.PWR_LIMITS_CRIT_C * 8 ≤ t then s.safeDecide 11 0x14 else s

/-! ### The entry handshake (R451 to R454) -/

/-- Whether an image command is in execution at some mailbox. -/
def State.imageBusy (s : State) : Bool :=
  s.on F.CFG_STATUS_SESSION ||
    (List.range 16).any (fun m => s.on (F.MB_EXEC_ACTIVE m) && decide (s.rd (F.MB_EXEC_OPCODE m) / 16 = 7))

/-- The active trajectory is a chosen one whose last sample lies ahead. -/
def State.ccBusyTraj (s : State) : Bool :=
  decide (s.rd F.CC_TRAJ_STATE_STAGED = trPending) ||
    match s.cc.active with
    | some t => !t.fallback && decide (s.ts64 t.tb < t.t0 + (t.q.length / max 1 t.joints - 1) * t.dt)
    | none => false

def voteReply (v : Nat) : Nat := min v 2

/-- The replies of the participants in table order: refuser code, and 0 ALLOW, 1 DELAY, 2 REFUSE (R452). DRAM requests are
made at one instant in this model, so that the controllers and movers hold none (log entry 38). -/
def State.entryReplies (s : State) : List (Nat × Nat) :=
  ((List.range 8).filter (fun p => s.on (F.PART_STATE_STATE p))).map (fun p =>
      (0xF110 + p, voteReply (bits (s.rd F.PWR_VOTE_PART) (2 * p) 2))) ++
    [(0xA000, voteReply (s.rd F.PWR_VOTE_CASTLE)), (0xF100, voteReply (s.rd F.PWR_VOTE_HOST)),
      (0xF000, if s.imageBusy then 2 else 0), (dynUnit, if s.present dynUnit && s.on F.DYN_CTRL_RUN then 2 else 0),
      (ccUnit, if s.ccBusyTraj then 2 else 0)] ++
    (s.unitList.filter (fun u => u / 0x1000 ≤ 3)).map (fun u =>
      let i := u % 0x1000
      let st := s.ustate u
      let jobs := if u / 0x1000 = 2 then (decide ((s.plane i).queue ≠ []) || (s.plane i).run.isSome || decide (shLoading < s.shell i))
        else if u / 0x1000 = 3 then (decide ((s.eng i).queue ≠ []) || (s.eng i).run.isSome || (s.eng i).yielded.isSome || decide ((s.eng i).help ≠ []))
        else decide ((s.sqr i).txq ≠ [])
      (u, if st = US.busy ∨ st = US.resting ∨ jobs = true then 1 else 0)) ++
    [(0x6000, if s.aln.build.isSome then 1 else 0), (0x7000, if s.vox.build.isSome then 1 else 0)]

/-- A REFUSE abandons the handshake at once (R453). -/
def State.entryRefusals (s : State) : State :=
  if s.pwPhase = pwHandshake then
    match s.entryReplies.find? (fun e => e.2 = 2) with
    | some (code, _) => s.abandonEntry code false
    | none => s
  else s

/-- An entry starts in HANDSHAKE; the participants reply from its first cycle on (R452). -/
def State.entryStart (s : State) (target : Nat) (mb : Nat) : State :=
  let s := ((s.wr F.MODULE_STATE_TARGET target).wr F.MODULE_STATE_IN_TRANSITION 1).wr F.PWR_STATUS_PHASE pwHandshake
  let s : State := { s with pwr := { s.pwr with target := target, mb := some mb, result := none, entryAt := s.now } }
  s.entryRefusals

/-- DELAY_MAX_MS has run: the first participant still delaying abandons the entry (R453). -/
def State.entryDelayed (s : State) : State :=
  if s.pwPhase = pwHandshake then
    match s.entryReplies.find? (fun e => e.2 = 1) with
    | some (code, _) => s.abandonEntry code true
    | none => s
  else s

/-- The save list's size and CRC, which the spec does not state. -/
def State.saveWords (s : State) : Nat := Config.openFn 77 [s.rd F.PWR_SUPPLY_VIN_LOSSES] % 2 ^ 18
def State.saveCrc (s : State) : Nat := Config.openFn 78 (s.csr.map (fun e => e.2.toNat)) % 2 ^ 32

/-- Every participant allows: the entry commits (R454); host cores into reset; for DEEP the save list is written (R459). -/
def State.entryCommit (s : State) : State :=
  if s.pwPhase = pwHandshake ∧ s.entryReplies.all (fun e => e.2 = 0) = true then
    let s : State := { s with pwr := { s.pwr with result := some St.ok, entryAt := s.now } }
    let s := (s.wr F.PWR_STATUS_PHASE pwCommitted).coresHold (List.range 12)
    if s.pwr.target = stDeep then
      let s := ((s.wr F.PWR_SAVE_CRC s.saveCrc).wr F.PWR_SAVE_WORDS s.saveWords).wr F.PWR_SAVE_VALID 1
      (s.wr F.PWR_SAVE_CRC_FAIL 0).wr F.PWR_STATUS_PHASE pwSaving
    else s
  else s

/-! ### What a state keeps (R450, R459) -/

/-- Fields whose reset is "image" and whose access is RO: the PART registers but for the schedule, and a plane's TCO and TCG. -/
def imageRo (addr : Nat) : Nat :=
  let b := addr / 0x10000
  let q := addr % 0x10000
  if b = 0x6000000F then
    if 0x100 ≤ q ∧ q < 0x500 then
      (let o := (q - 0x100) % 0x80
       if o = 0 then 0xFF03 else if o = 8 then 0xFFFF else if o < 0x30 then 0xFFFFFFFFFFFFFFFF
       else if o = 0x38 then 0xFFFFFFFFFFFFF else if o = 0x40 then 0xFFFFFFFF0000001F else if o = 0x48 then 0xFFFFFFFFFFFF
       else if o = 0x30 ∨ o = 0x50 then 0xFFFFFFFFFFFFFFFF else 0)
    else if 0x800 ≤ q ∧ q < 0xA00 then 0x3FF else 0
  else if 0x60000050 ≤ b ∧ b < 0x60000070 ∧ 0x1000 ≤ q ∧ q < 0x3100 then 0x00FFFFFF00000000
  else 0

/-- Registers that lose nothing with the dies: the blocks GLOBAL, SAFETY, POWER and CLOCK of the always-on domain, and those set
from fuses. -/
def alwaysOn (addr : Nat) : Bool :=
  let b := addr / 0x10000
  decide (addr = R.CFG_OTP) || decide (addr = R.MC_STATUS) || decide (b = 0x60000000) || decide (b = 0x6000000A) || decide (b = 0x6000000B) || decide (b = 0x6000000C)

/-- The bits of a register in the save list: RW and RWL fields, fields of reset "image", and the block's LOCK bit; not
PL_FORCE_j, and of PL_TRIM_j what the book gives (R459). -/
def savedMask (addr : Nat) : Nat :=
  if R.PL_FORCE 0 0 ≤ addr ∧ 0x60000050 ≤ addr / 0x10000 ∧ addr / 0x10000 < 0x60000070 ∧ R.PL_FORCE 0 0 % 0x10000 ≤ addr % 0x10000 then 0
  else
    (match regSpec addr with
    | some r => if addr / 0x10000 = 0x6000000B then 0 else r.mask .rw ||| r.mask .rwl
    | none => 0) ||| imageRo addr ||| (if lockReg addr = some addr then 1 else 0)

/-- The register file with the blocks that lose power at their reset values, but for the bits kept. -/
def dropCsr (keep : Nat → Nat) (m : Map Word) : Map Word :=
  m.filterMap (fun e =>
    if alwaysOn e.1 then some e
    else
      let k := BitVec.ofNat 64 (keep e.1)
      let v := (e.2 &&& k) ||| (resetWord e.1 &&& ~~~k)
      if v = resetWord e.1 then none else some (e.1, v))

/-- Memory without an address range. -/
def dropMem (lo hi : Nat) (m : List Host.Cell) : List Host.Cell := m.filter (fun e => !(decide (lo ≤ e.1) && decide (e.1 < hi)))

/-- A range whose content is lost reads as unrelated bytes from then on. -/
def State.loseRange (s : State) (lo hi : Nat) : State :=
  { s with mem := dropMem lo hi s.mem, rekey := ⟨lo, hi, s.freeCtr⟩ :: s.rekey, freeCtr := s.freeCtr + 1 }

/-- What the frame die and the tensor die lose with their supplies: unit content, timebases, queues, ports, message traffic,
links, mailbox positions and frame-die SRAM; each register keeps the bits `keep` names. Units read OFF, with the epoch that
gives them (log entry 39). -/
def State.diesOff (s : State) (keep : Nat → Nat) : State :=
  let s := s.unitList.foldl (fun (s : State) u => if s.ustate u = US.off then s else (s.dropHeld u).unitEnter u US.off) s
  let marks := s.unitList.map (fun u => (u, s.epochOf u))
  let s : State := { s with
    csr := dropCsr keep s.csr, net := [], iq := [], half := [], badWords := [], irq := 0, imsic := [],
    time := ⟨[], [], [], [], [], [], [], [], [], [], [], [], []⟩, port := ⟨[], [], [], 0⟩,
    mc := ⟨[], s.mc.scrub⟩, sched := ⟨false, 0, [], 0, 0, []⟩, rfx := ⟨[], [], [], 0, [], [], [], []⟩, mbx := ⟨[], [], 2⟩,
    cores := { s.cores with cmp := [], timer := 0 },
    pcie := { s.pcie with training := false }, link := ⟨[], [], false, [], [], []⟩ }
  let s := marks.foldl (fun (s : State) e =>
    let s := s.setUstate e.1 US.off
    match epochFld e.1 with
    | some f => s.wr f e.2
    | none => s) s
  let s := s.wr F.PCIE_STATUS_ROOT_PORT s.boot.rootPort.toNat
  (s.loseRange sramBase (sramBase + sramSize)).loseRange (mbxWin 0) (mbxWin 16)

/-! ### Entering (R449, R450) -/

/-- A unit on an entry into PARK: RETAINED from READY, BUSY and QUARANTINED; the alignment and voxel engines go OFF. -/
def State.parkUnit (s : State) (u : Nat) : State :=
  let st := s.ustate u
  if s.serving u = false ∧ st ≠ US.quarantined then s
  else
    let off := decide (u / 0x1000 = 6) || decide (u / 0x1000 = 7)
    let s : State := { s with pwr := { s.pwr with
      quar := if st = US.quarantined then s.pwr.quar ++ [u] else s.pwr.quar,
      down := if off then s.pwr.down ++ [u] else s.pwr.down } }
    s.unitEnter u (if off then US.off else US.retained)

/-- The entry ends in PARK or DEEP; supervision is disarmed (R383); a held wake starts at once (R455). -/
def State.entryEnd (s : State) : State :=
  if s.entering then
    let t := s.pwr.target
    let from_ := s.modState
    let s := s.disarmAll false
    let s := if t = stPark then s.unitList.foldl State.parkUnit s
      else
        let q := s.unitList.filter (fun u => s.ustate u = US.quarantined)
        let s : State := { s with pwr := { s.pwr with quar := if from_ = stPark then s.pwr.quar else q } }
        let s := (s.diesOff savedMask).setReg R.SCRATCH 0
        if s.on F.PCIE_STATUS_LINK_UP then s.wr F.PCIE_STATUS_LINK_UP 0 else s
    let s := (s.setModState t (if s.pwr.mb = some 1 then 0x02 else 0x01)).wr F.PWR_STATUS_PHASE pwSteady
    let s := (s.wr F.PWR_TIMES_LAST_ENTRY_US (min ((s.now - s.pwr.entryAt) / 1000) (2 ^ 32 - 1))).showFreq
    match s.pwr.held with
    | some (c, d) => s.takeWake c d
    | none => s
  else s

/-! ### Waking (R458) -/

/-- The cores of every ACTIVE partition start at an address. -/
def State.coresResume (s : State) : State :=
  (List.range 8).foldl (fun (s : State) p => if s.rd (F.PART_STATE_STATE p) = 2 then s.coresStart p (s.rd F.PWR_RESUME_ADDR) else s) s

/-- Content of the retention domain lost in PARK: its units come up as from OFF, each named by an event record (R461). -/
def State.retentionLost (s : State) : State :=
  if s.pwr.lost then
    let s := s.unitList.foldl (fun (s : State) u =>
      if u / 0x1000 ≤ 3 ∧ s.ustate u = US.retained then
        ((((s.unitEnter u US.off).unitEnter u US.resetting).unitResetDone u).event u 0x6006 u [])
      else s) s
    { s with pwr := { s.pwr with lost := false } }
  else s

/-- The units on a wake: from PARK, RETAINED units return and those PARK switched off pass through RESETTING; from DEEP every
unit that is OFF passes through RESETTING; a quarantined one reads QUARANTINED again (R354, R458). -/
def State.wakeUnits (s : State) (deep : Bool) : State :=
  let s := if deep then s else s.retentionLost
  let down := s.pwr.down
  let s := s.unitList.foldl (fun (s : State) u =>
    let st := s.ustate u
    if (deep ∧ st = US.off) ∨ (st = US.off ∧ u ∈ down) then (s.unitEnter u US.resetting).unitResetDone u
    else if st = US.retained then s.unitReturn u
    else s) s
  let s := s.pwr.quar.foldl (fun (s : State) u => s.setUstate u US.quarantined) s
  { s with pwr := { s.pwr with quar := [], down := [] } }

/-- The end of a wake: MODULE_STATE RUN with the cause, the castle interrupt and MSI-X vector 2, the measured time, the answer of
a POWER_STATE that waits for it, and a safe-state decision that waits for it (R456, R458). -/
def State.wakeEnd (s : State) (cause : Nat) : State :=
  let s := (s.setModState stRun cause).wr F.PWR_STATUS_PHASE pwSteady
  let s := s.setLoops { s.loops with opp := s.rd F.PWR_STATUS_OPP_EFF, step := none }
  let s := (s.wr F.PWR_TIMES_LAST_WAKE_US (min ((s.now - s.pwr.wakeAt) / 1000) (2 ^ 32 - 1))).showFreq
  let s := (s.raiseCastle).raiseMsix 2
  let next := s.pwr.safeNext
  let s : State := { s with pwr := { s.pwr with result := some St.ok, safeNext := none } }
  match next with
  | some (c, d) => s.decideNow c d
  | none => s

/-! ### Clock references (R471 to R474) -/

def State.refQual (s : State) (r : Nat) : Bool := if r = 0 then s.on F.CLK_STATUS_A_QUALIFIED else s.on F.CLK_STATUS_B_QUALIFIED
def State.setRefQual (s : State) (r : Nat) (b : Bool) : State :=
  if r = 0 then s.wr F.CLK_STATUS_A_QUALIFIED b.toNat else s.wr F.CLK_STATUS_B_QUALIFIED b.toNat

/-- A switch to a reference starts: the domains of the divider ramp run at a quarter of their clocks until it ends (log entry
40). -/
def State.clkStart (s : State) (k : Nat) (revert : Bool) : State :=
  if s.clk.dst.isSome then s
  else ({ s.wr F.CLK_STATUS_SWITCHING 1 with clk := ⟨some k, revert⟩ } : State).showFreq

/-- What the module does when its active reference is not qualified: the other one if it is, with AUTO set; else hold over. -/
def State.clkFall (s : State) : State :=
  let other := 1 - s.rd F.CLK_STATUS_ACTIVE
  if s.refQual other && s.on F.CLK_CFG_AUTO then s.clkStart other false
  else if s.on F.CLK_STATUS_ON_INTERNAL then s else s.wr F.CLK_STATUS_HOLDOVER 1

/-- A reference is lost (R471). -/
def State.refLost (s : State) (r : Nat) : State :=
  let s := (s.bump (if r = 0 then F.CLK_COUNTS_LOSSES_A else F.CLK_COUNTS_LOSSES_B)).setRefQual r false
  if s.rd F.CLK_STATUS_ACTIVE = r then s.clkFall else s

/-- A reference qualifies (R473): it ends a holdover of its own, is taken from the oscillator or from a lost reference, and a
revertive module switches back to PRIMARY. -/
def State.refQualified (s : State) (r : Nat) : State :=
  let s := (s.setRefQual r true).wr F.CLK_STATUS_QUAL_ELAPSED_MS (max 10 (s.rd F.CLK_CFG_QUAL_MS))
  let act := s.rd F.CLK_STATUS_ACTIVE
  if s.on F.CLK_STATUS_ON_INTERNAL then s.clkStart r false
  else if act = r then s.wr F.CLK_STATUS_HOLDOVER 0
  else if s.on F.CLK_STATUS_HOLDOVER then (if s.on F.CLK_CFG_AUTO then s.clkStart r false else s)
  else if s.on F.CLK_CFG_REVERTIVE && decide (s.rd F.CLK_CFG_PRIMARY = r) then s.clkStart r true
  else s

/-- A switch ends (R472): the module runs on its new reference; one lost meanwhile is left again. -/
def State.clkDone (s : State) : State :=
  match s.clk.dst with
  | none => s
  | some r =>
    let s := ((s.wr F.CLK_STATUS_ACTIVE r).wr F.CLK_STATUS_SWITCHING 0).bump F.CLK_COUNTS_SWITCHES
    let s := if s.clk.revert then s.bump F.CLK_COUNTS_REVERTS else s
    let s := (s.wr F.CLK_STATUS_HOLDOVER 0).wr F.CLK_STATUS_ON_INTERNAL 0
    let s := ({ s with clk := ⟨none, false⟩ } : State).showFreq
    if s.refQual r then s else s.clkFall

/-- A write of CLK_CTRL: SWITCH to the other reference when that one is qualified, else ignored and counted (R473). -/
def State.clkCtrl (s : State) (d : WData) : State :=
  let s := if bit d.bits1 1 then
      (if s.refQual (1 - s.rd F.CLK_STATUS_ACTIVE) && s.clk.dst.isNone then s.clkStart (1 - s.rd F.CLK_STATUS_ACTIVE) false
       else s.reject R.CLK_REJECTS 0)
    else s
  if bit d.bits1 0 then s.wr F.CLK_CTRL_LOCK 1 else s

/-! ### The POWER and CLOCK blocks (R482, R483) -/

/-- The range of the cap: the variant's lowest and highest, in 1/8 W (R8, the variant table). -/
def State.capOk (s : State) (cap : Nat) : Bool :=
  let (lo, hi) := match s.rd F.IDENT_PART with
    | 0x8800 => (45, 160)
    | 0x8640 => (45, 120)
    | 0x8420 => (35, 80)
    | _ => (45, 160)
  decide (lo * 8 ≤ cap) && decide (cap ≤ hi * 8)

/-- A write of PWR_VOTE: the host and the castle the whole register, a partition its own two bits (R482). -/
def State.voteWrite (s : State) (r : Req) (d : WData) : State :=
  let v := d.over (s.reg R.PWR_VOTE)
  if r.trusted then (s.setReg R.PWR_VOTE (v % 2 ^ 20)).entryRefusals
  else match s.reqPart r with
    | some p => (s.setReg R.PWR_VOTE (insField (s.reg R.PWR_VOTE) (2 * p) 2 (bits v (2 * p) 2))).entryRefusals
    | none => s.reject R.PWR_REJECTS 0x38

/-- A write of the POWER block at a block offset. -/
def State.pwrWrite (s : State) (r : Req) (off : Nat) (d : WData) : State :=
  let a := R.PWR_CTRL + off
  if off = 0x38 then s.voteWrite r d
  else if !r.trusted then s.reject R.PWR_REJECTS off
  else if off = 0 then
    let s := if bit d.bits1 1 then (if r = .castle then s.wake 0x02 0 else s.reject R.PWR_REJECTS 0) else s
    if bit d.bits1 0 then s.wr F.PWR_CTRL_LOCK 1 else s
  else if off = 0x10 then
    let v := d.over (s.reg a)
    if s.capOk (v % 2 ^ 16) then s.writeReg a d else s.reject R.PWR_REJECTS off
  else if off = 0x18 then (s.writeReg a d).oppEval 0
  else s.writeReg a d

/-- A write of the CLOCK block at a block offset. -/
def State.clkWrite (s : State) (r : Req) (off : Nat) (d : WData) : State :=
  if !r.trusted then s.reject R.CLK_REJECTS off
  else if off = 0 then s.clkCtrl d
  else s.writeReg (R.CLK_CTRL + off) d

/-! ### Supplies (R476 to R480) -/

/-- The shut-down of a VIN loss ends: everything but the always-on domain is off (R476 step 5). -/
def State.shutDone (s : State) : State :=
  if s.pwPhase = pwShutdown then (s.wr F.PWR_STATUS_PHASE pwSteady).wr F.PWR_STATUS_SUPPLY_LOSS 1 else s

/-- VIN is lost (R476, R477): SAFE_HOLD with one round of hold frames; a V-F step is abandoned at the OPP_0 frequency; both
dies and DRAM lose their content, and the module reads DEEP. Not a safe-state decision. -/
def State.vinLoss (s : State) (mv : Nat) : State :=
  if s.boot.phase ≠ 3 ∨ s.pwPhase = pwShutdown ∨ s.on F.PWR_STATUS_SUPPLY_LOSS = true then s
  else
    let step := s.loops.step.isSome
    let s := ((s.bump F.PWR_SUPPLY_VIN_LOSSES).wr F.PWR_MEAS_VIN_MV mv).event 0xE000 0x8002 mv [step.toNat]
    let s := s.assertHold.holdFill
    let s := if step then s.bump F.PWR_SUPPLY_STEP_ABANDONS else s
    let quar := s.pwr.quar ++ s.unitList.filter (fun u => s.ustate u = US.quarantined)
    let s := ((s.coresHold (List.range 12)).disarmAll false).diesOff (fun _ => 0)
    let s : State := { s with
      mem := [], rekey := [], poison := [], loops := ⟨0, none, [], none, 0, 0⟩, clk := ⟨none, false⟩,
      pwr := { s.pwr with held := none, safeNext := none, mb := none, result := none, quar := quar, down := [], lost := false, shutAt := s.now } }
    let s := ((s.setReg R.SCRATCH 0).wr F.PWR_STATUS_WAKE_HELD 0).setModState stDeep (if step then 0x11 else 0x10)
    (s.wr F.PWR_STATUS_PHASE pwShutdown).showFreq

/-- Every domain off: OTP and the NOR keep their contents, the state after reset stands for everything else until the next
power-up, with every unit OFF (R476 step 6, R488). -/
def State.allOff (s : State) : State :=
  let t : State := { State.reset with
    pending := s.pending, now := s.now, freeCtr := s.freeCtr, img := ⟨s.img.nor, [], [], []⟩, castle := { State.reset.castle with running := false },
    boot := { s.boot with phase := 0, cause := 0 }, pwr := { State.reset.pwr with vaon := s.pwr.vaon } }
  let t := (t.setReg R.CFG_OTP (s.reg R.CFG_OTP)).setReg R.SAFE_STATUS 0
  let t := t.unitList.foldl (fun (t : State) u => t.setUstate u US.off) t
  (t.setModState stDeep 0).showFreq

/-! ### Clock domains (R475) -/

/-- The units of a clock domain. -/
def domainUnits (d : Nat) : List Nat :=
  if d < 64 then [0x1000 + d]
  else if 65 ≤ d ∧ d < 97 then [0x2000 + (d - 65)]
  else if 97 ≤ d ∧ d < 105 then [0x3000 + (d - 97)]
  else if d = 105 then (List.range 8).map (0xB000 + ·)
  else if d = 106 then [0x6000, 0x7000, 0x8000, 0x8001] ++ (List.range 4).map (0xB100 + ·)
  else if d = 107 then (List.range 12).map (0xD000 + ·)
  else if d = 108 then [0x9000]
  else []

/-- A unit whose clock failed enters FAULT and its port answers what it holds (R20, R475). -/
def State.clockFault (s : State) (u : Nat) : State :=
  let c := u / 0x1000
  let i := u % 0x1000
  if c = 1 then (((s.wr (F.SQ_PC_PC i) (s.sqr i).pc).sqLeave i US.fault).sqAbandon i).wr (F.SQ_STATE_RUN i) runHalted
  else if c = 2 then
    let s := (s.plLeave i US.fault).setShell i shIdle
    s.setPl i { s.plane i with cal := none, wantFull := false, wantOffset := false, openWait := false }
  else if c = 3 then s.aeLeave i US.fault
  else if u = ccUnit then (s.setUstate u US.fault).ccDrop St.unitReset
  else if u = dynUnit then (s.setUstate u US.fault).dynDrop St.unitReset
  else s.setUstate u US.fault

/-- A domain monitor finds its clock stopped or off frequency: its pins float, its units enter FAULT, and domains 64 and 105 to
109 make the safe-state decision, 110 and 111 a castle fault. -/
def State.domainFail (s : State) (d : Nat) : State :=
  if s.clkFailed d ∨ (d < 105 ∧ (domainUnits d).any s.present = false ∧ d ≠ 64) then s
  else
    let s := if d < 64 then s.wrBit F.CLK_FAILED_LO_FAILED d true else s.wrBit F.CLK_FAILED_HI_FAILED (d - 64) true
    let s := (domainUnits d).foldl (fun (s : State) u =>
      if s.present u ∧ s.ustate u ≠ US.off ∧ s.ustate u ≠ US.quarantined then (s.dropHeld u).clockFault u else s) s
    let s := if d = 107 then s.coresHold (List.range 12) else s
    let s := s.event 0xE000 0x8006 d []
    if d = 64 ∨ (105 ≤ d ∧ d < 110) then s.safeDecide 11 0x16
    else if 110 ≤ d then s.castleFault 2
    else s

/-- The level of PULSE_OUT_n at its ball: none for high impedance, while domain 109 has failed. -/
def State.pulsePin (s : State) (n : Nat) : Option Bool := if s.clkFailed 109 then none else some (s.pulseLevel n)

end Sys2Proof.Machine
end

