-- ==== Sys2Proof/Machine/PartOps.lean ====
section
/-!
DEFINITION. Partitions: their ranges, units, paths and shares, the time-window schedule, time-shared squares, and the partition
reset (R359 to R367, 13_mailbox.md).
-/

namespace Sys2Proof.Machine

/-- PART_p_STATE.STATE codes. -/
def ptFree : Nat := 0
def ptConfiguring : Nat := 1
def ptActive : Nat := 2
def ptResetting : Nat := 3

def State.partSt (s : State) (p : Nat) : Nat := s.rd (F.PART_STATE_STATE p)

/-! ### Assignment (R360) -/

/-- The field and bit by which the PART block assigns a unit or instance. -/
def ownFld (p u : Nat) : Option (Fld × Nat) :=
  let c := u / 0x1000
  let i := u % 0x1000
  if c = 1 then some (F.PART_SQUARES_SQUARES p, i)
  else if c = 2 then some (F.PART_BOARD_PLANES p, i)
  else if c = 3 then some (F.PART_BOARD_ENGINES p, i)
  else if c = 0xD then some (F.PART_BOARD_CORES p, i)
  else if u = 0x6000 then some (F.PART_FRAME_UNITS p, 0)
  else if u = 0x7000 then some (F.PART_FRAME_UNITS p, 1)
  else if u = 0x8000 then some (F.PART_FRAME_UNITS p, 2)
  else if u = 0x8001 then some (F.PART_FRAME_UNITS p, 3)
  else if u = 0x9000 then some (F.PART_FRAME_UNITS p, 4)
  else if c = 4 then some (F.PART_FRAME_SLOTS p, i)
  else if c = 5 then
    let k := i % 0x100
    match i / 0x100 with
    | 1 => some (F.PART_TIME_TB p, k)
    | 2 => some (F.PART_TIME_PH p, k)
    | 3 => some (F.PART_PE_EVENTS p, k)
    | 4 => some (F.PART_TIME_PULSE_OUT p, k)
    | 5 => some (F.PART_TIME_CAPTURE_IN p, k)
    | _ => none
  else none

def State.setOwner (s : State) (p u : Nat) (b : Bool) : State :=
  match ownFld p u with
  | some (f, i) => s.wrBit f i b
  | none => s

/-- The units and instances five words of PART_ASSIGN name. -/
def assignNames (sq board frame time pe : Nat) : List Nat :=
  let l (v lo n base : Nat) : List Nat := (bitList (bits v lo n) n).map (base + ·)
  l sq 0 64 0x1000 ++ l board 0 32 0x2000 ++ l board 32 8 0x3000 ++ l board 40 12 0xD000 ++
    (bitList (bits frame 0 5) 5).map (fun i => [0x6000, 0x7000, 0x8000, 0x8001, 0x9000].getD i 0) ++ l frame 32 32 0x4000 ++
    l time 0 8 0x5100 ++ l time 8 8 0x5200 ++ l pe 0 64 0x5300 ++ l time 16 16 0x5400 ++ l time 32 16 0x5500

/-- The units and instances of a partition. -/
def State.partNames (s : State) (p : Nat) : List Nat :=
  assignNames (s.reg (R.PART_SQUARES p)) (s.reg (R.PART_BOARD p)) (s.reg (R.PART_FRAME p)) (s.reg (R.PART_TIME p)) (s.reg (R.PART_PE p))

/-- Enters RESETTING where the transitions of a unit's state allow it: not from ABSENT, OFF or QUARANTINED, nor again while
RESETTING (R354). -/
def State.unitToReset (s : State) (u : Nat) : State :=
  let st := s.ustate u
  if hasState u && decide (st ≠ US.absent ∧ st ≠ US.off ∧ st ≠ US.quarantined ∧ st ≠ US.resetting) then s.unitGo u US.resetting else s

/-- A square is no longer time-shared: its first partition's context is the square's. -/
def State.unshare (s : State) (n : Nat) : State :=
  let s := if s.secondRuns n then s.swapCtx n else s
  (s.setShareCtx n share0).setReg (R.PART_SQ_SHARE n) 0

/-- A unit or instance changes hands: through RESETTING, a core held in reset, an instance without a reset unchanged (R360). -/
def State.handOver (s : State) (p u : Nat) (give : Bool) : State :=
  let s := s.unitToReset u
  let s := if u / 0x1000 = 0xD then s.coresHold [u % 0x1000] else s
  let s := if u / 0x1000 = 1 ∧ s.shared (u % 0x1000) then s.unshare (u % 0x1000) else s
  s.setOwner p u give

/-! ### Ranges and shares (R359, R362) -/

def State.setRange (s : State) (p k base size : Nat) : State :=
  (s.wr (F.PART_MEM_BASE_2M p k) base).wr (F.PART_MEM_SIZE_2M p k) size

/-- A range of PART_CREATE outside DRAM, in another partition's range or in a cache table. -/
def State.rangeBad (s : State) (p base size : Nat) : Bool :=
  let e := (base * 0x200000, (base + size) * 0x200000)
  decide (size ≠ 0) && (decide (s.dramEnd < e.2) ||
    (List.range 8).any (fun q => decide (q ≠ p) && (List.range 4).any (fun k =>
      let b := s.rd (F.PART_MEM_BASE_2M q k) * 0x200000
      meets e (b, b + s.rd (F.PART_MEM_SIZE_2M q k) * 0x200000))) ||
    (s.on F.KV_CTRL_ENABLE && s.kvTables.any (meets e)))

/-- PART_CREATE on a FREE partition: its ranges, with a new key where encryption is on (R424); CONFIGURING, mailbox enabled. -/
def State.partCreate (s : State) (p : Nat) (ranges : List Nat) : State :=
  let s := ranges.zipIdx.foldl (fun (s : State) e => s.setRange p e.2 (e.1 % 2 ^ 32) (e.1 / 2 ^ 32)) s
  let s := if bit (s.rd F.MC_CFG_ENC_EN) p then
      ranges.foldl (fun (s : State) e =>
        if e / 2 ^ 32 = 0 then s
        else s.loseRange (e % 2 ^ 32 * 0x200000) ((e % 2 ^ 32 + e / 2 ^ 32) * 0x200000)) s
    else s
  (s.wr (F.PART_STATE_STATE p) ptConfiguring).wr (F.MB_CTRL_ENABLE (p + 2)) 1

/-- PART_SHARE_FREE: 248 less the guaranteed shares. -/
def State.shareFree (s : State) : State :=
  s.wr F.PART_SHARE_FREE_FREE (248 - ((List.range 8).map (fun p => s.rd (F.PART_SHARE_GUARANTEED p))).sum)

def State.setShare (s : State) (p g c : Nat) : State :=
  ((s.wr (F.PART_SHARE_GUARANTEED p) g).wr (F.PART_SHARE_CAP p) c).shareFree

/-- The guaranteed shares of the other partitions. -/
def State.sharesBut (s : State) (p : Nat) : Nat :=
  (((List.range 8).filter (fun q => q ≠ p)).map (fun q => s.rd (F.PART_SHARE_GUARANTEED q))).sum

/-- PART_PATH: the path between two partitions, in both directions (R361). -/
def State.setPath (s : State) (p q : Nat) (opn : Bool) : State :=
  (s.wrBit (F.PART_STATE_PATHS p) q opn).wrBit (F.PART_STATE_PATHS q) p opn

/-! ### Time windows (R363, R364) -/

/-- The entries as configured: (RUN, LENGTH_NS). -/
def State.windowList (s : State) : List (Nat × Nat) :=
  (List.range (clampN 1 16 (s.rd F.PART_SCHED_CTRL_ENTRIES))).map (fun k => (s.rd (F.PART_WIN_RUN k), s.rd (F.PART_WIN_LENGTH_NS k)))

/-- The context of a time-shared square that runs in an entry: the first partition's (0), else the second's (1), else neither
(2). -/
def State.shareRuns (s : State) (n run : Nat) : Nat :=
  if bit run (s.ownerOf (sqUnit n)) then 0 else if bit run (s.rd (F.PART_SQ_SHARE_SECOND n)) then 1 else 2

/-- An entry's RUN mask takes effect on a time-shared square: a switch is due where the running context changes. -/
def State.shareEntry (s : State) (run n : Nat) : State :=
  if s.shared n then
    let k := s.shareRuns n run
    let c := s.shareCtx n
    let now := if c.idle then 2 else (s.secondRuns n).toNat
    if k = now then s.setShareCtx n { c with due := none } else (s.setShareCtx n { c with due := some k }).shareSwitch n
  else s

/-- The RUN mask of the entry in force. -/
def State.windowRun (s : State) : Nat := (s.sched.wins.getD (s.rd F.PART_SCHED_STATUS_ENTRY) (0xFF, 0)).1

/-- An entry boundary: the next entry, or at the cycle's end and after a step of the timebase a new cycle with the schedule as
configured; the first cycle begins at BASE + i × CYCLE_NS. -/
def State.windowBoundary (s : State) : State :=
  let d := s.sched
  let i := s.rd F.PART_SCHED_STATUS_ENTRY
  let s :=
    if d.running ∧ i + 1 < d.wins.length ∧ d.steps = s.rd (F.TB_STATUS_STEPS d.tb) then
      ({ s with sched := { d with entryAt := d.entryAt + (d.wins.getD i (0, 0)).2 } } : State).wr F.PART_SCHED_STATUS_ENTRY (i + 1)
    else if s.on F.PART_SCHED_CTRL_ENABLE then
      let tb := s.rd F.PART_SCHED_CTRL_TB
      let t := s.ts64 tb
      let base := s.rd F.PART_SCHED_BASE_BASE
      let cyc := max 10000 (s.rd F.PART_SCHED_CYCLE_CYCLE_NS)
      let start := if t < base then t else base + (t - base) / cyc * cyc
      let s := ({ s with sched := { d with
        running := true, tb := tb, wins := gclFit s.windowList cyc, entryAt := start, steps := s.rd (F.TB_STATUS_STEPS tb) } } : State)
      let s := s.wr F.PART_SCHED_STATUS_ENTRY 0
      if d.running then s.bumpW F.PART_SCHED_STATUS_CYCLES else s
    else { s with sched := { d with running := false, wins := [] } }
  if s.sched.running then (List.range 64).foldl (fun (s : State) n => s.shareEntry s.windowRun n) s else s

/-- PART_SQUARE_SHARE (R364): the first partition's context is the square as it stands, the second's is as after a load. -/
def State.shareSquare (s : State) (n second split : Nat) : State :=
  let s := s.setReg (R.PART_SQ_SHARE n) (1 + second * 2 + split * 16)
  let s := s.setShareCtx n share0
  if s.sched.running then s.shareEntry s.windowRun n else s

/-- An operation on the context of a partition of a time-shared square, whether or not it runs. -/
def State.onCtx (s : State) (n : Nat) (part : Option Nat) (act : State → State) : State :=
  let away := s.shared n && (match part with
    | some p => decide (p ≠ (s.unitPart (sqUnit n)).getD 8)
    | none => false)
  if away then (act (s.swapCtx n)).swapCtx n else act s

/-! ### Partition reset (R365 to R367) -/

/-- The time-shared squares in which P_p is the second partition: its context alone is reset. -/
def State.resetSecond (s : State) (p n : Nat) : State :=
  if s.shared n ∧ s.rd (F.PART_SQ_SHARE_SECOND n) = p then
    let running := s.secondRuns n
    let s := if running then (s.sqAbandon n).swapCtx n else s
    let c := s.shareCtx n
    s.setShareCtx n { share0 with due := none, idle := c.idle || (running && s.sched.running) }
  else s

/-- A command in execution at a mailbox ends with a status and result words. -/
def State.mbEnd (s : State) (m status : Nat) (vals : List Nat) : State :=
  match s.mbExec m with
  | some e => if e.status.isSome then s else s.setExec m (some { e with status := some status, vals := vals, ran := true })
  | none => s

/-- Objects a command can hold: a unit by its ID, a partition, the image session, a key-value sequence (R351). -/
def objPart (p : Nat) : Nat := 0x10000 + p
def objImage : Nat := 0x20000
def objSeq (q : Nat) : Nat := 0x30000 + q

/-- Commands of other mailboxes that hold one of the objects complete with UNIT_RESET (R351). -/
def State.preempt (s : State) (me : Option Nat) (objs : List Nat) : State :=
  (List.range 16).foldl (fun (s : State) k =>
    match s.mbExec k with
    | some e => if some k ≠ me ∧ e.holds.any (fun o => objs.contains o) then s.mbEnd k St.unitReset [] else s
    | none => s) s

/-- Steps 1 to 3 of R365. -/
def State.partReset (s : State) (me : Option Nat) (p : Nat) : State :=
  let s := (s.wr (F.PART_STATE_STATE p) ptResetting).bump (F.PART_STATE_RESETS p)
  let s := if me = some (p + 2) then s else s.mbEnd (p + 2) St.unitReset []
  let units := (s.partNames p).filter (fun u => decide (u / 0x1000 ≠ 4) && decide (u / 0x1000 ≠ 5))
  let s := s.preempt me (objPart p :: units)
  let s := s.aePartReset p
  let s := (List.range 64).foldl (fun (s : State) n => s.resetSecond p n) s
  let s := units.foldl State.unitToReset s
  let s := s.coresHold (s.coresOf p)
  (List.range 32).foldl (fun (s : State) i => if s.rd (F.IQ_RING_CFG_READER i) = 2 + p then s.iqDrain i else s) s

/-- Every part of P_p has reported completion: none of its units is RESETTING or waits for its epoch. -/
def State.partSettled (s : State) (p : Nat) : Bool :=
  (s.partNames p).all (fun u => !hasState u || (decide (s.ustate u ≠ US.resetting) && !s.epochHeld u))

/-- What DESTROY takes (R367). -/
def State.partDestroy (s : State) (p : Nat) : State :=
  let s := (List.range 64).foldl (fun (s : State) n =>
    if s.shared n ∧ (s.ownerOf (sqUnit n) = p ∨ s.rd (F.PART_SQ_SHARE_SECOND n) = p) then s.unshare n else s) s
  let s := ((((s.setReg (R.PART_SQUARES p) 0).setReg (R.PART_BOARD p) 0).setReg (R.PART_FRAME p) 0).setReg (R.PART_TIME p) 0).setReg (R.PART_PE p) 0
  let s := (List.range 4).foldl (fun (s : State) k => s.setRange p k 0 0) s
  let s := (List.range 8).foldl (fun (s : State) q => s.setPath p q false) s
  (s.setShare p 0 0).wr (F.PART_STATE_STATE p) ptFree

/-- The PART_RESET of P_p that waits for its end: its mailbox and command. -/
def State.resetWaiter (s : State) (p : Nat) : Option (Nat × MbExec) :=
  (List.range 16).findSome? (fun k =>
    match s.mbExec k with
    | some e => if e.wait = [6, p] ∧ e.status.isNone then some (k, e) else none
    | none => none)

/-- Step 5 of the safe-state restart: PART_RESET of every partition that is not FREE, DESTROY clear (R401). -/
def State.safeResets (s : State) : State :=
  if s.safePhase = phRestarting ∧ s.castle.stage = 0 then
    let s := (List.range 8).foldl (fun (s : State) p => if s.partSt p = ptFree then s else s.partReset none p) s
    { s with castle := { s.castle with stage := 1 } }
  else s

/-- Step 4 of R365: CONFIGURING, or FREE with DESTROY set; the duration in µs, and the waiting command's end. -/
def State.partResetDone (s : State) (p : Nat) : State :=
  let s := s.safeResets
  if s.partSt p = ptResetting ∧ s.partSettled p = true then
    let w := s.resetWaiter p
    let start := match w with
      | some (_, e) => e.start
      | none => s.castle.restartAt.getD s.now
    let us := min ((s.now - start) / 1000) (2 ^ 32 - 1)
    let s := (s.wr (F.PART_STATE_STATE p) ptConfiguring).wr (F.PART_STATE_LAST_RESET_US p) us
    match w with
    | some (k, e) => (if bit (field e.cmd 8 8) 8 then s.partDestroy p else s).mbEnd k St.ok [us]
    | none => s
  else s

end Sys2Proof.Machine
end

