-- ==== Sys2Proof/Machine/Castle.lean ====
section
/-!
DEFINITION. The commands of the castle but for the rotation, the hold generator and the restart: messages at castle unit
IDs, comparison points, stage clocks, task supervisors, frozen-input detectors, castle faults and the safe state's
request, latch and exit (14_safety.md).
-/

namespace Sys2Proof.Machine

/-- CASTLE_INBOX_MESSAGE (R380): a message at a class-0xA unit ID other than a clock, supervisor or point. -/
def execCastleInboxMessage (m : Msg) (s : State) : Out :=
  .next (if m.dest / 0x1000 = 0xA ∧ (m.dest = 0xA000 ∨ castleUnit m.dest = false) then s.castleDeliver m else s)

/-- CP_SUBMISSION (R384, R385): a message at CP_c. -/
def execCpSubmission (m : Msg) (s : State) : Out :=
  .next (if 0xA400 ≤ m.dest ∧ m.dest < 0xA420 then s.castleDeliver m else s)

/-- PLANE_REPORT_ARRIVE (R380): a KIND 0 report at any castle unit ID. -/
def execPlaneReportArrive (m : Msg) (s : State) : Out :=
  .next (if isPlaneReport m ∧ castleUnit m.dest then s.castleDeliver m else s)

/-- CP_VERDICT (R386): both channels complete and the reports in; a mismatch of the two comparator instances is a
decision with cause ARBITER, and no verdict is taken. -/
def execCpVerdict (c : Fin 32) (mismatch : Bool) (s : State) : Out :=
  .next (
    if s.cpReady c.val then
      if mismatch then
        ((s.bump F.ARB_STATUS_INSTANCE_MISMATCHES).setCp c.val { s.cp c.val with opn := none }).safeDecide 6 0
      else s.cpVerdict c.val
    else s)

/-- CP_DEADLINE (R386): DEADLINE_US has passed since the frame opened. -/
def execCpDeadline (c : Fin 32) (s : State) : Out := .next (s.cpVerdict c.val)

/-- A write to the SAFETY block by a requester that may make it (R412). -/
def State.safeWrite (s : State) (ok : Bool) (reg : Nat) (act : State → State) : State :=
  if ok then act s else s.reject R.SAFE_REJECTS (reg % 0x10000)

/-- SC_ARM (R391): a castle write of SC_n_CFG. -/
def execScArm (r : Req) (n : Fin 128) (d : WData) (s : State) : Out :=
  .next (s.safeWrite (r = .castle) (R.SC_CFG n.val) (fun s =>
    let s := s.writeReg (R.SC_CFG n.val) d
    if d.lowWritten then s.scArm n.val else s))

/-- SC_KICK (R391, R392): a message at SC_n. -/
def execScKick (m : Msg) (s : State) : Out :=
  .next (if 0xA100 ≤ m.dest ∧ m.dest < 0xA180 then s.castleDeliver m else s)

/-- Castle, host, or the partition a register names may write a kick or a mark (R412). -/
def State.mayKick (s : State) (r : Req) (p : Nat) : Bool :=
  r == .castle || r == .host || decide (s.reqPart r = some p)

/-- SC_KICK_WRITE (R392): a write of SC_n_KICK is a kick with the token written. -/
def execScKickWrite (r : Req) (n : Fin 128) (d : WData) (s : State) : Out :=
  .next (s.safeWrite (s.mayKick r (s.rd (F.SC_CFG_PARTITION n.val))) (R.SC_KICK n.val)
    (fun s => if d.lowWritten then s.scKick n.val (some (bits d.bits1 0 16)) else s))

/-- SC_LATE (R391): no kick by the window's close, or within FIRST_LIMIT of ARM. -/
def execScLate (n : Fin 128) (s : State) : Out :=
  .next (
    let st := s.rd (F.SC_STATUS_STATE n.val)
    if st = 2 ∨ (st = 1 ∧ s.rd (F.SC_CFG_FIRST_LIMIT n.val) ≠ 0) then s.scFall n.val 2 else s)

/-- TS_ARM (R394): a castle write of TS_t_CFG. -/
def execTsArm (r : Req) (t : Fin 64) (d : WData) (s : State) : Out :=
  .next (s.safeWrite (r = .castle) (R.TS_CFG t.val) (fun s =>
    let s := s.writeReg (R.TS_CFG t.val) d
    if d.lowWritten then s.tsArm t.val else s))

/-- TS_MARK (R394): a message at TS_t. -/
def execTsMark (m : Msg) (s : State) : Out :=
  .next (if 0xA200 ≤ m.dest ∧ m.dest < 0xA240 then s.castleDeliver m else s)

/-- TS_MARK_WRITE (R394): a write of TS_t_MARK reports the mark written. -/
def execTsMarkWrite (r : Req) (t : Fin 64) (d : WData) (s : State) : Out :=
  .next (s.safeWrite (s.mayKick r (s.rd (F.TS_CFG_PARTITION t.val))) (R.TS_MARK t.val)
    (fun s => if d.lowWritten then s.tsMark t.val (bits d.bits1 0 2) else s))

/-- TS_PERIODIC_ACT (R394): PERIOD has passed and a PERIODIC supervisor makes its own ACT. -/
def execTsPeriodicAct (t : Fin 64) (s : State) : Out :=
  .next (if s.on (F.TS_CFG_PERIODIC t.val) then s.tsMark t.val 1 else s)

/-- TS_LIMIT_EXPIRE (R394): 1 START_MAX, 2 EXEC_MAX or 3 DEADLINE has run out. -/
def execTsLimitExpire (t : Fin 64) (limit : Fin 4) (s : State) : Out :=
  .next (
    let st := s.rd (F.TS_STATUS_STATE t.val)
    if s.on (F.TS_STATUS_FALLEN t.val) then s
    else if limit.val = 1 ∧ st = 2 ∧ s.on (F.TS_LIMITS_START_MAX t.val) then s.tsViolate t.val 1
    else if limit.val = 2 ∧ st = 3 ∧ s.on (F.TS_LIMITS_EXEC_MAX t.val) then s.tsViolate t.val 2
    else if limit.val = 3 ∧ (st = 2 ∨ st = 3) ∧ s.on (F.TS_LIMITS_DEADLINE t.val) then s.tsViolate t.val 3
    else s)

/-- FZ_SAMPLE (R395): the detector of slot i samples the slot's FROZEN, MISSING_ITEMS and ITEMS. -/
def execFzSample (i : Fin 32) (s : State) : Out :=
  .next (
    let l := mget fz0 s.castle.fz i.val
    let items := s.rd (F.IQ_COUNTS_ITEMS i.val)
    let missing := s.rd (F.STREAM_STATUS_MISSING_ITEMS i.val)
    let di := (items + 2 ^ 32 - l.items) % 2 ^ 32
    let dm := missing - l.missing
    let old := s.rd (F.FZ_STATUS_MISS_RUN i.val)
    let run := if dm < di then 0 else min (old + dm) 255
    let limit := s.rd (F.FZ_CFG_MISS_LIMIT i.val)
    let s1 : State := { s with castle := { s.castle with fz := mset fz0 s.castle.fz i.val ⟨items, missing⟩ } }
    let s2 := if s.on (F.STREAM_STATUS_FROZEN i.val) then s1 else s1.wr (F.FZ_STATUS_FROZEN i.val) 0
    let s3 := s2.wr (F.FZ_STATUS_MISS_RUN i.val) run
    if limit ≠ 0 ∧ old < limit ∧ limit ≤ run then (s3.bump (F.FZ_STATUS_MISS_DETECTIONS i.val)).fzAct i.val 2
    else s3)

/-- CASTLE_FAULT (R381, R382). -/
def execCastleFault (kind : Fin 5) (s : State) : Out := .next (s.castleFault kind.val)

/-- CASTLE_RESTART_DONE (R381): the cores run again from the verified copy; a PLL that does not lock leaves them in reset
and latches. -/
def execCastleRestartDone (ok : Bool) (s : State) : Out :=
  .next (
    if s.castle.running then s
    else if ok then { s with castle := { s.castle with running := true } }
    else s.safeLatch 5 true)

/-- SAFE_REQ (R400): a castle write of SAFE_CTRL.SAFE_REQ. -/
def execSafeReq (r : Req) (s : State) : Out :=
  .next (s.safeWrite (r = .castle) R.SAFE_CTRL (fun s => s.safeDecide 9 0))

/-- SAFE_LATCH (R405): 1 the header comparison and the boot check fail, 2 a section hash fails, 3 a unit is not READY at
the bound, 4 D2D modules stay down, 5 a castle that may not be trusted, 6 SAFE_LIMIT decisions within SAFE_WINDOW_S. -/
def execSafeLatch (reason : Fin 7) (s : State) : Out :=
  .next (
    let k := reason.val
    if 1 ≤ k ∧ k ≤ 4 ∧ s.safePhase = phRestarting then s.safeLatch k true
    else if k = 5 ∧ s.castle.running = false then s.safeLatch 5 false
    else if k = 6 ∧ s.tooManyDecisions then s.safeLatch 6 false
    else s)

/-- SAFE_HOLD released and the module back in RUN (R404). -/
def State.leaveSafe (s : State) : State :=
  let s := (s.wr F.SAFE_STATUS_SAFE_HOLD 0).wr F.SAFE_STATUS_HOLD_GEN 0
  let s := if s.modState = stSafe then s.setModState stRun 0x09 else s
  s.wr F.SAFE_STATUS_PHASE phNormal

/-- SAFE_EXIT (R404): a castle write of SAFE_CTRL.SAFE_EXIT, obeyed only while PHASE is HELD. -/
def execSafeExit (r : Req) (s : State) : Out :=
  .next (s.safeWrite (r == .castle && decide (s.safePhase = phHeld)) R.SAFE_CTRL State.leaveSafe)

end Sys2Proof.Machine
end

