-- ==== Sys2Proof/Machine/Events.lean ====
section
/-!
DEFINITION. Phase events: arming and retargeting, the actions of a firing, and its advance (R46 to R52, 02_time.md).
-/

namespace Sys2Proof.Machine

/-- R46 on an event just armed or retargeted: one whose target is already reached is due late in the next cycle. -/
def State.peArmed (s : State) (j : Nat) : State :=
  let s := s.setPe j pe0
  if s.peReached j then s.dueLate j false else s

/-- Arms an event; an armed one is left as it is (R48). -/
def State.peArm (s : State) (j : Nat) : State :=
  if s.on (F.PE_CTRL_ARM j) then s else (s.wr (F.PE_CTRL_ARM j) 1).peArmed j

def State.peDisarm (s : State) (j : Nat) : State := (s.wr (F.PE_CTRL_ARM j) 0).setPe j pe0

/-- The edge of an event's pulse in 1/32 ns of TIME_CLK (R51, R512): a time event's at its target less DELAY_COMP, a late
one's 3 cycles after the start of its cycle; a phase event's 3 cycles after its match less DELAY_COMP, no earlier than 1
cycle after the start of the matching cycle (log entry 19). -/
def State.peEdge (s : State) (j n : Nat) (e : Pe) : Nat :=
  let at32 : Int := ((e.inst / 2048 : Nat) : Int)
  let comp := s.rdS (F.PULSE_OUT_CTRL_DELAY_COMP n)
  if s.on (F.PE_CTRL_KIND j) then (if e.late then (e.cyc + 3) * 32 else (at32 - comp).toNat)
  else max (at32 + 96 - comp).toNat ((e.cyc + 1) * 32)

/-- STAMP: an entry of the event FIFO, or one more DROPPED when 256 are held (R52). -/
def State.evtPush (s : State) (x : EvtEntry) : State :=
  if s.time.evt.length < 256 then
    let l := s.time.evt ++ [x]
    { s with time := { s.time with evt := l } }.wr F.EVT_STATUS_FILL l.length
  else s.bump F.EVT_STATUS_DROPPED

/-- NOTIFY (R50, R507): the posted message with the event's index and TS128; to the mailbox sequencer in PARK it starts a
wake (R458). -/
def State.peNotify (s : State) (j : Nat) (ts : BitVec 128) : State :=
  let unit := s.rd (F.PE_AUX_NOTIFY_UNIT j)
  if unit = 0xE000 ∧ (s.modState = stPark ∨ s.entering) then
    if s.wakeOn 3 then s.wake 0x06 j else s
  else s.post (0x5300 + j) unit 3 0x04 j (padTo 16 (toBytes 4 j) ++ toBytes 16 ts.toNat)

/-- SAMPLE: starts an SPI transfer or latches an encoder, where the port takes SAMPLE actions; other codes do nothing. -/
def State.peSample (s : State) (j : Nat) (ssi : Nat × Bool) : State :=
  let t := s.rd (F.PE_CTRL_SAMPLE_TARGET j)
  if t < 4 then
    if s.on (F.SPI_CTRL_TRIG_PE t) then s.spiStart t (s.stamp (s.rd (F.SPI_CTRL_TB t))) else s
  else if 8 ≤ t ∧ t < 16 then
    if s.on (F.ENC_CTRL_TRIG_PE (t - 8)) then s.encLatch (t - 8) ssi else s
  else s

/-- Every slot that expects a sample at this firing opens a window (R63). -/
def State.peExpect (s : State) (j : Nat) (ts : BitVec 128) : State :=
  (List.range 32).foldl (fun s i =>
    if s.slotRuns i ∧ s.on (F.STREAM_DETECT_EXPECT_EN i) ∧ s.rd (F.STREAM_DETECT_EXPECT_PE i) = j then
      s.setQ i { s.q i with expect := (s.q i).expect ++ [ts] }
    else s) s

/-- The actions of a firing, in the order of the ACTIONS bits; CHAIN arms its target from the following cycle (R48). -/
def State.peAct (s : State) (j : Nat) (e : Pe) (ssi : Nat × Bool) : State :=
  let a (i : Nat) : Bool := bit (s.rd (F.PE_CTRL_ACTIONS j)) i
  let kind := s.on (F.PE_CTRL_KIND j)
  let s := s.bumpW (F.PE_STATUS_FIRED j)
  let s := if e.late then s.bump (F.PE_STATUS_LATE j) else s
  let s := (s.wr (F.PE_LAST_NS_TS64 j) (Machine.ts64 e.ts)).wr (F.PE_LAST_INFO_FRAC j) (bits e.ts.toNat 16 16)
  let s := (s.wr (F.PE_LAST_INFO_TB j) (bits e.ts.toNat 13 3)).wr (F.PE_LAST_INFO_HOLDOVER j) (tsHold e.ts).toNat
  let s := (s.wr (F.PE_LAST_INFO_LATE j) e.late.toNat).wr (F.PE_LAST_INFO_PHASE j) e.phase
  let n := s.rd (F.PE_CTRL_PULSE_INDEX j)
  let s := if a 0 then s.startPulse n (s.peEdge j n e) else s
  let s := if a 1 then s.evtPush ⟨e.ts, j, e.late, kind.toNat, e.phase⟩ else s
  let s := if a 2 then s.peNotify j e.ts else s
  let s := if a 3 then s.fuse e.ts else s
  let s := if a 4 then s.peSample j ssi else s
  let s := if a 5 then s.peArm (s.rd (F.PE_CTRL_CHAIN_TARGET j)) else s
  s.peExpect j e.ts

/-- How many whole periods a stepped-over phase event's target moves: until (target − now) mod 2^32 lies in [1, 2^31)
(R47); `d` is how far the target lies behind now. -/
def phasePasses (per d : Nat) : Nat :=
  if per < 2 ^ 31 then d / per + 1 else max 1 (ceilDiv (2 ^ 31 + 1 - d) (2 ^ 32 - per))

/-- The advance of a firing (R36, R47): a periodic event's target moves by one period, or past the new time after a step,
with the periods passed over in SKIPPED; COUNT decrements; a one-shot event, or COUNT reaching zero, disarms. -/
def State.peAdvance (s : State) (j : Nat) (step : Bool) : State :=
  let s := s.setPe j pe0
  let src := s.rd (F.PE_CTRL_SOURCE j)
  let t := s.rd (F.PE_TARGET_TARGET j)
  let per := s.rd (F.PE_PERIOD_PERIOD j)
  let s := if !s.on (F.PE_CTRL_PERIODIC j) then s
    else if s.on (F.PE_CTRL_KIND j) then
      let p := bits per 0 48 * 65536 + bits per 48 16
      let k := if step && decide (0 < p) && decide (s.peFine j ≤ s.tbFine src) then
        (s.tbFine src - s.peFine j) / p + 1 else 1
      let n := s.peFine j + k * p
      ((s.wr (F.PE_TARGET_TARGET j) (n / 65536)).wr (F.PE_AUX_TARGET_FRAC j) (n % 65536)).bumpBy (F.PE_STATUS_SKIPPED j) (k - 1)
    else
      let rev := s.on (F.PE_CTRL_MATCH_REV j)
      let p := if rev && decide (per % 2 ^ 32 = 0) then 0x1000000 else per % 2 ^ 32
      let k := if step && rev then phasePasses p (fwd (2 ^ 32) t (s.ph src).phase) else 1
      (s.wr (F.PE_TARGET_TARGET j) ((t + k * p) % 2 ^ 32)).bumpBy (F.PE_STATUS_SKIPPED j) (k - 1)
  let c := s.rd (F.PE_AUX_COUNT j)
  let s := if c = 0 then s else s.wr (F.PE_AUX_COUNT j) (c - 1)
  if !s.on (F.PE_CTRL_PERIODIC j) || decide (c = 1) then s.peDisarm j else s

/-- PE_MATCH (R46 to R48, R512): an event that is due acts and advances; one due late acts no earlier than the cycle after,
stamped with the time then. With HOLD_SUPPRESS an event whose stamp carries HOLDOVER only advances, and SKIPPED counts it. -/
def execPeMatch (j : Fin 64) (ssi : Word) (ssiOk : Bool) (s : State) : Out :=
  .next (
    let e := s.pe j.val
    if s.on (F.PE_CTRL_ARM j.val) && e.due && (!e.late || decide (e.cyc < s.now)) then
      let e : Pe := if e.late then
        { e with
          ts := s.peLateStamp j.val, inst := s.now * 65536, cyc := s.now,
          phase := if s.on (F.PE_CTRL_KIND j.val) then 0 else (s.ph (s.rd (F.PE_CTRL_SOURCE j.val))).phase }
        else e
      let s1 := if s.on (F.PE_CTRL_HOLD_SUPPRESS j.val) && tsHold e.ts then s.bump (F.PE_STATUS_SKIPPED j.val)
        else s.peAct j.val e (ssi.toNat, ssiOk)
      s1.peAdvance j.val e.step
    else s)

/-- A write of PE_j_CTRL by a requester that may use the event (R49). -/
def State.peCtrl (s : State) (j : Nat) (d : WData) : State :=
  let arm := bit (d.over (s.reg (R.PE_CTRL j))) 0
  if s.on (F.PE_CTRL_ARM j) then
    if arm then s.reject R.TIME_REJECTS (R.PE_CTRL j % 0x10000)
    else (s.writeReg (R.PE_CTRL j) d).peDisarm j
  else
    let s := s.writeReg (R.PE_CTRL j) d
    if arm then s.peArmed j else s

/-- PE_CTRL_WRITE (R49). -/
def execPeCtrlWrite (r : Req) (j : Fin 64) (d : WData) (s : State) : Out :=
  .next (if s.mayUse r (0x5300 + j.val) then s.peCtrl j.val d
    else s.reject R.TIME_REJECTS (R.PE_CTRL j.val % 0x10000))

/-- PE_RETARGET_WRITE (R49): an armed event takes the new target, with R46 applied to it. -/
def execPeRetargetWrite (r : Req) (j : Fin 64) (d : WData) (s : State) : Out :=
  .next (
    if s.mayUse r (0x5300 + j.val) ∧ s.on (F.PE_CTRL_ARM j.val) then
      (s.wr (F.PE_TARGET_TARGET j.val) d.bits1).peArmed j.val
    else s.reject R.TIME_REJECTS (R.PE_RETARGET j.val % 0x10000))

end Sys2Proof.Machine
end

