-- ==== Sys2Proof/Machine/Ports.lean ====
section
/-!
DEFINITION. The commands of the ingest ports and queues: CSI-2 packets, Ethernet and CAN frames, SPI, encoder and GPIO
samples, visibility, pause, expect windows, the readers' accesses, and streams started and stopped (03_ingest.md).
-/

namespace Sys2Proof

/-- The bytes a DLC code stands for: 0 to 8, then the CAN FD lengths; a classical frame has at most 8. -/
def CanFrame.bytes (f : CanFrame) : Nat :=
  if f.rtr then 0
  else if f.dlc.val ≤ 8 ∨ !f.fdf then min f.dlc.val 8
  else [12, 16, 20, 24, 32, 48, 64].getD (f.dlc.val - 9) 64

end Sys2Proof

namespace Sys2Proof.Machine

/-! ### CSI-2 -/

/-- Slots that run on a virtual channel of CSI_c, and those among them that take a data type. -/
def State.csiSlots (s : State) (c vc : Nat) : List Nat :=
  (List.range 32).filter (fun i => s.slotLocal i && decide (s.slotType i = 1) && decide (s.slotPort i = c) &&
    decide (s.rd (F.STREAM_SRC_VC i) = vc))

def State.csiTaker (s : State) (c vc dt : Nat) : Option Nat :=
  (s.csiSlots c vc).find? (fun i => s.rd (F.STREAM_SRC_DATA_TYPE i) = dt)

/-- (virtual channel, data type) pairs of CSI_c already counted as unmatched in their frame. -/
def State.csiSeen (s : State) (c : Nat) : List Nat := mget [] s.port.csiSeen c
def State.setCsiSeen (s : State) (c : Nat) (l : List Nat) : State :=
  { s with port := { s.port with csiSeen := mset [] s.port.csiSeen c l } }

/-- The line count of the phase domains that follow CSI_c starts again at a frame start. -/
def State.csiLineReset (s : State) (c : Nat) : State :=
  (List.range 8).foldl (fun s k =>
    if s.rd (F.PH_CTRL_SOURCE k) = 2 ∧ s.rd (F.PH_CTRL_SOURCE_INDEX k) = c then s.setPh k { s.ph k with line := 0 } else s) s

/-- A line-start packet `ago` ns before now is an observation of the domains that follow CSI_c: the first line after a
frame start is line 0 (log entry 12). -/
def State.csiLineObs (s : State) (c ago : Nat) : State :=
  (List.range 8).foldl (fun s k =>
    if s.rd (F.PH_CTRL_SOURCE k) = 2 ∧ s.rd (F.PH_CTRL_SOURCE_INDEX k) = c then
      let s := s.phDeliver k ((s.ph k).line : Nat) ((Machine.ts64 (s.stampAgo (s.rd (F.PH_CTRL_TB k)) ago) : Nat) : Int)
      s.setPh k { s.ph k with line := (s.ph k).line + 1 }
    else s) s

/-- CSI_FRAME_START (R55, R61): items open on the virtual channel close without a frame end, and each slot of it opens an
item stamped now; a frame no slot takes is counted. -/
def execCsiFrameStart (c : Fin 16) (vc : Fin 4) (frame : BitVec 16) (s : State) : Out :=
  .next (
    if s.portLive 1 c.val then
      let slots := s.csiSlots c.val vc.val
      let s1 := (s.csiLineReset c.val).setCsiSeen c.val ((s.csiSeen c.val).filter (fun x => x / 64 ≠ vc.val))
      if slots.isEmpty then s1.bump (F.CSI_STATUS_UNMATCHED c.val)
      else slots.foldl (fun s i =>
        (s.abandonFrame i).openFrame i (s.stamp (s.rd (F.CSI_CTRL_TB c.val))) frame.toNat) s1
    else s)

/-- The packet-error counts of a long packet. -/
def State.csiErrors (s : State) (c : Nat) (crcErr eccErr : Bool) : State :=
  let s := if crcErr then s.bump (F.CSI_STATUS_CRC_ERRORS c) else s
  if eccErr then s.bump (F.CSI_STATUS_ECC_UNCORRECTED c) else s

/-- CSI_LINE (R60): a long packet on (vc, dt), with its line-start packet `ls` ns earlier if one came; the row goes to
the item its slot has open. -/
def execCsiLine (c : Fin 16) (vc : Fin 4) (dt : Fin 64) (ls : Option Nat) (data : List Byte) (crcErr eccErr : Bool)
    (s : State) : Out :=
  .next (
    if s.portLive 1 c.val then
      let s1 := s.csiErrors c.val crcErr eccErr
      let s2 := match ls with
        | some a => s1.csiLineObs c.val a
        | none => s1
      let ago := if s.on (F.CSI_CTRL_LS_STAMP c.val) then ls.getD 0 else 0
      match s2.csiTaker c.val vc.val dt.val with
      | some i => s2.putRow i (s2.stampAgo (s.rd (F.CSI_CTRL_TB c.val)) ago) data (crcErr || eccErr)
      | none =>
        let key := vc.val * 64 + dt.val
        if (s2.csiSlots c.val vc.val).isEmpty ∨ key ∈ s2.csiSeen c.val then s2
        else (s2.bump (F.CSI_STATUS_UNMATCHED c.val)).setCsiSeen c.val (s2.csiSeen c.val ++ [key])
    else s)

/-- CSI_FRAME_END (R61): every open item of the virtual channel closes. -/
def execCsiFrameEnd (c : Fin 16) (vc : Fin 4) (s : State) : Out :=
  .next (
    if s.portLive 1 c.val then
      (s.csiSlots c.val vc.val).foldl (fun s i => s.closeFrame i (some (s.stamp (s.rd (F.CSI_CTRL_TB c.val))))) s
    else s)

/-- CSI_FRAME_TIMEOUT (R61): FRAME_TIMEOUT_US without a packet closes the open item of slot i. -/
def execCsiFrameTimeout (i : Fin 32) (s : State) : Out :=
  .next (if s.slotType i.val = 1 then s.abandonFrame i.val else s)

/-! ### Ethernet -/

/-- A big-endian field of a frame. -/
def beField (l : List Byte) (off n : Nat) : Nat := ofBytes (slice l off n).reverse

/-- Where the EtherType after any VLAN tags lies, and the outer VLAN identifier. -/
def vlanScan (l : List Byte) : Nat → Nat → Option Nat → Nat × Option Nat
  | 0, o, v => (o, v)
  | n + 1, o, v =>
    if (beField l o 2 = 0x8100 ∨ beField l o 2 = 0x88A8) ∧ o + 6 ≤ l.length then
      vlanScan l n (o + 4) (some (v.getD (beField l (o + 2) 2 % 4096)))
    else (o, v)

/-- The UDP destination port of an IPv4 or IPv6 UDP frame whose EtherType lies at `o`. -/
def udpPort (l : List Byte) (o : Nat) : Option Nat :=
  let et := beField l o 2
  let ip := o + 2
  if et = 0x0800 ∧ ip + 20 ≤ l.length ∧ beField l (ip + 9) 1 = 17 ∧ beField l (ip + 6) 2 % 8192 = 0 then
    let u := ip + beField l ip 1 % 16 * 4
    if u + 4 ≤ l.length then some (beField l (u + 2) 2) else none
  else if et = 0x86DD ∧ ip + 44 ≤ l.length ∧ beField l (ip + 6) 1 = 17 then some (beField l (ip + 42) 2)
  else none

/-- Slot i's filter passes a frame: every condition whose MATCH bit is set holds (R57). -/
def State.ethMatch (s : State) (i : Nat) (l : List Byte) : Bool :=
  let m := s.rd (F.STREAM_FILTER_MATCH i)
  let (o, vlan) := vlanScan l (l.length / 4) 12 none
  decide (m ≠ 0) && (!bit m 0 || decide (beField l o 2 = s.rd (F.STREAM_FILTER_ETHERTYPE i))) &&
    (!bit m 1 || decide (vlan = some (s.rd (F.STREAM_FILTER_VLAN_ID i)))) &&
    (!bit m 2 || decide (udpPort l o = some (s.rd (F.STREAM_FILTER_UDP_PORT i))))

/-- The slot of a frame: the lowest that matches, else the lowest DEFAULT slot of the port (R57). -/
def State.ethSlot (s : State) (p : Nat) (l : List Byte) : Option Nat :=
  match s.pickSlot 2 p (fun i => s.ethMatch i l) with
  | some i => some i
  | none => s.pickSlot 2 p (fun i => s.on (F.STREAM_SRC_DEFAULT i))

/-- A stamp of MAC p `ago` ns before now, corrected by RX_COMP (log entry 11). -/
def State.ethStamp (s : State) (p n ago : Nat) : BitVec 128 :=
  let t := ((s.tb n).t48 : Int) - ago * 2 ^ 48 - s.rdS (F.MAC_COMP_RX_COMP p) * 2 ^ 42
  mkTs128 t.toNat n false (s.tbHold n)

/-- A lidar item's azimuth field, if the payload holds all of it (R40). -/
def State.azimuth (s : State) (k : Nat) (l : List Byte) : Option Nat :=
  let off := s.rd (F.PH_SOURCE_CFG_FIELD_OFFSET k)
  let n := if s.on (F.PH_SOURCE_CFG_FIELD_32 k) then 4 else 2
  if off + n ≤ l.length then
    some (if s.on (F.PH_SOURCE_CFG_FIELD_BE k) then beField l off n else field l off n)
  else none

/-- A lidar packet of slot i is an observation of the phase domains that follow it. -/
def State.lidarObs (s : State) (i p ago : Nat) (l : List Byte) : State :=
  (List.range 8).foldl (fun s k =>
    if s.rd (F.PH_CTRL_SOURCE k) = 1 ∧ s.rd (F.PH_CTRL_SOURCE_INDEX k) = i then
      match s.azimuth k l with
      | some raw => s.phDeliver k (raw : Nat) ((Machine.ts64 (s.ethStamp p (s.rd (F.PH_CTRL_TB k)) ago) : Nat) : Int)
      | none => s
    else s) s

/-- ETH_FRAME_RECEIVE (R57): a frame without its FCS, its first bit `ago` ns before now. gPTP frames go to the TIME block
and MAC control frames are consumed: a pause holds the MAC for its quanta (log entry 13). -/
def execEthFrameReceive (p : Fin 4) (frame : List Byte) (fcsOk : Bool) (ago : Nat) (s : State) : Out :=
  .next (
    if s.portLive 2 p.val then
      let et := beField frame 12 2
      if !fcsOk || decide ((if s.on (F.ETH_CTRL_JUMBO p.val) then 9216 else 1522) < frame.length + 4) then
        s.bump (F.ETH_STATUS_FCS_ERRORS p.val)
      else if et = 0x88F7 then s
      else if et = 0x8808 then
        if beField frame 14 2 = 1 then
          let ns := beField frame 16 2 * 512 * s.bitTenths p.val / 10
          { s with rfx := { s.rfx with held := mset 0 s.rfx.held p.val (s.now + ns) } }
        else s
      else match s.ethSlot p.val frame with
        | some i =>
          (s.lidarObs i p.val ago frame).putSample i (s.ethStamp p.val (s.rd (F.ETH_CTRL_TB p.val)) ago) frame
        | none => s.bump (F.ETH_STATUS_UNMATCHED p.val)
    else s)

/-! ### CAN -/

/-- The payload of a CAN frame (the payload table). -/
def canPayload (f : CanFrame) : List Byte :=
  let id := if f.ide then f.id.toNat else f.id.toNat % 2048
  toBytes 4 (id + f.ide.toNat * 2 ^ 29 + f.rtr.toNat * 2 ^ 30) ++
    toBytes 4 (f.dlc.val + f.fdf.toNat * 16 + f.brs.toNat * 32 + f.esi.toNat * 64) ++
    (padTo f.bytes f.data).take f.bytes

/-- CAN_FRAME_VALID (R508, R57): a frame valid at its last-but-one end-of-frame bit, its start of frame `ago` ns before.
A CAN FD frame at a controller with FD clear is counted as unmatched and reaches no slot and no tap. -/
def execCanFrameValid (b : Fin 8) (f : CanFrame) (ago : Nat) (s : State) : Out :=
  .next (
    if s.portLive 3 b.val then
      if f.fdf ∧ s.rd (F.CAN_CTRL_FD b.val) = 0 then s.bump (F.CAN_STATUS_UNMATCHED b.val)
      else
        let id := if f.ide then f.id.toNat else f.id.toNat % 2048
        let stamp := s.stampAgo (s.rd (F.CAN_CTRL_TB b.val)) ago
        let s1 := match s.pickSlot 3 b.val (fun i => canMatch id f.ide (s.rd (F.STREAM_FILTER_ID i))
            (s.rd (F.STREAM_FILTER_ID_MASK i)) (s.on (F.STREAM_FILTER_IDE i))) with
          | some i => s.putSample i stamp (canPayload f)
          | none => s.bump (F.CAN_STATUS_UNMATCHED b.val)
        s1.tapSample 3 b.val (fun t => s1.tapPasses t id f.ide) (canPayload f) stamp
    else s)

/-! ### SPI, encoders, GPIO -/

/-- SPI_PERIOD_EXPIRE (R514): PERIOD_US of SPI_m runs out. -/
def execSpiPeriodExpire (m : Fin 4) (s : State) : Out :=
  .next (
    if s.rd (F.SPI_CTRL_PERIOD_US m.val) = 0 then s else s.spiStart m.val (s.stamp (s.rd (F.SPI_CTRL_TB m.val))))

/-- SPI_DRDY_EDGE (R513): an edge CAPTURE_IN_m admits starts the masters whose data-ready input it is, stamped at the edge
in each master's timebase. -/
def execSpiDrdyEdge (m : Fin 16) (rising : Bool) (held : Nat) (frac : Fin 64) (s : State) : Out :=
  .next (
    if s.admits m.val rising held then
      (List.range 4).foldl (fun s i =>
        if s.on (F.SPI_CTRL_TRIG_DRDY i) ∧ s.rd (F.SPI_CTRL_DRDY_INPUT i) = m.val then
          let n := s.rd (F.SPI_CTRL_TB i)
          s.spiStart i (mkTs128 (s.edgeFine m.val n held frac.val * 2 ^ 32) n false (s.tbHold n))
        else s) s
    else s)

/-- SPI_TRANSFER_END (R61, R514): the received bytes, zero where nothing drives MISO, close the item; taps read them. -/
def execSpiTransferEnd (m : Fin 4) (data : List Byte) (s : State) : Out :=
  .next (
    let x := s.spi m.val
    if x.busy then
      let n := clampN 1 256 (s.rd (F.SPI_CTRL_XFER_BYTES m.val))
      let rx := (padTo n data).take n
      let s1 := s.setSpi m.val spi0
      let s2 := match x.slot with
        | some i => s1.closeItem i rx false true
        | none => s1
      s2.tapSample 4 m.val (fun _ => true) rx x.stamp
    else s)

/-- ENC_PERIOD_EXPIRE (R61): PERIOD_US of ENC_e latches the position; an SSI encoder shifts out `ssi`. -/
def execEncPeriodExpire (e : Fin 8) (ssi : Word32) (ssiOk : Bool) (s : State) : Out :=
  .next (
    if s.rd (F.ENC_CTRL_PERIOD_US e.val) = 0 then s else s.encLatch e.val (ssi.toNat, ssiOk))

/-- QUADRATURE_EDGE (R40): a counted edge moves the live count by one, or an illegal transition is counted as an error; a
domain that follows the encoder observes the count. -/
def execQuadratureEdge (e : Fin 8) (up illegal : Bool) (s : State) : Out :=
  .next (
    if s.portLive 5 e.val ∧ s.on (F.ENC_CTRL_SSI e.val) = false then
      let c := s.enc e.val
      if illegal then (s.setEnc e.val { c with err := true }).bump (F.ENC_STATUS_ERRORS e.val)
      else
        let pos := if up then c.pos + 1 else c.pos - 1
        let c1 : EncSt := { c with pos := pos, edges := min (c.edges + 1) (2 ^ 32 - 1), dir := up, edgeTs := s.stamp (s.rd (F.ENC_CTRL_TB e.val)) }
        ((s.setEnc e.val c1).wr (F.ENC_STATUS_POSITION e.val) (unsgn 32 pos)).phSense 3 e.val pos 0
    else s)

/-- One GPIO item of slot i for the edges of its pins. -/
def State.gpioItem (s : State) (edges : Nat) (i : Nat) : State :=
  let m := edges &&& s.slotFilter i
  if s.slotLocal i && decide (s.slotType i = 6) && decide (m ≠ 0) then
    s.putSample i (s.stamp (s.rd F.INGEST_CTRL_GPIO_TB)) (toBytes 8 (s.rd F.GPIO_LEVEL_LEVELS) ++ toBytes 8 m)
  else s

/-- GPIO_INPUT_EDGE (R57): the pins sampled at TIME_CLK, input pins at `levels` and output pins at the level driven;
stamped edges form one item per slot, and the reflex rules see every edge (R334). -/
def execGpioInputEdge (levels : Word) (s : State) : Out :=
  .next (
    if s.portPowered 6 0 then
      let outs := s.rd F.RFX_GPIO_OUT_EN_PINS
      let live := (levels.toNat &&& (0xFFFFFFFFFFFFFFFF ^^^ outs)) ||| (s.rd F.GPIO_LEVEL_LEVELS &&& outs)
      let old := s.port.sampled
      let rise := live &&& (0xFFFFFFFFFFFFFFFF ^^^ old)
      let fall := old &&& (0xFFFFFFFFFFFFFFFF ^^^ live)
      let edges := (rise &&& s.rd F.GPIO_STAMP_RISE_PINS) ||| (fall &&& s.rd F.GPIO_STAMP_FALL_PINS)
      let s1 := { s with port := { s.port with sampled := live } }.wr F.GPIO_LEVEL_LEVELS live
      ((List.range 32).foldl (fun s i => s.gpioItem edges i) s1).reflexEval rise fall
    else s)

/-! ### Visibility, pause and expect windows -/

/-- The items of a queue with the oldest invisible one made visible. -/
def showFirst : List IqItem → List IqItem
  | [] => []
  | e :: r => if e.visible then e :: showFirst r else { e with visible := true } :: r

/-- The transmit relays of slot i send a closed item to their peers, where a route exists (R444). -/
def State.relayOut (s : State) (i : Nat) (e : IqItem) : State :=
  (List.range 8).foldl (fun (s : State) r =>
    let m := s.rd (F.RLY_CFG_PEER_MODULE r)
    if s.on (F.RLY_CFG_ENABLE r) && !s.on (F.RLY_CFG_RECEIVE r) && decide (s.rd (F.RLY_CFG_LOCAL_SLOT r) = i) &&
        s.on (F.NET_ROUTE_VALID m) then
      let x : RelaySent := ⟨m, s.rd (F.RLY_CFG_PEER_SLOT r), s.bytes (s.ringBase i + e.off * 64) (32 + e.length)⟩
      ({ s with link := { s.link with sent := s.link.sent ++ [x] } } : State).bumpW (F.RLY_STATUS_ITEMS r)
    else s) s

/-- ITEM_VISIBLE (R79, R444): the close latency of IQ_i's oldest invisible item has run; transmit relays have sent it. -/
def execItemVisible (i : Fin 32) (s : State) : Out :=
  .next (
    let s1 := s.setQ i.val { s.q i.val with items := showFirst (s.q i.val).items }
    match (s.q i.val).items.find? (fun e => !e.visible) with
    | some e => s1.relayOut i.val e
    | none => s1)

/-- PAUSE_REFRESH (R72): REFRESH_US while a pausing watermark stays asserted. -/
def execPauseRefresh (p : Fin 4) (s : State) : Out :=
  .next (if s.on (F.ETH_STATUS_PAUSING p.val) then s.sendPause p.val true else s)

/-- EXPECT_WINDOW_EXPIRE (R63): the oldest open window of slot i closes with no item opened inside it. A placeholder due while an
item of an earlier sample is open follows it (log entry 9). -/
def execExpectWindowExpire (i : Fin 32) (s : State) : Out :=
  .next (
    match (s.q i.val).expect with
    | [] => s
    | ts :: rest =>
      if s.slotRuns i.val ∧ s.on (F.STREAM_DETECT_EXPECT_EN i.val) then
        let q := s.q i.val
        let s1 := (s.setQ i.val { q with expect := rest }).takeSeq i.val
        if q.opn.isSome then s1.setQ i.val { s1.q i.val with owed := q.owed ++ [(q.seq, ts)] }
        else s1.putMissing i.val q.seq ts
      else s.setQ i.val { s.q i.val with expect := rest })

/-! ### The readers' accesses (R64 to R66) -/

/-- A head read's word. -/
def State.withData (s : State) (v : Nat) : State := { s with rdata := BitVec.ofNat 64 v }

/-- The NV word of a queue. -/
def iqNv : Nat := 2 ^ 63

/-- The head of IQ_i returned and READ advanced. -/
def State.iqTake (s : State) (i : Nat) : State :=
  match s.iqHead i with
  | some e => (s.iqAdvance i).withData (headWord i e)
  | none => s.withData iqNv

/-- IQ_HEAD_READ (R64). -/
def execIqHeadRead (r : Req) (i : Fin 32) (s : State) : Out :=
  .next (if s.isReader r i.val then s.iqTake i.val else (s.iqReject (R.IQ_HEAD i.val)).withData iqNv)

/-- Seconds and nanoseconds of a stamp, as R65 compares them. -/
def stampOrder (t : BitVec 128) : Nat := tsSec t * 2 ^ 32 + tsLow t / 2 ^ 32

/-- The queue IQ_ANY_HEAD acts on for a requester (R65). -/
def State.anyHead (s : State) (r : Req) : Option Nat :=
  ((List.range 32).foldl (fun (b : Option (Nat × IqItem)) i =>
    if s.isReader r i then
      match s.iqHead i, b with
      | some e, none => some (i, e)
      | some e, some (j, x) =>
        if x.prio < e.prio ∨ (x.prio = e.prio ∧ stampOrder e.stamp < stampOrder x.stamp) then some (i, e) else some (j, x)
      | none, _ => b
    else b) none).map (·.1)

/-- IQ_ANY_HEAD_READ (R65). -/
def execIqAnyHeadRead (r : Req) (s : State) : Out :=
  .next (
    match s.anyHead r with
    | some i => s.iqTake i
    | none => s.withData iqNv)

/-- A CURSOR write, by the reader only (R66). -/
def State.cursorWrite (s : State) (r : Req) (i : Nat) (d : WData) : State :=
  if s.isReader r i then s.iqCursor i d.bits1 else s.iqReject (R.IQ_CURSOR i)

/-- IQ_MARK (R66): a write of IQ_s_CURSOR with MARK. -/
def execIqMark (r : Req) (i : Fin 32) (d : WData) (s : State) : Out := .next (s.cursorWrite r i.val d)

/-- IQ_REWIND (R66): a write of IQ_s_CURSOR with REWIND. -/
def execIqRewind (r : Req) (i : Fin 32) (d : WData) (s : State) : Out := .next (s.cursorWrite r i.val d)

/-- IQ_RELEASE_WRITE (R66). -/
def execIqReleaseWrite (r : Req) (i : Fin 32) (d : WData) (s : State) : Out :=
  .next (
    if s.isReader r i.val = false then s.iqReject (R.IQ_RELEASE i.val)
    else if d.lowWritten then s.iqRelease i.val (bits d.bits1 0 32) else s)

/-! ### Streams started and stopped (R76) -/

/-- The register, its ENABLE field, and the port (type, index) or slot it feeds. -/
def streamReg : StreamReg → Nat × Fld
  | .slot i => (R.STREAM_SRC i.val, F.STREAM_SRC_ENABLE i.val)
  | .csi c => (R.CSI_CTRL c.val, F.CSI_CTRL_ENABLE c.val)
  | .eth p => (R.ETH_CTRL p.val, F.ETH_CTRL_ENABLE p.val)
  | .can b => (R.CAN_CTRL b.val, F.CAN_CTRL_ENABLE b.val)
  | .spi m => (R.SPI_CTRL m.val, F.SPI_CTRL_ENABLE m.val)
  | .enc e => (R.ENC_CTRL e.val, F.ENC_CTRL_ENABLE e.val)

/-- Whether slot i is the slot of the register or is fed by its port. -/
def State.fedBy (s : State) (g : StreamReg) (i : Nat) : Bool :=
  let on (t p : Nat) : Bool := decide (s.slotType i = t) && decide (s.slotPort i = p) && s.slotEnabled i
  match g with
  | .slot j => decide (i = j.val)
  | .csi c => on 1 c.val
  | .eth p => on 2 p.val
  | .can b => on 3 b.val
  | .spi m => on 4 m.val
  | .enc e => on 5 e.val

/-- Who may write it (R511): a port by the host and the castle, a slot also by the partition that has it. -/
def State.mayStream (s : State) (r : Req) : StreamReg → Bool
  | .slot i => s.mayUse r (0x4000 + i.val)
  | _ => r.trusted

/-- The open items a register feeds closed at once; an SPI transfer on them ends with them (R76). -/
def State.stopStreams (s : State) (g : StreamReg) : State :=
  let fed := (List.range 32).filter (s.fedBy g)
  let s := fed.foldl State.abortItem s
  match g with
  | .spi m => s.setSpi m.val spi0
  | _ => s

/-- A write of a stream's control register: the write itself, and what setting or clearing ENABLE does (R76). -/
def State.streamWrite (s : State) (r : Req) (g : StreamReg) (d : WData) : State :=
  let (reg, en) := streamReg g
  if s.mayStream r g then
    let was := s.on en
    let will := (s.writeReg reg d).on en
    let s := if was && !will then s.stopStreams g else s
    let s := s.writeReg reg d
    let s := if !was && will then ((List.range 32).filter (s.fedBy g)).foldl State.restartSlot s else s
    match g with
    | .eth _ => s.gptpCheck
    | _ => s
  else s.reject R.INGEST_REJECTS (reg % 0x10000)

/-- STREAM_ENABLE (R76): a write that sets ENABLE. -/
def execStreamEnable (r : Req) (g : StreamReg) (d : WData) (s : State) : Out := .next (s.streamWrite r g d)

/-- STREAM_DISABLE (R76): a write that clears ENABLE. -/
def execStreamDisable (r : Req) (g : StreamReg) (d : WData) (s : State) : Out := .next (s.streamWrite r g d)

/-- ETH_LINK_CHANGE (R54, "Port registers"): LINK_UP follows the PHY, whatever ENABLE says. -/
def execEthLinkChange (p : Fin 4) (up : Bool) (s : State) : Out := .next (s.wr (F.ETH_STATUS_LINK_UP p.val) up.toNat)

/-- CSI_LINK_UP (R54): lane deskew of CSI_c completes. -/
def execCsiLinkUp (c : Fin 16) (s : State) : Out :=
  .next (if s.portLive 1 c.val then s.wr (F.CSI_STATUS_LINK_UP c.val) 1 else s)

end Sys2Proof.Machine
end

