-- ==== Sys2Proof/Machine/LinkOps.lean ====
section
/-!
DEFINITION. Zorra links: training, the network's members, numbering and routes, links going down, the LINK register block, and
items a relay receives (R437 to R448, R163, 15_memory.md).
-/

namespace Sys2Proof.Machine

def netAlone : Nat := 0
def netForming : Nat := 1
def netFormed : Nat := 2

/-- States of a link. -/
def zlDown : Nat := 0
def zlTraining : Nat := 1
def zlUp : Nat := 2
def zlStandby : Nat := 3

def State.netState (s : State) : Nat := s.rd F.NET_STATUS_STATE
def State.serial (s : State) : Nat := s.rd F.SERIAL_SERIAL
def State.zlState (s : State) (k : Nat) : Nat := s.rd (F.ZL_STATUS_STATE k)
def State.zlPeer (s : State) (k : Nat) : Nat := s.rd (F.ZL_PEER_SERIAL k)

/-- ZL_k is enabled by FEATURE_MASK (R437). -/
def State.zlEnabled (s : State) (k : Nat) : Bool := bit (s.rd F.FEATURE_MASK_ZORRA_EN) k

/-- The link is trained: UP or STANDBY. -/
def State.zlTrained (s : State) (k : Nat) : Bool := s.zlState k = zlUp ∨ s.zlState k = zlStandby

/-- The LINK interrupt source and MSI-X vector (R429, R433). -/
def State.linkIrq (s : State) : State := (s.raiseIrq 18).raiseMsix 3

/-! ### Numbers and routes (R439) -/

/-- A number put into an ascending list without repeats. -/
def insertAsc (x : Nat) : List Nat → List Nat
  | [] => [x]
  | y :: r => if x < y then x :: y :: r else if x = y then y :: r else y :: insertAsc x r

/-- The union of two sets of serials, ascending. -/
def unionAsc (a b : List Nat) : List Nat := b.foldl (fun l x => insertAsc x l) a

/-- The module number of a member: its rank. -/
def rankOf (members : List Nat) (serial : Nat) : Option Nat :=
  (List.range members.length).find? (fun i => decide (members[i]? = some serial))

/-- The nodes reached in one more hop. -/
def grow (edges : List (Nat × Nat)) (l : List Nat) : List Nat :=
  edges.foldl (fun t e => if l.contains e.1 then insertAsc e.2 t else if l.contains e.2 then insertAsc e.1 t else t) l

/-- Hops from a set of nodes to a node, within a number of rounds. -/
def hops (edges : List (Nat × Nat)) (goal : Nat) : Nat → List Nat → Nat → Option Nat
  | 0, _, _ => none
  | n + 1, l, d => if l.contains goal then some d else hops edges goal n (grow edges l) (d + 1)

/-- The module's own links in service, with their peers. -/
def State.ownEdges (s : State) : List (Nat × Nat) :=
  (List.range 4).filterMap (fun k => if s.zlState k = zlUp then some (s.serial, s.zlPeer k) else none)

/-- The route to a member: the first link of a shortest path, the lowest index among equals. -/
def State.routeTo (s : State) (goal : Nat) : Option Nat :=
  let edges := s.ownEdges ++ s.link.edges
  (List.range 4).foldl (fun (best : Option (Nat × Nat)) k =>
    if s.zlState k = zlUp then
      match hops edges goal 9 [s.zlPeer k] 1 with
      | some d => match best with
        | some (_, d') => if d < d' then some (k, d) else best
        | none => some (k, d)
      | none => best
    else best) none |>.map (·.1)

/-- The routing table and the members it cannot reach, recomputed; empty while not FORMED or without a trained link. -/
def State.computeRoutes (s : State) : State :=
  let formed := decide (s.netState = netFormed) && (List.range 4).any s.zlTrained
  (List.range 8).foldl (fun (s : State) m =>
    let r := if formed then
        match s.link.members[m]? with
        | some x => if x = s.serial then none else s.routeTo x
        | none => none
      else none
    let other := formed && (match s.link.members[m]? with | some x => decide (x ≠ s.serial) | none => false)
    let s := s.wr F.NET_STATUS_UNREACHABLE (setBit (s.rd F.NET_STATUS_UNREACHABLE) m (other && r.isNone))
    let s := s.wr (F.NET_ROUTE_VALID m) r.isSome.toNat
    match r with
    | some k =>
      (s.wr (F.NET_ROUTE_LINK m) k).wr (F.NET_ROUTE_DIRECT m) (decide (some (s.zlPeer k) = s.link.members[m]?)).toNat
    | none => (s.wr (F.NET_ROUTE_LINK m) 0).wr (F.NET_ROUTE_DIRECT m) 0) s

/-- NET_STATUS and NET_ROOT_SERIAL as the member list and the links give them (R439). -/
def State.numberNet (s : State) : State :=
  let formed := decide (s.netState = netFormed)
  let num := if formed && (List.range 4).any s.zlTrained then (rankOf s.link.members s.serial).getD 0 else 0
  let s := s.wr F.NET_STATUS_MODULE num
  let s := s.wr F.NET_STATUS_ROOT (formed && decide (s.link.members[0]? = some s.serial)).toNat
  let s := s.wr F.NET_STATUS_MEMBERS (if formed then 2 ^ s.link.members.length - 1 else 0)
  (s.wr F.NET_ROOT_SERIAL_SERIAL (if formed then s.link.members.headD 0 else 0)).computeRoutes

/-- A trained link under the network's state (R440): UP towards a member or while forming, else STANDBY. -/
def State.placeLink (s : State) (k : Nat) : State :=
  if s.netState = netForming then s.wr (F.ZL_STATUS_STATE k) zlUp
  else
    match (if s.netState = netFormed then rankOf s.link.members (s.zlPeer k) else none) with
    | some m => (s.wr (F.ZL_STATUS_STATE k) zlUp).wr (F.ZL_STATUS_PEER_MODULE k) m
    | none => (s.wr (F.ZL_STATUS_STATE k) zlStandby).wr (F.ZL_STATUS_PEER_MODULE k) 0

def State.placeLinks (s : State) : State :=
  ((List.range 4).filter s.zlTrained).foldl (fun (s : State) k => s.placeLink k) s

/-- A network adopted or declared (R438, R440): FORMED, numbered, and recorded. -/
def State.formNet (s : State) (members : List Nat) (edges : List (Nat × Nat)) : State :=
  let s := { s with link := { s.link with members := unionAsc [] members, edges := edges, ended := true } }
  let s := ((s.wr F.NET_STATUS_STATE netFormed).bump F.NET_STATUS_FORMATIONS).placeLinks.numberNet
  (s.event 0xC000 0x9002 (s.rd F.NET_STATUS_MODULE) [s.rd F.NET_STATUS_MEMBERS, s.rd F.NET_ROOT_SERIAL_SERIAL]).linkIrq

/-- Entry into FORMING (R438): the module knows its own serial and those its trained peers told. -/
def State.enterForming (s : State) (known : List Nat) : State :=
  let s := { s with link := { s.link with known := unionAsc [s.serial] known, ended := false, members := [], edges := [] } }
  (s.wr F.NET_STATUS_STATE netForming).placeLinks.linkIrq

/-- ZL_k trained towards a peer (R438, R440). -/
def State.linkTrained (s : State) (k : Nat) (p : PeerHello) : State :=
  let s := ((s.wr (F.ZL_STATUS_STATE k) zlStandby).wr (F.ZL_STATUS_LANES k) 15).wr (F.ZL_PEER_SERIAL k) p.serial
  let s := { s with link := { s.link with zl := mset ⟨0⟩ s.link.zl k ⟨0⟩ } }
  if s.netState = netFormed then (s.placeLink k).numberNet
  else
    match p.members with
    | some l =>
      if l.contains s.serial then s.formNet l p.edges
      else if s.netState = netForming then s
      else if s.on F.LINK_CTRL_NET_EN then (s.enterForming []).wr (F.ZL_STATUS_STATE k) zlStandby
      else s
    | none =>
      let told := p.serial :: p.known
      if s.netState = netForming then
        ({ s with link := { s.link with known := unionAsc s.link.known told } } : State).placeLink k
      else if s.on F.LINK_CTRL_NET_EN then s.enterForming told
      else s

/-- NET_REFORM (R440): ALONE; with NET_EN and a trained link, the module is FORMING again. -/
def State.netReform (s : State) : State :=
  let s := { s with link := { s.link with known := [], ended := false, members := [], edges := [] } }
  let s := (s.wr F.NET_STATUS_STATE netAlone).placeLinks.numberNet.linkIrq
  let up := (List.range 4).filter s.zlTrained
  if s.on F.LINK_CTRL_NET_EN ∧ up ≠ [] then s.enterForming (up.map s.zlPeer) else s

/-! ### Links going down (R442, R445) -/

/-- The receiving relays that run. -/
def State.rxRelays (s : State) : List Nat :=
  (List.range 8).filter (fun r => (List.range 32).any (fun i => decide (s.relayOf i = some r)))

/-- A relay's placeholder: a MISSING item stamped now in the relay's timebase (R445). -/
def State.relayMissing (s : State) (r : Nat) : State :=
  let i := s.rd (F.RLY_CFG_LOCAL_SLOT r)
  let seq := (s.q i).seq
  ((s.takeSeq i).putMissing i seq (s.stamp (s.rd (F.RLY_CFG_TB r)))).bump (F.RLY_STATUS_MISSING r)

/-- Messages on their way to a module that became unreachable: those that had not crossed are answered TIMEOUT; whether one
had is not seen here (R163, R442). -/
def State.dropOutgoing (s : State) (lost : List Nat) : State :=
  let out (m : Msg) : Bool := decide (m.destModule ≠ s.moduleNo) && lost.contains m.destModule
  let gone := s.net.filter out
  gone.foldl (fun (s : State) m =>
    let (x, s) := s.draw 76
    if x % 2 = 0 ∧ m.kind ≠ 2 ∧ m.srcModule = s.moduleNo then s.answer m St.timeout else s)
    { s with net := s.net.filter (fun m => !out m) }

/-- Routes after a change of the trained links: relays whose link went down or whose peer became UNREACHABLE write their
placeholder. -/
def State.reroute (s : State) (downLink : Option Nat) (act : State → State) : State :=
  let was (m : Nat) : Bool := bit (s.rd F.NET_STATUS_UNREACHABLE) m
  let carried (r : Nat) : Bool :=
    let m := s.rd (F.RLY_CFG_PEER_MODULE r)
    match downLink with
    | some k => s.on (F.NET_ROUTE_VALID m) && decide (s.rd (F.NET_ROUTE_LINK m) = k)
    | none => false
  let relays := s.rxRelays
  let hit := relays.filter carried
  let s' := (act s).numberNet
  let lost := (List.range 8).filter (fun m => bit (s'.rd F.NET_STATUS_UNREACHABLE) m && !was m)
  let cut := relays.filter (fun r => hit.contains r || lost.contains (s.rd (F.RLY_CFG_PEER_MODULE r)))
  (cut.foldl (fun (s : State) r => s.relayMissing r) s').dropOutgoing lost

/-- ZL_k declared down (R442): counted and logged; it retrains by itself while ENABLE is set. -/
def State.linkDown (s : State) (k : Nat) : State :=
  if s.zlTrained k then
    let s := s.reroute (some k) (fun s =>
      (((s.wr (F.ZL_STATUS_STATE k) (if s.on (F.ZL_CTRL_ENABLE k) then zlTraining else zlDown)).wr (F.ZL_STATUS_LANES k) 0).wr
        (F.ZL_STATUS_PEER_MODULE k) 0).bump (F.ZL_STATUS_DOWNS k))
    (s.event (0xC000 + k) 0x9001 k [s.rd (F.ZL_STATUS_DOWNS k)]).linkIrq
  else s

/-! ### The LINK register block (R448) -/

/-- ENABLE of ZL_k written: 1 trains the link, 0 takes it down. -/
def State.zlEnable (s : State) (k : Nat) (on : Bool) : State :=
  let s := s.wr (F.ZL_CTRL_ENABLE k) on.toNat
  if on then (if s.zlState k = zlDown then s.wr (F.ZL_STATUS_STATE k) zlTraining else s)
  else if s.zlTrained k then s.linkDown k
  else s.wr (F.ZL_STATUS_STATE k) zlDown

/-- RETRAIN: the link is declared down and trains again. -/
def State.zlRetrain (s : State) (k : Nat) : State := s.linkDown k

/-- A write of the block at a block offset: host and castle only; none to a link not enabled, nor to an outbound window whose
OWNER's partition is not FREE. -/
def State.linkWrite (s : State) (r : Req) (off : Nat) (d : WData) : State :=
  let a := R.LINK_CTRL + off
  let zl := 0x400 ≤ off ∧ off < 0x480
  let k := (off - 0x400) / 0x20
  let w := (off - 0x200) / 0x10
  let owner := s.rd (F.PCIE_OB_CFG_OWNER w)
  let win := decide (0x200 ≤ off ∧ off < 0x280) && decide (owner < 8) && decide (s.rd (F.PART_STATE_STATE owner) ≠ 0)
  if !r.trusted || (decide zl && !s.zlEnabled k) || win then s.reject R.LINK_REJECTS off
  else if off = 0 then
    let s := (s.writeReg a d).wr F.LINK_CTRL_NET_REFORM 0
    if bit d.bits1 2 then s.netReform else s
  else if zl ∧ off % 0x20 = 0 then
    let on := bit (d.over (s.reg a)) 0
    let s := if on = s.on (F.ZL_CTRL_ENABLE k) then s else s.zlEnable k on
    if bit d.bits1 1 then s.zlRetrain k else s
  else s.writeReg a d

/-- The registers of a link not enabled read zero (R437). -/
def State.linkView (s : State) (off : Nat) : Nat :=
  if 0x400 ≤ off ∧ off < 0x480 ∧ s.zlEnabled ((off - 0x400) / 0x20) = false then 0 else s.reg (R.LINK_CTRL + off)

/-! ### Items a relay receives (R444) -/

/-- A relayed lidar item is an observation of the phase domains that follow its slot, at its header's stamp. -/
def State.relayObs (s : State) (i : Nat) (stamp : BitVec 128) (l : List Byte) : State :=
  if s.slotType i = 2 then
    (List.range 8).foldl (fun (s : State) k =>
      if s.rd (F.PH_CTRL_SOURCE k) = 1 ∧ s.rd (F.PH_CTRL_SOURCE_INDEX k) = i then
        match s.azimuth k l with
        | some raw => s.phDeliver k (raw : Nat) ((Machine.ts64 stamp : Nat) : Int)
        | none => s
      else s) s
  else s

/-- An item written into a relay's queue: SEQUENCE kept, STREAM and the timebase index rewritten (R59, R60, R444). Answers
whether the queue took it. -/
def State.putRelayed (s : State) (r i : Nat) (item : List Byte) : Bool × State :=
  let flags := field item 4 4
  let seq := field item 8 4
  let st := insField (field item 16 16) 13 3 (s.rd (F.RLY_CFG_TB r))
  let stamp := BitVec.ofNat 128 st
  let p := item.drop 32
  let s := s.setQ i { s.q i with seq := seq }
  let busy := (s.q i).opn.isSome
  let s := s.openItem i stamp 0
  match busy, (s.q i).opn with
  | false, some o =>
    let room := o.len * 64 - 32
    let cut := decide (room < p.length)
    let p := p.take room
    let crc := if cut then crc32c p else field item 12 4
    let missing := bit flags 12
    let (frz, s) := s.frozenStep i (if missing then none else some ⟨crc, p.length, 0, []⟩) (cut || missing)
    let s := if cut then s.bump (F.STREAM_STATUS_TRUNCATIONS i) else s
    let keep := flags / 512 * 512
    let fl := if cut then insField keep 9 2 2 else keep
    let fl := if frz then insField fl 11 1 1 else fl
    let units := ceilDiv (32 + p.length) 64
    let s := s.store (s.ringBase i + o.off * 64 + 32) (padTo (units * 64 - 32) p)
    (true, (s.enterItemAt i o (flags % 16) p.length crc fl).payOwed i)
  | _, _ => (false, s)

/-- An item of relay r arrives: a relay that does not run drops it. -/
def State.relayTake (s : State) (r : Nat) (item : List Byte) : State :=
  let i := s.rd (F.RLY_CFG_LOCAL_SLOT r)
  if s.relayOf i = some r ∧ s.slotRuns i = true then
    let s := s.relayObs i (BitVec.ofNat 128 (field item 16 16)) (item.drop 32)
    let (ok, s) := s.putRelayed r i item
    if ok then s.bumpW (F.RLY_STATUS_ITEMS r) else s.bump (F.RLY_STATUS_DISCARDS r)
  else s.bump (F.RLY_STATUS_DISCARDS r)

end Sys2Proof.Machine
end

