-- ==== Sys2Proof/Machine/Reflex.lean ====
section
/-!
DEFINITION. The commands of the reflex unit and of egress: pulse ends, the latched-rule and send writes, frames leaving
through a MAC or a CAN FD controller, gate control, drops, the hold generator's fills, and CAN bus states.
-/

namespace Sys2Proof.Machine

/-- RULE_PULSE_END (R335): the pulse of a pin has run; the pin returns low. -/
def execRulePulseEnd (g : Fin 64) (s : State) : Out :=
  .next (
    if mget 0 s.rfx.pulse g.val = 0 then s
    else ({ s with rfx := { s.rfx with pulse := mset 0 s.rfx.pulse g.val 0 } }).drivePin g.val false)

/-- A write to the REFLEX block (R344): by the host, the castle or the partition that has the unit; a CASTLE slot's
registers by the castle only. -/
def State.rfxWrite (s : State) (r : Req) (castleOnly : Bool) (reg : Nat) (act : State → State) : State :=
  if (if castleOnly then r == .castle else s.mayUse r 0x9000) then act s else s.reject R.RFX_REJECTS (reg % 0x10000)

/-- RFX_LATCHED_WRITE (R334): a 1 rearms its rule. -/
def execRfxLatchedWrite (r : Req) (d : WData) (s : State) : Out :=
  .next (s.rfxWrite r false R.RFX_LATCHED (fun s => s.writeReg R.RFX_LATCHED d))

/-- EG_SEND_WRITE (R337): a write of SEND fills a slot of source SW, or of source CASTLE for the castle. -/
def execEgSendWrite (r : Req) (i : Fin 32) (d : WData) (s : State) : Out :=
  .next (
    let src := s.rd (F.EG_CFG_SOURCE i.val)
    s.rfxWrite r (src = 3) (R.EG_SEND i.val) (fun s =>
      if bit d.bits1 0 ∧ 2 ≤ src then (s.egFill i.val).2 else s))

/-- EGRESS_FRAME_START (R341): a MAC not held by pause starts the frame its gates and classes choose. -/
def execEgressFrameStart (p : Fin 4) (s : State) : Out :=
  .next (
    if s.rfxRuns ∧ s.portPowered 2 p.val ∧ mget 0 s.rfx.held p.val ≤ s.now then
      match s.egPick p.val with
      | some (i, b) => s.egSent i p.val b
      | none => s
    else s)

/-- CAN_TRANSMIT (R342): CAN_b wins arbitration with its lowest identifier; not while bus-off or LISTEN_ONLY. -/
def execCanTransmit (b : Fin 8) (s : State) : Out :=
  .next (
    if s.rfxRuns ∧ s.portPowered 3 b.val ∧ s.on (F.CAN_CTRL_ENABLE b.val) ∧ s.rd (F.CAN_CTRL_LISTEN_ONLY b.val) = 0 ∧ s.rd (F.CAN_STATUS_BUS_STATE b.val) ≠ 2 then
      match s.canPick b.val with
      | some (i, x) => s.egSent i (8 + b.val) x
      | none => s
    else s)

/-- GCL_ENTRY_ADVANCE (R341): the entry in force has run, or a cycle begins. -/
def execGclEntryAdvance (p : Fin 4) (s : State) : Out :=
  .next (if s.on (F.EG_GCL_CTRL_ENABLE p.val) then s.gclAdvance p.val else s)

/-- A dropped external egress item: counted and logged (R25). -/
def State.dropItem (s : State) (unit slot : Nat) : State := (s.bump F.EGRESS_DROPS_COUNT).event unit 0x4001 unit [slot]

/-- EGRESS_DROP (R25, R340): the frame of slot i, or with no slot an item of the PCIe host, was not taken within
EGRESS_TIMEOUT of reaching the head of its port; it is not resent. -/
def execEgressDrop (i : Option (Fin 32)) (s : State) : Out :=
  .next (
    match i with
    | none => s.dropItem 0xC200 0xFF
    | some i =>
      let e := s.eg i.val
      if e.wait.isSome then
        let port := s.rd (F.EG_CFG_PORT i.val)
        let s1 := (s.setEg i.val { e with wait := none }).bump (F.EG_STATUS_DROPS i.val)
        s1.dropItem ((if s.on (F.EG_CFG_PORT_TYPE i.val) then 0x4300 else 0x4200) + port) i.val
      else s)

/-- HOLD_GENERATOR_FILL (R401): while SAFE_HOLD is asserted the generator fills every slot of HOLD_SLOTS whose SOURCE is
CASTLE. -/
def execHoldGeneratorFill (s : State) : Out :=
  .next (
    if s.on F.SAFE_STATUS_HOLD_GEN ∧ s.on F.SAFE_STATUS_SAFE_HOLD then s.holdFill else s)

/-- CAN_BUS_STATE_CHANGE (R342, ISO 11898-1): the error counters of CAN_b after an error, a success or a recovery: error
passive above 127, bus-off above 255. -/
def execCanBusStateChange (b : Fin 8) (tec rec : Nat) (errorFrame : Bool) (s : State) : Out :=
  .next (
    let st := if 255 < tec then 2 else if 127 < tec ∨ 127 < rec then 1 else 0
    let s := (s.wr (F.CAN_STATUS_BUS_STATE b.val) st).wr (F.CAN_STATUS_TEC b.val) (min tec 255)
    let s := s.wr (F.CAN_STATUS_REC b.val) (min rec 255)
    if errorFrame then s.bump (F.CAN_STATUS_ERROR_FRAMES b.val) else s)

end Sys2Proof.Machine
end

