-- ==== Sys2Proof/Machine/Time.lean ====
section
/-!
DEFINITION. The commands of the TIME block but for phase events: timebase writes and reads, gPTP and PPS observations,
loss and holdover, phase observations and time-outs, pulse ends, capture edges and FIFO reads (02_time.md).
-/

namespace Sys2Proof.Machine

/-- A write to an instance of the TIME block: ignored and counted unless the requester may use the instance and the
rule's own condition holds. -/
def State.timeWrite (s : State) (r : Req) (u reg : Nat) (ok : Bool) (act : State → State) : State :=
  if s.mayUse r u && ok then act s else s.reject R.TIME_REJECTS (reg % 0x10000)

/-- TB_RATE_WRITE (R32): RATE_ADJ takes the written word while the timebase has no source. -/
def execTbRateWrite (r : Req) (n : Fin 8) (d : WData) (s : State) : Out :=
  .next (s.timeWrite r (0x5100 + n.val) (R.TB_RATE n.val) (s.tbFree n.val)
    (fun s => s.writeReg (R.TB_RATE n.val) d))

/-- The new pending slew of TB_n, in ns (R33). -/
def State.slewTo (s : State) (n : Nat) (ns : Int) : State :=
  s.setTb n { s.tb n with slew := ns * 2 ^ 48 }

/-- TB_ADJ_WRITE (R32, R33): the written offset replaces any slew still pending. -/
def execTbAdjWrite (r : Req) (n : Fin 8) (d : WData) (s : State) : Out :=
  .next (s.timeWrite r (0x5100 + n.val) (R.TB_ADJ n.val) (s.tbFree n.val)
    (fun s => if d.lowWritten then s.slewTo n.val (sgn 32 d.bits1) else s))

/-- A SET_LOW word is well-formed: nanoseconds at most 999,999,999 and zero in [15:0] (R33). -/
def setLowOk (v : Nat) : Bool := bits v 32 32 ≤ 999999999 ∧ bits v 0 16 = 0

/-- The timebase set to a seconds word and a SET_LOW word (R33). -/
def State.setTime (s : State) (n sec low : Nat) : State :=
  s.stepTb n ((sec * 1000000000 + bits low 32 32) * 2 ^ 48 + bits low 16 16 * 2 ^ 32)

/-- TB_SET_LOW_WRITE (R32, R33): sets the timebase to TB_n_SET_SEC and the written word and counts the step. -/
def execTbSetLowWrite (r : Req) (n : Fin 8) (d : WData) (s : State) : Out :=
  .next (s.timeWrite r (0x5100 + n.val) (R.TB_SET_LOW n.val) (s.tbFree n.val && setLowOk d.bits1)
    (fun s => s.setTime n.val (mget 0 s.time.setSec n.val) d.bits1))

/-- The TS128 latched for a requester (R53). -/
def State.latchTs (s : State) (r : Req) (t : BitVec 128) : State :=
  { s with time := { s.time with tsLatch := mset 0 s.time.tsLatch (s.reqKey r) t } }

/-- TB_NOW_READ (R53): TB_n_NOW_SEC latches the TS128 of TB_n and returns its seconds; PH_k_NOW latches the TS128 of the
domain's timebase and returns phase and rate. -/
def execTbNowRead (r : Req) (reg : NowReg) (s : State) : Out :=
  match reg with
  | .tb n => .next { s.latchTs r (s.stamp n.val) with rdata := BitVec.ofNat 64 (tsSec (s.stamp n.val)) }
  | .ph k => .next { s.latchTs r (s.stamp (s.rd (F.PH_CTRL_TB k.val))) with
      rdata := BitVec.ofNat 64 ((s.ph k.val).phase + (s.ph k.val).rateNow * 2 ^ 32) }

/-- MAC_p_COMP.RX_COMP in 1/65,536 ns, subtracted from receive stamps. -/
def State.rxComp (s : State) (mac : Nat) : Int := s.rdS (F.MAC_COMP_RX_COMP mac) * 1024

/-- SYNC_RECEIVE (R505, R509, R34): at a Sync of domain d whose master time at reception is `master` (1/65,536 ns), every
timebase that watches the domain takes its receive stamp and the servo of each it disciplines runs on its own offset. -/
def execSyncReceive (mac : Fin 4) (d : Fin 2) (master : Nat) (ratio : Int) (s : State) : Out :=
  .next (
    if s.gptpRuns d.val ∧ bits (s.rd (F.GPTP_STATUS_PORT_STATE d.val)) (2 * mac.val) 2 = 2 then
      let off (n : Nat) : Int := (master : Int) - ((s.tbFine n : Int) - s.rxComp mac.val)
      let s1 := s.wr (F.GPTP_OFFSET_OFFSET d.val) (unsgn 64 (off (s.rd (F.GPTP_CTRL_TB d.val))))
      let s2 := s1.wr (F.GPTP_RATIO_RATE_OFFSET d.val) (unsgn 32 ratio)
      let s3 := { s2 with time := { s2.time with syncAt := mset 0 s2.time.syncAt d.val s.now } }
      (List.range 8).foldl (fun s' n => s'.tbObserve n (d.val + 1) (off n)) s3
    else s)

/-- ANNOUNCE_RECEIVE (R38): the vector the MAC last received enters best-master selection. -/
def execAnnounceReceive (mac : Fin 4) (d : Fin 2) (a : Announce) (s : State) : Out :=
  .next (
    if s.gptpRuns d.val ∧ bit (s.rd (F.GPTP_CTRL_PORT_EN d.val)) mac.val then
      let v : GptpVec := ⟨rootWord a.priority1.toNat a.clockClass.toNat a.accuracy.toNat a.variance.toNat
        a.priority2.toNat a.gmId.toNat, a.stepsRemoved.toNat, a.senderPort.toNat, a.gmId.toNat⟩
      ({ s with time := { s.time with vec := mset vec0 s.time.vec (4 * d.val + mac.val) v } }).bestMaster d.val
    else s)

/-- PDELAY_EXCHANGE (R37): the mean link delay ((t4 − t1) − (t3 − t2)) / 2 of the MAC, in 1/65,536 ns. -/
def execPdelayExchange (mac : Fin 4) (t1 t2 t3 t4 : Nat) (s : State) : Out :=
  .next (
    let delay := (((t4 : Int) - t1) - ((t3 : Int) - t2)) / 2
    let m := clampN 0 (2 ^ 40 - 1) delay.toNat
    (s.wr (F.MAC_PDELAY_MEAN_LINK_DELAY mac.val) m).wr (F.MAC_PDELAY_AS_CAPABLE mac.val)
      (decide (0 ≤ delay) && decide (m ≤ Config.linkDelayLimit)).toNat)

/-- The offset observation of a PPS edge: the whole second nearest T, minus T, in (−0.5 s, +0.5 s] (R504). -/
def ppsOffset (t : Nat) : Int :=
  let sec := 1000000000 * 65536
  let r := t % sec
  if 2 * r < sec then -(r : Int) else (sec : Int) - r

/-- PPS_EDGE (R504, R509): an admitted edge of CAPTURE_IN_m is an observation of every timebase whose PPS input it is. -/
def execPpsEdge (m : Fin 16) (rising : Bool) (held : Nat) (frac : Fin 64) (s : State) : Out :=
  .next (
    if s.admits m.val rising held then
      (List.range 8).foldl (fun s' n =>
        if s.rd (F.TB_CTRL_PPS_INPUT n) = m.val then
          s'.tbObserve n 3 (ppsOffset (s.edgeFine m.val n held frac.val))
        else s') s
    else s)

/-- Every timebase that domain d disciplines loses its source. -/
def State.domainLost (s : State) (d : Nat) : State := (List.range 8).foldl (fun s n => s.tbLost n (d + 1)) s

/-- SOURCE_LOSS (R34): a Sync or Announce time-out, a missing grandmaster, or 1.5 s without a PPS edge. -/
def execSourceLoss (c : Loss) (s : State) : Out :=
  match c with
  | .sync d => .next ((s.bump (F.GPTP_COUNTS_SYNC_TIMEOUTS d.val)).domainLost d.val)
  | .announce d =>
    let s := s.bump (F.GPTP_COUNTS_ANNOUNCE_TIMEOUTS d.val)
    let s := { s with time := { s.time with vec := s.time.vec.filter (fun e => e.1 / 4 ≠ d.val) } }
    .next ((s.bestMaster d.val).domainLost d.val)
  | .noGrandmaster d => .next ((s.wr (F.GPTP_STATUS_GM_PRESENT d.val) 0).domainLost d.val)
  | .pps n => .next (s.tbLost n.val 3)

/-- HOLDOVER_EXPIRE (R34): HOLDOVER_MAX_S seconds in HOLDOVER; the timebase counts on at the frozen rate. -/
def execHoldoverExpire (n : Fin 8) (s : State) : Out :=
  .next (
    let maxS := s.rd (F.TB_CTRL_HOLDOVER_MAX_S n.val)
    if s.rd (F.TB_STATUS_STATE n.val) = 4 ∧ maxS ≠ 0 then
      let s := s.wr (F.TB_STATUS_STATE n.val) 5
      let age := max (s.rd (F.TB_STATUS_HOLDOVER_AGE_MS n.val)) (maxS * 1000)
      (s.wr (F.TB_STATUS_HOLDOVER_AGE_MS n.val) age).event (0x5100 + n.val) 0x3001 n.val [age]
    else s)

/-- PHASE_OBSERVATION (R42): the tracker acts on the oldest observation the source has delivered to PH_k. -/
def execPhaseObservation (k : Fin 8) (s : State) : Out :=
  .next (
    let p := s.ph k.val
    match p.obs with
    | [] => s
    | (t, o) :: rest => (s.setPh k.val { p with obs := rest }).phObserve k.val t o 0)

/-- PH_SW_OBS_WRITE (R40): the written 32-bit phase is an observation at PH_k_SW_TIME, or now where that is zero; ignored
and counted while SOURCE is not 0. -/
def execPhSwObsWrite (r : Req) (k : Fin 8) (d : WData) (s : State) : Out :=
  .next (
    let src := s.rd (F.PH_CTRL_SOURCE k.val)
    s.timeWrite r (0x5200 + k.val) (R.PH_SW_OBS k.val) (src = 0 ∨ 4 < src) (fun s =>
      let t := if (s.ph k.val).swTime = 0 then s.ts64 (s.rd (F.PH_CTRL_TB k.val)) else (s.ph k.val).swTime
      s.phObserve k.val t (bits d.bits1 0 32) (bits d.bits1 32 32)))

/-- PH_ENABLE (R506): a write of PH_k_CTRL; a set ENABLE that was clear starts the domain, a cleared one takes it OFF. -/
def execPhEnable (r : Req) (k : Fin 8) (d : WData) (s : State) : Out :=
  .next (s.timeWrite r (0x5200 + k.val) (R.PH_CTRL k.val) true (fun s =>
    let was := s.on (F.PH_CTRL_ENABLE k.val)
    let s := (s.writeReg (R.PH_CTRL k.val) d).phDisable k.val
    if was then s else s.phEnable k.val))

/-- PHASE_SOURCE_TIMEOUT (R43): no observation for SOURCE_TIMEOUT_US takes the domain into HOLDOVER. -/
def execPhaseSourceTimeout (k : Fin 8) (s : State) : Out :=
  .next (
    let st := s.rd (F.PH_STATUS_STATE k.val)
    if st = 1 ∨ st = 2 then s.wr (F.PH_STATUS_STATE k.val) 3 else s)

/-- PHASE_LOST (R43): HOLDOVER_MAX_MS in HOLDOVER; the phase stops and an event record is written. -/
def execPhaseLost (k : Fin 8) (s : State) : Out :=
  .next (
    if s.rd (F.PH_STATUS_STATE k.val) = 3 ∧ s.rd (F.PH_LIMITS_HOLDOVER_MAX_MS k.val) ≠ 0 then
      let s := (s.wr (F.PH_STATUS_STATE k.val) 4).setPh k.val { s.ph k.val with awaitSecond := false }
      s.event (0x5200 + k.val) 0x3002 k.val [(s.ph k.val).phase]
    else s)

/-- LOST_SECOND_TIMEOUT (R44): no second observation within SOURCE_TIMEOUT_US of the first in LOST; the next one is a
first again. -/
def execLostSecondTimeout (k : Fin 8) (s : State) : Out :=
  .next (
    if s.rd (F.PH_STATUS_STATE k.val) = 4 then s.setPh k.val { s.ph k.val with awaitSecond := false } else s)

/-- PULSE_END (R51): the pulse whose latest end has come ends. -/
def execPulseEnd (n : Fin 16) (s : State) : Out :=
  .next (if (s.pulse n.val).stop ≤ s.now * 32 then s.setPulse n.val pulse0 else s)

def State.capFifo (s : State) (m : Nat) : List CapStamp := mget [] s.time.cap m

def State.setCapFifo (s : State) (m : Nat) (l : List CapStamp) : State :=
  { s with time := { s.time with cap := mset [] s.time.cap m l } }.wr (F.CAPTURE_IN_STATUS_FILL m) l.length

/-- CAPTURE_EDGE (R52, R504, R40): an admitted edge is counted; with ENABLE its stamp, and the phase of PH_INDEX with
PH_EN, enters the FIFO, or OVERRUNS counts it when 16 stamps are held; domains with this index-pulse source observe it. -/
def execCaptureEdge (m : Fin 16) (rising : Bool) (held : Nat) (frac : Fin 64) (s : State) : Out :=
  .next (
    if s.admits m.val rising held then
      let s1 := s.bumpW (F.CAPTURE_IN_STATUS_EDGES m.val)
      let n := s.rd (F.CAPTURE_IN_CTRL_TB m.val)
      let k := s.rd (F.CAPTURE_IN_CTRL_PH_INDEX m.val)
      let phv := s.on (F.CAPTURE_IN_CTRL_PH_EN m.val) && decide (s.rd (F.PH_STATUS_STATE k) ≠ 0)
      let ts := mkTs128 (s.edgeFine m.val n held frac.val * 2 ^ 32) n false (s.tbHold n || phv && s.phHold k)
      let at48 := ((s.ph k).acc + (2 ^ 56 - (s.ph k).rateNow * held % 2 ^ 56)) % 2 ^ 56
      let e : CapStamp := ⟨ts, if phv then at48 / 2 ^ 24 else 0, phv⟩
      let s2 := if s.on (F.CAPTURE_IN_CTRL_ENABLE m.val) then
          if (s.capFifo m.val).length < 16 then s1.setCapFifo m.val (s.capFifo m.val ++ [e])
          else s1.bump (F.CAPTURE_IN_STATUS_OVERRUNS m.val)
        else s1
      (List.range 8).foldl (fun s' k =>
        if s.rd (F.PH_CTRL_SOURCE k) = 4 ∧ s.rd (F.PH_CTRL_SOURCE_INDEX k) = m.val then
          s'.phDeliver k (2 * (s.rd (F.PH_SCALE_ZERO_OFFSET k) : Int))
            ((s.edgeFine m.val (s.rd (F.PH_CTRL_TB k)) held frac.val / 65536 : Nat))
        else s') s2
    else s)

def capStamp0 : CapStamp := ⟨0, 0, false⟩
def evtEntry0 : EvtEntry := ⟨0, 0, false, 0, 0⟩

/-- The word a read of an empty FIFO returns: bit 63 (NV) set, [31:0] zero (R52). -/
def nvWord : Word := 0x8000000000000000#64

/-- CAP_SEC_READ (R52): removes the head into the reader's latch and returns its seconds; on an empty FIFO returns the NV
word and clears the latch. -/
def execCapSecRead (r : Req) (m : Fin 16) (s : State) : Out :=
  let key := s.reqKey r * 16 + m.val
  let latch (s : State) (c : CapStamp) : State :=
    { s with time := { s.time with capLatch := mset capStamp0 s.time.capLatch key c } }
  match s.capFifo m.val with
  | [] => .next { latch s capStamp0 with rdata := nvWord }
  | c :: rest => .next { latch (s.setCapFifo m.val rest) c with rdata := BitVec.ofNat 64 (tsSec c.ts) }

/-- EVT_SEC_READ (R52): as CAP_SEC_READ, on the event FIFO. -/
def execEvtSecRead (r : Req) (s : State) : Out :=
  let latch (s : State) (c : EvtEntry) : State :=
    { s with time := { s.time with evtLatch := mset evtEntry0 s.time.evtLatch (s.reqKey r) c } }
  match s.time.evt with
  | [] => .next { latch s evtEntry0 with rdata := nvWord }
  | c :: rest =>
    let s := { s with time := { s.time with evt := rest } }.wr F.EVT_STATUS_FILL rest.length
    .next { latch s c with rdata := BitVec.ofNat 64 (tsSec c.ts) }

/-- SYNC_TRANSMIT (R37): on a master port of a running domain the module sends a two-step Sync with the time of the
domain's timebase, TX_COMP added. -/
def execSyncTransmit (mac : Fin 4) (d : Fin 2) (s : State) : Out :=
  .next (
    if s.gptpRuns d.val ∧ bits (s.rd (F.GPTP_STATUS_PORT_STATE d.val)) (2 * mac.val) 2 = 1 then
      let t := ((s.tbFine (s.rd (F.GPTP_CTRL_TB d.val)) : Int) + s.rdS (F.MAC_COMP_TX_COMP mac.val) * 1024).toNat
      { s with time := { s.time with syncSent := mset 0 s.time.syncSent (4 * d.val + mac.val) t } }
    else s)

end Sys2Proof.Machine
end

