-- ==== Sys2Proof/Machine/Vox.lean ====
section
/-!
DEFINITION. The commands of the voxel engine (05_voxel.md).
-/

namespace Sys2Proof.Machine

/-- A phase event's NOTIFY on its way to the voxel engine. -/
def isVoxNotify (m : Msg) : Bool := decide (m.dest = 0x7000) && decide (m.op = 0x04) && decide (m.src / 0x100 = 0x53)

/-- The bundle of a sequence, while it is held. -/
def State.bundleAt (s : State) (seq : Nat) : Option AlnBundle := s.aln.bundles.find? (fun b => b.seq = seq)

/-- VOX_TRIGGER (R113, R114): the oldest bundle made visible, with TRIGGER 0, or the oldest NOTIFY of a phase event to
0x7000, with TRIGGER 1, whose TS128 lies in bytes 16 to 31 (R507). -/
def execVoxTrigger (s : State) : Out :=
  .next (
    match s.vox.offered with
    | q :: rest =>
      let s1 := { s with vox := { s.vox with offered := rest } }
      match s.bundleAt q with
      | some b => s1.voxTrigger b.stamp (some q)
      | none => s1
    | [] =>
      match s.net.find? isVoxNotify with
      | some m =>
        let s1 := { s with net := s.net.erase m }
        if s.rd F.VOX_CFG_TRIGGER = 1 then s1.voxTrigger (BitVec.ofNat 128 (field m.payload 16 16)) none else s1
      | none => s)

/-- VOX_BUILD_START (R115, R122). -/
def execVoxBuildStart (s : State) : Out :=
  .next (
    match s.vox.trig with
    | [] => s
    | t :: _ => if s.voxIdle && s.voxReady t then s.voxStart false else s)

/-- VOX_WAIT_EXPIRE (R115): TIME_CLK reaches t_v + WAIT_US. -/
def execVoxWaitExpire (s : State) : Out := .next (if s.voxIdle then s.voxStart true else s)

/-- VOX_FRAME_EMIT (R131, R134): the build is finished. -/
def execVoxFrameEmit (s : State) : Out := .next s.emitFrame

/-- VOX_RELEASE_WRITE (R132). -/
def execVoxReleaseWrite (r : Req) (d : WData) (s : State) : Out :=
  .next (
    let seq := bits d.bits1 0 32
    let old := s.rd F.VOX_OUT_POS_OLDEST_SEQ
    let held := decide (fwd (2 ^ 32) old seq < fwd (2 ^ 32) old (s.rd F.VOX_OUT_POS_NEXT_SEQ))
    if s.mayUse r 0x7000 && !d.lowWritten then s
    else if s.mayUse r 0x7000 && held then s.wr F.VOX_OUT_POS_OLDEST_SEQ (seq + 1)
    else s.reject R.VOX_REJECTS (R.VOX_RELEASE % 0x10000))

/-- VOX_RESET_DONE (R136): the drain is complete. -/
def execVoxResetDone (s : State) : Out :=
  .next (if s.ustate 0x7000 = US.resetting then s.setUstate 0x7000 US.ready else s)

end Sys2Proof.Machine
end

