-- ==== Sys2Proof/Machine/RegOps.lean ====
section
/-!
DEFINITION. The CSR region as a whole: a write and a read of any register by a requester, under the write rules of its block, with
what the write or the read brings about (R4, R10, R345, R378, R379, R412, R447, R448, R482, R483, R510, R511 and the rules of
each chapter's registers).
-/

namespace Sys2Proof.Machine

def csrBase : Nat := 0x600000000000

/-- The state a meaning that always completes gives. -/
def outState (s : State) : Out → State
  | .next t => t
  | _ => s

/-! ### The TIME block (R32, R33, R40, R49, R510) -/

/-- TB_n after its control register was written: OFF without ENABLE, FREE without a source, ACQUIRING where a source is new
(log entry 43). -/
def State.tbConfigure (s : State) (n active : Nat) : State :=
  let st := s.rd (F.TB_STATUS_STATE n)
  let clear (s : State) : State :=
    ((s.wr (F.TB_STATUS_ON_ALT n) 0).wr (F.TB_STATUS_SWITCHING n) 0).wr (F.TB_STATUS_HOLDOVER_AGE_MS n) 0
  if s.on (F.TB_CTRL_ENABLE n) = false then (clear s).wr (F.TB_STATUS_STATE n) 0
  else if st = 0 then s
  else if s.tbFree n then (clear s).wr (F.TB_STATUS_STATE n) 1
  else if st = 1 ∨ active ≠ s.tbActive n then
    ((clear s).wr (F.TB_STATUS_STATE n) 2).setTb n { s.tb n with lockRun := 0, lastObs := none }
  else s

/-- A write of PH_k_SCALE: a domain starts or stops with its units per revolution. -/
def State.phScale (s : State) (k : Nat) (d : WData) : State :=
  let was := s.on (F.PH_CTRL_ENABLE k) && decide (s.rd (F.PH_SCALE_UNITS_PER_REV k) ≠ 0)
  let s := (s.writeReg (R.PH_SCALE k) d).phDisable k
  if was then s else s.phEnable k

def State.timeRegWrite (s : State) (r : Req) (off : Nat) (d : WData) : State :=
  let a := R.TIME_CTRL + off
  let plain (u : Nat) : State := s.timeWrite r u a true (fun s => s.writeReg a d)
  if 0x100 ≤ off ∧ off < 0x500 then
    let n : Fin 8 := Fin.ofNat 8 ((off - 0x100) / 0x80)
    let k := (off - 0x100) % 0x80
    if k = 0 then s.timeWrite r (0x5100 + n.val) a true (fun s =>
      let was := s.tbActive n.val
      (s.writeReg a d).tbConfigure n.val was)
    else if k = 0x20 then outState s (execTbRateWrite r n d s)
    else if k = 0x28 then outState s (execTbAdjWrite r n d s)
    else if k = 0x30 then s.timeWrite r (0x5100 + n.val) a true (fun s =>
      { s with time := { s.time with setSec := mset 0 s.time.setSec n.val (d.over (mget 0 s.time.setSec n.val)) } })
    else if k = 0x38 then outState s (execTbSetLowWrite r n d s)
    else plain (0x5100 + n.val)
  else if 0x500 ≤ off ∧ off < 0x700 then
    let k : Fin 8 := Fin.ofNat 8 ((off - 0x500) / 0x40)
    let o := (off - 0x500) % 0x40
    if o = 0 then outState s (execPhEnable r k d s)
    else if o = 8 then s.timeWrite r (0x5200 + k.val) a true (fun s => s.phScale k.val d)
    else if o = 0x30 then
      let src := s.rd (F.PH_CTRL_SOURCE k.val)
      s.timeWrite r (0x5200 + k.val) a (src = 0 ∨ 4 < src) (fun s => s.setPh k.val { s.ph k.val with swTime := d.over (s.ph k.val).swTime })
    else if o = 0x38 then outState s (execPhSwObsWrite r k d s)
    else plain (0x5200 + k.val)
  else if 0x700 ≤ off ∧ off < 0x800 then plain (0x5400 + (off - 0x700) / 0x10)
  else if 0x800 ≤ off ∧ off < 0x900 then plain (0x5500 + (off - 0x800) / 0x10)
  else if 0x1000 ≤ off ∧ off < 0x2000 then
    let j : Fin 64 := Fin.ofNat 64 ((off - 0x1000) / 0x40)
    let o := (off - 0x1000) % 0x40
    if o = 0 then outState s (execPeCtrlWrite r j d s)
    else if o ≤ 0x18 then
      s.timeWrite r (0x5300 + j.val) a (!s.on (F.PE_CTRL_ARM j.val)) (fun s => s.writeReg a d)
    else if o = 0x20 then outState s (execPeRetargetWrite r j d s)
    else plain (0x5300 + j.val)
  else if off = 0 ∨ (0xC00 ≤ off ∧ off < 0xD40) then
    if r.trusted then (if off = 0 then s.writeReg a d else (s.writeReg a d).gptpCheck)
    else s.reject R.TIME_REJECTS off
  else s

/-- What the TIME block's registers read as; the latches are those of the requester (R52, R53). -/
def State.timeRegView (s : State) (r : Req) (off : Nat) : Nat :=
  let a := R.TIME_CTRL + off
  let key := s.reqKey r
  let ts := mget 0 s.time.tsLatch key
  let mask (lo n : Nat) (p : Nat → Bool) : Nat := (List.range n).foldl (fun v i => if p i then v + 2 ^ (lo + i) else v) 0
  if off = 8 then
    mask 0 8 s.tbHold + mask 8 8 (fun n => s.rd (F.TB_STATUS_STATE n) = 3) + mask 16 8 (fun k => s.rd (F.PH_STATUS_STATE k) = 2) +
      mask 24 8 s.phHold + mask 32 8 (fun k => s.rd (F.PH_STATUS_STATE k) = 4)
  else if 0x100 ≤ off ∧ off < 0x500 then
    let n := (off - 0x100) / 0x80
    let k := (off - 0x100) % 0x80
    if k = 0x10 then tsSec (s.stamp n) else if k = 0x18 then tsLow ts else if k = 0x48 then tsSec ts else s.reg a
  else if 0x500 ≤ off ∧ off < 0x700 ∧ (off - 0x500) % 0x40 = 0x28 then
    let p := s.ph ((off - 0x500) / 0x40)
    Ph.phase p + p.rateNow * 2 ^ 32
  else if 0x900 ≤ off ∧ off < 0xB00 then
    let m := (off - 0x900) / 0x20
    let c := mget capStamp0 s.time.capLatch (key * 16 + m)
    let o := (off - 0x900) % 0x20
    if o = 0 then (match s.capFifo m with | [] => nvWord.toNat | c :: _ => tsSec c.ts)
    else if o = 8 then tsLow c.ts else if o = 0x10 then c.phase + c.phValid.toNat * 2 ^ 32 else 0
  else if 0xB00 ≤ off ∧ off < 0xB18 then
    let e := mget evtEntry0 s.time.evtLatch key
    if off = 0xB00 then (match s.time.evt with | [] => nvWord.toNat | e :: _ => tsSec e.ts)
    else if off = 0xB08 then tsLow e.ts else e.event + e.late.toNat * 64 + e.kind * 128 + e.phase % 2 ^ 32 * 256
  else if off = 0xC18 ∨ off = 0xC98 then
    let d := (off - 0xC18) / 0x80
    insField (s.reg a) 32 32 (min ((s.now - mget 0 s.time.syncAt d) / 1000) (2 ^ 32 - 1))
  else s.reg a

/-! ### The INGEST and IQ blocks (R64, R66, R511) -/

def State.ingestRegWrite (s : State) (r : Req) (off : Nat) (d : WData) : State :=
  let a := R.INGEST_CTRL + off
  let go (g : StreamReg) : State := s.streamWrite r g d
  if 0x100 ≤ off ∧ off < 0x500 then
    let i := (off - 0x100) / 0x20
    if (off - 0x100) % 0x20 = 0 then go (.slot (Fin.ofNat 32 i))
    else if s.mayUse r (0x4000 + i) then s.writeReg a d
    else s.reject R.INGEST_REJECTS off
  else if 0x500 ≤ off ∧ off < 0x600 ∧ off % 0x10 = 0 then go (.csi (Fin.ofNat 16 ((off - 0x500) / 0x10)))
  else if 0x600 ≤ off ∧ off < 0x640 ∧ off % 0x10 = 0 then go (.eth (Fin.ofNat 4 ((off - 0x600) / 0x10)))
  else if 0x700 ≤ off ∧ off < 0x780 ∧ off % 0x10 = 0 then go (.can (Fin.ofNat 8 ((off - 0x700) / 0x10)))
  else if 0x780 ≤ off ∧ off < 0x7C0 ∧ off % 0x10 = 0 then go (.spi (Fin.ofNat 4 ((off - 0x780) / 0x10)))
  else if 0x800 ≤ off ∧ off < 0x880 ∧ off % 0x10 = 0 then go (.enc (Fin.ofNat 8 ((off - 0x800) / 0x10)))
  else if off = 0 ∨ (0x640 ≤ off ∧ off < 0x660) ∨ (0x780 ≤ off ∧ off < 0x7C0) ∨ off = 0x880 ∨ off = 0x888 ∨ (0x900 ≤ off ∧ off < 0x980) then
    if r.trusted then (s.writeReg a d).pauseEval else s.reject R.INGEST_REJECTS off
  else s

def State.ingestRegView (s : State) (off : Nat) : Nat :=
  let a := R.INGEST_CTRL + off
  let bad (i : Nat) : Bool := s.slotEnabled i && s.slotErr i
  if off = 8 then
    (List.range 32).foldl (fun v i => v + (if s.slotRuns i then 2 ^ i else 0) + (if bad i then 2 ^ (32 + i) else 0)) 0
  else if 0x100 ≤ off ∧ off < 0x500 ∧ off % 0x20 = 0x18 then
    let i := (off - 0x100) / 0x20
    insField (s.reg a) 0 2 ((s.slotRuns i).toNat + (bad i).toNat * 2)
  else s.reg a

def State.iqRegWrite (s : State) (r : Req) (off : Nat) (d : WData) : State :=
  let a := R.IQ_CTRL + off
  if off = 0 then (if r.trusted then s.writeReg a d else s.reject R.IQ_REJECTS off)
  else if 0x100 ≤ off ∧ off < 0x1100 then
    let i : Fin 32 := Fin.ofNat 32 ((off - 0x100) / 0x80)
    let k := (off - 0x100) % 0x80
    if k = 0x20 then s.cursorWrite r i.val d
    else if k = 0x28 then outState s (execIqReleaseWrite r i d s)
    else if k = 0 ∨ k = 8 ∨ k = 0x10 ∨ k = 0x58 then
      if s.mayUse r (0x4000 + i.val) then
        let t := s.writeReg a d
        if k ≤ 8 ∧ s.reg a ≠ t.reg a then t.iqEmpty i.val else if k = 0x10 then t.iqLevel i.val else t
      else s.reject R.IQ_REJECTS off
    else s
  else s

/-- What the IQ block's registers read as; a head read by one who is not the reader is the NV word. -/
def State.iqRegView (s : State) (r : Req) (off : Nat) : Nat :=
  let a := R.IQ_CTRL + off
  let head (i : Nat) : Nat := match s.iqHead i with | some e => headWord i e | none => iqNv
  if off = 8 then (match s.anyHead r with | some i => head i | none => iqNv)
  else if off = 0x10 then (List.range 32).foldl (fun v i => if (s.iqHead i).isSome then v + 2 ^ i else v) 0
  else if off = 0x18 then (List.range 32).foldl (fun v i => if (s.q i).above then v + 2 ^ i else v) 0
  else if 0x100 ≤ off ∧ off < 0x1100 then
    let i := (off - 0x100) / 0x80
    let k := (off - 0x100) % 0x80
    let q := s.q i
    let size := s.ringSize i
    if k = 0x18 then (if s.isReader r i then head i else iqNv)
    else if k = 0x30 then
      IqSt.fill q % 2 ^ 32 + q.opn.isSome.toNat * 2 ^ 32 + q.above.toNat * 2 ^ 33 + (s.slotEnabled i && s.iqErr i).toNat * 2 ^ 34
    else if k = 0x38 then q.wr % max 1 size + IqSt.posOf q size q.read * 2 ^ 32
    else if k = 0x40 then IqSt.posOf q size 0 + IqSt.posOf q size q.mark * 2 ^ 32
    else s.reg a
  else s.reg a

/-! ### The ALIGN and VOX blocks -/

def State.alnRegWrite (s : State) (r : Req) (off : Nat) (d : WData) : State :=
  let a := R.ALN_CTRL + off
  if a = R.ALN_RELEASE then outState s (execAlnReleaseWrite r d s) else s.alnWrite r a true (fun s => s.writeReg a d)

def State.alnRegView (s : State) (off : Nat) : Nat :=
  let a := R.ALN_CTRL + off
  if a = R.ALN_STATUS then
    insField (s.reg a) 3 5 (s.aln.build.isSome.toNat + s.aln.inst.length % 8 * 2 + s.alnConfigErr.toNat * 16)
  else if 0x100 ≤ off ∧ off < 0x500 ∧ off % 0x20 = 0x18 then
    let i := (off - 0x100) / 0x20
    let st := if !s.alnOn i then 0 else if s.alnErr i then 3 else if s.reg a % 4 = 2 then 2 else 1
    insField (insField (s.reg a) 0 2 st) 48 16 (min (mget [] s.aln.held i).length 65535)
  else s.reg a

def State.voxRegWrite (s : State) (r : Req) (off : Nat) (d : WData) : State :=
  let a := R.VOX_CTRL + off
  if a = R.VOX_RELEASE then outState s (execVoxReleaseWrite r d s)
  else if s.mayUse r 0x7000 then s.writeReg a d
  else s.reject R.VOX_REJECTS off

def State.voxRegView (s : State) (off : Nat) : Nat :=
  let a := R.VOX_CTRL + off
  if a = R.VOX_STATUS then
    insField (insField (insField (s.reg a) 0 1 s.vox.build.isSome.toNat) 2 1 s.voxConfigErr.toNat) 3 2 s.vox.trig.length
  else if 0x100 ≤ off ∧ off < 0x400 ∧ (off - 0x100) % 0x60 = 0x50 then
    let l := (off - 0x100) / 0x60
    insField (s.reg a) 0 2 (if !s.vsOn l then 0 else if s.vsErr l then 2 else 1)
  else s.reg a

/-! ### The REFLEX block (R344) -/

/-- The egress slot whose configuration, template, fields or SEND an offset belongs to. -/
def egSlotOf (off : Nat) : Option Nat :=
  if 0xD00 ≤ off ∧ off < 0x1100 then some ((off - 0xD00) / 0x20)
  else if 0x2000 ≤ off ∧ off < 0x4000 then some ((off - 0x2000) / 0x100)
  else if 0x4000 ≤ off ∧ off < 0x5000 then some ((off - 0x4000) / 0x80)
  else none

/-- GPIO_LEVEL of the pins the unit drives follows their levels. -/
def State.syncPins (s : State) : State :=
  let en := s.rd F.RFX_GPIO_OUT_EN_PINS
  s.wr F.GPIO_LEVEL_LEVELS ((s.rd F.GPIO_LEVEL_LEVELS &&& (0xFFFFFFFFFFFFFFFF ^^^ en)) ||| (s.rd F.RFX_GPIO_OUT_LEVELS &&& en))

def State.rfxRegWrite (s : State) (r : Req) (off : Nat) (d : WData) : State :=
  let a := R.RFX_CTRL + off
  let castle := match egSlotOf off with
    | some i => decide (s.rd (F.EG_CFG_SOURCE i) = 3)
    | none => false
  if 0xD00 ≤ off ∧ off < 0x1100 ∧ off % 0x20 = 0x10 then outState s (execEgSendWrite r (Fin.ofNat 32 ((off - 0xD00) / 0x20)) d s)
  else s.rfxWrite r castle a (fun s =>
    let s := s.writeReg a d
    if off = 0x18 ∨ off = 0x20 then s.syncPins
    else if 0x1100 ≤ off ∧ off < 0x1180 ∧ off % 0x20 = 0 ∧ s.on (F.EG_GCL_CTRL_ENABLE ((off - 0x1100) / 0x20)) = false then
      s.setGcl ((off - 0x1100) / 0x20) gcl0
    else s)

/-! ### The SAFETY block (R412) -/

def State.safeRegWrite (s : State) (r : Req) (off : Nat) (d : WData) : State :=
  let a := R.SAFE_CTRL + off
  if 0x100 ≤ off ∧ off < 0x1100 ∧ off % 0x20 = 0x18 then outState s (execScKickWrite r (Fin.ofNat 128 ((off - 0x100) / 0x20)) d s)
  else if 0x1100 ≤ off ∧ off < 0x1900 ∧ off % 0x20 = 0x18 then outState s (execTsMarkWrite r (Fin.ofNat 64 ((off - 0x1100) / 0x20)) d s)
  else if r ≠ .castle then s.reject R.SAFE_REJECTS off
  else if off = 0 then
    let s := if bit d.bits1 2 then outState s (execSafeExit r s) else s
    let s := if bit d.bits1 1 then outState s (execSafeReq r s) else s
    if bit d.bits1 0 then s.wr F.SAFE_CTRL_LOCK 1 else s
  else if 0x100 ≤ off ∧ off < 0x1100 ∧ off % 0x20 = 0 then outState s (execScArm r (Fin.ofNat 128 ((off - 0x100) / 0x20)) d s)
  else if 0x1100 ≤ off ∧ off < 0x1900 ∧ off % 0x20 = 0 then outState s (execTsArm r (Fin.ofNat 64 ((off - 0x1100) / 0x20)) d s)
  else s.writeReg a d

def State.safeRegView (s : State) (off : Nat) : Nat :=
  let a := R.SAFE_CTRL + off
  if 0x2000 ≤ off ∧ off < 0x2800 ∧ off % 0x40 = 0x28 then
    let c := (off - 0x2000) / 0x40
    let f := F.CP_VERDICT_CONFIG_ERROR c
    insField (s.reg a) f.lo f.w (s.on (F.CP_CFG_ENABLE c) && s.cpErr c).toNat
  else s.reg a

/-! ### CFG and PART (R379) -/

/-- Registers of CFG and PART that take writes: the LOCK bits and the PART schedule. -/
def partTakes (addr : Nat) : Bool :=
  let off := addr % 0x10000
  decide (off = 0) || (decide (addr / 0x10000 = 0x6000000F) && (decide (8 ≤ off ∧ off ≤ 0x18) || decide (0x80 ≤ off ∧ off < 0x100)))

def State.cfgRegWrite (s : State) (r : Req) (addr : Nat) (d : WData) : State :=
  if r.trusted && partTakes addr then s.writeReg addr d
  else s.reject (if addr / 0x10000 = 0x6000000F then R.PART_REJECTS else R.CFG_REJECTS) (addr % 0x10000)

/-! ### GLOBAL -/

/-- EGRESS_TIMEOUT: a write below 10 takes 10, one above 10,000 takes 10,000. -/
def State.globalWrite (s : State) (addr : Nat) (d : WData) : State :=
  let s := s.writeReg addr d
  if addr = R.EGRESS_TIMEOUT ∧ d.lowWritten = true then
    s.wr F.EGRESS_TIMEOUT_TIMEOUT_US (clampN 10 10000 (s.rd F.EGRESS_TIMEOUT_TIMEOUT_US))
  else s

/-! ### Any register -/

/-- The unit whose register block an address lies in, where the unit can be absent. -/
def blockUnit (addr : Nat) : Option Nat :=
  let b := addr / 0x10000 - 0x60000000
  if 0x10 ≤ b ∧ b < 0x50 then some (0x1000 + (b - 0x10))
  else if 0x50 ≤ b ∧ b < 0x70 then some (0x2000 + (b - 0x50))
  else if 0x70 ≤ b ∧ b < 0x78 then some (0x3000 + (b - 0x70))
  else if b = 8 ∧ 0x8000 ≤ addr % 0x10000 then some dynUnit
  else none

/-- The block has its supply: everything in RUN, SAFE and PARK, and from VIN on while the module boots; in DEEP and while the dies
are off the always-on domain only; nothing in OFF and in factory test (R18, R450, R457, R484, R492). -/
def State.blockPowered (s : State) (addr : Nat) : Bool :=
  match s.boot.phase with
  | 1 => alwaysOn addr
  | 2 => true
  | 3 => alwaysOn addr || decide (s.modState ≠ stDeep)
  | _ => false

/-- A write of the register at an 8-byte aligned address by a requester. Blocks of absent units and addresses of no block
ignore it (R4). -/
def State.regWrite (s : State) (r : Req) (addr : Nat) (d : WData) : State :=
  let b := addr / 0x10000 - 0x60000000
  let off := addr % 0x10000
  let here := match blockUnit addr with | some u => s.present u | none => true
  if addr < csrBase ∨ !here ∨ !s.blockPowered addr then s
  else if b = 0 then s.globalWrite addr d
  else if b = 1 then s.mbxRegWrite r off d
  else if b = 2 ∨ b = 0xF then s.cfgRegWrite r addr d
  else if b = 3 then s.timeRegWrite r off d
  else if b = 4 then s.ingestRegWrite r off d
  else if b = 5 then s.iqRegWrite r off d
  else if b = 6 then s.alnRegWrite r off d
  else if b = 7 then s.voxRegWrite r off d
  else if b = 8 then (if off < 0x8000 then s.ccWrite r off d else s.dynWrite r off d)
  else if b = 9 then s.rfxRegWrite r off d
  else if b = 0xA then s.safeRegWrite r off d
  else if b = 0xB then s.pwrWrite r off d
  else if b = 0xC then s.clkWrite r off d
  else if b = 0xD then s.mcWrite r off d
  else if b = 0xE then s.linkWrite r off d
  else if b < 0x50 then s.sqWrite r (b - 0x10) off d
  else if b < 0x70 then s.plWrite r (b - 0x50) off d
  else if b < 0x78 then s.aeWrite r (b - 0x70) off d
  else s

/-- The fields of a register that reads show: write-only ones read zero. -/
def readMask (addr v : Nat) : Nat :=
  match regSpec addr with
  | some r => v &&& (0xFFFFFFFFFFFFFFFF ^^^ r.mask .wo)
  | none => v

/-- What a register reads as for a requester. An unpowered block's read is a value the spec does not state. -/
def State.regView (s : State) (r : Req) (addr : Nat) : Nat :=
  let b := addr / 0x10000 - 0x60000000
  let off := addr % 0x10000
  let here := match blockUnit addr with | some u => s.present u | none => true
  if addr < csrBase ∨ !here then 0
  else if !s.blockPowered addr then Config.openFn 79 [addr] % 2 ^ 64
  else if b = 1 then readMask addr (s.mbxRegView off)
  else if b = 3 then readMask addr (s.timeRegView r off)
  else if b = 4 then s.ingestRegView off
  else if b = 5 then readMask addr (s.iqRegView r off)
  else if b = 6 then readMask addr (s.alnRegView off)
  else if b = 7 then readMask addr (s.voxRegView off)
  else if b = 8 then readMask addr (if off < 0x8000 then s.ccView off else s.dynView off)
  else if b = 0xA then readMask addr (s.safeRegView off)
  else if b = 0xD then s.mcView r off
  else if b = 0xE then s.linkView off
  else if b < 0x10 then readMask addr (s.reg addr)
  else if b < 0x50 then readMask addr (s.sqView (b - 0x10) off)
  else if b < 0x70 then readMask addr (s.plView (b - 0x50) off)
  else if b < 0x78 then readMask addr (s.aeView (b - 0x70) off)
  else 0

/-- What a read brings about beyond its value: latches, FIFO and queue heads taken, RC fields cleared (R10, R52, R53, R64, R65). -/
def State.readEffect (s : State) (r : Req) (addr : Nat) : State :=
  let b := addr / 0x10000 - 0x60000000
  let off := addr % 0x10000
  if addr < csrBase ∨ !s.blockPowered addr then s
  else if b = 3 ∧ 0x100 ≤ off ∧ off < 0x500 ∧ (off - 0x100) % 0x80 = 0x10 then
    outState s (execTbNowRead r (.tb (Fin.ofNat 8 ((off - 0x100) / 0x80))) s)
  else if b = 3 ∧ 0x500 ≤ off ∧ off < 0x700 ∧ (off - 0x500) % 0x40 = 0x28 then
    outState s (execTbNowRead r (.ph (Fin.ofNat 8 ((off - 0x500) / 0x40))) s)
  else if b = 3 ∧ 0x900 ≤ off ∧ off < 0xB00 ∧ off % 0x20 = 0 then
    outState s (execCapSecRead r (Fin.ofNat 16 ((off - 0x900) / 0x20)) s)
  else if b = 3 ∧ off = 0xB00 then outState s (execEvtSecRead r s)
  else if b = 5 ∧ off = 8 then outState s (execIqAnyHeadRead r s)
  else if b = 5 ∧ 0x100 ≤ off ∧ off < 0x1100 ∧ (off - 0x100) % 0x80 = 0x18 then
    outState s (execIqHeadRead r (Fin.ofNat 32 ((off - 0x100) / 0x80)) s)
  else s.clearRc (canonReg addr)

/-- A read of a register by a requester: its value and what the read brings about. -/
def State.regRead (s : State) (r : Req) (addr : Nat) : Nat × State :=
  let v := s.regView r addr
  (v, { s.readEffect r addr with rdata := s.rdata })

/-- Which half of a register an access of a 32-bit requester reads; a 64-bit access reads it whole (R10). -/
def State.regLoad (s : State) (r : Req) (addr : Nat) (h : Half) : State :=
  let view := s.regView r addr
  match h with
  | .both =>
    let (v, s) := s.regRead r addr
    { s with rdata := BitVec.ofNat 64 v, half := mset half0 s.half r.num half0 }
  | .low =>
    let (v, s) := s.halfRead r addr false view (fun s => (s.regRead r addr).2)
    { s with rdata := BitVec.ofNat 64 v }
  | .high =>
    let (v, s) := s.halfRead r addr true view id
    { s with rdata := BitVec.ofNat 64 v }

/-- The requester's previous access is no longer a low-word load (R10). -/
def State.dropHalf (s : State) (r : Req) : State := { s with half := mset half0 s.half r.num half0 }

/-- A store: the register written, and no kept half word (R10). -/
def State.regStore (s : State) (r : Req) (addr : Nat) (d : WData) : State := (s.dropHalf r).regWrite r addr d

/-! ### Whether a requester may read or write a register (0x07, 0x08) -/

/-- Registers an owner may not read: an IOMMU's files, for all but its own partition (R447). -/
def State.mayRead (s : State) (r : Req) (addr : Nat) : Bool :=
  !(decide (addr / 0x10000 = 0x6000000D) && decide (0x8000 ≤ addr % 0x10000)) || r.trusted ||
    decide (s.reqPart r = some ((addr % 0x10000 - 0x8000) / 0x1000))

/-- The REJECTS register that counts a block's ignored writes. -/
def rejectsReg (addr : Nat) : Nat :=
  let b := addr / 0x10000 - 0x60000000
  if b = 1 then R.MBX_REJECTS else if b = 2 then R.CFG_REJECTS else if b = 3 then R.TIME_REJECTS
  else if b = 4 then R.INGEST_REJECTS else if b = 5 then R.IQ_REJECTS else if b = 6 then R.ALN_REJECTS
  else if b = 7 then R.VOX_REJECTS
  else if b = 8 then (if addr % 0x10000 < 0x8000 then R.CC_REJECTS else R.DYN_REJECTS)
  else if b = 9 then R.RFX_REJECTS else if b = 0xA then R.SAFE_REJECTS else if b = 0xB then R.PWR_REJECTS
  else if b = 0xC then R.CLK_REJECTS else if b = 0xD then R.MC_REJECTS else if b = 0xE then R.LINK_REJECTS
  else if b = 0xF then R.PART_REJECTS
  else if b < 0x50 then R.SQ_REJECTS (b - 0x10) else if b < 0x70 then R.PL_REJECTS (b - 0x50) else R.AE_REJECTS (b - 0x70)

/-- The block would ignore a write: it counts it, or the register has no field that the write reaches. -/
def State.writeIgnored (s : State) (r : Req) (addr : Nat) (d : WData) : Bool :=
  let counted := decide (bits (((s.setReg (rejectsReg addr) 0).regWrite r addr d).reg (rejectsReg addr)) 0 32 ≠ 0)
  let iommu := decide (addr / 0x10000 = 0x6000000D) && decide (0x8000 ≤ addr % 0x10000)
  if !s.blockPowered addr then true
  else if iommu then counted
  else match regSpec addr with
    | none => true
    | some x =>
      decide (x.mask .rw + (if s.locked addr then 0 else x.mask .rwl) + x.mask .wo + x.mask .w1s + x.mask .w1c = 0) || counted

end Sys2Proof.Machine
end

