-- ==== Sys2Proof/Machine/ImageOps.lean ====
section
/-!
DEFINITION. The configuration image: banks of the NOR, header and status word, the seven checks, layers of records and their
application, the boot choice, and the loading of the castle program and host boot sections (R368 to R377, R489, R490).
-/

namespace Sys2Proof.Machine

/-! ### The NOR -/

def bankSize : Nat := 0x2000000
def bankBook : Nat := 0x1F00000
def bankStatusOff : Nat := 0x1EFF000

def State.norByte (s : State) (a : Nat) : Byte := mget 0xFF s.img.nor a
def State.norBytes (s : State) (a n : Nat) : List Byte := (List.range n).map (fun i => s.norByte (a + i))

/-- Bytes programmed: bits go from 1 to 0 only. -/
def State.norProgram (s : State) (a : Nat) (l : List Byte) : State :=
  { s with img := { s.img with nor := l.zipIdx.foldl (fun m e => mset 0xFF m (a + e.2) (mget 0xFF m (a + e.2) &&& e.1)) s.img.nor } }

/-- A bank erased outside its book region, status word included (R375). -/
def State.norErase (s : State) (k : Nat) : State :=
  { s with img := { s.img with nor := s.img.nor.filter (fun e => !(decide (k * bankSize ≤ e.1) && decide (e.1 < k * bankSize + bankBook))) } }

/-! ### Header and status word -/

def State.bankHeader (s : State) (k : Nat) : List Byte := s.norBytes (k * bankSize) 4096

/-- The bank status word; a bit counts where it is 0. -/
def State.bankWord (s : State) (k : Nat) : Nat := ofBytes (s.norBytes (k * bankSize + bankStatusOff) 4)

def stWritten : Nat := 0
def stVerified : Nat := 1
def stTrial : Nat := 2
def stBooted : Nat := 3
def stConfirmed : Nat := 4
def stRejected : Nat := 5

def State.bankIs (s : State) (k b : Nat) : Bool := !bit (s.bankWord k) b

/-- One status bit programmed from 1 to 0. -/
def State.programStatus (s : State) (k b : Nat) : State :=
  let a := k * bankSize + bankStatusOff
  let w := s.bankWord k
  (if bit w b then s.norProgram a (toBytes 4 (w - 2 ^ b)) else s).wr (if k = 0 then F.CFG_BANK_A_STATUS else F.CFG_BANK_B_STATUS)
    (bits (if bit w b then w - 2 ^ b else w) 0 6)

structure ImgSection where
  typ : Nat
  off : Nat
  len : Nat
  hash : Nat
  deriving DecidableEq, Repr

def hdrGeneration (h : List Byte) : Nat := field h 12 4
def hdrVersion (h : List Byte) : Nat := field h 16 1
def hdrKey (h : List Byte) : Nat := field h 17 1

/-- The sections of a header. -/
def hdrSections (h : List Byte) : List ImgSection :=
  (List.range (min 16 (field h 18 1))).map (fun i =>
    ⟨field h (64 + 64 * i) 1, field h (68 + 64 * i) 4, field h (72 + 64 * i) 4, ofBytesBE (slice h (80 + 64 * i) 48)⟩)

def State.sectionBytes (s : State) (k : Nat) (x : ImgSection) : List Byte := s.norBytes (k * bankSize + x.off) x.len

/-! ### The checks of R372 -/

/-- Check 1: MAGIC, FORMAT, and sections within their region, apart from one another, exactly one of them the user layer. -/
def hdrForm (h : List Byte) : Bool :=
  let xs := hdrSections h
  decide (slice h 0 8 = [0x47, 0x4C, 0x58, 0x49, 0x4D, 0x47, 0x30, 0x31]) && decide (field h 8 4 = 1) &&
    decide (1 ≤ field h 18 1 ∧ field h 18 1 ≤ 16) &&
    xs.all (fun x => decide (1 ≤ x.typ ∧ x.typ ≤ 4) && decide (0x1000 ≤ x.off) && decide (x.off + x.len ≤ bankStatusOff)) &&
    xs.zipIdx.all (fun a => xs.zipIdx.all (fun b =>
      decide (a.2 = b.2) || decide (a.1.off + a.1.len ≤ b.1.off) || decide (b.1.off + b.1.len ≤ a.1.off))) &&
    decide ((xs.filter (fun x => x.typ = 1)).length = 1)

/-- Section bytes match their hashes. -/
def State.sectionsOk (s : State) (k : Nat) (h : List Byte) (typ : Nat → Bool) : Bool :=
  (hdrSections h).all (fun x => !typ x.typ || decide (ofBytesBE (sha384 (s.sectionBytes k x)) = x.hash))

/-- The number of the first check a bank fails, or 0 (R372). -/
def State.bankCheck (s : State) (k : Nat) : Nat :=
  let h := s.bankHeader k
  let slot := hdrKey h
  let key := slice h 1088 96
  if !hdrForm h then 1
  else if 4 ≤ slot ∨ bit (s.rd F.CFG_OTP_KEY_PROGRAMMED) slot = false ∨ ofBytesBE (sha384 key) ≠ Config.keyHash slot % 2 ^ 384 then 2
  else if bit (s.rd F.CFG_OTP_KEY_REVOKED) slot then 3
  else if !ecdsaOk (ofBytesBE (slice key 0 48)) (ofBytesBE (slice key 48 48)) (ofBytesBE (slice h 4000 48)) (ofBytesBE (slice h 4048 48))
      (slice h 0 4000) then 4
  else if !s.sectionsOk k h (fun _ => true) then 5
  else if hdrVersion h < s.rd F.CFG_OTP_FLOOR then 6
  else if (field h 20 4 ≠ 0 ∧ field h 20 4 ≠ s.rd F.IDENT_PART) ∨ (field h 24 8 ≠ 0 ∧ field h 24 8 ≠ s.rd F.SERIAL_SERIAL) then 7
  else 0

/-- CFG_BANK_A or CFG_BANK_B after a check: from the header, with VALID as the check found. -/
def State.showBank (s : State) (k : Nat) (valid : Bool) : State :=
  let h := s.bankHeader k
  s.setReg (if k = 0 then R.CFG_BANK_A else R.CFG_BANK_B)
    (hdrGeneration h + hdrVersion h % 64 * 2 ^ 32 + hdrKey h % 4 * 2 ^ 38 + s.bankWord k % 64 * 2 ^ 40 + valid.toNat * 2 ^ 46)

/-! ### Layers and records (R369 to R371) -/

/-- A record of a layer: key, value, and why it is skipped: 0 not, 1 CRC, 2 length, 3 duplicate, 4 reserved key, 5 absent unit. -/
structure ImgRecord where
  key : Nat
  val : List Byte
  skip : Nat
  deriving DecidableEq, Repr

def recMask (r : ImgRecord) : Nat := field r.val 0 2
def recAddr (r : ImgRecord) (i : Nat) : Nat := 0x600000000000 + r.key * 128 + i * 8

/-- The registers a record names with their values, in ascending order. -/
def recRegs (r : ImgRecord) : List (Nat × Nat) :=
  (bitList (recMask r) 16).zipIdx.map (fun e => (recAddr r e.1, field r.val (2 + 8 * e.2) 8))

def State.recSkip (s : State) (seen : List Nat) (r : ImgRecord) (crc : Bool) : Nat :=
  if !crc then 1
  else if 0xF000 ≤ r.key then 4
  else if r.val.length < 2 ∨ r.val.length ≠ 2 + 8 * (bitList (recMask r) 16).length then 2
  else if seen.contains r.key then 3
  else match blockUnit (recAddr r 0) with
    | some u => if s.present u then 0 else 5
    | none => 0

/-- The records of a layer in order; a record past the end, or KEY 0xFFFF, ends it. -/
def State.parseLayer (s : State) : Nat → List Nat → List Byte → List ImgRecord
  | 0, _, _ => []
  | fuel + 1, seen, l =>
    let key := field l 0 2
    let len := field l 2 2
    let size := ceilDiv (4 + len) 4 * 4 + 4
    if l.length < 4 ∨ key = 0xFFFF ∨ l.length < size then []
    else
      let r : ImgRecord := ⟨key, slice l 4 len, 0⟩
      let crc := decide (crc32c (slice l 0 (4 + len)) = field l (size - 4) 4)
      { r with skip := s.recSkip seen r crc } :: s.parseLayer fuel (if crc then key :: seen else seen) (l.drop size)

/-- The book copy in bank k matches its OTP hash (R368). -/
def State.bookOk (s : State) (k : Nat) : Bool :=
  decide (ofBytesBE (sha384 (s.norBytes (k * bankSize + bankBook) 0x100000)) = Config.bookHash % 2 ^ 384)

def State.activeBank (s : State) : Nat := s.rd F.CFG_STATUS_ACTIVE_BANK

/-- The records of the book in use, none when it is MISSING. -/
def State.bookLayer (s : State) : List ImgRecord :=
  match s.rd F.CFG_STATUS_BOOK with
  | 0 => s.parseLayer 0x40000 [] (s.norBytes (s.activeBank * bankSize + bankBook + 64) (0x100000 - 64))
  | 1 => s.parseLayer 0x40000 [] (s.norBytes ((1 - s.activeBank) * bankSize + bankBook + 64) (0x100000 - 64))
  | _ => []

/-- The records of the running image's user layer. -/
def State.userLayer (s : State) : List ImgRecord :=
  if s.on F.CFG_STATUS_NO_IMAGE then []
  else match (hdrSections s.img.header).find? (fun x => x.typ = 1) with
    | some x => s.parseLayer (x.len / 8 + 1) [] (s.sectionBytes s.activeBank x)
    | none => []

def layerFind (l : List ImgRecord) (key : Nat) : Option ImgRecord := l.find? (fun r => decide (r.key = key) && decide (r.skip = 0))

/-- The effective record of a key, and its layer: the user layer's (1), else the book's (0). -/
def effective (book user : List ImgRecord) (key : Nat) : Option (ImgRecord × Nat) :=
  match layerFind user key with
  | some r => some (r, 1)
  | none => (layerFind book key).map (·, 0)

/-- The keys the layers hold, ascending. -/
def layerKeys (book user : List ImgRecord) : List Nat :=
  (book ++ user).foldl (fun l r => if r.skip = 0 then insertAsc r.key l else l) []

/-- A skipped record counted and logged (R7, R369). -/
def State.countSkip (s : State) (layer : Nat) (r : ImgRecord) : State :=
  if r.skip = 0 then s
  else if r.skip = 5 then (s.bump F.CFG_RECORDS_SKIPPED_ABSENT).event 0xF000 0x1001 r.key [layer]
  else
    (if r.skip = 3 then s.bump F.CFG_RECORDS_DUPLICATE_KEYS else s.bump F.CFG_RECORDS_BAD_RECORDS).event 0xF000 0x1002 r.key [layer, r.skip]

/-- One register written whole as a write from the castle, fields of reset "image" included; its block's LOCK bit waits. -/
def State.imageWrite (s : State) (addr v : Nat) : State :=
  let ro := imageRo addr
  let v' := if lockReg addr = some addr then v / 2 * 2 else v
  let s := match regSpec addr with
    | some x =>
      if x.mask .rw + x.mask .rwl + x.mask .wo + x.mask .w1s + x.mask .w1c = 0 then s
      else s.regStore .castle addr ⟨.both, BitVec.ofNat 64 v'⟩
    | none => s
  let s := if ro = 0 then s else s.setReg addr ((s.reg addr &&& (0xFFFFFFFFFFFFFFFF ^^^ ro)) ||| (v &&& ro))
  s.bump F.CFG_RECORDS_APPLIED

/-- Units and instances assigned to two partitions stay with the lower-numbered one (13_mailbox.md). -/
def State.fixOwners (s : State) : State :=
  (List.range 8).foldl (fun (s : State) p =>
    let twice := (s.partNames p).filter (fun u => (List.range p).any (fun q => match ownFld q u with
      | some (f, i) => bit (s.rd f) i
      | none => false))
    if twice.isEmpty then s
    else (twice.foldl (fun (s : State) u => s.setOwner p u false) s).bump F.CFG_RECORDS_BAD_RECORDS) s

/-- Planes for which the book holds no record (R225). -/
def State.bookMissing (s : State) (book : List ImgRecord) : State :=
  (List.range 32).foldl (fun (s : State) p =>
    let lo := (R.PL_CTRL p - 0x600000000000) / 128
    if s.present (0x2000 + p) ∧ book.any (fun r => decide (r.skip = 0) && decide (lo ≤ r.key) && decide (r.key < lo + 512)) = false then
      (s.wr (F.PL_STATE_BOOK_MISSING p) 1).event (0x2000 + p) 0x1004 (0x2000 + p) []
    else s.wr (F.PL_STATE_BOOK_MISSING p) 0) s

/-- The image applied (R371): effective records in ascending key order, LOCK bits after all of them. -/
def State.imageApply (s : State) : State :=
  let book := s.bookLayer
  let user := s.userLayer
  let s := s.setReg R.CFG_RECORDS 0
  let s := user.foldl (fun (s : State) r => s.countSkip 1 r) (book.foldl (fun (s : State) r => s.countSkip 0 r) s)
  let regs := (layerKeys book user).flatMap (fun k => match effective book user k with
    | some (r, _) => recRegs r
    | none => [])
  let s := regs.foldl (fun (s : State) e => s.imageWrite e.1 e.2) s
  let s := (s.fixOwners.bookMissing book).shareFree
  regs.foldl (fun (s : State) e =>
    if lockReg e.1 = some e.1 ∧ e.2 % 2 = 1 then s.setReg e.1 (setBit (s.reg e.1) 0 true) else s) s

/-! ### Boot choice (R368, R373) -/

/-- Step 1: REJECTED in a bank tried once and not confirmed. -/
def State.rejectTried (s : State) (k : Nat) : State :=
  if s.bankIs k stBooted ∧ s.bankIs k stConfirmed = false then s.programStatus k stRejected else s

/-- A bank is a candidate; a failed check writes an event record. -/
def State.candidate (s : State) (k : Nat) : Bool × State :=
  let s := s.rejectTried k
  let c := if s.bankWord k % 64 = 63 then 1 else s.bankCheck k
  let s := s.showBank k (c = 0)
  let tried := s.bankIs k stVerified && !s.bankIs k stRejected
  (tried && decide (c = 0), if tried && decide (c ≠ 0) then s.event 0xF000 0x1006 k [c] else s)

/-- The bank booted, none for NO_IMAGE; a trial's BOOTED bit is programmed first. -/
def State.bootChoice (s : State) : Option Nat × State :=
  let (a, s) := s.candidate 0
  let (b, s) := s.candidate 1
  let trial (c : Bool) (k : Nat) : Bool := c && s.bankIs k stTrial && !s.bankIs k stBooted
  let newer := decide (hdrGeneration (s.bankHeader 0) < hdrGeneration (s.bankHeader 1))
  let k : Option Nat :=
    if trial a 0 then some 0 else if trial b 1 then some 1
    else if a && b then some newer.toNat else if a then some 0 else if b then some 1 else none
  match k with
  | some k => (some k, if trial true k then s.programStatus k stBooted else s)
  | none => (none, s)

/-- The book in use: the active bank's copy, else the other's; each unusable one is logged (R368). -/
def State.chooseBook (s : State) : State :=
  let k := s.activeBank
  if s.bookOk k then s.wr F.CFG_STATUS_BOOK 0
  else if s.bookOk (1 - k) then (s.wr F.CFG_STATUS_BOOK 1).event 0xF000 0x1003 k [1]
  else ((s.wr F.CFG_STATUS_BOOK 2).event 0xF000 0x1003 k [2]).event 0xF000 0x1003 (1 - k) [2]

/-- A boot's bank and book: CFG_STATUS and the header kept for R401. -/
def State.bootBank (s : State) : State :=
  let (k, s) := s.bootChoice
  let s := (s.wr F.CFG_STATUS_NO_IMAGE k.isNone.toNat).wr F.CFG_STATUS_ACTIVE_BANK (k.getD 0)
  let s := s.wr F.CFG_STATUS_TRIAL (match k with | some k => (s.bankIs k stTrial && !s.bankIs k stConfirmed).toNat | none => 0)
  let s : State := { s with img := { s.img with header := match k with | some k => s.bankHeader k | none => [] } }
  s.chooseBook

/-! ### Loading (R489, R490) -/

/-- The castle program of the running image; a second section of its type is skipped, one too long is not loaded. -/
def State.loadCastle (s : State) : State :=
  let xs := (hdrSections s.img.header).zipIdx.filter (fun x => x.1.typ = 2)
  let s := (xs.drop 1).foldl (fun (s : State) x => s.event 0xF000 0x1005 x.2 [2, 0]) s
  let prog := match xs.head? with
    | some x => if 4 ≤ x.1.len ∧ x.1.len ≤ 393216 ∧ x.1.len % 4 = 0 then s.sectionBytes s.activeBank x.1 else []
    | none => []
  { s with img := { s.img with prog := prog }, castle := { s.castle with running := !prog.isEmpty } }

/-- A range lies within one DRAM range of P_p. -/
def State.inOneRange (s : State) (p a len : Nat) : Bool :=
  (List.range 4).any (fun k =>
    let b := s.rd (F.PART_MEM_BASE_2M p k) * 0x200000
    decide (b ≤ a) && decide (a + len ≤ b + s.rd (F.PART_MEM_SIZE_2M p k) * 0x200000))

/-- One HOST_BOOT section: its payload copied, and its partition's entry noted; or skipped with an event record. -/
def State.loadHost (s : State) (x : ImgSection × Nat) : State :=
  let b := s.sectionBytes s.activeBank x.1
  let p := field b 8 1 % 8
  let load := field b 16 8
  let entry := field b 24 8
  let len := field b 32 4
  let formOk := decide (slice b 0 8 = [0x47, 0x4C, 0x58, 0x48, 0x42, 0x4F, 0x4F, 0x54]) && decide (field b 8 1 < 8) &&
    (slice b 9 7 ++ slice b 36 28).all (· = 0) && decide (load < 2 ^ 48) && decide (entry < 2 ^ 48) && decide (load % 4096 = 0) &&
    decide (len ≤ 0x1000000) && decide (64 + len ≤ b.length)
  if formOk && decide (s.partSt p = ptActive) && s.inOneRange p load len && decide (load ≤ entry) && decide (entry < load + len) &&
      !s.img.hosts.any (fun h => h.1 = p) then
    let s := s.store load (slice b 64 len)
    { s with img := { s.img with hosts := s.img.hosts ++ [(p, entry, load)] } }
  else s.event 0xF000 0x1005 x.2 [3, p]

def State.loadHosts (s : State) : State :=
  ((hdrSections s.img.header).zipIdx.filter (fun x => x.1.typ = 3)).foldl State.loadHost
    { s with img := { s.img with hosts := [] } }

/-- The host cores of the sections loaded start at their entries. -/
def State.startHosts (s : State) : State :=
  s.img.hosts.foldl (fun (s : State) h => if s.partSt h.1 = ptActive then s.coresStart h.1 h.2.1 else s) s

/-- The safe-state restart bound of a bank in µs: 180 ms, and the read time at 160 MB/s of what exceeds a 4 MiB user layer and
16 MiB of host boot sections (R403). -/
def State.restartBound (h : List Byte) : Nat :=
  let total (t : Nat) : Nat := (((hdrSections h).filter (fun x => x.typ = t)).map (·.len)).sum
  180000 + ceilDiv ((total 1 - 0x400000) + (total 3 - 0x1000000)) 160

end Sys2Proof.Machine
end

