-- ==== Sys2Proof/Machine/MbxOps.lean ====
section
/-!
DEFINITION. Mailbox commands: their table, the checks of R349 in order, the sequence rule, held objects, the view of the units, and
the response (R345 to R358, 13_mailbox.md).
-/

namespace Sys2Proof.Machine

/-! ### The command slot -/

def cmdSeq (c : List Byte) : Nat := field c 0 4
def cmdOp (c : List Byte) : Nat := field c 4 1
def cmdFlags (c : List Byte) : Nat := field c 5 1
def cmdUnit (c : List Byte) : Nat := field c 6 2
def cmdArg (c : List Byte) (i : Nat) : Nat := field c (8 + 8 * i) 8

/-- A command's row: whether it names a unit, the mailboxes that may issue it (1 H, 2 C, 4 P, 8 Z), and the bits of A0 to A5 that
it names; what it does not name is reserved. -/
structure CmdSpec where
  unit : Bool
  boxes : Nat
  args : List Nat
  deriving DecidableEq, Repr

def all64 : Nat := 0xFFFFFFFFFFFFFFFF

/-- The general and partition commands. -/
def cmdSpecA (op : Nat) : Option CmdSpec :=
  match op with
  | 0x00 | 0x01 => some ⟨false, 15, []⟩
  | 0x02 => some ⟨true, 15, []⟩
  | 0x03 => some ⟨true, 7, []⟩
  | 0x04 | 0x05 => some ⟨true, 2, []⟩
  | 0x06 => some ⟨false, 3, [all64, all64, all64]⟩
  | 0x07 => some ⟨false, 15, [all64]⟩
  | 0x08 => some ⟨false, 15, [all64, all64, all64]⟩
  | 0x10 => some ⟨false, 3, [7, all64, all64, all64, all64]⟩
  | 0x11 => some ⟨false, 3, [0x107, all64, 0xFFFFFFFFFFFFF, 0xFFFFFFFF0000001F, 0xFFFFFFFFFFFF, all64]⟩
  | 0x12 => some ⟨false, 3, [0x1FFFFFFFFFF, all64, all64]⟩
  | 0x13 => some ⟨false, 3, [7, 0xFFFF]⟩
  | 0x14 => some ⟨false, 3, [0x10707]⟩
  | 0x15 => some ⟨true, 3, [0x103F7]⟩
  | 0x16 => some ⟨false, 3, [7, all64]⟩
  | 0x17 => some ⟨false, 7, [0x107]⟩
  | 0x18 => some ⟨false, 15, [7]⟩
  | _ => none

/-- The program, job, memory, cache, time and ingest commands. -/
def cmdSpecB (op : Nat) : Option CmdSpec :=
  match op with
  | 0x20 => some ⟨true, 7, [all64, all64, all64, all64, 0x1FFFFFFFF]⟩
  | 0x21 => some ⟨false, 7, [all64, 1]⟩
  | 0x22 => some ⟨true, 7, [all64, 0x1FFFFF, 0xFFFFFFFF]⟩
  | 0x23 => some ⟨true, 15, [all64, 7]⟩
  | 0x30 | 0x31 => some ⟨false, 15, [all64, all64]⟩
  | 0x32 => some ⟨true, 15, [all64, all64, all64, all64, all64, all64]⟩
  | 0x33 => some ⟨false, 15, [7]⟩
  | 0x40 => some ⟨false, 15, [7]⟩
  | 0x41 => some ⟨false, 7, [7, all64, all64]⟩
  | 0x42 => some ⟨false, 7, [7, 0x1FFFFFFFF, 0x1FFFFFFFF]⟩
  | 0x43 => some ⟨false, 7, [0x3F, all64, all64, all64, all64]⟩
  | 0x44 => some ⟨false, 7, [0x3F]⟩
  | 0x45 => some ⟨false, 15, [7]⟩
  | 0x50 => some ⟨false, 7, [0x11F]⟩
  | 0x51 => some ⟨false, 15, [0x1F]⟩
  | 0x52 => some ⟨false, 7, [0x1F]⟩
  | _ => none

/-- The power, image, safety, self-test and link commands. A session command's mailbox is the owner's, H or C. -/
def cmdSpecC (op : Nat) : Option CmdSpec :=
  match op with
  | 0x60 => some ⟨false, 3, [7]⟩
  | 0x61 => some ⟨false, 3, [0xFFFF]⟩
  | 0x62 => some ⟨true, 7, [3]⟩
  | 0x63 => some ⟨false, 15, []⟩
  | 0x70 => some ⟨false, 15, [0x3FFFF, all64]⟩
  | 0x71 => some ⟨false, 3, []⟩
  | 0x72 => some ⟨false, 3, [all64, all64, all64]⟩
  | 0x73 | 0x74 | 0x76 => some ⟨false, 3, []⟩
  | 0x75 => some ⟨false, 3, [1]⟩
  | 0x77 => some ⟨false, 1, [3]⟩
  | 0x80 => some ⟨false, 3, [0xFF]⟩
  | 0x81 => some ⟨false, 15, []⟩
  | 0x90 => some ⟨true, 2, [1]⟩
  | 0x91 => some ⟨true, 2, []⟩
  | 0xA0 => some ⟨false, 15, [3]⟩
  | 0xA1 => some ⟨false, 3, [3]⟩
  | 0xA2 => some ⟨false, 3, [0x103]⟩
  | _ => none

def cmdSpec (op : Nat) : Option CmdSpec := ((cmdSpecA op).orElse (fun _ => cmdSpecB op)).orElse (fun _ => cmdSpecC op)

/-- Check 3: OPCODE names no command, or a reserved field is not zero. -/
def cmdMalformed (c : List Byte) : Bool :=
  match cmdSpec (cmdOp c) with
  | none => true
  | some x =>
    decide (4 ≤ cmdFlags c) || decide (field c 56 4 ≠ 0) || (!x.unit && decide (cmdUnit c ≠ 0)) ||
      (List.range 6).any (fun i => decide (cmdArg c i &&& (all64 ^^^ x.args.getD i 0) ≠ 0))

/-! ### Mailboxes and their rights -/

/-- The partition a P or Z mailbox acts for. -/
def State.mbOwn (s : State) (m : Nat) : Option Nat :=
  if m < 2 then none else if m < 10 then some (m - 2) else some (s.rd (F.MBX_PEER_CFG_PART (m - 10)))

/-- The requester a mailbox's commands act as (R353, R432). -/
def State.mbReq (s : State) (m : Nat) : Req :=
  if m = 0 then .host else if m = 1 then .castle else .part (Fin.ofNat 8 ((s.mbOwn m).getD 0))

def State.mbMaster (s : State) (m : Nat) : Master := s.reqMaster (s.mbReq m)

/-- Check 4: the mailbox column; without a host in root-port mode MB_1 also issues what H alone may (R432). -/
def State.mbMay (s : State) (m op : Nat) : Bool :=
  let b := match cmdSpec op with | some x => x.boxes | none => 0
  if m = 0 then bit b 0
  else if m = 1 then bit b 1 || (bit b 0 && s.on F.PCIE_STATUS_ROOT_PORT && decide (8 ≤ s.rd F.MBX_CFG_ROOT_HOST))
  else if m < 10 then bit b 2 else bit b 3

/-- Module states that turn a command away: PARK and a committed entry, NO_IMAGE, a partition in reset, and a safe-state
restart (R365, R373, R401, R457). -/
def State.mbGate (s : State) (m op : Nat) : Nat :=
  if (s.modState = stPark ∨ s.entering = true) ∧ op ≠ 0 ∧ op ≠ 1 ∧ op ≠ 0x63 ∧ op ≠ 0x60 then St.refused
  else if 2 ≤ m ∧ m < 10 ∧ s.partSt (m - 2) = ptResetting then St.unitReset
  else if s.on F.CFG_STATUS_NO_IMAGE ∧ m < 2 ∧ op / 16 ≠ 0 ∧ op / 16 ≠ 7 then St.refused
  else if m < 2 ∧ s.safePhase = phRestarting ∧ (op / 16 = 1 ∨ op / 16 = 7) then St.busy
  else St.ok

/-! ### What a command names -/

/-- The units and instances a PART_ASSIGN names. -/
def assignUnits (c : List Byte) : List Nat := assignNames (cmdArg c 1) (cmdArg c 2) (cmdArg c 3) (cmdArg c 4) (cmdArg c 5)

/-- The units a command names. -/
def cmdUnits (c : List Byte) : List Nat :=
  let op := cmdOp c
  if op = 0x11 then assignUnits c
  else if op = 0x21 then (bitList (cmdArg c 0) 64).map (0x1000 + ·)
  else match cmdSpec op with
    | some x => if x.unit then [cmdUnit c] else []
    | none => []

/-- Named objects that a check of ABSENT looks at: units with a capability or a fixed place, not instances. -/
def isUnitId (u : Nat) : Bool := decide (u / 0x1000 ≠ 4) && decide (u / 0x1000 ≠ 5)

/-- Check 5. -/
def State.cmdAbsent (s : State) (c : List Byte) : Bool :=
  let op := cmdOp c
  ((cmdUnits c).filter isUnitId).any (fun u => !s.present u) ||
    (decide (op / 16 = 0xA) && !s.zlEnabled (cmdArg c 0 % 4)) ||
    ((decide (op = 7) || decide (op = 8)) && (match blockUnit (cmdArg c 0) with | some u => !s.present u | none => false))

/-- The classes of unit a command's UNIT may name. -/
def unitFits (op u : Nat) : Bool :=
  let c := u / 0x1000
  if op = 3 then hasReset u
  else if op = 4 ∨ op = 5 then hasState u
  else if op = 0x15 ∨ op = 0x20 then c = 1
  else if op = 0x22 then c = 2
  else if op = 0x23 then c = 2 ∨ c = 3 ∨ c = 8
  else if op = 0x32 then c = 3
  else if op = 0x62 then hasState u && decide (c ≠ 0xB)
  else if op = 0x90 ∨ op = 0x91 then c = 1 ∨ c = 2 ∨ c = 3
  else true

def csrAddrOk (a : Nat) : Bool := decide (csrBase ≤ a) && decide (a < csrBase + 0x1000000) && decide (a % 8 = 0)

/-- Check 6. -/
def State.cmdBad (s : State) (c : List Byte) : Bool :=
  let op := cmdOp c
  let a (i : Nat) : Nat := cmdArg c i
  (cmdUnits c).any (fun u => !unitFits op u) ||
    (match op with
    | 0x06 => decide (a 2 < 1) || decide (4096 < a 2)
    | 0x07 => !csrAddrOk (a 0)
    | 0x08 => !csrAddrOk (a 0)
    | 0x10 => [1, 2, 3, 4].any (fun i => s.rangeBad (a 0) (a i % 2 ^ 32) (a i / 2 ^ 32))
    | 0x13 => decide (a 1 / 256 < a 1 % 256)
    | 0x14 => decide (bits (a 0) 0 3 = bits (a 0) 8 3) && !bit (a 0) 16
    | 0x15 => !bit (a 0) 16 && (decide (bits (a 0) 4 6 < 1) || decide (47 < bits (a 0) 4 6) ||
        decide (s.ownerOf (cmdUnit c) = bits (a 0) 0 3))
    | 0x20 => decide (a 1 % 16 ≠ 0) || decide (storeSize < a 2 + a 1) || decide (storeSize ≤ a 3)
    | 0x22 => decide (1024 < bits (a 1) 0 10 + (if bits (a 1) 10 11 = 0 then 1024 else bits (a 1) 10 11))
    | 0x41 => decide (999999999 < a 2 / 2 ^ 32) || decide (a 2 % 2 ^ 16 ≠ 0)
    | 0x60 => decide (a 0 < 1) || decide (3 < a 0)
    | 0x61 => !s.capOk (a 0)
    | 0x62 => decide (a 0 = 3)
    | 0x70 => decide (a 0 / 2 ^ 16 = 3)
    | 0x72 => decide (a 0 % 256 ≠ 0) || decide (a 2 % 256 ≠ 0) || decide (0x100000 < a 2) || decide (bankSize < a 0 + a 2)
    | _ => false)

/-- A unit or instance belongs to a partition, a time-shared square to two. -/
def State.belongs (s : State) (p u : Nat) : Bool :=
  decide (s.ownerOf u = p) ||
    (decide (u / 0x1000 = 1) && s.shared (u % 0x1000) && decide (s.rd (F.PART_SQ_SHARE_SECOND (u % 0x1000)) = p))

/-- The instances a time or ingest command names. -/
def cmdInstances (c : List Byte) : List Nat :=
  let a := cmdArg c 0
  match cmdOp c with
  | 0x40 | 0x41 | 0x42 => [0x5100 + a]
  | 0x43 | 0x44 => [0x5300 + a]
  | 0x45 => [0x5200 + a]
  | 0x50 | 0x51 => [0x4000 + a % 32]
  | _ => []

/-- Check 7: what a P or Z command names must be its own partition's; PART_ASSIGN names nothing of another partition; a
register must be one the owner may read or write. -/
def State.cmdForeign (s : State) (m : Nat) (c : List Byte) : Bool :=
  let op := cmdOp c
  let r := s.mbReq m
  (match s.mbOwn m with
    | some p => (cmdUnits c ++ cmdInstances c).any (fun u => !s.belongs p u) ||
        ((decide (op = 0x17) || decide (op = 0x18) || decide (op = 0x33)) && decide (cmdArg c 0 % 8 ≠ p)) ||
        (decide (op = 0x52) && !s.isReader r (cmdArg c 0))
    | none => false) ||
    (decide (op = 0x11) && (assignUnits c).any (fun u => decide (s.ownerOf u < 8) && decide (s.ownerOf u ≠ cmdArg c 0 % 8))) ||
    (decide (op = 7) && !s.mayRead r (cmdArg c 0))

/-! ### The view of the units (R355 to R358) -/

def view0 : UnitView := ⟨US.ready, 0, 8⟩
def State.unitView (s : State) (u : Nat) : UnitView := mget view0 s.mbx.view u
def State.setView (s : State) (u : Nat) (v : UnitView) : State := { s with mbx := { s.mbx with view := mset view0 s.mbx.view u v } }

/-- The resynchronisation read: what the unit itself says. -/
def State.unitNow (s : State) (u : Nat) : UnitView := ⟨s.ustate u, s.epochOf u, (s.unitPart u).getD 8⟩

/-- The V0 layout of UNIT_QUERY. -/
def UnitView.word (v : Sys2Proof.Machine.UnitView) : Nat :=
  v.state + (if v.part < 8 then v.part * 2 ^ 8 + 2 ^ 11 else 0) + v.epoch * 2 ^ 16

/-- The view of every present unit as the units stand. -/
def State.syncViews (s : State) : State := s.unitList.foldl (fun (s : State) u => s.setView u (s.unitNow u)) s

/-- A named unit that disagrees with the view. -/
def State.disputed (s : State) (c : List Byte) : Option Nat :=
  if cmdOp c = 2 then none
  else ((cmdUnits c).filter hasState).find? (fun u => decide (s.unitView u ≠ s.unitNow u))

/-- DISPUTED (R356, R357): the views of all named units take what was read; event record and count. -/
def State.dispute (s : State) (u : Nat) (c : List Byte) : State :=
  let s := (s.event 0xF000 0x6005 u [cmdOp c, (s.unitView u).word, (s.unitNow u).word]).bump F.MBX_DISPUTES_COUNT
  let s := s.wr F.MBX_DISPUTES_LAST_UNIT u
  ((cmdUnits c).filter hasState).foldl (fun (s : State) u => s.setView u (s.unitNow u)) s

/-! ### Held objects (R351) -/

/-- The objects a command changes. -/
def State.cmdHolds (s : State) (c : List Byte) : List Nat :=
  let op := cmdOp c
  let a := cmdArg c 0
  if op = 0x10 ∨ op = 0x13 ∨ op = 0x16 then [objPart (a % 8)]
  else if op = 0x11 then objPart (a % 8) :: assignUnits c
  else if op = 0x14 then [objPart (bits a 0 3), objPart (bits a 8 3)]
  else if op = 0x17 then objPart (a % 8) :: (s.partNames (a % 8)).filter isUnitId
  else if op = 3 ∨ op = 4 ∨ op = 5 ∨ op = 0x15 ∨ op = 0x20 ∨ op = 0x21 ∨ op = 0x22 ∨ op = 0x62 ∨ op = 0x90 ∨ op = 0x91 then cmdUnits c
  else if op = 0x32 then [objSeq (field c 10 2 % 4096)]
  else if 0x71 ≤ op ∧ op ≤ 0x77 then [objImage]
  else []

/-- Check 9: an object held by another mailbox's command, or an image session of another mailbox (R374). -/
def State.cmdBusy (s : State) (m : Nat) (c : List Byte) : Bool :=
  let op := cmdOp c
  (decide (op / 16 = 7) && s.on F.CFG_STATUS_SESSION && decide (s.rd F.CFG_STATUS_SESSION_MB ≠ m)) ||
    (decide (op ≠ 3) && decide (op ≠ 0x17) && (List.range 16).any (fun k => decide (k ≠ m) &&
      (match s.mbExec k with
      | some e => e.status.isNone && (s.cmdHolds c).any e.holds.contains
      | none => false)))

/-! ### Starting a command (R347, R349, R350) -/

def State.ringSlot (m i : Nat) : Nat := mbxWin m + i % 64 * 64

/-- Checks 3 to 9 in order. -/
def State.cmdCheck (s : State) (m : Nat) (c : List Byte) : Nat × State :=
  let op := cmdOp c
  if cmdMalformed c then (St.badArgument, s)
  else if !s.mbMay m op then (St.notPermitted, s)
  else if s.mbGate m op ≠ St.ok then (s.mbGate m op, s)
  else if s.cmdAbsent c then (St.absent, s)
  else if s.cmdBad c then (St.badArgument, s)
  else if s.cmdForeign m c then (St.notPermitted, s)
  else match s.disputed c with
    | some u => (St.disputed, s.dispute u c)
    | none => if s.cmdBusy m c then (St.busy, s) else (St.ok, s)

/-- A command taken from its slot: INTEGRITY, the sequence rule, and the checks. -/
def State.mbTake (s : State) (m : Nat) : State :=
  let c := s.bytes (State.ringSlot m (s.rd (F.MB_POS_HEAD m))) 64
  let before := s.log.total
  let s := ((s.wr (F.MB_EXEC_OPCODE m) (cmdOp c)).wr (F.MB_EXEC_ACTIVE m) 1).bumpW (F.MB_COUNTS_COMMANDS m)
  let last := s.rd (F.MB_SEQ_LAST_SEQ m)
  let ex (acc : Bool) (st : Option Nat) (vals holds : List Nat) (s : State) : State :=
    s.setExec m (some ⟨c, acc, st, vals, decide (before ≠ s.log.total), s.now, holds, st.isSome, []⟩)
  if bit (cmdFlags c) 1 ∧ crc32c (c.take 60) ≠ field c 60 4 then ex false (some St.integrity) [] [] s
  else if s.on (F.MB_SEQ_SEQ_VALID m) ∧ cmdSeq c = last then ex false (some St.duplicate) [] [] (s.bump (F.MB_COUNTS_DUPLICATES m))
  else if s.on (F.MB_SEQ_SEQ_VALID m) ∧ cmdSeq c ≠ (last + 1) % 2 ^ 32 then
    ex false (some St.badSequence) [last] [] (s.bump (F.MB_COUNTS_BAD_SEQUENCES m))
  else
    let s := (s.wr (F.MB_SEQ_LAST_SEQ m) (cmdSeq c)).wr (F.MB_SEQ_SEQ_VALID m) 1
    let (st, s) := s.cmdCheck m c
    if st = St.ok then ex true none [] (s.cmdHolds c) s else ex true (some st) [] [] s

/-- A mailbox has a command waiting and none in execution. -/
def State.mbReady (s : State) (m : Nat) : Bool := (s.mbExec m).isNone && decide (0 < s.mbWaiting m)

/-- The next mailbox to start: MB_1, MB_0, then MB_2 to MB_15 in round-robin order (R347). -/
def State.mbNext (s : State) : Option Nat :=
  if s.mbReady 1 then some 1
  else if s.mbReady 0 then some 0
  else ((List.range 14).map (fun i => 2 + (s.mbx.turn - 2 + i) % 14)).find? s.mbReady

def State.mbStart (s : State) : State :=
  if s.boot.phase ≠ 3 ∨ s.modState = stDeep then s
  else match s.mbNext with
    | some m =>
      let s : State := if 2 ≤ m then { s with mbx := { s.mbx with turn := 2 + (m - 1) % 14 } } else s
      s.mbTake m
    | none => s

/-! ### Executing and completing -/

/-- The command in execution marked as having written an event record, where the log moved since `s`. -/
def State.mbMark (s : State) (m : Nat) (s' : State) : State :=
  match s'.mbExec m with
  | some e' => if s.log.total = s'.log.total then s' else s'.setExec m (some { e' with logged := true })
  | none => s'

/-- The command in execution marked as run. -/
def State.begun (s : State) (m : Nat) (e : MbExec) : State := s.setExec m (some { e with ran := true })

/-- The meaning of an accepted command's opcode, once: `act` ends it, or leaves what it waits for. -/
def State.mbRun (s : State) (m op : Nat) (act : State → List Byte → State) : State :=
  match s.mbExec m with
  | some e =>
    if e.status.isNone ∧ e.ran = false ∧ cmdOp e.cmd = op then s.mbMark m (act (s.begun m e) e.cmd) else s
  | none => s

/-- A command waits for what the words name. -/
def State.mbWait (s : State) (m : Nat) (w : List Nat) : State :=
  match s.mbExec m with
  | some e => s.setExec m (some { e with wait := w })
  | none => s

/-- Whether an error status was counted: INTEGRITY, TIMEOUT, BUSY, DISPUTED. -/
def State.countStatus (s : State) (m st : Nat) : State :=
  if st = St.integrity then s.bump (F.MB_ERRORS_INTEGRITY m)
  else if st = St.timeout then s.bump (F.MB_ERRORS_TIMEOUTS m)
  else if st = St.busy then s.bump (F.MB_ERRORS_BUSY m)
  else if st = St.disputed then s.bump (F.MB_ERRORS_DISPUTED m)
  else s

/-- A response slot with its CRC. -/
def respSlot (b : List Byte) : List Byte := b ++ toBytes 4 (crc32c b)

/-- The response to a command: DUPLICATE repeats the cached one. -/
def State.response (s : State) (m : Nat) (e : MbExec) (st : Nat) : List Byte :=
  if st = St.duplicate then
    let o := (s.mb m).cache
    respSlot (slice o 0 5 ++ toBytes 1 St.duplicate ++ slice o 5 1 ++ slice o 7 53)
  else
    respSlot (slice e.cmd 0 5 ++ toBytes 1 st ++ toBytes 1 st ++ toBytes 1 e.logged.toNat ++ toBytes 8 (s.ts64 (s.rd F.MBX_CFG_TB)) ++
      (List.range 5).flatMap (fun i => toBytes 8 (e.vals.getD i 0)) ++ toBytes 4 0)

/-- The notification of MB_m (R348, R429, R432, R446). -/
def State.mbNotify (s : State) (m : Nat) : State :=
  if m = 0 then (if s.on F.PCIE_STATUS_ROOT_PORT then s.raiseIrq 27 else s.raiseMsix 0)
  else if m = 1 then s.raiseCastle
  else if m < 10 then s.raiseIrq (m - 2)
  else
    let i := m - 10
    let tail := s.rd (F.MB_POS_RESP_TAIL m)
    s.send { originMsg s 0xF000 (s.rd (F.LINK_PEER_NOTIFY_UNIT i)) 3 1 (toBytes 8 m ++ toBytes 8 tail) with
      destModule := s.rd (F.LINK_PEER_MODULE i) }

/-- A response written, the positions advanced, the notification raised (R348). -/
def State.mbRespond (s : State) (m : Nat) (e : MbExec) (st : Nat) : State :=
  let b := s.response m e st
  let i := s.rd (F.MB_POS_HEAD m)
  let s := s.store (State.ringSlot m i + 0x1000) b
  let s := s.setMb m ⟨if e.accepted then b else (s.mb m).cache, none⟩
  let s := (s.wr (F.MB_POS_HEAD m) (i + 1)).wr (F.MB_POS_RESP_TAIL m) (s.rd (F.MB_POS_RESP_TAIL m) + 1)
  let s := ((s.wr (F.MB_EXEC_OPCODE m) 0).wr (F.MB_EXEC_ACTIVE m) 0).countStatus m st
  if s.on (F.MB_CTRL_NOTIFY_EN m) && bit (cmdFlags e.cmd) 0 then s.mbNotify m else s

/-- A UNIT_STATE_REPORT (R355, R357): one with an older epoch than the view is discarded. -/
def State.unitReport (s : State) (u : Nat) (v : UnitView) : State :=
  if s.present u ∧ hasState u = true ∧ ringOlder v.epoch (s.unitView u).epoch = false then s.setView u v else s
where
  /-- Epoch a lies before b, modulo 65,536. -/
  ringOlder (a b : Nat) : Bool := let d := (b + 65536 - a) % 65536; decide (0 < d) && decide (d < 32768)

end Sys2Proof.Machine
end

