-- ==== Sys2Proof/Machine/Rest.lean ====
section
/-!
DEFINITION. Rests of squares, planes and engines: the castle's requests, entry and end (R161, R162, R238, R279, R396).
-/

namespace Sys2Proof.Machine

/-- A write of the rest register of a unit: bit 0 REQUEST, bit 1 FORCE, bit 8 WITHDRAW. Only the castle's is taken. -/
def State.restWrite (s : State) (r : Req) (u : RestUnit) (v : Nat) : State :=
  let d : WData := ⟨.low, BitVec.ofNat 64 v⟩
  match u with
  | .square n => s.sqWrite r n.val 0x70 d
  | .plane p => s.plWrite r p.val 0x80 d
  | .engine e => s.aeWrite r e.val 0x40 d

/-- REST_REQ_WRITE (R161): REQUEST is set; a square's REST interrupt pends while it stands. -/
def execRestReqWrite (r : Req) (u : RestUnit) (s : State) : Out := .next (s.restWrite r u 1)

/-- REST_FORCE_WRITE (R161): FORCE is set; the unit rests at its next instruction, vector or entry boundary. -/
def execRestForceWrite (r : Req) (u : RestUnit) (s : State) : Out := .next (s.restWrite r u 2)

/-- REST_WITHDRAW_WRITE (R396): WITHDRAW clears REQUEST. -/
def execRestWithdrawWrite (r : Req) (u : RestUnit) (s : State) : Out := .next (s.restWrite r u 0x100)

/-- REST_ENTER (R161, R238, R279): a unit whose rest is due and whose queue has drained enters RESTING. -/
def execRestEnter (u : RestUnit) (s : State) : Out :=
  .next (match u with
    | .square n => s.sqRestEnter n.val
    | .plane p => s.plRestEnter p.val
    | .engine e => s.aeRestEnter e.val)

/-- REST_COMPLETE (R162, R238, R279): the test of a resting unit ends; `fault` says that it found one, in `part`. -/
def execRestComplete (u : RestUnit) (fault : Bool) (part : Nat) (s : State) : Out :=
  .next (match u with
    | .square n => s.sqRestDone n.val fault part
    | .plane p => s.plRestDone p.val fault part
    | .engine e => s.aeRestDone e.val fault part)

end Sys2Proof.Machine
end

