-- ==== Sys2Proof/Machine/Mailbox.lean ====
section
/-!
DEFINITION. The mailbox sequencer: starting and completing commands, their time-out, the units' reports, and the general commands
0x00 to 0x08 (R347 to R358; 13_mailbox.md).
-/

namespace Sys2Proof.Machine

/-! ### What a command waits for -/

/-- The code words of a command that waits: for an epoch held back (1), a weight load (2), an ACK (3), a power state (4), a rest
(5), a partition reset (6), room in a key-value pool (7), a unit's new state (8). -/
def waitEpoch : Nat := 1
def waitLoad : Nat := 2
def waitAck : Nat := 3
def waitPower : Nat := 4
def waitRest : Nat := 5
def waitReset : Nat := 6
def waitPool : Nat := 7
def waitState : Nat := 8

/-- A command ends with a unit's new epoch, once that is no longer held (R19). -/
def State.endEpoch (s : State) (m u : Nat) : State :=
  if s.epochHeld u then s.mbWait m [waitEpoch, u] else s.mbEnd m St.ok [s.epochOf u]

/-- A command ends with a unit's new state, once its epoch is no longer held (R19). -/
def State.endState (s : State) (m u : Nat) : State :=
  if s.epochHeld u then s.mbWait m [waitState, u] else s.mbEnd m St.ok [s.ustate u]

/-- RESTS and FAILS of a unit's rest register. -/
def State.restCounts (s : State) (u : Nat) : Nat × Nat :=
  let i := u % 0x1000
  if u / 0x1000 = 1 then (s.rd (F.SQ_REST_RESTS i), s.rd (F.SQ_REST_FAILS i))
  else if u / 0x1000 = 2 then (s.rd (F.PL_REST_RESTS i), s.rd (F.PL_REST_FAILS i))
  else (s.rd (F.AE_REST_RESTS i), s.rd (F.AE_REST_FAILS i))

/-- The key-value job of a KV_OP: the mailbox's partition, or the engine's for the host and the castle. -/
def State.mbKvJob (s : State) (m : Nat) (c : List Byte) : KvJob :=
  let e := cmdUnit c % 0x1000
  ⟨e, s.kv.job, (s.mbOwn m).getD (s.ownerOf (engineUnit e)),
    (match s.mbOwn m with | some p => ⟨0xF000, some p, false⟩ | none => s.masterOf (engineUnit e)), padTo 64 (slice c 8 48)⟩

/-- A key-value operation's result: V0 and V1 the record, or the wait for room (R253). -/
def State.mbKv (_ : State) (m : Nat) (k : KvJob) (r : KvRes) : State :=
  if r.wait then r.s.mbWait m [waitPool, r.v1]
  else r.s.mbEnd m r.status [field (r.record k.q) 0 8, field (r.record k.q) 8 8]

/-- PL_LOAD's steps: LOADING reached, the copy is made and LOAD_CLOSE written; the check ended, the result. -/
def State.mbPlane (s : State) (m p : Nat) (c : List Byte) (stage : Nat) : State :=
  if stage = 0 then
    if s.shell p = shLoading ∧ (s.plane p).openWait = false then
      let (o, n) := (s.plane p).opened
      let (st, d, _, s) := s.busGet (s.mbMaster m) (cmdArg c 0) (n * 512)
      if st ≠ St.ok then s.mbEnd m st []
      else ((s.store (planeWin p + o * 512) d).plClose p).mbWait m [waitLoad, p, 1]
    else s
  else if s.shell p = shIdle then
    s.mbEnd m (if s.on (F.PL_WCHECK_LOAD_FAIL p) then St.integrity else St.ok)
      [if s.on (F.PL_WCHECK_LOAD_FAIL p) then 0 else s.rd (F.PL_WCHECK_CRC_LOADED p)]
  else s

/-- A waiting command ends where what it waits for has come. -/
def State.mbPoll (s : State) (m : Nat) : State :=
  match s.mbExec m with
  | none => s
  | some e =>
    if e.status.isSome then s
    else match e.wait with
      | [1, u] => if s.epochHeld u then s else s.mbEnd m St.ok [s.epochOf u]
      | [8, u] => s.endState m u
      | [2, p, stage] => s.mbPlane m p e.cmd stage
      | [4] => (match s.pwr.result with | some st => if s.pwr.mb = some m then s.mbEnd m st [] else s | none => s)
      | [5, u, rests, fails] =>
        let (r, f) := s.restCounts u
        if f ≠ fails then s.mbEnd m St.ok [1] else if r ≠ rests then s.mbEnd m St.ok [0] else s
      | [7, n] => let k := s.mbKvJob m e.cmd; s.mbKv m k (s.kvOp k (some n))
      | _ => s

/-! ### The sequencer's steps -/

/-- MBX_COMMAND_START (R347): the next waiting command is taken and checked under R349. -/
def execMbxCommandStart (s : State) : Out := .next s.mbStart

/-- MBX_COMMAND_COMPLETE (R348): a command of MB_m whose status is known, or that waits for something that has come, completes. -/
def execMbxCommandComplete (m : Fin 16) (s : State) : Out :=
  .next (
    let s := s.mbPoll m.val
    match s.mbExec m.val with
    | some e => (match e.status with | some st => s.mbRespond m.val e st | none => s)
    | none => s)

/-- CMD_TIMEOUT (R352): a command that still waits completes with TIMEOUT; an image command past its bound ends the session, its
bank not bootable. -/
def execCmdTimeout (m : Fin 16) (s : State) : Out :=
  .next (match s.mbExec m.val with
    | some e =>
      if e.status.isSome then s
      else
        let img := decide (0x71 ≤ cmdOp e.cmd) && decide (cmdOp e.cmd ≤ 0x77)
        let s := if img && s.on F.CFG_STATUS_SESSION then
            (s.wr F.CFG_STATUS_SESSION 0).programStatus (1 - s.activeBank) stRejected else s
        if img || e.ran then s.mbEnd m.val St.timeout [] else s
    | none => s)

/-- UNIT_STATE_REPORT (R355, R357): a unit's report of its state, epoch and partition (8 for none) reaches the view. -/
def execUnitStateReport (u : Fin 65536) (st : Fin 9) (epoch : Fin 65536) (part : Fin 9) (s : State) : Out :=
  .next (s.unitReport u.val ⟨st.val, epoch.val, part.val⟩)

/-! ### General commands -/

/-- NOP (0x00). -/
def execNop (m : Fin 16) (s : State) : Out :=
  .next (s.mbRun m.val 0x00 (fun s _ => s.mbEnd m.val St.ok [s.reg R.MODULE_STATE]))

/-- IDENTIFY (0x01). -/
def execIdentify (m : Fin 16) (s : State) : Out :=
  .next (s.mbRun m.val 0x01 (fun s _ => s.mbEnd m.val St.ok
    [s.reg R.IDENT, s.reg R.REVISION, s.reg R.SERIAL, s.reg R.SQUARE_MASK,
      s.rd F.PLANE_MASK_PLANES + s.rd F.AE_MASK_ENGINES * 2 ^ 32 + s.rd F.CORE_MASK_CORES * 2 ^ 40 +
        s.reg R.FEATURE_MASK % 256 * 2 ^ 52]))

/-- UNIT_QUERY (0x02, R358): the read values go into the view and are returned. -/
def execUnitQuery (m : Fin 16) (s : State) : Out :=
  .next (s.mbRun m.val 0x02 (fun s c =>
    let u := cmdUnit c
    let v := s.unitNow u
    let s := if hasState u then s.setView u v else s
    s.mbEnd m.val St.ok [v.word, match stateReg u with | some a => s.regView (s.mbReq m.val) a | none => 0]))

/-- UNIT_RESET (0x03, R351, R354): the unit's RESET; other commands that hold the unit complete with UNIT_RESET. -/
def execUnitReset (m : Fin 16) (s : State) : Out :=
  .next (s.mbRun m.val 0x03 (fun s c =>
    let u := cmdUnit c
    let st := s.ustate u
    if st = US.quarantined ∨ st = US.off then s.mbEnd m.val St.refused []
    else ((s.preempt (some m.val) [u]).unitReset u).endEpoch m.val u))

/-- UNIT_QUARANTINE (0x04, R354). -/
def execUnitQuarantine (m : Fin 16) (s : State) : Out :=
  .next (s.mbRun m.val 0x04 (fun s c =>
    let s := s.quarantine (cmdUnit c)
    s.mbEnd m.val St.ok [s.epochOf (cmdUnit c)]))

/-- UNIT_RELEASE (0x05, R354). -/
def execUnitRelease (m : Fin 16) (s : State) : Out :=
  .next (s.mbRun m.val 0x05 (fun s c =>
    let u := cmdUnit c
    if s.ustate u = US.quarantined then (s.unquarantine u).endEpoch m.val u else s.mbEnd m.val St.refused []))

/-- An event record's 64 bytes ("Event record layout"). -/
def EvRec.bytes (r : Sys2Proof.Machine.EvRec) : List Byte :=
  toBytes 16 r.stamp.toNat ++ toBytes 2 r.unit ++ toBytes 2 r.code ++ toBytes 1 r.sev ++ toBytes 1 r.part ++ toBytes 8 r.subject ++
    (List.range 4).flatMap (fun i => toBytes 8 (r.args.getD i 0)) ++ toBytes 2 0

/-- EVENT_READ (0x06): records from an index on, those overwritten skipped and counted. -/
def execEventRead (m : Fin 16) (s : State) : Out :=
  .next (s.mbRun m.val 0x06 (fun s c =>
    let first := cmdArg c 0
    let oldest := s.log.total - s.log.ring.length
    let i := max first oldest
    let rs := (s.log.ring.drop (i - oldest)).take (cmdArg c 2)
    let (st, s) := s.busPut (s.mbMaster m.val) (cmdArg c 1) (rs.flatMap EvRec.bytes) false
    if st = St.ok then s.mbEnd m.val St.ok [i + rs.length, rs.length, i - first] else s.mbEnd m.val st []))

/-- CSR_READ (0x07, R353): a read by the mailbox's owner. -/
def execCsrRead (m : Fin 16) (s : State) : Out :=
  .next (s.mbRun m.val 0x07 (fun s c =>
    let (v, s) := s.regRead (s.mbReq m.val) (cmdArg c 0)
    s.mbEnd m.val St.ok [v]))

/-- CSR_WRITE (0x08, R353): the masked bits written as the owner would; NOT_PERMITTED where the block would ignore it. -/
def execCsrWrite (m : Fin 16) (s : State) : Out :=
  .next (s.mbRun m.val 0x08 (fun s c =>
    let a := cmdArg c 0
    let mask := cmdArg c 2
    let r := s.mbReq m.val
    let kept := match regSpec a with | some x => x.mask .rw ||| x.mask .rwl | none => 0
    let v := (cmdArg c 1 &&& mask) ||| (s.reg a &&& (all64 ^^^ mask) &&& kept)
    let d : WData := ⟨.both, BitVec.ofNat 64 v⟩
    if s.writeIgnored r a d then s.mbEnd m.val St.notPermitted []
    else
      let s := s.regStore r a d
      s.mbEnd m.val St.ok [s.regView r a]))

end Sys2Proof.Machine
end

