-- ==== Sys2Proof/Machine/Parts.lean ====
section
/-!
DEFINITION. The partition commands 0x10 to 0x18, the end of a partition reset, and the boundaries of the time windows (R359 to
R367; 13_mailbox.md).
-/

namespace Sys2Proof.Machine

/-- PART_CREATE (0x10, R359, R424). -/
def execPartCreate (m : Fin 16) (s : State) : Out :=
  .next (s.mbRun m.val 0x10 (fun s c =>
    let p := cmdArg c 0
    if s.partSt p = ptFree then (s.partCreate p ([1, 2, 3, 4].map (cmdArg c))).mbEnd m.val St.ok [] else s.mbEnd m.val St.refused []))

/-- PART_ASSIGN (0x11, R360): all units and instances named, or none; REFUSED unless P_p is CONFIGURING or ACTIVE. -/
def execPartAssign (m : Fin 16) (s : State) : Out :=
  .next (s.mbRun m.val 0x11 (fun s c =>
    let p := cmdArg c 0 % 8
    let give := !bit (cmdArg c 0) 8
    if s.partSt p ≠ ptConfiguring ∧ s.partSt p ≠ ptActive then s.mbEnd m.val St.refused []
    else
      let l := (assignUnits c).filter (fun u => decide (s.ownerOf u = p) != give)
      (l.foldl (fun (s : State) u => s.handOver p u give) s).mbEnd m.val St.ok [l.length]))

/-- PART_WINDOWS (0x12, R363): the schedule registers from the arguments and the entry table; a LOCK refuses it (R353). -/
def execPartWindows (m : Fin 16) (s : State) : Out :=
  .next (s.mbRun m.val 0x12 (fun s c =>
    let a := cmdArg c 0
    let n := clampN 1 16 (bits a 36 5)
    if s.on F.PART_CTRL_LOCK then s.mbEnd m.val St.notPermitted []
    else
      let (st, d, _, s) := s.busGet (s.mbMaster m.val) (cmdArg c 2) (8 * n)
      if st ≠ St.ok then s.mbEnd m.val st []
      else
        let s := ((s.wr F.PART_SCHED_CTRL_ENABLE (bits a 35 1)).wr F.PART_SCHED_CTRL_TB (bits a 32 3)).wr F.PART_SCHED_CTRL_ENTRIES (bits a 36 5)
        let s := (s.wr F.PART_SCHED_CYCLE_CYCLE_NS (bits a 0 32)).wr F.PART_SCHED_BASE_BASE (cmdArg c 1)
        ((List.range n).foldl (fun (s : State) k => s.setReg (R.PART_WIN k) (field d (8 * k) 5)) s).mbEnd m.val St.ok []))

/-- PART_SHARE (0x13, R362). -/
def execPartShare (m : Fin 16) (s : State) : Out :=
  .next (s.mbRun m.val 0x13 (fun s c =>
    let p := cmdArg c 0
    let g := cmdArg c 1 % 256
    if 248 < s.sharesBut p + g then s.mbEnd m.val St.noSpace []
    else (s.setShare p g (cmdArg c 1 / 256)).mbEnd m.val St.ok []))

/-- PART_PATH (0x14, R361). -/
def execPartPath (m : Fin 16) (s : State) : Out :=
  .next (s.mbRun m.val 0x14 (fun s c =>
    let a := cmdArg c 0
    (s.setPath (bits a 0 3) (bits a 8 3) (!bit a 16)).mbEnd m.val St.ok []))

/-- PART_SQUARE_SHARE (0x15, R364): REFUSED where the square has no owner, is shared already, or SECOND is not CONFIGURING or
ACTIVE; DISABLE is REFUSED while the second partition's tensor queue holds work. -/
def execPartSquareShare (m : Fin 16) (s : State) : Out :=
  .next (s.mbRun m.val 0x15 (fun s c =>
    let n := cmdUnit c % 0x1000
    let a := cmdArg c 0
    let q := bits a 0 3
    if bit a 16 then
      if s.secondRuns n ∧ (s.sqr n).txq ≠ [] then s.mbEnd m.val St.refused [] else (s.unshare n).mbEnd m.val St.ok []
    else if s.ownerOf (cmdUnit c) < 8 ∧ s.shared n = false ∧ (s.partSt q = ptConfiguring ∨ s.partSt q = ptActive) then
      (s.shareSquare n q (bits a 4 6)).mbEnd m.val St.ok []
    else s.mbEnd m.val St.refused []))

/-- PART_START (0x16, R360): CONFIGURING to ACTIVE; its cores leave reset at A1. -/
def execPartStart (m : Fin 16) (s : State) : Out :=
  .next (s.mbRun m.val 0x16 (fun s c =>
    let p := cmdArg c 0
    if s.partSt p = ptConfiguring then ((s.wr (F.PART_STATE_STATE p) ptActive).coresStart p (cmdArg c 1)).mbEnd m.val St.ok []
    else s.mbEnd m.val St.refused []))

/-- PART_RESET (0x17, R365): the reset is delivered; the command completes with the reset. A FREE partition has nothing to
reset: REFUSED. -/
def execPartReset (m : Fin 16) (s : State) : Out :=
  .next (s.mbRun m.val 0x17 (fun s c =>
    let p := cmdArg c 0 % 8
    if s.partSt p = ptFree then s.mbEnd m.val St.refused []
    else (s.mbWait m.val [waitReset, p]).partReset (some m.val) p))

/-- PART_RESET_DONE (R365 to R367): every part of P_p has reported completion. -/
def execPartResetDone (p : Fin 8) (s : State) : Out := .next (s.partResetDone p.val)

/-- PART_QUERY (0x18). -/
def execPartQuery (m : Fin 16) (s : State) : Out :=
  .next (s.mbRun m.val 0x18 (fun s c =>
    let p := cmdArg c 0
    s.mbEnd m.val St.ok [s.reg (R.PART_STATE p), s.reg (R.PART_SHARE p), s.reg (R.PART_SQUARES p), s.reg (R.PART_BOARD p), s.reg (R.PART_FRAME p)]))

/-- PART_WINDOW_BOUNDARY (R363, R364): an entry of the schedule ends, or a cycle begins. -/
def execPartWindowBoundary (s : State) : Out :=
  .next (if s.sched.running || s.on F.PART_SCHED_CTRL_ENABLE then s.windowBoundary else s)

end Sys2Proof.Machine
end

