-- ==== Sys2Proof/Machine/Boot.lean ====
section
/-!
DEFINITION. The safe-state restart (R401 to R405), the end of a wake (R458 to R461), power-up, boot and module reset (R484 to R492).
-/

namespace Sys2Proof.Machine

/-! ### The safe-state restart (14_safety.md) -/

/-- Step 7: the header compared with its copy; where it differs, the full boot check. 0 passed, 1 the image, 2 a section hash. -/
def State.restartCheck (s : State) : Nat × Nat :=
  if s.on F.CFG_STATUS_NO_IMAGE then (0, 0)
  else
    let k := s.activeBank
    let h := s.bankHeader k
    let c := if h = s.img.header then 0 else s.bankCheck k
    if c ≠ 0 then (1, c)
    else if s.sectionsOk k h (fun t => decide (t = 1) || decide (t = 3)) then (0, 0)
    else (2, 0)

/-- Steps 7 and 8 once every partition has been reset: the image applied, which gives the partitions their states, and the HOST_BOOT
sections loaded; a check that fails latches. -/
def State.restartApply (s : State) : State :=
  match s.restartCheck with
  | (0, _) =>
    let s : State := if s.on F.CFG_STATUS_NO_IMAGE then s else { s with img := { s.img with header := s.bankHeader s.activeBank } }
    let s := s.imageApply.loadHosts
    { s with castle := { s.castle with stage := 2 } }
  | (1, c) => (s.event 0xF000 0x1006 s.activeBank [c]).safeLatch 1 true
  | (r, _) => s.safeLatch r true

/-- SAFE_RESTART_APPLY (R401 steps 5 to 8, R405). -/
def execSafeRestartApply (s : State) : Out :=
  .next (
    let s := s.safeResets
    if s.safePhase = phRestarting ∧ s.castle.stage = 1 ∧ (List.range 8).all (fun p => decide (s.partSt p ≠ ptResetting)) then s.restartApply
    else s)

/-- Every unit of the restarted partitions serves. -/
def State.restartReady (s : State) : Bool :=
  (List.range 8).all (fun p => decide (s.partSt p = ptFree) ||
    ((s.partNames p).filter (fun u => hasState u && s.present u)).all (fun u => s.serving u && !s.epochHeld u))

/-- The D2D modules a restart for cause D2D has trained again. -/
def State.d2dBack (s : State) : State :=
  if s.rd F.SAFE_STATUS_LAST_CAUSE = 10 then
    let n := 4 - (bitList (s.rd F.D2D_STATUS_MODULE_UP) 4).length
    (s.wr F.D2D_STATUS_RETRAINS (min (s.rd F.D2D_STATUS_RETRAINS + n) (2 ^ 32 - 1))).wr F.D2D_STATUS_MODULE_UP 15
  else s

/-- SAFE_RESTART_COMPLETE (R401 step 9, R402): host cores of ACTIVE partitions start, PHASE HELD, MODULE_STATE SAFE, the measured
time, the castle interrupt. -/
def execSafeRestartComplete (s : State) : Out :=
  .next (
    if s.safePhase = phRestarting ∧ s.castle.stage = 2 ∧ s.restartReady = true then
      let us := min ((s.now - s.castle.restartAt.getD s.now) / 1000) (2 ^ 32 - 1)
      let s := s.d2dBack.startHosts.wr F.SAFE_STATUS_PHASE phHeld
      let s := s.setModState stSafe (if s.rd F.SAFE_STATUS_LAST_CAUSE = 11 then s.rd F.SAFE_CAUSE_DETAIL % 256 else 0x08)
      let s := (s.wr F.SAFE_TIMES_LAST_RESTART_US us).wr F.SAFE_TIMES_MAX_RESTART_US (max us (s.rd F.SAFE_TIMES_MAX_RESTART_US))
      s.raiseCastle
    else s)

/-! ### The end of a wake (16_power.md) -/

/-- The image applied while the dies are powered but MODULE_STATE does not read RUN yet. -/
def State.applyBooting (s : State) : State :=
  let p := s.boot.phase
  let s := ({ s with boot := { s.boot with phase := 2 } } : State).imageApply
  { s with boot := { s.boot with phase := p } }

/-- The save list failed its check (R460): the wake goes on as a boot with the running image. -/
def State.wakeBoot (s : State) : State :=
  let crc := s.rd F.PWR_SAVE_CRC
  let s := (s.wr F.PWR_SAVE_CRC_FAIL 1).event 0xE000 0x8007 crc [Config.openFn 81 [crc] % 2 ^ 32]
  let marks := s.unitList.map (fun u => (u, s.ustate u, s.epochOf u))
  let s : State := { s with csr := dropCsr (fun _ => 0) s.csr }
  let s := marks.foldl (fun (s : State) e =>
    let s := s.setUstate e.1 e.2.1
    match epochFld e.1 with
    | some f => s.wr f e.2.2
    | none => s) s
  let s := (s.wr F.PCIE_STATUS_ROOT_PORT s.boot.rootPort.toNat).wakeUnits true
  s.applyBooting.loadHosts.startHosts

/-- WAKE_COMPLETE (R458 to R461): the schedule from PARK or from DEEP ends; `crcFail` says that the save list failed its check. -/
def execWakeComplete (crcFail : Bool) (s : State) : Out :=
  .next (
    if s.pwPhase ≠ pwWaking then s
    else
      let cause := s.rd F.PWR_WAKE_STATUS_LAST_SOURCE
      if s.modState = stDeep then
        let s : State := { s with pcie := { s.pcie with training := !s.pcie.perst } }
        if crcFail then (s.wakeBoot.syncViews).wakeEnd 0x18
        else ((s.wakeUnits true).coresResume.syncViews).wakeEnd cause
      else ((s.wakeUnits false).coresResume.syncViews).wakeEnd cause)

/-! ### Power-up (17_hardware.md) -/

/-- POWER_UP (R484, R492): VAON and RESET_N start the power-up; the straps are latched, SAFE_HOLD is asserted, and the always-on domain
waits for VIN in step 4. STRAP_TEST stops the module after step 3: it drives SAFE_HOLD and answers nothing. -/
def execPowerUp (rootPort holdup test refB : Bool) (s : State) : Out :=
  .next (
    if s.boot.phase ≠ 0 then s
    else
      let t := s.allOff.assertHold
      let t : State := { t with
        pwr := { t.pwr with vaon := true }, boot := ⟨if test then 4 else 1, 0, rootPort, holdup, refB⟩ }
      t.wr F.PCIE_STATUS_ROOT_PORT rootPort.toNat)

/-- Units at a power-up: after OFF each comes up READY at its reset epoch; after a VIN loss each passes through RESETTING, and a
quarantine stands (R354). -/
def State.unitsUp (s : State) (cold : Bool) : State :=
  if cold then s.unitList.foldl (fun (s : State) u => s.setUstate u US.ready) s else s.wakeUnits true

/-- The reference taken at power-up (R486): REFCLK_A where it qualifies, else a fitted REFCLK_B, else the internal oscillator. -/
def State.takeRef (s : State) (a b : Bool) : State :=
  let b := b && s.boot.refB
  let s := (((s.wr F.CLK_STATUS_A_QUALIFIED a.toNat).wr F.CLK_STATUS_B_QUALIFIED b.toNat).wr F.CLK_STATUS_ACTIVE (!a && b).toNat).wr
    F.CLK_STATUS_ON_INTERNAL (!a && !b).toNat
  ((s.wr F.CLK_STATUS_HOLDOVER 0).wr F.CLK_STATUS_SWITCHING 0)

/-- Steps 5 to 16: rails, clocks, the bank and book chosen, the image applied, the castle program loaded (R371, R373, R489). -/
def State.bootRun (s : State) (cause : Nat) (a b : Bool) : State :=
  let s : State := { s with boot := { s.boot with phase := 2, cause := cause } }
  let s := ((s.wr F.PWR_STATUS_SUPPLY_LOSS 0).wr F.PWR_STATUS_PHASE pwSteady).assertHold
  let s := (s.wr F.MODULE_STATE_TARGET stRun).wr F.MODULE_STATE_IN_TRANSITION 1
  let s := (s.unitsUp (cause = 0)).takeRef a b
  let s : State := { s with pcie := { s.pcie with training := !s.boot.rootPort && !s.pcie.perst } }
  s.bootBank.imageApply.loadCastle

/-- VIN_PRESENT (R484): power-up goes on from step 5; after a VIN loss whose shut-down has ended it is a full power-up with cause 0x12. -/
def execVinPresent (refA refB : Bool) (s : State) : Out :=
  .next (
    if s.boot.phase = 1 then s.bootRun s.boot.cause refA refB
    else if s.boot.phase = 3 ∧ s.on F.PWR_STATUS_SUPPLY_LOSS then s.bootRun 0x12 refA refB
    else s)

/-- BOOT_COMPLETE (R485, R487, R490, R491): MODULE_STATE RUN, PHASE HELD, the HOST_BOOT sections loaded and their cores started, the
castle interrupt; in root-port mode PERST_N is released. -/
def execBootComplete (s : State) : Out :=
  .next (
    if s.boot.phase ≠ 2 then s
    else
      let s := (s.loadHosts.setModState stRun s.boot.cause).oppEval 0
      let s := s.setLoops { s.loops with opp := s.rd F.PWR_STATUS_OPP_EFF, step := none }
      let s := if s.safePhase = phLatched then s else s.wr F.SAFE_STATUS_PHASE phHeld
      let s : State := { s with boot := { s.boot with phase := 3 } }
      let s : State := if s.boot.rootPort then { s with pcie := { s.pcie with perst := false, training := true } } else s
      s.startHosts.showFreq.syncViews.raiseCastle)

/-- MODULE_RESET (R488): SAFE_HOLD, the rails off, the always-on domain reset with its memory and counters lost. -/
def execModuleReset (s : State) : Out := .next s.allOff.assertHold

end Sys2Proof.Machine
end

