-- ==== Sys2Proof/Machine/Checker.lean ====
section
/-!
DEFINITION. The commands of the collision checker (11_planner.md).
-/

namespace Sys2Proof.Machine

/-- CC_CHECK (R294 to R299): the CHECK job that is next starts, or the one in execution goes on, by up to n candidates. -/
def execCcCheck (n : Fin 257) (s : State) : Out := .next (s.ccCheck n.val)

/-- CHECK_RESUME (R300). -/
def execCheckResume (s : State) : Out := .next s.ccResume

/-- CHECK_DEADLINE (R297). -/
def execCheckDeadline (s : State) : Out := .next s.ccDeadline

/-- CC_LOAD_MODEL (R287). -/
def execCcLoadModel (s : State) : Out := .next (s.ccJob joModel State.loadModel)

/-- CC_LOAD_SDF (R289). -/
def execCcLoadSdf (s : State) : Out := .next (s.ccJob joSdf State.loadSdf)

/-- CC_LOAD_BEV (R290). -/
def execCcLoadBev (s : State) : Out := .next (s.ccJob joBev State.loadBev)

/-- CC_COMMIT (R301). -/
def execCcCommit (s : State) : Out := .next (s.ccJob joCommit State.ccCommit)

/-- CC_CANCEL (R301). -/
def execCcCancel (s : State) : Out := .next (s.ccJob joCancel State.ccCancel)

/-- CC_FALLBACK_JOB (R305): a request with cause REQUEST. -/
def execCcFallbackJob (s : State) : Out := .next (s.ccJob joFallback (fun s _ => (St.ok, s.fbRequest fbJob)))

/-- CC_FALLBACK_BIT (R305): a write of CC_CTRL with FALLBACK set. -/
def execCcFallbackBit (r : Req) (d : WData) (s : State) : Out := .next (s.ccWrite r 0 (d.withBit 3))

/-- TRAJECTORY_SWITCH (R302): T_SWITCH of the PENDING trajectory has come. -/
def execTrajectorySwitch (s : State) : Out := .next s.trajSwitch

/-- TRAJECTORY_EXPIRY (R305): the expiry instant of the active trajectory has come. -/
def execTrajectoryExpiry (s : State) : Out := .next s.trajExpiry

/-- FALLBACK_SWITCH (R306). -/
def execFallbackSwitch (s : State) : Out := .next s.fbSwitch

/-- CC_RESET (R310): a write of CC_CTRL with RESET set. -/
def execCcReset (r : Req) (d : WData) (s : State) : Out := .next (s.ccWrite r 0 (d.withBit 2))

/-- CHECKER_RESET_COMPLETE (R310). -/
def execCheckerResetComplete (s : State) : Out := .next s.ccResetDone

end Sys2Proof.Machine
end

