-- ==== Sys2Proof/Machine/Clock.lean ====
section
/-!
DEFINITION. The commands of clock domains and references (R470 to R475, 16_power.md).
-/

namespace Sys2Proof.Machine

/-- Domains with automatic gating (the clock domain table). -/
def gateable (d : Nat) : Bool := decide (d < 105) || decide (d = 106) || decide (d = 107)

/-- CLOCK_GATE (R470): a gateable domain stops its clock after 64 idle cycles, or restarts on a request. Absent units' domains
are never clocked. -/
def execClockGate (d : Fin 112) (gated : Bool) (s : State) : Out :=
  .next (
    if gateable d.val = false ∨ ((domainUnits d.val).any s.present = false ∧ d.val ≠ 64) then s
    else if d.val < 64 then s.wrBit F.CLK_GATED_LO_GATED d.val gated
    else s.wrBit F.CLK_GATED_HI_GATED (d.val - 64) gated)

/-- REFCLK_LOSS (R471): reference 0 REFCLK_A, 1 REFCLK_B is lost. -/
def execRefclkLoss (ref : Fin 2) (s : State) : Out := .next (s.refLost ref.val)

/-- REFCLK_QUALIFIED (R473): a reference has run QUAL_MS without being lost; REFCLK_B never does where the strap says that it is
not fitted (R492). -/
def execRefclkQualified (ref : Fin 2) (s : State) : Out :=
  .next (if ref.val = 1 ∧ s.boot.refB = false then s else s.refQualified ref.val)

/-- CLOCK_SWITCH_DONE (R472). -/
def execClockSwitchDone (s : State) : Out := .next s.clkDone

/-- CLK_SWITCH (R473): a write of CLK_CTRL. -/
def execClkSwitch (r : Req) (d : WData) (s : State) : Out := .next (s.clkWrite r 0 d)

/-- CLOCK_HOLDOVER_EXPIRE (R474): no reference qualified for HOLD_MS. -/
def execClockHoldoverExpire (s : State) : Out :=
  .next (
    if s.refQual 0 ∨ s.refQual 1 ∨ s.on F.CLK_STATUS_ON_INTERNAL then s
    else ((s.wr F.CLK_STATUS_ON_INTERNAL 1).wr F.CLK_STATUS_HOLDOVER 0).safeDecide 11 0x15)

/-- CLOCK_DOMAIN_FAIL (R475). -/
def execClockDomainFail (d : Fin 112) (s : State) : Out := .next (s.domainFail d.val)

end Sys2Proof.Machine
end

