-- ==== Sys2Proof/Machine/Commands.lean ====
section
/-!
DEFINITION. The time, ingest, power, safety, rest and link commands 0x40 to 0x63 and 0x80 to 0xA2 (13_mailbox.md).
-/

namespace Sys2Proof.Machine

/-- A register written by a mailbox's owner: the whole word. -/
def State.mbSet (s : State) (m a v : Nat) : State := s.regStore (s.mbReq m) a ⟨.both, BitVec.ofNat 64 v⟩

/-- A register as a mailbox's owner sees it, without what a read brings about. -/
def State.mbSee (s : State) (m a : Nat) : Nat := s.regView (s.mbReq m) a

/-! ### Time (R31 to R33, R49, R53) -/

/-- TIME_READ (0x40): TS128 latched for the mailbox's requester. -/
def execTimeRead (m : Fin 16) (s : State) : Out :=
  .next (s.mbRun m.val 0x40 (fun s c =>
    let n := cmdArg c 0
    let (sec, s) := s.regRead (s.mbReq m.val) (R.TB_NOW_SEC n)
    s.mbEnd m.val St.ok [s.mbSee m.val (R.TB_LATCH_LOW n), sec, s.mbSee m.val (R.TB_STATUS n)]))

/-- TIME_STEP (0x41): SET_SEC and SET_LOW written. -/
def execTimeStep (m : Fin 16) (s : State) : Out :=
  .next (s.mbRun m.val 0x41 (fun s c =>
    let n := cmdArg c 0
    if s.tbFree n then
      ((s.mbSet m.val (R.TB_SET_SEC n) (cmdArg c 1)).mbSet m.val (R.TB_SET_LOW n) (cmdArg c 2)).mbEnd m.val St.ok []
    else s.mbEnd m.val St.refused []))

/-- TIME_ADJUST (0x42): the rate with SET_RATE, the slew with SLEW. -/
def execTimeAdjust (m : Fin 16) (s : State) : Out :=
  .next (s.mbRun m.val 0x42 (fun s c =>
    let n := cmdArg c 0
    if s.tbFree n then
      let s := if bit (cmdArg c 1) 32 then s.mbSet m.val (R.TB_RATE n) (cmdArg c 1 % 2 ^ 32) else s
      let s := if bit (cmdArg c 2) 32 then s.mbSet m.val (R.TB_ADJ n) (cmdArg c 2 % 2 ^ 32) else s
      s.mbEnd m.val St.ok []
    else s.mbEnd m.val St.refused []))

/-- PE_ARM (0x43): target, period and auxiliary word, then the control word with ARM. -/
def execPeArm (m : Fin 16) (s : State) : Out :=
  .next (s.mbRun m.val 0x43 (fun s c =>
    let j := cmdArg c 0
    if s.on (F.PE_CTRL_ARM j) then s.mbEnd m.val St.refused []
    else
      let s := (s.mbSet m.val (R.PE_TARGET j) (cmdArg c 2)).mbSet m.val (R.PE_PERIOD j) (cmdArg c 3)
      let s := s.mbSet m.val (R.PE_AUX j) (cmdArg c 4)
      (s.mbSet m.val (R.PE_CTRL j) (cmdArg c 1 ||| 1)).mbEnd m.val St.ok []))

/-- PE_DISARM (0x44): the control word with ARM clear. -/
def execPeDisarm (m : Fin 16) (s : State) : Out :=
  .next (s.mbRun m.val 0x44 (fun s c =>
    let j := cmdArg c 0
    let s := if s.on (F.PE_CTRL_ARM j) then s.mbSet m.val (R.PE_CTRL j) (setBit (s.reg (R.PE_CTRL j)) 0 false) else s
    s.mbEnd m.val St.ok [s.mbSee m.val (R.PE_STATUS j)]))

/-- PH_QUERY (0x45). -/
def execPhQuery (m : Fin 16) (s : State) : Out :=
  .next (s.mbRun m.val 0x45 (fun s c =>
    s.mbEnd m.val St.ok [s.mbSee m.val (R.PH_STATUS (cmdArg c 0)), s.mbSee m.val (R.PH_NOW (cmdArg c 0))]))

/-! ### Ingest (R76, R77) -/

/-- STREAM_SET (0x50): ENABLE of the slot. -/
def execStreamSet (m : Fin 16) (s : State) : Out :=
  .next (s.mbRun m.val 0x50 (fun s c =>
    let i := cmdArg c 0 % 32
    let a := R.STREAM_SRC i
    let s := s.mbSet m.val a ((s.reg a &&& (all64 ^^^ 2 ^ (F.STREAM_SRC_ENABLE i).lo)) |||
      (if bit (cmdArg c 0) 8 then 2 ^ (F.STREAM_SRC_ENABLE i).lo else 0))
    s.mbEnd m.val St.ok [s.mbSee m.val (R.STREAM_STATUS i)]))

/-- IQ_QUERY (0x51): the counts are not cleared. -/
def execIqQuery (m : Fin 16) (s : State) : Out :=
  .next (s.mbRun m.val 0x51 (fun s c =>
    let i := cmdArg c 0
    s.mbEnd m.val St.ok [s.mbSee m.val (R.IQ_FILL i), s.mbSee m.val (R.IQ_POS_A i), s.mbSee m.val (R.IQ_POS_B i),
      s.mbSee m.val (R.IQ_COUNTS i)]))

/-- IQ_FLUSH (0x52): every closed item released, as R77. -/
def execIqFlush (m : Fin 16) (s : State) : Out :=
  .next (s.mbRun m.val 0x52 (fun s c =>
    let i := cmdArg c 0
    let n := (s.q i).items.length
    (s.iqDrain i).mbEnd m.val St.ok [n]))

/-! ### Power (R8, R354, R450, R451) -/

/-- POWER_STATE from RUN or PARK: an entry into a deeper state, or the wake to RUN from PARK, MB_0's only as an enabled source.
The response waits for the commit, the abandonment or RUN. -/
def State.mbPower (s : State) (m t : Nat) : State :=
  let st := s.modState
  if st = stSafe ∨ s.on F.MODULE_STATE_IN_TRANSITION then s.mbEnd m St.refused []
  else if t = st then s.mbEnd m St.ok []
  else if t = stRun then
    if m = 0 ∧ s.wakeOn 1 = false then s.mbEnd m St.refused []
    else
      let s : State := { s with pwr := { s.pwr with mb := some m, result := none } }
      (s.wake (if m = 0 then 0x04 else 0x02) 0).mbWait m [waitPower]
  else if st = stRun ∨ (st = stPark ∧ t = stDeep) then (s.entryStart t m).mbWait m [waitPower]
  else s.mbEnd m St.refused []

/-- POWER_STATE (0x60, R451). -/
def execPowerState (m : Fin 16) (s : State) : Out :=
  .next (s.mbRun m.val 0x60 (fun s c => s.mbPower m.val (cmdArg c 0)))

/-- POWER_CAP (0x61): within the variant's range by check 6; a locked cap is the owner's to leave. -/
def execPowerCap (m : Fin 16) (s : State) : Out :=
  .next (s.mbRun m.val 0x61 (fun s c =>
    if s.on F.PWR_CTRL_LOCK then s.mbEnd m.val St.notPermitted []
    else (s.mbSet m.val R.PWR_CAP (insField (s.reg R.PWR_CAP) 0 16 (cmdArg c 0))).mbEnd m.val St.ok []))

/-- UNIT_POWER (0x62): the transitions its table gives; the state a unit is already in completes with OK. -/
def execUnitPower (m : Fin 16) (s : State) : Out :=
  .next (s.mbRun m.val 0x62 (fun s c =>
    let u := cmdUnit c
    let st := s.ustate u
    let k := cmdArg c 0
    let on := s.serving u
    if st = US.quarantined then s.mbEnd m.val St.refused []
    else if (k = 0 ∧ on = true) ∨ (k = 1 ∧ st = US.retained) ∨ (k = 2 ∧ st = US.off) then s.mbEnd m.val St.ok [st]
    else if k = 0 ∧ st = US.off then (s.unitGo u US.resetting).endState m.val u
    else if k = 0 ∧ st = US.retained then (s.unitReturn u).endState m.val u
    else if k = 1 ∧ on = true then (s.unitGo u US.retained).endState m.val u
    else if k = 2 ∧ on = true then (s.unitGo u US.off).endState m.val u
    else s.mbEnd m.val St.refused []))

/-- POWER_QUERY (0x63). -/
def execPowerQuery (m : Fin 16) (s : State) : Out :=
  .next (s.mbRun m.val 0x63 (fun s _ =>
    s.mbEnd m.val St.ok [s.rd F.PWR_MEAS_POWER_MW, s.rd F.PWR_CAP_CAP, s.reg R.MODULE_STATE]))

/-! ### The safe state (R400) -/

/-- SAFE_REQUEST (0x80): the decision with cause HOST or CASTLE and the cause byte; REFUSED in SAFE. -/
def execSafeRequest (m : Fin 16) (s : State) : Out :=
  .next (s.mbRun m.val 0x80 (fun s c =>
    if s.modState = stSafe then s.mbEnd m.val St.refused []
    else (s.mbEnd m.val St.ok []).safeDecide (if m.val = 0 then 8 else 9) (cmdArg c 0)))

/-- SAFETY_QUERY (0x81). -/
def execSafetyQuery (m : Fin 16) (s : State) : Out :=
  .next (s.mbRun m.val 0x81 (fun s _ => s.mbEnd m.val St.ok [s.reg R.MODULE_STATE, s.mbSee m.val R.SAFE_STATUS]))

/-! ### Rests (R396) -/

/-- The rest register of a unit. -/
def restUnit (u : Nat) : RestUnit :=
  let c := u / 0x1000
  if c = 1 then .square (Fin.ofNat 64 (u % 0x1000)) else if c = 2 then .plane (Fin.ofNat 32 (u % 0x1000))
  else .engine (Fin.ofNat 8 (u % 0x1000))

/-- REST_EN of a unit. -/
def State.restEnabled (s : State) (u : Nat) : Bool :=
  let c := u / 0x1000
  let i := u % 0x1000
  if c = 1 then s.on (F.SQ_CFG_REST_EN i) else if c = 2 then s.on (F.PL_CFG_REST_EN i) else s.on (F.AE_CFG_REST_EN i)

/-- REST_REQUEST (0x90): REQUEST, and FORCE with A0 [0]; completes when the rest ends. -/
def execRestRequest (m : Fin 16) (s : State) : Out :=
  .next (s.mbRun m.val 0x90 (fun s c =>
    let u := cmdUnit c
    if s.restEnabled u = false then s.mbEnd m.val St.refused []
    else
      let (r, f) := s.restCounts u
      let s := s.restWrite .castle (restUnit u) 1
      let s := if bit (cmdArg c 0) 0 then s.restWrite .castle (restUnit u) 2 else s
      s.mbWait m.val [waitRest, u, r, f]))

/-- REST_WITHDRAW (0x91): clears REQUEST. -/
def execRestWithdraw (m : Fin 16) (s : State) : Out :=
  .next (s.mbRun m.val 0x91 (fun s c => (s.restWrite .castle (restUnit (cmdUnit c)) 0x100).mbEnd m.val St.ok []))

/-! ### Links (R437, R442) -/

/-- LINK_QUERY (0xA0). -/
def execLinkQuery (m : Fin 16) (s : State) : Out :=
  .next (s.mbRun m.val 0xA0 (fun s c =>
    let k := cmdArg c 0
    s.mbEnd m.val St.ok [s.mbSee m.val (R.ZL_STATUS k), s.mbSee m.val (R.ZL_COUNTS k), s.mbSee m.val R.NET_STATUS]))

/-- LINK_RETRAIN (0xA1): RETRAIN written, ENABLE as it is. -/
def execLinkRetrain (m : Fin 16) (s : State) : Out :=
  .next (s.mbRun m.val 0xA1 (fun s c =>
    let a := R.ZL_CTRL (cmdArg c 0)
    (s.mbSet m.val a (s.reg a % 2 + 2)).mbEnd m.val St.ok []))

/-- LINK_ENABLE (0xA2): ENABLE written. -/
def execLinkEnable (m : Fin 16) (s : State) : Out :=
  .next (s.mbRun m.val 0xA2 (fun s c =>
    (s.mbSet m.val (R.ZL_CTRL (cmdArg c 0 % 4)) (bit (cmdArg c 0) 8).toNat).mbEnd m.val St.ok []))

end Sys2Proof.Machine
end

