-- ==== Sys2Proof/Machine/Dynamics.lean ====
section
/-!
DEFINITION. The commands of the dynamics unit (12_dynamics.md).
-/

namespace Sys2Proof.Machine

/-- DYN_LOAD_MODEL (R316): the next job where it is a LOAD_MODEL; `paused` where a trigger pauses it before its end (R315). -/
def execDynLoadModel (paused : Bool) (s : State) : Out := .next (s.dynJob djModel paused)

/-- LOAD_TASKS (R322). -/
def execLoadTasks (paused : Bool) (s : State) : Out := .next (s.dynJob djTasks paused)

/-- COMPUTE (R330). -/
def execCompute (paused : Bool) (s : State) : Out := .next (s.dynJob djCompute paused)

/-- DYN_RUN (R326): a write of DYN_CTRL, whose RUN bit starts or stops periodic cycles. -/
def execDynRun (r : Req) (d : WData) (s : State) : Out := .next (s.dynWrite r 0x8000 d)

/-- RUN_ONCE (R326): a write of DYN_CTRL with RUN_ONCE set. -/
def execRunOnce (r : Req) (d : WData) (s : State) : Out := .next (s.dynWrite r 0x8000 (d.withBit 3))

/-- DYN_PERIOD_TRIGGER (R326): PERIOD_NS has run out, under TRIGGER 0. -/
def execDynPeriodTrigger (s : State) : Out := .next (if s.rd F.DYN_CFG_TRIGGER = 0 then s.dynTrigger else s)

/-- DYN_NOTIFY_TRIGGER (R326): a phase event's NOTIFY at the unit, under TRIGGER 1. -/
def execDynNotifyTrigger (m : Msg) (s : State) : Out :=
  .next (
    if m.kind ≠ 1 ∨ m.op ≠ 4 ∨ m.dest ≠ dynUnit ∨ m.destModule ≠ s.moduleNo ∨ s.inOrder m = false then s
    else
      let s := s.takeMsg m
      let a := answerOf (s.ustate dynUnit)
      if a ≠ St.ok then s.answer m a
      else if s.rd F.DYN_CFG_TRIGGER = 1 ∧ m.src / 0x100 = 0x53 then s.dynTrigger else s)

/-- DYN_DEADLINE (R326). -/
def execDynDeadline (s : State) : Out := .next s.dynDeadline

/-- DYN_SOLVE_DONE (R324, R325). -/
def execDynSolveDone (s : State) : Out := .next s.dynSolveDone

/-- DYN_JOB_RESUME (R315). -/
def execDynJobResume (s : State) : Out := .next s.dynResume

/-- DYN_RESET (R332): a write of DYN_CTRL with RESET set. -/
def execDynReset (r : Req) (d : WData) (s : State) : Out := .next (s.dynWrite r 0x8000 (d.withBit 4))

/-- DYN_RESET_COMPLETE (R332). -/
def execDynResetComplete (s : State) : Out := .next s.dynResetDone

end Sys2Proof.Machine
end

