-- ==== Sys2Proof/Machine/Image.lean ====
section
/-!
DEFINITION. The image commands 0x70 to 0x77 (R372 to R377; 13_mailbox.md).
-/

namespace Sys2Proof.Machine

/-- An update session is open; check 9 has turned away every mailbox but its own (R374). -/
def State.session (s : State) : Bool := s.on F.CFG_STATUS_SESSION

/-- The bank a session writes: the one that is not active. -/
def State.otherBank (s : State) : Nat := 1 - s.activeBank

/-- IMG_READ_KEY (0x70): the value bytes of a key's record in the book (0), the user layer (1) or the effective image (2). -/
def execImgReadKey (m : Fin 16) (s : State) : Out :=
  .next (s.mbRun m.val 0x70 (fun s c =>
    let key := cmdArg c 0 % 2 ^ 16
    let layer := cmdArg c 0 / 2 ^ 16
    let found := if layer = 0 then (layerFind s.bookLayer key).map (·, 0)
      else if layer = 1 then (layerFind s.userLayer key).map (·, 1)
      else effective s.bookLayer s.userLayer key
    match found with
    | some (r, k) =>
      let (st, s) := s.busPut (s.mbMaster m.val) (cmdArg c 1) r.val false
      if st = St.ok then s.mbEnd m.val St.ok [r.val.length + k * 2 ^ 16] else s.mbEnd m.val st []
    | none => s.mbEnd m.val St.ok [3 * 2 ^ 16]))

/-- IMG_BEGIN (0x71): the session opened, the inactive bank erased outside its book region (R374, R375). -/
def execImgBegin (m : Fin 16) (s : State) : Out :=
  .next (s.mbRun m.val 0x71 (fun s _ =>
    if s.session then s.mbEnd m.val St.refused []
    else
      let k := s.otherBank
      let s := (s.wr F.CFG_STATUS_SESSION 1).wr F.CFG_STATUS_SESSION_MB m.val
      ((s.norErase k).showBank k false).mbEnd m.val St.ok [k]))

/-- IMG_WRITE (0x72): whole pages from DRAM; none where one would reach the status sector or the book region (R375). -/
def execImgWrite (m : Fin 16) (s : State) : Out :=
  .next (s.mbRun m.val 0x72 (fun s c =>
    let off := cmdArg c 0
    let src := cmdArg c 1
    let len := cmdArg c 2
    if s.session = false then s.mbEnd m.val St.refused []
    else if bankStatusOff < off + len then s.mbEnd m.val St.notPermitted []
    else if s.dramEnd < src + len then s.mbEnd m.val St.badArgument []
    else
      let (st, d, bad, s) := s.busGet (s.mbMaster m.val) src len
      if st ≠ St.ok then s.mbEnd m.val st []
      else if bad then s.mbEnd m.val St.integrity []
      else (s.norProgram (s.otherBank * bankSize + off) d).mbEnd m.val St.ok [len]))

/-- IMG_VERIFY (0x73): the checks of R372; WRITTEN and VERIFIED when they pass. -/
def execImgVerify (m : Fin 16) (s : State) : Out :=
  .next (s.mbRun m.val 0x73 (fun s _ =>
    if s.session = false then s.mbEnd m.val St.refused []
    else
      let k := s.otherBank
      let h := s.bankHeader k
      let r := s.bankCheck k
      let s := s.wr F.CFG_STATUS_LAST_VERIFY r
      let s := if r = 0 then (s.programStatus k stWritten).programStatus k stVerified else s
      (s.showBank k (r = 0)).mbEnd m.val (if r = 0 then St.ok else St.integrity) [r, hdrGeneration h, State.restartBound h]))

/-- IMG_ACTIVATE (0x74): TRIAL in a VERIFIED bank, and the session ends (R376). -/
def execImgActivate (m : Fin 16) (s : State) : Out :=
  .next (s.mbRun m.val 0x74 (fun s _ =>
    let k := s.otherBank
    if s.session = false ∨ s.bankIs k stVerified = false ∨ s.bankIs k stRejected = true then s.mbEnd m.val St.refused []
    else ((s.programStatus k stTrial).wr F.CFG_STATUS_SESSION 0).mbEnd m.val St.ok []))

/-- IMG_CONFIRM (0x75): CONFIRMED in a running bank in trial; with RAISE_FLOOR the floor rises to its SECURITY_VERSION (R376). -/
def execImgConfirm (m : Fin 16) (s : State) : Out :=
  .next (s.mbRun m.val 0x75 (fun s c =>
    if s.on F.CFG_STATUS_NO_IMAGE then s.mbEnd m.val St.refused []
    else
      let k := s.activeBank
      let s := if s.on F.CFG_STATUS_TRIAL then (s.programStatus k stConfirmed).wr F.CFG_STATUS_TRIAL 0 else s
      let s := if bit (cmdArg c 0) 0 then
          s.wr F.CFG_OTP_FLOOR (max (s.rd F.CFG_OTP_FLOOR) (hdrVersion s.img.header % 64)) else s
      s.mbEnd m.val St.ok [s.rd F.CFG_OTP_FLOOR]))

/-- IMG_ABORT (0x76): the session ends and its bank is rejected. -/
def execImgAbort (m : Fin 16) (s : State) : Out :=
  .next (s.mbRun m.val 0x76 (fun s _ =>
    if s.session = false then s.mbEnd m.val St.refused []
    else ((s.programStatus s.otherBank stRejected).wr F.CFG_STATUS_SESSION 0).mbEnd m.val St.ok []))

/-- IMG_REVOKE_KEY (0x77, R377). -/
def execImgRevokeKey (m : Fin 16) (s : State) : Out :=
  .next (s.mbRun m.val 0x77 (fun s c =>
    let k := cmdArg c 0
    let revoked := setBit (s.rd F.CFG_OTP_KEY_REVOKED) k true
    let left := s.rd F.CFG_OTP_KEY_PROGRAMMED &&& (15 ^^^ revoked)
    if left = 0 ∨ (s.on F.CFG_STATUS_NO_IMAGE = false ∧ hdrKey s.img.header = k) then s.mbEnd m.val St.notPermitted []
    else (s.wr F.CFG_OTP_KEY_REVOKED revoked).mbEnd m.val St.ok []))

end Sys2Proof.Machine
end

