-- ==== Sys2Proof/Machine/Links.lean ====
section
/-!
DEFINITION. The commands of the Zorra links and the D2D modules (R13, R437 to R445).
-/

namespace Sys2Proof.Machine

/-- D2D_MODULE_FAIL (R13): the module is taken out of service; with two or more down, the safe-state decision. -/
def execD2dModuleFail (k : Fin 4) (s : State) : Out :=
  .next (
    if bit (s.rd F.D2D_STATUS_MODULE_UP) k.val then
      let s := (s.wrBit F.D2D_STATUS_MODULE_UP k.val false).wrBit F.D2D_STATUS_MODULE_FAILED k.val true
      let s := s.event (0xC100 + k.val) 0x6004 k.val [s.rd F.D2D_STATUS_MODULE_FAILED]
      let down := 4 - (bitList (s.rd F.D2D_STATUS_MODULE_UP) 4).length
      if 2 ≤ down then s.safeDecide 10 down else s
    else s)

/-- ZORRA_LINK_TRAINED (R438, R440): the module's own link, or one of another pair of members, is trained. -/
def execZorraLinkTrained (l : LinkRef) (p : PeerHello) (s : State) : Out :=
  .next (match l with
    | .own k =>
      if s.zlEnabled k.val && s.on (F.ZL_CTRL_ENABLE k.val) && !s.zlTrained k.val then s.linkTrained k.val p else s
    | .remote a b => ({ s with link := { s.link with edges := s.link.edges ++ [(a, b)] } } : State).numberNet)

/-- FORM_WINDOW_EXPIRE (R438): the module that holds the lowest serial of its known set declares the set. -/
def execFormWindowExpire (s : State) : Out :=
  .next (
    if s.netState = netForming ∧ s.link.ended = false then
      if s.link.known.head? = some s.serial then s.formNet s.link.known s.link.edges else
        { s with link := { s.link with ended := true } }
    else s)

/-- DECLARATION_RECEIVE (R438): a declaration over ZL_k, from the lowest serial of its members. -/
def execDeclarationReceive (k : Fin 4) (members : List Nat) (edges : List (Nat × Nat)) (s : State) : Out :=
  .next (
    if s.zlTrained k.val = false ∨ s.netState = netFormed then s
    else
      let l := unionAsc [] members
      if l.contains s.serial = false then s.wr (F.ZL_STATUS_STATE k.val) zlStandby
      else if (s.serial :: s.link.known).all (fun x => decide (l.headD 0 ≤ x)) then s.formNet l edges
      else s)

/-- DECLARATION_TIMEOUT (R438): no declaration came, and the module declares its own known set. -/
def execDeclarationTimeout (s : State) : Out :=
  .next (if s.netState = netForming ∧ s.link.ended = true then s.formNet s.link.known s.link.edges else s)

/-- What an accepted frame brings over a link in service. -/
def State.linkTake (s : State) (c : LinkData) : State :=
  match c with
  | .part => s
  | .msg m => s.send m
  | .serials l =>
    if s.netState = netForming ∧ s.link.ended = false then
      { s with link := { s.link with known := unionAsc s.link.known l } }
    else s

/-- LINK_FRAME_RECEIVE (R441): accepted when its CRC holds and it is the one due; a sequence number already received is
dropped and counted; anything else is answered with a NACK. `nack` is the peer's NACK of a frame of ours, which is resent;
`fec` counts the codewords corrected. -/
def execLinkFrameReceive (k : Fin 4) (seq : Fin 4096) (crcOk nack : Bool) (fec : Nat) (c : LinkData) (s : State) : Out :=
  .next (
    if s.zlTrained k.val then
      let s := s.bumpBy (F.ZL_COUNTS_FEC_CORRECTED k.val) fec
      if crcOk then
        let s := if nack then s.bump (F.ZL_COUNTS_REPLAYS k.val) else s
        let due := (mget ⟨0⟩ s.link.zl k.val).due
        if seq.val = due then
          let s := { s with link := { s.link with zl := mset ⟨0⟩ s.link.zl k.val ⟨(due + 1) % 4096⟩ } }
          if s.zlState k.val = zlUp then s.linkTake c else s
        else if fwd 4096 seq.val due ≤ 2048 then s.bump (F.ZL_COUNTS_DUP_DROPS k.val)
        else s
      else s.bump (F.ZL_COUNTS_CRC_ERRORS k.val)
    else s)

/-- LINK_TIMEOUT (R442): a link is declared down and routes are recomputed. -/
def execLinkTimeout (l : LinkRef) (s : State) : Out :=
  .next (match l with
    | .own k => s.linkDown k.val
    | .remote a b => s.reroute none (fun s => { s with link := { s.link with
        edges := s.link.edges.filter (fun e => !(decide (e = (a, b)) || decide (e = (b, a)))) } }))

/-- NET_REFORM (R440): a write of LINK_CTRL with NET_REFORM set. -/
def execNetReform (r : Req) (d : WData) (s : State) : Out := .next (s.linkWrite r 0 d)

/-- RELAY_ITEM (R444): an item arrives for receiving relay n. -/
def execRelayItem (n : Fin 8) (item : List Byte) (s : State) : Out :=
  .next (if s.on (F.RLY_CFG_ENABLE n.val) && s.on (F.RLY_CFG_RECEIVE n.val) then s.relayTake n.val item else s)

end Sys2Proof.Machine
end

