-- ==== Sys2Proof/Machine/Memory.lean ====
section
/-!
DEFINITION. The commands of the memory controllers, the host cores' timers and interrupt routes, and of the PCIe port but for
inbound accesses (R413 to R436).
-/

namespace Sys2Proof.Machine

/-- DRAM_READ (R416): unit `u` reads the line at `a`; `found` is what the code finds on a line not already poisoned. -/
def execDramRead (u : Fin 65536) (a : Nat) (found : Ecc) (s : State) : Out := .next (s.lineRead u.val a found)

/-- DRAM_WRITE (R417): unit `u` writes bytes at `a`, poisoned or not. -/
def execDramWrite (u : Fin 65536) (a : Nat) (data : List Byte) (poison : Bool) (s : State) : Out :=
  .next (
    let m := s.unitMaster u.val
    if s.partInReset m = true ∧ a < 0x400000000000 then s.withAcc u.val St.unitReset [] false
    else if 0x400000000000 ≤ a + data.length ∨ s.dramEnd < a + data.length then s.withAcc u.val St.badArgument [] false
    else if !s.dramOpen m a data.length then s.withAcc u.val St.notPermitted [] false
    else
      let (st, s) := s.dramWrite m a data poison
      s.withAcc u.val st [] false)

/-- SCRUB_READ (R421): the scrubber of a fitted controller reads its next package line. -/
def execScrubRead (c : Fin 8) (found : Ecc) (s : State) : Out :=
  .next (if s.on F.MC_CTRL_SCRUB_EN && bit (s.rd F.MC_STATUS_PRESENT) c.val then s.scrub c.val found else s)

/-- SHARE_WINDOW (R419): a window ends; `waiting` names the controllers and partitions (8 for none) that kept requests waiting
in it. -/
def execShareWindow (waiting : List (Fin 8 × Fin 9)) (s : State) : Out :=
  .next (s.shareWindow (waiting.map (fun w => (w.1.val, w.2.val))))

/-- PACKAGE_TEMP_SAMPLE (R420): package c reads above 85 °C, or not. -/
def execPackageTempSample (c : Fin 8) (hot : Bool) (s : State) : Out := .next (s.wrBit F.MC_STATUS_HOT c.val hot)

/-- IRQ_ROUTE_WRITE (R429). -/
def execIrqRouteWrite (r : Req) (i : Fin 32) (d : WData) (s : State) : Out := .next (s.mcWrite r (0x240 + i.val * 8) d)

/-- MTIMECMP_MATCH (R428): mtime has reached the core's mtimecmp. -/
def execMtimecmpMatch (c : Fin 12) (s : State) : Out :=
  .next (
    if mget 0 s.cores.cmp c.val ≤ s.cores.mtime then { s with cores := { s.cores with timer := setBit s.cores.timer c.val true } }
    else s)

/-! ### PCIe -/

/-- The configuration and memory regions of a root port (R435). -/
def rootRegion (a len : Nat) : Bool :=
  (decide (0x720000000000 ≤ a) && decide (a + len ≤ 0x720010000000)) ||
    (decide (0x730000000000 ≤ a) && decide (a + len ≤ 0x731000000000))

/-- The bytes an access moves. -/
def barLen : BarOp → Nat
  | .read n => n
  | .write d => d.length

/-- A write towards the host that the host does not take (R25, R436). -/
def State.hostDrop (s : State) : State :=
  ((s.bump F.EGRESS_DROPS_COUNT).wr F.EGRESS_DROPS_LAST_UNIT 0xC200).event 0xC200 0x4001 0xC200 [0xFF]

/-- An access through an open outbound window: a read returns what the host answers, a write goes out as egress (R434). -/
def State.outAccess (s : State) (u host : Nat) (op : BarOp) (data : List Byte) (up : Bool) : State :=
  match op with
  | .read n =>
    if up then { s with acc := ⟨St.ok, (padTo n data).take n, false, false, false, host⟩ } else s.withAcc u St.timeout [] false
  | .write d =>
    if up then { s with acc := ⟨St.ok, d, false, false, false, host⟩ } else (s.hostDrop).withAcc u St.ok [] false

/-- PCIE_OUTBOUND_ACCESS (R434 to R436): unit `u` reads or writes an outbound window, or a root port's region; `data` is what
the other end returns, `answered` whether it takes the access, and `ctx` whether the IOMMU of the unit's partition holds a
context for the device addressed. -/
def execPcieOutboundAccess (u : Fin 65536) (a : Nat) (op : BarOp) (data : List Byte) (answered ctx : Bool) (s : State) : Out :=
  .next (
    let m := s.unitMaster u.val
    let up := s.on F.PCIE_STATUS_LINK_UP && answered
    match obIndex a with
    | some k =>
      if s.obOpen m k a (barLen op) then s.outAccess u.val (s.rd (F.PCIE_OB_HOST_HOST k) + (a - obWin k)) op data up
      else s.withAcc u.val St.notPermitted [] false
    | none =>
      if s.on F.PCIE_STATUS_ROOT_PORT && rootRegion a (barLen op) then
        if u.val = 0xA000 ∨ (u.val / 0x1000 = 0xD ∧ m.part.isSome ∧ ctx = true) then
          if up then s.outAccess u.val a op data true else s.withAcc u.val St.timeout [] false
        else s.withAcc u.val St.notPermitted [] false
      else s.withAcc u.val St.badArgument [] false)

/-- The context the lookup finds first: the lowest IOMMU that holds one (R430). -/
def firstHit (hits : List IommuHit) : Option IommuHit :=
  (List.range 8).findSome? (fun p => hits.find? (fun h => decide (h.iommu.val = p)))

/-- PCIE_DEVICE_REQUEST (R430, R435): a root-port device's request; `hits` are the valid contexts for its requester ID. -/
def execPcieDeviceRequest (hits : List IommuHit) (op : DevOp) (s : State) : Out :=
  .next (
    let ur (s : State) : State := { s with acc := ⟨St.ok, [], false, false, true, 0⟩ }
    if s.on F.PCIE_STATUS_ROOT_PORT && s.on F.PCIE_STATUS_LINK_UP then
      match firstHit hits with
      | none => ur (s.bump F.PCIE_ERRORS_UNCORRECTABLE)
      | some h =>
        let p := h.iommu.val
        let m : Master := ⟨0xC200, some p, false⟩
        match op, h.addr with
        | .msi, _ => s.raiseIrq (19 + p)
        | _, none => ur s
        | .read n, some a =>
          let (st, d, bad, s) := s.busGet m a n
          s.withAcc 0xC200 st d bad
        | .write d, some a =>
          let (st, s) := s.busPut m a d false
          s.withAcc 0xC200 st [] false
    else s)

/-- PCIE_LINK_DOWN (R436). -/
def execPcieLinkDown (s : State) : Out :=
  .next (
    if s.on F.PCIE_STATUS_LINK_UP then
      let s := (s.wr F.PCIE_STATUS_LINK_UP 0).bump F.PCIE_ERRORS_SURPRISE_DOWN
      { s with pcie := { s.pcie with training := !s.pcie.perst } }
    else s)

/-- PCIE_LINK_UP (R436): training ends; BAR and window settings are unchanged. -/
def execPcieLinkUp (speed : Fin 6) (width : Fin 9) (s : State) : Out :=
  .next (
    if s.pcie.training then
      let s := ((s.wr F.PCIE_STATUS_LINK_UP 1).wr F.PCIE_STATUS_SPEED speed.val).wr F.PCIE_STATUS_WIDTH width.val
      { s with pcie := { s.pcie with training := false } }
    else s)

/-- PERST_RELEASE (R491): PERST_N is released and link training starts. -/
def execPerstRelease (s : State) : Out :=
  .next (if s.pcie.perst then { s with pcie := { s.pcie with perst := false, training := true } } else s)

end Sys2Proof.Machine
end

