-- ==== Sys2Proof/Machine/Vec.lean ====
section
/-!
DEFINITION. The functions of the vector unit as commands: each performs the operation of its function code that stands
started at the vector unit of square n, and leaves its completion to TENSOR_OP_COMPLETE (R143, R186 to R190; log entry 23).
-/

namespace Sys2Proof.Machine

/-- The operation in progress on a unit of a square: the oldest of its lane, once started. -/
def SqSt.inProgress (q : Sys2Proof.Machine.SqSt) (lane : Nat) : Option TxOp :=
  match q.txq.find? (fun o => decide (o.lane = lane)) with
  | some o => if o.started then some o else none
  | none => none

def SqSt.replaceOp (q : Sys2Proof.Machine.SqSt) (o : TxOp) : Sys2Proof.Machine.SqSt :=
  { q with txq := q.txq.map (fun x => if x.tag = o.tag then o else x) }

/-- An operation performed: its effect, its STATUS word in its descriptor, and its status kept for the completion. -/
def performed (n : Nat) (o : TxOp) (r : TxRes) : State :=
  let s := match r.2.1 with
    | some w => r.2.2.putStatus n o.at_ w
    | none => r.2.2
  s.setSq n ((s.sqr n).replaceOp { o with result := some r.1 })

/-- The vector operation in progress performed, where it has this function code. -/
def State.vecCmd (s : State) (n fn : Nat) : State :=
  match (s.sqr n).inProgress 2 with
  | some o => if o.quant = false ∧ o.fn = fn ∧ o.result = none then performed n o (s.vecOp n fn o.desc) else s
  | none => s

/-- CONVERT (function code 0x00): each element converted between formats. -/
def execVConvert (n : Fin 64) (s : State) : Out := .next (s.vecCmd n.val 0x00)

/-- ADD (function code 0x01): a + b. -/
def execVAdd (n : Fin 64) (s : State) : Out := .next (s.vecCmd n.val 0x01)

/-- SUB (function code 0x02): a − b. -/
def execVSub (n : Fin 64) (s : State) : Out := .next (s.vecCmd n.val 0x02)

/-- MUL (function code 0x03): a × b. -/
def execVMul (n : Fin 64) (s : State) : Out := .next (s.vecCmd n.val 0x03)

/-- FMA (function code 0x04): a × b + c, rounded once. -/
def execVFma (n : Fin 64) (s : State) : Out := .next (s.vecCmd n.val 0x04)

/-- MAX (function code 0x05): the larger of a and b. -/
def execVMax (n : Fin 64) (s : State) : Out := .next (s.vecCmd n.val 0x05)

/-- MIN (function code 0x06): the smaller of a and b. -/
def execVMin (n : Fin 64) (s : State) : Out := .next (s.vecCmd n.val 0x06)

/-- ABS (function code 0x07): the absolute value. -/
def execVAbs (n : Fin 64) (s : State) : Out := .next (s.vecCmd n.val 0x07)

/-- RELU (function code 0x10): max(a, 0). -/
def execVRelu (n : Fin 64) (s : State) : Out := .next (s.vecCmd n.val 0x10)

/-- LEAKY_RELU (function code 0x11): a, or a × ARG where it is negative. -/
def execVLeakyRelu (n : Fin 64) (s : State) : Out := .next (s.vecCmd n.val 0x11)

/-- GELU_TANH (function code 0x12): GELU by its tanh form. -/
def execVGeluTanh (n : Fin 64) (s : State) : Out := .next (s.vecCmd n.val 0x12)

/-- GELU_ERF (function code 0x13): GELU by its erf form. -/
def execVGeluErf (n : Fin 64) (s : State) : Out := .next (s.vecCmd n.val 0x13)

/-- SILU (function code 0x14): a × sigmoid(a). -/
def execVSilu (n : Fin 64) (s : State) : Out := .next (s.vecCmd n.val 0x14)

/-- SIGMOID (function code 0x15): the logistic function. -/
def execVSigmoid (n : Fin 64) (s : State) : Out := .next (s.vecCmd n.val 0x15)

/-- TANH (function code 0x16): the hyperbolic tangent. -/
def execVTanh (n : Fin 64) (s : State) : Out := .next (s.vecCmd n.val 0x16)

/-- EXP (function code 0x20): the exponential. -/
def execVExp (n : Fin 64) (s : State) : Out := .next (s.vecCmd n.val 0x20)

/-- EXP2 (function code 0x21): the power of two. -/
def execVExp2 (n : Fin 64) (s : State) : Out := .next (s.vecCmd n.val 0x21)

/-- LOG (function code 0x22): the natural logarithm. -/
def execVLog (n : Fin 64) (s : State) : Out := .next (s.vecCmd n.val 0x22)

/-- RECIP (function code 0x23): the reciprocal. -/
def execVRecip (n : Fin 64) (s : State) : Out := .next (s.vecCmd n.val 0x23)

/-- SQRT (function code 0x24): the square root, correctly rounded. -/
def execVSqrt (n : Fin 64) (s : State) : Out := .next (s.vecCmd n.val 0x24)

/-- RSQRT (function code 0x25): the reciprocal square root. -/
def execVRsqrt (n : Fin 64) (s : State) : Out := .next (s.vecCmd n.val 0x25)

/-- DIV (function code 0x26): the quotient. -/
def execVDiv (n : Fin 64) (s : State) : Out := .next (s.vecCmd n.val 0x26)

/-- RSUM (function code 0x30): the sum of a row in its fixed tree (R188). -/
def execVRsum (n : Fin 64) (s : State) : Out := .next (s.vecCmd n.val 0x30)

/-- RMAX (function code 0x31): the largest element of a row. -/
def execVRmax (n : Fin 64) (s : State) : Out := .next (s.vecCmd n.val 0x31)

/-- RARGMAX (function code 0x32): the index of the first largest element of a row. -/
def execVRargmax (n : Fin 64) (s : State) : Out := .next (s.vecCmd n.val 0x32)

/-- SOFTMAX (function code 0x40): the softmax of a row (R190). -/
def execVSoftmax (n : Fin 64) (s : State) : Out := .next (s.vecCmd n.val 0x40)

/-- RMSNORM (function code 0x48): the RMS normalisation of a row (R187). -/
def execVRmsnorm (n : Fin 64) (s : State) : Out := .next (s.vecCmd n.val 0x48)

/-- LAYERNORM (function code 0x49): the layer normalisation of a row (R187). -/
def execVLayernorm (n : Fin 64) (s : State) : Out := .next (s.vecCmd n.val 0x49)

end Sys2Proof.Machine
end

