-- ==== Sys2Proof/Machine/DmaOps.lean ====
section
/-!
DEFINITION. DMA transfers: the checks on their tensors, the bursts they form, and a burst's effect (R205 to R211;
08_layout.md); and the tensor queue, which starts and completes operations (R143, R144, R172).
-/

namespace Sys2Proof.Machine

/-! ### Transfers -/

/-- A transfer as asked for: destination and source, and a list: none, gather or scatter with its unit, stride, entries. -/
structure XferReq where
  dst : TDesc
  src : TDesc
  mode : Nat
  unit : Nat
  entries : List Nat
  deriving DecidableEq, Repr

/-- A tensor's extents, with the module they lie in where it is another one. -/
def State.tensorMod (s : State) (t : TDesc) : Option Nat := if t.remote && decide (t.module ≠ s.moduleNo) then some t.module else none

def TDesc.extents (t : Sys2Proof.Machine.TDesc) : List (Nat × Nat) := t.extent :: (if t.mx then [t.scaleExtent] else [])

/-- The tensors of a transfer correspond. -/
def XferReq.corresponds (x : Sys2Proof.Machine.XferReq) : Bool :=
  x.dst.sameKind x.src &&
    (if x.mode = 0 then x.dst.sameDims x.src
      else if x.mode = 1 then listOk x.unit x.entries.length x.src x.dst
      else decide (x.mode = 2) && listOk x.unit x.entries.length x.dst x.src)

/-- The checks of R205 in order; `fp64` where the mover takes FP64 elements. -/
def State.xferCheck (s : State) (m : Master) (x : XferReq) (formOk fp64 : Bool) : Nat :=
  let loc (t : TDesc) : List (Nat × Nat) := if (s.tensorMod t).isSome then [] else t.extents
  let far (t : TDesc) : Bool := match s.tensorMod t with | some k => !s.moduleReached k | none => false
  if !formOk || x.dst.malformed || x.dst.badDest || x.src.malformed || (!fp64 && decide (x.dst.fmt = 0xA)) || !x.corresponds then St.badArgument
  else if (loc x.dst ++ loc x.src).any s.extAbsent || far x.dst || far x.src then St.absent
  else if !(loc x.dst ++ loc x.src).all s.extBacked then St.badArgument
  else if !(loc x.dst).all (fun e => s.extOpen m e true) || !(loc x.src).all (fun e => s.extOpen m e false) then St.notPermitted
  else St.ok

/-- The moves of a transfer: elements with the padding of a blocked destination, and scales after them; and the entry that
stops it (R201). -/
def XferReq.moves (x : Sys2Proof.Machine.XferReq) : List Mv × Option Nat :=
  let plain (t : TDesc) : TDesc := { t with mx := false }
  if x.mode = 0 then (mvCopy x.dst x.src, none)
  else
    let listed := if x.mode = 1 then x.src else x.dst
    let dense := if x.mode = 1 then x.dst else x.src
    let stop := x.entries.findIdx? (fun e => decide (e ≠ 0xFFFFFFFF) && !entryIn x.unit e listed)
    let es := (x.entries.take (stop.getD x.entries.length)).zipIdx
    let elems := es.map (fun e => mvEntry (x.mode = 1) x.unit e.2 e.1 (plain listed) (plain dense))
    let alls := es.map (fun e => mvEntry (x.mode = 1) x.unit e.2 e.1 listed dense)
    (elems.flatten ++ (elems.zip alls).flatMap (fun p => p.2.drop p.1.length), stop)

/-- Whether a move goes on where a burst ends, within 512 bytes and a 512-byte boundary on either side (R206). -/
def Burst.takes (b : Sys2Proof.Machine.Burst) (m : Mv) : Bool :=
  decide (m.dst = b.dst + b.len) && decide (b.dst / 1024 = (m.dst + m.w - 1) / 1024) &&
    (match b.src, m.src with
      | none, none => true
      | some a, some c => decide (c = a + b.len) && decide (a / 1024 = (c + m.w - 1) / 1024)
      | _, _ => false)

/-- Bursts of consecutive elements. -/
def burstsOf (sm dm : Option Nat) : List Mv → Option Burst → List Burst
  | [], none => []
  | [], some b => [b]
  | m :: r, none => burstsOf sm dm r (some ⟨m.src, sm, m.dst, dm, m.w, none⟩)
  | m :: r, some b =>
    if b.takes m then burstsOf sm dm r (some { b with len := b.len + m.w })
    else b :: burstsOf sm dm r (some ⟨m.src, sm, m.dst, dm, m.w, none⟩)

/-- The transfer a request forms. -/
def State.xferOf (s : State) (x : XferReq) : Xfer :=
  let (ms, stop) := x.moves
  ⟨burstsOf (s.tensorMod x.src) (s.tensorMod x.dst) ms none, [], St.ok, stop.isSome, false, stop⟩

/-- What the other end answers to a burst that leaves the module or reaches host memory: status, bytes read and poison. -/
structure ExtAns where
  status : Nat
  data : List Byte
  poison : Bool
  deriving DecidableEq, Repr

/-- Nibbles of bytes, low first, and bytes of nibbles. -/
def nibbles (l : List Byte) : List Nat := l.flatMap (fun b => [b.toNat % 16, b.toNat / 16])

/-- The first byte and the byte count a nibble range covers. -/
def spanOf (a len : Nat) : Nat × Nat := (a / 2, (a + len - 1) / 2 + 1 - a / 2)

/-- The nibbles a burst reads: zeros, what the WRITE carries, the other end's answer, or memory. -/
def State.burstRead (s : State) (m : Master) (b : Burst) (x : ExtAns) : Nat × List Nat × Bool × State :=
  match b.src with
  | none => (St.ok, List.replicate b.len 0, false, s)
  | some a =>
    let (lo, n) := spanOf a b.len
    let cut (l : List Byte) : List Nat := ((nibbles (padTo n (l.take n))).drop (a % 2)).take b.len
    match b.data with
    | some (d, p) => (St.ok, cut d, p, s)
    | none =>
      if b.srcMod.isSome || outside lo then (x.status, cut x.data, x.poison, s)
      else
        let (st, d, p, s) := s.busGet m lo n
        (st, cut d, p, s)

/-- A burst takes effect: its status, whether poison was moved, and the state after it (R210). -/
def State.burst (s : State) (m : Master) (b : Burst) (x : ExtAns) : Nat × Bool × State :=
  let (st, d, p, s) := s.burstRead m b x
  if st ≠ St.ok then (st, false, s)
  else
    let (lo, n) := spanOf b.dst b.len
    if b.dstMod.isSome || outside lo then (x.status, p, s)
    else
      let old := s.bytes lo n
      let all := (nibbles old).take (b.dst % 2) ++ d ++ (nibbles old).drop (b.dst % 2 + b.len)
      let (st, s) := s.busPut m lo (pack 4 all) p
      (st, p, s)

/-- The next burst of a transfer is issued; one that writes away from the own store takes its data along. -/
def State.xferIssue (s : State) (own : Option Nat) (x : Xfer) : Xfer :=
  match x.todo with
  | [] => x
  | b :: r =>
    let inOwn (a : Nat) : Bool := match own with
      | some n => decide (storeBase n ≤ a / 2) && decide (a / 2 < storeBase (n + 1))
      | none => false
    let b := match b.src with
      | some a =>
        if b.srcMod.isNone && inOwn a && (b.dstMod.isSome || !inOwn b.dst) then
          let (lo, n) := spanOf a b.len
          { b with data := some (s.bytes lo n, s.badAt lo n) }
        else b
      | none => if b.dstMod.isSome || !inOwn b.dst then { b with data := some ([], false) } else b
    { x with todo := r, flight := x.flight ++ [b] }

/-- The answer to burst k of a transfer. -/
def State.xferAnswer (s : State) (m : Master) (x : Xfer) (k : Nat) (a : ExtAns) : Xfer × State :=
  match x.flight[k]? with
  | none => (x, s)
  | some b =>
    let (st, p, s) := s.burst m b a
    let bad := decide (st ≠ St.ok) && decide (x.status = St.ok)
    ({ x with
      flight := x.flight.eraseIdx k, poison := x.poison || p, status := if bad then st else x.status,
      todo := if bad then [] else x.todo, partialStop := x.partialStop || bad }, s)

/-- Every burst issued has been answered, and none is left to issue. -/
def Xfer.done (x : Sys2Proof.Machine.Xfer) : Bool := x.todo.isEmpty && x.flight.isEmpty

/-- The tag's status: the first answer that was not OK, the entry that stopped the list, poison (R201, R207, R210). -/
def Xfer.result (x : Sys2Proof.Machine.Xfer) : Nat :=
  if x.status ≠ St.ok then x.status else if x.stopEntry.isSome then St.badArgument else if x.poison then St.integrity else St.ok

/-- The STATUS word of a transfer. -/
def Xfer.word (x : Sys2Proof.Machine.Xfer) : Nat :=
  x.partialStop.toNat + x.poison.toNat * 2 + min 65535 (if x.status = St.ok then x.stopEntry.getD 0 else 0) * 65536

/-! ### TX.DMA -/

/-- The request of a TX.DMA descriptor, and whether the descriptor itself is well formed. -/
def State.dmaReq (s : State) (n : Nat) (d : List Byte) : XferReq × Bool :=
  let src := field d 8 4
  let dst := field d 12 4
  let mode := field d 16 1
  let stride := field d 18 1
  let list := field d 20 4
  let count := field d 24 4
  let listFits := decide (s.ctxLo n ≤ list) && decide (list + (count - 1) * stride + 4 ≤ s.storeEnd n)
  let ok := decide (field d 4 4 = 0) && decide (field d 28 32 = 0) && decide (field d 19 1 < 8) && s.descOk n src && s.descOk n dst &&
    decide (mode ≤ 2) && (decide (mode = 0) || (decide (4 ≤ stride) && decide (1 ≤ count) && listFits))
  (⟨s.tdescAt n dst, s.tdescAt n src, mode, field d 17 1,
    if ok && decide (mode ≠ 0) then (List.range count).map (fun k => s.listEntry n list stride k) else []⟩, ok)

/-! ### The tensor queue -/

def laneArray : Nat := 0
def laneLoader : Nat := 1
def laneVector : Nat := 2
def laneMove : Nat := 3
def laneDma : Nat := 4

/-- The operations of a lane, in issue order. -/
def SqSt.lane (q : Sys2Proof.Machine.SqSt) (l : Nat) : List TxOp := q.txq.filter (fun o => decide (o.lane = l))

/-- The unit of a lane is free: nothing in progress; the DMA port once its transfers have issued their last bursts (R207). -/
def SqSt.laneFree (q : Sys2Proof.Machine.SqSt) (l : Nat) : Bool :=
  (q.lane l).all (fun o => !o.started || (decide (l = laneDma) && (match o.xfer with | some x => x.todo.isEmpty | none => o.result.isSome)))

def TxOp.swaps (o : Sys2Proof.Machine.TxOp) : Bool := decide (o.lane = laneArray) && (mmDesc o.desc).swap

/-- R172: the order the array and the weight loader keep without WAIT_MASK. -/
def SqSt.weightsOrder (q : Sys2Proof.Machine.SqSt) (o : TxOp) : Bool :=
  let before := q.txq.takeWhile (fun x => decide (x.tag ≠ o.tag))
  if o.swaps then !before.any (fun x => decide (x.lane = laneLoader))
  else if o.lane = laneLoader then !before.any (fun x => x.swaps && !x.started)
  else true

/-- Every tag of WAIT_MASK but the operation's own is done or free. -/
def SqSt.waits (q : Sys2Proof.Machine.SqSt) (o : TxOp) : Bool :=
  (List.range 32).any (fun t => decide (t ≠ o.tag) && bit (field o.desc 0 4) t && decide ((q.tag t).st = 1))

/-- An operation starts (R143): a TX.MM swaps its tiles, a TX.DMA is checked and forms its bursts. -/
def State.txStart (s : State) (n : Nat) (o : TxOp) : State :=
  let q := s.sqr n
  if o.lane = laneArray then
    let x := mmDesc o.desc
    if s.mmOk n x (q.arr.tileFor x.swap) then
      let q := q.replaceOp { o with started := true }
      s.setSq n (if x.swap then { q with arr := { q.arr with act := !q.arr.act } } else q)
    else s.setSq n (q.replaceOp { o with started := true, result := some St.badArgument })
  else if o.lane = laneDma then
    let (x, ok) := s.dmaReq n o.desc
    let c := s.xferCheck (s.masterOf (sqUnit n)) x ok false
    if c = St.ok then s.setSq n (q.replaceOp { o with started := true, xfer := some (s.xferOf x) })
    else s.setSq n (q.replaceOp { o with started := true, result := some c })
  else s.setSq n (q.replaceOp { o with started := true })

/-- The next operation of a lane starts, if it may. -/
def State.txStartLane (s : State) (n l : Nat) : State :=
  let q := s.sqr n
  if !s.serving (sqUnit n) || !q.laneFree l then s
  else
    match (q.lane l).find? (fun o => !o.started) with
    | none => s
    | some o => if q.weightsOrder o && !q.waits o then s.txStart n o else s

/-- An operation leaves the queue with its tag done. -/
def State.txFinish (s : State) (n : Nat) (o : TxOp) (st : Nat) : State :=
  let s := s.setTxq n ((s.sqr n).txq.filter (fun x => x.tag ≠ o.tag))
  (s.sqTagDone n o.tag st).sqDrained n

/-- The result of an operation that the completion itself performs. -/
def State.txRun (s : State) (n : Nat) (o : TxOp) : Option TxRes :=
  if o.lane = laneArray then some (s.mm n o.desc)
  else if o.lane = laneLoader then some (s.wload n o.desc)
  else if o.lane = laneVector ∧ o.quant = true then some (s.quantOp n o.desc)
  else if o.lane = laneMove ∧ 5 < o.fn then some (St.badArgument, none, s)
  else none

/-- An operation of a square completes (R144, R180, R207): units but the DMA port complete in issue order. -/
def State.txComplete (s : State) (n tag : Nat) : State :=
  let q := s.sqr n
  match q.txq.find? (fun o => decide (o.tag = tag)) with
  | none => s
  | some o =>
    if !o.started || !s.serving (sqUnit n) then s
    else
      match o.xfer with
      | some x =>
        if x.done then (s.putStatus n o.at_ x.word).txFinish n o x.result else s
      | none =>
        match o.result with
        | some st => s.txFinish n o st
        | none =>
          match s.txRun n o with
          | some (st, w, s) => (match w with | some w => s.putStatus n o.at_ w | none => s).txFinish n o st
          | none => s

/-- Bursts in flight on a square's port. -/
def SqSt.flying (q : Sys2Proof.Machine.SqSt) : Nat :=
  (q.txq.map (fun o => match o.xfer with | some x => x.flight.length | none => 0)).sum + q.orphans.length

/-- The port issues the next burst of its oldest transfer that has one left. -/
def State.dmaIssue (s : State) (n : Nat) : State :=
  let q := s.sqr n
  if !s.serving (sqUnit n) || decide (32 ≤ q.flying) then s
  else
    match (q.lane laneDma).find? (fun o => match o.xfer with | some x => !x.todo.isEmpty | none => false) with
    | some o => s.setSq n (q.replaceOp { o with xfer := o.xfer.map (s.xferIssue (some n)) })
    | none => s

/-- The answer to burst k of the transfer with a tag; without such a transfer, the k-th burst left by an earlier program
completes at its target, its answer discarded (R211). -/
def State.dmaAnswer (s : State) (n tag k : Nat) (a : ExtAns) : State :=
  let m := s.masterOf (sqUnit n)
  match (s.sqr n).txq.find? (fun o => decide (o.tag = tag) && o.xfer.isSome) with
  | some o =>
    match o.xfer with
    | some x =>
      let (x, s) := s.xferAnswer m x k a
      s.setSq n ((s.sqr n).replaceOp { o with xfer := some x })
    | none => s
  | none =>
    match (s.sqr n).orphans[k]? with
    | some b =>
      let (_, _, s) := s.burst m b a
      s.setSq n { s.sqr n with orphans := (s.sqr n).orphans.eraseIdx k }
    | none => s

end Sys2Proof.Machine
end

