-- ==== Sys2Proof/Machine/Programs.lean ====
section
/-!
DEFINITION. The program, job, memory and key-value commands 0x20 to 0x33 (R146, R205 to R210, R217, R218, R353, R364;
13_mailbox.md).
-/

namespace Sys2Proof.Machine

/-- SQ_LOAD on the context that is current: the image copied, its CRC-32C checked, LOAD and START. On a mismatch the copied range is
undefined. -/
def State.mbSqLoad (s : State) (m n : Nat) (c : List Byte) (away : Bool) : State :=
  let len := cmdArg c 1
  let off := cmdArg c 2
  let st := s.ustate (sqUnit n)
  if st = US.busy ∨ (st = US.ready ∧ ((s.sqr n).loading.isSome ∨ s.epochHeld (sqUnit n) = true)) then s.mbEnd m St.busy []
  else if st ≠ US.ready then s.mbEnd m (answerOf st) []
  else if s.storeBadRange n off len then s.mbEnd m St.badArgument []
  else
    let (g, d, bad, s) := s.busGet (s.mbMaster m) (cmdArg c 0) len
    if g ≠ St.ok then s.mbEnd m g []
    else if bad = true ∨ crc32c d ≠ cmdArg c 4 % 2 ^ 32 then (s.scramble 80 (storeBase n + off) len).mbEnd m St.integrity []
    else
      let s := (s.store (storeBase n + off) d).wr (F.SQ_ENTRY_ENTRY n) (cmdArg c 3)
      let s := s.sqLoad n (bit (cmdArg c 4) 32)
      (if away then s.sqLoadDone n else s).endEpoch m (sqUnit n)

/-- SQ_LOAD (0x20): on a time-shared square the context of the mailbox's partition (R364). -/
def execSqLoad (m : Fin 16) (s : State) : Out :=
  .next (s.mbRun m.val 0x20 (fun s c =>
    let n := cmdUnit c % 0x1000
    let own := s.mbOwn m.val
    let away := s.shared n && (match own with | some p => decide (some p ≠ s.unitPart (sqUnit n)) | none => false)
    s.onCtx n own (fun s => s.mbSqLoad m.val n c away)))

/-- A square in which START, or HALT, would be obeyed (R145, R147). -/
def State.runnable (s : State) (n : Nat) (halt : Bool) : Bool :=
  if halt then decide (s.ustate (sqUnit n) = US.busy)
  else decide (s.ustate (sqUnit n) = US.ready) && !s.epochHeld (sqUnit n) && !(s.sqr n).loading.isSome &&
    decide ((if (s.sqr n).fresh then s.rd (F.SQ_ENTRY_ENTRY n) else s.rd (F.SQ_PC_PC n)) < storeSize)

/-- SQ_RUN (0x21): every square named, or none. -/
def execSqRun (m : Fin 16) (s : State) : Out :=
  .next (s.mbRun m.val 0x21 (fun s c =>
    let l := bitList (cmdArg c 0) 64
    let halt := bit (cmdArg c 1) 0
    if l.all (fun n => s.runnable n halt) then
      (l.foldl (fun (s : State) n => if halt then s.sqHalt n else s.sqStart n) s).mbEnd m.val St.ok [cmdArg c 0]
    else s.mbEnd m.val St.refused []))

/-- PL_LOAD (0x22): LOAD_OPEN with the range and CRC; the copy follows once the plane is LOADING, and the command completes with its
check. -/
def execPlLoad (m : Fin 16) (s : State) : Out :=
  .next (s.mbRun m.val 0x22 (fun s c =>
    let p := cmdUnit c % 0x1000
    let sh := s.shell p
    if s.serving (planeUnit p) = false then s.mbEnd m.val (answerOf (s.ustate (planeUnit p))) []
    else if sh = shLoading ∨ sh = shChecking ∨ (s.plane p).openWait = true then s.mbEnd m.val St.busy []
    else
      let s := ((s.wr (F.PL_LOAD_EXPECT_CRC p) (cmdArg c 2)).wr (F.PL_LOAD_COL_FIRST p) (bits (cmdArg c 1) 0 10)).wr
        (F.PL_LOAD_COL_COUNT p) (bits (cmdArg c 1) 10 11)
      ((s.plOpen p).mbWait m.val [waitLoad, p, 0]).mbPlane m.val p c 0))

/-- JOB_SEND (0x23, R353): the job goes out as a non-posted SEND whose tag is the mailbox; the command completes with its answer. -/
def execJobSend (m : Fin 16) (s : State) : Out :=
  .next (s.mbRun m.val 0x23 (fun s c =>
    let (st, d, bad, s) := s.busGet (s.mbMaster m.val) (cmdArg c 0) 64
    if st ≠ St.ok then s.mbEnd m.val st []
    else
      let msg : Msg := ⟨cmdUnit c, s.moduleNo, bad, 0xF000, s.moduleNo, 3, cmdArg c 1, 0, 1, m.val, s.epochOf 0xF000,
        (s.mbOwn m.val).getD 0, 0, 0, 0, d⟩
      (s.mbWait m.val [waitAck]).send msg))

/-- A reply to the mailbox sequencer: the ACK of a JOB_SEND, or an ANSWER that refuses it. -/
def State.mbAck (s : State) (m : Msg) : State :=
  match s.mbExec m.tag with
  | some e => if e.wait = [waitAck] then
      (if m.op = 0x1F then s.mbEnd m.tag m.status [] else s.mbEnd m.tag St.ok [m.status]) else s
  | none => s

/-! ### Memory -/

/-- The answers of the other ends of bursts that leave the module, in order. -/
abbrev ExtList := List (Fin 13 × List Byte × Bool)

/-- Bursts one after another; one that leaves the module takes the next answer, TIMEOUT where none is left. -/
def State.runBursts (s : State) (m : Master) : List Burst → ExtList → Bool → Nat × Bool × State
  | [], _, p => (St.ok, p, s)
  | b :: r, ext, p =>
    let out := b.srcMod.isSome || b.dstMod.isSome || outside (b.dst / 2) || (match b.src with | some a => outside (a / 2) | none => false)
    let a : ExtAns := match ext with
      | e :: _ => if out then ⟨e.1.val, e.2.1, e.2.2⟩ else ⟨St.ok, [], false⟩
      | [] => if out then ⟨St.timeout, [], false⟩ else ⟨St.ok, [], false⟩
    let (st, q, s) := s.burst m b a
    if st ≠ St.ok then (st, p || q, s) else s.runBursts m r (if out then ext.drop 1 else ext) (p || q)

/-- A transfer of the mailbox mover from start to end: its status and STATUS word. -/
def State.moverRun (s : State) (m : Nat) (bs : List Burst) (ext : ExtList) : State :=
  let (st, p, s) := s.runBursts (s.mbMaster m) bs ext false
  let x : Xfer := ⟨[], [], st, decide (st ≠ St.ok), p, none⟩
  s.mbEnd m x.result [x.word]

/-- A tensor descriptor read from memory by the mailbox's mover. -/
def State.readDesc (s : State) (m a : Nat) : Nat × TDesc × State :=
  let (st, d, _, s) := s.busGet (s.mbMaster m) a 64
  (st, tdesc d, s)

/-- MEM_COPY (0x30, R205 to R210); `ext` are the answers of other modules and the host. -/
def execMemCopy (m : Fin 16) (ext : List (Fin 13 × List Byte × Bool)) (s : State) : Out :=
  .next (s.mbRun m.val 0x30 (fun s c =>
    let (a, src, s) := s.readDesc m.val (cmdArg c 0)
    let (b, dst, s) := s.readDesc m.val (cmdArg c 1)
    if a ≠ St.ok then s.mbEnd m.val a []
    else if b ≠ St.ok then s.mbEnd m.val b []
    else
      let x : XferReq := ⟨dst, src, 0, 0, []⟩
      let k := s.xferCheck (s.mbMaster m.val) x true true
      if k ≠ St.ok then s.mbEnd m.val k [] else s.moverRun m.val (s.xferOf x).todo ext))

/-- A burst that writes one element's pattern. -/
def State.fillBurst (s : State) (d : TDesc) (mv : Mv) : Burst :=
  let v := mv.fill
  ⟨some mv.dst, none, mv.dst, s.tensorMod d, mv.w,
    some (pack 4 (List.replicate (mv.dst % 2) 0 ++ (List.range mv.w).map (fun i => v / 16 ^ i % 16)), false)⟩

/-- MEM_FILL (0x31): every element of the destination takes the pattern, blocked padding zero (R200). -/
def execMemFill (m : Fin 16) (ext : List (Fin 13 × List Byte × Bool)) (s : State) : Out :=
  .next (s.mbRun m.val 0x31 (fun s c =>
    let (a, d, s) := s.readDesc m.val (cmdArg c 0)
    if a ≠ St.ok then s.mbEnd m.val a []
    else
      let k := s.xferCheck (s.mbMaster m.val) ⟨d, d, 0, 0, []⟩ true true
      if k ≠ St.ok then s.mbEnd m.val k []
      else
        let v := cmdArg c 1
        let l := (List.range d.rows).flatMap (fun r => (List.range (d.dim 0)).map (fun i =>
          (⟨d.elem r i, none, v % 16 ^ d.nib, d.nib⟩ : Mv))) ++ mvPad d
        s.moverRun m.val (l.map (s.fillBurst d)) ext))

/-! ### The key-value cache -/

/-- KV_OP (0x32): the operation on the engine, for the mailbox's partition. -/
def execKvOp (m : Fin 16) (s : State) : Out :=
  .next (s.mbRun m.val 0x32 (fun s c =>
    let u := cmdUnit c
    let k := s.mbKvJob m.val c
    if s.serving u = false then s.mbEnd m.val (answerOf (s.ustate u)) []
    else if s.kvOn = false then s.mbEnd m.val St.refused []
    else if k.op < 2 ∨ 8 < k.op ∨ s.kvFieldsOk k = false then s.mbEnd m.val St.badArgument []
    else s.mbKv m.val k (s.kvOp k none)))

/-- KV_POOL_QUERY (0x33): the counts are not cleared. -/
def execKvPoolQuery (m : Fin 16) (s : State) : Out :=
  .next (s.mbRun m.val 0x33 (fun s c =>
    let p := cmdArg c 0
    s.mbEnd m.val St.ok [s.reg (R.KV_POOL_STATUS p), s.reg (R.KV_POOL_COUNTS p)]))

end Sys2Proof.Machine
end

