-- ==== Sys2Proof/Machine/Mesh.lean ====
section
/-!
DEFINITION. A request, posted message or reply at its destination router (R155, R159, R216, R281, R284, R314, R446, R498, R499,
06_grid.md), and a peer's access to its mailbox.
-/

namespace Sys2Proof.Machine

/-- A READ or WRITE at a plane's window or an engine's buffer. -/
def State.windowDeliver (s : State) (m : Msg) : State :=
  let i := m.dest % 0x1000
  let a := rwAddr m
  let plane := decide (m.dest / 0x1000 = 2)
  let base := if plane then planeWin i else engineWin i
  let size := if plane then 0x100000 else 0x400000
  if a < base ∨ base + size ≤ a then s.answer m St.badArgument
  else
    let off := a - base
    if m.op = 2 then
      let (st, d) := if plane then s.planeRead i off (rwLen m) else s.engineRead i off (rwLen m)
      if st = St.ok then s.send (replyTo s m 0x11 St.ok d) else s.answer m st
    else
      let d := m.payload.drop 8
      let (st, s) := if plane then s.planeWrite i off d else s.engineWrite (s.masterOf m.src) i off d
      if st ≠ St.ok then s.answer m st else if m.kind = 0 then s.send (replyTo s m 0x12 St.ok []) else s

/-- Units that take their messages with commands of their own: jobs of planes and engines, castle units, and the dynamics unit's
triggers. -/
def ownArrival (m : Msg) : Bool :=
  let c := m.dest / 0x1000
  (decide (m.op = 1) && (decide (c = 2) || decide (c = 3))) || decide (c = 0xA) || (decide (m.dest = dynUnit) && decide (m.op = 4))

/-- Units of the tensor die, which the mesh carries. -/
def onMesh (u : Nat) : Bool := decide (1 ≤ u / 0x1000) && decide (u / 0x1000 ≤ 3)

/-- The clock of the mesh has failed: its edge ports answer what is bound into it with UNIT_RESET, and nothing crosses it (R475). -/
def State.meshDead (s : State) (m : Msg) : Bool := s.clkFailed 64 && (onMesh m.dest || onMesh m.src)

/-- A WRITE to the mailbox sequencer: a peer's access to the mailbox that serves it, the only one it takes (R346, R446; log entry
42). -/
def State.peerDeliver (s : State) (m : Msg) : State :=
  if m.op = 3 ∧ m.kind ≠ 3 then
    let (ok, s) := s.peerMbWrite m.srcModule (rwAddr m) (m.payload.drop 8)
    if ok then (if m.kind = 0 then s.send (replyTo s m 0x12 St.ok []) else s) else s.answer m St.notPermitted
  else s.answer m St.badArgument

/-- MESH_REQUEST_ARRIVE (R155, R498): a square's router takes the message under R155; the checker and the dynamics unit take jobs; planes
and engines serve READ and WRITE; an ID that names no present unit that takes messages is answered ABSENT, and any other operation
BAD_ARGUMENT. -/
def execMeshRequestArrive (m : Msg) (s : State) : Out :=
  .next (
    if m.kind = 2 ∨ m.destModule ≠ s.moduleNo ∨ s.inOrder m = false then s
    else if s.meshDead m then (if onMesh m.src then s else (s.takeMsg m).answer m St.unitReset)
    else if m.dest = 0xF000 then (s.takeMsg m).peerDeliver m
    else if s.present m.dest = false then (s.takeMsg m).answer m St.absent
    else if ownArrival m then s
    else
      let s := s.takeMsg m
      let c := m.dest / 0x1000
      if c = 1 then s.sqDeliver (m.dest % 0x1000) m
      else if m.dest = ccUnit ∧ m.op = 1 then s.ccArrive m
      else if m.dest = dynUnit ∧ m.op = 1 then s.dynArrive m
      else if s.serving m.dest = false then s.answer m (answerOf (s.ustate m.dest))
      else if s.msgFenced m then s.answer m St.notPermitted
      else if (c = 2 ∨ c = 3) ∧ (m.op = 2 ∨ m.op = 3) ∧ m.kind ≠ 3 then s.windowDeliver m
      else s.answer m St.badArgument)

/-- MESH_REPLY_ARRIVE (R159, R160): a square takes a reply by its tag, the mailbox sequencer the ACK of a JOB_SEND. -/
def execMeshReplyArrive (m : Msg) (s : State) : Out :=
  .next (
    if m.kind ≠ 2 ∨ m.tag = 0xFF ∨ m.destModule ≠ s.moduleNo ∨ s.inOrder m = false ∨ s.meshDead m = true then s
    else if m.dest = 0xF000 then (s.takeMsg m).mbAck m
    else if m.dest / 0x1000 ≠ 1 then s
    else if s.present m.dest = false then s.takeMsg m
    else (s.takeMsg m).sqReply (m.dest % 0x1000) m)

end Sys2Proof.Machine
end

