-- ==== Sys2Proof/Machine/Moves.lean ====
section
/-!
DEFINITION. The operations of the move unit as commands: each performs the TX.MOVE of its operation that stands started at
the move unit of square n, and leaves its completion to TENSOR_OP_COMPLETE (R143, R200 to R204; log entry 23).
-/

namespace Sys2Proof.Machine

/-- The move in progress performed, where it is this operation. -/
def State.moveCmd (s : State) (n op : Nat) : State :=
  match (s.sqr n).inProgress 3 with
  | some o => if o.fn = op ∧ o.result = none then performed n o (s.moveOp n op o.desc) else s
  | none => s

/-- COPY (OP 0): dst(i) = src(i). -/
def execMvCopy (n : Fin 64) (s : State) : Out := .next (s.moveCmd n.val 0)

/-- TRANSPOSE (OP 1): the indices of dimensions 0 and 1 exchanged. -/
def execMvTranspose (n : Fin 64) (s : State) : Out := .next (s.moveCmd n.val 1)

/-- GATHER (OP 2): dense unit n = listed unit LIST[n]. -/
def execMvGather (n : Fin 64) (s : State) : Out := .next (s.moveCmd n.val 2)

/-- SCATTER (OP 3): listed unit LIST[n] = dense unit n. -/
def execMvScatter (n : Fin 64) (s : State) : Out := .next (s.moveCmd n.val 3)

/-- SCATTER_ADD (OP 4): listed unit LIST[n] += dense unit n. -/
def execMvScatterAdd (n : Fin 64) (s : State) : Out := .next (s.moveCmd n.val 4)

/-- FILL (OP 5): every destination element = FILL_VALUE. -/
def execMvFill (n : Fin 64) (s : State) : Out := .next (s.moveCmd n.val 5)

end Sys2Proof.Machine
end

