-- ==== Sys2Proof/Machine/Planes.lean ====
section
/-!
DEFINITION. The commands of the analog planes: jobs, products, loads, calibrations, checks, policies and resets (09_analog.md).
-/

namespace Sys2Proof.Machine

/-- PLANE_JOB_ARRIVE (R221, R222): a SEND at a plane. -/
def execPlaneJobArrive (m : Msg) (s : State) : Out :=
  .next (
    if m.kind = 2 ∨ m.op ≠ 1 ∨ m.dest / 0x1000 ≠ 2 ∨ m.destModule ≠ s.moduleNo ∨ s.inOrder m = false then s
    else if s.present m.dest = false then (s.takeMsg m).answer m St.absent
    else (s.takeMsg m).plArrive m)

/-- PLANE_JOB_START (R221). -/
def execPlaneJobStart (p : Fin 32) (s : State) : Out := .next (s.plStart p.val)

/-- PLANE_PRODUCT_END (R213 to R215, R229 to R233): the next product of the job in execution ends. -/
def execPlaneProductEnd (p : Fin 32) (s : State) : Out :=
  .next (
    match (s.plane p.val).run with
    | none => s
    | some r =>
      if s.shell p.val = shRunning ∧ r.stop = false ∧ r.vec < (plJob r.msg.payload).vectors ∧ (s.plane p.val).breach ≠ some 0 then
        s.plProduct p.val r
      else s)

/-- PLANE_JOB_DONE (R223). -/
def execPlaneJobDone (p : Fin 32) (s : State) : Out := .next (s.plJobDone p.val)

/-- PL_LOAD_OPEN (R217): a write of PL_CTRL with LOAD_OPEN set. -/
def execPlLoadOpen (r : Req) (p : Fin 32) (d : WData) (s : State) : Out :=
  .next (if s.present (planeUnit p.val) then s.plWrite r p.val 0 (d.withBit 2) else s)

/-- PL_LOAD_CLOSE (R218): a write of PL_CTRL with LOAD_CLOSE set. -/
def execPlLoadClose (r : Req) (p : Fin 32) (d : WData) (s : State) : Out :=
  .next (if s.present (planeUnit p.val) then s.plWrite r p.val 0 (d.withBit 3) else s)

/-- PLANE_LOAD_CHECK_DONE (R218). -/
def execPlaneLoadCheckDone (p : Fin 32) (s : State) : Out := .next (s.plLoadDone p.val)

/-- CAL_FULL (R228): a write of PL_CTRL with CAL_FULL set. -/
def execCalFull (r : Req) (p : Fin 32) (d : WData) (s : State) : Out :=
  .next (if s.present (planeUnit p.val) then s.plWrite r p.val 0 (d.withBit 4) else s)

/-- CAL_OFFSET (R228): a write of PL_CTRL with CAL_OFFSET set. -/
def execCalOffset (r : Req) (p : Fin 32) (d : WData) (s : State) : Out :=
  .next (if s.present (planeUnit p.val) then s.plWrite r p.val 0 (d.withBit 5) else s)

/-- CALIBRATION_START (R228, R233): at a job boundary, or at a vector boundary after a breach; a full one covers an offset. -/
def execCalibrationStart (p : Fin 32) (s : State) : Out :=
  .next (
    let x := s.plane p.val
    if s.serving (planeUnit p.val) ∧ s.plWants p.val ∧ x.cal = none ∧
        (s.shell p.val = shIdle ∨ (s.shell p.val = shRunning ∧ x.breach.isSome)) then
      let full := x.wantFull
      let s := s.setPlane p.val { x with
        cal := some (if full then 1 else 0), wantFull := false, wantOffset := false, breach := none,
        run := x.run.map (fun r => { r with recal := true }) }
      s.setShell p.val shCalibrating
    else s)

/-- CALIBRATION_DONE (R227): the shell resumes the job it paused, or is idle; a failed full calibration is FAULT. -/
def execCalibrationDone (p : Fin 32) (s : State) : Out :=
  .next (
    match (s.plane p.val).cal with
    | none => s
    | some k =>
      let (bad, s) := if k = 1 then s.plFullCal p.val else (false, s.plOffsetCal p.val)
      let s := s.setPlane p.val { s.plane p.val with cal := none }
      if bad then s.plFault p.val
      else (s.setShell p.val (if (s.plane p.val).run.isSome then shRunning else shIdle)).plOpenTry p.val)

/-- PLANE_TEMP_SAMPLE (R226, R228, R236): the sensor reads `t`, in 1/8 °C. -/
def execPlaneTempSample (p : Fin 32) (t : BitVec 16) (s : State) : Out :=
  .next (
    if s.present (planeUnit p.val) then
      let s := s.wr (F.PL_TEMP_T p.val) t.toNat
      let d := s.plT p.val - s.rdS (F.PL_TEMP_T_CAL p.val)
      let s := if (s.plT p.val - s.rdS (F.PL_CAL_CTRL_T_FORCE p.val)).natAbs ≥ (s.plRecalDt p.val).natAbs then s.plOverride p.val 2 else s
      if s.plRecalDt p.val ≤ (d.natAbs : Int) ∧ s.plEff p.val ≠ polHold ∧ s.serving (planeUnit p.val) then
        s.setPlane p.val { s.plane p.val with wantFull := true }
      else s
    else s)

/-- RECAL_MS_EXPIRE (R228): CAL_AGE_MS reaches RECAL_MS. -/
def execRecalMsExpire (p : Fin 32) (s : State) : Out :=
  .next (
    if s.serving (planeUnit p.val) ∧ s.on (F.PL_LIMITS_RECAL_MS p.val) ∧ s.plEff p.val ≠ polHold then
      s.setPlane p.val { s.plane p.val with wantOffset := true }
    else s)

/-- WEIGHT_CHECK (R220): the next column, in which a cell bit may have flipped. -/
def execWeightCheck (p : Fin 32) (flip : Option (Fin 4096)) (s : State) : Out :=
  .next (
    let x := s.plane p.val
    if s.serving (planeUnit p.val) ∧ s.on (F.PL_CFG_WCHECK_US p.val) ∧ (s.shell p.val = shIdle ∨ s.shell p.val = shRunning) then
      let a (b : Nat) : Nat := planeWin p.val + x.checkCol * 512 + b / 8
      let s := match flip with
        | some b => s.setByte (a b.val) (s.byte (a b.val) ^^^ BitVec.ofNat 8 (2 ^ (b.val % 8)))
        | none => s
      let s := s.plCheckCol p.val x.checkCol 1
      let s := if x.checkCol = 1023 then s.bump (F.PL_WCHECK_SWEEPS p.val) else s
      s.setPlane p.val { s.plane p.val with checkCol := (x.checkCol + 1) % 1024 }
    else s)

/-- PROBE_PRODUCT (R230): no job has run for PROBE_US. -/
def execProbeProduct (p : Fin 32) (s : State) : Out :=
  .next (
    if s.serving (planeUnit p.val) ∧ s.on (F.PL_CFG_PROBE_US p.val) ∧ s.shell p.val = shIdle ∧ (s.plane p.val).run = none then
      let (xs, s) := s.drawBytes 51 1024
      let (breach, s) := s.plEstimate p.val (xs.map (·.toNat)) 0 3
      (s.plJudge p.val breach).plBoundary p.val
    else s)

/-- CONTRACT_AGE_OUT (R230): with probing off, 10 ms without a product. -/
def execContractAgeOut (p : Fin 32) (s : State) : Out :=
  .next (if s.present (planeUnit p.val) ∧ s.on (F.PL_CFG_PROBE_US p.val) = false then s.plContract p.val ctUnknown else s)

/-- PL_CAL_CTRL_WRITE (R235). -/
def execPlCalCtrlWrite (r : Req) (p : Fin 32) (d : WData) (s : State) : Out :=
  .next (if s.present (planeUnit p.val) then s.plWrite r p.val 0x28 d else s)

/-- PL_FORCE_WRITE (R235). -/
def execPlForceWrite (r : Req) (p : Fin 32) (j : Fin 1056) (d : WData) (s : State) : Out :=
  .next (if s.present (planeUnit p.val) then s.plWrite r p.val (0x4000 + 8 * j.val) d else s)

/-- OVERRIDE_RELEASE (R236): RELEASE_MS have passed since the override began. -/
def execOverrideRelease (p : Fin 32) (s : State) : Out :=
  .next (
    if s.on (F.PL_CAL_STATUS_OVERRIDE p.val) ∧ s.on (F.PL_CAL_STATUS_STUCK p.val) = false ∧
        2 * (s.plT p.val - s.rdS (F.PL_CAL_CTRL_T_FORCE p.val)).natAbs ≤ (s.plRecalDt p.val).natAbs then s.plApply p.val
    else s)

/-- PL_RESET (R239): a write of PL_CTRL with RESET set. -/
def execPlReset (r : Req) (p : Fin 32) (d : WData) (s : State) : Out :=
  .next (if s.present (planeUnit p.val) then s.plWrite r p.val 0 (d.withBit 1) else s)

/-- PL_RESET_COMPLETE (R239). -/
def execPlResetComplete (p : Fin 32) (s : State) : Out := .next (s.plResetDone p.val)

end Sys2Proof.Machine
end

