-- ==== Sys2Proof/Machine/Power.lean ====
section
/-!
DEFINITION. The commands of power states, the loops and the supplies (16_power.md), but for the end of a wake, which may boot.
-/

namespace Sys2Proof.Machine

/-- PWR_VOTE_WRITE (R452, R482): a standing vote; a REFUSE in a handshake abandons the entry (R453). -/
def execPwrVoteWrite (r : Req) (d : WData) (s : State) : Out := .next (s.pwrWrite r 0x38 d)

/-- ENTRY_DELAY_TIMEOUT (R453): DELAY_MAX_MS of the handshake have run. -/
def execEntryDelayTimeout (s : State) : Out := .next s.entryDelayed

/-- ENTRY_COMMIT (R454): the first cycle in which every participant allows. -/
def execEntryCommit (s : State) : Out := .next s.entryCommit

/-- ENTRY_COMPLETE (R449, R450): MODULE_STATE reads PARK or DEEP; a held wake starts. -/
def execEntryComplete (s : State) : Out := .next s.entryEnd

/-- WAKE_PIN (R458): a falling edge on WAKE_N. -/
def execWakePin (s : State) : Out := .next (if s.wakeOn 0 then s.wake 0x03 0 else s)

/-- WAKE_TIMER (R458): TIMER_MS have run since the end of the entry. -/
def execWakeTimer (s : State) : Out :=
  .next (if s.wakeOn 4 ∧ s.rd F.PWR_WAKE_TIMER_TIMER_MS ≠ 0 ∧ s.asleep then s.wake 0x07 0 else s)

/-- PWR_WAKE_WRITE (R458, R482): PWR_CTRL.WAKE, which only the castle may write. -/
def execPwrWakeWrite (r : Req) (s : State) : Out := .next (s.pwrWrite r 0 ⟨.low, 2⟩)

/-- VF_STEP_DONE (R463): FABRIC_CLK runs at the new point. -/
def execVfStepDone (s : State) : Out := .next s.vfDone

/-- OPP_REQ_WRITE (R464): the requested point, kept and bounded by the limit step. -/
def execOppReqWrite (r : Req) (d : WData) (s : State) : Out := .next (s.pwrWrite r 0x18 d)

/-- CAP_WINDOW (R465): a window of the cap loop ends with its mean power in mW; a window starts only after the last step has
completed. -/
def execCapWindow (mw : Nat) (s : State) : Out :=
  .next (if s.loops.step.isNone ∧ (s.modState = stRun ∨ s.modState = stSafe) then s.capWindow mw else s)

/-- PEAK_OVERCURRENT (R467): the limiter swallows every second FABRIC_CLK pulse. -/
def execPeakOvercurrent (s : State) : Out := .next (s.wr F.PWR_STATUS_PEAK_ACTIVE 1)

/-- PEAK_RELEASE (R467): 50 µs without exceeding I_PEAK; PEAK_EVENTS increments. -/
def execPeakRelease (s : State) : Out :=
  .next (if s.on F.PWR_STATUS_PEAK_ACTIVE then (s.wr F.PWR_STATUS_PEAK_ACTIVE 0).bump F.PWR_OVERRIDE_PEAK_EVENTS else s)

/-- THERMAL_TICK (R469): a millisecond of the thermal loop, with the hottest reading in 1/8 °C. -/
def execThermalTick (t : Int) (s : State) : Out := .next (if s.modState = stRun ∨ s.modState = stSafe then s.thermalTick t else s)

/-- VIN_LOSS (R476): VIN below 8.5 V for 2 µs, with VIN in mV. -/
def execVinLoss (mv : Nat) (s : State) : Out := .next (s.vinLoss mv)

/-- VIN_BROWNOUT (R476): a shorter dip. -/
def execVinBrownout (s : State) : Out := .next (s.bump F.PWR_SUPPLY_BROWNOUTS)

/-- VIN_RETURN (R478): during the shut-down, which completes; a full power-up with cause 0x12 follows from step 5, once VIN_PRESENT
has come. -/
def execVinReturn (s : State) : Out :=
  .next (
    if s.pwPhase = pwShutdown then
      let s := (s.bump F.PWR_SUPPLY_RETURNS_DURING_SHUTDOWN).shutDone
      { s with boot := { s.boot with phase := 1, cause := 0x12 } }
    else s)

/-- HOLDUP_LOW (R476 step 6): VHOLD below VHOLD_MIN_MV with VAON absent, in mV: recorded, then the module is OFF. -/
def execHoldupLow (mv : Nat) (s : State) : Out :=
  .next (
    if s.pwr.vaon = false ∧ mv < s.rd F.PWR_HOLDUP_CFG_VHOLD_MIN_MV then
      (((s.wr F.PWR_HOLDUP_VHOLD_MV mv).wr F.MODULE_STATE_LAST_CAUSE 0x13).event 0xE000 0x8004 mv []).allOff
    else s)

/-- HOLDUP_DISAGREE (R479): the charge counter in mC and VHOLD in mV disagree; none of it without counter checks or without a
bank (R492). -/
def execHoldupDisagree (mv : Nat) (left : Int) (s : State) : Out :=
  .next (
    let full := s.rd F.PWR_HOLDUP_CFG_CHARGE_FULL_MC
    let min_ := s.rd F.PWR_HOLDUP_CFG_VHOLD_MIN_MV
    if s.boot.holdup = false ∨ full = 0 then s
    else
      let s := (s.wr F.PWR_HOLDUP_VHOLD_MV mv).wr F.PWR_HOLDUP_CHARGE_LEFT_MC (satI 24 left)
      if (left ≤ 0 ∧ min_ + 500 ≤ mv) ∨ (mv < min_ ∧ (full : Int) < 4 * left) then
        ((s.wr F.PWR_HOLDUP_DISAGREE 1).bump F.PWR_HOLDUP_DISAGREEMENTS).event 0xE000 0x8003 mv [unsgn 64 left]
      else s)

/-- HOLDUP_FULL (R479): VHOLD reaches VHOLD_FULL_MV; the counter is zeroed and DISAGREE cleared. -/
def execHoldupFull (mv : Nat) (s : State) : Out :=
  .next (
    if s.boot.holdup ∧ s.rd F.PWR_HOLDUP_CFG_VHOLD_FULL_MV ≤ mv then
      let s := (s.wr F.PWR_HOLDUP_VHOLD_MV mv).wr F.PWR_HOLDUP_CHARGE_LEFT_MC (s.rd F.PWR_HOLDUP_CFG_CHARGE_FULL_MC)
      (s.wr F.PWR_HOLDUP_FULL 1).wr F.PWR_HOLDUP_DISAGREE 0
    else s)

/-- RAIL_FAULT (R480): 0 VDD_TENSOR, 1 VDD_CPU, 2 another tensor-die rail, 3 another frame-die rail: the safe-state decision;
4 the castle's rail: a castle fault under R381. -/
def execRailFault (rail : Fin 5) (s : State) : Out :=
  .next (if rail.val = 4 then s.castleFault 4 else (s.event 0xE000 0x8008 rail.val []).safeDecide 11 0x17)

/-- RETENTION_LOSS (R461): a supply fault of the retention rail in PARK. -/
def execRetentionLoss (s : State) : Out :=
  .next (if s.modState = stPark then { s with pwr := { s.pwr with lost := true } } else s)

/-- VAON_LOSS (R476): the always-on domain falls back to VHOLD. -/
def execVaonLoss (s : State) : Out :=
  .next (({ s with pwr := { s.pwr with vaon := false } } : State).wr F.PWR_HOLDUP_ON_HOLDUP 1)

/-- VAON_RETURN (R476): back to VAON. -/
def execVaonReturn (s : State) : Out :=
  .next (({ s with pwr := { s.pwr with vaon := true } } : State).wr F.PWR_HOLDUP_ON_HOLDUP 0)

end Sys2Proof.Machine
end

