-- ==== Sys2Proof/Machine/Registers.lean ====
section
/-!
DEFINITION. The commands of the register region as a whole: writes and reads of any register, LOCK, held epochs, the mailbox
registers, and the PCIe host's accesses through its BARs (R4, R10, R19, R346, R350, R433, R497).
-/

namespace Sys2Proof.Machine

/-- REGISTER_WRITE (R10): a requester writes the register at an address, whole or one half. -/
def execRegisterWrite (r : Req) (addr : Nat) (d : WData) (s : State) : Out := .next (s.regStore r (addr / 8 * 8) d)

/-- REGISTER_READ_CLEAR (R10): a requester reads a register, whole or one half; RC fields clear, and a low half keeps the high one
for the requester's next load. -/
def execRegisterReadClear (r : Req) (addr : Nat) (h : Half) (s : State) : Out := .next (s.regLoad r (addr / 8 * 8) h)

/-- LOCK_SET (R497): a write that sets the LOCK bit of the block an address lies in; the rest of the write takes effect first. -/
def execLockSet (r : Req) (addr : Nat) (d : WData) (s : State) : Out :=
  .next (match lockReg addr with
    | some reg => s.regStore r reg (d.withBit 0)
    | none => s)

/-- EPOCH_HOLD_RELEASE (R19): 2 µs have passed since the unit's last epoch increment. -/
def execEpochHoldRelease (u : Fin 65536) (s : State) : Out := .next (s.epochRelease u.val)

/-- DOORBELL (R346). -/
def execDoorbell (r : Req) (m : Fin 16) (d : WData) (s : State) : Out := .next (s.regStore r (R.MB_DOORBELL m.val) d)

/-- RESP_HEAD_WRITE (R348). -/
def execRespHeadWrite (r : Req) (m : Fin 16) (d : WData) (s : State) : Out := .next (s.regStore r (R.MB_RESP_HEAD m.val) d)

/-- SEQ_RESET (R350): a write of MB_m_CTRL with SEQ_RESET set. -/
def execSeqReset (r : Req) (m : Fin 16) (d : WData) (s : State) : Out := .next (s.regStore r (R.MB_CTRL m.val) (d.withBit 1))

/-- RING_RESET ("MBX registers"): a write of MB_m_CTRL with RING_RESET set. -/
def execRingReset (r : Req) (m : Fin 16) (d : WData) (s : State) : Out := .next (s.regStore r (R.MB_CTRL m.val) (d.withBit 2))

/-! ### Accesses through a BAR (R433) -/

/-- The pieces of a register access: each register's address and which half. -/
def regPieces : Nat → Nat → Nat → List (Nat × Half)
  | 0, _, _ => []
  | fuel + 1, a, n =>
    if n = 0 then []
    else if a % 8 = 0 ∧ 8 ≤ n then (a, .both) :: regPieces fuel (a + 8) (n - 8)
    else (a / 8 * 8, if a % 8 = 0 then .low else .high) :: regPieces fuel (a + 4) (n - 4)

def halfBytes : Half → Nat
  | .both => 8
  | _ => 4

/-- A host read of registers, in units of 4 bytes. -/
def State.barRegRead (s : State) (a n : Nat) : List Byte × State :=
  (regPieces (n / 4) a n).foldl (fun (x : List Byte × State) p =>
    let s := x.2.regLoad .host p.1 p.2
    (x.1 ++ toBytes (halfBytes p.2) s.rdata.toNat, s)) ([], s)

/-- A host write of registers, in units of 4 bytes. -/
def State.barRegWrite (s : State) (a : Nat) (data : List Byte) : State :=
  ((regPieces (data.length / 4) a data.length).foldl (fun (x : List Byte × State) p =>
    let n := halfBytes p.2
    let v := ofBytes (x.1.take n)
    (x.1.drop n, x.2.regStore .host p.1 ⟨p.2, BitVec.ofNat 64 (if p.2 = .high then v * 2 ^ 32 else v)⟩)) (data, s)).2

/-- A host access of memory at an address of the module. -/
def State.barMem (s : State) (a : Nat) (op : BarOp) : State :=
  let m := s.unitMaster 0xC200
  match op with
  | .read n =>
    let (st, d, bad, s) := s.busGet m a n
    s.withAcc 0xC200 st d bad
  | .write d =>
    let (st, s) := s.busPut m a d false
    s.withAcc 0xC200 st [] false

/-- A host access of the register region: units of 4 bytes; one of another alignment is an Unsupported Request (log entry 44). -/
def State.barReg (s : State) (a : Nat) (op : BarOp) : State :=
  let n := match op with | .read n => n | .write d => d.length
  if a % 4 ≠ 0 ∨ n % 4 ≠ 0 then { s with acc := ⟨St.ok, [], false, false, true, 0⟩ }
  else match op with
    | .read n =>
      let (d, s) := s.barRegRead a n
      s.withAcc 0xC200 St.ok d false
    | .write d => (s.barRegWrite a d).withAcc 0xC200 St.ok [] false

/-- PCIE_INBOUND_ACCESS (R433): a host access at an offset of BAR0 (registers), BAR2 (mailbox windows) or BAR4 (apertures). With
the link down or in root-port mode none arises (R432, R436). -/
def execPcieInboundAccess (bar : Bar) (off : Nat) (op : BarOp) (s : State) : Out :=
  .next (
    if s.on F.PCIE_STATUS_ROOT_PORT || !s.on F.PCIE_STATUS_LINK_UP || decide (s.boot.phase ≠ 3) then s
    else match bar with
      | .bar0 => s.barReg (csrBase + off % 0x800000) op
      | .bar2 => s.barMem (mbxWin 0 + off % 0x20000) op
      | .bar4 =>
        let k := off / 2 ^ 30 % 16
        if s.on (F.PCIE_IB_ENABLE k) then
          let a := s.rd (F.PCIE_IB_TARGET k) * 2 ^ 30 + off % 2 ^ 30
          if csrBase ≤ a ∧ a < csrBase + 0x800000 then s.barReg a op else s.barMem a op
        else match op with
          | .read n => s.withAcc 0xC200 St.ok (List.replicate n 0xFF) false
          | .write _ => s.withAcc 0xC200 St.ok [] false)

end Sys2Proof.Machine
end

