-- ==== Sys2Proof/Machine/Rotation.lean ====
section
/-!
DEFINITION. The self-test rotation (R396 to R399, 14_safety.md).
-/

namespace Sys2Proof.Machine

/-- Units whose test is a rest. -/
def restTested (u : Nat) : Bool :=
  (decide (0x1000 ≤ u) && decide (u < 0x1040)) || (decide (0x2000 ≤ u) && decide (u < 0x2020)) || (decide (0x3000 ≤ u) && decide (u < 0x3008))

/-- The units a rotation entry can name. -/
def rotationUnit (u : Nat) : Bool := restTested u || decide (u = 0x7000) || decide (u = 0xA001) || decide (u = 0xA002)

def State.setRot (s : State) (r : RotSt) : State := { s with castle := { s.castle with rot := r } }

/-- The entry in progress ends. -/
def State.rotEnd (s : State) : State := s.setRot { s.castle.rot with unit := none, forced := false }

/-- A failure (R398): quarantine and the castle interrupt, or the safe-state decision; always the decision for the arbiter and the
supervisors. -/
def State.rotFail (s : State) (u : Nat) : State :=
  let s := ((s.bump F.ROT_FAILS_FAILS).wr F.ROT_FAILS_LAST_FAIL_UNIT u).event 0xA000 0x7006 u [2]
  if u = 0xA001 then s.safeDecide 6 1
  else if u = 0xA002 ∨ s.on F.ROT_CFG_FAIL_ACTION then s.safeDecide 7 u
  else ((s.quarantine u).bump F.ROT_FAILS_QUARANTINES).raiseCastle

/-- A time-out of a unit (R396): the third in a row is a failure. -/
def State.rotTimeout (s : State) (u : Nat) : State :=
  let s := ((s.bump F.ROT_STATUS_TIMEOUTS).event 0xA000 0x7006 u [1]).rotEnd
  let n := mget 0 s.castle.rot.timeouts u + 1
  let s := s.setRot { s.castle.rot with timeouts := mset 0 s.castle.rot.timeouts u (n % 3) }
  if n < 3 then s else s.rotFail u

/-- The end of a rotation: counted; one longer than 120 ms writes an event record (R397). -/
def State.rotWrap (s : State) : State :=
  let us := (s.now - s.castle.rot.rotAt) / 1000
  let s := s.bumpW F.ROT_STATUS_ROTATIONS
  let s := if 120000 < us then s.event 0xA000 0x7007 us [] else s
  s.setRot { s.castle.rot with next := 0, rotAt := s.now }

/-- An entry starts (R396): the castle writes REQUEST to a square, plane or engine; the other tests run by themselves. -/
def State.rotEntry (s : State) : State :=
  let n := clampN 1 128 (s.rd F.ROT_CFG_ENTRIES)
  let s := if n ≤ s.castle.rot.next then s.rotWrap else s
  let i := s.castle.rot.next
  let u := s.rd (F.ROT_ENTRY_UNIT i)
  let s := (s.wr F.ROT_STATUS_ENTRY i).setRot { s.castle.rot with next := i + 1, entryAt := s.now }
  if s.on (F.ROT_ENTRY_ENABLE i) = false ∨ rotationUnit u = false ∨ (u < 0xA000 ∧ s.present u = false) then s.bump F.ROT_STATUS_SKIPPED
  else if restTested u then
    if s.restEnabled u = false then s.rotTimeout u
    else
      let (r, f) := s.restCounts u
      let s := s.setRot { s.castle.rot with unit := some u, forced := false, rests := r, fails := f }
      s.restWrite .castle (restUnit u) 1
  else
    let s := s.setRot { s.castle.rot with unit := some u, forced := false }
    if u = 0xA001 then s.bumpW F.ARB_STATUS_SELF_TESTS else s

/-- The resting unit under test that has neither entered RESTING nor ended a rest since its entry began. -/
def State.rotWaits (s : State) : Option Nat :=
  match s.castle.rot.unit with
  | some u =>
    if restTested u ∧ s.ustate u ≠ US.resting ∧ s.restCounts u = (s.castle.rot.rests, s.castle.rot.fails) then some u else none
  | none => none

/-- ROTATION_ENTRY_START (R396, R397): the next entry, once the previous one has ended. In PARK and DEEP the rotation pauses
(R383). -/
def execRotationEntryStart (s : State) : Out :=
  .next (
    if s.on F.ROT_CFG_ENABLE ∧ s.castle.rot.unit.isNone = true ∧ (s.modState = stRun ∨ s.modState = stSafe) then s.rotEntry else s)

/-- REST_GRACE_EXPIRE (R396): REST_GRACE_US without RESTING; the castle writes FORCE. -/
def execRestGraceExpire (s : State) : Out :=
  .next (match s.rotWaits with
    | some u =>
      if s.castle.rot.forced then s
      else (s.setRot { s.castle.rot with forced := true }).restWrite .castle (restUnit u) 2
    | none => s)

/-- FORCE_GRACE_EXPIRE (R396): FORCE_GRACE_US more without RESTING; the castle writes WITHDRAW, and a time-out counts. -/
def execForceGraceExpire (s : State) : Out :=
  .next (match s.rotWaits with
    | some u => if s.castle.rot.forced then (s.restWrite .castle (restUnit u) 0x100).rotTimeout u else s
    | none => s)

/-- SELF_TEST_DONE (R398): the test of the entry in progress ends; a rest by what the unit counted, the others with a fault found or
not. The voxel engine's test waits for a build in progress. -/
def execSelfTestDone (fault : Bool) (s : State) : Out :=
  .next (match s.castle.rot.unit with
    | none => s
    | some u =>
      if restTested u then
        let (r, f) := s.restCounts u
        let clear := (s.setRot { s.castle.rot with timeouts := mset 0 s.castle.rot.timeouts u 0 }).rotEnd
        if f ≠ s.castle.rot.fails then clear.rotFail u
        else if r ≠ s.castle.rot.rests then clear else s
      else if u = 0x7000 ∧ s.vox.build.isSome then s
      else
        let s := if u = 0xA001 then s.wr F.ARB_STATUS_TEST_FAIL fault.toNat else s
        if fault then s.rotEnd.rotFail u else s.rotEnd)

end Sys2Proof.Machine
end

