-- ==== Sys2Proof/Machine/Sequencer.lean ====
section
/-!
DEFINITION. The commands of a square's sequencer: an RV32IMC instruction, and the tensor instructions (06_grid.md).
-/

namespace Sys2Proof.Machine

/-- RV_INSTRUCTION (R139): the instruction at the pc of square n, with its exceptions. TX.VEC and TX.MOVE, which have no row
of their own, enter the tensor queue here (log entry 23). -/
def execRvInstruction (n : Fin 64) (s : State) : Out := .next (s.rvStep n.val)

/-- TX_SEND (R142). -/
def execTxSend (n : Fin 64) (s : State) : Out :=
  .next (s.txIssue n.val (fun t => t = .send) (fun s _ w => s.txSend n.val w))

/-- TX_RECV (R157). -/
def execTxRecv (n : Fin 64) (s : State) : Out :=
  .next (s.txIssue n.val (fun t => match t with | .recv _ => true | _ => false) (fun s t w =>
    s.txRecv n.val w (match t with | .recv b => b | _ => false)))

/-- TX_WAIT (R144). -/
def execTxWait (n : Fin 64) (s : State) : Out :=
  .next (s.txIssue n.val (fun t => t = .wait) (fun s _ w => s.txWait n.val w))

/-- TX_POLL (R144). -/
def execTxPoll (n : Fin 64) (s : State) : Out :=
  .next (s.txIssue n.val (fun t => t = .poll) (fun s _ w =>
    s.txDone n.val w ((s.sqr n.val).rx (bits w 15 5) &&& (s.sqr n.val).doneMask)))

/-- TX_FENCE (R143). -/
def execTxFence (n : Fin 64) (s : State) : Out :=
  .next (s.txIssue n.val (fun t => t = .fence) (fun s _ w =>
    (s.setSq n.val { s.sqr n.val with fence := true }).txDone n.val w 0))

/-- TX_REST (R161). -/
def execTxRest (n : Fin 64) (s : State) : Out :=
  .next (s.txIssue n.val (fun t => t = .rest) (fun s _ w => s.txRest n.val w))

/-- TX_HALT (R145): issue stops after this instruction. -/
def execTxHalt (n : Fin 64) (s : State) : Out :=
  .next (s.txIssue n.val (fun t => t = .halt) (fun s _ w => (s.txDone n.val w 0).sqStopIssue n.val))

/-- TX_MM (R143, R173): the product enters the queue of the array. -/
def execTxMm (n : Fin 64) (s : State) : Out :=
  .next (s.txIssue n.val (fun t => t = .mm) (fun s _ w => s.txEnqueue n.val w 0 0 false))

/-- TX_WLOAD (R143, R172): the tile load enters the queue of the weight loader. -/
def execTxWload (n : Fin 64) (s : State) : Out :=
  .next (s.txIssue n.val (fun t => t = .wload) (fun s _ w => s.txEnqueue n.val w 1 0 false))

/-- TX_QUANT (R143, R184): the conversion enters the queue of the vector unit. -/
def execTxQuant (n : Fin 64) (s : State) : Out :=
  .next (s.txIssue n.val (fun t => t = .quant) (fun s _ w => s.txEnqueue n.val w 2 0 true))

/-- TX_DMA (R143, R205): the transfer enters the queue of the DMA port. -/
def execTxDma (n : Fin 64) (s : State) : Out :=
  .next (s.txIssue n.val (fun t => t = .dma) (fun s _ w => s.txEnqueue n.val w 4 0 false))

end Sys2Proof.Machine
end

