-- ==== Sys2Proof/Machine/Tensor.lean ====
section
/-!
DEFINITION. The commands of a square's tensor queue and DMA port (R143, R144, R206, R207).
-/

namespace Sys2Proof.Machine

/-- TENSOR_OP_START (R143, R172, R205): the next operation of a unit: 0 array, 1 weight loader, 2 vector unit, 3 move unit, 4 DMA
port. -/
def execTensorOpStart (n : Fin 64) (l : Fin 5) (s : State) : Out := .next (s.txStartLane n.val l.val)

/-- TENSOR_OP_COMPLETE (R144, R180): the operation with a tag. -/
def execTensorOpComplete (n : Fin 64) (t : Fin 32) (s : State) : Out := .next (s.txComplete n.val t.val)

/-- DMA_BURST_ISSUE (R206). -/
def execDmaBurstIssue (n : Fin 64) (s : State) : Out := .next (s.dmaIssue n.val)

/-- DMA_BURST_ANSWER (R207 to R211): burst k in flight of the transfer with a tag; the other end's answer where the burst leaves
the module. -/
def execDmaBurstAnswer (n : Fin 64) (t k : Fin 32) (st : Fin 13) (data : List Byte) (poison : Bool) (s : State) : Out :=
  .next (s.dmaAnswer n.val t.val k.val ⟨st.val, data, poison⟩)

end Sys2Proof.Machine
end

