-- ==== Sys2Proof/Machine/Dispatch.lean ====
section
/-!
DEFINITION. exec: one arm per command, each one direct call of its meaning.
-/

namespace Sys2Proof.Machine

def exec (i : Instr) (s : State) : Host.Outcome State Fault Refusal :=
  match i with
  | .registerWrite r addr d => Sys2Proof.Machine.execRegisterWrite r addr d s
  | .registerReadClear r addr h => Sys2Proof.Machine.execRegisterReadClear r addr h s
  | .lockSet r addr d => Sys2Proof.Machine.execLockSet r addr d s
  | .d2dModuleFail k => Sys2Proof.Machine.execD2dModuleFail k s
  | .epochHoldRelease u => Sys2Proof.Machine.execEpochHoldRelease u s
  | .egressDrop ix => Sys2Proof.Machine.execEgressDrop ix s
  | .tbRateWrite r n d => Sys2Proof.Machine.execTbRateWrite r n d s
  | .tbAdjWrite r n d => Sys2Proof.Machine.execTbAdjWrite r n d s
  | .tbSetLowWrite r n d => Sys2Proof.Machine.execTbSetLowWrite r n d s
  | .tbNowRead r reg => Sys2Proof.Machine.execTbNowRead r reg s
  | .syncReceive mac d master ratio => Sys2Proof.Machine.execSyncReceive mac d master ratio s
  | .announceReceive mac d a => Sys2Proof.Machine.execAnnounceReceive mac d a s
  | .pdelayExchange mac t1 t2 t3 t4 => Sys2Proof.Machine.execPdelayExchange mac t1 t2 t3 t4 s
  | .ppsEdge m rising held frac => Sys2Proof.Machine.execPpsEdge m rising held frac s
  | .sourceLoss c => Sys2Proof.Machine.execSourceLoss c s
  | .holdoverExpire n => Sys2Proof.Machine.execHoldoverExpire n s
  | .phaseObservation k => Sys2Proof.Machine.execPhaseObservation k s
  | .phSwObsWrite r k d => Sys2Proof.Machine.execPhSwObsWrite r k d s
  | .phEnable r k d => Sys2Proof.Machine.execPhEnable r k d s
  | .phaseSourceTimeout k => Sys2Proof.Machine.execPhaseSourceTimeout k s
  | .phaseLost k => Sys2Proof.Machine.execPhaseLost k s
  | .lostSecondTimeout k => Sys2Proof.Machine.execLostSecondTimeout k s
  | .peMatch j ssi ssiOk => Sys2Proof.Machine.execPeMatch j ssi ssiOk s
  | .peCtrlWrite r j d => Sys2Proof.Machine.execPeCtrlWrite r j d s
  | .peRetargetWrite r j d => Sys2Proof.Machine.execPeRetargetWrite r j d s
  | .pulseEnd n => Sys2Proof.Machine.execPulseEnd n s
  | .captureEdge m rising held frac => Sys2Proof.Machine.execCaptureEdge m rising held frac s
  | .capSecRead r m => Sys2Proof.Machine.execCapSecRead r m s
  | .evtSecRead r => Sys2Proof.Machine.execEvtSecRead r s
  | .csiFrameStart c vc frame => Sys2Proof.Machine.execCsiFrameStart c vc frame s
  | .csiLine c vc dt ls data crcErr eccErr => Sys2Proof.Machine.execCsiLine c vc dt ls data crcErr eccErr s
  | .csiFrameEnd c vc => Sys2Proof.Machine.execCsiFrameEnd c vc s
  | .csiFrameTimeout ix => Sys2Proof.Machine.execCsiFrameTimeout ix s
  | .ethFrameReceive p frame fcsOk ago => Sys2Proof.Machine.execEthFrameReceive p frame fcsOk ago s
  | .canFrameValid b f ago => Sys2Proof.Machine.execCanFrameValid b f ago s
  | .spiPeriodExpire m => Sys2Proof.Machine.execSpiPeriodExpire m s
  | .spiDrdyEdge m rising held frac => Sys2Proof.Machine.execSpiDrdyEdge m rising held frac s
  | .spiTransferEnd m data => Sys2Proof.Machine.execSpiTransferEnd m data s
  | .encPeriodExpire e ssi ssiOk => Sys2Proof.Machine.execEncPeriodExpire e ssi ssiOk s
  | .gpioInputEdge levels => Sys2Proof.Machine.execGpioInputEdge levels s
  | .itemVisible ix => Sys2Proof.Machine.execItemVisible ix s
  | .pauseRefresh p => Sys2Proof.Machine.execPauseRefresh p s
  | .expectWindowExpire ix => Sys2Proof.Machine.execExpectWindowExpire ix s
  | .iqHeadRead r ix => Sys2Proof.Machine.execIqHeadRead r ix s
  | .iqAnyHeadRead r => Sys2Proof.Machine.execIqAnyHeadRead r s
  | .iqMark r ix d => Sys2Proof.Machine.execIqMark r ix d s
  | .iqRewind r ix d => Sys2Proof.Machine.execIqRewind r ix d s
  | .iqReleaseWrite r ix d => Sys2Proof.Machine.execIqReleaseWrite r ix d s
  | .streamEnable r g d => Sys2Proof.Machine.execStreamEnable r g d s
  | .streamDisable r reg d => Sys2Proof.Machine.execStreamDisable r reg d s
  | .bundleBuildStart => Sys2Proof.Machine.execBundleBuildStart s
  | .bundleWaitExpire => Sys2Proof.Machine.execBundleWaitExpire s
  | .bundleEmit => Sys2Proof.Machine.execBundleEmit s
  | .registrationDone => Sys2Proof.Machine.execRegistrationDone s
  | .alnReleaseWrite r d => Sys2Proof.Machine.execAlnReleaseWrite r d s
  | .alnResetDone => Sys2Proof.Machine.execAlnResetDone s
  | .voxTrigger => Sys2Proof.Machine.execVoxTrigger s
  | .voxBuildStart => Sys2Proof.Machine.execVoxBuildStart s
  | .voxWaitExpire => Sys2Proof.Machine.execVoxWaitExpire s
  | .voxFrameEmit => Sys2Proof.Machine.execVoxFrameEmit s
  | .voxReleaseWrite r d => Sys2Proof.Machine.execVoxReleaseWrite r d s
  | .voxResetDone => Sys2Proof.Machine.execVoxResetDone s
  | .rvInstruction n => Sys2Proof.Machine.execRvInstruction n s
  | .txSend n => Sys2Proof.Machine.execTxSend n s
  | .txRecv n => Sys2Proof.Machine.execTxRecv n s
  | .txWait n => Sys2Proof.Machine.execTxWait n s
  | .txPoll n => Sys2Proof.Machine.execTxPoll n s
  | .txFence n => Sys2Proof.Machine.execTxFence n s
  | .txRest n => Sys2Proof.Machine.execTxRest n s
  | .txHalt n => Sys2Proof.Machine.execTxHalt n s
  | .txMm n => Sys2Proof.Machine.execTxMm n s
  | .txWload n => Sys2Proof.Machine.execTxWload n s
  | .txQuant n => Sys2Proof.Machine.execTxQuant n s
  | .txDma n => Sys2Proof.Machine.execTxDma n s
  | .vConvert n => Sys2Proof.Machine.execVConvert n s
  | .vAdd n => Sys2Proof.Machine.execVAdd n s
  | .vSub n => Sys2Proof.Machine.execVSub n s
  | .vMul n => Sys2Proof.Machine.execVMul n s
  | .vFma n => Sys2Proof.Machine.execVFma n s
  | .vMax n => Sys2Proof.Machine.execVMax n s
  | .vMin n => Sys2Proof.Machine.execVMin n s
  | .vAbs n => Sys2Proof.Machine.execVAbs n s
  | .vRelu n => Sys2Proof.Machine.execVRelu n s
  | .vLeakyRelu n => Sys2Proof.Machine.execVLeakyRelu n s
  | .vGeluTanh n => Sys2Proof.Machine.execVGeluTanh n s
  | .vGeluErf n => Sys2Proof.Machine.execVGeluErf n s
  | .vSilu n => Sys2Proof.Machine.execVSilu n s
  | .vSigmoid n => Sys2Proof.Machine.execVSigmoid n s
  | .vTanh n => Sys2Proof.Machine.execVTanh n s
  | .vExp n => Sys2Proof.Machine.execVExp n s
  | .vExp2 n => Sys2Proof.Machine.execVExp2 n s
  | .vLog n => Sys2Proof.Machine.execVLog n s
  | .vRecip n => Sys2Proof.Machine.execVRecip n s
  | .vSqrt n => Sys2Proof.Machine.execVSqrt n s
  | .vRsqrt n => Sys2Proof.Machine.execVRsqrt n s
  | .vDiv n => Sys2Proof.Machine.execVDiv n s
  | .vRsum n => Sys2Proof.Machine.execVRsum n s
  | .vRmax n => Sys2Proof.Machine.execVRmax n s
  | .vRargmax n => Sys2Proof.Machine.execVRargmax n s
  | .vSoftmax n => Sys2Proof.Machine.execVSoftmax n s
  | .vRmsnorm n => Sys2Proof.Machine.execVRmsnorm n s
  | .vLayernorm n => Sys2Proof.Machine.execVLayernorm n s
  | .mvCopy n => Sys2Proof.Machine.execMvCopy n s
  | .mvTranspose n => Sys2Proof.Machine.execMvTranspose n s
  | .mvGather n => Sys2Proof.Machine.execMvGather n s
  | .mvScatter n => Sys2Proof.Machine.execMvScatter n s
  | .mvScatterAdd n => Sys2Proof.Machine.execMvScatterAdd n s
  | .mvFill n => Sys2Proof.Machine.execMvFill n s
  | .tensorOpStart n l => Sys2Proof.Machine.execTensorOpStart n l s
  | .tensorOpComplete n t => Sys2Proof.Machine.execTensorOpComplete n t s
  | .dmaBurstIssue n => Sys2Proof.Machine.execDmaBurstIssue n s
  | .dmaBurstAnswer n t k st data poison => Sys2Proof.Machine.execDmaBurstAnswer n t k st data poison s
  | .sqStart r n d => Sys2Proof.Machine.execSqStart r n d s
  | .sqHalt r n d => Sys2Proof.Machine.execSqHalt r n d s
  | .sqCtrlLoad r n d => Sys2Proof.Machine.execSqCtrlLoad r n d s
  | .sqLoadComplete n => Sys2Proof.Machine.execSqLoadComplete n s
  | .sqReset r n d => Sys2Proof.Machine.execSqReset r n d s
  | .sqResetComplete n => Sys2Proof.Machine.execSqResetComplete n s
  | .sqEventWrite r n d => Sys2Proof.Machine.execSqEventWrite r n d s
  | .meshRequestArrive m => Sys2Proof.Machine.execMeshRequestArrive m s
  | .meshReplyArrive m => Sys2Proof.Machine.execMeshReplyArrive m s
  | .postedAnswerArrive m => Sys2Proof.Machine.execPostedAnswerArrive m s
  | .restReqWrite r u => Sys2Proof.Machine.execRestReqWrite r u s
  | .restForceWrite r u => Sys2Proof.Machine.execRestForceWrite r u s
  | .restWithdrawWrite r u => Sys2Proof.Machine.execRestWithdrawWrite r u s
  | .restEnter u => Sys2Proof.Machine.execRestEnter u s
  | .restComplete u fault part => Sys2Proof.Machine.execRestComplete u fault part s
  | .planeJobArrive m => Sys2Proof.Machine.execPlaneJobArrive m s
  | .planeJobStart p => Sys2Proof.Machine.execPlaneJobStart p s
  | .planeProductEnd p => Sys2Proof.Machine.execPlaneProductEnd p s
  | .planeJobDone p => Sys2Proof.Machine.execPlaneJobDone p s
  | .plLoadOpen r p d => Sys2Proof.Machine.execPlLoadOpen r p d s
  | .plLoadClose r p d => Sys2Proof.Machine.execPlLoadClose r p d s
  | .planeLoadCheckDone p => Sys2Proof.Machine.execPlaneLoadCheckDone p s
  | .calFull r p d => Sys2Proof.Machine.execCalFull r p d s
  | .calOffset r p d => Sys2Proof.Machine.execCalOffset r p d s
  | .calibrationStart p => Sys2Proof.Machine.execCalibrationStart p s
  | .calibrationDone p => Sys2Proof.Machine.execCalibrationDone p s
  | .planeTempSample p t => Sys2Proof.Machine.execPlaneTempSample p t s
  | .recalMsExpire p => Sys2Proof.Machine.execRecalMsExpire p s
  | .weightCheck p flip => Sys2Proof.Machine.execWeightCheck p flip s
  | .probeProduct p => Sys2Proof.Machine.execProbeProduct p s
  | .contractAgeOut p => Sys2Proof.Machine.execContractAgeOut p s
  | .plCalCtrlWrite r p d => Sys2Proof.Machine.execPlCalCtrlWrite r p d s
  | .plForceWrite r p j d => Sys2Proof.Machine.execPlForceWrite r p j d s
  | .overrideRelease p => Sys2Proof.Machine.execOverrideRelease p s
  | .plReset r p d => Sys2Proof.Machine.execPlReset r p d s
  | .plResetComplete p => Sys2Proof.Machine.execPlResetComplete p s
  | .aeJobArrive m => Sys2Proof.Machine.execAeJobArrive m s
  | .attend e => Sys2Proof.Machine.execAttend e s
  | .select e => Sys2Proof.Machine.execSelect e s
  | .append e => Sys2Proof.Machine.execAppend e s
  | .commit e => Sys2Proof.Machine.execCommit e s
  | .rollback e => Sys2Proof.Machine.execRollback e s
  | .publish e => Sys2Proof.Machine.execPublish e s
  | .seqOpen e => Sys2Proof.Machine.execSeqOpen e s
  | .seqClose e => Sys2Proof.Machine.execSeqClose e s
  | .limboRelease => Sys2Proof.Machine.execLimboRelease s
  | .helperSlice e => Sys2Proof.Machine.execHelperSlice e s
  | .aeJobComplete e => Sys2Proof.Machine.execAeJobComplete e s
  | .aeReset r e d => Sys2Proof.Machine.execAeReset r e d s
  | .aeResetComplete e => Sys2Proof.Machine.execAeResetComplete e s
  | .kvEnable r e d => Sys2Proof.Machine.execKvEnable r e d s
  | .ccCheck n => Sys2Proof.Machine.execCcCheck n s
  | .checkResume => Sys2Proof.Machine.execCheckResume s
  | .checkDeadline => Sys2Proof.Machine.execCheckDeadline s
  | .ccLoadModel => Sys2Proof.Machine.execCcLoadModel s
  | .ccLoadSdf => Sys2Proof.Machine.execCcLoadSdf s
  | .ccLoadBev => Sys2Proof.Machine.execCcLoadBev s
  | .ccCommit => Sys2Proof.Machine.execCcCommit s
  | .ccCancel => Sys2Proof.Machine.execCcCancel s
  | .ccFallbackJob => Sys2Proof.Machine.execCcFallbackJob s
  | .ccFallbackBit r d => Sys2Proof.Machine.execCcFallbackBit r d s
  | .trajectorySwitch => Sys2Proof.Machine.execTrajectorySwitch s
  | .trajectoryExpiry => Sys2Proof.Machine.execTrajectoryExpiry s
  | .fallbackSwitch => Sys2Proof.Machine.execFallbackSwitch s
  | .ccReset r d => Sys2Proof.Machine.execCcReset r d s
  | .dynLoadModel paused => Sys2Proof.Machine.execDynLoadModel paused s
  | .loadTasks paused => Sys2Proof.Machine.execLoadTasks paused s
  | .compute paused => Sys2Proof.Machine.execCompute paused s
  | .dynRun r d => Sys2Proof.Machine.execDynRun r d s
  | .runOnce r d => Sys2Proof.Machine.execRunOnce r d s
  | .dynPeriodTrigger => Sys2Proof.Machine.execDynPeriodTrigger s
  | .dynNotifyTrigger m => Sys2Proof.Machine.execDynNotifyTrigger m s
  | .dynDeadline => Sys2Proof.Machine.execDynDeadline s
  | .dynSolveDone => Sys2Proof.Machine.execDynSolveDone s
  | .dynJobResume => Sys2Proof.Machine.execDynJobResume s
  | .dynReset r d => Sys2Proof.Machine.execDynReset r d s
  | .rulePulseEnd g => Sys2Proof.Machine.execRulePulseEnd g s
  | .rfxLatchedWrite r d => Sys2Proof.Machine.execRfxLatchedWrite r d s
  | .egSendWrite r ix d => Sys2Proof.Machine.execEgSendWrite r ix d s
  | .egressFrameStart p => Sys2Proof.Machine.execEgressFrameStart p s
  | .canTransmit b => Sys2Proof.Machine.execCanTransmit b s
  | .gclEntryAdvance p => Sys2Proof.Machine.execGclEntryAdvance p s
  | .doorbell r m d => Sys2Proof.Machine.execDoorbell r m d s
  | .respHeadWrite r m d => Sys2Proof.Machine.execRespHeadWrite r m d s
  | .seqReset r m d => Sys2Proof.Machine.execSeqReset r m d s
  | .ringReset r m d => Sys2Proof.Machine.execRingReset r m d s
  | .mbxCommandStart => Sys2Proof.Machine.execMbxCommandStart s
  | .mbxCommandComplete m => Sys2Proof.Machine.execMbxCommandComplete m s
  | .cmdTimeout m => Sys2Proof.Machine.execCmdTimeout m s
  | .unitStateReport u st epoch part => Sys2Proof.Machine.execUnitStateReport u st epoch part s
  | .nop m => Sys2Proof.Machine.execNop m s
  | .identify m => Sys2Proof.Machine.execIdentify m s
  | .unitQuery m => Sys2Proof.Machine.execUnitQuery m s
  | .unitReset m => Sys2Proof.Machine.execUnitReset m s
  | .unitQuarantine m => Sys2Proof.Machine.execUnitQuarantine m s
  | .unitRelease m => Sys2Proof.Machine.execUnitRelease m s
  | .eventRead m => Sys2Proof.Machine.execEventRead m s
  | .csrRead m => Sys2Proof.Machine.execCsrRead m s
  | .csrWrite m => Sys2Proof.Machine.execCsrWrite m s
  | .partCreate m => Sys2Proof.Machine.execPartCreate m s
  | .partAssign m => Sys2Proof.Machine.execPartAssign m s
  | .partWindows m => Sys2Proof.Machine.execPartWindows m s
  | .partShare m => Sys2Proof.Machine.execPartShare m s
  | .partPath m => Sys2Proof.Machine.execPartPath m s
  | .partSquareShare m => Sys2Proof.Machine.execPartSquareShare m s
  | .partStart m => Sys2Proof.Machine.execPartStart m s
  | .partReset m => Sys2Proof.Machine.execPartReset m s
  | .partResetDone p => Sys2Proof.Machine.execPartResetDone p s
  | .partQuery m => Sys2Proof.Machine.execPartQuery m s
  | .partWindowBoundary => Sys2Proof.Machine.execPartWindowBoundary s
  | .sqLoad m => Sys2Proof.Machine.execSqLoad m s
  | .sqRun m => Sys2Proof.Machine.execSqRun m s
  | .plLoad m => Sys2Proof.Machine.execPlLoad m s
  | .jobSend m => Sys2Proof.Machine.execJobSend m s
  | .memCopy m ext => Sys2Proof.Machine.execMemCopy m ext s
  | .memFill m ext => Sys2Proof.Machine.execMemFill m ext s
  | .kvOp m => Sys2Proof.Machine.execKvOp m s
  | .kvPoolQuery m => Sys2Proof.Machine.execKvPoolQuery m s
  | .timeRead m => Sys2Proof.Machine.execTimeRead m s
  | .timeStep m => Sys2Proof.Machine.execTimeStep m s
  | .timeAdjust m => Sys2Proof.Machine.execTimeAdjust m s
  | .peArm m => Sys2Proof.Machine.execPeArm m s
  | .peDisarm m => Sys2Proof.Machine.execPeDisarm m s
  | .phQuery m => Sys2Proof.Machine.execPhQuery m s
  | .streamSet m => Sys2Proof.Machine.execStreamSet m s
  | .iqQuery m => Sys2Proof.Machine.execIqQuery m s
  | .iqFlush m => Sys2Proof.Machine.execIqFlush m s
  | .powerState m => Sys2Proof.Machine.execPowerState m s
  | .powerCap m => Sys2Proof.Machine.execPowerCap m s
  | .unitPower m => Sys2Proof.Machine.execUnitPower m s
  | .powerQuery m => Sys2Proof.Machine.execPowerQuery m s
  | .imgReadKey m => Sys2Proof.Machine.execImgReadKey m s
  | .imgBegin m => Sys2Proof.Machine.execImgBegin m s
  | .imgWrite m => Sys2Proof.Machine.execImgWrite m s
  | .imgVerify m => Sys2Proof.Machine.execImgVerify m s
  | .imgActivate m => Sys2Proof.Machine.execImgActivate m s
  | .imgConfirm m => Sys2Proof.Machine.execImgConfirm m s
  | .imgAbort m => Sys2Proof.Machine.execImgAbort m s
  | .imgRevokeKey m => Sys2Proof.Machine.execImgRevokeKey m s
  | .safeRequest m => Sys2Proof.Machine.execSafeRequest m s
  | .safetyQuery m => Sys2Proof.Machine.execSafetyQuery m s
  | .restRequest m => Sys2Proof.Machine.execRestRequest m s
  | .restWithdraw m => Sys2Proof.Machine.execRestWithdraw m s
  | .linkQuery m => Sys2Proof.Machine.execLinkQuery m s
  | .linkRetrain m => Sys2Proof.Machine.execLinkRetrain m s
  | .linkEnable m => Sys2Proof.Machine.execLinkEnable m s
  | .castleInboxMessage m => Sys2Proof.Machine.execCastleInboxMessage m s
  | .cpSubmission m => Sys2Proof.Machine.execCpSubmission m s
  | .planeReportArrive m => Sys2Proof.Machine.execPlaneReportArrive m s
  | .cpVerdict c mismatch => Sys2Proof.Machine.execCpVerdict c mismatch s
  | .cpDeadline c => Sys2Proof.Machine.execCpDeadline c s
  | .scArm r n d => Sys2Proof.Machine.execScArm r n d s
  | .scKick m => Sys2Proof.Machine.execScKick m s
  | .scKickWrite r n d => Sys2Proof.Machine.execScKickWrite r n d s
  | .scLate n => Sys2Proof.Machine.execScLate n s
  | .tsArm r t d => Sys2Proof.Machine.execTsArm r t d s
  | .tsMark m => Sys2Proof.Machine.execTsMark m s
  | .tsMarkWrite r t d => Sys2Proof.Machine.execTsMarkWrite r t d s
  | .tsPeriodicAct t => Sys2Proof.Machine.execTsPeriodicAct t s
  | .tsLimitExpire t limit => Sys2Proof.Machine.execTsLimitExpire t limit s
  | .fzSample ix => Sys2Proof.Machine.execFzSample ix s
  | .rotationEntryStart => Sys2Proof.Machine.execRotationEntryStart s
  | .restGraceExpire => Sys2Proof.Machine.execRestGraceExpire s
  | .forceGraceExpire => Sys2Proof.Machine.execForceGraceExpire s
  | .selfTestDone fault => Sys2Proof.Machine.execSelfTestDone fault s
  | .castleFault kind => Sys2Proof.Machine.execCastleFault kind s
  | .castleRestartDone ok => Sys2Proof.Machine.execCastleRestartDone ok s
  | .safeReq r => Sys2Proof.Machine.execSafeReq r s
  | .holdGeneratorFill => Sys2Proof.Machine.execHoldGeneratorFill s
  | .safeRestartApply => Sys2Proof.Machine.execSafeRestartApply s
  | .safeRestartComplete => Sys2Proof.Machine.execSafeRestartComplete s
  | .safeLatch reason => Sys2Proof.Machine.execSafeLatch reason s
  | .safeExit r => Sys2Proof.Machine.execSafeExit r s
  | .dramRead u a found => Sys2Proof.Machine.execDramRead u a found s
  | .dramWrite u a data poison => Sys2Proof.Machine.execDramWrite u a data poison s
  | .scrubRead c found => Sys2Proof.Machine.execScrubRead c found s
  | .shareWindow waiting => Sys2Proof.Machine.execShareWindow waiting s
  | .irqRouteWrite r ix d => Sys2Proof.Machine.execIrqRouteWrite r ix d s
  | .pcieInboundAccess bar off op => Sys2Proof.Machine.execPcieInboundAccess bar off op s
  | .pcieOutboundAccess u a op data answered ctx => Sys2Proof.Machine.execPcieOutboundAccess u a op data answered ctx s
  | .pcieDeviceRequest hits op => Sys2Proof.Machine.execPcieDeviceRequest hits op s
  | .pcieLinkDown => Sys2Proof.Machine.execPcieLinkDown s
  | .perstRelease => Sys2Proof.Machine.execPerstRelease s
  | .zorraLinkTrained l p => Sys2Proof.Machine.execZorraLinkTrained l p s
  | .formWindowExpire => Sys2Proof.Machine.execFormWindowExpire s
  | .declarationReceive k members edges => Sys2Proof.Machine.execDeclarationReceive k members edges s
  | .declarationTimeout => Sys2Proof.Machine.execDeclarationTimeout s
  | .linkFrameReceive k seq crcOk nack fec c => Sys2Proof.Machine.execLinkFrameReceive k seq crcOk nack fec c s
  | .linkTimeout l => Sys2Proof.Machine.execLinkTimeout l s
  | .netReform r d => Sys2Proof.Machine.execNetReform r d s
  | .relayItem n item => Sys2Proof.Machine.execRelayItem n item s
  | .pwrVoteWrite r d => Sys2Proof.Machine.execPwrVoteWrite r d s
  | .entryDelayTimeout => Sys2Proof.Machine.execEntryDelayTimeout s
  | .entryCommit => Sys2Proof.Machine.execEntryCommit s
  | .entryComplete => Sys2Proof.Machine.execEntryComplete s
  | .wakePin => Sys2Proof.Machine.execWakePin s
  | .wakeTimer => Sys2Proof.Machine.execWakeTimer s
  | .pwrWakeWrite r => Sys2Proof.Machine.execPwrWakeWrite r s
  | .wakeComplete crcFail => Sys2Proof.Machine.execWakeComplete crcFail s
  | .vfStepDone => Sys2Proof.Machine.execVfStepDone s
  | .oppReqWrite r d => Sys2Proof.Machine.execOppReqWrite r d s
  | .capWindow mw => Sys2Proof.Machine.execCapWindow mw s
  | .peakOvercurrent => Sys2Proof.Machine.execPeakOvercurrent s
  | .peakRelease => Sys2Proof.Machine.execPeakRelease s
  | .thermalTick t => Sys2Proof.Machine.execThermalTick t s
  | .clockGate d gated => Sys2Proof.Machine.execClockGate d gated s
  | .refclkLoss ref => Sys2Proof.Machine.execRefclkLoss ref s
  | .refclkQualified ref => Sys2Proof.Machine.execRefclkQualified ref s
  | .clockSwitchDone => Sys2Proof.Machine.execClockSwitchDone s
  | .clkSwitch r d => Sys2Proof.Machine.execClkSwitch r d s
  | .clockHoldoverExpire => Sys2Proof.Machine.execClockHoldoverExpire s
  | .clockDomainFail d => Sys2Proof.Machine.execClockDomainFail d s
  | .vinLoss mv => Sys2Proof.Machine.execVinLoss mv s
  | .vinBrownout => Sys2Proof.Machine.execVinBrownout s
  | .vinReturn => Sys2Proof.Machine.execVinReturn s
  | .holdupLow mv => Sys2Proof.Machine.execHoldupLow mv s
  | .holdupDisagree mv left => Sys2Proof.Machine.execHoldupDisagree mv left s
  | .holdupFull mv => Sys2Proof.Machine.execHoldupFull mv s
  | .railFault rail => Sys2Proof.Machine.execRailFault rail s
  | .retentionLoss => Sys2Proof.Machine.execRetentionLoss s
  | .powerUp rootPort holdup test refB => Sys2Proof.Machine.execPowerUp rootPort holdup test refB s
  | .vinPresent refA refB => Sys2Proof.Machine.execVinPresent refA refB s
  | .bootComplete => Sys2Proof.Machine.execBootComplete s
  | .moduleReset => Sys2Proof.Machine.execModuleReset s
  | .checkerResetComplete => Sys2Proof.Machine.execCheckerResetComplete s
  | .dynResetComplete => Sys2Proof.Machine.execDynResetComplete s
  | .syncTransmit mac d => Sys2Proof.Machine.execSyncTransmit mac d s
  | .pcieLinkUp speed width => Sys2Proof.Machine.execPcieLinkUp speed width s
  | .vaonLoss => Sys2Proof.Machine.execVaonLoss s
  | .vaonReturn => Sys2Proof.Machine.execVaonReturn s
  | .mtimecmpMatch c => Sys2Proof.Machine.execMtimecmpMatch c s
  | .ethLinkChange p up => Sys2Proof.Machine.execEthLinkChange p up s
  | .csiLinkUp c => Sys2Proof.Machine.execCsiLinkUp c s
  | .quadratureEdge e up illegal => Sys2Proof.Machine.execQuadratureEdge e up illegal s
  | .canBusStateChange b tec rec errorFrame => Sys2Proof.Machine.execCanBusStateChange b tec rec errorFrame s
  | .packageTempSample c hot => Sys2Proof.Machine.execPackageTempSample c hot s

end Sys2Proof.Machine
end

