-- ==== Sys2Proof/Machine/Tick.lean ====
section
/-!
DEFINITION. One TIME_CLK cycle: what time alone brings about (log entry 3).
-/

namespace Sys2Proof.Machine

/-- The frame-die clocks run: from VIN on while the module boots, and outside DEEP (R30, R450). -/
def State.clocksRun (s : State) : Bool := decide (s.boot.phase = 2) || (decide (s.boot.phase = 3) && decide (s.modState ≠ stDeep))

/-- mtime (R428): 1 in each TIME_CLK cycle; while TIME_CLK is off, 40 in each AON_CLK cycle of 40 ns; nothing in OFF. -/
def State.tickMtime (s : State) : State :=
  let d := if s.clocksRun then 1 else if s.boot.phase = 0 ∨ s.boot.phase = 4 ∨ s.now % 40 ≠ 0 then 0 else 40
  { s with cores := { s.cores with mtime := s.cores.mtime + d } }

/-- FABRIC_CLK, in thousandths of a cycle: CLK_FREQ's frequency, every second pulse swallowed while PEAK_ACTIVE (R467; log entry 20). -/
def State.tickFabric (s : State) : State :=
  let mhz := s.rd F.CLK_FREQ_FABRIC_MHZ
  { s with fab := s.fab + (if s.on F.PWR_STATUS_PEAK_ACTIVE then mhz / 2 else mhz) }

/-- One TIME_CLK cycle of 1 ns. -/
def State.tick (s : State) : State :=
  let s : State := { s with now := s.now + 1 }
  let s := s.tickMtime
  let s := if s.clocksRun then (tickTime s).tickFabric else s
  let s := if s.pwPhase = pwShutdown ∧ s.pwr.shutAt + 100000 ≤ s.now then s.shutDone else s
  if s.castle.restartAt.getD 0 + 2000 ≤ s.now then s.safeResets else s

end Sys2Proof.Machine
end

