-- ==== Sys2Proof/Machine/Step.lean ====
section
/-!
DEFINITION. step: the command at the front of the queue, or one TIME_CLK cycle on an empty queue (log entry 3).
-/

namespace Sys2Proof.Machine

/-- The command at the front of the queue is executed with the rest of the queue; with no command waiting, a TIME_CLK cycle passes. -/
def step (s : State) : Host.Outcome State Fault Refusal :=
  match s.pending with
  | [] => .next s.tick
  | c :: r => exec c { s with pending := r }

/-- The state with the command that a word of the table's bits spells at the front of its queue; as it is where the word spells none. -/
def State.withFetchWord (s : State) (nbits w : Nat) : State :=
  match Sys2Proof.decodeTableWord nbits w with
  | some c => { s with pending := c :: s.pending }
  | none => s

end Sys2Proof.Machine
end

