-- ==== Sys2Proof/WellFormed.lean ====
section
/-!
DEFINITION. What a command can be: operands within the widths that the spec gives the fields they stand for. Widths that a type states
already (a unit, a mailbox, a 64-bit word) need no check.
-/

namespace Sys2Proof

/-- A register address: 8-byte aligned, in the CSR region. -/
def wfReg (a : Nat) : Bool := decide (a % 8 = 0) && decide (0x600000000000 ≤ a) && decide (a < 0x600001000000)

/-- A physical address has 48 bits. -/
def wfAddr (a : Nat) : Bool := decide (a < 2 ^ 48)

/-- A payload's length lies within bounds. -/
def wfLen (lo hi : Nat) (l : List Byte) : Bool := decide (lo ≤ l.length) && decide (l.length ≤ hi)

/-- Bytes of one 64-byte line. -/
def wfLine (a : Nat) (l : List Byte) : Bool := decide (1 ≤ l.length) && decide (a % 64 + l.length ≤ 64)

/-- A number that may be absent is below a bound. -/
def wfOpt (n : Nat) : Option Nat → Bool
  | some x => decide (x < n)
  | none => true

/-- A message's header fields fit their bits, and its payload has at most 4,096 bytes ("Message header", 06_grid.md). -/
def Msg.wf (m : Msg) : Bool :=
  decide (m.dest < 2 ^ 16) && decide (m.destModule < 8) && decide (m.src < 2 ^ 16) && decide (m.srcModule < 8) && decide (m.cls ≤ 4) &&
    decide (m.prio < 8) && decide (m.kind ≤ 3) && decide (m.op < 256) && decide (m.tag < 256) && decide (m.epoch < 2 ^ 16) &&
    decide (m.part < 8) && decide (m.status < 256) && decide (m.channel < 256) && decide (m.user < 2 ^ 16) && wfLen 0 4096 m.payload

/-- A CAN frame carries at most 64 bytes, and 8 without FDF. -/
def wfCan (f : CanFrame) : Bool := wfLen 0 (if f.fdf then 64 else 8) f.data

/-- A host access moves 1 to 4,096 bytes. -/
def wfBar : BarOp → Bool
  | .read n => decide (1 ≤ n) && decide (n ≤ 4096)
  | .write d => wfLen 1 4096 d

def wfDev : DevOp → Bool
  | .read n => decide (1 ≤ n) && decide (n ≤ 4096)
  | .write d => wfLen 1 4096 d
  | .msi => true

/-- Translations give physical addresses. -/
def wfHits (l : List IommuHit) : Bool := l.all (fun h => wfOpt (2 ^ 48) h.addr)

def wfSerial (n : Nat) : Bool := decide (n < 2 ^ 64)

/-- A network has at most eight members. -/
def wfMembers (l : List Nat) : Bool := decide (l.length ≤ 8) && l.all wfSerial

def wfLink : LinkRef → Bool
  | .own _ => true
  | .remote a b => wfSerial a && wfSerial b && decide (a ≠ b)

def wfHello (p : PeerHello) : Bool :=
  wfSerial p.serial && p.known.all wfSerial && (match p.members with | some l => wfMembers l | none => true)

def wfLinkData : LinkData → Bool
  | .part => true
  | .msg m => m.wf
  | .serials l => l.all wfSerial

/-- Answers to bursts carry at most 4,096 bytes each. -/
def wfExt (l : List (Fin 13 × List Byte × Bool)) : Bool := l.all (fun e => wfLen 0 4096 e.2.1)

/-- A command whose operands the hardware can present. -/
def Instr.wf (i : Instr) : Bool :=
  match i with
  | .registerWrite _ addr _ => wfReg addr
  | .registerReadClear _ addr _ => wfReg addr
  | .lockSet _ addr _ => wfReg addr
  | .d2dModuleFail _ => true
  | .epochHoldRelease _ => true
  | .egressDrop _ => true
  | .tbRateWrite _ _ _ => true
  | .tbAdjWrite _ _ _ => true
  | .tbSetLowWrite _ _ _ => true
  | .tbNowRead _ _ => true
  | .syncReceive _ _ _ _ => true
  | .announceReceive _ _ _ => true
  | .pdelayExchange _ t1 t2 t3 t4 => decide (t1 ≤ t4) && decide (t2 ≤ t3)
  | .ppsEdge _ _ _ _ => true
  | .sourceLoss _ => true
  | .holdoverExpire _ => true
  | .phaseObservation _ => true
  | .phSwObsWrite _ _ _ => true
  | .phEnable _ _ _ => true
  | .phaseSourceTimeout _ => true
  | .phaseLost _ => true
  | .lostSecondTimeout _ => true
  | .peMatch _ _ _ => true
  | .peCtrlWrite _ _ _ => true
  | .peRetargetWrite _ _ _ => true
  | .pulseEnd _ => true
  | .captureEdge _ _ _ _ => true
  | .capSecRead _ _ => true
  | .evtSecRead _ => true
  | .csiFrameStart _ _ _ => true
  | .csiLine _ _ _ ls data _ _ => wfOpt 65536 ls && wfLen 0 65535 data
  | .csiFrameEnd _ _ => true
  | .csiFrameTimeout _ => true
  | .ethFrameReceive _ frame _ _ => wfLen 14 65535 frame
  | .canFrameValid _ f _ => wfCan f
  | .spiPeriodExpire _ => true
  | .spiDrdyEdge _ _ _ _ => true
  | .spiTransferEnd _ data => wfLen 0 65535 data
  | .encPeriodExpire _ _ _ => true
  | .gpioInputEdge _ => true
  | .itemVisible _ => true
  | .pauseRefresh _ => true
  | .expectWindowExpire _ => true
  | .iqHeadRead _ _ => true
  | .iqAnyHeadRead _ => true
  | .iqMark _ _ _ => true
  | .iqRewind _ _ _ => true
  | .iqReleaseWrite _ _ _ => true
  | .streamEnable _ _ _ => true
  | .streamDisable _ _ _ => true
  | .bundleBuildStart => true
  | .bundleWaitExpire => true
  | .bundleEmit => true
  | .registrationDone => true
  | .alnReleaseWrite _ _ => true
  | .alnResetDone => true
  | .voxTrigger => true
  | .voxBuildStart => true
  | .voxWaitExpire => true
  | .voxFrameEmit => true
  | .voxReleaseWrite _ _ => true
  | .voxResetDone => true
  | .rvInstruction _ => true
  | .txSend _ => true
  | .txRecv _ => true
  | .txWait _ => true
  | .txPoll _ => true
  | .txFence _ => true
  | .txRest _ => true
  | .txHalt _ => true
  | .txMm _ => true
  | .txWload _ => true
  | .txQuant _ => true
  | .txDma _ => true
  | .vConvert _ => true
  | .vAdd _ => true
  | .vSub _ => true
  | .vMul _ => true
  | .vFma _ => true
  | .vMax _ => true
  | .vMin _ => true
  | .vAbs _ => true
  | .vRelu _ => true
  | .vLeakyRelu _ => true
  | .vGeluTanh _ => true
  | .vGeluErf _ => true
  | .vSilu _ => true
  | .vSigmoid _ => true
  | .vTanh _ => true
  | .vExp _ => true
  | .vExp2 _ => true
  | .vLog _ => true
  | .vRecip _ => true
  | .vSqrt _ => true
  | .vRsqrt _ => true
  | .vDiv _ => true
  | .vRsum _ => true
  | .vRmax _ => true
  | .vRargmax _ => true
  | .vSoftmax _ => true
  | .vRmsnorm _ => true
  | .vLayernorm _ => true
  | .mvCopy _ => true
  | .mvTranspose _ => true
  | .mvGather _ => true
  | .mvScatter _ => true
  | .mvScatterAdd _ => true
  | .mvFill _ => true
  | .tensorOpStart _ _ => true
  | .tensorOpComplete _ _ => true
  | .dmaBurstIssue _ => true
  | .dmaBurstAnswer _ _ _ _ data _ => wfLen 0 4096 data
  | .sqStart _ _ _ => true
  | .sqHalt _ _ _ => true
  | .sqCtrlLoad _ _ _ => true
  | .sqLoadComplete _ => true
  | .sqReset _ _ _ => true
  | .sqResetComplete _ => true
  | .sqEventWrite _ _ _ => true
  | .meshRequestArrive m => m.wf
  | .meshReplyArrive m => m.wf
  | .postedAnswerArrive m => m.wf
  | .restReqWrite _ _ => true
  | .restForceWrite _ _ => true
  | .restWithdrawWrite _ _ => true
  | .restEnter _ => true
  | .restComplete _ _ _ => true
  | .planeJobArrive m => m.wf
  | .planeJobStart _ => true
  | .planeProductEnd _ => true
  | .planeJobDone _ => true
  | .plLoadOpen _ _ _ => true
  | .plLoadClose _ _ _ => true
  | .planeLoadCheckDone _ => true
  | .calFull _ _ _ => true
  | .calOffset _ _ _ => true
  | .calibrationStart _ => true
  | .calibrationDone _ => true
  | .planeTempSample _ _ => true
  | .recalMsExpire _ => true
  | .weightCheck _ _ => true
  | .probeProduct _ => true
  | .contractAgeOut _ => true
  | .plCalCtrlWrite _ _ _ => true
  | .plForceWrite _ _ _ _ => true
  | .overrideRelease _ => true
  | .plReset _ _ _ => true
  | .plResetComplete _ => true
  | .aeJobArrive m => m.wf
  | .attend _ => true
  | .select _ => true
  | .append _ => true
  | .commit _ => true
  | .rollback _ => true
  | .publish _ => true
  | .seqOpen _ => true
  | .seqClose _ => true
  | .limboRelease => true
  | .helperSlice _ => true
  | .aeJobComplete _ => true
  | .aeReset _ _ _ => true
  | .aeResetComplete _ => true
  | .kvEnable _ _ _ => true
  | .ccCheck _ => true
  | .checkResume => true
  | .checkDeadline => true
  | .ccLoadModel => true
  | .ccLoadSdf => true
  | .ccLoadBev => true
  | .ccCommit => true
  | .ccCancel => true
  | .ccFallbackJob => true
  | .ccFallbackBit _ _ => true
  | .trajectorySwitch => true
  | .trajectoryExpiry => true
  | .fallbackSwitch => true
  | .ccReset _ _ => true
  | .dynLoadModel _ => true
  | .loadTasks _ => true
  | .compute _ => true
  | .dynRun _ _ => true
  | .runOnce _ _ => true
  | .dynPeriodTrigger => true
  | .dynNotifyTrigger m => m.wf
  | .dynDeadline => true
  | .dynSolveDone => true
  | .dynJobResume => true
  | .dynReset _ _ => true
  | .rulePulseEnd _ => true
  | .rfxLatchedWrite _ _ => true
  | .egSendWrite _ _ _ => true
  | .egressFrameStart _ => true
  | .canTransmit _ => true
  | .gclEntryAdvance _ => true
  | .doorbell _ _ _ => true
  | .respHeadWrite _ _ _ => true
  | .seqReset _ _ _ => true
  | .ringReset _ _ _ => true
  | .mbxCommandStart => true
  | .mbxCommandComplete _ => true
  | .cmdTimeout _ => true
  | .unitStateReport _ _ _ _ => true
  | .nop _ => true
  | .identify _ => true
  | .unitQuery _ => true
  | .unitReset _ => true
  | .unitQuarantine _ => true
  | .unitRelease _ => true
  | .eventRead _ => true
  | .csrRead _ => true
  | .csrWrite _ => true
  | .partCreate _ => true
  | .partAssign _ => true
  | .partWindows _ => true
  | .partShare _ => true
  | .partPath _ => true
  | .partSquareShare _ => true
  | .partStart _ => true
  | .partReset _ => true
  | .partResetDone _ => true
  | .partQuery _ => true
  | .partWindowBoundary => true
  | .sqLoad _ => true
  | .sqRun _ => true
  | .plLoad _ => true
  | .jobSend _ => true
  | .memCopy _ ext => wfExt ext
  | .memFill _ ext => wfExt ext
  | .kvOp _ => true
  | .kvPoolQuery _ => true
  | .timeRead _ => true
  | .timeStep _ => true
  | .timeAdjust _ => true
  | .peArm _ => true
  | .peDisarm _ => true
  | .phQuery _ => true
  | .streamSet _ => true
  | .iqQuery _ => true
  | .iqFlush _ => true
  | .powerState _ => true
  | .powerCap _ => true
  | .unitPower _ => true
  | .powerQuery _ => true
  | .imgReadKey _ => true
  | .imgBegin _ => true
  | .imgWrite _ => true
  | .imgVerify _ => true
  | .imgActivate _ => true
  | .imgConfirm _ => true
  | .imgAbort _ => true
  | .imgRevokeKey _ => true
  | .safeRequest _ => true
  | .safetyQuery _ => true
  | .restRequest _ => true
  | .restWithdraw _ => true
  | .linkQuery _ => true
  | .linkRetrain _ => true
  | .linkEnable _ => true
  | .castleInboxMessage m => m.wf
  | .cpSubmission m => m.wf
  | .planeReportArrive m => m.wf
  | .cpVerdict _ _ => true
  | .cpDeadline _ => true
  | .scArm _ _ _ => true
  | .scKick m => m.wf
  | .scKickWrite _ _ _ => true
  | .scLate _ => true
  | .tsArm _ _ _ => true
  | .tsMark m => m.wf
  | .tsMarkWrite _ _ _ => true
  | .tsPeriodicAct _ => true
  | .tsLimitExpire _ _ => true
  | .fzSample _ => true
  | .rotationEntryStart => true
  | .restGraceExpire => true
  | .forceGraceExpire => true
  | .selfTestDone _ => true
  | .castleFault _ => true
  | .castleRestartDone _ => true
  | .safeReq _ => true
  | .holdGeneratorFill => true
  | .safeRestartApply => true
  | .safeRestartComplete => true
  | .safeLatch _ => true
  | .safeExit _ => true
  | .dramRead _ a _ => wfAddr a
  | .dramWrite _ a data _ => wfAddr a && wfLine a data
  | .scrubRead _ _ => true
  | .shareWindow _ => true
  | .irqRouteWrite _ _ _ => true
  | .pcieInboundAccess _ _ op => wfBar op
  | .pcieOutboundAccess _ a op data _ _ => wfAddr a && wfBar op && wfLen 0 4096 data
  | .pcieDeviceRequest hits op => wfHits hits && wfDev op
  | .pcieLinkDown => true
  | .perstRelease => true
  | .zorraLinkTrained l p => wfLink l && wfHello p
  | .formWindowExpire => true
  | .declarationReceive _ members _ => wfMembers members
  | .declarationTimeout => true
  | .linkFrameReceive _ _ _ _ _ c => wfLinkData c
  | .linkTimeout l => wfLink l
  | .netReform _ _ => true
  | .relayItem _ item => wfLen 32 4096 item
  | .pwrVoteWrite _ _ => true
  | .entryDelayTimeout => true
  | .entryCommit => true
  | .entryComplete => true
  | .wakePin => true
  | .wakeTimer => true
  | .pwrWakeWrite _ => true
  | .wakeComplete _ => true
  | .vfStepDone => true
  | .oppReqWrite _ _ => true
  | .capWindow mw => decide (mw < 2 ^ 20)
  | .peakOvercurrent => true
  | .peakRelease => true
  | .thermalTick t => decide (-2048 ≤ t) && decide (t < 2048)
  | .clockGate _ _ => true
  | .refclkLoss _ => true
  | .refclkQualified _ => true
  | .clockSwitchDone => true
  | .clkSwitch _ _ => true
  | .clockHoldoverExpire => true
  | .clockDomainFail _ => true
  | .vinLoss mv => decide (mv < 2 ^ 16)
  | .vinBrownout => true
  | .vinReturn => true
  | .holdupLow mv => decide (mv < 2 ^ 16)
  | .holdupDisagree mv _ => decide (mv < 2 ^ 16)
  | .holdupFull mv => decide (mv < 2 ^ 16)
  | .railFault _ => true
  | .retentionLoss => true
  | .powerUp _ _ _ _ => true
  | .vinPresent _ _ => true
  | .bootComplete => true
  | .moduleReset => true
  | .checkerResetComplete => true
  | .dynResetComplete => true
  | .syncTransmit _ _ => true
  | .pcieLinkUp _ _ => true
  | .vaonLoss => true
  | .vaonReturn => true
  | .mtimecmpMatch _ => true
  | .ethLinkChange _ _ => true
  | .csiLinkUp _ => true
  | .quadratureEdge _ _ _ => true
  | .canBusStateChange _ tec rec _ => decide (tec < 65536) && decide (rec < 65536)
  | .packageTempSample _ _ => true

end Sys2Proof
end

