-- ==== Sys2Proof/Safety.lean ====
section
/-!
DEFINITION. What counts as a safe run, in the terms the statements use: a step that goes on, and the invariants every step keeps.
-/

namespace Sys2Proof.Machine

/-- A step that goes on. -/
def Completes (s : State) : Prop := ∃ t, step s = .next t

/-- The canonical form of memory: addresses strictly rising, no byte listed that reads the same unlisted. -/
abbrev State.MemOk (s : State) : Prop := Memory.wf s.blank s.mem = true

/-- Square n's sequencer issues, with no interrupt to take and no fence standing, and its pc names the word w of tensor instruction t
(R140 to R143, R148). -/
abbrev State.AtTx (s : State) (n w : Nat) (t : Tx) : Prop :=
  s.sqIssues n = true ∧ s.sqIrqs n = [] ∧ s.fetchAt n (s.sqr n).pc = .word w (some w) 4 ∧ txDecode w = some t ∧ (s.sqr n).fence = false

/-- Square n's sequencer issues, with no interrupt to take, and its pc names a word that is no tensor instruction: the parcel `raw`, the
word w it stands for, and its length in bytes (R139). -/
abbrev State.AtRv (s : State) (n raw w len : Nat) : Prop :=
  s.sqIssues n = true ∧ s.sqIrqs n = [] ∧ s.fetchAt n (s.sqr n).pc = .word raw (some w) len ∧ txDecode w = none

/-- The state a tensor instruction acts on: no fence stands. -/
def State.unfenced (s : State) (n : Nat) : State := s.setSq n { s.sqr n with fence := false }

/-- MB_m has accepted the command e of opcode op, and has not run it yet (R347, R349). -/
abbrev State.MbRuns (s : State) (m : Nat) (e : MbExec) (op : Nat) : Prop :=
  s.mbExec m = some e ∧ e.status = none ∧ e.ran = false ∧ cmdOp e.cmd = op

/-- The two calibration book copies in the NOR, byte by byte (R368, R375). -/
def State.SameBook (s t : State) : Prop :=
  ∀ k < 2, ∀ j, bankBook ≤ j → j < bankSize → t.norByte (k * bankSize + j) = s.norByte (k * bankSize + j)

/-- The commands that store nothing: no byte of memory differs after one of them. -/
def storesNothing : Instr → Bool
  | .registerReadClear .. | .d2dModuleFail .. | .egressDrop .. | .tbRateWrite .. | .tbAdjWrite .. | .tbSetLowWrite ..
  | .tbNowRead .. | .syncReceive .. | .announceReceive .. | .pdelayExchange .. | .ppsEdge .. | .sourceLoss ..
  | .holdoverExpire .. | .phaseObservation .. | .phSwObsWrite .. | .phEnable .. | .phaseSourceTimeout .. | .phaseLost ..
  | .lostSecondTimeout .. | .peCtrlWrite .. | .peRetargetWrite .. | .pulseEnd .. | .captureEdge .. | .capSecRead ..
  | .evtSecRead .. | .spiPeriodExpire .. | .spiDrdyEdge .. | .itemVisible .. | .pauseRefresh .. | .iqHeadRead ..
  | .iqAnyHeadRead .. | .iqMark .. | .iqRewind .. | .iqReleaseWrite .. | .bundleBuildStart | .bundleWaitExpire
  | .registrationDone | .alnReleaseWrite .. | .alnResetDone | .voxTrigger | .voxBuildStart | .voxWaitExpire | .voxReleaseWrite ..
  | .voxResetDone | .txSend .. | .txWait .. | .txPoll .. | .txFence .. | .txRest .. | .txHalt .. | .txMm .. | .txWload ..
  | .txQuant .. | .txDma .. | .tensorOpStart .. | .dmaBurstIssue .. | .sqLoadComplete .. | .sqResetComplete ..
  | .meshReplyArrive .. | .postedAnswerArrive .. | .restEnter .. | .planeJobArrive .. | .planeJobStart ..
  | .planeLoadCheckDone .. | .calibrationStart .. | .calibrationDone .. | .planeTempSample .. | .recalMsExpire ..
  | .probeProduct .. | .contractAgeOut .. | .overrideRelease .. | .plResetComplete .. | .aeJobArrive .. | .aeJobComplete ..
  | .aeResetComplete .. | .ccCommit | .ccCancel | .ccFallbackJob | .ccFallbackBit .. | .trajectorySwitch | .trajectoryExpiry
  | .ccReset .. | .rulePulseEnd .. | .rfxLatchedWrite .. | .egSendWrite .. | .egressFrameStart .. | .canTransmit ..
  | .gclEntryAdvance .. | .mbxCommandStart | .cmdTimeout .. | .unitStateReport .. | .nop .. | .identify .. | .unitQuery ..
  | .unitQuarantine .. | .csrRead .. | .partShare .. | .partPath .. | .partSquareShare .. | .partStart .. | .partQuery ..
  | .partWindowBoundary | .sqRun .. | .kvPoolQuery .. | .timeRead .. | .phQuery .. | .iqQuery .. | .iqFlush .. | .powerState ..
  | .powerQuery .. | .imgBegin .. | .imgVerify .. | .imgActivate .. | .imgConfirm .. | .imgAbort .. | .imgRevokeKey ..
  | .safeRequest .. | .safetyQuery .. | .linkQuery .. | .castleInboxMessage .. | .cpSubmission .. | .planeReportArrive ..
  | .cpVerdict .. | .cpDeadline .. | .scArm .. | .scKick .. | .scKickWrite .. | .scLate .. | .tsArm .. | .tsMark ..
  | .tsMarkWrite .. | .tsPeriodicAct .. | .tsLimitExpire .. | .fzSample .. | .selfTestDone .. | .castleFault ..
  | .castleRestartDone .. | .safeReq .. | .holdGeneratorFill | .safeRestartComplete | .safeLatch .. | .safeExit .. | .dramRead ..
  | .shareWindow .. | .irqRouteWrite .. | .pcieOutboundAccess .. | .pcieLinkDown | .perstRelease | .zorraLinkTrained ..
  | .formWindowExpire | .declarationReceive .. | .declarationTimeout | .linkFrameReceive .. | .pwrVoteWrite ..
  | .entryDelayTimeout | .entryCommit | .wakePin | .wakeTimer | .pwrWakeWrite .. | .vfStepDone | .oppReqWrite .. | .capWindow ..
  | .peakOvercurrent | .peakRelease | .thermalTick .. | .clockGate .. | .refclkLoss .. | .refclkQualified .. | .clockSwitchDone
  | .clkSwitch .. | .clockHoldoverExpire | .clockDomainFail .. | .vinBrownout | .vinReturn | .holdupDisagree .. | .holdupFull ..
  | .railFault .. | .retentionLoss | .checkerResetComplete | .dynResetComplete | .syncTransmit .. | .pcieLinkUp .. | .vaonLoss
  | .vaonReturn | .mtimecmpMatch .. | .ethLinkChange .. | .csiLinkUp .. | .quadratureEdge .. | .canBusStateChange ..
  | .packageTempSample .. => true
  | _ => false

end Sys2Proof.Machine
end

