-- ==== Sys2Proof/Certificates/Slice0/Obligations.lean ====
section
/-!
DEFINITION. The statements: what each command leads to, where it completes, what the machine keeps, and the rules of the spec that
say what the machine does.
-/

open Sys2Proof Sys2Proof.Machine

/-- A step runs the command at the front of the queue. For every command, rest of queue and state whose queue is the command before the
rest: a step is exec of the command on the state with the queue's rest. -/
def Obligations.StepRunsFront : Prop :=
  ∀ (c : Instr) (q : List Instr) (s : State), s.pending = c :: q → step s = exec c { s with pending := q }

/-- On an empty queue a step is one TIME_CLK cycle (the model's choice, log entry 3). The model's choice (log entry 3): with no command
waiting, a step is one cycle of TIME_CLK; the time moves on by 1 ns, the queue stays empty, and every byte of memory stands unless
the module is in the RESTARTING phase of the safe state, where the cycle may start the partitions' resets. -/
def Obligations.EmptyQueueTicks : Prop :=
  ∀ s : State, s.pending = [] → ∃ t, step s = .next t ∧ t.now = s.now + 1 ∧ t.pending = [] ∧
    (s.rd F.SAFE_STATUS_PHASE ≠ phRestarting → ∀ a, t.byte a = s.byte a)

/-- No row of the table gives bits, so no word spells a command. For every length, word and state: the decoder reads no command, and
placing the word for the next step changes nothing. -/
def Obligations.NoWordSpellsACommand : Prop :=
  ∀ (n w : Nat) (s : State), decodeTableWord n w = none ∧ s.withFetchWord n w = s

/-- Register commands complete; doorbell, consumed responses and the two mailbox resets complete. For every requester and data: a
register write gives the block's write with no half word kept; the two kinds of read give the register's view in rdata and its read
effect, a low-half read keeping the high half for that requester; LOCK_SET is the write with bit 0 set of the block's lock register;
a held entry of a unit takes effect once 2 us have passed; in every case exec answers that next state. For the host or the castle in
RUN: a DOORBELL that leaves at most 64 slots between consumed responses and the new tail sets MB_m's TAIL and nothing else, a larger
one only counts a reject; a RESP_HEAD write up to RESP_TAIL sets RESP_HEAD; SEQ_RESET clears SEQ_VALID; RING_RESET with no command
in execution sets the four positions to 0. -/
def Obligations.RegisterAccessesComplete : Prop :=
  (∀ (r : Req) (addr : Nat) (d : WData) (s : State),
      exec (.registerWrite r addr d) s = .next ((s.dropHalf r).regWrite r (addr / 8 * 8) d)) ∧
    (∀ (r : Req) (addr : Nat) (s : State),
      ∃ t, exec (.registerReadClear r addr .both) s = .next t ∧ t.rdata = BitVec.ofNat 64 (s.regView r (addr / 8 * 8)) ∧ mget half0 t.half r.num = half0) ∧
    (∀ (r : Req) (addr : Nat) (s : State),
      ∃ t, exec (.registerReadClear r addr .low) s = .next t ∧ t.rdata = BitVec.ofNat 64 (s.regView r (addr / 8 * 8) % 2 ^ 32) ∧ mget half0 t.half r.num = ⟨addr / 8 * 8, s.regView r (addr / 8 * 8) / 2 ^ 32⟩) ∧
    (∀ (r : Req) (addr hi : Nat) (s : State),
      mget half0 s.half r.num = ⟨addr / 8 * 8, hi⟩ →
      addr / 8 ≠ 0 →
      exec (.registerReadClear r addr .high) s = .next { s with half := mset half0 s.half r.num half0, rdata := BitVec.ofNat 64 hi }) ∧
    (∀ (r : Req) (addr : Nat) (d : WData) (reg : Nat) (s : State),
      lockReg addr = some reg →
      exec (.lockSet r addr d) s = .next ((s.dropHalf r).regWrite r reg (d.withBit 0))) ∧
    (∀ (u : Fin 65536) (code : Nat) (s : State),
      (mget epochRec0 s.epoch u.val).held = some code →
      code ≠ holdLoad →
      code ≠ holdLoadStart →
      s.epochFree u.val = true →
      exec (.epochHoldRelease u) s = .next (s.unitEnter u.val code)) ∧
    (∀ (u : Fin 65536) (s : State),
      (mget epochRec0 s.epoch u.val).held = some holdLoad →
      u.val / 0x1000 = 1 →
      s.epochFree u.val = true →
      exec (.epochHoldRelease u) s = .next (s.sqLoadNow (u.val % 0x1000) false)) ∧
    (∀ (r : Req) (m : Fin 16) (d : WData) (s : State),
      r.trusted = true →
      s.boot.phase = 3 →
      s.modState ≠ stDeep →
      s.mbOpen m.val = true →
      d.half ≠ .high →
      ringDist (s.rd (F.MB_POS_RESP_HEAD m.val)) (bits d.bits1 0 7) ≤ 64 →
      exec (.doorbell r m d) s = .next ((s.dropHalf r).wr (F.MB_POS_TAIL m.val) (bits d.bits1 0 7))) ∧
    (∀ (r : Req) (m : Fin 16) (d : WData) (s : State),
      r.trusted = true →
      s.boot.phase = 3 →
      s.modState ≠ stDeep →
      d.half ≠ .high →
      ringDist (s.rd (F.MB_POS_RESP_HEAD m.val)) (bits d.bits1 0 7) ≤ ringDist (s.rd (F.MB_POS_RESP_HEAD m.val)) (s.rd (F.MB_POS_RESP_TAIL m.val)) →
      exec (.respHeadWrite r m d) s = .next ((s.dropHalf r).wr (F.MB_POS_RESP_HEAD m.val) (bits d.bits1 0 7))) ∧
    (∀ (r : Req) (m : Fin 16) (d : WData) (s : State),
      r.trusted = true →
      s.boot.phase = 3 →
      s.modState ≠ stDeep →
      bit (d.withBit 1).bits1 1 = true →
      bit (d.withBit 1).bits1 2 = false →
      ∃ t, exec (.seqReset r m d) s = .next t ∧ t.rd (F.MB_SEQ_SEQ_VALID m.val) = 0 ∧ t.mem = s.mem ∧ t.rd (F.MB_POS_HEAD m.val) = s.rd (F.MB_POS_HEAD m.val)) ∧
    (∀ (r : Req) (m : Fin 16) (d : WData) (s : State),
      r.trusted = true →
      s.boot.phase = 3 →
      s.modState ≠ stDeep →
      bit (d.withBit 2).bits1 2 = true →
      s.mbExec m.val = none →
      ∃ t, exec (.ringReset r m d) s = .next t ∧ t.rd (F.MB_POS_HEAD m.val) = 0 ∧ t.rd (F.MB_POS_TAIL m.val) = 0 ∧ t.rd (F.MB_POS_RESP_TAIL m.val) = 0 ∧ t.rd (F.MB_POS_RESP_HEAD m.val) = 0 ∧ t.mem = s.mem)

/-- Timebase commands complete, with everything else unchanged. A requester that may use timebase n writes its rate (registers only),
its slew (the pending slew only) and its value (stepped, by R33's form of the word); reads of now latch the stamp for the requester
and return seconds, or phase and rate; a Sync received on a slave port, an Announce on an enabled port, a peer delay exchange, an
admitted PPS edge, each kind of source loss, the end of HOLDOVER and a Sync sent on a master port have the effect the rules give,
and no other. -/
def Obligations.TimebaseCommandsComplete : Prop :=
  (∀ (r : Req) (n : Fin 8) (d : WData) (s : State),
      s.mayUse r (0x5100 + n.val) = true →
      s.tbFree n.val = true →
      exec (.tbRateWrite r n d) s = .next (s.writeReg (R.TB_RATE n.val) d)) ∧
    (∀ (r : Req) (n : Fin 8) (d : WData) (s : State),
      s.mayUse r (0x5100 + n.val) = true →
      s.tbFree n.val = true →
      d.lowWritten = true →
      exec (.tbAdjWrite r n d) s = .next (s.setTb n.val { s.tb n.val with slew := sgn 32 d.bits1 * 2 ^ 48 })) ∧
    (∀ (r : Req) (n : Fin 8) (d : WData) (s : State),
      s.mayUse r (0x5100 + n.val) = true →
      s.tbFree n.val = true →
      bits d.bits1 32 32 ≤ 999999999 →
      bits d.bits1 0 16 = 0 →
      exec (.tbSetLowWrite r n d) s = .next (s.stepTb n.val ((mget 0 s.time.setSec n.val * 1000000000 + bits d.bits1 32 32) * 2 ^ 48 + bits d.bits1 16 16 * 2 ^ 32))) ∧
    (∀ (r : Req) (n : Fin 8) (s : State),
      ∃ t, exec (.tbNowRead r (.tb n)) s = .next t ∧ t.rdata = BitVec.ofNat 64 (tsSec (s.stamp n.val)) ∧ mget 0 t.time.tsLatch (s.reqKey r) = s.stamp n.val ∧ t.csr = s.csr ∧ t.mem = s.mem) ∧
    (∀ (r : Req) (k : Fin 8) (s : State),
      ∃ t, exec (.tbNowRead r (.ph k)) s = .next t ∧ t.rdata = BitVec.ofNat 64 ((s.ph k.val).phase + (s.ph k.val).rateNow * 2 ^ 32) ∧ mget 0 t.time.tsLatch (s.reqKey r) = s.stamp (s.rd (F.PH_CTRL_TB k.val)) ∧ t.csr = s.csr ∧ t.mem = s.mem) ∧
    (∀ (mac : Fin 4) (d : Fin 2) (master : Nat) (ratio : Int) (off : Nat → Int) (s1 s : State),
      s.gptpRuns d.val = true →
      bits (s.rd (F.GPTP_STATUS_PORT_STATE d.val)) (2 * mac.val) 2 = 2 →
      (off = fun n => (master : Int) - ((s.tbFine n : Int) - s.rdS (F.MAC_COMP_RX_COMP mac.val) * 1024)) →
      s1 = (s.wr (F.GPTP_OFFSET_OFFSET d.val) (unsgn 64 (off (s.rd (F.GPTP_CTRL_TB d.val))))).wr (F.GPTP_RATIO_RATE_OFFSET d.val) (unsgn 32 ratio) →
      exec (.syncReceive mac d master ratio) s = .next ((List.range 8).foldl (fun a n => a.tbObserve n (d.val + 1) (off n)) { s1 with time := { s1.time with syncAt := mset 0 s1.time.syncAt d.val s.now } })) ∧
    (∀ (mac : Fin 4) (d : Fin 2) (a : Announce) (s : State),
      s.gptpRuns d.val = true →
      bit (s.rd (F.GPTP_CTRL_PORT_EN d.val)) mac.val = true →
      exec (.announceReceive mac d a) s = .next (({ s with time := { s.time with vec := mset vec0 s.time.vec (4 * d.val + mac.val) ⟨rootWord a.priority1.toNat a.clockClass.toNat a.accuracy.toNat a.variance.toNat a.priority2.toNat a.gmId.toNat, a.stepsRemoved.toNat, a.senderPort.toNat, a.gmId.toNat⟩ } }).bestMaster d.val)) ∧
    (∀ (mac : Fin 4) (t1 t2 t3 t4 : Nat) (s : State),
      t2 ≤ t3 →
      t1 + (t3 - t2) ≤ t4 →
      ((t4 - t1) - (t3 - t2)) / 2 < 2 ^ 40 →
      ∃ t, exec (.pdelayExchange mac t1 t2 t3 t4) s = .next t ∧ t.rd (F.MAC_PDELAY_MEAN_LINK_DELAY mac.val) = ((t4 - t1) - (t3 - t2)) / 2 ∧ t.mem = s.mem) ∧
    (∀ (m : Fin 16) (rising : Bool) (held : Nat) (frac : Fin 64) (s : State),
      s.admits m.val rising held = true →
      exec (.ppsEdge m rising held frac) s = .next ((List.range 8).foldl (fun a n => if s.rd (F.TB_CTRL_PPS_INPUT n) = m.val then a.tbObserve n 3 (ppsOffset (s.edgeFine m.val n held frac.val)) else a) s)) ∧
    (∀ (d : Fin 2) (s : State),
      exec (.sourceLoss (.sync d)) s = .next ((List.range 8).foldl (fun a n => a.tbLost n (d.val + 1)) (s.bump (F.GPTP_COUNTS_SYNC_TIMEOUTS d.val)))) ∧
    (∀ (d : Fin 2) (s : State),
      exec (.sourceLoss (.noGrandmaster d)) s = .next ((List.range 8).foldl (fun a n => a.tbLost n (d.val + 1)) (s.wr (F.GPTP_STATUS_GM_PRESENT d.val) 0))) ∧
    (∀ (n : Fin 8) (s : State),
      exec (.sourceLoss (.pps n)) s = .next (s.tbLost n.val 3)) ∧
    (∀ (n : Fin 8) (s : State),
      s.rd (F.TB_STATUS_STATE n.val) = 4 →
      s.rd (F.TB_CTRL_HOLDOVER_MAX_S n.val) ≠ 0 →
      ∃ t, exec (.holdoverExpire n) s = .next t ∧ t.rd (F.TB_STATUS_STATE n.val) = 5 ∧ t.log.total = s.log.total + 1 ∧ t.mem = s.mem ∧ t.time = s.time) ∧
    (∀ (mac : Fin 4) (d : Fin 2) (s : State),
      s.gptpRuns d.val = true →
      bits (s.rd (F.GPTP_STATUS_PORT_STATE d.val)) (2 * mac.val) 2 = 1 →
      exec (.syncTransmit mac d) s = .next { s with time := { s.time with syncSent := mset 0 s.time.syncSent (4 * d.val + mac.val) ((s.tbFine (s.rd (F.GPTP_CTRL_TB d.val)) : Int) + s.rdS (F.MAC_COMP_TX_COMP mac.val) * 1024).toNat } })

/-- Phase domain, pulse, capture and phase event commands complete. The tracker acts on the oldest delivered observation; a software
observation acts at its own time, or now; enabling starts the domain; a source time-out takes ACQUIRING or LOCKED to HOLDOVER, which
ends in LOST with one event record; a pulse ends; an admitted edge is counted and, with ENABLE and room, its stamp enters the FIFO;
FIFO reads take the head into the reader's latch, or return the NV word; a due event acts and advances; arming and retargeting apply
R46. -/
def Obligations.PhaseAndCaptureComplete : Prop :=
  (∀ (k : Fin 8) (t : Int) (o : Nat) (rest : List (Int × Nat)) (s : State),
      (s.ph k.val).obs = (t, o) :: rest →
      exec (.phaseObservation k) s = .next ((s.setPh k.val { s.ph k.val with obs := rest }).phObserve k.val t o 0)) ∧
    (∀ (r : Req) (k : Fin 8) (d : WData) (s : State),
      s.mayUse r (0x5200 + k.val) = true →
      s.rd (F.PH_CTRL_SOURCE k.val) = 0 ∨ 4 < s.rd (F.PH_CTRL_SOURCE k.val) →
      exec (.phSwObsWrite r k d) s = .next (s.phObserve k.val (if (s.ph k.val).swTime = 0 then s.ts64 (s.rd (F.PH_CTRL_TB k.val)) else (s.ph k.val).swTime) (bits d.bits1 0 32) (bits d.bits1 32 32))) ∧
    (∀ (r : Req) (k : Fin 8) (d : WData) (s : State),
      s.mayUse r (0x5200 + k.val) = true →
      s.on (F.PH_CTRL_ENABLE k.val) = false →
      exec (.phEnable r k d) s = .next (((s.writeReg (R.PH_CTRL k.val) d).phDisable k.val).phEnable k.val)) ∧
    (∀ (k : Fin 8) (s : State),
      s.rd (F.PH_STATUS_STATE k.val) = 1 ∨ s.rd (F.PH_STATUS_STATE k.val) = 2 →
      exec (.phaseSourceTimeout k) s = .next (s.wr (F.PH_STATUS_STATE k.val) 3)) ∧
    (∀ (k : Fin 8) (s : State),
      s.rd (F.PH_STATUS_STATE k.val) = 3 →
      s.rd (F.PH_LIMITS_HOLDOVER_MAX_MS k.val) ≠ 0 →
      exec (.phaseLost k) s = .next (((s.wr (F.PH_STATUS_STATE k.val) 4).setPh k.val { s.ph k.val with awaitSecond := false }).event (0x5200 + k.val) 0x3002 k.val [(s.ph k.val).phase])) ∧
    (∀ (k : Fin 8) (s : State),
      s.rd (F.PH_STATUS_STATE k.val) = 4 →
      exec (.lostSecondTimeout k) s = .next (s.setPh k.val { s.ph k.val with awaitSecond := false })) ∧
    (∀ (n : Fin 16) (s : State),
      (s.pulse n.val).stop ≤ s.now * 32 →
      exec (.pulseEnd n) s = .next (s.setPulse n.val ⟨false, 0, 0⟩)) ∧
    (∀ (m : Fin 16) (rising : Bool) (held : Nat) (frac : Fin 64) (s : State),
      s.admits m.val rising held = true →
      s.on (F.CAPTURE_IN_CTRL_ENABLE m.val) = false →
      (∀ k < 8, s.rd (F.PH_CTRL_SOURCE k) = 4 → s.rd (F.PH_CTRL_SOURCE_INDEX k) ≠ m.val) →
      exec (.captureEdge m rising held frac) s = .next (s.bumpW (F.CAPTURE_IN_STATUS_EDGES m.val))) ∧
    (∀ (m : Fin 16) (rising : Bool) (held : Nat) (frac : Fin 64) (s : State),
      s.admits m.val rising held = true →
      s.on (F.CAPTURE_IN_CTRL_ENABLE m.val) = true →
      s.on (F.CAPTURE_IN_CTRL_PH_EN m.val) = false →
      (s.capFifo m.val).length < 16 →
      (∀ k < 8, s.rd (F.PH_CTRL_SOURCE k) = 4 → s.rd (F.PH_CTRL_SOURCE_INDEX k) ≠ m.val) →
      exec (.captureEdge m rising held frac) s = .next ((s.bumpW (F.CAPTURE_IN_STATUS_EDGES m.val)).setCapFifo m.val (s.capFifo m.val ++ [⟨mkTs128 (s.edgeFine m.val (s.rd (F.CAPTURE_IN_CTRL_TB m.val)) held frac.val * 2 ^ 32) (s.rd (F.CAPTURE_IN_CTRL_TB m.val)) false (s.tbHold (s.rd (F.CAPTURE_IN_CTRL_TB m.val))), 0, false⟩]))) ∧
    (∀ (r : Req) (m : Fin 16) (c : CapStamp) (rest : List CapStamp) (s : State),
      s.capFifo m.val = c :: rest →
      ∃ t, exec (.capSecRead r m) s = .next t ∧ t.rdata = BitVec.ofNat 64 (tsSec c.ts) ∧ t.capFifo m.val = rest ∧ mget capStamp0 t.time.capLatch (s.reqKey r * 16 + m.val) = c ∧ t.mem = s.mem) ∧
    (∀ (r : Req) (m : Fin 16) (s : State),
      s.capFifo m.val = [] →
      ∃ t, exec (.capSecRead r m) s = .next t ∧ t.rdata = 0x8000000000000000#64 ∧ mget capStamp0 t.time.capLatch (s.reqKey r * 16 + m.val) = ⟨0, 0, false⟩ ∧ t.csr = s.csr ∧ t.mem = s.mem) ∧
    (∀ (r : Req) (c : EvtEntry) (rest : List EvtEntry) (s : State),
      s.time.evt = c :: rest →
      ∃ t, exec (.evtSecRead r) s = .next t ∧ t.rdata = BitVec.ofNat 64 (tsSec c.ts) ∧ t.time.evt = rest ∧ mget evtEntry0 t.time.evtLatch (s.reqKey r) = c ∧ t.mem = s.mem) ∧
    (∀ (j : Fin 64) (ssi : Word) (ssiOk : Bool) (s : State),
      s.on (F.PE_CTRL_ARM j.val) = true →
      (s.pe j.val).due = true →
      (s.pe j.val).late = false →
      s.on (F.PE_CTRL_HOLD_SUPPRESS j.val) = false →
      exec (.peMatch j ssi ssiOk) s = .next ((s.peAct j.val (s.pe j.val) (ssi.toNat, ssiOk)).peAdvance j.val (s.pe j.val).step)) ∧
    (∀ (j : Fin 64) (ssi : Word) (ssiOk : Bool) (s : State),
      s.on (F.PE_CTRL_ARM j.val) = true →
      (s.pe j.val).due = true →
      (s.pe j.val).late = false →
      s.on (F.PE_CTRL_HOLD_SUPPRESS j.val) = true →
      tsHold (s.pe j.val).ts = true →
      exec (.peMatch j ssi ssiOk) s = .next ((s.bump (F.PE_STATUS_SKIPPED j.val)).peAdvance j.val (s.pe j.val).step)) ∧
    (∀ (r : Req) (j : Fin 64) (d : WData) (s : State),
      s.mayUse r (0x5300 + j.val) = true →
      s.on (F.PE_CTRL_ARM j.val) = false →
      bit (d.over (s.reg (R.PE_CTRL j.val))) 0 = true →
      exec (.peCtrlWrite r j d) s = .next ((s.writeReg (R.PE_CTRL j.val) d).peArmed j.val)) ∧
    (∀ (r : Req) (j : Fin 64) (d : WData) (s : State),
      s.mayUse r (0x5300 + j.val) = true →
      s.on (F.PE_CTRL_ARM j.val) = true →
      bit (d.over (s.reg (R.PE_CTRL j.val))) 0 = false →
      exec (.peCtrlWrite r j d) s = .next ((s.writeReg (R.PE_CTRL j.val) d).peDisarm j.val)) ∧
    (∀ (r : Req) (j : Fin 64) (d : WData) (s : State),
      s.mayUse r (0x5300 + j.val) = true →
      s.on (F.PE_CTRL_ARM j.val) = true →
      exec (.peRetargetWrite r j d) s = .next ((s.wr (F.PE_TARGET_TARGET j.val) d.bits1).peArmed j.val))

/-- Port events complete, with everything else unchanged. On an enabled and powered port: a frame start no slot takes is only counted,
and otherwise opens one item per slot; a line goes to its slot's open item; a frame end closes the items of its channel; a frame
time-out abandons the open item; Ethernet and CAN frames become a sample of their slot or one UNMATCHED count; SPI, encoder and GPIO
samples, link changes and CAN counters have the effect the rules give, and no other. -/
def Obligations.IngestPortsComplete : Prop :=
  (∀ (c : Fin 16) (vc : Fin 4) (frame : BitVec 16) (s : State),
      s.portLive 1 c.val = true →
      s.csiSlots c.val vc.val = [] →
      exec (.csiFrameStart c vc frame) s = .next (((s.csiLineReset c.val).setCsiSeen c.val ((s.csiSeen c.val).filter (fun x => x / 64 ≠ vc.val))).bump (F.CSI_STATUS_UNMATCHED c.val))) ∧
    (∀ (c : Fin 16) (vc : Fin 4) (frame : BitVec 16) (s : State),
      s.portLive 1 c.val = true →
      s.csiSlots c.val vc.val ≠ [] →
      exec (.csiFrameStart c vc frame) s = .next ((s.csiSlots c.val vc.val).foldl (fun a i => (a.abandonFrame i).openFrame i (a.stamp (a.rd (F.CSI_CTRL_TB c.val))) frame.toNat) ((s.csiLineReset c.val).setCsiSeen c.val ((s.csiSeen c.val).filter (fun x => x / 64 ≠ vc.val))))) ∧
    (∀ (c : Fin 16) (vc : Fin 4) (dt : Fin 64) (data : List Byte) (i : Nat) (s : State),
      s.portLive 1 c.val = true →
      s.csiTaker c.val vc.val dt.val = some i →
      exec (.csiLine c vc dt none data false false) s = .next (s.putRow i (s.stampAgo (s.rd (F.CSI_CTRL_TB c.val)) 0) data false)) ∧
    (∀ (c : Fin 16) (vc : Fin 4) (s : State),
      s.portLive 1 c.val = true →
      exec (.csiFrameEnd c vc) s = .next ((s.csiSlots c.val vc.val).foldl (fun a i => a.closeFrame i (some (a.stamp (a.rd (F.CSI_CTRL_TB c.val))))) s)) ∧
    (∀ (ix : Fin 32) (s : State),
      s.slotType ix.val = 1 →
      (s.q ix.val).opn.isSome = true →
      exec (.csiFrameTimeout ix) s = .next ((s.bump (F.CSI_STATUS_ABANDONED (s.slotPort ix.val))).closeFrame ix.val none)) ∧
    (∀ (c : Fin 16) (s : State),
      s.portLive 1 c.val = true →
      exec (.csiLinkUp c) s = .next (s.wr (F.CSI_STATUS_LINK_UP c.val) 1)) ∧
    (∀ (p : Fin 4) (frame : List Byte) (ago i : Nat) (s : State),
      s.portLive 2 p.val = true →
      frame.length + 4 ≤ 1522 →
      beField frame 12 2 ≠ 0x88F7 →
      beField frame 12 2 ≠ 0x8808 →
      s.ethSlot p.val frame = some i →
      exec (.ethFrameReceive p frame true ago) s = .next ((s.lidarObs i p.val ago frame).putSample i (s.ethStamp p.val (s.rd (F.ETH_CTRL_TB p.val)) ago) frame)) ∧
    (∀ (p : Fin 4) (frame : List Byte) (ago : Nat) (s : State),
      s.portLive 2 p.val = true →
      frame.length + 4 ≤ 1522 →
      beField frame 12 2 ≠ 0x88F7 →
      beField frame 12 2 ≠ 0x8808 →
      s.ethSlot p.val frame = none →
      exec (.ethFrameReceive p frame true ago) s = .next (s.bump (F.ETH_STATUS_UNMATCHED p.val))) ∧
    (∀ (p : Fin 4) (up : Bool) (s : State),
      exec (.ethLinkChange p up) s = .next (s.wr (F.ETH_STATUS_LINK_UP p.val) up.toNat)) ∧
    (∀ (b : Fin 8) (f : CanFrame) (ago : Nat) (s : State),
      s.portLive 3 b.val = true →
      f.fdf = true →
      s.rd (F.CAN_CTRL_FD b.val) = 0 →
      exec (.canFrameValid b f ago) s = .next (s.bump (F.CAN_STATUS_UNMATCHED b.val))) ∧
    (∀ (b : Fin 8) (f : CanFrame) (ago i : Nat) (s : State),
      s.portLive 3 b.val = true →
      f.fdf = false →
      f.ide = false →
      (s.pickSlot 3 b.val (fun k => canMatch (f.id.toNat % 2048) false (s.rd (F.STREAM_FILTER_ID k)) (s.rd (F.STREAM_FILTER_ID_MASK k)) (s.on (F.STREAM_FILTER_IDE k))) = some i) →
      exec (.canFrameValid b f ago) s = .next ((s.putSample i (s.stampAgo (s.rd (F.CAN_CTRL_TB b.val)) ago) (canPayload f)).tapSample 3 b.val (fun x => (s.putSample i (s.stampAgo (s.rd (F.CAN_CTRL_TB b.val)) ago) (canPayload f)).tapPasses x (f.id.toNat % 2048) false) (canPayload f) (s.stampAgo (s.rd (F.CAN_CTRL_TB b.val)) ago))) ∧
    (∀ (m : Fin 4) (i : Nat) (s : State),
      s.rd (F.SPI_CTRL_PERIOD_US m.val) ≠ 0 →
      s.portLive 4 m.val = true →
      (s.spi m.val).busy = false →
      (s.pickSlot 4 m.val (fun _ => true) = some i) →
      exec (.spiPeriodExpire m) s = .next ((s.openItem i (s.stamp (s.rd (F.SPI_CTRL_TB m.val))) 0).setSpi m.val ⟨true, s.stamp (s.rd (F.SPI_CTRL_TB m.val)), some i⟩)) ∧
    (∀ (m : Fin 16) (rising : Bool) (held : Nat) (frac : Fin 64) (s : State),
      s.admits m.val rising held = true →
      exec (.spiDrdyEdge m rising held frac) s = .next ((List.range 4).foldl (fun a i => if a.on (F.SPI_CTRL_TRIG_DRDY i) ∧ a.rd (F.SPI_CTRL_DRDY_INPUT i) = m.val then a.spiStart i (mkTs128 (a.edgeFine m.val (a.rd (F.SPI_CTRL_TB i)) held frac.val * 2 ^ 32) (a.rd (F.SPI_CTRL_TB i)) false (a.tbHold (a.rd (F.SPI_CTRL_TB i)))) else a) s)) ∧
    (∀ (m : Fin 4) (data : List Byte) (n : Nat) (s : State),
      (s.spi m.val).busy = true →
      (s.spi m.val).slot = none →
      n = clampN 1 256 (s.rd (F.SPI_CTRL_XFER_BYTES m.val)) →
      exec (.spiTransferEnd m data) s = .next ((s.setSpi m.val spi0).tapSample 4 m.val (fun _ => true) ((padTo n data).take n) (s.spi m.val).stamp)) ∧
    (∀ (e : Fin 8) (ssi : Word32) (ssiOk : Bool) (s : State),
      s.rd (F.ENC_CTRL_PERIOD_US e.val) ≠ 0 →
      exec (.encPeriodExpire e ssi ssiOk) s = .next (s.encLatch e.val (ssi.toNat, ssiOk))) ∧
    (∀ (e : Fin 8) (up : Bool) (s : State),
      s.portLive 5 e.val = true →
      s.on (F.ENC_CTRL_SSI e.val) = false →
      exec (.quadratureEdge e up true) s = .next ((s.setEnc e.val { s.enc e.val with err := true }).bump (F.ENC_STATUS_ERRORS e.val))) ∧
    (∀ (e : Fin 8) (s : State),
      s.portLive 5 e.val = true →
      s.on (F.ENC_CTRL_SSI e.val) = false →
      ∃ t, exec (.quadratureEdge e true false) s = .next t ∧ (t.enc e.val).pos = (s.enc e.val).pos + 1 ∧ (t.enc e.val).dir = true ∧ t.mem = s.mem ∧ t.iq = s.iq) ∧
    (∀ (levels : Word) (s : State),
      s.portPowered 6 0 = true →
      s.rd F.RFX_GPIO_OUT_EN_PINS = 0 →
      s.port.sampled = 0 →
      exec (.gpioInputEdge levels) s = .next (((List.range 32).foldl (fun a i => a.gpioItem ((levels.toNat &&& s.rd F.GPIO_STAMP_RISE_PINS) ||| (0 &&& s.rd F.GPIO_STAMP_FALL_PINS)) i) (({ s with port := { s.port with sampled := levels.toNat } } : State).wr F.GPIO_LEVEL_LEVELS levels.toNat)).reflexEval levels.toNat 0)) ∧
    (∀ (b : Fin 8) (tec rec : Nat) (s : State),
      255 < tec →
      ∃ t, exec (.canBusStateChange b tec rec false) s = .next t ∧ t.rd (F.CAN_STATUS_BUS_STATE b.val) = 2 ∧ t.rd (F.CAN_STATUS_TEC b.val) = 255 ∧ t.mem = s.mem)

/-- Queue and stream commands complete, with everything else unchanged. Item visibility, pause refresh and an expired expect window act
on their own queue or port; a head read by the reader returns the head word and advances READ, or returns the NV word; a cursor
write marks and rewinds; a RELEASE of a returned item frees it and all before it; a stream started or stopped by one who may write
it takes the write and what R76 adds. -/
def Obligations.IngestQueuesComplete : Prop :=
  (∀ (ix : Fin 32) (s : State),
      (∀ e ∈ (s.q ix.val).items, e.visible = true) →
      ∃ t, exec (.itemVisible ix) s = .next t ∧ t.q ix.val = { s.q ix.val with items := showFirst (s.q ix.val).items } ∧ t.csr = s.csr ∧ t.mem = s.mem) ∧
    (∀ (ix : Fin 32) (e : IqItem) (s : State),
      ((s.q ix.val).items.find? (fun e => !e.visible) = some e) →
      exec (.itemVisible ix) s = .next ((s.setQ ix.val { s.q ix.val with items := showFirst (s.q ix.val).items }).relayOut ix.val e)) ∧
    (∀ (p : Fin 4) (s : State),
      s.on (F.ETH_STATUS_PAUSING p.val) = true →
      ∃ t, exec (.pauseRefresh p) s = .next t ∧ t.rd (F.ETH_STATUS_PAUSES_SENT p.val) = (s.rd (F.ETH_STATUS_PAUSES_SENT p.val) + 1) % 2 ^ (F.ETH_STATUS_PAUSES_SENT p.val).w ∧ t.rd (F.ETH_STATUS_PAUSING p.val) = 1 ∧ t.mem = s.mem) ∧
    (∀ (ix : Fin 32) (ts : BitVec 128) (rest : List (BitVec 128)) (s : State),
      (s.q ix.val).expect = ts :: rest →
      s.slotRuns ix.val = true →
      s.on (F.STREAM_DETECT_EXPECT_EN ix.val) = true →
      (s.q ix.val).opn = none →
      exec (.expectWindowExpire ix) s = .next (((s.setQ ix.val { s.q ix.val with expect := rest }).takeSeq ix.val).putMissing ix.val (s.q ix.val).seq ts)) ∧
    (∀ (r : Req) (ix : Fin 32) (e : IqItem) (s : State),
      s.isReader r ix.val = true →
      s.iqHead ix.val = some e →
      exec (.iqHeadRead r ix) s = .next { s.setQ ix.val { s.q ix.val with read := (s.q ix.val).read + 1 } with rdata := BitVec.ofNat 64 (headWord ix.val e) }) ∧
    (∀ (r : Req) (ix : Fin 32) (s : State),
      s.isReader r ix.val = true →
      s.iqHead ix.val = none →
      exec (.iqHeadRead r ix) s = .next { s with rdata := 0x8000000000000000#64 }) ∧
    (∀ (r : Req) (i : Nat) (e : IqItem) (s : State),
      s.anyHead r = some i →
      s.iqHead i = some e →
      exec (.iqAnyHeadRead r) s = .next { s.setQ i { s.q i with read := (s.q i).read + 1 } with rdata := BitVec.ofNat 64 (headWord i e) }) ∧
    (∀ (r : Req) (ix : Fin 32) (d : WData) (s : State),
      s.isReader r ix.val = true →
      bit d.bits1 0 = true →
      bit d.bits1 1 = false →
      exec (.iqMark r ix d) s = .next (s.setQ ix.val { s.q ix.val with mark := (s.q ix.val).read })) ∧
    (∀ (r : Req) (ix : Fin 32) (d : WData) (s : State),
      s.isReader r ix.val = true →
      bit d.bits1 0 = false →
      bit d.bits1 1 = true →
      exec (.iqRewind r ix d) s = .next (s.setQ ix.val { s.q ix.val with read := (s.q ix.val).mark })) ∧
    (∀ (r : Req) (ix : Fin 32) (d : WData) (k : Nat) (s : State),
      s.isReader r ix.val = true →
      d.lowWritten = true →
      (((s.q ix.val).items.take (s.q ix.val).read).findIdx? (fun e => e.off = bits d.bits1 0 32) = some k) →
      exec (.iqReleaseWrite r ix d) s = .next (s.iqFree ix.val (k + 1))) ∧
    (∀ (r : Req) (d : WData) (c : Fin 16) (s : State),
      r.trusted = true →
      s.on (F.CSI_CTRL_ENABLE c.val) = false →
      (∀ i < 32, s.slotType i ≠ 1) →
      exec (.streamEnable r (.csi c) d) s = .next (s.writeReg (R.CSI_CTRL c.val) d)) ∧
    (∀ (r : Req) (d : WData) (i : Fin 32) (s : State),
      s.mayUse r (0x4000 + i.val) = true →
      s.slotEnabled i.val = false →
      (s.writeReg (R.STREAM_SRC i.val) d).slotEnabled i.val = true →
      exec (.streamEnable r (.slot i) d) s = .next ((s.writeReg (R.STREAM_SRC i.val) d).restartSlot i.val)) ∧
    (∀ (r : Req) (d : WData) (i : Fin 32) (s : State),
      s.mayUse r (0x4000 + i.val) = true →
      s.slotEnabled i.val = true →
      (s.writeReg (R.STREAM_SRC i.val) d).slotEnabled i.val = false →
      exec (.streamDisable r (.slot i) d) s = .next ((s.abortItem i.val).writeReg (R.STREAM_SRC i.val) d))

/-- Alignment engine commands complete; voxel engine commands complete. A build starts when every required stream is ready, or at the
deadline, takes the oldest instant and leaves a build in progress; a finished build with a free slot is written at its slot and is
no longer in progress, and with no slot free is dropped, counted and logged; a registration takes the oldest waiting sweep; a
release up to a held sequence number advances OLDEST_SEQ past it; the end of a drain makes the engine READY. A trigger comes from
the oldest offered bundle, or from a phase event's message; a build starts when the sources are ready, or at the deadline, takes the
oldest trigger and leaves a build in progress; a finished frame with no slot free is dropped, counted and logged, and otherwise
written; a release up to a held sequence number advances OLDEST_SEQ past it; the end of a drain makes the engine READY. -/
def Obligations.AlignmentAndVoxelComplete : Prop :=
  (∀ (ts : BitVec 128) (seq : Nat) (rest : List (BitVec 128 × Nat)) (s : State),
      s.aln.inst = (ts, seq) :: rest →
      s.alnIdle = true →
      s.alnReady (Machine.ts64 ts) = true →
      ∃ t, exec .bundleBuildStart s = .next t ∧ t = s.startBuild false ∧ t.aln.inst = rest ∧ t.aln.build.isSome = true) ∧
    (∀ (s : State),
      s.alnIdle = true →
      ∃ t, exec .bundleWaitExpire s = .next t ∧ t = s.startBuild true ∧ t.aln.inst = s.aln.inst.tail ∧ t.aln.build.isSome = true) ∧
    (∀ (b : AlnBundle) (s : State),
      s.aln.build = some b →
      s.alnSlots ≤ fwd (2 ^ 32) (s.rd F.ALN_RING_POS_OLDEST_SEQ) b.seq →
      exec .bundleEmit s = .next (((s.bump F.ALN_COUNTS_BUNDLE_DROPS).event 0x6000 0x4003 b.seq [0]).setAln { s.aln with build := none, dropped := s.aln.dropped ++ [b.seq] })) ∧
    (∀ (b : AlnBundle) (s : State),
      s.aln.build = some b →
      fwd (2 ^ 32) (s.rd F.ALN_RING_POS_OLDEST_SEQ) b.seq < s.alnSlots →
      ∃ t, exec .bundleEmit s = .next t ∧ t = s.emitBundle ∧ t.aln.build = none) ∧
    (∀ (sw : RegSweep) (rest : List RegSweep) (s : State),
      s.aln.sweeps = sw :: rest →
      ∃ t, exec .registrationDone s = .next t ∧ t = ({ s with aln := { s.aln with sweeps := rest } } : State).regDone sw ∧ t.aln.sweeps = rest ∧ t.mem = s.mem) ∧
    (∀ (r : Req) (d : WData) (s : State),
      s.mayUse r 0x6000 = true →
      d.lowWritten = true →
      seqHeld (s.rd F.ALN_RING_POS_OLDEST_SEQ) (s.rd F.ALN_RING_POS_NEXT_SEQ) (bits d.bits1 0 32) = true →
      ∃ t, exec (.alnReleaseWrite r d) s = .next t ∧ t = s.alnReleaseTo (bits d.bits1 0 32) ∧ t.rd F.ALN_RING_POS_OLDEST_SEQ = (bits d.bits1 0 32 + 1) % 2 ^ 32) ∧
    (∀ (s : State),
      s.ustate 0x6000 = US.resetting →
      exec .alnResetDone s = .next (s.setUstate 0x6000 US.ready)) ∧
    (∀ (q : Nat) (rest : List Nat) (b : AlnBundle) (s : State),
      s.vox.offered = q :: rest →
      s.bundleAt q = some b →
      exec .voxTrigger s = .next (({ s with vox := { s.vox with offered := rest } } : State).voxTrigger b.stamp (some q))) ∧
    (∀ (m : Msg) (s : State),
      s.vox.offered = [] →
      s.net.find? isVoxNotify = some m →
      s.rd F.VOX_CFG_TRIGGER = 1 →
      exec .voxTrigger s = .next (({ s with net := s.net.erase m } : State).voxTrigger (BitVec.ofNat 128 (field m.payload 16 16)) none)) ∧
    (∀ (v : VoxTrig) (rest : List VoxTrig) (s : State),
      s.vox.trig = v :: rest →
      s.voxIdle = true →
      s.voxReady v = true →
      ∃ t, exec .voxBuildStart s = .next t ∧ t = s.voxStart false ∧ t.vox.trig = rest ∧ t.vox.build.isSome = true) ∧
    (∀ (s : State),
      s.voxIdle = true →
      ∃ t, exec .voxWaitExpire s = .next t ∧ t = s.voxStart true ∧ t.vox.trig = s.vox.trig.tail ∧ t.vox.build.isSome = true) ∧
    (∀ (f : VoxFrame) (s : State),
      s.vox.build = some f →
      ∃ t, exec .voxFrameEmit s = .next t ∧ t = s.emitFrame ∧ t.vox.build = none) ∧
    (∀ (r : Req) (d : WData) (s : State),
      s.mayUse r 0x7000 = true →
      d.lowWritten = true →
      fwd (2 ^ 32) (s.rd F.VOX_OUT_POS_OLDEST_SEQ) (bits d.bits1 0 32) < fwd (2 ^ 32) (s.rd F.VOX_OUT_POS_OLDEST_SEQ) (s.rd F.VOX_OUT_POS_NEXT_SEQ) →
      exec (.voxReleaseWrite r d) s = .next (s.wr F.VOX_OUT_POS_OLDEST_SEQ (bits d.bits1 0 32 + 1))) ∧
    (∀ (s : State),
      s.ustate 0x7000 = US.resetting →
      exec .voxResetDone s = .next (s.setUstate 0x7000 US.ready))

/-- Reflex and egress commands complete, with everything else unchanged. A running pulse ends with its pin low; a write of LATCHED
rearms; a SEND fills its slot; a MAC or CAN FD controller sends the frame its gates, classes and identifiers choose; gate control
advances; a dropped item is counted and logged and no longer waits; the hold generator fills the CASTLE slots of HOLD_SLOTS. -/
def Obligations.ReflexAndEgressComplete : Prop :=
  (∀ (g : Fin 64) (s : State),
      mget 0 s.rfx.pulse g.val ≠ 0 →
      exec (.rulePulseEnd g) s = .next (({ s with rfx := { s.rfx with pulse := mset 0 s.rfx.pulse g.val 0 } } : State).drivePin g.val false)) ∧
    (∀ (r : Req) (d : WData) (s : State),
      s.mayUse r 0x9000 = true →
      exec (.rfxLatchedWrite r d) s = .next (s.writeReg R.RFX_LATCHED d)) ∧
    (∀ (r : Req) (ix : Fin 32) (d : WData) (s : State),
      s.mayUse r 0x9000 = true →
      s.rd (F.EG_CFG_SOURCE ix.val) = 2 →
      bit d.bits1 0 = true →
      s.egOpen ix.val = true →
      s.egTentative ix.val = false →
      (s.eg ix.val).wait = none →
      ∃ t, exec (.egSendWrite r ix d) s = .next t ∧ (t.eg ix.val).wait = some ⟨s.egFrame ix.val, s.rfx.order⟩ ∧ t.csr = s.csr ∧ t.mem = s.mem) ∧
    (∀ (p : Fin 4) (i : Nat) (b : List Byte) (s : State),
      s.rfxRuns = true →
      s.portPowered 2 p.val = true →
      mget 0 s.rfx.held p.val ≤ s.now →
      s.egPick p.val = some (i, b) →
      ∃ t, exec (.egressFrameStart p) s = .next t ∧ t = s.egSent i p.val b ∧ (t.eg i).wait = none ∧ mget [] t.rfx.sent p.val = b ∧ t.mem = s.mem) ∧
    (∀ (b : Fin 8) (i : Nat) (c : List Byte) (s : State),
      s.rfxRuns = true →
      s.portPowered 3 b.val = true →
      s.on (F.CAN_CTRL_ENABLE b.val) = true →
      s.rd (F.CAN_CTRL_LISTEN_ONLY b.val) = 0 →
      s.rd (F.CAN_STATUS_BUS_STATE b.val) ≠ 2 →
      s.canPick b.val = some (i, c) →
      ∃ t, exec (.canTransmit b) s = .next t ∧ t = s.egSent i (8 + b.val) c ∧ (t.eg i).wait = none ∧ mget [] t.rfx.sent (8 + b.val) = c ∧ t.mem = s.mem) ∧
    (∀ (p : Fin 4) (s : State),
      s.on (F.EG_GCL_CTRL_ENABLE p.val) = true →
      (s.gcl p.val).running = true →
      s.rd (F.EG_GCL_STATUS_ENTRY p.val) + 1 < (s.gcl p.val).list.length →
      (s.gcl p.val).steps = s.rd (F.TB_STATUS_STEPS (s.rd (F.EG_GCL_CTRL_TB p.val))) →
      exec (.gclEntryAdvance p) s = .next ((s.setGcl p.val { s.gcl p.val with entryAt := (s.gcl p.val).entryAt + ((s.gcl p.val).list.getD (s.rd (F.EG_GCL_STATUS_ENTRY p.val)) (0, 0)).2 }).wr (F.EG_GCL_STATUS_ENTRY p.val) (s.rd (F.EG_GCL_STATUS_ENTRY p.val) + 1))) ∧
    (∀ (s : State),
      exec (.egressDrop none) s = .next ((s.bump F.EGRESS_DROPS_COUNT).event 0xC200 0x4001 0xC200 [0xFF])) ∧
    (∀ (i : Fin 32) (s : State),
      (s.eg i.val).wait.isSome = true →
      s.on (F.EG_CFG_PORT_TYPE i.val) = false →
      exec (.egressDrop (some i)) s = .next ((((s.setEg i.val { s.eg i.val with wait := none }).bump (F.EG_STATUS_DROPS i.val)).bump F.EGRESS_DROPS_COUNT).event (0x4200 + s.rd (F.EG_CFG_PORT i.val)) 0x4001 (0x4200 + s.rd (F.EG_CFG_PORT i.val)) [i.val])) ∧
    (∀ (s : State),
      s.on F.SAFE_STATUS_HOLD_GEN = true →
      s.on F.SAFE_STATUS_SAFE_HOLD = true →
      exec .holdGeneratorFill s = .next ((bitList (s.rd F.SAFE_CFG_HOLD_SLOTS) 32).foldl (fun a i => if a.rd (F.EG_CFG_SOURCE i) = 3 then (a.egFill i).2 else a) s))

/-- Tensor instructions of a square's sequencer complete. A square whose sequencer issues, with no interrupt pending and enabled, and
whose pc names a tensor instruction, runs it: an operation whose descriptor lies aligned in its store takes the lowest free tag and
enters the tensor queue; SEND forms the message of its header; RECV takes the highest-priority message; WAIT with no tag outstanding
frees its tags and returns the first error status; POLL returns the done tags; FENCE, HALT and REST do as R143, R145 and R161 say.
Every step but a blocked one ends with rd written and the pc 4 further. -/
def Obligations.SequencerTensorComplete : Prop :=
  (∀ (n : Fin 64) (w k : Nat) (s : State),
      s.AtTx n.val w .mm →
      ((s.sqr n.val).rx (bits w 15 5)) % 64 = 0 →
      s.storeBadRange n.val ((s.sqr n.val).rx (bits w 15 5)) 64 = false →
      (s.sqr n.val).txq.length < 16 →
      (s.sqr n.val).freeTag = some k →
      exec (.txMm n) s = .next ((((s.unfenced n.val).setSq n.val ((((s.unfenced n.val).sqr n.val)).setTag k ⟨1, 0, none⟩)).setTxq n.val ((((s.unfenced n.val).setSq n.val ((((s.unfenced n.val).sqr n.val)).setTag k ⟨1, 0, none⟩)).sqr n.val).txq ++ [⟨0, false, 0, ((s.sqr n.val).rx (bits w 15 5)), s.bytes (storeBase n.val + ((s.sqr n.val).rx (bits w 15 5))) 64, k, false, none, none⟩])).txDone n.val w k)) ∧
    (∀ (n : Fin 64) (w k : Nat) (s : State),
      s.AtTx n.val w .wload →
      ((s.sqr n.val).rx (bits w 15 5)) % 64 = 0 →
      s.storeBadRange n.val ((s.sqr n.val).rx (bits w 15 5)) 64 = false →
      (s.sqr n.val).txq.length < 16 →
      (s.sqr n.val).freeTag = some k →
      exec (.txWload n) s = .next ((((s.unfenced n.val).setSq n.val ((((s.unfenced n.val).sqr n.val)).setTag k ⟨1, 0, none⟩)).setTxq n.val ((((s.unfenced n.val).setSq n.val ((((s.unfenced n.val).sqr n.val)).setTag k ⟨1, 0, none⟩)).sqr n.val).txq ++ [⟨1, false, 0, ((s.sqr n.val).rx (bits w 15 5)), s.bytes (storeBase n.val + ((s.sqr n.val).rx (bits w 15 5))) 64, k, false, none, none⟩])).txDone n.val w k)) ∧
    (∀ (n : Fin 64) (w k : Nat) (s : State),
      s.AtTx n.val w .quant →
      ((s.sqr n.val).rx (bits w 15 5)) % 64 = 0 →
      s.storeBadRange n.val ((s.sqr n.val).rx (bits w 15 5)) 64 = false →
      (s.sqr n.val).txq.length < 16 →
      (s.sqr n.val).freeTag = some k →
      exec (.txQuant n) s = .next ((((s.unfenced n.val).setSq n.val ((((s.unfenced n.val).sqr n.val)).setTag k ⟨1, 0, none⟩)).setTxq n.val ((((s.unfenced n.val).setSq n.val ((((s.unfenced n.val).sqr n.val)).setTag k ⟨1, 0, none⟩)).sqr n.val).txq ++ [⟨2, true, 0, ((s.sqr n.val).rx (bits w 15 5)), s.bytes (storeBase n.val + ((s.sqr n.val).rx (bits w 15 5))) 64, k, false, none, none⟩])).txDone n.val w k)) ∧
    (∀ (n : Fin 64) (w k : Nat) (s : State),
      s.AtTx n.val w .dma →
      ((s.sqr n.val).rx (bits w 15 5)) % 64 = 0 →
      s.storeBadRange n.val ((s.sqr n.val).rx (bits w 15 5)) 64 = false →
      (s.sqr n.val).txq.length < 16 →
      (s.sqr n.val).freeTag = some k →
      exec (.txDma n) s = .next ((((s.unfenced n.val).setSq n.val ((((s.unfenced n.val).sqr n.val)).setTag k ⟨1, 0, none⟩)).setTxq n.val ((((s.unfenced n.val).setSq n.val ((((s.unfenced n.val).sqr n.val)).setTag k ⟨1, 0, none⟩)).sqr n.val).txq ++ [⟨4, false, 0, ((s.sqr n.val).rx (bits w 15 5)), s.bytes (storeBase n.val + ((s.sqr n.val).rx (bits w 15 5))) 64, k, false, none, none⟩])).txDone n.val w k)) ∧
    (∀ (n : Fin 64) (w : Nat) (s : State),
      s.AtTx n.val w .poll →
      exec (.txPoll n) s = .next ((s.unfenced n.val).txDone n.val w (((s.unfenced n.val).sqr n.val).rx (bits w 15 5) &&& ((s.unfenced n.val).sqr n.val).doneMask))) ∧
    (∀ (n : Fin 64) (w : Nat) (s : State),
      s.AtTx n.val w .wait →
      (s.sqr n.val).outMask &&& ((s.sqr n.val).rx (bits w 15 5)) = 0 →
      (∀ k < 32, ((s.sqr n.val).tag k).st = 2 → ((s.sqr n.val).tag k).status = St.ok) →
      exec (.txWait n) s = .next (((s.unfenced n.val).setSq n.val (((s.unfenced n.val).sqr n.val).freeTags ((s.sqr n.val).rx (bits w 15 5)))).txDone n.val w St.ok)) ∧
    (∀ (n : Fin 64) (w : Nat) (s : State),
      s.AtTx n.val w .wait →
      (s.sqr n.val).outMask &&& ((s.sqr n.val).rx (bits w 15 5)) ≠ 0 →
      exec (.txWait n) s = .next ((s.unfenced n.val).wr (F.SQ_STATE_RUN n.val) runWaiting)) ∧
    (∀ (n : Fin 64) (w : Nat) (s : State),
      s.AtTx n.val w .fence →
      exec (.txFence n) s = .next ((s.setSq n.val { s.sqr n.val with fence := true }).txDone n.val w 0)) ∧
    (∀ (n : Fin 64) (w : Nat) (s : State),
      s.AtTx n.val w .halt →
      exec (.txHalt n) s = .next (((s.unfenced n.val).txDone n.val w 0).sqStopIssue n.val)) ∧
    (∀ (n : Fin 64) (w : Nat) (s : State),
      s.AtTx n.val w .rest →
      s.on (F.SQ_CFG_REST_EN n.val) = true →
      s.on (F.SQ_REST_REQUEST n.val) = true →
      exec (.txRest n) s = .next ((s.unfenced n.val).sqRestAt n.val (some (bits w 7 5)) false)) ∧
    (∀ (n : Fin 64) (w : Nat) (s : State),
      s.AtTx n.val w (.recv false) →
      ((s.sqr n.val).rx (bits w 15 5)) % 64 = 0 →
      s.storeBadRange n.val ((s.sqr n.val).rx (bits w 15 5)) 16 = false →
      (s.sqr n.val).pickQueue ((s.sqr n.val).rx (bits w 20 5) % 256) = none →
      exec (.txRecv n) s = .next ((s.unfenced n.val).txDone n.val w 0x80000000)) ∧
    (∀ (n : Fin 64) (w p : Nat) (m : Msg) (rest : List Msg) (s : State),
      s.AtTx n.val w (.recv false) →
      ((s.sqr n.val).rx (bits w 15 5)) % 64 = 0 →
      (s.sqr n.val).pickQueue ((s.sqr n.val).rx (bits w 20 5) % 256) = some p →
      (s.sqr n.val).inbound p = m :: rest →
      m.kind = 1 →
      m.payload.length ≤ (if bits ((s.sqr n.val).rx (bits w 20 5)) 16 13 = 0 then 4096 else bits ((s.sqr n.val).rx (bits w 20 5)) 16 13) →
      s.storeBadRange n.val ((s.sqr n.val).rx (bits w 15 5)) 16 = false →
      s.storeBadRange n.val ((s.sqr n.val).rx (bits w 15 5)) (16 + m.payload.length) = false →
      exec (.txRecv n) s = .next (((((s.unfenced n.val).setInq n.val p rest).store (storeBase n.val + ((s.sqr n.val).rx (bits w 15 5))) (toBytes 16 (msgHeader m) ++ m.payload)).bumpW (F.SQ_MSG_COUNTS_RECEIVED n.val)).txDone n.val w (m.payload.length + p * 2 ^ 13 + m.poison.toNat * 2 ^ 29))) ∧
    (∀ (n : Fin 64) (w h : Nat) (s : State),
      s.AtTx n.val w .send →
      ((s.sqr n.val).rx (bits w 15 5)) % 64 = 0 →
      s.storeBadRange n.val ((s.sqr n.val).rx (bits w 15 5)) 16 = false →
      h = s.ld (storeBase n.val + ((s.sqr n.val).rx (bits w 15 5))) 16 →
      s.storeBadRange n.val ((s.sqr n.val).rx (bits w 15 5)) (16 + bits h 80 13) = false →
      bits h 80 13 ≤ 4096 →
      bits h 46 2 = 1 →
      bits h 40 3 = 3 →
      bits h 16 3 = s.moduleNo →
      bits h 0 16 / 0x1000 ≠ 1 →
      exec (.txSend n) s = .next ((((s.unfenced n.val).bumpW (F.SQ_MSG_COUNTS_SENT n.val)).send ⟨bits h 0 16, bits h 16 3, s.badAt (storeBase n.val + ((s.sqr n.val).rx (bits w 15 5)) + 16) (bits h 80 13), sqUnit n.val, s.moduleNo, 3, bits h 43 3, 1, bits h 48 8, 0xFF, s.epochOf (sqUnit n.val), (s.unitPart (sqUnit n.val)).getD 0, 0, bits h 104 8, bits h 112 16, s.bytes (storeBase n.val + ((s.sqr n.val).rx (bits w 15 5)) + 16) (bits h 80 13)⟩).txDone n.val w 0xFF))

/-- The RV32IMC sequencer completes. Where a square's sequencer issues with no interrupt pending and the pc names a word of RV32IMC that
is not a tensor instruction, RV_INSTRUCTION gives the state the base instruction gives, or the trap it raises; a word that is no
legal instruction traps with cause 2. -/
def Obligations.SequencerBaseComplete : Prop :=
  (∀ (n : Fin 64) (raw w len : Nat) (a s : State),
      s.AtRv n.val raw w len →
      s.rvBase n.val raw w len = .ok a →
      exec (.rvInstruction n) s = .next (a)) ∧
    (∀ (n : Fin 64) (raw w len c v : Nat) (s : State),
      s.AtRv n.val raw w len →
      s.rvBase n.val raw w len = .trap c v →
      exec (.rvInstruction n) s = .next (s.sqTrap n.val c v false))

/-- Each function of the vector unit completes. For each of the 28 functions: where the oldest operation of square n's vector unit is
started, is no TX.QUANT, carries the function's code and has no result yet, the command performs that function on the operation's
descriptor, writes its STATUS word and leaves the status with the operation, and nothing else. -/
def Obligations.VectorFunctionsComplete : Prop :=
  (∀ (n : Fin 64) (o : TxOp) (s : State),
      (s.sqr n.val).inProgress 2 = some o →
      o.quant = false →
      o.fn = 0x00 →
      o.result = none →
      exec (.vConvert n) s = .next (performed n.val o (s.vecOp n.val 0x00 o.desc))) ∧
    (∀ (n : Fin 64) (o : TxOp) (s : State),
      (s.sqr n.val).inProgress 2 = some o →
      o.quant = false →
      o.fn = 0x01 →
      o.result = none →
      exec (.vAdd n) s = .next (performed n.val o (s.vecOp n.val 0x01 o.desc))) ∧
    (∀ (n : Fin 64) (o : TxOp) (s : State),
      (s.sqr n.val).inProgress 2 = some o →
      o.quant = false →
      o.fn = 0x02 →
      o.result = none →
      exec (.vSub n) s = .next (performed n.val o (s.vecOp n.val 0x02 o.desc))) ∧
    (∀ (n : Fin 64) (o : TxOp) (s : State),
      (s.sqr n.val).inProgress 2 = some o →
      o.quant = false →
      o.fn = 0x03 →
      o.result = none →
      exec (.vMul n) s = .next (performed n.val o (s.vecOp n.val 0x03 o.desc))) ∧
    (∀ (n : Fin 64) (o : TxOp) (s : State),
      (s.sqr n.val).inProgress 2 = some o →
      o.quant = false →
      o.fn = 0x04 →
      o.result = none →
      exec (.vFma n) s = .next (performed n.val o (s.vecOp n.val 0x04 o.desc))) ∧
    (∀ (n : Fin 64) (o : TxOp) (s : State),
      (s.sqr n.val).inProgress 2 = some o →
      o.quant = false →
      o.fn = 0x05 →
      o.result = none →
      exec (.vMax n) s = .next (performed n.val o (s.vecOp n.val 0x05 o.desc))) ∧
    (∀ (n : Fin 64) (o : TxOp) (s : State),
      (s.sqr n.val).inProgress 2 = some o →
      o.quant = false →
      o.fn = 0x06 →
      o.result = none →
      exec (.vMin n) s = .next (performed n.val o (s.vecOp n.val 0x06 o.desc))) ∧
    (∀ (n : Fin 64) (o : TxOp) (s : State),
      (s.sqr n.val).inProgress 2 = some o →
      o.quant = false →
      o.fn = 0x07 →
      o.result = none →
      exec (.vAbs n) s = .next (performed n.val o (s.vecOp n.val 0x07 o.desc))) ∧
    (∀ (n : Fin 64) (o : TxOp) (s : State),
      (s.sqr n.val).inProgress 2 = some o →
      o.quant = false →
      o.fn = 0x10 →
      o.result = none →
      exec (.vRelu n) s = .next (performed n.val o (s.vecOp n.val 0x10 o.desc))) ∧
    (∀ (n : Fin 64) (o : TxOp) (s : State),
      (s.sqr n.val).inProgress 2 = some o →
      o.quant = false →
      o.fn = 0x11 →
      o.result = none →
      exec (.vLeakyRelu n) s = .next (performed n.val o (s.vecOp n.val 0x11 o.desc))) ∧
    (∀ (n : Fin 64) (o : TxOp) (s : State),
      (s.sqr n.val).inProgress 2 = some o →
      o.quant = false →
      o.fn = 0x12 →
      o.result = none →
      exec (.vGeluTanh n) s = .next (performed n.val o (s.vecOp n.val 0x12 o.desc))) ∧
    (∀ (n : Fin 64) (o : TxOp) (s : State),
      (s.sqr n.val).inProgress 2 = some o →
      o.quant = false →
      o.fn = 0x13 →
      o.result = none →
      exec (.vGeluErf n) s = .next (performed n.val o (s.vecOp n.val 0x13 o.desc))) ∧
    (∀ (n : Fin 64) (o : TxOp) (s : State),
      (s.sqr n.val).inProgress 2 = some o →
      o.quant = false →
      o.fn = 0x14 →
      o.result = none →
      exec (.vSilu n) s = .next (performed n.val o (s.vecOp n.val 0x14 o.desc))) ∧
    (∀ (n : Fin 64) (o : TxOp) (s : State),
      (s.sqr n.val).inProgress 2 = some o →
      o.quant = false →
      o.fn = 0x15 →
      o.result = none →
      exec (.vSigmoid n) s = .next (performed n.val o (s.vecOp n.val 0x15 o.desc))) ∧
    (∀ (n : Fin 64) (o : TxOp) (s : State),
      (s.sqr n.val).inProgress 2 = some o →
      o.quant = false →
      o.fn = 0x16 →
      o.result = none →
      exec (.vTanh n) s = .next (performed n.val o (s.vecOp n.val 0x16 o.desc))) ∧
    (∀ (n : Fin 64) (o : TxOp) (s : State),
      (s.sqr n.val).inProgress 2 = some o →
      o.quant = false →
      o.fn = 0x20 →
      o.result = none →
      exec (.vExp n) s = .next (performed n.val o (s.vecOp n.val 0x20 o.desc))) ∧
    (∀ (n : Fin 64) (o : TxOp) (s : State),
      (s.sqr n.val).inProgress 2 = some o →
      o.quant = false →
      o.fn = 0x21 →
      o.result = none →
      exec (.vExp2 n) s = .next (performed n.val o (s.vecOp n.val 0x21 o.desc))) ∧
    (∀ (n : Fin 64) (o : TxOp) (s : State),
      (s.sqr n.val).inProgress 2 = some o →
      o.quant = false →
      o.fn = 0x22 →
      o.result = none →
      exec (.vLog n) s = .next (performed n.val o (s.vecOp n.val 0x22 o.desc))) ∧
    (∀ (n : Fin 64) (o : TxOp) (s : State),
      (s.sqr n.val).inProgress 2 = some o →
      o.quant = false →
      o.fn = 0x23 →
      o.result = none →
      exec (.vRecip n) s = .next (performed n.val o (s.vecOp n.val 0x23 o.desc))) ∧
    (∀ (n : Fin 64) (o : TxOp) (s : State),
      (s.sqr n.val).inProgress 2 = some o →
      o.quant = false →
      o.fn = 0x24 →
      o.result = none →
      exec (.vSqrt n) s = .next (performed n.val o (s.vecOp n.val 0x24 o.desc))) ∧
    (∀ (n : Fin 64) (o : TxOp) (s : State),
      (s.sqr n.val).inProgress 2 = some o →
      o.quant = false →
      o.fn = 0x25 →
      o.result = none →
      exec (.vRsqrt n) s = .next (performed n.val o (s.vecOp n.val 0x25 o.desc))) ∧
    (∀ (n : Fin 64) (o : TxOp) (s : State),
      (s.sqr n.val).inProgress 2 = some o →
      o.quant = false →
      o.fn = 0x26 →
      o.result = none →
      exec (.vDiv n) s = .next (performed n.val o (s.vecOp n.val 0x26 o.desc))) ∧
    (∀ (n : Fin 64) (o : TxOp) (s : State),
      (s.sqr n.val).inProgress 2 = some o →
      o.quant = false →
      o.fn = 0x30 →
      o.result = none →
      exec (.vRsum n) s = .next (performed n.val o (s.vecOp n.val 0x30 o.desc))) ∧
    (∀ (n : Fin 64) (o : TxOp) (s : State),
      (s.sqr n.val).inProgress 2 = some o →
      o.quant = false →
      o.fn = 0x31 →
      o.result = none →
      exec (.vRmax n) s = .next (performed n.val o (s.vecOp n.val 0x31 o.desc))) ∧
    (∀ (n : Fin 64) (o : TxOp) (s : State),
      (s.sqr n.val).inProgress 2 = some o →
      o.quant = false →
      o.fn = 0x32 →
      o.result = none →
      exec (.vRargmax n) s = .next (performed n.val o (s.vecOp n.val 0x32 o.desc))) ∧
    (∀ (n : Fin 64) (o : TxOp) (s : State),
      (s.sqr n.val).inProgress 2 = some o →
      o.quant = false →
      o.fn = 0x40 →
      o.result = none →
      exec (.vSoftmax n) s = .next (performed n.val o (s.vecOp n.val 0x40 o.desc))) ∧
    (∀ (n : Fin 64) (o : TxOp) (s : State),
      (s.sqr n.val).inProgress 2 = some o →
      o.quant = false →
      o.fn = 0x48 →
      o.result = none →
      exec (.vRmsnorm n) s = .next (performed n.val o (s.vecOp n.val 0x48 o.desc))) ∧
    (∀ (n : Fin 64) (o : TxOp) (s : State),
      (s.sqr n.val).inProgress 2 = some o →
      o.quant = false →
      o.fn = 0x49 →
      o.result = none →
      exec (.vLayernorm n) s = .next (performed n.val o (s.vecOp n.val 0x49 o.desc)))

/-- Tensor queue and DMA port commands complete; each operation of the move unit completes. A started operation whose result is known
completes: it leaves the queue and its tag is done with that status; the next operation of a free unit, waiting for nothing, starts;
the DMA port issues the next burst of its oldest transfer with one left, while fewer than 32 fly; the answer to a burst is taken by
its transfer. For each of the six operations: where the oldest operation of square n's move unit is started, carries the operation's
code and has no result yet, the command performs that operation on the descriptor, writes its STATUS word and leaves the status with
the operation, and nothing else. -/
def Obligations.TensorQueueAndMovesComplete : Prop :=
  (∀ (n : Fin 64) (l : Fin 5) (o : TxOp) (s : State),
      s.serving (sqUnit n.val) = true →
      (s.sqr n.val).laneFree l.val = true →
      (((s.sqr n.val).lane l.val).find? (fun o => !o.started) = some o) →
      (s.sqr n.val).weightsOrder o = true →
      (s.sqr n.val).waits o = false →
      exec (.tensorOpStart n l) s = .next (s.txStart n.val o)) ∧
    (∀ (n : Fin 64) (t : Fin 32) (o : TxOp) (st : Nat) (s : State),
      ((s.sqr n.val).txq.find? (fun o => decide (o.tag = t.val)) = some o) →
      o.started = true →
      s.serving (sqUnit n.val) = true →
      o.xfer = none →
      o.result = some st →
      exec (.tensorOpComplete n t) s = .next (((s.setTxq n.val ((s.sqr n.val).txq.filter (fun x => x.tag ≠ o.tag))).sqTagDone n.val o.tag st).sqDrained n.val)) ∧
    (∀ (n : Fin 64) (o : TxOp) (s : State),
      s.serving (sqUnit n.val) = true →
      (s.sqr n.val).flying < 32 →
      (((s.sqr n.val).lane laneDma).find? (fun o => match o.xfer with | some x => !x.todo.isEmpty | none => false) = some o) →
      exec (.dmaBurstIssue n) s = .next (s.setSq n.val ((s.sqr n.val).replaceOp { o with xfer := o.xfer.map (s.xferIssue (some n.val)) }))) ∧
    (∀ (n : Fin 64) (t k : Fin 32) (st : Fin 13) (data : List Byte) (poison : Bool) (o : TxOp) (y : Xfer) (s : State),
      ((s.sqr n.val).txq.find? (fun o => decide (o.tag = t.val) && o.xfer.isSome) = some o) →
      o.xfer = some y →
      exec (.dmaBurstAnswer n t k st data poison) s = .next ((s.xferAnswer (s.masterOf (sqUnit n.val)) y k.val ⟨st.val, data, poison⟩).2.setSq n.val (((s.xferAnswer (s.masterOf (sqUnit n.val)) y k.val ⟨st.val, data, poison⟩).2.sqr n.val).replaceOp { o with xfer := some (s.xferAnswer (s.masterOf (sqUnit n.val)) y k.val ⟨st.val, data, poison⟩).1 }))) ∧
    (∀ (n : Fin 64) (o : TxOp) (s : State),
      (s.sqr n.val).inProgress 3 = some o →
      o.fn = 0 →
      o.result = none →
      exec (.mvCopy n) s = .next (performed n.val o (s.moveOp n.val 0 o.desc))) ∧
    (∀ (n : Fin 64) (o : TxOp) (s : State),
      (s.sqr n.val).inProgress 3 = some o →
      o.fn = 1 →
      o.result = none →
      exec (.mvTranspose n) s = .next (performed n.val o (s.moveOp n.val 1 o.desc))) ∧
    (∀ (n : Fin 64) (o : TxOp) (s : State),
      (s.sqr n.val).inProgress 3 = some o →
      o.fn = 2 →
      o.result = none →
      exec (.mvGather n) s = .next (performed n.val o (s.moveOp n.val 2 o.desc))) ∧
    (∀ (n : Fin 64) (o : TxOp) (s : State),
      (s.sqr n.val).inProgress 3 = some o →
      o.fn = 3 →
      o.result = none →
      exec (.mvScatter n) s = .next (performed n.val o (s.moveOp n.val 3 o.desc))) ∧
    (∀ (n : Fin 64) (o : TxOp) (s : State),
      (s.sqr n.val).inProgress 3 = some o →
      o.fn = 4 →
      o.result = none →
      exec (.mvScatterAdd n) s = .next (performed n.val o (s.moveOp n.val 4 o.desc))) ∧
    (∀ (n : Fin 64) (o : TxOp) (s : State),
      (s.sqr n.val).inProgress 3 = some o →
      o.fn = 5 →
      o.result = none →
      exec (.mvFill n) s = .next (performed n.val o (s.moveOp n.val 5 o.desc)))

/-- Square control commands complete. For a writer of the block: START in READY sets the pc, BUSY and RUNNING; HALT in BUSY starts
draining; LOAD in READY acts at once where 2 us have passed; RESET enters RESETTING; EVENT is set and cleared; the ends of a load
and of RESETTING leave the pc at SQ_ENTRY; a posted answer of the square's epoch is counted. -/
def Obligations.SquareControlComplete : Prop :=
  (∀ (r : Req) (n : Fin 64) (d : WData) (s : State),
      s.sqWriter r n.val = true →
      (d.withBit 1).bits1 % 32 = 2 →
      s.ustate (sqUnit n.val) = US.ready →
      s.epochHeld (sqUnit n.val) = false →
      (s.sqr n.val).loading = none →
      (s.sqr n.val).fresh = true →
      s.rd (F.SQ_ENTRY_ENTRY n.val) < storeSize →
      exec (.sqStart r n d) s = .next (((s.setSq n.val { s.sqr n.val with pc := s.rd (F.SQ_ENTRY_ENTRY n.val), fresh := false }).setUstate (sqUnit n.val) US.busy).wr (F.SQ_STATE_RUN n.val) runRunning)) ∧
    (∀ (r : Req) (n : Fin 64) (d : WData) (s : State),
      s.sqWriter r n.val = true →
      (d.withBit 2).bits1 % 32 = 4 →
      s.ustate (sqUnit n.val) = US.busy →
      s.sqRun n.val = runRunning →
      exec (.sqHalt r n d) s = .next (((s.wr (F.SQ_STATE_RUN n.val) runDraining).wr (F.SQ_PC_PC n.val) (s.sqr n.val).pc).sqDrained n.val)) ∧
    (∀ (r : Req) (n : Fin 64) (d : WData) (s : State),
      s.sqWriter r n.val = true →
      (d.withBit 3).bits1 % 32 = 8 →
      s.ustate (sqUnit n.val) = US.ready →
      (s.sqr n.val).loading = none →
      s.epochHeld (sqUnit n.val) = false →
      s.epochFree (sqUnit n.val) = true →
      exec (.sqCtrlLoad r n d) s = .next (s.sqLoadNow n.val false)) ∧
    (∀ (n : Fin 64) (s : State),
      (s.sqr n.val).loading = some false →
      exec (.sqLoadComplete n) s = .next ((s.setSq n.val { s.sqr n.val with loading := none, pc := s.rd (F.SQ_ENTRY_ENTRY n.val), fresh := true }).wr (F.SQ_PC_PC n.val) (s.rd (F.SQ_ENTRY_ENTRY n.val)))) ∧
    (∀ (r : Req) (n : Fin 64) (d : WData) (s : State),
      s.sqWriter r n.val = true →
      (d.withBit 4).bits1 % 32 = 16 →
      s.ustate (sqUnit n.val) = US.ready ∨ s.ustate (sqUnit n.val) = US.busy →
      s.epochFree (sqUnit n.val) = true →
      exec (.sqReset r n d) s = .next (s.sqEnter n.val US.resetting)) ∧
    (∀ (n : Fin 64) (s : State),
      s.ustate (sqUnit n.val) = US.resetting →
      exec (.sqResetComplete n) s = .next (((s.setUstate (sqUnit n.val) US.ready).setSq n.val { s.sqr n.val with pc := s.rd (F.SQ_ENTRY_ENTRY n.val), fresh := true }).wr (F.SQ_PC_PC n.val) (s.rd (F.SQ_ENTRY_ENTRY n.val)))) ∧
    (∀ (r : Req) (n : Fin 64) (d : WData) (s : State),
      s.sqWriter r n.val = true →
      bit d.bits1 0 = true →
      bit d.bits1 1 = false →
      exec (.sqEventWrite r n d) s = .next (s.wr (F.SQ_EVENT_EVENT n.val) 1)) ∧
    (∀ (r : Req) (n : Fin 64) (d : WData) (s : State),
      s.sqWriter r n.val = true →
      bit d.bits1 0 = false →
      bit d.bits1 1 = true →
      exec (.sqEventWrite r n d) s = .next (s.wr (F.SQ_EVENT_EVENT n.val) 0)) ∧
    (∀ (m : Msg) (s : State),
      m.kind = 2 →
      m.op = 0x1F →
      m.tag = 0xFF →
      m.dest / 0x1000 = 1 →
      m.destModule = s.moduleNo →
      s.inOrder m = true →
      s.present m.dest = true →
      m.user = (s.takeMsg m).epochOf (sqUnit (m.dest % 0x1000)) →
      exec (.postedAnswerArrive m) s = .next ((s.takeMsg m).bump (F.SQ_ANSWERS_POSTED_REFUSED (m.dest % 0x1000)))) ∧
    (∀ (n : Fin 64) (s : State),
      exec (.restReqWrite .castle (.square n)) s = .next (s.wr (F.SQ_REST_REQUEST n.val) 1)) ∧
    (∀ (n : Fin 64) (s : State),
      exec (.restForceWrite .castle (.square n)) s = .next (s.wr (F.SQ_REST_FORCE n.val) 1)) ∧
    (∀ (n : Fin 64) (s : State),
      exec (.restWithdrawWrite .castle (.square n)) s = .next (s.wr (F.SQ_REST_REQUEST n.val) 0)) ∧
    (∀ (n : Fin 64) (y : SqRest) (s : State),
      (s.sqr n.val).resting = some y →
      y.forced = false →
      (s.sqr n.val).txq = [] →
      s.serving (sqUnit n.val) = true →
      ∃ t, exec (.restEnter (.square n)) s = .next t ∧ t = s.sqRestEnter n.val ∧ t.rd (F.SQ_REST_REQUEST n.val) = 0 ∧ t.rd (F.SQ_REST_FORCE n.val) = 0) ∧
    (∀ (part : Nat) (n : Fin 64) (y : SqRest) (s : State),
      (s.sqr n.val).rested = some y →
      s.ustate (sqUnit n.val) = US.resting →
      exec (.restComplete (.square n) false part) s = .next (s.sqRestDone n.val false part))

/-- Analog plane commands complete. A job that passes the checks is queued; the next one starts in an idle shell, its products end one
by one, and after the last the job is no longer in execution; a load opens, closes and is checked against its CRC; a calibration
starts at a boundary and ends; a temperature sample, an age, a weight check, a probe, an override's release, the policy and trim
writes, RESET and its end have the effect the rules give. -/
def Obligations.PlanesComplete : Prop :=
  (∀ (m : Msg) (s : State),
      m.kind = 0 →
      m.op = 1 →
      m.dest / 0x1000 = 2 →
      m.destModule = s.moduleNo →
      s.inOrder m = true →
      s.present m.dest = true →
      s.ustate m.dest = US.ready ∨ s.ustate m.dest = US.busy →
      (s.takeMsg m).msgFenced m = false →
      m.payload.length = 64 →
      s.shell (m.dest % 0x1000) ≠ shLoading →
      (s.plane (m.dest % 0x1000)).queue.length + (s.plane (m.dest % 0x1000)).run.isSome.toNat < 8 →
      (s.takeMsg m).plCheck (m.dest % 0x1000) (plJob m.payload) = St.ok →
      exec (.planeJobArrive m) s = .next ((s.takeMsg m).setPl (m.dest % 0x1000) { s.plane (m.dest % 0x1000) with queue := (s.plane (m.dest % 0x1000)).queue ++ [m] })) ∧
    (∀ (p : Fin 32) (m : Msg) (s : State),
      s.serving (planeUnit p.val) = true →
      s.shell p.val = shIdle →
      (s.plane p.val).run = none →
      (s.plane p.val).openWait = false →
      s.plWants p.val = false →
      s.plRestDue p.val = false →
      nextJob (s.plane p.val).queue = some m →
      exec (.planeJobStart p) s = .next (((((s.setPl p.val { s.plane p.val with queue := (s.plane p.val).queue.erase m, run := some (plRun0 m), jobSeq := ((s.plane p.val).jobSeq + 1) % 2 ^ 32 }).setShell p.val shRunning).plReady p.val)).plBoundary p.val)) ∧
    (∀ (p : Fin 32) (r : PlRun) (s : State),
      (s.plane p.val).run = some r →
      s.shell p.val = shRunning →
      r.stop = false →
      r.vec < (plJob r.msg.payload).vectors →
      (s.plane p.val).breach ≠ some 0 →
      exec (.planeProductEnd p) s = .next (s.plProduct p.val r)) ∧
    (∀ (p : Fin 32) (r : PlRun) (s : State),
      (s.plane p.val).run = some r →
      s.shell p.val = shRunning →
      (plJob r.msg.payload).vectors ≤ r.vec →
      ∃ t, exec (.planeJobDone p) s = .next t ∧ (t.plane p.val).run = none) ∧
    (∀ (r : Req) (p : Fin 32) (d : WData) (s : State),
      s.present (planeUnit p.val) = true →
      s.plWriter r p.val = true →
      (d.withBit 2).bits1 % 64 = 4 →
      s.serving (planeUnit p.val) = true →
      s.shell p.val = shIdle →
      (s.plane p.val).openWait = false →
      (s.plLoadRange p.val).1 + (s.plLoadRange p.val).2 ≤ 1024 →
      exec (.plLoadOpen r p d) s = .next ((s.setPlane p.val { s.plane p.val with openWait := true }).plOpenTry p.val)) ∧
    (∀ (r : Req) (p : Fin 32) (d : WData) (s : State),
      s.present (planeUnit p.val) = true →
      s.plWriter r p.val = true →
      (d.withBit 3).bits1 % 64 = 8 →
      s.serving (planeUnit p.val) = true →
      s.shell p.val = shLoading →
      exec (.plLoadClose r p d) s = .next (s.setShell p.val shChecking)) ∧
    (∀ (p : Fin 32) (s : State),
      s.shell p.val = shChecking →
      s.rd (F.PL_LOAD_EXPECT_CRC p.val) = crc32c (((List.range (s.plane p.val).opened.2).map ((s.plane p.val).opened.1 + ·)).flatMap (s.plColumn p.val)) →
      (∀ j ∈ (s.plane p.val).wbad ++ (s.plane p.val).cbad, j < 1024) →
      ∃ t, exec (.planeLoadCheckDone p) s = .next t ∧ t.rd (F.PL_STATE_WEIGHTS_VALID p.val) = 1 ∧ t.shell p.val = shIdle ∧ t.mem = s.mem) ∧
    (∀ (r : Req) (p : Fin 32) (d : WData) (s : State),
      s.present (planeUnit p.val) = true →
      s.plWriter r p.val = true →
      (d.withBit 4).bits1 % 64 = 16 →
      s.serving (planeUnit p.val) = true →
      exec (.calFull r p d) s = .next (s.setPlane p.val { s.plane p.val with wantFull := true })) ∧
    (∀ (r : Req) (p : Fin 32) (d : WData) (s : State),
      s.present (planeUnit p.val) = true →
      s.plWriter r p.val = true →
      (d.withBit 5).bits1 % 64 = 32 →
      s.serving (planeUnit p.val) = true →
      exec (.calOffset r p d) s = .next (s.setPlane p.val { s.plane p.val with wantOffset := true })) ∧
    (∀ (p : Fin 32) (s : State),
      s.serving (planeUnit p.val) = true →
      s.plWants p.val = true →
      (s.plane p.val).cal = none →
      s.shell p.val = shIdle →
      exec (.calibrationStart p) s = .next ((s.setPlane p.val { s.plane p.val with cal := some (if (s.plane p.val).wantFull then 1 else 0), wantFull := false, wantOffset := false, breach := none, run := (s.plane p.val).run.map (fun r => { r with recal := true }) }).setShell p.val shCalibrating)) ∧
    (∀ (p : Fin 32) (s : State),
      (s.plane p.val).cal = some 0 →
      exec (.calibrationDone p) s = .next (((((s.plOffsetCal p.val).setPlane p.val { (s.plOffsetCal p.val).plane p.val with cal := none })).setShell p.val (if (((s.plOffsetCal p.val).setPlane p.val { (s.plOffsetCal p.val).plane p.val with cal := none }).plane p.val).run.isSome then shRunning else shIdle)).plOpenTry p.val)) ∧
    (∀ (p : Fin 32) (tm : BitVec 16) (s : State),
      s.present (planeUnit p.val) = true →
      s.plEff p.val = polHold →
      ((s.wr (F.PL_TEMP_T p.val) tm.toNat).plT p.val - (s.wr (F.PL_TEMP_T p.val) tm.toNat).rdS (F.PL_CAL_CTRL_T_FORCE p.val)).natAbs < ((s.wr (F.PL_TEMP_T p.val) tm.toNat).plRecalDt p.val).natAbs →
      exec (.planeTempSample p tm) s = .next (s.wr (F.PL_TEMP_T p.val) tm.toNat)) ∧
    (∀ (p : Fin 32) (s : State),
      s.serving (planeUnit p.val) = true →
      s.on (F.PL_LIMITS_RECAL_MS p.val) = true →
      s.plEff p.val ≠ polHold →
      exec (.recalMsExpire p) s = .next (s.setPlane p.val { s.plane p.val with wantOffset := true })) ∧
    (∀ (p : Fin 32) (s : State),
      s.serving (planeUnit p.val) = true →
      s.on (F.PL_CFG_WCHECK_US p.val) = true →
      s.shell p.val = shIdle →
      (s.plane p.val).checkCol ≠ 1023 →
      ∃ t, exec (.weightCheck p none) s = .next t ∧ (t.plane p.val).checkCol = ((s.plane p.val).checkCol + 1) % 1024 ∧ t.mem = s.mem) ∧
    (∀ (p : Fin 32) (s : State),
      s.serving (planeUnit p.val) = true →
      s.on (F.PL_CFG_PROBE_US p.val) = true →
      s.shell p.val = shIdle →
      (s.plane p.val).run = none →
      ∃ t, exec (.probeProduct p) s = .next t ∧ t = ((((s.drawBytes 51 1024).2.plEstimate p.val ((s.drawBytes 51 1024).1.map (·.toNat)) 0 3).2.plJudge p.val ((s.drawBytes 51 1024).2.plEstimate p.val ((s.drawBytes 51 1024).1.map (·.toNat)) 0 3).1).plBoundary p.val)) ∧
    (∀ (p : Fin 32) (s : State),
      s.present (planeUnit p.val) = true →
      s.on (F.PL_CFG_PROBE_US p.val) = false →
      exec (.contractAgeOut p) s = .next (s.plContract p.val ctUnknown)) ∧
    (∀ (r : Req) (p : Fin 32) (d : WData) (s : State),
      s.present (planeUnit p.val) = true →
      s.plWriter r p.val = true →
      (s.plane p.val).run.isSome = true →
      exec (.plCalCtrlWrite r p d) s = .next ((((s.writeReg (R.PL_CAL_CTRL p.val) d).wr (F.PL_CAL_CTRL_T_FORCE p.val) (s.rd (F.PL_TEMP_T p.val))).wr (F.PL_CAL_STATUS_STUCK p.val) 0).setPlane p.val { s.plane p.val with policyWait := true, ovrRun := 0 })) ∧
    (∀ (r : Req) (p : Fin 32) (j : Fin 1056) (d : WData) (s : State),
      s.present (planeUnit p.val) = true →
      s.plWriter r p.val = true →
      (s.plane p.val).run.isSome = true →
      exec (.plForceWrite r p j d) s = .next ((s.writeReg (R.PL_FORCE p.val j.val) d).setPlane p.val { s.plane p.val with forceWait := (s.plane p.val).forceWait ++ [j.val] })) ∧
    (∀ (p : Fin 32) (s : State),
      s.on (F.PL_CAL_STATUS_OVERRIDE p.val) = true →
      s.on (F.PL_CAL_STATUS_STUCK p.val) = false →
      2 * (s.plT p.val - s.rdS (F.PL_CAL_CTRL_T_FORCE p.val)).natAbs ≤ (s.plRecalDt p.val).natAbs →
      exec (.overrideRelease p) s = .next (s.plApply p.val)) ∧
    (∀ (r : Req) (p : Fin 32) (d : WData) (s : State),
      s.present (planeUnit p.val) = true →
      s.plWriter r p.val = true →
      (d.withBit 1).bits1 % 64 = 2 →
      s.ustate (planeUnit p.val) = US.ready ∨ s.ustate (planeUnit p.val) = US.busy →
      s.epochFree (planeUnit p.val) = true →
      exec (.plReset r p d) s = .next (s.plEnter p.val US.resetting)) ∧
    (∀ (p : Fin 32) (s : State),
      s.ustate (planeUnit p.val) = US.resetting →
      exec (.plResetComplete p) s = .next (if (s.plFullCal p.val).1 then (s.plFullCal p.val).2.plFault p.val else (s.plFullCal p.val).2.setUstate (planeUnit p.val) US.ready)) ∧
    (∀ (p : Fin 32) (s : State),
      exec (.restReqWrite .castle (.plane p)) s = .next (s.wr (F.PL_REST_REQUEST p.val) 1)) ∧
    (∀ (p : Fin 32) (s : State),
      exec (.restForceWrite .castle (.plane p)) s = .next (s.wr (F.PL_REST_FORCE p.val) 1)) ∧
    (∀ (p : Fin 32) (s : State),
      exec (.restWithdrawWrite .castle (.plane p)) s = .next (s.wr (F.PL_REST_REQUEST p.val) 0))

/-- Attention engine and key-value cache commands complete. A job that passes the checks is queued; an ATTEND goes on with its next
entry; each cache operation that is next and passes its checks is performed and its job ends with the operation's status; a page in
limbo that no job holds goes back to its pool's stack; a helper performs its first slice; a finished job is acknowledged and no
longer in execution; RESET, its end and KV_CTRL.ENABLE have the effect the rules give. -/
def Obligations.AttentionComplete : Prop :=
  (∀ (m : Msg) (s : State),
      m.kind = 0 →
      m.op = 1 →
      m.dest / 0x1000 = 3 →
      m.destModule = s.moduleNo →
      s.inOrder m = true →
      s.present m.dest = true →
      s.ustate m.dest = US.ready ∨ s.ustate m.dest = US.busy →
      (s.takeMsg m).msgFenced m = false →
      8 ≤ s.ownerOf m.src ∨ m.srcModule ≠ s.moduleNo →
      m.payload.length = 64 →
      1 ≤ field m.payload 0 1 →
      field m.payload 0 1 ≤ 8 →
      (s.eng (m.dest % 0x1000)).queue.length + (s.eng (m.dest % 0x1000)).run.isSome.toNat + (s.eng (m.dest % 0x1000)).yielded.isSome.toNat < 16 →
      (s.takeMsg m).aeCheck (m.dest % 0x1000) 0 m.payload = St.ok →
      exec (.aeJobArrive m) s = .next ((s.takeMsg m).setAe (m.dest % 0x1000) { s.eng (m.dest % 0x1000) with queue := (s.eng (m.dest % 0x1000)).queue ++ [m] })) ∧
    (∀ (e : Fin 8) (r : AeRun) (s : State),
      s.serving (engineUnit e.val) = true →
      (s.eng e.val).run = some r →
      r.finished = false →
      isAttend r.msg = true →
      r.slices = [] →
      (s.eng e.val).queue.filter isLatency = [] →
      exec (.attend e) s = .next (s.doEntry e.val r)) ∧
    (∀ (e : Fin 8) (m : Msg) (b : State) (r : AeRun) (k : KvJob) (s : State),
      (s.eng e.val).run = none →
      s.aeNext e.val 2 = some m →
      s.aeBegin e.val m = (r, b) →
      k = ⟨e.val, r.job, b.ownerOf (engineUnit e.val), b.masterOf (engineUnit e.val), m.payload⟩ →
      r.msg = m →
      b.aeCheck e.val r.job m.payload = St.ok →
      (b.kvOp k none).wait = false →
      k.resultAddr = 0 →
      exec (.select e) s = .next ((b.kvOp k none).s.aeEnd e.val r (b.kvOp k none).status)) ∧
    (∀ (e : Fin 8) (m : Msg) (b : State) (r : AeRun) (k : KvJob) (s : State),
      (s.eng e.val).run = none →
      s.aeNext e.val 3 = some m →
      s.aeBegin e.val m = (r, b) →
      k = ⟨e.val, r.job, b.ownerOf (engineUnit e.val), b.masterOf (engineUnit e.val), m.payload⟩ →
      r.msg = m →
      b.aeCheck e.val r.job m.payload = St.ok →
      (b.kvOp k none).wait = false →
      k.resultAddr = 0 →
      exec (.append e) s = .next ((b.kvOp k none).s.aeEnd e.val r (b.kvOp k none).status)) ∧
    (∀ (e : Fin 8) (m : Msg) (b : State) (r : AeRun) (k : KvJob) (s : State),
      (s.eng e.val).run = none →
      s.aeNext e.val 4 = some m →
      s.aeBegin e.val m = (r, b) →
      k = ⟨e.val, r.job, b.ownerOf (engineUnit e.val), b.masterOf (engineUnit e.val), m.payload⟩ →
      r.msg = m →
      b.aeCheck e.val r.job m.payload = St.ok →
      (b.kvOp k none).wait = false →
      k.resultAddr = 0 →
      exec (.commit e) s = .next ((b.kvOp k none).s.aeEnd e.val r (b.kvOp k none).status)) ∧
    (∀ (e : Fin 8) (m : Msg) (b : State) (r : AeRun) (k : KvJob) (s : State),
      (s.eng e.val).run = none →
      s.aeNext e.val 5 = some m →
      s.aeBegin e.val m = (r, b) →
      k = ⟨e.val, r.job, b.ownerOf (engineUnit e.val), b.masterOf (engineUnit e.val), m.payload⟩ →
      r.msg = m →
      b.aeCheck e.val r.job m.payload = St.ok →
      (b.kvOp k none).wait = false →
      k.resultAddr = 0 →
      exec (.rollback e) s = .next ((b.kvOp k none).s.aeEnd e.val r (b.kvOp k none).status)) ∧
    (∀ (e : Fin 8) (m : Msg) (b : State) (r : AeRun) (k : KvJob) (s : State),
      (s.eng e.val).run = none →
      s.aeNext e.val 6 = some m →
      s.aeBegin e.val m = (r, b) →
      k = ⟨e.val, r.job, b.ownerOf (engineUnit e.val), b.masterOf (engineUnit e.val), m.payload⟩ →
      r.msg = m →
      b.aeCheck e.val r.job m.payload = St.ok →
      (b.kvOp k none).wait = false →
      k.resultAddr = 0 →
      exec (.publish e) s = .next ((b.kvOp k none).s.aeEnd e.val r (b.kvOp k none).status)) ∧
    (∀ (e : Fin 8) (m : Msg) (b : State) (r : AeRun) (k : KvJob) (s : State),
      (s.eng e.val).run = none →
      s.aeNext e.val 7 = some m →
      s.aeBegin e.val m = (r, b) →
      k = ⟨e.val, r.job, b.ownerOf (engineUnit e.val), b.masterOf (engineUnit e.val), m.payload⟩ →
      r.msg = m →
      b.aeCheck e.val r.job m.payload = St.ok →
      (b.kvOp k none).wait = false →
      k.resultAddr = 0 →
      exec (.seqOpen e) s = .next ((b.kvOp k none).s.aeEnd e.val r (b.kvOp k none).status)) ∧
    (∀ (e : Fin 8) (m : Msg) (b : State) (r : AeRun) (k : KvJob) (s : State),
      (s.eng e.val).run = none →
      s.aeNext e.val 8 = some m →
      s.aeBegin e.val m = (r, b) →
      k = ⟨e.val, r.job, b.ownerOf (engineUnit e.val), b.masterOf (engineUnit e.val), m.payload⟩ →
      r.msg = m →
      b.aeCheck e.val r.job m.payload = St.ok →
      (b.kvOp k none).wait = false →
      k.resultAddr = 0 →
      exec (.seqClose e) s = .next ((b.kvOp k none).s.aeEnd e.val r (b.kvOp k none).status)) ∧
    (∀ (y : Limbo) (s : State),
      (s.kv.limbo.find? (fun x => x.jobs.isEmpty) = some y) →
      exec .limboRelease s = .next ((({ s with kv := { s.kv with limbo := s.kv.limbo.erase y } } : State).wr (F.KV_POOL_STATUS_LIMBO y.pool) (s.poolLimbo y.pool - 1)).pushPage y.pool y.page)) ∧
    (∀ (e : Fin 8) (h : AeHelp) (rest : List AeHelp) (r : AeRun) (s : State),
      (s.eng e.val).help = h :: rest →
      s.serving (engineUnit e.val) = true →
      ((s.setEng e.val { s.eng e.val with help := rest }).eng h.owner).run = some r →
      r.job = h.job →
      r.finished = false →
      exec (.helperSlice e) s = .next ((s.setEng e.val { s.eng e.val with help := rest }).doSlice h.owner e.val h.place r)) ∧
    (∀ (e : Fin 8) (r : AeRun) (s : State),
      (s.eng e.val).run = some r →
      r.finished = true →
      ∃ t, exec (.aeJobComplete e) s = .next t ∧ (t.eng e.val).run = none) ∧
    (∀ (r : Req) (e : Fin 8) (d : WData) (s : State),
      s.present (engineUnit e.val) = true →
      r.trusted = true →
      (d.withBit 1).bits1 % 4 = 2 →
      s.ustate (engineUnit e.val) = US.ready ∨ s.ustate (engineUnit e.val) = US.busy →
      s.epochFree (engineUnit e.val) = true →
      exec (.aeReset r e d) s = .next (s.aeEnter e.val US.resetting)) ∧
    (∀ (e : Fin 8) (s : State),
      s.ustate (engineUnit e.val) = US.resetting →
      exec (.aeResetComplete e) s = .next ((s.setUstate (engineUnit e.val) US.ready).wr (F.AE_STATE_ENGINE e.val) enIdle)) ∧
    (∀ (r : Req) (e : Fin 8) (d : WData) (s : State),
      s.present (engineUnit e.val) = true →
      r.trusted = true →
      bit (d.withBit 1).bits1 0 = false →
      bit ((d.withBit 1).over (s.reg R.KV_CTRL)) 1 = true →
      s.on F.KV_CTRL_ENABLE = false →
      (s.wr F.KV_CTRL_ENABLE 1).kvConfigError = false →
      exec (.kvEnable r e d) s = .next ((fun b : State => b.poolsOn.foldl (fun a p => a.poolInit p) b) ((List.range 4096).foldl (fun a q => a.setSe q seState 0) ((s.wr F.KV_CTRL_ENABLE 1).zeroRange ((s.wr F.KV_CTRL_ENABLE 1).drAt 0) ((s.wr F.KV_CTRL_ENABLE 1).dirSize * 32))))) ∧
    (∀ (e : Fin 8) (s : State),
      exec (.restReqWrite .castle (.engine e)) s = .next (s.wr (F.AE_REST_REQUEST e.val) 1)) ∧
    (∀ (e : Fin 8) (s : State),
      exec (.restForceWrite .castle (.engine e)) s = .next (s.wr (F.AE_REST_FORCE e.val) 1)) ∧
    (∀ (e : Fin 8) (s : State),
      exec (.restWithdrawWrite .castle (.engine e)) s = .next (s.wr (F.AE_REST_REQUEST e.val) 0))

/-- Collision checker commands complete. Where the checker serves, nothing is in execution and the next job is of the command's kind: a
load, COMMIT, CANCEL or FALLBACK job takes effect and is acknowledged with its status; a CHECK starts, and goes on with up to n
candidates. A waiting CHECK resumes once no switch is PENDING; a deadline concludes it among the candidates evaluated; a PENDING
trajectory becomes active and an active CHOSEN one expires; a fallback build ends with the fallback active; writes of CC_CTRL with
FALLBACK or RESET set, and the end of RESETTING, have the effect the rules give. -/
def Obligations.CheckerComplete : Prop :=
  (∀ (m : Msg) (s : State),
      s.serving ccUnit = true →
      s.cc.run = none →
      nextJob s.cc.queue = some m →
      field m.payload 0 1 = joModel →
      exec .ccLoadModel s = .next (((s.setCc { s.cc with queue := s.cc.queue.erase m }).loadModel m.payload).2.ccAck m ((s.setCc { s.cc with queue := s.cc.queue.erase m }).loadModel m.payload).1)) ∧
    (∀ (m : Msg) (s : State),
      s.serving ccUnit = true →
      s.cc.run = none →
      nextJob s.cc.queue = some m →
      field m.payload 0 1 = joSdf →
      exec .ccLoadSdf s = .next (((s.setCc { s.cc with queue := s.cc.queue.erase m }).loadSdf m.payload).2.ccAck m ((s.setCc { s.cc with queue := s.cc.queue.erase m }).loadSdf m.payload).1)) ∧
    (∀ (m : Msg) (s : State),
      s.serving ccUnit = true →
      s.cc.run = none →
      nextJob s.cc.queue = some m →
      field m.payload 0 1 = joBev →
      exec .ccLoadBev s = .next (((s.setCc { s.cc with queue := s.cc.queue.erase m }).loadBev m.payload).2.ccAck m ((s.setCc { s.cc with queue := s.cc.queue.erase m }).loadBev m.payload).1)) ∧
    (∀ (m : Msg) (tr : Traj) (s : State),
      s.serving ccUnit = true →
      s.cc.run = none →
      nextJob s.cc.queue = some m →
      field m.payload 0 1 = joCommit →
      s.cc.staged = some tr →
      tr.id = field m.payload 4 4 →
      tr.state = trTentative →
      exec .ccCommit s = .next ((((s.setCc { s.cc with queue := s.cc.queue.erase m }).setCc { s.cc with queue := s.cc.queue.erase m, staged := some ((s.setCc { s.cc with queue := s.cc.queue.erase m }).pend tr) }).ccAck m St.ok))) ∧
    (∀ (m : Msg) (tr : Traj) (s : State),
      s.serving ccUnit = true →
      s.cc.run = none →
      nextJob s.cc.queue = some m →
      field m.payload 0 1 = joCancel →
      s.cc.staged = some tr →
      tr.id = field m.payload 4 4 →
      tr.state = trTentative →
      exec .ccCancel s = .next ((((s.setCc { s.cc with queue := s.cc.queue.erase m }).setCc { s.cc with queue := s.cc.queue.erase m, staged := none }).ccAck m St.ok))) ∧
    (∀ (m : Msg) (s : State),
      s.serving ccUnit = true →
      s.cc.run = none →
      nextJob s.cc.queue = some m →
      field m.payload 0 1 = joFallback →
      exec .ccFallbackJob s = .next (((s.setCc { s.cc with queue := s.cc.queue.erase m }).fbRequest fbJob).ccAck m St.ok)) ∧
    (∀ (n : Fin 257) (m : Msg) (s : State),
      s.serving ccUnit = true →
      s.cc.run = none →
      nextJob s.cc.queue = some m →
      field m.payload 0 1 = joCheck →
      ((chkDesc m.payload).stage = true → s.stagePending = false) →
      exec (.ccCheck n) s = .next ((s.setCc { s.cc with queue := s.cc.queue.erase m }).ccStart ⟨m, false, [], 0, none, false, false⟩ n.val)) ∧
    (∀ (n : Fin 257) (q : CcRun) (s : State),
      s.cc.run = some q →
      q.waiting = false →
      q.ended = none →
      s.serving ccUnit = true →
      exec (.ccCheck n) s = .next (s.ccEvalSome q n.val)) ∧
    (∀ (q : CcRun) (s : State),
      s.cc.run = some q →
      q.waiting = true →
      s.stagePending = false →
      exec .checkResume s = .next (s.ccStart q 0)) ∧
    (∀ (q : CcRun) (s : State),
      s.cc.run = some q →
      (chkDesc q.msg.payload).deadline ≠ 0 →
      q.ended = none →
      q.waiting = true →
      exec .checkDeadline s = .next (s.ccConclude { q with waiting := false, cut := true } 2)) ∧
    (∀ (q : CcRun) (s : State),
      s.cc.run = some q →
      (chkDesc q.msg.payload).deadline ≠ 0 →
      q.ended = none →
      q.waiting = false →
      q.cut = false →
      exec .checkDeadline s = .next (if (s.ccEvalOne { q with cut := true }).1 ≠ St.ok then (s.ccEvalOne { q with cut := true }).2.2.ccEnd (s.ccEvalOne { q with cut := true }).2.1 (s.ccEvalOne { q with cut := true }).1 else (s.ccEvalOne { q with cut := true }).2.2.ccConclude (s.ccEvalOne { q with cut := true }).2.1 0)) ∧
    (∀ (tr : Traj) (s : State),
      s.cc.staged = some tr →
      tr.state = trPending →
      ∃ t, exec .trajectorySwitch s = .next t ∧ t.cc.active = some { tr with state := trActive } ∧ t.cc.staged = none ∧ t.mem = s.mem) ∧
    (∀ (tr : Traj) (s : State),
      s.cc.active = some tr →
      tr.fallback = false →
      s.cc.build = none →
      ∃ t, exec .trajectoryExpiry s = .next t ∧ t.cc.build = some ⟨fbExpired, s.ts64 tr.tb, tr⟩ ∧ t.rd F.CC_COUNTS_FALLBACKS = min (s.rd F.CC_COUNTS_FALLBACKS + 1) (2 ^ 16 - 1) ∧ t.mem = s.mem) ∧
    (∀ (b : CcBuild) (s : State),
      s.cc.build = some b →
      s.cc.run = none →
      ∃ t, exec .fallbackSwitch s = .next t ∧ t.cc.build = none ∧ t.cc.active = some { s.buildFallback b with state := trActive } ∧ t.rd F.CC_TRAJ_STATE_FB_CAUSE = b.cause % 8) ∧
    (∀ (r : Req) (d : WData) (s : State),
      s.mayUse r ccUnit = true →
      (d.withBit 3).bits1 % 8 = 0 →
      s.ustate ccUnit ≠ US.off →
      s.ustate ccUnit ≠ US.quarantined →
      exec (.ccFallbackBit r d) s = .next ((s.wr F.CC_CTRL_ENABLE (bits ((d.withBit 3).over (s.reg R.CC_CTRL)) 1 1)).fbRequest fbJob)) ∧
    (∀ (r : Req) (d : WData) (s : State),
      s.mayUse r ccUnit = true →
      (d.withBit 2).bits1 % 16 = 4 →
      s.serving ccUnit = true →
      s.epochFree ccUnit = true →
      exec (.ccReset r d) s = .next ((s.wr F.CC_CTRL_ENABLE (bits ((d.withBit 2).over (s.reg R.CC_CTRL)) 1 1)).ccEnter US.resetting)) ∧
    (∀ (s : State),
      s.ustate ccUnit = US.resetting →
      exec .checkerResetComplete s = .next (s.setUstate ccUnit US.ready))

/-- Dynamics unit commands complete. Where the unit serves with no solve and no paused job, the next job of the command's kind takes
effect and is acknowledged, or is paused by a trigger; a trigger of the configured kind takes the snapshot of a cycle; a deadline or
the solver ends the solve; a paused job resumes; writes of DYN_CTRL set ENABLE and RUN, start one cycle or reset the unit. -/
def Obligations.DynamicsComplete : Prop :=
  (∀ (m : Msg) (s : State),
      s.serving dynUnit = true →
      s.dyn.solve = none →
      s.dyn.paused = none →
      nextJob s.dyn.queue = some m →
      field m.payload 0 1 = djModel →
      exec (.dynLoadModel false) s = .next ((s.setDyn { s.dyn with queue := s.dyn.queue.erase m }).dynRunJob m)) ∧
    (∀ (m : Msg) (s : State),
      s.serving dynUnit = true →
      s.dyn.solve = none →
      s.dyn.paused = none →
      nextJob s.dyn.queue = some m →
      field m.payload 0 1 = djModel →
      exec (.dynLoadModel true) s = .next (s.setDyn { s.dyn with queue := s.dyn.queue.erase m, paused := some m })) ∧
    (∀ (m : Msg) (s : State),
      s.serving dynUnit = true →
      s.dyn.solve = none →
      s.dyn.paused = none →
      nextJob s.dyn.queue = some m →
      field m.payload 0 1 = djTasks →
      exec (.loadTasks false) s = .next ((s.setDyn { s.dyn with queue := s.dyn.queue.erase m }).dynRunJob m)) ∧
    (∀ (m : Msg) (s : State),
      s.serving dynUnit = true →
      s.dyn.solve = none →
      s.dyn.paused = none →
      nextJob s.dyn.queue = some m →
      field m.payload 0 1 = djTasks →
      exec (.loadTasks true) s = .next (s.setDyn { s.dyn with queue := s.dyn.queue.erase m, paused := some m })) ∧
    (∀ (m : Msg) (s : State),
      s.serving dynUnit = true →
      s.dyn.solve = none →
      s.dyn.paused = none →
      nextJob s.dyn.queue = some m →
      field m.payload 0 1 = djCompute →
      exec (.compute false) s = .next ((s.setDyn { s.dyn with queue := s.dyn.queue.erase m }).dynRunJob m)) ∧
    (∀ (m : Msg) (s : State),
      s.serving dynUnit = true →
      s.dyn.solve = none →
      s.dyn.paused = none →
      nextJob s.dyn.queue = some m →
      field m.payload 0 1 = djCompute →
      exec (.compute true) s = .next (s.setDyn { s.dyn with queue := s.dyn.queue.erase m, paused := some m })) ∧
    (∀ (r : Req) (d : WData) (s : State),
      s.present dynUnit = true →
      s.mayUse r dynUnit = true →
      bit d.bits1 0 = false →
      bit d.bits1 3 = false →
      bit d.bits1 4 = false →
      exec (.dynRun r d) s = .next (((s.wr F.DYN_CTRL_ENABLE (bits (d.over (s.reg R.DYN_CTRL)) 1 1)).wr F.DYN_CTRL_RUN (bits (d.over (s.reg R.DYN_CTRL)) 2 1)))) ∧
    (∀ (r : Req) (d : WData) (s : State),
      s.present dynUnit = true →
      s.mayUse r dynUnit = true →
      bit (d.withBit 3).bits1 0 = false →
      bit (d.withBit 3).bits1 4 = false →
      2 ≤ s.rd F.DYN_CFG_TRIGGER →
      exec (.runOnce r d) s = .next (((s.wr F.DYN_CTRL_ENABLE (bits ((d.withBit 3).over (s.reg R.DYN_CTRL)) 1 1)).wr F.DYN_CTRL_RUN (bits ((d.withBit 3).over (s.reg R.DYN_CTRL)) 2 1)).dynTrigger)) ∧
    (∀ (dm : DynModel) (s : State),
      s.rd F.DYN_CFG_TRIGGER = 0 →
      s.dyn.model = some dm →
      s.present dynUnit = true →
      s.on F.DYN_CTRL_RUN = true →
      s.on F.DYN_STATE_TASKS_VALID = true →
      s.serving dynUnit = true →
      s.dyn.solve = none →
      exec .dynPeriodTrigger s = .next (((s.bumpW F.DYN_COUNTS_CYCLES).dynSnap dm).2.setDyn { ((s.bumpW F.DYN_COUNTS_CYCLES).dynSnap dm).2.dyn with solve := some ((s.bumpW F.DYN_COUNTS_CYCLES).dynSnap dm).1 })) ∧
    (∀ (m : Msg) (s : State),
      m.kind = 1 →
      m.op = 4 →
      m.dest = dynUnit →
      m.destModule = s.moduleNo →
      s.inOrder m = true →
      answerOf (s.ustate dynUnit) = St.ok →
      s.rd F.DYN_CFG_TRIGGER = 1 →
      m.src / 0x100 = 0x53 →
      exec (.dynNotifyTrigger m) s = .next ((s.takeMsg m).dynTrigger)) ∧
    (∀ (s : State),
      s.dyn.solve.isSome = true →
      s.rd F.DYN_PERIOD_DEADLINE_US ≠ 0 →
      ∃ t, exec .dynDeadline s = .next t ∧ t = s.dynMissed ∧ t.dyn.solve = none) ∧
    (∀ (s : State),
      s.dyn.solve.isSome = true →
      s.dyn.model.isSome = true →
      ∃ t, exec .dynSolveDone s = .next t ∧ t = s.dynSolveDone ∧ t.dyn.solve = none) ∧
    (∀ (m : Msg) (s : State),
      s.dyn.paused = some m →
      s.dyn.solve = none →
      s.serving dynUnit = true →
      exec .dynJobResume s = .next ((s.setDyn { s.dyn with paused := none }).dynRunJob m)) ∧
    (∀ (r : Req) (d : WData) (s : State),
      s.present dynUnit = true →
      s.mayUse r dynUnit = true →
      (d.withBit 4).bits1 % 32 = 16 →
      s.serving dynUnit = true →
      s.epochFree dynUnit = true →
      exec (.dynReset r d) s = .next (((s.wr F.DYN_CTRL_ENABLE (bits ((d.withBit 4).over (s.reg R.DYN_CTRL)) 1 1)).wr F.DYN_CTRL_RUN (bits ((d.withBit 4).over (s.reg R.DYN_CTRL)) 2 1)).dynEnter US.resetting)) ∧
    (∀ (s : State),
      s.ustate dynUnit = US.resetting →
      exec .dynResetComplete s = .next (s.setUstate dynUnit US.ready))

/-- Messages at their destination routers complete. A request or posted message in order, at a present unit whose clock runs, leaves the
network and is delivered: to a square under R155; as a job to the checker or the dynamics unit; as a READ or WRITE of a plane's
window or an engine's buffer; to the mailbox; or it is answered with the status the rules give. A reply in order completes the tag
of its square, or the JOB_SEND that waits for it. -/
def Obligations.MeshComplete : Prop :=
  (∀ (m : Msg) (s : State),
      m.kind ≠ 2 →
      m.destModule = s.moduleNo →
      s.inOrder m = true →
      s.meshDead m = false →
      s.present m.dest = true →
      m.dest / 0x1000 = 1 →
      exec (.meshRequestArrive m) s = .next ((s.takeMsg m).sqDeliver (m.dest % 0x1000) m)) ∧
    (∀ (m : Msg) (s : State),
      m.kind ≠ 2 →
      m.destModule = s.moduleNo →
      s.inOrder m = true →
      s.meshDead m = false →
      s.present m.dest = true →
      m.dest = ccUnit →
      m.op = 1 →
      exec (.meshRequestArrive m) s = .next ((s.takeMsg m).ccArrive m)) ∧
    (∀ (m : Msg) (s : State),
      m.kind ≠ 2 →
      m.destModule = s.moduleNo →
      s.inOrder m = true →
      s.meshDead m = false →
      s.present m.dest = true →
      m.dest = dynUnit →
      m.op = 1 →
      exec (.meshRequestArrive m) s = .next ((s.takeMsg m).dynArrive m)) ∧
    (∀ (m : Msg) (s : State),
      m.kind ≠ 2 →
      m.destModule = s.moduleNo →
      s.inOrder m = true →
      s.meshDead m = false →
      s.present m.dest = true →
      m.dest / 0x1000 = 2 ∨ m.dest / 0x1000 = 3 →
      m.op = 2 ∨ m.op = 3 →
      m.kind ≠ 3 →
      (s.takeMsg m).serving m.dest = true →
      (s.takeMsg m).msgFenced m = false →
      exec (.meshRequestArrive m) s = .next ((s.takeMsg m).windowDeliver m)) ∧
    (∀ (m : Msg) (s : State),
      m.kind ≠ 2 →
      m.destModule = s.moduleNo →
      s.inOrder m = true →
      s.meshDead m = false →
      m.dest = 0xF000 →
      exec (.meshRequestArrive m) s = .next ((s.takeMsg m).peerDeliver m)) ∧
    (∀ (m : Msg) (s : State),
      m.kind ≠ 2 →
      m.destModule = s.moduleNo →
      s.inOrder m = true →
      s.meshDead m = false →
      m.dest ≠ 0xF000 →
      s.present m.dest = false →
      exec (.meshRequestArrive m) s = .next ((s.takeMsg m).answer m St.absent)) ∧
    (∀ (m : Msg) (s : State),
      m.kind = 2 →
      m.tag ≠ 0xFF →
      m.destModule = s.moduleNo →
      s.inOrder m = true →
      s.meshDead m = false →
      m.dest / 0x1000 = 1 →
      s.present m.dest = true →
      exec (.meshReplyArrive m) s = .next ((s.takeMsg m).sqReply (m.dest % 0x1000) m)) ∧
    (∀ (m : Msg) (s : State),
      m.kind = 2 →
      m.tag ≠ 0xFF →
      m.destModule = s.moduleNo →
      s.inOrder m = true →
      s.meshDead m = false →
      m.dest = 0xF000 →
      exec (.meshReplyArrive m) s = .next ((s.takeMsg m).mbAck m))

/-- Mailbox sequencer steps complete. In RUN with the mailboxes open, the next waiting mailbox's command is taken; a command whose
status is known completes with a response; one that still waits when its time is over ends with TIMEOUT; a unit's report reaches the
view. -/
def Obligations.MailboxSequencerComplete : Prop :=
  (∀ (k : Nat) (s : State),
      s.boot.phase = 3 →
      s.modState ≠ stDeep →
      s.mbNext = some k →
      k < 2 →
      exec .mbxCommandStart s = .next (s.mbTake k)) ∧
    (∀ (m : Fin 16) (e : MbExec) (c : Nat) (s : State),
      s.mbExec m.val = some e →
      e.status = some c →
      exec (.mbxCommandComplete m) s = .next (s.mbRespond m.val e c)) ∧
    (∀ (m : Fin 16) (e : MbExec) (s : State),
      s.mbExec m.val = some e →
      e.status = none →
      e.ran = true →
      ¬ (0x71 ≤ cmdOp e.cmd ∧ cmdOp e.cmd ≤ 0x77) →
      exec (.cmdTimeout m) s = .next (s.mbEnd m.val St.timeout [])) ∧
    (∀ (u : Fin 65536) (st : Fin 9) (epoch : Fin 65536) (part : Fin 9) (s : State),
      s.present u.val = true →
      hasState u.val = true →
      epoch.val = (s.unitView u.val).epoch →
      exec (.unitStateReport u st epoch part) s = .next (s.setView u.val ⟨st.val, epoch.val, part.val⟩))

/-- Mailbox commands 0x00 to 0x08 complete. For every mailbox whose accepted command has the opcode and has not run: NOP and IDENTIFY
return the identification words; UNIT_QUERY refreshes the view; UNIT_RESET, UNIT_QUARANTINE and UNIT_RELEASE act on the unit;
EVENT_READ stores records; CSR_READ and CSR_WRITE act as the mailbox's owner; in each case the command ends with OK and its values. -/
def Obligations.GeneralCommandsComplete : Prop :=
  (∀ (m : Fin 16) (e : MbExec) (s : State),
      s.MbRuns m.val e 0x00 →
      exec (.nop m) s = .next (s.mbMark m.val ((s.begun m.val e).mbEnd m.val St.ok [(s.begun m.val e).reg R.MODULE_STATE]))) ∧
    (∀ (m : Fin 16) (e : MbExec) (s : State),
      s.MbRuns m.val e 0x01 →
      exec (.identify m) s = .next (s.mbMark m.val ((s.begun m.val e).mbEnd m.val St.ok [(s.begun m.val e).reg R.IDENT, (s.begun m.val e).reg R.REVISION, (s.begun m.val e).reg R.SERIAL, (s.begun m.val e).reg R.SQUARE_MASK, (s.begun m.val e).rd F.PLANE_MASK_PLANES + (s.begun m.val e).rd F.AE_MASK_ENGINES * 2 ^ 32 + (s.begun m.val e).rd F.CORE_MASK_CORES * 2 ^ 40 + (s.begun m.val e).reg R.FEATURE_MASK % 256 * 2 ^ 52]))) ∧
    (∀ (m : Fin 16) (e : MbExec) (a : Nat) (s : State),
      s.MbRuns m.val e 0x02 →
      hasState (cmdUnit e.cmd) = true →
      stateReg (cmdUnit e.cmd) = some a →
      exec (.unitQuery m) s = .next (s.mbMark m.val (((s.begun m.val e).setView (cmdUnit e.cmd) ((s.begun m.val e).unitNow (cmdUnit e.cmd))).mbEnd m.val St.ok [((s.begun m.val e).unitNow (cmdUnit e.cmd)).word, ((s.begun m.val e).setView (cmdUnit e.cmd) ((s.begun m.val e).unitNow (cmdUnit e.cmd))).regView (((s.begun m.val e).setView (cmdUnit e.cmd) ((s.begun m.val e).unitNow (cmdUnit e.cmd))).mbReq m.val) a]))) ∧
    (∀ (m : Fin 16) (e : MbExec) (s : State),
      s.MbRuns m.val e 0x03 →
      (s.begun m.val e).ustate (cmdUnit e.cmd) ≠ US.quarantined →
      (s.begun m.val e).ustate (cmdUnit e.cmd) ≠ US.off →
      exec (.unitReset m) s = .next (s.mbMark m.val ((((s.begun m.val e).preempt (some m.val) [cmdUnit e.cmd]).unitReset (cmdUnit e.cmd)).endEpoch m.val (cmdUnit e.cmd)))) ∧
    (∀ (m : Fin 16) (e : MbExec) (s : State),
      s.MbRuns m.val e 0x04 →
      exec (.unitQuarantine m) s = .next (s.mbMark m.val (((s.begun m.val e).quarantine (cmdUnit e.cmd)).mbEnd m.val St.ok [((s.begun m.val e).quarantine (cmdUnit e.cmd)).epochOf (cmdUnit e.cmd)]))) ∧
    (∀ (m : Fin 16) (e : MbExec) (s : State),
      s.MbRuns m.val e 0x05 →
      (s.begun m.val e).ustate (cmdUnit e.cmd) = US.quarantined →
      exec (.unitRelease m) s = .next (s.mbMark m.val (((s.begun m.val e).unquarantine (cmdUnit e.cmd)).endEpoch m.val (cmdUnit e.cmd)))) ∧
    (∀ (m : Fin 16) (e : MbExec) (s1 s : State),
      s.MbRuns m.val e 0x06 →
      (s.begun m.val e).busPut ((s.begun m.val e).mbMaster m.val) (cmdArg e.cmd 1) ((((s.begun m.val e).log.ring.drop (max (cmdArg e.cmd 0) ((s.begun m.val e).log.total - (s.begun m.val e).log.ring.length) - ((s.begun m.val e).log.total - (s.begun m.val e).log.ring.length))).take (cmdArg e.cmd 2)).flatMap EvRec.bytes) false = (St.ok, s1) →
      exec (.eventRead m) s = .next (s.mbMark m.val (s1.mbEnd m.val St.ok [max (cmdArg e.cmd 0) ((s.begun m.val e).log.total - (s.begun m.val e).log.ring.length) + (((s.begun m.val e).log.ring.drop (max (cmdArg e.cmd 0) ((s.begun m.val e).log.total - (s.begun m.val e).log.ring.length) - ((s.begun m.val e).log.total - (s.begun m.val e).log.ring.length))).take (cmdArg e.cmd 2)).length, (((s.begun m.val e).log.ring.drop (max (cmdArg e.cmd 0) ((s.begun m.val e).log.total - (s.begun m.val e).log.ring.length) - ((s.begun m.val e).log.total - (s.begun m.val e).log.ring.length))).take (cmdArg e.cmd 2)).length, max (cmdArg e.cmd 0) ((s.begun m.val e).log.total - (s.begun m.val e).log.ring.length) - cmdArg e.cmd 0]))) ∧
    (∀ (m : Fin 16) (e : MbExec) (s : State),
      s.MbRuns m.val e 0x07 →
      exec (.csrRead m) s = .next (s.mbMark m.val (((s.begun m.val e).regRead ((s.begun m.val e).mbReq m.val) (cmdArg e.cmd 0)).2.mbEnd m.val St.ok [((s.begun m.val e).regRead ((s.begun m.val e).mbReq m.val) (cmdArg e.cmd 0)).1]))) ∧
    (∀ (m : Fin 16) (e : MbExec) (dd : WData) (s : State),
      s.MbRuns m.val e 0x08 →
      dd = ⟨.both, BitVec.ofNat 64 ((cmdArg e.cmd 1 &&& cmdArg e.cmd 2) ||| ((s.begun m.val e).reg (cmdArg e.cmd 0) &&& (all64 ^^^ cmdArg e.cmd 2) &&& (match regSpec (cmdArg e.cmd 0) with | some q => q.mask .rw ||| q.mask .rwl | none => 0)))⟩ →
      (s.begun m.val e).writeIgnored ((s.begun m.val e).mbReq m.val) (cmdArg e.cmd 0) dd = false →
      exec (.csrWrite m) s = .next (s.mbMark m.val (((s.begun m.val e).regStore ((s.begun m.val e).mbReq m.val) (cmdArg e.cmd 0) dd).mbEnd m.val St.ok [((s.begun m.val e).regStore ((s.begun m.val e).mbReq m.val) (cmdArg e.cmd 0) dd).regView ((s.begun m.val e).mbReq m.val) (cmdArg e.cmd 0)])))

/-- Partition commands complete. For every mailbox whose accepted command has the opcode and has not run: PART_CREATE configures a FREE
partition; PART_ASSIGN hands over every unit it names; PART_WINDOWS sets the schedule; PART_SHARE, PART_PATH and PART_SQUARE_SHARE
set shares, paths and time-shared squares; PART_START makes a partition ACTIVE; PART_RESET delivers the reset and waits; PART_QUERY
returns the registers. A settled reset ends in CONFIGURING, and a window boundary moves the schedule. -/
def Obligations.PartitionCommandsComplete : Prop :=
  (∀ (m : Fin 16) (e : MbExec) (s : State),
      s.MbRuns m.val e 0x10 →
      (s.begun m.val e).partSt (cmdArg e.cmd 0) = ptFree →
      exec (.partCreate m) s = .next (s.mbMark m.val (((s.begun m.val e).partCreate (cmdArg e.cmd 0) ([1, 2, 3, 4].map (cmdArg e.cmd))).mbEnd m.val St.ok []))) ∧
    (∀ (m : Fin 16) (e : MbExec) (l : List Nat) (s : State),
      s.MbRuns m.val e 0x11 →
      (s.begun m.val e).partSt (cmdArg e.cmd 0 % 8) = ptConfiguring ∨ (s.begun m.val e).partSt (cmdArg e.cmd 0 % 8) = ptActive →
      (l = (assignUnits e.cmd).filter (fun u => decide ((s.begun m.val e).ownerOf u = cmdArg e.cmd 0 % 8) != !bit (cmdArg e.cmd 0) 8)) →
      exec (.partAssign m) s = .next (s.mbMark m.val ((l.foldl (fun a u => a.handOver (cmdArg e.cmd 0 % 8) u (!bit (cmdArg e.cmd 0) 8)) (s.begun m.val e)).mbEnd m.val St.ok [l.length]))) ∧
    (∀ (m : Fin 16) (e : MbExec) (d : List Byte) (bad : Bool) (s1 s : State),
      s.MbRuns m.val e 0x12 →
      (s.begun m.val e).on F.PART_CTRL_LOCK = false →
      (s.begun m.val e).busGet ((s.begun m.val e).mbMaster m.val) (cmdArg e.cmd 2) (8 * clampN 1 16 (bits (cmdArg e.cmd 0) 36 5)) = (St.ok, d, bad, s1) →
      exec (.partWindows m) s = .next (s.mbMark m.val (((List.range (clampN 1 16 (bits (cmdArg e.cmd 0) 36 5))).foldl (fun a k => a.setReg (R.PART_WIN k) (field d (8 * k) 5)) (((((s1.wr F.PART_SCHED_CTRL_ENABLE (bits (cmdArg e.cmd 0) 35 1)).wr F.PART_SCHED_CTRL_TB (bits (cmdArg e.cmd 0) 32 3)).wr F.PART_SCHED_CTRL_ENTRIES (bits (cmdArg e.cmd 0) 36 5)).wr F.PART_SCHED_CYCLE_CYCLE_NS (bits (cmdArg e.cmd 0) 0 32)).wr F.PART_SCHED_BASE_BASE (cmdArg e.cmd 1))).mbEnd m.val St.ok []))) ∧
    (∀ (m : Fin 16) (e : MbExec) (s : State),
      s.MbRuns m.val e 0x13 →
      (s.begun m.val e).sharesBut (cmdArg e.cmd 0) + cmdArg e.cmd 1 % 256 ≤ 248 →
      exec (.partShare m) s = .next (s.mbMark m.val (((s.begun m.val e).setShare (cmdArg e.cmd 0) (cmdArg e.cmd 1 % 256) (cmdArg e.cmd 1 / 256)).mbEnd m.val St.ok []))) ∧
    (∀ (m : Fin 16) (e : MbExec) (s : State),
      s.MbRuns m.val e 0x14 →
      exec (.partPath m) s = .next (s.mbMark m.val (((s.begun m.val e).setPath (bits (cmdArg e.cmd 0) 0 3) (bits (cmdArg e.cmd 0) 8 3) (!bit (cmdArg e.cmd 0) 16)).mbEnd m.val St.ok []))) ∧
    (∀ (m : Fin 16) (e : MbExec) (s : State),
      s.MbRuns m.val e 0x15 →
      bit (cmdArg e.cmd 0) 16 = false →
      (s.begun m.val e).ownerOf (cmdUnit e.cmd) < 8 →
      (s.begun m.val e).shared (cmdUnit e.cmd % 0x1000) = false →
      (s.begun m.val e).partSt (bits (cmdArg e.cmd 0) 0 3) = ptConfiguring ∨ (s.begun m.val e).partSt (bits (cmdArg e.cmd 0) 0 3) = ptActive →
      exec (.partSquareShare m) s = .next (s.mbMark m.val (((s.begun m.val e).shareSquare (cmdUnit e.cmd % 0x1000) (bits (cmdArg e.cmd 0) 0 3) (bits (cmdArg e.cmd 0) 4 6)).mbEnd m.val St.ok []))) ∧
    (∀ (m : Fin 16) (e : MbExec) (s : State),
      s.MbRuns m.val e 0x15 →
      bit (cmdArg e.cmd 0) 16 = true →
      (s.begun m.val e).secondRuns (cmdUnit e.cmd % 0x1000) = false ∨ ((s.begun m.val e).sqr (cmdUnit e.cmd % 0x1000)).txq = [] →
      exec (.partSquareShare m) s = .next (s.mbMark m.val (((s.begun m.val e).unshare (cmdUnit e.cmd % 0x1000)).mbEnd m.val St.ok []))) ∧
    (∀ (m : Fin 16) (e : MbExec) (s : State),
      s.MbRuns m.val e 0x16 →
      (s.begun m.val e).partSt (cmdArg e.cmd 0) = ptConfiguring →
      exec (.partStart m) s = .next (s.mbMark m.val ((((s.begun m.val e).wr (F.PART_STATE_STATE (cmdArg e.cmd 0)) ptActive).coresStart (cmdArg e.cmd 0) (cmdArg e.cmd 1)).mbEnd m.val St.ok []))) ∧
    (∀ (m : Fin 16) (e : MbExec) (s : State),
      s.MbRuns m.val e 0x17 →
      (s.begun m.val e).partSt (cmdArg e.cmd 0 % 8) ≠ ptFree →
      exec (.partReset m) s = .next (s.mbMark m.val (((s.begun m.val e).mbWait m.val [waitReset, cmdArg e.cmd 0 % 8]).partReset (some m.val) (cmdArg e.cmd 0 % 8)))) ∧
    (∀ (m : Fin 16) (e : MbExec) (s : State),
      s.MbRuns m.val e 0x18 →
      exec (.partQuery m) s = .next (s.mbMark m.val ((s.begun m.val e).mbEnd m.val St.ok [(s.begun m.val e).reg (R.PART_STATE (cmdArg e.cmd 0)), (s.begun m.val e).reg (R.PART_SHARE (cmdArg e.cmd 0)), (s.begun m.val e).reg (R.PART_SQUARES (cmdArg e.cmd 0)), (s.begun m.val e).reg (R.PART_BOARD (cmdArg e.cmd 0)), (s.begun m.val e).reg (R.PART_FRAME (cmdArg e.cmd 0))]))) ∧
    (∀ (p : Fin 8) (s : State),
      s.castle.restartAt = none →
      s.safePhase ≠ phRestarting →
      s.partSt p.val = ptResetting →
      s.partSettled p.val = true →
      s.resetWaiter p.val = none →
      exec (.partResetDone p) s = .next ((s.wr (F.PART_STATE_STATE p.val) ptConfiguring).wr (F.PART_STATE_LAST_RESET_US p.val) 0)) ∧
    (∀ (s : State),
      s.sched.running = true ∨ s.on F.PART_SCHED_CTRL_ENABLE = true →
      exec .partWindowBoundary s = .next (s.windowBoundary))

/-- Program, job, memory and cache commands complete. For every mailbox whose accepted command has the opcode and has not run: SQ_LOAD
loads and, if asked, starts a READY square; SQ_RUN starts or halts every square it names; PL_LOAD opens the plane's load; JOB_SEND
sends the job; MEM_COPY and MEM_FILL move the bursts of their descriptors; KV_OP performs the key-value operation; KV_POOL_QUERY
returns the pool's words. -/
def Obligations.ProgramCommandsComplete : Prop :=
  (∀ (m : Fin 16) (e : MbExec) (d : List Byte) (s1 s : State),
      s.MbRuns m.val e 0x20 →
      (s.begun m.val e).shared (cmdUnit e.cmd % 0x1000) = false →
      (s.begun m.val e).ustate (sqUnit (cmdUnit e.cmd % 0x1000)) = US.ready →
      ((s.begun m.val e).sqr (cmdUnit e.cmd % 0x1000)).loading = none →
      (s.begun m.val e).epochHeld (sqUnit (cmdUnit e.cmd % 0x1000)) = false →
      (s.begun m.val e).storeBadRange (cmdUnit e.cmd % 0x1000) (cmdArg e.cmd 2) (cmdArg e.cmd 1) = false →
      (s.begun m.val e).busGet ((s.begun m.val e).mbMaster m.val) (cmdArg e.cmd 0) (cmdArg e.cmd 1) = (St.ok, d, false, s1) →
      crc32c d = cmdArg e.cmd 4 % 2 ^ 32 →
      exec (.sqLoad m) s = .next (s.mbMark m.val ((((s1.store (storeBase (cmdUnit e.cmd % 0x1000) + cmdArg e.cmd 2) d).wr (F.SQ_ENTRY_ENTRY (cmdUnit e.cmd % 0x1000)) (cmdArg e.cmd 3)).sqLoad (cmdUnit e.cmd % 0x1000) (bit (cmdArg e.cmd 4) 32)).endEpoch m.val (sqUnit (cmdUnit e.cmd % 0x1000))))) ∧
    (∀ (m : Fin 16) (e : MbExec) (s : State),
      s.MbRuns m.val e 0x21 →
      bit (cmdArg e.cmd 1) 0 = false →
      ((bitList (cmdArg e.cmd 0) 64).all (fun n => (s.begun m.val e).runnable n false) = true) →
      exec (.sqRun m) s = .next (s.mbMark m.val (((bitList (cmdArg e.cmd 0) 64).foldl (fun a n => a.sqStart n) (s.begun m.val e)).mbEnd m.val St.ok [cmdArg e.cmd 0]))) ∧
    (∀ (m : Fin 16) (e : MbExec) (s : State),
      s.MbRuns m.val e 0x21 →
      bit (cmdArg e.cmd 1) 0 = true →
      ((bitList (cmdArg e.cmd 0) 64).all (fun n => (s.begun m.val e).runnable n true) = true) →
      exec (.sqRun m) s = .next (s.mbMark m.val (((bitList (cmdArg e.cmd 0) 64).foldl (fun a n => a.sqHalt n) (s.begun m.val e)).mbEnd m.val St.ok [cmdArg e.cmd 0]))) ∧
    (∀ (m : Fin 16) (e : MbExec) (s : State),
      s.MbRuns m.val e 0x22 →
      (s.begun m.val e).serving (planeUnit (cmdUnit e.cmd % 0x1000)) = true →
      (s.begun m.val e).shell (cmdUnit e.cmd % 0x1000) ≠ shLoading →
      (s.begun m.val e).shell (cmdUnit e.cmd % 0x1000) ≠ shChecking →
      ((s.begun m.val e).plane (cmdUnit e.cmd % 0x1000)).openWait = false →
      exec (.plLoad m) s = .next (s.mbMark m.val ((((((((s.begun m.val e).wr (F.PL_LOAD_EXPECT_CRC (cmdUnit e.cmd % 0x1000)) (cmdArg e.cmd 2)).wr (F.PL_LOAD_COL_FIRST (cmdUnit e.cmd % 0x1000)) (bits (cmdArg e.cmd 1) 0 10)).wr (F.PL_LOAD_COL_COUNT (cmdUnit e.cmd % 0x1000)) (bits (cmdArg e.cmd 1) 10 11))).plOpen (cmdUnit e.cmd % 0x1000)).mbWait m.val [waitLoad, (cmdUnit e.cmd % 0x1000), 0]).mbPlane m.val (cmdUnit e.cmd % 0x1000) e.cmd 0))) ∧
    (∀ (m : Fin 16) (e : MbExec) (d : List Byte) (bad : Bool) (s1 s : State),
      s.MbRuns m.val e 0x23 →
      (s.begun m.val e).busGet ((s.begun m.val e).mbMaster m.val) (cmdArg e.cmd 0) 64 = (St.ok, d, bad, s1) →
      exec (.jobSend m) s = .next (s.mbMark m.val ((s1.mbWait m.val [waitAck]).send ⟨cmdUnit e.cmd, s1.moduleNo, bad, 0xF000, s1.moduleNo, 3, cmdArg e.cmd 1, 0, 1, m.val, s1.epochOf 0xF000, (s1.mbOwn m.val).getD 0, 0, 0, 0, d⟩))) ∧
    (∀ (m : Fin 16) (ext : List (Fin 13 × List Byte × Bool)) (e : MbExec) (s : State),
      s.MbRuns m.val e 0x30 →
      ((s.begun m.val e).readDesc m.val (cmdArg e.cmd 0)).1 = St.ok →
      (((s.begun m.val e).readDesc m.val (cmdArg e.cmd 0)).2.2.readDesc m.val (cmdArg e.cmd 1)).1 = St.ok →
      (((s.begun m.val e).readDesc m.val (cmdArg e.cmd 0)).2.2.readDesc m.val (cmdArg e.cmd 1)).2.2.xferCheck ((((s.begun m.val e).readDesc m.val (cmdArg e.cmd 0)).2.2.readDesc m.val (cmdArg e.cmd 1)).2.2.mbMaster m.val) (⟨(((s.begun m.val e).readDesc m.val (cmdArg e.cmd 0)).2.2.readDesc m.val (cmdArg e.cmd 1)).2.1, ((s.begun m.val e).readDesc m.val (cmdArg e.cmd 0)).2.1, 0, 0, []⟩ : XferReq) true true = St.ok →
      exec (.memCopy m ext) s = .next (s.mbMark m.val ((((s.begun m.val e).readDesc m.val (cmdArg e.cmd 0)).2.2.readDesc m.val (cmdArg e.cmd 1)).2.2.moverRun m.val ((((s.begun m.val e).readDesc m.val (cmdArg e.cmd 0)).2.2.readDesc m.val (cmdArg e.cmd 1)).2.2.xferOf (⟨(((s.begun m.val e).readDesc m.val (cmdArg e.cmd 0)).2.2.readDesc m.val (cmdArg e.cmd 1)).2.1, ((s.begun m.val e).readDesc m.val (cmdArg e.cmd 0)).2.1, 0, 0, []⟩ : XferReq)).todo ext))) ∧
    (∀ (m : Fin 16) (ext : List (Fin 13 × List Byte × Bool)) (e : MbExec) (s : State),
      s.MbRuns m.val e 0x31 →
      ((s.begun m.val e).readDesc m.val (cmdArg e.cmd 0)).1 = St.ok →
      ((s.begun m.val e).readDesc m.val (cmdArg e.cmd 0)).2.2.xferCheck (((s.begun m.val e).readDesc m.val (cmdArg e.cmd 0)).2.2.mbMaster m.val) ⟨((s.begun m.val e).readDesc m.val (cmdArg e.cmd 0)).2.1, ((s.begun m.val e).readDesc m.val (cmdArg e.cmd 0)).2.1, 0, 0, []⟩ true true = St.ok →
      exec (.memFill m ext) s = .next (s.mbMark m.val (((s.begun m.val e).readDesc m.val (cmdArg e.cmd 0)).2.2.moverRun m.val (((List.range ((s.begun m.val e).readDesc m.val (cmdArg e.cmd 0)).2.1.rows).flatMap (fun r => (List.range (((s.begun m.val e).readDesc m.val (cmdArg e.cmd 0)).2.1.dim 0)).map (fun i => (⟨((s.begun m.val e).readDesc m.val (cmdArg e.cmd 0)).2.1.elem r i, none, cmdArg e.cmd 1 % 16 ^ ((s.begun m.val e).readDesc m.val (cmdArg e.cmd 0)).2.1.nib, ((s.begun m.val e).readDesc m.val (cmdArg e.cmd 0)).2.1.nib⟩ : Mv))) ++ mvPad ((s.begun m.val e).readDesc m.val (cmdArg e.cmd 0)).2.1).map (((s.begun m.val e).readDesc m.val (cmdArg e.cmd 0)).2.2.fillBurst ((s.begun m.val e).readDesc m.val (cmdArg e.cmd 0)).2.1)) ext))) ∧
    (∀ (m : Fin 16) (e : MbExec) (s : State),
      s.MbRuns m.val e 0x32 →
      (s.begun m.val e).serving (cmdUnit e.cmd) = true →
      (s.begun m.val e).kvOn = true →
      2 ≤ ((s.begun m.val e).mbKvJob m.val e.cmd).op →
      8 ≥ ((s.begun m.val e).mbKvJob m.val e.cmd).op →
      (s.begun m.val e).kvFieldsOk ((s.begun m.val e).mbKvJob m.val e.cmd) = true →
      exec (.kvOp m) s = .next (s.mbMark m.val ((s.begun m.val e).mbKv m.val ((s.begun m.val e).mbKvJob m.val e.cmd) ((s.begun m.val e).kvOp ((s.begun m.val e).mbKvJob m.val e.cmd) none)))) ∧
    (∀ (m : Fin 16) (e : MbExec) (s : State),
      s.MbRuns m.val e 0x33 →
      exec (.kvPoolQuery m) s = .next (s.mbMark m.val ((s.begun m.val e).mbEnd m.val St.ok [(s.begun m.val e).reg (R.KV_POOL_STATUS (cmdArg e.cmd 0)), (s.begun m.val e).reg (R.KV_POOL_COUNTS (cmdArg e.cmd 0))])))

/-- Time and ingest commands complete. For every mailbox whose accepted command has the opcode and has not run: TIME_READ latches and
returns the stamp; TIME_STEP and TIME_ADJUST write a free timebase; PE_ARM and PE_DISARM write the phase event; PH_QUERY and
IQ_QUERY return their words; STREAM_SET enables or disables the slot; IQ_FLUSH releases every closed item. -/
def Obligations.TimeAndIngestCommandsComplete : Prop :=
  (∀ (m : Fin 16) (e : MbExec) (sec : Nat) (s1 s : State),
      s.MbRuns m.val e 0x40 →
      (s.begun m.val e).regRead ((s.begun m.val e).mbReq m.val) (R.TB_NOW_SEC (cmdArg e.cmd 0)) = (sec, s1) →
      exec (.timeRead m) s = .next (s.mbMark m.val (s1.mbEnd m.val St.ok [s1.mbSee m.val (R.TB_LATCH_LOW (cmdArg e.cmd 0)), sec, s1.mbSee m.val (R.TB_STATUS (cmdArg e.cmd 0))]))) ∧
    (∀ (m : Fin 16) (e : MbExec) (s : State),
      s.MbRuns m.val e 0x41 →
      (s.begun m.val e).tbFree (cmdArg e.cmd 0) = true →
      exec (.timeStep m) s = .next (s.mbMark m.val ((((s.begun m.val e).mbSet m.val (R.TB_SET_SEC (cmdArg e.cmd 0)) (cmdArg e.cmd 1)).mbSet m.val (R.TB_SET_LOW (cmdArg e.cmd 0)) (cmdArg e.cmd 2)).mbEnd m.val St.ok []))) ∧
    (∀ (m : Fin 16) (e : MbExec) (s : State),
      s.MbRuns m.val e 0x42 →
      (s.begun m.val e).tbFree (cmdArg e.cmd 0) = true →
      bit (cmdArg e.cmd 1) 32 = true →
      bit (cmdArg e.cmd 2) 32 = false →
      exec (.timeAdjust m) s = .next (s.mbMark m.val (((s.begun m.val e).mbSet m.val (R.TB_RATE (cmdArg e.cmd 0)) (cmdArg e.cmd 1 % 2 ^ 32)).mbEnd m.val St.ok []))) ∧
    (∀ (m : Fin 16) (e : MbExec) (s : State),
      s.MbRuns m.val e 0x42 →
      (s.begun m.val e).tbFree (cmdArg e.cmd 0) = true →
      bit (cmdArg e.cmd 1) 32 = false →
      bit (cmdArg e.cmd 2) 32 = true →
      exec (.timeAdjust m) s = .next (s.mbMark m.val (((s.begun m.val e).mbSet m.val (R.TB_ADJ (cmdArg e.cmd 0)) (cmdArg e.cmd 2 % 2 ^ 32)).mbEnd m.val St.ok []))) ∧
    (∀ (m : Fin 16) (e : MbExec) (s : State),
      s.MbRuns m.val e 0x43 →
      (s.begun m.val e).on (F.PE_CTRL_ARM (cmdArg e.cmd 0)) = false →
      exec (.peArm m) s = .next (s.mbMark m.val ((((((s.begun m.val e).mbSet m.val (R.PE_TARGET (cmdArg e.cmd 0)) (cmdArg e.cmd 2)).mbSet m.val (R.PE_PERIOD (cmdArg e.cmd 0)) (cmdArg e.cmd 3)).mbSet m.val (R.PE_AUX (cmdArg e.cmd 0)) (cmdArg e.cmd 4)).mbSet m.val (R.PE_CTRL (cmdArg e.cmd 0)) (cmdArg e.cmd 1 ||| 1)).mbEnd m.val St.ok []))) ∧
    (∀ (m : Fin 16) (e : MbExec) (s : State),
      s.MbRuns m.val e 0x44 →
      (s.begun m.val e).on (F.PE_CTRL_ARM (cmdArg e.cmd 0)) = true →
      exec (.peDisarm m) s = .next (s.mbMark m.val (((s.begun m.val e).mbSet m.val (R.PE_CTRL (cmdArg e.cmd 0)) (setBit ((s.begun m.val e).reg (R.PE_CTRL (cmdArg e.cmd 0))) 0 false)).mbEnd m.val St.ok [((s.begun m.val e).mbSet m.val (R.PE_CTRL (cmdArg e.cmd 0)) (setBit ((s.begun m.val e).reg (R.PE_CTRL (cmdArg e.cmd 0))) 0 false)).mbSee m.val (R.PE_STATUS (cmdArg e.cmd 0))]))) ∧
    (∀ (m : Fin 16) (e : MbExec) (s : State),
      s.MbRuns m.val e 0x45 →
      exec (.phQuery m) s = .next (s.mbMark m.val ((s.begun m.val e).mbEnd m.val St.ok [(s.begun m.val e).mbSee m.val (R.PH_STATUS (cmdArg e.cmd 0)), (s.begun m.val e).mbSee m.val (R.PH_NOW (cmdArg e.cmd 0))]))) ∧
    (∀ (m : Fin 16) (e : MbExec) (s : State),
      s.MbRuns m.val e 0x50 →
      exec (.streamSet m) s = .next (s.mbMark m.val (((s.begun m.val e).mbSet m.val (R.STREAM_SRC (cmdArg e.cmd 0 % 32)) (((s.begun m.val e).reg (R.STREAM_SRC (cmdArg e.cmd 0 % 32)) &&& (all64 ^^^ 2 ^ (F.STREAM_SRC_ENABLE (cmdArg e.cmd 0 % 32)).lo)) ||| (if bit (cmdArg e.cmd 0) 8 then 2 ^ (F.STREAM_SRC_ENABLE (cmdArg e.cmd 0 % 32)).lo else 0))).mbEnd m.val St.ok [((s.begun m.val e).mbSet m.val (R.STREAM_SRC (cmdArg e.cmd 0 % 32)) (((s.begun m.val e).reg (R.STREAM_SRC (cmdArg e.cmd 0 % 32)) &&& (all64 ^^^ 2 ^ (F.STREAM_SRC_ENABLE (cmdArg e.cmd 0 % 32)).lo)) ||| (if bit (cmdArg e.cmd 0) 8 then 2 ^ (F.STREAM_SRC_ENABLE (cmdArg e.cmd 0 % 32)).lo else 0))).mbSee m.val (R.STREAM_STATUS (cmdArg e.cmd 0 % 32))]))) ∧
    (∀ (m : Fin 16) (e : MbExec) (s : State),
      s.MbRuns m.val e 0x51 →
      exec (.iqQuery m) s = .next (s.mbMark m.val ((s.begun m.val e).mbEnd m.val St.ok [(s.begun m.val e).mbSee m.val (R.IQ_FILL (cmdArg e.cmd 0)), (s.begun m.val e).mbSee m.val (R.IQ_POS_A (cmdArg e.cmd 0)), (s.begun m.val e).mbSee m.val (R.IQ_POS_B (cmdArg e.cmd 0)), (s.begun m.val e).mbSee m.val (R.IQ_COUNTS (cmdArg e.cmd 0))]))) ∧
    (∀ (m : Fin 16) (e : MbExec) (s : State),
      s.MbRuns m.val e 0x52 →
      exec (.iqFlush m) s = .next (s.mbMark m.val (((s.begun m.val e).iqDrain (cmdArg e.cmd 0)).mbEnd m.val St.ok [((s.begun m.val e).q (cmdArg e.cmd 0)).items.length])))

/-- Power and image commands complete. For every mailbox whose accepted command has the opcode and has not run: POWER_STATE completes in
its own state, or starts the entry or the wake and waits; POWER_CAP sets an unlocked cap; UNIT_POWER makes the transition its table
gives; POWER_QUERY returns its words; the image commands open a session, program pages, verify, activate, confirm, abort and revoke
as the rules give. -/
def Obligations.PowerAndImageCommandsComplete : Prop :=
  (∀ (m : Fin 16) (e : MbExec) (s : State),
      s.MbRuns m.val e 0x60 →
      (s.begun m.val e).modState ≠ stSafe →
      (s.begun m.val e).on F.MODULE_STATE_IN_TRANSITION = false →
      cmdArg e.cmd 0 = (s.begun m.val e).modState →
      exec (.powerState m) s = .next (s.mbMark m.val ((s.begun m.val e).mbEnd m.val St.ok []))) ∧
    (∀ (m : Fin 16) (e : MbExec) (s : State),
      s.MbRuns m.val e 0x60 →
      (s.begun m.val e).modState = stRun →
      (s.begun m.val e).on F.MODULE_STATE_IN_TRANSITION = false →
      cmdArg e.cmd 0 ≠ stRun →
      exec (.powerState m) s = .next (s.mbMark m.val (((s.begun m.val e).entryStart (cmdArg e.cmd 0) m.val).mbWait m.val [waitPower]))) ∧
    (∀ (m : Fin 16) (e : MbExec) (s : State),
      s.MbRuns m.val e 0x61 →
      (s.begun m.val e).on F.PWR_CTRL_LOCK = false →
      exec (.powerCap m) s = .next (s.mbMark m.val (((s.begun m.val e).mbSet m.val R.PWR_CAP (insField ((s.begun m.val e).reg R.PWR_CAP) 0 16 (cmdArg e.cmd 0))).mbEnd m.val St.ok []))) ∧
    (∀ (m : Fin 16) (e : MbExec) (s : State),
      s.MbRuns m.val e 0x62 →
      cmdArg e.cmd 0 = 0 →
      (s.begun m.val e).ustate (cmdUnit e.cmd) = US.off →
      exec (.unitPower m) s = .next (s.mbMark m.val (((s.begun m.val e).unitGo (cmdUnit e.cmd) US.resetting).endState m.val (cmdUnit e.cmd)))) ∧
    (∀ (m : Fin 16) (e : MbExec) (s : State),
      s.MbRuns m.val e 0x62 →
      cmdArg e.cmd 0 = 0 →
      (s.begun m.val e).ustate (cmdUnit e.cmd) = US.retained →
      exec (.unitPower m) s = .next (s.mbMark m.val (((s.begun m.val e).unitReturn (cmdUnit e.cmd)).endState m.val (cmdUnit e.cmd)))) ∧
    (∀ (m : Fin 16) (e : MbExec) (s : State),
      s.MbRuns m.val e 0x62 →
      cmdArg e.cmd 0 = 1 →
      (s.begun m.val e).serving (cmdUnit e.cmd) = true →
      exec (.unitPower m) s = .next (s.mbMark m.val (((s.begun m.val e).unitGo (cmdUnit e.cmd) US.retained).endState m.val (cmdUnit e.cmd)))) ∧
    (∀ (m : Fin 16) (e : MbExec) (s : State),
      s.MbRuns m.val e 0x62 →
      cmdArg e.cmd 0 = 2 →
      (s.begun m.val e).serving (cmdUnit e.cmd) = true →
      exec (.unitPower m) s = .next (s.mbMark m.val (((s.begun m.val e).unitGo (cmdUnit e.cmd) US.off).endState m.val (cmdUnit e.cmd)))) ∧
    (∀ (m : Fin 16) (e : MbExec) (s : State),
      s.MbRuns m.val e 0x63 →
      exec (.powerQuery m) s = .next (s.mbMark m.val ((s.begun m.val e).mbEnd m.val St.ok [(s.begun m.val e).rd F.PWR_MEAS_POWER_MW, (s.begun m.val e).rd F.PWR_CAP_CAP, (s.begun m.val e).reg R.MODULE_STATE]))) ∧
    (∀ (m : Fin 16) (e : MbExec) (q : ImgRecord) (s1 s : State),
      s.MbRuns m.val e 0x70 →
      cmdArg e.cmd 0 / 2 ^ 16 = 1 →
      layerFind (s.begun m.val e).userLayer (cmdArg e.cmd 0 % 2 ^ 16) = some q →
      (s.begun m.val e).busPut ((s.begun m.val e).mbMaster m.val) (cmdArg e.cmd 1) q.val false = (St.ok, s1) →
      exec (.imgReadKey m) s = .next (s.mbMark m.val (s1.mbEnd m.val St.ok [q.val.length + 1 * 2 ^ 16]))) ∧
    (∀ (m : Fin 16) (e : MbExec) (s : State),
      s.MbRuns m.val e 0x70 →
      cmdArg e.cmd 0 / 2 ^ 16 = 1 →
      layerFind (s.begun m.val e).userLayer (cmdArg e.cmd 0 % 2 ^ 16) = none →
      exec (.imgReadKey m) s = .next (s.mbMark m.val ((s.begun m.val e).mbEnd m.val St.ok [3 * 2 ^ 16]))) ∧
    (∀ (m : Fin 16) (e : MbExec) (s : State),
      s.MbRuns m.val e 0x71 →
      (s.begun m.val e).session = false →
      exec (.imgBegin m) s = .next (s.mbMark m.val ((((((s.begun m.val e).wr F.CFG_STATUS_SESSION 1).wr F.CFG_STATUS_SESSION_MB m.val).norErase (s.begun m.val e).otherBank).showBank (s.begun m.val e).otherBank false).mbEnd m.val St.ok [(s.begun m.val e).otherBank]))) ∧
    (∀ (m : Fin 16) (e : MbExec) (d : List Byte) (s1 s : State),
      s.MbRuns m.val e 0x72 →
      (s.begun m.val e).session = true →
      cmdArg e.cmd 0 + cmdArg e.cmd 2 ≤ bankStatusOff →
      cmdArg e.cmd 1 + cmdArg e.cmd 2 ≤ (s.begun m.val e).dramEnd →
      (s.begun m.val e).busGet ((s.begun m.val e).mbMaster m.val) (cmdArg e.cmd 1) (cmdArg e.cmd 2) = (St.ok, d, false, s1) →
      exec (.imgWrite m) s = .next (s.mbMark m.val ((s1.norProgram (s1.otherBank * bankSize + cmdArg e.cmd 0) d).mbEnd m.val St.ok [cmdArg e.cmd 2]))) ∧
    (∀ (m : Fin 16) (e : MbExec) (s : State),
      s.MbRuns m.val e 0x73 →
      (s.begun m.val e).session = true →
      exec (.imgVerify m) s = .next (s.mbMark m.val (((if (s.begun m.val e).bankCheck (s.begun m.val e).otherBank = 0 then (((s.begun m.val e).wr F.CFG_STATUS_LAST_VERIFY ((s.begun m.val e).bankCheck (s.begun m.val e).otherBank)).programStatus (s.begun m.val e).otherBank stWritten).programStatus (s.begun m.val e).otherBank stVerified else ((s.begun m.val e).wr F.CFG_STATUS_LAST_VERIFY ((s.begun m.val e).bankCheck (s.begun m.val e).otherBank))).showBank (s.begun m.val e).otherBank ((s.begun m.val e).bankCheck (s.begun m.val e).otherBank = 0)).mbEnd m.val (if (s.begun m.val e).bankCheck (s.begun m.val e).otherBank = 0 then St.ok else St.integrity) [(s.begun m.val e).bankCheck (s.begun m.val e).otherBank, hdrGeneration ((s.begun m.val e).bankHeader (s.begun m.val e).otherBank), State.restartBound ((s.begun m.val e).bankHeader (s.begun m.val e).otherBank)]))) ∧
    (∀ (m : Fin 16) (e : MbExec) (s : State),
      s.MbRuns m.val e 0x74 →
      (s.begun m.val e).session = true →
      (s.begun m.val e).bankIs (s.begun m.val e).otherBank stVerified = true →
      (s.begun m.val e).bankIs (s.begun m.val e).otherBank stRejected = false →
      exec (.imgActivate m) s = .next (s.mbMark m.val ((((s.begun m.val e).programStatus (s.begun m.val e).otherBank stTrial).wr F.CFG_STATUS_SESSION 0).mbEnd m.val St.ok []))) ∧
    (∀ (m : Fin 16) (e : MbExec) (s : State),
      s.MbRuns m.val e 0x75 →
      (s.begun m.val e).on F.CFG_STATUS_NO_IMAGE = false →
      (s.begun m.val e).on F.CFG_STATUS_TRIAL = true →
      bit (cmdArg e.cmd 0) 0 = false →
      exec (.imgConfirm m) s = .next (s.mbMark m.val ((((s.begun m.val e).programStatus (s.begun m.val e).activeBank stConfirmed).wr F.CFG_STATUS_TRIAL 0).mbEnd m.val St.ok [(((s.begun m.val e).programStatus (s.begun m.val e).activeBank stConfirmed).wr F.CFG_STATUS_TRIAL 0).rd F.CFG_OTP_FLOOR]))) ∧
    (∀ (m : Fin 16) (e : MbExec) (s : State),
      s.MbRuns m.val e 0x76 →
      (s.begun m.val e).session = true →
      exec (.imgAbort m) s = .next (s.mbMark m.val ((((s.begun m.val e).programStatus (s.begun m.val e).otherBank stRejected).wr F.CFG_STATUS_SESSION 0).mbEnd m.val St.ok []))) ∧
    (∀ (m : Fin 16) (e : MbExec) (s : State),
      s.MbRuns m.val e 0x77 →
      (s.begun m.val e).rd F.CFG_OTP_KEY_PROGRAMMED &&& (15 ^^^ setBit ((s.begun m.val e).rd F.CFG_OTP_KEY_REVOKED) (cmdArg e.cmd 0) true) ≠ 0 →
      (s.begun m.val e).on F.CFG_STATUS_NO_IMAGE = true →
      exec (.imgRevokeKey m) s = .next (s.mbMark m.val (((s.begun m.val e).wr F.CFG_OTP_KEY_REVOKED (setBit ((s.begun m.val e).rd F.CFG_OTP_KEY_REVOKED) (cmdArg e.cmd 0) true)).mbEnd m.val St.ok [])))

/-- Safety, rest and link commands complete. For every mailbox whose accepted command has the opcode and has not run: SAFE_REQUEST ends
with OK and decides the safe state with its mailbox's cause; SAFETY_QUERY and LINK_QUERY return their words; REST_REQUEST writes
REQUEST, and FORCE if asked, and waits for the rest; REST_WITHDRAW withdraws it; LINK_RETRAIN and LINK_ENABLE write the link's
control word. -/
def Obligations.SafetyAndLinkCommandsComplete : Prop :=
  (∀ (m : Fin 16) (e : MbExec) (s : State),
      s.MbRuns m.val e 0x80 →
      (s.begun m.val e).modState ≠ stSafe →
      exec (.safeRequest m) s = .next (s.mbMark m.val (((s.begun m.val e).mbEnd m.val St.ok []).safeDecide (if m.val = 0 then 8 else 9) (cmdArg e.cmd 0)))) ∧
    (∀ (m : Fin 16) (e : MbExec) (s : State),
      s.MbRuns m.val e 0x81 →
      exec (.safetyQuery m) s = .next (s.mbMark m.val ((s.begun m.val e).mbEnd m.val St.ok [(s.begun m.val e).reg R.MODULE_STATE, (s.begun m.val e).mbSee m.val R.SAFE_STATUS]))) ∧
    (∀ (m : Fin 16) (e : MbExec) (s : State),
      s.MbRuns m.val e 0x90 →
      (s.begun m.val e).restEnabled (cmdUnit e.cmd) = true →
      bit (cmdArg e.cmd 0) 0 = false →
      exec (.restRequest m) s = .next (s.mbMark m.val (((s.begun m.val e).restWrite .castle (restUnit (cmdUnit e.cmd)) 1).mbWait m.val [waitRest, cmdUnit e.cmd, ((s.begun m.val e).restCounts (cmdUnit e.cmd)).1, ((s.begun m.val e).restCounts (cmdUnit e.cmd)).2]))) ∧
    (∀ (m : Fin 16) (e : MbExec) (s : State),
      s.MbRuns m.val e 0x90 →
      (s.begun m.val e).restEnabled (cmdUnit e.cmd) = true →
      bit (cmdArg e.cmd 0) 0 = true →
      exec (.restRequest m) s = .next (s.mbMark m.val ((((s.begun m.val e).restWrite .castle (restUnit (cmdUnit e.cmd)) 1).restWrite .castle (restUnit (cmdUnit e.cmd)) 2).mbWait m.val [waitRest, cmdUnit e.cmd, ((s.begun m.val e).restCounts (cmdUnit e.cmd)).1, ((s.begun m.val e).restCounts (cmdUnit e.cmd)).2]))) ∧
    (∀ (m : Fin 16) (e : MbExec) (s : State),
      s.MbRuns m.val e 0x91 →
      exec (.restWithdraw m) s = .next (s.mbMark m.val (((s.begun m.val e).restWrite .castle (restUnit (cmdUnit e.cmd)) 0x100).mbEnd m.val St.ok []))) ∧
    (∀ (m : Fin 16) (e : MbExec) (s : State),
      s.MbRuns m.val e 0xA0 →
      exec (.linkQuery m) s = .next (s.mbMark m.val ((s.begun m.val e).mbEnd m.val St.ok [(s.begun m.val e).mbSee m.val (R.ZL_STATUS (cmdArg e.cmd 0)), (s.begun m.val e).mbSee m.val (R.ZL_COUNTS (cmdArg e.cmd 0)), (s.begun m.val e).mbSee m.val R.NET_STATUS]))) ∧
    (∀ (m : Fin 16) (e : MbExec) (s : State),
      s.MbRuns m.val e 0xA1 →
      exec (.linkRetrain m) s = .next (s.mbMark m.val (((s.begun m.val e).mbSet m.val (R.ZL_CTRL (cmdArg e.cmd 0)) ((s.begun m.val e).reg (R.ZL_CTRL (cmdArg e.cmd 0)) % 2 + 2)).mbEnd m.val St.ok []))) ∧
    (∀ (m : Fin 16) (e : MbExec) (s : State),
      s.MbRuns m.val e 0xA2 →
      exec (.linkEnable m) s = .next (s.mbMark m.val (((s.begun m.val e).mbSet m.val (R.ZL_CTRL (cmdArg e.cmd 0 % 4)) (bit (cmdArg e.cmd 0) 8).toNat).mbEnd m.val St.ok [])))

/-- Castle supervision commands complete. A message at the castle's inbox enters it; a message at a comparison point, stage clock,
supervisor, or a plane's report is delivered to it; a complete frame gets its verdict; a castle write arms a stage clock or a
supervisor; a kick or mark written by one who may write it counts; the limits of clocks and supervisors run out; a detector samples
its slot. -/
def Obligations.SupervisionComplete : Prop :=
  (∀ (m : Msg) (s : State),
      m.dest = 0xA000 →
      m.cls = 1 ∨ m.cls = 3 →
      isPlaneReport m = false →
      s.castle.inbox.length < 256 →
      exec (.castleInboxMessage m) s = .next ((({ s with net := s.net.erase m, castle := { s.castle with inbox := s.castle.inbox ++ [{ m with payload := m.payload.take 48 }] } } : State).wr F.CASTLE_INBOX_FILL (s.castle.inbox.length + 1)).ack m)) ∧
    (∀ (m : Msg) (s : State),
      0xA400 ≤ m.dest →
      m.dest < 0xA420 →
      m.cls = 1 ∨ m.cls = 3 →
      isPlaneReport m = false →
      m.op = 1 →
      16 ≤ m.payload.length →
      exec (.cpSubmission m) s = .next (((s.takeMsg m).cpSubmit (m.dest - 0xA400) m).ack m)) ∧
    (∀ (m : Msg) (s : State),
      isPlaneReport m = true →
      m.dest = 0xA000 →
      m.cls = 1 ∨ m.cls = 3 →
      exec (.planeReportArrive m) s = .next (s.castleDeliver m)) ∧
    (∀ (c : Fin 32) (s : State),
      s.cpReady c.val = true →
      exec (.cpVerdict c false) s = .next (s.cpVerdict c.val)) ∧
    (∀ (c : Fin 32) (s : State),
      s.cpReady c.val = true →
      exec (.cpVerdict c true) s = .next (((s.bump F.ARB_STATUS_INSTANCE_MISMATCHES).setCp c.val { s.cp c.val with opn := none }).safeDecide 6 0)) ∧
    (∀ (c : Fin 32) (f : CpFrame) (s : State),
      (s.cp c.val).opn = some f →
      exec (.cpDeadline c) s = .next (s.cpVerdict c.val)) ∧
    (∀ (n : Fin 128) (d : WData) (s : State),
      d.lowWritten = true →
      (s.writeReg (R.SC_CFG n.val) d).on (F.SC_CFG_ARM n.val) = true →
      exec (.scArm .castle n d) s = .next (((s.writeReg (R.SC_CFG n.val) d).setSc n.val ⟨s.now, false⟩).wr (F.SC_STATUS_STATE n.val) 1)) ∧
    (∀ (m : Msg) (s : State),
      0xA100 ≤ m.dest →
      m.dest < 0xA180 →
      m.cls = 1 ∨ m.cls = 3 →
      isPlaneReport m = false →
      m.op = 1 →
      srcOk (s.rd (F.SC_CFG_SOURCE_UNIT (m.dest - 0xA100))) m.src = true →
      exec (.scKick m) s = .next (((s.takeMsg m).scKick (m.dest - 0xA100) (some (field m.payload 0 2))).ack m)) ∧
    (∀ (r : Req) (n : Fin 128) (d : WData) (s : State),
      s.mayKick r (s.rd (F.SC_CFG_PARTITION n.val)) = true →
      d.lowWritten = true →
      exec (.scKickWrite r n d) s = .next (s.scKick n.val (some (bits d.bits1 0 16)))) ∧
    (∀ (n : Fin 128) (s : State),
      s.rd (F.SC_STATUS_STATE n.val) = 2 →
      exec (.scLate n) s = .next (s.scFall n.val 2)) ∧
    (∀ (t : Fin 64) (d : WData) (s : State),
      d.lowWritten = true →
      exec (.tsArm .castle t d) s = .next (((s.writeReg (R.TS_CFG t.val) d).wr (F.TS_STATUS_FALLEN t.val) 0).wr (F.TS_STATUS_STATE t.val) (if ((s.writeReg (R.TS_CFG t.val) d).wr (F.TS_STATUS_FALLEN t.val) 0).on (F.TS_CFG_ARM t.val) then 1 else 0))) ∧
    (∀ (m : Msg) (s : State),
      0xA200 ≤ m.dest →
      m.dest < 0xA240 →
      m.cls = 1 ∨ m.cls = 3 →
      isPlaneReport m = false →
      srcOk (s.rd (F.TS_CFG_SOURCE_UNIT (m.dest - 0xA200))) m.src = true →
      exec (.tsMark m) s = .next (((s.takeMsg m).tsMark (m.dest - 0xA200) (if m.op = 4 then 1 else field m.payload 0 1)).ack m)) ∧
    (∀ (r : Req) (t : Fin 64) (d : WData) (s : State),
      s.mayKick r (s.rd (F.TS_CFG_PARTITION t.val)) = true →
      d.lowWritten = true →
      exec (.tsMarkWrite r t d) s = .next (s.tsMark t.val (bits d.bits1 0 2))) ∧
    (∀ (t : Fin 64) (s : State),
      s.on (F.TS_CFG_PERIODIC t.val) = true →
      exec (.tsPeriodicAct t) s = .next (s.tsMark t.val 1)) ∧
    (∀ (t : Fin 64) (s : State),
      s.on (F.TS_STATUS_FALLEN t.val) = false →
      s.rd (F.TS_STATUS_STATE t.val) = 2 →
      s.on (F.TS_LIMITS_START_MAX t.val) = true →
      exec (.tsLimitExpire t 1) s = .next (s.tsViolate t.val 1)) ∧
    (∀ (t : Fin 64) (s : State),
      s.on (F.TS_STATUS_FALLEN t.val) = false →
      s.rd (F.TS_STATUS_STATE t.val) = 3 →
      s.on (F.TS_LIMITS_EXEC_MAX t.val) = true →
      exec (.tsLimitExpire t 2) s = .next (s.tsViolate t.val 2)) ∧
    (∀ (t : Fin 64) (s : State),
      s.on (F.TS_STATUS_FALLEN t.val) = false →
      s.rd (F.TS_STATUS_STATE t.val) = 2 ∨ s.rd (F.TS_STATUS_STATE t.val) = 3 →
      s.on (F.TS_LIMITS_DEADLINE t.val) = true →
      exec (.tsLimitExpire t 3) s = .next (s.tsViolate t.val 3)) ∧
    (∀ (ix : Fin 32) (s : State),
      s.on (F.STREAM_STATUS_FROZEN ix.val) = true →
      s.rd (F.STREAM_STATUS_MISSING_ITEMS ix.val) - (mget fz0 s.castle.fz ix.val).missing < (s.rd (F.IQ_COUNTS_ITEMS ix.val) + 2 ^ 32 - (mget fz0 s.castle.fz ix.val).items) % 2 ^ 32 →
      exec (.fzSample ix) s = .next (({ s with castle := { s.castle with fz := mset fz0 s.castle.fz ix.val ⟨s.rd (F.IQ_COUNTS_ITEMS ix.val), s.rd (F.STREAM_STATUS_MISSING_ITEMS ix.val)⟩ } } : State).wr (F.FZ_STATUS_MISS_RUN ix.val) 0))

/-- Rotation and safe-state commands complete. With the rotation enabled and no entry in progress, the next entry starts; the grace
periods force and then withdraw a rest; a test's end is recorded; a castle fault and a castle's request are decisions for the safe
state; a restart applies the image and completes in SAFE; a latch holds; SAFE_EXIT returns a held module to RUN. -/
def Obligations.RotationAndSafeStateComplete : Prop :=
  (∀ (s : State),
      s.on F.ROT_CFG_ENABLE = true →
      s.castle.rot.unit = none →
      s.modState = stRun ∨ s.modState = stSafe →
      exec .rotationEntryStart s = .next (s.rotEntry)) ∧
    (∀ (u : Nat) (s : State),
      s.rotWaits = some u →
      s.castle.rot.forced = false →
      exec .restGraceExpire s = .next ((s.setRot { s.castle.rot with forced := true }).restWrite .castle (restUnit u) 2)) ∧
    (∀ (u : Nat) (s : State),
      s.rotWaits = some u →
      s.castle.rot.forced = true →
      exec .forceGraceExpire s = .next ((s.restWrite .castle (restUnit u) 0x100).rotTimeout u)) ∧
    (∀ (u : Nat) (s : State),
      s.castle.rot.unit = some u →
      restTested u = true →
      (s.restCounts u).2 = s.castle.rot.fails →
      (s.restCounts u).1 ≠ s.castle.rot.rests →
      exec (.selfTestDone false) s = .next ((s.setRot { s.castle.rot with timeouts := mset 0 s.castle.rot.timeouts u 0 }).rotEnd)) ∧
    (∀ (s : State),
      s.castle.rot.unit = some 0xA002 →
      exec (.selfTestDone true) s = .next (s.rotEnd.rotFail 0xA002)) ∧
    (∀ (kind : Fin 5) (s : State),
      ∃ t, exec (.castleFault kind) s = .next t ∧ t = s.castleFault kind.val) ∧
    (∀ (s : State),
      s.castle.running = false →
      exec (.castleRestartDone true) s = .next { s with castle := { s.castle with running := true } }) ∧
    (∀ (s : State),
      s.entering = false →
      s.asleep = false →
      s.pwPhase = pwSteady →
      exec (.safeReq .castle) s = .next (s.decideNow 9 0)) ∧
    (∀ (s : State),
      s.safePhase = phRestarting →
      s.castle.stage = 1 →
      (∀ p < 8, s.partSt p ≠ ptResetting) →
      exec .safeRestartApply s = .next (s.restartApply)) ∧
    (∀ (s : State),
      s.safePhase = phRestarting →
      s.castle.stage = 2 →
      s.restartReady = true →
      ∃ t, exec .safeRestartComplete s = .next t ∧ t.rd F.SAFE_STATUS_PHASE = phHeld ∧ t.modState = stSafe ∧ t.mem = s.mem) ∧
    (∀ (reason : Fin 7) (s : State),
      1 ≤ reason.val →
      reason.val ≤ 4 →
      s.safePhase = phRestarting →
      exec (.safeLatch reason) s = .next (((s.assertHold.wr F.SAFE_STATUS_PHASE phLatched).wr F.SAFE_STATUS_RESTART_FAIL 1).event 0xA000 0x7009 reason.val [])) ∧
    (∀ (s : State),
      s.castle.running = false →
      s.safePhase ≠ phLatched →
      exec (.safeLatch 5) s = .next ((s.assertHold.wr F.SAFE_STATUS_PHASE phLatched).event 0xA000 0x7009 5 [])) ∧
    (∀ (s : State),
      s.safePhase = phHeld →
      exec (.safeExit .castle) s = .next (s.leaveSafe))

/-- Memory and interrupt commands complete. A unit's read of a line it may reach returns the line; its write of bytes it may write
stores them and leaves every other byte; the scrubber of a fitted controller reads its next line; a bandwidth window ends; a
temperature reading, a route and a timer match set their bits. -/
def Obligations.MemoryCommandsComplete : Prop :=
  (∀ (u : Fin 65536) (a : Nat) (found : Ecc) (s : State),
      exec (.dramRead u a found) s = .next (s.lineRead u.val a found)) ∧
    (∀ (u : Fin 65536) (a : Nat) (data : List Byte) (poison : Bool) (s : State),
      s.partInReset (s.unitMaster u.val) = false →
      a + data.length < 0x400000000000 →
      a + data.length ≤ s.dramEnd →
      s.dramOpen (s.unitMaster u.val) a data.length = true →
      exec (.dramWrite u a data poison) s = .next ((s.dramWrite (s.unitMaster u.val) a data poison).2.withAcc u.val (s.dramWrite (s.unitMaster u.val) a data poison).1 [] false)) ∧
    (∀ (c : Fin 8) (found : Ecc) (s : State),
      s.on F.MC_CTRL_SCRUB_EN = true →
      bit (s.rd F.MC_STATUS_PRESENT) c.val = true →
      exec (.scrubRead c found) s = .next (s.scrub c.val found)) ∧
    (∀ (waiting : List (Fin 8 × Fin 9)) (s : State),
      ∃ t, exec (.shareWindow waiting) s = .next t ∧ t = s.shareWindow (waiting.map (fun w => (w.1.val, w.2.val))) ∧ t.mc.charge = [] ∧ t.mem = s.mem) ∧
    (∀ (c : Fin 8) (hot : Bool) (s : State),
      exec (.packageTempSample c hot) s = .next (s.wrBit F.MC_STATUS_HOT c.val hot)) ∧
    (∀ (r : Req) (ix : Fin 32) (d : WData) (s : State),
      r.trusted = true →
      s.irqRouteOk ix.val (d.over (s.reg (R.MC_CTRL + (0x240 + ix.val * 8)))) = true →
      exec (.irqRouteWrite r ix d) s = .next (s.writeReg (R.MC_CTRL + (0x240 + ix.val * 8)) d)) ∧
    (∀ (c : Fin 12) (s : State),
      mget 0 s.cores.cmp c.val ≤ s.cores.mtime →
      exec (.mtimecmpMatch c) s = .next { s with cores := { s.cores with timer := setBit s.cores.timer c.val true } })

/-- PCIe commands complete. In endpoint mode with the link up, a host access through BAR0 reads or writes registers, through BAR2 the
mailbox windows and through BAR4 an enabled aperture; an access of a unit goes out through an open window; a root-port device
reaches memory through its context; the link goes down, trains and comes up; PERST_N is released. -/
def Obligations.PcieComplete : Prop :=
  (∀ (off : Nat) (op : BarOp) (s : State),
      s.on F.PCIE_STATUS_ROOT_PORT = false →
      s.on F.PCIE_STATUS_LINK_UP = true →
      s.boot.phase = 3 →
      exec (.pcieInboundAccess .bar0 off op) s = .next (s.barReg (csrBase + off % 0x800000) op)) ∧
    (∀ (off : Nat) (op : BarOp) (s : State),
      s.on F.PCIE_STATUS_ROOT_PORT = false →
      s.on F.PCIE_STATUS_LINK_UP = true →
      s.boot.phase = 3 →
      exec (.pcieInboundAccess .bar2 off op) s = .next (s.barMem (mbxWin 0 + off % 0x20000) op)) ∧
    (∀ (off : Nat) (op : BarOp) (ad : Nat) (s : State),
      s.on F.PCIE_STATUS_ROOT_PORT = false →
      s.on F.PCIE_STATUS_LINK_UP = true →
      s.boot.phase = 3 →
      s.on (F.PCIE_IB_ENABLE (off / 2 ^ 30 % 16)) = true →
      ad = s.rd (F.PCIE_IB_TARGET (off / 2 ^ 30 % 16)) * 2 ^ 30 + off % 2 ^ 30 →
      ¬ (csrBase ≤ ad ∧ ad < csrBase + 0x800000) →
      exec (.pcieInboundAccess .bar4 off op) s = .next (s.barMem ad op)) ∧
    (∀ (u : Fin 65536) (a : Nat) (data : List Byte) (ctx : Bool) (n k : Nat) (s : State),
      obIndex a = some k →
      s.obOpen (s.unitMaster u.val) k a n = true →
      s.on F.PCIE_STATUS_LINK_UP = true →
      exec (.pcieOutboundAccess u a (.read n) data true ctx) s = .next { s with acc := ⟨St.ok, (padTo n data).take n, false, false, false, s.rd (F.PCIE_OB_HOST_HOST k) + (a - obWin k)⟩ }) ∧
    (∀ (hits : List IommuHit) (n a c : Nat) (hh : IommuHit) (b : List Byte) (p : Bool) (s1 s : State),
      s.on F.PCIE_STATUS_ROOT_PORT = true →
      s.on F.PCIE_STATUS_LINK_UP = true →
      firstHit hits = some hh →
      hh.addr = some a →
      s.busGet ⟨0xC200, some hh.iommu.val, false⟩ a n = (c, b, p, s1) →
      exec (.pcieDeviceRequest hits (.read n)) s = .next (s1.withAcc 0xC200 c b p)) ∧
    (∀ (s : State),
      s.on F.PCIE_STATUS_LINK_UP = true →
      ∃ t, exec .pcieLinkDown s = .next t ∧ t.rd F.PCIE_STATUS_LINK_UP = 0 ∧ t.pcie.training = !s.pcie.perst ∧ t.mem = s.mem) ∧
    (∀ (speed : Fin 6) (width : Fin 9) (s : State),
      s.pcie.training = true →
      ∃ t, exec (.pcieLinkUp speed width) s = .next t ∧ t.rd F.PCIE_STATUS_LINK_UP = 1 ∧ t.pcie.training = false ∧ t.mem = s.mem) ∧
    (∀ (s : State),
      s.pcie.perst = true →
      exec .perstRelease s = .next { s with pcie := { s.pcie with perst := false, training := true } })

/-- Link commands complete. A D2D module that fails goes out of service; a link that trains, a declaration, and the end of the formation
window form the network; a frame that is due is taken; a lost link recomputes routes; NET_REFORM starts anew; an item reaches a
running relay. -/
def Obligations.LinksComplete : Prop :=
  (∀ (k : Fin 4) (s1 s : State),
      bit (s.rd F.D2D_STATUS_MODULE_UP) k.val = true →
      s1 = (((s.wrBit F.D2D_STATUS_MODULE_UP k.val false).wrBit F.D2D_STATUS_MODULE_FAILED k.val true).event (0xC100 + k.val) 0x6004 k.val [((s.wrBit F.D2D_STATUS_MODULE_UP k.val false).wrBit F.D2D_STATUS_MODULE_FAILED k.val true).rd F.D2D_STATUS_MODULE_FAILED]) →
      4 - (bitList (s1.rd F.D2D_STATUS_MODULE_UP) 4).length < 2 →
      exec (.d2dModuleFail k) s = .next (s1)) ∧
    (∀ (p : PeerHello) (k : Fin 4) (s : State),
      s.zlEnabled k.val = true →
      s.on (F.ZL_CTRL_ENABLE k.val) = true →
      s.zlTrained k.val = false →
      exec (.zorraLinkTrained (.own k) p) s = .next (s.linkTrained k.val p)) ∧
    (∀ (p : PeerHello) (a b : Nat) (s : State),
      exec (.zorraLinkTrained (.remote a b) p) s = .next (({ s with link := { s.link with edges := s.link.edges ++ [(a, b)] } } : State).numberNet)) ∧
    (∀ (s : State),
      s.netState = netForming →
      s.link.ended = false →
      s.link.known.head? = some s.serial →
      exec .formWindowExpire s = .next (s.formNet s.link.known s.link.edges)) ∧
    (∀ (s : State),
      s.netState = netForming →
      s.link.ended = false →
      s.link.known.head? ≠ some s.serial →
      exec .formWindowExpire s = .next { s with link := { s.link with ended := true } }) ∧
    (∀ (k : Fin 4) (members : List Nat) (edges : List (Nat × Nat)) (l : List Nat) (s : State),
      s.zlTrained k.val = true →
      s.netState ≠ netFormed →
      l = unionAsc [] members →
      l.contains s.serial = true →
      (∀ y ∈ s.serial :: s.link.known, l.headD 0 ≤ y) →
      exec (.declarationReceive k members edges) s = .next (s.formNet l edges)) ∧
    (∀ (s : State),
      s.netState = netForming →
      s.link.ended = true →
      exec .declarationTimeout s = .next (s.formNet s.link.known s.link.edges)) ∧
    (∀ (k : Fin 4) (seq : Fin 4096) (c : LinkData) (s : State),
      s.zlState k.val = zlUp →
      seq.val = (mget ⟨0⟩ s.link.zl k.val).due →
      ∃ t, exec (.linkFrameReceive k seq true false 0 c) s = .next t ∧ t = (({ s.bumpBy (F.ZL_COUNTS_FEC_CORRECTED k.val) 0 with link := { s.link with zl := mset ⟨0⟩ s.link.zl k.val ⟨(seq.val + 1) % 4096⟩ } } : State).linkTake c)) ∧
    (∀ (k : Fin 4) (seq : Fin 4096) (nack : Bool) (c : LinkData) (s : State),
      s.zlTrained k.val = true →
      exec (.linkFrameReceive k seq false nack 0 c) s = .next ((s.bumpBy (F.ZL_COUNTS_FEC_CORRECTED k.val) 0).bump (F.ZL_COUNTS_CRC_ERRORS k.val))) ∧
    (∀ (k : Fin 4) (s : State),
      s.zlTrained k.val = true →
      exec (.linkTimeout (.own k)) s = .next (s.linkDown k.val)) ∧
    (∀ (r : Req) (d : WData) (s : State),
      r.trusted = true →
      bit d.bits1 2 = true →
      exec (.netReform r d) s = .next (((s.writeReg R.LINK_CTRL d).wr F.LINK_CTRL_NET_REFORM 0).netReform)) ∧
    (∀ (n : Fin 8) (item : List Byte) (s : State),
      s.on (F.RLY_CFG_ENABLE n.val) = true →
      s.on (F.RLY_CFG_RECEIVE n.val) = true →
      exec (.relayItem n item) s = .next (s.relayTake n.val item))

/-- Power state, loop and supply commands complete. Votes, requested points and PWR_CTRL.WAKE written by one who may write them take
effect; an entry that waits too long is abandoned, one whose participants all allow commits, and a committed one ends in its state;
a wake source wakes, and a wake ends in RUN; the V-F step, cap, peak and thermal loops act; supply losses, returns and faults are
recorded. -/
def Obligations.PowerComplete : Prop :=
  (∀ (r : Req) (d : WData) (s : State),
      r.trusted = true →
      exec (.pwrVoteWrite r d) s = .next ((s.setReg R.PWR_VOTE (d.over (s.reg R.PWR_VOTE) % 2 ^ 20)).entryRefusals)) ∧
    (∀ (code : Nat) (s : State),
      s.pwPhase = pwHandshake →
      (s.entryReplies.find? (fun y => y.2 = 1) = some (code, 1)) →
      exec .entryDelayTimeout s = .next (s.abandonEntry code true)) ∧
    (∀ (s : State),
      s.pwPhase = pwHandshake →
      (s.entryReplies.all (fun y => y.2 = 0) = true) →
      s.pwr.target = stPark →
      exec .entryCommit s = .next ((({ s with pwr := { s.pwr with result := some St.ok, entryAt := s.now } } : State).wr F.PWR_STATUS_PHASE pwCommitted).coresHold (List.range 12))) ∧
    (∀ (s : State),
      s.entering = true →
      s.pwr.held = none →
      s.pwr.target = stPark →
      ∃ t, exec .entryComplete s = .next t ∧ t = s.entryEnd ∧ t.rd F.PWR_STATUS_PHASE = pwSteady ∧ t.modState = stPark) ∧
    (∀ (s : State),
      s.wakeOn 0 = true →
      exec .wakePin s = .next (s.wake 0x03 0)) ∧
    (∀ (s : State),
      s.wakeOn 4 = true →
      s.rd F.PWR_WAKE_TIMER_TIMER_MS ≠ 0 →
      s.asleep = true →
      exec .wakeTimer s = .next (s.wake 0x07 0)) ∧
    (∀ (s : State),
      exec (.pwrWakeWrite .castle) s = .next (s.wake 0x02 0)) ∧
    (∀ (crcFail : Bool) (s : State),
      s.pwPhase = pwWaking →
      s.modState = stPark →
      exec (.wakeComplete crcFail) s = .next (((s.wakeUnits false).coresResume.syncViews).wakeEnd (s.rd F.PWR_WAKE_STATUS_LAST_SOURCE))) ∧
    (∀ (k : Nat) (s : State),
      s.loops.step = some k →
      exec .vfStepDone s = .next ((s.setLoops { s.loops with opp := k, step := none }).showFreq.vfNext)) ∧
    (∀ (r : Req) (d : WData) (s : State),
      r.trusted = true →
      exec (.oppReqWrite r d) s = .next ((s.writeReg R.PWR_OPP d).oppEval 0)) ∧
    (∀ (mw : Nat) (s : State),
      s.loops.step = none →
      s.modState = stRun ∨ s.modState = stSafe →
      exec (.capWindow mw) s = .next (s.capWindow mw)) ∧
    (∀ (s : State),
      exec .peakOvercurrent s = .next (s.wr F.PWR_STATUS_PEAK_ACTIVE 1)) ∧
    (∀ (s : State),
      s.on F.PWR_STATUS_PEAK_ACTIVE = true →
      exec .peakRelease s = .next ((s.wr F.PWR_STATUS_PEAK_ACTIVE 0).bump F.PWR_OVERRIDE_PEAK_EVENTS)) ∧
    (∀ (p : Int) (s : State),
      s.modState = stRun ∨ s.modState = stSafe →
      exec (.thermalTick p) s = .next (s.thermalTick p)) ∧
    (∀ (mv : Nat) (s : State),
      s.boot.phase = 3 →
      s.pwPhase ≠ pwShutdown →
      s.on F.PWR_STATUS_SUPPLY_LOSS = false →
      ∃ t, exec (.vinLoss mv) s = .next t ∧ t = s.vinLoss mv ∧ t.mem = [] ∧ t.modState = stDeep ∧ t.rd F.PWR_STATUS_PHASE = pwShutdown) ∧
    (∀ (s : State),
      exec .vinBrownout s = .next (s.bump F.PWR_SUPPLY_BROWNOUTS)) ∧
    (∀ (s : State),
      s.pwPhase = pwShutdown →
      ∃ t, exec .vinReturn s = .next t ∧ t.boot.phase = 1 ∧ t.boot.cause = 0x12 ∧ t.mem = s.mem) ∧
    (∀ (mv : Nat) (s : State),
      s.pwr.vaon = false →
      mv < s.rd F.PWR_HOLDUP_CFG_VHOLD_MIN_MV →
      ∃ t, exec (.holdupLow mv) s = .next t ∧ t.boot.phase = 0 ∧ t.img.nor = s.img.nor ∧ t.mem = []) ∧
    (∀ (mv : Nat) (left : Int) (s : State),
      s.boot.holdup = true →
      s.rd F.PWR_HOLDUP_CFG_CHARGE_FULL_MC ≠ 0 →
      0 < left →
      s.rd F.PWR_HOLDUP_CFG_VHOLD_MIN_MV ≤ mv →
      exec (.holdupDisagree mv left) s = .next ((s.wr F.PWR_HOLDUP_VHOLD_MV mv).wr F.PWR_HOLDUP_CHARGE_LEFT_MC (satI 24 left))) ∧
    (∀ (mv : Nat) (s : State),
      s.boot.holdup = true →
      s.rd F.PWR_HOLDUP_CFG_VHOLD_FULL_MV ≤ mv →
      ∃ t, exec (.holdupFull mv) s = .next t ∧ t.rd F.PWR_HOLDUP_FULL = 1 ∧ t.rd F.PWR_HOLDUP_DISAGREE = 0 ∧ t.mem = s.mem) ∧
    (∀ (rail : Fin 5) (s : State),
      rail.val ≠ 4 →
      exec (.railFault rail) s = .next ((s.event 0xE000 0x8008 rail.val []).safeDecide 11 0x17)) ∧
    (∀ (s : State),
      exec (.railFault 4) s = .next (s.castleFault 4)) ∧
    (∀ (s : State),
      s.modState = stPark →
      exec .retentionLoss s = .next { s with pwr := { s.pwr with lost := true } }) ∧
    (∀ (s : State),
      exec .vaonLoss s = .next (({ s with pwr := { s.pwr with vaon := false } } : State).wr F.PWR_HOLDUP_ON_HOLDUP 1)) ∧
    (∀ (s : State),
      exec .vaonReturn s = .next (({ s with pwr := { s.pwr with vaon := true } } : State).wr F.PWR_HOLDUP_ON_HOLDUP 0))

/-- Clock, boot and reset commands complete. A gateable domain gates and restarts; references are lost, qualify, switch and hold over; a
domain that fails is recorded; power-up waits for VIN, boots the chosen bank and ends in RUN with PHASE HELD; a module reset puts
every domain off with the memory lost and the NOR kept. -/
def Obligations.ClockAndBootComplete : Prop :=
  (∀ (d : Fin 112) (gated : Bool) (s : State),
      d.val < 64 →
      s.present (0x1000 + d.val) = true →
      exec (.clockGate d gated) s = .next (s.wrBit F.CLK_GATED_LO_GATED d.val gated)) ∧
    (∀ (ref : Fin 2) (s : State),
      exec (.refclkLoss ref) s = .next (s.refLost ref.val)) ∧
    (∀ (ref : Fin 2) (s : State),
      ref.val = 0 ∨ s.boot.refB = true →
      exec (.refclkQualified ref) s = .next (s.refQualified ref.val)) ∧
    (∀ (k : Nat) (s : State),
      s.clk.dst = some k →
      s.refQual k = true →
      ∃ t, exec .clockSwitchDone s = .next t ∧ t.clk.dst = none ∧ t.rd F.CLK_STATUS_ACTIVE = k % 2 ∧ t.rd F.CLK_STATUS_SWITCHING = 0 ∧ t.mem = s.mem) ∧
    (∀ (r : Req) (d : WData) (s : State),
      r.trusted = true →
      bit d.bits1 1 = true →
      bit d.bits1 0 = false →
      s.refQual (1 - s.rd F.CLK_STATUS_ACTIVE) = true →
      s.clk.dst = none →
      exec (.clkSwitch r d) s = .next (s.clkStart (1 - s.rd F.CLK_STATUS_ACTIVE) false)) ∧
    (∀ (s : State),
      s.refQual 0 = false →
      s.refQual 1 = false →
      s.on F.CLK_STATUS_ON_INTERNAL = false →
      exec .clockHoldoverExpire s = .next (((s.wr F.CLK_STATUS_ON_INTERNAL 1).wr F.CLK_STATUS_HOLDOVER 0).safeDecide 11 0x15)) ∧
    (∀ (d : Fin 112) (s : State),
      s.clkFailed d.val = false →
      d.val < 64 →
      s.present (0x1000 + d.val) = true →
      exec (.clockDomainFail d) s = .next (s.domainFail d.val)) ∧
    (∀ (rootPort holdup test refB : Bool) (s : State),
      s.boot.phase = 0 →
      test = false →
      ∃ t, exec (.powerUp rootPort holdup test refB) s = .next t ∧ t.boot = ⟨1, 0, rootPort, holdup, refB⟩ ∧ t.mem = [] ∧ t.img.nor = s.img.nor) ∧
    (∀ (refA refB : Bool) (s : State),
      s.boot.phase = 1 →
      exec (.vinPresent refA refB) s = .next (s.bootRun s.boot.cause refA refB)) ∧
    (∀ (s : State),
      s.boot.phase = 2 →
      ∃ t, exec .bootComplete s = .next t ∧ t.boot.phase = 3 ∧ t.modState = stRun ∧ t.net = s.net) ∧
    (∀ (s : State),
      ∃ t, exec .moduleReset s = .next t ∧ t.boot.phase = 0 ∧ t.mem = [] ∧ t.img.nor = s.img.nor ∧ t.log = State.reset.log)

/-- Registers after reset, by the reset columns of their tables. After reset: every timebase has RATE_ADJ 0 and counts no step, every
mailbox has its positions at 0 and SEQ_VALID 0, every square has x0 to x31 at 0 and is outside its handler, no mask of a phase
event, no stage of a trajectory and no reject is counted, CLK_FREQ holds the nominal frequencies, and the event log is empty. -/
def Obligations.ResetRegisters : Prop :=
  (∀ n < 8, State.reset.rd (F.TB_RATE_RATE_ADJ n) = 0 ∧ State.reset.rd (F.TB_STATUS_STEPS n) = 0) ∧
    (∀ m < 16, State.reset.rd (F.MB_POS_HEAD m) = 0 ∧ State.reset.rd (F.MB_POS_TAIL m) = 0 ∧
      State.reset.rd (F.MB_POS_RESP_HEAD m) = 0 ∧ State.reset.rd (F.MB_POS_RESP_TAIL m) = 0 ∧
      State.reset.rd (F.MB_SEQ_SEQ_VALID m) = 0) ∧
    (∀ n < 64, State.reset.rd (F.SQ_STATE_IN_HANDLER n) = 0) ∧
    (∀ j < 64, State.reset.rd (F.PE_CTRL_ARM j) = 0) ∧
    State.reset.rd F.TIME_REJECTS_COUNT = 0 ∧ State.reset.rd F.MBX_REJECTS_COUNT = 0 ∧ State.reset.rd F.CC_REJECTS_COUNT = 0 ∧
    State.reset.rd F.DYN_REJECTS_COUNT = 0 ∧ State.reset.reg R.CLK_FREQ = 0x03E8096004B005DC ∧
    State.reset.log.ring = [] ∧ State.reset.net = []

/-- The state after reset meets the invariants. After reset the queue is empty, memory is in canonical form with nothing listed, and
every byte reads as the model has unwritten memory read (zero: its choice, log entry 2). -/
def Obligations.ResetMeetsInvariants : Prop :=
  State.reset.pending = [] ∧ State.reset.MemOk ∧ State.reset.mem = [] ∧ ∀ a, State.reset.byte a = 0

/-- Every step keeps the canonical form of memory. For every state whose memory is in canonical form (addresses strictly rising, no byte
listed that reads the same unlisted), whatever command is at the front of its queue and also on an empty queue: if the step goes on,
the memory of the state it goes on to is in canonical form. -/
def Obligations.EveryStepKeepsMemory : Prop :=
  ∀ s t : State, s.MemOk → step s = .next t → t.MemOk

/-- No command touches the queue or the time. For every command and state: if exec answers a next state, the queue and the time in it
are those before. Only a step takes from the queue, and only a cycle of TIME_CLK moves the time. -/
def Obligations.EveryCommandKeepsQueueAndTime : Prop :=
  ∀ (c : Instr) (s t : State), exec c s = .next t → t.pending = s.pending ∧ t.now = s.now

/-- Commands that store nothing leave every byte of memory. For each of the 190 commands that `storesNothing` names (the register-only
commands of every family: timebases, phases, ports, queues, square control, checker commits, safety, links, power) and every state:
if exec answers a next state, every byte of memory reads as before. -/
def Obligations.CommandsThatStoreNothing : Prop :=
  ∀ (c : Instr) (s t : State), storesNothing c = true → exec c s = .next t → ∀ a, t.byte a = s.byte a

/-- A register write acts on each bit by its access code. For every row of the register table, lock, old value, write data and bit below
64, where the bit belongs to fields of one code alone: an RW bit in the written half takes the written bit; an RWL bit does so while
the block's LOCK is clear and stands while it is set; a W1S bit is set by a 1 and stands on a 0; a W1C bit is cleared by a 1 and
stands on a 0; a bit outside the written half stands whatever its code; a bit of no such code (RO, RC, WO, reserved) stands. -/
def Obligations.RegisterAccessCodes : Prop :=
  ∀ (r : RegSpec) (locked : Bool) (old : Nat) (d : WData) (i : Nat), i < 64 →
    (bit (r.mask .rw) i = true → bit (r.mask .w1s) i = false → bit (r.mask .w1c) i = false → bit d.half.mask i = true →
      bit (writeWord r locked old d) i = bit d.value.toNat i) ∧
    (bit (r.mask .rwl) i = true → bit (r.mask .rw) i = false → bit (r.mask .w1s) i = false → bit (r.mask .w1c) i = false →
      bit d.half.mask i = true → bit (writeWord r locked old d) i = if locked then bit old i else bit d.value.toNat i) ∧
    (bit (r.mask .w1s) i = true → bit (r.mask .rw) i = false → bit (r.mask .rwl) i = false → bit (r.mask .w1c) i = false →
      bit d.half.mask i = true → bit (writeWord r locked old d) i = (bit old i || bit d.value.toNat i)) ∧
    (bit (r.mask .w1c) i = true → bit (r.mask .rw) i = false → bit (r.mask .rwl) i = false → bit (r.mask .w1s) i = false →
      bit d.half.mask i = true → bit (writeWord r locked old d) i = (bit old i && !bit d.value.toNat i)) ∧
    (bit d.half.mask i = false → bit (writeWord r locked old d) i = bit old i) ∧
    (bit (r.mask .rw) i = false → bit (r.mask .rwl) i = false → bit (r.mask .w1s) i = false → bit (r.mask .w1c) i = false →
      bit (writeWord r locked old d) i = bit old i)

/-- The answer to a request by the state of its target. For every target and message of the module's own: the answer by target state is
OK for READY and BUSY, ABSENT for ABSENT, UNIT_RESET for OFF, RETAINED, RESETTING and FAULT, BUSY for RESTING and NOT_PERMITTED for
QUARANTINED; a posted message to a unit that is neither READY nor BUSY is not sent: the network keeps its messages and one event
record naming the target and the answer is written. -/
def Obligations.AnswersByUnitState : Prop :=
  answerOf US.ready = St.ok ∧ answerOf US.busy = St.ok ∧ answerOf US.absent = St.absent ∧ answerOf US.off = St.unitReset ∧
    answerOf US.retained = St.unitReset ∧ answerOf US.resetting = St.unitReset ∧ answerOf US.fault = St.unitReset ∧
    answerOf US.resting = St.busy ∧ answerOf US.quarantined = St.notPermitted ∧
    (∀ (s : State) (src dest cls op index : Nat) (payload : List Byte),
      (s.serving dest = true → (s.post src dest cls op index payload).net = s.net ++ [originMsg s src dest cls op payload] ∧
        (s.post src dest cls op index payload).log = s.log) ∧
      (s.serving dest = false → (s.post src dest cls op index payload).net = s.net ∧
        (s.post src dest cls op index payload).log.total = s.log.total + 1 ∧
        (s.post src dest cls op index payload).log.ring.getLast? =
          some ⟨s.stamp 0, src, 0x5001, 1, s.ownerOf src, dest, [answerOf (s.ustate dest), index]⟩))

/-- An epoch moves by 1 modulo 65,536, and waits until 2 µs after the last. For every state and unit: an increment takes the epoch one
further modulo 65,536, in force at once, and leaves the state of a present unit; an entry into RESETTING, OFF or RETAINED within 2
µs of the last increment is held, with the unit's state and epoch as they were; 2 µs after it the entry is made. -/
def Obligations.EpochRule : Prop :=
  (∀ (s : State) (u : Nat), (s.bumpEpoch u).epochOf u = (s.epochOf u + 1) % 65536 ∧
      (s.present u = true → (s.bumpEpoch u).ustate u = s.ustate u)) ∧
    (∀ (s : State) (u st : Nat), s.epochFree u = false → (s.unitGo u st).ustate u = s.ustate u ∧ (s.unitGo u st).epochOf u = s.epochOf u) ∧
    (∀ (s : State) (u st t : Nat), (mget epochRec0 s.epoch u).last = some t → t + 2000 ≤ s.now → s.unitGo u st = s.unitEnter u st)

/-- Event records: the newest 4,096 are kept, and severity 2 or more raises EVENT and MSI-X vector 2. For every record written on a
state whose log holds at most 4,096 records: the log still holds at most 4,096, the new record is its newest, the total counts it, a
record of severity 2 or more raises interrupt source 17 (EVENT) and MSI-X vector 2, and one of severity 0 or 1 raises nothing. -/
def Obligations.EventRecords : Prop :=
  ∀ (s : State) (unit code sev part subject : Nat) (args : List Nat), s.log.ring.length ≤ 4096 →
    (s.logRec unit code sev part subject args).log.ring.length ≤ 4096 ∧
    (s.logRec unit code sev part subject args).log.ring.getLast? = some ⟨s.stamp 0, unit, code, sev, part, subject, args⟩ ∧
    (s.logRec unit code sev part subject args).log.total = s.log.total + 1 ∧
    (2 ≤ sev → bit (s.logRec unit code sev part subject args).irq 17 = true ∧ bit (s.logRec unit code sev part subject args).msix 2 = true) ∧
    (sev < 2 → (s.logRec unit code sev part subject args).irq = s.irq ∧ (s.logRec unit code sev part subject args).msix = s.msix)

/-- TS64 is seconds times 10^9 plus nanoseconds, saturating. For every state and timebase: the TS64 of the timebase is its stamp's
seconds times 1,000,000,000 plus its nanoseconds, the fraction dropped, or 0xFFFF_FFFF_FFFF_FFFF where that is more; the nanoseconds
are below 1,000,000,000; and for a timebase whose seconds fit 64 bits, seconds and nanoseconds are its value. Formalises R28. -/
def Obligations.Ts64OfATimebase : Prop :=
  ∀ (s : State) (n : Nat),
    s.ts64 n = min (tsSec (s.stamp n) * 1000000000 + bits (tsLow (s.stamp n)) 32 32) 0xFFFFFFFFFFFFFFFF ∧
    bits (tsLow (s.stamp n)) 32 32 < 1000000000 ∧
    ((s.tb n).t48 / 2 ^ 48 / 1000000000 < 2 ^ 64 →
      tsSec (s.stamp n) * 1000000000 + bits (tsLow (s.stamp n)) 32 32 = (s.tb n).t48 / 2 ^ 48)

/-- Writes to TB_n_RATE, TB_n_ADJ and TB_n_SET_LOW take effect only without a source. For every requester that may use TB_n, and every
write of its low half: with SOURCE and SOURCE_ALT both 0, RATE takes the written word, ADJ sets the pending slew to the written
signed nanoseconds, and a well-formed SET_LOW sets the timebase to TB_n_SET_SEC and the word; with SOURCE or SOURCE_ALT one of the
three sources, each of the three writes is ignored and counted in TIME_REJECTS: COUNT rises by 1 up to its limit and every other
register, the timebases and memory stand. Formalises R32. -/
def Obligations.TimebaseOwner : Prop :=
  ∀ (r : Req) (n : Fin 8) (d : WData) (s : State), s.mayUse r (0x5100 + n.val) = true → d.lowWritten = true →
    (s.rd (F.TB_CTRL_SOURCE n.val) = 0 → s.rd (F.TB_CTRL_SOURCE_ALT n.val) = 0 → s.locked (R.TB_RATE n.val) = false →
      (∃ t, exec (.tbRateWrite r n d) s = .next t ∧ t.rd (F.TB_RATE_RATE_ADJ n.val) = bits d.value.toNat 0 32) ∧
      (∃ t, exec (.tbAdjWrite r n d) s = .next t ∧ (t.tb n.val).slew = sgn 32 d.bits1 * 2 ^ 48) ∧
      (setLowOk d.bits1 = true → ∃ t, exec (.tbSetLowWrite r n d) s = .next t ∧
        (t.tb n.val).t48 = (mget 0 s.time.setSec n.val * 1000000000 + bits d.bits1 32 32) * 2 ^ 48 + bits d.bits1 16 16 * 2 ^ 32)) ∧
    (((1 ≤ s.rd (F.TB_CTRL_SOURCE n.val) ∧ s.rd (F.TB_CTRL_SOURCE n.val) ≤ 3) ∨
        (1 ≤ s.rd (F.TB_CTRL_SOURCE_ALT n.val) ∧ s.rd (F.TB_CTRL_SOURCE_ALT n.val) ≤ 3)) →
      ∀ c ∈ ([.tbRateWrite r n d, .tbAdjWrite r n d, .tbSetLowWrite r n d] : List Instr),
        ∃ t, exec c s = .next t ∧ t.rd F.TIME_REJECTS_COUNT = min (s.rd F.TIME_REJECTS_COUNT + 1) (2 ^ 32 - 1) ∧
          (∀ a, a ≠ R.TIME_REJECTS → t.reg a = s.reg a) ∧ t.time = s.time ∧ t.mem = s.mem)

/-- The rate adjustment of one cycle, slew included, stays within ±500 ppm. For every RATE_ADJ and pending slew: the rate and the slew
that one cycle applies add up to at most 549,755,814 units either way, the slew never changes sign and never removes more than is
pending, and with no slew pending none is applied. -/
def Obligations.RateClamp : Prop :=
  ∀ rate slew : Int,
    -549755814 * 256 ≤ (cycleAdj rate slew).1 + (cycleAdj rate slew).2 ∧ (cycleAdj rate slew).1 + (cycleAdj rate slew).2 ≤ 549755814 * 256 ∧
    (0 ≤ slew → 0 ≤ (cycleAdj rate slew).2 ∧ (cycleAdj rate slew).2 ≤ slew) ∧
    (slew ≤ 0 → slew ≤ (cycleAdj rate slew).2 ∧ (cycleAdj rate slew).2 ≤ 0)

/-- In a TIME_CLK cycle a phase domain only moves forward. For every state and phase domain: one cycle leaves a domain that is OFF, LOST
or frozen in HOLDOVER where it is, takes one that runs forward by its rate_now modulo one turn of the 56-bit accumulator, remembers
the phase before as prev, and changes no register, no other domain and no byte of memory. -/
def Obligations.PhaseNeverMovesBack : Prop :=
  ∀ (s : State) (k : Nat),
    ((s.rd (F.PH_STATUS_STATE k) = 1 ∨ s.rd (F.PH_STATUS_STATE k) = 2 ∨ (s.rd (F.PH_STATUS_STATE k) = 3 ∧ s.rd (F.PH_CTRL_HOLD_FREEZE k) = 0)) →
      ((tickPh s k).ph k).acc = ((s.ph k).acc + (s.ph k).rateNow) % 2 ^ 56) ∧
    (¬(s.rd (F.PH_STATUS_STATE k) = 1 ∨ s.rd (F.PH_STATUS_STATE k) = 2 ∨ (s.rd (F.PH_STATUS_STATE k) = 3 ∧ s.rd (F.PH_CTRL_HOLD_FREEZE k) = 0)) →
      ((tickPh s k).ph k).acc = (s.ph k).acc) ∧
    ((tickPh s k).ph k).prev = (s.ph k).acc ∧ (∀ j, j ≠ k → (tickPh s k).ph j = s.ph j) ∧
    (tickPh s k).csr = s.csr ∧ ∀ a, (tickPh s k).byte a = s.byte a

/-- A read of IQ_s_HEAD takes the oldest visible item, or answers NV. For every requester and queue: the reader's read with a closed,
visible item at READ returns that item's head word and advances READ past it, and changes nothing else; with none, it returns at
once a word with NV set and bits 31 to 0 zero and changes nothing; a read by any other requester returns the NV word and increments
IQ_REJECTS up to its limit, and changes no other register. Formalises R64. -/
def Obligations.QueueHeadRead : Prop :=
  ∀ (r : Req) (i : Fin 32) (s : State),
    (∀ e, s.isReader r i.val = true → (s.q i.val).items[(s.q i.val).read]? = some e → e.visible = true →
      exec (.iqHeadRead r i) s = .next { s.setQ i.val { s.q i.val with read := (s.q i.val).read + 1 } with
        rdata := BitVec.ofNat 64 (headWord i.val e) }) ∧
    (s.isReader r i.val = true → (∀ e, (s.q i.val).items[(s.q i.val).read]? = some e → e.visible = false) →
      exec (.iqHeadRead r i) s = .next { s with rdata := 0x8000000000000000#64 }) ∧
    (s.isReader r i.val = false → ∃ t, exec (.iqHeadRead r i) s = .next t ∧ t.rdata = 0x8000000000000000#64 ∧
      t.rd F.IQ_REJECTS_COUNT = min (s.rd F.IQ_REJECTS_COUNT + 1) (2 ^ 32 - 1) ∧ t.iq = s.iq ∧
      ∀ a, a ≠ R.IQ_REJECTS → t.reg a = s.reg a)

/-- A doorbell moves TAIL unless it would reach past the responses not yet consumed. For every mailbox that takes doorbells, every host
or castle write of its DOORBELL that carries the low half, in RUN: slot i of a count c is c mod 64; a new TAIL with (TAIL −
RESP_HEAD) mod 128 of at most 64 becomes the TAIL; with more, the write is ignored: TAIL stands, MBX_REJECTS rises by 1 up to its
limit, and no other register changes. Formalises R346. -/
def Obligations.DoorbellRule : Prop :=
  (∀ m c, State.ringSlot m c = mbxWin m + c % 64 * 64) ∧
    ∀ (r : Req) (m : Fin 16) (d : WData) (s : State), r.trusted = true → s.boot.phase = 3 → s.modState ≠ stDeep → s.mbOpen m.val = true →
      d.half ≠ .high →
      ((bits d.bits1 0 7 + 128 - s.rd (F.MB_POS_RESP_HEAD m.val)) % 128 ≤ 64 →
        ∃ t, exec (.doorbell r m d) s = .next t ∧ t.rd (F.MB_POS_TAIL m.val) = bits d.bits1 0 7 ∧
          (∀ a, a ≠ R.MB_POS m.val → t.reg a = s.reg a) ∧ ∀ a, t.byte a = s.byte a) ∧
      (64 < (bits d.bits1 0 7 + 128 - s.rd (F.MB_POS_RESP_HEAD m.val)) % 128 →
        ∃ t, exec (.doorbell r m d) s = .next t ∧ t.rd F.MBX_REJECTS_COUNT = min (s.rd F.MBX_REJECTS_COUNT + 1) (2 ^ 32 - 1) ∧
          (∀ a, a ≠ R.MBX_REJECTS → t.reg a = s.reg a) ∧ ∀ a, t.byte a = s.byte a)

/-- IMG_REVOKE_KEY revokes a slot unless it is the running one or the last. For every mailbox whose accepted IMG_REVOKE_KEY has not run
and names slot k of 0 to 3: where k is not the running bank's KEY_INDEX and a slot both programmed and unrevoked is left, the
command completes with OK and KEY_REVOKED has the bit of k set and every other as before; where k is the running bank's KEY_INDEX,
or no such slot would be left, it completes with NOT_PERMITTED and KEY_REVOKED stands. Formalises R377. -/
def Obligations.KeyRevocation : Prop :=
  ∀ (m : Fin 16) (e : MbExec) (s : State), s.MbRuns m.val e 0x77 → cmdArg e.cmd 0 < 4 →
    ((s.on F.CFG_STATUS_NO_IMAGE = true ∨ hdrKey s.img.header ≠ cmdArg e.cmd 0) →
      (∃ j < 4, j ≠ cmdArg e.cmd 0 ∧ bit (s.rd F.CFG_OTP_KEY_PROGRAMMED) j = true ∧ bit (s.rd F.CFG_OTP_KEY_REVOKED) j = false) →
      ∃ t x, exec (.imgRevokeKey m) s = .next t ∧ t.mbExec m.val = some x ∧ x.status = some St.ok ∧
        ∀ j < 4, bit (t.rd F.CFG_OTP_KEY_REVOKED) j = (decide (j = cmdArg e.cmd 0) || bit (s.rd F.CFG_OTP_KEY_REVOKED) j)) ∧
    ((s.on F.CFG_STATUS_NO_IMAGE = false ∧ hdrKey s.img.header = cmdArg e.cmd 0) ∨
        (∀ j < 4, j ≠ cmdArg e.cmd 0 → bit (s.rd F.CFG_OTP_KEY_PROGRAMMED) j = true → bit (s.rd F.CFG_OTP_KEY_REVOKED) j = true) →
      ∃ t x, exec (.imgRevokeKey m) s = .next t ∧ t.mbExec m.val = some x ∧ x.status = some St.notPermitted ∧ t.csr = s.csr)

/-- PART_PATH opens or closes the path between two partitions in both directions. For every mailbox whose accepted PART_PATH has not run
and names two different partitions: afterwards the path that the fence consults is open, or closed, from each to the other as the
command says, every other path is as before, and the command completes with OK; the check of a PART_PATH that opens a path from a
partition to itself fails with BAD_ARGUMENT for a mailbox that may issue it, where the checks before it pass. Formalises R361. -/
def Obligations.PartitionPaths : Prop :=
  (∀ (m : Fin 16) (e : MbExec) (s : State) (p q : Nat), s.MbRuns m.val e 0x14 → bits (cmdArg e.cmd 0) 0 3 = p → bits (cmdArg e.cmd 0) 8 3 = q →
      p ≠ q → ∃ t x, exec (.partPath m) s = .next t ∧ t.mbExec m.val = some x ∧ x.status = some St.ok ∧
        t.pathOpen p q = !bit (cmdArg e.cmd 0) 16 ∧ t.pathOpen q p = !bit (cmdArg e.cmd 0) 16 ∧
        ∀ i j, i < 8 → j < 8 → (i, j) ≠ (p, q) → (i, j) ≠ (q, p) → t.pathOpen i j = s.pathOpen i j) ∧
    (∀ (m : Nat) (c : List Byte) (s : State), cmdOp c = 0x14 → cmdMalformed c = false → s.mbMay m 0x14 = true → s.mbGate m 0x14 = St.ok →
      s.cmdAbsent c = false → bits (cmdArg c 0) 0 3 = bits (cmdArg c 0) 8 3 → bit (cmdArg c 0) 16 = false →
      s.cmdCheck m c = (St.badArgument, s))

/-- A power-cap request outside the variant's range completes with BAD_ARGUMENT and keeps the cap. For every mailbox and POWER_CAP
command that passes the checks before the range's: a cap outside the range of the variant fails its check with BAD_ARGUMENT and the
state, the cap in force with it, is as before; the range of part 0x8800 is 45 to 160 W, of 0x8640 45 to 120 W and of 0x8420 35 to 80
W, in steps of 1/8 W. -/
def Obligations.PowerCapOutOfRange : Prop :=
  (∀ (m : Nat) (c : List Byte) (s : State), cmdOp c = 0x61 → cmdMalformed c = false → s.mbMay m 0x61 = true → s.mbGate m 0x61 = St.ok →
      s.cmdAbsent c = false → s.capOk (cmdArg c 0) = false → s.cmdCheck m c = (St.badArgument, s)) ∧
    (∀ (s : State) (cap : Nat),
      (s.rd F.IDENT_PART = 0x8800 → (s.capOk cap = true ↔ 45 * 8 ≤ cap ∧ cap ≤ 160 * 8)) ∧
      (s.rd F.IDENT_PART = 0x8640 → (s.capOk cap = true ↔ 45 * 8 ≤ cap ∧ cap ≤ 120 * 8)) ∧
      (s.rd F.IDENT_PART = 0x8420 → (s.capOk cap = true ↔ 35 * 8 ≤ cap ∧ cap ≤ 80 * 8)))

/-- The host and the castle write the CLOCK block, every master reads it, other writes are counted. For every register of the CLOCK
block at an 8-byte offset, in RUN: a host or castle write of it other than CLK_CTRL's is the register's write under its access
codes; a write by any other requester but the mailbox sequencer, which acts for its mailboxes' commands, leaves every register but
CLK_REJECTS and every byte of memory as it was and counts 1 in CLK_REJECTS up to its limit; a read by any master returns the
register with its write-only fields zero. Formalises R483. -/
def Obligations.ClockBlockAccess : Prop :=
  ∀ (off : Nat) (d : WData) (s : State), off < 0x10000 → off % 8 = 0 → s.boot.phase = 3 →
    (∀ r : Req, r = .host ∨ r = .castle → off ≠ 0 →
      exec (.registerWrite r (R.CLK_CTRL + off) d) s = .next ((s.dropHalf r).writeReg (R.CLK_CTRL + off) d)) ∧
    (∀ r : Req, r.trusted = false → ∃ t, exec (.registerWrite r (R.CLK_CTRL + off) d) s = .next t ∧
      t.rd F.CLK_REJECTS_COUNT = min (s.rd F.CLK_REJECTS_COUNT + 1) (2 ^ 32 - 1) ∧
      (∀ a, a ≠ R.CLK_REJECTS → t.reg a = s.reg a) ∧ ∀ a, t.byte a = s.byte a) ∧
    (∀ r : Req, ∃ t, exec (.registerReadClear r (R.CLK_CTRL + off) .both) s = .next t ∧
      t.rdata = BitVec.ofNat 64 (readMask (R.CLK_CTRL + off) (s.reg (R.CLK_CTRL + off))))

/-- The map from a data address to a controller and a line, and back. For every number of controllers from 1 and data address: the
controller is one of them; the controller and the local line give back the address of the line; granules of one row (the same g / N)
lie on different controllers; and the package line of line l is 8 × floor(l / 7) + (l mod 7), so no line is the eighth of its group,
which holds the check bytes. -/
def Obligations.DataAddressMap : Prop :=
  (∀ n a : Nat, 0 < n → mcOf n a < n ∧ dataAddr n (mcOf n a) (localLine n a) = a / 64 * 64) ∧
    (∀ n q i j : Nat, i < n → j < n → mcOf n ((q * n + i) * 4096) = mcOf n ((q * n + j) * 4096) → i = j) ∧
    (∀ n a : Nat, packageLine n a = 8 * (localLine n a / 7) + localLine n a % 7 ∧ packageLine n a % 8 < 7) ∧
    mcOf 8 (7 * 4096) = 7 ∧ (List.range 8).map (fun i => mcOf 8 ((7 + i) * 4096)) = [7, 1, 2, 3, 4, 5, 6, 7]

/-- The diagonal-banked placement moves a chunk within its line, one to one. For every logical store offset A: the element is stored at
(A − A mod 512) + 16 × ((((A >> 4) mod 32) + ρ(A >> 9)) mod 32) + A mod 16 with ρ(L) = (L + (L >> 5)) mod 32; that lies in the same
512-byte line at the same byte of a chunk, and no two offsets share a place. -/
def Obligations.DiagonalPlacement : Prop :=
  (∀ a : Nat, diagPlace a = (a - a % 512) + 16 * (((a / 16) % 32 + ((a / 512) + (a / 512) / 32) % 32) % 32) + a % 16) ∧
    (∀ a : Nat, diagPlace a / 512 = a / 512 ∧ diagPlace a % 16 = a % 16) ∧ ∀ a b : Nat, diagPlace a = diagPlace b → a = b

/-- Every code of the 4-bit and 8-bit formats converts back to itself, and NaN to the canonical one. For every code of FP4, FP8 E4M3 and
FP8 E5M2: the value it stands for, converted to the same format without saturation, is the code again unless the code is a NaN, and
then it is the canonical NaN of the format; FP4 has none. The canonical NaNs of the formats are 0x7F, 0x7E, 0x7E00 and 0x7FC0. -/
def Obligations.NumberCodesRoundTrip : Prop :=
  (∀ v < 16, (fmtE2M1.conv false (fmtE2M1.dec v) false).1 = v) ∧
    (∀ f ∈ [fmtE4M3, fmtE5M2], ∀ v < 256, (f.conv false (f.dec v) false).1 = if (f.dec v).isNan then f.nanCode else v) ∧
    fmtE4M3.nanCode = 0x7F ∧ fmtE5M2.nanCode = 0x7E ∧ fmtF16.nanCode = 0x7E00 ∧ fmtBF16.nanCode = 0x7FC0

/-- x0 of a square reads as 0 and discards writes. For every state, square and value: x0 reads as 0, an instruction that writes x0
changes nothing of the square, and one that writes another register from 1 to 31 gives it the value modulo 2^32 and leaves the
others. -/
def Obligations.RegisterX0 : Prop :=
  ∀ (s : State) (n v : Nat), (s.sqr n).rx 0 = 0 ∧ (s.setX n 0 v).sqr n = s.sqr n ∧
    ∀ rd < 32, rd ≠ 0 → ((s.setX n rd v).sqr n).rx rd = v % 2 ^ 32 ∧ ∀ k, k ≠ rd → ((s.setX n rd v).sqr n).rx k = (s.sqr n).rx k

/-- A master's write reaches no byte outside its range, and a refused one none at all. For every master, address, data and poison mark:
after one access or a long one, every byte of memory outside the range [address, address + length) reads as before; and where a
single access is answered anything but OK and INTEGRITY, every byte reads as before. -/
def Obligations.BusWriteFrame : Prop :=
  ∀ (s : State) (m : Master) (a : Nat) (d : List Byte) (poison : Bool),
    (∀ x, x < a ∨ a + d.length ≤ x → (s.busWrite m a d poison).2.byte x = s.byte x ∧ (s.busPut m a d poison).2.byte x = s.byte x) ∧
    ((s.busWrite m a d poison).1 ≠ St.ok → (s.busWrite m a d poison).1 ≠ St.integrity → ∀ x, (s.busWrite m a d poison).2.byte x = s.byte x)

/-- A partition's master neither reads nor writes DRAM outside its partition's ranges. For every master of a partition p that is not in
reset and is fenced, and every range of fitted DRAM that does not lie whole in the ranges of p: a write is answered NOT_PERMITTED
and changes nothing, and a read is answered NOT_PERMITTED, returns no data and changes nothing. -/
def Obligations.DramFence : Prop :=
  ∀ (s : State) (m : Master) (p a : Nat) (d : List Byte) (poison : Bool), m.free = false → m.part = some p → s.rd (F.PART_STATE_STATE p) ≠ 3 →
    a < 0x400000000000 → a + d.length ≤ s.dramEnd → s.dramIn p a d.length = false →
    s.busWrite m a d poison = (St.notPermitted, s) ∧ s.busRead m a d.length = (St.notPermitted, [], false, s)

/-- DRAM reads back what was written last. For every master that may use a range of fitted DRAM of which no line is poisoned: a write of
data without poison is answered OK, and a read of the range afterwards is answered OK with the data and no poison. -/
def Obligations.DramReadsBack : Prop :=
  ∀ (s : State) (m : Master) (a : Nat) (d : List Byte), a < 0x400000000000 → a + d.length ≤ s.dramEnd → (∀ p, m.part = some p → p < 8) →
    s.partInReset m = false → s.dramOpen m a d.length = true → s.poison = [] →
    ∃ t, s.busWrite m a d false = (St.ok, t) ∧ ∃ u, t.busRead m a d.length = (St.ok, d, false, u)
end

