-- ==== Sys2Proof/Laws/Map.lean ====
section
/-!
SUPPORT. The sparse map: what a key reads after a set, and that every set keeps the canonical form.
-/

namespace Sys2Proof.Machine

variable {α : Type}

theorem mget_mdel_self (d : α) (m : Map α) (k : Nat) : mget d (mdel m k) k = d := by
  induction m with
  | nil => rfl
  | cons e r ih =>
    unfold mdel at ih ⊢
    by_cases h : e.1 = k
    · simpa [List.filter_cons, h] using ih
    · simpa [List.filter_cons, h, mget] using ih

theorem mget_mdel_ne (d : α) (m : Map α) {k k' : Nat} (h : k ≠ k') : mget d (mdel m k) k' = mget d m k' := by
  induction m with
  | nil => rfl
  | cons e r ih =>
    unfold mdel at ih ⊢
    by_cases he : e.1 = k
    · have h' : e.1 ≠ k' := he ▸ h
      simpa [List.filter_cons, he, mget, h, h'] using ih
    · simp only [List.filter_cons, ne_eq, he, not_false_eq_true, decide_true, if_true, mget, ih]

/-- The map with an entry put before the first greater key. -/
def mins : Map α → Nat → α → Map α
  | [], k, v => [(k, v)]
  | e :: r, k, v => if e.1 < k then e :: mins r k v else (k, v) :: e :: r

theorem mput_eq [DecidableEq α] (d : α) (m : Map α) (k : Nat) (v : α) : mput d m k v = if v = d then m else mins m k v := by
  induction m with
  | nil => simp [mput, mins]
  | cons e r ih =>
    unfold mput mins
    rw [ih]
    by_cases hv : v = d <;> by_cases he : e.1 < k <;> simp [hv, he]

/-- A set removes the key, and lists it again unless it reads what an unlisted key reads as. -/
theorem mset_eq [DecidableEq α] (d : α) (m : Map α) (k : Nat) (v : α) :
    mset d m k v = if v = d then mdel m k else mins (mdel m k) k v := mput_eq d _ k v

theorem mget_mins_ne (d : α) (m : Map α) {k k' : Nat} (v : α) (h : k ≠ k') : mget d (mins m k v) k' = mget d m k' := by
  induction m with
  | nil => simp [mins, mget, h]
  | cons e r ih =>
    unfold mins
    split
    · simp only [mget, ih]
    · simp only [mget, if_neg h]

theorem mget_mins_self (d : α) (m : Map α) (k : Nat) (v : α) (h : ∀ e ∈ m, e.1 ≠ k) : mget d (mins m k v) k = v := by
  induction m with
  | nil => simp [mins, mget]
  | cons e r ih =>
    unfold mins
    have he := h e (by simp)
    split
    · simp only [mget, if_neg he]
      exact ih (fun x hx => h x (by simp [hx]))
    · simp [mget]

theorem mem_mdel_ne {m : Map α} {k : Nat} {e : Nat × α} (h : e ∈ mdel m k) : e.1 ≠ k := by
  simpa using (List.mem_filter.mp h).2

/-- A key reads what it was set to. -/
@[simp] theorem mget_mset_self [DecidableEq α] (d : α) (m : Map α) (k : Nat) (v : α) : mget d (mset d m k v) k = v := by
  rw [mset_eq]
  split
  · rw [mget_mdel_self]; simp_all
  · exact mget_mins_self d _ k v (fun _ he => mem_mdel_ne he)

/-- Every other key reads as before. -/
theorem mget_mset_ne [DecidableEq α] (d d' : α) (m : Map α) {k k' : Nat} (v : α) (h : k ≠ k') :
    mget d (mset d' m k v) k' = mget d m k' := by
  rw [mset_eq]
  split
  · exact mget_mdel_ne d m h
  · rw [mget_mins_ne d _ v h, mget_mdel_ne d m h]

theorem mdel_mdel (m : Map α) (k : Nat) : mdel (mdel m k) k = mdel m k := by
  simp [mdel, List.filter_filter]

theorem mdel_mins (m : Map α) (k : Nat) (v : α) : mdel (mins m k v) k = mdel m k := by
  induction m with
  | nil => simp [mins, mdel]
  | cons e r ih =>
    unfold mins
    split
    · unfold mdel at ih ⊢
      by_cases he : e.1 = k
      · simpa [List.filter_cons, he] using ih
      · simpa [List.filter_cons, he] using ih
    · simp [mdel, List.filter_cons]

/-- The later of two sets of one key stands. -/
@[simp] theorem mset_mset [DecidableEq α] (d : α) (m : Map α) (k : Nat) (v w : α) : mset d (mset d m k v) k w = mset d m k w := by
  have h : mdel (mset d m k v) k = mdel m k := by
    rw [mset_eq]
    split
    · exact mdel_mdel m k
    · rw [mdel_mins, mdel_mdel]
  rw [mset_eq d (mset d m k v), h, ← mset_eq]

/-! ### The canonical form -/

/-- Keys rise strictly from `lo` on, and no entry is what an unlisted key reads as: `mwf` with a lower bound. -/
theorem mwf_cons [DecidableEq α] (d : Nat → α) (e : Nat × α) (m : Map α) :
    mwf d (e :: m) = true ↔ e.2 ≠ d e.1 ∧ (∀ x ∈ m, e.1 < x.1) ∧ mwf d m = true := by
  induction m generalizing e with
  | nil => obtain ⟨k, v⟩ := e; simp [mwf]
  | cons f r ih =>
    obtain ⟨k, v⟩ := e
    obtain ⟨k', v'⟩ := f
    have hu : mwf d ((k, v) :: (k', v') :: r) = (decide (v ≠ d k) && decide (k < k') && mwf d ((k', v') :: r)) := rfl
    rw [hu]
    simp only [Bool.and_eq_true, decide_eq_true_eq, List.mem_cons, forall_eq_or_imp]
    constructor
    · rintro ⟨⟨hv, hk⟩, hm⟩
      exact ⟨hv, ⟨hk, fun x hx => hk.trans (((ih (k', v')).mp hm).2.1 x hx)⟩, hm⟩
    · rintro ⟨hv, ⟨hk, _⟩, hm⟩
      exact ⟨⟨hv, hk⟩, hm⟩

theorem mwf_filter [DecidableEq α] (d : Nat → α) (p : Nat × α → Bool) (m : Map α) (h : mwf d m = true) :
    mwf d (m.filter p) = true := by
  induction m with
  | nil => rfl
  | cons e r ih =>
    obtain ⟨hv, hk, hr⟩ := (mwf_cons d e r).mp h
    rw [List.filter_cons]
    split
    · exact (mwf_cons d e _).mpr ⟨hv, fun x hx => hk x (List.mem_filter.mp hx).1, ih hr⟩
    · exact ih hr

theorem mem_mins {m : Map α} {k : Nat} {v : α} {x : Nat × α} (h : x ∈ mins m k v) : x = (k, v) ∨ x ∈ m := by
  induction m with
  | nil => simpa [mins] using h
  | cons e r ih =>
    unfold mins at h
    split at h
    · rcases List.mem_cons.mp h with h | h
      · exact .inr (by simp [h])
      · rcases ih h with h | h
        · exact .inl h
        · exact .inr (by simp [h])
    · simpa using h

theorem mwf_mins [DecidableEq α] (d : Nat → α) (m : Map α) (k : Nat) (v : α) (hv : v ≠ d k) (hk : ∀ e ∈ m, e.1 ≠ k)
    (h : mwf d m = true) : mwf d (mins m k v) = true := by
  induction m with
  | nil => simp [mins, mwf, hv]
  | cons e r ih =>
    obtain ⟨he, hr, hw⟩ := (mwf_cons d e r).mp h
    unfold mins
    have hne := hk e (by simp)
    split
    · next hlt =>
      refine (mwf_cons d e _).mpr ⟨he, fun x hx => ?_, ih (fun x hx => hk x (by simp [hx])) hw⟩
      rcases mem_mins hx with rfl | hx
      · exact hlt
      · exact hr x hx
    · next hge =>
      have hlt : k < e.1 := by omega
      refine (mwf_cons d (k, v) _).mpr ⟨hv, fun x hx => ?_, h⟩
      rcases List.mem_cons.mp hx with rfl | hx
      · exact hlt
      · exact hlt.trans (hr x hx)

/-- A set keeps the canonical form. -/
theorem mwf_mset [DecidableEq α] (d : Nat → α) (m : Map α) (k : Nat) (v : α) (h : mwf d m = true) :
    mwf d (mset (d k) m k v) = true := by
  rw [mset_eq]
  split
  · exact mwf_filter d _ m h
  · next hv => exact mwf_mins d _ k v hv (fun _ he => mem_mdel_ne he) (mwf_filter d _ m h)

/-- A key that no entry lists reads the default. -/
theorem mget_of_lt (d : α) (m : Map α) (k : Nat) (h : ∀ e ∈ m, k < e.1) : mget d m k = d := by
  induction m with
  | nil => rfl
  | cons e r ih =>
    have he := h e (by simp)
    simp only [mget, if_neg (Nat.ne_of_gt he)]
    exact ih (fun x hx => h x (by simp [hx]))

theorem mget_cons_self (d : α) (e : Nat × α) (r : Map α) : mget d (e :: r) e.1 = e.2 := by
  simp [mget]

theorem mget_cons_ne (d : α) (e : Nat × α) (r : Map α) {k : Nat} (h : e.1 ≠ k) : mget d (e :: r) k = mget d r k := by
  simp [mget, h]

/-- A filter of the entries changes what a key reads only where it drops the key. -/
theorem mget_filter (d : α) (m : Map α) (p : Nat → Bool) (k : Nat) :
    mget d (m.filter (fun e => p e.1)) k = if p k then mget d m k else d := by
  induction m with
  | nil => simp [mget]
  | cons e r ih =>
    rw [List.filter_cons]
    by_cases hk : e.1 = k
    · subst hk
      by_cases hp : p e.1
      · simp [hp, mget]
      · simp only [hp, Bool.false_eq_true, if_false] at ih ⊢; exact ih
    · by_cases hp : p e.1
      · simp only [hp, if_true, mget, if_neg hk, ih]
      · simp only [hp, Bool.false_eq_true, if_false, mget, if_neg hk, ih]

end Sys2Proof.Machine
end

