-- ==== Sys2Proof/Laws/Fields.lean ====
section
/-!
SUPPORT. Registers and their fields: what a register and a field read after a set.
-/

namespace Sys2Proof.Machine

variable (s : State)

/-! ### Numbers -/

/-- The bits an insertion put in. -/
theorem bits_insField_self (old lo w v : Nat) : bits (insField old lo w v) lo w = v % 2 ^ w := by
  unfold bits insField
  have h1 : old / 2 ^ (lo + w) * 2 ^ (lo + w) + v % 2 ^ w * 2 ^ lo + old % 2 ^ lo =
      old % 2 ^ lo + (old / 2 ^ (lo + w) * 2 ^ w + v % 2 ^ w) * 2 ^ lo := by ring
  rw [h1, Nat.add_mul_div_right _ _ (by positivity), Nat.div_eq_of_lt (Nat.mod_lt _ (by positivity)), Nat.zero_add,
    Nat.add_comm, Nat.add_mul_mod_self_right, Nat.mod_mod]

/-- An insertion leaves the bits below it. -/
theorem bits_insField_low (old lo w v lo' w' : Nat) (h : lo' + w' ≤ lo) : bits (insField old lo w v) lo' w' = bits old lo' w' := by
  obtain ⟨c, rfl⟩ : ∃ c, lo = lo' + w' + c := ⟨lo - (lo' + w'), by omega⟩
  unfold bits
  have key : insField old (lo' + w' + c) w v % 2 ^ (lo' + w') = old % 2 ^ (lo' + w') := by
    unfold insField
    have e1 : old / 2 ^ (lo' + w' + c + w) * 2 ^ (lo' + w' + c + w) + v % 2 ^ w * 2 ^ (lo' + w' + c) + old % 2 ^ (lo' + w' + c) =
        old % 2 ^ (lo' + w' + c) + (old / 2 ^ (lo' + w' + c + w) * 2 ^ (c + w) + v % 2 ^ w * 2 ^ c) * 2 ^ (lo' + w') := by ring
    rw [e1, Nat.add_mul_mod_self_right, Nat.mod_mod_of_dvd _ (pow_dvd_pow 2 (by omega))]
  have h2 : ∀ x : Nat, x / 2 ^ lo' % 2 ^ w' = x % 2 ^ (lo' + w') / 2 ^ lo' := by
    intro x; rw [pow_add, Nat.mod_mul_right_div_self]
  rw [h2, h2, key]

/-- An insertion leaves the bits above it. -/
theorem bits_insField_high (old lo w v lo' w' : Nat) (h : lo + w ≤ lo') : bits (insField old lo w v) lo' w' = bits old lo' w' := by
  obtain ⟨c, rfl⟩ : ∃ c, lo' = lo + w + c := ⟨lo' - (lo + w), by omega⟩
  unfold bits
  have key : insField old lo w v / 2 ^ (lo + w) = old / 2 ^ (lo + w) := by
    unfold insField
    have hb : v % 2 ^ w * 2 ^ lo + old % 2 ^ lo < 2 ^ (lo + w) := by
      have h1 := Nat.mod_lt v (Nat.two_pow_pos w)
      have h2 := Nat.mod_lt old (Nat.two_pow_pos lo)
      have h3 : (v % 2 ^ w + 1) * 2 ^ lo ≤ 2 ^ w * 2 ^ lo := Nat.mul_le_mul_right _ h1
      rw [pow_add, Nat.mul_comm (2 ^ lo)]
      nlinarith
    rw [Nat.add_assoc, Nat.add_comm, Nat.add_mul_div_right _ _ (Nat.two_pow_pos _), Nat.div_eq_of_lt hb, Nat.zero_add]
  rw [pow_add _ (lo + w), ← Nat.div_div_eq_div_mul, ← Nat.div_div_eq_div_mul, key]

theorem bits_mod (x lo w n : Nat) (h : lo + w ≤ n) : bits (x % 2 ^ n) lo w = bits x lo w := by
  obtain ⟨c, rfl⟩ : ∃ c, n = lo + w + c := ⟨n - (lo + w), by omega⟩
  unfold bits
  rw [Nat.add_assoc, pow_add 2 lo, Nat.mod_mul_right_div_self, Nat.mod_mod_of_dvd _ (pow_dvd_pow 2 (by omega))]

theorem bits_lt (x lo w : Nat) : bits x lo w < 2 ^ w := Nat.mod_lt _ (Nat.two_pow_pos _)

/-! ### Registers -/

/-- Registers are read from the register map alone. -/
theorem State.reg_congr {s t : State} (h : t.csr = s.csr) (a : Nat) : t.reg a = s.reg a := by rw [State.reg, State.reg, h]

/-- Fields are read from the register map alone. -/
theorem State.rd_congr {s t : State} (h : t.csr = s.csr) (f : Fld) : t.rd f = s.rd f := by rw [State.rd, State.rd, State.reg_congr h]

theorem State.on_congr {s t : State} (h : t.csr = s.csr) (f : Fld) : t.on f = s.on f := by rw [State.on, State.on, State.rd_congr h]

/-- A register reads the low 64 bits of what it was set to. -/
@[simp] theorem State.reg_setReg_self (a v : Nat) : (s.setReg a v).reg a = v % 2 ^ 64 := by
  simp [State.reg, State.setReg]

/-- Setting one register leaves every other. -/
theorem State.reg_setReg_ne {a b : Nat} (v : Nat) (h : a ≠ b) : (s.setReg a v).reg b = s.reg b := by
  simp [State.reg, State.setReg, mget_mset_ne _ _ _ _ h]

/-- Setting one register leaves the fields of every other. -/
theorem State.rd_setReg_ne {a : Nat} (f : Fld) (v : Nat) (h : a ≠ f.reg) : (s.setReg a v).rd f = s.rd f := by
  simp only [State.rd, s.reg_setReg_ne v h]

/-- A field reads the low bits of what it was set to. -/
theorem State.rd_wr_self (f : Fld) (v : Nat) (h : f.lo + f.w ≤ 64) : (s.wr f v).rd f = v % 2 ^ f.w := by
  simp only [State.rd, State.wr, State.reg_setReg_self]
  rw [bits_mod _ _ _ _ h, bits_insField_self]

/-- Setting a field leaves the fields of every other register. -/
theorem State.rd_wr_ne (f g : Fld) (v : Nat) (h : f.reg ≠ g.reg) : (s.wr f v).rd g = s.rd g :=
  s.rd_setReg_ne g _ h

/-- Setting a field leaves every other register. -/
theorem State.reg_wr_ne (f : Fld) (a v : Nat) (h : f.reg ≠ a) : (s.wr f v).reg a = s.reg a :=
  s.reg_setReg_ne _ h

/-- Setting a field leaves the fields of its register that share no bit with it. -/
theorem State.rd_wr_disjoint (f g : Fld) (v : Nat) (hr : f.reg = g.reg) (hg : g.lo + g.w ≤ 64)
    (h : f.lo + f.w ≤ g.lo ∨ g.lo + g.w ≤ f.lo) : (s.wr f v).rd g = s.rd g := by
  simp only [State.rd, State.wr, hr, State.reg_setReg_self]
  rw [bits_mod _ _ _ _ hg]
  rcases h with h | h
  · exact bits_insField_high _ _ _ _ _ _ h
  · exact bits_insField_low _ _ _ _ _ _ h

/-- A field is below 2 to its width. -/
theorem State.rd_lt (f : Fld) : s.rd f < 2 ^ f.w := bits_lt _ _ _

/-- A saturating counter reads one bound below 2 to its width. -/
theorem State.rd_bumpBy_self (f : Fld) (n : Nat) (h : f.lo + f.w ≤ 64) :
    (s.bumpBy f n).rd f = min (s.rd f + n) (2 ^ f.w - 1) := by
  rw [State.bumpBy, State.rd_wr_self _ _ _ h, Nat.mod_eq_of_lt]
  have := Nat.two_pow_pos f.w
  omega

theorem State.rd_bump_self (f : Fld) (h : f.lo + f.w ≤ 64) : (s.bump f).rd f = min (s.rd f + 1) (2 ^ f.w - 1) :=
  s.rd_bumpBy_self f 1 h

theorem State.rd_bumpW_self (f : Fld) (h : f.lo + f.w ≤ 64) : (s.bumpW f).rd f = (s.rd f + 1) % 2 ^ f.w := by
  rw [State.bumpW, State.rd_wr_self _ _ _ h]

theorem State.rd_bumpBy_ne (f g : Fld) (n : Nat) (h : f.reg ≠ g.reg) : (s.bumpBy f n).rd g = s.rd g :=
  s.rd_wr_ne f g _ h

theorem State.rd_bump_ne (f g : Fld) (h : f.reg ≠ g.reg) : (s.bump f).rd g = s.rd g :=
  s.rd_wr_ne f g _ h

theorem State.rd_bumpW_ne (f g : Fld) (h : f.reg ≠ g.reg) : (s.bumpW f).rd g = s.rd g :=
  s.rd_wr_ne f g _ h

end Sys2Proof.Machine
end

