-- ==== Sys2Proof/Laws/State.lean ====
section
/-!
SUPPORT. What the shared updates of the state leave: one lemma per field per update. Machine/Ops.lean's own here, those of a chapter in
Laws/Updates.lean.
-/

namespace Sys2Proof.Machine

variable (s : State)

/-! ### setReg -/

@[simp] theorem State.setReg_pending (a v : Nat) : (s.setReg a v).pending = s.pending := rfl
@[simp] theorem State.setReg_now (a v : Nat) : (s.setReg a v).now = s.now := rfl
@[simp] theorem State.setReg_freeCtr (a v : Nat) : (s.setReg a v).freeCtr = s.freeCtr := rfl
@[simp] theorem State.setReg_mem (a v : Nat) : (s.setReg a v).mem = s.mem := rfl
@[simp] theorem State.setReg_log (a v : Nat) : (s.setReg a v).log = s.log := rfl
@[simp] theorem State.setReg_half (a v : Nat) : (s.setReg a v).half = s.half := rfl
@[simp] theorem State.setReg_epoch (a v : Nat) : (s.setReg a v).epoch = s.epoch := rfl
@[simp] theorem State.setReg_irq (a v : Nat) : (s.setReg a v).irq = s.irq := rfl
@[simp] theorem State.setReg_msix (a v : Nat) : (s.setReg a v).msix = s.msix := rfl
@[simp] theorem State.setReg_imsic (a v : Nat) : (s.setReg a v).imsic = s.imsic := rfl
@[simp] theorem State.setReg_castleIrq (a v : Nat) : (s.setReg a v).castleIrq = s.castleIrq := rfl
@[simp] theorem State.setReg_rdata (a v : Nat) : (s.setReg a v).rdata = s.rdata := rfl
@[simp] theorem State.setReg_time (a v : Nat) : (s.setReg a v).time = s.time := rfl
@[simp] theorem State.setReg_iq (a v : Nat) : (s.setReg a v).iq = s.iq := rfl
@[simp] theorem State.setReg_port (a v : Nat) : (s.setReg a v).port = s.port := rfl
@[simp] theorem State.setReg_aln (a v : Nat) : (s.setReg a v).aln = s.aln := rfl
@[simp] theorem State.setReg_vox (a v : Nat) : (s.setReg a v).vox = s.vox := rfl
@[simp] theorem State.setReg_sq (a v : Nat) : (s.setReg a v).sq = s.sq := rfl
@[simp] theorem State.setReg_fab (a v : Nat) : (s.setReg a v).fab = s.fab := rfl
@[simp] theorem State.setReg_net (a v : Nat) : (s.setReg a v).net = s.net := rfl
@[simp] theorem State.setReg_unitSt (a v : Nat) : (s.setReg a v).unitSt = s.unitSt := rfl
@[simp] theorem State.setReg_pl (a v : Nat) : (s.setReg a v).pl = s.pl := rfl
@[simp] theorem State.setReg_ae (a v : Nat) : (s.setReg a v).ae = s.ae := rfl
@[simp] theorem State.setReg_kv (a v : Nat) : (s.setReg a v).kv = s.kv := rfl
@[simp] theorem State.setReg_mc (a v : Nat) : (s.setReg a v).mc = s.mc := rfl
@[simp] theorem State.setReg_rekey (a v : Nat) : (s.setReg a v).rekey = s.rekey := rfl
@[simp] theorem State.setReg_cc (a v : Nat) : (s.setReg a v).cc = s.cc := rfl
@[simp] theorem State.setReg_rfx (a v : Nat) : (s.setReg a v).rfx = s.rfx := rfl
@[simp] theorem State.setReg_dyn (a v : Nat) : (s.setReg a v).dyn = s.dyn := rfl
@[simp] theorem State.setReg_mbx (a v : Nat) : (s.setReg a v).mbx = s.mbx := rfl
@[simp] theorem State.setReg_sched (a v : Nat) : (s.setReg a v).sched = s.sched := rfl
@[simp] theorem State.setReg_img (a v : Nat) : (s.setReg a v).img = s.img := rfl
@[simp] theorem State.setReg_castle (a v : Nat) : (s.setReg a v).castle = s.castle := rfl
@[simp] theorem State.setReg_poison (a v : Nat) : (s.setReg a v).poison = s.poison := rfl
@[simp] theorem State.setReg_badWords (a v : Nat) : (s.setReg a v).badWords = s.badWords := rfl
@[simp] theorem State.setReg_acc (a v : Nat) : (s.setReg a v).acc = s.acc := rfl
@[simp] theorem State.setReg_cores (a v : Nat) : (s.setReg a v).cores = s.cores := rfl
@[simp] theorem State.setReg_pcie (a v : Nat) : (s.setReg a v).pcie = s.pcie := rfl
@[simp] theorem State.setReg_link (a v : Nat) : (s.setReg a v).link = s.link := rfl
@[simp] theorem State.setReg_pwr (a v : Nat) : (s.setReg a v).pwr = s.pwr := rfl
@[simp] theorem State.setReg_loops (a v : Nat) : (s.setReg a v).loops = s.loops := rfl
@[simp] theorem State.setReg_clk (a v : Nat) : (s.setReg a v).clk = s.clk := rfl
@[simp] theorem State.setReg_boot (a v : Nat) : (s.setReg a v).boot = s.boot := rfl
@[simp] theorem State.setReg_byte (a v : Nat) (r0 : Nat) : (s.setReg a v).byte r0 = s.byte r0 := by simp only [State.byte, State.blank, State.setReg_mem, State.setReg_rekey]

/-! ### wr -/

@[simp] theorem State.wr_pending (f : Fld) (v : Nat) : (s.wr f v).pending = s.pending := rfl
@[simp] theorem State.wr_now (f : Fld) (v : Nat) : (s.wr f v).now = s.now := rfl
@[simp] theorem State.wr_freeCtr (f : Fld) (v : Nat) : (s.wr f v).freeCtr = s.freeCtr := rfl
@[simp] theorem State.wr_mem (f : Fld) (v : Nat) : (s.wr f v).mem = s.mem := rfl
@[simp] theorem State.wr_log (f : Fld) (v : Nat) : (s.wr f v).log = s.log := rfl
@[simp] theorem State.wr_half (f : Fld) (v : Nat) : (s.wr f v).half = s.half := rfl
@[simp] theorem State.wr_epoch (f : Fld) (v : Nat) : (s.wr f v).epoch = s.epoch := rfl
@[simp] theorem State.wr_irq (f : Fld) (v : Nat) : (s.wr f v).irq = s.irq := rfl
@[simp] theorem State.wr_msix (f : Fld) (v : Nat) : (s.wr f v).msix = s.msix := rfl
@[simp] theorem State.wr_imsic (f : Fld) (v : Nat) : (s.wr f v).imsic = s.imsic := rfl
@[simp] theorem State.wr_castleIrq (f : Fld) (v : Nat) : (s.wr f v).castleIrq = s.castleIrq := rfl
@[simp] theorem State.wr_rdata (f : Fld) (v : Nat) : (s.wr f v).rdata = s.rdata := rfl
@[simp] theorem State.wr_time (f : Fld) (v : Nat) : (s.wr f v).time = s.time := rfl
@[simp] theorem State.wr_iq (f : Fld) (v : Nat) : (s.wr f v).iq = s.iq := rfl
@[simp] theorem State.wr_port (f : Fld) (v : Nat) : (s.wr f v).port = s.port := rfl
@[simp] theorem State.wr_aln (f : Fld) (v : Nat) : (s.wr f v).aln = s.aln := rfl
@[simp] theorem State.wr_vox (f : Fld) (v : Nat) : (s.wr f v).vox = s.vox := rfl
@[simp] theorem State.wr_sq (f : Fld) (v : Nat) : (s.wr f v).sq = s.sq := rfl
@[simp] theorem State.wr_fab (f : Fld) (v : Nat) : (s.wr f v).fab = s.fab := rfl
@[simp] theorem State.wr_net (f : Fld) (v : Nat) : (s.wr f v).net = s.net := rfl
@[simp] theorem State.wr_unitSt (f : Fld) (v : Nat) : (s.wr f v).unitSt = s.unitSt := rfl
@[simp] theorem State.wr_pl (f : Fld) (v : Nat) : (s.wr f v).pl = s.pl := rfl
@[simp] theorem State.wr_ae (f : Fld) (v : Nat) : (s.wr f v).ae = s.ae := rfl
@[simp] theorem State.wr_kv (f : Fld) (v : Nat) : (s.wr f v).kv = s.kv := rfl
@[simp] theorem State.wr_mc (f : Fld) (v : Nat) : (s.wr f v).mc = s.mc := rfl
@[simp] theorem State.wr_rekey (f : Fld) (v : Nat) : (s.wr f v).rekey = s.rekey := rfl
@[simp] theorem State.wr_cc (f : Fld) (v : Nat) : (s.wr f v).cc = s.cc := rfl
@[simp] theorem State.wr_rfx (f : Fld) (v : Nat) : (s.wr f v).rfx = s.rfx := rfl
@[simp] theorem State.wr_dyn (f : Fld) (v : Nat) : (s.wr f v).dyn = s.dyn := rfl
@[simp] theorem State.wr_mbx (f : Fld) (v : Nat) : (s.wr f v).mbx = s.mbx := rfl
@[simp] theorem State.wr_sched (f : Fld) (v : Nat) : (s.wr f v).sched = s.sched := rfl
@[simp] theorem State.wr_img (f : Fld) (v : Nat) : (s.wr f v).img = s.img := rfl
@[simp] theorem State.wr_castle (f : Fld) (v : Nat) : (s.wr f v).castle = s.castle := rfl
@[simp] theorem State.wr_poison (f : Fld) (v : Nat) : (s.wr f v).poison = s.poison := rfl
@[simp] theorem State.wr_badWords (f : Fld) (v : Nat) : (s.wr f v).badWords = s.badWords := rfl
@[simp] theorem State.wr_acc (f : Fld) (v : Nat) : (s.wr f v).acc = s.acc := rfl
@[simp] theorem State.wr_cores (f : Fld) (v : Nat) : (s.wr f v).cores = s.cores := rfl
@[simp] theorem State.wr_pcie (f : Fld) (v : Nat) : (s.wr f v).pcie = s.pcie := rfl
@[simp] theorem State.wr_link (f : Fld) (v : Nat) : (s.wr f v).link = s.link := rfl
@[simp] theorem State.wr_pwr (f : Fld) (v : Nat) : (s.wr f v).pwr = s.pwr := rfl
@[simp] theorem State.wr_loops (f : Fld) (v : Nat) : (s.wr f v).loops = s.loops := rfl
@[simp] theorem State.wr_clk (f : Fld) (v : Nat) : (s.wr f v).clk = s.clk := rfl
@[simp] theorem State.wr_boot (f : Fld) (v : Nat) : (s.wr f v).boot = s.boot := rfl
@[simp] theorem State.wr_byte (f : Fld) (v : Nat) (r0 : Nat) : (s.wr f v).byte r0 = s.byte r0 := by simp only [State.byte, State.blank, State.wr_mem, State.wr_rekey]

/-! ### bumpBy -/

@[simp] theorem State.bumpBy_pending (f : Fld) (n : Nat) : (s.bumpBy f n).pending = s.pending := rfl
@[simp] theorem State.bumpBy_now (f : Fld) (n : Nat) : (s.bumpBy f n).now = s.now := rfl
@[simp] theorem State.bumpBy_freeCtr (f : Fld) (n : Nat) : (s.bumpBy f n).freeCtr = s.freeCtr := rfl
@[simp] theorem State.bumpBy_mem (f : Fld) (n : Nat) : (s.bumpBy f n).mem = s.mem := rfl
@[simp] theorem State.bumpBy_log (f : Fld) (n : Nat) : (s.bumpBy f n).log = s.log := rfl
@[simp] theorem State.bumpBy_half (f : Fld) (n : Nat) : (s.bumpBy f n).half = s.half := rfl
@[simp] theorem State.bumpBy_epoch (f : Fld) (n : Nat) : (s.bumpBy f n).epoch = s.epoch := rfl
@[simp] theorem State.bumpBy_irq (f : Fld) (n : Nat) : (s.bumpBy f n).irq = s.irq := rfl
@[simp] theorem State.bumpBy_msix (f : Fld) (n : Nat) : (s.bumpBy f n).msix = s.msix := rfl
@[simp] theorem State.bumpBy_imsic (f : Fld) (n : Nat) : (s.bumpBy f n).imsic = s.imsic := rfl
@[simp] theorem State.bumpBy_castleIrq (f : Fld) (n : Nat) : (s.bumpBy f n).castleIrq = s.castleIrq := rfl
@[simp] theorem State.bumpBy_rdata (f : Fld) (n : Nat) : (s.bumpBy f n).rdata = s.rdata := rfl
@[simp] theorem State.bumpBy_time (f : Fld) (n : Nat) : (s.bumpBy f n).time = s.time := rfl
@[simp] theorem State.bumpBy_iq (f : Fld) (n : Nat) : (s.bumpBy f n).iq = s.iq := rfl
@[simp] theorem State.bumpBy_port (f : Fld) (n : Nat) : (s.bumpBy f n).port = s.port := rfl
@[simp] theorem State.bumpBy_aln (f : Fld) (n : Nat) : (s.bumpBy f n).aln = s.aln := rfl
@[simp] theorem State.bumpBy_vox (f : Fld) (n : Nat) : (s.bumpBy f n).vox = s.vox := rfl
@[simp] theorem State.bumpBy_sq (f : Fld) (n : Nat) : (s.bumpBy f n).sq = s.sq := rfl
@[simp] theorem State.bumpBy_fab (f : Fld) (n : Nat) : (s.bumpBy f n).fab = s.fab := rfl
@[simp] theorem State.bumpBy_net (f : Fld) (n : Nat) : (s.bumpBy f n).net = s.net := rfl
@[simp] theorem State.bumpBy_unitSt (f : Fld) (n : Nat) : (s.bumpBy f n).unitSt = s.unitSt := rfl
@[simp] theorem State.bumpBy_pl (f : Fld) (n : Nat) : (s.bumpBy f n).pl = s.pl := rfl
@[simp] theorem State.bumpBy_ae (f : Fld) (n : Nat) : (s.bumpBy f n).ae = s.ae := rfl
@[simp] theorem State.bumpBy_kv (f : Fld) (n : Nat) : (s.bumpBy f n).kv = s.kv := rfl
@[simp] theorem State.bumpBy_mc (f : Fld) (n : Nat) : (s.bumpBy f n).mc = s.mc := rfl
@[simp] theorem State.bumpBy_rekey (f : Fld) (n : Nat) : (s.bumpBy f n).rekey = s.rekey := rfl
@[simp] theorem State.bumpBy_cc (f : Fld) (n : Nat) : (s.bumpBy f n).cc = s.cc := rfl
@[simp] theorem State.bumpBy_rfx (f : Fld) (n : Nat) : (s.bumpBy f n).rfx = s.rfx := rfl
@[simp] theorem State.bumpBy_dyn (f : Fld) (n : Nat) : (s.bumpBy f n).dyn = s.dyn := rfl
@[simp] theorem State.bumpBy_mbx (f : Fld) (n : Nat) : (s.bumpBy f n).mbx = s.mbx := rfl
@[simp] theorem State.bumpBy_sched (f : Fld) (n : Nat) : (s.bumpBy f n).sched = s.sched := rfl
@[simp] theorem State.bumpBy_img (f : Fld) (n : Nat) : (s.bumpBy f n).img = s.img := rfl
@[simp] theorem State.bumpBy_castle (f : Fld) (n : Nat) : (s.bumpBy f n).castle = s.castle := rfl
@[simp] theorem State.bumpBy_poison (f : Fld) (n : Nat) : (s.bumpBy f n).poison = s.poison := rfl
@[simp] theorem State.bumpBy_badWords (f : Fld) (n : Nat) : (s.bumpBy f n).badWords = s.badWords := rfl
@[simp] theorem State.bumpBy_acc (f : Fld) (n : Nat) : (s.bumpBy f n).acc = s.acc := rfl
@[simp] theorem State.bumpBy_cores (f : Fld) (n : Nat) : (s.bumpBy f n).cores = s.cores := rfl
@[simp] theorem State.bumpBy_pcie (f : Fld) (n : Nat) : (s.bumpBy f n).pcie = s.pcie := rfl
@[simp] theorem State.bumpBy_link (f : Fld) (n : Nat) : (s.bumpBy f n).link = s.link := rfl
@[simp] theorem State.bumpBy_pwr (f : Fld) (n : Nat) : (s.bumpBy f n).pwr = s.pwr := rfl
@[simp] theorem State.bumpBy_loops (f : Fld) (n : Nat) : (s.bumpBy f n).loops = s.loops := rfl
@[simp] theorem State.bumpBy_clk (f : Fld) (n : Nat) : (s.bumpBy f n).clk = s.clk := rfl
@[simp] theorem State.bumpBy_boot (f : Fld) (n : Nat) : (s.bumpBy f n).boot = s.boot := rfl
@[simp] theorem State.bumpBy_byte (f : Fld) (n : Nat) (r0 : Nat) : (s.bumpBy f n).byte r0 = s.byte r0 := by simp only [State.byte, State.blank, State.bumpBy_mem, State.bumpBy_rekey]

/-! ### bump -/

@[simp] theorem State.bump_pending (f : Fld) : (s.bump f).pending = s.pending := rfl
@[simp] theorem State.bump_now (f : Fld) : (s.bump f).now = s.now := rfl
@[simp] theorem State.bump_freeCtr (f : Fld) : (s.bump f).freeCtr = s.freeCtr := rfl
@[simp] theorem State.bump_mem (f : Fld) : (s.bump f).mem = s.mem := rfl
@[simp] theorem State.bump_log (f : Fld) : (s.bump f).log = s.log := rfl
@[simp] theorem State.bump_half (f : Fld) : (s.bump f).half = s.half := rfl
@[simp] theorem State.bump_epoch (f : Fld) : (s.bump f).epoch = s.epoch := rfl
@[simp] theorem State.bump_irq (f : Fld) : (s.bump f).irq = s.irq := rfl
@[simp] theorem State.bump_msix (f : Fld) : (s.bump f).msix = s.msix := rfl
@[simp] theorem State.bump_imsic (f : Fld) : (s.bump f).imsic = s.imsic := rfl
@[simp] theorem State.bump_castleIrq (f : Fld) : (s.bump f).castleIrq = s.castleIrq := rfl
@[simp] theorem State.bump_rdata (f : Fld) : (s.bump f).rdata = s.rdata := rfl
@[simp] theorem State.bump_time (f : Fld) : (s.bump f).time = s.time := rfl
@[simp] theorem State.bump_iq (f : Fld) : (s.bump f).iq = s.iq := rfl
@[simp] theorem State.bump_port (f : Fld) : (s.bump f).port = s.port := rfl
@[simp] theorem State.bump_aln (f : Fld) : (s.bump f).aln = s.aln := rfl
@[simp] theorem State.bump_vox (f : Fld) : (s.bump f).vox = s.vox := rfl
@[simp] theorem State.bump_sq (f : Fld) : (s.bump f).sq = s.sq := rfl
@[simp] theorem State.bump_fab (f : Fld) : (s.bump f).fab = s.fab := rfl
@[simp] theorem State.bump_net (f : Fld) : (s.bump f).net = s.net := rfl
@[simp] theorem State.bump_unitSt (f : Fld) : (s.bump f).unitSt = s.unitSt := rfl
@[simp] theorem State.bump_pl (f : Fld) : (s.bump f).pl = s.pl := rfl
@[simp] theorem State.bump_ae (f : Fld) : (s.bump f).ae = s.ae := rfl
@[simp] theorem State.bump_kv (f : Fld) : (s.bump f).kv = s.kv := rfl
@[simp] theorem State.bump_mc (f : Fld) : (s.bump f).mc = s.mc := rfl
@[simp] theorem State.bump_rekey (f : Fld) : (s.bump f).rekey = s.rekey := rfl
@[simp] theorem State.bump_cc (f : Fld) : (s.bump f).cc = s.cc := rfl
@[simp] theorem State.bump_rfx (f : Fld) : (s.bump f).rfx = s.rfx := rfl
@[simp] theorem State.bump_dyn (f : Fld) : (s.bump f).dyn = s.dyn := rfl
@[simp] theorem State.bump_mbx (f : Fld) : (s.bump f).mbx = s.mbx := rfl
@[simp] theorem State.bump_sched (f : Fld) : (s.bump f).sched = s.sched := rfl
@[simp] theorem State.bump_img (f : Fld) : (s.bump f).img = s.img := rfl
@[simp] theorem State.bump_castle (f : Fld) : (s.bump f).castle = s.castle := rfl
@[simp] theorem State.bump_poison (f : Fld) : (s.bump f).poison = s.poison := rfl
@[simp] theorem State.bump_badWords (f : Fld) : (s.bump f).badWords = s.badWords := rfl
@[simp] theorem State.bump_acc (f : Fld) : (s.bump f).acc = s.acc := rfl
@[simp] theorem State.bump_cores (f : Fld) : (s.bump f).cores = s.cores := rfl
@[simp] theorem State.bump_pcie (f : Fld) : (s.bump f).pcie = s.pcie := rfl
@[simp] theorem State.bump_link (f : Fld) : (s.bump f).link = s.link := rfl
@[simp] theorem State.bump_pwr (f : Fld) : (s.bump f).pwr = s.pwr := rfl
@[simp] theorem State.bump_loops (f : Fld) : (s.bump f).loops = s.loops := rfl
@[simp] theorem State.bump_clk (f : Fld) : (s.bump f).clk = s.clk := rfl
@[simp] theorem State.bump_boot (f : Fld) : (s.bump f).boot = s.boot := rfl
@[simp] theorem State.bump_byte (f : Fld) (r0 : Nat) : (s.bump f).byte r0 = s.byte r0 := by simp only [State.byte, State.blank, State.bump_mem, State.bump_rekey]

/-! ### bumpW -/

@[simp] theorem State.bumpW_pending (f : Fld) : (s.bumpW f).pending = s.pending := rfl
@[simp] theorem State.bumpW_now (f : Fld) : (s.bumpW f).now = s.now := rfl
@[simp] theorem State.bumpW_freeCtr (f : Fld) : (s.bumpW f).freeCtr = s.freeCtr := rfl
@[simp] theorem State.bumpW_mem (f : Fld) : (s.bumpW f).mem = s.mem := rfl
@[simp] theorem State.bumpW_log (f : Fld) : (s.bumpW f).log = s.log := rfl
@[simp] theorem State.bumpW_half (f : Fld) : (s.bumpW f).half = s.half := rfl
@[simp] theorem State.bumpW_epoch (f : Fld) : (s.bumpW f).epoch = s.epoch := rfl
@[simp] theorem State.bumpW_irq (f : Fld) : (s.bumpW f).irq = s.irq := rfl
@[simp] theorem State.bumpW_msix (f : Fld) : (s.bumpW f).msix = s.msix := rfl
@[simp] theorem State.bumpW_imsic (f : Fld) : (s.bumpW f).imsic = s.imsic := rfl
@[simp] theorem State.bumpW_castleIrq (f : Fld) : (s.bumpW f).castleIrq = s.castleIrq := rfl
@[simp] theorem State.bumpW_rdata (f : Fld) : (s.bumpW f).rdata = s.rdata := rfl
@[simp] theorem State.bumpW_time (f : Fld) : (s.bumpW f).time = s.time := rfl
@[simp] theorem State.bumpW_iq (f : Fld) : (s.bumpW f).iq = s.iq := rfl
@[simp] theorem State.bumpW_port (f : Fld) : (s.bumpW f).port = s.port := rfl
@[simp] theorem State.bumpW_aln (f : Fld) : (s.bumpW f).aln = s.aln := rfl
@[simp] theorem State.bumpW_vox (f : Fld) : (s.bumpW f).vox = s.vox := rfl
@[simp] theorem State.bumpW_sq (f : Fld) : (s.bumpW f).sq = s.sq := rfl
@[simp] theorem State.bumpW_fab (f : Fld) : (s.bumpW f).fab = s.fab := rfl
@[simp] theorem State.bumpW_net (f : Fld) : (s.bumpW f).net = s.net := rfl
@[simp] theorem State.bumpW_unitSt (f : Fld) : (s.bumpW f).unitSt = s.unitSt := rfl
@[simp] theorem State.bumpW_pl (f : Fld) : (s.bumpW f).pl = s.pl := rfl
@[simp] theorem State.bumpW_ae (f : Fld) : (s.bumpW f).ae = s.ae := rfl
@[simp] theorem State.bumpW_kv (f : Fld) : (s.bumpW f).kv = s.kv := rfl
@[simp] theorem State.bumpW_mc (f : Fld) : (s.bumpW f).mc = s.mc := rfl
@[simp] theorem State.bumpW_rekey (f : Fld) : (s.bumpW f).rekey = s.rekey := rfl
@[simp] theorem State.bumpW_cc (f : Fld) : (s.bumpW f).cc = s.cc := rfl
@[simp] theorem State.bumpW_rfx (f : Fld) : (s.bumpW f).rfx = s.rfx := rfl
@[simp] theorem State.bumpW_dyn (f : Fld) : (s.bumpW f).dyn = s.dyn := rfl
@[simp] theorem State.bumpW_mbx (f : Fld) : (s.bumpW f).mbx = s.mbx := rfl
@[simp] theorem State.bumpW_sched (f : Fld) : (s.bumpW f).sched = s.sched := rfl
@[simp] theorem State.bumpW_img (f : Fld) : (s.bumpW f).img = s.img := rfl
@[simp] theorem State.bumpW_castle (f : Fld) : (s.bumpW f).castle = s.castle := rfl
@[simp] theorem State.bumpW_poison (f : Fld) : (s.bumpW f).poison = s.poison := rfl
@[simp] theorem State.bumpW_badWords (f : Fld) : (s.bumpW f).badWords = s.badWords := rfl
@[simp] theorem State.bumpW_acc (f : Fld) : (s.bumpW f).acc = s.acc := rfl
@[simp] theorem State.bumpW_cores (f : Fld) : (s.bumpW f).cores = s.cores := rfl
@[simp] theorem State.bumpW_pcie (f : Fld) : (s.bumpW f).pcie = s.pcie := rfl
@[simp] theorem State.bumpW_link (f : Fld) : (s.bumpW f).link = s.link := rfl
@[simp] theorem State.bumpW_pwr (f : Fld) : (s.bumpW f).pwr = s.pwr := rfl
@[simp] theorem State.bumpW_loops (f : Fld) : (s.bumpW f).loops = s.loops := rfl
@[simp] theorem State.bumpW_clk (f : Fld) : (s.bumpW f).clk = s.clk := rfl
@[simp] theorem State.bumpW_boot (f : Fld) : (s.bumpW f).boot = s.boot := rfl
@[simp] theorem State.bumpW_byte (f : Fld) (r0 : Nat) : (s.bumpW f).byte r0 = s.byte r0 := by simp only [State.byte, State.blank, State.bumpW_mem, State.bumpW_rekey]

/-! ### wrBit -/

@[simp] theorem State.wrBit_pending (f : Fld) (i : Nat) (b : Bool) : (s.wrBit f i b).pending = s.pending := rfl
@[simp] theorem State.wrBit_now (f : Fld) (i : Nat) (b : Bool) : (s.wrBit f i b).now = s.now := rfl
@[simp] theorem State.wrBit_freeCtr (f : Fld) (i : Nat) (b : Bool) : (s.wrBit f i b).freeCtr = s.freeCtr := rfl
@[simp] theorem State.wrBit_mem (f : Fld) (i : Nat) (b : Bool) : (s.wrBit f i b).mem = s.mem := rfl
@[simp] theorem State.wrBit_log (f : Fld) (i : Nat) (b : Bool) : (s.wrBit f i b).log = s.log := rfl
@[simp] theorem State.wrBit_half (f : Fld) (i : Nat) (b : Bool) : (s.wrBit f i b).half = s.half := rfl
@[simp] theorem State.wrBit_epoch (f : Fld) (i : Nat) (b : Bool) : (s.wrBit f i b).epoch = s.epoch := rfl
@[simp] theorem State.wrBit_irq (f : Fld) (i : Nat) (b : Bool) : (s.wrBit f i b).irq = s.irq := rfl
@[simp] theorem State.wrBit_msix (f : Fld) (i : Nat) (b : Bool) : (s.wrBit f i b).msix = s.msix := rfl
@[simp] theorem State.wrBit_imsic (f : Fld) (i : Nat) (b : Bool) : (s.wrBit f i b).imsic = s.imsic := rfl
@[simp] theorem State.wrBit_castleIrq (f : Fld) (i : Nat) (b : Bool) : (s.wrBit f i b).castleIrq = s.castleIrq := rfl
@[simp] theorem State.wrBit_rdata (f : Fld) (i : Nat) (b : Bool) : (s.wrBit f i b).rdata = s.rdata := rfl
@[simp] theorem State.wrBit_time (f : Fld) (i : Nat) (b : Bool) : (s.wrBit f i b).time = s.time := rfl
@[simp] theorem State.wrBit_iq (f : Fld) (i : Nat) (b : Bool) : (s.wrBit f i b).iq = s.iq := rfl
@[simp] theorem State.wrBit_port (f : Fld) (i : Nat) (b : Bool) : (s.wrBit f i b).port = s.port := rfl
@[simp] theorem State.wrBit_aln (f : Fld) (i : Nat) (b : Bool) : (s.wrBit f i b).aln = s.aln := rfl
@[simp] theorem State.wrBit_vox (f : Fld) (i : Nat) (b : Bool) : (s.wrBit f i b).vox = s.vox := rfl
@[simp] theorem State.wrBit_sq (f : Fld) (i : Nat) (b : Bool) : (s.wrBit f i b).sq = s.sq := rfl
@[simp] theorem State.wrBit_fab (f : Fld) (i : Nat) (b : Bool) : (s.wrBit f i b).fab = s.fab := rfl
@[simp] theorem State.wrBit_net (f : Fld) (i : Nat) (b : Bool) : (s.wrBit f i b).net = s.net := rfl
@[simp] theorem State.wrBit_unitSt (f : Fld) (i : Nat) (b : Bool) : (s.wrBit f i b).unitSt = s.unitSt := rfl
@[simp] theorem State.wrBit_pl (f : Fld) (i : Nat) (b : Bool) : (s.wrBit f i b).pl = s.pl := rfl
@[simp] theorem State.wrBit_ae (f : Fld) (i : Nat) (b : Bool) : (s.wrBit f i b).ae = s.ae := rfl
@[simp] theorem State.wrBit_kv (f : Fld) (i : Nat) (b : Bool) : (s.wrBit f i b).kv = s.kv := rfl
@[simp] theorem State.wrBit_mc (f : Fld) (i : Nat) (b : Bool) : (s.wrBit f i b).mc = s.mc := rfl
@[simp] theorem State.wrBit_rekey (f : Fld) (i : Nat) (b : Bool) : (s.wrBit f i b).rekey = s.rekey := rfl
@[simp] theorem State.wrBit_cc (f : Fld) (i : Nat) (b : Bool) : (s.wrBit f i b).cc = s.cc := rfl
@[simp] theorem State.wrBit_rfx (f : Fld) (i : Nat) (b : Bool) : (s.wrBit f i b).rfx = s.rfx := rfl
@[simp] theorem State.wrBit_dyn (f : Fld) (i : Nat) (b : Bool) : (s.wrBit f i b).dyn = s.dyn := rfl
@[simp] theorem State.wrBit_mbx (f : Fld) (i : Nat) (b : Bool) : (s.wrBit f i b).mbx = s.mbx := rfl
@[simp] theorem State.wrBit_sched (f : Fld) (i : Nat) (b : Bool) : (s.wrBit f i b).sched = s.sched := rfl
@[simp] theorem State.wrBit_img (f : Fld) (i : Nat) (b : Bool) : (s.wrBit f i b).img = s.img := rfl
@[simp] theorem State.wrBit_castle (f : Fld) (i : Nat) (b : Bool) : (s.wrBit f i b).castle = s.castle := rfl
@[simp] theorem State.wrBit_poison (f : Fld) (i : Nat) (b : Bool) : (s.wrBit f i b).poison = s.poison := rfl
@[simp] theorem State.wrBit_badWords (f : Fld) (i : Nat) (b : Bool) : (s.wrBit f i b).badWords = s.badWords := rfl
@[simp] theorem State.wrBit_acc (f : Fld) (i : Nat) (b : Bool) : (s.wrBit f i b).acc = s.acc := rfl
@[simp] theorem State.wrBit_cores (f : Fld) (i : Nat) (b : Bool) : (s.wrBit f i b).cores = s.cores := rfl
@[simp] theorem State.wrBit_pcie (f : Fld) (i : Nat) (b : Bool) : (s.wrBit f i b).pcie = s.pcie := rfl
@[simp] theorem State.wrBit_link (f : Fld) (i : Nat) (b : Bool) : (s.wrBit f i b).link = s.link := rfl
@[simp] theorem State.wrBit_pwr (f : Fld) (i : Nat) (b : Bool) : (s.wrBit f i b).pwr = s.pwr := rfl
@[simp] theorem State.wrBit_loops (f : Fld) (i : Nat) (b : Bool) : (s.wrBit f i b).loops = s.loops := rfl
@[simp] theorem State.wrBit_clk (f : Fld) (i : Nat) (b : Bool) : (s.wrBit f i b).clk = s.clk := rfl
@[simp] theorem State.wrBit_boot (f : Fld) (i : Nat) (b : Bool) : (s.wrBit f i b).boot = s.boot := rfl
@[simp] theorem State.wrBit_byte (f : Fld) (i : Nat) (b : Bool) (r0 : Nat) : (s.wrBit f i b).byte r0 = s.byte r0 := by simp only [State.byte, State.blank, State.wrBit_mem, State.wrBit_rekey]

/-! ### reject -/

@[simp] theorem State.reject_pending (a o : Nat) : (s.reject a o).pending = s.pending := rfl
@[simp] theorem State.reject_now (a o : Nat) : (s.reject a o).now = s.now := rfl
@[simp] theorem State.reject_freeCtr (a o : Nat) : (s.reject a o).freeCtr = s.freeCtr := rfl
@[simp] theorem State.reject_mem (a o : Nat) : (s.reject a o).mem = s.mem := rfl
@[simp] theorem State.reject_log (a o : Nat) : (s.reject a o).log = s.log := rfl
@[simp] theorem State.reject_half (a o : Nat) : (s.reject a o).half = s.half := rfl
@[simp] theorem State.reject_epoch (a o : Nat) : (s.reject a o).epoch = s.epoch := rfl
@[simp] theorem State.reject_irq (a o : Nat) : (s.reject a o).irq = s.irq := rfl
@[simp] theorem State.reject_msix (a o : Nat) : (s.reject a o).msix = s.msix := rfl
@[simp] theorem State.reject_imsic (a o : Nat) : (s.reject a o).imsic = s.imsic := rfl
@[simp] theorem State.reject_castleIrq (a o : Nat) : (s.reject a o).castleIrq = s.castleIrq := rfl
@[simp] theorem State.reject_rdata (a o : Nat) : (s.reject a o).rdata = s.rdata := rfl
@[simp] theorem State.reject_time (a o : Nat) : (s.reject a o).time = s.time := rfl
@[simp] theorem State.reject_iq (a o : Nat) : (s.reject a o).iq = s.iq := rfl
@[simp] theorem State.reject_port (a o : Nat) : (s.reject a o).port = s.port := rfl
@[simp] theorem State.reject_aln (a o : Nat) : (s.reject a o).aln = s.aln := rfl
@[simp] theorem State.reject_vox (a o : Nat) : (s.reject a o).vox = s.vox := rfl
@[simp] theorem State.reject_sq (a o : Nat) : (s.reject a o).sq = s.sq := rfl
@[simp] theorem State.reject_fab (a o : Nat) : (s.reject a o).fab = s.fab := rfl
@[simp] theorem State.reject_net (a o : Nat) : (s.reject a o).net = s.net := rfl
@[simp] theorem State.reject_unitSt (a o : Nat) : (s.reject a o).unitSt = s.unitSt := rfl
@[simp] theorem State.reject_pl (a o : Nat) : (s.reject a o).pl = s.pl := rfl
@[simp] theorem State.reject_ae (a o : Nat) : (s.reject a o).ae = s.ae := rfl
@[simp] theorem State.reject_kv (a o : Nat) : (s.reject a o).kv = s.kv := rfl
@[simp] theorem State.reject_mc (a o : Nat) : (s.reject a o).mc = s.mc := rfl
@[simp] theorem State.reject_rekey (a o : Nat) : (s.reject a o).rekey = s.rekey := rfl
@[simp] theorem State.reject_cc (a o : Nat) : (s.reject a o).cc = s.cc := rfl
@[simp] theorem State.reject_rfx (a o : Nat) : (s.reject a o).rfx = s.rfx := rfl
@[simp] theorem State.reject_dyn (a o : Nat) : (s.reject a o).dyn = s.dyn := rfl
@[simp] theorem State.reject_mbx (a o : Nat) : (s.reject a o).mbx = s.mbx := rfl
@[simp] theorem State.reject_sched (a o : Nat) : (s.reject a o).sched = s.sched := rfl
@[simp] theorem State.reject_img (a o : Nat) : (s.reject a o).img = s.img := rfl
@[simp] theorem State.reject_castle (a o : Nat) : (s.reject a o).castle = s.castle := rfl
@[simp] theorem State.reject_poison (a o : Nat) : (s.reject a o).poison = s.poison := rfl
@[simp] theorem State.reject_badWords (a o : Nat) : (s.reject a o).badWords = s.badWords := rfl
@[simp] theorem State.reject_acc (a o : Nat) : (s.reject a o).acc = s.acc := rfl
@[simp] theorem State.reject_cores (a o : Nat) : (s.reject a o).cores = s.cores := rfl
@[simp] theorem State.reject_pcie (a o : Nat) : (s.reject a o).pcie = s.pcie := rfl
@[simp] theorem State.reject_link (a o : Nat) : (s.reject a o).link = s.link := rfl
@[simp] theorem State.reject_pwr (a o : Nat) : (s.reject a o).pwr = s.pwr := rfl
@[simp] theorem State.reject_loops (a o : Nat) : (s.reject a o).loops = s.loops := rfl
@[simp] theorem State.reject_clk (a o : Nat) : (s.reject a o).clk = s.clk := rfl
@[simp] theorem State.reject_boot (a o : Nat) : (s.reject a o).boot = s.boot := rfl
@[simp] theorem State.reject_byte (a o : Nat) (r0 : Nat) : (s.reject a o).byte r0 = s.byte r0 := by simp only [State.byte, State.blank, State.reject_mem, State.reject_rekey]

/-! ### setByte -/

@[simp] theorem State.setByte_pending (a : Nat) (b : Byte) : (s.setByte a b).pending = s.pending := rfl
@[simp] theorem State.setByte_now (a : Nat) (b : Byte) : (s.setByte a b).now = s.now := rfl
@[simp] theorem State.setByte_freeCtr (a : Nat) (b : Byte) : (s.setByte a b).freeCtr = s.freeCtr := rfl
@[simp] theorem State.setByte_csr (a : Nat) (b : Byte) : (s.setByte a b).csr = s.csr := rfl
@[simp] theorem State.setByte_log (a : Nat) (b : Byte) : (s.setByte a b).log = s.log := rfl
@[simp] theorem State.setByte_half (a : Nat) (b : Byte) : (s.setByte a b).half = s.half := rfl
@[simp] theorem State.setByte_epoch (a : Nat) (b : Byte) : (s.setByte a b).epoch = s.epoch := rfl
@[simp] theorem State.setByte_irq (a : Nat) (b : Byte) : (s.setByte a b).irq = s.irq := rfl
@[simp] theorem State.setByte_msix (a : Nat) (b : Byte) : (s.setByte a b).msix = s.msix := rfl
@[simp] theorem State.setByte_imsic (a : Nat) (b : Byte) : (s.setByte a b).imsic = s.imsic := rfl
@[simp] theorem State.setByte_castleIrq (a : Nat) (b : Byte) : (s.setByte a b).castleIrq = s.castleIrq := rfl
@[simp] theorem State.setByte_rdata (a : Nat) (b : Byte) : (s.setByte a b).rdata = s.rdata := rfl
@[simp] theorem State.setByte_time (a : Nat) (b : Byte) : (s.setByte a b).time = s.time := rfl
@[simp] theorem State.setByte_iq (a : Nat) (b : Byte) : (s.setByte a b).iq = s.iq := rfl
@[simp] theorem State.setByte_port (a : Nat) (b : Byte) : (s.setByte a b).port = s.port := rfl
@[simp] theorem State.setByte_aln (a : Nat) (b : Byte) : (s.setByte a b).aln = s.aln := rfl
@[simp] theorem State.setByte_vox (a : Nat) (b : Byte) : (s.setByte a b).vox = s.vox := rfl
@[simp] theorem State.setByte_sq (a : Nat) (b : Byte) : (s.setByte a b).sq = s.sq := rfl
@[simp] theorem State.setByte_fab (a : Nat) (b : Byte) : (s.setByte a b).fab = s.fab := rfl
@[simp] theorem State.setByte_net (a : Nat) (b : Byte) : (s.setByte a b).net = s.net := rfl
@[simp] theorem State.setByte_unitSt (a : Nat) (b : Byte) : (s.setByte a b).unitSt = s.unitSt := rfl
@[simp] theorem State.setByte_pl (a : Nat) (b : Byte) : (s.setByte a b).pl = s.pl := rfl
@[simp] theorem State.setByte_ae (a : Nat) (b : Byte) : (s.setByte a b).ae = s.ae := rfl
@[simp] theorem State.setByte_kv (a : Nat) (b : Byte) : (s.setByte a b).kv = s.kv := rfl
@[simp] theorem State.setByte_mc (a : Nat) (b : Byte) : (s.setByte a b).mc = s.mc := rfl
@[simp] theorem State.setByte_rekey (a : Nat) (b : Byte) : (s.setByte a b).rekey = s.rekey := rfl
@[simp] theorem State.setByte_cc (a : Nat) (b : Byte) : (s.setByte a b).cc = s.cc := rfl
@[simp] theorem State.setByte_rfx (a : Nat) (b : Byte) : (s.setByte a b).rfx = s.rfx := rfl
@[simp] theorem State.setByte_dyn (a : Nat) (b : Byte) : (s.setByte a b).dyn = s.dyn := rfl
@[simp] theorem State.setByte_mbx (a : Nat) (b : Byte) : (s.setByte a b).mbx = s.mbx := rfl
@[simp] theorem State.setByte_sched (a : Nat) (b : Byte) : (s.setByte a b).sched = s.sched := rfl
@[simp] theorem State.setByte_img (a : Nat) (b : Byte) : (s.setByte a b).img = s.img := rfl
@[simp] theorem State.setByte_castle (a : Nat) (b : Byte) : (s.setByte a b).castle = s.castle := rfl
@[simp] theorem State.setByte_poison (a : Nat) (b : Byte) : (s.setByte a b).poison = s.poison := rfl
@[simp] theorem State.setByte_badWords (a : Nat) (b : Byte) : (s.setByte a b).badWords = s.badWords := rfl
@[simp] theorem State.setByte_acc (a : Nat) (b : Byte) : (s.setByte a b).acc = s.acc := rfl
@[simp] theorem State.setByte_cores (a : Nat) (b : Byte) : (s.setByte a b).cores = s.cores := rfl
@[simp] theorem State.setByte_pcie (a : Nat) (b : Byte) : (s.setByte a b).pcie = s.pcie := rfl
@[simp] theorem State.setByte_link (a : Nat) (b : Byte) : (s.setByte a b).link = s.link := rfl
@[simp] theorem State.setByte_pwr (a : Nat) (b : Byte) : (s.setByte a b).pwr = s.pwr := rfl
@[simp] theorem State.setByte_loops (a : Nat) (b : Byte) : (s.setByte a b).loops = s.loops := rfl
@[simp] theorem State.setByte_clk (a : Nat) (b : Byte) : (s.setByte a b).clk = s.clk := rfl
@[simp] theorem State.setByte_boot (a : Nat) (b : Byte) : (s.setByte a b).boot = s.boot := rfl
@[simp] theorem State.setByte_reg (a : Nat) (b : Byte) (r0 : Nat) : (s.setByte a b).reg r0 = s.reg r0 := by simp only [State.reg, State.setByte_csr]
@[simp] theorem State.setByte_rd (a : Nat) (b : Byte) (g : Fld) : (s.setByte a b).rd g = s.rd g := by simp only [State.rd, State.setByte_reg]

/-! ### holdEpoch -/

@[simp] theorem State.holdEpoch_pending (u c : Nat) : (s.holdEpoch u c).pending = s.pending := rfl
@[simp] theorem State.holdEpoch_now (u c : Nat) : (s.holdEpoch u c).now = s.now := rfl
@[simp] theorem State.holdEpoch_freeCtr (u c : Nat) : (s.holdEpoch u c).freeCtr = s.freeCtr := rfl
@[simp] theorem State.holdEpoch_csr (u c : Nat) : (s.holdEpoch u c).csr = s.csr := rfl
@[simp] theorem State.holdEpoch_mem (u c : Nat) : (s.holdEpoch u c).mem = s.mem := rfl
@[simp] theorem State.holdEpoch_log (u c : Nat) : (s.holdEpoch u c).log = s.log := rfl
@[simp] theorem State.holdEpoch_half (u c : Nat) : (s.holdEpoch u c).half = s.half := rfl
@[simp] theorem State.holdEpoch_irq (u c : Nat) : (s.holdEpoch u c).irq = s.irq := rfl
@[simp] theorem State.holdEpoch_msix (u c : Nat) : (s.holdEpoch u c).msix = s.msix := rfl
@[simp] theorem State.holdEpoch_imsic (u c : Nat) : (s.holdEpoch u c).imsic = s.imsic := rfl
@[simp] theorem State.holdEpoch_castleIrq (u c : Nat) : (s.holdEpoch u c).castleIrq = s.castleIrq := rfl
@[simp] theorem State.holdEpoch_rdata (u c : Nat) : (s.holdEpoch u c).rdata = s.rdata := rfl
@[simp] theorem State.holdEpoch_time (u c : Nat) : (s.holdEpoch u c).time = s.time := rfl
@[simp] theorem State.holdEpoch_iq (u c : Nat) : (s.holdEpoch u c).iq = s.iq := rfl
@[simp] theorem State.holdEpoch_port (u c : Nat) : (s.holdEpoch u c).port = s.port := rfl
@[simp] theorem State.holdEpoch_aln (u c : Nat) : (s.holdEpoch u c).aln = s.aln := rfl
@[simp] theorem State.holdEpoch_vox (u c : Nat) : (s.holdEpoch u c).vox = s.vox := rfl
@[simp] theorem State.holdEpoch_sq (u c : Nat) : (s.holdEpoch u c).sq = s.sq := rfl
@[simp] theorem State.holdEpoch_fab (u c : Nat) : (s.holdEpoch u c).fab = s.fab := rfl
@[simp] theorem State.holdEpoch_net (u c : Nat) : (s.holdEpoch u c).net = s.net := rfl
@[simp] theorem State.holdEpoch_unitSt (u c : Nat) : (s.holdEpoch u c).unitSt = s.unitSt := rfl
@[simp] theorem State.holdEpoch_pl (u c : Nat) : (s.holdEpoch u c).pl = s.pl := rfl
@[simp] theorem State.holdEpoch_ae (u c : Nat) : (s.holdEpoch u c).ae = s.ae := rfl
@[simp] theorem State.holdEpoch_kv (u c : Nat) : (s.holdEpoch u c).kv = s.kv := rfl
@[simp] theorem State.holdEpoch_mc (u c : Nat) : (s.holdEpoch u c).mc = s.mc := rfl
@[simp] theorem State.holdEpoch_rekey (u c : Nat) : (s.holdEpoch u c).rekey = s.rekey := rfl
@[simp] theorem State.holdEpoch_cc (u c : Nat) : (s.holdEpoch u c).cc = s.cc := rfl
@[simp] theorem State.holdEpoch_rfx (u c : Nat) : (s.holdEpoch u c).rfx = s.rfx := rfl
@[simp] theorem State.holdEpoch_dyn (u c : Nat) : (s.holdEpoch u c).dyn = s.dyn := rfl
@[simp] theorem State.holdEpoch_mbx (u c : Nat) : (s.holdEpoch u c).mbx = s.mbx := rfl
@[simp] theorem State.holdEpoch_sched (u c : Nat) : (s.holdEpoch u c).sched = s.sched := rfl
@[simp] theorem State.holdEpoch_img (u c : Nat) : (s.holdEpoch u c).img = s.img := rfl
@[simp] theorem State.holdEpoch_castle (u c : Nat) : (s.holdEpoch u c).castle = s.castle := rfl
@[simp] theorem State.holdEpoch_poison (u c : Nat) : (s.holdEpoch u c).poison = s.poison := rfl
@[simp] theorem State.holdEpoch_badWords (u c : Nat) : (s.holdEpoch u c).badWords = s.badWords := rfl
@[simp] theorem State.holdEpoch_acc (u c : Nat) : (s.holdEpoch u c).acc = s.acc := rfl
@[simp] theorem State.holdEpoch_cores (u c : Nat) : (s.holdEpoch u c).cores = s.cores := rfl
@[simp] theorem State.holdEpoch_pcie (u c : Nat) : (s.holdEpoch u c).pcie = s.pcie := rfl
@[simp] theorem State.holdEpoch_link (u c : Nat) : (s.holdEpoch u c).link = s.link := rfl
@[simp] theorem State.holdEpoch_pwr (u c : Nat) : (s.holdEpoch u c).pwr = s.pwr := rfl
@[simp] theorem State.holdEpoch_loops (u c : Nat) : (s.holdEpoch u c).loops = s.loops := rfl
@[simp] theorem State.holdEpoch_clk (u c : Nat) : (s.holdEpoch u c).clk = s.clk := rfl
@[simp] theorem State.holdEpoch_boot (u c : Nat) : (s.holdEpoch u c).boot = s.boot := rfl
@[simp] theorem State.holdEpoch_reg (u c : Nat) (r0 : Nat) : (s.holdEpoch u c).reg r0 = s.reg r0 := by simp only [State.reg, State.holdEpoch_csr]
@[simp] theorem State.holdEpoch_rd (u c : Nat) (g : Fld) : (s.holdEpoch u c).rd g = s.rd g := by simp only [State.rd, State.holdEpoch_reg]
@[simp] theorem State.holdEpoch_byte (u c : Nat) (r0 : Nat) : (s.holdEpoch u c).byte r0 = s.byte r0 := by simp only [State.byte, State.blank, State.holdEpoch_mem, State.holdEpoch_rekey]

/-! ### raiseCastle -/

@[simp] theorem State.raiseCastle_pending : (s.raiseCastle).pending = s.pending := rfl
@[simp] theorem State.raiseCastle_now : (s.raiseCastle).now = s.now := rfl
@[simp] theorem State.raiseCastle_freeCtr : (s.raiseCastle).freeCtr = s.freeCtr := rfl
@[simp] theorem State.raiseCastle_csr : (s.raiseCastle).csr = s.csr := rfl
@[simp] theorem State.raiseCastle_mem : (s.raiseCastle).mem = s.mem := rfl
@[simp] theorem State.raiseCastle_log : (s.raiseCastle).log = s.log := rfl
@[simp] theorem State.raiseCastle_half : (s.raiseCastle).half = s.half := rfl
@[simp] theorem State.raiseCastle_epoch : (s.raiseCastle).epoch = s.epoch := rfl
@[simp] theorem State.raiseCastle_irq : (s.raiseCastle).irq = s.irq := rfl
@[simp] theorem State.raiseCastle_msix : (s.raiseCastle).msix = s.msix := rfl
@[simp] theorem State.raiseCastle_imsic : (s.raiseCastle).imsic = s.imsic := rfl
@[simp] theorem State.raiseCastle_rdata : (s.raiseCastle).rdata = s.rdata := rfl
@[simp] theorem State.raiseCastle_time : (s.raiseCastle).time = s.time := rfl
@[simp] theorem State.raiseCastle_iq : (s.raiseCastle).iq = s.iq := rfl
@[simp] theorem State.raiseCastle_port : (s.raiseCastle).port = s.port := rfl
@[simp] theorem State.raiseCastle_aln : (s.raiseCastle).aln = s.aln := rfl
@[simp] theorem State.raiseCastle_vox : (s.raiseCastle).vox = s.vox := rfl
@[simp] theorem State.raiseCastle_sq : (s.raiseCastle).sq = s.sq := rfl
@[simp] theorem State.raiseCastle_fab : (s.raiseCastle).fab = s.fab := rfl
@[simp] theorem State.raiseCastle_net : (s.raiseCastle).net = s.net := rfl
@[simp] theorem State.raiseCastle_unitSt : (s.raiseCastle).unitSt = s.unitSt := rfl
@[simp] theorem State.raiseCastle_pl : (s.raiseCastle).pl = s.pl := rfl
@[simp] theorem State.raiseCastle_ae : (s.raiseCastle).ae = s.ae := rfl
@[simp] theorem State.raiseCastle_kv : (s.raiseCastle).kv = s.kv := rfl
@[simp] theorem State.raiseCastle_mc : (s.raiseCastle).mc = s.mc := rfl
@[simp] theorem State.raiseCastle_rekey : (s.raiseCastle).rekey = s.rekey := rfl
@[simp] theorem State.raiseCastle_cc : (s.raiseCastle).cc = s.cc := rfl
@[simp] theorem State.raiseCastle_rfx : (s.raiseCastle).rfx = s.rfx := rfl
@[simp] theorem State.raiseCastle_dyn : (s.raiseCastle).dyn = s.dyn := rfl
@[simp] theorem State.raiseCastle_mbx : (s.raiseCastle).mbx = s.mbx := rfl
@[simp] theorem State.raiseCastle_sched : (s.raiseCastle).sched = s.sched := rfl
@[simp] theorem State.raiseCastle_img : (s.raiseCastle).img = s.img := rfl
@[simp] theorem State.raiseCastle_castle : (s.raiseCastle).castle = s.castle := rfl
@[simp] theorem State.raiseCastle_poison : (s.raiseCastle).poison = s.poison := rfl
@[simp] theorem State.raiseCastle_badWords : (s.raiseCastle).badWords = s.badWords := rfl
@[simp] theorem State.raiseCastle_acc : (s.raiseCastle).acc = s.acc := rfl
@[simp] theorem State.raiseCastle_cores : (s.raiseCastle).cores = s.cores := rfl
@[simp] theorem State.raiseCastle_pcie : (s.raiseCastle).pcie = s.pcie := rfl
@[simp] theorem State.raiseCastle_link : (s.raiseCastle).link = s.link := rfl
@[simp] theorem State.raiseCastle_pwr : (s.raiseCastle).pwr = s.pwr := rfl
@[simp] theorem State.raiseCastle_loops : (s.raiseCastle).loops = s.loops := rfl
@[simp] theorem State.raiseCastle_clk : (s.raiseCastle).clk = s.clk := rfl
@[simp] theorem State.raiseCastle_boot : (s.raiseCastle).boot = s.boot := rfl
@[simp] theorem State.raiseCastle_reg (r0 : Nat) : (s.raiseCastle).reg r0 = s.reg r0 := by simp only [State.reg, State.raiseCastle_csr]
@[simp] theorem State.raiseCastle_rd (g : Fld) : (s.raiseCastle).rd g = s.rd g := by simp only [State.rd, State.raiseCastle_reg]
@[simp] theorem State.raiseCastle_byte (r0 : Nat) : (s.raiseCastle).byte r0 = s.byte r0 := by simp only [State.byte, State.blank, State.raiseCastle_mem, State.raiseCastle_rekey]

/-! ### raiseMsix -/

@[simp] theorem State.raiseMsix_pending (v : Nat) : (s.raiseMsix v).pending = s.pending := rfl
@[simp] theorem State.raiseMsix_now (v : Nat) : (s.raiseMsix v).now = s.now := rfl
@[simp] theorem State.raiseMsix_freeCtr (v : Nat) : (s.raiseMsix v).freeCtr = s.freeCtr := rfl
@[simp] theorem State.raiseMsix_csr (v : Nat) : (s.raiseMsix v).csr = s.csr := rfl
@[simp] theorem State.raiseMsix_mem (v : Nat) : (s.raiseMsix v).mem = s.mem := rfl
@[simp] theorem State.raiseMsix_log (v : Nat) : (s.raiseMsix v).log = s.log := rfl
@[simp] theorem State.raiseMsix_half (v : Nat) : (s.raiseMsix v).half = s.half := rfl
@[simp] theorem State.raiseMsix_epoch (v : Nat) : (s.raiseMsix v).epoch = s.epoch := rfl
@[simp] theorem State.raiseMsix_irq (v : Nat) : (s.raiseMsix v).irq = s.irq := rfl
@[simp] theorem State.raiseMsix_imsic (v : Nat) : (s.raiseMsix v).imsic = s.imsic := rfl
@[simp] theorem State.raiseMsix_castleIrq (v : Nat) : (s.raiseMsix v).castleIrq = s.castleIrq := rfl
@[simp] theorem State.raiseMsix_rdata (v : Nat) : (s.raiseMsix v).rdata = s.rdata := rfl
@[simp] theorem State.raiseMsix_time (v : Nat) : (s.raiseMsix v).time = s.time := rfl
@[simp] theorem State.raiseMsix_iq (v : Nat) : (s.raiseMsix v).iq = s.iq := rfl
@[simp] theorem State.raiseMsix_port (v : Nat) : (s.raiseMsix v).port = s.port := rfl
@[simp] theorem State.raiseMsix_aln (v : Nat) : (s.raiseMsix v).aln = s.aln := rfl
@[simp] theorem State.raiseMsix_vox (v : Nat) : (s.raiseMsix v).vox = s.vox := rfl
@[simp] theorem State.raiseMsix_sq (v : Nat) : (s.raiseMsix v).sq = s.sq := rfl
@[simp] theorem State.raiseMsix_fab (v : Nat) : (s.raiseMsix v).fab = s.fab := rfl
@[simp] theorem State.raiseMsix_net (v : Nat) : (s.raiseMsix v).net = s.net := rfl
@[simp] theorem State.raiseMsix_unitSt (v : Nat) : (s.raiseMsix v).unitSt = s.unitSt := rfl
@[simp] theorem State.raiseMsix_pl (v : Nat) : (s.raiseMsix v).pl = s.pl := rfl
@[simp] theorem State.raiseMsix_ae (v : Nat) : (s.raiseMsix v).ae = s.ae := rfl
@[simp] theorem State.raiseMsix_kv (v : Nat) : (s.raiseMsix v).kv = s.kv := rfl
@[simp] theorem State.raiseMsix_mc (v : Nat) : (s.raiseMsix v).mc = s.mc := rfl
@[simp] theorem State.raiseMsix_rekey (v : Nat) : (s.raiseMsix v).rekey = s.rekey := rfl
@[simp] theorem State.raiseMsix_cc (v : Nat) : (s.raiseMsix v).cc = s.cc := rfl
@[simp] theorem State.raiseMsix_rfx (v : Nat) : (s.raiseMsix v).rfx = s.rfx := rfl
@[simp] theorem State.raiseMsix_dyn (v : Nat) : (s.raiseMsix v).dyn = s.dyn := rfl
@[simp] theorem State.raiseMsix_mbx (v : Nat) : (s.raiseMsix v).mbx = s.mbx := rfl
@[simp] theorem State.raiseMsix_sched (v : Nat) : (s.raiseMsix v).sched = s.sched := rfl
@[simp] theorem State.raiseMsix_img (v : Nat) : (s.raiseMsix v).img = s.img := rfl
@[simp] theorem State.raiseMsix_castle (v : Nat) : (s.raiseMsix v).castle = s.castle := rfl
@[simp] theorem State.raiseMsix_poison (v : Nat) : (s.raiseMsix v).poison = s.poison := rfl
@[simp] theorem State.raiseMsix_badWords (v : Nat) : (s.raiseMsix v).badWords = s.badWords := rfl
@[simp] theorem State.raiseMsix_acc (v : Nat) : (s.raiseMsix v).acc = s.acc := rfl
@[simp] theorem State.raiseMsix_cores (v : Nat) : (s.raiseMsix v).cores = s.cores := rfl
@[simp] theorem State.raiseMsix_pcie (v : Nat) : (s.raiseMsix v).pcie = s.pcie := rfl
@[simp] theorem State.raiseMsix_link (v : Nat) : (s.raiseMsix v).link = s.link := rfl
@[simp] theorem State.raiseMsix_pwr (v : Nat) : (s.raiseMsix v).pwr = s.pwr := rfl
@[simp] theorem State.raiseMsix_loops (v : Nat) : (s.raiseMsix v).loops = s.loops := rfl
@[simp] theorem State.raiseMsix_clk (v : Nat) : (s.raiseMsix v).clk = s.clk := rfl
@[simp] theorem State.raiseMsix_boot (v : Nat) : (s.raiseMsix v).boot = s.boot := rfl
@[simp] theorem State.raiseMsix_reg (v : Nat) (r0 : Nat) : (s.raiseMsix v).reg r0 = s.reg r0 := by simp only [State.reg, State.raiseMsix_csr]
@[simp] theorem State.raiseMsix_rd (v : Nat) (g : Fld) : (s.raiseMsix v).rd g = s.rd g := by simp only [State.rd, State.raiseMsix_reg]
@[simp] theorem State.raiseMsix_byte (v : Nat) (r0 : Nat) : (s.raiseMsix v).byte r0 = s.byte r0 := by simp only [State.byte, State.blank, State.raiseMsix_mem, State.raiseMsix_rekey]

/-! ### send -/

@[simp] theorem State.send_pending (m : Msg) : (s.send m).pending = s.pending := rfl
@[simp] theorem State.send_now (m : Msg) : (s.send m).now = s.now := rfl
@[simp] theorem State.send_freeCtr (m : Msg) : (s.send m).freeCtr = s.freeCtr := rfl
@[simp] theorem State.send_csr (m : Msg) : (s.send m).csr = s.csr := rfl
@[simp] theorem State.send_mem (m : Msg) : (s.send m).mem = s.mem := rfl
@[simp] theorem State.send_log (m : Msg) : (s.send m).log = s.log := rfl
@[simp] theorem State.send_half (m : Msg) : (s.send m).half = s.half := rfl
@[simp] theorem State.send_epoch (m : Msg) : (s.send m).epoch = s.epoch := rfl
@[simp] theorem State.send_irq (m : Msg) : (s.send m).irq = s.irq := rfl
@[simp] theorem State.send_msix (m : Msg) : (s.send m).msix = s.msix := rfl
@[simp] theorem State.send_imsic (m : Msg) : (s.send m).imsic = s.imsic := rfl
@[simp] theorem State.send_castleIrq (m : Msg) : (s.send m).castleIrq = s.castleIrq := rfl
@[simp] theorem State.send_rdata (m : Msg) : (s.send m).rdata = s.rdata := rfl
@[simp] theorem State.send_time (m : Msg) : (s.send m).time = s.time := rfl
@[simp] theorem State.send_iq (m : Msg) : (s.send m).iq = s.iq := rfl
@[simp] theorem State.send_port (m : Msg) : (s.send m).port = s.port := rfl
@[simp] theorem State.send_aln (m : Msg) : (s.send m).aln = s.aln := rfl
@[simp] theorem State.send_vox (m : Msg) : (s.send m).vox = s.vox := rfl
@[simp] theorem State.send_sq (m : Msg) : (s.send m).sq = s.sq := rfl
@[simp] theorem State.send_fab (m : Msg) : (s.send m).fab = s.fab := rfl
@[simp] theorem State.send_unitSt (m : Msg) : (s.send m).unitSt = s.unitSt := rfl
@[simp] theorem State.send_pl (m : Msg) : (s.send m).pl = s.pl := rfl
@[simp] theorem State.send_ae (m : Msg) : (s.send m).ae = s.ae := rfl
@[simp] theorem State.send_kv (m : Msg) : (s.send m).kv = s.kv := rfl
@[simp] theorem State.send_mc (m : Msg) : (s.send m).mc = s.mc := rfl
@[simp] theorem State.send_rekey (m : Msg) : (s.send m).rekey = s.rekey := rfl
@[simp] theorem State.send_cc (m : Msg) : (s.send m).cc = s.cc := rfl
@[simp] theorem State.send_rfx (m : Msg) : (s.send m).rfx = s.rfx := rfl
@[simp] theorem State.send_dyn (m : Msg) : (s.send m).dyn = s.dyn := rfl
@[simp] theorem State.send_mbx (m : Msg) : (s.send m).mbx = s.mbx := rfl
@[simp] theorem State.send_sched (m : Msg) : (s.send m).sched = s.sched := rfl
@[simp] theorem State.send_img (m : Msg) : (s.send m).img = s.img := rfl
@[simp] theorem State.send_castle (m : Msg) : (s.send m).castle = s.castle := rfl
@[simp] theorem State.send_poison (m : Msg) : (s.send m).poison = s.poison := rfl
@[simp] theorem State.send_badWords (m : Msg) : (s.send m).badWords = s.badWords := rfl
@[simp] theorem State.send_acc (m : Msg) : (s.send m).acc = s.acc := rfl
@[simp] theorem State.send_cores (m : Msg) : (s.send m).cores = s.cores := rfl
@[simp] theorem State.send_pcie (m : Msg) : (s.send m).pcie = s.pcie := rfl
@[simp] theorem State.send_link (m : Msg) : (s.send m).link = s.link := rfl
@[simp] theorem State.send_pwr (m : Msg) : (s.send m).pwr = s.pwr := rfl
@[simp] theorem State.send_loops (m : Msg) : (s.send m).loops = s.loops := rfl
@[simp] theorem State.send_clk (m : Msg) : (s.send m).clk = s.clk := rfl
@[simp] theorem State.send_boot (m : Msg) : (s.send m).boot = s.boot := rfl
@[simp] theorem State.send_reg (m : Msg) (r0 : Nat) : (s.send m).reg r0 = s.reg r0 := by simp only [State.reg, State.send_csr]
@[simp] theorem State.send_rd (m : Msg) (g : Fld) : (s.send m).rd g = s.rd g := by simp only [State.rd, State.send_reg]
@[simp] theorem State.send_byte (m : Msg) (r0 : Nat) : (s.send m).byte r0 = s.byte r0 := by simp only [State.byte, State.blank, State.send_mem, State.send_rekey]

/-! ### answer -/

@[simp] theorem State.answer_pending (m : Msg) (c : Nat) : (s.answer m c).pending = s.pending := rfl
@[simp] theorem State.answer_now (m : Msg) (c : Nat) : (s.answer m c).now = s.now := rfl
@[simp] theorem State.answer_freeCtr (m : Msg) (c : Nat) : (s.answer m c).freeCtr = s.freeCtr := rfl
@[simp] theorem State.answer_csr (m : Msg) (c : Nat) : (s.answer m c).csr = s.csr := rfl
@[simp] theorem State.answer_mem (m : Msg) (c : Nat) : (s.answer m c).mem = s.mem := rfl
@[simp] theorem State.answer_log (m : Msg) (c : Nat) : (s.answer m c).log = s.log := rfl
@[simp] theorem State.answer_half (m : Msg) (c : Nat) : (s.answer m c).half = s.half := rfl
@[simp] theorem State.answer_epoch (m : Msg) (c : Nat) : (s.answer m c).epoch = s.epoch := rfl
@[simp] theorem State.answer_irq (m : Msg) (c : Nat) : (s.answer m c).irq = s.irq := rfl
@[simp] theorem State.answer_msix (m : Msg) (c : Nat) : (s.answer m c).msix = s.msix := rfl
@[simp] theorem State.answer_imsic (m : Msg) (c : Nat) : (s.answer m c).imsic = s.imsic := rfl
@[simp] theorem State.answer_castleIrq (m : Msg) (c : Nat) : (s.answer m c).castleIrq = s.castleIrq := rfl
@[simp] theorem State.answer_rdata (m : Msg) (c : Nat) : (s.answer m c).rdata = s.rdata := rfl
@[simp] theorem State.answer_time (m : Msg) (c : Nat) : (s.answer m c).time = s.time := rfl
@[simp] theorem State.answer_iq (m : Msg) (c : Nat) : (s.answer m c).iq = s.iq := rfl
@[simp] theorem State.answer_port (m : Msg) (c : Nat) : (s.answer m c).port = s.port := rfl
@[simp] theorem State.answer_aln (m : Msg) (c : Nat) : (s.answer m c).aln = s.aln := rfl
@[simp] theorem State.answer_vox (m : Msg) (c : Nat) : (s.answer m c).vox = s.vox := rfl
@[simp] theorem State.answer_sq (m : Msg) (c : Nat) : (s.answer m c).sq = s.sq := rfl
@[simp] theorem State.answer_fab (m : Msg) (c : Nat) : (s.answer m c).fab = s.fab := rfl
@[simp] theorem State.answer_unitSt (m : Msg) (c : Nat) : (s.answer m c).unitSt = s.unitSt := rfl
@[simp] theorem State.answer_pl (m : Msg) (c : Nat) : (s.answer m c).pl = s.pl := rfl
@[simp] theorem State.answer_ae (m : Msg) (c : Nat) : (s.answer m c).ae = s.ae := rfl
@[simp] theorem State.answer_kv (m : Msg) (c : Nat) : (s.answer m c).kv = s.kv := rfl
@[simp] theorem State.answer_mc (m : Msg) (c : Nat) : (s.answer m c).mc = s.mc := rfl
@[simp] theorem State.answer_rekey (m : Msg) (c : Nat) : (s.answer m c).rekey = s.rekey := rfl
@[simp] theorem State.answer_cc (m : Msg) (c : Nat) : (s.answer m c).cc = s.cc := rfl
@[simp] theorem State.answer_rfx (m : Msg) (c : Nat) : (s.answer m c).rfx = s.rfx := rfl
@[simp] theorem State.answer_dyn (m : Msg) (c : Nat) : (s.answer m c).dyn = s.dyn := rfl
@[simp] theorem State.answer_mbx (m : Msg) (c : Nat) : (s.answer m c).mbx = s.mbx := rfl
@[simp] theorem State.answer_sched (m : Msg) (c : Nat) : (s.answer m c).sched = s.sched := rfl
@[simp] theorem State.answer_img (m : Msg) (c : Nat) : (s.answer m c).img = s.img := rfl
@[simp] theorem State.answer_castle (m : Msg) (c : Nat) : (s.answer m c).castle = s.castle := rfl
@[simp] theorem State.answer_poison (m : Msg) (c : Nat) : (s.answer m c).poison = s.poison := rfl
@[simp] theorem State.answer_badWords (m : Msg) (c : Nat) : (s.answer m c).badWords = s.badWords := rfl
@[simp] theorem State.answer_acc (m : Msg) (c : Nat) : (s.answer m c).acc = s.acc := rfl
@[simp] theorem State.answer_cores (m : Msg) (c : Nat) : (s.answer m c).cores = s.cores := rfl
@[simp] theorem State.answer_pcie (m : Msg) (c : Nat) : (s.answer m c).pcie = s.pcie := rfl
@[simp] theorem State.answer_link (m : Msg) (c : Nat) : (s.answer m c).link = s.link := rfl
@[simp] theorem State.answer_pwr (m : Msg) (c : Nat) : (s.answer m c).pwr = s.pwr := rfl
@[simp] theorem State.answer_loops (m : Msg) (c : Nat) : (s.answer m c).loops = s.loops := rfl
@[simp] theorem State.answer_clk (m : Msg) (c : Nat) : (s.answer m c).clk = s.clk := rfl
@[simp] theorem State.answer_boot (m : Msg) (c : Nat) : (s.answer m c).boot = s.boot := rfl
@[simp] theorem State.answer_reg (m : Msg) (c : Nat) (r0 : Nat) : (s.answer m c).reg r0 = s.reg r0 := by simp only [State.reg, State.answer_csr]
@[simp] theorem State.answer_rd (m : Msg) (c : Nat) (g : Fld) : (s.answer m c).rd g = s.rd g := by simp only [State.rd, State.answer_reg]
@[simp] theorem State.answer_byte (m : Msg) (c : Nat) (r0 : Nat) : (s.answer m c).byte r0 = s.byte r0 := by simp only [State.byte, State.blank, State.answer_mem, State.answer_rekey]

/-! ### setTb -/

@[simp] theorem State.setTb_pending (n : Nat) (t : Tb) : (s.setTb n t).pending = s.pending := rfl
@[simp] theorem State.setTb_now (n : Nat) (t : Tb) : (s.setTb n t).now = s.now := rfl
@[simp] theorem State.setTb_freeCtr (n : Nat) (t : Tb) : (s.setTb n t).freeCtr = s.freeCtr := rfl
@[simp] theorem State.setTb_csr (n : Nat) (t : Tb) : (s.setTb n t).csr = s.csr := rfl
@[simp] theorem State.setTb_mem (n : Nat) (t : Tb) : (s.setTb n t).mem = s.mem := rfl
@[simp] theorem State.setTb_log (n : Nat) (t : Tb) : (s.setTb n t).log = s.log := rfl
@[simp] theorem State.setTb_half (n : Nat) (t : Tb) : (s.setTb n t).half = s.half := rfl
@[simp] theorem State.setTb_epoch (n : Nat) (t : Tb) : (s.setTb n t).epoch = s.epoch := rfl
@[simp] theorem State.setTb_irq (n : Nat) (t : Tb) : (s.setTb n t).irq = s.irq := rfl
@[simp] theorem State.setTb_msix (n : Nat) (t : Tb) : (s.setTb n t).msix = s.msix := rfl
@[simp] theorem State.setTb_imsic (n : Nat) (t : Tb) : (s.setTb n t).imsic = s.imsic := rfl
@[simp] theorem State.setTb_castleIrq (n : Nat) (t : Tb) : (s.setTb n t).castleIrq = s.castleIrq := rfl
@[simp] theorem State.setTb_rdata (n : Nat) (t : Tb) : (s.setTb n t).rdata = s.rdata := rfl
@[simp] theorem State.setTb_iq (n : Nat) (t : Tb) : (s.setTb n t).iq = s.iq := rfl
@[simp] theorem State.setTb_port (n : Nat) (t : Tb) : (s.setTb n t).port = s.port := rfl
@[simp] theorem State.setTb_aln (n : Nat) (t : Tb) : (s.setTb n t).aln = s.aln := rfl
@[simp] theorem State.setTb_vox (n : Nat) (t : Tb) : (s.setTb n t).vox = s.vox := rfl
@[simp] theorem State.setTb_sq (n : Nat) (t : Tb) : (s.setTb n t).sq = s.sq := rfl
@[simp] theorem State.setTb_fab (n : Nat) (t : Tb) : (s.setTb n t).fab = s.fab := rfl
@[simp] theorem State.setTb_net (n : Nat) (t : Tb) : (s.setTb n t).net = s.net := rfl
@[simp] theorem State.setTb_unitSt (n : Nat) (t : Tb) : (s.setTb n t).unitSt = s.unitSt := rfl
@[simp] theorem State.setTb_pl (n : Nat) (t : Tb) : (s.setTb n t).pl = s.pl := rfl
@[simp] theorem State.setTb_ae (n : Nat) (t : Tb) : (s.setTb n t).ae = s.ae := rfl
@[simp] theorem State.setTb_kv (n : Nat) (t : Tb) : (s.setTb n t).kv = s.kv := rfl
@[simp] theorem State.setTb_mc (n : Nat) (t : Tb) : (s.setTb n t).mc = s.mc := rfl
@[simp] theorem State.setTb_rekey (n : Nat) (t : Tb) : (s.setTb n t).rekey = s.rekey := rfl
@[simp] theorem State.setTb_cc (n : Nat) (t : Tb) : (s.setTb n t).cc = s.cc := rfl
@[simp] theorem State.setTb_rfx (n : Nat) (t : Tb) : (s.setTb n t).rfx = s.rfx := rfl
@[simp] theorem State.setTb_dyn (n : Nat) (t : Tb) : (s.setTb n t).dyn = s.dyn := rfl
@[simp] theorem State.setTb_mbx (n : Nat) (t : Tb) : (s.setTb n t).mbx = s.mbx := rfl
@[simp] theorem State.setTb_sched (n : Nat) (t : Tb) : (s.setTb n t).sched = s.sched := rfl
@[simp] theorem State.setTb_img (n : Nat) (t : Tb) : (s.setTb n t).img = s.img := rfl
@[simp] theorem State.setTb_castle (n : Nat) (t : Tb) : (s.setTb n t).castle = s.castle := rfl
@[simp] theorem State.setTb_poison (n : Nat) (t : Tb) : (s.setTb n t).poison = s.poison := rfl
@[simp] theorem State.setTb_badWords (n : Nat) (t : Tb) : (s.setTb n t).badWords = s.badWords := rfl
@[simp] theorem State.setTb_acc (n : Nat) (t : Tb) : (s.setTb n t).acc = s.acc := rfl
@[simp] theorem State.setTb_cores (n : Nat) (t : Tb) : (s.setTb n t).cores = s.cores := rfl
@[simp] theorem State.setTb_pcie (n : Nat) (t : Tb) : (s.setTb n t).pcie = s.pcie := rfl
@[simp] theorem State.setTb_link (n : Nat) (t : Tb) : (s.setTb n t).link = s.link := rfl
@[simp] theorem State.setTb_pwr (n : Nat) (t : Tb) : (s.setTb n t).pwr = s.pwr := rfl
@[simp] theorem State.setTb_loops (n : Nat) (t : Tb) : (s.setTb n t).loops = s.loops := rfl
@[simp] theorem State.setTb_clk (n : Nat) (t : Tb) : (s.setTb n t).clk = s.clk := rfl
@[simp] theorem State.setTb_boot (n : Nat) (t : Tb) : (s.setTb n t).boot = s.boot := rfl
@[simp] theorem State.setTb_reg (n : Nat) (t : Tb) (r0 : Nat) : (s.setTb n t).reg r0 = s.reg r0 := by simp only [State.reg, State.setTb_csr]
@[simp] theorem State.setTb_rd (n : Nat) (t : Tb) (g : Fld) : (s.setTb n t).rd g = s.rd g := by simp only [State.rd, State.setTb_reg]
@[simp] theorem State.setTb_byte (n : Nat) (t : Tb) (r0 : Nat) : (s.setTb n t).byte r0 = s.byte r0 := by simp only [State.byte, State.blank, State.setTb_mem, State.setTb_rekey]
@[simp] theorem State.setTb_tb_self (n : Nat) (t : Tb) : (s.setTb n t).tb n = t := by simp [State.setTb, State.tb]
@[simp] theorem State.setTb_setTb (n : Nat) (t : Tb) (y : Tb) : (s.setTb n t).setTb n y = s.setTb n y := by simp [State.setTb]
theorem State.setTb_tb_ne (n : Nat) (t : Tb) {y : Nat} (h : n ≠ y) : (s.setTb n t).tb y = s.tb y := by simp [State.setTb, State.tb, mget_mset_ne _ _ _ _ h]

/-! ### writeReg -/

@[simp] theorem State.writeReg_pending (a : Nat) (d : WData) : (s.writeReg a d).pending = s.pending := by unfold State.writeReg; split <;> simp
@[simp] theorem State.writeReg_now (a : Nat) (d : WData) : (s.writeReg a d).now = s.now := by unfold State.writeReg; split <;> simp
@[simp] theorem State.writeReg_freeCtr (a : Nat) (d : WData) : (s.writeReg a d).freeCtr = s.freeCtr := by unfold State.writeReg; split <;> simp
@[simp] theorem State.writeReg_mem (a : Nat) (d : WData) : (s.writeReg a d).mem = s.mem := by unfold State.writeReg; split <;> simp
@[simp] theorem State.writeReg_log (a : Nat) (d : WData) : (s.writeReg a d).log = s.log := by unfold State.writeReg; split <;> simp
@[simp] theorem State.writeReg_half (a : Nat) (d : WData) : (s.writeReg a d).half = s.half := by unfold State.writeReg; split <;> simp
@[simp] theorem State.writeReg_epoch (a : Nat) (d : WData) : (s.writeReg a d).epoch = s.epoch := by unfold State.writeReg; split <;> simp
@[simp] theorem State.writeReg_irq (a : Nat) (d : WData) : (s.writeReg a d).irq = s.irq := by unfold State.writeReg; split <;> simp
@[simp] theorem State.writeReg_msix (a : Nat) (d : WData) : (s.writeReg a d).msix = s.msix := by unfold State.writeReg; split <;> simp
@[simp] theorem State.writeReg_imsic (a : Nat) (d : WData) : (s.writeReg a d).imsic = s.imsic := by unfold State.writeReg; split <;> simp
@[simp] theorem State.writeReg_castleIrq (a : Nat) (d : WData) : (s.writeReg a d).castleIrq = s.castleIrq := by unfold State.writeReg; split <;> simp
@[simp] theorem State.writeReg_rdata (a : Nat) (d : WData) : (s.writeReg a d).rdata = s.rdata := by unfold State.writeReg; split <;> simp
@[simp] theorem State.writeReg_time (a : Nat) (d : WData) : (s.writeReg a d).time = s.time := by unfold State.writeReg; split <;> simp
@[simp] theorem State.writeReg_iq (a : Nat) (d : WData) : (s.writeReg a d).iq = s.iq := by unfold State.writeReg; split <;> simp
@[simp] theorem State.writeReg_port (a : Nat) (d : WData) : (s.writeReg a d).port = s.port := by unfold State.writeReg; split <;> simp
@[simp] theorem State.writeReg_aln (a : Nat) (d : WData) : (s.writeReg a d).aln = s.aln := by unfold State.writeReg; split <;> simp
@[simp] theorem State.writeReg_vox (a : Nat) (d : WData) : (s.writeReg a d).vox = s.vox := by unfold State.writeReg; split <;> simp
@[simp] theorem State.writeReg_sq (a : Nat) (d : WData) : (s.writeReg a d).sq = s.sq := by unfold State.writeReg; split <;> simp
@[simp] theorem State.writeReg_fab (a : Nat) (d : WData) : (s.writeReg a d).fab = s.fab := by unfold State.writeReg; split <;> simp
@[simp] theorem State.writeReg_net (a : Nat) (d : WData) : (s.writeReg a d).net = s.net := by unfold State.writeReg; split <;> simp
@[simp] theorem State.writeReg_unitSt (a : Nat) (d : WData) : (s.writeReg a d).unitSt = s.unitSt := by unfold State.writeReg; split <;> simp
@[simp] theorem State.writeReg_pl (a : Nat) (d : WData) : (s.writeReg a d).pl = s.pl := by unfold State.writeReg; split <;> simp
@[simp] theorem State.writeReg_ae (a : Nat) (d : WData) : (s.writeReg a d).ae = s.ae := by unfold State.writeReg; split <;> simp
@[simp] theorem State.writeReg_kv (a : Nat) (d : WData) : (s.writeReg a d).kv = s.kv := by unfold State.writeReg; split <;> simp
@[simp] theorem State.writeReg_mc (a : Nat) (d : WData) : (s.writeReg a d).mc = s.mc := by unfold State.writeReg; split <;> simp
@[simp] theorem State.writeReg_rekey (a : Nat) (d : WData) : (s.writeReg a d).rekey = s.rekey := by unfold State.writeReg; split <;> simp
@[simp] theorem State.writeReg_cc (a : Nat) (d : WData) : (s.writeReg a d).cc = s.cc := by unfold State.writeReg; split <;> simp
@[simp] theorem State.writeReg_rfx (a : Nat) (d : WData) : (s.writeReg a d).rfx = s.rfx := by unfold State.writeReg; split <;> simp
@[simp] theorem State.writeReg_dyn (a : Nat) (d : WData) : (s.writeReg a d).dyn = s.dyn := by unfold State.writeReg; split <;> simp
@[simp] theorem State.writeReg_mbx (a : Nat) (d : WData) : (s.writeReg a d).mbx = s.mbx := by unfold State.writeReg; split <;> simp
@[simp] theorem State.writeReg_sched (a : Nat) (d : WData) : (s.writeReg a d).sched = s.sched := by unfold State.writeReg; split <;> simp
@[simp] theorem State.writeReg_img (a : Nat) (d : WData) : (s.writeReg a d).img = s.img := by unfold State.writeReg; split <;> simp
@[simp] theorem State.writeReg_castle (a : Nat) (d : WData) : (s.writeReg a d).castle = s.castle := by unfold State.writeReg; split <;> simp
@[simp] theorem State.writeReg_poison (a : Nat) (d : WData) : (s.writeReg a d).poison = s.poison := by unfold State.writeReg; split <;> simp
@[simp] theorem State.writeReg_badWords (a : Nat) (d : WData) : (s.writeReg a d).badWords = s.badWords := by unfold State.writeReg; split <;> simp
@[simp] theorem State.writeReg_acc (a : Nat) (d : WData) : (s.writeReg a d).acc = s.acc := by unfold State.writeReg; split <;> simp
@[simp] theorem State.writeReg_cores (a : Nat) (d : WData) : (s.writeReg a d).cores = s.cores := by unfold State.writeReg; split <;> simp
@[simp] theorem State.writeReg_pcie (a : Nat) (d : WData) : (s.writeReg a d).pcie = s.pcie := by unfold State.writeReg; split <;> simp
@[simp] theorem State.writeReg_link (a : Nat) (d : WData) : (s.writeReg a d).link = s.link := by unfold State.writeReg; split <;> simp
@[simp] theorem State.writeReg_pwr (a : Nat) (d : WData) : (s.writeReg a d).pwr = s.pwr := by unfold State.writeReg; split <;> simp
@[simp] theorem State.writeReg_loops (a : Nat) (d : WData) : (s.writeReg a d).loops = s.loops := by unfold State.writeReg; split <;> simp
@[simp] theorem State.writeReg_clk (a : Nat) (d : WData) : (s.writeReg a d).clk = s.clk := by unfold State.writeReg; split <;> simp
@[simp] theorem State.writeReg_boot (a : Nat) (d : WData) : (s.writeReg a d).boot = s.boot := by unfold State.writeReg; split <;> simp
@[simp] theorem State.writeReg_byte (a : Nat) (d : WData) (r0 : Nat) : (s.writeReg a d).byte r0 = s.byte r0 := by simp only [State.byte, State.blank, State.writeReg_mem, State.writeReg_rekey]

/-! ### raiseIrq -/

@[simp] theorem State.raiseIrq_pending (i : Nat) : (s.raiseIrq i).pending = s.pending := by unfold State.raiseIrq; dsimp only; split <;> rfl
@[simp] theorem State.raiseIrq_now (i : Nat) : (s.raiseIrq i).now = s.now := by unfold State.raiseIrq; dsimp only; split <;> rfl
@[simp] theorem State.raiseIrq_freeCtr (i : Nat) : (s.raiseIrq i).freeCtr = s.freeCtr := by unfold State.raiseIrq; dsimp only; split <;> rfl
@[simp] theorem State.raiseIrq_csr (i : Nat) : (s.raiseIrq i).csr = s.csr := by unfold State.raiseIrq; dsimp only; split <;> rfl
@[simp] theorem State.raiseIrq_mem (i : Nat) : (s.raiseIrq i).mem = s.mem := by unfold State.raiseIrq; dsimp only; split <;> rfl
@[simp] theorem State.raiseIrq_log (i : Nat) : (s.raiseIrq i).log = s.log := by unfold State.raiseIrq; dsimp only; split <;> rfl
@[simp] theorem State.raiseIrq_half (i : Nat) : (s.raiseIrq i).half = s.half := by unfold State.raiseIrq; dsimp only; split <;> rfl
@[simp] theorem State.raiseIrq_epoch (i : Nat) : (s.raiseIrq i).epoch = s.epoch := by unfold State.raiseIrq; dsimp only; split <;> rfl
@[simp] theorem State.raiseIrq_msix (i : Nat) : (s.raiseIrq i).msix = s.msix := by unfold State.raiseIrq; dsimp only; split <;> rfl
@[simp] theorem State.raiseIrq_castleIrq (i : Nat) : (s.raiseIrq i).castleIrq = s.castleIrq := by unfold State.raiseIrq; dsimp only; split <;> rfl
@[simp] theorem State.raiseIrq_rdata (i : Nat) : (s.raiseIrq i).rdata = s.rdata := by unfold State.raiseIrq; dsimp only; split <;> rfl
@[simp] theorem State.raiseIrq_time (i : Nat) : (s.raiseIrq i).time = s.time := by unfold State.raiseIrq; dsimp only; split <;> rfl
@[simp] theorem State.raiseIrq_iq (i : Nat) : (s.raiseIrq i).iq = s.iq := by unfold State.raiseIrq; dsimp only; split <;> rfl
@[simp] theorem State.raiseIrq_port (i : Nat) : (s.raiseIrq i).port = s.port := by unfold State.raiseIrq; dsimp only; split <;> rfl
@[simp] theorem State.raiseIrq_aln (i : Nat) : (s.raiseIrq i).aln = s.aln := by unfold State.raiseIrq; dsimp only; split <;> rfl
@[simp] theorem State.raiseIrq_vox (i : Nat) : (s.raiseIrq i).vox = s.vox := by unfold State.raiseIrq; dsimp only; split <;> rfl
@[simp] theorem State.raiseIrq_sq (i : Nat) : (s.raiseIrq i).sq = s.sq := by unfold State.raiseIrq; dsimp only; split <;> rfl
@[simp] theorem State.raiseIrq_fab (i : Nat) : (s.raiseIrq i).fab = s.fab := by unfold State.raiseIrq; dsimp only; split <;> rfl
@[simp] theorem State.raiseIrq_net (i : Nat) : (s.raiseIrq i).net = s.net := by unfold State.raiseIrq; dsimp only; split <;> rfl
@[simp] theorem State.raiseIrq_unitSt (i : Nat) : (s.raiseIrq i).unitSt = s.unitSt := by unfold State.raiseIrq; dsimp only; split <;> rfl
@[simp] theorem State.raiseIrq_pl (i : Nat) : (s.raiseIrq i).pl = s.pl := by unfold State.raiseIrq; dsimp only; split <;> rfl
@[simp] theorem State.raiseIrq_ae (i : Nat) : (s.raiseIrq i).ae = s.ae := by unfold State.raiseIrq; dsimp only; split <;> rfl
@[simp] theorem State.raiseIrq_kv (i : Nat) : (s.raiseIrq i).kv = s.kv := by unfold State.raiseIrq; dsimp only; split <;> rfl
@[simp] theorem State.raiseIrq_mc (i : Nat) : (s.raiseIrq i).mc = s.mc := by unfold State.raiseIrq; dsimp only; split <;> rfl
@[simp] theorem State.raiseIrq_rekey (i : Nat) : (s.raiseIrq i).rekey = s.rekey := by unfold State.raiseIrq; dsimp only; split <;> rfl
@[simp] theorem State.raiseIrq_cc (i : Nat) : (s.raiseIrq i).cc = s.cc := by unfold State.raiseIrq; dsimp only; split <;> rfl
@[simp] theorem State.raiseIrq_rfx (i : Nat) : (s.raiseIrq i).rfx = s.rfx := by unfold State.raiseIrq; dsimp only; split <;> rfl
@[simp] theorem State.raiseIrq_dyn (i : Nat) : (s.raiseIrq i).dyn = s.dyn := by unfold State.raiseIrq; dsimp only; split <;> rfl
@[simp] theorem State.raiseIrq_mbx (i : Nat) : (s.raiseIrq i).mbx = s.mbx := by unfold State.raiseIrq; dsimp only; split <;> rfl
@[simp] theorem State.raiseIrq_sched (i : Nat) : (s.raiseIrq i).sched = s.sched := by unfold State.raiseIrq; dsimp only; split <;> rfl
@[simp] theorem State.raiseIrq_img (i : Nat) : (s.raiseIrq i).img = s.img := by unfold State.raiseIrq; dsimp only; split <;> rfl
@[simp] theorem State.raiseIrq_castle (i : Nat) : (s.raiseIrq i).castle = s.castle := by unfold State.raiseIrq; dsimp only; split <;> rfl
@[simp] theorem State.raiseIrq_poison (i : Nat) : (s.raiseIrq i).poison = s.poison := by unfold State.raiseIrq; dsimp only; split <;> rfl
@[simp] theorem State.raiseIrq_badWords (i : Nat) : (s.raiseIrq i).badWords = s.badWords := by unfold State.raiseIrq; dsimp only; split <;> rfl
@[simp] theorem State.raiseIrq_acc (i : Nat) : (s.raiseIrq i).acc = s.acc := by unfold State.raiseIrq; dsimp only; split <;> rfl
@[simp] theorem State.raiseIrq_cores (i : Nat) : (s.raiseIrq i).cores = s.cores := by unfold State.raiseIrq; dsimp only; split <;> rfl
@[simp] theorem State.raiseIrq_pcie (i : Nat) : (s.raiseIrq i).pcie = s.pcie := by unfold State.raiseIrq; dsimp only; split <;> rfl
@[simp] theorem State.raiseIrq_link (i : Nat) : (s.raiseIrq i).link = s.link := by unfold State.raiseIrq; dsimp only; split <;> rfl
@[simp] theorem State.raiseIrq_pwr (i : Nat) : (s.raiseIrq i).pwr = s.pwr := by unfold State.raiseIrq; dsimp only; split <;> rfl
@[simp] theorem State.raiseIrq_loops (i : Nat) : (s.raiseIrq i).loops = s.loops := by unfold State.raiseIrq; dsimp only; split <;> rfl
@[simp] theorem State.raiseIrq_clk (i : Nat) : (s.raiseIrq i).clk = s.clk := by unfold State.raiseIrq; dsimp only; split <;> rfl
@[simp] theorem State.raiseIrq_boot (i : Nat) : (s.raiseIrq i).boot = s.boot := by unfold State.raiseIrq; dsimp only; split <;> rfl
@[simp] theorem State.raiseIrq_reg (i : Nat) (r0 : Nat) : (s.raiseIrq i).reg r0 = s.reg r0 := by simp only [State.reg, State.raiseIrq_csr]
@[simp] theorem State.raiseIrq_rd (i : Nat) (g : Fld) : (s.raiseIrq i).rd g = s.rd g := by simp only [State.rd, State.raiseIrq_reg]
@[simp] theorem State.raiseIrq_byte (i : Nat) (r0 : Nat) : (s.raiseIrq i).byte r0 = s.byte r0 := by simp only [State.byte, State.blank, State.raiseIrq_mem, State.raiseIrq_rekey]

/-! ### setUstate -/

@[simp] theorem State.setUstate_pending (u v : Nat) : (s.setUstate u v).pending = s.pending := by unfold State.setUstate; split <;> simp
@[simp] theorem State.setUstate_now (u v : Nat) : (s.setUstate u v).now = s.now := by unfold State.setUstate; split <;> simp
@[simp] theorem State.setUstate_freeCtr (u v : Nat) : (s.setUstate u v).freeCtr = s.freeCtr := by unfold State.setUstate; split <;> simp
@[simp] theorem State.setUstate_mem (u v : Nat) : (s.setUstate u v).mem = s.mem := by unfold State.setUstate; split <;> simp
@[simp] theorem State.setUstate_log (u v : Nat) : (s.setUstate u v).log = s.log := by unfold State.setUstate; split <;> simp
@[simp] theorem State.setUstate_half (u v : Nat) : (s.setUstate u v).half = s.half := by unfold State.setUstate; split <;> simp
@[simp] theorem State.setUstate_epoch (u v : Nat) : (s.setUstate u v).epoch = s.epoch := by unfold State.setUstate; split <;> simp
@[simp] theorem State.setUstate_irq (u v : Nat) : (s.setUstate u v).irq = s.irq := by unfold State.setUstate; split <;> simp
@[simp] theorem State.setUstate_msix (u v : Nat) : (s.setUstate u v).msix = s.msix := by unfold State.setUstate; split <;> simp
@[simp] theorem State.setUstate_imsic (u v : Nat) : (s.setUstate u v).imsic = s.imsic := by unfold State.setUstate; split <;> simp
@[simp] theorem State.setUstate_castleIrq (u v : Nat) : (s.setUstate u v).castleIrq = s.castleIrq := by unfold State.setUstate; split <;> simp
@[simp] theorem State.setUstate_rdata (u v : Nat) : (s.setUstate u v).rdata = s.rdata := by unfold State.setUstate; split <;> simp
@[simp] theorem State.setUstate_time (u v : Nat) : (s.setUstate u v).time = s.time := by unfold State.setUstate; split <;> simp
@[simp] theorem State.setUstate_iq (u v : Nat) : (s.setUstate u v).iq = s.iq := by unfold State.setUstate; split <;> simp
@[simp] theorem State.setUstate_port (u v : Nat) : (s.setUstate u v).port = s.port := by unfold State.setUstate; split <;> simp
@[simp] theorem State.setUstate_aln (u v : Nat) : (s.setUstate u v).aln = s.aln := by unfold State.setUstate; split <;> simp
@[simp] theorem State.setUstate_vox (u v : Nat) : (s.setUstate u v).vox = s.vox := by unfold State.setUstate; split <;> simp
@[simp] theorem State.setUstate_sq (u v : Nat) : (s.setUstate u v).sq = s.sq := by unfold State.setUstate; split <;> simp
@[simp] theorem State.setUstate_fab (u v : Nat) : (s.setUstate u v).fab = s.fab := by unfold State.setUstate; split <;> simp
@[simp] theorem State.setUstate_net (u v : Nat) : (s.setUstate u v).net = s.net := by unfold State.setUstate; split <;> simp
@[simp] theorem State.setUstate_pl (u v : Nat) : (s.setUstate u v).pl = s.pl := by unfold State.setUstate; split <;> simp
@[simp] theorem State.setUstate_ae (u v : Nat) : (s.setUstate u v).ae = s.ae := by unfold State.setUstate; split <;> simp
@[simp] theorem State.setUstate_kv (u v : Nat) : (s.setUstate u v).kv = s.kv := by unfold State.setUstate; split <;> simp
@[simp] theorem State.setUstate_mc (u v : Nat) : (s.setUstate u v).mc = s.mc := by unfold State.setUstate; split <;> simp
@[simp] theorem State.setUstate_rekey (u v : Nat) : (s.setUstate u v).rekey = s.rekey := by unfold State.setUstate; split <;> simp
@[simp] theorem State.setUstate_cc (u v : Nat) : (s.setUstate u v).cc = s.cc := by unfold State.setUstate; split <;> simp
@[simp] theorem State.setUstate_rfx (u v : Nat) : (s.setUstate u v).rfx = s.rfx := by unfold State.setUstate; split <;> simp
@[simp] theorem State.setUstate_dyn (u v : Nat) : (s.setUstate u v).dyn = s.dyn := by unfold State.setUstate; split <;> simp
@[simp] theorem State.setUstate_mbx (u v : Nat) : (s.setUstate u v).mbx = s.mbx := by unfold State.setUstate; split <;> simp
@[simp] theorem State.setUstate_sched (u v : Nat) : (s.setUstate u v).sched = s.sched := by unfold State.setUstate; split <;> simp
@[simp] theorem State.setUstate_img (u v : Nat) : (s.setUstate u v).img = s.img := by unfold State.setUstate; split <;> simp
@[simp] theorem State.setUstate_castle (u v : Nat) : (s.setUstate u v).castle = s.castle := by unfold State.setUstate; split <;> simp
@[simp] theorem State.setUstate_poison (u v : Nat) : (s.setUstate u v).poison = s.poison := by unfold State.setUstate; split <;> simp
@[simp] theorem State.setUstate_badWords (u v : Nat) : (s.setUstate u v).badWords = s.badWords := by unfold State.setUstate; split <;> simp
@[simp] theorem State.setUstate_acc (u v : Nat) : (s.setUstate u v).acc = s.acc := by unfold State.setUstate; split <;> simp
@[simp] theorem State.setUstate_cores (u v : Nat) : (s.setUstate u v).cores = s.cores := by unfold State.setUstate; split <;> simp
@[simp] theorem State.setUstate_pcie (u v : Nat) : (s.setUstate u v).pcie = s.pcie := by unfold State.setUstate; split <;> simp
@[simp] theorem State.setUstate_link (u v : Nat) : (s.setUstate u v).link = s.link := by unfold State.setUstate; split <;> simp
@[simp] theorem State.setUstate_pwr (u v : Nat) : (s.setUstate u v).pwr = s.pwr := by unfold State.setUstate; split <;> simp
@[simp] theorem State.setUstate_loops (u v : Nat) : (s.setUstate u v).loops = s.loops := by unfold State.setUstate; split <;> simp
@[simp] theorem State.setUstate_clk (u v : Nat) : (s.setUstate u v).clk = s.clk := by unfold State.setUstate; split <;> simp
@[simp] theorem State.setUstate_boot (u v : Nat) : (s.setUstate u v).boot = s.boot := by unfold State.setUstate; split <;> simp
@[simp] theorem State.setUstate_byte (u v : Nat) (r0 : Nat) : (s.setUstate u v).byte r0 = s.byte r0 := by simp only [State.byte, State.blank, State.setUstate_mem, State.setUstate_rekey]

/-! ### bumpEpoch -/

@[simp] theorem State.bumpEpoch_pending (u : Nat) : (s.bumpEpoch u).pending = s.pending := by unfold State.bumpEpoch; dsimp only; split <;> simp
@[simp] theorem State.bumpEpoch_now (u : Nat) : (s.bumpEpoch u).now = s.now := by unfold State.bumpEpoch; dsimp only; split <;> simp
@[simp] theorem State.bumpEpoch_freeCtr (u : Nat) : (s.bumpEpoch u).freeCtr = s.freeCtr := by unfold State.bumpEpoch; dsimp only; split <;> simp
@[simp] theorem State.bumpEpoch_mem (u : Nat) : (s.bumpEpoch u).mem = s.mem := by unfold State.bumpEpoch; dsimp only; split <;> simp
@[simp] theorem State.bumpEpoch_log (u : Nat) : (s.bumpEpoch u).log = s.log := by unfold State.bumpEpoch; dsimp only; split <;> simp
@[simp] theorem State.bumpEpoch_half (u : Nat) : (s.bumpEpoch u).half = s.half := by unfold State.bumpEpoch; dsimp only; split <;> simp
@[simp] theorem State.bumpEpoch_irq (u : Nat) : (s.bumpEpoch u).irq = s.irq := by unfold State.bumpEpoch; dsimp only; split <;> simp
@[simp] theorem State.bumpEpoch_msix (u : Nat) : (s.bumpEpoch u).msix = s.msix := by unfold State.bumpEpoch; dsimp only; split <;> simp
@[simp] theorem State.bumpEpoch_imsic (u : Nat) : (s.bumpEpoch u).imsic = s.imsic := by unfold State.bumpEpoch; dsimp only; split <;> simp
@[simp] theorem State.bumpEpoch_castleIrq (u : Nat) : (s.bumpEpoch u).castleIrq = s.castleIrq := by unfold State.bumpEpoch; dsimp only; split <;> simp
@[simp] theorem State.bumpEpoch_rdata (u : Nat) : (s.bumpEpoch u).rdata = s.rdata := by unfold State.bumpEpoch; dsimp only; split <;> simp
@[simp] theorem State.bumpEpoch_time (u : Nat) : (s.bumpEpoch u).time = s.time := by unfold State.bumpEpoch; dsimp only; split <;> simp
@[simp] theorem State.bumpEpoch_iq (u : Nat) : (s.bumpEpoch u).iq = s.iq := by unfold State.bumpEpoch; dsimp only; split <;> simp
@[simp] theorem State.bumpEpoch_port (u : Nat) : (s.bumpEpoch u).port = s.port := by unfold State.bumpEpoch; dsimp only; split <;> simp
@[simp] theorem State.bumpEpoch_aln (u : Nat) : (s.bumpEpoch u).aln = s.aln := by unfold State.bumpEpoch; dsimp only; split <;> simp
@[simp] theorem State.bumpEpoch_vox (u : Nat) : (s.bumpEpoch u).vox = s.vox := by unfold State.bumpEpoch; dsimp only; split <;> simp
@[simp] theorem State.bumpEpoch_sq (u : Nat) : (s.bumpEpoch u).sq = s.sq := by unfold State.bumpEpoch; dsimp only; split <;> simp
@[simp] theorem State.bumpEpoch_fab (u : Nat) : (s.bumpEpoch u).fab = s.fab := by unfold State.bumpEpoch; dsimp only; split <;> simp
@[simp] theorem State.bumpEpoch_net (u : Nat) : (s.bumpEpoch u).net = s.net := by unfold State.bumpEpoch; dsimp only; split <;> simp
@[simp] theorem State.bumpEpoch_unitSt (u : Nat) : (s.bumpEpoch u).unitSt = s.unitSt := by unfold State.bumpEpoch; dsimp only; split <;> simp
@[simp] theorem State.bumpEpoch_pl (u : Nat) : (s.bumpEpoch u).pl = s.pl := by unfold State.bumpEpoch; dsimp only; split <;> simp
@[simp] theorem State.bumpEpoch_ae (u : Nat) : (s.bumpEpoch u).ae = s.ae := by unfold State.bumpEpoch; dsimp only; split <;> simp
@[simp] theorem State.bumpEpoch_kv (u : Nat) : (s.bumpEpoch u).kv = s.kv := by unfold State.bumpEpoch; dsimp only; split <;> simp
@[simp] theorem State.bumpEpoch_mc (u : Nat) : (s.bumpEpoch u).mc = s.mc := by unfold State.bumpEpoch; dsimp only; split <;> simp
@[simp] theorem State.bumpEpoch_rekey (u : Nat) : (s.bumpEpoch u).rekey = s.rekey := by unfold State.bumpEpoch; dsimp only; split <;> simp
@[simp] theorem State.bumpEpoch_cc (u : Nat) : (s.bumpEpoch u).cc = s.cc := by unfold State.bumpEpoch; dsimp only; split <;> simp
@[simp] theorem State.bumpEpoch_rfx (u : Nat) : (s.bumpEpoch u).rfx = s.rfx := by unfold State.bumpEpoch; dsimp only; split <;> simp
@[simp] theorem State.bumpEpoch_dyn (u : Nat) : (s.bumpEpoch u).dyn = s.dyn := by unfold State.bumpEpoch; dsimp only; split <;> simp
@[simp] theorem State.bumpEpoch_mbx (u : Nat) : (s.bumpEpoch u).mbx = s.mbx := by unfold State.bumpEpoch; dsimp only; split <;> simp
@[simp] theorem State.bumpEpoch_sched (u : Nat) : (s.bumpEpoch u).sched = s.sched := by unfold State.bumpEpoch; dsimp only; split <;> simp
@[simp] theorem State.bumpEpoch_img (u : Nat) : (s.bumpEpoch u).img = s.img := by unfold State.bumpEpoch; dsimp only; split <;> simp
@[simp] theorem State.bumpEpoch_castle (u : Nat) : (s.bumpEpoch u).castle = s.castle := by unfold State.bumpEpoch; dsimp only; split <;> simp
@[simp] theorem State.bumpEpoch_poison (u : Nat) : (s.bumpEpoch u).poison = s.poison := by unfold State.bumpEpoch; dsimp only; split <;> simp
@[simp] theorem State.bumpEpoch_badWords (u : Nat) : (s.bumpEpoch u).badWords = s.badWords := by unfold State.bumpEpoch; dsimp only; split <;> simp
@[simp] theorem State.bumpEpoch_acc (u : Nat) : (s.bumpEpoch u).acc = s.acc := by unfold State.bumpEpoch; dsimp only; split <;> simp
@[simp] theorem State.bumpEpoch_cores (u : Nat) : (s.bumpEpoch u).cores = s.cores := by unfold State.bumpEpoch; dsimp only; split <;> simp
@[simp] theorem State.bumpEpoch_pcie (u : Nat) : (s.bumpEpoch u).pcie = s.pcie := by unfold State.bumpEpoch; dsimp only; split <;> simp
@[simp] theorem State.bumpEpoch_link (u : Nat) : (s.bumpEpoch u).link = s.link := by unfold State.bumpEpoch; dsimp only; split <;> simp
@[simp] theorem State.bumpEpoch_pwr (u : Nat) : (s.bumpEpoch u).pwr = s.pwr := by unfold State.bumpEpoch; dsimp only; split <;> simp
@[simp] theorem State.bumpEpoch_loops (u : Nat) : (s.bumpEpoch u).loops = s.loops := by unfold State.bumpEpoch; dsimp only; split <;> simp
@[simp] theorem State.bumpEpoch_clk (u : Nat) : (s.bumpEpoch u).clk = s.clk := by unfold State.bumpEpoch; dsimp only; split <;> simp
@[simp] theorem State.bumpEpoch_boot (u : Nat) : (s.bumpEpoch u).boot = s.boot := by unfold State.bumpEpoch; dsimp only; split <;> simp
@[simp] theorem State.bumpEpoch_byte (u : Nat) (r0 : Nat) : (s.bumpEpoch u).byte r0 = s.byte r0 := by simp only [State.byte, State.blank, State.bumpEpoch_mem, State.bumpEpoch_rekey]

/-! ### cleanLines -/

@[simp] theorem State.cleanLines_pending (a n : Nat) : (s.cleanLines a n).pending = s.pending := by unfold State.cleanLines; split <;> rfl
@[simp] theorem State.cleanLines_now (a n : Nat) : (s.cleanLines a n).now = s.now := by unfold State.cleanLines; split <;> rfl
@[simp] theorem State.cleanLines_freeCtr (a n : Nat) : (s.cleanLines a n).freeCtr = s.freeCtr := by unfold State.cleanLines; split <;> rfl
@[simp] theorem State.cleanLines_csr (a n : Nat) : (s.cleanLines a n).csr = s.csr := by unfold State.cleanLines; split <;> rfl
@[simp] theorem State.cleanLines_mem (a n : Nat) : (s.cleanLines a n).mem = s.mem := by unfold State.cleanLines; split <;> rfl
@[simp] theorem State.cleanLines_log (a n : Nat) : (s.cleanLines a n).log = s.log := by unfold State.cleanLines; split <;> rfl
@[simp] theorem State.cleanLines_half (a n : Nat) : (s.cleanLines a n).half = s.half := by unfold State.cleanLines; split <;> rfl
@[simp] theorem State.cleanLines_epoch (a n : Nat) : (s.cleanLines a n).epoch = s.epoch := by unfold State.cleanLines; split <;> rfl
@[simp] theorem State.cleanLines_irq (a n : Nat) : (s.cleanLines a n).irq = s.irq := by unfold State.cleanLines; split <;> rfl
@[simp] theorem State.cleanLines_msix (a n : Nat) : (s.cleanLines a n).msix = s.msix := by unfold State.cleanLines; split <;> rfl
@[simp] theorem State.cleanLines_imsic (a n : Nat) : (s.cleanLines a n).imsic = s.imsic := by unfold State.cleanLines; split <;> rfl
@[simp] theorem State.cleanLines_castleIrq (a n : Nat) : (s.cleanLines a n).castleIrq = s.castleIrq := by unfold State.cleanLines; split <;> rfl
@[simp] theorem State.cleanLines_rdata (a n : Nat) : (s.cleanLines a n).rdata = s.rdata := by unfold State.cleanLines; split <;> rfl
@[simp] theorem State.cleanLines_time (a n : Nat) : (s.cleanLines a n).time = s.time := by unfold State.cleanLines; split <;> rfl
@[simp] theorem State.cleanLines_iq (a n : Nat) : (s.cleanLines a n).iq = s.iq := by unfold State.cleanLines; split <;> rfl
@[simp] theorem State.cleanLines_port (a n : Nat) : (s.cleanLines a n).port = s.port := by unfold State.cleanLines; split <;> rfl
@[simp] theorem State.cleanLines_aln (a n : Nat) : (s.cleanLines a n).aln = s.aln := by unfold State.cleanLines; split <;> rfl
@[simp] theorem State.cleanLines_vox (a n : Nat) : (s.cleanLines a n).vox = s.vox := by unfold State.cleanLines; split <;> rfl
@[simp] theorem State.cleanLines_sq (a n : Nat) : (s.cleanLines a n).sq = s.sq := by unfold State.cleanLines; split <;> rfl
@[simp] theorem State.cleanLines_fab (a n : Nat) : (s.cleanLines a n).fab = s.fab := by unfold State.cleanLines; split <;> rfl
@[simp] theorem State.cleanLines_net (a n : Nat) : (s.cleanLines a n).net = s.net := by unfold State.cleanLines; split <;> rfl
@[simp] theorem State.cleanLines_unitSt (a n : Nat) : (s.cleanLines a n).unitSt = s.unitSt := by unfold State.cleanLines; split <;> rfl
@[simp] theorem State.cleanLines_pl (a n : Nat) : (s.cleanLines a n).pl = s.pl := by unfold State.cleanLines; split <;> rfl
@[simp] theorem State.cleanLines_ae (a n : Nat) : (s.cleanLines a n).ae = s.ae := by unfold State.cleanLines; split <;> rfl
@[simp] theorem State.cleanLines_kv (a n : Nat) : (s.cleanLines a n).kv = s.kv := by unfold State.cleanLines; split <;> rfl
@[simp] theorem State.cleanLines_mc (a n : Nat) : (s.cleanLines a n).mc = s.mc := by unfold State.cleanLines; split <;> rfl
@[simp] theorem State.cleanLines_rekey (a n : Nat) : (s.cleanLines a n).rekey = s.rekey := by unfold State.cleanLines; split <;> rfl
@[simp] theorem State.cleanLines_cc (a n : Nat) : (s.cleanLines a n).cc = s.cc := by unfold State.cleanLines; split <;> rfl
@[simp] theorem State.cleanLines_rfx (a n : Nat) : (s.cleanLines a n).rfx = s.rfx := by unfold State.cleanLines; split <;> rfl
@[simp] theorem State.cleanLines_dyn (a n : Nat) : (s.cleanLines a n).dyn = s.dyn := by unfold State.cleanLines; split <;> rfl
@[simp] theorem State.cleanLines_mbx (a n : Nat) : (s.cleanLines a n).mbx = s.mbx := by unfold State.cleanLines; split <;> rfl
@[simp] theorem State.cleanLines_sched (a n : Nat) : (s.cleanLines a n).sched = s.sched := by unfold State.cleanLines; split <;> rfl
@[simp] theorem State.cleanLines_img (a n : Nat) : (s.cleanLines a n).img = s.img := by unfold State.cleanLines; split <;> rfl
@[simp] theorem State.cleanLines_castle (a n : Nat) : (s.cleanLines a n).castle = s.castle := by unfold State.cleanLines; split <;> rfl
@[simp] theorem State.cleanLines_acc (a n : Nat) : (s.cleanLines a n).acc = s.acc := by unfold State.cleanLines; split <;> rfl
@[simp] theorem State.cleanLines_cores (a n : Nat) : (s.cleanLines a n).cores = s.cores := by unfold State.cleanLines; split <;> rfl
@[simp] theorem State.cleanLines_pcie (a n : Nat) : (s.cleanLines a n).pcie = s.pcie := by unfold State.cleanLines; split <;> rfl
@[simp] theorem State.cleanLines_link (a n : Nat) : (s.cleanLines a n).link = s.link := by unfold State.cleanLines; split <;> rfl
@[simp] theorem State.cleanLines_pwr (a n : Nat) : (s.cleanLines a n).pwr = s.pwr := by unfold State.cleanLines; split <;> rfl
@[simp] theorem State.cleanLines_loops (a n : Nat) : (s.cleanLines a n).loops = s.loops := by unfold State.cleanLines; split <;> rfl
@[simp] theorem State.cleanLines_clk (a n : Nat) : (s.cleanLines a n).clk = s.clk := by unfold State.cleanLines; split <;> rfl
@[simp] theorem State.cleanLines_boot (a n : Nat) : (s.cleanLines a n).boot = s.boot := by unfold State.cleanLines; split <;> rfl
@[simp] theorem State.cleanLines_reg (a n : Nat) (r0 : Nat) : (s.cleanLines a n).reg r0 = s.reg r0 := by simp only [State.reg, State.cleanLines_csr]
@[simp] theorem State.cleanLines_rd (a n : Nat) (g : Fld) : (s.cleanLines a n).rd g = s.rd g := by simp only [State.rd, State.cleanLines_reg]
@[simp] theorem State.cleanLines_byte (a n : Nat) (r0 : Nat) : (s.cleanLines a n).byte r0 = s.byte r0 := by simp only [State.byte, State.blank, State.cleanLines_mem, State.cleanLines_rekey]

/-! ### logRec -/

@[simp] theorem State.logRec_pending (u c v p x : Nat) (l : List Nat) : (s.logRec u c v p x l).pending = s.pending := by unfold State.logRec; dsimp only; split <;> simp
@[simp] theorem State.logRec_now (u c v p x : Nat) (l : List Nat) : (s.logRec u c v p x l).now = s.now := by unfold State.logRec; dsimp only; split <;> simp
@[simp] theorem State.logRec_freeCtr (u c v p x : Nat) (l : List Nat) : (s.logRec u c v p x l).freeCtr = s.freeCtr := by unfold State.logRec; dsimp only; split <;> simp
@[simp] theorem State.logRec_csr (u c v p x : Nat) (l : List Nat) : (s.logRec u c v p x l).csr = s.csr := by unfold State.logRec; dsimp only; split <;> simp
@[simp] theorem State.logRec_mem (u c v p x : Nat) (l : List Nat) : (s.logRec u c v p x l).mem = s.mem := by unfold State.logRec; dsimp only; split <;> simp
@[simp] theorem State.logRec_half (u c v p x : Nat) (l : List Nat) : (s.logRec u c v p x l).half = s.half := by unfold State.logRec; dsimp only; split <;> simp
@[simp] theorem State.logRec_epoch (u c v p x : Nat) (l : List Nat) : (s.logRec u c v p x l).epoch = s.epoch := by unfold State.logRec; dsimp only; split <;> simp
@[simp] theorem State.logRec_castleIrq (u c v p x : Nat) (l : List Nat) : (s.logRec u c v p x l).castleIrq = s.castleIrq := by unfold State.logRec; dsimp only; split <;> simp
@[simp] theorem State.logRec_rdata (u c v p x : Nat) (l : List Nat) : (s.logRec u c v p x l).rdata = s.rdata := by unfold State.logRec; dsimp only; split <;> simp
@[simp] theorem State.logRec_time (u c v p x : Nat) (l : List Nat) : (s.logRec u c v p x l).time = s.time := by unfold State.logRec; dsimp only; split <;> simp
@[simp] theorem State.logRec_iq (u c v p x : Nat) (l : List Nat) : (s.logRec u c v p x l).iq = s.iq := by unfold State.logRec; dsimp only; split <;> simp
@[simp] theorem State.logRec_port (u c v p x : Nat) (l : List Nat) : (s.logRec u c v p x l).port = s.port := by unfold State.logRec; dsimp only; split <;> simp
@[simp] theorem State.logRec_aln (u c v p x : Nat) (l : List Nat) : (s.logRec u c v p x l).aln = s.aln := by unfold State.logRec; dsimp only; split <;> simp
@[simp] theorem State.logRec_vox (u c v p x : Nat) (l : List Nat) : (s.logRec u c v p x l).vox = s.vox := by unfold State.logRec; dsimp only; split <;> simp
@[simp] theorem State.logRec_sq (u c v p x : Nat) (l : List Nat) : (s.logRec u c v p x l).sq = s.sq := by unfold State.logRec; dsimp only; split <;> simp
@[simp] theorem State.logRec_fab (u c v p x : Nat) (l : List Nat) : (s.logRec u c v p x l).fab = s.fab := by unfold State.logRec; dsimp only; split <;> simp
@[simp] theorem State.logRec_net (u c v p x : Nat) (l : List Nat) : (s.logRec u c v p x l).net = s.net := by unfold State.logRec; dsimp only; split <;> simp
@[simp] theorem State.logRec_unitSt (u c v p x : Nat) (l : List Nat) : (s.logRec u c v p x l).unitSt = s.unitSt := by unfold State.logRec; dsimp only; split <;> simp
@[simp] theorem State.logRec_pl (u c v p x : Nat) (l : List Nat) : (s.logRec u c v p x l).pl = s.pl := by unfold State.logRec; dsimp only; split <;> simp
@[simp] theorem State.logRec_ae (u c v p x : Nat) (l : List Nat) : (s.logRec u c v p x l).ae = s.ae := by unfold State.logRec; dsimp only; split <;> simp
@[simp] theorem State.logRec_kv (u c v p x : Nat) (l : List Nat) : (s.logRec u c v p x l).kv = s.kv := by unfold State.logRec; dsimp only; split <;> simp
@[simp] theorem State.logRec_mc (u c v p x : Nat) (l : List Nat) : (s.logRec u c v p x l).mc = s.mc := by unfold State.logRec; dsimp only; split <;> simp
@[simp] theorem State.logRec_rekey (u c v p x : Nat) (l : List Nat) : (s.logRec u c v p x l).rekey = s.rekey := by unfold State.logRec; dsimp only; split <;> simp
@[simp] theorem State.logRec_cc (u c v p x : Nat) (l : List Nat) : (s.logRec u c v p x l).cc = s.cc := by unfold State.logRec; dsimp only; split <;> simp
@[simp] theorem State.logRec_rfx (u c v p x : Nat) (l : List Nat) : (s.logRec u c v p x l).rfx = s.rfx := by unfold State.logRec; dsimp only; split <;> simp
@[simp] theorem State.logRec_dyn (u c v p x : Nat) (l : List Nat) : (s.logRec u c v p x l).dyn = s.dyn := by unfold State.logRec; dsimp only; split <;> simp
@[simp] theorem State.logRec_mbx (u c v p x : Nat) (l : List Nat) : (s.logRec u c v p x l).mbx = s.mbx := by unfold State.logRec; dsimp only; split <;> simp
@[simp] theorem State.logRec_sched (u c v p x : Nat) (l : List Nat) : (s.logRec u c v p x l).sched = s.sched := by unfold State.logRec; dsimp only; split <;> simp
@[simp] theorem State.logRec_img (u c v p x : Nat) (l : List Nat) : (s.logRec u c v p x l).img = s.img := by unfold State.logRec; dsimp only; split <;> simp
@[simp] theorem State.logRec_castle (u c v p x : Nat) (l : List Nat) : (s.logRec u c v p x l).castle = s.castle := by unfold State.logRec; dsimp only; split <;> simp
@[simp] theorem State.logRec_poison (u c v p x : Nat) (l : List Nat) : (s.logRec u c v p x l).poison = s.poison := by unfold State.logRec; dsimp only; split <;> simp
@[simp] theorem State.logRec_badWords (u c v p x : Nat) (l : List Nat) : (s.logRec u c v p x l).badWords = s.badWords := by unfold State.logRec; dsimp only; split <;> simp
@[simp] theorem State.logRec_acc (u c v p x : Nat) (l : List Nat) : (s.logRec u c v p x l).acc = s.acc := by unfold State.logRec; dsimp only; split <;> simp
@[simp] theorem State.logRec_cores (u c v p x : Nat) (l : List Nat) : (s.logRec u c v p x l).cores = s.cores := by unfold State.logRec; dsimp only; split <;> simp
@[simp] theorem State.logRec_pcie (u c v p x : Nat) (l : List Nat) : (s.logRec u c v p x l).pcie = s.pcie := by unfold State.logRec; dsimp only; split <;> simp
@[simp] theorem State.logRec_link (u c v p x : Nat) (l : List Nat) : (s.logRec u c v p x l).link = s.link := by unfold State.logRec; dsimp only; split <;> simp
@[simp] theorem State.logRec_pwr (u c v p x : Nat) (l : List Nat) : (s.logRec u c v p x l).pwr = s.pwr := by unfold State.logRec; dsimp only; split <;> simp
@[simp] theorem State.logRec_loops (u c v p x : Nat) (l : List Nat) : (s.logRec u c v p x l).loops = s.loops := by unfold State.logRec; dsimp only; split <;> simp
@[simp] theorem State.logRec_clk (u c v p x : Nat) (l : List Nat) : (s.logRec u c v p x l).clk = s.clk := by unfold State.logRec; dsimp only; split <;> simp
@[simp] theorem State.logRec_boot (u c v p x : Nat) (l : List Nat) : (s.logRec u c v p x l).boot = s.boot := by unfold State.logRec; dsimp only; split <;> simp
@[simp] theorem State.logRec_reg (u c v p x : Nat) (l : List Nat) (r0 : Nat) : (s.logRec u c v p x l).reg r0 = s.reg r0 := by simp only [State.reg, State.logRec_csr]
@[simp] theorem State.logRec_rd (u c v p x : Nat) (l : List Nat) (g : Fld) : (s.logRec u c v p x l).rd g = s.rd g := by simp only [State.rd, State.logRec_reg]
@[simp] theorem State.logRec_byte (u c v p x : Nat) (l : List Nat) (r0 : Nat) : (s.logRec u c v p x l).byte r0 = s.byte r0 := by simp only [State.byte, State.blank, State.logRec_mem, State.logRec_rekey]

/-! ### event -/

@[simp] theorem State.event_pending (u c x : Nat) (l : List Nat) : (s.event u c x l).pending = s.pending := by simp [State.event]
@[simp] theorem State.event_now (u c x : Nat) (l : List Nat) : (s.event u c x l).now = s.now := by simp [State.event]
@[simp] theorem State.event_freeCtr (u c x : Nat) (l : List Nat) : (s.event u c x l).freeCtr = s.freeCtr := by simp [State.event]
@[simp] theorem State.event_csr (u c x : Nat) (l : List Nat) : (s.event u c x l).csr = s.csr := by simp [State.event]
@[simp] theorem State.event_mem (u c x : Nat) (l : List Nat) : (s.event u c x l).mem = s.mem := by simp [State.event]
@[simp] theorem State.event_half (u c x : Nat) (l : List Nat) : (s.event u c x l).half = s.half := by simp [State.event]
@[simp] theorem State.event_epoch (u c x : Nat) (l : List Nat) : (s.event u c x l).epoch = s.epoch := by simp [State.event]
@[simp] theorem State.event_castleIrq (u c x : Nat) (l : List Nat) : (s.event u c x l).castleIrq = s.castleIrq := by simp [State.event]
@[simp] theorem State.event_rdata (u c x : Nat) (l : List Nat) : (s.event u c x l).rdata = s.rdata := by simp [State.event]
@[simp] theorem State.event_time (u c x : Nat) (l : List Nat) : (s.event u c x l).time = s.time := by simp [State.event]
@[simp] theorem State.event_iq (u c x : Nat) (l : List Nat) : (s.event u c x l).iq = s.iq := by simp [State.event]
@[simp] theorem State.event_port (u c x : Nat) (l : List Nat) : (s.event u c x l).port = s.port := by simp [State.event]
@[simp] theorem State.event_aln (u c x : Nat) (l : List Nat) : (s.event u c x l).aln = s.aln := by simp [State.event]
@[simp] theorem State.event_vox (u c x : Nat) (l : List Nat) : (s.event u c x l).vox = s.vox := by simp [State.event]
@[simp] theorem State.event_sq (u c x : Nat) (l : List Nat) : (s.event u c x l).sq = s.sq := by simp [State.event]
@[simp] theorem State.event_fab (u c x : Nat) (l : List Nat) : (s.event u c x l).fab = s.fab := by simp [State.event]
@[simp] theorem State.event_net (u c x : Nat) (l : List Nat) : (s.event u c x l).net = s.net := by simp [State.event]
@[simp] theorem State.event_unitSt (u c x : Nat) (l : List Nat) : (s.event u c x l).unitSt = s.unitSt := by simp [State.event]
@[simp] theorem State.event_pl (u c x : Nat) (l : List Nat) : (s.event u c x l).pl = s.pl := by simp [State.event]
@[simp] theorem State.event_ae (u c x : Nat) (l : List Nat) : (s.event u c x l).ae = s.ae := by simp [State.event]
@[simp] theorem State.event_kv (u c x : Nat) (l : List Nat) : (s.event u c x l).kv = s.kv := by simp [State.event]
@[simp] theorem State.event_mc (u c x : Nat) (l : List Nat) : (s.event u c x l).mc = s.mc := by simp [State.event]
@[simp] theorem State.event_rekey (u c x : Nat) (l : List Nat) : (s.event u c x l).rekey = s.rekey := by simp [State.event]
@[simp] theorem State.event_cc (u c x : Nat) (l : List Nat) : (s.event u c x l).cc = s.cc := by simp [State.event]
@[simp] theorem State.event_rfx (u c x : Nat) (l : List Nat) : (s.event u c x l).rfx = s.rfx := by simp [State.event]
@[simp] theorem State.event_dyn (u c x : Nat) (l : List Nat) : (s.event u c x l).dyn = s.dyn := by simp [State.event]
@[simp] theorem State.event_mbx (u c x : Nat) (l : List Nat) : (s.event u c x l).mbx = s.mbx := by simp [State.event]
@[simp] theorem State.event_sched (u c x : Nat) (l : List Nat) : (s.event u c x l).sched = s.sched := by simp [State.event]
@[simp] theorem State.event_img (u c x : Nat) (l : List Nat) : (s.event u c x l).img = s.img := by simp [State.event]
@[simp] theorem State.event_castle (u c x : Nat) (l : List Nat) : (s.event u c x l).castle = s.castle := by simp [State.event]
@[simp] theorem State.event_poison (u c x : Nat) (l : List Nat) : (s.event u c x l).poison = s.poison := by simp [State.event]
@[simp] theorem State.event_badWords (u c x : Nat) (l : List Nat) : (s.event u c x l).badWords = s.badWords := by simp [State.event]
@[simp] theorem State.event_acc (u c x : Nat) (l : List Nat) : (s.event u c x l).acc = s.acc := by simp [State.event]
@[simp] theorem State.event_cores (u c x : Nat) (l : List Nat) : (s.event u c x l).cores = s.cores := by simp [State.event]
@[simp] theorem State.event_pcie (u c x : Nat) (l : List Nat) : (s.event u c x l).pcie = s.pcie := by simp [State.event]
@[simp] theorem State.event_link (u c x : Nat) (l : List Nat) : (s.event u c x l).link = s.link := by simp [State.event]
@[simp] theorem State.event_pwr (u c x : Nat) (l : List Nat) : (s.event u c x l).pwr = s.pwr := by simp [State.event]
@[simp] theorem State.event_loops (u c x : Nat) (l : List Nat) : (s.event u c x l).loops = s.loops := by simp [State.event]
@[simp] theorem State.event_clk (u c x : Nat) (l : List Nat) : (s.event u c x l).clk = s.clk := by simp [State.event]
@[simp] theorem State.event_boot (u c x : Nat) (l : List Nat) : (s.event u c x l).boot = s.boot := by simp [State.event]
@[simp] theorem State.event_reg (u c x : Nat) (l : List Nat) (r0 : Nat) : (s.event u c x l).reg r0 = s.reg r0 := by simp only [State.reg, State.event_csr]
@[simp] theorem State.event_rd (u c x : Nat) (l : List Nat) (g : Fld) : (s.event u c x l).rd g = s.rd g := by simp only [State.rd, State.event_reg]
@[simp] theorem State.event_byte (u c x : Nat) (l : List Nat) (r0 : Nat) : (s.event u c x l).byte r0 = s.byte r0 := by simp only [State.byte, State.blank, State.event_mem, State.event_rekey]

/-! ### post -/

@[simp] theorem State.post_pending (x d c o i : Nat) (l : List Byte) : (s.post x d c o i l).pending = s.pending := by unfold State.post; dsimp only; split <;> simp
@[simp] theorem State.post_now (x d c o i : Nat) (l : List Byte) : (s.post x d c o i l).now = s.now := by unfold State.post; dsimp only; split <;> simp
@[simp] theorem State.post_freeCtr (x d c o i : Nat) (l : List Byte) : (s.post x d c o i l).freeCtr = s.freeCtr := by unfold State.post; dsimp only; split <;> simp
@[simp] theorem State.post_csr (x d c o i : Nat) (l : List Byte) : (s.post x d c o i l).csr = s.csr := by unfold State.post; dsimp only; split <;> simp
@[simp] theorem State.post_mem (x d c o i : Nat) (l : List Byte) : (s.post x d c o i l).mem = s.mem := by unfold State.post; dsimp only; split <;> simp
@[simp] theorem State.post_half (x d c o i : Nat) (l : List Byte) : (s.post x d c o i l).half = s.half := by unfold State.post; dsimp only; split <;> simp
@[simp] theorem State.post_epoch (x d c o i : Nat) (l : List Byte) : (s.post x d c o i l).epoch = s.epoch := by unfold State.post; dsimp only; split <;> simp
@[simp] theorem State.post_castleIrq (x d c o i : Nat) (l : List Byte) : (s.post x d c o i l).castleIrq = s.castleIrq := by unfold State.post; dsimp only; split <;> simp
@[simp] theorem State.post_rdata (x d c o i : Nat) (l : List Byte) : (s.post x d c o i l).rdata = s.rdata := by unfold State.post; dsimp only; split <;> simp
@[simp] theorem State.post_time (x d c o i : Nat) (l : List Byte) : (s.post x d c o i l).time = s.time := by unfold State.post; dsimp only; split <;> simp
@[simp] theorem State.post_iq (x d c o i : Nat) (l : List Byte) : (s.post x d c o i l).iq = s.iq := by unfold State.post; dsimp only; split <;> simp
@[simp] theorem State.post_port (x d c o i : Nat) (l : List Byte) : (s.post x d c o i l).port = s.port := by unfold State.post; dsimp only; split <;> simp
@[simp] theorem State.post_aln (x d c o i : Nat) (l : List Byte) : (s.post x d c o i l).aln = s.aln := by unfold State.post; dsimp only; split <;> simp
@[simp] theorem State.post_vox (x d c o i : Nat) (l : List Byte) : (s.post x d c o i l).vox = s.vox := by unfold State.post; dsimp only; split <;> simp
@[simp] theorem State.post_sq (x d c o i : Nat) (l : List Byte) : (s.post x d c o i l).sq = s.sq := by unfold State.post; dsimp only; split <;> simp
@[simp] theorem State.post_fab (x d c o i : Nat) (l : List Byte) : (s.post x d c o i l).fab = s.fab := by unfold State.post; dsimp only; split <;> simp
@[simp] theorem State.post_unitSt (x d c o i : Nat) (l : List Byte) : (s.post x d c o i l).unitSt = s.unitSt := by unfold State.post; dsimp only; split <;> simp
@[simp] theorem State.post_pl (x d c o i : Nat) (l : List Byte) : (s.post x d c o i l).pl = s.pl := by unfold State.post; dsimp only; split <;> simp
@[simp] theorem State.post_ae (x d c o i : Nat) (l : List Byte) : (s.post x d c o i l).ae = s.ae := by unfold State.post; dsimp only; split <;> simp
@[simp] theorem State.post_kv (x d c o i : Nat) (l : List Byte) : (s.post x d c o i l).kv = s.kv := by unfold State.post; dsimp only; split <;> simp
@[simp] theorem State.post_mc (x d c o i : Nat) (l : List Byte) : (s.post x d c o i l).mc = s.mc := by unfold State.post; dsimp only; split <;> simp
@[simp] theorem State.post_rekey (x d c o i : Nat) (l : List Byte) : (s.post x d c o i l).rekey = s.rekey := by unfold State.post; dsimp only; split <;> simp
@[simp] theorem State.post_cc (x d c o i : Nat) (l : List Byte) : (s.post x d c o i l).cc = s.cc := by unfold State.post; dsimp only; split <;> simp
@[simp] theorem State.post_rfx (x d c o i : Nat) (l : List Byte) : (s.post x d c o i l).rfx = s.rfx := by unfold State.post; dsimp only; split <;> simp
@[simp] theorem State.post_dyn (x d c o i : Nat) (l : List Byte) : (s.post x d c o i l).dyn = s.dyn := by unfold State.post; dsimp only; split <;> simp
@[simp] theorem State.post_mbx (x d c o i : Nat) (l : List Byte) : (s.post x d c o i l).mbx = s.mbx := by unfold State.post; dsimp only; split <;> simp
@[simp] theorem State.post_sched (x d c o i : Nat) (l : List Byte) : (s.post x d c o i l).sched = s.sched := by unfold State.post; dsimp only; split <;> simp
@[simp] theorem State.post_img (x d c o i : Nat) (l : List Byte) : (s.post x d c o i l).img = s.img := by unfold State.post; dsimp only; split <;> simp
@[simp] theorem State.post_castle (x d c o i : Nat) (l : List Byte) : (s.post x d c o i l).castle = s.castle := by unfold State.post; dsimp only; split <;> simp
@[simp] theorem State.post_poison (x d c o i : Nat) (l : List Byte) : (s.post x d c o i l).poison = s.poison := by unfold State.post; dsimp only; split <;> simp
@[simp] theorem State.post_badWords (x d c o i : Nat) (l : List Byte) : (s.post x d c o i l).badWords = s.badWords := by unfold State.post; dsimp only; split <;> simp
@[simp] theorem State.post_acc (x d c o i : Nat) (l : List Byte) : (s.post x d c o i l).acc = s.acc := by unfold State.post; dsimp only; split <;> simp
@[simp] theorem State.post_cores (x d c o i : Nat) (l : List Byte) : (s.post x d c o i l).cores = s.cores := by unfold State.post; dsimp only; split <;> simp
@[simp] theorem State.post_pcie (x d c o i : Nat) (l : List Byte) : (s.post x d c o i l).pcie = s.pcie := by unfold State.post; dsimp only; split <;> simp
@[simp] theorem State.post_link (x d c o i : Nat) (l : List Byte) : (s.post x d c o i l).link = s.link := by unfold State.post; dsimp only; split <;> simp
@[simp] theorem State.post_pwr (x d c o i : Nat) (l : List Byte) : (s.post x d c o i l).pwr = s.pwr := by unfold State.post; dsimp only; split <;> simp
@[simp] theorem State.post_loops (x d c o i : Nat) (l : List Byte) : (s.post x d c o i l).loops = s.loops := by unfold State.post; dsimp only; split <;> simp
@[simp] theorem State.post_clk (x d c o i : Nat) (l : List Byte) : (s.post x d c o i l).clk = s.clk := by unfold State.post; dsimp only; split <;> simp
@[simp] theorem State.post_boot (x d c o i : Nat) (l : List Byte) : (s.post x d c o i l).boot = s.boot := by unfold State.post; dsimp only; split <;> simp
@[simp] theorem State.post_reg (x d c o i : Nat) (l : List Byte) (r0 : Nat) : (s.post x d c o i l).reg r0 = s.reg r0 := by simp only [State.reg, State.post_csr]
@[simp] theorem State.post_rd (x d c o i : Nat) (l : List Byte) (g : Fld) : (s.post x d c o i l).rd g = s.rd g := by simp only [State.rd, State.post_reg]
@[simp] theorem State.post_byte (x d c o i : Nat) (l : List Byte) (r0 : Nat) : (s.post x d c o i l).byte r0 = s.byte r0 := by simp only [State.byte, State.blank, State.post_mem, State.post_rekey]

/-! ### storeBytes -/

@[simp] theorem State.storeBytes_pending (a : Nat) (l : List Byte) : (s.storeBytes a l).pending = s.pending := by
  induction l generalizing s a with
  | nil => rfl
  | cons b r ih => simp [State.storeBytes, ih]
@[simp] theorem State.storeBytes_now (a : Nat) (l : List Byte) : (s.storeBytes a l).now = s.now := by
  induction l generalizing s a with
  | nil => rfl
  | cons b r ih => simp [State.storeBytes, ih]
@[simp] theorem State.storeBytes_freeCtr (a : Nat) (l : List Byte) : (s.storeBytes a l).freeCtr = s.freeCtr := by
  induction l generalizing s a with
  | nil => rfl
  | cons b r ih => simp [State.storeBytes, ih]
@[simp] theorem State.storeBytes_csr (a : Nat) (l : List Byte) : (s.storeBytes a l).csr = s.csr := by
  induction l generalizing s a with
  | nil => rfl
  | cons b r ih => simp [State.storeBytes, ih]
@[simp] theorem State.storeBytes_log (a : Nat) (l : List Byte) : (s.storeBytes a l).log = s.log := by
  induction l generalizing s a with
  | nil => rfl
  | cons b r ih => simp [State.storeBytes, ih]
@[simp] theorem State.storeBytes_half (a : Nat) (l : List Byte) : (s.storeBytes a l).half = s.half := by
  induction l generalizing s a with
  | nil => rfl
  | cons b r ih => simp [State.storeBytes, ih]
@[simp] theorem State.storeBytes_epoch (a : Nat) (l : List Byte) : (s.storeBytes a l).epoch = s.epoch := by
  induction l generalizing s a with
  | nil => rfl
  | cons b r ih => simp [State.storeBytes, ih]
@[simp] theorem State.storeBytes_irq (a : Nat) (l : List Byte) : (s.storeBytes a l).irq = s.irq := by
  induction l generalizing s a with
  | nil => rfl
  | cons b r ih => simp [State.storeBytes, ih]
@[simp] theorem State.storeBytes_msix (a : Nat) (l : List Byte) : (s.storeBytes a l).msix = s.msix := by
  induction l generalizing s a with
  | nil => rfl
  | cons b r ih => simp [State.storeBytes, ih]
@[simp] theorem State.storeBytes_imsic (a : Nat) (l : List Byte) : (s.storeBytes a l).imsic = s.imsic := by
  induction l generalizing s a with
  | nil => rfl
  | cons b r ih => simp [State.storeBytes, ih]
@[simp] theorem State.storeBytes_castleIrq (a : Nat) (l : List Byte) : (s.storeBytes a l).castleIrq = s.castleIrq := by
  induction l generalizing s a with
  | nil => rfl
  | cons b r ih => simp [State.storeBytes, ih]
@[simp] theorem State.storeBytes_rdata (a : Nat) (l : List Byte) : (s.storeBytes a l).rdata = s.rdata := by
  induction l generalizing s a with
  | nil => rfl
  | cons b r ih => simp [State.storeBytes, ih]
@[simp] theorem State.storeBytes_time (a : Nat) (l : List Byte) : (s.storeBytes a l).time = s.time := by
  induction l generalizing s a with
  | nil => rfl
  | cons b r ih => simp [State.storeBytes, ih]
@[simp] theorem State.storeBytes_iq (a : Nat) (l : List Byte) : (s.storeBytes a l).iq = s.iq := by
  induction l generalizing s a with
  | nil => rfl
  | cons b r ih => simp [State.storeBytes, ih]
@[simp] theorem State.storeBytes_port (a : Nat) (l : List Byte) : (s.storeBytes a l).port = s.port := by
  induction l generalizing s a with
  | nil => rfl
  | cons b r ih => simp [State.storeBytes, ih]
@[simp] theorem State.storeBytes_aln (a : Nat) (l : List Byte) : (s.storeBytes a l).aln = s.aln := by
  induction l generalizing s a with
  | nil => rfl
  | cons b r ih => simp [State.storeBytes, ih]
@[simp] theorem State.storeBytes_vox (a : Nat) (l : List Byte) : (s.storeBytes a l).vox = s.vox := by
  induction l generalizing s a with
  | nil => rfl
  | cons b r ih => simp [State.storeBytes, ih]
@[simp] theorem State.storeBytes_sq (a : Nat) (l : List Byte) : (s.storeBytes a l).sq = s.sq := by
  induction l generalizing s a with
  | nil => rfl
  | cons b r ih => simp [State.storeBytes, ih]
@[simp] theorem State.storeBytes_fab (a : Nat) (l : List Byte) : (s.storeBytes a l).fab = s.fab := by
  induction l generalizing s a with
  | nil => rfl
  | cons b r ih => simp [State.storeBytes, ih]
@[simp] theorem State.storeBytes_net (a : Nat) (l : List Byte) : (s.storeBytes a l).net = s.net := by
  induction l generalizing s a with
  | nil => rfl
  | cons b r ih => simp [State.storeBytes, ih]
@[simp] theorem State.storeBytes_unitSt (a : Nat) (l : List Byte) : (s.storeBytes a l).unitSt = s.unitSt := by
  induction l generalizing s a with
  | nil => rfl
  | cons b r ih => simp [State.storeBytes, ih]
@[simp] theorem State.storeBytes_pl (a : Nat) (l : List Byte) : (s.storeBytes a l).pl = s.pl := by
  induction l generalizing s a with
  | nil => rfl
  | cons b r ih => simp [State.storeBytes, ih]
@[simp] theorem State.storeBytes_ae (a : Nat) (l : List Byte) : (s.storeBytes a l).ae = s.ae := by
  induction l generalizing s a with
  | nil => rfl
  | cons b r ih => simp [State.storeBytes, ih]
@[simp] theorem State.storeBytes_kv (a : Nat) (l : List Byte) : (s.storeBytes a l).kv = s.kv := by
  induction l generalizing s a with
  | nil => rfl
  | cons b r ih => simp [State.storeBytes, ih]
@[simp] theorem State.storeBytes_mc (a : Nat) (l : List Byte) : (s.storeBytes a l).mc = s.mc := by
  induction l generalizing s a with
  | nil => rfl
  | cons b r ih => simp [State.storeBytes, ih]
@[simp] theorem State.storeBytes_rekey (a : Nat) (l : List Byte) : (s.storeBytes a l).rekey = s.rekey := by
  induction l generalizing s a with
  | nil => rfl
  | cons b r ih => simp [State.storeBytes, ih]
@[simp] theorem State.storeBytes_cc (a : Nat) (l : List Byte) : (s.storeBytes a l).cc = s.cc := by
  induction l generalizing s a with
  | nil => rfl
  | cons b r ih => simp [State.storeBytes, ih]
@[simp] theorem State.storeBytes_rfx (a : Nat) (l : List Byte) : (s.storeBytes a l).rfx = s.rfx := by
  induction l generalizing s a with
  | nil => rfl
  | cons b r ih => simp [State.storeBytes, ih]
@[simp] theorem State.storeBytes_dyn (a : Nat) (l : List Byte) : (s.storeBytes a l).dyn = s.dyn := by
  induction l generalizing s a with
  | nil => rfl
  | cons b r ih => simp [State.storeBytes, ih]
@[simp] theorem State.storeBytes_mbx (a : Nat) (l : List Byte) : (s.storeBytes a l).mbx = s.mbx := by
  induction l generalizing s a with
  | nil => rfl
  | cons b r ih => simp [State.storeBytes, ih]
@[simp] theorem State.storeBytes_sched (a : Nat) (l : List Byte) : (s.storeBytes a l).sched = s.sched := by
  induction l generalizing s a with
  | nil => rfl
  | cons b r ih => simp [State.storeBytes, ih]
@[simp] theorem State.storeBytes_img (a : Nat) (l : List Byte) : (s.storeBytes a l).img = s.img := by
  induction l generalizing s a with
  | nil => rfl
  | cons b r ih => simp [State.storeBytes, ih]
@[simp] theorem State.storeBytes_castle (a : Nat) (l : List Byte) : (s.storeBytes a l).castle = s.castle := by
  induction l generalizing s a with
  | nil => rfl
  | cons b r ih => simp [State.storeBytes, ih]
@[simp] theorem State.storeBytes_poison (a : Nat) (l : List Byte) : (s.storeBytes a l).poison = s.poison := by
  induction l generalizing s a with
  | nil => rfl
  | cons b r ih => simp [State.storeBytes, ih]
@[simp] theorem State.storeBytes_badWords (a : Nat) (l : List Byte) : (s.storeBytes a l).badWords = s.badWords := by
  induction l generalizing s a with
  | nil => rfl
  | cons b r ih => simp [State.storeBytes, ih]
@[simp] theorem State.storeBytes_acc (a : Nat) (l : List Byte) : (s.storeBytes a l).acc = s.acc := by
  induction l generalizing s a with
  | nil => rfl
  | cons b r ih => simp [State.storeBytes, ih]
@[simp] theorem State.storeBytes_cores (a : Nat) (l : List Byte) : (s.storeBytes a l).cores = s.cores := by
  induction l generalizing s a with
  | nil => rfl
  | cons b r ih => simp [State.storeBytes, ih]
@[simp] theorem State.storeBytes_pcie (a : Nat) (l : List Byte) : (s.storeBytes a l).pcie = s.pcie := by
  induction l generalizing s a with
  | nil => rfl
  | cons b r ih => simp [State.storeBytes, ih]
@[simp] theorem State.storeBytes_link (a : Nat) (l : List Byte) : (s.storeBytes a l).link = s.link := by
  induction l generalizing s a with
  | nil => rfl
  | cons b r ih => simp [State.storeBytes, ih]
@[simp] theorem State.storeBytes_pwr (a : Nat) (l : List Byte) : (s.storeBytes a l).pwr = s.pwr := by
  induction l generalizing s a with
  | nil => rfl
  | cons b r ih => simp [State.storeBytes, ih]
@[simp] theorem State.storeBytes_loops (a : Nat) (l : List Byte) : (s.storeBytes a l).loops = s.loops := by
  induction l generalizing s a with
  | nil => rfl
  | cons b r ih => simp [State.storeBytes, ih]
@[simp] theorem State.storeBytes_clk (a : Nat) (l : List Byte) : (s.storeBytes a l).clk = s.clk := by
  induction l generalizing s a with
  | nil => rfl
  | cons b r ih => simp [State.storeBytes, ih]
@[simp] theorem State.storeBytes_boot (a : Nat) (l : List Byte) : (s.storeBytes a l).boot = s.boot := by
  induction l generalizing s a with
  | nil => rfl
  | cons b r ih => simp [State.storeBytes, ih]
@[simp] theorem State.storeBytes_reg (a : Nat) (l : List Byte) (r0 : Nat) : (s.storeBytes a l).reg r0 = s.reg r0 := by simp only [State.reg, State.storeBytes_csr]
@[simp] theorem State.storeBytes_rd (a : Nat) (l : List Byte) (g : Fld) : (s.storeBytes a l).rd g = s.rd g := by simp only [State.rd, State.storeBytes_reg]

/-! ### store -/

@[simp] theorem State.store_pending (a : Nat) (l : List Byte) : (s.store a l).pending = s.pending := by simp [State.store]
@[simp] theorem State.store_now (a : Nat) (l : List Byte) : (s.store a l).now = s.now := by simp [State.store]
@[simp] theorem State.store_freeCtr (a : Nat) (l : List Byte) : (s.store a l).freeCtr = s.freeCtr := by simp [State.store]
@[simp] theorem State.store_csr (a : Nat) (l : List Byte) : (s.store a l).csr = s.csr := by simp [State.store]
@[simp] theorem State.store_log (a : Nat) (l : List Byte) : (s.store a l).log = s.log := by simp [State.store]
@[simp] theorem State.store_half (a : Nat) (l : List Byte) : (s.store a l).half = s.half := by simp [State.store]
@[simp] theorem State.store_epoch (a : Nat) (l : List Byte) : (s.store a l).epoch = s.epoch := by simp [State.store]
@[simp] theorem State.store_irq (a : Nat) (l : List Byte) : (s.store a l).irq = s.irq := by simp [State.store]
@[simp] theorem State.store_msix (a : Nat) (l : List Byte) : (s.store a l).msix = s.msix := by simp [State.store]
@[simp] theorem State.store_imsic (a : Nat) (l : List Byte) : (s.store a l).imsic = s.imsic := by simp [State.store]
@[simp] theorem State.store_castleIrq (a : Nat) (l : List Byte) : (s.store a l).castleIrq = s.castleIrq := by simp [State.store]
@[simp] theorem State.store_rdata (a : Nat) (l : List Byte) : (s.store a l).rdata = s.rdata := by simp [State.store]
@[simp] theorem State.store_time (a : Nat) (l : List Byte) : (s.store a l).time = s.time := by simp [State.store]
@[simp] theorem State.store_iq (a : Nat) (l : List Byte) : (s.store a l).iq = s.iq := by simp [State.store]
@[simp] theorem State.store_port (a : Nat) (l : List Byte) : (s.store a l).port = s.port := by simp [State.store]
@[simp] theorem State.store_aln (a : Nat) (l : List Byte) : (s.store a l).aln = s.aln := by simp [State.store]
@[simp] theorem State.store_vox (a : Nat) (l : List Byte) : (s.store a l).vox = s.vox := by simp [State.store]
@[simp] theorem State.store_sq (a : Nat) (l : List Byte) : (s.store a l).sq = s.sq := by simp [State.store]
@[simp] theorem State.store_fab (a : Nat) (l : List Byte) : (s.store a l).fab = s.fab := by simp [State.store]
@[simp] theorem State.store_net (a : Nat) (l : List Byte) : (s.store a l).net = s.net := by simp [State.store]
@[simp] theorem State.store_unitSt (a : Nat) (l : List Byte) : (s.store a l).unitSt = s.unitSt := by simp [State.store]
@[simp] theorem State.store_pl (a : Nat) (l : List Byte) : (s.store a l).pl = s.pl := by simp [State.store]
@[simp] theorem State.store_ae (a : Nat) (l : List Byte) : (s.store a l).ae = s.ae := by simp [State.store]
@[simp] theorem State.store_kv (a : Nat) (l : List Byte) : (s.store a l).kv = s.kv := by simp [State.store]
@[simp] theorem State.store_mc (a : Nat) (l : List Byte) : (s.store a l).mc = s.mc := by simp [State.store]
@[simp] theorem State.store_rekey (a : Nat) (l : List Byte) : (s.store a l).rekey = s.rekey := by simp [State.store]
@[simp] theorem State.store_cc (a : Nat) (l : List Byte) : (s.store a l).cc = s.cc := by simp [State.store]
@[simp] theorem State.store_rfx (a : Nat) (l : List Byte) : (s.store a l).rfx = s.rfx := by simp [State.store]
@[simp] theorem State.store_dyn (a : Nat) (l : List Byte) : (s.store a l).dyn = s.dyn := by simp [State.store]
@[simp] theorem State.store_mbx (a : Nat) (l : List Byte) : (s.store a l).mbx = s.mbx := by simp [State.store]
@[simp] theorem State.store_sched (a : Nat) (l : List Byte) : (s.store a l).sched = s.sched := by simp [State.store]
@[simp] theorem State.store_img (a : Nat) (l : List Byte) : (s.store a l).img = s.img := by simp [State.store]
@[simp] theorem State.store_castle (a : Nat) (l : List Byte) : (s.store a l).castle = s.castle := by simp [State.store]
@[simp] theorem State.store_acc (a : Nat) (l : List Byte) : (s.store a l).acc = s.acc := by simp [State.store]
@[simp] theorem State.store_cores (a : Nat) (l : List Byte) : (s.store a l).cores = s.cores := by simp [State.store]
@[simp] theorem State.store_pcie (a : Nat) (l : List Byte) : (s.store a l).pcie = s.pcie := by simp [State.store]
@[simp] theorem State.store_link (a : Nat) (l : List Byte) : (s.store a l).link = s.link := by simp [State.store]
@[simp] theorem State.store_pwr (a : Nat) (l : List Byte) : (s.store a l).pwr = s.pwr := by simp [State.store]
@[simp] theorem State.store_loops (a : Nat) (l : List Byte) : (s.store a l).loops = s.loops := by simp [State.store]
@[simp] theorem State.store_clk (a : Nat) (l : List Byte) : (s.store a l).clk = s.clk := by simp [State.store]
@[simp] theorem State.store_boot (a : Nat) (l : List Byte) : (s.store a l).boot = s.boot := by simp [State.store]
@[simp] theorem State.store_reg (a : Nat) (l : List Byte) (r0 : Nat) : (s.store a l).reg r0 = s.reg r0 := by simp only [State.reg, State.store_csr]
@[simp] theorem State.store_rd (a : Nat) (l : List Byte) (g : Fld) : (s.store a l).rd g = s.rd g := by simp only [State.rd, State.store_reg]

/-! ### st -/

@[simp] theorem State.st_pending (a n v : Nat) : (s.st a n v).pending = s.pending := by simp [State.st]
@[simp] theorem State.st_now (a n v : Nat) : (s.st a n v).now = s.now := by simp [State.st]
@[simp] theorem State.st_freeCtr (a n v : Nat) : (s.st a n v).freeCtr = s.freeCtr := by simp [State.st]
@[simp] theorem State.st_csr (a n v : Nat) : (s.st a n v).csr = s.csr := by simp [State.st]
@[simp] theorem State.st_log (a n v : Nat) : (s.st a n v).log = s.log := by simp [State.st]
@[simp] theorem State.st_half (a n v : Nat) : (s.st a n v).half = s.half := by simp [State.st]
@[simp] theorem State.st_epoch (a n v : Nat) : (s.st a n v).epoch = s.epoch := by simp [State.st]
@[simp] theorem State.st_irq (a n v : Nat) : (s.st a n v).irq = s.irq := by simp [State.st]
@[simp] theorem State.st_msix (a n v : Nat) : (s.st a n v).msix = s.msix := by simp [State.st]
@[simp] theorem State.st_imsic (a n v : Nat) : (s.st a n v).imsic = s.imsic := by simp [State.st]
@[simp] theorem State.st_castleIrq (a n v : Nat) : (s.st a n v).castleIrq = s.castleIrq := by simp [State.st]
@[simp] theorem State.st_rdata (a n v : Nat) : (s.st a n v).rdata = s.rdata := by simp [State.st]
@[simp] theorem State.st_time (a n v : Nat) : (s.st a n v).time = s.time := by simp [State.st]
@[simp] theorem State.st_iq (a n v : Nat) : (s.st a n v).iq = s.iq := by simp [State.st]
@[simp] theorem State.st_port (a n v : Nat) : (s.st a n v).port = s.port := by simp [State.st]
@[simp] theorem State.st_aln (a n v : Nat) : (s.st a n v).aln = s.aln := by simp [State.st]
@[simp] theorem State.st_vox (a n v : Nat) : (s.st a n v).vox = s.vox := by simp [State.st]
@[simp] theorem State.st_sq (a n v : Nat) : (s.st a n v).sq = s.sq := by simp [State.st]
@[simp] theorem State.st_fab (a n v : Nat) : (s.st a n v).fab = s.fab := by simp [State.st]
@[simp] theorem State.st_net (a n v : Nat) : (s.st a n v).net = s.net := by simp [State.st]
@[simp] theorem State.st_unitSt (a n v : Nat) : (s.st a n v).unitSt = s.unitSt := by simp [State.st]
@[simp] theorem State.st_pl (a n v : Nat) : (s.st a n v).pl = s.pl := by simp [State.st]
@[simp] theorem State.st_ae (a n v : Nat) : (s.st a n v).ae = s.ae := by simp [State.st]
@[simp] theorem State.st_kv (a n v : Nat) : (s.st a n v).kv = s.kv := by simp [State.st]
@[simp] theorem State.st_mc (a n v : Nat) : (s.st a n v).mc = s.mc := by simp [State.st]
@[simp] theorem State.st_rekey (a n v : Nat) : (s.st a n v).rekey = s.rekey := by simp [State.st]
@[simp] theorem State.st_cc (a n v : Nat) : (s.st a n v).cc = s.cc := by simp [State.st]
@[simp] theorem State.st_rfx (a n v : Nat) : (s.st a n v).rfx = s.rfx := by simp [State.st]
@[simp] theorem State.st_dyn (a n v : Nat) : (s.st a n v).dyn = s.dyn := by simp [State.st]
@[simp] theorem State.st_mbx (a n v : Nat) : (s.st a n v).mbx = s.mbx := by simp [State.st]
@[simp] theorem State.st_sched (a n v : Nat) : (s.st a n v).sched = s.sched := by simp [State.st]
@[simp] theorem State.st_img (a n v : Nat) : (s.st a n v).img = s.img := by simp [State.st]
@[simp] theorem State.st_castle (a n v : Nat) : (s.st a n v).castle = s.castle := by simp [State.st]
@[simp] theorem State.st_acc (a n v : Nat) : (s.st a n v).acc = s.acc := by simp [State.st]
@[simp] theorem State.st_cores (a n v : Nat) : (s.st a n v).cores = s.cores := by simp [State.st]
@[simp] theorem State.st_pcie (a n v : Nat) : (s.st a n v).pcie = s.pcie := by simp [State.st]
@[simp] theorem State.st_link (a n v : Nat) : (s.st a n v).link = s.link := by simp [State.st]
@[simp] theorem State.st_pwr (a n v : Nat) : (s.st a n v).pwr = s.pwr := by simp [State.st]
@[simp] theorem State.st_loops (a n v : Nat) : (s.st a n v).loops = s.loops := by simp [State.st]
@[simp] theorem State.st_clk (a n v : Nat) : (s.st a n v).clk = s.clk := by simp [State.st]
@[simp] theorem State.st_boot (a n v : Nat) : (s.st a n v).boot = s.boot := by simp [State.st]
@[simp] theorem State.st_reg (a n v : Nat) (r0 : Nat) : (s.st a n v).reg r0 = s.reg r0 := by simp only [State.reg, State.st_csr]
@[simp] theorem State.st_rd (a n v : Nat) (g : Fld) : (s.st a n v).rd g = s.rd g := by simp only [State.rd, State.st_reg]

end Sys2Proof.Machine
end

