-- ==== Sys2Proof/Laws/Memory.lean ====
section
/-!
SUPPORT. Memory: a byte reads what was stored last, a store leaves every byte outside it, and every operation that changes memory
keeps its canonical form.
-/

namespace Sys2Proof.Machine

variable (s : State)

/-! ### What a byte reads -/

@[simp] theorem State.setByte_blank (a : Nat) (b : Byte) (k : Nat) : (s.setByte a b).blank k = s.blank k := by
  simp only [State.blank, State.setByte_rekey]

@[simp] theorem State.setByte_byte_self (a : Nat) (b : Byte) : (s.setByte a b).byte a = b := by
  rw [State.byte, State.setByte_blank]; exact mget_mset_self _ _ _ _

theorem State.setByte_byte_ne {a k : Nat} (b : Byte) (h : a ≠ k) : (s.setByte a b).byte k = s.byte k := by
  rw [State.byte, State.setByte_blank]; exact mget_mset_ne _ _ _ _ h

/-- Storing bytes leaves every byte outside them. -/
theorem State.storeBytes_byte_out (a : Nat) (l : List Byte) (k : Nat) (h : k < a ∨ a + l.length ≤ k) :
    (s.storeBytes a l).byte k = s.byte k := by
  induction l generalizing s a with
  | nil => rfl
  | cons b r ih =>
    simp only [List.length_cons] at h
    rw [State.storeBytes, ih _ _ (by omega), s.setByte_byte_ne _ (by omega)]

/-- A stored byte reads as stored. -/
theorem State.storeBytes_byte_in (a : Nat) (l : List Byte) (i : Nat) (h : i < l.length) :
    (s.storeBytes a l).byte (a + i) = l[i] := by
  induction l generalizing s a i with
  | nil => simp at h
  | cons b r ih =>
    rw [State.storeBytes]
    rcases i with _ | i
    · rw [State.storeBytes_byte_out _ _ _ _ (by omega)]; simp
    · have := ih (s.setByte a b) (a + 1) i (by simpa using h)
      rw [show a + (i + 1) = a + 1 + i by omega, this]; rfl

/-- A store leaves every byte outside it. -/
theorem State.store_byte_out (a : Nat) (l : List Byte) (k : Nat) (h : k < a ∨ a + l.length ≤ k) :
    (s.store a l).byte k = s.byte k := by
  rw [State.store, State.cleanLines_byte, s.storeBytes_byte_out a l k h]

/-- A stored byte reads as stored. -/
theorem State.store_byte_in (a : Nat) (l : List Byte) (i : Nat) (h : i < l.length) : (s.store a l).byte (a + i) = l[i] := by
  rw [State.store, State.cleanLines_byte, s.storeBytes_byte_in a l i h]

/-- Bytes read are the bytes one by one. -/
theorem State.bytes_congr {t : State} (a n : Nat) (h : ∀ k, a ≤ k → k < a + n → s.byte k = t.byte k) : s.bytes a n = t.bytes a n := by
  induction n generalizing a with
  | zero => rfl
  | succ n ih =>
    rw [State.bytes, State.bytes, h a (by omega) (by omega), ih (a + 1) (fun k h1 h2 => h k (by omega) (by omega))]

/-- A range read back is the range stored. -/
theorem State.bytes_store (a : Nat) (l : List Byte) : (s.store a l).bytes a l.length = l := by
  have key : ∀ (l : List Byte) (t : State) (a : Nat), (∀ i (h : i < l.length), t.byte (a + i) = l[i]) → t.bytes a l.length = l := by
    intro l
    induction l with
    | nil => intros; rfl
    | cons b r ih =>
      intro t a h
      rw [List.length_cons, State.bytes, ih t (a + 1)]
      · have := h 0 (by simp); simp at this; rw [this]
      · intro i hi
        have := h (i + 1) (by simpa using hi)
        rw [show a + 1 + i = a + (i + 1) by omega, this]; rfl
  exact key l _ a (fun i h => s.store_byte_in a l i h)

/-- A range read is as before where a store does not touch it. -/
theorem State.bytes_store_out (a : Nat) (l : List Byte) (k n : Nat) (h : k + n ≤ a ∨ a + l.length ≤ k) :
    (s.store a l).bytes k n = s.bytes k n :=
  State.bytes_congr _ k n (fun j h1 h2 => s.store_byte_out a l j (by omega))

/-! ### The canonical form -/

theorem memOk_reset : State.reset.MemOk := by decide

/-- The form depends on memory and on the ranges whose key was renewed, on nothing else. -/
theorem State.MemOk.of_eq {s t : State} (h : s.MemOk) (hm : t.mem = s.mem) (hr : t.rekey = s.rekey) : t.MemOk := by
  have hb : t.blank = s.blank := by funext k; simp only [State.blank, hr]
  simpa only [State.MemOk, hm, hb] using h

theorem State.MemOk.setByte {s : State} (h : s.MemOk) (a : Nat) (b : Byte) : (s.setByte a b).MemOk := by
  have hb : (s.setByte a b).blank = s.blank := by funext k; exact s.setByte_blank a b k
  rw [State.MemOk, hb]
  exact mwf_mset s.blank s.mem a b h

theorem State.MemOk.storeBytes {s : State} (h : s.MemOk) (a : Nat) (l : List Byte) : (s.storeBytes a l).MemOk := by
  induction l generalizing s a with
  | nil => exact h
  | cons b r ih => exact ih (h.setByte a b) (a + 1)

theorem State.MemOk.cleanLines {s : State} (h : s.MemOk) (a n : Nat) : (s.cleanLines a n).MemOk :=
  h.of_eq (s.cleanLines_mem a n) (s.cleanLines_rekey a n)

theorem State.MemOk.store {s : State} (h : s.MemOk) (a : Nat) (l : List Byte) : (s.store a l).MemOk :=
  (h.storeBytes a l).cleanLines a l.length

theorem State.MemOk.st {s : State} (h : s.MemOk) (a n v : Nat) : (s.st a n v).MemOk := h.store a _

theorem State.MemOk.zeroRange {s : State} (h : s.MemOk) (a n : Nat) : (s.zeroRange a n).MemOk := by
  unfold State.zeroRange
  split
  · refine State.MemOk.cleanLines ?_ a n
    exact mwf_filter s.blank _ s.mem h
  · exact h.store a _

theorem State.MemOk.scramble {s : State} (h : s.MemOk) (x a n : Nat) : (s.scramble x a n).MemOk :=
  State.MemOk.store (s := (s.drawBytes x n).2) (h.of_eq rfl rfl) a _

/-- Losing a range keeps the form: what is listed of it goes, and only its bytes read otherwise. -/
theorem State.MemOk.loseRange {s : State} (h : s.MemOk) (lo hi : Nat) : (s.loseRange lo hi).MemOk := by
  have key : ∀ m : List Host.Cell, mwf s.blank m = true → mwf (s.loseRange lo hi).blank (dropMem lo hi m) = true := by
    intro m
    induction m with
    | nil => intro _; rfl
    | cons e r ih =>
      intro hm
      obtain ⟨hv, hk, hr⟩ := (mwf_cons s.blank e r).mp hm
      have hd : dropMem lo hi (e :: r) = if !(decide (lo ≤ e.1) && decide (e.1 < hi)) then e :: dropMem lo hi r else dropMem lo hi r := by
        simp only [dropMem, List.filter_cons]
      rw [hd]
      split
      · next hc =>
        have hb : (s.loseRange lo hi).blank e.1 = s.blank e.1 := by
          have hf : (decide (lo ≤ e.1) && decide (e.1 < hi)) = false := by cases hx : (decide (lo ≤ e.1) && decide (e.1 < hi)) <;> simp_all
          simp only [State.blank, State.loseRange, List.find?_cons, hf]
        refine (mwf_cons _ e _).mpr ⟨hb ▸ hv, fun x hx => hk x (List.mem_filter.mp hx).1, ih hr⟩
      · exact ih hr
  exact key s.mem h

end Sys2Proof.Machine
end

