-- ==== Sys2Proof/Laws/Keeps.lean ====
section
/-!
SUPPORT. What every operation keeps: the queue, the time, the canonical form of memory and, where it stores nothing, memory itself.
-/

namespace Sys2Proof.Machine

/-- The queue and the time as in s0, memory in canonical form if it was in s0, and with `b` memory as in s0; over the fields alone. -/
def KeepsD (b : Bool) (s0 : State) (p : List Instr) (n : Nat) (m : List Host.Cell) (r : List Rekey) : Prop :=
  p = s0.pending ∧ n = s0.now ∧ (b = true → m = s0.mem ∧ r = s0.rekey) ∧
    (s0.MemOk → mwf (fun a => match r.find? (fun r => decide (r.lo ≤ a) && decide (a < r.hi)) with
      | some r => BitVec.ofNat 8 (Config.openFn 46 [r.id, a])
      | none => 0) m = true)

/-- State s keeps what s0 has: its queue, its time, memory's canonical form and, with `b`, memory itself. -/
def State.Keeps (s0 : State) (b : Bool) (s : State) : Prop := KeepsD b s0 s.pending s.now s.mem s.rekey

/-- An outcome that goes on keeps what s0 has. -/
def State.KeepsO (s0 : State) (b : Bool) (o : Out) : Prop := ∀ t, o = .next t → s0.Keeps b t

variable {b : Bool} {s0 : State}

theorem State.Keeps.refl (s : State) (b : Bool) : s.Keeps b s := ⟨rfl, rfl, fun _ => ⟨rfl, rfl⟩, id⟩

theorem keepsO_next {s : State} (h : s0.Keeps b s) : s0.KeepsO b (.next s) := by
  intro t e; cases e; exact h

/-- A state written out field by field keeps what its four fields keep. -/
theorem keeps_mk {f1 f2 f3 f4 f5 f6 f7 f8 f9 f10 f11 f12 f13 f14 f15 f16 f17 f18 f19 f20 f21 f22 f23 f24 f25 f26 f27 f28 f29 f30 f31
    f32 f33 f34 f35 f36 f37 f38 f39 f40 f41 f42 f43 f44} (h : KeepsD b s0 f1 f2 f5 f27) :
    s0.Keeps b (State.mk f1 f2 f3 f4 f5 f6 f7 f8 f9 f10 f11 f12 f13 f14 f15 f16 f17 f18 f19 f20 f21 f22 f23 f24 f25 f26 f27 f28 f29 f30
      f31 f32 f33 f34 f35 f36 f37 f38 f39 f40 f41 f42 f43 f44) := h

theorem keeps_up {s : State} (h : s0.Keeps b s) : KeepsD b s0 s.pending s.now s.mem s.rekey := h

theorem keeps_ite {c : Prop} [Decidable c] {x y : State} (hx : c → s0.Keeps b x) (hy : ¬c → s0.Keeps b y) :
    s0.Keeps b (if c then x else y) := by
  split
  · exact hx ‹_›
  · exact hy ‹_›

theorem keeps_foldl {ι : Type} {f : State → ι → State} {l : List ι} {i : State} (h : s0.Keeps b i)
    (hf : ∀ x a, s0.Keeps b x → s0.Keeps b (f x a)) : s0.Keeps b (l.foldl f i) := by
  induction l generalizing i with
  | nil => exact h
  | cons a r ih => exact ih (hf i a h)

theorem keeps_ite₁ {α : Type} {c : Prop} [Decidable c] {x y : α × State} (hx : c → s0.Keeps b x.2) (hy : ¬c → s0.Keeps b y.2) :
    s0.Keeps b (if c then x else y).2 := by
  split
  · exact hx ‹_›
  · exact hy ‹_›

theorem keeps_foldl₁ {α : Type} {ι : Type} {f : α × State → ι → α × State} {l : List ι} {i : α × State} (h : s0.Keeps b i.2)
    (hf : ∀ x a, s0.Keeps b x.2 → s0.Keeps b (f x a).2) : s0.Keeps b (l.foldl f i).2 := by
  induction l generalizing i with
  | nil => exact h
  | cons a r ih => exact ih (hf i a h)

theorem keeps_ite₂ {α β : Type} {c : Prop} [Decidable c] {x y : α × β × State} (hx : c → s0.Keeps b x.2.2) (hy : ¬c → s0.Keeps b y.2.2) :
    s0.Keeps b (if c then x else y).2.2 := by
  split
  · exact hx ‹_›
  · exact hy ‹_›

theorem keeps_foldl₂ {α β : Type} {ι : Type} {f : α × β × State → ι → α × β × State} {l : List ι} {i : α × β × State} (h : s0.Keeps b i.2.2)
    (hf : ∀ x a, s0.Keeps b x.2.2 → s0.Keeps b (f x a).2.2) : s0.Keeps b (l.foldl f i).2.2 := by
  induction l generalizing i with
  | nil => exact h
  | cons a r ih => exact ih (hf i a h)

theorem keeps_ite₃ {α β γ : Type} {c : Prop} [Decidable c] {x y : α × β × γ × State} (hx : c → s0.Keeps b x.2.2.2) (hy : ¬c → s0.Keeps b y.2.2.2) :
    s0.Keeps b (if c then x else y).2.2.2 := by
  split
  · exact hx ‹_›
  · exact hy ‹_›

theorem keeps_foldl₃ {α β γ : Type} {ι : Type} {f : α × β × γ × State → ι → α × β × γ × State} {l : List ι} {i : α × β × γ × State} (h : s0.Keeps b i.2.2.2)
    (hf : ∀ x a, s0.Keeps b x.2.2.2 → s0.Keeps b (f x a).2.2.2) : s0.Keeps b (l.foldl f i).2.2.2 := by
  induction l generalizing i with
  | nil => exact h
  | cons a r ih => exact ih (hf i a h)

theorem keeps_ite₄ {α β γ δ : Type} {c : Prop} [Decidable c] {x y : α × β × γ × δ × State} (hx : c → s0.Keeps b x.2.2.2.2) (hy : ¬c → s0.Keeps b y.2.2.2.2) :
    s0.Keeps b (if c then x else y).2.2.2.2 := by
  split
  · exact hx ‹_›
  · exact hy ‹_›

theorem keeps_foldl₄ {α β γ δ : Type} {ι : Type} {f : α × β × γ × δ × State → ι → α × β × γ × δ × State} {l : List ι} {i : α × β × γ × δ × State} (h : s0.Keeps b i.2.2.2.2)
    (hf : ∀ x a, s0.Keeps b x.2.2.2.2 → s0.Keeps b (f x a).2.2.2.2) : s0.Keeps b (l.foldl f i).2.2.2.2 := by
  induction l generalizing i with
  | nil => exact h
  | cons a r ih => exact ih (hf i a h)

theorem keeps_iteF {α : Type} {c : Prop} [Decidable c] {x y : State × α} (hx : c → s0.Keeps b x.1) (hy : ¬c → s0.Keeps b y.1) :
    s0.Keeps b (if c then x else y).1 := by
  split
  · exact hx ‹_›
  · exact hy ‹_›

theorem keeps_foldlF {α ι : Type} {f : State × α → ι → State × α} {l : List ι} {i : State × α} (h : s0.Keeps b i.1)
    (hf : ∀ x a, s0.Keeps b x.1 → s0.Keeps b (f x a).1) : s0.Keeps b (l.foldl f i).1 := by
  induction l generalizing i with
  | nil => exact h
  | cons a r ih => exact ih (hf i a h)

theorem keeps_snd {α : Type} {x : α × State} {a : α} {t : State} (e : x = (a, t)) (h : s0.Keeps b x.2) : s0.Keeps b t := by
  subst e; exact h

theorem keeps_snd₂ {α β : Type} {x : α × β × State} {a : α} {c : β} {t : State} (e : x = (a, c, t)) (h : s0.Keeps b x.2.2) :
    s0.Keeps b t := by
  subst e; exact h

theorem keeps_snd₃ {α β γ : Type} {x : α × β × γ × State} {a : α} {c : β} {d : γ} {t : State} (e : x = (a, c, d, t))
    (h : s0.Keeps b x.2.2.2) : s0.Keeps b t := by
  subst e; exact h

theorem keeps_snd₄ {α β γ δ : Type} {x : α × β × γ × δ × State} {a : α} {c : β} {d : γ} {f : δ} {t : State}
    (e : x = (a, c, d, f, t)) (h : s0.Keeps b x.2.2.2.2) : s0.Keeps b t := by
  subst e; exact h

theorem keeps_fst {α : Type} {x : State × α} {a : α} {t : State} (e : x = (t, a)) (h : s0.Keeps b x.1) : s0.Keeps b t := by
  subst e; exact h

theorem keepsQ_some {α : Type} {x : α × State} (h : s0.Keeps b x.2) : ∀ y, some x = some y → s0.Keeps b y.2 := by
  intro y e; cases e; exact h

theorem keepsQ_none {α : Type} : ∀ y : α × State, none = some y → s0.Keeps b y.2 := by
  intro y e; cases e

theorem keepsQ_ite {α : Type} {c : Prop} [Decidable c] {x z : Option (α × State)} (hx : c → ∀ y, x = some y → s0.Keeps b y.2)
    (hz : ¬c → ∀ y, z = some y → s0.Keeps b y.2) : ∀ y, (if c then x else z) = some y → s0.Keeps b y.2 := by
  split
  · exact hx ‹_›
  · exact hz ‹_›

theorem keepsQ_some₂ {α β : Type} {x : α × β × State} (h : s0.Keeps b x.2.2) : ∀ y, some x = some y → s0.Keeps b y.2.2 := by
  intro y e; cases e; exact h

theorem keepsQ_none₂ {α β : Type} : ∀ y : α × β × State, none = some y → s0.Keeps b y.2.2 := by
  intro y e; cases e

theorem keepsQ_ite₂ {α β : Type} {c : Prop} [Decidable c] {x z : Option (α × β × State)} (hx : c → ∀ y, x = some y → s0.Keeps b y.2.2)
    (hz : ¬c → ∀ y, z = some y → s0.Keeps b y.2.2) : ∀ y, (if c then x else z) = some y → s0.Keeps b y.2.2 := by
  split
  · exact hx ‹_›
  · exact hz ‹_›

theorem keeps_some₂ {α β : Type} {o : Option (α × β × State)} {a : α} {c : β} {t : State} (e : o = some (a, c, t))
    (h : ∀ x, o = some x → s0.Keeps b x.2.2) : s0.Keeps b t := h _ e

theorem keeps_some {α : Type} {o : Option (α × State)} {a : α} {t : State} (e : o = some (a, t))
    (h : ∀ x, o = some x → s0.Keeps b x.2) : s0.Keeps b t := h _ e

theorem keepsO_ite {c : Prop} [Decidable c] {x y : Out} (hx : c → s0.KeepsO b x) (hy : ¬c → s0.KeepsO b y) :
    s0.KeepsO b (if c then x else y) := by
  split
  · exact hx ‹_›
  · exact hy ‹_›

/-! ### Memory -/

theorem State.Keeps.memOk {s : State} (h : s0.Keeps b s) (h0 : s0.MemOk) : s.MemOk := h.2.2.2 h0

/-- An operation of its own on memory: queue and time as they were, and the canonical form kept. -/
theorem State.Keeps.mem {s t : State} (h : s0.Keeps false s) (hp : t.pending = s.pending) (hn : t.now = s.now)
    (hm : s.MemOk → t.MemOk) : s0.Keeps false t :=
  ⟨hp.trans h.1, hn.trans h.2.1, fun e => absurd e (by decide), fun h0 => hm (h.memOk h0)⟩

theorem State.setByte_keeps {s : State} {a : Nat} {v : Byte} (h : s0.Keeps false s) : s0.Keeps false (s.setByte a v) :=
  h.mem rfl rfl (fun k => k.setByte a v)

theorem State.storeBytes_keeps {s : State} {a : Nat} {l : List Byte} (h : s0.Keeps false s) : s0.Keeps false (s.storeBytes a l) := by
  induction l generalizing s a with
  | nil => exact h
  | cons v r ih => exact ih (State.setByte_keeps h)

theorem State.cleanLines_keeps {s : State} {a n : Nat} (h : s0.Keeps b s) : s0.Keeps b (s.cleanLines a n) := by
  unfold State.cleanLines; split
  · exact h
  · exact h

theorem State.store_keeps {s : State} {a : Nat} {l : List Byte} (h : s0.Keeps false s) : s0.Keeps false (s.store a l) :=
  State.cleanLines_keeps (State.storeBytes_keeps h)

theorem State.zeroRange_keeps {s : State} {a n : Nat} (h : s0.Keeps false s) : s0.Keeps false (s.zeroRange a n) := by
  have k := fun k => State.MemOk.zeroRange (s := s) k a n
  unfold State.zeroRange at k ⊢
  split
  · rename_i hc
    rw [if_pos hc] at k
    refine h.mem ?_ ?_ k <;> unfold State.cleanLines <;> split <;> rfl
  · exact State.store_keeps h

theorem State.loseRange_keeps {s : State} {lo hi : Nat} (h : s0.Keeps false s) : s0.Keeps false (s.loseRange lo hi) :=
  h.mem rfl rfl (fun k => k.loseRange lo hi)

end Sys2Proof.Machine
end

