-- ==== Sys2Proof/Laws/KeepsOps.lean ====
section
/-!
SUPPORT. What the operations of Machine/Ops.lean keep.
-/

set_option linter.all false

namespace Sys2Proof.Machine

variable {b : Bool} {s0 : State}

theorem State.setReg_keeps {s : State} {a : Nat} {v : Nat} (h : s0.Keeps b s) :
    s0.Keeps b (State.setReg s a v) := by
  unfold State.setReg
  repeat' with_reducible first | assumption | refine keeps_mk (keeps_up ?_)

theorem State.wr_keeps {s : State} {f : Fld} {v : Nat} (h : s0.Keeps b s) :
    s0.Keeps b (State.wr s f v) := by
  unfold State.wr
  repeat' with_reducible first | assumption | refine State.setReg_keeps ?_

theorem State.setUstate_keeps {s : State} {u : Nat} {v : Nat} (h : s0.Keeps b s) :
    s0.Keeps b (State.setUstate s u v) := by
  unfold State.setUstate
  repeat' with_reducible first
    | assumption | refine State.wr_keeps ?_ | fail_if_no_progress (refine keeps_mk (keeps_up ?_)) | split

theorem State.raiseMsix_keeps {s : State} {v : Nat} (h : s0.Keeps b s) :
    s0.Keeps b (State.raiseMsix s v) := by
  unfold State.raiseMsix
  repeat' with_reducible first | assumption | refine keeps_mk (keeps_up ?_)

theorem State.raiseCastle_keeps {s : State} (h : s0.Keeps b s) :
    s0.Keeps b (State.raiseCastle s) := by
  unfold State.raiseCastle
  repeat' with_reducible first | assumption | refine keeps_mk (keeps_up ?_)

theorem State.raiseIrq_keeps {s : State} {i : Nat} (h : s0.Keeps b s) :
    s0.Keeps b (State.raiseIrq s i) := by
  unfold State.raiseIrq
  repeat' with_reducible first | assumption | refine keeps_ite (fun _ => ?_) (fun _ => ?_) | refine keeps_mk (keeps_up ?_)

theorem State.logRec_keeps {s : State} {unit : Nat} {code : Nat} {sev : Nat} {part : Nat} {subject : Nat} {args : List Nat} (h : s0.Keeps b s) :
    s0.Keeps b (State.logRec s unit code sev part subject args) := by
  unfold State.logRec
  repeat' with_reducible first
    | assumption | refine keeps_ite (fun _ => ?_) (fun _ => ?_) | refine State.raiseMsix_keeps ?_ | refine State.raiseIrq_keeps ?_
    | refine keeps_mk (keeps_up ?_)

theorem State.event_keeps {s : State} {unit : Nat} {code : Nat} {subject : Nat} {args : List Nat} (h : s0.Keeps b s) :
    s0.Keeps b (State.event s unit code subject args) := by
  unfold State.event
  repeat' with_reducible first | assumption | refine State.logRec_keeps ?_

theorem State.bumpBy_keeps {s : State} {f : Fld} {n : Nat} (h : s0.Keeps b s) :
    s0.Keeps b (State.bumpBy s f n) := by
  unfold State.bumpBy
  repeat' with_reducible first | assumption | refine State.wr_keeps ?_

theorem State.bump_keeps {s : State} {f : Fld} (h : s0.Keeps b s) :
    s0.Keeps b (State.bump s f) := by
  unfold State.bump
  repeat' with_reducible first | assumption | refine State.bumpBy_keeps ?_

theorem State.draw_keeps {s : State} {site : Nat} (h : s0.Keeps b s) :
    s0.Keeps b (State.draw s site).2 := by
  unfold State.draw
  repeat' with_reducible first | assumption | refine keeps_mk (keeps_up ?_)

theorem State.send_keeps {s : State} {m : Msg} (h : s0.Keeps b s) :
    s0.Keeps b (State.send s m) := by
  unfold State.send
  repeat' with_reducible first | assumption | refine keeps_mk (keeps_up ?_)

theorem State.post_keeps {s : State} {src : Nat} {dest : Nat} {cls : Nat} {op : Nat} {index : Nat} {payload : List Byte} (h : s0.Keeps b s) :
    s0.Keeps b (State.post s src dest cls op index payload) := by
  unfold State.post
  repeat' with_reducible first
    | assumption | refine keeps_ite (fun _ => ?_) (fun _ => ?_) | refine State.send_keeps ?_ | refine State.event_keeps ?_

theorem State.wrBit_keeps {s : State} {f : Fld} {i : Nat} {x4 : Bool} (h : s0.Keeps b s) :
    s0.Keeps b (State.wrBit s f i x4) := by
  unfold State.wrBit
  repeat' with_reducible first | assumption | refine State.wr_keeps ?_

theorem State.drawBytes_keeps {s : State} {site : Nat} {n : Nat} (h : s0.Keeps b s) :
    s0.Keeps b (State.drawBytes s site n).2 := by
  unfold State.drawBytes
  repeat' with_reducible first | assumption | refine keeps_mk (keeps_up ?_)

theorem State.answer_keeps {s : State} {m : Msg} {status : Nat} (h : s0.Keeps b s) :
    s0.Keeps b (State.answer s m status) := by
  unfold State.answer
  repeat' with_reducible first | assumption | refine State.send_keeps ?_

theorem State.bumpEpoch_keeps {s : State} {u : Nat} (h : s0.Keeps b s) :
    s0.Keeps b (State.bumpEpoch s u) := by
  unfold State.bumpEpoch
  repeat' with_reducible first
    | assumption | refine State.wr_keeps ?_ | fail_if_no_progress (refine keeps_mk (keeps_up ?_)) | split

theorem State.bumpW_keeps {s : State} {f : Fld} (h : s0.Keeps b s) :
    s0.Keeps b (State.bumpW s f) := by
  unfold State.bumpW
  repeat' with_reducible first | assumption | refine State.wr_keeps ?_

theorem State.holdEpoch_keeps {s : State} {u : Nat} {code : Nat} (h : s0.Keeps b s) :
    s0.Keeps b (State.holdEpoch s u code) := by
  unfold State.holdEpoch
  repeat' with_reducible first | assumption | refine keeps_mk (keeps_up ?_)

theorem State.writeReg_keeps {s : State} {addr : Nat} {d : WData} (h : s0.Keeps b s) :
    s0.Keeps b (State.writeReg s addr d) := by
  unfold State.writeReg
  repeat' with_reducible first | assumption | refine State.setReg_keeps ?_ | split

theorem State.reject_keeps {s : State} {rejects : Nat} {offset : Nat} (h : s0.Keeps b s) :
    s0.Keeps b (State.reject s rejects offset) := by
  unfold State.reject
  repeat' with_reducible first | assumption | refine State.wr_keeps ?_ | refine State.bump_keeps ?_

theorem State.setTb_keeps {s : State} {n : Nat} {t : Tb} (h : s0.Keeps b s) :
    s0.Keeps b (State.setTb s n t) := by
  unfold State.setTb
  repeat' with_reducible first | assumption | refine keeps_mk (keeps_up ?_)

theorem State.st_keeps {s : State} {a : Nat} {n : Nat} {v : Nat} (h : s0.Keeps false s) :
    s0.Keeps false (State.st s a n v) := by
  unfold State.st
  repeat' with_reducible first | assumption | refine State.store_keeps ?_

theorem State.scramble_keeps {s : State} {site : Nat} {a : Nat} {n : Nat} (h : s0.Keeps false s) :
    s0.Keeps false (State.scramble s site a n) := by
  unfold State.scramble
  repeat' with_reducible first | assumption | refine State.drawBytes_keeps ?_ | refine State.store_keeps ?_

end Sys2Proof.Machine
end

