-- ==== Sys2Proof/Laws/KeepsIqOps.lean ====
section
/-!
SUPPORT. What the operations of Machine/IqOps.lean keep.
-/

set_option linter.all false

namespace Sys2Proof.Machine

variable {b : Bool} {s0 : State}

theorem State.setQ_keeps {s : State} {i : Nat} {q : IqSt} (h : s0.Keeps b s) :
    s0.Keeps b (State.setQ s i q) := by
  unfold State.setQ
  repeat' with_reducible first | assumption | refine keeps_mk (keeps_up ?_)

theorem State.iqNotify_keeps {s : State} {i : Nat} {kind : Nat} {v : Nat} (h : s0.Keeps b s) :
    s0.Keeps b (State.iqNotify s i kind v) := by
  unfold State.iqNotify
  repeat' with_reducible first | assumption | refine State.post_keeps ?_

theorem State.sendPause_keeps {s : State} {p : Nat} {on : Bool} (h : s0.Keeps b s) :
    s0.Keeps b (State.sendPause s p on) := by
  unfold State.sendPause
  repeat' with_reducible first | assumption | refine State.wr_keeps ?_ | refine State.bumpW_keeps ?_

theorem State.pauseEval_keeps {s : State} (h : s0.Keeps b s) :
    s0.Keeps b (State.pauseEval s) := by
  unfold State.pauseEval
  repeat' with_reducible first
    | assumption | refine keeps_ite (fun _ => ?_) (fun _ => ?_) | refine State.sendPause_keeps ?_
    | refine keeps_foldl ?_ (fun _ _ _ => ?_)

theorem State.iqLevel_keeps {s : State} {i : Nat} (h : s0.Keeps b s) :
    s0.Keeps b (State.iqLevel s i) := by
  unfold State.iqLevel
  repeat' with_reducible first
    | assumption | refine keeps_ite (fun _ => ?_) (fun _ => ?_) | refine State.setQ_keeps ?_ | refine State.bump_keeps ?_
    | refine State.iqNotify_keeps ?_ | refine State.pauseEval_keeps ?_

theorem State.iqFree_keeps {s : State} {i : Nat} {n : Nat} (h : s0.Keeps b s) :
    s0.Keeps b (State.iqFree s i n) := by
  unfold State.iqFree
  repeat' with_reducible first | assumption | refine State.iqLevel_keeps ?_ | refine State.setQ_keeps ?_

theorem State.iqCursor_keeps {s : State} {i : Nat} {v : Nat} (h : s0.Keeps b s) :
    s0.Keeps b (State.iqCursor s i v) := by
  unfold State.iqCursor
  repeat' with_reducible first | assumption | refine State.setQ_keeps ?_

theorem State.iqReject_keeps {s : State} {reg : Nat} (h : s0.Keeps b s) :
    s0.Keeps b (State.iqReject s reg) := by
  unfold State.iqReject
  repeat' with_reducible first | assumption | refine State.reject_keeps ?_

theorem State.iqRelease_keeps {s : State} {i : Nat} {off : Nat} (h : s0.Keeps b s) :
    s0.Keeps b (State.iqRelease s i off) := by
  unfold State.iqRelease
  repeat' with_reducible first
    | assumption | refine State.iqFree_keeps ?_ | refine State.bump_keeps ?_ | split | dsimp only

theorem State.iqEmpty_keeps {s : State} {i : Nat} (h : s0.Keeps b s) :
    s0.Keeps b (State.iqEmpty s i) := by
  unfold State.iqEmpty
  repeat' with_reducible first | assumption | refine State.iqLevel_keeps ?_ | refine State.setQ_keeps ?_

theorem State.iqAdvance_keeps {s : State} {i : Nat} (h : s0.Keeps b s) :
    s0.Keeps b (State.iqAdvance s i) := by
  unfold State.iqAdvance
  repeat' with_reducible first | assumption | refine State.setQ_keeps ?_

theorem State.iqDrain_keeps {s : State} {i : Nat} (h : s0.Keeps b s) :
    s0.Keeps b (State.iqDrain s i) := by
  unfold State.iqDrain
  repeat' with_reducible first | assumption | refine State.iqFree_keeps ?_

end Sys2Proof.Machine
end

