-- ==== Sys2Proof/Laws/KeepsAlnOps.lean ====
section
/-!
SUPPORT. What the operations of Machine/AlnOps.lean keep.
-/

set_option linter.all false

namespace Sys2Proof.Machine

variable {b : Bool} {s0 : State}

theorem State.setAln_keeps {s : State} {a : AlnSt} (h : s0.Keeps b s) :
    s0.Keeps b (State.setAln s a) := by
  unfold State.setAln
  repeat' with_reducible first | assumption | refine State.wr_keeps ?_ | refine keeps_mk (keeps_up ?_)

theorem State.alnReset_keeps {s : State} {st : Nat} (h : s0.Keeps b s) :
    s0.Keeps b (State.alnReset s st) := by
  unfold State.alnReset
  repeat' with_reducible first
    | assumption | refine keeps_ite (fun _ => ?_) (fun _ => ?_) | refine State.setUstate_keeps ?_ | refine State.bumpEpoch_keeps ?_
    | refine State.setAln_keeps ?_ | refine State.wr_keeps ?_ | refine State.iqFree_keeps ?_ | refine keeps_foldl ?_ (fun _ _ _ => ?_)

theorem State.alnFree_keeps {s : State} {i : Nat} (h : s0.Keeps b s) :
    s0.Keeps b (State.alnFree s i) := by
  unfold State.alnFree
  repeat' with_reducible first | assumption | refine keeps_ite (fun _ => ?_) (fun _ => ?_) | refine State.iqFree_keeps ?_

theorem State.alnTrim_keeps {s : State} (h : s0.Keeps b s) :
    s0.Keeps b (State.alnTrim s) := by
  unfold State.alnTrim
  repeat' with_reducible first
    | assumption | refine keeps_ite (fun _ => ?_) (fun _ => ?_) | refine State.alnFree_keeps ?_ | refine keeps_foldl ?_ (fun _ _ _ => ?_)
    | refine keeps_mk (keeps_up ?_)

theorem State.alnReleaseTo_keeps {s : State} {seq : Nat} (h : s0.Keeps b s) :
    s0.Keeps b (State.alnReleaseTo s seq) := by
  unfold State.alnReleaseTo
  repeat' with_reducible first
    | assumption | refine State.wr_keeps ?_ | refine State.alnTrim_keeps ?_ | refine keeps_mk (keeps_up ?_)

theorem State.recWrite_keeps {s : State} {x2 : AlnBundle} {flags : Nat} {r : Nat} (h : s0.Keeps false s) :
    s0.Keeps false (State.recWrite s x2 flags r) := by
  unfold State.recWrite
  repeat' with_reducible first
    | assumption | refine keeps_ite (fun _ => ?_) (fun _ => ?_) | refine State.wr_keeps ?_ | refine State.store_keeps ?_
    | refine State.event_keeps ?_ | refine State.bump_keeps ?_

theorem State.takeVisible_keeps {s : State} {i : Nat} (h : s0.Keeps b s) :
    s0.Keeps b (State.takeVisible s i) := by
  unfold State.takeVisible
  repeat' with_reducible first | assumption | refine State.setQ_keeps ?_ | refine keeps_mk (keeps_up ?_)

theorem State.gather_keeps {s : State} {step : Bool} (h : s0.Keeps b s) :
    s0.Keeps b (State.gather s step) := by
  unfold State.gather
  repeat' with_reducible first
    | assumption | refine keeps_ite (fun _ => ?_) (fun _ => ?_) | refine State.takeVisible_keeps ?_
    | refine keeps_foldl ?_ (fun _ _ _ => ?_) | refine keeps_mk (keeps_up ?_)

theorem State.voteGroup_keeps {s : State} {g : Nat} {val : Nat → ChanVal} (h : s0.Keeps b s) :
    s0.Keeps b (State.voteGroup s g val) := by
  unfold State.voteGroup
  repeat' with_reducible first
    | assumption | refine keeps_ite (fun _ => ?_) (fun _ => ?_) | refine State.wr_keeps ?_ | refine State.event_keeps ?_
    | refine State.bump_keeps ?_ | refine keeps_foldl ?_ (fun _ _ _ => ?_) | refine keeps_mk (keeps_up ?_)

theorem State.queueSweep_keeps {s : State} {tf : Nat} (h : s0.Keeps b s) :
    s0.Keeps b (State.queueSweep s tf) := by
  unfold State.queueSweep
  repeat' with_reducible first | assumption | refine keeps_ite (fun _ => ?_) (fun _ => ?_) | refine keeps_mk (keeps_up ?_)

theorem State.setEgo_keeps {s : State} {e : Ego} {tf : Nat} (h : s0.Keeps b s) :
    s0.Keeps b (State.setEgo s e tf) := by
  unfold State.setEgo
  repeat' with_reducible first | assumption | refine State.wr_keeps ?_ | refine keeps_mk (keeps_up ?_)

theorem State.streamStatus_keeps {s : State} {i : Nat} {fl : Nat} (h : s0.Keeps b s) :
    s0.Keeps b (State.streamStatus s i fl) := by
  unfold State.streamStatus
  repeat' with_reducible first
    | assumption | refine keeps_ite (fun _ => ?_) (fun _ => ?_) | refine State.wr_keeps ?_ | refine State.bump_keeps ?_

theorem State.startBuild_keeps {s : State} {deadline : Bool} (h : s0.Keeps b s) :
    s0.Keeps b (State.startBuild s deadline) := by
  unfold State.startBuild
  repeat' with_reducible first
    | assumption | refine keeps_ite (fun _ => ?_) (fun _ => ?_) | refine State.gather_keeps ?_ | refine State.voteGroup_keeps ?_
    | refine State.queueSweep_keeps ?_ | refine State.setEgo_keeps ?_ | refine State.streamStatus_keeps ?_ | refine State.setAln_keeps ?_
    | refine State.bump_keeps ?_ | refine State.alnTrim_keeps ?_ | refine keeps_foldl ?_ (fun _ _ _ => ?_) | split

theorem State.regDone_keeps {s : State} {sw : RegSweep} (h : s0.Keeps b s) :
    s0.Keeps b (State.regDone s sw) := by
  unfold State.regDone
  repeat' with_reducible first
    | assumption | refine keeps_ite (fun _ => ?_) (fun _ => ?_) | refine State.bumpW_keeps ?_ | refine State.wr_keeps ?_
    | refine State.bump_keeps ?_ | refine keeps_mk (keeps_up ?_)

theorem State.fuse_keeps {s : State} {stamp : BitVec 128} (h : s0.Keeps b s) :
    s0.Keeps b (State.fuse s stamp) := by
  unfold State.fuse
  repeat' with_reducible first
    | assumption | refine keeps_ite (fun _ => ?_) (fun _ => ?_) | refine State.bump_keeps ?_ | refine State.wr_keeps ?_
    | refine State.setAln_keeps ?_

theorem State.emitBundle_keeps {s : State} (h : s0.Keeps false s) :
    s0.Keeps false (State.emitBundle s) := by
  unfold State.emitBundle
  repeat' with_reducible first
    | assumption | refine keeps_ite (fun _ => ?_) (fun _ => ?_) | refine State.setAln_keeps ?_ | refine State.event_keeps ?_
    | refine State.bump_keeps ?_ | refine State.store_keeps ?_ | refine State.recWrite_keeps ?_ | refine State.post_keeps ?_
    | refine keeps_foldl ?_ (fun _ _ _ => ?_) | fail_if_no_progress (refine keeps_mk (keeps_up ?_)) | split

end Sys2Proof.Machine
end

