-- ==== Sys2Proof/Laws/KeepsAln.lean ====
section
/-!
SUPPORT. What the operations of Machine/Aln.lean keep.
-/

set_option linter.all false

namespace Sys2Proof.Machine

variable {b : Bool} {s0 : State}

theorem State.alnWrite_keeps {s : State} {r : Req} {reg : Nat} {ok : Bool} {act : State → State} (h : s0.Keeps b s)
    (ha : ∀ t, s0.Keeps b t → s0.Keeps b (act t)) : s0.Keeps b (State.alnWrite s r reg ok act) :=
  keeps_ite (fun _ => ha _ h) (fun _ => State.reject_keeps h)

theorem execAlnReleaseWrite_keeps {r : Req} {d : WData} {s : State} (h : s0.Keeps b s) :
    s0.KeepsO b (execAlnReleaseWrite r d s) := by
  unfold execAlnReleaseWrite
  repeat' with_reducible first
    | assumption | refine keepsO_next ?_ | refine keeps_ite (fun _ => ?_) (fun _ => ?_) | refine State.alnWrite_keeps ?_ (fun _ _ => ?_)
    | refine State.alnReleaseTo_keeps ?_

theorem execBundleWaitExpire_keeps {s : State} (h : s0.Keeps b s) :
    s0.KeepsO b (execBundleWaitExpire s) := by
  unfold execBundleWaitExpire
  repeat' with_reducible first
    | assumption | refine keepsO_next ?_ | refine keeps_ite (fun _ => ?_) (fun _ => ?_) | refine State.startBuild_keeps ?_

theorem execRegistrationDone_keeps {s : State} (h : s0.Keeps b s) :
    s0.KeepsO b (execRegistrationDone s) := by
  unfold execRegistrationDone
  repeat' with_reducible first
    | assumption | refine keepsO_next ?_ | refine State.regDone_keeps ?_ | fail_if_no_progress (refine keeps_mk (keeps_up ?_)) | split

theorem execBundleBuildStart_keeps {s : State} (h : s0.Keeps b s) :
    s0.KeepsO b (execBundleBuildStart s) := by
  unfold execBundleBuildStart
  repeat' with_reducible first
    | assumption | refine keepsO_next ?_ | refine keeps_ite (fun _ => ?_) (fun _ => ?_) | refine State.startBuild_keeps ?_ | split

theorem execBundleEmit_keeps {s : State} (h : s0.Keeps false s) :
    s0.KeepsO false (execBundleEmit s) := by
  unfold execBundleEmit
  repeat' with_reducible first | assumption | refine keepsO_next ?_ | refine State.emitBundle_keeps ?_

theorem execAlnResetDone_keeps {s : State} (h : s0.Keeps b s) :
    s0.KeepsO b (execAlnResetDone s) := by
  unfold execAlnResetDone
  repeat' with_reducible first
    | assumption | refine keepsO_next ?_ | refine keeps_ite (fun _ => ?_) (fun _ => ?_) | refine State.setUstate_keeps ?_

end Sys2Proof.Machine
end

