-- ==== Sys2Proof/Laws/KeepsSquareOps.lean ====
section
/-!
SUPPORT. What the operations of Machine/SquareOps.lean keep.
-/

set_option linter.all false

namespace Sys2Proof.Machine

variable {b : Bool} {s0 : State}

theorem State.setSq_keeps {s : State} {n : Nat} {q : SqSt} (h : s0.Keeps b s) :
    s0.Keeps b (State.setSq s n q) := by
  unfold State.setSq
  repeat' with_reducible first | assumption | refine keeps_mk (keeps_up ?_)

theorem State.sqResetDone_keeps {s : State} {n : Nat} (h : s0.Keeps b s) :
    s0.Keeps b (State.sqResetDone s n) := by
  unfold State.sqResetDone
  repeat' with_reducible first
    | assumption | refine keeps_ite (fun _ => ?_) (fun _ => ?_) | refine State.setUstate_keeps ?_ | refine State.wr_keeps ?_
    | refine State.setSq_keeps ?_

theorem State.setInq_keeps {s : State} {n : Nat} {p : Nat} {l : List Msg} (h : s0.Keeps b s) :
    s0.Keeps b (State.setInq s n p l) := by
  unfold State.setInq
  repeat' with_reducible first | assumption | refine State.wr_keeps ?_ | refine State.setSq_keeps ?_

theorem State.answerQueues_keeps {s : State} {n : Nat} {status : Nat} (h : s0.Keeps b s) :
    s0.Keeps b (State.answerQueues s n status) := by
  unfold State.answerQueues
  repeat' with_reducible first
    | assumption | refine State.setInq_keeps ?_ | refine State.answer_keeps ?_ | refine keeps_foldl ?_ (fun _ _ _ => ?_)

theorem State.sqLeave_keeps {s : State} {n : Nat} {st : Nat} (h : s0.Keeps b s) :
    s0.Keeps b (State.sqLeave s n st) := by
  unfold State.sqLeave
  repeat' with_reducible first
    | assumption | refine keeps_ite (fun _ => ?_) (fun _ => ?_) | refine State.setUstate_keeps ?_ | refine State.answerQueues_keeps ?_

theorem State.setTxq_keeps {s : State} {n : Nat} {l : List TxOp} (h : s0.Keeps b s) :
    s0.Keeps b (State.setTxq s n l) := by
  unfold State.setTxq
  repeat' with_reducible first | assumption | refine State.wr_keeps ?_ | refine State.setSq_keeps ?_

theorem State.sqAbandon_keeps {s : State} {n : Nat} (h : s0.Keeps b s) :
    s0.Keeps b (State.sqAbandon s n) := by
  unfold State.sqAbandon
  repeat' with_reducible first | assumption | refine State.setTxq_keeps ?_ | refine State.setSq_keeps ?_

theorem State.sqStop_keeps {s : State} {n : Nat} {st : Nat} (h : s0.Keeps b s) :
    s0.Keeps b (State.sqStop s n st) := by
  unfold State.sqStop
  repeat' with_reducible first
    | assumption | refine State.sqLeave_keeps ?_ | refine State.bumpEpoch_keeps ?_ | refine State.sqAbandon_keeps ?_
    | refine State.wr_keeps ?_

theorem State.setShareCtx_keeps {s : State} {n : Nat} {c : ShareCtx} (h : s0.Keeps b s) :
    s0.Keeps b (State.setShareCtx s n c) := by
  unfold State.setShareCtx
  repeat' with_reducible first | assumption | refine keeps_mk (keeps_up ?_)

theorem State.sqClear_keeps {s : State} {n : Nat} (h : s0.Keeps false s) :
    s0.Keeps false (State.sqClear s n) := by
  unfold State.sqClear
  repeat' with_reducible first
    | assumption | refine keeps_ite (fun _ => ?_) (fun _ => ?_) | refine State.zeroRange_keeps ?_ | refine State.setSq_keeps ?_
    | refine State.wr_keeps ?_ | refine State.setShareCtx_keeps ?_ | refine keeps_mk (keeps_up ?_)

theorem State.sqEnter_keeps {s : State} {n : Nat} {st : Nat} (h : s0.Keeps false s) :
    s0.Keeps false (State.sqEnter s n st) := by
  unfold State.sqEnter
  repeat' with_reducible first
    | assumption | refine keeps_ite (fun _ => ?_) (fun _ => ?_) | refine State.sqStop_keeps ?_ | refine State.sqClear_keeps ?_

theorem State.storePort_keeps {s : State} {n : Nat} {off : Nat} {len : Nat} {data : Option (List Byte)} {poison : Bool} (h : s0.Keeps false s) :
    s0.Keeps false (State.storePort s n off len data poison).2.2.2 := by
  unfold State.storePort
  repeat' with_reducible first
    | assumption | refine keeps_ite (fun _ => ?_) (fun _ => ?_) | refine keeps_ite₃ (fun _ => ?_) (fun _ => ?_)
    | refine State.store_keeps ?_ | fail_if_no_progress (refine keeps_mk (keeps_up ?_)) | split

theorem State.sqReset_keeps {s : State} {n : Nat} (h : s0.Keeps false s) :
    s0.Keeps false (State.sqReset s n) := by
  unfold State.sqReset
  repeat' with_reducible first
    | assumption | refine keeps_ite (fun _ => ?_) (fun _ => ?_) | refine State.reject_keeps ?_ | refine State.sqEnter_keeps ?_
    | refine State.holdEpoch_keeps ?_

theorem State.swapCtx_keeps {s : State} {n : Nat} (h : s0.Keeps b s) :
    s0.Keeps b (State.swapCtx s n) := by
  unfold State.swapCtx
  repeat' with_reducible first
    | assumption | refine State.setShareCtx_keeps ?_ | refine State.setSq_keeps ?_ | refine State.wr_keeps ?_
    | refine State.setUstate_keeps ?_

theorem State.shareSwitch_keeps {s : State} {n : Nat} (h : s0.Keeps b s) :
    s0.Keeps b (State.shareSwitch s n) := by
  unfold State.shareSwitch
  repeat' with_reducible first
    | assumption | refine keeps_ite (fun _ => ?_) (fun _ => ?_) | refine State.setShareCtx_keeps ?_ | refine State.swapCtx_keeps ?_
    | split

theorem State.sqDrained_keeps {s : State} {n : Nat} (h : s0.Keeps b s) :
    s0.Keeps b (State.sqDrained s n) := by
  unfold State.sqDrained
  repeat' with_reducible first
    | assumption | refine keeps_ite (fun _ => ?_) (fun _ => ?_) | refine State.shareSwitch_keeps ?_ | refine State.setUstate_keeps ?_
    | refine State.wr_keeps ?_

theorem State.sqStopIssue_keeps {s : State} {n : Nat} (h : s0.Keeps b s) :
    s0.Keeps b (State.sqStopIssue s n) := by
  unfold State.sqStopIssue
  repeat' with_reducible first | assumption | refine State.sqDrained_keeps ?_ | refine State.wr_keeps ?_

theorem State.sqHalt_keeps {s : State} {n : Nat} (h : s0.Keeps b s) :
    s0.Keeps b (State.sqHalt s n) := by
  unfold State.sqHalt
  repeat' with_reducible first
    | assumption | refine keeps_ite (fun _ => ?_) (fun _ => ?_) | refine State.sqStopIssue_keeps ?_ | refine State.reject_keeps ?_

theorem State.sqLoadNow_keeps {s : State} {n : Nat} {start : Bool} (h : s0.Keeps b s) :
    s0.Keeps b (State.sqLoadNow s n start) := by
  unfold State.sqLoadNow
  repeat' with_reducible first
    | assumption | refine State.answerQueues_keeps ?_ | refine State.bumpEpoch_keeps ?_ | refine State.setSq_keeps ?_
    | refine State.wr_keeps ?_

theorem State.sqLoad_keeps {s : State} {n : Nat} {start : Bool} (h : s0.Keeps b s) :
    s0.Keeps b (State.sqLoad s n start) := by
  unfold State.sqLoad
  repeat' with_reducible first
    | assumption | refine keeps_ite (fun _ => ?_) (fun _ => ?_) | refine State.sqLoadNow_keeps ?_ | refine State.holdEpoch_keeps ?_
    | refine State.reject_keeps ?_

theorem State.sqStart_keeps {s : State} {n : Nat} (h : s0.Keeps b s) :
    s0.Keeps b (State.sqStart s n) := by
  unfold State.sqStart
  repeat' with_reducible first
    | assumption | refine keeps_ite (fun _ => ?_) (fun _ => ?_) | refine State.reject_keeps ?_ | refine State.setSq_keeps ?_
    | refine State.wr_keeps ?_ | refine State.setUstate_keeps ?_

theorem State.sqCtrl_keeps {s : State} {n : Nat} {v : Nat} (h : s0.Keeps false s) :
    s0.Keeps false (State.sqCtrl s n v) := by
  unfold State.sqCtrl
  repeat' with_reducible first
    | assumption | refine keeps_ite (fun _ => ?_) (fun _ => ?_) | refine State.sqReset_keeps ?_ | refine State.reject_keeps ?_
    | refine State.sqHalt_keeps ?_ | refine State.sqLoad_keeps ?_ | refine State.sqStart_keeps ?_ | refine State.wr_keeps ?_

theorem State.sqWrite_keeps {s : State} {r : Req} {n : Nat} {off : Nat} {d : WData} (h : s0.Keeps false s) :
    s0.Keeps false (State.sqWrite s r n off d) := by
  unfold State.sqWrite
  repeat' with_reducible first
    | assumption | refine keeps_ite (fun _ => ?_) (fun _ => ?_) | refine State.reject_keeps ?_ | refine State.sqCtrl_keeps ?_
    | refine State.wr_keeps ?_ | refine State.writeReg_keeps ?_

theorem State.sqFault_keeps {s : State} {n : Nat} {kind : Nat} {cause : Nat} {tval : Nat} {irq : Bool} (h : s0.Keeps b s) :
    s0.Keeps b (State.sqFault s n kind cause tval irq) := by
  unfold State.sqFault
  repeat' with_reducible first
    | assumption | refine State.wr_keeps ?_ | refine State.event_keeps ?_ | refine State.sqAbandon_keeps ?_
    | refine State.sqLeave_keeps ?_

theorem State.halfRead_keeps {s : State} {r : Req} {reg : Nat} {high : Bool} {view : Nat} {clear : State → State} (h : s0.Keeps b s)
    (hc : ∀ t, s0.Keeps b t → s0.Keeps b (clear t)) : s0.Keeps b (State.halfRead s r reg high view clear).2 := by
  unfold State.halfRead
  dsimp only
  split
  · exact h
  · exact hc s h

theorem State.clearRc_keeps {s : State} {addr : Nat} (h : s0.Keeps b s) :
    s0.Keeps b (State.clearRc s addr) := by
  unfold State.clearRc
  repeat' with_reducible first
    | assumption | refine keeps_ite (fun _ => ?_) (fun _ => ?_) | refine State.setReg_keeps ?_ | split

theorem State.sqRestAt_keeps {s : State} {n : Nat} {rd : Option Nat} {forced : Bool} (h : s0.Keeps b s) :
    s0.Keeps b (State.sqRestAt s n rd forced) := by
  unfold State.sqRestAt
  repeat' with_reducible first | assumption | refine State.setSq_keeps ?_

theorem State.sqLoadDone_keeps {s : State} {n : Nat} (h : s0.Keeps b s) :
    s0.Keeps b (State.sqLoadDone s n) := by
  unfold State.sqLoadDone
  repeat' with_reducible first
    | assumption | refine keeps_ite (fun _ => ?_) (fun _ => ?_) | refine State.wr_keeps ?_ | refine State.setSq_keeps ?_
    | refine State.sqStart_keeps ?_ | split

theorem State.cachePut_keeps {s : State} {n : Nat} {module : Nat} {unit : Nat} {epoch : Nat} (h : s0.Keeps b s) :
    s0.Keeps b (State.cachePut s n module unit epoch) := by
  unfold State.cachePut
  repeat' with_reducible first | assumption | refine keeps_ite (fun _ => ?_) (fun _ => ?_) | refine State.setSq_keeps ?_

theorem State.cacheTouch_keeps {s : State} {n : Nat} {module : Nat} {unit : Nat} (h : s0.Keeps b s) :
    s0.Keeps b (State.cacheTouch s n module unit) := by
  unfold State.cacheTouch
  repeat' with_reducible first | assumption | refine State.cachePut_keeps ?_ | split

theorem State.sqRestDone_keeps {s : State} {n : Nat} {fault : Bool} {part : Nat} (h : s0.Keeps false s) :
    s0.Keeps false (State.sqRestDone s n fault part) := by
  unfold State.sqRestDone
  repeat' with_reducible first
    | assumption | refine keeps_ite (fun _ => ?_) (fun _ => ?_) | refine State.scramble_keeps ?_ | refine State.event_keeps ?_
    | refine State.bump_keeps ?_ | refine State.sqFault_keeps ?_ | refine State.setUstate_keeps ?_ | refine State.setSq_keeps ?_ | split

theorem State.sqReadWrite_keeps {s : State} {n : Nat} {m : Msg} (h : s0.Keeps false s) :
    s0.Keeps false (State.sqReadWrite s n m) := by
  unfold State.sqReadWrite
  repeat' with_reducible first
    | assumption | split | refine keeps_snd₃ (by assumption) ?_ | refine keeps_ite (fun _ => ?_) (fun _ => ?_)
    | refine State.answer_keeps ?_ | refine State.storePort_keeps ?_ | refine State.send_keeps ?_

theorem State.sqDeliver_keeps {s : State} {n : Nat} {m : Msg} (h : s0.Keeps false s) :
    s0.Keeps false (State.sqDeliver s n m) := by
  unfold State.sqDeliver
  repeat' with_reducible first
    | assumption | refine keeps_ite (fun _ => ?_) (fun _ => ?_) | refine State.answer_keeps ?_ | refine State.sqReadWrite_keeps ?_
    | refine State.cachePut_keeps ?_ | refine State.setInq_keeps ?_ | refine State.wr_keeps ?_ | refine State.bump_keeps ?_

theorem State.sqStale_keeps {s : State} {n : Nat} {m : Msg} (h : s0.Keeps b s) :
    s0.Keeps b (State.sqStale s n m) := by
  unfold State.sqStale
  repeat' with_reducible first | assumption | refine State.wr_keeps ?_ | refine State.bump_keeps ?_

theorem State.sqPostedAnswer_keeps {s : State} {n : Nat} {m : Msg} (h : s0.Keeps b s) :
    s0.Keeps b (State.sqPostedAnswer s n m) := by
  unfold State.sqPostedAnswer
  repeat' with_reducible first
    | assumption | refine keeps_ite (fun _ => ?_) (fun _ => ?_) | refine State.bump_keeps ?_ | refine State.sqStale_keeps ?_

theorem State.sqRestEnter_keeps {s : State} {n : Nat} (h : s0.Keeps b s) :
    s0.Keeps b (State.sqRestEnter s n) := by
  unfold State.sqRestEnter
  repeat' with_reducible first
    | assumption | refine keeps_ite (fun _ => ?_) (fun _ => ?_) | refine State.wr_keeps ?_ | refine State.sqRestAt_keeps ?_
    | refine State.sqLeave_keeps ?_ | refine State.setSq_keeps ?_ | refine State.bump_keeps ?_ | split | dsimp only

theorem State.sqTagDone_keeps {s : State} {n : Nat} {t : Nat} {status : Nat} (h : s0.Keeps b s) :
    s0.Keeps b (State.sqTagDone s n t status) := by
  unfold State.sqTagDone
  repeat' with_reducible first | assumption | refine State.setSq_keeps ?_

theorem State.sqReply_keeps {s : State} {n : Nat} {m : Msg} (h : s0.Keeps b s) :
    s0.Keeps b (State.sqReply s n m) := by
  unfold State.sqReply
  repeat' with_reducible first
    | assumption | refine keeps_ite (fun _ => ?_) (fun _ => ?_) | refine State.sqStale_keeps ?_ | refine State.cachePut_keeps ?_
    | refine State.bump_keeps ?_ | refine State.setShareCtx_keeps ?_ | refine State.sqTagDone_keeps ?_

end Sys2Proof.Machine
end

