-- ==== Sys2Proof/Laws/KeepsArithOps.lean ====
section
/-!
SUPPORT. What the operations of Machine/ArithOps.lean keep.
-/

set_option linter.all false

namespace Sys2Proof.Machine

variable {b : Bool} {s0 : State}

theorem State.putStatus_keeps {s : State} {n : Nat} {at_ : Nat} {w : Nat} (h : s0.Keeps false s) :
    s0.Keeps false (State.putStatus s n at_ w) := by
  unfold State.putStatus
  repeat' with_reducible first | assumption | refine State.st_keeps ?_

theorem State.txIntegrity_keeps {s : State} {n : Nat} {off : Nat} (h : s0.Keeps b s) :
    s0.Keeps b (State.txIntegrity s n off).2.2 := by
  unfold State.txIntegrity
  repeat' with_reducible first
    | assumption | refine State.wr_keeps ?_ | refine State.bump_keeps ?_ | refine State.event_keeps ?_ | refine State.draw_keeps ?_

theorem State.wload_keeps {s : State} {n : Nat} {d : List Byte} (h : s0.Keeps b s) :
    s0.Keeps b (State.wload s n d).2.2 := by
  unfold State.wload
  repeat' with_reducible first
    | assumption | refine keeps_ite₂ (fun _ => ?_) (fun _ => ?_) | refine State.txIntegrity_keeps ?_ | refine State.setSq_keeps ?_

theorem State.quantOp_keeps {s : State} {n : Nat} {d : List Byte} (h : s0.Keeps false s) :
    s0.Keeps false (State.quantOp s n d).2.2 := by
  unfold State.quantOp
  repeat' with_reducible first
    | assumption | refine keeps_foldlF ?_ (fun _ _ _ => ?_) | refine keeps_ite₂ (fun _ => ?_) (fun _ => ?_)
    | refine State.txIntegrity_keeps ?_ | refine State.scramble_keeps ?_ | refine State.store_keeps ?_
    | refine keeps_foldl ?_ (fun _ _ _ => ?_) | split

theorem State.mm_keeps {s : State} {n : Nat} {d : List Byte} (h : s0.Keeps false s) :
    s0.Keeps false (State.mm s n d).2.2 := by
  unfold State.mm
  repeat' with_reducible first
    | assumption | refine keeps_foldlF ?_ (fun _ _ _ => ?_) | refine keeps_ite (fun _ => ?_) (fun _ => ?_)
    | refine keeps_ite₂ (fun _ => ?_) (fun _ => ?_) | refine State.txIntegrity_keeps ?_ | refine State.setSq_keeps ?_
    | refine State.scramble_keeps ?_ | refine State.store_keeps ?_ | refine keeps_foldl ?_ (fun _ _ _ => ?_)
    | refine keeps_mk (keeps_up ?_)

end Sys2Proof.Machine
end

