-- ==== Sys2Proof/Laws/KeepsLayoutOps.lean ====
section
/-!
SUPPORT. What the operations of Machine/LayoutOps.lean keep.
-/

set_option linter.all false

namespace Sys2Proof.Machine

variable {b : Bool} {s0 : State}

theorem State.cleanBytes_keeps {s : State} {l : List Nat} (h : s0.Keeps b s) :
    s0.Keeps b (State.cleanBytes s l) := by
  unfold State.cleanBytes
  repeat' with_reducible first | assumption | refine keeps_ite (fun _ => ?_) (fun _ => ?_) | refine keeps_mk (keeps_up ?_)

theorem State.stN_keeps {s : State} {a : Nat} {w : Nat} {v : Nat} (h : s0.Keeps false s) :
    s0.Keeps false (State.stN s a w v) := by
  unfold State.stN
  repeat' with_reducible first
    | assumption | refine keeps_ite (fun _ => ?_) (fun _ => ?_) | refine State.setByte_keeps ?_ | refine State.storeBytes_keeps ?_

theorem State.moveAll_keeps {s : State} {l : List Mv} (h : s0.Keeps false s) :
    s0.Keeps false (State.moveAll s l) := by
  unfold State.moveAll
  repeat' with_reducible first
    | assumption | refine State.stN_keeps ?_ | refine State.cleanBytes_keeps ?_ | refine keeps_foldl ?_ (fun _ _ _ => ?_)

end Sys2Proof.Machine
end

