-- ==== Sys2Proof/Laws/KeepsBusOps.lean ====
section
/-!
SUPPORT. What the operations of Machine/BusOps.lean keep.
-/

set_option linter.all false

namespace Sys2Proof.Machine

variable {b : Bool} {s0 : State}

theorem State.setPlane_keeps {s : State} {p : Nat} {x : PlSt} (h : s0.Keeps b s) :
    s0.Keeps b (State.setPlane s p x) := by
  unfold State.setPlane
  repeat' with_reducible first | assumption | refine keeps_mk (keeps_up ?_)

theorem State.setEng_keeps {s : State} {e : Nat} {x : AeSt} (h : s0.Keeps b s) :
    s0.Keeps b (State.setEng s e x) := by
  unfold State.setEng
  repeat' with_reducible first | assumption | refine keeps_mk (keeps_up ?_)

theorem State.mcCharge_keeps {s : State} {part : Option Nat} {a : Nat} {len : Nat} (h : s0.Keeps b s) :
    s0.Keeps b (State.mcCharge s part a len) := by
  unfold State.mcCharge
  repeat' with_reducible first
    | assumption | refine keeps_ite (fun _ => ?_) (fun _ => ?_) | refine State.draw_keeps ?_ | refine State.wr_keeps ?_
    | fail_if_no_progress (refine keeps_mk (keeps_up ?_)) | split

theorem State.errLog_keeps {s : State} {kind : Nat} {a : Nat} {unit : Nat} {retired : Bool} (h : s0.Keeps b s) :
    s0.Keeps b (State.errLog s kind a unit retired) := by
  unfold State.errLog
  repeat' with_reducible first
    | assumption | refine State.setReg_keeps ?_ | refine State.wr_keeps ?_ | refine State.bumpW_keeps ?_

theorem State.setPoison_keeps {s : State} {line : Nat} (h : s0.Keeps b s) :
    s0.Keeps b (State.setPoison s line) := by
  unfold State.setPoison
  repeat' with_reducible first | assumption | refine keeps_mk (keeps_up ?_)

theorem State.dramWrite_keeps {s : State} {m : Master} {a : Nat} {data : List Byte} {poison : Bool} (h : s0.Keeps false s) :
    s0.Keeps false (State.dramWrite s m a data poison).2 := by
  unfold State.dramWrite
  repeat' with_reducible first
    | assumption | refine keeps_ite (fun _ => ?_) (fun _ => ?_) | refine State.mcCharge_keeps ?_ | refine State.store_keeps ?_
    | refine State.cleanBytes_keeps ?_ | refine State.setByte_keeps ?_ | refine State.event_keeps ?_ | refine State.errLog_keeps ?_
    | refine State.setPoison_keeps ?_ | refine keeps_foldl ?_ (fun _ _ _ => ?_)

theorem State.planeWrite_keeps {s : State} {p : Nat} {off : Nat} {data : List Byte} (h : s0.Keeps false s) :
    s0.Keeps false (State.planeWrite s p off data).2 := by
  unfold State.planeWrite
  repeat' with_reducible first | assumption | refine keeps_ite₁ (fun _ => ?_) (fun _ => ?_) | refine State.store_keeps ?_

theorem State.engineWrite_keeps {s : State} {m : Master} {e : Nat} {off : Nat} {data : List Byte} (h : s0.Keeps false s) :
    s0.Keeps false (State.engineWrite s m e off data).2 := by
  unfold State.engineWrite
  repeat' with_reducible first | assumption | refine keeps_ite₁ (fun _ => ?_) (fun _ => ?_) | refine State.store_keeps ?_

theorem State.mbxWrite_keeps {s : State} {m : Master} {a : Nat} {data : List Byte} (h : s0.Keeps false s) :
    s0.Keeps false (State.mbxWrite s m a data) := by
  unfold State.mbxWrite
  repeat' with_reducible first
    | assumption | refine keeps_ite (fun _ => ?_) (fun _ => ?_) | refine State.store_keeps ?_ | refine State.reject_keeps ?_

theorem State.busWrite_keeps {s : State} {m : Master} {a : Nat} {data : List Byte} {poison : Bool} (h : s0.Keeps false s) :
    s0.Keeps false (State.busWrite s m a data poison).2 := by
  unfold State.busWrite
  repeat' with_reducible first
    | assumption | refine keeps_ite₁ (fun _ => ?_) (fun _ => ?_) | refine State.dramWrite_keeps ?_ | refine State.storePort_keeps ?_
    | refine State.planeWrite_keeps ?_ | refine State.engineWrite_keeps ?_ | refine State.store_keeps ?_ | refine State.mbxWrite_keeps ?_
    | split

theorem State.busWriteLong_keeps {s : State} {m : Master} {poison : Bool} {x4 : Nat} {x5 : Nat} {x6 : List Byte} (h : s0.Keeps false s) :
    s0.Keeps false (State.busWriteLong s m poison x4 x5 x6).2 := by
  induction x4 generalizing s x5 x6 with
  | zero => exact h
  | succ n ih =>
    rw [State.busWriteLong]
    repeat' with_reducible first
      | assumption | apply ih | refine keeps_ite₁ (fun _ => ?_) (fun _ => ?_) | refine State.busWrite_keeps ?_

theorem State.busPut_keeps {s : State} {m : Master} {a : Nat} {d : List Byte} {poison : Bool} (h : s0.Keeps false s) :
    s0.Keeps false (State.busPut s m a d poison).2 := by
  unfold State.busPut
  repeat' with_reducible first | assumption | refine State.busWriteLong_keeps ?_

theorem State.dramRead_keeps {s : State} {m : Master} {a : Nat} {len : Nat} (h : s0.Keeps b s) :
    s0.Keeps b (State.dramRead s m a len).2.2 := by
  unfold State.dramRead
  repeat' with_reducible first | assumption | refine State.mcCharge_keeps ?_ | refine State.bumpBy_keeps ?_

theorem State.mbxRead_keeps {s : State} {m : Master} {a : Nat} {len : Nat} (h : s0.Keeps b s) :
    s0.Keeps b (State.mbxRead s m a len).2 := by
  unfold State.mbxRead
  repeat' with_reducible first | assumption | refine keeps_ite₁ (fun _ => ?_) (fun _ => ?_) | refine State.reject_keeps ?_

theorem State.busRead_keeps {s : State} {m : Master} {a : Nat} {len : Nat} (h : s0.Keeps false s) :
    s0.Keeps false (State.busRead s m a len).2.2.2 := by
  unfold State.busRead
  repeat' with_reducible first
    | assumption | refine keeps_ite₃ (fun _ => ?_) (fun _ => ?_) | refine State.dramRead_keeps ?_ | refine State.storePort_keeps ?_
    | refine State.mbxRead_keeps ?_ | split

theorem State.busReadLong_keeps {s : State} {m : Master} {x3 : Nat} {x4 : Nat} {x5 : Nat} (h : s0.Keeps false s) :
    s0.Keeps false (State.busReadLong s m x3 x4 x5).2.2.2 := by
  induction x3 generalizing s x4 x5 with
  | zero => exact h
  | succ n ih =>
    rw [State.busReadLong]
    repeat' with_reducible first
      | assumption | apply ih | refine keeps_ite₃ (fun _ => ?_) (fun _ => ?_) | refine State.busRead_keeps ?_

theorem State.busGet_keeps {s : State} {m : Master} {a : Nat} {len : Nat} (h : s0.Keeps false s) :
    s0.Keeps false (State.busGet s m a len).2.2.2 := by
  unfold State.busGet
  repeat' with_reducible first | assumption | refine State.busReadLong_keeps ?_

end Sys2Proof.Machine
end

