-- ==== Sys2Proof/Laws/KeepsKvOps.lean ====
section
/-!
SUPPORT. What the operations of Machine/KvOps.lean keep.
-/

set_option linter.all false

namespace Sys2Proof.Machine

variable {b : Bool} {s0 : State}

theorem State.kvEnded_keeps {s : State} {job : Nat} (h : s0.Keeps b s) :
    s0.Keeps b (State.kvEnded s job) := by
  unfold State.kvEnded
  repeat' with_reducible first | assumption | refine keeps_mk (keeps_up ?_)

theorem State.setSe_keeps {s : State} {n : Nat} {f : TabField} {v : Nat} (h : s0.Keeps false s) :
    s0.Keeps false (State.setSe s n f v) := by
  unfold State.setSe
  repeat' with_reducible first | assumption | refine State.st_keeps ?_

theorem State.poolInit_keeps {s : State} {p : Nat} (h : s0.Keeps false s) :
    s0.Keeps false (State.poolInit s p) := by
  unfold State.poolInit
  repeat' with_reducible first
    | assumption | refine keeps_ite (fun _ => ?_) (fun _ => ?_) | refine State.st_keeps ?_ | refine State.wr_keeps ?_
    | refine keeps_foldl ?_ (fun _ _ _ => ?_) | refine keeps_mk (keeps_up ?_)

theorem State.setPd_keeps {s : State} {n : Nat} {f : TabField} {v : Nat} (h : s0.Keeps false s) :
    s0.Keeps false (State.setPd s n f v) := by
  unfold State.setPd
  repeat' with_reducible first | assumption | refine State.st_keeps ?_

theorem State.setPdOn_keeps {s : State} {n : Nat} {i : Nat} {x4 : Bool} (h : s0.Keeps false s) :
    s0.Keeps false (State.setPdOn s n i x4) := by
  unfold State.setPdOn
  repeat' with_reducible first | assumption | refine State.setPd_keeps ?_

theorem State.aeGet_keeps {s : State} {e : Nat} {m : Master} {a : Nat} {len : Nat} (h : s0.Keeps false s) :
    s0.Keeps false (State.aeGet s e m a len).2.2.2 := by
  unfold State.aeGet
  repeat' with_reducible first
    | assumption | refine keeps_ite (fun _ => ?_) (fun _ => ?_) | refine State.busGet_keeps ?_ | refine State.wr_keeps ?_

theorem State.popPage_keeps {s : State} {p : Nat} {x3 : Nat} (h : s0.Keeps b s) :
    ∀ x, State.popPage s p x3 = some x → s0.Keeps b x.2 := by
  induction x3 generalizing s with
  | zero => intro x e; cases e
  | succ n ih =>
    rw [State.popPage]
    dsimp only
    split
    · intro x e; cases e
    · split
      · exact ih h
      · intro x e; cases e; exact State.wr_keeps h

theorem State.popPages_keeps {s : State} {p : Nat} {x3 : Nat} (h : s0.Keeps b s) :
    s0.Keeps b (State.popPages s p x3).2 := by
  induction x3 generalizing s with
  | zero => exact h
  | succ n ih =>
    rw [State.popPages]
    split
    · exact h
    · exact ih (keeps_some (by assumption) (State.popPage_keeps h))

theorem State.setDr_keeps {s : State} {n : Nat} {f : TabField} {v : Nat} (h : s0.Keeps false s) :
    s0.Keeps false (State.setDr s n f v) := by
  unfold State.setDr
  repeat' with_reducible first | assumption | refine State.st_keeps ?_

theorem State.sourceRowsAt_keeps {s : State} {k : KvJob} {base : Nat} {len : Nat} {stride : Nat} {x6 : Nat} {x7 : Nat} (h : s0.Keeps false s) :
    s0.Keeps false (State.sourceRowsAt s k base len stride x6 x7).2.2.2 := by
  induction x6 generalizing s x7 with
  | zero => exact h
  | succ n ih =>
    rw [State.sourceRowsAt]
    repeat' with_reducible first
      | assumption | apply ih | refine keeps_ite₃ (fun _ => ?_) (fun _ => ?_) | refine State.aeGet_keeps ?_

theorem State.sourceRows_keeps {s : State} {k : KvJob} {base : Nat} {len : Nat} {stride : Nat} {n : Nat} (h : s0.Keeps false s) :
    s0.Keeps false (State.sourceRows s k base len stride n).2.2.2 := by
  unfold State.sourceRows
  repeat' with_reducible first | assumption | refine State.sourceRowsAt_keeps ?_

theorem State.setPte_keeps {s : State} {q : Nat} {l : Nat} {x4 : Nat} {x5 : Nat} {v : Nat} (h : s0.Keeps false s) :
    s0.Keeps false (State.setPte s q l x4 x5 v) := by
  unfold State.setPte
  repeat' with_reducible first | assumption | refine State.st_keeps ?_

theorem State.takeFor_keeps {s : State} {k : KvJob} {x3 : Nat} {x4 : Nat} {n : Nat} (h : s0.Keeps false s) :
    s0.Keeps false (State.takeFor s k x3 x4 n) := by
  unfold State.takeFor
  repeat' with_reducible first
    | assumption | refine State.store_keeps ?_ | refine State.setSe_keeps ?_ | refine State.setPte_keeps ?_

theorem State.freePage_keeps {s : State} {n : Nat} {by_ : Nat} (h : s0.Keeps false s) :
    s0.Keeps false (State.freePage s n by_) := by
  unfold State.freePage
  repeat' with_reducible first
    | assumption | refine keeps_ite (fun _ => ?_) (fun _ => ?_) | refine State.setPdOn_keeps ?_ | refine State.setPd_keeps ?_
    | refine State.wr_keeps ?_ | refine keeps_mk (keeps_up ?_)

theorem State.evict_keeps {s : State} {q : Nat} {l : Nat} {x4 : Nat} {x5 : Nat} {by_ : Nat} (h : s0.Keeps false s) :
    s0.Keeps false (State.evict s q l x4 x5 by_) := by
  unfold State.evict
  repeat' with_reducible first
    | assumption | refine State.setSe_keeps ?_ | refine State.setPte_keeps ?_ | refine State.bump_keeps ?_
    | refine State.freePage_keeps ?_

theorem State.keepPages_keeps {s : State} {k : KvJob} {l : Nat} {x4 : Nat} {x5 : Nat} {x6 : Nat} (h : s0.Keeps false s) :
    s0.Keeps false (State.keepPages s k l x4 x5 x6).2 := by
  induction x5 generalizing s x6 with
  | zero => exact h
  | succ n ih =>
    rw [State.keepPages]
    repeat' with_reducible first
      | assumption | apply ih | refine keeps_ite₁ (fun _ => ?_) (fun _ => ?_) | refine State.evict_keeps ?_ | refine State.bump_keeps ?_
      | split

theorem State.appendRow_keeps {s : State} {k : KvJob} {x3 : Nat} {pos : Nat} {kr : List Val} {vr : List Val} (h : s0.Keeps false s) :
    s0.Keeps false (State.appendRow s k x3 pos kr vr) := by
  unfold State.appendRow
  repeat' with_reducible first
    | assumption | refine keeps_ite (fun _ => ?_) (fun _ => ?_) | refine State.dramWrite_keeps ?_ | refine State.setPdOn_keeps ?_
    | refine State.setPd_keeps ?_

theorem State.centroid_keeps {s : State} {p : Prof} {page : Nat} (h : s0.Keeps false s) :
    s0.Keeps false (State.centroid s p page) := by
  unfold State.centroid
  repeat' with_reducible first | assumption | refine State.setPdOn_keeps ?_ | refine State.store_keeps ?_

theorem State.centroids_keeps {s : State} {q : Nat} {l : Nat} {x4 : Nat} (h : s0.Keeps false s) :
    s0.Keeps false (State.centroids s q l x4) := by
  unfold State.centroids
  repeat' with_reducible first
    | assumption | refine keeps_ite (fun _ => ?_) (fun _ => ?_) | refine State.centroid_keeps ?_ | refine keeps_foldl ?_ (fun _ _ _ => ?_)

theorem State.appendTake_keeps {s : State} {k : KvJob} {evicted : Nat} (h : s0.Keeps false s) :
    s0.Keeps false (State.appendTake s k evicted).s := by
  unfold State.appendTake
  repeat' with_reducible first
    | assumption | refine keeps_ite (fun _ => ?_) (fun _ => ?_) | refine State.popPages_keeps ?_ | refine State.wr_keeps ?_
    | refine State.sourceRows_keeps ?_ | refine State.takeFor_keeps ?_ | refine State.keepPages_keeps ?_ | refine State.appendRow_keeps ?_
    | refine State.centroids_keeps ?_ | refine State.setSe_keeps ?_ | refine keeps_foldl ?_ (fun _ _ _ => ?_)
    | refine keeps_foldl₁ ?_ (fun _ _ _ => ?_) | fail_if_no_progress (refine keeps_mk (keeps_up ?_)) | split | dsimp only

theorem State.dirMatch_keeps {s : State} {x : Nat} {chk : Nat} {parent : Nat} {prof : Nat} {part : Nat} (h : s0.Keeps b s) :
    s0.Keeps b (State.dirMatch s x chk parent prof part).2 := by
  unfold State.dirMatch
  repeat' with_reducible first | assumption | refine State.bump_keeps ?_ | refine keeps_foldl ?_ (fun _ _ _ => ?_)

theorem State.matchBlocks_keeps {s : State} {k : KvJob} {x3 : Nat} {x4 : Nat} {x5 : Nat} {x6 : Nat} (h : s0.Keeps false s) :
    s0.Keeps false (State.matchBlocks s k x3 x4 x5 x6).2.2.2.2 := by
  induction x3 generalizing s x4 x5 x6 with
  | zero => exact h
  | succ n ih =>
    rw [State.matchBlocks]
    repeat' with_reducible first
      | assumption | apply ih | split | refine keeps_snd (by assumption) ?_ | refine keeps_snd₃ (by assumption) ?_
      | refine State.aeGet_keeps ?_ | refine State.dirMatch_keeps ?_ | refine State.setPd_keeps ?_ | refine State.setPte_keeps ?_
      | refine State.setDr_keeps ?_ | refine State.setSe_keeps ?_ | refine keeps_foldl ?_ (fun _ _ _ => ?_) | dsimp only

theorem State.kvOpen_keeps {s : State} {k : KvJob} (h : s0.Keeps false s) :
    s0.Keeps false (State.kvOpen s k).s := by
  unfold State.kvOpen
  repeat' with_reducible first
    | assumption | refine State.bump_keeps ?_ | refine State.store_keeps ?_ | refine State.matchBlocks_keeps ?_
    | refine State.setSe_keeps ?_ | split | dsimp only

theorem State.kvSelect_keeps {s : State} {k : KvJob} (h : s0.Keeps false s) :
    s0.Keeps false (State.kvSelect s k).s := by
  unfold State.kvSelect
  repeat' with_reducible first
    | assumption | split | refine keeps_snd (by assumption) ?_ | refine State.draw_keeps ?_ | refine State.aeGet_keeps ?_
    | refine State.drawBytes_keeps ?_ | refine State.busPut_keeps ?_ | dsimp only

theorem State.markRetired_keeps {s : State} {q : Nat} (h : s0.Keeps false s) :
    s0.Keeps false (State.markRetired s q) := by
  unfold State.markRetired
  repeat' with_reducible first
    | assumption | refine keeps_ite (fun _ => ?_) (fun _ => ?_) | refine State.setSe_keeps ?_ | refine State.setPte_keeps ?_
    | refine keeps_foldl ?_ (fun _ _ _ => ?_)

theorem State.dropRef_keeps {s : State} {n : Nat} {by_ : Nat} (h : s0.Keeps false s) :
    s0.Keeps false (State.dropRef s n by_).2 := by
  unfold State.dropRef
  repeat' with_reducible first
    | assumption | refine keeps_ite₁ (fun _ => ?_) (fun _ => ?_) | refine State.freePage_keeps ?_ | refine State.setPd_keeps ?_

theorem State.reclaim_keeps {s : State} {n : Nat} {by_ : Nat} (h : s0.Keeps false s) :
    s0.Keeps false (State.reclaim s n by_) := by
  unfold State.reclaim
  repeat' with_reducible first
    | assumption | refine keeps_ite (fun _ => ?_) (fun _ => ?_) | refine State.dropRef_keeps ?_ | refine State.setPdOn_keeps ?_
    | refine State.setDr_keeps ?_ | refine State.bump_keeps ?_ | refine State.store_keeps ?_ | refine keeps_foldl ?_ (fun _ _ _ => ?_)

theorem State.makeRoom_keeps {s : State} {k : KvJob} {need : Nat} {thr : Nat} {x5 : Nat} {x6 : Nat} (h : s0.Keeps false s) :
    s0.Keeps false (State.makeRoom s k need thr x5 x6).2.2 := by
  induction x5 generalizing s x6 with
  | zero => exact h
  | succ n ih =>
    rw [State.makeRoom]
    repeat' with_reducible first
      | assumption | apply ih | refine keeps_ite₂ (fun _ => ?_) (fun _ => ?_) | refine State.reclaim_keeps ?_
      | refine State.evict_keeps ?_ | split | dsimp only

theorem State.kvAppend_keeps {s : State} {k : KvJob} (h : s0.Keeps false s) :
    s0.Keeps false (State.kvAppend s k).s := by
  unfold State.kvAppend
  repeat' with_reducible first
    | assumption | refine State.markRetired_keeps ?_ | refine State.makeRoom_keeps ?_ | refine State.appendTake_keeps ?_
    | refine State.bump_keeps ?_ | split | dsimp only

theorem State.kvCommit_keeps {s : State} {k : KvJob} (h : s0.Keeps false s) :
    s0.Keeps false (State.kvCommit s k).s := by
  unfold State.kvCommit
  repeat' with_reducible first
    | assumption | refine keeps_ite (fun _ => ?_) (fun _ => ?_) | refine State.markRetired_keeps ?_ | refine State.setPd_keeps ?_
    | refine State.setSe_keeps ?_ | refine State.centroids_keeps ?_ | refine keeps_foldl ?_ (fun _ _ _ => ?_) | split | dsimp only

theorem State.cutBlock_keeps {s : State} {k : KvJob} {l : Nat} {x4 : Nat} {x5 : Nat} {r : Nat} (h : s0.Keeps false s) :
    s0.Keeps false (State.cutBlock s k l x4 x5 r).2 := by
  unfold State.cutBlock
  repeat' with_reducible first
    | assumption | refine keeps_ite₁ (fun _ => ?_) (fun _ => ?_) | refine State.setPte_keeps ?_ | refine State.freePage_keeps ?_
    | refine State.setSe_keeps ?_ | refine State.setPdOn_keeps ?_ | refine State.setPd_keeps ?_

theorem State.kvRollback_keeps {s : State} {k : KvJob} (h : s0.Keeps false s) :
    s0.Keeps false (State.kvRollback s k).s := by
  unfold State.kvRollback
  repeat' with_reducible first
    | assumption | refine State.markRetired_keeps ?_ | refine State.cutBlock_keeps ?_ | refine State.setSe_keeps ?_
    | refine State.centroids_keeps ?_ | refine keeps_foldl ?_ (fun _ _ _ => ?_) | refine keeps_foldl₁ ?_ (fun _ _ _ => ?_) | split
    | dsimp only

theorem State.insertNode_keeps {s : State} {k : KvJob} {i : Nat} {x : Nat} {chk : Nat} {x6 : Nat} (h : s0.Keeps false s) :
    s0.Keeps false (State.insertNode s k i x chk x6) := by
  unfold State.insertNode
  repeat' with_reducible first
    | assumption | refine keeps_ite (fun _ => ?_) (fun _ => ?_) | refine State.store_keeps ?_ | refine State.st_keeps ?_
    | refine State.setPdOn_keeps ?_ | refine State.setPd_keeps ?_ | refine State.setPte_keeps ?_ | refine State.setDr_keeps ?_
    | refine keeps_foldl ?_ (fun _ _ _ => ?_)

theorem State.kvPublish_keeps {s : State} {k : KvJob} (h : s0.Keeps false s) :
    s0.Keeps false (State.kvPublish s k).s := by
  unfold State.kvPublish
  repeat' with_reducible first
    | assumption | split | refine keeps_snd (by assumption) ?_ | refine keeps_snd₃ (by assumption) ?_ | refine State.draw_keeps ?_
    | refine State.aeGet_keeps ?_ | refine State.setSe_keeps ?_ | refine State.dirMatch_keeps ?_ | refine State.setDr_keeps ?_
    | refine State.insertNode_keeps ?_ | refine State.reclaim_keeps ?_ | refine State.bump_keeps ?_ | dsimp only

theorem State.kvClose_keeps {s : State} {k : KvJob} (h : s0.Keeps false s) :
    s0.Keeps false (State.kvClose s k).s := by
  unfold State.kvClose
  repeat' with_reducible first
    | assumption | refine keeps_foldl₂ ?_ (fun _ _ _ => ?_) | refine keeps_ite₂ (fun _ => ?_) (fun _ => ?_)
    | refine State.markRetired_keeps ?_ | refine State.dropRef_keeps ?_ | refine State.setDr_keeps ?_ | refine State.setSe_keeps ?_
    | refine keeps_foldl ?_ (fun _ _ _ => ?_)

theorem State.kvOp_keeps {s : State} {k : KvJob} {waited : Option Nat} (h : s0.Keeps false s) :
    s0.Keeps false (State.kvOp s k waited).s := by
  unfold State.kvOp
  repeat' with_reducible first
    | assumption | split | refine keeps_snd (by assumption) ?_ | refine State.draw_keeps ?_ | refine State.appendTake_keeps ?_
    | refine State.kvOpen_keeps ?_ | refine State.kvSelect_keeps ?_ | refine State.kvAppend_keeps ?_ | refine State.kvCommit_keeps ?_
    | refine State.kvRollback_keeps ?_ | refine State.kvPublish_keeps ?_ | refine State.kvClose_keeps ?_

theorem State.retirePage_keeps {s : State} {n : Nat} (h : s0.Keeps false s) :
    s0.Keeps false (State.retirePage s n).2 := by
  unfold State.retirePage
  repeat' with_reducible first
    | assumption | refine keeps_ite (fun _ => ?_) (fun _ => ?_) | refine keeps_ite₁ (fun _ => ?_) (fun _ => ?_)
    | refine State.setPd_keeps ?_ | refine State.setPdOn_keeps ?_ | refine State.wr_keeps ?_ | refine State.bumpW_keeps ?_
    | fail_if_no_progress (refine keeps_mk (keeps_up ?_)) | split

theorem State.pushPage_keeps {s : State} {p : Nat} {n : Nat} (h : s0.Keeps false s) :
    s0.Keeps false (State.pushPage s p n) := by
  unfold State.pushPage
  repeat' with_reducible first
    | assumption | refine State.st_keeps ?_ | refine State.wr_keeps ?_ | refine keeps_mk (keeps_up ?_)

theorem State.limboRelease_keeps {s : State} (h : s0.Keeps false s) :
    s0.Keeps false (State.limboRelease s) := by
  unfold State.limboRelease
  repeat' with_reducible first
    | assumption | refine State.pushPage_keeps ?_ | refine State.wr_keeps ?_ | fail_if_no_progress (refine keeps_mk (keeps_up ?_)) | split

end Sys2Proof.Machine
end

