-- ==== Sys2Proof/Laws/KeepsAttnOps.lean ====
section
/-!
SUPPORT. What the operations of Machine/AttnOps.lean keep.
-/

set_option linter.all false

namespace Sys2Proof.Machine

variable {b : Bool} {s0 : State}

theorem keeps_foldlL {ι : Type} {f : SliceAcc → ι → SliceAcc} {l : List ι} {i : SliceAcc} (h : s0.Keeps b i.s)
    (hf : ∀ x a, s0.Keeps b x.s → s0.Keeps b (f x a).s) : s0.Keeps b (l.foldl f i).s := by
  induction l generalizing i with
  | nil => exact h
  | cons a r ih => exact ih (hf i a h)

theorem keeps_iteL {c : Prop} [Decidable c] {x y : SliceAcc} (hx : c → s0.Keeps b x.s) (hy : ¬c → s0.Keeps b y.s) :
    s0.Keeps b (if c then x else y).s := by
  split
  · exact hx ‹_›
  · exact hy ‹_›

theorem State.aeResetDone_keeps {s : State} {e : Nat} (h : s0.Keeps b s) :
    s0.Keeps b (State.aeResetDone s e) := by
  unfold State.aeResetDone
  repeat' with_reducible first
    | assumption | refine keeps_ite (fun _ => ?_) (fun _ => ?_) | refine State.wr_keeps ?_ | refine State.setUstate_keeps ?_

theorem State.setAe_keeps {s : State} {e : Nat} {x : AeSt} (h : s0.Keeps b s) :
    s0.Keeps b (State.setAe s e x) := by
  unfold State.setAe
  repeat' with_reducible first
    | assumption | refine keeps_ite (fun _ => ?_) (fun _ => ?_) | refine State.wr_keeps ?_ | refine State.setEng_keeps ?_
    | refine State.setUstate_keeps ?_

theorem State.dropSlices_keeps {s : State} {e : Nat} (h : s0.Keeps b s) :
    s0.Keeps b (State.dropSlices s e) := by
  unfold State.dropSlices
  repeat' with_reducible first
    | assumption | refine keeps_ite (fun _ => ?_) (fun _ => ?_) | refine State.setEng_keeps ?_ | refine keeps_foldl ?_ (fun _ _ _ => ?_)

theorem State.aeAnswer_keeps {s : State} {e : Nat} {status : Nat} (h : s0.Keeps b s) :
    s0.Keeps b (State.aeAnswer s e status) := by
  unfold State.aeAnswer
  repeat' with_reducible first
    | assumption | refine State.answer_keeps ?_ | refine State.kvEnded_keeps ?_ | refine State.setAe_keeps ?_
    | refine State.dropSlices_keeps ?_ | refine keeps_foldl ?_ (fun _ _ _ => ?_)

theorem State.aeEnd_keeps {s : State} {e : Nat} {r : AeRun} {status : Nat} (h : s0.Keeps b s) :
    s0.Keeps b (State.aeEnd s e r status) := by
  unfold State.aeEnd
  repeat' with_reducible first | assumption | refine State.setAe_keeps ?_

theorem State.failSlices_keeps {s : State} {e : Nat} {status : Nat} (h : s0.Keeps b s) :
    s0.Keeps b (State.failSlices s e status) := by
  unfold State.failSlices
  repeat' with_reducible first
    | assumption | refine keeps_ite (fun _ => ?_) (fun _ => ?_) | refine State.aeEnd_keeps ?_ | refine State.dropSlices_keeps ?_
    | refine State.setEng_keeps ?_ | refine keeps_foldl ?_ (fun _ _ _ => ?_) | split

theorem State.aeLeave_keeps {s : State} {e : Nat} {st : Nat} (h : s0.Keeps b s) :
    s0.Keeps b (State.aeLeave s e st) := by
  unfold State.aeLeave
  repeat' with_reducible first
    | assumption | refine keeps_ite (fun _ => ?_) (fun _ => ?_) | refine State.setUstate_keeps ?_ | refine State.aeAnswer_keeps ?_
    | refine State.failSlices_keeps ?_

theorem State.aeEnter_keeps {s : State} {e : Nat} {st : Nat} (h : s0.Keeps false s) :
    s0.Keeps false (State.aeEnter s e st) := by
  unfold State.aeEnter
  repeat' with_reducible first
    | assumption | refine keeps_ite (fun _ => ?_) (fun _ => ?_) | refine State.aeLeave_keeps ?_ | refine State.bumpEpoch_keeps ?_
    | refine State.zeroRange_keeps ?_ | refine State.wr_keeps ?_

theorem State.aeReset_keeps {s : State} {e : Nat} (h : s0.Keeps false s) :
    s0.Keeps false (State.aeReset s e) := by
  unfold State.aeReset
  repeat' with_reducible first
    | assumption | refine keeps_ite (fun _ => ?_) (fun _ => ?_) | refine State.reject_keeps ?_ | refine State.aeEnter_keeps ?_
    | refine State.holdEpoch_keeps ?_

theorem State.kvEnable_keeps {s : State} {on : Bool} (h : s0.Keeps false s) :
    s0.Keeps false (State.kvEnable s on) := by
  unfold State.kvEnable
  repeat' with_reducible first
    | assumption | refine keeps_ite (fun _ => ?_) (fun _ => ?_) | refine State.wr_keeps ?_ | refine State.zeroRange_keeps ?_
    | refine State.setSe_keeps ?_ | refine State.poolInit_keeps ?_ | refine State.setPdOn_keeps ?_
    | refine keeps_foldl ?_ (fun _ _ _ => ?_)

theorem State.aeWrite_keeps {s : State} {r : Req} {e : Nat} {off : Nat} {d : WData} (h : s0.Keeps false s) :
    s0.Keeps false (State.aeWrite s r e off d) := by
  unfold State.aeWrite
  repeat' with_reducible first
    | assumption | refine keeps_ite (fun _ => ?_) (fun _ => ?_) | refine State.reject_keeps ?_ | refine State.aeReset_keeps ?_
    | refine State.wr_keeps ?_ | refine State.writeReg_keeps ?_ | refine State.kvEnable_keeps ?_

theorem State.atInputs_keeps {s : State} {e : Nat} {m : Master} {x : AtDesc} {n : LtEntry} (h : s0.Keeps false s) :
    s0.Keeps false (State.atInputs s e m x n).2.2.2 := by
  unfold State.atInputs
  repeat' with_reducible first | assumption | refine keeps_ite₃ (fun _ => ?_) (fun _ => ?_) | refine State.aeGet_keeps ?_

theorem State.readPage_keeps {s : State} {e : Nat} {m : Master} {p : Prof} {pg : Nat} {x6 : Nat} (h : s0.Keeps b s) :
    s0.Keeps b (State.readPage s e m p pg x6).2.2 := by
  unfold State.readPage
  repeat' with_reducible first
    | assumption | refine State.mcCharge_keeps ?_ | refine State.bumpW_keeps ?_ | refine State.wr_keeps ?_ | refine State.bumpBy_keeps ?_

theorem State.listPages_keeps {s : State} {e : Nat} {m : Master} {x : AtDesc} {n : LtEntry} {part : Nat} {x7 : Nat} {ds : List Byte} {x9 : Nat} (h : s0.Keeps b s) :
    s0.Keeps b (State.listPages s e m x n part x7 ds x9).2.2.2.2 := by
  induction x9 with
  | zero => exact h
  | succ n ih =>
    rw [State.listPages]
    repeat' with_reducible first
      | assumption | exact ih | split | refine keeps_snd₂ (by assumption) ?_ | refine keeps_snd₄ (by assumption) ?_
      | refine State.bump_keeps ?_ | refine State.readPage_keeps ?_

theorem State.aeSlice_keeps {s : State} {e : Nat} {part : Nat} {x : AtDesc} {n : LtEntry} {i0 : Nat} {len : Nat} (h : s0.Keeps false s) :
    s0.Keeps false (State.aeSlice s e part x n i0 len).2.2 := by
  unfold State.aeSlice
  repeat' with_reducible first
    | assumption | refine keeps_foldlL ?_ (fun _ _ _ => ?_) | refine keeps_iteL (fun _ => ?_) (fun _ => ?_)
    | refine keeps_ite₂ (fun _ => ?_) (fun _ => ?_) | refine State.atInputs_keeps ?_ | refine State.aeGet_keeps ?_
    | refine State.listPages_keeps ?_

theorem State.doSlice_keeps {s : State} {owner : Nat} {e : Nat} {place : Nat} {r : AeRun} (h : s0.Keeps false s) :
    s0.Keeps false (State.doSlice s owner e place r) := by
  unfold State.doSlice
  repeat' with_reducible first
    | assumption | refine keeps_ite (fun _ => ?_) (fun _ => ?_) | refine State.aeSlice_keeps ?_ | refine State.setAe_keeps ?_
    | refine State.aeEnd_keeps ?_ | refine State.dropSlices_keeps ?_

theorem State.putAll_keeps {s : State} {m : Master} {x3 : List (Nat × List Byte × Bool)} (h : s0.Keeps false s) :
    s0.Keeps false (State.putAll s m x3).2 := by
  induction x3 generalizing s with
  | nil => exact h
  | cons a r ih =>
    rw [State.putAll]
    repeat' with_reducible first
      | assumption | apply ih | refine keeps_ite₁ (fun _ => ?_) (fun _ => ?_) | refine State.busPut_keeps ?_

theorem State.retainProbs_keeps {s : State} {e : Nat} {part : Nat} {x : AtDesc} {n : LtEntry} {z : AeSlice} (h : s0.Keeps false s) :
    s0.Keeps false (State.retainProbs s e part x n z).2 := by
  unfold State.retainProbs
  repeat' with_reducible first
    | assumption | refine keeps_ite₁ (fun _ => ?_) (fun _ => ?_) | refine State.atInputs_keeps ?_ | refine State.aeGet_keeps ?_
    | refine State.listPages_keeps ?_ | refine State.putAll_keeps ?_ | refine keeps_foldl₁ ?_ (fun _ _ _ => ?_)

theorem State.scorePage_keeps {s : State} {e : Nat} {f : Nat} {pg : Nat} {mu : Option Val} (h : s0.Keeps false s) :
    s0.Keeps false (State.scorePage s e f pg mu) := by
  unfold State.scorePage
  repeat' with_reducible first | assumption | refine State.draw_keeps ?_ | refine State.setPd_keeps ?_

theorem State.scoreLists_keeps {s : State} {e : Nat} {part : Nat} {x : AtDesc} {n : LtEntry} {z : AeSlice} (h : s0.Keeps false s) :
    s0.Keeps false (State.scoreLists s e part x n z) := by
  unfold State.scoreLists
  repeat' with_reducible first
    | assumption | refine keeps_ite (fun _ => ?_) (fun _ => ?_) | refine State.scorePage_keeps ?_
    | refine keeps_foldl ?_ (fun _ _ _ => ?_) | split

theorem State.aeFinish_keeps {s : State} {e : Nat} {part : Nat} {k : Nat} {engines : Nat} {x : AtDesc} {n : LtEntry} {z : AeSlice} (h : s0.Keeps false s) :
    s0.Keeps false (State.aeFinish s e part k engines x n z).2 := by
  unfold State.aeFinish
  repeat' with_reducible first
    | assumption | refine keeps_ite (fun _ => ?_) (fun _ => ?_) | refine keeps_ite₁ (fun _ => ?_) (fun _ => ?_)
    | refine State.putAll_keeps ?_ | refine State.retainProbs_keeps ?_ | refine State.scoreLists_keeps ?_ | refine State.busPut_keeps ?_
    | refine State.bumpBy_keeps ?_

theorem State.doMerge_keeps {s : State} {e : Nat} {r : AeRun} (h : s0.Keeps false s) :
    s0.Keeps false (State.doMerge s e r) := by
  unfold State.doMerge
  repeat' with_reducible first
    | assumption | refine keeps_ite (fun _ => ?_) (fun _ => ?_) | refine State.aeFinish_keeps ?_ | refine State.aeEnd_keeps ?_
    | refine State.setAe_keeps ?_ | split

theorem State.doEntry_keeps {s : State} {e : Nat} {r : AeRun} (h : s0.Keeps false s) :
    s0.Keeps false (State.doEntry s e r) := by
  unfold State.doEntry
  repeat' with_reducible first
    | assumption | refine keeps_ite (fun _ => ?_) (fun _ => ?_) | refine State.setEng_keeps ?_ | refine State.doSlice_keeps ?_
    | refine State.doMerge_keeps ?_ | refine keeps_foldl ?_ (fun _ _ _ => ?_) | split | dsimp only

theorem State.aePartReset_keeps {s : State} {p : Nat} (h : s0.Keeps false s) :
    s0.Keeps false (State.aePartReset s p) := by
  unfold State.aePartReset
  repeat' with_reducible first
    | assumption | refine keeps_ite (fun _ => ?_) (fun _ => ?_) | refine State.aeAnswer_keeps ?_ | refine State.failSlices_keeps ?_
    | refine State.setSe_keeps ?_ | refine State.poolInit_keeps ?_ | refine keeps_foldl ?_ (fun _ _ _ => ?_)

theorem State.aeFault_keeps {s : State} {e : Nat} (h : s0.Keeps b s) :
    s0.Keeps b (State.aeFault s e) := by
  unfold State.aeFault
  repeat' with_reducible first | assumption | refine State.event_keeps ?_ | refine State.aeLeave_keeps ?_

theorem State.aeRestDone_keeps {s : State} {e : Nat} {fault : Bool} {part : Nat} (h : s0.Keeps b s) :
    s0.Keeps b (State.aeRestDone s e fault part) := by
  unfold State.aeRestDone
  repeat' with_reducible first
    | assumption | refine keeps_ite (fun _ => ?_) (fun _ => ?_) | refine State.aeFault_keeps ?_ | refine State.event_keeps ?_
    | refine State.bump_keeps ?_ | refine State.setUstate_keeps ?_

theorem State.aeRestEnter_keeps {s : State} {e : Nat} (h : s0.Keeps b s) :
    s0.Keeps b (State.aeRestEnter s e) := by
  unfold State.aeRestEnter
  repeat' with_reducible first
    | assumption | refine keeps_ite (fun _ => ?_) (fun _ => ?_) | refine State.bumpBy_keeps ?_ | refine State.aeLeave_keeps ?_
    | refine State.bump_keeps ?_ | refine State.wr_keeps ?_

theorem State.aeBegin_keeps {s : State} {e : Nat} {m : Msg} (h : s0.Keeps b s) :
    s0.Keeps b (State.aeBegin s e m).2 := by
  unfold State.aeBegin
  repeat' with_reducible first | assumption | refine State.setAe_keeps ?_ | refine keeps_mk (keeps_up ?_)

theorem State.aeKv_keeps {s : State} {e : Nat} {op : Nat} (h : s0.Keeps false s) :
    s0.Keeps false (State.aeKv s e op) := by
  unfold State.aeKv
  repeat' with_reducible first
    | assumption | refine keeps_ite (fun _ => ?_) (fun _ => ?_) | refine State.kvOp_keeps ?_ | refine State.draw_keeps ?_
    | refine State.setAe_keeps ?_ | refine State.aeEnd_keeps ?_ | refine State.busPut_keeps ?_ | refine State.aeBegin_keeps ?_ | split

theorem State.helperSlice_keeps {s : State} {e : Nat} (h : s0.Keeps false s) :
    s0.Keeps false (State.helperSlice s e) := by
  unfold State.helperSlice
  repeat' with_reducible first
    | assumption | refine keeps_ite (fun _ => ?_) (fun _ => ?_) | refine State.setEng_keeps ?_ | refine State.doSlice_keeps ?_ | split
    | dsimp only

theorem State.attendStart_keeps {s : State} {e : Nat} {m : Msg} (h : s0.Keeps false s) :
    s0.Keeps false (State.attendStart s e m) := by
  unfold State.attendStart
  repeat' with_reducible first
    | assumption | refine keeps_ite (fun _ => ?_) (fun _ => ?_) | refine State.aeBegin_keeps ?_ | refine State.aeEnd_keeps ?_
    | refine State.aeGet_keeps ?_ | refine State.doEntry_keeps ?_

theorem State.aeAttend_keeps {s : State} {e : Nat} (h : s0.Keeps false s) :
    s0.Keeps false (State.aeAttend s e) := by
  unfold State.aeAttend
  repeat' with_reducible first
    | assumption | refine keeps_ite (fun _ => ?_) (fun _ => ?_) | refine State.doMerge_keeps ?_ | refine State.doEntry_keeps ?_
    | refine State.attendStart_keeps ?_ | refine State.setAe_keeps ?_ | split

theorem State.aeDone_keeps {s : State} {e : Nat} (h : s0.Keeps b s) :
    s0.Keeps b (State.aeDone s e) := by
  unfold State.aeDone
  repeat' with_reducible first
    | assumption | refine keeps_ite (fun _ => ?_) (fun _ => ?_) | refine State.send_keeps ?_ | refine State.bumpW_keeps ?_
    | refine State.kvEnded_keeps ?_ | refine State.setAe_keeps ?_ | split | dsimp only

theorem State.aeArrive_keeps {s : State} {m : Msg} (h : s0.Keeps b s) :
    s0.Keeps b (State.aeArrive s m) := by
  unfold State.aeArrive
  repeat' with_reducible first
    | assumption | refine keeps_ite (fun _ => ?_) (fun _ => ?_) | refine State.send_keeps ?_ | refine State.answer_keeps ?_
    | refine State.bump_keeps ?_ | refine State.setAe_keeps ?_

end Sys2Proof.Machine
end

