-- ==== Sys2Proof/Laws/KeepsPowerOps.lean ====
section
/-!
SUPPORT. What the operations of Machine/PowerOps.lean keep.
-/

set_option linter.all false

namespace Sys2Proof.Machine

variable {b : Bool} {s0 : State}

theorem State.setModState_keeps {s : State} {st : Nat} {cause : Nat} (h : s0.Keeps b s) :
    s0.Keeps b (State.setModState s st cause) := by
  unfold State.setModState
  repeat' with_reducible first | assumption | refine State.wr_keeps ?_

theorem State.abandonEntry_keeps {s : State} {code : Nat} {delayed : Bool} (h : s0.Keeps b s) :
    s0.Keeps b (State.abandonEntry s code delayed) := by
  unfold State.abandonEntry
  repeat' with_reducible first
    | assumption | refine keeps_ite (fun _ => ?_) (fun _ => ?_) | refine State.bump_keeps ?_ | refine State.wr_keeps ?_
    | refine State.setModState_keeps ?_ | refine State.event_keeps ?_ | refine keeps_mk (keeps_up ?_)

theorem State.takeWake_keeps {s : State} {cause : Nat} {detail : Nat} (h : s0.Keeps b s) :
    s0.Keeps b (State.takeWake s cause detail) := by
  unfold State.takeWake
  repeat' with_reducible first
    | assumption | refine State.wr_keeps ?_ | refine State.bump_keeps ?_ | refine keeps_mk (keeps_up ?_)

theorem State.wake_keeps {s : State} {cause : Nat} {detail : Nat} (h : s0.Keeps b s) :
    s0.Keeps b (State.wake s cause detail) := by
  unfold State.wake
  repeat' with_reducible first
    | assumption | refine keeps_ite (fun _ => ?_) (fun _ => ?_) | refine State.takeWake_keeps ?_ | refine State.wr_keeps ?_
    | refine keeps_mk (keeps_up ?_)

end Sys2Proof.Machine
end

