-- ==== Sys2Proof/Laws/KeepsTrajOps.lean ====
section
/-!
SUPPORT. What the operations of Machine/TrajOps.lean keep.
-/

set_option linter.all false

namespace Sys2Proof.Machine

variable {b : Bool} {s0 : State}

theorem State.setCc_keeps {s : State} {c : CcSt} (h : s0.Keeps b s) :
    s0.Keeps b (State.setCc s c) := by
  unfold State.setCc
  repeat' with_reducible first
    | assumption | refine keeps_ite (fun _ => ?_) (fun _ => ?_) | refine State.wr_keeps ?_ | refine State.setUstate_keeps ?_
    | refine keeps_mk (keeps_up ?_)

theorem State.fbRecord_keeps {s : State} {flags : Nat} {id : Nat} {cMin : Nat} {alpha : Nat} (h : s0.Keeps b s) :
    s0.Keeps b (State.fbRecord s flags id cMin alpha).2 := by
  unfold State.fbRecord
  repeat' with_reducible first | assumption | refine State.draw_keeps ?_

theorem State.ccReport_keeps {s : State} {rec : List Byte} (h : s0.Keeps b s) :
    s0.Keeps b (State.ccReport s rec) := by
  unfold State.ccReport
  repeat' with_reducible first | assumption | refine keeps_ite (fun _ => ?_) (fun _ => ?_) | refine State.post_keeps ?_

theorem State.fbRequest_keeps {s : State} {cause : Nat} (h : s0.Keeps b s) :
    s0.Keeps b (State.fbRequest s cause) := by
  unfold State.fbRequest
  repeat' with_reducible first
    | assumption | refine keeps_ite (fun _ => ?_) (fun _ => ?_) | refine State.bump_keeps ?_ | refine State.setCc_keeps ?_
    | refine State.wr_keeps ?_ | refine State.fbRecord_keeps ?_ | refine State.ccReport_keeps ?_ | split | dsimp only

end Sys2Proof.Machine
end

