-- ==== Sys2Proof/Laws/KeepsSafeOps.lean ====
section
/-!
SUPPORT. What the operations of Machine/SafeOps.lean keep.
-/

set_option linter.all false

namespace Sys2Proof.Machine

variable {b : Bool} {s0 : State}

theorem State.setCp_keeps {s : State} {c : Nat} {v : CpSt} (h : s0.Keeps b s) :
    s0.Keeps b (State.setCp s c v) := by
  unfold State.setCp
  repeat' with_reducible first | assumption | refine keeps_mk (keeps_up ?_)

theorem State.dropFrames_keeps {s : State} (h : s0.Keeps b s) :
    s0.Keeps b (State.dropFrames s) := by
  unfold State.dropFrames
  repeat' with_reducible first
    | assumption | refine State.wr_keeps ?_ | refine State.setCp_keeps ?_ | refine keeps_foldl ?_ (fun _ _ _ => ?_)

theorem State.disarmAll_keeps {s : State} {keep : Bool} (h : s0.Keeps b s) :
    s0.Keeps b (State.disarmAll s keep) := by
  unfold State.disarmAll
  repeat' with_reducible first
    | assumption | refine keeps_ite (fun _ => ?_) (fun _ => ?_) | refine State.wr_keeps ?_ | refine keeps_foldl ?_ (fun _ _ _ => ?_)

theorem State.assertHold_keeps {s : State} (h : s0.Keeps b s) :
    s0.Keeps b (State.assertHold s) := by
  unfold State.assertHold
  repeat' with_reducible first | assumption | refine State.wr_keeps ?_

theorem State.recordDecision_keeps {s : State} {cause : Nat} {detail : Nat} (h : s0.Keeps b s) :
    s0.Keeps b (State.recordDecision s cause detail) := by
  unfold State.recordDecision
  repeat' with_reducible first
    | assumption | refine State.wr_keeps ?_ | refine State.bump_keeps ?_ | refine State.event_keeps ?_ | refine State.assertHold_keeps ?_

theorem State.safeLatch_keeps {s : State} {code : Nat} {restartFail : Bool} (h : s0.Keeps b s) :
    s0.Keeps b (State.safeLatch s code restartFail) := by
  unfold State.safeLatch
  repeat' with_reducible first
    | assumption | refine keeps_ite (fun _ => ?_) (fun _ => ?_) | refine State.wr_keeps ?_ | refine State.assertHold_keeps ?_
    | refine State.event_keeps ?_

theorem State.decideNow_keeps {s : State} {cause : Nat} {detail : Nat} (h : s0.Keeps b s) :
    s0.Keeps b (State.decideNow s cause detail) := by
  unfold State.decideNow
  repeat' with_reducible first
    | assumption | refine keeps_ite (fun _ => ?_) (fun _ => ?_) | refine State.event_keeps ?_ | refine State.bump_keeps ?_
    | refine State.dropFrames_keeps ?_ | refine State.disarmAll_keeps ?_ | refine State.recordDecision_keeps ?_
    | refine State.fbRequest_keeps ?_ | refine State.safeLatch_keeps ?_ | refine keeps_mk (keeps_up ?_)

theorem State.safeDecide_keeps {s : State} {cause : Nat} {detail : Nat} (h : s0.Keeps b s) :
    s0.Keeps b (State.safeDecide s cause detail) := by
  unfold State.safeDecide
  repeat' with_reducible first
    | assumption | refine keeps_ite (fun _ => ?_) (fun _ => ?_) | refine State.decideNow_keeps ?_ | refine State.abandonEntry_keeps ?_
    | refine State.assertHold_keeps ?_ | refine State.wake_keeps ?_ | refine keeps_mk (keeps_up ?_)

theorem State.fzAct_keeps {s : State} {i : Nat} {kind : Nat} (h : s0.Keeps b s) :
    s0.Keeps b (State.fzAct s i kind) := by
  unfold State.fzAct
  repeat' with_reducible first
    | assumption | refine keeps_ite (fun _ => ?_) (fun _ => ?_) | refine State.event_keeps ?_ | refine State.raiseCastle_keeps ?_
    | refine State.safeDecide_keeps ?_

theorem State.fzSignal_keeps {s : State} {i : Nat} (h : s0.Keeps b s) :
    s0.Keeps b (State.fzSignal s i) := by
  unfold State.fzSignal
  repeat' with_reducible first
    | assumption | refine State.fzAct_keeps ?_ | refine State.bump_keeps ?_ | refine State.wr_keeps ?_

theorem State.actOn_keeps {s : State} {report : Bool} {cause : Nat} {detail : Nat} (h : s0.Keeps b s) :
    s0.Keeps b (State.actOn s report cause detail) := by
  unfold State.actOn
  repeat' with_reducible first
    | assumption | refine keeps_ite (fun _ => ?_) (fun _ => ?_) | refine State.raiseCastle_keeps ?_ | refine State.safeDecide_keeps ?_

theorem State.scFall_keeps {s : State} {n : Nat} {kind : Nat} (h : s0.Keeps b s) :
    s0.Keeps b (State.scFall s n kind) := by
  unfold State.scFall
  repeat' with_reducible first
    | assumption | refine State.bump_keeps ?_ | refine State.wr_keeps ?_ | refine State.actOn_keeps ?_ | refine State.event_keeps ?_

theorem State.setSc_keeps {s : State} {n : Nat} {v : ScSt} (h : s0.Keeps b s) :
    s0.Keeps b (State.setSc s n v) := by
  unfold State.setSc
  repeat' with_reducible first | assumption | refine keeps_mk (keeps_up ?_)

theorem State.scKick_keeps {s : State} {n : Nat} {tok : Option Nat} (h : s0.Keeps b s) :
    s0.Keeps b (State.scKick s n tok) := by
  unfold State.scKick
  repeat' with_reducible first
    | assumption | refine keeps_ite (fun _ => ?_) (fun _ => ?_) | refine State.bumpW_keeps ?_ | refine State.scFall_keeps ?_
    | refine State.wr_keeps ?_ | refine State.setSc_keeps ?_ | split

theorem State.setTsv_keeps {s : State} {t : Nat} {v : TsSt} (h : s0.Keeps b s) :
    s0.Keeps b (State.setTsv s t v) := by
  unfold State.setTsv
  repeat' with_reducible first | assumption | refine keeps_mk (keeps_up ?_)

theorem State.tsViolate_keeps {s : State} {t : Nat} {v : Nat} (h : s0.Keeps b s) :
    s0.Keeps b (State.tsViolate s t v) := by
  unfold State.tsViolate
  repeat' with_reducible first
    | assumption | refine State.bump_keeps ?_ | refine State.wr_keeps ?_ | refine State.actOn_keeps ?_ | refine State.event_keeps ?_

theorem State.tsMark_keeps {s : State} {t : Nat} {k : Nat} (h : s0.Keeps b s) :
    s0.Keeps b (State.tsMark s t k) := by
  unfold State.tsMark
  repeat' with_reducible first
    | assumption | refine keeps_ite (fun _ => ?_) (fun _ => ?_) | refine State.wr_keeps ?_ | refine State.setTsv_keeps ?_
    | refine State.tsViolate_keeps ?_

theorem State.scArm_keeps {s : State} {n : Nat} (h : s0.Keeps b s) :
    s0.Keeps b (State.scArm s n) := by
  unfold State.scArm
  repeat' with_reducible first
    | assumption | refine keeps_ite (fun _ => ?_) (fun _ => ?_) | refine State.wr_keeps ?_ | refine State.setSc_keeps ?_

theorem State.tsArm_keeps {s : State} {t : Nat} (h : s0.Keeps b s) :
    s0.Keeps b (State.tsArm s t) := by
  unfold State.tsArm
  repeat' with_reducible first | assumption | refine State.wr_keeps ?_

theorem State.takeMsg_keeps {s : State} {m : Msg} (h : s0.Keeps b s) :
    s0.Keeps b (State.takeMsg s m) := by
  unfold State.takeMsg
  repeat' with_reducible first | assumption | refine keeps_mk (keeps_up ?_)

theorem State.cpReport_keeps {s : State} {m : Msg} (h : s0.Keeps b s) :
    s0.Keeps b (State.cpReport s m) := by
  unfold State.cpReport
  repeat' with_reducible first | assumption | refine keeps_ite (fun _ => ?_) (fun _ => ?_) | refine State.setCp_keeps ?_

theorem State.ack_keeps {s : State} {m : Msg} (h : s0.Keeps b s) :
    s0.Keeps b (State.ack s m) := by
  unfold State.ack
  repeat' with_reducible first | assumption | refine keeps_ite (fun _ => ?_) (fun _ => ?_) | refine State.send_keeps ?_

theorem State.cpVerdict_keeps {s : State} {c : Nat} (h : s0.Keeps b s) :
    s0.Keeps b (State.cpVerdict s c) := by
  unfold State.cpVerdict
  repeat' with_reducible first
    | assumption | refine keeps_ite (fun _ => ?_) (fun _ => ?_) | refine State.setCp_keeps ?_ | refine State.wr_keeps ?_
    | refine State.bump_keeps ?_ | refine State.bumpW_keeps ?_ | refine State.event_keeps ?_ | refine State.post_keeps ?_
    | refine State.actOn_keeps ?_ | split | dsimp only

theorem State.cpSubmit_keeps {s : State} {c : Nat} {m : Msg} (h : s0.Keeps b s) :
    s0.Keeps b (State.cpSubmit s c m) := by
  unfold State.cpSubmit
  repeat' with_reducible first
    | assumption | refine keeps_ite (fun _ => ?_) (fun _ => ?_) | refine State.wr_keeps ?_ | refine State.setCp_keeps ?_
    | refine State.cpVerdict_keeps ?_ | refine State.bump_keeps ?_ | split

theorem State.castleDeliver_keeps {s : State} {m : Msg} (h : s0.Keeps b s) :
    s0.Keeps b (State.castleDeliver s m) := by
  unfold State.castleDeliver
  repeat' with_reducible first
    | assumption | refine keeps_ite (fun _ => ?_) (fun _ => ?_) | refine State.takeMsg_keeps ?_ | refine State.answer_keeps ?_
    | refine State.cpReport_keeps ?_ | refine State.ack_keeps ?_ | refine State.wr_keeps ?_ | refine State.bump_keeps ?_
    | refine State.scKick_keeps ?_ | refine State.reject_keeps ?_ | refine State.tsMark_keeps ?_ | refine State.cpSubmit_keeps ?_
    | refine keeps_mk (keeps_up ?_)

theorem State.castleFault_keeps {s : State} {kind : Nat} (h : s0.Keeps b s) :
    s0.Keeps b (State.castleFault s kind) := by
  unfold State.castleFault
  repeat' with_reducible first
    | assumption | refine keeps_ite (fun _ => ?_) (fun _ => ?_) | refine State.assertHold_keeps ?_ | refine State.bump_keeps ?_
    | refine State.wr_keeps ?_ | refine State.event_keeps ?_ | refine State.safeDecide_keeps ?_ | refine State.safeLatch_keeps ?_
    | refine keeps_mk (keeps_up ?_)

end Sys2Proof.Machine
end

