-- ==== Sys2Proof/Laws/KeepsAttention.lean ====
section
/-!
SUPPORT. What the operations of Machine/Attention.lean keep.
-/

set_option linter.all false

namespace Sys2Proof.Machine

variable {b : Bool} {s0 : State}

theorem execPublish_keeps {e : Fin 8} {s : State} (h : s0.Keeps false s) :
    s0.KeepsO false (execPublish e s) := by
  unfold execPublish
  repeat' with_reducible first | assumption | refine keepsO_next ?_ | refine State.aeKv_keeps ?_

theorem execAttend_keeps {e : Fin 8} {s : State} (h : s0.Keeps false s) :
    s0.KeepsO false (execAttend e s) := by
  unfold execAttend
  repeat' with_reducible first | assumption | refine keepsO_next ?_ | refine State.aeAttend_keeps ?_

theorem execKvEnable_keeps {r : Req} {e : Fin 8} {d : WData} {s : State} (h : s0.Keeps false s) :
    s0.KeepsO false (execKvEnable r e d s) := by
  unfold execKvEnable
  repeat' with_reducible first
    | assumption | refine keepsO_next ?_ | refine keeps_ite (fun _ => ?_) (fun _ => ?_) | refine State.aeWrite_keeps ?_

theorem execAeReset_keeps {r : Req} {e : Fin 8} {d : WData} {s : State} (h : s0.Keeps false s) :
    s0.KeepsO false (execAeReset r e d s) := by
  unfold execAeReset
  repeat' with_reducible first
    | assumption | refine keepsO_next ?_ | refine keeps_ite (fun _ => ?_) (fun _ => ?_) | refine State.aeWrite_keeps ?_

theorem execAeResetComplete_keeps {e : Fin 8} {s : State} (h : s0.Keeps b s) :
    s0.KeepsO b (execAeResetComplete e s) := by
  unfold execAeResetComplete
  repeat' with_reducible first | assumption | refine keepsO_next ?_ | refine State.aeResetDone_keeps ?_

theorem execRollback_keeps {e : Fin 8} {s : State} (h : s0.Keeps false s) :
    s0.KeepsO false (execRollback e s) := by
  unfold execRollback
  repeat' with_reducible first | assumption | refine keepsO_next ?_ | refine State.aeKv_keeps ?_

theorem execLimboRelease_keeps {s : State} (h : s0.Keeps false s) :
    s0.KeepsO false (execLimboRelease s) := by
  unfold execLimboRelease
  repeat' with_reducible first | assumption | refine keepsO_next ?_ | refine State.limboRelease_keeps ?_

theorem execSelect_keeps {e : Fin 8} {s : State} (h : s0.Keeps false s) :
    s0.KeepsO false (execSelect e s) := by
  unfold execSelect
  repeat' with_reducible first | assumption | refine keepsO_next ?_ | refine State.aeKv_keeps ?_

theorem execSeqOpen_keeps {e : Fin 8} {s : State} (h : s0.Keeps false s) :
    s0.KeepsO false (execSeqOpen e s) := by
  unfold execSeqOpen
  repeat' with_reducible first | assumption | refine keepsO_next ?_ | refine State.aeKv_keeps ?_

theorem execAeJobComplete_keeps {e : Fin 8} {s : State} (h : s0.Keeps b s) :
    s0.KeepsO b (execAeJobComplete e s) := by
  unfold execAeJobComplete
  repeat' with_reducible first | assumption | refine keepsO_next ?_ | refine State.aeDone_keeps ?_

theorem execCommit_keeps {e : Fin 8} {s : State} (h : s0.Keeps false s) :
    s0.KeepsO false (execCommit e s) := by
  unfold execCommit
  repeat' with_reducible first | assumption | refine keepsO_next ?_ | refine State.aeKv_keeps ?_

theorem execSeqClose_keeps {e : Fin 8} {s : State} (h : s0.Keeps false s) :
    s0.KeepsO false (execSeqClose e s) := by
  unfold execSeqClose
  repeat' with_reducible first | assumption | refine keepsO_next ?_ | refine State.aeKv_keeps ?_

theorem execAppend_keeps {e : Fin 8} {s : State} (h : s0.Keeps false s) :
    s0.KeepsO false (execAppend e s) := by
  unfold execAppend
  repeat' with_reducible first | assumption | refine keepsO_next ?_ | refine State.aeKv_keeps ?_

theorem execAeJobArrive_keeps {m : Msg} {s : State} (h : s0.Keeps b s) :
    s0.KeepsO b (execAeJobArrive m s) := by
  unfold execAeJobArrive
  repeat' with_reducible first
    | assumption | refine keepsO_next ?_ | refine keeps_ite (fun _ => ?_) (fun _ => ?_) | refine State.answer_keeps ?_
    | refine State.takeMsg_keeps ?_ | refine State.aeArrive_keeps ?_

theorem execHelperSlice_keeps {e : Fin 8} {s : State} (h : s0.Keeps false s) :
    s0.KeepsO false (execHelperSlice e s) := by
  unfold execHelperSlice
  repeat' with_reducible first | assumption | refine keepsO_next ?_ | refine State.helperSlice_keeps ?_

end Sys2Proof.Machine
end

