-- ==== Sys2Proof/Laws/KeepsMemOps.lean ====
section
/-!
SUPPORT. What the operations of Machine/MemOps.lean keep.
-/

set_option linter.all false

namespace Sys2Proof.Machine

variable {b : Bool} {s0 : State}

theorem State.coresStart_keeps {s : State} {p : Nat} {entry : Nat} (h : s0.Keeps b s) :
    s0.Keeps b (State.coresStart s p entry) := by
  unfold State.coresStart
  repeat' with_reducible first | assumption | refine keeps_mk (keeps_up ?_)

theorem State.mcWrite_keeps {s : State} {r : Req} {off : Nat} {d : WData} (h : s0.Keeps b s) :
    s0.Keeps b (State.mcWrite s r off d) := by
  unfold State.mcWrite
  repeat' with_reducible first
    | assumption | refine keeps_ite (fun _ => ?_) (fun _ => ?_) | refine State.reject_keeps ?_ | refine State.writeReg_keeps ?_
    | refine keeps_mk (keeps_up ?_)

theorem State.coresHold_keeps {s : State} {l : List Nat} (h : s0.Keeps b s) :
    s0.Keeps b (State.coresHold s l) := by
  unfold State.coresHold
  repeat' with_reducible first | assumption | refine keeps_mk (keeps_up ?_)

theorem State.memErrorIrq_keeps {s : State} {part : Option Nat} (h : s0.Keeps b s) :
    s0.Keeps b (State.memErrorIrq s part) := by
  unfold State.memErrorIrq
  repeat' with_reducible first
    | assumption | refine State.raiseMsix_keeps ?_ | refine State.raiseIrq_keeps ?_ | split

theorem State.withAcc_keeps {s : State} {u : Nat} {status : Nat} {data : List Byte} {poison : Bool} (h : s0.Keeps b s) :
    s0.Keeps b (State.withAcc s u status data poison) := by
  unfold State.withAcc
  repeat' with_reducible first | assumption | refine keeps_mk (keeps_up ?_)

theorem State.demandFind_keeps {s : State} {u : Nat} {line : Nat} {found : Ecc} (h : s0.Keeps b s) :
    s0.Keeps b (State.demandFind s u line found) := by
  unfold State.demandFind
  repeat' with_reducible first
    | assumption | refine State.bump_keeps ?_ | refine State.setPoison_keeps ?_ | refine State.event_keeps ?_
    | refine State.errLog_keeps ?_ | split

theorem State.lineRead_keeps {s : State} {u : Nat} {a : Nat} {found : Ecc} (h : s0.Keeps b s) :
    s0.Keeps b (State.lineRead s u a found) := by
  unfold State.lineRead
  repeat' with_reducible first
    | assumption | refine keeps_ite (fun _ => ?_) (fun _ => ?_) | refine keeps_ite₂ (fun _ => ?_) (fun _ => ?_)
    | refine State.withAcc_keeps ?_ | refine State.demandFind_keeps ?_ | refine State.dramRead_keeps ?_ | refine State.mcCharge_keeps ?_

theorem State.retireAt_keeps {s : State} {a : Nat} (h : s0.Keeps false s) :
    s0.Keeps false (State.retireAt s a).2 := by
  unfold State.retireAt
  repeat' with_reducible first | assumption | refine State.retirePage_keeps ?_

theorem State.coreLocal_keeps {s : State} {r : Req} {a : Nat} {d : WData} (h : s0.Keeps b s) :
    s0.Keeps b (State.coreLocal s r a d) := by
  unfold State.coreLocal
  repeat' with_reducible first
    | assumption | refine keeps_ite (fun _ => ?_) (fun _ => ?_) | fail_if_no_progress (refine keeps_mk (keeps_up ?_)) | split

theorem State.shareWindow_keeps {s : State} {waiting : List (Nat × Nat)} (h : s0.Keeps b s) :
    s0.Keeps b (State.shareWindow s waiting) := by
  unfold State.shareWindow
  repeat' with_reducible first
    | assumption | refine keeps_ite (fun _ => ?_) (fun _ => ?_) | refine State.wr_keeps ?_ | refine State.bump_keeps ?_
    | refine keeps_foldl ?_ (fun _ _ _ => ?_) | refine keeps_mk (keeps_up ?_)

theorem State.scrubFind_keeps {s : State} {c : Nat} {a : Nat} (h : s0.Keeps false s) :
    s0.Keeps false (State.scrubFind s c a) := by
  unfold State.scrubFind
  repeat' with_reducible first
    | assumption | refine State.bump_keeps ?_ | refine State.setPoison_keeps ?_ | refine State.retireAt_keeps ?_
    | refine State.errLog_keeps ?_ | refine State.memErrorIrq_keeps ?_ | refine State.logRec_keeps ?_

theorem State.scrub_keeps {s : State} {c : Nat} {found : Ecc} (h : s0.Keeps false s) :
    s0.Keeps false (State.scrub s c found) := by
  unfold State.scrub
  repeat' with_reducible first
    | assumption | refine keeps_ite (fun _ => ?_) (fun _ => ?_) | refine State.wr_keeps ?_ | refine State.bump_keeps ?_
    | refine State.scrubFind_keeps ?_ | fail_if_no_progress (refine keeps_mk (keeps_up ?_)) | split

end Sys2Proof.Machine
end

