-- ==== Sys2Proof/Laws/KeepsMbxRegOps.lean ====
section
/-!
SUPPORT. What the operations of Machine/MbxRegOps.lean keep.
-/

set_option linter.all false

namespace Sys2Proof.Machine

variable {b : Bool} {s0 : State}

theorem State.mbRegWrite_keeps {s : State} {m : Nat} {off : Nat} {d : WData} (h : s0.Keeps b s) :
    s0.Keeps b (State.mbRegWrite s m off d) := by
  unfold State.mbRegWrite
  repeat' with_reducible first
    | assumption | refine keeps_ite (fun _ => ?_) (fun _ => ?_) | refine State.reject_keeps ?_ | refine State.wr_keeps ?_

theorem State.mbxRegWrite_keeps {s : State} {r : Req} {off : Nat} {d : WData} (h : s0.Keeps b s) :
    s0.Keeps b (State.mbxRegWrite s r off d) := by
  unfold State.mbxRegWrite
  repeat' with_reducible first
    | assumption | refine keeps_ite (fun _ => ?_) (fun _ => ?_) | refine State.mbRegWrite_keeps ?_ | refine State.reject_keeps ?_
    | refine State.writeReg_keeps ?_

theorem State.setMb_keeps {s : State} {m : Nat} {v : MbSt} (h : s0.Keeps b s) :
    s0.Keeps b (State.setMb s m v) := by
  unfold State.setMb
  repeat' with_reducible first | assumption | refine keeps_mk (keeps_up ?_)

theorem State.setExec_keeps {s : State} {m : Nat} {e : Option MbExec} (h : s0.Keeps b s) :
    s0.Keeps b (State.setExec s m e) := by
  unfold State.setExec
  repeat' with_reducible first | assumption | refine State.setMb_keeps ?_

theorem State.peerMbWrite_keeps {s : State} {module : Nat} {a : Nat} {data : List Byte} (h : s0.Keeps false s) :
    s0.Keeps false (State.peerMbWrite s module a data).2 := by
  unfold State.peerMbWrite
  repeat' with_reducible first
    | assumption | refine keeps_ite₁ (fun _ => ?_) (fun _ => ?_) | refine State.mbRegWrite_keeps ?_ | refine State.store_keeps ?_
    | refine State.reject_keeps ?_ | split

end Sys2Proof.Machine
end

