-- ==== Sys2Proof/Laws/KeepsPlannerOps.lean ====
section
/-!
SUPPORT. What the operations of Machine/PlannerOps.lean keep.
-/

set_option linter.all false

namespace Sys2Proof.Machine

variable {b : Bool} {s0 : State}

theorem State.ccCommit_keeps {s : State} {d : List Byte} (h : s0.Keeps b s) :
    s0.Keeps b (State.ccCommit s d).2 := by
  unfold State.ccCommit
  repeat' with_reducible first
    | assumption | refine keeps_ite₁ (fun _ => ?_) (fun _ => ?_) | refine State.setCc_keeps ?_ | split

theorem State.ccResetDone_keeps {s : State} (h : s0.Keeps b s) :
    s0.Keeps b (State.ccResetDone s) := by
  unfold State.ccResetDone
  repeat' with_reducible first | assumption | refine keeps_ite (fun _ => ?_) (fun _ => ?_) | refine State.setUstate_keeps ?_

theorem State.ccDrop_keeps {s : State} {status : Nat} (h : s0.Keeps b s) :
    s0.Keeps b (State.ccDrop s status) := by
  unfold State.ccDrop
  repeat' with_reducible first
    | assumption | refine State.answer_keeps ?_ | refine State.setCc_keeps ?_ | refine State.wr_keeps ?_
    | refine keeps_foldl ?_ (fun _ _ _ => ?_)

theorem State.ccEnter_keeps {s : State} {st : Nat} (h : s0.Keeps b s) :
    s0.Keeps b (State.ccEnter s st) := by
  unfold State.ccEnter
  repeat' with_reducible first
    | assumption | refine keeps_ite (fun _ => ?_) (fun _ => ?_) | refine State.ccDrop_keeps ?_ | refine State.setUstate_keeps ?_
    | refine State.bumpEpoch_keeps ?_ | refine State.wr_keeps ?_ | refine State.setCc_keeps ?_

theorem State.ccReset_keeps {s : State} (h : s0.Keeps b s) :
    s0.Keeps b (State.ccReset s) := by
  unfold State.ccReset
  repeat' with_reducible first
    | assumption | refine keeps_ite (fun _ => ?_) (fun _ => ?_) | refine State.reject_keeps ?_ | refine State.ccEnter_keeps ?_
    | refine State.holdEpoch_keeps ?_

theorem State.ccWrite_keeps {s : State} {r : Req} {off : Nat} {d : WData} (h : s0.Keeps b s) :
    s0.Keeps b (State.ccWrite s r off d) := by
  unfold State.ccWrite
  repeat' with_reducible first
    | assumption | refine keeps_ite (fun _ => ?_) (fun _ => ?_) | refine State.reject_keeps ?_ | refine State.wr_keeps ?_
    | refine State.ccReset_keeps ?_ | refine State.fbRequest_keeps ?_ | refine State.writeReg_keeps ?_

theorem State.ccGet_keeps {s : State} {a : Nat} {len : Nat} (h : s0.Keeps false s) :
    s0.Keeps false (State.ccGet s a len).2.2 := by
  unfold State.ccGet
  repeat' with_reducible first | assumption | refine State.busGet_keeps ?_

theorem State.ccEvalOne_keeps {s : State} {r : CcRun} (h : s0.Keeps false s) :
    s0.Keeps false (State.ccEvalOne s r).2.2 := by
  unfold State.ccEvalOne
  repeat' with_reducible first
    | assumption | refine keeps_ite₂ (fun _ => ?_) (fun _ => ?_) | refine State.ccGet_keeps ?_ | split

theorem State.ccAck_keeps {s : State} {m : Msg} {status : Nat} (h : s0.Keeps b s) :
    s0.Keeps b (State.ccAck s m status) := by
  unfold State.ccAck
  repeat' with_reducible first | assumption | refine State.send_keeps ?_

theorem State.ccEnd_keeps {s : State} {r : CcRun} {status : Nat} (h : s0.Keeps b s) :
    s0.Keeps b (State.ccEnd s r status) := by
  unfold State.ccEnd
  repeat' with_reducible first
    | assumption | refine State.bumpW_keeps ?_ | refine State.ccAck_keeps ?_ | refine State.setCc_keeps ?_

theorem State.ccLast_keeps {s : State} {r : CcRun} {reason : Nat} {chosen : Option Nat} (h : s0.Keeps b s) :
    s0.Keeps b (State.ccLast s r reason chosen) := by
  unfold State.ccLast
  repeat' with_reducible first | assumption | refine State.wr_keeps ?_ | split

theorem State.ccRecord_keeps {s : State} {r : CcRun} {rcd : List Byte} (h : s0.Keeps false s) :
    s0.Keeps false (State.ccRecord s r rcd) := by
  unfold State.ccRecord
  repeat' with_reducible first
    | assumption | refine keeps_ite (fun _ => ?_) (fun _ => ?_) | refine State.ccEnd_keeps ?_ | refine State.busPut_keeps ?_

theorem State.ccChoose_keeps {s : State} {r : CcRun} {i : Nat} {v : CcVerdict} (h : s0.Keeps false s) :
    s0.Keeps false (State.ccChoose s r i v) := by
  unfold State.ccChoose
  repeat' with_reducible first
    | assumption | refine keeps_ite (fun _ => ?_) (fun _ => ?_) | refine State.ccLast_keeps ?_ | refine State.ccRecord_keeps ?_
    | refine State.draw_keeps ?_ | refine State.setCc_keeps ?_

theorem State.ccStalemate_keeps {s : State} {r : CcRun} {reason : Nat} (h : s0.Keeps false s) :
    s0.Keeps false (State.ccStalemate s r reason) := by
  unfold State.ccStalemate
  repeat' with_reducible first
    | assumption | refine keeps_ite (fun _ => ?_) (fun _ => ?_) | refine State.bump_keeps ?_ | refine State.ccLast_keeps ?_
    | refine State.event_keeps ?_ | refine State.setCc_keeps ?_ | refine State.fbRequest_keeps ?_ | refine State.draw_keeps ?_
    | refine State.ccReport_keeps ?_ | refine State.ccRecord_keeps ?_

theorem State.ccConclude_keeps {s : State} {r : CcRun} {reason : Nat} (h : s0.Keeps false s) :
    s0.Keeps false (State.ccConclude s r reason) := by
  unfold State.ccConclude
  repeat' with_reducible first
    | assumption | refine keeps_ite (fun _ => ?_) (fun _ => ?_) | refine keeps_ite₁ (fun _ => ?_) (fun _ => ?_)
    | refine State.busPut_keeps ?_ | refine State.ccEnd_keeps ?_ | refine State.ccChoose_keeps ?_ | refine State.ccStalemate_keeps ?_
    | split

theorem State.ccEvalSome_keeps {s : State} {r : CcRun} {x3 : Nat} (h : s0.Keeps false s) :
    s0.Keeps false (State.ccEvalSome s r x3) := by
  induction x3 generalizing s r with
  | zero => rw [State.ccEvalSome]; exact State.setCc_keeps h
  | succ n ih =>
    rw [State.ccEvalSome]
    repeat' with_reducible first
      | assumption | apply ih | split | refine keeps_snd₂ (by assumption) ?_ | refine State.ccEvalOne_keeps ?_
      | refine State.ccEnd_keeps ?_ | refine State.ccConclude_keeps ?_

theorem State.ccTake_keeps {s : State} {op : Nat} (h : s0.Keeps b s) :
    ∀ x, State.ccTake s op = some x → s0.Keeps b x.2 := by
  unfold State.ccTake
  intro x e
  split at e
  · split at e
    · split at e
      · cases e; exact State.setCc_keeps h
      · cases e
    · cases e
  · cases e

theorem State.ccJob_keeps {s : State} {op : Nat} {act : State → List Byte → Nat × State} (h : s0.Keeps b s)
    (ha : ∀ t d, s0.Keeps b t → s0.Keeps b (act t d).2) : s0.Keeps b (State.ccJob s op act) := by
  unfold State.ccJob
  split
  · exact State.ccAck_keeps (ha _ _ (keeps_some (by assumption) (State.ccTake_keeps h)))
  · exact h

theorem State.loadSdf_keeps {s : State} {d : List Byte} (h : s0.Keeps false s) :
    s0.Keeps false (State.loadSdf s d).2 := by
  unfold State.loadSdf
  repeat' with_reducible first
    | assumption | refine keeps_ite₁ (fun _ => ?_) (fun _ => ?_) | refine State.ccGet_keeps ?_ | refine State.wr_keeps ?_
    | refine State.setCc_keeps ?_

theorem State.ccStart_keeps {s : State} {r : CcRun} {n : Nat} (h : s0.Keeps false s) :
    s0.Keeps false (State.ccStart s r n) := by
  unfold State.ccStart
  repeat' with_reducible first
    | assumption | refine keeps_ite (fun _ => ?_) (fun _ => ?_) | refine State.setCc_keeps ?_ | refine State.ccConclude_keeps ?_
    | refine State.ccEvalSome_keeps ?_

theorem State.ccCheck_keeps {s : State} {n : Nat} (h : s0.Keeps false s) :
    s0.Keeps false (State.ccCheck s n) := by
  unfold State.ccCheck
  repeat' with_reducible first
    | assumption | refine keeps_ite (fun _ => ?_) (fun _ => ?_) | refine State.ccEvalSome_keeps ?_
    | refine keeps_some (by assumption) (State.ccTake_keeps ?_) | refine State.setCc_keeps ?_ | refine State.ccStart_keeps ?_ | split

theorem State.ccDeadline_keeps {s : State} (h : s0.Keeps false s) :
    s0.Keeps false (State.ccDeadline s) := by
  unfold State.ccDeadline
  repeat' with_reducible first
    | assumption | refine keeps_ite (fun _ => ?_) (fun _ => ?_) | refine State.ccConclude_keeps ?_ | refine State.ccEvalOne_keeps ?_
    | refine State.ccEnd_keeps ?_ | split

theorem State.trajExpiry_keeps {s : State} (h : s0.Keeps b s) :
    s0.Keeps b (State.trajExpiry s) := by
  unfold State.trajExpiry
  repeat' with_reducible first
    | assumption | refine keeps_ite (fun _ => ?_) (fun _ => ?_) | refine State.fbRequest_keeps ?_ | split

theorem State.ccSwitchIn_keeps {s : State} {t : Traj} {staged : Option Traj} (h : s0.Keeps b s) :
    s0.Keeps b (State.ccSwitchIn s t staged) := by
  unfold State.ccSwitchIn
  repeat' with_reducible first
    | assumption | refine keeps_ite (fun _ => ?_) (fun _ => ?_) | refine State.bumpW_keeps ?_ | refine State.setCc_keeps ?_
    | refine State.post_keeps ?_

theorem State.trajSwitch_keeps {s : State} (h : s0.Keeps b s) :
    s0.Keeps b (State.trajSwitch s) := by
  unfold State.trajSwitch
  repeat' with_reducible first
    | assumption | refine keeps_ite (fun _ => ?_) (fun _ => ?_) | refine State.ccSwitchIn_keeps ?_ | split

theorem State.jobArrive_keeps {s : State} {u : Nat} {m : Msg} {opOk : Bool} {full : Bool} {check : Nat} {queued : State} (h : s0.Keeps b s) (hqueued : s0.Keeps b queued) :
    s0.Keeps b (State.jobArrive s u m opOk full check queued) := by
  unfold State.jobArrive
  repeat' with_reducible first
    | assumption | refine keeps_ite (fun _ => ?_) (fun _ => ?_) | refine State.send_keeps ?_ | refine State.answer_keeps ?_

theorem State.ccArrive_keeps {s : State} {m : Msg} (h : s0.Keeps b s) :
    s0.Keeps b (State.ccArrive s m) := by
  unfold State.ccArrive
  repeat' with_reducible first | assumption | refine State.jobArrive_keeps ?_ ?_ | refine State.setCc_keeps ?_

theorem State.ccCancel_keeps {s : State} {d : List Byte} (h : s0.Keeps b s) :
    s0.Keeps b (State.ccCancel s d).2 := by
  unfold State.ccCancel
  repeat' with_reducible first
    | assumption | refine keeps_ite₁ (fun _ => ?_) (fun _ => ?_) | refine State.setCc_keeps ?_ | split

theorem State.ccResume_keeps {s : State} (h : s0.Keeps false s) :
    s0.Keeps false (State.ccResume s) := by
  unfold State.ccResume
  repeat' with_reducible first
    | assumption | refine keeps_ite (fun _ => ?_) (fun _ => ?_) | refine State.ccStart_keeps ?_ | split

theorem State.loadBev_keeps {s : State} {d : List Byte} (h : s0.Keeps false s) :
    s0.Keeps false (State.loadBev s d).2 := by
  unfold State.loadBev
  repeat' with_reducible first
    | assumption | refine keeps_ite₁ (fun _ => ?_) (fun _ => ?_) | refine keeps_ite₂ (fun _ => ?_) (fun _ => ?_)
    | refine State.ccGet_keeps ?_ | refine State.wr_keeps ?_ | refine State.setCc_keeps ?_ | refine keeps_foldl₂ ?_ (fun _ _ _ => ?_)

theorem State.fbSwitch_keeps {s : State} (h : s0.Keeps false s) :
    s0.Keeps false (State.fbSwitch s) := by
  unfold State.fbSwitch
  repeat' with_reducible first
    | assumption | refine State.setCc_keeps ?_ | refine State.wr_keeps ?_ | refine State.event_keeps ?_ | refine State.ccSwitchIn_keeps ?_
    | refine State.draw_keeps ?_ | refine State.ccRecord_keeps ?_ | refine State.ccReport_keeps ?_ | refine State.fbRecord_keeps ?_
    | split | dsimp only

theorem State.loadModel_keeps {s : State} {d : List Byte} (h : s0.Keeps false s) :
    s0.Keeps false (State.loadModel s d).2 := by
  unfold State.loadModel
  repeat' with_reducible first
    | assumption | refine keeps_ite₁ (fun _ => ?_) (fun _ => ?_) | refine State.ccGet_keeps ?_ | refine State.wr_keeps ?_
    | refine State.setCc_keeps ?_

end Sys2Proof.Machine
end

