-- ==== Sys2Proof/Laws/KeepsReflexOps.lean ====
section
/-!
SUPPORT. What the operations of Machine/ReflexOps.lean keep.
-/

set_option linter.all false

namespace Sys2Proof.Machine

variable {b : Bool} {s0 : State}

theorem State.setEg_keeps {s : State} {i : Nat} {v : EgSt} (h : s0.Keeps b s) :
    s0.Keeps b (State.setEg s i v) := by
  unfold State.setEg
  repeat' with_reducible first | assumption | refine keeps_mk (keeps_up ?_)

theorem State.egFill_keeps {s : State} {i : Nat} (h : s0.Keeps b s) :
    s0.Keeps b (State.egFill s i).2 := by
  unfold State.egFill
  repeat' with_reducible first
    | assumption | refine keeps_ite (fun _ => ?_) (fun _ => ?_) | refine keeps_ite₁ (fun _ => ?_) (fun _ => ?_)
    | refine State.bump_keeps ?_ | refine State.setEg_keeps ?_ | refine keeps_mk (keeps_up ?_)

theorem State.setGcl_keeps {s : State} {p : Nat} {v : GclSt} (h : s0.Keeps b s) :
    s0.Keeps b (State.setGcl s p v) := by
  unfold State.setGcl
  repeat' with_reducible first | assumption | refine keeps_mk (keeps_up ?_)

theorem State.drivePin_keeps {s : State} {g : Nat} {lvl : Bool} (h : s0.Keeps b s) :
    s0.Keeps b (State.drivePin s g lvl) := by
  unfold State.drivePin
  repeat' with_reducible first | assumption | refine State.wrBit_keeps ?_

theorem State.pinAction_keeps {s : State} {r : Nat} (h : s0.Keeps b s) :
    s0.Keeps b (State.pinAction s r) := by
  unfold State.pinAction
  repeat' with_reducible first
    | assumption | refine keeps_ite (fun _ => ?_) (fun _ => ?_) | refine State.drivePin_keeps ?_ | refine keeps_mk (keeps_up ?_)

theorem State.fireRules_keeps {s : State} {fired : List Nat} (h : s0.Keeps b s) :
    s0.Keeps b (State.fireRules s fired) := by
  unfold State.fireRules
  repeat' with_reducible first
    | assumption | refine keeps_ite (fun _ => ?_) (fun _ => ?_) | refine State.bumpW_keeps ?_ | refine State.wrBit_keeps ?_
    | refine State.wr_keeps ?_ | refine State.pinAction_keeps ?_ | refine State.egFill_keeps ?_ | refine State.bump_keeps ?_
    | refine keeps_foldl ?_ (fun _ _ _ => ?_)

theorem State.reflexEval_keeps {s : State} {rise : Nat} {fall : Nat} (h : s0.Keeps b s) :
    s0.Keeps b (State.reflexEval s rise fall) := by
  unfold State.reflexEval
  repeat' with_reducible first | assumption | refine State.fireRules_keeps ?_ | refine keeps_mk (keeps_up ?_)

theorem State.egSent_keeps {s : State} {i : Nat} {port : Nat} {x4 : List Byte} (h : s0.Keeps b s) :
    s0.Keeps b (State.egSent s i port x4) := by
  unfold State.egSent
  repeat' with_reducible first
    | assumption | refine State.bumpW_keeps ?_ | refine State.setEg_keeps ?_ | refine keeps_mk (keeps_up ?_)

theorem State.gclAdvance_keeps {s : State} {p : Nat} (h : s0.Keeps b s) :
    s0.Keeps b (State.gclAdvance s p) := by
  unfold State.gclAdvance
  repeat' with_reducible first
    | assumption | refine keeps_ite (fun _ => ?_) (fun _ => ?_) | refine State.wr_keeps ?_ | refine State.setGcl_keeps ?_
    | refine State.bumpW_keeps ?_

theorem State.tapSample_keeps {s : State} {typ : Nat} {port : Nat} {pass : Nat → Bool} {payload : List Byte} {stamp : BitVec 128} (h : s0.Keeps b s) :
    s0.Keeps b (State.tapSample s typ port pass payload stamp) := by
  unfold State.tapSample
  repeat' with_reducible first
    | assumption | refine keeps_ite (fun _ => ?_) (fun _ => ?_) | refine State.bumpW_keeps ?_ | refine State.wr_keeps ?_
    | refine State.reflexEval_keeps ?_ | refine keeps_foldl ?_ (fun _ _ _ => ?_) | fail_if_no_progress (refine keeps_mk (keeps_up ?_))
    | split

theorem State.holdFill_keeps {s : State} (h : s0.Keeps b s) :
    s0.Keeps b (State.holdFill s) := by
  unfold State.holdFill
  repeat' with_reducible first
    | assumption | refine keeps_ite (fun _ => ?_) (fun _ => ?_) | refine State.egFill_keeps ?_ | refine keeps_foldl ?_ (fun _ _ _ => ?_)

end Sys2Proof.Machine
end

