-- ==== Sys2Proof/Laws/KeepsDynOps.lean ====
section
/-!
SUPPORT. What the operations of Machine/DynOps.lean keep.
-/

set_option linter.all false

namespace Sys2Proof.Machine

variable {b : Bool} {s0 : State}

theorem State.dynResetDone_keeps {s : State} (h : s0.Keeps b s) :
    s0.Keeps b (State.dynResetDone s) := by
  unfold State.dynResetDone
  repeat' with_reducible first | assumption | refine keeps_ite (fun _ => ?_) (fun _ => ?_) | refine State.setUstate_keeps ?_

theorem State.setDyn_keeps {s : State} {d : DynSt} (h : s0.Keeps b s) :
    s0.Keeps b (State.setDyn s d) := by
  unfold State.setDyn
  repeat' with_reducible first
    | assumption | refine keeps_ite (fun _ => ?_) (fun _ => ?_) | refine State.wr_keeps ?_ | refine State.setUstate_keeps ?_
    | refine keeps_mk (keeps_up ?_)

theorem State.dynDrop_keeps {s : State} {status : Nat} (h : s0.Keeps b s) :
    s0.Keeps b (State.dynDrop s status) := by
  unfold State.dynDrop
  repeat' with_reducible first
    | assumption | refine State.answer_keeps ?_ | refine State.wr_keeps ?_ | refine State.setDyn_keeps ?_
    | refine keeps_foldl ?_ (fun _ _ _ => ?_)

theorem State.dynEnter_keeps {s : State} {st : Nat} (h : s0.Keeps b s) :
    s0.Keeps b (State.dynEnter s st) := by
  unfold State.dynEnter
  repeat' with_reducible first
    | assumption | refine keeps_ite (fun _ => ?_) (fun _ => ?_) | refine State.dynDrop_keeps ?_ | refine State.setUstate_keeps ?_
    | refine State.bumpEpoch_keeps ?_ | refine State.wr_keeps ?_ | refine State.setDyn_keeps ?_

theorem State.dynReset_keeps {s : State} (h : s0.Keeps b s) :
    s0.Keeps b (State.dynReset s) := by
  unfold State.dynReset
  repeat' with_reducible first
    | assumption | refine keeps_ite (fun _ => ?_) (fun _ => ?_) | refine State.reject_keeps ?_ | refine State.dynEnter_keeps ?_
    | refine State.holdEpoch_keeps ?_

theorem State.dynTime_keeps {s : State} {m : DynModel} (h : s0.Keeps b s) :
    s0.Keeps b (State.dynTime s m).2 := by
  unfold State.dynTime
  repeat' with_reducible first | assumption | refine State.draw_keeps ?_ | refine State.wr_keeps ?_

theorem State.dynFills_keeps {s : State} (h : s0.Keeps b s) :
    s0.Keeps b (State.dynFills s) := by
  unfold State.dynFills
  repeat' with_reducible first
    | assumption | refine keeps_ite (fun _ => ?_) (fun _ => ?_) | refine State.setEg_keeps ?_ | refine State.bump_keeps ?_
    | refine State.egFill_keeps ?_ | refine keeps_foldl ?_ (fun _ _ _ => ?_)

theorem State.dynEmit_keeps {s : State} {head : List Byte} {v : DynVals} (h : s0.Keeps false s) :
    s0.Keeps false (State.dynEmit s head v) := by
  unfold State.dynEmit
  repeat' with_reducible first
    | assumption | refine keeps_ite (fun _ => ?_) (fun _ => ?_) | refine State.wr_keeps ?_ | refine State.setDyn_keeps ?_
    | refine State.busPut_keeps ?_ | refine State.dynFills_keeps ?_ | refine keeps_foldl ?_ (fun _ _ _ => ?_)

theorem State.dynReport_keeps {s : State} {status : Nat} {worst : Nat} {head : List Byte} (h : s0.Keeps b s) :
    s0.Keeps b (State.dynReport s status worst head) := by
  unfold State.dynReport
  repeat' with_reducible first
    | assumption | refine keeps_ite (fun _ => ?_) (fun _ => ?_) | refine State.event_keeps ?_ | refine State.post_keeps ?_

theorem State.dynReuse_keeps {s : State} {x2 : DynHead} {z : DynSnap} (h : s0.Keeps false s) :
    s0.Keeps false (State.dynReuse s x2 z) := by
  unfold State.dynReuse
  repeat' with_reducible first
    | assumption | refine keeps_ite (fun _ => ?_) (fun _ => ?_) | refine State.bump_keeps ?_ | refine State.setDyn_keeps ?_
    | refine State.dynEmit_keeps ?_ | refine State.dynReport_keeps ?_ | refine State.wr_keeps ?_ | split

theorem State.dynStatus_keeps {s : State} {x2 : DynHead} {z : DynSnap} {stage : Nat} {tent : Bool} (h : s0.Keeps b s) :
    s0.Keeps b (State.dynStatus s x2 z stage tent) := by
  unfold State.dynStatus
  repeat' with_reducible first
    | assumption | refine keeps_ite (fun _ => ?_) (fun _ => ?_) | refine State.bump_keeps ?_ | refine State.dynReport_keeps ?_
    | refine State.wr_keeps ?_

theorem State.dynMissed_keeps {s : State} (h : s0.Keeps false s) :
    s0.Keeps false (State.dynMissed s) := by
  unfold State.dynMissed
  repeat' with_reducible first
    | assumption | refine State.dynTime_keeps ?_ | refine State.draw_keeps ?_ | refine State.setDyn_keeps ?_
    | refine State.dynReuse_keeps ?_ | refine State.dynStatus_keeps ?_ | split

theorem State.dynGet_keeps {s : State} {a : Nat} {len : Nat} (h : s0.Keeps false s) :
    s0.Keeps false (State.dynGet s a len).2.2 := by
  unfold State.dynGet
  repeat' with_reducible first | assumption | refine State.busGet_keeps ?_

theorem State.dynSnap_keeps {s : State} {m : DynModel} (h : s0.Keeps false s) :
    s0.Keeps false (State.dynSnap s m).2 := by
  unfold State.dynSnap
  repeat' with_reducible first
    | assumption | refine keeps_ite₂ (fun _ => ?_) (fun _ => ?_) | refine State.dynGet_keeps ?_ | refine keeps_foldl₂ ?_ (fun _ _ _ => ?_)

theorem State.dynTrigger_keeps {s : State} (h : s0.Keeps false s) :
    s0.Keeps false (State.dynTrigger s) := by
  unfold State.dynTrigger
  repeat' with_reducible first
    | assumption | refine keeps_ite (fun _ => ?_) (fun _ => ?_) | refine State.dynMissed_keeps ?_ | refine State.bumpW_keeps ?_
    | refine State.dynSnap_keeps ?_ | refine State.setDyn_keeps ?_ | split

theorem State.dynWrite_keeps {s : State} {r : Req} {off : Nat} {d : WData} (h : s0.Keeps false s) :
    s0.Keeps false (State.dynWrite s r off d) := by
  unfold State.dynWrite
  repeat' with_reducible first
    | assumption | refine keeps_ite (fun _ => ?_) (fun _ => ?_) | refine State.reject_keeps ?_ | refine State.wr_keeps ?_
    | refine State.dynReset_keeps ?_ | refine State.dynTrigger_keeps ?_ | refine State.writeReg_keeps ?_

theorem State.showSize_keeps {s : State} {z : QpSize} (h : s0.Keeps b s) :
    s0.Keeps b (State.showSize s z) := by
  unfold State.showSize
  repeat' with_reducible first | assumption | refine State.wr_keeps ?_

theorem State.dynLoadModel_keeps {s : State} {d : List Byte} (h : s0.Keeps false s) :
    s0.Keeps false (State.dynLoadModel s d).2 := by
  unfold State.dynLoadModel
  repeat' with_reducible first
    | assumption | refine keeps_ite₁ (fun _ => ?_) (fun _ => ?_) | refine State.dynGet_keeps ?_ | refine State.wr_keeps ?_
    | refine State.setDyn_keeps ?_ | refine State.showSize_keeps ?_

theorem State.dynLoadTasks_keeps {s : State} {d : List Byte} (h : s0.Keeps false s) :
    s0.Keeps false (State.dynLoadTasks s d).2 := by
  unfold State.dynLoadTasks
  repeat' with_reducible first
    | assumption | refine keeps_ite₁ (fun _ => ?_) (fun _ => ?_) | refine State.dynGet_keeps ?_ | refine State.wr_keeps ?_
    | refine State.setDyn_keeps ?_ | refine State.showSize_keeps ?_ | split

theorem State.dynCompute_keeps {s : State} {d : List Byte} (h : s0.Keeps false s) :
    s0.Keeps false (State.dynCompute s d).2 := by
  unfold State.dynCompute
  repeat' with_reducible first
    | assumption | refine keeps_ite₁ (fun _ => ?_) (fun _ => ?_) | refine State.dynGet_keeps ?_ | refine State.putAll_keeps ?_ | split

theorem State.dynRunJob_keeps {s : State} {m : Msg} (h : s0.Keeps false s) :
    s0.Keeps false (State.dynRunJob s m) := by
  unfold State.dynRunJob
  repeat' with_reducible first
    | assumption | refine keeps_ite₁ (fun _ => ?_) (fun _ => ?_) | refine State.dynLoadModel_keeps ?_ | refine State.dynLoadTasks_keeps ?_
    | refine State.dynCompute_keeps ?_ | refine State.send_keeps ?_

theorem State.dynJob_keeps {s : State} {op : Nat} {paused : Bool} (h : s0.Keeps false s) :
    s0.Keeps false (State.dynJob s op paused) := by
  unfold State.dynJob
  repeat' with_reducible first
    | assumption | refine keeps_ite (fun _ => ?_) (fun _ => ?_) | refine State.setDyn_keeps ?_ | refine State.dynRunJob_keeps ?_ | split

theorem State.dynResume_keeps {s : State} (h : s0.Keeps false s) :
    s0.Keeps false (State.dynResume s) := by
  unfold State.dynResume
  repeat' with_reducible first
    | assumption | refine keeps_ite (fun _ => ?_) (fun _ => ?_) | refine State.dynRunJob_keeps ?_ | refine State.setDyn_keeps ?_ | split

theorem State.dynSolveDone_keeps {s : State} (h : s0.Keeps false s) :
    s0.Keeps false (State.dynSolveDone s) := by
  unfold State.dynSolveDone
  repeat' with_reducible first
    | assumption | split | refine keeps_snd (by assumption) ?_ | refine keeps_ite (fun _ => ?_) (fun _ => ?_)
    | refine State.dynTime_keeps ?_ | refine State.draw_keeps ?_ | refine State.setDyn_keeps ?_ | refine State.dynStatus_keeps ?_
    | refine State.dynReuse_keeps ?_ | refine State.wr_keeps ?_ | refine State.dynEmit_keeps ?_

theorem State.dynDeadline_keeps {s : State} (h : s0.Keeps false s) :
    s0.Keeps false (State.dynDeadline s) := by
  unfold State.dynDeadline
  repeat' with_reducible first | assumption | refine keeps_ite (fun _ => ?_) (fun _ => ?_) | refine State.dynMissed_keeps ?_

theorem State.dynArrive_keeps {s : State} {m : Msg} (h : s0.Keeps b s) :
    s0.Keeps b (State.dynArrive s m) := by
  unfold State.dynArrive
  repeat' with_reducible first | assumption | refine State.jobArrive_keeps ?_ ?_ | refine State.setDyn_keeps ?_

end Sys2Proof.Machine
end

