-- ==== Sys2Proof/Laws/KeepsPlaneOps.lean ====
section
/-!
SUPPORT. What the operations of Machine/PlaneOps.lean keep.
-/

set_option linter.all false

namespace Sys2Proof.Machine

variable {b : Bool} {s0 : State}

theorem State.plBadSync_keeps {s : State} {p : Nat} {old : List Nat} (h : s0.Keeps b s) :
    s0.Keeps b (State.plBadSync s p old) := by
  unfold State.plBadSync
  repeat' with_reducible first
    | assumption | refine State.wr_keeps ?_ | refine State.wrBit_keeps ?_ | refine keeps_foldl ?_ (fun _ _ _ => ?_)

theorem State.plMeasure_keeps {s : State} {p : Nat} {full : Bool} (h : s0.Keeps b s) :
    s0.Keeps b (State.plMeasure s p full) := by
  unfold State.plMeasure
  repeat' with_reducible first
    | assumption | refine keeps_foldlF ?_ (fun _ _ _ => ?_) | refine keeps_ite (fun _ => ?_) (fun _ => ?_) | refine State.wr_keeps ?_
    | refine State.event_keeps ?_ | refine State.plBadSync_keeps ?_ | refine State.setPlane_keeps ?_
    | refine keeps_foldl ?_ (fun _ _ _ => ?_) | fail_if_no_progress (refine keeps_mk (keeps_up ?_)) | split | dsimp only

theorem State.plShow_keeps {s : State} {p : Nat} (h : s0.Keeps b s) :
    s0.Keeps b (State.plShow s p) := by
  unfold State.plShow
  repeat' with_reducible first | assumption | refine State.wr_keeps ?_

theorem State.plProbes_keeps {s : State} {p : Nat} (h : s0.Keeps b s) :
    s0.Keeps b (State.plProbes s p) := by
  unfold State.plProbes
  repeat' with_reducible first
    | assumption | refine State.drawBytes_keeps ?_ | refine State.setPlane_keeps ?_ | refine State.plShow_keeps ?_
    | refine State.wr_keeps ?_ | refine keeps_foldl₁ ?_ (fun _ _ _ => ?_) | refine keeps_mk (keeps_up ?_)

theorem State.plReport_keeps {s : State} {p : Nat} {kind : Nat} {cp : Nat} {frame : Nat} {seq : Nat} {bound : Nat} {ooc : Nat} {flags : Nat} (h : s0.Keeps b s) :
    s0.Keeps b (State.plReport s p kind cp frame seq bound ooc flags) := by
  unfold State.plReport
  repeat' with_reducible first
    | assumption | refine keeps_ite (fun _ => ?_) (fun _ => ?_) | refine State.wr_keeps ?_ | refine State.post_keeps ?_

theorem State.plContract_keeps {s : State} {p : Nat} {c : Nat} (h : s0.Keeps b s) :
    s0.Keeps b (State.plContract s p c) := by
  unfold State.plContract
  repeat' with_reducible first
    | assumption | refine keeps_ite (fun _ => ?_) (fun _ => ?_) | refine State.wr_keeps ?_ | refine State.logRec_keeps ?_
    | refine State.plReport_keeps ?_

theorem State.plFullCal_keeps {s : State} {p : Nat} (h : s0.Keeps b s) :
    s0.Keeps b (State.plFullCal s p).2 := by
  unfold State.plFullCal
  repeat' with_reducible first
    | assumption | refine keeps_ite₁ (fun _ => ?_) (fun _ => ?_) | refine State.plMeasure_keeps ?_ | refine State.wr_keeps ?_
    | refine State.plProbes_keeps ?_ | refine State.bump_keeps ?_ | refine State.setPlane_keeps ?_ | refine State.plContract_keeps ?_

theorem State.setShell_keeps {s : State} {p : Nat} {v : Nat} (h : s0.Keeps b s) :
    s0.Keeps b (State.setShell s p v) := by
  unfold State.setShell
  repeat' with_reducible first | assumption | refine State.wr_keeps ?_

theorem State.setPl_keeps {s : State} {p : Nat} {x : PlSt} (h : s0.Keeps b s) :
    s0.Keeps b (State.setPl s p x) := by
  unfold State.setPl
  repeat' with_reducible first | assumption | refine State.wr_keeps ?_ | refine State.setPlane_keeps ?_

theorem State.plAnswer_keeps {s : State} {p : Nat} {status : Nat} (h : s0.Keeps b s) :
    s0.Keeps b (State.plAnswer s p status) := by
  unfold State.plAnswer
  repeat' with_reducible first
    | assumption | refine State.setPl_keeps ?_ | refine State.answer_keeps ?_ | refine keeps_foldl ?_ (fun _ _ _ => ?_)

theorem State.plLeave_keeps {s : State} {p : Nat} {st : Nat} (h : s0.Keeps b s) :
    s0.Keeps b (State.plLeave s p st) := by
  unfold State.plLeave
  repeat' with_reducible first
    | assumption | refine keeps_ite (fun _ => ?_) (fun _ => ?_) | refine State.setUstate_keeps ?_ | refine State.plAnswer_keeps ?_

theorem State.plFault_keeps {s : State} {p : Nat} (h : s0.Keeps b s) :
    s0.Keeps b (State.plFault s p) := by
  unfold State.plFault
  repeat' with_reducible first
    | assumption | refine State.setShell_keeps ?_ | refine State.plLeave_keeps ?_ | refine State.event_keeps ?_
    | refine State.setPl_keeps ?_

theorem State.plResetDone_keeps {s : State} {p : Nat} (h : s0.Keeps b s) :
    s0.Keeps b (State.plResetDone s p) := by
  unfold State.plResetDone
  repeat' with_reducible first
    | assumption | refine keeps_ite (fun _ => ?_) (fun _ => ?_) | refine State.plFullCal_keeps ?_ | refine State.plFault_keeps ?_
    | refine State.setUstate_keeps ?_

theorem State.plClear_keeps {s : State} {p : Nat} (h : s0.Keeps false s) :
    s0.Keeps false (State.plClear s p) := by
  unfold State.plClear
  repeat' with_reducible first
    | assumption | refine State.plBadSync_keeps ?_ | refine State.setPl_keeps ?_ | refine State.wr_keeps ?_
    | refine State.zeroRange_keeps ?_ | refine State.plShow_keeps ?_

theorem State.plEnter_keeps {s : State} {p : Nat} {st : Nat} (h : s0.Keeps false s) :
    s0.Keeps false (State.plEnter s p st) := by
  unfold State.plEnter
  repeat' with_reducible first
    | assumption | refine keeps_ite (fun _ => ?_) (fun _ => ?_) | refine State.setShell_keeps ?_ | refine State.plLeave_keeps ?_
    | refine State.bumpEpoch_keeps ?_ | refine State.setPl_keeps ?_ | refine State.wr_keeps ?_ | refine State.plClear_keeps ?_
    | refine State.plContract_keeps ?_ | refine keeps_foldl ?_ (fun _ _ _ => ?_)

theorem State.plCheckCol_keeps {s : State} {p : Nat} {j : Nat} {code : Nat} (h : s0.Keeps b s) :
    s0.Keeps b (State.plCheckCol s p j code) := by
  unfold State.plCheckCol
  repeat' with_reducible first
    | assumption | refine keeps_ite (fun _ => ?_) (fun _ => ?_) | refine State.event_keeps ?_ | refine State.plBadSync_keeps ?_
    | refine State.setPlane_keeps ?_

theorem State.plReturn_keeps {s : State} {p : Nat} (h : s0.Keeps b s) :
    s0.Keeps b (State.plReturn s p) := by
  unfold State.plReturn
  repeat' with_reducible first
    | assumption | refine keeps_ite (fun _ => ?_) (fun _ => ?_) | refine State.plCheckCol_keeps ?_ | refine State.plFullCal_keeps ?_
    | refine State.plFault_keeps ?_ | refine State.setShell_keeps ?_ | refine State.setUstate_keeps ?_
    | refine keeps_foldl ?_ (fun _ _ _ => ?_)

theorem State.plReset_keeps {s : State} {p : Nat} (h : s0.Keeps false s) :
    s0.Keeps false (State.plReset s p) := by
  unfold State.plReset
  repeat' with_reducible first
    | assumption | refine keeps_ite (fun _ => ?_) (fun _ => ?_) | refine State.reject_keeps ?_ | refine State.plEnter_keeps ?_
    | refine State.holdEpoch_keeps ?_

theorem State.plReady_keeps {s : State} {p : Nat} (h : s0.Keeps b s) :
    s0.Keeps b (State.plReady s p) := by
  unfold State.plReady
  repeat' with_reducible first | assumption | refine keeps_ite (fun _ => ?_) (fun _ => ?_) | refine State.setUstate_keeps ?_

theorem State.plOpenNow_keeps {s : State} {p : Nat} (h : s0.Keeps b s) :
    s0.Keeps b (State.plOpenNow s p) := by
  unfold State.plOpenNow
  repeat' with_reducible first
    | assumption | refine State.plAnswer_keeps ?_ | refine State.bumpEpoch_keeps ?_ | refine State.setPl_keeps ?_
    | refine State.plReady_keeps ?_ | refine State.setShell_keeps ?_ | refine State.wr_keeps ?_

theorem State.plOpenTry_keeps {s : State} {p : Nat} (h : s0.Keeps b s) :
    s0.Keeps b (State.plOpenTry s p) := by
  unfold State.plOpenTry
  repeat' with_reducible first
    | assumption | refine keeps_ite (fun _ => ?_) (fun _ => ?_) | refine State.plOpenNow_keeps ?_ | refine State.holdEpoch_keeps ?_

theorem State.plOpen_keeps {s : State} {p : Nat} (h : s0.Keeps b s) :
    s0.Keeps b (State.plOpen s p) := by
  unfold State.plOpen
  repeat' with_reducible first
    | assumption | refine keeps_ite (fun _ => ?_) (fun _ => ?_) | refine State.reject_keeps ?_ | refine State.plOpenTry_keeps ?_
    | refine State.setPlane_keeps ?_

theorem State.plClose_keeps {s : State} {p : Nat} (h : s0.Keeps b s) :
    s0.Keeps b (State.plClose s p) := by
  unfold State.plClose
  repeat' with_reducible first
    | assumption | refine keeps_ite (fun _ => ?_) (fun _ => ?_) | refine State.setShell_keeps ?_ | refine State.reject_keeps ?_

theorem State.plCtrl_keeps {s : State} {p : Nat} {v : Nat} (h : s0.Keeps false s) :
    s0.Keeps false (State.plCtrl s p v) := by
  unfold State.plCtrl
  repeat' with_reducible first
    | assumption | refine keeps_ite (fun _ => ?_) (fun _ => ?_) | refine State.plReset_keeps ?_ | refine State.reject_keeps ?_
    | refine State.plOpen_keeps ?_ | refine State.plClose_keeps ?_ | refine State.setPlane_keeps ?_ | refine State.wr_keeps ?_

theorem State.plForceFlags_keeps {s : State} {p : Nat} {js : List Nat} (h : s0.Keeps b s) :
    s0.Keeps b (State.plForceFlags s p js) := by
  unfold State.plForceFlags
  repeat' with_reducible first | assumption | refine State.wr_keeps ?_ | refine keeps_foldl ?_ (fun _ _ _ => ?_)

theorem State.plEffect_keeps {s : State} {p : Nat} {pol : Nat} (h : s0.Keeps b s) :
    s0.Keeps b (State.plEffect s p pol) := by
  unfold State.plEffect
  repeat' with_reducible first
    | assumption | refine keeps_ite (fun _ => ?_) (fun _ => ?_) | refine State.wr_keeps ?_ | refine State.setPlane_keeps ?_
    | refine State.plForceFlags_keeps ?_

theorem State.plApply_keeps {s : State} {p : Nat} (h : s0.Keeps b s) :
    s0.Keeps b (State.plApply s p) := by
  unfold State.plApply
  repeat' with_reducible first
    | assumption | refine State.setPlane_keeps ?_ | refine State.wr_keeps ?_ | refine State.plEffect_keeps ?_

theorem State.plBoundary_keeps {s : State} {p : Nat} (h : s0.Keeps b s) :
    s0.Keeps b (State.plBoundary s p) := by
  unfold State.plBoundary
  repeat' with_reducible first
    | assumption | refine keeps_ite (fun _ => ?_) (fun _ => ?_) | refine State.plApply_keeps ?_ | refine State.setPlane_keeps ?_
    | refine State.plForceFlags_keeps ?_

theorem State.plCalCtrl_keeps {s : State} {p : Nat} {d : WData} (h : s0.Keeps b s) :
    s0.Keeps b (State.plCalCtrl s p d) := by
  unfold State.plCalCtrl
  repeat' with_reducible first
    | assumption | refine keeps_ite (fun _ => ?_) (fun _ => ?_) | refine State.wr_keeps ?_ | refine State.writeReg_keeps ?_
    | refine State.setPlane_keeps ?_ | refine State.plBoundary_keeps ?_

theorem State.plForceWrite_keeps {s : State} {p : Nat} {j : Nat} {d : WData} (h : s0.Keeps b s) :
    s0.Keeps b (State.plForceWrite s p j d) := by
  unfold State.plForceWrite
  repeat' with_reducible first
    | assumption | refine keeps_ite (fun _ => ?_) (fun _ => ?_) | refine State.writeReg_keeps ?_ | refine State.setPlane_keeps ?_
    | refine State.plBoundary_keeps ?_

theorem State.plWrite_keeps {s : State} {r : Req} {p : Nat} {off : Nat} {d : WData} (h : s0.Keeps false s) :
    s0.Keeps false (State.plWrite s r p off d) := by
  unfold State.plWrite
  repeat' with_reducible first
    | assumption | refine keeps_ite (fun _ => ?_) (fun _ => ?_) | refine State.reject_keeps ?_ | refine State.plCtrl_keeps ?_
    | refine State.plCalCtrl_keeps ?_ | refine State.wr_keeps ?_ | refine State.plForceWrite_keeps ?_ | refine State.writeReg_keeps ?_

theorem State.plEstimate_keeps {s : State} {p : Nat} {xs : List Nat} {row : Nat} {g : Nat} (h : s0.Keeps b s) :
    s0.Keeps b (State.plEstimate s p xs row g).2 := by
  unfold State.plEstimate
  repeat' with_reducible first
    | assumption | refine keeps_ite (fun _ => ?_) (fun _ => ?_) | refine State.wr_keeps ?_ | refine State.setPlane_keeps ?_
    | refine State.draw_keeps ?_ | refine State.plShow_keeps ?_ | refine State.bump_keeps ?_ | refine keeps_mk (keeps_up ?_)

theorem State.plOverride_keeps {s : State} {p : Nat} {cause : Nat} (h : s0.Keeps b s) :
    s0.Keeps b (State.plOverride s p cause) := by
  unfold State.plOverride
  repeat' with_reducible first
    | assumption | refine keeps_ite (fun _ => ?_) (fun _ => ?_) | refine State.setPlane_keeps ?_ | refine State.wr_keeps ?_
    | refine State.plEffect_keeps ?_ | refine State.bump_keeps ?_

theorem State.plEnterOut_keeps {s : State} {p : Nat} (h : s0.Keeps b s) :
    s0.Keeps b (State.plEnterOut s p) := by
  unfold State.plEnterOut
  repeat' with_reducible first
    | assumption | refine keeps_ite (fun _ => ?_) (fun _ => ?_) | refine State.plOverride_keeps ?_ | refine State.plContract_keeps ?_
    | refine State.bump_keeps ?_ | refine State.setPlane_keeps ?_ | refine State.plFault_keeps ?_

theorem State.plJudge_keeps {s : State} {p : Nat} {breach : Bool} (h : s0.Keeps b s) :
    s0.Keeps b (State.plJudge s p breach) := by
  unfold State.plJudge
  repeat' with_reducible first
    | assumption | refine keeps_ite (fun _ => ?_) (fun _ => ?_) | refine State.plEnterOut_keeps ?_ | refine State.plContract_keeps ?_
    | refine State.setPlane_keeps ?_

theorem State.plProduct_keeps {s : State} {p : Nat} {r : PlRun} (h : s0.Keeps false s) :
    s0.Keeps false (State.plProduct s p r) := by
  unfold State.plProduct
  repeat' with_reducible first
    | assumption | refine keeps_ite (fun _ => ?_) (fun _ => ?_) | refine keeps_ite₃ (fun _ => ?_) (fun _ => ?_)
    | refine State.busGet_keeps ?_ | refine State.setPl_keeps ?_ | refine State.plEstimate_keeps ?_ | refine State.bumpBy_keeps ?_
    | refine State.wr_keeps ?_ | refine State.plJudge_keeps ?_ | refine State.bump_keeps ?_ | refine State.busPut_keeps ?_
    | refine State.plBoundary_keeps ?_ | fail_if_no_progress (refine keeps_mk (keeps_up ?_)) | split | dsimp only

theorem State.plRestDone_keeps {s : State} {p : Nat} {fault : Bool} {part : Nat} (h : s0.Keeps b s) :
    s0.Keeps b (State.plRestDone s p fault part) := by
  unfold State.plRestDone
  repeat' with_reducible first
    | assumption | refine keeps_ite (fun _ => ?_) (fun _ => ?_) | refine State.plFullCal_keeps ?_ | refine State.plFault_keeps ?_
    | refine State.event_keeps ?_ | refine State.bump_keeps ?_ | refine State.setUstate_keeps ?_

theorem State.plOffsetCal_keeps {s : State} {p : Nat} (h : s0.Keeps b s) :
    s0.Keeps b (State.plOffsetCal s p) := by
  unfold State.plOffsetCal
  repeat' with_reducible first
    | assumption | refine State.bump_keeps ?_ | refine State.plMeasure_keeps ?_ | refine State.setPlane_keeps ?_

theorem State.plJobDone_keeps {s : State} {p : Nat} (h : s0.Keeps false s) :
    s0.Keeps false (State.plJobDone s p) := by
  unfold State.plJobDone
  repeat' with_reducible first
    | assumption | refine keeps_ite (fun _ => ?_) (fun _ => ?_) | refine State.busPut_keeps ?_ | refine State.send_keeps ?_
    | refine State.bumpW_keeps ?_ | refine State.setPl_keeps ?_ | refine State.plReport_keeps ?_ | refine State.plOpenTry_keeps ?_
    | refine State.plBoundary_keeps ?_ | refine State.plReady_keeps ?_ | refine State.setShell_keeps ?_ | split | dsimp only

theorem State.plStart_keeps {s : State} {p : Nat} (h : s0.Keeps b s) :
    s0.Keeps b (State.plStart s p) := by
  unfold State.plStart
  repeat' with_reducible first
    | assumption | refine keeps_ite (fun _ => ?_) (fun _ => ?_) | refine State.setPl_keeps ?_ | refine State.plBoundary_keeps ?_
    | refine State.plReady_keeps ?_ | refine State.setShell_keeps ?_ | split

theorem State.plRestEnter_keeps {s : State} {p : Nat} (h : s0.Keeps b s) :
    s0.Keeps b (State.plRestEnter s p) := by
  unfold State.plRestEnter
  repeat' with_reducible first
    | assumption | refine keeps_ite (fun _ => ?_) (fun _ => ?_) | refine State.setShell_keeps ?_ | refine State.plLeave_keeps ?_
    | refine State.setPlane_keeps ?_ | refine State.bump_keeps ?_ | refine State.wr_keeps ?_

theorem State.plArrive_keeps {s : State} {m : Msg} (h : s0.Keeps b s) :
    s0.Keeps b (State.plArrive s m) := by
  unfold State.plArrive
  repeat' with_reducible first
    | assumption | refine keeps_ite (fun _ => ?_) (fun _ => ?_) | refine State.answer_keeps ?_ | refine State.send_keeps ?_
    | refine State.setPl_keeps ?_

theorem State.plLoadDone_keeps {s : State} {p : Nat} (h : s0.Keeps b s) :
    s0.Keeps b (State.plLoadDone s p) := by
  unfold State.plLoadDone
  repeat' with_reducible first
    | assumption | refine keeps_ite (fun _ => ?_) (fun _ => ?_) | refine State.plBadSync_keeps ?_ | refine State.setPlane_keeps ?_
    | refine State.setShell_keeps ?_ | refine State.wr_keeps ?_ | refine State.event_keeps ?_

end Sys2Proof.Machine
end

