-- ==== Sys2Proof/Laws/KeepsVoxOps.lean ====
section
/-!
SUPPORT. What the operations of Machine/VoxOps.lean keep.
-/

set_option linter.all false

namespace Sys2Proof.Machine

variable {b : Bool} {s0 : State}

theorem State.setVox_keeps {s : State} {v : VoxSt} (h : s0.Keeps b s) :
    s0.Keeps b (State.setVox s v) := by
  unfold State.setVox
  repeat' with_reducible first | assumption | refine State.wr_keeps ?_ | refine keeps_mk (keeps_up ?_)

theorem State.voxReset_keeps {s : State} {st : Nat} (h : s0.Keeps false s) :
    s0.Keeps false (State.voxReset s st) := by
  unfold State.voxReset
  repeat' with_reducible first
    | assumption | refine keeps_ite (fun _ => ?_) (fun _ => ?_) | refine State.setUstate_keeps ?_ | refine State.bumpEpoch_keeps ?_
    | refine State.zeroRange_keeps ?_ | refine State.setVox_keeps ?_ | refine State.wr_keeps ?_ | refine State.iqFree_keeps ?_
    | refine keeps_foldl ?_ (fun _ _ _ => ?_) | split

theorem State.voxFree_keeps {s : State} {l : Nat} (h : s0.Keeps b s) :
    s0.Keeps b (State.voxFree s l) := by
  unfold State.voxFree
  repeat' with_reducible first | assumption | refine keeps_ite (fun _ => ?_) (fun _ => ?_) | refine State.iqFree_keeps ?_

theorem State.voxTake_keeps {s : State} {l : Nat} (h : s0.Keeps b s) :
    s0.Keeps b (State.voxTake s l) := by
  unfold State.voxTake
  repeat' with_reducible first | assumption | refine State.setQ_keeps ?_ | refine keeps_mk (keeps_up ?_)

theorem State.voxStart_keeps {s : State} {deadline : Bool} (h : s0.Keeps b s) :
    s0.Keeps b (State.voxStart s deadline) := by
  unfold State.voxStart
  repeat' with_reducible first
    | assumption | refine keeps_ite (fun _ => ?_) (fun _ => ?_) | refine State.voxFree_keeps ?_ | refine State.voxTake_keeps ?_
    | refine State.bump_keeps ?_ | refine State.wr_keeps ?_ | refine State.event_keeps ?_ | refine State.setVox_keeps ?_
    | refine keeps_foldl ?_ (fun _ _ _ => ?_) | fail_if_no_progress (refine keeps_mk (keeps_up ?_)) | split

theorem State.voxStatus_keeps {s : State} {f : VoxFrame} (h : s0.Keeps b s) :
    s0.Keeps b (State.voxStatus s f) := by
  unfold State.voxStatus
  repeat' with_reducible first | assumption | refine State.wr_keeps ?_ | refine keeps_foldl ?_ (fun _ _ _ => ?_)

theorem State.voxTrigger_keeps {s : State} {stamp : BitVec 128} {bundle : Option Nat} (h : s0.Keeps b s) :
    s0.Keeps b (State.voxTrigger s stamp bundle) := by
  unfold State.voxTrigger
  repeat' with_reducible first
    | assumption | refine keeps_ite (fun _ => ?_) (fun _ => ?_) | refine State.bump_keeps ?_ | refine State.setVox_keeps ?_
    | refine State.wr_keeps ?_

theorem State.voxFallback_keeps {s : State} {f : VoxFrame} (h : s0.Keeps b s) :
    s0.Keeps b (State.voxFallback s f) := by
  unfold State.voxFallback
  repeat' with_reducible first | assumption | refine keeps_ite (fun _ => ?_) (fun _ => ?_) | refine keeps_mk (keeps_up ?_)

theorem State.voxDone_keeps {s : State} {f : VoxFrame} {l : Nat} (h : s0.Keeps b s) :
    s0.Keeps b (State.voxDone s f l) := by
  unfold State.voxDone
  repeat' with_reducible first | assumption | refine State.voxFree_keeps ?_ | refine keeps_mk (keeps_up ?_)

theorem State.emitFrame_keeps {s : State} (h : s0.Keeps false s) :
    s0.Keeps false (State.emitFrame s) := by
  unfold State.emitFrame
  repeat' with_reducible first
    | assumption | refine keeps_ite (fun _ => ?_) (fun _ => ?_) | refine State.voxDone_keeps ?_ | refine State.voxStatus_keeps ?_
    | refine State.wr_keeps ?_ | refine State.zeroRange_keeps ?_ | refine State.event_keeps ?_ | refine State.bump_keeps ?_
    | refine State.setVox_keeps ?_ | refine State.store_keeps ?_ | refine State.voxFallback_keeps ?_ | refine State.post_keeps ?_
    | refine keeps_foldl ?_ (fun _ _ _ => ?_) | split

end Sys2Proof.Machine
end

