-- ==== Sys2Proof/Laws/KeepsUnitOps.lean ====
section
/-!
SUPPORT. What the operations of Machine/UnitOps.lean keep.
-/

set_option linter.all false

namespace Sys2Proof.Machine

variable {b : Bool} {s0 : State}

theorem State.unitResetDone_keeps {s : State} {u : Nat} (h : s0.Keeps b s) :
    s0.Keeps b (State.unitResetDone s u) := by
  unfold State.unitResetDone
  repeat' with_reducible first
    | assumption | refine keeps_ite (fun _ => ?_) (fun _ => ?_) | refine State.sqResetDone_keeps ?_ | refine State.plResetDone_keeps ?_
    | refine State.aeResetDone_keeps ?_ | refine State.ccResetDone_keeps ?_ | refine State.dynResetDone_keeps ?_
    | refine State.setUstate_keeps ?_

theorem State.unitEnter_keeps {s : State} {u : Nat} {st : Nat} (h : s0.Keeps false s) :
    s0.Keeps false (State.unitEnter s u st) := by
  unfold State.unitEnter
  repeat' with_reducible first
    | assumption | refine keeps_ite (fun _ => ?_) (fun _ => ?_) | refine State.sqEnter_keeps ?_ | refine State.plEnter_keeps ?_
    | refine State.aeEnter_keeps ?_ | refine State.alnReset_keeps ?_ | refine State.voxReset_keeps ?_ | refine State.ccEnter_keeps ?_
    | refine State.dynEnter_keeps ?_ | refine State.setUstate_keeps ?_ | refine State.bumpEpoch_keeps ?_

theorem State.unitGo_keeps {s : State} {u : Nat} {st : Nat} (h : s0.Keeps false s) :
    s0.Keeps false (State.unitGo s u st) := by
  unfold State.unitGo
  repeat' with_reducible first
    | assumption | refine keeps_ite (fun _ => ?_) (fun _ => ?_) | refine State.unitEnter_keeps ?_ | refine State.holdEpoch_keeps ?_

theorem State.unitReturn_keeps {s : State} {u : Nat} (h : s0.Keeps false s) :
    s0.Keeps false (State.unitReturn s u) := by
  unfold State.unitReturn
  repeat' with_reducible first
    | assumption | refine keeps_ite (fun _ => ?_) (fun _ => ?_) | refine State.plReturn_keeps ?_ | refine State.unitGo_keeps ?_
    | refine State.setUstate_keeps ?_

theorem State.dropHeld_keeps {s : State} {u : Nat} (h : s0.Keeps b s) :
    s0.Keeps b (State.dropHeld s u) := by
  unfold State.dropHeld
  repeat' with_reducible first | assumption | refine keeps_mk (keeps_up ?_)

theorem State.quarantine_keeps {s : State} {u : Nat} (h : s0.Keeps b s) :
    s0.Keeps b (State.quarantine s u) := by
  unfold State.quarantine
  repeat' with_reducible first
    | assumption | refine keeps_ite (fun _ => ?_) (fun _ => ?_) | refine State.dropHeld_keeps ?_ | refine State.sqLeave_keeps ?_
    | refine State.setTxq_keeps ?_ | refine State.setSq_keeps ?_ | refine State.wr_keeps ?_ | refine State.setShell_keeps ?_
    | refine State.plLeave_keeps ?_ | refine State.setPl_keeps ?_ | refine State.aeLeave_keeps ?_ | refine State.ccDrop_keeps ?_
    | refine State.setUstate_keeps ?_ | refine State.dynDrop_keeps ?_ | refine State.event_keeps ?_

theorem State.epochRelease_keeps {s : State} {u : Nat} (h : s0.Keeps false s) :
    s0.Keeps false (State.epochRelease s u) := by
  unfold State.epochRelease
  repeat' with_reducible first
    | assumption | refine keeps_ite (fun _ => ?_) (fun _ => ?_) | refine State.sqLoadNow_keeps ?_ | refine State.plOpenNow_keeps ?_
    | refine State.unitEnter_keeps ?_ | split

theorem State.unitReset_keeps {s : State} {u : Nat} (h : s0.Keeps false s) :
    s0.Keeps false (State.unitReset s u) := by
  unfold State.unitReset
  repeat' with_reducible first
    | assumption | refine keeps_ite (fun _ => ?_) (fun _ => ?_) | refine State.sqReset_keeps ?_ | refine State.plReset_keeps ?_
    | refine State.aeReset_keeps ?_ | refine State.ccReset_keeps ?_ | refine State.dynReset_keeps ?_

theorem State.unquarantine_keeps {s : State} {u : Nat} (h : s0.Keeps false s) :
    s0.Keeps false (State.unquarantine s u) := by
  unfold State.unquarantine
  repeat' with_reducible first | assumption | refine State.event_keeps ?_ | refine State.unitGo_keeps ?_

end Sys2Proof.Machine
end

