-- ==== Sys2Proof/Laws/KeepsPartOps.lean ====
section
/-!
SUPPORT. What the operations of Machine/PartOps.lean keep.
-/

set_option linter.all false

namespace Sys2Proof.Machine

variable {b : Bool} {s0 : State}

theorem State.shareFree_keeps {s : State} (h : s0.Keeps b s) :
    s0.Keeps b (State.shareFree s) := by
  unfold State.shareFree
  repeat' with_reducible first | assumption | refine State.wr_keeps ?_

theorem State.setOwner_keeps {s : State} {p : Nat} {u : Nat} {x4 : Bool} (h : s0.Keeps b s) :
    s0.Keeps b (State.setOwner s p u x4) := by
  unfold State.setOwner
  repeat' with_reducible first | assumption | refine State.wrBit_keeps ?_ | split

theorem State.onCtx_keeps {s : State} {n : Nat} {part : Option Nat} {act : State → State} (h : s0.Keeps b s)
    (ha : ∀ t, s0.Keeps b t → s0.Keeps b (act t)) : s0.Keeps b (State.onCtx s n part act) := by
  unfold State.onCtx
  exact keeps_ite (fun _ => State.swapCtx_keeps (ha _ (State.swapCtx_keeps h))) (fun _ => ha _ h)

theorem State.mbEnd_keeps {s : State} {m : Nat} {status : Nat} {vals : List Nat} (h : s0.Keeps b s) :
    s0.Keeps b (State.mbEnd s m status vals) := by
  unfold State.mbEnd
  repeat' with_reducible first
    | assumption | refine keeps_ite (fun _ => ?_) (fun _ => ?_) | refine State.setExec_keeps ?_ | split

theorem State.setRange_keeps {s : State} {p : Nat} {k : Nat} {base : Nat} {size : Nat} (h : s0.Keeps b s) :
    s0.Keeps b (State.setRange s p k base size) := by
  unfold State.setRange
  repeat' with_reducible first | assumption | refine State.wr_keeps ?_

theorem State.partCreate_keeps {s : State} {p : Nat} {ranges : List Nat} (h : s0.Keeps false s) :
    s0.Keeps false (State.partCreate s p ranges) := by
  unfold State.partCreate
  repeat' with_reducible first
    | assumption | refine keeps_ite (fun _ => ?_) (fun _ => ?_) | refine State.setRange_keeps ?_ | refine State.loseRange_keeps ?_
    | refine State.wr_keeps ?_ | refine keeps_foldl ?_ (fun _ _ _ => ?_)

theorem State.unitToReset_keeps {s : State} {u : Nat} (h : s0.Keeps false s) :
    s0.Keeps false (State.unitToReset s u) := by
  unfold State.unitToReset
  repeat' with_reducible first | assumption | refine keeps_ite (fun _ => ?_) (fun _ => ?_) | refine State.unitGo_keeps ?_

theorem State.unshare_keeps {s : State} {n : Nat} (h : s0.Keeps b s) :
    s0.Keeps b (State.unshare s n) := by
  unfold State.unshare
  repeat' with_reducible first
    | assumption | refine keeps_ite (fun _ => ?_) (fun _ => ?_) | refine State.swapCtx_keeps ?_ | refine State.setReg_keeps ?_
    | refine State.setShareCtx_keeps ?_

theorem State.handOver_keeps {s : State} {p : Nat} {u : Nat} {give : Bool} (h : s0.Keeps false s) :
    s0.Keeps false (State.handOver s p u give) := by
  unfold State.handOver
  repeat' with_reducible first
    | assumption | refine keeps_ite (fun _ => ?_) (fun _ => ?_) | refine State.unitToReset_keeps ?_ | refine State.coresHold_keeps ?_
    | refine State.unshare_keeps ?_ | refine State.setOwner_keeps ?_

theorem State.preempt_keeps {s : State} {me : Option Nat} {objs : List Nat} (h : s0.Keeps b s) :
    s0.Keeps b (State.preempt s me objs) := by
  unfold State.preempt
  repeat' with_reducible first
    | assumption | refine keeps_ite (fun _ => ?_) (fun _ => ?_) | refine State.mbEnd_keeps ?_ | refine keeps_foldl ?_ (fun _ _ _ => ?_)
    | split

theorem State.resetSecond_keeps {s : State} {p : Nat} {n : Nat} (h : s0.Keeps b s) :
    s0.Keeps b (State.resetSecond s p n) := by
  unfold State.resetSecond
  repeat' with_reducible first
    | assumption | refine keeps_ite (fun _ => ?_) (fun _ => ?_) | refine State.swapCtx_keeps ?_ | refine State.sqAbandon_keeps ?_
    | refine State.setShareCtx_keeps ?_

theorem State.partReset_keeps {s : State} {me : Option Nat} {p : Nat} (h : s0.Keeps false s) :
    s0.Keeps false (State.partReset s me p) := by
  unfold State.partReset
  repeat' with_reducible first
    | assumption | refine keeps_ite (fun _ => ?_) (fun _ => ?_) | refine State.bump_keeps ?_ | refine State.wr_keeps ?_
    | refine State.mbEnd_keeps ?_ | refine State.preempt_keeps ?_ | refine State.aePartReset_keeps ?_ | refine State.resetSecond_keeps ?_
    | refine State.unitToReset_keeps ?_ | refine State.coresHold_keeps ?_ | refine State.iqDrain_keeps ?_
    | refine keeps_foldl ?_ (fun _ _ _ => ?_)

theorem State.safeResets_keeps {s : State} (h : s0.Keeps false s) :
    s0.Keeps false (State.safeResets s) := by
  unfold State.safeResets
  repeat' with_reducible first
    | assumption | refine keeps_ite (fun _ => ?_) (fun _ => ?_) | refine State.partReset_keeps ?_
    | refine keeps_foldl ?_ (fun _ _ _ => ?_) | refine keeps_mk (keeps_up ?_)

theorem State.shareEntry_keeps {s : State} {run : Nat} {n : Nat} (h : s0.Keeps b s) :
    s0.Keeps b (State.shareEntry s run n) := by
  unfold State.shareEntry
  repeat' with_reducible first
    | assumption | refine keeps_ite (fun _ => ?_) (fun _ => ?_) | refine State.setShareCtx_keeps ?_ | refine State.shareSwitch_keeps ?_

theorem State.windowBoundary_keeps {s : State} (h : s0.Keeps b s) :
    s0.Keeps b (State.windowBoundary s) := by
  unfold State.windowBoundary
  repeat' with_reducible first
    | assumption | refine keeps_ite (fun _ => ?_) (fun _ => ?_) | refine State.wr_keeps ?_ | refine State.bumpW_keeps ?_
    | refine State.shareEntry_keeps ?_ | refine keeps_foldl ?_ (fun _ _ _ => ?_) | refine keeps_mk (keeps_up ?_)

theorem State.shareSquare_keeps {s : State} {n : Nat} {second : Nat} {split : Nat} (h : s0.Keeps b s) :
    s0.Keeps b (State.shareSquare s n second split) := by
  unfold State.shareSquare
  repeat' with_reducible first
    | assumption | refine keeps_ite (fun _ => ?_) (fun _ => ?_) | refine State.setReg_keeps ?_ | refine State.setShareCtx_keeps ?_
    | refine State.shareEntry_keeps ?_

theorem State.setPath_keeps {s : State} {p : Nat} {q : Nat} {opn : Bool} (h : s0.Keeps b s) :
    s0.Keeps b (State.setPath s p q opn) := by
  unfold State.setPath
  repeat' with_reducible first | assumption | refine State.wrBit_keeps ?_

theorem State.setShare_keeps {s : State} {p : Nat} {g : Nat} {c : Nat} (h : s0.Keeps b s) :
    s0.Keeps b (State.setShare s p g c) := by
  unfold State.setShare
  repeat' with_reducible first | assumption | refine State.shareFree_keeps ?_ | refine State.wr_keeps ?_

theorem State.partDestroy_keeps {s : State} {p : Nat} (h : s0.Keeps b s) :
    s0.Keeps b (State.partDestroy s p) := by
  unfold State.partDestroy
  repeat' with_reducible first
    | assumption | refine keeps_ite (fun _ => ?_) (fun _ => ?_) | refine State.unshare_keeps ?_ | refine State.setReg_keeps ?_
    | refine State.setRange_keeps ?_ | refine State.setPath_keeps ?_ | refine State.wr_keeps ?_ | refine State.setShare_keeps ?_
    | refine keeps_foldl ?_ (fun _ _ _ => ?_)

theorem State.partResetDone_keeps {s : State} {p : Nat} (h : s0.Keeps false s) :
    s0.Keeps false (State.partResetDone s p) := by
  unfold State.partResetDone
  repeat' with_reducible first
    | assumption | refine keeps_ite (fun _ => ?_) (fun _ => ?_) | refine State.safeResets_keeps ?_ | refine State.wr_keeps ?_
    | refine State.mbEnd_keeps ?_ | refine State.partDestroy_keeps ?_ | split | dsimp only

end Sys2Proof.Machine
end

