-- ==== Sys2Proof/Laws/KeepsCastle.lean ====
section
/-!
SUPPORT. What the operations of Machine/Castle.lean keep.
-/

set_option linter.all false

namespace Sys2Proof.Machine

variable {b : Bool} {s0 : State}

theorem State.safeWrite_keeps {s : State} {ok : Bool} {reg : Nat} {act : State → State} (h : s0.Keeps b s)
    (ha : ∀ t, s0.Keeps b t → s0.Keeps b (act t)) : s0.Keeps b (State.safeWrite s ok reg act) :=
  keeps_ite (fun _ => ha _ h) (fun _ => State.reject_keeps h)

theorem execScKickWrite_keeps {r : Req} {n : Fin 128} {d : WData} {s : State} (h : s0.Keeps b s) :
    s0.KeepsO b (execScKickWrite r n d s) := by
  unfold execScKickWrite
  repeat' with_reducible first
    | assumption | refine keepsO_next ?_ | refine keeps_ite (fun _ => ?_) (fun _ => ?_) | refine State.safeWrite_keeps ?_ (fun _ _ => ?_)
    | refine State.scKick_keeps ?_

theorem execTsMarkWrite_keeps {r : Req} {t : Fin 64} {d : WData} {s : State} (h : s0.Keeps b s) :
    s0.KeepsO b (execTsMarkWrite r t d s) := by
  unfold execTsMarkWrite
  repeat' with_reducible first
    | assumption | refine keepsO_next ?_ | refine keeps_ite (fun _ => ?_) (fun _ => ?_) | refine State.safeWrite_keeps ?_ (fun _ _ => ?_)
    | refine State.tsMark_keeps ?_

theorem State.leaveSafe_keeps {s : State} (h : s0.Keeps b s) :
    s0.Keeps b (State.leaveSafe s) := by
  unfold State.leaveSafe
  repeat' with_reducible first
    | assumption | refine keeps_ite (fun _ => ?_) (fun _ => ?_) | refine State.wr_keeps ?_ | refine State.setModState_keeps ?_

theorem execSafeExit_keeps {r : Req} {s : State} (h : s0.Keeps b s) :
    s0.KeepsO b (execSafeExit r s) := by
  unfold execSafeExit
  repeat' with_reducible first
    | assumption | refine keepsO_next ?_ | refine State.safeWrite_keeps ?_ (fun _ _ => ?_) | refine State.leaveSafe_keeps ?_

theorem execSafeReq_keeps {r : Req} {s : State} (h : s0.Keeps b s) :
    s0.KeepsO b (execSafeReq r s) := by
  unfold execSafeReq
  repeat' with_reducible first
    | assumption | refine keepsO_next ?_ | refine State.safeWrite_keeps ?_ (fun _ _ => ?_) | refine State.safeDecide_keeps ?_

theorem execScArm_keeps {r : Req} {n : Fin 128} {d : WData} {s : State} (h : s0.Keeps b s) :
    s0.KeepsO b (execScArm r n d s) := by
  unfold execScArm
  repeat' with_reducible first
    | assumption | refine keepsO_next ?_ | refine keeps_ite (fun _ => ?_) (fun _ => ?_) | refine State.safeWrite_keeps ?_ (fun _ _ => ?_)
    | refine State.writeReg_keeps ?_ | refine State.scArm_keeps ?_

theorem execTsArm_keeps {r : Req} {t : Fin 64} {d : WData} {s : State} (h : s0.Keeps b s) :
    s0.KeepsO b (execTsArm r t d s) := by
  unfold execTsArm
  repeat' with_reducible first
    | assumption | refine keepsO_next ?_ | refine keeps_ite (fun _ => ?_) (fun _ => ?_) | refine State.safeWrite_keeps ?_ (fun _ _ => ?_)
    | refine State.writeReg_keeps ?_ | refine State.tsArm_keeps ?_

theorem execPlaneReportArrive_keeps {m : Msg} {s : State} (h : s0.Keeps b s) :
    s0.KeepsO b (execPlaneReportArrive m s) := by
  unfold execPlaneReportArrive
  repeat' with_reducible first
    | assumption | refine keepsO_next ?_ | refine keeps_ite (fun _ => ?_) (fun _ => ?_) | refine State.castleDeliver_keeps ?_

theorem execScLate_keeps {n : Fin 128} {s : State} (h : s0.Keeps b s) :
    s0.KeepsO b (execScLate n s) := by
  unfold execScLate
  repeat' with_reducible first
    | assumption | refine keepsO_next ?_ | refine keeps_ite (fun _ => ?_) (fun _ => ?_) | refine State.scFall_keeps ?_

theorem execCastleRestartDone_keeps {ok : Bool} {s : State} (h : s0.Keeps b s) :
    s0.KeepsO b (execCastleRestartDone ok s) := by
  unfold execCastleRestartDone
  repeat' with_reducible first
    | assumption | refine keepsO_next ?_ | refine keeps_ite (fun _ => ?_) (fun _ => ?_) | refine State.safeLatch_keeps ?_
    | refine keeps_mk (keeps_up ?_)

theorem execCpVerdict_keeps {c : Fin 32} {mismatch : Bool} {s : State} (h : s0.Keeps b s) :
    s0.KeepsO b (execCpVerdict c mismatch s) := by
  unfold execCpVerdict
  repeat' with_reducible first
    | assumption | refine keepsO_next ?_ | refine keeps_ite (fun _ => ?_) (fun _ => ?_) | refine State.safeDecide_keeps ?_
    | refine State.setCp_keeps ?_ | refine State.bump_keeps ?_ | refine State.cpVerdict_keeps ?_

theorem execTsLimitExpire_keeps {t : Fin 64} {limit : Fin 4} {s : State} (h : s0.Keeps b s) :
    s0.KeepsO b (execTsLimitExpire t limit s) := by
  unfold execTsLimitExpire
  repeat' with_reducible first
    | assumption | refine keepsO_next ?_ | refine keeps_ite (fun _ => ?_) (fun _ => ?_) | refine State.tsViolate_keeps ?_

theorem execFzSample_keeps {i : Fin 32} {s : State} (h : s0.Keeps b s) :
    s0.KeepsO b (execFzSample i s) := by
  unfold execFzSample
  repeat' with_reducible first
    | assumption | refine keepsO_next ?_ | refine keeps_ite (fun _ => ?_) (fun _ => ?_) | refine State.wr_keeps ?_
    | refine State.fzAct_keeps ?_ | refine State.bump_keeps ?_ | refine keeps_mk (keeps_up ?_)

theorem execTsPeriodicAct_keeps {t : Fin 64} {s : State} (h : s0.Keeps b s) :
    s0.KeepsO b (execTsPeriodicAct t s) := by
  unfold execTsPeriodicAct
  repeat' with_reducible first
    | assumption | refine keepsO_next ?_ | refine keeps_ite (fun _ => ?_) (fun _ => ?_) | refine State.tsMark_keeps ?_

theorem execSafeLatch_keeps {reason : Fin 7} {s : State} (h : s0.Keeps b s) :
    s0.KeepsO b (execSafeLatch reason s) := by
  unfold execSafeLatch
  repeat' with_reducible first
    | assumption | refine keepsO_next ?_ | refine keeps_ite (fun _ => ?_) (fun _ => ?_) | refine State.safeLatch_keeps ?_

theorem execTsMark_keeps {m : Msg} {s : State} (h : s0.Keeps b s) :
    s0.KeepsO b (execTsMark m s) := by
  unfold execTsMark
  repeat' with_reducible first
    | assumption | refine keepsO_next ?_ | refine keeps_ite (fun _ => ?_) (fun _ => ?_) | refine State.castleDeliver_keeps ?_

theorem execCastleInboxMessage_keeps {m : Msg} {s : State} (h : s0.Keeps b s) :
    s0.KeepsO b (execCastleInboxMessage m s) := by
  unfold execCastleInboxMessage
  repeat' with_reducible first
    | assumption | refine keepsO_next ?_ | refine keeps_ite (fun _ => ?_) (fun _ => ?_) | refine State.castleDeliver_keeps ?_

theorem execCpDeadline_keeps {c : Fin 32} {s : State} (h : s0.Keeps b s) :
    s0.KeepsO b (execCpDeadline c s) := by
  unfold execCpDeadline
  repeat' with_reducible first | assumption | refine keepsO_next ?_ | refine State.cpVerdict_keeps ?_

theorem execCastleFault_keeps {kind : Fin 5} {s : State} (h : s0.Keeps b s) :
    s0.KeepsO b (execCastleFault kind s) := by
  unfold execCastleFault
  repeat' with_reducible first | assumption | refine keepsO_next ?_ | refine State.castleFault_keeps ?_

theorem execScKick_keeps {m : Msg} {s : State} (h : s0.Keeps b s) :
    s0.KeepsO b (execScKick m s) := by
  unfold execScKick
  repeat' with_reducible first
    | assumption | refine keepsO_next ?_ | refine keeps_ite (fun _ => ?_) (fun _ => ?_) | refine State.castleDeliver_keeps ?_

theorem execCpSubmission_keeps {m : Msg} {s : State} (h : s0.Keeps b s) :
    s0.KeepsO b (execCpSubmission m s) := by
  unfold execCpSubmission
  repeat' with_reducible first
    | assumption | refine keepsO_next ?_ | refine keeps_ite (fun _ => ?_) (fun _ => ?_) | refine State.castleDeliver_keeps ?_

end Sys2Proof.Machine
end

