-- ==== Sys2Proof/Laws/KeepsTimeOps.lean ====
section
/-!
SUPPORT. What the operations of Machine/TimeOps.lean keep.
-/

set_option linter.all false

namespace Sys2Proof.Machine

variable {b : Bool} {s0 : State}

theorem State.setPe_keeps {s : State} {j : Nat} {p : Pe} (h : s0.Keeps b s) :
    s0.Keeps b (State.setPe s j p) := by
  unfold State.setPe
  repeat' with_reducible first | assumption | refine keeps_mk (keeps_up ?_)

theorem State.dueLate_keeps {s : State} {j : Nat} {step : Bool} (h : s0.Keeps b s) :
    s0.Keeps b (State.dueLate s j step) := by
  unfold State.dueLate
  repeat' with_reducible first | assumption | refine State.setPe_keeps ?_

theorem State.stepTb_keeps {s : State} {n : Nat} {t48 : Nat} (h : s0.Keeps b s) :
    s0.Keeps b (State.stepTb s n t48) := by
  unfold State.stepTb
  repeat' with_reducible first
    | assumption | refine keeps_ite (fun _ => ?_) (fun _ => ?_) | refine State.bump_keeps ?_ | refine State.setTb_keeps ?_
    | refine State.dueLate_keeps ?_ | refine keeps_foldl ?_ (fun _ _ _ => ?_)

theorem State.phDisable_keeps {s : State} {k : Nat} (h : s0.Keeps b s) :
    s0.Keeps b (State.phDisable s k) := by
  unfold State.phDisable
  repeat' with_reducible first | assumption | refine keeps_ite (fun _ => ?_) (fun _ => ?_) | refine State.wr_keeps ?_

theorem State.setPh_keeps {s : State} {k : Nat} {p : Ph} (h : s0.Keeps b s) :
    s0.Keeps b (State.setPh s k p) := by
  unfold State.setPh
  repeat' with_reducible first | assumption | refine keeps_mk (keeps_up ?_)

theorem State.phEnable_keeps {s : State} {k : Nat} (h : s0.Keeps b s) :
    s0.Keeps b (State.phEnable s k) := by
  unfold State.phEnable
  repeat' with_reducible first
    | assumption | refine keeps_ite (fun _ => ?_) (fun _ => ?_) | refine State.setPh_keeps ?_ | refine State.wr_keeps ?_

theorem State.phCrossed_keeps {s : State} {k : Nat} {old : Nat} {d : Nat} {jump : Bool} (h : s0.Keeps b s) :
    s0.Keeps b (State.phCrossed s k old d jump) := by
  unfold State.phCrossed
  repeat' with_reducible first
    | assumption | refine keeps_ite (fun _ => ?_) (fun _ => ?_) | refine State.bump_keeps ?_ | refine State.dueLate_keeps ?_
    | refine keeps_foldl ?_ (fun _ _ _ => ?_)

theorem State.phJump_keeps {s : State} {k : Nat} {t : Int} {obs : Nat} (h : s0.Keeps b s) :
    s0.Keeps b (State.phJump s k t obs) := by
  unfold State.phJump
  repeat' with_reducible first | assumption | refine State.phCrossed_keeps ?_ | refine State.setPh_keeps ?_

theorem State.phLock_keeps {s : State} {k : Nat} {e : Int} (h : s0.Keeps b s) :
    s0.Keeps b (State.phLock s k e) := by
  unfold State.phLock
  repeat' with_reducible first
    | assumption | refine keeps_ite (fun _ => ?_) (fun _ => ?_) | refine State.wr_keeps ?_ | refine State.setPh_keeps ?_

theorem State.phTrack_keeps {s : State} {k : Nat} {t : Int} {obs : Nat} {swRate : Nat} {dt : Int} {held : Bool} (h : s0.Keeps b s) :
    s0.Keeps b (State.phTrack s k t obs swRate dt held) := by
  unfold State.phTrack
  repeat' with_reducible first
    | assumption | refine keeps_ite (fun _ => ?_) (fun _ => ?_) | refine State.bump_keeps ?_ | refine State.setPh_keeps ?_
    | refine State.wr_keeps ?_ | refine State.phCrossed_keeps ?_ | refine State.phLock_keeps ?_

theorem State.phObserve_keeps {s : State} {k : Nat} {t : Int} {obs : Nat} {swRate : Nat} (h : s0.Keeps b s) :
    s0.Keeps b (State.phObserve s k t obs swRate) := by
  unfold State.phObserve
  repeat' with_reducible first
    | assumption | refine keeps_ite (fun _ => ?_) (fun _ => ?_) | refine State.setPh_keeps ?_ | refine State.bumpW_keeps ?_
    | refine State.phJump_keeps ?_ | refine State.bump_keeps ?_ | refine State.wr_keeps ?_ | refine State.phTrack_keeps ?_ | split
    | dsimp only

theorem State.bestMaster_keeps {s : State} {d : Nat} (h : s0.Keeps b s) :
    s0.Keeps b (State.bestMaster s d) := by
  unfold State.bestMaster
  repeat' with_reducible first
    | assumption | refine keeps_ite (fun _ => ?_) (fun _ => ?_) | refine State.bump_keeps ?_ | refine State.wr_keeps ?_

theorem State.gptpCheck_keeps {s : State} (h : s0.Keeps b s) :
    s0.Keeps b (State.gptpCheck s) := by
  unfold State.gptpCheck
  repeat' with_reducible first
    | assumption | refine State.wr_keeps ?_ | refine State.bestMaster_keeps ?_ | refine keeps_foldl ?_ (fun _ _ _ => ?_)

theorem State.phDeliver_keeps {s : State} {k : Nat} {raw : Int} {stamp : Int} (h : s0.Keeps b s) :
    s0.Keeps b (State.phDeliver s k raw stamp) := by
  unfold State.phDeliver
  repeat' with_reducible first | assumption | refine keeps_ite (fun _ => ?_) (fun _ => ?_) | refine State.setPh_keeps ?_

theorem State.phDeliverAll_keeps {s : State} {source : Nat} {index : Nat} {raw : Int} {stamp : Int} (h : s0.Keeps b s) :
    s0.Keeps b (State.phDeliverAll s source index raw stamp) := by
  unfold State.phDeliverAll
  repeat' with_reducible first
    | assumption | refine keeps_ite (fun _ => ?_) (fun _ => ?_) | refine State.phDeliver_keeps ?_
    | refine keeps_foldl ?_ (fun _ _ _ => ?_)

theorem State.stepTbBy_keeps {s : State} {n : Nat} {o : Int} (h : s0.Keeps b s) :
    s0.Keeps b (State.stepTbBy s n o) := by
  unfold State.stepTbBy
  repeat' with_reducible first | assumption | refine State.stepTb_keeps ?_

theorem State.switchTb_keeps {s : State} {n : Nat} {alt : Bool} (h : s0.Keeps b s) :
    s0.Keeps b (State.switchTb s n alt) := by
  unfold State.switchTb
  repeat' with_reducible first
    | assumption | refine keeps_ite (fun _ => ?_) (fun _ => ?_) | refine State.wr_keeps ?_ | refine State.setTb_keeps ?_
    | refine State.stepTbBy_keeps ?_

theorem State.setRate_keeps {s : State} {n : Nat} {v : Int} (h : s0.Keeps b s) :
    s0.Keeps b (State.setRate s n v) := by
  unfold State.setRate
  repeat' with_reducible first | assumption | refine State.wr_keeps ?_

theorem State.enterHoldover_keeps {s : State} {n : Nat} (h : s0.Keeps b s) :
    s0.Keeps b (State.enterHoldover s n) := by
  unfold State.enterHoldover
  repeat' with_reducible first
    | assumption | refine State.setRate_keeps ?_ | refine State.wr_keeps ?_ | refine State.setTb_keeps ?_

theorem State.tbLost_keeps {s : State} {n : Nat} {code : Nat} (h : s0.Keeps b s) :
    s0.Keeps b (State.tbLost s n code) := by
  unfold State.tbLost
  repeat' with_reducible first
    | assumption | refine keeps_ite (fun _ => ?_) (fun _ => ?_) | refine State.setTb_keeps ?_ | refine State.switchTb_keeps ?_
    | refine State.enterHoldover_keeps ?_

theorem State.servo_keeps {s : State} {n : Nat} {o : Int} (h : s0.Keeps b s) :
    s0.Keeps b (State.servo s n o) := by
  unfold State.servo
  repeat' with_reducible first
    | assumption | refine keeps_ite (fun _ => ?_) (fun _ => ?_) | refine State.wr_keeps ?_ | refine State.stepTbBy_keeps ?_
    | refine State.setTb_keeps ?_ | refine State.setRate_keeps ?_ | split

theorem State.tbObserve_keeps {s : State} {n : Nat} {code : Nat} {o : Int} (h : s0.Keeps b s) :
    s0.Keeps b (State.tbObserve s n code o) := by
  unfold State.tbObserve
  repeat' with_reducible first
    | assumption | refine keeps_ite (fun _ => ?_) (fun _ => ?_) | refine State.setTb_keeps ?_ | refine State.switchTb_keeps ?_
    | refine State.servo_keeps ?_

theorem State.setPulse_keeps {s : State} {n : Nat} {p : Pulse} (h : s0.Keeps b s) :
    s0.Keeps b (State.setPulse s n p) := by
  unfold State.setPulse
  repeat' with_reducible first | assumption | refine keeps_mk (keeps_up ?_)

theorem tickTb_keeps {s : State} {n : Nat} (h : s0.Keeps b s) :
    s0.Keeps b (tickTb s n) := by
  unfold tickTb
  repeat' with_reducible first
    | assumption | refine keeps_ite (fun _ => ?_) (fun _ => ?_) | refine State.wr_keeps ?_ | refine State.setTb_keeps ?_

theorem State.startPulse_keeps {s : State} {n : Nat} {edge : Nat} (h : s0.Keeps b s) :
    s0.Keeps b (State.startPulse s n edge) := by
  unfold State.startPulse
  repeat' with_reducible first
    | assumption | refine keeps_ite (fun _ => ?_) (fun _ => ?_) | refine State.bumpW_keeps ?_ | refine State.bump_keeps ?_
    | refine State.setPulse_keeps ?_

theorem tickPh_keeps {s : State} {k : Nat} (h : s0.Keeps b s) :
    s0.Keeps b (tickPh s k) := by
  unfold tickPh
  repeat' with_reducible first | assumption | refine State.setPh_keeps ?_

theorem tickPe_keeps {s : State} {j : Nat} (h : s0.Keeps b s) :
    s0.Keeps b (tickPe s j) := by
  unfold tickPe
  repeat' with_reducible first | assumption | refine keeps_ite (fun _ => ?_) (fun _ => ?_) | refine State.setPe_keeps ?_

theorem tickTime_keeps {s : State} (h : s0.Keeps b s) :
    s0.Keeps b (tickTime s) := by
  unfold tickTime
  repeat' with_reducible first
    | assumption | refine tickTb_keeps ?_ | refine tickPh_keeps ?_ | refine tickPe_keeps ?_ | refine keeps_foldl ?_ (fun _ _ _ => ?_)

end Sys2Proof.Machine
end

