-- ==== Sys2Proof/Laws/KeepsIngestOps.lean ====
section
/-!
SUPPORT. What the operations of Machine/IngestOps.lean keep.
-/

set_option linter.all false

namespace Sys2Proof.Machine

variable {b : Bool} {s0 : State}

theorem State.frozenStep_keeps {s : State} {i : Nat} {k : Option FrozenKey} {ends : Bool} (h : s0.Keeps b s) :
    s0.Keeps b (State.frozenStep s i k ends).2 := by
  unfold State.frozenStep
  repeat' with_reducible first
    | assumption | refine keeps_ite₁ (fun _ => ?_) (fun _ => ?_) | refine State.wr_keeps ?_ | refine State.setQ_keeps ?_
    | refine State.bump_keeps ?_ | refine State.fzSignal_keeps ?_ | refine State.event_keeps ?_

theorem State.enterItemAt_keeps {s : State} {i : Nat} {o : IqOpen} {prio : Nat} {length : Nat} {crc : Nat} {flags : Nat} (h : s0.Keeps false s) :
    s0.Keeps false (State.enterItemAt s i o prio length crc flags) := by
  unfold State.enterItemAt
  repeat' with_reducible first
    | assumption | refine keeps_ite (fun _ => ?_) (fun _ => ?_) | refine State.store_keeps ?_ | refine State.setQ_keeps ?_
    | refine State.iqLevel_keeps ?_ | refine State.bumpW_keeps ?_ | refine State.iqNotify_keeps ?_ | refine State.wake_keeps ?_

theorem State.enterItem_keeps {s : State} {i : Nat} {o : IqOpen} {length : Nat} {crc : Nat} {flags : Nat} (h : s0.Keeps false s) :
    s0.Keeps false (State.enterItem s i o length crc flags) := by
  unfold State.enterItem
  repeat' with_reducible first | assumption | refine State.enterItemAt_keeps ?_

theorem State.discard_keeps {s : State} {i : Nat} {seq : Nat} (h : s0.Keeps b s) :
    s0.Keeps b (State.discard s i seq) := by
  unfold State.discard
  repeat' with_reducible first | assumption | refine State.wr_keeps ?_ | refine State.bump_keeps ?_

theorem State.putMissing_keeps {s : State} {i : Nat} {seq : Nat} {stamp : BitVec 128} (h : s0.Keeps false s) :
    s0.Keeps false (State.putMissing s i seq stamp) := by
  unfold State.putMissing
  repeat' with_reducible first
    | assumption | refine State.frozenStep_keeps ?_ | refine State.setQ_keeps ?_ | refine State.store_keeps ?_
    | refine State.bump_keeps ?_ | refine State.enterItem_keeps ?_ | refine State.discard_keeps ?_ | split | dsimp only

theorem State.payOwed_keeps {s : State} {i : Nat} (h : s0.Keeps false s) :
    s0.Keeps false (State.payOwed s i) := by
  unfold State.payOwed
  repeat' with_reducible first
    | assumption | refine State.putMissing_keeps ?_ | refine State.setQ_keeps ?_ | refine keeps_foldl ?_ (fun _ _ _ => ?_)

theorem State.closeFrame_keeps {s : State} {i : Nat} {endTs : Option (BitVec 128)} (h : s0.Keeps false s) :
    s0.Keeps false (State.closeFrame s i endTs) := by
  unfold State.closeFrame
  repeat' with_reducible first
    | assumption | refine keeps_ite (fun _ => ?_) (fun _ => ?_) | refine State.store_keeps ?_ | refine State.frozenStep_keeps ?_
    | refine State.bump_keeps ?_ | refine State.payOwed_keeps ?_ | refine State.enterItem_keeps ?_ | split

theorem State.closeItem_keeps {s : State} {i : Nat} {payload : List Byte} {cut : Bool} {whole : Bool} (h : s0.Keeps false s) :
    s0.Keeps false (State.closeItem s i payload cut whole) := by
  unfold State.closeItem
  repeat' with_reducible first
    | assumption | refine keeps_ite (fun _ => ?_) (fun _ => ?_) | refine State.frozenStep_keeps ?_ | refine State.bump_keeps ?_
    | refine State.store_keeps ?_ | refine State.payOwed_keeps ?_ | refine State.enterItem_keeps ?_ | split

theorem State.abortItem_keeps {s : State} {i : Nat} (h : s0.Keeps false s) :
    s0.Keeps false (State.abortItem s i) := by
  unfold State.abortItem
  repeat' with_reducible first
    | assumption | refine keeps_ite (fun _ => ?_) (fun _ => ?_) | refine State.closeFrame_keeps ?_ | refine State.setQ_keeps ?_
    | refine State.closeItem_keeps ?_ | split

theorem State.setSpi_keeps {s : State} {m : Nat} {v : SpiSt} (h : s0.Keeps b s) :
    s0.Keeps b (State.setSpi s m v) := by
  unfold State.setSpi
  repeat' with_reducible first | assumption | refine keeps_mk (keeps_up ?_)

theorem State.restartSlot_keeps {s : State} {i : Nat} (h : s0.Keeps b s) :
    s0.Keeps b (State.restartSlot s i) := by
  unfold State.restartSlot
  repeat' with_reducible first | assumption | refine State.wr_keeps ?_ | refine State.setQ_keeps ?_

theorem State.takeSeq_keeps {s : State} {i : Nat} (h : s0.Keeps b s) :
    s0.Keeps b (State.takeSeq s i) := by
  unfold State.takeSeq
  repeat' with_reducible first | assumption | refine State.setQ_keeps ?_

theorem State.openItem_keeps {s : State} {i : Nat} {stamp : BitVec 128} {frame : Nat} (h : s0.Keeps b s) :
    s0.Keeps b (State.openItem s i stamp frame) := by
  unfold State.openItem
  repeat' with_reducible first
    | assumption | refine State.takeSeq_keeps ?_ | refine State.iqLevel_keeps ?_ | refine State.setQ_keeps ?_
    | refine State.discard_keeps ?_ | split | dsimp only

theorem State.spiStart_keeps {s : State} {m : Nat} {stamp : BitVec 128} (h : s0.Keeps b s) :
    s0.Keeps b (State.spiStart s m stamp) := by
  unfold State.spiStart
  repeat' with_reducible first
    | assumption | refine keeps_ite (fun _ => ?_) (fun _ => ?_) | refine State.openItem_keeps ?_ | refine State.setSpi_keeps ?_ | split

theorem State.putSample_keeps {s : State} {i : Nat} {stamp : BitVec 128} {payload : List Byte} (h : s0.Keeps false s) :
    s0.Keeps false (State.putSample s i stamp payload) := by
  unfold State.putSample
  repeat' with_reducible first
    | assumption | refine keeps_ite (fun _ => ?_) (fun _ => ?_) | refine State.openItem_keeps ?_ | refine State.closeItem_keeps ?_

theorem State.setEnc_keeps {s : State} {e : Nat} {v : EncSt} (h : s0.Keeps b s) :
    s0.Keeps b (State.setEnc s e v) := by
  unfold State.setEnc
  repeat' with_reducible first | assumption | refine keeps_mk (keeps_up ?_)

theorem State.phSense_keeps {s : State} {source : Nat} {index : Nat} {raw : Int} {ago : Nat} (h : s0.Keeps b s) :
    s0.Keeps b (State.phSense s source index raw ago) := by
  unfold State.phSense
  repeat' with_reducible first
    | assumption | refine keeps_ite (fun _ => ?_) (fun _ => ?_) | refine State.phDeliver_keeps ?_
    | refine keeps_foldl ?_ (fun _ _ _ => ?_)

theorem State.encLatch_keeps {s : State} {e : Nat} {ssi : Nat × Bool} (h : s0.Keeps false s) :
    s0.Keeps false (State.encLatch s e ssi) := by
  unfold State.encLatch
  repeat' with_reducible first
    | assumption | refine keeps_ite (fun _ => ?_) (fun _ => ?_) | refine State.wr_keeps ?_ | refine State.bump_keeps ?_
    | refine State.phSense_keeps ?_ | refine State.setEnc_keeps ?_ | refine State.tapSample_keeps ?_ | refine State.putSample_keeps ?_
    | split | dsimp only

theorem State.abandonFrame_keeps {s : State} {i : Nat} (h : s0.Keeps false s) :
    s0.Keeps false (State.abandonFrame s i) := by
  unfold State.abandonFrame
  repeat' with_reducible first
    | assumption | refine keeps_ite (fun _ => ?_) (fun _ => ?_) | refine State.closeFrame_keeps ?_ | refine State.bump_keeps ?_

theorem State.putRow_keeps {s : State} {i : Nat} {stamp : BitVec 128} {data : List Byte} {bad : Bool} (h : s0.Keeps false s) :
    s0.Keeps false (State.putRow s i stamp data bad) := by
  unfold State.putRow
  repeat' with_reducible first
    | assumption | refine keeps_ite (fun _ => ?_) (fun _ => ?_) | refine State.store_keeps ?_ | refine State.setQ_keeps ?_ | split

theorem State.openFrame_keeps {s : State} {i : Nat} {stamp : BitVec 128} {frame : Nat} (h : s0.Keeps false s) :
    s0.Keeps false (State.openFrame s i stamp frame) := by
  unfold State.openFrame
  repeat' with_reducible first
    | assumption | refine State.openItem_keeps ?_ | refine State.store_keeps ?_ | split | dsimp only

end Sys2Proof.Machine
end

