-- ==== Sys2Proof/Laws/KeepsEvents.lean ====
section
/-!
SUPPORT. What the operations of Machine/Events.lean keep.
-/

set_option linter.all false

namespace Sys2Proof.Machine

variable {b : Bool} {s0 : State}

theorem State.peDisarm_keeps {s : State} {j : Nat} (h : s0.Keeps b s) :
    s0.Keeps b (State.peDisarm s j) := by
  unfold State.peDisarm
  repeat' with_reducible first | assumption | refine State.setPe_keeps ?_ | refine State.wr_keeps ?_

theorem State.peArmed_keeps {s : State} {j : Nat} (h : s0.Keeps b s) :
    s0.Keeps b (State.peArmed s j) := by
  unfold State.peArmed
  repeat' with_reducible first
    | assumption | refine keeps_ite (fun _ => ?_) (fun _ => ?_) | refine State.setPe_keeps ?_ | refine State.dueLate_keeps ?_

theorem State.peCtrl_keeps {s : State} {j : Nat} {d : WData} (h : s0.Keeps b s) :
    s0.Keeps b (State.peCtrl s j d) := by
  unfold State.peCtrl
  repeat' with_reducible first
    | assumption | refine keeps_ite (fun _ => ?_) (fun _ => ?_) | refine State.reject_keeps ?_ | refine State.peDisarm_keeps ?_
    | refine State.writeReg_keeps ?_ | refine State.peArmed_keeps ?_

theorem execPeCtrlWrite_keeps {r : Req} {j : Fin 64} {d : WData} {s : State} (h : s0.Keeps b s) :
    s0.KeepsO b (execPeCtrlWrite r j d s) := by
  unfold execPeCtrlWrite
  repeat' with_reducible first
    | assumption | refine keepsO_next ?_ | refine keeps_ite (fun _ => ?_) (fun _ => ?_) | refine State.peCtrl_keeps ?_
    | refine State.reject_keeps ?_

theorem execPeRetargetWrite_keeps {r : Req} {j : Fin 64} {d : WData} {s : State} (h : s0.Keeps b s) :
    s0.KeepsO b (execPeRetargetWrite r j d s) := by
  unfold execPeRetargetWrite
  repeat' with_reducible first
    | assumption | refine keepsO_next ?_ | refine keeps_ite (fun _ => ?_) (fun _ => ?_) | refine State.peArmed_keeps ?_
    | refine State.wr_keeps ?_ | refine State.reject_keeps ?_

theorem State.peNotify_keeps {s : State} {j : Nat} {ts : BitVec 128} (h : s0.Keeps b s) :
    s0.Keeps b (State.peNotify s j ts) := by
  unfold State.peNotify
  repeat' with_reducible first
    | assumption | refine keeps_ite (fun _ => ?_) (fun _ => ?_) | refine State.wake_keeps ?_ | refine State.post_keeps ?_

theorem State.evtPush_keeps {s : State} {x : EvtEntry} (h : s0.Keeps b s) :
    s0.Keeps b (State.evtPush s x) := by
  unfold State.evtPush
  repeat' with_reducible first
    | assumption | refine keeps_ite (fun _ => ?_) (fun _ => ?_) | refine State.wr_keeps ?_ | refine State.bump_keeps ?_
    | refine keeps_mk (keeps_up ?_)

theorem State.peSample_keeps {s : State} {j : Nat} {ssi : Nat × Bool} (h : s0.Keeps false s) :
    s0.Keeps false (State.peSample s j ssi) := by
  unfold State.peSample
  repeat' with_reducible first
    | assumption | refine keeps_ite (fun _ => ?_) (fun _ => ?_) | refine State.spiStart_keeps ?_ | refine State.encLatch_keeps ?_

theorem State.peArm_keeps {s : State} {j : Nat} (h : s0.Keeps b s) :
    s0.Keeps b (State.peArm s j) := by
  unfold State.peArm
  repeat' with_reducible first
    | assumption | refine keeps_ite (fun _ => ?_) (fun _ => ?_) | refine State.peArmed_keeps ?_ | refine State.wr_keeps ?_

theorem State.peExpect_keeps {s : State} {j : Nat} {ts : BitVec 128} (h : s0.Keeps b s) :
    s0.Keeps b (State.peExpect s j ts) := by
  unfold State.peExpect
  repeat' with_reducible first
    | assumption | refine keeps_ite (fun _ => ?_) (fun _ => ?_) | refine State.setQ_keeps ?_ | refine keeps_foldl ?_ (fun _ _ _ => ?_)

theorem State.peAct_keeps {s : State} {j : Nat} {e : Pe} {ssi : Nat × Bool} (h : s0.Keeps false s) :
    s0.Keeps false (State.peAct s j e ssi) := by
  unfold State.peAct
  repeat' with_reducible first
    | assumption | refine keeps_ite (fun _ => ?_) (fun _ => ?_) | refine State.bumpW_keeps ?_ | refine State.bump_keeps ?_
    | refine State.wr_keeps ?_ | refine State.startPulse_keeps ?_ | refine State.evtPush_keeps ?_ | refine State.peNotify_keeps ?_
    | refine State.fuse_keeps ?_ | refine State.peSample_keeps ?_ | refine State.peArm_keeps ?_ | refine State.peExpect_keeps ?_

theorem State.peAdvance_keeps {s : State} {j : Nat} {step : Bool} (h : s0.Keeps b s) :
    s0.Keeps b (State.peAdvance s j step) := by
  unfold State.peAdvance
  repeat' with_reducible first
    | assumption | refine keeps_ite (fun _ => ?_) (fun _ => ?_) | refine State.setPe_keeps ?_ | refine State.bumpBy_keeps ?_
    | refine State.wr_keeps ?_ | refine State.peDisarm_keeps ?_

theorem execPeMatch_keeps {j : Fin 64} {ssi : Word} {ssiOk : Bool} {s : State} (h : s0.Keeps false s) :
    s0.KeepsO false (execPeMatch j ssi ssiOk s) := by
  unfold execPeMatch
  repeat' with_reducible first
    | assumption | refine keepsO_next ?_ | refine keeps_ite (fun _ => ?_) (fun _ => ?_) | refine State.bump_keeps ?_
    | refine State.peAct_keeps ?_ | refine State.peAdvance_keeps ?_

end Sys2Proof.Machine
end

