-- ==== Sys2Proof/Laws/KeepsLinkOps.lean ====
section
/-!
SUPPORT. What the operations of Machine/LinkOps.lean keep.
-/

set_option linter.all false

namespace Sys2Proof.Machine

variable {b : Bool} {s0 : State}

theorem State.linkIrq_keeps {s : State} (h : s0.Keeps b s) :
    s0.Keeps b (State.linkIrq s) := by
  unfold State.linkIrq
  repeat' with_reducible first | assumption | refine State.raiseMsix_keeps ?_ | refine State.raiseIrq_keeps ?_

theorem State.computeRoutes_keeps {s : State} (h : s0.Keeps b s) :
    s0.Keeps b (State.computeRoutes s) := by
  unfold State.computeRoutes
  repeat' with_reducible first
    | assumption | refine State.wr_keeps ?_ | refine keeps_foldl ?_ (fun _ _ _ => ?_) | split | dsimp only

theorem State.numberNet_keeps {s : State} (h : s0.Keeps b s) :
    s0.Keeps b (State.numberNet s) := by
  unfold State.numberNet
  repeat' with_reducible first | assumption | refine State.wr_keeps ?_ | refine State.computeRoutes_keeps ?_

theorem State.placeLink_keeps {s : State} {k : Nat} (h : s0.Keeps b s) :
    s0.Keeps b (State.placeLink s k) := by
  unfold State.placeLink
  repeat' with_reducible first
    | assumption | refine keeps_ite (fun _ => ?_) (fun _ => ?_) | refine State.wr_keeps ?_ | split

theorem State.placeLinks_keeps {s : State} (h : s0.Keeps b s) :
    s0.Keeps b (State.placeLinks s) := by
  unfold State.placeLinks
  repeat' with_reducible first | assumption | refine State.placeLink_keeps ?_ | refine keeps_foldl ?_ (fun _ _ _ => ?_)

theorem State.enterForming_keeps {s : State} {known : List Nat} (h : s0.Keeps b s) :
    s0.Keeps b (State.enterForming s known) := by
  unfold State.enterForming
  repeat' with_reducible first
    | assumption | refine State.linkIrq_keeps ?_ | refine State.placeLinks_keeps ?_ | refine State.wr_keeps ?_
    | refine keeps_mk (keeps_up ?_)

theorem State.netReform_keeps {s : State} (h : s0.Keeps b s) :
    s0.Keeps b (State.netReform s) := by
  unfold State.netReform
  repeat' with_reducible first
    | assumption | refine keeps_ite (fun _ => ?_) (fun _ => ?_) | refine State.linkIrq_keeps ?_ | refine State.numberNet_keeps ?_
    | refine State.placeLinks_keeps ?_ | refine State.wr_keeps ?_ | refine State.enterForming_keeps ?_ | refine keeps_mk (keeps_up ?_)

theorem State.dropOutgoing_keeps {s : State} {lost : List Nat} (h : s0.Keeps b s) :
    s0.Keeps b (State.dropOutgoing s lost) := by
  unfold State.dropOutgoing
  repeat' with_reducible first
    | assumption | refine keeps_ite (fun _ => ?_) (fun _ => ?_) | refine State.draw_keeps ?_ | refine State.answer_keeps ?_
    | refine keeps_foldl ?_ (fun _ _ _ => ?_) | refine keeps_mk (keeps_up ?_)

theorem State.relayMissing_keeps {s : State} {r : Nat} (h : s0.Keeps false s) :
    s0.Keeps false (State.relayMissing s r) := by
  unfold State.relayMissing
  repeat' with_reducible first
    | assumption | refine State.bump_keeps ?_ | refine State.putMissing_keeps ?_ | refine State.takeSeq_keeps ?_

theorem State.reroute_keeps {s : State} {downLink : Option Nat} {act : State → State} (h : s0.Keeps false s)
    (ha : ∀ t, s0.Keeps false t → s0.Keeps false (act t)) : s0.Keeps false (State.reroute s downLink act) :=
  State.dropOutgoing_keeps (keeps_foldl (State.numberNet_keeps (ha _ h)) (fun _ _ k => State.relayMissing_keeps k))

theorem State.linkDown_keeps {s : State} {k : Nat} (h : s0.Keeps false s) :
    s0.Keeps false (State.linkDown s k) := by
  unfold State.linkDown
  repeat' with_reducible first
    | assumption | refine keeps_ite (fun _ => ?_) (fun _ => ?_) | refine State.reroute_keeps ?_ (fun _ _ => ?_)
    | refine State.bump_keeps ?_ | refine State.wr_keeps ?_ | refine State.linkIrq_keeps ?_ | refine State.event_keeps ?_

theorem State.zlEnable_keeps {s : State} {k : Nat} {on : Bool} (h : s0.Keeps false s) :
    s0.Keeps false (State.zlEnable s k on) := by
  unfold State.zlEnable
  repeat' with_reducible first
    | assumption | refine keeps_ite (fun _ => ?_) (fun _ => ?_) | refine State.wr_keeps ?_ | refine State.linkDown_keeps ?_

theorem State.zlRetrain_keeps {s : State} {k : Nat} (h : s0.Keeps false s) :
    s0.Keeps false (State.zlRetrain s k) := by
  unfold State.zlRetrain
  repeat' with_reducible first | assumption | refine State.linkDown_keeps ?_

theorem State.linkWrite_keeps {s : State} {r : Req} {off : Nat} {d : WData} (h : s0.Keeps false s) :
    s0.Keeps false (State.linkWrite s r off d) := by
  unfold State.linkWrite
  repeat' with_reducible first
    | assumption | refine keeps_ite (fun _ => ?_) (fun _ => ?_) | refine State.reject_keeps ?_ | refine State.wr_keeps ?_
    | refine State.writeReg_keeps ?_ | refine State.netReform_keeps ?_ | refine State.zlEnable_keeps ?_ | refine State.zlRetrain_keeps ?_

theorem State.formNet_keeps {s : State} {members : List Nat} {edges : List (Nat × Nat)} (h : s0.Keeps b s) :
    s0.Keeps b (State.formNet s members edges) := by
  unfold State.formNet
  repeat' with_reducible first
    | assumption | refine State.numberNet_keeps ?_ | refine State.placeLinks_keeps ?_ | refine State.bump_keeps ?_
    | refine State.wr_keeps ?_ | refine State.linkIrq_keeps ?_ | refine State.event_keeps ?_ | refine keeps_mk (keeps_up ?_)

theorem State.linkTrained_keeps {s : State} {k : Nat} {p : PeerHello} (h : s0.Keeps b s) :
    s0.Keeps b (State.linkTrained s k p) := by
  unfold State.linkTrained
  repeat' with_reducible first
    | assumption | refine keeps_ite (fun _ => ?_) (fun _ => ?_) | refine State.wr_keeps ?_ | refine State.numberNet_keeps ?_
    | refine State.placeLink_keeps ?_ | refine State.formNet_keeps ?_ | refine State.enterForming_keeps ?_
    | fail_if_no_progress (refine keeps_mk (keeps_up ?_)) | split

theorem State.relayObs_keeps {s : State} {i : Nat} {stamp : BitVec 128} {l : List Byte} (h : s0.Keeps b s) :
    s0.Keeps b (State.relayObs s i stamp l) := by
  unfold State.relayObs
  repeat' with_reducible first
    | assumption | refine keeps_ite (fun _ => ?_) (fun _ => ?_) | refine State.phDeliver_keeps ?_
    | refine keeps_foldl ?_ (fun _ _ _ => ?_) | split

theorem State.putRelayed_keeps {s : State} {r : Nat} {i : Nat} {item : List Byte} (h : s0.Keeps false s) :
    s0.Keeps false (State.putRelayed s r i item).2 := by
  unfold State.putRelayed
  repeat' with_reducible first
    | assumption | refine keeps_ite (fun _ => ?_) (fun _ => ?_) | refine State.setQ_keeps ?_ | refine State.openItem_keeps ?_
    | refine State.frozenStep_keeps ?_ | refine State.bump_keeps ?_ | refine State.store_keeps ?_ | refine State.payOwed_keeps ?_
    | refine State.enterItemAt_keeps ?_ | split | dsimp only

theorem State.relayTake_keeps {s : State} {r : Nat} {item : List Byte} (h : s0.Keeps false s) :
    s0.Keeps false (State.relayTake s r item) := by
  unfold State.relayTake
  repeat' with_reducible first
    | assumption | refine keeps_ite (fun _ => ?_) (fun _ => ?_) | refine State.relayObs_keeps ?_ | refine State.putRelayed_keeps ?_
    | refine State.bumpW_keeps ?_ | refine State.bump_keeps ?_

end Sys2Proof.Machine
end

