-- ==== Sys2Proof/Laws/KeepsPorts.lean ====
section
/-!
SUPPORT. What the operations of Machine/Ports.lean keep.
-/

set_option linter.all false

namespace Sys2Proof.Machine

variable {b : Bool} {s0 : State}

theorem State.stopStreams_keeps {s : State} {g : StreamReg} (h : s0.Keeps false s) :
    s0.Keeps false (State.stopStreams s g) := by
  unfold State.stopStreams
  repeat' with_reducible first
    | assumption | refine State.abortItem_keeps ?_ | refine State.setSpi_keeps ?_ | refine keeps_foldl ?_ (fun _ _ _ => ?_) | split

theorem State.streamWrite_keeps {s : State} {r : Req} {g : StreamReg} {d : WData} (h : s0.Keeps false s) :
    s0.Keeps false (State.streamWrite s r g d) := by
  unfold State.streamWrite
  repeat' with_reducible first
    | assumption | refine keeps_ite (fun _ => ?_) (fun _ => ?_) | refine State.writeReg_keeps ?_ | refine State.stopStreams_keeps ?_
    | refine State.restartSlot_keeps ?_ | refine State.gptpCheck_keeps ?_ | refine State.reject_keeps ?_
    | refine keeps_foldl ?_ (fun _ _ _ => ?_) | split

theorem State.cursorWrite_keeps {s : State} {r : Req} {i : Nat} {d : WData} (h : s0.Keeps b s) :
    s0.Keeps b (State.cursorWrite s r i d) := by
  unfold State.cursorWrite
  repeat' with_reducible first
    | assumption | refine keeps_ite (fun _ => ?_) (fun _ => ?_) | refine State.iqCursor_keeps ?_ | refine State.iqReject_keeps ?_

theorem execIqReleaseWrite_keeps {r : Req} {i : Fin 32} {d : WData} {s : State} (h : s0.Keeps b s) :
    s0.KeepsO b (execIqReleaseWrite r i d s) := by
  unfold execIqReleaseWrite
  repeat' with_reducible first
    | assumption | refine keepsO_next ?_ | refine keeps_ite (fun _ => ?_) (fun _ => ?_) | refine State.iqReject_keeps ?_
    | refine State.iqRelease_keeps ?_

theorem execSpiPeriodExpire_keeps {m : Fin 4} {s : State} (h : s0.Keeps b s) :
    s0.KeepsO b (execSpiPeriodExpire m s) := by
  unfold execSpiPeriodExpire
  repeat' with_reducible first
    | assumption | refine keepsO_next ?_ | refine keeps_ite (fun _ => ?_) (fun _ => ?_) | refine State.spiStart_keeps ?_

theorem State.withData_keeps {s : State} {v : Nat} (h : s0.Keeps b s) :
    s0.Keeps b (State.withData s v) := by
  unfold State.withData
  repeat' with_reducible first | assumption | refine keeps_mk (keeps_up ?_)

theorem State.iqTake_keeps {s : State} {i : Nat} (h : s0.Keeps b s) :
    s0.Keeps b (State.iqTake s i) := by
  unfold State.iqTake
  repeat' with_reducible first
    | assumption | refine State.withData_keeps ?_ | refine State.iqAdvance_keeps ?_ | split

theorem State.gpioItem_keeps {s : State} {edges : Nat} {i : Nat} (h : s0.Keeps false s) :
    s0.Keeps false (State.gpioItem s edges i) := by
  unfold State.gpioItem
  repeat' with_reducible first | assumption | refine keeps_ite (fun _ => ?_) (fun _ => ?_) | refine State.putSample_keeps ?_

theorem execGpioInputEdge_keeps {levels : Word} {s : State} (h : s0.Keeps false s) :
    s0.KeepsO false (execGpioInputEdge levels s) := by
  unfold execGpioInputEdge
  repeat' with_reducible first
    | assumption | refine keepsO_next ?_ | refine keeps_ite (fun _ => ?_) (fun _ => ?_) | refine State.wr_keeps ?_
    | refine State.reflexEval_keeps ?_ | refine State.gpioItem_keeps ?_ | refine keeps_foldl ?_ (fun _ _ _ => ?_)
    | refine keeps_mk (keeps_up ?_)

theorem execQuadratureEdge_keeps {e : Fin 8} {up : Bool} {illegal : Bool} {s : State} (h : s0.Keeps b s) :
    s0.KeepsO b (execQuadratureEdge e up illegal s) := by
  unfold execQuadratureEdge
  repeat' with_reducible first
    | assumption | refine keepsO_next ?_ | refine keeps_ite (fun _ => ?_) (fun _ => ?_) | refine State.bump_keeps ?_
    | refine State.setEnc_keeps ?_ | refine State.phSense_keeps ?_ | refine State.wr_keeps ?_

theorem State.csiLineObs_keeps {s : State} {c : Nat} {ago : Nat} (h : s0.Keeps b s) :
    s0.Keeps b (State.csiLineObs s c ago) := by
  unfold State.csiLineObs
  repeat' with_reducible first
    | assumption | refine keeps_ite (fun _ => ?_) (fun _ => ?_) | refine State.phDeliver_keeps ?_ | refine State.setPh_keeps ?_
    | refine keeps_foldl ?_ (fun _ _ _ => ?_)

theorem State.relayOut_keeps {s : State} {i : Nat} {e : IqItem} (h : s0.Keeps b s) :
    s0.Keeps b (State.relayOut s i e) := by
  unfold State.relayOut
  repeat' with_reducible first
    | assumption | refine keeps_ite (fun _ => ?_) (fun _ => ?_) | refine State.bumpW_keeps ?_ | refine keeps_foldl ?_ (fun _ _ _ => ?_)
    | refine keeps_mk (keeps_up ?_)

theorem execPauseRefresh_keeps {p : Fin 4} {s : State} (h : s0.Keeps b s) :
    s0.KeepsO b (execPauseRefresh p s) := by
  unfold execPauseRefresh
  repeat' with_reducible first
    | assumption | refine keepsO_next ?_ | refine keeps_ite (fun _ => ?_) (fun _ => ?_) | refine State.sendPause_keeps ?_

theorem execIqAnyHeadRead_keeps {r : Req} {s : State} (h : s0.Keeps b s) :
    s0.KeepsO b (execIqAnyHeadRead r s) := by
  unfold execIqAnyHeadRead
  repeat' with_reducible first
    | assumption | refine keepsO_next ?_ | refine State.iqTake_keeps ?_ | refine State.withData_keeps ?_ | split

theorem execIqHeadRead_keeps {r : Req} {i : Fin 32} {s : State} (h : s0.Keeps b s) :
    s0.KeepsO b (execIqHeadRead r i s) := by
  unfold execIqHeadRead
  repeat' with_reducible first
    | assumption | refine keepsO_next ?_ | refine keeps_ite (fun _ => ?_) (fun _ => ?_) | refine State.iqTake_keeps ?_
    | refine State.withData_keeps ?_ | refine State.iqReject_keeps ?_

theorem State.csiErrors_keeps {s : State} {c : Nat} {crcErr : Bool} {eccErr : Bool} (h : s0.Keeps b s) :
    s0.Keeps b (State.csiErrors s c crcErr eccErr) := by
  unfold State.csiErrors
  repeat' with_reducible first | assumption | refine keeps_ite (fun _ => ?_) (fun _ => ?_) | refine State.bump_keeps ?_

theorem execStreamDisable_keeps {r : Req} {g : StreamReg} {d : WData} {s : State} (h : s0.Keeps false s) :
    s0.KeepsO false (execStreamDisable r g d s) := by
  unfold execStreamDisable
  repeat' with_reducible first | assumption | refine keepsO_next ?_ | refine State.streamWrite_keeps ?_

theorem execEncPeriodExpire_keeps {e : Fin 8} {ssi : Word32} {ssiOk : Bool} {s : State} (h : s0.Keeps false s) :
    s0.KeepsO false (execEncPeriodExpire e ssi ssiOk s) := by
  unfold execEncPeriodExpire
  repeat' with_reducible first
    | assumption | refine keepsO_next ?_ | refine keeps_ite (fun _ => ?_) (fun _ => ?_) | refine State.encLatch_keeps ?_

theorem execItemVisible_keeps {i : Fin 32} {s : State} (h : s0.Keeps b s) :
    s0.KeepsO b (execItemVisible i s) := by
  unfold execItemVisible
  repeat' with_reducible first
    | assumption | refine keepsO_next ?_ | refine State.setQ_keeps ?_ | refine State.relayOut_keeps ?_ | split

theorem execEthLinkChange_keeps {p : Fin 4} {up : Bool} {s : State} (h : s0.Keeps b s) :
    s0.KeepsO b (execEthLinkChange p up s) := by
  unfold execEthLinkChange
  repeat' with_reducible first | assumption | refine keepsO_next ?_ | refine State.wr_keeps ?_

theorem execIqRewind_keeps {r : Req} {i : Fin 32} {d : WData} {s : State} (h : s0.Keeps b s) :
    s0.KeepsO b (execIqRewind r i d s) := by
  unfold execIqRewind
  repeat' with_reducible first | assumption | refine keepsO_next ?_ | refine State.cursorWrite_keeps ?_

theorem execIqMark_keeps {r : Req} {i : Fin 32} {d : WData} {s : State} (h : s0.Keeps b s) :
    s0.KeepsO b (execIqMark r i d s) := by
  unfold execIqMark
  repeat' with_reducible first | assumption | refine keepsO_next ?_ | refine State.cursorWrite_keeps ?_

theorem execCsiFrameTimeout_keeps {i : Fin 32} {s : State} (h : s0.Keeps false s) :
    s0.KeepsO false (execCsiFrameTimeout i s) := by
  unfold execCsiFrameTimeout
  repeat' with_reducible first
    | assumption | refine keepsO_next ?_ | refine keeps_ite (fun _ => ?_) (fun _ => ?_) | refine State.abandonFrame_keeps ?_

theorem execCsiLinkUp_keeps {c : Fin 16} {s : State} (h : s0.Keeps b s) :
    s0.KeepsO b (execCsiLinkUp c s) := by
  unfold execCsiLinkUp
  repeat' with_reducible first
    | assumption | refine keepsO_next ?_ | refine keeps_ite (fun _ => ?_) (fun _ => ?_) | refine State.wr_keeps ?_

theorem State.lidarObs_keeps {s : State} {i : Nat} {p : Nat} {ago : Nat} {l : List Byte} (h : s0.Keeps b s) :
    s0.Keeps b (State.lidarObs s i p ago l) := by
  unfold State.lidarObs
  repeat' with_reducible first
    | assumption | refine keeps_ite (fun _ => ?_) (fun _ => ?_) | refine State.phDeliver_keeps ?_
    | refine keeps_foldl ?_ (fun _ _ _ => ?_) | split

theorem execSpiDrdyEdge_keeps {m : Fin 16} {rising : Bool} {held : Nat} {frac : Fin 64} {s : State} (h : s0.Keeps b s) :
    s0.KeepsO b (execSpiDrdyEdge m rising held frac s) := by
  unfold execSpiDrdyEdge
  repeat' with_reducible first
    | assumption | refine keepsO_next ?_ | refine keeps_ite (fun _ => ?_) (fun _ => ?_) | refine State.spiStart_keeps ?_
    | refine keeps_foldl ?_ (fun _ _ _ => ?_)

theorem execCanFrameValid_keeps {x1 : Fin 8} {f : CanFrame} {ago : Nat} {s : State} (h : s0.Keeps false s) :
    s0.KeepsO false (execCanFrameValid x1 f ago s) := by
  unfold execCanFrameValid
  repeat' with_reducible first
    | assumption | refine keepsO_next ?_ | refine keeps_ite (fun _ => ?_) (fun _ => ?_) | refine State.bump_keeps ?_
    | refine State.putSample_keeps ?_ | refine State.tapSample_keeps ?_ | split

theorem State.csiLineReset_keeps {s : State} {c : Nat} (h : s0.Keeps b s) :
    s0.Keeps b (State.csiLineReset s c) := by
  unfold State.csiLineReset
  repeat' with_reducible first
    | assumption | refine keeps_ite (fun _ => ?_) (fun _ => ?_) | refine State.setPh_keeps ?_ | refine keeps_foldl ?_ (fun _ _ _ => ?_)

theorem State.setCsiSeen_keeps {s : State} {c : Nat} {l : List Nat} (h : s0.Keeps b s) :
    s0.Keeps b (State.setCsiSeen s c l) := by
  unfold State.setCsiSeen
  repeat' with_reducible first | assumption | refine keeps_mk (keeps_up ?_)

theorem execCsiLine_keeps {c : Fin 16} {vc : Fin 4} {dt : Fin 64} {ls : Option Nat} {data : List Byte} {crcErr : Bool} {eccErr : Bool} {s : State} (h : s0.Keeps false s) :
    s0.KeepsO false (execCsiLine c vc dt ls data crcErr eccErr s) := by
  unfold execCsiLine
  repeat' with_reducible first
    | assumption | refine keepsO_next ?_ | refine keeps_ite (fun _ => ?_) (fun _ => ?_) | refine State.csiErrors_keeps ?_
    | refine State.csiLineObs_keeps ?_ | refine State.putRow_keeps ?_ | refine State.setCsiSeen_keeps ?_ | refine State.bump_keeps ?_
    | split | dsimp only

theorem execCsiFrameStart_keeps {c : Fin 16} {vc : Fin 4} {frame : BitVec 16} {s : State} (h : s0.Keeps false s) :
    s0.KeepsO false (execCsiFrameStart c vc frame s) := by
  unfold execCsiFrameStart
  repeat' with_reducible first
    | assumption | refine keepsO_next ?_ | refine keeps_ite (fun _ => ?_) (fun _ => ?_) | refine State.setCsiSeen_keeps ?_
    | refine State.csiLineReset_keeps ?_ | refine State.bump_keeps ?_ | refine State.openFrame_keeps ?_
    | refine State.abandonFrame_keeps ?_ | refine keeps_foldl ?_ (fun _ _ _ => ?_)

theorem execStreamEnable_keeps {r : Req} {g : StreamReg} {d : WData} {s : State} (h : s0.Keeps false s) :
    s0.KeepsO false (execStreamEnable r g d s) := by
  unfold execStreamEnable
  repeat' with_reducible first | assumption | refine keepsO_next ?_ | refine State.streamWrite_keeps ?_

theorem execEthFrameReceive_keeps {p : Fin 4} {frame : List Byte} {fcsOk : Bool} {ago : Nat} {s : State} (h : s0.Keeps false s) :
    s0.KeepsO false (execEthFrameReceive p frame fcsOk ago s) := by
  unfold execEthFrameReceive
  repeat' with_reducible first
    | assumption | refine keepsO_next ?_ | refine keeps_ite (fun _ => ?_) (fun _ => ?_) | refine State.bump_keeps ?_
    | refine State.putSample_keeps ?_ | refine State.lidarObs_keeps ?_ | fail_if_no_progress (refine keeps_mk (keeps_up ?_)) | split

theorem execExpectWindowExpire_keeps {i : Fin 32} {s : State} (h : s0.Keeps false s) :
    s0.KeepsO false (execExpectWindowExpire i s) := by
  unfold execExpectWindowExpire
  repeat' with_reducible first
    | assumption | refine keepsO_next ?_ | refine keeps_ite (fun _ => ?_) (fun _ => ?_) | refine State.takeSeq_keeps ?_
    | refine State.setQ_keeps ?_ | refine State.putMissing_keeps ?_ | split

theorem execCsiFrameEnd_keeps {c : Fin 16} {vc : Fin 4} {s : State} (h : s0.Keeps false s) :
    s0.KeepsO false (execCsiFrameEnd c vc s) := by
  unfold execCsiFrameEnd
  repeat' with_reducible first
    | assumption | refine keepsO_next ?_ | refine keeps_ite (fun _ => ?_) (fun _ => ?_) | refine State.closeFrame_keeps ?_
    | refine keeps_foldl ?_ (fun _ _ _ => ?_)

theorem execSpiTransferEnd_keeps {m : Fin 4} {data : List Byte} {s : State} (h : s0.Keeps false s) :
    s0.KeepsO false (execSpiTransferEnd m data s) := by
  unfold execSpiTransferEnd
  repeat' with_reducible first
    | assumption | refine keepsO_next ?_ | refine keeps_ite (fun _ => ?_) (fun _ => ?_) | refine State.setSpi_keeps ?_
    | refine State.closeItem_keeps ?_ | refine State.tapSample_keeps ?_ | split

end Sys2Proof.Machine
end

