-- ==== Sys2Proof/Laws/KeepsPwrOps.lean ====
section
/-!
SUPPORT. What the operations of Machine/PwrOps.lean keep.
-/

set_option linter.all false

namespace Sys2Proof.Machine

variable {b : Bool} {s0 : State}

theorem State.setLoops_keeps {s : State} {l : LoopSt} (h : s0.Keeps b s) :
    s0.Keeps b (State.setLoops s l) := by
  unfold State.setLoops
  repeat' with_reducible first | assumption | refine keeps_mk (keeps_up ?_)

theorem State.showFreq_keeps {s : State} (h : s0.Keeps b s) :
    s0.Keeps b (State.showFreq s) := by
  unfold State.showFreq
  repeat' with_reducible first | assumption | refine State.wr_keeps ?_

theorem State.wakeEnd_keeps {s : State} {cause : Nat} (h : s0.Keeps b s) :
    s0.Keeps b (State.wakeEnd s cause) := by
  unfold State.wakeEnd
  repeat' with_reducible first
    | assumption | refine State.wr_keeps ?_ | refine State.setModState_keeps ?_ | refine State.setLoops_keeps ?_
    | refine State.showFreq_keeps ?_ | refine State.raiseMsix_keeps ?_ | refine State.raiseCastle_keeps ?_
    | refine State.decideNow_keeps ?_ | fail_if_no_progress (refine keeps_mk (keeps_up ?_)) | split | dsimp only

theorem State.retentionLost_keeps {s : State} (h : s0.Keeps false s) :
    s0.Keeps false (State.retentionLost s) := by
  unfold State.retentionLost
  repeat' with_reducible first
    | assumption | refine keeps_ite (fun _ => ?_) (fun _ => ?_) | refine State.event_keeps ?_ | refine State.unitResetDone_keeps ?_
    | refine State.unitEnter_keeps ?_ | refine keeps_foldl ?_ (fun _ _ _ => ?_) | refine keeps_mk (keeps_up ?_)

theorem State.wakeUnits_keeps {s : State} {deep : Bool} (h : s0.Keeps false s) :
    s0.Keeps false (State.wakeUnits s deep) := by
  unfold State.wakeUnits
  repeat' with_reducible first
    | assumption | refine keeps_ite (fun _ => ?_) (fun _ => ?_) | refine State.retentionLost_keeps ?_
    | refine State.unitResetDone_keeps ?_ | refine State.unitEnter_keeps ?_ | refine State.unitReturn_keeps ?_
    | refine State.setUstate_keeps ?_ | refine keeps_foldl ?_ (fun _ _ _ => ?_) | refine keeps_mk (keeps_up ?_)

theorem State.entryRefusals_keeps {s : State} (h : s0.Keeps b s) :
    s0.Keeps b (State.entryRefusals s) := by
  unfold State.entryRefusals
  repeat' with_reducible first
    | assumption | refine keeps_ite (fun _ => ?_) (fun _ => ?_) | refine State.abandonEntry_keeps ?_ | split

theorem State.voteWrite_keeps {s : State} {r : Req} {d : WData} (h : s0.Keeps b s) :
    s0.Keeps b (State.voteWrite s r d) := by
  unfold State.voteWrite
  repeat' with_reducible first
    | assumption | refine keeps_ite (fun _ => ?_) (fun _ => ?_) | refine State.entryRefusals_keeps ?_ | refine State.setReg_keeps ?_
    | refine State.reject_keeps ?_ | split

theorem State.vfNext_keeps {s : State} (h : s0.Keeps b s) :
    s0.Keeps b (State.vfNext s) := by
  unfold State.vfNext
  repeat' with_reducible first | assumption | refine keeps_ite (fun _ => ?_) (fun _ => ?_) | refine State.setLoops_keeps ?_

theorem State.oppEval_keeps {s : State} {cause : Nat} (h : s0.Keeps b s) :
    s0.Keeps b (State.oppEval s cause) := by
  unfold State.oppEval
  repeat' with_reducible first
    | assumption | refine keeps_ite (fun _ => ?_) (fun _ => ?_) | refine State.wr_keeps ?_ | refine State.bump_keeps ?_
    | refine State.vfNext_keeps ?_ | refine State.showFreq_keeps ?_ | refine keeps_foldl ?_ (fun _ _ _ => ?_)

theorem State.pwrWrite_keeps {s : State} {r : Req} {off : Nat} {d : WData} (h : s0.Keeps b s) :
    s0.Keeps b (State.pwrWrite s r off d) := by
  unfold State.pwrWrite
  repeat' with_reducible first
    | assumption | refine keeps_ite (fun _ => ?_) (fun _ => ?_) | refine State.voteWrite_keeps ?_ | refine State.reject_keeps ?_
    | refine State.wake_keeps ?_ | refine State.wr_keeps ?_ | refine State.writeReg_keeps ?_ | refine State.oppEval_keeps ?_

theorem State.clkStart_keeps {s : State} {k : Nat} {revert : Bool} (h : s0.Keeps b s) :
    s0.Keeps b (State.clkStart s k revert) := by
  unfold State.clkStart
  repeat' with_reducible first
    | assumption | refine keeps_ite (fun _ => ?_) (fun _ => ?_) | refine State.showFreq_keeps ?_ | refine State.wr_keeps ?_
    | refine keeps_mk (keeps_up ?_)

theorem State.clkCtrl_keeps {s : State} {d : WData} (h : s0.Keeps b s) :
    s0.Keeps b (State.clkCtrl s d) := by
  unfold State.clkCtrl
  repeat' with_reducible first
    | assumption | refine keeps_ite (fun _ => ?_) (fun _ => ?_) | refine State.clkStart_keeps ?_ | refine State.reject_keeps ?_
    | refine State.wr_keeps ?_

theorem State.clkWrite_keeps {s : State} {r : Req} {off : Nat} {d : WData} (h : s0.Keeps b s) :
    s0.Keeps b (State.clkWrite s r off d) := by
  unfold State.clkWrite
  repeat' with_reducible first
    | assumption | refine keeps_ite (fun _ => ?_) (fun _ => ?_) | refine State.reject_keeps ?_ | refine State.clkCtrl_keeps ?_
    | refine State.writeReg_keeps ?_

theorem State.coresResume_keeps {s : State} (h : s0.Keeps b s) :
    s0.Keeps b (State.coresResume s) := by
  unfold State.coresResume
  repeat' with_reducible first
    | assumption | refine keeps_ite (fun _ => ?_) (fun _ => ?_) | refine State.coresStart_keeps ?_
    | refine keeps_foldl ?_ (fun _ _ _ => ?_)

theorem State.setRefQual_keeps {s : State} {r : Nat} {x3 : Bool} (h : s0.Keeps b s) :
    s0.Keeps b (State.setRefQual s r x3) := by
  unfold State.setRefQual
  repeat' with_reducible first | assumption | refine keeps_ite (fun _ => ?_) (fun _ => ?_) | refine State.wr_keeps ?_

theorem State.clkFall_keeps {s : State} (h : s0.Keeps b s) :
    s0.Keeps b (State.clkFall s) := by
  unfold State.clkFall
  repeat' with_reducible first
    | assumption | refine keeps_ite (fun _ => ?_) (fun _ => ?_) | refine State.clkStart_keeps ?_ | refine State.wr_keeps ?_

theorem State.refLost_keeps {s : State} {r : Nat} (h : s0.Keeps b s) :
    s0.Keeps b (State.refLost s r) := by
  unfold State.refLost
  repeat' with_reducible first
    | assumption | refine keeps_ite (fun _ => ?_) (fun _ => ?_) | refine State.setRefQual_keeps ?_ | refine State.bump_keeps ?_
    | refine State.clkFall_keeps ?_

theorem State.entryStart_keeps {s : State} {target : Nat} {mb : Nat} (h : s0.Keeps b s) :
    s0.Keeps b (State.entryStart s target mb) := by
  unfold State.entryStart
  repeat' with_reducible first
    | assumption | refine State.wr_keeps ?_ | refine State.entryRefusals_keeps ?_ | refine keeps_mk (keeps_up ?_)

theorem State.allOff_keeps {s : State} (h : s0.Keeps false s) : s0.Keeps false (State.allOff s) := by
  unfold State.allOff
  have key : ∀ t : State, t.pending = s.pending → t.now = s.now → t.mem = [] → t.rekey = [] → s0.Keeps false t := by
    intro t hp hn hm hr
    refine h.mem hp hn (fun _ => ?_)
    show mwf _ t.mem = true
    rw [hm]; rfl
  dsimp only
  refine State.showFreq_keeps (State.setModState_keeps (keeps_foldl (State.setReg_keeps (State.setReg_keeps ?_)) (fun _ _ k => State.setUstate_keeps k)))
  exact key _ rfl rfl rfl rfl

theorem State.capWindow_keeps {s : State} {mw : Nat} (h : s0.Keeps b s) :
    s0.Keeps b (State.capWindow s mw) := by
  unfold State.capWindow
  repeat' with_reducible first
    | assumption | refine keeps_ite (fun _ => ?_) (fun _ => ?_) | refine State.wr_keeps ?_ | refine State.setLoops_keeps ?_
    | refine State.oppEval_keeps ?_ | refine State.event_keeps ?_ | split

theorem State.vfDone_keeps {s : State} (h : s0.Keeps b s) :
    s0.Keeps b (State.vfDone s) := by
  unfold State.vfDone
  repeat' with_reducible first
    | assumption | refine State.vfNext_keeps ?_ | refine State.showFreq_keeps ?_ | refine State.setLoops_keeps ?_ | split

theorem State.parkUnit_keeps {s : State} {u : Nat} (h : s0.Keeps false s) :
    s0.Keeps false (State.parkUnit s u) := by
  unfold State.parkUnit
  repeat' with_reducible first
    | assumption | refine keeps_ite (fun _ => ?_) (fun _ => ?_) | refine State.unitEnter_keeps ?_ | refine keeps_mk (keeps_up ?_)

theorem State.diesOff_keeps {s : State} {keep : Nat → Nat} (h : s0.Keeps false s) :
    s0.Keeps false (State.diesOff s keep) := by
  unfold State.diesOff
  repeat' with_reducible first
    | assumption | refine keeps_ite (fun _ => ?_) (fun _ => ?_) | refine State.unitEnter_keeps ?_ | refine State.dropHeld_keeps ?_
    | refine State.setUstate_keeps ?_ | refine State.wr_keeps ?_ | refine State.loseRange_keeps ?_
    | refine keeps_foldl ?_ (fun _ _ _ => ?_) | fail_if_no_progress (refine keeps_mk (keeps_up ?_)) | split

theorem State.entryEnd_keeps {s : State} (h : s0.Keeps false s) :
    s0.Keeps false (State.entryEnd s) := by
  unfold State.entryEnd
  repeat' with_reducible first
    | assumption | refine keeps_ite (fun _ => ?_) (fun _ => ?_) | refine State.disarmAll_keeps ?_ | refine State.parkUnit_keeps ?_
    | refine State.setReg_keeps ?_ | refine State.diesOff_keeps ?_ | refine State.wr_keeps ?_ | refine State.setModState_keeps ?_
    | refine State.showFreq_keeps ?_ | refine State.takeWake_keeps ?_ | refine keeps_foldl ?_ (fun _ _ _ => ?_)
    | fail_if_no_progress (refine keeps_mk (keeps_up ?_)) | split | dsimp only

theorem State.clockFault_keeps {s : State} {u : Nat} (h : s0.Keeps b s) :
    s0.Keeps b (State.clockFault s u) := by
  unfold State.clockFault
  repeat' with_reducible first
    | assumption | refine keeps_ite (fun _ => ?_) (fun _ => ?_) | refine State.wr_keeps ?_ | refine State.sqAbandon_keeps ?_
    | refine State.sqLeave_keeps ?_ | refine State.setShell_keeps ?_ | refine State.plLeave_keeps ?_ | refine State.setPl_keeps ?_
    | refine State.aeLeave_keeps ?_ | refine State.ccDrop_keeps ?_ | refine State.setUstate_keeps ?_ | refine State.dynDrop_keeps ?_

theorem State.thermalTick_keeps {s : State} {t : Int} (h : s0.Keeps b s) :
    s0.Keeps b (State.thermalTick s t) := by
  unfold State.thermalTick
  repeat' with_reducible first
    | assumption | refine keeps_ite (fun _ => ?_) (fun _ => ?_) | refine State.wr_keeps ?_ | refine State.oppEval_keeps ?_
    | refine State.setLoops_keeps ?_ | refine State.safeDecide_keeps ?_

theorem State.entryCommit_keeps {s : State} (h : s0.Keeps b s) :
    s0.Keeps b (State.entryCommit s) := by
  unfold State.entryCommit
  repeat' with_reducible first
    | assumption | refine keeps_ite (fun _ => ?_) (fun _ => ?_) | refine State.coresHold_keeps ?_ | refine State.wr_keeps ?_
    | refine keeps_mk (keeps_up ?_)

theorem State.domainFail_keeps {s : State} {d : Nat} (h : s0.Keeps b s) :
    s0.Keeps b (State.domainFail s d) := by
  unfold State.domainFail
  repeat' with_reducible first
    | assumption | refine keeps_ite (fun _ => ?_) (fun _ => ?_) | refine State.wrBit_keeps ?_ | refine State.clockFault_keeps ?_
    | refine State.dropHeld_keeps ?_ | refine State.coresHold_keeps ?_ | refine State.event_keeps ?_ | refine State.safeDecide_keeps ?_
    | refine State.castleFault_keeps ?_ | refine keeps_foldl ?_ (fun _ _ _ => ?_)

theorem State.entryDelayed_keeps {s : State} (h : s0.Keeps b s) :
    s0.Keeps b (State.entryDelayed s) := by
  unfold State.entryDelayed
  repeat' with_reducible first
    | assumption | refine keeps_ite (fun _ => ?_) (fun _ => ?_) | refine State.abandonEntry_keeps ?_ | split

theorem State.vinLoss_keeps {s : State} {mv : Nat} (h : s0.Keeps false s) : s0.Keeps false (State.vinLoss s mv) := by
  have key : ∀ t u : State, s0.Keeps false t → u.pending = t.pending → u.now = t.now → u.mem = [] → s0.Keeps false u := by
    intro t u ht hp hn hm
    refine ht.mem hp hn (fun _ => ?_)
    show mwf _ u.mem = true
    rw [hm]; rfl
  unfold State.vinLoss
  refine keeps_ite (fun _ => h) (fun _ => ?_)
  refine State.showFreq_keeps (State.wr_keeps (State.setModState_keeps (State.wr_keeps (State.setReg_keeps (key (State.diesOff (State.disarmAll (State.coresHold _ _) _) _) _ ?_ rfl rfl rfl)))))
  refine State.diesOff_keeps (State.disarmAll_keeps (State.coresHold_keeps ?_))
  refine keeps_ite (fun _ => State.bump_keeps ?_) (fun _ => ?_) <;>
    exact State.holdFill_keeps (State.assertHold_keeps (State.event_keeps (State.wr_keeps (State.bump_keeps h))))

theorem State.shutDone_keeps {s : State} (h : s0.Keeps b s) :
    s0.Keeps b (State.shutDone s) := by
  unfold State.shutDone
  repeat' with_reducible first | assumption | refine keeps_ite (fun _ => ?_) (fun _ => ?_) | refine State.wr_keeps ?_

theorem State.clkDone_keeps {s : State} (h : s0.Keeps b s) :
    s0.Keeps b (State.clkDone s) := by
  unfold State.clkDone
  repeat' with_reducible first
    | assumption | refine keeps_ite (fun _ => ?_) (fun _ => ?_) | refine State.bump_keeps ?_ | refine State.wr_keeps ?_
    | refine State.showFreq_keeps ?_ | refine State.clkFall_keeps ?_ | fail_if_no_progress (refine keeps_mk (keeps_up ?_)) | split

theorem State.refQualified_keeps {s : State} {r : Nat} (h : s0.Keeps b s) :
    s0.Keeps b (State.refQualified s r) := by
  unfold State.refQualified
  repeat' with_reducible first
    | assumption | refine keeps_ite (fun _ => ?_) (fun _ => ?_) | refine State.wr_keeps ?_ | refine State.setRefQual_keeps ?_
    | refine State.clkStart_keeps ?_

end Sys2Proof.Machine
end

