-- ==== Sys2Proof/Laws/KeepsReflex.lean ====
section
/-!
SUPPORT. What the operations of Machine/Reflex.lean keep.
-/

set_option linter.all false

namespace Sys2Proof.Machine

variable {b : Bool} {s0 : State}

theorem State.rfxWrite_keeps {s : State} {r : Req} {castleOnly : Bool} {reg : Nat} {act : State → State} (h : s0.Keeps b s)
    (ha : ∀ t, s0.Keeps b t → s0.Keeps b (act t)) : s0.Keeps b (State.rfxWrite s r castleOnly reg act) :=
  keeps_ite (fun _ => ha _ h) (fun _ => State.reject_keeps h)

theorem execEgSendWrite_keeps {r : Req} {i : Fin 32} {d : WData} {s : State} (h : s0.Keeps b s) :
    s0.KeepsO b (execEgSendWrite r i d s) := by
  unfold execEgSendWrite
  repeat' with_reducible first
    | assumption | refine keepsO_next ?_ | refine keeps_ite (fun _ => ?_) (fun _ => ?_) | refine State.rfxWrite_keeps ?_ (fun _ _ => ?_)
    | refine State.egFill_keeps ?_

theorem execCanTransmit_keeps {x1 : Fin 8} {s : State} (h : s0.Keeps b s) :
    s0.KeepsO b (execCanTransmit x1 s) := by
  unfold execCanTransmit
  repeat' with_reducible first
    | assumption | refine keepsO_next ?_ | refine keeps_ite (fun _ => ?_) (fun _ => ?_) | refine State.egSent_keeps ?_ | split

theorem execGclEntryAdvance_keeps {p : Fin 4} {s : State} (h : s0.Keeps b s) :
    s0.KeepsO b (execGclEntryAdvance p s) := by
  unfold execGclEntryAdvance
  repeat' with_reducible first
    | assumption | refine keepsO_next ?_ | refine keeps_ite (fun _ => ?_) (fun _ => ?_) | refine State.gclAdvance_keeps ?_

theorem State.dropItem_keeps {s : State} {unit : Nat} {slot : Nat} (h : s0.Keeps b s) :
    s0.Keeps b (State.dropItem s unit slot) := by
  unfold State.dropItem
  repeat' with_reducible first | assumption | refine State.event_keeps ?_ | refine State.bump_keeps ?_

theorem execHoldGeneratorFill_keeps {s : State} (h : s0.Keeps b s) :
    s0.KeepsO b (execHoldGeneratorFill s) := by
  unfold execHoldGeneratorFill
  repeat' with_reducible first
    | assumption | refine keepsO_next ?_ | refine keeps_ite (fun _ => ?_) (fun _ => ?_) | refine State.holdFill_keeps ?_

theorem execEgressFrameStart_keeps {p : Fin 4} {s : State} (h : s0.Keeps b s) :
    s0.KeepsO b (execEgressFrameStart p s) := by
  unfold execEgressFrameStart
  repeat' with_reducible first
    | assumption | refine keepsO_next ?_ | refine keeps_ite (fun _ => ?_) (fun _ => ?_) | refine State.egSent_keeps ?_ | split

theorem execRfxLatchedWrite_keeps {r : Req} {d : WData} {s : State} (h : s0.Keeps b s) :
    s0.KeepsO b (execRfxLatchedWrite r d s) := by
  unfold execRfxLatchedWrite
  repeat' with_reducible first
    | assumption | refine keepsO_next ?_ | refine State.rfxWrite_keeps ?_ (fun _ _ => ?_) | refine State.writeReg_keeps ?_

theorem execRulePulseEnd_keeps {g : Fin 64} {s : State} (h : s0.Keeps b s) :
    s0.KeepsO b (execRulePulseEnd g s) := by
  unfold execRulePulseEnd
  repeat' with_reducible first
    | assumption | refine keepsO_next ?_ | refine keeps_ite (fun _ => ?_) (fun _ => ?_) | refine State.drivePin_keeps ?_
    | refine keeps_mk (keeps_up ?_)

theorem execEgressDrop_keeps {i : Option (Fin 32)} {s : State} (h : s0.Keeps b s) :
    s0.KeepsO b (execEgressDrop i s) := by
  unfold execEgressDrop
  repeat' with_reducible first
    | assumption | refine keepsO_next ?_ | refine keeps_ite (fun _ => ?_) (fun _ => ?_) | refine State.dropItem_keeps ?_
    | refine State.bump_keeps ?_ | refine State.setEg_keeps ?_ | split

theorem execCanBusStateChange_keeps {x1 : Fin 8} {tec : Nat} {rec : Nat} {errorFrame : Bool} {s : State} (h : s0.Keeps b s) :
    s0.KeepsO b (execCanBusStateChange x1 tec rec errorFrame s) := by
  unfold execCanBusStateChange
  repeat' with_reducible first
    | assumption | refine keepsO_next ?_ | refine keeps_ite (fun _ => ?_) (fun _ => ?_) | refine State.wr_keeps ?_
    | refine State.bump_keeps ?_

end Sys2Proof.Machine
end

