-- ==== Sys2Proof/Laws/KeepsTime.lean ====
section
/-!
SUPPORT. What the operations of Machine/Time.lean keep.
-/

set_option linter.all false

namespace Sys2Proof.Machine

variable {b : Bool} {s0 : State}

theorem State.timeWrite_keeps {s : State} {r : Req} {u reg : Nat} {ok : Bool} {act : State → State} (h : s0.Keeps b s)
    (ha : ∀ t, s0.Keeps b t → s0.Keeps b (act t)) : s0.Keeps b (State.timeWrite s r u reg ok act) :=
  keeps_ite (fun _ => ha _ h) (fun _ => State.reject_keeps h)

theorem execTbRateWrite_keeps {r : Req} {n : Fin 8} {d : WData} {s : State} (h : s0.Keeps b s) :
    s0.KeepsO b (execTbRateWrite r n d s) := by
  unfold execTbRateWrite
  repeat' with_reducible first
    | assumption | refine keepsO_next ?_ | refine State.timeWrite_keeps ?_ (fun _ _ => ?_) | refine State.writeReg_keeps ?_

theorem State.slewTo_keeps {s : State} {n : Nat} {ns : Int} (h : s0.Keeps b s) :
    s0.Keeps b (State.slewTo s n ns) := by
  unfold State.slewTo
  repeat' with_reducible first | assumption | refine State.setTb_keeps ?_

theorem execTbAdjWrite_keeps {r : Req} {n : Fin 8} {d : WData} {s : State} (h : s0.Keeps b s) :
    s0.KeepsO b (execTbAdjWrite r n d s) := by
  unfold execTbAdjWrite
  repeat' with_reducible first
    | assumption | refine keepsO_next ?_ | refine keeps_ite (fun _ => ?_) (fun _ => ?_) | refine State.timeWrite_keeps ?_ (fun _ _ => ?_)
    | refine State.slewTo_keeps ?_

theorem State.setTime_keeps {s : State} {n : Nat} {sec : Nat} {low : Nat} (h : s0.Keeps b s) :
    s0.Keeps b (State.setTime s n sec low) := by
  unfold State.setTime
  repeat' with_reducible first | assumption | refine State.stepTb_keeps ?_

theorem execTbSetLowWrite_keeps {r : Req} {n : Fin 8} {d : WData} {s : State} (h : s0.Keeps b s) :
    s0.KeepsO b (execTbSetLowWrite r n d s) := by
  unfold execTbSetLowWrite
  repeat' with_reducible first
    | assumption | refine keepsO_next ?_ | refine State.timeWrite_keeps ?_ (fun _ _ => ?_) | refine State.setTime_keeps ?_

theorem execPhEnable_keeps {r : Req} {k : Fin 8} {d : WData} {s : State} (h : s0.Keeps b s) :
    s0.KeepsO b (execPhEnable r k d s) := by
  unfold execPhEnable
  repeat' with_reducible first
    | assumption | refine keepsO_next ?_ | refine keeps_ite (fun _ => ?_) (fun _ => ?_) | refine State.timeWrite_keeps ?_ (fun _ _ => ?_)
    | refine State.phDisable_keeps ?_ | refine State.writeReg_keeps ?_ | refine State.phEnable_keeps ?_

theorem execPhSwObsWrite_keeps {r : Req} {k : Fin 8} {d : WData} {s : State} (h : s0.Keeps b s) :
    s0.KeepsO b (execPhSwObsWrite r k d s) := by
  unfold execPhSwObsWrite
  repeat' with_reducible first
    | assumption | refine keepsO_next ?_ | refine State.timeWrite_keeps ?_ (fun _ _ => ?_) | refine State.phObserve_keeps ?_

theorem State.domainLost_keeps {s : State} {d : Nat} (h : s0.Keeps b s) :
    s0.Keeps b (State.domainLost s d) := by
  unfold State.domainLost
  repeat' with_reducible first | assumption | refine State.tbLost_keeps ?_ | refine keeps_foldl ?_ (fun _ _ _ => ?_)

theorem State.setCapFifo_keeps {s : State} {m : Nat} {l : List CapStamp} (h : s0.Keeps b s) :
    s0.Keeps b (State.setCapFifo s m l) := by
  unfold State.setCapFifo
  repeat' with_reducible first | assumption | refine State.wr_keeps ?_ | refine keeps_mk (keeps_up ?_)

theorem execCapSecRead_keeps {r : Req} {m : Fin 16} {s : State} (h : s0.Keeps b s) :
    s0.KeepsO b (execCapSecRead r m s) := by
  unfold execCapSecRead
  repeat' with_reducible first
    | assumption | refine keepsO_next ?_ | refine State.setCapFifo_keeps ?_ | fail_if_no_progress (refine keeps_mk (keeps_up ?_)) | split

theorem execPpsEdge_keeps {m : Fin 16} {rising : Bool} {held : Nat} {frac : Fin 64} {s : State} (h : s0.Keeps b s) :
    s0.KeepsO b (execPpsEdge m rising held frac s) := by
  unfold execPpsEdge
  repeat' with_reducible first
    | assumption | refine keepsO_next ?_ | refine keeps_ite (fun _ => ?_) (fun _ => ?_) | refine State.tbObserve_keeps ?_
    | refine keeps_foldl ?_ (fun _ _ _ => ?_)

theorem State.latchTs_keeps {s : State} {r : Req} {t : BitVec 128} (h : s0.Keeps b s) :
    s0.Keeps b (State.latchTs s r t) := by
  unfold State.latchTs
  repeat' with_reducible first | assumption | refine keeps_mk (keeps_up ?_)

theorem execTbNowRead_keeps {r : Req} {reg : NowReg} {s : State} (h : s0.Keeps b s) :
    s0.KeepsO b (execTbNowRead r reg s) := by
  unfold execTbNowRead
  repeat' with_reducible first
    | assumption | refine keepsO_next ?_ | refine State.latchTs_keeps ?_ | fail_if_no_progress (refine keeps_mk (keeps_up ?_)) | split

theorem execEvtSecRead_keeps {r : Req} {s : State} (h : s0.Keeps b s) :
    s0.KeepsO b (execEvtSecRead r s) := by
  unfold execEvtSecRead
  repeat' with_reducible first
    | assumption | refine keepsO_next ?_ | refine State.wr_keeps ?_ | fail_if_no_progress (refine keeps_mk (keeps_up ?_)) | split

theorem execPdelayExchange_keeps {mac : Fin 4} {t1 : Nat} {t2 : Nat} {t3 : Nat} {t4 : Nat} {s : State} (h : s0.Keeps b s) :
    s0.KeepsO b (execPdelayExchange mac t1 t2 t3 t4 s) := by
  unfold execPdelayExchange
  repeat' with_reducible first | assumption | refine keepsO_next ?_ | refine State.wr_keeps ?_

theorem execPhaseLost_keeps {k : Fin 8} {s : State} (h : s0.Keeps b s) :
    s0.KeepsO b (execPhaseLost k s) := by
  unfold execPhaseLost
  repeat' with_reducible first
    | assumption | refine keepsO_next ?_ | refine keeps_ite (fun _ => ?_) (fun _ => ?_) | refine State.setPh_keeps ?_
    | refine State.wr_keeps ?_ | refine State.event_keeps ?_

theorem execCaptureEdge_keeps {m : Fin 16} {rising : Bool} {held : Nat} {frac : Fin 64} {s : State} (h : s0.Keeps b s) :
    s0.KeepsO b (execCaptureEdge m rising held frac s) := by
  unfold execCaptureEdge
  repeat' with_reducible first
    | assumption | refine keepsO_next ?_ | refine keeps_ite (fun _ => ?_) (fun _ => ?_) | refine State.bumpW_keeps ?_
    | refine State.setCapFifo_keeps ?_ | refine State.bump_keeps ?_ | refine State.phDeliver_keeps ?_
    | refine keeps_foldl ?_ (fun _ _ _ => ?_)

theorem execSyncTransmit_keeps {mac : Fin 4} {d : Fin 2} {s : State} (h : s0.Keeps b s) :
    s0.KeepsO b (execSyncTransmit mac d s) := by
  unfold execSyncTransmit
  repeat' with_reducible first
    | assumption | refine keepsO_next ?_ | refine keeps_ite (fun _ => ?_) (fun _ => ?_) | refine keeps_mk (keeps_up ?_)

theorem execPulseEnd_keeps {n : Fin 16} {s : State} (h : s0.Keeps b s) :
    s0.KeepsO b (execPulseEnd n s) := by
  unfold execPulseEnd
  repeat' with_reducible first
    | assumption | refine keepsO_next ?_ | refine keeps_ite (fun _ => ?_) (fun _ => ?_) | refine State.setPulse_keeps ?_

theorem execSourceLoss_keeps {c : Loss} {s : State} (h : s0.Keeps b s) :
    s0.KeepsO b (execSourceLoss c s) := by
  unfold execSourceLoss
  repeat' with_reducible first
    | assumption | refine keepsO_next ?_ | refine State.domainLost_keeps ?_ | refine State.bump_keeps ?_
    | refine State.bestMaster_keeps ?_ | refine State.wr_keeps ?_ | refine State.tbLost_keeps ?_
    | fail_if_no_progress (refine keeps_mk (keeps_up ?_)) | split

theorem execHoldoverExpire_keeps {n : Fin 8} {s : State} (h : s0.Keeps b s) :
    s0.KeepsO b (execHoldoverExpire n s) := by
  unfold execHoldoverExpire
  repeat' with_reducible first
    | assumption | refine keepsO_next ?_ | refine keeps_ite (fun _ => ?_) (fun _ => ?_) | refine State.wr_keeps ?_
    | refine State.event_keeps ?_

theorem execSyncReceive_keeps {mac : Fin 4} {d : Fin 2} {master : Nat} {ratio : Int} {s : State} (h : s0.Keeps b s) :
    s0.KeepsO b (execSyncReceive mac d master ratio s) := by
  unfold execSyncReceive
  repeat' with_reducible first
    | assumption | refine keepsO_next ?_ | refine keeps_ite (fun _ => ?_) (fun _ => ?_) | refine State.wr_keeps ?_
    | refine State.tbObserve_keeps ?_ | refine keeps_foldl ?_ (fun _ _ _ => ?_) | refine keeps_mk (keeps_up ?_)

theorem execPhaseObservation_keeps {k : Fin 8} {s : State} (h : s0.Keeps b s) :
    s0.KeepsO b (execPhaseObservation k s) := by
  unfold execPhaseObservation
  repeat' with_reducible first
    | assumption | refine keepsO_next ?_ | refine State.phObserve_keeps ?_ | refine State.setPh_keeps ?_ | split | dsimp only

theorem execAnnounceReceive_keeps {mac : Fin 4} {d : Fin 2} {a : Announce} {s : State} (h : s0.Keeps b s) :
    s0.KeepsO b (execAnnounceReceive mac d a s) := by
  unfold execAnnounceReceive
  repeat' with_reducible first
    | assumption | refine keepsO_next ?_ | refine keeps_ite (fun _ => ?_) (fun _ => ?_) | refine State.bestMaster_keeps ?_
    | refine keeps_mk (keeps_up ?_)

theorem execLostSecondTimeout_keeps {k : Fin 8} {s : State} (h : s0.Keeps b s) :
    s0.KeepsO b (execLostSecondTimeout k s) := by
  unfold execLostSecondTimeout
  repeat' with_reducible first
    | assumption | refine keepsO_next ?_ | refine keeps_ite (fun _ => ?_) (fun _ => ?_) | refine State.setPh_keeps ?_

theorem execPhaseSourceTimeout_keeps {k : Fin 8} {s : State} (h : s0.Keeps b s) :
    s0.KeepsO b (execPhaseSourceTimeout k s) := by
  unfold execPhaseSourceTimeout
  repeat' with_reducible first
    | assumption | refine keepsO_next ?_ | refine keeps_ite (fun _ => ?_) (fun _ => ?_) | refine State.wr_keeps ?_

end Sys2Proof.Machine
end

