-- ==== Sys2Proof/Laws/KeepsVox.lean ====
section
/-!
SUPPORT. What the operations of Machine/Vox.lean keep.
-/

set_option linter.all false

namespace Sys2Proof.Machine

variable {b : Bool} {s0 : State}

theorem execVoxReleaseWrite_keeps {r : Req} {d : WData} {s : State} (h : s0.Keeps b s) :
    s0.KeepsO b (execVoxReleaseWrite r d s) := by
  unfold execVoxReleaseWrite
  repeat' with_reducible first
    | assumption | refine keepsO_next ?_ | refine keeps_ite (fun _ => ?_) (fun _ => ?_) | refine State.wr_keeps ?_
    | refine State.reject_keeps ?_

theorem execVoxBuildStart_keeps {s : State} (h : s0.Keeps b s) :
    s0.KeepsO b (execVoxBuildStart s) := by
  unfold execVoxBuildStart
  repeat' with_reducible first
    | assumption | refine keepsO_next ?_ | refine keeps_ite (fun _ => ?_) (fun _ => ?_) | refine State.voxStart_keeps ?_ | split

theorem execVoxFrameEmit_keeps {s : State} (h : s0.Keeps false s) :
    s0.KeepsO false (execVoxFrameEmit s) := by
  unfold execVoxFrameEmit
  repeat' with_reducible first | assumption | refine keepsO_next ?_ | refine State.emitFrame_keeps ?_

theorem execVoxWaitExpire_keeps {s : State} (h : s0.Keeps b s) :
    s0.KeepsO b (execVoxWaitExpire s) := by
  unfold execVoxWaitExpire
  repeat' with_reducible first
    | assumption | refine keepsO_next ?_ | refine keeps_ite (fun _ => ?_) (fun _ => ?_) | refine State.voxStart_keeps ?_

theorem execVoxResetDone_keeps {s : State} (h : s0.Keeps b s) :
    s0.KeepsO b (execVoxResetDone s) := by
  unfold execVoxResetDone
  repeat' with_reducible first
    | assumption | refine keepsO_next ?_ | refine keeps_ite (fun _ => ?_) (fun _ => ?_) | refine State.setUstate_keeps ?_

theorem execVoxTrigger_keeps {s : State} (h : s0.Keeps b s) :
    s0.KeepsO b (execVoxTrigger s) := by
  unfold execVoxTrigger
  repeat' with_reducible first
    | assumption | refine keepsO_next ?_ | refine keeps_ite (fun _ => ?_) (fun _ => ?_) | refine State.voxTrigger_keeps ?_
    | fail_if_no_progress (refine keeps_mk (keeps_up ?_)) | split

end Sys2Proof.Machine
end

