-- ==== Sys2Proof/Laws/KeepsRegOps.lean ====
section
/-!
SUPPORT. What the operations of Machine/RegOps.lean keep.
-/

set_option linter.all false

namespace Sys2Proof.Machine

variable {b : Bool} {s0 : State}

theorem State.globalWrite_keeps {s : State} {addr : Nat} {d : WData} (h : s0.Keeps b s) :
    s0.Keeps b (State.globalWrite s addr d) := by
  unfold State.globalWrite
  repeat' with_reducible first
    | assumption | refine keeps_ite (fun _ => ?_) (fun _ => ?_) | refine State.writeReg_keeps ?_ | refine State.wr_keeps ?_

theorem State.cfgRegWrite_keeps {s : State} {r : Req} {addr : Nat} {d : WData} (h : s0.Keeps b s) :
    s0.Keeps b (State.cfgRegWrite s r addr d) := by
  unfold State.cfgRegWrite
  repeat' with_reducible first
    | assumption | refine keeps_ite (fun _ => ?_) (fun _ => ?_) | refine State.writeReg_keeps ?_ | refine State.reject_keeps ?_

theorem State.tbConfigure_keeps {s : State} {n : Nat} {active : Nat} (h : s0.Keeps b s) :
    s0.Keeps b (State.tbConfigure s n active) := by
  unfold State.tbConfigure
  repeat' with_reducible first
    | assumption | refine keeps_ite (fun _ => ?_) (fun _ => ?_) | refine State.wr_keeps ?_ | refine State.setTb_keeps ?_

theorem outState_keeps {s : State} {o : Out} (h : s0.Keeps b s) (ho : s0.KeepsO b o) : s0.Keeps b (outState s o) := by
  unfold outState
  split
  · exact ho _ rfl
  · exact h

theorem State.phScale_keeps {s : State} {k : Nat} {d : WData} (h : s0.Keeps b s) :
    s0.Keeps b (State.phScale s k d) := by
  unfold State.phScale
  repeat' with_reducible first
    | assumption | refine keeps_ite (fun _ => ?_) (fun _ => ?_) | refine State.phDisable_keeps ?_ | refine State.writeReg_keeps ?_
    | refine State.phEnable_keeps ?_

theorem State.timeRegWrite_keeps {s : State} {r : Req} {off : Nat} {d : WData} (h : s0.Keeps b s) :
    s0.Keeps b (State.timeRegWrite s r off d) := by
  unfold State.timeRegWrite
  repeat' with_reducible first
    | assumption | refine keeps_ite (fun _ => ?_) (fun _ => ?_) | refine State.timeWrite_keeps ?_ (fun _ _ => ?_)
    | refine State.writeReg_keeps ?_ | refine State.tbConfigure_keeps ?_ | refine outState_keeps ?_ ?_ | refine execTbRateWrite_keeps ?_
    | refine execTbAdjWrite_keeps ?_ | refine execTbSetLowWrite_keeps ?_ | refine execPhEnable_keeps ?_ | refine State.phScale_keeps ?_
    | refine State.setPh_keeps ?_ | refine execPhSwObsWrite_keeps ?_ | refine execPeCtrlWrite_keeps ?_
    | refine execPeRetargetWrite_keeps ?_ | refine State.gptpCheck_keeps ?_ | refine State.reject_keeps ?_ | refine keeps_mk (keeps_up ?_)

theorem State.ingestRegWrite_keeps {s : State} {r : Req} {off : Nat} {d : WData} (h : s0.Keeps false s) :
    s0.Keeps false (State.ingestRegWrite s r off d) := by
  unfold State.ingestRegWrite
  repeat' with_reducible first
    | assumption | refine keeps_ite (fun _ => ?_) (fun _ => ?_) | refine State.streamWrite_keeps ?_ | refine State.writeReg_keeps ?_
    | refine State.reject_keeps ?_ | refine State.pauseEval_keeps ?_

theorem State.iqRegWrite_keeps {s : State} {r : Req} {off : Nat} {d : WData} (h : s0.Keeps b s) :
    s0.Keeps b (State.iqRegWrite s r off d) := by
  unfold State.iqRegWrite
  repeat' with_reducible first
    | assumption | refine keeps_ite (fun _ => ?_) (fun _ => ?_) | refine State.writeReg_keeps ?_ | refine State.reject_keeps ?_
    | refine State.cursorWrite_keeps ?_ | refine outState_keeps ?_ ?_ | refine execIqReleaseWrite_keeps ?_ | refine State.iqEmpty_keeps ?_
    | refine State.iqLevel_keeps ?_

theorem State.alnRegWrite_keeps {s : State} {r : Req} {off : Nat} {d : WData} (h : s0.Keeps b s) :
    s0.Keeps b (State.alnRegWrite s r off d) := by
  unfold State.alnRegWrite
  repeat' with_reducible first
    | assumption | refine keeps_ite (fun _ => ?_) (fun _ => ?_) | refine outState_keeps ?_ ?_ | refine execAlnReleaseWrite_keeps ?_
    | refine State.alnWrite_keeps ?_ (fun _ _ => ?_) | refine State.writeReg_keeps ?_

theorem State.voxRegWrite_keeps {s : State} {r : Req} {off : Nat} {d : WData} (h : s0.Keeps b s) :
    s0.Keeps b (State.voxRegWrite s r off d) := by
  unfold State.voxRegWrite
  repeat' with_reducible first
    | assumption | refine keeps_ite (fun _ => ?_) (fun _ => ?_) | refine outState_keeps ?_ ?_ | refine execVoxReleaseWrite_keeps ?_
    | refine State.writeReg_keeps ?_ | refine State.reject_keeps ?_

theorem State.syncPins_keeps {s : State} (h : s0.Keeps b s) :
    s0.Keeps b (State.syncPins s) := by
  unfold State.syncPins
  repeat' with_reducible first | assumption | refine State.wr_keeps ?_

theorem State.rfxRegWrite_keeps {s : State} {r : Req} {off : Nat} {d : WData} (h : s0.Keeps b s) :
    s0.Keeps b (State.rfxRegWrite s r off d) := by
  unfold State.rfxRegWrite
  repeat' with_reducible first
    | assumption | refine keeps_ite (fun _ => ?_) (fun _ => ?_) | refine outState_keeps ?_ ?_ | refine execEgSendWrite_keeps ?_
    | refine State.rfxWrite_keeps ?_ (fun _ _ => ?_) | refine State.writeReg_keeps ?_ | refine State.syncPins_keeps ?_
    | refine State.setGcl_keeps ?_

theorem State.safeRegWrite_keeps {s : State} {r : Req} {off : Nat} {d : WData} (h : s0.Keeps b s) :
    s0.Keeps b (State.safeRegWrite s r off d) := by
  unfold State.safeRegWrite
  repeat' with_reducible first
    | assumption | refine keeps_ite (fun _ => ?_) (fun _ => ?_) | refine outState_keeps ?_ ?_ | refine execScKickWrite_keeps ?_
    | refine execTsMarkWrite_keeps ?_ | refine State.reject_keeps ?_ | refine execSafeExit_keeps ?_ | refine execSafeReq_keeps ?_
    | refine State.wr_keeps ?_ | refine execScArm_keeps ?_ | refine execTsArm_keeps ?_ | refine State.writeReg_keeps ?_

theorem State.regWrite_keeps {s : State} {r : Req} {addr : Nat} {d : WData} (h : s0.Keeps false s) :
    s0.Keeps false (State.regWrite s r addr d) := by
  unfold State.regWrite
  repeat' with_reducible first
    | assumption | refine keeps_ite (fun _ => ?_) (fun _ => ?_) | refine State.globalWrite_keeps ?_ | refine State.mbxRegWrite_keeps ?_
    | refine State.cfgRegWrite_keeps ?_ | refine State.timeRegWrite_keeps ?_ | refine State.ingestRegWrite_keeps ?_
    | refine State.iqRegWrite_keeps ?_ | refine State.alnRegWrite_keeps ?_ | refine State.voxRegWrite_keeps ?_
    | refine State.ccWrite_keeps ?_ | refine State.dynWrite_keeps ?_ | refine State.rfxRegWrite_keeps ?_
    | refine State.safeRegWrite_keeps ?_ | refine State.pwrWrite_keeps ?_ | refine State.clkWrite_keeps ?_ | refine State.mcWrite_keeps ?_
    | refine State.linkWrite_keeps ?_ | refine State.sqWrite_keeps ?_ | refine State.plWrite_keeps ?_ | refine State.aeWrite_keeps ?_

theorem State.dropHalf_keeps {s : State} {r : Req} (h : s0.Keeps b s) :
    s0.Keeps b (State.dropHalf s r) := by
  unfold State.dropHalf
  repeat' with_reducible first | assumption | refine keeps_mk (keeps_up ?_)

theorem State.regStore_keeps {s : State} {r : Req} {addr : Nat} {d : WData} (h : s0.Keeps false s) :
    s0.Keeps false (State.regStore s r addr d) := by
  unfold State.regStore
  repeat' with_reducible first | assumption | refine State.regWrite_keeps ?_ | refine State.dropHalf_keeps ?_

theorem State.readEffect_keeps {s : State} {r : Req} {addr : Nat} (h : s0.Keeps b s) :
    s0.Keeps b (State.readEffect s r addr) := by
  unfold State.readEffect
  repeat' with_reducible first
    | assumption | refine keeps_ite (fun _ => ?_) (fun _ => ?_) | refine outState_keeps ?_ ?_ | refine execTbNowRead_keeps ?_
    | refine execCapSecRead_keeps ?_ | refine execEvtSecRead_keeps ?_ | refine execIqAnyHeadRead_keeps ?_ | refine execIqHeadRead_keeps ?_
    | refine State.clearRc_keeps ?_

theorem State.regRead_keeps {s : State} {r : Req} {addr : Nat} (h : s0.Keeps b s) :
    s0.Keeps b (State.regRead s r addr).2 := by
  unfold State.regRead
  repeat' with_reducible first | assumption | refine State.readEffect_keeps ?_ | refine keeps_mk (keeps_up ?_)

theorem State.regLoad_keeps {s : State} {r : Req} {addr : Nat} {x4 : Half} (h : s0.Keeps b s) :
    s0.Keeps b (State.regLoad s r addr x4) := by
  unfold State.regLoad
  repeat' with_reducible first
    | assumption | refine State.regRead_keeps ?_ | refine State.halfRead_keeps ?_ (fun _ _ => ?_)
    | fail_if_no_progress (refine keeps_mk (keeps_up ?_)) | split | dsimp only [id]

end Sys2Proof.Machine
end

