-- ==== Sys2Proof/Laws/KeepsImageOps.lean ====
section
/-!
SUPPORT. What the operations of Machine/ImageOps.lean keep.
-/

set_option linter.all false

namespace Sys2Proof.Machine

variable {b : Bool} {s0 : State}

theorem State.startHosts_keeps {s : State} (h : s0.Keeps b s) :
    s0.Keeps b (State.startHosts s) := by
  unfold State.startHosts
  repeat' with_reducible first
    | assumption | refine keeps_ite (fun _ => ?_) (fun _ => ?_) | refine State.coresStart_keeps ?_
    | refine keeps_foldl ?_ (fun _ _ _ => ?_)

theorem State.loadHost_keeps {s : State} {x : ImgSection × Nat} (h : s0.Keeps false s) :
    s0.Keeps false (State.loadHost s x) := by
  unfold State.loadHost
  repeat' with_reducible first
    | assumption | refine keeps_ite (fun _ => ?_) (fun _ => ?_) | refine State.store_keeps ?_ | refine State.event_keeps ?_
    | refine keeps_mk (keeps_up ?_)

theorem State.loadHosts_keeps {s : State} (h : s0.Keeps false s) :
    s0.Keeps false (State.loadHosts s) := by
  unfold State.loadHosts
  repeat' with_reducible first
    | assumption | refine State.loadHost_keeps ?_ | refine keeps_foldl ?_ (fun _ _ _ => ?_) | refine keeps_mk (keeps_up ?_)

theorem State.countSkip_keeps {s : State} {layer : Nat} {r : ImgRecord} (h : s0.Keeps b s) :
    s0.Keeps b (State.countSkip s layer r) := by
  unfold State.countSkip
  repeat' with_reducible first
    | assumption | refine keeps_ite (fun _ => ?_) (fun _ => ?_) | refine State.event_keeps ?_ | refine State.bump_keeps ?_

theorem State.imageWrite_keeps {s : State} {addr : Nat} {v : Nat} (h : s0.Keeps false s) :
    s0.Keeps false (State.imageWrite s addr v) := by
  unfold State.imageWrite
  repeat' with_reducible first
    | assumption | refine keeps_ite (fun _ => ?_) (fun _ => ?_) | refine State.regStore_keeps ?_ | refine State.setReg_keeps ?_
    | refine State.bump_keeps ?_ | split

theorem State.bookMissing_keeps {s : State} {book : List ImgRecord} (h : s0.Keeps b s) :
    s0.Keeps b (State.bookMissing s book) := by
  unfold State.bookMissing
  repeat' with_reducible first
    | assumption | refine keeps_ite (fun _ => ?_) (fun _ => ?_) | refine State.event_keeps ?_ | refine State.wr_keeps ?_
    | refine keeps_foldl ?_ (fun _ _ _ => ?_)

theorem State.fixOwners_keeps {s : State} (h : s0.Keeps b s) :
    s0.Keeps b (State.fixOwners s) := by
  unfold State.fixOwners
  repeat' with_reducible first
    | assumption | refine keeps_ite (fun _ => ?_) (fun _ => ?_) | refine State.bump_keeps ?_ | refine State.setOwner_keeps ?_
    | refine keeps_foldl ?_ (fun _ _ _ => ?_)

theorem State.imageApply_keeps {s : State} (h : s0.Keeps false s) :
    s0.Keeps false (State.imageApply s) := by
  unfold State.imageApply
  repeat' with_reducible first
    | assumption | refine keeps_ite (fun _ => ?_) (fun _ => ?_) | refine State.setReg_keeps ?_ | refine State.countSkip_keeps ?_
    | refine State.imageWrite_keeps ?_ | refine State.shareFree_keeps ?_ | refine State.bookMissing_keeps ?_
    | refine State.fixOwners_keeps ?_ | refine keeps_foldl ?_ (fun _ _ _ => ?_)

theorem State.loadCastle_keeps {s : State} (h : s0.Keeps b s) :
    s0.Keeps b (State.loadCastle s) := by
  unfold State.loadCastle
  repeat' with_reducible first
    | assumption | refine State.event_keeps ?_ | refine keeps_foldl ?_ (fun _ _ _ => ?_) | refine keeps_mk (keeps_up ?_)

theorem State.norProgram_keeps {s : State} {a : Nat} {l : List Byte} (h : s0.Keeps b s) :
    s0.Keeps b (State.norProgram s a l) := by
  unfold State.norProgram
  repeat' with_reducible first | assumption | refine keeps_mk (keeps_up ?_)

theorem State.programStatus_keeps {s : State} {k : Nat} {x3 : Nat} (h : s0.Keeps b s) :
    s0.Keeps b (State.programStatus s k x3) := by
  unfold State.programStatus
  repeat' with_reducible first
    | assumption | refine keeps_ite (fun _ => ?_) (fun _ => ?_) | refine State.wr_keeps ?_ | refine State.norProgram_keeps ?_

theorem State.rejectTried_keeps {s : State} {k : Nat} (h : s0.Keeps b s) :
    s0.Keeps b (State.rejectTried s k) := by
  unfold State.rejectTried
  repeat' with_reducible first | assumption | refine keeps_ite (fun _ => ?_) (fun _ => ?_) | refine State.programStatus_keeps ?_

theorem State.showBank_keeps {s : State} {k : Nat} {valid : Bool} (h : s0.Keeps b s) :
    s0.Keeps b (State.showBank s k valid) := by
  unfold State.showBank
  repeat' with_reducible first | assumption | refine State.setReg_keeps ?_

theorem State.candidate_keeps {s : State} {k : Nat} (h : s0.Keeps b s) :
    s0.Keeps b (State.candidate s k).2 := by
  unfold State.candidate
  repeat' with_reducible first
    | assumption | refine keeps_ite (fun _ => ?_) (fun _ => ?_) | refine State.rejectTried_keeps ?_ | refine State.showBank_keeps ?_
    | refine State.event_keeps ?_

theorem State.bootChoice_keeps {s : State} (h : s0.Keeps b s) :
    s0.Keeps b (State.bootChoice s).2 := by
  unfold State.bootChoice
  repeat' with_reducible first
    | assumption | split | refine keeps_snd (by assumption) ?_ | refine State.candidate_keeps ?_ | refine State.programStatus_keeps ?_
    | dsimp only

theorem State.chooseBook_keeps {s : State} (h : s0.Keeps b s) :
    s0.Keeps b (State.chooseBook s) := by
  unfold State.chooseBook
  repeat' with_reducible first
    | assumption | refine keeps_ite (fun _ => ?_) (fun _ => ?_) | refine State.wr_keeps ?_ | refine State.event_keeps ?_

theorem State.bootBank_keeps {s : State} (h : s0.Keeps b s) :
    s0.Keeps b (State.bootBank s) := by
  unfold State.bootBank
  repeat' with_reducible first
    | assumption | refine State.bootChoice_keeps ?_ | refine State.wr_keeps ?_ | refine State.chooseBook_keeps ?_
    | refine keeps_mk (keeps_up ?_)

theorem State.norErase_keeps {s : State} {k : Nat} (h : s0.Keeps b s) :
    s0.Keeps b (State.norErase s k) := by
  unfold State.norErase
  repeat' with_reducible first | assumption | refine keeps_mk (keeps_up ?_)

end Sys2Proof.Machine
end

