-- ==== Sys2Proof/Laws/KeepsMbxOps.lean ====
section
/-!
SUPPORT. What the operations of Machine/MbxOps.lean keep.
-/

set_option linter.all false

namespace Sys2Proof.Machine

variable {b : Bool} {s0 : State}

theorem State.setView_keeps {s : State} {u : Nat} {v : UnitView} (h : s0.Keeps b s) :
    s0.Keeps b (State.setView s u v) := by
  unfold State.setView
  repeat' with_reducible first | assumption | refine keeps_mk (keeps_up ?_)

theorem State.syncViews_keeps {s : State} (h : s0.Keeps b s) :
    s0.Keeps b (State.syncViews s) := by
  unfold State.syncViews
  repeat' with_reducible first | assumption | refine State.setView_keeps ?_ | refine keeps_foldl ?_ (fun _ _ _ => ?_)

theorem State.mbMark_keeps {s : State} {m : Nat} {s1 : State} (h : s0.Keeps b s) (hs1 : s0.Keeps b s1) :
    s0.Keeps b (State.mbMark s m s1) := by
  unfold State.mbMark
  repeat' with_reducible first
    | assumption | refine keeps_ite (fun _ => ?_) (fun _ => ?_) | refine State.setExec_keeps ?_ | split

theorem State.dispute_keeps {s : State} {u : Nat} {c : List Byte} (h : s0.Keeps b s) :
    s0.Keeps b (State.dispute s u c) := by
  unfold State.dispute
  repeat' with_reducible first
    | assumption | refine State.bump_keeps ?_ | refine State.event_keeps ?_ | refine State.wr_keeps ?_ | refine State.setView_keeps ?_
    | refine keeps_foldl ?_ (fun _ _ _ => ?_)

theorem State.cmdCheck_keeps {s : State} {m : Nat} {c : List Byte} (h : s0.Keeps b s) :
    s0.Keeps b (State.cmdCheck s m c).2 := by
  unfold State.cmdCheck
  repeat' with_reducible first
    | assumption | refine keeps_ite₁ (fun _ => ?_) (fun _ => ?_) | refine State.dispute_keeps ?_ | split

theorem State.mbTake_keeps {s : State} {m : Nat} (h : s0.Keeps b s) :
    s0.Keeps b (State.mbTake s m) := by
  unfold State.mbTake
  repeat' with_reducible first
    | assumption | refine keeps_ite (fun _ => ?_) (fun _ => ?_) | refine State.bumpW_keeps ?_ | refine State.wr_keeps ?_
    | refine State.setExec_keeps ?_ | refine State.bump_keeps ?_ | refine State.cmdCheck_keeps ?_

theorem State.mbStart_keeps {s : State} (h : s0.Keeps b s) :
    s0.Keeps b (State.mbStart s) := by
  unfold State.mbStart
  repeat' with_reducible first
    | assumption | refine keeps_ite (fun _ => ?_) (fun _ => ?_) | refine State.mbTake_keeps ?_
    | fail_if_no_progress (refine keeps_mk (keeps_up ?_)) | split

theorem State.begun_keeps {s : State} {m : Nat} {e : MbExec} (h : s0.Keeps b s) :
    s0.Keeps b (State.begun s m e) := by
  unfold State.begun
  repeat' with_reducible first | assumption | refine State.setExec_keeps ?_

theorem State.mbRun_keeps {s : State} {m op : Nat} {act : State → List Byte → State} (h : s0.Keeps b s)
    (ha : ∀ t d, s0.Keeps b t → s0.Keeps b (act t d)) : s0.Keeps b (State.mbRun s m op act) := by
  unfold State.mbRun
  split
  · split
    · exact State.mbMark_keeps h (ha _ _ (State.begun_keeps h))
    · exact h
  · exact h

theorem State.mbWait_keeps {s : State} {m : Nat} {w : List Nat} (h : s0.Keeps b s) :
    s0.Keeps b (State.mbWait s m w) := by
  unfold State.mbWait
  repeat' with_reducible first | assumption | refine State.setExec_keeps ?_ | split

theorem State.countStatus_keeps {s : State} {m : Nat} {st : Nat} (h : s0.Keeps b s) :
    s0.Keeps b (State.countStatus s m st) := by
  unfold State.countStatus
  repeat' with_reducible first | assumption | refine keeps_ite (fun _ => ?_) (fun _ => ?_) | refine State.bump_keeps ?_

theorem State.mbNotify_keeps {s : State} {m : Nat} (h : s0.Keeps b s) :
    s0.Keeps b (State.mbNotify s m) := by
  unfold State.mbNotify
  repeat' with_reducible first
    | assumption | refine keeps_ite (fun _ => ?_) (fun _ => ?_) | refine State.raiseIrq_keeps ?_ | refine State.raiseMsix_keeps ?_
    | refine State.raiseCastle_keeps ?_ | refine State.send_keeps ?_

theorem State.mbRespond_keeps {s : State} {m : Nat} {e : MbExec} {st : Nat} (h : s0.Keeps false s) :
    s0.Keeps false (State.mbRespond s m e st) := by
  unfold State.mbRespond
  repeat' with_reducible first
    | assumption | refine keeps_ite (fun _ => ?_) (fun _ => ?_) | refine State.store_keeps ?_ | refine State.setMb_keeps ?_
    | refine State.wr_keeps ?_ | refine State.countStatus_keeps ?_ | refine State.mbNotify_keeps ?_

theorem State.unitReport_keeps {s : State} {u : Nat} {v : UnitView} (h : s0.Keeps b s) :
    s0.Keeps b (State.unitReport s u v) := by
  unfold State.unitReport
  repeat' with_reducible first | assumption | refine keeps_ite (fun _ => ?_) (fun _ => ?_) | refine State.setView_keeps ?_

end Sys2Proof.Machine
end

