-- ==== Sys2Proof/Laws/KeepsBoot.lean ====
section
/-!
SUPPORT. What the operations of Machine/Boot.lean keep.
-/

set_option linter.all false

namespace Sys2Proof.Machine

variable {b : Bool} {s0 : State}

theorem State.applyBooting_keeps {s : State} (h : s0.Keeps false s) :
    s0.Keeps false (State.applyBooting s) := by
  unfold State.applyBooting
  repeat' with_reducible first | assumption | refine State.imageApply_keeps ?_ | refine keeps_mk (keeps_up ?_)

theorem State.wakeBoot_keeps {s : State} (h : s0.Keeps false s) :
    s0.Keeps false (State.wakeBoot s) := by
  unfold State.wakeBoot
  repeat' with_reducible first
    | assumption | refine State.event_keeps ?_ | refine State.wr_keeps ?_ | refine State.setUstate_keeps ?_
    | refine State.wakeUnits_keeps ?_ | refine State.startHosts_keeps ?_ | refine State.loadHosts_keeps ?_
    | refine State.applyBooting_keeps ?_ | refine keeps_foldl ?_ (fun _ _ _ => ?_) | fail_if_no_progress (refine keeps_mk (keeps_up ?_))
    | split

theorem execWakeComplete_keeps {crcFail : Bool} {s : State} (h : s0.Keeps false s) :
    s0.KeepsO false (execWakeComplete crcFail s) := by
  unfold execWakeComplete
  repeat' with_reducible first
    | assumption | refine keepsO_next ?_ | refine keeps_ite (fun _ => ?_) (fun _ => ?_) | refine State.wakeEnd_keeps ?_
    | refine State.syncViews_keeps ?_ | refine State.wakeBoot_keeps ?_ | refine State.coresResume_keeps ?_
    | refine State.wakeUnits_keeps ?_ | refine keeps_mk (keeps_up ?_)

theorem State.takeRef_keeps {s : State} {a : Bool} {x3 : Bool} (h : s0.Keeps b s) :
    s0.Keeps b (State.takeRef s a x3) := by
  unfold State.takeRef
  repeat' with_reducible first | assumption | refine State.wr_keeps ?_

theorem State.unitsUp_keeps {s : State} {cold : Bool} (h : s0.Keeps false s) :
    s0.Keeps false (State.unitsUp s cold) := by
  unfold State.unitsUp
  repeat' with_reducible first
    | assumption | refine keeps_ite (fun _ => ?_) (fun _ => ?_) | refine State.setUstate_keeps ?_ | refine State.wakeUnits_keeps ?_
    | refine keeps_foldl ?_ (fun _ _ _ => ?_)

theorem State.bootRun_keeps {s : State} {cause : Nat} {a : Bool} {x4 : Bool} (h : s0.Keeps false s) :
    s0.Keeps false (State.bootRun s cause a x4) := by
  unfold State.bootRun
  repeat' with_reducible first
    | assumption | refine State.assertHold_keeps ?_ | refine State.wr_keeps ?_ | refine State.takeRef_keeps ?_
    | refine State.unitsUp_keeps ?_ | refine State.loadCastle_keeps ?_ | refine State.imageApply_keeps ?_ | refine State.bootBank_keeps ?_
    | refine keeps_mk (keeps_up ?_)

theorem State.restartApply_keeps {s : State} (h : s0.Keeps false s) :
    s0.Keeps false (State.restartApply s) := by
  unfold State.restartApply
  repeat' with_reducible first
    | assumption | refine keeps_ite (fun _ => ?_) (fun _ => ?_) | refine State.loadHosts_keeps ?_ | refine State.imageApply_keeps ?_
    | refine State.safeLatch_keeps ?_ | refine State.event_keeps ?_ | fail_if_no_progress (refine keeps_mk (keeps_up ?_)) | split

theorem execSafeRestartApply_keeps {s : State} (h : s0.Keeps false s) :
    s0.KeepsO false (execSafeRestartApply s) := by
  unfold execSafeRestartApply
  repeat' with_reducible first
    | assumption | refine keepsO_next ?_ | refine keeps_ite (fun _ => ?_) (fun _ => ?_) | refine State.safeResets_keeps ?_
    | refine State.restartApply_keeps ?_

theorem execModuleReset_keeps {s : State} (h : s0.Keeps false s) :
    s0.KeepsO false (execModuleReset s) := by
  unfold execModuleReset
  repeat' with_reducible first
    | assumption | refine keepsO_next ?_ | refine State.assertHold_keeps ?_ | refine State.allOff_keeps ?_

theorem execPowerUp_keeps {rootPort : Bool} {holdup : Bool} {test : Bool} {refB : Bool} {s : State} (h : s0.Keeps false s) :
    s0.KeepsO false (execPowerUp rootPort holdup test refB s) := by
  unfold execPowerUp
  repeat' with_reducible first
    | assumption | refine keepsO_next ?_ | refine keeps_ite (fun _ => ?_) (fun _ => ?_) | refine State.assertHold_keeps ?_
    | refine State.allOff_keeps ?_ | refine State.wr_keeps ?_ | refine keeps_mk (keeps_up ?_)

theorem State.d2dBack_keeps {s : State} (h : s0.Keeps b s) :
    s0.Keeps b (State.d2dBack s) := by
  unfold State.d2dBack
  repeat' with_reducible first | assumption | refine keeps_ite (fun _ => ?_) (fun _ => ?_) | refine State.wr_keeps ?_

theorem execBootComplete_keeps {s : State} (h : s0.Keeps false s) :
    s0.KeepsO false (execBootComplete s) := by
  unfold execBootComplete
  repeat' with_reducible first
    | assumption | refine keepsO_next ?_ | refine keeps_ite (fun _ => ?_) (fun _ => ?_) | refine State.oppEval_keeps ?_
    | refine State.setModState_keeps ?_ | refine State.loadHosts_keeps ?_ | refine State.setLoops_keeps ?_ | refine State.wr_keeps ?_
    | refine State.raiseCastle_keeps ?_ | refine State.syncViews_keeps ?_ | refine State.showFreq_keeps ?_
    | refine State.startHosts_keeps ?_ | refine keeps_mk (keeps_up ?_)

theorem execSafeRestartComplete_keeps {s : State} (h : s0.Keeps b s) :
    s0.KeepsO b (execSafeRestartComplete s) := by
  unfold execSafeRestartComplete
  repeat' with_reducible first
    | assumption | refine keepsO_next ?_ | refine keeps_ite (fun _ => ?_) (fun _ => ?_) | refine State.wr_keeps ?_
    | refine State.startHosts_keeps ?_ | refine State.d2dBack_keeps ?_ | refine State.setModState_keeps ?_
    | refine State.raiseCastle_keeps ?_

theorem execVinPresent_keeps {refA : Bool} {refB : Bool} {s : State} (h : s0.Keeps false s) :
    s0.KeepsO false (execVinPresent refA refB s) := by
  unfold execVinPresent
  repeat' with_reducible first
    | assumption | refine keepsO_next ?_ | refine keeps_ite (fun _ => ?_) (fun _ => ?_) | refine State.bootRun_keeps ?_

end Sys2Proof.Machine
end

