-- ==== Sys2Proof/Laws/KeepsChecker.lean ====
section
/-!
SUPPORT. What the operations of Machine/Checker.lean keep.
-/

set_option linter.all false

namespace Sys2Proof.Machine

variable {b : Bool} {s0 : State}

theorem execCcLoadSdf_keeps {s : State} (h : s0.Keeps false s) :
    s0.KeepsO false (execCcLoadSdf s) := by
  unfold execCcLoadSdf
  repeat' with_reducible first
    | assumption | refine keepsO_next ?_ | refine State.ccJob_keeps ?_ (fun _ _ _ => ?_) | refine State.loadSdf_keeps ?_

theorem execCcCheck_keeps {n : Fin 257} {s : State} (h : s0.Keeps false s) :
    s0.KeepsO false (execCcCheck n s) := by
  unfold execCcCheck
  repeat' with_reducible first | assumption | refine keepsO_next ?_ | refine State.ccCheck_keeps ?_

theorem execTrajectorySwitch_keeps {s : State} (h : s0.Keeps b s) :
    s0.KeepsO b (execTrajectorySwitch s) := by
  unfold execTrajectorySwitch
  repeat' with_reducible first | assumption | refine keepsO_next ?_ | refine State.trajSwitch_keeps ?_

theorem execTrajectoryExpiry_keeps {s : State} (h : s0.Keeps b s) :
    s0.KeepsO b (execTrajectoryExpiry s) := by
  unfold execTrajectoryExpiry
  repeat' with_reducible first | assumption | refine keepsO_next ?_ | refine State.trajExpiry_keeps ?_

theorem execCcFallbackJob_keeps {s : State} (h : s0.Keeps b s) :
    s0.KeepsO b (execCcFallbackJob s) := by
  unfold execCcFallbackJob
  repeat' with_reducible first
    | assumption | refine keepsO_next ?_ | refine State.ccJob_keeps ?_ (fun _ _ _ => ?_) | refine State.fbRequest_keeps ?_

theorem execCheckResume_keeps {s : State} (h : s0.Keeps false s) :
    s0.KeepsO false (execCheckResume s) := by
  unfold execCheckResume
  repeat' with_reducible first | assumption | refine keepsO_next ?_ | refine State.ccResume_keeps ?_

theorem execCcCancel_keeps {s : State} (h : s0.Keeps b s) :
    s0.KeepsO b (execCcCancel s) := by
  unfold execCcCancel
  repeat' with_reducible first
    | assumption | refine keepsO_next ?_ | refine State.ccJob_keeps ?_ (fun _ _ _ => ?_) | refine State.ccCancel_keeps ?_

theorem execCcLoadBev_keeps {s : State} (h : s0.Keeps false s) :
    s0.KeepsO false (execCcLoadBev s) := by
  unfold execCcLoadBev
  repeat' with_reducible first
    | assumption | refine keepsO_next ?_ | refine State.ccJob_keeps ?_ (fun _ _ _ => ?_) | refine State.loadBev_keeps ?_

theorem execCcFallbackBit_keeps {r : Req} {d : WData} {s : State} (h : s0.Keeps b s) :
    s0.KeepsO b (execCcFallbackBit r d s) := by
  unfold execCcFallbackBit
  repeat' with_reducible first | assumption | refine keepsO_next ?_ | refine State.ccWrite_keeps ?_

theorem execFallbackSwitch_keeps {s : State} (h : s0.Keeps false s) :
    s0.KeepsO false (execFallbackSwitch s) := by
  unfold execFallbackSwitch
  repeat' with_reducible first | assumption | refine keepsO_next ?_ | refine State.fbSwitch_keeps ?_

theorem execCheckDeadline_keeps {s : State} (h : s0.Keeps false s) :
    s0.KeepsO false (execCheckDeadline s) := by
  unfold execCheckDeadline
  repeat' with_reducible first | assumption | refine keepsO_next ?_ | refine State.ccDeadline_keeps ?_

theorem execCcLoadModel_keeps {s : State} (h : s0.Keeps false s) :
    s0.KeepsO false (execCcLoadModel s) := by
  unfold execCcLoadModel
  repeat' with_reducible first
    | assumption | refine keepsO_next ?_ | refine State.ccJob_keeps ?_ (fun _ _ _ => ?_) | refine State.loadModel_keeps ?_

theorem execCcCommit_keeps {s : State} (h : s0.Keeps b s) :
    s0.KeepsO b (execCcCommit s) := by
  unfold execCcCommit
  repeat' with_reducible first
    | assumption | refine keepsO_next ?_ | refine State.ccJob_keeps ?_ (fun _ _ _ => ?_) | refine State.ccCommit_keeps ?_

theorem execCcReset_keeps {r : Req} {d : WData} {s : State} (h : s0.Keeps b s) :
    s0.KeepsO b (execCcReset r d s) := by
  unfold execCcReset
  repeat' with_reducible first | assumption | refine keepsO_next ?_ | refine State.ccWrite_keeps ?_

theorem execCheckerResetComplete_keeps {s : State} (h : s0.Keeps b s) :
    s0.KeepsO b (execCheckerResetComplete s) := by
  unfold execCheckerResetComplete
  repeat' with_reducible first | assumption | refine keepsO_next ?_ | refine State.ccResetDone_keeps ?_

end Sys2Proof.Machine
end

