-- ==== Sys2Proof/Laws/KeepsClock.lean ====
section
/-!
SUPPORT. What the operations of Machine/Clock.lean keep.
-/

set_option linter.all false

namespace Sys2Proof.Machine

variable {b : Bool} {s0 : State}

theorem execRefclkLoss_keeps {ref : Fin 2} {s : State} (h : s0.Keeps b s) :
    s0.KeepsO b (execRefclkLoss ref s) := by
  unfold execRefclkLoss
  repeat' with_reducible first | assumption | refine keepsO_next ?_ | refine State.refLost_keeps ?_

theorem execClockGate_keeps {d : Fin 112} {gated : Bool} {s : State} (h : s0.Keeps b s) :
    s0.KeepsO b (execClockGate d gated s) := by
  unfold execClockGate
  repeat' with_reducible first
    | assumption | refine keepsO_next ?_ | refine keeps_ite (fun _ => ?_) (fun _ => ?_) | refine State.wrBit_keeps ?_

theorem execClockDomainFail_keeps {d : Fin 112} {s : State} (h : s0.Keeps b s) :
    s0.KeepsO b (execClockDomainFail d s) := by
  unfold execClockDomainFail
  repeat' with_reducible first | assumption | refine keepsO_next ?_ | refine State.domainFail_keeps ?_

theorem execClockHoldoverExpire_keeps {s : State} (h : s0.Keeps b s) :
    s0.KeepsO b (execClockHoldoverExpire s) := by
  unfold execClockHoldoverExpire
  repeat' with_reducible first
    | assumption | refine keepsO_next ?_ | refine keeps_ite (fun _ => ?_) (fun _ => ?_) | refine State.safeDecide_keeps ?_
    | refine State.wr_keeps ?_

theorem execClockSwitchDone_keeps {s : State} (h : s0.Keeps b s) :
    s0.KeepsO b (execClockSwitchDone s) := by
  unfold execClockSwitchDone
  repeat' with_reducible first | assumption | refine keepsO_next ?_ | refine State.clkDone_keeps ?_

theorem execRefclkQualified_keeps {ref : Fin 2} {s : State} (h : s0.Keeps b s) :
    s0.KeepsO b (execRefclkQualified ref s) := by
  unfold execRefclkQualified
  repeat' with_reducible first
    | assumption | refine keepsO_next ?_ | refine keeps_ite (fun _ => ?_) (fun _ => ?_) | refine State.refQualified_keeps ?_

theorem execClkSwitch_keeps {r : Req} {d : WData} {s : State} (h : s0.Keeps b s) :
    s0.KeepsO b (execClkSwitch r d s) := by
  unfold execClkSwitch
  repeat' with_reducible first | assumption | refine keepsO_next ?_ | refine State.clkWrite_keeps ?_

end Sys2Proof.Machine
end

