-- ==== Sys2Proof/Laws/KeepsMailbox.lean ====
section
/-!
SUPPORT. What the operations of Machine/Mailbox.lean keep.
-/

set_option linter.all false

namespace Sys2Proof.Machine

variable {b : Bool} {s0 : State}

theorem execMbxCommandStart_keeps {s : State} (h : s0.Keeps b s) :
    s0.KeepsO b (execMbxCommandStart s) := by
  unfold execMbxCommandStart
  repeat' with_reducible first | assumption | refine keepsO_next ?_ | refine State.mbStart_keeps ?_

theorem State.endState_keeps {s : State} {m : Nat} {u : Nat} (h : s0.Keeps b s) :
    s0.Keeps b (State.endState s m u) := by
  unfold State.endState
  repeat' with_reducible first
    | assumption | refine keeps_ite (fun _ => ?_) (fun _ => ?_) | refine State.mbWait_keeps ?_ | refine State.mbEnd_keeps ?_

theorem State.mbPlane_keeps {s : State} {m : Nat} {p : Nat} {c : List Byte} {stage : Nat} (h : s0.Keeps false s) :
    s0.Keeps false (State.mbPlane s m p c stage) := by
  unfold State.mbPlane
  repeat' with_reducible first
    | assumption | refine keeps_ite (fun _ => ?_) (fun _ => ?_) | refine State.busGet_keeps ?_ | refine State.mbEnd_keeps ?_
    | refine State.mbWait_keeps ?_ | refine State.plClose_keeps ?_ | refine State.store_keeps ?_

theorem State.mbKv_keeps {s : State} {m : Nat} {k : KvJob} {r : KvRes} (h : s0.Keeps b r.s) : s0.Keeps b (State.mbKv s m k r) := by
  unfold State.mbKv
  repeat' with_reducible first
    | assumption | refine keeps_ite (fun _ => ?_) (fun _ => ?_) | refine State.mbWait_keeps ?_ | refine State.mbEnd_keeps ?_

theorem State.mbPoll_keeps {s : State} {m : Nat} (h : s0.Keeps false s) :
    s0.Keeps false (State.mbPoll s m) := by
  unfold State.mbPoll
  repeat' with_reducible first
    | assumption | refine keeps_ite (fun _ => ?_) (fun _ => ?_) | refine State.mbEnd_keeps ?_ | refine State.endState_keeps ?_
    | refine State.mbPlane_keeps ?_ | refine State.mbKv_keeps ?_ | refine State.kvOp_keeps ?_ | split

theorem State.endEpoch_keeps {s : State} {m : Nat} {u : Nat} (h : s0.Keeps b s) :
    s0.Keeps b (State.endEpoch s m u) := by
  unfold State.endEpoch
  repeat' with_reducible first
    | assumption | refine keeps_ite (fun _ => ?_) (fun _ => ?_) | refine State.mbWait_keeps ?_ | refine State.mbEnd_keeps ?_

theorem execMbxCommandComplete_keeps {m : Fin 16} {s : State} (h : s0.Keeps false s) :
    s0.KeepsO false (execMbxCommandComplete m s) := by
  unfold execMbxCommandComplete
  repeat' with_reducible first
    | assumption | refine keepsO_next ?_ | refine State.mbPoll_keeps ?_ | refine State.mbRespond_keeps ?_ | split | dsimp only

theorem execUnitQuery_keeps {m : Fin 16} {s : State} (h : s0.Keeps b s) :
    s0.KeepsO b (execUnitQuery m s) := by
  unfold execUnitQuery
  repeat' with_reducible first
    | assumption | refine keepsO_next ?_ | refine keeps_ite (fun _ => ?_) (fun _ => ?_) | refine State.mbRun_keeps ?_ (fun _ _ _ => ?_)
    | refine State.setView_keeps ?_ | refine State.mbEnd_keeps ?_

theorem execCmdTimeout_keeps {m : Fin 16} {s : State} (h : s0.Keeps b s) :
    s0.KeepsO b (execCmdTimeout m s) := by
  unfold execCmdTimeout
  repeat' with_reducible first
    | assumption | refine keepsO_next ?_ | refine keeps_ite (fun _ => ?_) (fun _ => ?_) | refine State.programStatus_keeps ?_
    | refine State.wr_keeps ?_ | refine State.mbEnd_keeps ?_ | split

theorem execCsrWrite_keeps {m : Fin 16} {s : State} (h : s0.Keeps false s) :
    s0.KeepsO false (execCsrWrite m s) := by
  unfold execCsrWrite
  repeat' with_reducible first
    | assumption | refine keepsO_next ?_ | refine keeps_ite (fun _ => ?_) (fun _ => ?_) | refine State.mbRun_keeps ?_ (fun _ _ _ => ?_)
    | refine State.mbEnd_keeps ?_ | refine State.regStore_keeps ?_

theorem execCsrRead_keeps {m : Fin 16} {s : State} (h : s0.Keeps b s) :
    s0.KeepsO b (execCsrRead m s) := by
  unfold execCsrRead
  repeat' with_reducible first
    | assumption | refine keepsO_next ?_ | refine State.mbRun_keeps ?_ (fun _ _ _ => ?_) | refine State.regRead_keeps ?_
    | refine State.mbEnd_keeps ?_

theorem execUnitRelease_keeps {m : Fin 16} {s : State} (h : s0.Keeps false s) :
    s0.KeepsO false (execUnitRelease m s) := by
  unfold execUnitRelease
  repeat' with_reducible first
    | assumption | refine keepsO_next ?_ | refine keeps_ite (fun _ => ?_) (fun _ => ?_) | refine State.mbRun_keeps ?_ (fun _ _ _ => ?_)
    | refine State.endEpoch_keeps ?_ | refine State.unquarantine_keeps ?_ | refine State.mbEnd_keeps ?_

theorem execUnitQuarantine_keeps {m : Fin 16} {s : State} (h : s0.Keeps b s) :
    s0.KeepsO b (execUnitQuarantine m s) := by
  unfold execUnitQuarantine
  repeat' with_reducible first
    | assumption | refine keepsO_next ?_ | refine State.mbRun_keeps ?_ (fun _ _ _ => ?_) | refine State.quarantine_keeps ?_
    | refine State.mbEnd_keeps ?_

theorem execNop_keeps {m : Fin 16} {s : State} (h : s0.Keeps b s) :
    s0.KeepsO b (execNop m s) := by
  unfold execNop
  repeat' with_reducible first
    | assumption | refine keepsO_next ?_ | refine State.mbRun_keeps ?_ (fun _ _ _ => ?_) | refine State.mbEnd_keeps ?_

theorem execUnitReset_keeps {m : Fin 16} {s : State} (h : s0.Keeps false s) :
    s0.KeepsO false (execUnitReset m s) := by
  unfold execUnitReset
  repeat' with_reducible first
    | assumption | refine keepsO_next ?_ | refine keeps_ite (fun _ => ?_) (fun _ => ?_) | refine State.mbRun_keeps ?_ (fun _ _ _ => ?_)
    | refine State.mbEnd_keeps ?_ | refine State.endEpoch_keeps ?_ | refine State.unitReset_keeps ?_ | refine State.preempt_keeps ?_

theorem execUnitStateReport_keeps {u : Fin 65536} {st : Fin 9} {epoch : Fin 65536} {part : Fin 9} {s : State} (h : s0.Keeps b s) :
    s0.KeepsO b (execUnitStateReport u st epoch part s) := by
  unfold execUnitStateReport
  repeat' with_reducible first | assumption | refine keepsO_next ?_ | refine State.unitReport_keeps ?_

theorem execIdentify_keeps {m : Fin 16} {s : State} (h : s0.Keeps b s) :
    s0.KeepsO b (execIdentify m s) := by
  unfold execIdentify
  repeat' with_reducible first
    | assumption | refine keepsO_next ?_ | refine State.mbRun_keeps ?_ (fun _ _ _ => ?_) | refine State.mbEnd_keeps ?_

theorem execEventRead_keeps {m : Fin 16} {s : State} (h : s0.Keeps false s) :
    s0.KeepsO false (execEventRead m s) := by
  unfold execEventRead
  repeat' with_reducible first
    | assumption | refine keepsO_next ?_ | refine keeps_ite (fun _ => ?_) (fun _ => ?_) | refine State.mbRun_keeps ?_ (fun _ _ _ => ?_)
    | refine State.busPut_keeps ?_ | refine State.mbEnd_keeps ?_

end Sys2Proof.Machine
end

