-- ==== Sys2Proof/Laws/KeepsRest.lean ====
section
/-!
SUPPORT. What the operations of Machine/Rest.lean keep.
-/

set_option linter.all false

namespace Sys2Proof.Machine

variable {b : Bool} {s0 : State}

theorem State.restWrite_keeps {s : State} {r : Req} {u : RestUnit} {v : Nat} (h : s0.Keeps false s) :
    s0.Keeps false (State.restWrite s r u v) := by
  unfold State.restWrite
  repeat' with_reducible first
    | assumption | refine State.sqWrite_keeps ?_ | refine State.plWrite_keeps ?_ | refine State.aeWrite_keeps ?_ | split

theorem execRestForceWrite_keeps {r : Req} {u : RestUnit} {s : State} (h : s0.Keeps false s) :
    s0.KeepsO false (execRestForceWrite r u s) := by
  unfold execRestForceWrite
  repeat' with_reducible first | assumption | refine keepsO_next ?_ | refine State.restWrite_keeps ?_

theorem execRestComplete_keeps {u : RestUnit} {fault : Bool} {part : Nat} {s : State} (h : s0.Keeps false s) :
    s0.KeepsO false (execRestComplete u fault part s) := by
  unfold execRestComplete
  repeat' with_reducible first
    | assumption | refine keepsO_next ?_ | refine State.sqRestDone_keeps ?_ | refine State.plRestDone_keeps ?_
    | refine State.aeRestDone_keeps ?_ | split

theorem execRestEnter_keeps {u : RestUnit} {s : State} (h : s0.Keeps b s) :
    s0.KeepsO b (execRestEnter u s) := by
  unfold execRestEnter
  repeat' with_reducible first
    | assumption | refine keepsO_next ?_ | refine State.sqRestEnter_keeps ?_ | refine State.plRestEnter_keeps ?_
    | refine State.aeRestEnter_keeps ?_ | split

theorem execRestReqWrite_keeps {r : Req} {u : RestUnit} {s : State} (h : s0.Keeps false s) :
    s0.KeepsO false (execRestReqWrite r u s) := by
  unfold execRestReqWrite
  repeat' with_reducible first | assumption | refine keepsO_next ?_ | refine State.restWrite_keeps ?_

theorem execRestWithdrawWrite_keeps {r : Req} {u : RestUnit} {s : State} (h : s0.Keeps false s) :
    s0.KeepsO false (execRestWithdrawWrite r u s) := by
  unfold execRestWithdrawWrite
  repeat' with_reducible first | assumption | refine keepsO_next ?_ | refine State.restWrite_keeps ?_

end Sys2Proof.Machine
end

