-- ==== Sys2Proof/Laws/KeepsCommands.lean ====
section
/-!
SUPPORT. What the operations of Machine/Commands.lean keep.
-/

set_option linter.all false

namespace Sys2Proof.Machine

variable {b : Bool} {s0 : State}

theorem State.mbSet_keeps {s : State} {m : Nat} {a : Nat} {v : Nat} (h : s0.Keeps false s) :
    s0.Keeps false (State.mbSet s m a v) := by
  unfold State.mbSet
  repeat' with_reducible first | assumption | refine State.regStore_keeps ?_

theorem execStreamSet_keeps {m : Fin 16} {s : State} (h : s0.Keeps false s) :
    s0.KeepsO false (execStreamSet m s) := by
  unfold execStreamSet
  repeat' with_reducible first
    | assumption | refine keepsO_next ?_ | refine State.mbRun_keeps ?_ (fun _ _ _ => ?_) | refine State.mbSet_keeps ?_
    | refine State.mbEnd_keeps ?_

theorem execIqQuery_keeps {m : Fin 16} {s : State} (h : s0.Keeps b s) :
    s0.KeepsO b (execIqQuery m s) := by
  unfold execIqQuery
  repeat' with_reducible first
    | assumption | refine keepsO_next ?_ | refine State.mbRun_keeps ?_ (fun _ _ _ => ?_) | refine State.mbEnd_keeps ?_

theorem execPeDisarm_keeps {m : Fin 16} {s : State} (h : s0.Keeps false s) :
    s0.KeepsO false (execPeDisarm m s) := by
  unfold execPeDisarm
  repeat' with_reducible first
    | assumption | refine keepsO_next ?_ | refine keeps_ite (fun _ => ?_) (fun _ => ?_) | refine State.mbRun_keeps ?_ (fun _ _ _ => ?_)
    | refine State.mbSet_keeps ?_ | refine State.mbEnd_keeps ?_

theorem execTimeAdjust_keeps {m : Fin 16} {s : State} (h : s0.Keeps false s) :
    s0.KeepsO false (execTimeAdjust m s) := by
  unfold execTimeAdjust
  repeat' with_reducible first
    | assumption | refine keepsO_next ?_ | refine keeps_ite (fun _ => ?_) (fun _ => ?_) | refine State.mbRun_keeps ?_ (fun _ _ _ => ?_)
    | refine State.mbSet_keeps ?_ | refine State.mbEnd_keeps ?_

theorem execPhQuery_keeps {m : Fin 16} {s : State} (h : s0.Keeps b s) :
    s0.KeepsO b (execPhQuery m s) := by
  unfold execPhQuery
  repeat' with_reducible first
    | assumption | refine keepsO_next ?_ | refine State.mbRun_keeps ?_ (fun _ _ _ => ?_) | refine State.mbEnd_keeps ?_

theorem execLinkQuery_keeps {m : Fin 16} {s : State} (h : s0.Keeps b s) :
    s0.KeepsO b (execLinkQuery m s) := by
  unfold execLinkQuery
  repeat' with_reducible first
    | assumption | refine keepsO_next ?_ | refine State.mbRun_keeps ?_ (fun _ _ _ => ?_) | refine State.mbEnd_keeps ?_

theorem execLinkEnable_keeps {m : Fin 16} {s : State} (h : s0.Keeps false s) :
    s0.KeepsO false (execLinkEnable m s) := by
  unfold execLinkEnable
  repeat' with_reducible first
    | assumption | refine keepsO_next ?_ | refine State.mbRun_keeps ?_ (fun _ _ _ => ?_) | refine State.mbEnd_keeps ?_
    | refine State.mbSet_keeps ?_

theorem execPowerCap_keeps {m : Fin 16} {s : State} (h : s0.Keeps false s) :
    s0.KeepsO false (execPowerCap m s) := by
  unfold execPowerCap
  repeat' with_reducible first
    | assumption | refine keepsO_next ?_ | refine keeps_ite (fun _ => ?_) (fun _ => ?_) | refine State.mbRun_keeps ?_ (fun _ _ _ => ?_)
    | refine State.mbEnd_keeps ?_ | refine State.mbSet_keeps ?_

theorem execPeArm_keeps {m : Fin 16} {s : State} (h : s0.Keeps false s) :
    s0.KeepsO false (execPeArm m s) := by
  unfold execPeArm
  repeat' with_reducible first
    | assumption | refine keepsO_next ?_ | refine keeps_ite (fun _ => ?_) (fun _ => ?_) | refine State.mbRun_keeps ?_ (fun _ _ _ => ?_)
    | refine State.mbEnd_keeps ?_ | refine State.mbSet_keeps ?_

theorem execRestWithdraw_keeps {m : Fin 16} {s : State} (h : s0.Keeps false s) :
    s0.KeepsO false (execRestWithdraw m s) := by
  unfold execRestWithdraw
  repeat' with_reducible first
    | assumption | refine keepsO_next ?_ | refine State.mbRun_keeps ?_ (fun _ _ _ => ?_) | refine State.mbEnd_keeps ?_
    | refine State.restWrite_keeps ?_

theorem execSafetyQuery_keeps {m : Fin 16} {s : State} (h : s0.Keeps b s) :
    s0.KeepsO b (execSafetyQuery m s) := by
  unfold execSafetyQuery
  repeat' with_reducible first
    | assumption | refine keepsO_next ?_ | refine State.mbRun_keeps ?_ (fun _ _ _ => ?_) | refine State.mbEnd_keeps ?_

theorem State.mbPower_keeps {s : State} {m : Nat} {t : Nat} (h : s0.Keeps b s) :
    s0.Keeps b (State.mbPower s m t) := by
  unfold State.mbPower
  repeat' with_reducible first
    | assumption | refine keeps_ite (fun _ => ?_) (fun _ => ?_) | refine State.mbEnd_keeps ?_ | refine State.mbWait_keeps ?_
    | refine State.wake_keeps ?_ | refine State.entryStart_keeps ?_ | refine keeps_mk (keeps_up ?_)

theorem execPowerState_keeps {m : Fin 16} {s : State} (h : s0.Keeps b s) :
    s0.KeepsO b (execPowerState m s) := by
  unfold execPowerState
  repeat' with_reducible first
    | assumption | refine keepsO_next ?_ | refine State.mbRun_keeps ?_ (fun _ _ _ => ?_) | refine State.mbPower_keeps ?_

theorem execUnitPower_keeps {m : Fin 16} {s : State} (h : s0.Keeps false s) :
    s0.KeepsO false (execUnitPower m s) := by
  unfold execUnitPower
  repeat' with_reducible first
    | assumption | refine keepsO_next ?_ | refine keeps_ite (fun _ => ?_) (fun _ => ?_) | refine State.mbRun_keeps ?_ (fun _ _ _ => ?_)
    | refine State.mbEnd_keeps ?_ | refine State.endState_keeps ?_ | refine State.unitGo_keeps ?_ | refine State.unitReturn_keeps ?_

theorem execIqFlush_keeps {m : Fin 16} {s : State} (h : s0.Keeps b s) :
    s0.KeepsO b (execIqFlush m s) := by
  unfold execIqFlush
  repeat' with_reducible first
    | assumption | refine keepsO_next ?_ | refine State.mbRun_keeps ?_ (fun _ _ _ => ?_) | refine State.mbEnd_keeps ?_
    | refine State.iqDrain_keeps ?_

theorem execRestRequest_keeps {m : Fin 16} {s : State} (h : s0.Keeps false s) :
    s0.KeepsO false (execRestRequest m s) := by
  unfold execRestRequest
  repeat' with_reducible first
    | assumption | refine keepsO_next ?_ | refine keeps_ite (fun _ => ?_) (fun _ => ?_) | refine State.mbRun_keeps ?_ (fun _ _ _ => ?_)
    | refine State.mbEnd_keeps ?_ | refine State.restWrite_keeps ?_ | refine State.mbWait_keeps ?_

theorem execLinkRetrain_keeps {m : Fin 16} {s : State} (h : s0.Keeps false s) :
    s0.KeepsO false (execLinkRetrain m s) := by
  unfold execLinkRetrain
  repeat' with_reducible first
    | assumption | refine keepsO_next ?_ | refine State.mbRun_keeps ?_ (fun _ _ _ => ?_) | refine State.mbEnd_keeps ?_
    | refine State.mbSet_keeps ?_

theorem execTimeStep_keeps {m : Fin 16} {s : State} (h : s0.Keeps false s) :
    s0.KeepsO false (execTimeStep m s) := by
  unfold execTimeStep
  repeat' with_reducible first
    | assumption | refine keepsO_next ?_ | refine keeps_ite (fun _ => ?_) (fun _ => ?_) | refine State.mbRun_keeps ?_ (fun _ _ _ => ?_)
    | refine State.mbEnd_keeps ?_ | refine State.mbSet_keeps ?_

theorem execPowerQuery_keeps {m : Fin 16} {s : State} (h : s0.Keeps b s) :
    s0.KeepsO b (execPowerQuery m s) := by
  unfold execPowerQuery
  repeat' with_reducible first
    | assumption | refine keepsO_next ?_ | refine State.mbRun_keeps ?_ (fun _ _ _ => ?_) | refine State.mbEnd_keeps ?_

theorem execSafeRequest_keeps {m : Fin 16} {s : State} (h : s0.Keeps b s) :
    s0.KeepsO b (execSafeRequest m s) := by
  unfold execSafeRequest
  repeat' with_reducible first
    | assumption | refine keepsO_next ?_ | refine keeps_ite (fun _ => ?_) (fun _ => ?_) | refine State.mbRun_keeps ?_ (fun _ _ _ => ?_)
    | refine State.mbEnd_keeps ?_ | refine State.safeDecide_keeps ?_

theorem execTimeRead_keeps {m : Fin 16} {s : State} (h : s0.Keeps b s) :
    s0.KeepsO b (execTimeRead m s) := by
  unfold execTimeRead
  repeat' with_reducible first
    | assumption | refine keepsO_next ?_ | refine State.mbRun_keeps ?_ (fun _ _ _ => ?_) | refine State.regRead_keeps ?_
    | refine State.mbEnd_keeps ?_

end Sys2Proof.Machine
end

