-- ==== Sys2Proof/Laws/KeepsDmaOps.lean ====
section
/-!
SUPPORT. What the operations of Machine/DmaOps.lean keep.
-/

set_option linter.all false

namespace Sys2Proof.Machine

variable {b : Bool} {s0 : State}

theorem State.burstRead_keeps {s : State} {m : Master} {x3 : Burst} {x : ExtAns} (h : s0.Keeps false s) :
    s0.Keeps false (State.burstRead s m x3 x).2.2.2 := by
  unfold State.burstRead
  repeat' with_reducible first
    | assumption | refine keeps_ite₃ (fun _ => ?_) (fun _ => ?_) | refine State.busGet_keeps ?_ | split

theorem State.burst_keeps {s : State} {m : Master} {x3 : Burst} {x : ExtAns} (h : s0.Keeps false s) :
    s0.Keeps false (State.burst s m x3 x).2.2 := by
  unfold State.burst
  repeat' with_reducible first
    | assumption | refine keeps_ite₂ (fun _ => ?_) (fun _ => ?_) | refine State.burstRead_keeps ?_ | refine State.busPut_keeps ?_

theorem State.xferAnswer_keeps {s : State} {m : Master} {x : Xfer} {k : Nat} {a : ExtAns} (h : s0.Keeps false s) :
    s0.Keeps false (State.xferAnswer s m x k a).2 := by
  unfold State.xferAnswer
  repeat' with_reducible first | assumption | refine State.burst_keeps ?_ | split

theorem State.txStart_keeps {s : State} {n : Nat} {o : TxOp} (h : s0.Keeps b s) :
    s0.Keeps b (State.txStart s n o) := by
  unfold State.txStart
  repeat' with_reducible first | assumption | refine keeps_ite (fun _ => ?_) (fun _ => ?_) | refine State.setSq_keeps ?_

theorem State.txStartLane_keeps {s : State} {n : Nat} {l : Nat} (h : s0.Keeps b s) :
    s0.Keeps b (State.txStartLane s n l) := by
  unfold State.txStartLane
  repeat' with_reducible first
    | assumption | refine keeps_ite (fun _ => ?_) (fun _ => ?_) | refine State.txStart_keeps ?_ | split

theorem State.txRun_keeps {s : State} {n : Nat} {o : TxOp} (h : s0.Keeps false s) :
    ∀ x, State.txRun s n o = some x → s0.Keeps false x.2.2 := by
  unfold State.txRun
  repeat' with_reducible first
    | assumption | refine keepsQ_some₂ ?_ | refine keepsQ_none₂ | refine keepsQ_ite₂ (fun _ => ?_) (fun _ => ?_)
    | refine State.mm_keeps ?_ | refine State.wload_keeps ?_ | refine State.quantOp_keeps ?_

theorem State.txFinish_keeps {s : State} {n : Nat} {o : TxOp} {st : Nat} (h : s0.Keeps b s) :
    s0.Keeps b (State.txFinish s n o st) := by
  unfold State.txFinish
  repeat' with_reducible first
    | assumption | refine State.setTxq_keeps ?_ | refine State.sqDrained_keeps ?_ | refine State.sqTagDone_keeps ?_

theorem State.txComplete_keeps {s : State} {n : Nat} {tag : Nat} (h : s0.Keeps false s) :
    s0.Keeps false (State.txComplete s n tag) := by
  unfold State.txComplete
  repeat' with_reducible first
    | assumption | refine keeps_ite (fun _ => ?_) (fun _ => ?_) | refine State.txFinish_keeps ?_ | refine State.putStatus_keeps ?_
    | refine keeps_some₂ (by assumption) (State.txRun_keeps ?_) | split | dsimp only

theorem State.dmaAnswer_keeps {s : State} {n : Nat} {tag : Nat} {k : Nat} {a : ExtAns} (h : s0.Keeps false s) :
    s0.Keeps false (State.dmaAnswer s n tag k a) := by
  unfold State.dmaAnswer
  repeat' with_reducible first
    | assumption | refine State.xferAnswer_keeps ?_ | refine State.setSq_keeps ?_ | refine State.burst_keeps ?_ | split

theorem State.dmaIssue_keeps {s : State} {n : Nat} (h : s0.Keeps b s) :
    s0.Keeps b (State.dmaIssue s n) := by
  unfold State.dmaIssue
  repeat' with_reducible first
    | assumption | refine keeps_ite (fun _ => ?_) (fun _ => ?_) | refine State.setSq_keeps ?_ | split

end Sys2Proof.Machine
end

