-- ==== Sys2Proof/Laws/KeepsDynamics.lean ====
section
/-!
SUPPORT. What the operations of Machine/Dynamics.lean keep.
-/

set_option linter.all false

namespace Sys2Proof.Machine

variable {b : Bool} {s0 : State}

theorem execDynRun_keeps {r : Req} {d : WData} {s : State} (h : s0.Keeps false s) :
    s0.KeepsO false (execDynRun r d s) := by
  unfold execDynRun
  repeat' with_reducible first | assumption | refine keepsO_next ?_ | refine State.dynWrite_keeps ?_

theorem execDynResetComplete_keeps {s : State} (h : s0.Keeps b s) :
    s0.KeepsO b (execDynResetComplete s) := by
  unfold execDynResetComplete
  repeat' with_reducible first | assumption | refine keepsO_next ?_ | refine State.dynResetDone_keeps ?_

theorem execDynJobResume_keeps {s : State} (h : s0.Keeps false s) :
    s0.KeepsO false (execDynJobResume s) := by
  unfold execDynJobResume
  repeat' with_reducible first | assumption | refine keepsO_next ?_ | refine State.dynResume_keeps ?_

theorem execDynReset_keeps {r : Req} {d : WData} {s : State} (h : s0.Keeps false s) :
    s0.KeepsO false (execDynReset r d s) := by
  unfold execDynReset
  repeat' with_reducible first | assumption | refine keepsO_next ?_ | refine State.dynWrite_keeps ?_

theorem execLoadTasks_keeps {paused : Bool} {s : State} (h : s0.Keeps false s) :
    s0.KeepsO false (execLoadTasks paused s) := by
  unfold execLoadTasks
  repeat' with_reducible first | assumption | refine keepsO_next ?_ | refine State.dynJob_keeps ?_

theorem execCompute_keeps {paused : Bool} {s : State} (h : s0.Keeps false s) :
    s0.KeepsO false (execCompute paused s) := by
  unfold execCompute
  repeat' with_reducible first | assumption | refine keepsO_next ?_ | refine State.dynJob_keeps ?_

theorem execDynPeriodTrigger_keeps {s : State} (h : s0.Keeps false s) :
    s0.KeepsO false (execDynPeriodTrigger s) := by
  unfold execDynPeriodTrigger
  repeat' with_reducible first
    | assumption | refine keepsO_next ?_ | refine keeps_ite (fun _ => ?_) (fun _ => ?_) | refine State.dynTrigger_keeps ?_

theorem execRunOnce_keeps {r : Req} {d : WData} {s : State} (h : s0.Keeps false s) :
    s0.KeepsO false (execRunOnce r d s) := by
  unfold execRunOnce
  repeat' with_reducible first | assumption | refine keepsO_next ?_ | refine State.dynWrite_keeps ?_

theorem execDynLoadModel_keeps {paused : Bool} {s : State} (h : s0.Keeps false s) :
    s0.KeepsO false (execDynLoadModel paused s) := by
  unfold execDynLoadModel
  repeat' with_reducible first | assumption | refine keepsO_next ?_ | refine State.dynJob_keeps ?_

theorem execDynNotifyTrigger_keeps {m : Msg} {s : State} (h : s0.Keeps false s) :
    s0.KeepsO false (execDynNotifyTrigger m s) := by
  unfold execDynNotifyTrigger
  repeat' with_reducible first
    | assumption | refine keepsO_next ?_ | refine keeps_ite (fun _ => ?_) (fun _ => ?_) | refine State.takeMsg_keeps ?_
    | refine State.answer_keeps ?_ | refine State.dynTrigger_keeps ?_

theorem execDynSolveDone_keeps {s : State} (h : s0.Keeps false s) :
    s0.KeepsO false (execDynSolveDone s) := by
  unfold execDynSolveDone
  repeat' with_reducible first | assumption | refine keepsO_next ?_ | refine State.dynSolveDone_keeps ?_

theorem execDynDeadline_keeps {s : State} (h : s0.Keeps false s) :
    s0.KeepsO false (execDynDeadline s) := by
  unfold execDynDeadline
  repeat' with_reducible first | assumption | refine keepsO_next ?_ | refine State.dynDeadline_keeps ?_

end Sys2Proof.Machine
end

