-- ==== Sys2Proof/Laws/KeepsImage.lean ====
section
/-!
SUPPORT. What the operations of Machine/Image.lean keep.
-/

set_option linter.all false

namespace Sys2Proof.Machine

variable {b : Bool} {s0 : State}

theorem execImgVerify_keeps {m : Fin 16} {s : State} (h : s0.Keeps b s) :
    s0.KeepsO b (execImgVerify m s) := by
  unfold execImgVerify
  repeat' with_reducible first
    | assumption | refine keepsO_next ?_ | refine keeps_ite (fun _ => ?_) (fun _ => ?_) | refine State.mbRun_keeps ?_ (fun _ _ _ => ?_)
    | refine State.mbEnd_keeps ?_ | refine State.wr_keeps ?_ | refine State.programStatus_keeps ?_ | refine State.showBank_keeps ?_

theorem execImgBegin_keeps {m : Fin 16} {s : State} (h : s0.Keeps b s) :
    s0.KeepsO b (execImgBegin m s) := by
  unfold execImgBegin
  repeat' with_reducible first
    | assumption | refine keepsO_next ?_ | refine keeps_ite (fun _ => ?_) (fun _ => ?_) | refine State.mbRun_keeps ?_ (fun _ _ _ => ?_)
    | refine State.mbEnd_keeps ?_ | refine State.wr_keeps ?_ | refine State.showBank_keeps ?_ | refine State.norErase_keeps ?_

theorem execImgWrite_keeps {m : Fin 16} {s : State} (h : s0.Keeps false s) :
    s0.KeepsO false (execImgWrite m s) := by
  unfold execImgWrite
  repeat' with_reducible first
    | assumption | refine keepsO_next ?_ | refine keeps_ite (fun _ => ?_) (fun _ => ?_) | refine State.mbRun_keeps ?_ (fun _ _ _ => ?_)
    | refine State.mbEnd_keeps ?_ | refine State.busGet_keeps ?_ | refine State.norProgram_keeps ?_

theorem execImgReadKey_keeps {m : Fin 16} {s : State} (h : s0.Keeps false s) :
    s0.KeepsO false (execImgReadKey m s) := by
  unfold execImgReadKey
  repeat' with_reducible first
    | assumption | refine keepsO_next ?_ | refine keeps_ite (fun _ => ?_) (fun _ => ?_) | refine State.mbRun_keeps ?_ (fun _ _ _ => ?_)
    | refine State.busPut_keeps ?_ | refine State.mbEnd_keeps ?_ | split | dsimp only

theorem execImgRevokeKey_keeps {m : Fin 16} {s : State} (h : s0.Keeps b s) :
    s0.KeepsO b (execImgRevokeKey m s) := by
  unfold execImgRevokeKey
  repeat' with_reducible first
    | assumption | refine keepsO_next ?_ | refine keeps_ite (fun _ => ?_) (fun _ => ?_) | refine State.mbRun_keeps ?_ (fun _ _ _ => ?_)
    | refine State.mbEnd_keeps ?_ | refine State.wr_keeps ?_

theorem execImgActivate_keeps {m : Fin 16} {s : State} (h : s0.Keeps b s) :
    s0.KeepsO b (execImgActivate m s) := by
  unfold execImgActivate
  repeat' with_reducible first
    | assumption | refine keepsO_next ?_ | refine keeps_ite (fun _ => ?_) (fun _ => ?_) | refine State.mbRun_keeps ?_ (fun _ _ _ => ?_)
    | refine State.mbEnd_keeps ?_ | refine State.wr_keeps ?_ | refine State.programStatus_keeps ?_

theorem execImgAbort_keeps {m : Fin 16} {s : State} (h : s0.Keeps b s) :
    s0.KeepsO b (execImgAbort m s) := by
  unfold execImgAbort
  repeat' with_reducible first
    | assumption | refine keepsO_next ?_ | refine keeps_ite (fun _ => ?_) (fun _ => ?_) | refine State.mbRun_keeps ?_ (fun _ _ _ => ?_)
    | refine State.mbEnd_keeps ?_ | refine State.wr_keeps ?_ | refine State.programStatus_keeps ?_

theorem execImgConfirm_keeps {m : Fin 16} {s : State} (h : s0.Keeps b s) :
    s0.KeepsO b (execImgConfirm m s) := by
  unfold execImgConfirm
  repeat' with_reducible first
    | assumption | refine keepsO_next ?_ | refine keeps_ite (fun _ => ?_) (fun _ => ?_) | refine State.mbRun_keeps ?_ (fun _ _ _ => ?_)
    | refine State.mbEnd_keeps ?_ | refine State.wr_keeps ?_ | refine State.programStatus_keeps ?_

end Sys2Proof.Machine
end

