-- ==== Sys2Proof/Laws/KeepsLinks.lean ====
section
/-!
SUPPORT. What the operations of Machine/Links.lean keep.
-/

set_option linter.all false

namespace Sys2Proof.Machine

variable {b : Bool} {s0 : State}

theorem execLinkTimeout_keeps {l : LinkRef} {s : State} (h : s0.Keeps false s) :
    s0.KeepsO false (execLinkTimeout l s) := by
  unfold execLinkTimeout
  repeat' with_reducible first
    | assumption | refine keepsO_next ?_ | refine State.linkDown_keeps ?_ | refine State.reroute_keeps ?_ (fun _ _ => ?_)
    | fail_if_no_progress (refine keeps_mk (keeps_up ?_)) | split

theorem execZorraLinkTrained_keeps {l : LinkRef} {p : PeerHello} {s : State} (h : s0.Keeps b s) :
    s0.KeepsO b (execZorraLinkTrained l p s) := by
  unfold execZorraLinkTrained
  repeat' with_reducible first
    | assumption | refine keepsO_next ?_ | refine keeps_ite (fun _ => ?_) (fun _ => ?_) | refine State.linkTrained_keeps ?_
    | refine State.numberNet_keeps ?_ | fail_if_no_progress (refine keeps_mk (keeps_up ?_)) | split

theorem execFormWindowExpire_keeps {s : State} (h : s0.Keeps b s) :
    s0.KeepsO b (execFormWindowExpire s) := by
  unfold execFormWindowExpire
  repeat' with_reducible first
    | assumption | refine keepsO_next ?_ | refine keeps_ite (fun _ => ?_) (fun _ => ?_) | refine State.formNet_keeps ?_
    | refine keeps_mk (keeps_up ?_)

theorem execNetReform_keeps {r : Req} {d : WData} {s : State} (h : s0.Keeps false s) :
    s0.KeepsO false (execNetReform r d s) := by
  unfold execNetReform
  repeat' with_reducible first | assumption | refine keepsO_next ?_ | refine State.linkWrite_keeps ?_

theorem execDeclarationReceive_keeps {k : Fin 4} {members : List Nat} {edges : List (Nat × Nat)} {s : State} (h : s0.Keeps b s) :
    s0.KeepsO b (execDeclarationReceive k members edges s) := by
  unfold execDeclarationReceive
  repeat' with_reducible first
    | assumption | refine keepsO_next ?_ | refine keeps_ite (fun _ => ?_) (fun _ => ?_) | refine State.wr_keeps ?_
    | refine State.formNet_keeps ?_

theorem execDeclarationTimeout_keeps {s : State} (h : s0.Keeps b s) :
    s0.KeepsO b (execDeclarationTimeout s) := by
  unfold execDeclarationTimeout
  repeat' with_reducible first
    | assumption | refine keepsO_next ?_ | refine keeps_ite (fun _ => ?_) (fun _ => ?_) | refine State.formNet_keeps ?_

theorem State.linkTake_keeps {s : State} {c : LinkData} (h : s0.Keeps b s) :
    s0.Keeps b (State.linkTake s c) := by
  unfold State.linkTake
  repeat' with_reducible first
    | assumption | refine keeps_ite (fun _ => ?_) (fun _ => ?_) | refine State.send_keeps ?_
    | fail_if_no_progress (refine keeps_mk (keeps_up ?_)) | split

theorem execLinkFrameReceive_keeps {k : Fin 4} {seq : Fin 4096} {crcOk : Bool} {nack : Bool} {fec : Nat} {c : LinkData} {s : State} (h : s0.Keeps b s) :
    s0.KeepsO b (execLinkFrameReceive k seq crcOk nack fec c s) := by
  unfold execLinkFrameReceive
  repeat' with_reducible first
    | assumption | refine keepsO_next ?_ | refine keeps_ite (fun _ => ?_) (fun _ => ?_) | refine State.bumpBy_keeps ?_
    | refine State.bump_keeps ?_ | refine State.linkTake_keeps ?_ | refine keeps_mk (keeps_up ?_)

theorem execD2dModuleFail_keeps {k : Fin 4} {s : State} (h : s0.Keeps b s) :
    s0.KeepsO b (execD2dModuleFail k s) := by
  unfold execD2dModuleFail
  repeat' with_reducible first
    | assumption | refine keepsO_next ?_ | refine keeps_ite (fun _ => ?_) (fun _ => ?_) | refine State.wrBit_keeps ?_
    | refine State.event_keeps ?_ | refine State.safeDecide_keeps ?_

theorem execRelayItem_keeps {n : Fin 8} {item : List Byte} {s : State} (h : s0.Keeps false s) :
    s0.KeepsO false (execRelayItem n item s) := by
  unfold execRelayItem
  repeat' with_reducible first
    | assumption | refine keepsO_next ?_ | refine keeps_ite (fun _ => ?_) (fun _ => ?_) | refine State.relayTake_keeps ?_

end Sys2Proof.Machine
end

