-- ==== Sys2Proof/Laws/KeepsMemory.lean ====
section
/-!
SUPPORT. What the operations of Machine/Memory.lean keep.
-/

set_option linter.all false

namespace Sys2Proof.Machine

variable {b : Bool} {s0 : State}

theorem execPackageTempSample_keeps {c : Fin 8} {hot : Bool} {s : State} (h : s0.Keeps b s) :
    s0.KeepsO b (execPackageTempSample c hot s) := by
  unfold execPackageTempSample
  repeat' with_reducible first | assumption | refine keepsO_next ?_ | refine State.wrBit_keeps ?_

theorem execPerstRelease_keeps {s : State} (h : s0.Keeps b s) :
    s0.KeepsO b (execPerstRelease s) := by
  unfold execPerstRelease
  repeat' with_reducible first
    | assumption | refine keepsO_next ?_ | refine keeps_ite (fun _ => ?_) (fun _ => ?_) | refine keeps_mk (keeps_up ?_)

theorem execMtimecmpMatch_keeps {c : Fin 12} {s : State} (h : s0.Keeps b s) :
    s0.KeepsO b (execMtimecmpMatch c s) := by
  unfold execMtimecmpMatch
  repeat' with_reducible first
    | assumption | refine keepsO_next ?_ | refine keeps_ite (fun _ => ?_) (fun _ => ?_) | refine keeps_mk (keeps_up ?_)

theorem State.hostDrop_keeps {s : State} (h : s0.Keeps b s) :
    s0.Keeps b (State.hostDrop s) := by
  unfold State.hostDrop
  repeat' with_reducible first
    | assumption | refine State.event_keeps ?_ | refine State.wr_keeps ?_ | refine State.bump_keeps ?_

theorem State.outAccess_keeps {s : State} {u : Nat} {host : Nat} {op : BarOp} {data : List Byte} {up : Bool} (h : s0.Keeps b s) :
    s0.Keeps b (State.outAccess s u host op data up) := by
  unfold State.outAccess
  repeat' with_reducible first
    | assumption | refine keeps_ite (fun _ => ?_) (fun _ => ?_) | refine State.withAcc_keeps ?_ | refine State.hostDrop_keeps ?_
    | fail_if_no_progress (refine keeps_mk (keeps_up ?_)) | split

theorem execPcieOutboundAccess_keeps {u : Fin 65536} {a : Nat} {op : BarOp} {data : List Byte} {answered : Bool} {ctx : Bool} {s : State} (h : s0.Keeps b s) :
    s0.KeepsO b (execPcieOutboundAccess u a op data answered ctx s) := by
  unfold execPcieOutboundAccess
  repeat' with_reducible first
    | assumption | refine keepsO_next ?_ | refine keeps_ite (fun _ => ?_) (fun _ => ?_) | refine State.outAccess_keeps ?_
    | refine State.withAcc_keeps ?_ | split

theorem execShareWindow_keeps {waiting : List (Fin 8 × Fin 9)} {s : State} (h : s0.Keeps b s) :
    s0.KeepsO b (execShareWindow waiting s) := by
  unfold execShareWindow
  repeat' with_reducible first | assumption | refine keepsO_next ?_ | refine State.shareWindow_keeps ?_

theorem execDramRead_keeps {u : Fin 65536} {a : Nat} {found : Ecc} {s : State} (h : s0.Keeps b s) :
    s0.KeepsO b (execDramRead u a found s) := by
  unfold execDramRead
  repeat' with_reducible first | assumption | refine keepsO_next ?_ | refine State.lineRead_keeps ?_

theorem execDramWrite_keeps {u : Fin 65536} {a : Nat} {data : List Byte} {poison : Bool} {s : State} (h : s0.Keeps false s) :
    s0.KeepsO false (execDramWrite u a data poison s) := by
  unfold execDramWrite
  repeat' with_reducible first
    | assumption | refine keepsO_next ?_ | refine keeps_ite (fun _ => ?_) (fun _ => ?_) | refine State.withAcc_keeps ?_
    | refine State.dramWrite_keeps ?_

theorem execIrqRouteWrite_keeps {r : Req} {i : Fin 32} {d : WData} {s : State} (h : s0.Keeps b s) :
    s0.KeepsO b (execIrqRouteWrite r i d s) := by
  unfold execIrqRouteWrite
  repeat' with_reducible first | assumption | refine keepsO_next ?_ | refine State.mcWrite_keeps ?_

theorem execScrubRead_keeps {c : Fin 8} {found : Ecc} {s : State} (h : s0.Keeps false s) :
    s0.KeepsO false (execScrubRead c found s) := by
  unfold execScrubRead
  repeat' with_reducible first
    | assumption | refine keepsO_next ?_ | refine keeps_ite (fun _ => ?_) (fun _ => ?_) | refine State.scrub_keeps ?_

theorem execPcieLinkUp_keeps {speed : Fin 6} {width : Fin 9} {s : State} (h : s0.Keeps b s) :
    s0.KeepsO b (execPcieLinkUp speed width s) := by
  unfold execPcieLinkUp
  repeat' with_reducible first
    | assumption | refine keepsO_next ?_ | refine keeps_ite (fun _ => ?_) (fun _ => ?_) | refine State.wr_keeps ?_
    | refine keeps_mk (keeps_up ?_)

theorem execPcieLinkDown_keeps {s : State} (h : s0.Keeps b s) :
    s0.KeepsO b (execPcieLinkDown s) := by
  unfold execPcieLinkDown
  repeat' with_reducible first
    | assumption | refine keepsO_next ?_ | refine keeps_ite (fun _ => ?_) (fun _ => ?_) | refine State.bump_keeps ?_
    | refine State.wr_keeps ?_ | refine keeps_mk (keeps_up ?_)

theorem execPcieDeviceRequest_keeps {hits : List IommuHit} {op : DevOp} {s : State} (h : s0.Keeps false s) :
    s0.KeepsO false (execPcieDeviceRequest hits op s) := by
  unfold execPcieDeviceRequest
  repeat' with_reducible first
    | assumption | refine keepsO_next ?_ | refine keeps_ite (fun _ => ?_) (fun _ => ?_) | refine State.bump_keeps ?_
    | refine State.raiseIrq_keeps ?_ | refine State.busGet_keeps ?_ | refine State.withAcc_keeps ?_ | refine State.busPut_keeps ?_
    | fail_if_no_progress (refine keeps_mk (keeps_up ?_)) | split

end Sys2Proof.Machine
end

