-- ==== Sys2Proof/Laws/KeepsPrograms.lean ====
section
/-!
SUPPORT. What the operations of Machine/Programs.lean keep.
-/

set_option linter.all false

namespace Sys2Proof.Machine

variable {b : Bool} {s0 : State}

theorem State.mbAck_keeps {s : State} {m : Msg} (h : s0.Keeps b s) :
    s0.Keeps b (State.mbAck s m) := by
  unfold State.mbAck
  repeat' with_reducible first
    | assumption | refine keeps_ite (fun _ => ?_) (fun _ => ?_) | refine State.mbEnd_keeps ?_ | split

theorem State.mbSqLoad_keeps {s : State} {m : Nat} {n : Nat} {c : List Byte} {away : Bool} (h : s0.Keeps false s) :
    s0.Keeps false (State.mbSqLoad s m n c away) := by
  unfold State.mbSqLoad
  repeat' with_reducible first
    | assumption | refine keeps_ite (fun _ => ?_) (fun _ => ?_) | refine State.mbEnd_keeps ?_ | refine State.busGet_keeps ?_
    | refine State.scramble_keeps ?_ | refine State.wr_keeps ?_ | refine State.store_keeps ?_ | refine State.sqLoad_keeps ?_
    | refine State.endEpoch_keeps ?_ | refine State.sqLoadDone_keeps ?_

theorem execSqLoad_keeps {m : Fin 16} {s : State} (h : s0.Keeps false s) :
    s0.KeepsO false (execSqLoad m s) := by
  unfold execSqLoad
  repeat' with_reducible first
    | assumption | refine keepsO_next ?_ | refine State.mbRun_keeps ?_ (fun _ _ _ => ?_) | refine State.onCtx_keeps ?_ (fun _ _ => ?_)
    | refine State.mbSqLoad_keeps ?_

theorem execPlLoad_keeps {m : Fin 16} {s : State} (h : s0.Keeps false s) :
    s0.KeepsO false (execPlLoad m s) := by
  unfold execPlLoad
  repeat' with_reducible first
    | assumption | refine keepsO_next ?_ | refine keeps_ite (fun _ => ?_) (fun _ => ?_) | refine State.mbRun_keeps ?_ (fun _ _ _ => ?_)
    | refine State.mbEnd_keeps ?_ | refine State.wr_keeps ?_ | refine State.mbPlane_keeps ?_ | refine State.mbWait_keeps ?_
    | refine State.plOpen_keeps ?_

theorem State.readDesc_keeps {s : State} {m : Nat} {a : Nat} (h : s0.Keeps false s) :
    s0.Keeps false (State.readDesc s m a).2.2 := by
  unfold State.readDesc
  repeat' with_reducible first | assumption | refine State.busGet_keeps ?_

theorem State.runBursts_keeps {s : State} {m : Master} {x3 : List Burst} {x4 : ExtList} {x5 : Bool} (h : s0.Keeps false s) :
    s0.Keeps false (State.runBursts s m x3 x4 x5).2.2 := by
  induction x3 generalizing s x4 x5 with
  | nil => exact h
  | cons a r ih =>
    unfold State.runBursts
    repeat' with_reducible first
      | assumption | apply ih | refine keeps_ite₂ (fun _ => ?_) (fun _ => ?_) | refine State.burst_keeps ?_

theorem State.moverRun_keeps {s : State} {m : Nat} {bs : List Burst} {ext : ExtList} (h : s0.Keeps false s) :
    s0.Keeps false (State.moverRun s m bs ext) := by
  unfold State.moverRun
  repeat' with_reducible first | assumption | refine State.runBursts_keeps ?_ | refine State.mbEnd_keeps ?_

theorem execMemFill_keeps {m : Fin 16} {ext : List (Fin 13 × List Byte × Bool)} {s : State} (h : s0.Keeps false s) :
    s0.KeepsO false (execMemFill m ext s) := by
  unfold execMemFill
  repeat' with_reducible first
    | assumption | refine keepsO_next ?_ | refine keeps_ite (fun _ => ?_) (fun _ => ?_) | refine State.mbRun_keeps ?_ (fun _ _ _ => ?_)
    | refine State.readDesc_keeps ?_ | refine State.mbEnd_keeps ?_ | refine State.moverRun_keeps ?_

theorem execJobSend_keeps {m : Fin 16} {s : State} (h : s0.Keeps false s) :
    s0.KeepsO false (execJobSend m s) := by
  unfold execJobSend
  repeat' with_reducible first
    | assumption | refine keepsO_next ?_ | refine keeps_ite (fun _ => ?_) (fun _ => ?_) | refine State.mbRun_keeps ?_ (fun _ _ _ => ?_)
    | refine State.busGet_keeps ?_ | refine State.mbEnd_keeps ?_ | refine State.send_keeps ?_ | refine State.mbWait_keeps ?_

theorem execKvPoolQuery_keeps {m : Fin 16} {s : State} (h : s0.Keeps b s) :
    s0.KeepsO b (execKvPoolQuery m s) := by
  unfold execKvPoolQuery
  repeat' with_reducible first
    | assumption | refine keepsO_next ?_ | refine State.mbRun_keeps ?_ (fun _ _ _ => ?_) | refine State.mbEnd_keeps ?_

theorem execMemCopy_keeps {m : Fin 16} {ext : List (Fin 13 × List Byte × Bool)} {s : State} (h : s0.Keeps false s) :
    s0.KeepsO false (execMemCopy m ext s) := by
  unfold execMemCopy
  repeat' with_reducible first
    | assumption | refine keepsO_next ?_ | refine keeps_ite (fun _ => ?_) (fun _ => ?_) | refine State.mbRun_keeps ?_ (fun _ _ _ => ?_)
    | refine State.readDesc_keeps ?_ | refine State.mbEnd_keeps ?_ | refine State.moverRun_keeps ?_

theorem execSqRun_keeps {m : Fin 16} {s : State} (h : s0.Keeps b s) :
    s0.KeepsO b (execSqRun m s) := by
  unfold execSqRun
  repeat' with_reducible first
    | assumption | refine keepsO_next ?_ | refine keeps_ite (fun _ => ?_) (fun _ => ?_) | refine State.mbRun_keeps ?_ (fun _ _ _ => ?_)
    | refine State.mbEnd_keeps ?_ | refine State.sqHalt_keeps ?_ | refine State.sqStart_keeps ?_ | refine keeps_foldl ?_ (fun _ _ _ => ?_)

theorem execKvOp_keeps {m : Fin 16} {s : State} (h : s0.Keeps false s) :
    s0.KeepsO false (execKvOp m s) := by
  unfold execKvOp
  repeat' with_reducible first
    | assumption | refine keepsO_next ?_ | refine keeps_ite (fun _ => ?_) (fun _ => ?_) | refine State.mbRun_keeps ?_ (fun _ _ _ => ?_)
    | refine State.mbEnd_keeps ?_ | refine State.mbKv_keeps ?_ | refine State.kvOp_keeps ?_

end Sys2Proof.Machine
end

