-- ==== Sys2Proof/Laws/KeepsMesh.lean ====
section
/-!
SUPPORT. What the operations of Machine/Mesh.lean keep.
-/

set_option linter.all false

namespace Sys2Proof.Machine

variable {b : Bool} {s0 : State}

theorem State.peerDeliver_keeps {s : State} {m : Msg} (h : s0.Keeps false s) :
    s0.Keeps false (State.peerDeliver s m) := by
  unfold State.peerDeliver
  repeat' with_reducible first
    | assumption | refine keeps_ite (fun _ => ?_) (fun _ => ?_) | refine State.peerMbWrite_keeps ?_ | refine State.send_keeps ?_
    | refine State.answer_keeps ?_

theorem State.windowDeliver_keeps {s : State} {m : Msg} (h : s0.Keeps false s) :
    s0.Keeps false (State.windowDeliver s m) := by
  unfold State.windowDeliver
  repeat' with_reducible first
    | assumption | refine keeps_ite (fun _ => ?_) (fun _ => ?_) | refine keeps_ite₁ (fun _ => ?_) (fun _ => ?_)
    | refine State.answer_keeps ?_ | refine State.send_keeps ?_ | refine State.planeWrite_keeps ?_ | refine State.engineWrite_keeps ?_

theorem execMeshRequestArrive_keeps {m : Msg} {s : State} (h : s0.Keeps false s) :
    s0.KeepsO false (execMeshRequestArrive m s) := by
  unfold execMeshRequestArrive
  repeat' with_reducible first
    | assumption | refine keepsO_next ?_ | refine keeps_ite (fun _ => ?_) (fun _ => ?_) | refine State.answer_keeps ?_
    | refine State.takeMsg_keeps ?_ | refine State.peerDeliver_keeps ?_ | refine State.sqDeliver_keeps ?_ | refine State.ccArrive_keeps ?_
    | refine State.dynArrive_keeps ?_ | refine State.windowDeliver_keeps ?_

theorem execMeshReplyArrive_keeps {m : Msg} {s : State} (h : s0.Keeps b s) :
    s0.KeepsO b (execMeshReplyArrive m s) := by
  unfold execMeshReplyArrive
  repeat' with_reducible first
    | assumption | refine keepsO_next ?_ | refine keeps_ite (fun _ => ?_) (fun _ => ?_) | refine State.mbAck_keeps ?_
    | refine State.takeMsg_keeps ?_ | refine State.sqReply_keeps ?_

end Sys2Proof.Machine
end

