-- ==== Sys2Proof/Laws/KeepsMoveOps.lean ====
section
/-!
SUPPORT. What the operations of Machine/MoveOps.lean keep.
-/

set_option linter.all false

namespace Sys2Proof.Machine

variable {b : Bool} {s0 : State}

theorem State.moveStatus_keeps {s : State} {f : TxFlags} {part : Bool} (h : s0.Keeps b s) :
    s0.Keeps b (State.moveStatus s f part).2 := by
  unfold State.moveStatus
  repeat' with_reducible first | assumption | refine State.draw_keeps ?_

theorem State.addAll_keeps {s : State} {fmt : Nat} {l : List Mv} {f : TxFlags} (h : s0.Keeps false s) :
    s0.Keeps false (State.addAll s fmt l f).1 := by
  unfold State.addAll
  repeat' with_reducible first
    | assumption | refine keeps_foldlF ?_ (fun _ _ _ => ?_) | refine State.stN_keeps ?_ | split

theorem State.moveList_keeps {s : State} {n : Nat} {op : Nat} {x : MoveDesc} {d : TDesc} {t : TDesc} {x7 : Nat} {x8 : Nat} {x9 : TxFlags} (h : s0.Keeps false s) :
    s0.Keeps false (State.moveList s n op x d t x7 x8 x9).1 := by
  induction x7 generalizing s x8 x9 with
  | zero => exact h
  | succ n ih =>
    rw [State.moveList]
    repeat' with_reducible first
      | assumption | apply ih | refine keeps_iteF (fun _ => ?_) (fun _ => ?_) | refine State.addAll_keeps ?_
      | refine State.moveAll_keeps ?_

theorem State.moveOp_keeps {s : State} {n : Nat} {op : Nat} {desc : List Byte} (h : s0.Keeps false s) :
    s0.Keeps false (State.moveOp s n op desc).2.2 := by
  unfold State.moveOp
  repeat' with_reducible first
    | assumption | refine keeps_ite (fun _ => ?_) (fun _ => ?_) | refine keeps_ite₂ (fun _ => ?_) (fun _ => ?_)
    | refine State.txIntegrity_keeps ?_ | refine State.draw_keeps ?_ | refine State.stN_keeps ?_ | refine State.moveStatus_keeps ?_
    | refine State.moveAll_keeps ?_ | refine State.moveList_keeps ?_ | refine keeps_foldl ?_ (fun _ _ _ => ?_)

end Sys2Proof.Machine
end

