-- ==== Sys2Proof/Laws/KeepsVecOps.lean ====
section
/-!
SUPPORT. What the operations of Machine/VecOps.lean keep.
-/

set_option linter.all false

namespace Sys2Proof.Machine

variable {b : Bool} {s0 : State}

theorem State.vecOp_keeps {s : State} {n : Nat} {fn : Nat} {d : List Byte} (h : s0.Keeps false s) :
    s0.Keeps false (State.vecOp s n fn d).2.2 := by
  unfold State.vecOp
  repeat' with_reducible first
    | assumption | refine keeps_foldlF ?_ (fun _ _ _ => ?_) | refine keeps_ite₂ (fun _ => ?_) (fun _ => ?_) | refine State.store_keeps ?_
    | refine State.scramble_keeps ?_ | refine State.txIntegrity_keeps ?_ | refine State.draw_keeps ?_
    | refine keeps_foldl ?_ (fun _ _ _ => ?_) | split

end Sys2Proof.Machine
end

