-- ==== Sys2Proof/Laws/KeepsVec.lean ====
section
/-!
SUPPORT. What the operations of Machine/Vec.lean keep.
-/

set_option linter.all false

namespace Sys2Proof.Machine

variable {b : Bool} {s0 : State}

theorem performed_keeps {n : Nat} {o : TxOp} {r : TxRes} (h : s0.Keeps false r.2.2) : s0.Keeps false (performed n o r) := by
  unfold performed
  repeat' with_reducible first
    | assumption | refine State.putStatus_keeps ?_ | refine State.setSq_keeps ?_ | split

theorem State.vecCmd_keeps {s : State} {n : Nat} {fn : Nat} (h : s0.Keeps false s) :
    s0.Keeps false (State.vecCmd s n fn) := by
  unfold State.vecCmd
  repeat' with_reducible first
    | assumption | refine keeps_ite (fun _ => ?_) (fun _ => ?_) | refine performed_keeps ?_ | refine State.vecOp_keeps ?_ | split

theorem execVRsqrt_keeps {n : Fin 64} {s : State} (h : s0.Keeps false s) :
    s0.KeepsO false (execVRsqrt n s) := by
  unfold execVRsqrt
  repeat' with_reducible first | assumption | refine keepsO_next ?_ | refine State.vecCmd_keeps ?_

theorem execVMax_keeps {n : Fin 64} {s : State} (h : s0.Keeps false s) :
    s0.KeepsO false (execVMax n s) := by
  unfold execVMax
  repeat' with_reducible first | assumption | refine keepsO_next ?_ | refine State.vecCmd_keeps ?_

theorem execVAdd_keeps {n : Fin 64} {s : State} (h : s0.Keeps false s) :
    s0.KeepsO false (execVAdd n s) := by
  unfold execVAdd
  repeat' with_reducible first | assumption | refine keepsO_next ?_ | refine State.vecCmd_keeps ?_

theorem execVMin_keeps {n : Fin 64} {s : State} (h : s0.Keeps false s) :
    s0.KeepsO false (execVMin n s) := by
  unfold execVMin
  repeat' with_reducible first | assumption | refine keepsO_next ?_ | refine State.vecCmd_keeps ?_

theorem execVDiv_keeps {n : Fin 64} {s : State} (h : s0.Keeps false s) :
    s0.KeepsO false (execVDiv n s) := by
  unfold execVDiv
  repeat' with_reducible first | assumption | refine keepsO_next ?_ | refine State.vecCmd_keeps ?_

theorem execVSoftmax_keeps {n : Fin 64} {s : State} (h : s0.Keeps false s) :
    s0.KeepsO false (execVSoftmax n s) := by
  unfold execVSoftmax
  repeat' with_reducible first | assumption | refine keepsO_next ?_ | refine State.vecCmd_keeps ?_

theorem execVSigmoid_keeps {n : Fin 64} {s : State} (h : s0.Keeps false s) :
    s0.KeepsO false (execVSigmoid n s) := by
  unfold execVSigmoid
  repeat' with_reducible first | assumption | refine keepsO_next ?_ | refine State.vecCmd_keeps ?_

theorem execVExp2_keeps {n : Fin 64} {s : State} (h : s0.Keeps false s) :
    s0.KeepsO false (execVExp2 n s) := by
  unfold execVExp2
  repeat' with_reducible first | assumption | refine keepsO_next ?_ | refine State.vecCmd_keeps ?_

theorem execVRelu_keeps {n : Fin 64} {s : State} (h : s0.Keeps false s) :
    s0.KeepsO false (execVRelu n s) := by
  unfold execVRelu
  repeat' with_reducible first | assumption | refine keepsO_next ?_ | refine State.vecCmd_keeps ?_

theorem execVLeakyRelu_keeps {n : Fin 64} {s : State} (h : s0.Keeps false s) :
    s0.KeepsO false (execVLeakyRelu n s) := by
  unfold execVLeakyRelu
  repeat' with_reducible first | assumption | refine keepsO_next ?_ | refine State.vecCmd_keeps ?_

theorem execVRmsnorm_keeps {n : Fin 64} {s : State} (h : s0.Keeps false s) :
    s0.KeepsO false (execVRmsnorm n s) := by
  unfold execVRmsnorm
  repeat' with_reducible first | assumption | refine keepsO_next ?_ | refine State.vecCmd_keeps ?_

theorem execVSilu_keeps {n : Fin 64} {s : State} (h : s0.Keeps false s) :
    s0.KeepsO false (execVSilu n s) := by
  unfold execVSilu
  repeat' with_reducible first | assumption | refine keepsO_next ?_ | refine State.vecCmd_keeps ?_

theorem execVRsum_keeps {n : Fin 64} {s : State} (h : s0.Keeps false s) :
    s0.KeepsO false (execVRsum n s) := by
  unfold execVRsum
  repeat' with_reducible first | assumption | refine keepsO_next ?_ | refine State.vecCmd_keeps ?_

theorem execVRecip_keeps {n : Fin 64} {s : State} (h : s0.Keeps false s) :
    s0.KeepsO false (execVRecip n s) := by
  unfold execVRecip
  repeat' with_reducible first | assumption | refine keepsO_next ?_ | refine State.vecCmd_keeps ?_

theorem execVSqrt_keeps {n : Fin 64} {s : State} (h : s0.Keeps false s) :
    s0.KeepsO false (execVSqrt n s) := by
  unfold execVSqrt
  repeat' with_reducible first | assumption | refine keepsO_next ?_ | refine State.vecCmd_keeps ?_

theorem execVLog_keeps {n : Fin 64} {s : State} (h : s0.Keeps false s) :
    s0.KeepsO false (execVLog n s) := by
  unfold execVLog
  repeat' with_reducible first | assumption | refine keepsO_next ?_ | refine State.vecCmd_keeps ?_

theorem execVRargmax_keeps {n : Fin 64} {s : State} (h : s0.Keeps false s) :
    s0.KeepsO false (execVRargmax n s) := by
  unfold execVRargmax
  repeat' with_reducible first | assumption | refine keepsO_next ?_ | refine State.vecCmd_keeps ?_

theorem execVGeluErf_keeps {n : Fin 64} {s : State} (h : s0.Keeps false s) :
    s0.KeepsO false (execVGeluErf n s) := by
  unfold execVGeluErf
  repeat' with_reducible first | assumption | refine keepsO_next ?_ | refine State.vecCmd_keeps ?_

theorem execVGeluTanh_keeps {n : Fin 64} {s : State} (h : s0.Keeps false s) :
    s0.KeepsO false (execVGeluTanh n s) := by
  unfold execVGeluTanh
  repeat' with_reducible first | assumption | refine keepsO_next ?_ | refine State.vecCmd_keeps ?_

theorem execVAbs_keeps {n : Fin 64} {s : State} (h : s0.Keeps false s) :
    s0.KeepsO false (execVAbs n s) := by
  unfold execVAbs
  repeat' with_reducible first | assumption | refine keepsO_next ?_ | refine State.vecCmd_keeps ?_

theorem execVConvert_keeps {n : Fin 64} {s : State} (h : s0.Keeps false s) :
    s0.KeepsO false (execVConvert n s) := by
  unfold execVConvert
  repeat' with_reducible first | assumption | refine keepsO_next ?_ | refine State.vecCmd_keeps ?_

theorem execVLayernorm_keeps {n : Fin 64} {s : State} (h : s0.Keeps false s) :
    s0.KeepsO false (execVLayernorm n s) := by
  unfold execVLayernorm
  repeat' with_reducible first | assumption | refine keepsO_next ?_ | refine State.vecCmd_keeps ?_

theorem execVMul_keeps {n : Fin 64} {s : State} (h : s0.Keeps false s) :
    s0.KeepsO false (execVMul n s) := by
  unfold execVMul
  repeat' with_reducible first | assumption | refine keepsO_next ?_ | refine State.vecCmd_keeps ?_

theorem execVExp_keeps {n : Fin 64} {s : State} (h : s0.Keeps false s) :
    s0.KeepsO false (execVExp n s) := by
  unfold execVExp
  repeat' with_reducible first | assumption | refine keepsO_next ?_ | refine State.vecCmd_keeps ?_

theorem execVRmax_keeps {n : Fin 64} {s : State} (h : s0.Keeps false s) :
    s0.KeepsO false (execVRmax n s) := by
  unfold execVRmax
  repeat' with_reducible first | assumption | refine keepsO_next ?_ | refine State.vecCmd_keeps ?_

theorem execVTanh_keeps {n : Fin 64} {s : State} (h : s0.Keeps false s) :
    s0.KeepsO false (execVTanh n s) := by
  unfold execVTanh
  repeat' with_reducible first | assumption | refine keepsO_next ?_ | refine State.vecCmd_keeps ?_

theorem execVSub_keeps {n : Fin 64} {s : State} (h : s0.Keeps false s) :
    s0.KeepsO false (execVSub n s) := by
  unfold execVSub
  repeat' with_reducible first | assumption | refine keepsO_next ?_ | refine State.vecCmd_keeps ?_

theorem execVFma_keeps {n : Fin 64} {s : State} (h : s0.Keeps false s) :
    s0.KeepsO false (execVFma n s) := by
  unfold execVFma
  repeat' with_reducible first | assumption | refine keepsO_next ?_ | refine State.vecCmd_keeps ?_

end Sys2Proof.Machine
end

