-- ==== Sys2Proof/Laws/KeepsMoves.lean ====
section
/-!
SUPPORT. What the operations of Machine/Moves.lean keep.
-/

set_option linter.all false

namespace Sys2Proof.Machine

variable {b : Bool} {s0 : State}

theorem State.moveCmd_keeps {s : State} {n : Nat} {op : Nat} (h : s0.Keeps false s) :
    s0.Keeps false (State.moveCmd s n op) := by
  unfold State.moveCmd
  repeat' with_reducible first
    | assumption | refine keeps_ite (fun _ => ?_) (fun _ => ?_) | refine performed_keeps ?_ | refine State.moveOp_keeps ?_ | split

theorem execMvCopy_keeps {n : Fin 64} {s : State} (h : s0.Keeps false s) :
    s0.KeepsO false (execMvCopy n s) := by
  unfold execMvCopy
  repeat' with_reducible first | assumption | refine keepsO_next ?_ | refine State.moveCmd_keeps ?_

theorem execMvScatterAdd_keeps {n : Fin 64} {s : State} (h : s0.Keeps false s) :
    s0.KeepsO false (execMvScatterAdd n s) := by
  unfold execMvScatterAdd
  repeat' with_reducible first | assumption | refine keepsO_next ?_ | refine State.moveCmd_keeps ?_

theorem execMvScatter_keeps {n : Fin 64} {s : State} (h : s0.Keeps false s) :
    s0.KeepsO false (execMvScatter n s) := by
  unfold execMvScatter
  repeat' with_reducible first | assumption | refine keepsO_next ?_ | refine State.moveCmd_keeps ?_

theorem execMvFill_keeps {n : Fin 64} {s : State} (h : s0.Keeps false s) :
    s0.KeepsO false (execMvFill n s) := by
  unfold execMvFill
  repeat' with_reducible first | assumption | refine keepsO_next ?_ | refine State.moveCmd_keeps ?_

theorem execMvTranspose_keeps {n : Fin 64} {s : State} (h : s0.Keeps false s) :
    s0.KeepsO false (execMvTranspose n s) := by
  unfold execMvTranspose
  repeat' with_reducible first | assumption | refine keepsO_next ?_ | refine State.moveCmd_keeps ?_

theorem execMvGather_keeps {n : Fin 64} {s : State} (h : s0.Keeps false s) :
    s0.KeepsO false (execMvGather n s) := by
  unfold execMvGather
  repeat' with_reducible first | assumption | refine keepsO_next ?_ | refine State.moveCmd_keeps ?_

end Sys2Proof.Machine
end

