-- ==== Sys2Proof/Laws/KeepsParts.lean ====
section
/-!
SUPPORT. What the operations of Machine/Parts.lean keep.
-/

set_option linter.all false

namespace Sys2Proof.Machine

variable {b : Bool} {s0 : State}

theorem execPartCreate_keeps {m : Fin 16} {s : State} (h : s0.Keeps false s) :
    s0.KeepsO false (execPartCreate m s) := by
  unfold execPartCreate
  repeat' with_reducible first
    | assumption | refine keepsO_next ?_ | refine keeps_ite (fun _ => ?_) (fun _ => ?_) | refine State.mbRun_keeps ?_ (fun _ _ _ => ?_)
    | refine State.mbEnd_keeps ?_ | refine State.partCreate_keeps ?_

theorem execPartAssign_keeps {m : Fin 16} {s : State} (h : s0.Keeps false s) :
    s0.KeepsO false (execPartAssign m s) := by
  unfold execPartAssign
  repeat' with_reducible first
    | assumption | refine keepsO_next ?_ | refine keeps_ite (fun _ => ?_) (fun _ => ?_) | refine State.mbRun_keeps ?_ (fun _ _ _ => ?_)
    | refine State.mbEnd_keeps ?_ | refine State.handOver_keeps ?_ | refine keeps_foldl ?_ (fun _ _ _ => ?_)

theorem execPartQuery_keeps {m : Fin 16} {s : State} (h : s0.Keeps b s) :
    s0.KeepsO b (execPartQuery m s) := by
  unfold execPartQuery
  repeat' with_reducible first
    | assumption | refine keepsO_next ?_ | refine State.mbRun_keeps ?_ (fun _ _ _ => ?_) | refine State.mbEnd_keeps ?_

theorem execPartWindowBoundary_keeps {s : State} (h : s0.Keeps b s) :
    s0.KeepsO b (execPartWindowBoundary s) := by
  unfold execPartWindowBoundary
  repeat' with_reducible first
    | assumption | refine keepsO_next ?_ | refine keeps_ite (fun _ => ?_) (fun _ => ?_) | refine State.windowBoundary_keeps ?_

theorem execPartStart_keeps {m : Fin 16} {s : State} (h : s0.Keeps b s) :
    s0.KeepsO b (execPartStart m s) := by
  unfold execPartStart
  repeat' with_reducible first
    | assumption | refine keepsO_next ?_ | refine keeps_ite (fun _ => ?_) (fun _ => ?_) | refine State.mbRun_keeps ?_ (fun _ _ _ => ?_)
    | refine State.mbEnd_keeps ?_ | refine State.coresStart_keeps ?_ | refine State.wr_keeps ?_

theorem execPartSquareShare_keeps {m : Fin 16} {s : State} (h : s0.Keeps b s) :
    s0.KeepsO b (execPartSquareShare m s) := by
  unfold execPartSquareShare
  repeat' with_reducible first
    | assumption | refine keepsO_next ?_ | refine keeps_ite (fun _ => ?_) (fun _ => ?_) | refine State.mbRun_keeps ?_ (fun _ _ _ => ?_)
    | refine State.mbEnd_keeps ?_ | refine State.unshare_keeps ?_ | refine State.shareSquare_keeps ?_

theorem execPartWindows_keeps {m : Fin 16} {s : State} (h : s0.Keeps false s) :
    s0.KeepsO false (execPartWindows m s) := by
  unfold execPartWindows
  repeat' with_reducible first
    | assumption | refine keepsO_next ?_ | refine keeps_ite (fun _ => ?_) (fun _ => ?_) | refine State.mbRun_keeps ?_ (fun _ _ _ => ?_)
    | refine State.mbEnd_keeps ?_ | refine State.busGet_keeps ?_ | refine State.wr_keeps ?_ | refine State.setReg_keeps ?_
    | refine keeps_foldl ?_ (fun _ _ _ => ?_)

theorem execPartShare_keeps {m : Fin 16} {s : State} (h : s0.Keeps b s) :
    s0.KeepsO b (execPartShare m s) := by
  unfold execPartShare
  repeat' with_reducible first
    | assumption | refine keepsO_next ?_ | refine keeps_ite (fun _ => ?_) (fun _ => ?_) | refine State.mbRun_keeps ?_ (fun _ _ _ => ?_)
    | refine State.mbEnd_keeps ?_ | refine State.setShare_keeps ?_

theorem execPartResetDone_keeps {p : Fin 8} {s : State} (h : s0.Keeps false s) :
    s0.KeepsO false (execPartResetDone p s) := by
  unfold execPartResetDone
  repeat' with_reducible first | assumption | refine keepsO_next ?_ | refine State.partResetDone_keeps ?_

theorem execPartPath_keeps {m : Fin 16} {s : State} (h : s0.Keeps b s) :
    s0.KeepsO b (execPartPath m s) := by
  unfold execPartPath
  repeat' with_reducible first
    | assumption | refine keepsO_next ?_ | refine State.mbRun_keeps ?_ (fun _ _ _ => ?_) | refine State.mbEnd_keeps ?_
    | refine State.setPath_keeps ?_

theorem execPartReset_keeps {m : Fin 16} {s : State} (h : s0.Keeps false s) :
    s0.KeepsO false (execPartReset m s) := by
  unfold execPartReset
  repeat' with_reducible first
    | assumption | refine keepsO_next ?_ | refine keeps_ite (fun _ => ?_) (fun _ => ?_) | refine State.mbRun_keeps ?_ (fun _ _ _ => ?_)
    | refine State.mbEnd_keeps ?_ | refine State.partReset_keeps ?_ | refine State.mbWait_keeps ?_

end Sys2Proof.Machine
end

