-- ==== Sys2Proof/Laws/KeepsPlanes.lean ====
section
/-!
SUPPORT. What the operations of Machine/Planes.lean keep.
-/

set_option linter.all false

namespace Sys2Proof.Machine

variable {b : Bool} {s0 : State}

theorem execPlaneProductEnd_keeps {p : Fin 32} {s : State} (h : s0.Keeps false s) :
    s0.KeepsO false (execPlaneProductEnd p s) := by
  unfold execPlaneProductEnd
  repeat' with_reducible first
    | assumption | refine keepsO_next ?_ | refine keeps_ite (fun _ => ?_) (fun _ => ?_) | refine State.plProduct_keeps ?_ | split

theorem execRecalMsExpire_keeps {p : Fin 32} {s : State} (h : s0.Keeps b s) :
    s0.KeepsO b (execRecalMsExpire p s) := by
  unfold execRecalMsExpire
  repeat' with_reducible first
    | assumption | refine keepsO_next ?_ | refine keeps_ite (fun _ => ?_) (fun _ => ?_) | refine State.setPlane_keeps ?_

theorem execOverrideRelease_keeps {p : Fin 32} {s : State} (h : s0.Keeps b s) :
    s0.KeepsO b (execOverrideRelease p s) := by
  unfold execOverrideRelease
  repeat' with_reducible first
    | assumption | refine keepsO_next ?_ | refine keeps_ite (fun _ => ?_) (fun _ => ?_) | refine State.plApply_keeps ?_

theorem execPlLoadClose_keeps {r : Req} {p : Fin 32} {d : WData} {s : State} (h : s0.Keeps false s) :
    s0.KeepsO false (execPlLoadClose r p d s) := by
  unfold execPlLoadClose
  repeat' with_reducible first
    | assumption | refine keepsO_next ?_ | refine keeps_ite (fun _ => ?_) (fun _ => ?_) | refine State.plWrite_keeps ?_

theorem execWeightCheck_keeps {p : Fin 32} {flip : Option (Fin 4096)} {s : State} (h : s0.Keeps false s) :
    s0.KeepsO false (execWeightCheck p flip s) := by
  unfold execWeightCheck
  repeat' with_reducible first
    | assumption | refine keepsO_next ?_ | refine keeps_ite (fun _ => ?_) (fun _ => ?_) | refine State.setByte_keeps ?_
    | refine State.plCheckCol_keeps ?_ | refine State.bump_keeps ?_ | refine State.setPlane_keeps ?_ | split

theorem execCalFull_keeps {r : Req} {p : Fin 32} {d : WData} {s : State} (h : s0.Keeps false s) :
    s0.KeepsO false (execCalFull r p d s) := by
  unfold execCalFull
  repeat' with_reducible first
    | assumption | refine keepsO_next ?_ | refine keeps_ite (fun _ => ?_) (fun _ => ?_) | refine State.plWrite_keeps ?_

theorem execPlaneJobArrive_keeps {m : Msg} {s : State} (h : s0.Keeps b s) :
    s0.KeepsO b (execPlaneJobArrive m s) := by
  unfold execPlaneJobArrive
  repeat' with_reducible first
    | assumption | refine keepsO_next ?_ | refine keeps_ite (fun _ => ?_) (fun _ => ?_) | refine State.answer_keeps ?_
    | refine State.takeMsg_keeps ?_ | refine State.plArrive_keeps ?_

theorem execContractAgeOut_keeps {p : Fin 32} {s : State} (h : s0.Keeps b s) :
    s0.KeepsO b (execContractAgeOut p s) := by
  unfold execContractAgeOut
  repeat' with_reducible first
    | assumption | refine keepsO_next ?_ | refine keeps_ite (fun _ => ?_) (fun _ => ?_) | refine State.plContract_keeps ?_

theorem execPlResetComplete_keeps {p : Fin 32} {s : State} (h : s0.Keeps b s) :
    s0.KeepsO b (execPlResetComplete p s) := by
  unfold execPlResetComplete
  repeat' with_reducible first | assumption | refine keepsO_next ?_ | refine State.plResetDone_keeps ?_

theorem execPlCalCtrlWrite_keeps {r : Req} {p : Fin 32} {d : WData} {s : State} (h : s0.Keeps false s) :
    s0.KeepsO false (execPlCalCtrlWrite r p d s) := by
  unfold execPlCalCtrlWrite
  repeat' with_reducible first
    | assumption | refine keepsO_next ?_ | refine keeps_ite (fun _ => ?_) (fun _ => ?_) | refine State.plWrite_keeps ?_

theorem execPlaneJobStart_keeps {p : Fin 32} {s : State} (h : s0.Keeps b s) :
    s0.KeepsO b (execPlaneJobStart p s) := by
  unfold execPlaneJobStart
  repeat' with_reducible first | assumption | refine keepsO_next ?_ | refine State.plStart_keeps ?_

theorem execCalOffset_keeps {r : Req} {p : Fin 32} {d : WData} {s : State} (h : s0.Keeps false s) :
    s0.KeepsO false (execCalOffset r p d s) := by
  unfold execCalOffset
  repeat' with_reducible first
    | assumption | refine keepsO_next ?_ | refine keeps_ite (fun _ => ?_) (fun _ => ?_) | refine State.plWrite_keeps ?_

theorem execCalibrationDone_keeps {p : Fin 32} {s : State} (h : s0.Keeps b s) :
    s0.KeepsO b (execCalibrationDone p s) := by
  unfold execCalibrationDone
  repeat' with_reducible first
    | assumption | refine keepsO_next ?_ | refine keeps_ite (fun _ => ?_) (fun _ => ?_) | refine keeps_ite₁ (fun _ => ?_) (fun _ => ?_)
    | refine State.plFullCal_keeps ?_ | refine State.plOffsetCal_keeps ?_ | refine State.setPlane_keeps ?_ | refine State.plFault_keeps ?_
    | refine State.plOpenTry_keeps ?_ | refine State.setShell_keeps ?_ | split

theorem execPlReset_keeps {r : Req} {p : Fin 32} {d : WData} {s : State} (h : s0.Keeps false s) :
    s0.KeepsO false (execPlReset r p d s) := by
  unfold execPlReset
  repeat' with_reducible first
    | assumption | refine keepsO_next ?_ | refine keeps_ite (fun _ => ?_) (fun _ => ?_) | refine State.plWrite_keeps ?_

theorem execPlaneTempSample_keeps {p : Fin 32} {t : BitVec 16} {s : State} (h : s0.Keeps b s) :
    s0.KeepsO b (execPlaneTempSample p t s) := by
  unfold execPlaneTempSample
  repeat' with_reducible first
    | assumption | refine keepsO_next ?_ | refine keeps_ite (fun _ => ?_) (fun _ => ?_) | refine State.wr_keeps ?_
    | refine State.plOverride_keeps ?_ | refine State.setPlane_keeps ?_

theorem execPlaneJobDone_keeps {p : Fin 32} {s : State} (h : s0.Keeps false s) :
    s0.KeepsO false (execPlaneJobDone p s) := by
  unfold execPlaneJobDone
  repeat' with_reducible first | assumption | refine keepsO_next ?_ | refine State.plJobDone_keeps ?_

theorem execPlaneLoadCheckDone_keeps {p : Fin 32} {s : State} (h : s0.Keeps b s) :
    s0.KeepsO b (execPlaneLoadCheckDone p s) := by
  unfold execPlaneLoadCheckDone
  repeat' with_reducible first | assumption | refine keepsO_next ?_ | refine State.plLoadDone_keeps ?_

theorem execPlForceWrite_keeps {r : Req} {p : Fin 32} {j : Fin 1056} {d : WData} {s : State} (h : s0.Keeps false s) :
    s0.KeepsO false (execPlForceWrite r p j d s) := by
  unfold execPlForceWrite
  repeat' with_reducible first
    | assumption | refine keepsO_next ?_ | refine keeps_ite (fun _ => ?_) (fun _ => ?_) | refine State.plWrite_keeps ?_

theorem execPlLoadOpen_keeps {r : Req} {p : Fin 32} {d : WData} {s : State} (h : s0.Keeps false s) :
    s0.KeepsO false (execPlLoadOpen r p d s) := by
  unfold execPlLoadOpen
  repeat' with_reducible first
    | assumption | refine keepsO_next ?_ | refine keeps_ite (fun _ => ?_) (fun _ => ?_) | refine State.plWrite_keeps ?_

theorem execProbeProduct_keeps {p : Fin 32} {s : State} (h : s0.Keeps b s) :
    s0.KeepsO b (execProbeProduct p s) := by
  unfold execProbeProduct
  repeat' with_reducible first
    | assumption | refine keepsO_next ?_ | refine keeps_ite (fun _ => ?_) (fun _ => ?_) | refine State.drawBytes_keeps ?_
    | refine State.plEstimate_keeps ?_ | refine State.plBoundary_keeps ?_ | refine State.plJudge_keeps ?_

theorem execCalibrationStart_keeps {p : Fin 32} {s : State} (h : s0.Keeps b s) :
    s0.KeepsO b (execCalibrationStart p s) := by
  unfold execCalibrationStart
  repeat' with_reducible first
    | assumption | refine keepsO_next ?_ | refine keeps_ite (fun _ => ?_) (fun _ => ?_) | refine State.setPlane_keeps ?_
    | refine State.setShell_keeps ?_

end Sys2Proof.Machine
end

