-- ==== Sys2Proof/Laws/KeepsPower.lean ====
section
/-!
SUPPORT. What the operations of Machine/Power.lean keep.
-/

set_option linter.all false

namespace Sys2Proof.Machine

variable {b : Bool} {s0 : State}

theorem execHoldupFull_keeps {mv : Nat} {s : State} (h : s0.Keeps b s) :
    s0.KeepsO b (execHoldupFull mv s) := by
  unfold execHoldupFull
  repeat' with_reducible first
    | assumption | refine keepsO_next ?_ | refine keeps_ite (fun _ => ?_) (fun _ => ?_) | refine State.wr_keeps ?_

theorem execVinBrownout_keeps {s : State} (h : s0.Keeps b s) :
    s0.KeepsO b (execVinBrownout s) := by
  unfold execVinBrownout
  repeat' with_reducible first | assumption | refine keepsO_next ?_ | refine State.bump_keeps ?_

theorem execWakeTimer_keeps {s : State} (h : s0.Keeps b s) :
    s0.KeepsO b (execWakeTimer s) := by
  unfold execWakeTimer
  repeat' with_reducible first
    | assumption | refine keepsO_next ?_ | refine keeps_ite (fun _ => ?_) (fun _ => ?_) | refine State.wake_keeps ?_

theorem execPeakOvercurrent_keeps {s : State} (h : s0.Keeps b s) :
    s0.KeepsO b (execPeakOvercurrent s) := by
  unfold execPeakOvercurrent
  repeat' with_reducible first | assumption | refine keepsO_next ?_ | refine State.wr_keeps ?_

theorem execPwrWakeWrite_keeps {r : Req} {s : State} (h : s0.Keeps b s) :
    s0.KeepsO b (execPwrWakeWrite r s) := by
  unfold execPwrWakeWrite
  repeat' with_reducible first | assumption | refine keepsO_next ?_ | refine State.pwrWrite_keeps ?_

theorem execVfStepDone_keeps {s : State} (h : s0.Keeps b s) :
    s0.KeepsO b (execVfStepDone s) := by
  unfold execVfStepDone
  repeat' with_reducible first | assumption | refine keepsO_next ?_ | refine State.vfDone_keeps ?_

theorem execThermalTick_keeps {t : Int} {s : State} (h : s0.Keeps b s) :
    s0.KeepsO b (execThermalTick t s) := by
  unfold execThermalTick
  repeat' with_reducible first
    | assumption | refine keepsO_next ?_ | refine keeps_ite (fun _ => ?_) (fun _ => ?_) | refine State.thermalTick_keeps ?_

theorem execVaonReturn_keeps {s : State} (h : s0.Keeps b s) :
    s0.KeepsO b (execVaonReturn s) := by
  unfold execVaonReturn
  repeat' with_reducible first
    | assumption | refine keepsO_next ?_ | refine State.wr_keeps ?_ | refine keeps_mk (keeps_up ?_)

theorem execEntryCommit_keeps {s : State} (h : s0.Keeps b s) :
    s0.KeepsO b (execEntryCommit s) := by
  unfold execEntryCommit
  repeat' with_reducible first | assumption | refine keepsO_next ?_ | refine State.entryCommit_keeps ?_

theorem execHoldupDisagree_keeps {mv : Nat} {left : Int} {s : State} (h : s0.Keeps b s) :
    s0.KeepsO b (execHoldupDisagree mv left s) := by
  unfold execHoldupDisagree
  repeat' with_reducible first
    | assumption | refine keepsO_next ?_ | refine keeps_ite (fun _ => ?_) (fun _ => ?_) | refine State.wr_keeps ?_
    | refine State.event_keeps ?_ | refine State.bump_keeps ?_

theorem execRailFault_keeps {rail : Fin 5} {s : State} (h : s0.Keeps b s) :
    s0.KeepsO b (execRailFault rail s) := by
  unfold execRailFault
  repeat' with_reducible first
    | assumption | refine keepsO_next ?_ | refine keeps_ite (fun _ => ?_) (fun _ => ?_) | refine State.castleFault_keeps ?_
    | refine State.safeDecide_keeps ?_ | refine State.event_keeps ?_

theorem execVinLoss_keeps {mv : Nat} {s : State} (h : s0.Keeps false s) :
    s0.KeepsO false (execVinLoss mv s) := by
  unfold execVinLoss
  repeat' with_reducible first | assumption | refine keepsO_next ?_ | refine State.vinLoss_keeps ?_

theorem execRetentionLoss_keeps {s : State} (h : s0.Keeps b s) :
    s0.KeepsO b (execRetentionLoss s) := by
  unfold execRetentionLoss
  repeat' with_reducible first
    | assumption | refine keepsO_next ?_ | refine keeps_ite (fun _ => ?_) (fun _ => ?_) | refine keeps_mk (keeps_up ?_)

theorem execHoldupLow_keeps {mv : Nat} {s : State} (h : s0.Keeps false s) :
    s0.KeepsO false (execHoldupLow mv s) := by
  unfold execHoldupLow
  repeat' with_reducible first
    | assumption | refine keepsO_next ?_ | refine keeps_ite (fun _ => ?_) (fun _ => ?_) | refine State.allOff_keeps ?_
    | refine State.event_keeps ?_ | refine State.wr_keeps ?_

theorem execVinReturn_keeps {s : State} (h : s0.Keeps b s) :
    s0.KeepsO b (execVinReturn s) := by
  unfold execVinReturn
  repeat' with_reducible first
    | assumption | refine keepsO_next ?_ | refine keeps_ite (fun _ => ?_) (fun _ => ?_) | refine State.shutDone_keeps ?_
    | refine State.bump_keeps ?_ | refine keeps_mk (keeps_up ?_)

theorem execCapWindow_keeps {mw : Nat} {s : State} (h : s0.Keeps b s) :
    s0.KeepsO b (execCapWindow mw s) := by
  unfold execCapWindow
  repeat' with_reducible first
    | assumption | refine keepsO_next ?_ | refine keeps_ite (fun _ => ?_) (fun _ => ?_) | refine State.capWindow_keeps ?_

theorem execVaonLoss_keeps {s : State} (h : s0.Keeps b s) :
    s0.KeepsO b (execVaonLoss s) := by
  unfold execVaonLoss
  repeat' with_reducible first
    | assumption | refine keepsO_next ?_ | refine State.wr_keeps ?_ | refine keeps_mk (keeps_up ?_)

theorem execOppReqWrite_keeps {r : Req} {d : WData} {s : State} (h : s0.Keeps b s) :
    s0.KeepsO b (execOppReqWrite r d s) := by
  unfold execOppReqWrite
  repeat' with_reducible first | assumption | refine keepsO_next ?_ | refine State.pwrWrite_keeps ?_

theorem execWakePin_keeps {s : State} (h : s0.Keeps b s) :
    s0.KeepsO b (execWakePin s) := by
  unfold execWakePin
  repeat' with_reducible first
    | assumption | refine keepsO_next ?_ | refine keeps_ite (fun _ => ?_) (fun _ => ?_) | refine State.wake_keeps ?_

theorem execPeakRelease_keeps {s : State} (h : s0.Keeps b s) :
    s0.KeepsO b (execPeakRelease s) := by
  unfold execPeakRelease
  repeat' with_reducible first
    | assumption | refine keepsO_next ?_ | refine keeps_ite (fun _ => ?_) (fun _ => ?_) | refine State.bump_keeps ?_
    | refine State.wr_keeps ?_

theorem execEntryDelayTimeout_keeps {s : State} (h : s0.Keeps b s) :
    s0.KeepsO b (execEntryDelayTimeout s) := by
  unfold execEntryDelayTimeout
  repeat' with_reducible first | assumption | refine keepsO_next ?_ | refine State.entryDelayed_keeps ?_

theorem execPwrVoteWrite_keeps {r : Req} {d : WData} {s : State} (h : s0.Keeps b s) :
    s0.KeepsO b (execPwrVoteWrite r d s) := by
  unfold execPwrVoteWrite
  repeat' with_reducible first | assumption | refine keepsO_next ?_ | refine State.pwrWrite_keeps ?_

theorem execEntryComplete_keeps {s : State} (h : s0.Keeps false s) :
    s0.KeepsO false (execEntryComplete s) := by
  unfold execEntryComplete
  repeat' with_reducible first | assumption | refine keepsO_next ?_ | refine State.entryEnd_keeps ?_

end Sys2Proof.Machine
end

