-- ==== Sys2Proof/Laws/KeepsRegisters.lean ====
section
/-!
SUPPORT. What the operations of Machine/Registers.lean keep.
-/

set_option linter.all false

namespace Sys2Proof.Machine

variable {b : Bool} {s0 : State}

theorem execEpochHoldRelease_keeps {u : Fin 65536} {s : State} (h : s0.Keeps false s) :
    s0.KeepsO false (execEpochHoldRelease u s) := by
  unfold execEpochHoldRelease
  repeat' with_reducible first | assumption | refine keepsO_next ?_ | refine State.epochRelease_keeps ?_

theorem State.barRegWrite_keeps {s : State} {a : Nat} {data : List Byte} (h : s0.Keeps false s) :
    s0.Keeps false (State.barRegWrite s a data) := by
  unfold State.barRegWrite
  repeat' with_reducible first | assumption | refine State.regStore_keeps ?_ | refine keeps_foldl₁ ?_ (fun _ _ _ => ?_)

theorem State.barRegRead_keeps {s : State} {a : Nat} {n : Nat} (h : s0.Keeps b s) :
    s0.Keeps b (State.barRegRead s a n).2 := by
  unfold State.barRegRead
  repeat' with_reducible first | assumption | refine State.regLoad_keeps ?_ | refine keeps_foldl₁ ?_ (fun _ _ _ => ?_)

theorem State.barReg_keeps {s : State} {a : Nat} {op : BarOp} (h : s0.Keeps false s) :
    s0.Keeps false (State.barReg s a op) := by
  unfold State.barReg
  repeat' with_reducible first
    | assumption | refine keeps_ite (fun _ => ?_) (fun _ => ?_) | refine State.barRegRead_keeps ?_ | refine State.withAcc_keeps ?_
    | refine State.barRegWrite_keeps ?_ | fail_if_no_progress (refine keeps_mk (keeps_up ?_)) | split

theorem execRespHeadWrite_keeps {r : Req} {m : Fin 16} {d : WData} {s : State} (h : s0.Keeps false s) :
    s0.KeepsO false (execRespHeadWrite r m d s) := by
  unfold execRespHeadWrite
  repeat' with_reducible first | assumption | refine keepsO_next ?_ | refine State.regStore_keeps ?_

theorem execLockSet_keeps {r : Req} {addr : Nat} {d : WData} {s : State} (h : s0.Keeps false s) :
    s0.KeepsO false (execLockSet r addr d s) := by
  unfold execLockSet
  repeat' with_reducible first
    | assumption | refine keepsO_next ?_ | refine State.regStore_keeps ?_ | split

theorem execRegisterReadClear_keeps {r : Req} {addr : Nat} {x3 : Half} {s : State} (h : s0.Keeps b s) :
    s0.KeepsO b (execRegisterReadClear r addr x3 s) := by
  unfold execRegisterReadClear
  repeat' with_reducible first | assumption | refine keepsO_next ?_ | refine State.regLoad_keeps ?_

theorem execRingReset_keeps {r : Req} {m : Fin 16} {d : WData} {s : State} (h : s0.Keeps false s) :
    s0.KeepsO false (execRingReset r m d s) := by
  unfold execRingReset
  repeat' with_reducible first | assumption | refine keepsO_next ?_ | refine State.regStore_keeps ?_

theorem execSeqReset_keeps {r : Req} {m : Fin 16} {d : WData} {s : State} (h : s0.Keeps false s) :
    s0.KeepsO false (execSeqReset r m d s) := by
  unfold execSeqReset
  repeat' with_reducible first | assumption | refine keepsO_next ?_ | refine State.regStore_keeps ?_

theorem State.barMem_keeps {s : State} {a : Nat} {op : BarOp} (h : s0.Keeps false s) :
    s0.Keeps false (State.barMem s a op) := by
  unfold State.barMem
  repeat' with_reducible first
    | assumption | refine State.busGet_keeps ?_ | refine State.withAcc_keeps ?_ | refine State.busPut_keeps ?_ | split

theorem execDoorbell_keeps {r : Req} {m : Fin 16} {d : WData} {s : State} (h : s0.Keeps false s) :
    s0.KeepsO false (execDoorbell r m d s) := by
  unfold execDoorbell
  repeat' with_reducible first | assumption | refine keepsO_next ?_ | refine State.regStore_keeps ?_

theorem execPcieInboundAccess_keeps {bar : Bar} {off : Nat} {op : BarOp} {s : State} (h : s0.Keeps false s) :
    s0.KeepsO false (execPcieInboundAccess bar off op s) := by
  unfold execPcieInboundAccess
  repeat' with_reducible first
    | assumption | refine keepsO_next ?_ | refine keeps_ite (fun _ => ?_) (fun _ => ?_) | refine State.barReg_keeps ?_
    | refine State.barMem_keeps ?_ | refine State.withAcc_keeps ?_ | split

theorem execRegisterWrite_keeps {r : Req} {addr : Nat} {d : WData} {s : State} (h : s0.Keeps false s) :
    s0.KeepsO false (execRegisterWrite r addr d s) := by
  unfold execRegisterWrite
  repeat' with_reducible first | assumption | refine keepsO_next ?_ | refine State.regStore_keeps ?_

end Sys2Proof.Machine
end

