-- ==== Sys2Proof/Laws/KeepsRotation.lean ====
section
/-!
SUPPORT. What the operations of Machine/Rotation.lean keep.
-/

set_option linter.all false

namespace Sys2Proof.Machine

variable {b : Bool} {s0 : State}

theorem State.setRot_keeps {s : State} {r : RotSt} (h : s0.Keeps b s) :
    s0.Keeps b (State.setRot s r) := by
  unfold State.setRot
  repeat' with_reducible first | assumption | refine keeps_mk (keeps_up ?_)

theorem State.rotEnd_keeps {s : State} (h : s0.Keeps b s) :
    s0.Keeps b (State.rotEnd s) := by
  unfold State.rotEnd
  repeat' with_reducible first | assumption | refine State.setRot_keeps ?_

theorem State.rotFail_keeps {s : State} {u : Nat} (h : s0.Keeps b s) :
    s0.Keeps b (State.rotFail s u) := by
  unfold State.rotFail
  repeat' with_reducible first
    | assumption | refine keeps_ite (fun _ => ?_) (fun _ => ?_) | refine State.event_keeps ?_ | refine State.wr_keeps ?_
    | refine State.bump_keeps ?_ | refine State.safeDecide_keeps ?_ | refine State.raiseCastle_keeps ?_ | refine State.quarantine_keeps ?_

theorem State.rotTimeout_keeps {s : State} {u : Nat} (h : s0.Keeps b s) :
    s0.Keeps b (State.rotTimeout s u) := by
  unfold State.rotTimeout
  repeat' with_reducible first
    | assumption | refine keeps_ite (fun _ => ?_) (fun _ => ?_) | refine State.rotEnd_keeps ?_ | refine State.event_keeps ?_
    | refine State.bump_keeps ?_ | refine State.setRot_keeps ?_ | refine State.rotFail_keeps ?_

theorem execForceGraceExpire_keeps {s : State} (h : s0.Keeps false s) :
    s0.KeepsO false (execForceGraceExpire s) := by
  unfold execForceGraceExpire
  repeat' with_reducible first
    | assumption | refine keepsO_next ?_ | refine keeps_ite (fun _ => ?_) (fun _ => ?_) | refine State.rotTimeout_keeps ?_
    | refine State.restWrite_keeps ?_ | split

theorem execSelfTestDone_keeps {fault : Bool} {s : State} (h : s0.Keeps b s) :
    s0.KeepsO b (execSelfTestDone fault s) := by
  unfold execSelfTestDone
  repeat' with_reducible first
    | assumption | refine keepsO_next ?_ | refine keeps_ite (fun _ => ?_) (fun _ => ?_) | refine State.rotEnd_keeps ?_
    | refine State.setRot_keeps ?_ | refine State.rotFail_keeps ?_ | refine State.wr_keeps ?_ | split

theorem State.rotWrap_keeps {s : State} (h : s0.Keeps b s) :
    s0.Keeps b (State.rotWrap s) := by
  unfold State.rotWrap
  repeat' with_reducible first
    | assumption | refine keeps_ite (fun _ => ?_) (fun _ => ?_) | refine State.bumpW_keeps ?_ | refine State.event_keeps ?_
    | refine State.setRot_keeps ?_

theorem State.rotEntry_keeps {s : State} (h : s0.Keeps false s) :
    s0.Keeps false (State.rotEntry s) := by
  unfold State.rotEntry
  repeat' with_reducible first
    | assumption | refine keeps_ite (fun _ => ?_) (fun _ => ?_) | refine State.rotWrap_keeps ?_ | refine State.setRot_keeps ?_
    | refine State.wr_keeps ?_ | refine State.bump_keeps ?_ | refine State.rotTimeout_keeps ?_ | refine State.restWrite_keeps ?_
    | refine State.bumpW_keeps ?_

theorem execRestGraceExpire_keeps {s : State} (h : s0.Keeps false s) :
    s0.KeepsO false (execRestGraceExpire s) := by
  unfold execRestGraceExpire
  repeat' with_reducible first
    | assumption | refine keepsO_next ?_ | refine keeps_ite (fun _ => ?_) (fun _ => ?_) | refine State.restWrite_keeps ?_
    | refine State.setRot_keeps ?_ | split

theorem execRotationEntryStart_keeps {s : State} (h : s0.Keeps false s) :
    s0.KeepsO false (execRotationEntryStart s) := by
  unfold execRotationEntryStart
  repeat' with_reducible first
    | assumption | refine keepsO_next ?_ | refine keeps_ite (fun _ => ?_) (fun _ => ?_) | refine State.rotEntry_keeps ?_

end Sys2Proof.Machine
end

