-- ==== Sys2Proof/Laws/KeepsRvOps.lean ====
section
/-!
SUPPORT. What the operations of Machine/RvOps.lean keep.
-/

set_option linter.all false

namespace Sys2Proof.Machine

variable {b : Bool} {s0 : State}

/-- What an instruction of the core leads to keeps what s0 has. -/
def State.KeepsV (s0 : State) (b : Bool) : RvRes → Prop
  | .ok s => s0.Keeps b s
  | .trap _ _ => True
  | .trapIn _ _ s => s0.Keeps b s

theorem keepsV_mk {s : State} (h : s0.Keeps b s) : s0.KeepsV b (.ok s) := h

theorem keepsV_trapIn {c v : Nat} {s : State} (h : s0.Keeps b s) : s0.KeepsV b (.trapIn c v s) := h

theorem keepsV_ok {r : RvRes} {s : State} (e : r = .ok s) (h : s0.KeepsV b r) : s0.Keeps b s := by
  subst e; exact h

theorem keepsV_in {r : RvRes} {c v : Nat} {s : State} (e : r = .trapIn c v s) (h : s0.KeepsV b r) : s0.Keeps b s := by
  subst e; exact h

theorem keepsV_ite {c : Prop} [Decidable c] {x y : RvRes} (hx : c → s0.KeepsV b x) (hy : ¬c → s0.KeepsV b y) :
    s0.KeepsV b (if c then x else y) := by
  split
  · exact hx ‹_›
  · exact hy ‹_›

theorem State.sqTrap_keeps {s : State} {n : Nat} {cause : Nat} {tval : Nat} {irq : Bool} (h : s0.Keeps b s) :
    s0.Keeps b (State.sqTrap s n cause tval irq) := by
  unfold State.sqTrap
  repeat' with_reducible first
    | assumption | refine keeps_ite (fun _ => ?_) (fun _ => ?_) | refine State.sqFault_keeps ?_ | refine State.wr_keeps ?_
    | refine State.setSq_keeps ?_

theorem State.sqIssue_keeps {s : State} {n : Nat} {mine : Option Nat → Bool} {act : State → Nat → Option Nat → Nat → State}
    (h : s0.Keeps b s) (ha : ∀ t x w l, s0.Keeps b t → s0.Keeps b (act t x w l)) : s0.Keeps b (State.sqIssue s n mine act) := by
  unfold State.sqIssue
  repeat' with_reducible first
    | assumption | refine ha _ _ _ _ ?_ | refine keeps_ite (fun _ => ?_) (fun _ => ?_) | refine State.draw_keeps ?_
    | refine State.sqTrap_keeps ?_ | refine State.sqFault_keeps ?_ | split

theorem State.txIssue_keeps {s : State} {n : Nat} {mine : Tx → Bool} {act : State → Tx → Nat → State}
    (h : s0.Keeps b s) (ha : ∀ t x w, s0.Keeps b t → s0.Keeps b (act t x w)) : s0.Keeps b (State.txIssue s n mine act) := by
  unfold State.txIssue
  repeat' with_reducible first
    | assumption | refine ha _ _ _ ?_ | refine keeps_ite (fun _ => ?_) (fun _ => ?_) | refine State.sqIssue_keeps ?_ (fun _ _ _ _ _ => ?_)
    | refine State.setSq_keeps ?_ | split

theorem State.setX_keeps {s : State} {n : Nat} {rd : Nat} {v : Nat} (h : s0.Keeps b s) :
    s0.Keeps b (State.setX s n rd v) := by
  unfold State.setX
  repeat' with_reducible first | assumption | refine State.setSq_keeps ?_

theorem State.retire_keeps {s : State} {n : Nat} {pc : Nat} (h : s0.Keeps b s) :
    s0.Keeps b (State.retire s n pc) := by
  unfold State.retire
  repeat' with_reducible first | assumption | refine State.setSq_keeps ?_

theorem State.txDone_keeps {s : State} {n : Nat} {w : Nat} {v : Nat} (h : s0.Keeps b s) :
    s0.Keeps b (State.txDone s n w v) := by
  unfold State.txDone
  repeat' with_reducible first
    | assumption | refine State.wr_keeps ?_ | refine State.setX_keeps ?_ | refine State.retire_keeps ?_

theorem State.txFail_keeps {s : State} {n : Nat} {w : Nat} {st : Nat} (h : s0.Keeps b s) :
    s0.Keeps b (State.txFail s n w st) := by
  unfold State.txFail
  repeat' with_reducible first | assumption | refine State.txDone_keeps ?_

theorem State.txTag_keeps {s : State} {n : Nat} {act : Nat → State} (h : s0.Keeps b s) (ha : ∀ t, s0.Keeps b (act t)) :
    s0.Keeps b (State.txTag s n act) := by
  unfold State.txTag
  repeat' with_reducible first
    | assumption | refine ha _ | refine keeps_ite (fun _ => ?_) (fun _ => ?_) | refine State.sqTrap_keeps ?_ | split

theorem State.txEnqueue_keeps {s : State} {n : Nat} {w : Nat} {lane : Nat} {fn : Nat} {quant : Bool} (h : s0.Keeps b s) :
    s0.Keeps b (State.txEnqueue s n w lane fn quant) := by
  unfold State.txEnqueue
  repeat' first
    | with_reducible assumption | with_reducible refine keeps_ite (fun _ => ?_) (fun _ => ?_)
    | with_reducible refine State.txFail_keeps ?_ | with_reducible refine State.txTag_keeps ?_ (fun _ => ?_)
    | with_reducible refine State.setSq_keeps ?_ | with_reducible refine State.txDone_keeps ?_
    | with_reducible refine State.setTxq_keeps ?_

theorem State.rvLoad_keeps {s : State} {n : Nat} {a : Nat} {size : Nat} {rd : Nat} {sx : Bool} {next : Nat} (h : s0.Keeps b s) :
    s0.KeepsV b (State.rvLoad s n a size rd sx next) := by
  unfold State.rvLoad
  repeat' first
    | with_reducible assumption | with_reducible refine keepsV_trapIn ?_ | with_reducible refine keepsV_mk ?_ | exact trivial
    | with_reducible refine keepsV_ite (fun _ => ?_) (fun _ => ?_) | with_reducible refine State.halfRead_keeps ?_ (fun _ _ => ?_)
    | with_reducible refine State.clearRc_keeps ?_ | with_reducible refine State.setX_keeps ?_
    | with_reducible refine State.retire_keeps ?_ | with_reducible refine State.wr_keeps ?_ | with_reducible refine State.bump_keeps ?_

theorem State.rvStore_keeps {s : State} {n : Nat} {a : Nat} {size : Nat} {v : Nat} {next : Nat} (h : s0.Keeps false s) :
    s0.KeepsV false (State.rvStore s n a size v next) := by
  unfold State.rvStore
  repeat' first
    | with_reducible assumption | with_reducible refine keepsV_mk ?_ | exact trivial
    | with_reducible refine keepsV_ite (fun _ => ?_) (fun _ => ?_) | with_reducible refine State.retire_keeps ?_
    | with_reducible refine State.sqWrite_keeps ?_ | with_reducible refine State.st_keeps ?_
    | fail_if_no_progress (with_reducible refine keeps_mk (keeps_up ?_))

theorem State.csrRead_keeps {s : State} {n : Nat} {c : Nat} (h : s0.Keeps b s) :
    ∀ x, State.csrRead s n c = some x → s0.Keeps b x.2 := by
  unfold State.csrRead
  repeat' with_reducible first
    | assumption | refine keepsQ_some ?_ | refine keepsQ_none | refine keepsQ_ite (fun _ => ?_) (fun _ => ?_) | refine State.draw_keeps ?_
    | refine State.setSq_keeps ?_

theorem State.csrWrite_keeps {s : State} {n : Nat} {c : Nat} {v : Nat} (h : s0.Keeps b s) :
    s0.Keeps b (State.csrWrite s n c v) := by
  unfold State.csrWrite
  repeat' first | with_reducible assumption | with_reducible refine State.setSq_keeps ?_

theorem State.rvCsr_keeps {s : State} {n : Nat} {raw : Nat} {w : Nat} {next : Nat} (h : s0.Keeps b s) :
    s0.KeepsV b (State.rvCsr s n raw w next) := by
  unfold State.rvCsr
  repeat' first
    | with_reducible assumption | with_reducible refine keepsV_mk ?_ | exact trivial
    | with_reducible refine keepsV_ite (fun _ => ?_) (fun _ => ?_) | with_reducible refine keeps_ite (fun _ => ?_) (fun _ => ?_)
    | with_reducible refine keeps_some (by assumption) (State.csrRead_keeps ?_) | with_reducible refine State.setX_keeps ?_
    | with_reducible refine State.retire_keeps ?_ | with_reducible refine State.csrWrite_keeps ?_ | split | dsimp only

theorem State.rvBase_keeps {s : State} {n : Nat} {raw : Nat} {w : Nat} {len : Nat} (h : s0.Keeps false s) :
    s0.KeepsV false (State.rvBase s n raw w len) := by
  unfold State.rvBase
  repeat' first
    | with_reducible assumption | with_reducible refine keepsV_mk ?_ | exact trivial
    | with_reducible refine keepsV_ite (fun _ => ?_) (fun _ => ?_) | with_reducible refine State.setX_keeps ?_
    | with_reducible refine State.retire_keeps ?_ | with_reducible refine State.rvLoad_keeps ?_
    | with_reducible refine State.rvStore_keeps ?_ | with_reducible refine State.wr_keeps ?_ | with_reducible refine State.setSq_keeps ?_
    | with_reducible refine State.rvCsr_keeps ?_ | split | dsimp only

theorem State.rvStep_keeps {s : State} {n : Nat} (h : s0.Keeps false s) :
    s0.Keeps false (State.rvStep s n) := by
  unfold State.rvStep
  repeat' with_reducible first
    | assumption | refine keeps_ite (fun _ => ?_) (fun _ => ?_) | refine State.sqIssue_keeps ?_ (fun _ _ _ _ _ => ?_)
    | refine State.sqTrap_keeps ?_ | refine State.setSq_keeps ?_ | refine State.txEnqueue_keeps ?_
    | refine keepsV_ok (by assumption) (State.rvBase_keeps ?_) | refine keepsV_in (by assumption) (State.rvBase_keeps ?_) | split

theorem State.txRest_keeps {s : State} {n : Nat} {w : Nat} (h : s0.Keeps b s) :
    s0.Keeps b (State.txRest s n w) := by
  unfold State.txRest
  repeat' with_reducible first
    | assumption | refine keeps_ite (fun _ => ?_) (fun _ => ?_) | refine State.sqRestAt_keeps ?_ | refine State.txDone_keeps ?_

theorem State.txSend_keeps {s : State} {n : Nat} {w : Nat} (h : s0.Keeps b s) :
    s0.Keeps b (State.txSend s n w) := by
  unfold State.txSend
  repeat' with_reducible first
    | assumption | refine keeps_ite (fun _ => ?_) (fun _ => ?_) | refine State.txFail_keeps ?_ | refine State.cacheTouch_keeps ?_
    | refine State.setSq_keeps ?_ | refine State.txDone_keeps ?_ | refine State.send_keeps ?_ | refine State.bumpW_keeps ?_
    | refine State.txTag_keeps ?_ (fun _ => ?_)

theorem State.txWait_keeps {s : State} {n : Nat} {w : Nat} (h : s0.Keeps b s) :
    s0.Keeps b (State.txWait s n w) := by
  unfold State.txWait
  repeat' with_reducible first
    | assumption | refine keeps_ite (fun _ => ?_) (fun _ => ?_) | refine State.wr_keeps ?_ | refine State.txDone_keeps ?_
    | refine State.setSq_keeps ?_

theorem State.txRecv_keeps {s : State} {n : Nat} {w : Nat} {blocking : Bool} (h : s0.Keeps false s) :
    s0.Keeps false (State.txRecv s n w blocking) := by
  unfold State.txRecv
  repeat' with_reducible first
    | assumption | refine keeps_ite (fun _ => ?_) (fun _ => ?_) | refine State.txFail_keeps ?_ | refine State.wr_keeps ?_
    | refine State.txDone_keeps ?_ | refine State.store_keeps ?_ | refine State.setInq_keeps ?_ | refine State.bumpW_keeps ?_
    | refine State.send_keeps ?_ | split

end Sys2Proof.Machine
end

