-- ==== Sys2Proof/Laws/KeepsSequencer.lean ====
section
/-!
SUPPORT. What the operations of Machine/Sequencer.lean keep.
-/

set_option linter.all false

namespace Sys2Proof.Machine

variable {b : Bool} {s0 : State}

theorem execTxMm_keeps {n : Fin 64} {s : State} (h : s0.Keeps b s) :
    s0.KeepsO b (execTxMm n s) := by
  unfold execTxMm
  repeat' with_reducible first
    | assumption | refine keepsO_next ?_ | refine State.txIssue_keeps ?_ (fun _ _ _ _ => ?_) | refine State.txEnqueue_keeps ?_

theorem execTxWload_keeps {n : Fin 64} {s : State} (h : s0.Keeps b s) :
    s0.KeepsO b (execTxWload n s) := by
  unfold execTxWload
  repeat' with_reducible first
    | assumption | refine keepsO_next ?_ | refine State.txIssue_keeps ?_ (fun _ _ _ _ => ?_) | refine State.txEnqueue_keeps ?_

theorem execTxRest_keeps {n : Fin 64} {s : State} (h : s0.Keeps b s) :
    s0.KeepsO b (execTxRest n s) := by
  unfold execTxRest
  repeat' with_reducible first
    | assumption | refine keepsO_next ?_ | refine State.txIssue_keeps ?_ (fun _ _ _ _ => ?_) | refine State.txRest_keeps ?_

theorem execRvInstruction_keeps {n : Fin 64} {s : State} (h : s0.Keeps false s) :
    s0.KeepsO false (execRvInstruction n s) := by
  unfold execRvInstruction
  repeat' with_reducible first | assumption | refine keepsO_next ?_ | refine State.rvStep_keeps ?_

theorem execTxQuant_keeps {n : Fin 64} {s : State} (h : s0.Keeps b s) :
    s0.KeepsO b (execTxQuant n s) := by
  unfold execTxQuant
  repeat' with_reducible first
    | assumption | refine keepsO_next ?_ | refine State.txIssue_keeps ?_ (fun _ _ _ _ => ?_) | refine State.txEnqueue_keeps ?_

theorem execTxSend_keeps {n : Fin 64} {s : State} (h : s0.Keeps b s) :
    s0.KeepsO b (execTxSend n s) := by
  unfold execTxSend
  repeat' with_reducible first
    | assumption | refine keepsO_next ?_ | refine State.txIssue_keeps ?_ (fun _ _ _ _ => ?_) | refine State.txSend_keeps ?_

theorem execTxWait_keeps {n : Fin 64} {s : State} (h : s0.Keeps b s) :
    s0.KeepsO b (execTxWait n s) := by
  unfold execTxWait
  repeat' with_reducible first
    | assumption | refine keepsO_next ?_ | refine State.txIssue_keeps ?_ (fun _ _ _ _ => ?_) | refine State.txWait_keeps ?_

theorem execTxDma_keeps {n : Fin 64} {s : State} (h : s0.Keeps b s) :
    s0.KeepsO b (execTxDma n s) := by
  unfold execTxDma
  repeat' with_reducible first
    | assumption | refine keepsO_next ?_ | refine State.txIssue_keeps ?_ (fun _ _ _ _ => ?_) | refine State.txEnqueue_keeps ?_

theorem execTxFence_keeps {n : Fin 64} {s : State} (h : s0.Keeps b s) :
    s0.KeepsO b (execTxFence n s) := by
  unfold execTxFence
  repeat' with_reducible first
    | assumption | refine keepsO_next ?_ | refine State.txIssue_keeps ?_ (fun _ _ _ _ => ?_) | refine State.txDone_keeps ?_
    | refine State.setSq_keeps ?_

theorem execTxPoll_keeps {n : Fin 64} {s : State} (h : s0.Keeps b s) :
    s0.KeepsO b (execTxPoll n s) := by
  unfold execTxPoll
  repeat' with_reducible first
    | assumption | refine keepsO_next ?_ | refine State.txIssue_keeps ?_ (fun _ _ _ _ => ?_) | refine State.txDone_keeps ?_

theorem execTxRecv_keeps {n : Fin 64} {s : State} (h : s0.Keeps false s) :
    s0.KeepsO false (execTxRecv n s) := by
  unfold execTxRecv
  repeat' with_reducible first
    | assumption | refine keepsO_next ?_ | refine State.txIssue_keeps ?_ (fun _ _ _ _ => ?_) | refine State.txRecv_keeps ?_

theorem execTxHalt_keeps {n : Fin 64} {s : State} (h : s0.Keeps b s) :
    s0.KeepsO b (execTxHalt n s) := by
  unfold execTxHalt
  repeat' with_reducible first
    | assumption | refine keepsO_next ?_ | refine State.txIssue_keeps ?_ (fun _ _ _ _ => ?_) | refine State.sqStopIssue_keeps ?_
    | refine State.txDone_keeps ?_

end Sys2Proof.Machine
end

