-- ==== Sys2Proof/Laws/KeepsSquare.lean ====
section
/-!
SUPPORT. What the operations of Machine/Square.lean keep.
-/

set_option linter.all false

namespace Sys2Proof.Machine

variable {b : Bool} {s0 : State}

theorem execSqStart_keeps {r : Req} {n : Fin 64} {d : WData} {s : State} (h : s0.Keeps false s) :
    s0.KeepsO false (execSqStart r n d s) := by
  unfold execSqStart
  repeat' with_reducible first | assumption | refine keepsO_next ?_ | refine State.sqWrite_keeps ?_

theorem execSqLoadComplete_keeps {n : Fin 64} {s : State} (h : s0.Keeps b s) :
    s0.KeepsO b (execSqLoadComplete n s) := by
  unfold execSqLoadComplete
  repeat' with_reducible first | assumption | refine keepsO_next ?_ | refine State.sqLoadDone_keeps ?_

theorem execSqCtrlLoad_keeps {r : Req} {n : Fin 64} {d : WData} {s : State} (h : s0.Keeps false s) :
    s0.KeepsO false (execSqCtrlLoad r n d s) := by
  unfold execSqCtrlLoad
  repeat' with_reducible first | assumption | refine keepsO_next ?_ | refine State.sqWrite_keeps ?_

theorem execSqEventWrite_keeps {r : Req} {n : Fin 64} {d : WData} {s : State} (h : s0.Keeps false s) :
    s0.KeepsO false (execSqEventWrite r n d s) := by
  unfold execSqEventWrite
  repeat' with_reducible first | assumption | refine keepsO_next ?_ | refine State.sqWrite_keeps ?_

theorem execSqResetComplete_keeps {n : Fin 64} {s : State} (h : s0.Keeps b s) :
    s0.KeepsO b (execSqResetComplete n s) := by
  unfold execSqResetComplete
  repeat' with_reducible first | assumption | refine keepsO_next ?_ | refine State.sqResetDone_keeps ?_

theorem execSqReset_keeps {r : Req} {n : Fin 64} {d : WData} {s : State} (h : s0.Keeps false s) :
    s0.KeepsO false (execSqReset r n d s) := by
  unfold execSqReset
  repeat' with_reducible first | assumption | refine keepsO_next ?_ | refine State.sqWrite_keeps ?_

theorem execSqHalt_keeps {r : Req} {n : Fin 64} {d : WData} {s : State} (h : s0.Keeps false s) :
    s0.KeepsO false (execSqHalt r n d s) := by
  unfold execSqHalt
  repeat' with_reducible first | assumption | refine keepsO_next ?_ | refine State.sqWrite_keeps ?_

theorem execPostedAnswerArrive_keeps {m : Msg} {s : State} (h : s0.Keeps b s) :
    s0.KeepsO b (execPostedAnswerArrive m s) := by
  unfold execPostedAnswerArrive
  repeat' with_reducible first
    | assumption | refine keepsO_next ?_ | refine keeps_ite (fun _ => ?_) (fun _ => ?_) | refine State.takeMsg_keeps ?_
    | refine State.sqPostedAnswer_keeps ?_

end Sys2Proof.Machine
end

