-- ==== Sys2Proof/Laws/KeepsTensor.lean ====
section
/-!
SUPPORT. What the operations of Machine/Tensor.lean keep.
-/

set_option linter.all false

namespace Sys2Proof.Machine

variable {b : Bool} {s0 : State}

theorem execTensorOpComplete_keeps {n : Fin 64} {t : Fin 32} {s : State} (h : s0.Keeps false s) :
    s0.KeepsO false (execTensorOpComplete n t s) := by
  unfold execTensorOpComplete
  repeat' with_reducible first | assumption | refine keepsO_next ?_ | refine State.txComplete_keeps ?_

theorem execDmaBurstIssue_keeps {n : Fin 64} {s : State} (h : s0.Keeps b s) :
    s0.KeepsO b (execDmaBurstIssue n s) := by
  unfold execDmaBurstIssue
  repeat' with_reducible first | assumption | refine keepsO_next ?_ | refine State.dmaIssue_keeps ?_

theorem execTensorOpStart_keeps {n : Fin 64} {l : Fin 5} {s : State} (h : s0.Keeps b s) :
    s0.KeepsO b (execTensorOpStart n l s) := by
  unfold execTensorOpStart
  repeat' with_reducible first | assumption | refine keepsO_next ?_ | refine State.txStartLane_keeps ?_

theorem execDmaBurstAnswer_keeps {n : Fin 64} {t : Fin 32} {k : Fin 32} {st : Fin 13} {data : List Byte} {poison : Bool} {s : State} (h : s0.Keeps false s) :
    s0.KeepsO false (execDmaBurstAnswer n t k st data poison s) := by
  unfold execDmaBurstAnswer
  repeat' with_reducible first | assumption | refine keepsO_next ?_ | refine State.dmaAnswer_keeps ?_

end Sys2Proof.Machine
end

