-- ==== Sys2Proof/Laws/KeepsTick.lean ====
section
/-!
SUPPORT. What the operations of Machine/Tick.lean keep.
-/

set_option linter.all false

namespace Sys2Proof.Machine

variable {b : Bool} {s0 : State}

theorem State.tickFabric_keeps {s : State} (h : s0.Keeps b s) :
    s0.Keeps b (State.tickFabric s) := by
  unfold State.tickFabric
  repeat' with_reducible first | assumption | refine keeps_mk (keeps_up ?_)

theorem State.tickMtime_keeps {s : State} (h : s0.Keeps b s) :
    s0.Keeps b (State.tickMtime s) := by
  unfold State.tickMtime
  repeat' with_reducible first | assumption | refine keeps_mk (keeps_up ?_)

end Sys2Proof.Machine
end

