-- ==== Sys2Proof/Laws/Updates.lean ====
section
/-!
SUPPORT. What the updates of one chapter's state leave: one lemma per field per update.
-/

namespace Sys2Proof.Machine

variable (s : State)

/-! ### setAln -/

@[simp] theorem State.setAln_pending (v : AlnSt) : (s.setAln v).pending = s.pending := by simp [State.setAln]
@[simp] theorem State.setAln_now (v : AlnSt) : (s.setAln v).now = s.now := by simp [State.setAln]
@[simp] theorem State.setAln_freeCtr (v : AlnSt) : (s.setAln v).freeCtr = s.freeCtr := by simp [State.setAln]
@[simp] theorem State.setAln_mem (v : AlnSt) : (s.setAln v).mem = s.mem := by simp [State.setAln]
@[simp] theorem State.setAln_log (v : AlnSt) : (s.setAln v).log = s.log := by simp [State.setAln]
@[simp] theorem State.setAln_half (v : AlnSt) : (s.setAln v).half = s.half := by simp [State.setAln]
@[simp] theorem State.setAln_epoch (v : AlnSt) : (s.setAln v).epoch = s.epoch := by simp [State.setAln]
@[simp] theorem State.setAln_irq (v : AlnSt) : (s.setAln v).irq = s.irq := by simp [State.setAln]
@[simp] theorem State.setAln_msix (v : AlnSt) : (s.setAln v).msix = s.msix := by simp [State.setAln]
@[simp] theorem State.setAln_imsic (v : AlnSt) : (s.setAln v).imsic = s.imsic := by simp [State.setAln]
@[simp] theorem State.setAln_castleIrq (v : AlnSt) : (s.setAln v).castleIrq = s.castleIrq := by simp [State.setAln]
@[simp] theorem State.setAln_rdata (v : AlnSt) : (s.setAln v).rdata = s.rdata := by simp [State.setAln]
@[simp] theorem State.setAln_time (v : AlnSt) : (s.setAln v).time = s.time := by simp [State.setAln]
@[simp] theorem State.setAln_iq (v : AlnSt) : (s.setAln v).iq = s.iq := by simp [State.setAln]
@[simp] theorem State.setAln_port (v : AlnSt) : (s.setAln v).port = s.port := by simp [State.setAln]
@[simp] theorem State.setAln_vox (v : AlnSt) : (s.setAln v).vox = s.vox := by simp [State.setAln]
@[simp] theorem State.setAln_sq (v : AlnSt) : (s.setAln v).sq = s.sq := by simp [State.setAln]
@[simp] theorem State.setAln_fab (v : AlnSt) : (s.setAln v).fab = s.fab := by simp [State.setAln]
@[simp] theorem State.setAln_net (v : AlnSt) : (s.setAln v).net = s.net := by simp [State.setAln]
@[simp] theorem State.setAln_unitSt (v : AlnSt) : (s.setAln v).unitSt = s.unitSt := by simp [State.setAln]
@[simp] theorem State.setAln_pl (v : AlnSt) : (s.setAln v).pl = s.pl := by simp [State.setAln]
@[simp] theorem State.setAln_ae (v : AlnSt) : (s.setAln v).ae = s.ae := by simp [State.setAln]
@[simp] theorem State.setAln_kv (v : AlnSt) : (s.setAln v).kv = s.kv := by simp [State.setAln]
@[simp] theorem State.setAln_mc (v : AlnSt) : (s.setAln v).mc = s.mc := by simp [State.setAln]
@[simp] theorem State.setAln_rekey (v : AlnSt) : (s.setAln v).rekey = s.rekey := by simp [State.setAln]
@[simp] theorem State.setAln_cc (v : AlnSt) : (s.setAln v).cc = s.cc := by simp [State.setAln]
@[simp] theorem State.setAln_rfx (v : AlnSt) : (s.setAln v).rfx = s.rfx := by simp [State.setAln]
@[simp] theorem State.setAln_dyn (v : AlnSt) : (s.setAln v).dyn = s.dyn := by simp [State.setAln]
@[simp] theorem State.setAln_mbx (v : AlnSt) : (s.setAln v).mbx = s.mbx := by simp [State.setAln]
@[simp] theorem State.setAln_sched (v : AlnSt) : (s.setAln v).sched = s.sched := by simp [State.setAln]
@[simp] theorem State.setAln_img (v : AlnSt) : (s.setAln v).img = s.img := by simp [State.setAln]
@[simp] theorem State.setAln_castle (v : AlnSt) : (s.setAln v).castle = s.castle := by simp [State.setAln]
@[simp] theorem State.setAln_poison (v : AlnSt) : (s.setAln v).poison = s.poison := by simp [State.setAln]
@[simp] theorem State.setAln_badWords (v : AlnSt) : (s.setAln v).badWords = s.badWords := by simp [State.setAln]
@[simp] theorem State.setAln_acc (v : AlnSt) : (s.setAln v).acc = s.acc := by simp [State.setAln]
@[simp] theorem State.setAln_cores (v : AlnSt) : (s.setAln v).cores = s.cores := by simp [State.setAln]
@[simp] theorem State.setAln_pcie (v : AlnSt) : (s.setAln v).pcie = s.pcie := by simp [State.setAln]
@[simp] theorem State.setAln_link (v : AlnSt) : (s.setAln v).link = s.link := by simp [State.setAln]
@[simp] theorem State.setAln_pwr (v : AlnSt) : (s.setAln v).pwr = s.pwr := by simp [State.setAln]
@[simp] theorem State.setAln_loops (v : AlnSt) : (s.setAln v).loops = s.loops := by simp [State.setAln]
@[simp] theorem State.setAln_clk (v : AlnSt) : (s.setAln v).clk = s.clk := by simp [State.setAln]
@[simp] theorem State.setAln_boot (v : AlnSt) : (s.setAln v).boot = s.boot := by simp [State.setAln]
@[simp] theorem State.setAln_byte (v : AlnSt) (r0 : Nat) : (s.setAln v).byte r0 = s.byte r0 := by simp only [State.byte, State.blank, State.setAln_mem, State.setAln_rekey]

/-! ### setPoison -/

@[simp] theorem State.setPoison_pending (l : Nat) : (s.setPoison l).pending = s.pending := rfl
@[simp] theorem State.setPoison_now (l : Nat) : (s.setPoison l).now = s.now := rfl
@[simp] theorem State.setPoison_freeCtr (l : Nat) : (s.setPoison l).freeCtr = s.freeCtr := rfl
@[simp] theorem State.setPoison_csr (l : Nat) : (s.setPoison l).csr = s.csr := rfl
@[simp] theorem State.setPoison_mem (l : Nat) : (s.setPoison l).mem = s.mem := rfl
@[simp] theorem State.setPoison_log (l : Nat) : (s.setPoison l).log = s.log := rfl
@[simp] theorem State.setPoison_half (l : Nat) : (s.setPoison l).half = s.half := rfl
@[simp] theorem State.setPoison_epoch (l : Nat) : (s.setPoison l).epoch = s.epoch := rfl
@[simp] theorem State.setPoison_irq (l : Nat) : (s.setPoison l).irq = s.irq := rfl
@[simp] theorem State.setPoison_msix (l : Nat) : (s.setPoison l).msix = s.msix := rfl
@[simp] theorem State.setPoison_imsic (l : Nat) : (s.setPoison l).imsic = s.imsic := rfl
@[simp] theorem State.setPoison_castleIrq (l : Nat) : (s.setPoison l).castleIrq = s.castleIrq := rfl
@[simp] theorem State.setPoison_rdata (l : Nat) : (s.setPoison l).rdata = s.rdata := rfl
@[simp] theorem State.setPoison_time (l : Nat) : (s.setPoison l).time = s.time := rfl
@[simp] theorem State.setPoison_iq (l : Nat) : (s.setPoison l).iq = s.iq := rfl
@[simp] theorem State.setPoison_port (l : Nat) : (s.setPoison l).port = s.port := rfl
@[simp] theorem State.setPoison_aln (l : Nat) : (s.setPoison l).aln = s.aln := rfl
@[simp] theorem State.setPoison_vox (l : Nat) : (s.setPoison l).vox = s.vox := rfl
@[simp] theorem State.setPoison_sq (l : Nat) : (s.setPoison l).sq = s.sq := rfl
@[simp] theorem State.setPoison_fab (l : Nat) : (s.setPoison l).fab = s.fab := rfl
@[simp] theorem State.setPoison_net (l : Nat) : (s.setPoison l).net = s.net := rfl
@[simp] theorem State.setPoison_unitSt (l : Nat) : (s.setPoison l).unitSt = s.unitSt := rfl
@[simp] theorem State.setPoison_pl (l : Nat) : (s.setPoison l).pl = s.pl := rfl
@[simp] theorem State.setPoison_ae (l : Nat) : (s.setPoison l).ae = s.ae := rfl
@[simp] theorem State.setPoison_kv (l : Nat) : (s.setPoison l).kv = s.kv := rfl
@[simp] theorem State.setPoison_mc (l : Nat) : (s.setPoison l).mc = s.mc := rfl
@[simp] theorem State.setPoison_rekey (l : Nat) : (s.setPoison l).rekey = s.rekey := rfl
@[simp] theorem State.setPoison_cc (l : Nat) : (s.setPoison l).cc = s.cc := rfl
@[simp] theorem State.setPoison_rfx (l : Nat) : (s.setPoison l).rfx = s.rfx := rfl
@[simp] theorem State.setPoison_dyn (l : Nat) : (s.setPoison l).dyn = s.dyn := rfl
@[simp] theorem State.setPoison_mbx (l : Nat) : (s.setPoison l).mbx = s.mbx := rfl
@[simp] theorem State.setPoison_sched (l : Nat) : (s.setPoison l).sched = s.sched := rfl
@[simp] theorem State.setPoison_img (l : Nat) : (s.setPoison l).img = s.img := rfl
@[simp] theorem State.setPoison_castle (l : Nat) : (s.setPoison l).castle = s.castle := rfl
@[simp] theorem State.setPoison_badWords (l : Nat) : (s.setPoison l).badWords = s.badWords := rfl
@[simp] theorem State.setPoison_acc (l : Nat) : (s.setPoison l).acc = s.acc := rfl
@[simp] theorem State.setPoison_cores (l : Nat) : (s.setPoison l).cores = s.cores := rfl
@[simp] theorem State.setPoison_pcie (l : Nat) : (s.setPoison l).pcie = s.pcie := rfl
@[simp] theorem State.setPoison_link (l : Nat) : (s.setPoison l).link = s.link := rfl
@[simp] theorem State.setPoison_pwr (l : Nat) : (s.setPoison l).pwr = s.pwr := rfl
@[simp] theorem State.setPoison_loops (l : Nat) : (s.setPoison l).loops = s.loops := rfl
@[simp] theorem State.setPoison_clk (l : Nat) : (s.setPoison l).clk = s.clk := rfl
@[simp] theorem State.setPoison_boot (l : Nat) : (s.setPoison l).boot = s.boot := rfl
@[simp] theorem State.setPoison_reg (l : Nat) (r0 : Nat) : (s.setPoison l).reg r0 = s.reg r0 := by simp only [State.reg, State.setPoison_csr]
@[simp] theorem State.setPoison_rd (l : Nat) (g : Fld) : (s.setPoison l).rd g = s.rd g := by simp only [State.rd, State.setPoison_reg]
@[simp] theorem State.setPoison_byte (l : Nat) (r0 : Nat) : (s.setPoison l).byte r0 = s.byte r0 := by simp only [State.byte, State.blank, State.setPoison_mem, State.setPoison_rekey]

/-! ### setPlane -/

@[simp] theorem State.setPlane_pending (p : Nat) (x : PlSt) : (s.setPlane p x).pending = s.pending := rfl
@[simp] theorem State.setPlane_now (p : Nat) (x : PlSt) : (s.setPlane p x).now = s.now := rfl
@[simp] theorem State.setPlane_freeCtr (p : Nat) (x : PlSt) : (s.setPlane p x).freeCtr = s.freeCtr := rfl
@[simp] theorem State.setPlane_csr (p : Nat) (x : PlSt) : (s.setPlane p x).csr = s.csr := rfl
@[simp] theorem State.setPlane_mem (p : Nat) (x : PlSt) : (s.setPlane p x).mem = s.mem := rfl
@[simp] theorem State.setPlane_log (p : Nat) (x : PlSt) : (s.setPlane p x).log = s.log := rfl
@[simp] theorem State.setPlane_half (p : Nat) (x : PlSt) : (s.setPlane p x).half = s.half := rfl
@[simp] theorem State.setPlane_epoch (p : Nat) (x : PlSt) : (s.setPlane p x).epoch = s.epoch := rfl
@[simp] theorem State.setPlane_irq (p : Nat) (x : PlSt) : (s.setPlane p x).irq = s.irq := rfl
@[simp] theorem State.setPlane_msix (p : Nat) (x : PlSt) : (s.setPlane p x).msix = s.msix := rfl
@[simp] theorem State.setPlane_imsic (p : Nat) (x : PlSt) : (s.setPlane p x).imsic = s.imsic := rfl
@[simp] theorem State.setPlane_castleIrq (p : Nat) (x : PlSt) : (s.setPlane p x).castleIrq = s.castleIrq := rfl
@[simp] theorem State.setPlane_rdata (p : Nat) (x : PlSt) : (s.setPlane p x).rdata = s.rdata := rfl
@[simp] theorem State.setPlane_time (p : Nat) (x : PlSt) : (s.setPlane p x).time = s.time := rfl
@[simp] theorem State.setPlane_iq (p : Nat) (x : PlSt) : (s.setPlane p x).iq = s.iq := rfl
@[simp] theorem State.setPlane_port (p : Nat) (x : PlSt) : (s.setPlane p x).port = s.port := rfl
@[simp] theorem State.setPlane_aln (p : Nat) (x : PlSt) : (s.setPlane p x).aln = s.aln := rfl
@[simp] theorem State.setPlane_vox (p : Nat) (x : PlSt) : (s.setPlane p x).vox = s.vox := rfl
@[simp] theorem State.setPlane_sq (p : Nat) (x : PlSt) : (s.setPlane p x).sq = s.sq := rfl
@[simp] theorem State.setPlane_fab (p : Nat) (x : PlSt) : (s.setPlane p x).fab = s.fab := rfl
@[simp] theorem State.setPlane_net (p : Nat) (x : PlSt) : (s.setPlane p x).net = s.net := rfl
@[simp] theorem State.setPlane_unitSt (p : Nat) (x : PlSt) : (s.setPlane p x).unitSt = s.unitSt := rfl
@[simp] theorem State.setPlane_ae (p : Nat) (x : PlSt) : (s.setPlane p x).ae = s.ae := rfl
@[simp] theorem State.setPlane_kv (p : Nat) (x : PlSt) : (s.setPlane p x).kv = s.kv := rfl
@[simp] theorem State.setPlane_mc (p : Nat) (x : PlSt) : (s.setPlane p x).mc = s.mc := rfl
@[simp] theorem State.setPlane_rekey (p : Nat) (x : PlSt) : (s.setPlane p x).rekey = s.rekey := rfl
@[simp] theorem State.setPlane_cc (p : Nat) (x : PlSt) : (s.setPlane p x).cc = s.cc := rfl
@[simp] theorem State.setPlane_rfx (p : Nat) (x : PlSt) : (s.setPlane p x).rfx = s.rfx := rfl
@[simp] theorem State.setPlane_dyn (p : Nat) (x : PlSt) : (s.setPlane p x).dyn = s.dyn := rfl
@[simp] theorem State.setPlane_mbx (p : Nat) (x : PlSt) : (s.setPlane p x).mbx = s.mbx := rfl
@[simp] theorem State.setPlane_sched (p : Nat) (x : PlSt) : (s.setPlane p x).sched = s.sched := rfl
@[simp] theorem State.setPlane_img (p : Nat) (x : PlSt) : (s.setPlane p x).img = s.img := rfl
@[simp] theorem State.setPlane_castle (p : Nat) (x : PlSt) : (s.setPlane p x).castle = s.castle := rfl
@[simp] theorem State.setPlane_poison (p : Nat) (x : PlSt) : (s.setPlane p x).poison = s.poison := rfl
@[simp] theorem State.setPlane_badWords (p : Nat) (x : PlSt) : (s.setPlane p x).badWords = s.badWords := rfl
@[simp] theorem State.setPlane_acc (p : Nat) (x : PlSt) : (s.setPlane p x).acc = s.acc := rfl
@[simp] theorem State.setPlane_cores (p : Nat) (x : PlSt) : (s.setPlane p x).cores = s.cores := rfl
@[simp] theorem State.setPlane_pcie (p : Nat) (x : PlSt) : (s.setPlane p x).pcie = s.pcie := rfl
@[simp] theorem State.setPlane_link (p : Nat) (x : PlSt) : (s.setPlane p x).link = s.link := rfl
@[simp] theorem State.setPlane_pwr (p : Nat) (x : PlSt) : (s.setPlane p x).pwr = s.pwr := rfl
@[simp] theorem State.setPlane_loops (p : Nat) (x : PlSt) : (s.setPlane p x).loops = s.loops := rfl
@[simp] theorem State.setPlane_clk (p : Nat) (x : PlSt) : (s.setPlane p x).clk = s.clk := rfl
@[simp] theorem State.setPlane_boot (p : Nat) (x : PlSt) : (s.setPlane p x).boot = s.boot := rfl
@[simp] theorem State.setPlane_reg (p : Nat) (x : PlSt) (r0 : Nat) : (s.setPlane p x).reg r0 = s.reg r0 := by simp only [State.reg, State.setPlane_csr]
@[simp] theorem State.setPlane_rd (p : Nat) (x : PlSt) (g : Fld) : (s.setPlane p x).rd g = s.rd g := by simp only [State.rd, State.setPlane_reg]
@[simp] theorem State.setPlane_byte (p : Nat) (x : PlSt) (r0 : Nat) : (s.setPlane p x).byte r0 = s.byte r0 := by simp only [State.byte, State.blank, State.setPlane_mem, State.setPlane_rekey]
@[simp] theorem State.setPlane_plane_self (p : Nat) (x : PlSt) : (s.setPlane p x).plane p = x := by simp [State.setPlane, State.plane]
@[simp] theorem State.setPlane_setPlane (p : Nat) (x : PlSt) (y : PlSt) : (s.setPlane p x).setPlane p y = s.setPlane p y := by simp [State.setPlane]
theorem State.setPlane_plane_ne (p : Nat) (x : PlSt) {y : Nat} (h : p ≠ y) : (s.setPlane p x).plane y = s.plane y := by simp [State.setPlane, State.plane, mget_mset_ne _ _ _ _ h]

/-! ### setEng -/

@[simp] theorem State.setEng_pending (e : Nat) (x : AeSt) : (s.setEng e x).pending = s.pending := rfl
@[simp] theorem State.setEng_now (e : Nat) (x : AeSt) : (s.setEng e x).now = s.now := rfl
@[simp] theorem State.setEng_freeCtr (e : Nat) (x : AeSt) : (s.setEng e x).freeCtr = s.freeCtr := rfl
@[simp] theorem State.setEng_csr (e : Nat) (x : AeSt) : (s.setEng e x).csr = s.csr := rfl
@[simp] theorem State.setEng_mem (e : Nat) (x : AeSt) : (s.setEng e x).mem = s.mem := rfl
@[simp] theorem State.setEng_log (e : Nat) (x : AeSt) : (s.setEng e x).log = s.log := rfl
@[simp] theorem State.setEng_half (e : Nat) (x : AeSt) : (s.setEng e x).half = s.half := rfl
@[simp] theorem State.setEng_epoch (e : Nat) (x : AeSt) : (s.setEng e x).epoch = s.epoch := rfl
@[simp] theorem State.setEng_irq (e : Nat) (x : AeSt) : (s.setEng e x).irq = s.irq := rfl
@[simp] theorem State.setEng_msix (e : Nat) (x : AeSt) : (s.setEng e x).msix = s.msix := rfl
@[simp] theorem State.setEng_imsic (e : Nat) (x : AeSt) : (s.setEng e x).imsic = s.imsic := rfl
@[simp] theorem State.setEng_castleIrq (e : Nat) (x : AeSt) : (s.setEng e x).castleIrq = s.castleIrq := rfl
@[simp] theorem State.setEng_rdata (e : Nat) (x : AeSt) : (s.setEng e x).rdata = s.rdata := rfl
@[simp] theorem State.setEng_time (e : Nat) (x : AeSt) : (s.setEng e x).time = s.time := rfl
@[simp] theorem State.setEng_iq (e : Nat) (x : AeSt) : (s.setEng e x).iq = s.iq := rfl
@[simp] theorem State.setEng_port (e : Nat) (x : AeSt) : (s.setEng e x).port = s.port := rfl
@[simp] theorem State.setEng_aln (e : Nat) (x : AeSt) : (s.setEng e x).aln = s.aln := rfl
@[simp] theorem State.setEng_vox (e : Nat) (x : AeSt) : (s.setEng e x).vox = s.vox := rfl
@[simp] theorem State.setEng_sq (e : Nat) (x : AeSt) : (s.setEng e x).sq = s.sq := rfl
@[simp] theorem State.setEng_fab (e : Nat) (x : AeSt) : (s.setEng e x).fab = s.fab := rfl
@[simp] theorem State.setEng_net (e : Nat) (x : AeSt) : (s.setEng e x).net = s.net := rfl
@[simp] theorem State.setEng_unitSt (e : Nat) (x : AeSt) : (s.setEng e x).unitSt = s.unitSt := rfl
@[simp] theorem State.setEng_pl (e : Nat) (x : AeSt) : (s.setEng e x).pl = s.pl := rfl
@[simp] theorem State.setEng_kv (e : Nat) (x : AeSt) : (s.setEng e x).kv = s.kv := rfl
@[simp] theorem State.setEng_mc (e : Nat) (x : AeSt) : (s.setEng e x).mc = s.mc := rfl
@[simp] theorem State.setEng_rekey (e : Nat) (x : AeSt) : (s.setEng e x).rekey = s.rekey := rfl
@[simp] theorem State.setEng_cc (e : Nat) (x : AeSt) : (s.setEng e x).cc = s.cc := rfl
@[simp] theorem State.setEng_rfx (e : Nat) (x : AeSt) : (s.setEng e x).rfx = s.rfx := rfl
@[simp] theorem State.setEng_dyn (e : Nat) (x : AeSt) : (s.setEng e x).dyn = s.dyn := rfl
@[simp] theorem State.setEng_mbx (e : Nat) (x : AeSt) : (s.setEng e x).mbx = s.mbx := rfl
@[simp] theorem State.setEng_sched (e : Nat) (x : AeSt) : (s.setEng e x).sched = s.sched := rfl
@[simp] theorem State.setEng_img (e : Nat) (x : AeSt) : (s.setEng e x).img = s.img := rfl
@[simp] theorem State.setEng_castle (e : Nat) (x : AeSt) : (s.setEng e x).castle = s.castle := rfl
@[simp] theorem State.setEng_poison (e : Nat) (x : AeSt) : (s.setEng e x).poison = s.poison := rfl
@[simp] theorem State.setEng_badWords (e : Nat) (x : AeSt) : (s.setEng e x).badWords = s.badWords := rfl
@[simp] theorem State.setEng_acc (e : Nat) (x : AeSt) : (s.setEng e x).acc = s.acc := rfl
@[simp] theorem State.setEng_cores (e : Nat) (x : AeSt) : (s.setEng e x).cores = s.cores := rfl
@[simp] theorem State.setEng_pcie (e : Nat) (x : AeSt) : (s.setEng e x).pcie = s.pcie := rfl
@[simp] theorem State.setEng_link (e : Nat) (x : AeSt) : (s.setEng e x).link = s.link := rfl
@[simp] theorem State.setEng_pwr (e : Nat) (x : AeSt) : (s.setEng e x).pwr = s.pwr := rfl
@[simp] theorem State.setEng_loops (e : Nat) (x : AeSt) : (s.setEng e x).loops = s.loops := rfl
@[simp] theorem State.setEng_clk (e : Nat) (x : AeSt) : (s.setEng e x).clk = s.clk := rfl
@[simp] theorem State.setEng_boot (e : Nat) (x : AeSt) : (s.setEng e x).boot = s.boot := rfl
@[simp] theorem State.setEng_reg (e : Nat) (x : AeSt) (r0 : Nat) : (s.setEng e x).reg r0 = s.reg r0 := by simp only [State.reg, State.setEng_csr]
@[simp] theorem State.setEng_rd (e : Nat) (x : AeSt) (g : Fld) : (s.setEng e x).rd g = s.rd g := by simp only [State.rd, State.setEng_reg]
@[simp] theorem State.setEng_byte (e : Nat) (x : AeSt) (r0 : Nat) : (s.setEng e x).byte r0 = s.byte r0 := by simp only [State.byte, State.blank, State.setEng_mem, State.setEng_rekey]
@[simp] theorem State.setEng_eng_self (e : Nat) (x : AeSt) : (s.setEng e x).eng e = x := by simp [State.setEng, State.eng]
@[simp] theorem State.setEng_setEng (e : Nat) (x : AeSt) (y : AeSt) : (s.setEng e x).setEng e y = s.setEng e y := by simp [State.setEng]
theorem State.setEng_eng_ne (e : Nat) (x : AeSt) {y : Nat} (h : e ≠ y) : (s.setEng e x).eng y = s.eng y := by simp [State.setEng, State.eng, mget_mset_ne _ _ _ _ h]

/-! ### setSpi -/

@[simp] theorem State.setSpi_pending (m : Nat) (v : SpiSt) : (s.setSpi m v).pending = s.pending := rfl
@[simp] theorem State.setSpi_now (m : Nat) (v : SpiSt) : (s.setSpi m v).now = s.now := rfl
@[simp] theorem State.setSpi_freeCtr (m : Nat) (v : SpiSt) : (s.setSpi m v).freeCtr = s.freeCtr := rfl
@[simp] theorem State.setSpi_csr (m : Nat) (v : SpiSt) : (s.setSpi m v).csr = s.csr := rfl
@[simp] theorem State.setSpi_mem (m : Nat) (v : SpiSt) : (s.setSpi m v).mem = s.mem := rfl
@[simp] theorem State.setSpi_log (m : Nat) (v : SpiSt) : (s.setSpi m v).log = s.log := rfl
@[simp] theorem State.setSpi_half (m : Nat) (v : SpiSt) : (s.setSpi m v).half = s.half := rfl
@[simp] theorem State.setSpi_epoch (m : Nat) (v : SpiSt) : (s.setSpi m v).epoch = s.epoch := rfl
@[simp] theorem State.setSpi_irq (m : Nat) (v : SpiSt) : (s.setSpi m v).irq = s.irq := rfl
@[simp] theorem State.setSpi_msix (m : Nat) (v : SpiSt) : (s.setSpi m v).msix = s.msix := rfl
@[simp] theorem State.setSpi_imsic (m : Nat) (v : SpiSt) : (s.setSpi m v).imsic = s.imsic := rfl
@[simp] theorem State.setSpi_castleIrq (m : Nat) (v : SpiSt) : (s.setSpi m v).castleIrq = s.castleIrq := rfl
@[simp] theorem State.setSpi_rdata (m : Nat) (v : SpiSt) : (s.setSpi m v).rdata = s.rdata := rfl
@[simp] theorem State.setSpi_time (m : Nat) (v : SpiSt) : (s.setSpi m v).time = s.time := rfl
@[simp] theorem State.setSpi_iq (m : Nat) (v : SpiSt) : (s.setSpi m v).iq = s.iq := rfl
@[simp] theorem State.setSpi_aln (m : Nat) (v : SpiSt) : (s.setSpi m v).aln = s.aln := rfl
@[simp] theorem State.setSpi_vox (m : Nat) (v : SpiSt) : (s.setSpi m v).vox = s.vox := rfl
@[simp] theorem State.setSpi_sq (m : Nat) (v : SpiSt) : (s.setSpi m v).sq = s.sq := rfl
@[simp] theorem State.setSpi_fab (m : Nat) (v : SpiSt) : (s.setSpi m v).fab = s.fab := rfl
@[simp] theorem State.setSpi_net (m : Nat) (v : SpiSt) : (s.setSpi m v).net = s.net := rfl
@[simp] theorem State.setSpi_unitSt (m : Nat) (v : SpiSt) : (s.setSpi m v).unitSt = s.unitSt := rfl
@[simp] theorem State.setSpi_pl (m : Nat) (v : SpiSt) : (s.setSpi m v).pl = s.pl := rfl
@[simp] theorem State.setSpi_ae (m : Nat) (v : SpiSt) : (s.setSpi m v).ae = s.ae := rfl
@[simp] theorem State.setSpi_kv (m : Nat) (v : SpiSt) : (s.setSpi m v).kv = s.kv := rfl
@[simp] theorem State.setSpi_mc (m : Nat) (v : SpiSt) : (s.setSpi m v).mc = s.mc := rfl
@[simp] theorem State.setSpi_rekey (m : Nat) (v : SpiSt) : (s.setSpi m v).rekey = s.rekey := rfl
@[simp] theorem State.setSpi_cc (m : Nat) (v : SpiSt) : (s.setSpi m v).cc = s.cc := rfl
@[simp] theorem State.setSpi_rfx (m : Nat) (v : SpiSt) : (s.setSpi m v).rfx = s.rfx := rfl
@[simp] theorem State.setSpi_dyn (m : Nat) (v : SpiSt) : (s.setSpi m v).dyn = s.dyn := rfl
@[simp] theorem State.setSpi_mbx (m : Nat) (v : SpiSt) : (s.setSpi m v).mbx = s.mbx := rfl
@[simp] theorem State.setSpi_sched (m : Nat) (v : SpiSt) : (s.setSpi m v).sched = s.sched := rfl
@[simp] theorem State.setSpi_img (m : Nat) (v : SpiSt) : (s.setSpi m v).img = s.img := rfl
@[simp] theorem State.setSpi_castle (m : Nat) (v : SpiSt) : (s.setSpi m v).castle = s.castle := rfl
@[simp] theorem State.setSpi_poison (m : Nat) (v : SpiSt) : (s.setSpi m v).poison = s.poison := rfl
@[simp] theorem State.setSpi_badWords (m : Nat) (v : SpiSt) : (s.setSpi m v).badWords = s.badWords := rfl
@[simp] theorem State.setSpi_acc (m : Nat) (v : SpiSt) : (s.setSpi m v).acc = s.acc := rfl
@[simp] theorem State.setSpi_cores (m : Nat) (v : SpiSt) : (s.setSpi m v).cores = s.cores := rfl
@[simp] theorem State.setSpi_pcie (m : Nat) (v : SpiSt) : (s.setSpi m v).pcie = s.pcie := rfl
@[simp] theorem State.setSpi_link (m : Nat) (v : SpiSt) : (s.setSpi m v).link = s.link := rfl
@[simp] theorem State.setSpi_pwr (m : Nat) (v : SpiSt) : (s.setSpi m v).pwr = s.pwr := rfl
@[simp] theorem State.setSpi_loops (m : Nat) (v : SpiSt) : (s.setSpi m v).loops = s.loops := rfl
@[simp] theorem State.setSpi_clk (m : Nat) (v : SpiSt) : (s.setSpi m v).clk = s.clk := rfl
@[simp] theorem State.setSpi_boot (m : Nat) (v : SpiSt) : (s.setSpi m v).boot = s.boot := rfl
@[simp] theorem State.setSpi_reg (m : Nat) (v : SpiSt) (r0 : Nat) : (s.setSpi m v).reg r0 = s.reg r0 := by simp only [State.reg, State.setSpi_csr]
@[simp] theorem State.setSpi_rd (m : Nat) (v : SpiSt) (g : Fld) : (s.setSpi m v).rd g = s.rd g := by simp only [State.rd, State.setSpi_reg]
@[simp] theorem State.setSpi_byte (m : Nat) (v : SpiSt) (r0 : Nat) : (s.setSpi m v).byte r0 = s.byte r0 := by simp only [State.byte, State.blank, State.setSpi_mem, State.setSpi_rekey]
@[simp] theorem State.setSpi_spi_self (m : Nat) (v : SpiSt) : (s.setSpi m v).spi m = v := by simp [State.setSpi, State.spi]
@[simp] theorem State.setSpi_setSpi (m : Nat) (v : SpiSt) (y : SpiSt) : (s.setSpi m v).setSpi m y = s.setSpi m y := by simp [State.setSpi]
theorem State.setSpi_spi_ne (m : Nat) (v : SpiSt) {y : Nat} (h : m ≠ y) : (s.setSpi m v).spi y = s.spi y := by simp [State.setSpi, State.spi, mget_mset_ne _ _ _ _ h]

/-! ### setEnc -/

@[simp] theorem State.setEnc_pending (e : Nat) (v : EncSt) : (s.setEnc e v).pending = s.pending := rfl
@[simp] theorem State.setEnc_now (e : Nat) (v : EncSt) : (s.setEnc e v).now = s.now := rfl
@[simp] theorem State.setEnc_freeCtr (e : Nat) (v : EncSt) : (s.setEnc e v).freeCtr = s.freeCtr := rfl
@[simp] theorem State.setEnc_csr (e : Nat) (v : EncSt) : (s.setEnc e v).csr = s.csr := rfl
@[simp] theorem State.setEnc_mem (e : Nat) (v : EncSt) : (s.setEnc e v).mem = s.mem := rfl
@[simp] theorem State.setEnc_log (e : Nat) (v : EncSt) : (s.setEnc e v).log = s.log := rfl
@[simp] theorem State.setEnc_half (e : Nat) (v : EncSt) : (s.setEnc e v).half = s.half := rfl
@[simp] theorem State.setEnc_epoch (e : Nat) (v : EncSt) : (s.setEnc e v).epoch = s.epoch := rfl
@[simp] theorem State.setEnc_irq (e : Nat) (v : EncSt) : (s.setEnc e v).irq = s.irq := rfl
@[simp] theorem State.setEnc_msix (e : Nat) (v : EncSt) : (s.setEnc e v).msix = s.msix := rfl
@[simp] theorem State.setEnc_imsic (e : Nat) (v : EncSt) : (s.setEnc e v).imsic = s.imsic := rfl
@[simp] theorem State.setEnc_castleIrq (e : Nat) (v : EncSt) : (s.setEnc e v).castleIrq = s.castleIrq := rfl
@[simp] theorem State.setEnc_rdata (e : Nat) (v : EncSt) : (s.setEnc e v).rdata = s.rdata := rfl
@[simp] theorem State.setEnc_time (e : Nat) (v : EncSt) : (s.setEnc e v).time = s.time := rfl
@[simp] theorem State.setEnc_iq (e : Nat) (v : EncSt) : (s.setEnc e v).iq = s.iq := rfl
@[simp] theorem State.setEnc_aln (e : Nat) (v : EncSt) : (s.setEnc e v).aln = s.aln := rfl
@[simp] theorem State.setEnc_vox (e : Nat) (v : EncSt) : (s.setEnc e v).vox = s.vox := rfl
@[simp] theorem State.setEnc_sq (e : Nat) (v : EncSt) : (s.setEnc e v).sq = s.sq := rfl
@[simp] theorem State.setEnc_fab (e : Nat) (v : EncSt) : (s.setEnc e v).fab = s.fab := rfl
@[simp] theorem State.setEnc_net (e : Nat) (v : EncSt) : (s.setEnc e v).net = s.net := rfl
@[simp] theorem State.setEnc_unitSt (e : Nat) (v : EncSt) : (s.setEnc e v).unitSt = s.unitSt := rfl
@[simp] theorem State.setEnc_pl (e : Nat) (v : EncSt) : (s.setEnc e v).pl = s.pl := rfl
@[simp] theorem State.setEnc_ae (e : Nat) (v : EncSt) : (s.setEnc e v).ae = s.ae := rfl
@[simp] theorem State.setEnc_kv (e : Nat) (v : EncSt) : (s.setEnc e v).kv = s.kv := rfl
@[simp] theorem State.setEnc_mc (e : Nat) (v : EncSt) : (s.setEnc e v).mc = s.mc := rfl
@[simp] theorem State.setEnc_rekey (e : Nat) (v : EncSt) : (s.setEnc e v).rekey = s.rekey := rfl
@[simp] theorem State.setEnc_cc (e : Nat) (v : EncSt) : (s.setEnc e v).cc = s.cc := rfl
@[simp] theorem State.setEnc_rfx (e : Nat) (v : EncSt) : (s.setEnc e v).rfx = s.rfx := rfl
@[simp] theorem State.setEnc_dyn (e : Nat) (v : EncSt) : (s.setEnc e v).dyn = s.dyn := rfl
@[simp] theorem State.setEnc_mbx (e : Nat) (v : EncSt) : (s.setEnc e v).mbx = s.mbx := rfl
@[simp] theorem State.setEnc_sched (e : Nat) (v : EncSt) : (s.setEnc e v).sched = s.sched := rfl
@[simp] theorem State.setEnc_img (e : Nat) (v : EncSt) : (s.setEnc e v).img = s.img := rfl
@[simp] theorem State.setEnc_castle (e : Nat) (v : EncSt) : (s.setEnc e v).castle = s.castle := rfl
@[simp] theorem State.setEnc_poison (e : Nat) (v : EncSt) : (s.setEnc e v).poison = s.poison := rfl
@[simp] theorem State.setEnc_badWords (e : Nat) (v : EncSt) : (s.setEnc e v).badWords = s.badWords := rfl
@[simp] theorem State.setEnc_acc (e : Nat) (v : EncSt) : (s.setEnc e v).acc = s.acc := rfl
@[simp] theorem State.setEnc_cores (e : Nat) (v : EncSt) : (s.setEnc e v).cores = s.cores := rfl
@[simp] theorem State.setEnc_pcie (e : Nat) (v : EncSt) : (s.setEnc e v).pcie = s.pcie := rfl
@[simp] theorem State.setEnc_link (e : Nat) (v : EncSt) : (s.setEnc e v).link = s.link := rfl
@[simp] theorem State.setEnc_pwr (e : Nat) (v : EncSt) : (s.setEnc e v).pwr = s.pwr := rfl
@[simp] theorem State.setEnc_loops (e : Nat) (v : EncSt) : (s.setEnc e v).loops = s.loops := rfl
@[simp] theorem State.setEnc_clk (e : Nat) (v : EncSt) : (s.setEnc e v).clk = s.clk := rfl
@[simp] theorem State.setEnc_boot (e : Nat) (v : EncSt) : (s.setEnc e v).boot = s.boot := rfl
@[simp] theorem State.setEnc_reg (e : Nat) (v : EncSt) (r0 : Nat) : (s.setEnc e v).reg r0 = s.reg r0 := by simp only [State.reg, State.setEnc_csr]
@[simp] theorem State.setEnc_rd (e : Nat) (v : EncSt) (g : Fld) : (s.setEnc e v).rd g = s.rd g := by simp only [State.rd, State.setEnc_reg]
@[simp] theorem State.setEnc_byte (e : Nat) (v : EncSt) (r0 : Nat) : (s.setEnc e v).byte r0 = s.byte r0 := by simp only [State.byte, State.blank, State.setEnc_mem, State.setEnc_rekey]
@[simp] theorem State.setEnc_enc_self (e : Nat) (v : EncSt) : (s.setEnc e v).enc e = v := by simp [State.setEnc, State.enc]
@[simp] theorem State.setEnc_setEnc (e : Nat) (v : EncSt) (y : EncSt) : (s.setEnc e v).setEnc e y = s.setEnc e y := by simp [State.setEnc]
theorem State.setEnc_enc_ne (e : Nat) (v : EncSt) {y : Nat} (h : e ≠ y) : (s.setEnc e v).enc y = s.enc y := by simp [State.setEnc, State.enc, mget_mset_ne _ _ _ _ h]

/-! ### setQ -/

@[simp] theorem State.setQ_pending (i : Nat) (q : IqSt) : (s.setQ i q).pending = s.pending := rfl
@[simp] theorem State.setQ_now (i : Nat) (q : IqSt) : (s.setQ i q).now = s.now := rfl
@[simp] theorem State.setQ_freeCtr (i : Nat) (q : IqSt) : (s.setQ i q).freeCtr = s.freeCtr := rfl
@[simp] theorem State.setQ_csr (i : Nat) (q : IqSt) : (s.setQ i q).csr = s.csr := rfl
@[simp] theorem State.setQ_mem (i : Nat) (q : IqSt) : (s.setQ i q).mem = s.mem := rfl
@[simp] theorem State.setQ_log (i : Nat) (q : IqSt) : (s.setQ i q).log = s.log := rfl
@[simp] theorem State.setQ_half (i : Nat) (q : IqSt) : (s.setQ i q).half = s.half := rfl
@[simp] theorem State.setQ_epoch (i : Nat) (q : IqSt) : (s.setQ i q).epoch = s.epoch := rfl
@[simp] theorem State.setQ_irq (i : Nat) (q : IqSt) : (s.setQ i q).irq = s.irq := rfl
@[simp] theorem State.setQ_msix (i : Nat) (q : IqSt) : (s.setQ i q).msix = s.msix := rfl
@[simp] theorem State.setQ_imsic (i : Nat) (q : IqSt) : (s.setQ i q).imsic = s.imsic := rfl
@[simp] theorem State.setQ_castleIrq (i : Nat) (q : IqSt) : (s.setQ i q).castleIrq = s.castleIrq := rfl
@[simp] theorem State.setQ_rdata (i : Nat) (q : IqSt) : (s.setQ i q).rdata = s.rdata := rfl
@[simp] theorem State.setQ_time (i : Nat) (q : IqSt) : (s.setQ i q).time = s.time := rfl
@[simp] theorem State.setQ_port (i : Nat) (q : IqSt) : (s.setQ i q).port = s.port := rfl
@[simp] theorem State.setQ_aln (i : Nat) (q : IqSt) : (s.setQ i q).aln = s.aln := rfl
@[simp] theorem State.setQ_vox (i : Nat) (q : IqSt) : (s.setQ i q).vox = s.vox := rfl
@[simp] theorem State.setQ_sq (i : Nat) (q : IqSt) : (s.setQ i q).sq = s.sq := rfl
@[simp] theorem State.setQ_fab (i : Nat) (q : IqSt) : (s.setQ i q).fab = s.fab := rfl
@[simp] theorem State.setQ_net (i : Nat) (q : IqSt) : (s.setQ i q).net = s.net := rfl
@[simp] theorem State.setQ_unitSt (i : Nat) (q : IqSt) : (s.setQ i q).unitSt = s.unitSt := rfl
@[simp] theorem State.setQ_pl (i : Nat) (q : IqSt) : (s.setQ i q).pl = s.pl := rfl
@[simp] theorem State.setQ_ae (i : Nat) (q : IqSt) : (s.setQ i q).ae = s.ae := rfl
@[simp] theorem State.setQ_kv (i : Nat) (q : IqSt) : (s.setQ i q).kv = s.kv := rfl
@[simp] theorem State.setQ_mc (i : Nat) (q : IqSt) : (s.setQ i q).mc = s.mc := rfl
@[simp] theorem State.setQ_rekey (i : Nat) (q : IqSt) : (s.setQ i q).rekey = s.rekey := rfl
@[simp] theorem State.setQ_cc (i : Nat) (q : IqSt) : (s.setQ i q).cc = s.cc := rfl
@[simp] theorem State.setQ_rfx (i : Nat) (q : IqSt) : (s.setQ i q).rfx = s.rfx := rfl
@[simp] theorem State.setQ_dyn (i : Nat) (q : IqSt) : (s.setQ i q).dyn = s.dyn := rfl
@[simp] theorem State.setQ_mbx (i : Nat) (q : IqSt) : (s.setQ i q).mbx = s.mbx := rfl
@[simp] theorem State.setQ_sched (i : Nat) (q : IqSt) : (s.setQ i q).sched = s.sched := rfl
@[simp] theorem State.setQ_img (i : Nat) (q : IqSt) : (s.setQ i q).img = s.img := rfl
@[simp] theorem State.setQ_castle (i : Nat) (q : IqSt) : (s.setQ i q).castle = s.castle := rfl
@[simp] theorem State.setQ_poison (i : Nat) (q : IqSt) : (s.setQ i q).poison = s.poison := rfl
@[simp] theorem State.setQ_badWords (i : Nat) (q : IqSt) : (s.setQ i q).badWords = s.badWords := rfl
@[simp] theorem State.setQ_acc (i : Nat) (q : IqSt) : (s.setQ i q).acc = s.acc := rfl
@[simp] theorem State.setQ_cores (i : Nat) (q : IqSt) : (s.setQ i q).cores = s.cores := rfl
@[simp] theorem State.setQ_pcie (i : Nat) (q : IqSt) : (s.setQ i q).pcie = s.pcie := rfl
@[simp] theorem State.setQ_link (i : Nat) (q : IqSt) : (s.setQ i q).link = s.link := rfl
@[simp] theorem State.setQ_pwr (i : Nat) (q : IqSt) : (s.setQ i q).pwr = s.pwr := rfl
@[simp] theorem State.setQ_loops (i : Nat) (q : IqSt) : (s.setQ i q).loops = s.loops := rfl
@[simp] theorem State.setQ_clk (i : Nat) (q : IqSt) : (s.setQ i q).clk = s.clk := rfl
@[simp] theorem State.setQ_boot (i : Nat) (q : IqSt) : (s.setQ i q).boot = s.boot := rfl
@[simp] theorem State.setQ_reg (i : Nat) (q : IqSt) (r0 : Nat) : (s.setQ i q).reg r0 = s.reg r0 := by simp only [State.reg, State.setQ_csr]
@[simp] theorem State.setQ_rd (i : Nat) (q : IqSt) (g : Fld) : (s.setQ i q).rd g = s.rd g := by simp only [State.rd, State.setQ_reg]
@[simp] theorem State.setQ_byte (i : Nat) (q : IqSt) (r0 : Nat) : (s.setQ i q).byte r0 = s.byte r0 := by simp only [State.byte, State.blank, State.setQ_mem, State.setQ_rekey]
@[simp] theorem State.setQ_q_self (i : Nat) (q : IqSt) : (s.setQ i q).q i = q := by simp [State.setQ, State.q]
@[simp] theorem State.setQ_setQ (i : Nat) (q : IqSt) (y : IqSt) : (s.setQ i q).setQ i y = s.setQ i y := by simp [State.setQ]
theorem State.setQ_q_ne (i : Nat) (q : IqSt) {y : Nat} (h : i ≠ y) : (s.setQ i q).q y = s.q y := by simp [State.setQ, State.q, mget_mset_ne _ _ _ _ h]

/-! ### setView -/

@[simp] theorem State.setView_pending (u : Nat) (v : UnitView) : (s.setView u v).pending = s.pending := rfl
@[simp] theorem State.setView_now (u : Nat) (v : UnitView) : (s.setView u v).now = s.now := rfl
@[simp] theorem State.setView_freeCtr (u : Nat) (v : UnitView) : (s.setView u v).freeCtr = s.freeCtr := rfl
@[simp] theorem State.setView_csr (u : Nat) (v : UnitView) : (s.setView u v).csr = s.csr := rfl
@[simp] theorem State.setView_mem (u : Nat) (v : UnitView) : (s.setView u v).mem = s.mem := rfl
@[simp] theorem State.setView_log (u : Nat) (v : UnitView) : (s.setView u v).log = s.log := rfl
@[simp] theorem State.setView_half (u : Nat) (v : UnitView) : (s.setView u v).half = s.half := rfl
@[simp] theorem State.setView_epoch (u : Nat) (v : UnitView) : (s.setView u v).epoch = s.epoch := rfl
@[simp] theorem State.setView_irq (u : Nat) (v : UnitView) : (s.setView u v).irq = s.irq := rfl
@[simp] theorem State.setView_msix (u : Nat) (v : UnitView) : (s.setView u v).msix = s.msix := rfl
@[simp] theorem State.setView_imsic (u : Nat) (v : UnitView) : (s.setView u v).imsic = s.imsic := rfl
@[simp] theorem State.setView_castleIrq (u : Nat) (v : UnitView) : (s.setView u v).castleIrq = s.castleIrq := rfl
@[simp] theorem State.setView_rdata (u : Nat) (v : UnitView) : (s.setView u v).rdata = s.rdata := rfl
@[simp] theorem State.setView_time (u : Nat) (v : UnitView) : (s.setView u v).time = s.time := rfl
@[simp] theorem State.setView_iq (u : Nat) (v : UnitView) : (s.setView u v).iq = s.iq := rfl
@[simp] theorem State.setView_port (u : Nat) (v : UnitView) : (s.setView u v).port = s.port := rfl
@[simp] theorem State.setView_aln (u : Nat) (v : UnitView) : (s.setView u v).aln = s.aln := rfl
@[simp] theorem State.setView_vox (u : Nat) (v : UnitView) : (s.setView u v).vox = s.vox := rfl
@[simp] theorem State.setView_sq (u : Nat) (v : UnitView) : (s.setView u v).sq = s.sq := rfl
@[simp] theorem State.setView_fab (u : Nat) (v : UnitView) : (s.setView u v).fab = s.fab := rfl
@[simp] theorem State.setView_net (u : Nat) (v : UnitView) : (s.setView u v).net = s.net := rfl
@[simp] theorem State.setView_unitSt (u : Nat) (v : UnitView) : (s.setView u v).unitSt = s.unitSt := rfl
@[simp] theorem State.setView_pl (u : Nat) (v : UnitView) : (s.setView u v).pl = s.pl := rfl
@[simp] theorem State.setView_ae (u : Nat) (v : UnitView) : (s.setView u v).ae = s.ae := rfl
@[simp] theorem State.setView_kv (u : Nat) (v : UnitView) : (s.setView u v).kv = s.kv := rfl
@[simp] theorem State.setView_mc (u : Nat) (v : UnitView) : (s.setView u v).mc = s.mc := rfl
@[simp] theorem State.setView_rekey (u : Nat) (v : UnitView) : (s.setView u v).rekey = s.rekey := rfl
@[simp] theorem State.setView_cc (u : Nat) (v : UnitView) : (s.setView u v).cc = s.cc := rfl
@[simp] theorem State.setView_rfx (u : Nat) (v : UnitView) : (s.setView u v).rfx = s.rfx := rfl
@[simp] theorem State.setView_dyn (u : Nat) (v : UnitView) : (s.setView u v).dyn = s.dyn := rfl
@[simp] theorem State.setView_sched (u : Nat) (v : UnitView) : (s.setView u v).sched = s.sched := rfl
@[simp] theorem State.setView_img (u : Nat) (v : UnitView) : (s.setView u v).img = s.img := rfl
@[simp] theorem State.setView_castle (u : Nat) (v : UnitView) : (s.setView u v).castle = s.castle := rfl
@[simp] theorem State.setView_poison (u : Nat) (v : UnitView) : (s.setView u v).poison = s.poison := rfl
@[simp] theorem State.setView_badWords (u : Nat) (v : UnitView) : (s.setView u v).badWords = s.badWords := rfl
@[simp] theorem State.setView_acc (u : Nat) (v : UnitView) : (s.setView u v).acc = s.acc := rfl
@[simp] theorem State.setView_cores (u : Nat) (v : UnitView) : (s.setView u v).cores = s.cores := rfl
@[simp] theorem State.setView_pcie (u : Nat) (v : UnitView) : (s.setView u v).pcie = s.pcie := rfl
@[simp] theorem State.setView_link (u : Nat) (v : UnitView) : (s.setView u v).link = s.link := rfl
@[simp] theorem State.setView_pwr (u : Nat) (v : UnitView) : (s.setView u v).pwr = s.pwr := rfl
@[simp] theorem State.setView_loops (u : Nat) (v : UnitView) : (s.setView u v).loops = s.loops := rfl
@[simp] theorem State.setView_clk (u : Nat) (v : UnitView) : (s.setView u v).clk = s.clk := rfl
@[simp] theorem State.setView_boot (u : Nat) (v : UnitView) : (s.setView u v).boot = s.boot := rfl
@[simp] theorem State.setView_reg (u : Nat) (v : UnitView) (r0 : Nat) : (s.setView u v).reg r0 = s.reg r0 := by simp only [State.reg, State.setView_csr]
@[simp] theorem State.setView_rd (u : Nat) (v : UnitView) (g : Fld) : (s.setView u v).rd g = s.rd g := by simp only [State.rd, State.setView_reg]
@[simp] theorem State.setView_byte (u : Nat) (v : UnitView) (r0 : Nat) : (s.setView u v).byte r0 = s.byte r0 := by simp only [State.byte, State.blank, State.setView_mem, State.setView_rekey]

/-! ### setMb -/

@[simp] theorem State.setMb_pending (m : Nat) (v : MbSt) : (s.setMb m v).pending = s.pending := rfl
@[simp] theorem State.setMb_now (m : Nat) (v : MbSt) : (s.setMb m v).now = s.now := rfl
@[simp] theorem State.setMb_freeCtr (m : Nat) (v : MbSt) : (s.setMb m v).freeCtr = s.freeCtr := rfl
@[simp] theorem State.setMb_csr (m : Nat) (v : MbSt) : (s.setMb m v).csr = s.csr := rfl
@[simp] theorem State.setMb_mem (m : Nat) (v : MbSt) : (s.setMb m v).mem = s.mem := rfl
@[simp] theorem State.setMb_log (m : Nat) (v : MbSt) : (s.setMb m v).log = s.log := rfl
@[simp] theorem State.setMb_half (m : Nat) (v : MbSt) : (s.setMb m v).half = s.half := rfl
@[simp] theorem State.setMb_epoch (m : Nat) (v : MbSt) : (s.setMb m v).epoch = s.epoch := rfl
@[simp] theorem State.setMb_irq (m : Nat) (v : MbSt) : (s.setMb m v).irq = s.irq := rfl
@[simp] theorem State.setMb_msix (m : Nat) (v : MbSt) : (s.setMb m v).msix = s.msix := rfl
@[simp] theorem State.setMb_imsic (m : Nat) (v : MbSt) : (s.setMb m v).imsic = s.imsic := rfl
@[simp] theorem State.setMb_castleIrq (m : Nat) (v : MbSt) : (s.setMb m v).castleIrq = s.castleIrq := rfl
@[simp] theorem State.setMb_rdata (m : Nat) (v : MbSt) : (s.setMb m v).rdata = s.rdata := rfl
@[simp] theorem State.setMb_time (m : Nat) (v : MbSt) : (s.setMb m v).time = s.time := rfl
@[simp] theorem State.setMb_iq (m : Nat) (v : MbSt) : (s.setMb m v).iq = s.iq := rfl
@[simp] theorem State.setMb_port (m : Nat) (v : MbSt) : (s.setMb m v).port = s.port := rfl
@[simp] theorem State.setMb_aln (m : Nat) (v : MbSt) : (s.setMb m v).aln = s.aln := rfl
@[simp] theorem State.setMb_vox (m : Nat) (v : MbSt) : (s.setMb m v).vox = s.vox := rfl
@[simp] theorem State.setMb_sq (m : Nat) (v : MbSt) : (s.setMb m v).sq = s.sq := rfl
@[simp] theorem State.setMb_fab (m : Nat) (v : MbSt) : (s.setMb m v).fab = s.fab := rfl
@[simp] theorem State.setMb_net (m : Nat) (v : MbSt) : (s.setMb m v).net = s.net := rfl
@[simp] theorem State.setMb_unitSt (m : Nat) (v : MbSt) : (s.setMb m v).unitSt = s.unitSt := rfl
@[simp] theorem State.setMb_pl (m : Nat) (v : MbSt) : (s.setMb m v).pl = s.pl := rfl
@[simp] theorem State.setMb_ae (m : Nat) (v : MbSt) : (s.setMb m v).ae = s.ae := rfl
@[simp] theorem State.setMb_kv (m : Nat) (v : MbSt) : (s.setMb m v).kv = s.kv := rfl
@[simp] theorem State.setMb_mc (m : Nat) (v : MbSt) : (s.setMb m v).mc = s.mc := rfl
@[simp] theorem State.setMb_rekey (m : Nat) (v : MbSt) : (s.setMb m v).rekey = s.rekey := rfl
@[simp] theorem State.setMb_cc (m : Nat) (v : MbSt) : (s.setMb m v).cc = s.cc := rfl
@[simp] theorem State.setMb_rfx (m : Nat) (v : MbSt) : (s.setMb m v).rfx = s.rfx := rfl
@[simp] theorem State.setMb_dyn (m : Nat) (v : MbSt) : (s.setMb m v).dyn = s.dyn := rfl
@[simp] theorem State.setMb_sched (m : Nat) (v : MbSt) : (s.setMb m v).sched = s.sched := rfl
@[simp] theorem State.setMb_img (m : Nat) (v : MbSt) : (s.setMb m v).img = s.img := rfl
@[simp] theorem State.setMb_castle (m : Nat) (v : MbSt) : (s.setMb m v).castle = s.castle := rfl
@[simp] theorem State.setMb_poison (m : Nat) (v : MbSt) : (s.setMb m v).poison = s.poison := rfl
@[simp] theorem State.setMb_badWords (m : Nat) (v : MbSt) : (s.setMb m v).badWords = s.badWords := rfl
@[simp] theorem State.setMb_acc (m : Nat) (v : MbSt) : (s.setMb m v).acc = s.acc := rfl
@[simp] theorem State.setMb_cores (m : Nat) (v : MbSt) : (s.setMb m v).cores = s.cores := rfl
@[simp] theorem State.setMb_pcie (m : Nat) (v : MbSt) : (s.setMb m v).pcie = s.pcie := rfl
@[simp] theorem State.setMb_link (m : Nat) (v : MbSt) : (s.setMb m v).link = s.link := rfl
@[simp] theorem State.setMb_pwr (m : Nat) (v : MbSt) : (s.setMb m v).pwr = s.pwr := rfl
@[simp] theorem State.setMb_loops (m : Nat) (v : MbSt) : (s.setMb m v).loops = s.loops := rfl
@[simp] theorem State.setMb_clk (m : Nat) (v : MbSt) : (s.setMb m v).clk = s.clk := rfl
@[simp] theorem State.setMb_boot (m : Nat) (v : MbSt) : (s.setMb m v).boot = s.boot := rfl
@[simp] theorem State.setMb_reg (m : Nat) (v : MbSt) (r0 : Nat) : (s.setMb m v).reg r0 = s.reg r0 := by simp only [State.reg, State.setMb_csr]
@[simp] theorem State.setMb_rd (m : Nat) (v : MbSt) (g : Fld) : (s.setMb m v).rd g = s.rd g := by simp only [State.rd, State.setMb_reg]
@[simp] theorem State.setMb_byte (m : Nat) (v : MbSt) (r0 : Nat) : (s.setMb m v).byte r0 = s.byte r0 := by simp only [State.byte, State.blank, State.setMb_mem, State.setMb_rekey]
@[simp] theorem State.setMb_mb_self (m : Nat) (v : MbSt) : (s.setMb m v).mb m = v := by simp [State.setMb, State.mb]
@[simp] theorem State.setMb_setMb (m : Nat) (v : MbSt) (y : MbSt) : (s.setMb m v).setMb m y = s.setMb m y := by simp [State.setMb]
theorem State.setMb_mb_ne (m : Nat) (v : MbSt) {y : Nat} (h : m ≠ y) : (s.setMb m v).mb y = s.mb y := by simp [State.setMb, State.mb, mget_mset_ne _ _ _ _ h]

/-! ### withAcc -/

@[simp] theorem State.withAcc_pending (u c : Nat) (l : List Byte) (p : Bool) : (s.withAcc u c l p).pending = s.pending := rfl
@[simp] theorem State.withAcc_now (u c : Nat) (l : List Byte) (p : Bool) : (s.withAcc u c l p).now = s.now := rfl
@[simp] theorem State.withAcc_freeCtr (u c : Nat) (l : List Byte) (p : Bool) : (s.withAcc u c l p).freeCtr = s.freeCtr := rfl
@[simp] theorem State.withAcc_csr (u c : Nat) (l : List Byte) (p : Bool) : (s.withAcc u c l p).csr = s.csr := rfl
@[simp] theorem State.withAcc_mem (u c : Nat) (l : List Byte) (p : Bool) : (s.withAcc u c l p).mem = s.mem := rfl
@[simp] theorem State.withAcc_log (u c : Nat) (l : List Byte) (p : Bool) : (s.withAcc u c l p).log = s.log := rfl
@[simp] theorem State.withAcc_half (u c : Nat) (l : List Byte) (p : Bool) : (s.withAcc u c l p).half = s.half := rfl
@[simp] theorem State.withAcc_epoch (u c : Nat) (l : List Byte) (p : Bool) : (s.withAcc u c l p).epoch = s.epoch := rfl
@[simp] theorem State.withAcc_irq (u c : Nat) (l : List Byte) (p : Bool) : (s.withAcc u c l p).irq = s.irq := rfl
@[simp] theorem State.withAcc_msix (u c : Nat) (l : List Byte) (p : Bool) : (s.withAcc u c l p).msix = s.msix := rfl
@[simp] theorem State.withAcc_imsic (u c : Nat) (l : List Byte) (p : Bool) : (s.withAcc u c l p).imsic = s.imsic := rfl
@[simp] theorem State.withAcc_castleIrq (u c : Nat) (l : List Byte) (p : Bool) : (s.withAcc u c l p).castleIrq = s.castleIrq := rfl
@[simp] theorem State.withAcc_rdata (u c : Nat) (l : List Byte) (p : Bool) : (s.withAcc u c l p).rdata = s.rdata := rfl
@[simp] theorem State.withAcc_time (u c : Nat) (l : List Byte) (p : Bool) : (s.withAcc u c l p).time = s.time := rfl
@[simp] theorem State.withAcc_iq (u c : Nat) (l : List Byte) (p : Bool) : (s.withAcc u c l p).iq = s.iq := rfl
@[simp] theorem State.withAcc_port (u c : Nat) (l : List Byte) (p : Bool) : (s.withAcc u c l p).port = s.port := rfl
@[simp] theorem State.withAcc_aln (u c : Nat) (l : List Byte) (p : Bool) : (s.withAcc u c l p).aln = s.aln := rfl
@[simp] theorem State.withAcc_vox (u c : Nat) (l : List Byte) (p : Bool) : (s.withAcc u c l p).vox = s.vox := rfl
@[simp] theorem State.withAcc_sq (u c : Nat) (l : List Byte) (p : Bool) : (s.withAcc u c l p).sq = s.sq := rfl
@[simp] theorem State.withAcc_fab (u c : Nat) (l : List Byte) (p : Bool) : (s.withAcc u c l p).fab = s.fab := rfl
@[simp] theorem State.withAcc_net (u c : Nat) (l : List Byte) (p : Bool) : (s.withAcc u c l p).net = s.net := rfl
@[simp] theorem State.withAcc_unitSt (u c : Nat) (l : List Byte) (p : Bool) : (s.withAcc u c l p).unitSt = s.unitSt := rfl
@[simp] theorem State.withAcc_pl (u c : Nat) (l : List Byte) (p : Bool) : (s.withAcc u c l p).pl = s.pl := rfl
@[simp] theorem State.withAcc_ae (u c : Nat) (l : List Byte) (p : Bool) : (s.withAcc u c l p).ae = s.ae := rfl
@[simp] theorem State.withAcc_kv (u c : Nat) (l : List Byte) (p : Bool) : (s.withAcc u c l p).kv = s.kv := rfl
@[simp] theorem State.withAcc_mc (u c : Nat) (l : List Byte) (p : Bool) : (s.withAcc u c l p).mc = s.mc := rfl
@[simp] theorem State.withAcc_rekey (u c : Nat) (l : List Byte) (p : Bool) : (s.withAcc u c l p).rekey = s.rekey := rfl
@[simp] theorem State.withAcc_cc (u c : Nat) (l : List Byte) (p : Bool) : (s.withAcc u c l p).cc = s.cc := rfl
@[simp] theorem State.withAcc_rfx (u c : Nat) (l : List Byte) (p : Bool) : (s.withAcc u c l p).rfx = s.rfx := rfl
@[simp] theorem State.withAcc_dyn (u c : Nat) (l : List Byte) (p : Bool) : (s.withAcc u c l p).dyn = s.dyn := rfl
@[simp] theorem State.withAcc_mbx (u c : Nat) (l : List Byte) (p : Bool) : (s.withAcc u c l p).mbx = s.mbx := rfl
@[simp] theorem State.withAcc_sched (u c : Nat) (l : List Byte) (p : Bool) : (s.withAcc u c l p).sched = s.sched := rfl
@[simp] theorem State.withAcc_img (u c : Nat) (l : List Byte) (p : Bool) : (s.withAcc u c l p).img = s.img := rfl
@[simp] theorem State.withAcc_castle (u c : Nat) (l : List Byte) (p : Bool) : (s.withAcc u c l p).castle = s.castle := rfl
@[simp] theorem State.withAcc_poison (u c : Nat) (l : List Byte) (p : Bool) : (s.withAcc u c l p).poison = s.poison := rfl
@[simp] theorem State.withAcc_badWords (u c : Nat) (l : List Byte) (p : Bool) : (s.withAcc u c l p).badWords = s.badWords := rfl
@[simp] theorem State.withAcc_cores (u c : Nat) (l : List Byte) (p : Bool) : (s.withAcc u c l p).cores = s.cores := rfl
@[simp] theorem State.withAcc_pcie (u c : Nat) (l : List Byte) (p : Bool) : (s.withAcc u c l p).pcie = s.pcie := rfl
@[simp] theorem State.withAcc_link (u c : Nat) (l : List Byte) (p : Bool) : (s.withAcc u c l p).link = s.link := rfl
@[simp] theorem State.withAcc_pwr (u c : Nat) (l : List Byte) (p : Bool) : (s.withAcc u c l p).pwr = s.pwr := rfl
@[simp] theorem State.withAcc_loops (u c : Nat) (l : List Byte) (p : Bool) : (s.withAcc u c l p).loops = s.loops := rfl
@[simp] theorem State.withAcc_clk (u c : Nat) (l : List Byte) (p : Bool) : (s.withAcc u c l p).clk = s.clk := rfl
@[simp] theorem State.withAcc_boot (u c : Nat) (l : List Byte) (p : Bool) : (s.withAcc u c l p).boot = s.boot := rfl
@[simp] theorem State.withAcc_reg (u c : Nat) (l : List Byte) (p : Bool) (r0 : Nat) : (s.withAcc u c l p).reg r0 = s.reg r0 := by simp only [State.reg, State.withAcc_csr]
@[simp] theorem State.withAcc_rd (u c : Nat) (l : List Byte) (p : Bool) (g : Fld) : (s.withAcc u c l p).rd g = s.rd g := by simp only [State.rd, State.withAcc_reg]
@[simp] theorem State.withAcc_byte (u c : Nat) (l : List Byte) (p : Bool) (r0 : Nat) : (s.withAcc u c l p).byte r0 = s.byte r0 := by simp only [State.byte, State.blank, State.withAcc_mem, State.withAcc_rekey]

/-! ### setCsiSeen -/

@[simp] theorem State.setCsiSeen_pending (c : Nat) (l : List Nat) : (s.setCsiSeen c l).pending = s.pending := rfl
@[simp] theorem State.setCsiSeen_now (c : Nat) (l : List Nat) : (s.setCsiSeen c l).now = s.now := rfl
@[simp] theorem State.setCsiSeen_freeCtr (c : Nat) (l : List Nat) : (s.setCsiSeen c l).freeCtr = s.freeCtr := rfl
@[simp] theorem State.setCsiSeen_csr (c : Nat) (l : List Nat) : (s.setCsiSeen c l).csr = s.csr := rfl
@[simp] theorem State.setCsiSeen_mem (c : Nat) (l : List Nat) : (s.setCsiSeen c l).mem = s.mem := rfl
@[simp] theorem State.setCsiSeen_log (c : Nat) (l : List Nat) : (s.setCsiSeen c l).log = s.log := rfl
@[simp] theorem State.setCsiSeen_half (c : Nat) (l : List Nat) : (s.setCsiSeen c l).half = s.half := rfl
@[simp] theorem State.setCsiSeen_epoch (c : Nat) (l : List Nat) : (s.setCsiSeen c l).epoch = s.epoch := rfl
@[simp] theorem State.setCsiSeen_irq (c : Nat) (l : List Nat) : (s.setCsiSeen c l).irq = s.irq := rfl
@[simp] theorem State.setCsiSeen_msix (c : Nat) (l : List Nat) : (s.setCsiSeen c l).msix = s.msix := rfl
@[simp] theorem State.setCsiSeen_imsic (c : Nat) (l : List Nat) : (s.setCsiSeen c l).imsic = s.imsic := rfl
@[simp] theorem State.setCsiSeen_castleIrq (c : Nat) (l : List Nat) : (s.setCsiSeen c l).castleIrq = s.castleIrq := rfl
@[simp] theorem State.setCsiSeen_rdata (c : Nat) (l : List Nat) : (s.setCsiSeen c l).rdata = s.rdata := rfl
@[simp] theorem State.setCsiSeen_time (c : Nat) (l : List Nat) : (s.setCsiSeen c l).time = s.time := rfl
@[simp] theorem State.setCsiSeen_iq (c : Nat) (l : List Nat) : (s.setCsiSeen c l).iq = s.iq := rfl
@[simp] theorem State.setCsiSeen_aln (c : Nat) (l : List Nat) : (s.setCsiSeen c l).aln = s.aln := rfl
@[simp] theorem State.setCsiSeen_vox (c : Nat) (l : List Nat) : (s.setCsiSeen c l).vox = s.vox := rfl
@[simp] theorem State.setCsiSeen_sq (c : Nat) (l : List Nat) : (s.setCsiSeen c l).sq = s.sq := rfl
@[simp] theorem State.setCsiSeen_fab (c : Nat) (l : List Nat) : (s.setCsiSeen c l).fab = s.fab := rfl
@[simp] theorem State.setCsiSeen_net (c : Nat) (l : List Nat) : (s.setCsiSeen c l).net = s.net := rfl
@[simp] theorem State.setCsiSeen_unitSt (c : Nat) (l : List Nat) : (s.setCsiSeen c l).unitSt = s.unitSt := rfl
@[simp] theorem State.setCsiSeen_pl (c : Nat) (l : List Nat) : (s.setCsiSeen c l).pl = s.pl := rfl
@[simp] theorem State.setCsiSeen_ae (c : Nat) (l : List Nat) : (s.setCsiSeen c l).ae = s.ae := rfl
@[simp] theorem State.setCsiSeen_kv (c : Nat) (l : List Nat) : (s.setCsiSeen c l).kv = s.kv := rfl
@[simp] theorem State.setCsiSeen_mc (c : Nat) (l : List Nat) : (s.setCsiSeen c l).mc = s.mc := rfl
@[simp] theorem State.setCsiSeen_rekey (c : Nat) (l : List Nat) : (s.setCsiSeen c l).rekey = s.rekey := rfl
@[simp] theorem State.setCsiSeen_cc (c : Nat) (l : List Nat) : (s.setCsiSeen c l).cc = s.cc := rfl
@[simp] theorem State.setCsiSeen_rfx (c : Nat) (l : List Nat) : (s.setCsiSeen c l).rfx = s.rfx := rfl
@[simp] theorem State.setCsiSeen_dyn (c : Nat) (l : List Nat) : (s.setCsiSeen c l).dyn = s.dyn := rfl
@[simp] theorem State.setCsiSeen_mbx (c : Nat) (l : List Nat) : (s.setCsiSeen c l).mbx = s.mbx := rfl
@[simp] theorem State.setCsiSeen_sched (c : Nat) (l : List Nat) : (s.setCsiSeen c l).sched = s.sched := rfl
@[simp] theorem State.setCsiSeen_img (c : Nat) (l : List Nat) : (s.setCsiSeen c l).img = s.img := rfl
@[simp] theorem State.setCsiSeen_castle (c : Nat) (l : List Nat) : (s.setCsiSeen c l).castle = s.castle := rfl
@[simp] theorem State.setCsiSeen_poison (c : Nat) (l : List Nat) : (s.setCsiSeen c l).poison = s.poison := rfl
@[simp] theorem State.setCsiSeen_badWords (c : Nat) (l : List Nat) : (s.setCsiSeen c l).badWords = s.badWords := rfl
@[simp] theorem State.setCsiSeen_acc (c : Nat) (l : List Nat) : (s.setCsiSeen c l).acc = s.acc := rfl
@[simp] theorem State.setCsiSeen_cores (c : Nat) (l : List Nat) : (s.setCsiSeen c l).cores = s.cores := rfl
@[simp] theorem State.setCsiSeen_pcie (c : Nat) (l : List Nat) : (s.setCsiSeen c l).pcie = s.pcie := rfl
@[simp] theorem State.setCsiSeen_link (c : Nat) (l : List Nat) : (s.setCsiSeen c l).link = s.link := rfl
@[simp] theorem State.setCsiSeen_pwr (c : Nat) (l : List Nat) : (s.setCsiSeen c l).pwr = s.pwr := rfl
@[simp] theorem State.setCsiSeen_loops (c : Nat) (l : List Nat) : (s.setCsiSeen c l).loops = s.loops := rfl
@[simp] theorem State.setCsiSeen_clk (c : Nat) (l : List Nat) : (s.setCsiSeen c l).clk = s.clk := rfl
@[simp] theorem State.setCsiSeen_boot (c : Nat) (l : List Nat) : (s.setCsiSeen c l).boot = s.boot := rfl
@[simp] theorem State.setCsiSeen_reg (c : Nat) (l : List Nat) (r0 : Nat) : (s.setCsiSeen c l).reg r0 = s.reg r0 := by simp only [State.reg, State.setCsiSeen_csr]
@[simp] theorem State.setCsiSeen_rd (c : Nat) (l : List Nat) (g : Fld) : (s.setCsiSeen c l).rd g = s.rd g := by simp only [State.rd, State.setCsiSeen_reg]
@[simp] theorem State.setCsiSeen_byte (c : Nat) (l : List Nat) (r0 : Nat) : (s.setCsiSeen c l).byte r0 = s.byte r0 := by simp only [State.byte, State.blank, State.setCsiSeen_mem, State.setCsiSeen_rekey]

/-! ### withData -/

@[simp] theorem State.withData_pending (v : Nat) : (s.withData v).pending = s.pending := rfl
@[simp] theorem State.withData_now (v : Nat) : (s.withData v).now = s.now := rfl
@[simp] theorem State.withData_freeCtr (v : Nat) : (s.withData v).freeCtr = s.freeCtr := rfl
@[simp] theorem State.withData_csr (v : Nat) : (s.withData v).csr = s.csr := rfl
@[simp] theorem State.withData_mem (v : Nat) : (s.withData v).mem = s.mem := rfl
@[simp] theorem State.withData_log (v : Nat) : (s.withData v).log = s.log := rfl
@[simp] theorem State.withData_half (v : Nat) : (s.withData v).half = s.half := rfl
@[simp] theorem State.withData_epoch (v : Nat) : (s.withData v).epoch = s.epoch := rfl
@[simp] theorem State.withData_irq (v : Nat) : (s.withData v).irq = s.irq := rfl
@[simp] theorem State.withData_msix (v : Nat) : (s.withData v).msix = s.msix := rfl
@[simp] theorem State.withData_imsic (v : Nat) : (s.withData v).imsic = s.imsic := rfl
@[simp] theorem State.withData_castleIrq (v : Nat) : (s.withData v).castleIrq = s.castleIrq := rfl
@[simp] theorem State.withData_time (v : Nat) : (s.withData v).time = s.time := rfl
@[simp] theorem State.withData_iq (v : Nat) : (s.withData v).iq = s.iq := rfl
@[simp] theorem State.withData_port (v : Nat) : (s.withData v).port = s.port := rfl
@[simp] theorem State.withData_aln (v : Nat) : (s.withData v).aln = s.aln := rfl
@[simp] theorem State.withData_vox (v : Nat) : (s.withData v).vox = s.vox := rfl
@[simp] theorem State.withData_sq (v : Nat) : (s.withData v).sq = s.sq := rfl
@[simp] theorem State.withData_fab (v : Nat) : (s.withData v).fab = s.fab := rfl
@[simp] theorem State.withData_net (v : Nat) : (s.withData v).net = s.net := rfl
@[simp] theorem State.withData_unitSt (v : Nat) : (s.withData v).unitSt = s.unitSt := rfl
@[simp] theorem State.withData_pl (v : Nat) : (s.withData v).pl = s.pl := rfl
@[simp] theorem State.withData_ae (v : Nat) : (s.withData v).ae = s.ae := rfl
@[simp] theorem State.withData_kv (v : Nat) : (s.withData v).kv = s.kv := rfl
@[simp] theorem State.withData_mc (v : Nat) : (s.withData v).mc = s.mc := rfl
@[simp] theorem State.withData_rekey (v : Nat) : (s.withData v).rekey = s.rekey := rfl
@[simp] theorem State.withData_cc (v : Nat) : (s.withData v).cc = s.cc := rfl
@[simp] theorem State.withData_rfx (v : Nat) : (s.withData v).rfx = s.rfx := rfl
@[simp] theorem State.withData_dyn (v : Nat) : (s.withData v).dyn = s.dyn := rfl
@[simp] theorem State.withData_mbx (v : Nat) : (s.withData v).mbx = s.mbx := rfl
@[simp] theorem State.withData_sched (v : Nat) : (s.withData v).sched = s.sched := rfl
@[simp] theorem State.withData_img (v : Nat) : (s.withData v).img = s.img := rfl
@[simp] theorem State.withData_castle (v : Nat) : (s.withData v).castle = s.castle := rfl
@[simp] theorem State.withData_poison (v : Nat) : (s.withData v).poison = s.poison := rfl
@[simp] theorem State.withData_badWords (v : Nat) : (s.withData v).badWords = s.badWords := rfl
@[simp] theorem State.withData_acc (v : Nat) : (s.withData v).acc = s.acc := rfl
@[simp] theorem State.withData_cores (v : Nat) : (s.withData v).cores = s.cores := rfl
@[simp] theorem State.withData_pcie (v : Nat) : (s.withData v).pcie = s.pcie := rfl
@[simp] theorem State.withData_link (v : Nat) : (s.withData v).link = s.link := rfl
@[simp] theorem State.withData_pwr (v : Nat) : (s.withData v).pwr = s.pwr := rfl
@[simp] theorem State.withData_loops (v : Nat) : (s.withData v).loops = s.loops := rfl
@[simp] theorem State.withData_clk (v : Nat) : (s.withData v).clk = s.clk := rfl
@[simp] theorem State.withData_boot (v : Nat) : (s.withData v).boot = s.boot := rfl
@[simp] theorem State.withData_reg (v : Nat) (r0 : Nat) : (s.withData v).reg r0 = s.reg r0 := by simp only [State.reg, State.withData_csr]
@[simp] theorem State.withData_rd (v : Nat) (g : Fld) : (s.withData v).rd g = s.rd g := by simp only [State.rd, State.withData_reg]
@[simp] theorem State.withData_byte (v : Nat) (r0 : Nat) : (s.withData v).byte r0 = s.byte r0 := by simp only [State.byte, State.blank, State.withData_mem, State.withData_rekey]

/-! ### setLoops -/

@[simp] theorem State.setLoops_pending (l : LoopSt) : (s.setLoops l).pending = s.pending := rfl
@[simp] theorem State.setLoops_now (l : LoopSt) : (s.setLoops l).now = s.now := rfl
@[simp] theorem State.setLoops_freeCtr (l : LoopSt) : (s.setLoops l).freeCtr = s.freeCtr := rfl
@[simp] theorem State.setLoops_csr (l : LoopSt) : (s.setLoops l).csr = s.csr := rfl
@[simp] theorem State.setLoops_mem (l : LoopSt) : (s.setLoops l).mem = s.mem := rfl
@[simp] theorem State.setLoops_log (l : LoopSt) : (s.setLoops l).log = s.log := rfl
@[simp] theorem State.setLoops_half (l : LoopSt) : (s.setLoops l).half = s.half := rfl
@[simp] theorem State.setLoops_epoch (l : LoopSt) : (s.setLoops l).epoch = s.epoch := rfl
@[simp] theorem State.setLoops_irq (l : LoopSt) : (s.setLoops l).irq = s.irq := rfl
@[simp] theorem State.setLoops_msix (l : LoopSt) : (s.setLoops l).msix = s.msix := rfl
@[simp] theorem State.setLoops_imsic (l : LoopSt) : (s.setLoops l).imsic = s.imsic := rfl
@[simp] theorem State.setLoops_castleIrq (l : LoopSt) : (s.setLoops l).castleIrq = s.castleIrq := rfl
@[simp] theorem State.setLoops_rdata (l : LoopSt) : (s.setLoops l).rdata = s.rdata := rfl
@[simp] theorem State.setLoops_time (l : LoopSt) : (s.setLoops l).time = s.time := rfl
@[simp] theorem State.setLoops_iq (l : LoopSt) : (s.setLoops l).iq = s.iq := rfl
@[simp] theorem State.setLoops_port (l : LoopSt) : (s.setLoops l).port = s.port := rfl
@[simp] theorem State.setLoops_aln (l : LoopSt) : (s.setLoops l).aln = s.aln := rfl
@[simp] theorem State.setLoops_vox (l : LoopSt) : (s.setLoops l).vox = s.vox := rfl
@[simp] theorem State.setLoops_sq (l : LoopSt) : (s.setLoops l).sq = s.sq := rfl
@[simp] theorem State.setLoops_fab (l : LoopSt) : (s.setLoops l).fab = s.fab := rfl
@[simp] theorem State.setLoops_net (l : LoopSt) : (s.setLoops l).net = s.net := rfl
@[simp] theorem State.setLoops_unitSt (l : LoopSt) : (s.setLoops l).unitSt = s.unitSt := rfl
@[simp] theorem State.setLoops_pl (l : LoopSt) : (s.setLoops l).pl = s.pl := rfl
@[simp] theorem State.setLoops_ae (l : LoopSt) : (s.setLoops l).ae = s.ae := rfl
@[simp] theorem State.setLoops_kv (l : LoopSt) : (s.setLoops l).kv = s.kv := rfl
@[simp] theorem State.setLoops_mc (l : LoopSt) : (s.setLoops l).mc = s.mc := rfl
@[simp] theorem State.setLoops_rekey (l : LoopSt) : (s.setLoops l).rekey = s.rekey := rfl
@[simp] theorem State.setLoops_cc (l : LoopSt) : (s.setLoops l).cc = s.cc := rfl
@[simp] theorem State.setLoops_rfx (l : LoopSt) : (s.setLoops l).rfx = s.rfx := rfl
@[simp] theorem State.setLoops_dyn (l : LoopSt) : (s.setLoops l).dyn = s.dyn := rfl
@[simp] theorem State.setLoops_mbx (l : LoopSt) : (s.setLoops l).mbx = s.mbx := rfl
@[simp] theorem State.setLoops_sched (l : LoopSt) : (s.setLoops l).sched = s.sched := rfl
@[simp] theorem State.setLoops_img (l : LoopSt) : (s.setLoops l).img = s.img := rfl
@[simp] theorem State.setLoops_castle (l : LoopSt) : (s.setLoops l).castle = s.castle := rfl
@[simp] theorem State.setLoops_poison (l : LoopSt) : (s.setLoops l).poison = s.poison := rfl
@[simp] theorem State.setLoops_badWords (l : LoopSt) : (s.setLoops l).badWords = s.badWords := rfl
@[simp] theorem State.setLoops_acc (l : LoopSt) : (s.setLoops l).acc = s.acc := rfl
@[simp] theorem State.setLoops_cores (l : LoopSt) : (s.setLoops l).cores = s.cores := rfl
@[simp] theorem State.setLoops_pcie (l : LoopSt) : (s.setLoops l).pcie = s.pcie := rfl
@[simp] theorem State.setLoops_link (l : LoopSt) : (s.setLoops l).link = s.link := rfl
@[simp] theorem State.setLoops_pwr (l : LoopSt) : (s.setLoops l).pwr = s.pwr := rfl
@[simp] theorem State.setLoops_clk (l : LoopSt) : (s.setLoops l).clk = s.clk := rfl
@[simp] theorem State.setLoops_boot (l : LoopSt) : (s.setLoops l).boot = s.boot := rfl
@[simp] theorem State.setLoops_reg (l : LoopSt) (r0 : Nat) : (s.setLoops l).reg r0 = s.reg r0 := by simp only [State.reg, State.setLoops_csr]
@[simp] theorem State.setLoops_rd (l : LoopSt) (g : Fld) : (s.setLoops l).rd g = s.rd g := by simp only [State.rd, State.setLoops_reg]
@[simp] theorem State.setLoops_byte (l : LoopSt) (r0 : Nat) : (s.setLoops l).byte r0 = s.byte r0 := by simp only [State.byte, State.blank, State.setLoops_mem, State.setLoops_rekey]

/-! ### setEg -/

@[simp] theorem State.setEg_pending (i : Nat) (v : EgSt) : (s.setEg i v).pending = s.pending := rfl
@[simp] theorem State.setEg_now (i : Nat) (v : EgSt) : (s.setEg i v).now = s.now := rfl
@[simp] theorem State.setEg_freeCtr (i : Nat) (v : EgSt) : (s.setEg i v).freeCtr = s.freeCtr := rfl
@[simp] theorem State.setEg_csr (i : Nat) (v : EgSt) : (s.setEg i v).csr = s.csr := rfl
@[simp] theorem State.setEg_mem (i : Nat) (v : EgSt) : (s.setEg i v).mem = s.mem := rfl
@[simp] theorem State.setEg_log (i : Nat) (v : EgSt) : (s.setEg i v).log = s.log := rfl
@[simp] theorem State.setEg_half (i : Nat) (v : EgSt) : (s.setEg i v).half = s.half := rfl
@[simp] theorem State.setEg_epoch (i : Nat) (v : EgSt) : (s.setEg i v).epoch = s.epoch := rfl
@[simp] theorem State.setEg_irq (i : Nat) (v : EgSt) : (s.setEg i v).irq = s.irq := rfl
@[simp] theorem State.setEg_msix (i : Nat) (v : EgSt) : (s.setEg i v).msix = s.msix := rfl
@[simp] theorem State.setEg_imsic (i : Nat) (v : EgSt) : (s.setEg i v).imsic = s.imsic := rfl
@[simp] theorem State.setEg_castleIrq (i : Nat) (v : EgSt) : (s.setEg i v).castleIrq = s.castleIrq := rfl
@[simp] theorem State.setEg_rdata (i : Nat) (v : EgSt) : (s.setEg i v).rdata = s.rdata := rfl
@[simp] theorem State.setEg_time (i : Nat) (v : EgSt) : (s.setEg i v).time = s.time := rfl
@[simp] theorem State.setEg_iq (i : Nat) (v : EgSt) : (s.setEg i v).iq = s.iq := rfl
@[simp] theorem State.setEg_port (i : Nat) (v : EgSt) : (s.setEg i v).port = s.port := rfl
@[simp] theorem State.setEg_aln (i : Nat) (v : EgSt) : (s.setEg i v).aln = s.aln := rfl
@[simp] theorem State.setEg_vox (i : Nat) (v : EgSt) : (s.setEg i v).vox = s.vox := rfl
@[simp] theorem State.setEg_sq (i : Nat) (v : EgSt) : (s.setEg i v).sq = s.sq := rfl
@[simp] theorem State.setEg_fab (i : Nat) (v : EgSt) : (s.setEg i v).fab = s.fab := rfl
@[simp] theorem State.setEg_net (i : Nat) (v : EgSt) : (s.setEg i v).net = s.net := rfl
@[simp] theorem State.setEg_unitSt (i : Nat) (v : EgSt) : (s.setEg i v).unitSt = s.unitSt := rfl
@[simp] theorem State.setEg_pl (i : Nat) (v : EgSt) : (s.setEg i v).pl = s.pl := rfl
@[simp] theorem State.setEg_ae (i : Nat) (v : EgSt) : (s.setEg i v).ae = s.ae := rfl
@[simp] theorem State.setEg_kv (i : Nat) (v : EgSt) : (s.setEg i v).kv = s.kv := rfl
@[simp] theorem State.setEg_mc (i : Nat) (v : EgSt) : (s.setEg i v).mc = s.mc := rfl
@[simp] theorem State.setEg_rekey (i : Nat) (v : EgSt) : (s.setEg i v).rekey = s.rekey := rfl
@[simp] theorem State.setEg_cc (i : Nat) (v : EgSt) : (s.setEg i v).cc = s.cc := rfl
@[simp] theorem State.setEg_dyn (i : Nat) (v : EgSt) : (s.setEg i v).dyn = s.dyn := rfl
@[simp] theorem State.setEg_mbx (i : Nat) (v : EgSt) : (s.setEg i v).mbx = s.mbx := rfl
@[simp] theorem State.setEg_sched (i : Nat) (v : EgSt) : (s.setEg i v).sched = s.sched := rfl
@[simp] theorem State.setEg_img (i : Nat) (v : EgSt) : (s.setEg i v).img = s.img := rfl
@[simp] theorem State.setEg_castle (i : Nat) (v : EgSt) : (s.setEg i v).castle = s.castle := rfl
@[simp] theorem State.setEg_poison (i : Nat) (v : EgSt) : (s.setEg i v).poison = s.poison := rfl
@[simp] theorem State.setEg_badWords (i : Nat) (v : EgSt) : (s.setEg i v).badWords = s.badWords := rfl
@[simp] theorem State.setEg_acc (i : Nat) (v : EgSt) : (s.setEg i v).acc = s.acc := rfl
@[simp] theorem State.setEg_cores (i : Nat) (v : EgSt) : (s.setEg i v).cores = s.cores := rfl
@[simp] theorem State.setEg_pcie (i : Nat) (v : EgSt) : (s.setEg i v).pcie = s.pcie := rfl
@[simp] theorem State.setEg_link (i : Nat) (v : EgSt) : (s.setEg i v).link = s.link := rfl
@[simp] theorem State.setEg_pwr (i : Nat) (v : EgSt) : (s.setEg i v).pwr = s.pwr := rfl
@[simp] theorem State.setEg_loops (i : Nat) (v : EgSt) : (s.setEg i v).loops = s.loops := rfl
@[simp] theorem State.setEg_clk (i : Nat) (v : EgSt) : (s.setEg i v).clk = s.clk := rfl
@[simp] theorem State.setEg_boot (i : Nat) (v : EgSt) : (s.setEg i v).boot = s.boot := rfl
@[simp] theorem State.setEg_reg (i : Nat) (v : EgSt) (r0 : Nat) : (s.setEg i v).reg r0 = s.reg r0 := by simp only [State.reg, State.setEg_csr]
@[simp] theorem State.setEg_rd (i : Nat) (v : EgSt) (g : Fld) : (s.setEg i v).rd g = s.rd g := by simp only [State.rd, State.setEg_reg]
@[simp] theorem State.setEg_byte (i : Nat) (v : EgSt) (r0 : Nat) : (s.setEg i v).byte r0 = s.byte r0 := by simp only [State.byte, State.blank, State.setEg_mem, State.setEg_rekey]
@[simp] theorem State.setEg_eg_self (i : Nat) (v : EgSt) : (s.setEg i v).eg i = v := by simp [State.setEg, State.eg]
@[simp] theorem State.setEg_setEg (i : Nat) (v : EgSt) (y : EgSt) : (s.setEg i v).setEg i y = s.setEg i y := by simp [State.setEg]
theorem State.setEg_eg_ne (i : Nat) (v : EgSt) {y : Nat} (h : i ≠ y) : (s.setEg i v).eg y = s.eg y := by simp [State.setEg, State.eg, mget_mset_ne _ _ _ _ h]

/-! ### setGcl -/

@[simp] theorem State.setGcl_pending (p : Nat) (v : GclSt) : (s.setGcl p v).pending = s.pending := rfl
@[simp] theorem State.setGcl_now (p : Nat) (v : GclSt) : (s.setGcl p v).now = s.now := rfl
@[simp] theorem State.setGcl_freeCtr (p : Nat) (v : GclSt) : (s.setGcl p v).freeCtr = s.freeCtr := rfl
@[simp] theorem State.setGcl_csr (p : Nat) (v : GclSt) : (s.setGcl p v).csr = s.csr := rfl
@[simp] theorem State.setGcl_mem (p : Nat) (v : GclSt) : (s.setGcl p v).mem = s.mem := rfl
@[simp] theorem State.setGcl_log (p : Nat) (v : GclSt) : (s.setGcl p v).log = s.log := rfl
@[simp] theorem State.setGcl_half (p : Nat) (v : GclSt) : (s.setGcl p v).half = s.half := rfl
@[simp] theorem State.setGcl_epoch (p : Nat) (v : GclSt) : (s.setGcl p v).epoch = s.epoch := rfl
@[simp] theorem State.setGcl_irq (p : Nat) (v : GclSt) : (s.setGcl p v).irq = s.irq := rfl
@[simp] theorem State.setGcl_msix (p : Nat) (v : GclSt) : (s.setGcl p v).msix = s.msix := rfl
@[simp] theorem State.setGcl_imsic (p : Nat) (v : GclSt) : (s.setGcl p v).imsic = s.imsic := rfl
@[simp] theorem State.setGcl_castleIrq (p : Nat) (v : GclSt) : (s.setGcl p v).castleIrq = s.castleIrq := rfl
@[simp] theorem State.setGcl_rdata (p : Nat) (v : GclSt) : (s.setGcl p v).rdata = s.rdata := rfl
@[simp] theorem State.setGcl_time (p : Nat) (v : GclSt) : (s.setGcl p v).time = s.time := rfl
@[simp] theorem State.setGcl_iq (p : Nat) (v : GclSt) : (s.setGcl p v).iq = s.iq := rfl
@[simp] theorem State.setGcl_port (p : Nat) (v : GclSt) : (s.setGcl p v).port = s.port := rfl
@[simp] theorem State.setGcl_aln (p : Nat) (v : GclSt) : (s.setGcl p v).aln = s.aln := rfl
@[simp] theorem State.setGcl_vox (p : Nat) (v : GclSt) : (s.setGcl p v).vox = s.vox := rfl
@[simp] theorem State.setGcl_sq (p : Nat) (v : GclSt) : (s.setGcl p v).sq = s.sq := rfl
@[simp] theorem State.setGcl_fab (p : Nat) (v : GclSt) : (s.setGcl p v).fab = s.fab := rfl
@[simp] theorem State.setGcl_net (p : Nat) (v : GclSt) : (s.setGcl p v).net = s.net := rfl
@[simp] theorem State.setGcl_unitSt (p : Nat) (v : GclSt) : (s.setGcl p v).unitSt = s.unitSt := rfl
@[simp] theorem State.setGcl_pl (p : Nat) (v : GclSt) : (s.setGcl p v).pl = s.pl := rfl
@[simp] theorem State.setGcl_ae (p : Nat) (v : GclSt) : (s.setGcl p v).ae = s.ae := rfl
@[simp] theorem State.setGcl_kv (p : Nat) (v : GclSt) : (s.setGcl p v).kv = s.kv := rfl
@[simp] theorem State.setGcl_mc (p : Nat) (v : GclSt) : (s.setGcl p v).mc = s.mc := rfl
@[simp] theorem State.setGcl_rekey (p : Nat) (v : GclSt) : (s.setGcl p v).rekey = s.rekey := rfl
@[simp] theorem State.setGcl_cc (p : Nat) (v : GclSt) : (s.setGcl p v).cc = s.cc := rfl
@[simp] theorem State.setGcl_dyn (p : Nat) (v : GclSt) : (s.setGcl p v).dyn = s.dyn := rfl
@[simp] theorem State.setGcl_mbx (p : Nat) (v : GclSt) : (s.setGcl p v).mbx = s.mbx := rfl
@[simp] theorem State.setGcl_sched (p : Nat) (v : GclSt) : (s.setGcl p v).sched = s.sched := rfl
@[simp] theorem State.setGcl_img (p : Nat) (v : GclSt) : (s.setGcl p v).img = s.img := rfl
@[simp] theorem State.setGcl_castle (p : Nat) (v : GclSt) : (s.setGcl p v).castle = s.castle := rfl
@[simp] theorem State.setGcl_poison (p : Nat) (v : GclSt) : (s.setGcl p v).poison = s.poison := rfl
@[simp] theorem State.setGcl_badWords (p : Nat) (v : GclSt) : (s.setGcl p v).badWords = s.badWords := rfl
@[simp] theorem State.setGcl_acc (p : Nat) (v : GclSt) : (s.setGcl p v).acc = s.acc := rfl
@[simp] theorem State.setGcl_cores (p : Nat) (v : GclSt) : (s.setGcl p v).cores = s.cores := rfl
@[simp] theorem State.setGcl_pcie (p : Nat) (v : GclSt) : (s.setGcl p v).pcie = s.pcie := rfl
@[simp] theorem State.setGcl_link (p : Nat) (v : GclSt) : (s.setGcl p v).link = s.link := rfl
@[simp] theorem State.setGcl_pwr (p : Nat) (v : GclSt) : (s.setGcl p v).pwr = s.pwr := rfl
@[simp] theorem State.setGcl_loops (p : Nat) (v : GclSt) : (s.setGcl p v).loops = s.loops := rfl
@[simp] theorem State.setGcl_clk (p : Nat) (v : GclSt) : (s.setGcl p v).clk = s.clk := rfl
@[simp] theorem State.setGcl_boot (p : Nat) (v : GclSt) : (s.setGcl p v).boot = s.boot := rfl
@[simp] theorem State.setGcl_reg (p : Nat) (v : GclSt) (r0 : Nat) : (s.setGcl p v).reg r0 = s.reg r0 := by simp only [State.reg, State.setGcl_csr]
@[simp] theorem State.setGcl_rd (p : Nat) (v : GclSt) (g : Fld) : (s.setGcl p v).rd g = s.rd g := by simp only [State.rd, State.setGcl_reg]
@[simp] theorem State.setGcl_byte (p : Nat) (v : GclSt) (r0 : Nat) : (s.setGcl p v).byte r0 = s.byte r0 := by simp only [State.byte, State.blank, State.setGcl_mem, State.setGcl_rekey]
@[simp] theorem State.setGcl_gcl_self (p : Nat) (v : GclSt) : (s.setGcl p v).gcl p = v := by simp [State.setGcl, State.gcl]
@[simp] theorem State.setGcl_setGcl (p : Nat) (v : GclSt) (y : GclSt) : (s.setGcl p v).setGcl p y = s.setGcl p y := by simp [State.setGcl]
theorem State.setGcl_gcl_ne (p : Nat) (v : GclSt) {y : Nat} (h : p ≠ y) : (s.setGcl p v).gcl y = s.gcl y := by simp [State.setGcl, State.gcl, mget_mset_ne _ _ _ _ h]

/-! ### dropHalf -/

@[simp] theorem State.dropHalf_pending (r : Req) : (s.dropHalf r).pending = s.pending := rfl
@[simp] theorem State.dropHalf_now (r : Req) : (s.dropHalf r).now = s.now := rfl
@[simp] theorem State.dropHalf_freeCtr (r : Req) : (s.dropHalf r).freeCtr = s.freeCtr := rfl
@[simp] theorem State.dropHalf_csr (r : Req) : (s.dropHalf r).csr = s.csr := rfl
@[simp] theorem State.dropHalf_mem (r : Req) : (s.dropHalf r).mem = s.mem := rfl
@[simp] theorem State.dropHalf_log (r : Req) : (s.dropHalf r).log = s.log := rfl
@[simp] theorem State.dropHalf_epoch (r : Req) : (s.dropHalf r).epoch = s.epoch := rfl
@[simp] theorem State.dropHalf_irq (r : Req) : (s.dropHalf r).irq = s.irq := rfl
@[simp] theorem State.dropHalf_msix (r : Req) : (s.dropHalf r).msix = s.msix := rfl
@[simp] theorem State.dropHalf_imsic (r : Req) : (s.dropHalf r).imsic = s.imsic := rfl
@[simp] theorem State.dropHalf_castleIrq (r : Req) : (s.dropHalf r).castleIrq = s.castleIrq := rfl
@[simp] theorem State.dropHalf_rdata (r : Req) : (s.dropHalf r).rdata = s.rdata := rfl
@[simp] theorem State.dropHalf_time (r : Req) : (s.dropHalf r).time = s.time := rfl
@[simp] theorem State.dropHalf_iq (r : Req) : (s.dropHalf r).iq = s.iq := rfl
@[simp] theorem State.dropHalf_port (r : Req) : (s.dropHalf r).port = s.port := rfl
@[simp] theorem State.dropHalf_aln (r : Req) : (s.dropHalf r).aln = s.aln := rfl
@[simp] theorem State.dropHalf_vox (r : Req) : (s.dropHalf r).vox = s.vox := rfl
@[simp] theorem State.dropHalf_sq (r : Req) : (s.dropHalf r).sq = s.sq := rfl
@[simp] theorem State.dropHalf_fab (r : Req) : (s.dropHalf r).fab = s.fab := rfl
@[simp] theorem State.dropHalf_net (r : Req) : (s.dropHalf r).net = s.net := rfl
@[simp] theorem State.dropHalf_unitSt (r : Req) : (s.dropHalf r).unitSt = s.unitSt := rfl
@[simp] theorem State.dropHalf_pl (r : Req) : (s.dropHalf r).pl = s.pl := rfl
@[simp] theorem State.dropHalf_ae (r : Req) : (s.dropHalf r).ae = s.ae := rfl
@[simp] theorem State.dropHalf_kv (r : Req) : (s.dropHalf r).kv = s.kv := rfl
@[simp] theorem State.dropHalf_mc (r : Req) : (s.dropHalf r).mc = s.mc := rfl
@[simp] theorem State.dropHalf_rekey (r : Req) : (s.dropHalf r).rekey = s.rekey := rfl
@[simp] theorem State.dropHalf_cc (r : Req) : (s.dropHalf r).cc = s.cc := rfl
@[simp] theorem State.dropHalf_rfx (r : Req) : (s.dropHalf r).rfx = s.rfx := rfl
@[simp] theorem State.dropHalf_dyn (r : Req) : (s.dropHalf r).dyn = s.dyn := rfl
@[simp] theorem State.dropHalf_mbx (r : Req) : (s.dropHalf r).mbx = s.mbx := rfl
@[simp] theorem State.dropHalf_sched (r : Req) : (s.dropHalf r).sched = s.sched := rfl
@[simp] theorem State.dropHalf_img (r : Req) : (s.dropHalf r).img = s.img := rfl
@[simp] theorem State.dropHalf_castle (r : Req) : (s.dropHalf r).castle = s.castle := rfl
@[simp] theorem State.dropHalf_poison (r : Req) : (s.dropHalf r).poison = s.poison := rfl
@[simp] theorem State.dropHalf_badWords (r : Req) : (s.dropHalf r).badWords = s.badWords := rfl
@[simp] theorem State.dropHalf_acc (r : Req) : (s.dropHalf r).acc = s.acc := rfl
@[simp] theorem State.dropHalf_cores (r : Req) : (s.dropHalf r).cores = s.cores := rfl
@[simp] theorem State.dropHalf_pcie (r : Req) : (s.dropHalf r).pcie = s.pcie := rfl
@[simp] theorem State.dropHalf_link (r : Req) : (s.dropHalf r).link = s.link := rfl
@[simp] theorem State.dropHalf_pwr (r : Req) : (s.dropHalf r).pwr = s.pwr := rfl
@[simp] theorem State.dropHalf_loops (r : Req) : (s.dropHalf r).loops = s.loops := rfl
@[simp] theorem State.dropHalf_clk (r : Req) : (s.dropHalf r).clk = s.clk := rfl
@[simp] theorem State.dropHalf_boot (r : Req) : (s.dropHalf r).boot = s.boot := rfl
@[simp] theorem State.dropHalf_reg (r : Req) (r0 : Nat) : (s.dropHalf r).reg r0 = s.reg r0 := by simp only [State.reg, State.dropHalf_csr]
@[simp] theorem State.dropHalf_rd (r : Req) (g : Fld) : (s.dropHalf r).rd g = s.rd g := by simp only [State.rd, State.dropHalf_reg]
@[simp] theorem State.dropHalf_byte (r : Req) (r0 : Nat) : (s.dropHalf r).byte r0 = s.byte r0 := by simp only [State.byte, State.blank, State.dropHalf_mem, State.dropHalf_rekey]

/-! ### setRot -/

@[simp] theorem State.setRot_pending (r : RotSt) : (s.setRot r).pending = s.pending := rfl
@[simp] theorem State.setRot_now (r : RotSt) : (s.setRot r).now = s.now := rfl
@[simp] theorem State.setRot_freeCtr (r : RotSt) : (s.setRot r).freeCtr = s.freeCtr := rfl
@[simp] theorem State.setRot_csr (r : RotSt) : (s.setRot r).csr = s.csr := rfl
@[simp] theorem State.setRot_mem (r : RotSt) : (s.setRot r).mem = s.mem := rfl
@[simp] theorem State.setRot_log (r : RotSt) : (s.setRot r).log = s.log := rfl
@[simp] theorem State.setRot_half (r : RotSt) : (s.setRot r).half = s.half := rfl
@[simp] theorem State.setRot_epoch (r : RotSt) : (s.setRot r).epoch = s.epoch := rfl
@[simp] theorem State.setRot_irq (r : RotSt) : (s.setRot r).irq = s.irq := rfl
@[simp] theorem State.setRot_msix (r : RotSt) : (s.setRot r).msix = s.msix := rfl
@[simp] theorem State.setRot_imsic (r : RotSt) : (s.setRot r).imsic = s.imsic := rfl
@[simp] theorem State.setRot_castleIrq (r : RotSt) : (s.setRot r).castleIrq = s.castleIrq := rfl
@[simp] theorem State.setRot_rdata (r : RotSt) : (s.setRot r).rdata = s.rdata := rfl
@[simp] theorem State.setRot_time (r : RotSt) : (s.setRot r).time = s.time := rfl
@[simp] theorem State.setRot_iq (r : RotSt) : (s.setRot r).iq = s.iq := rfl
@[simp] theorem State.setRot_port (r : RotSt) : (s.setRot r).port = s.port := rfl
@[simp] theorem State.setRot_aln (r : RotSt) : (s.setRot r).aln = s.aln := rfl
@[simp] theorem State.setRot_vox (r : RotSt) : (s.setRot r).vox = s.vox := rfl
@[simp] theorem State.setRot_sq (r : RotSt) : (s.setRot r).sq = s.sq := rfl
@[simp] theorem State.setRot_fab (r : RotSt) : (s.setRot r).fab = s.fab := rfl
@[simp] theorem State.setRot_net (r : RotSt) : (s.setRot r).net = s.net := rfl
@[simp] theorem State.setRot_unitSt (r : RotSt) : (s.setRot r).unitSt = s.unitSt := rfl
@[simp] theorem State.setRot_pl (r : RotSt) : (s.setRot r).pl = s.pl := rfl
@[simp] theorem State.setRot_ae (r : RotSt) : (s.setRot r).ae = s.ae := rfl
@[simp] theorem State.setRot_kv (r : RotSt) : (s.setRot r).kv = s.kv := rfl
@[simp] theorem State.setRot_mc (r : RotSt) : (s.setRot r).mc = s.mc := rfl
@[simp] theorem State.setRot_rekey (r : RotSt) : (s.setRot r).rekey = s.rekey := rfl
@[simp] theorem State.setRot_cc (r : RotSt) : (s.setRot r).cc = s.cc := rfl
@[simp] theorem State.setRot_rfx (r : RotSt) : (s.setRot r).rfx = s.rfx := rfl
@[simp] theorem State.setRot_dyn (r : RotSt) : (s.setRot r).dyn = s.dyn := rfl
@[simp] theorem State.setRot_mbx (r : RotSt) : (s.setRot r).mbx = s.mbx := rfl
@[simp] theorem State.setRot_sched (r : RotSt) : (s.setRot r).sched = s.sched := rfl
@[simp] theorem State.setRot_img (r : RotSt) : (s.setRot r).img = s.img := rfl
@[simp] theorem State.setRot_poison (r : RotSt) : (s.setRot r).poison = s.poison := rfl
@[simp] theorem State.setRot_badWords (r : RotSt) : (s.setRot r).badWords = s.badWords := rfl
@[simp] theorem State.setRot_acc (r : RotSt) : (s.setRot r).acc = s.acc := rfl
@[simp] theorem State.setRot_cores (r : RotSt) : (s.setRot r).cores = s.cores := rfl
@[simp] theorem State.setRot_pcie (r : RotSt) : (s.setRot r).pcie = s.pcie := rfl
@[simp] theorem State.setRot_link (r : RotSt) : (s.setRot r).link = s.link := rfl
@[simp] theorem State.setRot_pwr (r : RotSt) : (s.setRot r).pwr = s.pwr := rfl
@[simp] theorem State.setRot_loops (r : RotSt) : (s.setRot r).loops = s.loops := rfl
@[simp] theorem State.setRot_clk (r : RotSt) : (s.setRot r).clk = s.clk := rfl
@[simp] theorem State.setRot_boot (r : RotSt) : (s.setRot r).boot = s.boot := rfl
@[simp] theorem State.setRot_reg (r : RotSt) (r0 : Nat) : (s.setRot r).reg r0 = s.reg r0 := by simp only [State.reg, State.setRot_csr]
@[simp] theorem State.setRot_rd (r : RotSt) (g : Fld) : (s.setRot r).rd g = s.rd g := by simp only [State.rd, State.setRot_reg]
@[simp] theorem State.setRot_byte (r : RotSt) (r0 : Nat) : (s.setRot r).byte r0 = s.byte r0 := by simp only [State.byte, State.blank, State.setRot_mem, State.setRot_rekey]

/-! ### setSc -/

@[simp] theorem State.setSc_pending (n : Nat) (v : ScSt) : (s.setSc n v).pending = s.pending := rfl
@[simp] theorem State.setSc_now (n : Nat) (v : ScSt) : (s.setSc n v).now = s.now := rfl
@[simp] theorem State.setSc_freeCtr (n : Nat) (v : ScSt) : (s.setSc n v).freeCtr = s.freeCtr := rfl
@[simp] theorem State.setSc_csr (n : Nat) (v : ScSt) : (s.setSc n v).csr = s.csr := rfl
@[simp] theorem State.setSc_mem (n : Nat) (v : ScSt) : (s.setSc n v).mem = s.mem := rfl
@[simp] theorem State.setSc_log (n : Nat) (v : ScSt) : (s.setSc n v).log = s.log := rfl
@[simp] theorem State.setSc_half (n : Nat) (v : ScSt) : (s.setSc n v).half = s.half := rfl
@[simp] theorem State.setSc_epoch (n : Nat) (v : ScSt) : (s.setSc n v).epoch = s.epoch := rfl
@[simp] theorem State.setSc_irq (n : Nat) (v : ScSt) : (s.setSc n v).irq = s.irq := rfl
@[simp] theorem State.setSc_msix (n : Nat) (v : ScSt) : (s.setSc n v).msix = s.msix := rfl
@[simp] theorem State.setSc_imsic (n : Nat) (v : ScSt) : (s.setSc n v).imsic = s.imsic := rfl
@[simp] theorem State.setSc_castleIrq (n : Nat) (v : ScSt) : (s.setSc n v).castleIrq = s.castleIrq := rfl
@[simp] theorem State.setSc_rdata (n : Nat) (v : ScSt) : (s.setSc n v).rdata = s.rdata := rfl
@[simp] theorem State.setSc_time (n : Nat) (v : ScSt) : (s.setSc n v).time = s.time := rfl
@[simp] theorem State.setSc_iq (n : Nat) (v : ScSt) : (s.setSc n v).iq = s.iq := rfl
@[simp] theorem State.setSc_port (n : Nat) (v : ScSt) : (s.setSc n v).port = s.port := rfl
@[simp] theorem State.setSc_aln (n : Nat) (v : ScSt) : (s.setSc n v).aln = s.aln := rfl
@[simp] theorem State.setSc_vox (n : Nat) (v : ScSt) : (s.setSc n v).vox = s.vox := rfl
@[simp] theorem State.setSc_sq (n : Nat) (v : ScSt) : (s.setSc n v).sq = s.sq := rfl
@[simp] theorem State.setSc_fab (n : Nat) (v : ScSt) : (s.setSc n v).fab = s.fab := rfl
@[simp] theorem State.setSc_net (n : Nat) (v : ScSt) : (s.setSc n v).net = s.net := rfl
@[simp] theorem State.setSc_unitSt (n : Nat) (v : ScSt) : (s.setSc n v).unitSt = s.unitSt := rfl
@[simp] theorem State.setSc_pl (n : Nat) (v : ScSt) : (s.setSc n v).pl = s.pl := rfl
@[simp] theorem State.setSc_ae (n : Nat) (v : ScSt) : (s.setSc n v).ae = s.ae := rfl
@[simp] theorem State.setSc_kv (n : Nat) (v : ScSt) : (s.setSc n v).kv = s.kv := rfl
@[simp] theorem State.setSc_mc (n : Nat) (v : ScSt) : (s.setSc n v).mc = s.mc := rfl
@[simp] theorem State.setSc_rekey (n : Nat) (v : ScSt) : (s.setSc n v).rekey = s.rekey := rfl
@[simp] theorem State.setSc_cc (n : Nat) (v : ScSt) : (s.setSc n v).cc = s.cc := rfl
@[simp] theorem State.setSc_rfx (n : Nat) (v : ScSt) : (s.setSc n v).rfx = s.rfx := rfl
@[simp] theorem State.setSc_dyn (n : Nat) (v : ScSt) : (s.setSc n v).dyn = s.dyn := rfl
@[simp] theorem State.setSc_mbx (n : Nat) (v : ScSt) : (s.setSc n v).mbx = s.mbx := rfl
@[simp] theorem State.setSc_sched (n : Nat) (v : ScSt) : (s.setSc n v).sched = s.sched := rfl
@[simp] theorem State.setSc_img (n : Nat) (v : ScSt) : (s.setSc n v).img = s.img := rfl
@[simp] theorem State.setSc_poison (n : Nat) (v : ScSt) : (s.setSc n v).poison = s.poison := rfl
@[simp] theorem State.setSc_badWords (n : Nat) (v : ScSt) : (s.setSc n v).badWords = s.badWords := rfl
@[simp] theorem State.setSc_acc (n : Nat) (v : ScSt) : (s.setSc n v).acc = s.acc := rfl
@[simp] theorem State.setSc_cores (n : Nat) (v : ScSt) : (s.setSc n v).cores = s.cores := rfl
@[simp] theorem State.setSc_pcie (n : Nat) (v : ScSt) : (s.setSc n v).pcie = s.pcie := rfl
@[simp] theorem State.setSc_link (n : Nat) (v : ScSt) : (s.setSc n v).link = s.link := rfl
@[simp] theorem State.setSc_pwr (n : Nat) (v : ScSt) : (s.setSc n v).pwr = s.pwr := rfl
@[simp] theorem State.setSc_loops (n : Nat) (v : ScSt) : (s.setSc n v).loops = s.loops := rfl
@[simp] theorem State.setSc_clk (n : Nat) (v : ScSt) : (s.setSc n v).clk = s.clk := rfl
@[simp] theorem State.setSc_boot (n : Nat) (v : ScSt) : (s.setSc n v).boot = s.boot := rfl
@[simp] theorem State.setSc_reg (n : Nat) (v : ScSt) (r0 : Nat) : (s.setSc n v).reg r0 = s.reg r0 := by simp only [State.reg, State.setSc_csr]
@[simp] theorem State.setSc_rd (n : Nat) (v : ScSt) (g : Fld) : (s.setSc n v).rd g = s.rd g := by simp only [State.rd, State.setSc_reg]
@[simp] theorem State.setSc_byte (n : Nat) (v : ScSt) (r0 : Nat) : (s.setSc n v).byte r0 = s.byte r0 := by simp only [State.byte, State.blank, State.setSc_mem, State.setSc_rekey]
@[simp] theorem State.setSc_sc_self (n : Nat) (v : ScSt) : (s.setSc n v).sc n = v := by simp [State.setSc, State.sc]
@[simp] theorem State.setSc_setSc (n : Nat) (v : ScSt) (y : ScSt) : (s.setSc n v).setSc n y = s.setSc n y := by simp [State.setSc]
theorem State.setSc_sc_ne (n : Nat) (v : ScSt) {y : Nat} (h : n ≠ y) : (s.setSc n v).sc y = s.sc y := by simp [State.setSc, State.sc, mget_mset_ne _ _ _ _ h]

/-! ### setTsv -/

@[simp] theorem State.setTsv_pending (t : Nat) (v : TsSt) : (s.setTsv t v).pending = s.pending := rfl
@[simp] theorem State.setTsv_now (t : Nat) (v : TsSt) : (s.setTsv t v).now = s.now := rfl
@[simp] theorem State.setTsv_freeCtr (t : Nat) (v : TsSt) : (s.setTsv t v).freeCtr = s.freeCtr := rfl
@[simp] theorem State.setTsv_csr (t : Nat) (v : TsSt) : (s.setTsv t v).csr = s.csr := rfl
@[simp] theorem State.setTsv_mem (t : Nat) (v : TsSt) : (s.setTsv t v).mem = s.mem := rfl
@[simp] theorem State.setTsv_log (t : Nat) (v : TsSt) : (s.setTsv t v).log = s.log := rfl
@[simp] theorem State.setTsv_half (t : Nat) (v : TsSt) : (s.setTsv t v).half = s.half := rfl
@[simp] theorem State.setTsv_epoch (t : Nat) (v : TsSt) : (s.setTsv t v).epoch = s.epoch := rfl
@[simp] theorem State.setTsv_irq (t : Nat) (v : TsSt) : (s.setTsv t v).irq = s.irq := rfl
@[simp] theorem State.setTsv_msix (t : Nat) (v : TsSt) : (s.setTsv t v).msix = s.msix := rfl
@[simp] theorem State.setTsv_imsic (t : Nat) (v : TsSt) : (s.setTsv t v).imsic = s.imsic := rfl
@[simp] theorem State.setTsv_castleIrq (t : Nat) (v : TsSt) : (s.setTsv t v).castleIrq = s.castleIrq := rfl
@[simp] theorem State.setTsv_rdata (t : Nat) (v : TsSt) : (s.setTsv t v).rdata = s.rdata := rfl
@[simp] theorem State.setTsv_time (t : Nat) (v : TsSt) : (s.setTsv t v).time = s.time := rfl
@[simp] theorem State.setTsv_iq (t : Nat) (v : TsSt) : (s.setTsv t v).iq = s.iq := rfl
@[simp] theorem State.setTsv_port (t : Nat) (v : TsSt) : (s.setTsv t v).port = s.port := rfl
@[simp] theorem State.setTsv_aln (t : Nat) (v : TsSt) : (s.setTsv t v).aln = s.aln := rfl
@[simp] theorem State.setTsv_vox (t : Nat) (v : TsSt) : (s.setTsv t v).vox = s.vox := rfl
@[simp] theorem State.setTsv_sq (t : Nat) (v : TsSt) : (s.setTsv t v).sq = s.sq := rfl
@[simp] theorem State.setTsv_fab (t : Nat) (v : TsSt) : (s.setTsv t v).fab = s.fab := rfl
@[simp] theorem State.setTsv_net (t : Nat) (v : TsSt) : (s.setTsv t v).net = s.net := rfl
@[simp] theorem State.setTsv_unitSt (t : Nat) (v : TsSt) : (s.setTsv t v).unitSt = s.unitSt := rfl
@[simp] theorem State.setTsv_pl (t : Nat) (v : TsSt) : (s.setTsv t v).pl = s.pl := rfl
@[simp] theorem State.setTsv_ae (t : Nat) (v : TsSt) : (s.setTsv t v).ae = s.ae := rfl
@[simp] theorem State.setTsv_kv (t : Nat) (v : TsSt) : (s.setTsv t v).kv = s.kv := rfl
@[simp] theorem State.setTsv_mc (t : Nat) (v : TsSt) : (s.setTsv t v).mc = s.mc := rfl
@[simp] theorem State.setTsv_rekey (t : Nat) (v : TsSt) : (s.setTsv t v).rekey = s.rekey := rfl
@[simp] theorem State.setTsv_cc (t : Nat) (v : TsSt) : (s.setTsv t v).cc = s.cc := rfl
@[simp] theorem State.setTsv_rfx (t : Nat) (v : TsSt) : (s.setTsv t v).rfx = s.rfx := rfl
@[simp] theorem State.setTsv_dyn (t : Nat) (v : TsSt) : (s.setTsv t v).dyn = s.dyn := rfl
@[simp] theorem State.setTsv_mbx (t : Nat) (v : TsSt) : (s.setTsv t v).mbx = s.mbx := rfl
@[simp] theorem State.setTsv_sched (t : Nat) (v : TsSt) : (s.setTsv t v).sched = s.sched := rfl
@[simp] theorem State.setTsv_img (t : Nat) (v : TsSt) : (s.setTsv t v).img = s.img := rfl
@[simp] theorem State.setTsv_poison (t : Nat) (v : TsSt) : (s.setTsv t v).poison = s.poison := rfl
@[simp] theorem State.setTsv_badWords (t : Nat) (v : TsSt) : (s.setTsv t v).badWords = s.badWords := rfl
@[simp] theorem State.setTsv_acc (t : Nat) (v : TsSt) : (s.setTsv t v).acc = s.acc := rfl
@[simp] theorem State.setTsv_cores (t : Nat) (v : TsSt) : (s.setTsv t v).cores = s.cores := rfl
@[simp] theorem State.setTsv_pcie (t : Nat) (v : TsSt) : (s.setTsv t v).pcie = s.pcie := rfl
@[simp] theorem State.setTsv_link (t : Nat) (v : TsSt) : (s.setTsv t v).link = s.link := rfl
@[simp] theorem State.setTsv_pwr (t : Nat) (v : TsSt) : (s.setTsv t v).pwr = s.pwr := rfl
@[simp] theorem State.setTsv_loops (t : Nat) (v : TsSt) : (s.setTsv t v).loops = s.loops := rfl
@[simp] theorem State.setTsv_clk (t : Nat) (v : TsSt) : (s.setTsv t v).clk = s.clk := rfl
@[simp] theorem State.setTsv_boot (t : Nat) (v : TsSt) : (s.setTsv t v).boot = s.boot := rfl
@[simp] theorem State.setTsv_reg (t : Nat) (v : TsSt) (r0 : Nat) : (s.setTsv t v).reg r0 = s.reg r0 := by simp only [State.reg, State.setTsv_csr]
@[simp] theorem State.setTsv_rd (t : Nat) (v : TsSt) (g : Fld) : (s.setTsv t v).rd g = s.rd g := by simp only [State.rd, State.setTsv_reg]
@[simp] theorem State.setTsv_byte (t : Nat) (v : TsSt) (r0 : Nat) : (s.setTsv t v).byte r0 = s.byte r0 := by simp only [State.byte, State.blank, State.setTsv_mem, State.setTsv_rekey]
@[simp] theorem State.setTsv_tsv_self (t : Nat) (v : TsSt) : (s.setTsv t v).tsv t = v := by simp [State.setTsv, State.tsv]
@[simp] theorem State.setTsv_setTsv (t : Nat) (v : TsSt) (y : TsSt) : (s.setTsv t v).setTsv t y = s.setTsv t y := by simp [State.setTsv]
theorem State.setTsv_tsv_ne (t : Nat) (v : TsSt) {y : Nat} (h : t ≠ y) : (s.setTsv t v).tsv y = s.tsv y := by simp [State.setTsv, State.tsv, mget_mset_ne _ _ _ _ h]

/-! ### setCp -/

@[simp] theorem State.setCp_pending (c : Nat) (v : CpSt) : (s.setCp c v).pending = s.pending := rfl
@[simp] theorem State.setCp_now (c : Nat) (v : CpSt) : (s.setCp c v).now = s.now := rfl
@[simp] theorem State.setCp_freeCtr (c : Nat) (v : CpSt) : (s.setCp c v).freeCtr = s.freeCtr := rfl
@[simp] theorem State.setCp_csr (c : Nat) (v : CpSt) : (s.setCp c v).csr = s.csr := rfl
@[simp] theorem State.setCp_mem (c : Nat) (v : CpSt) : (s.setCp c v).mem = s.mem := rfl
@[simp] theorem State.setCp_log (c : Nat) (v : CpSt) : (s.setCp c v).log = s.log := rfl
@[simp] theorem State.setCp_half (c : Nat) (v : CpSt) : (s.setCp c v).half = s.half := rfl
@[simp] theorem State.setCp_epoch (c : Nat) (v : CpSt) : (s.setCp c v).epoch = s.epoch := rfl
@[simp] theorem State.setCp_irq (c : Nat) (v : CpSt) : (s.setCp c v).irq = s.irq := rfl
@[simp] theorem State.setCp_msix (c : Nat) (v : CpSt) : (s.setCp c v).msix = s.msix := rfl
@[simp] theorem State.setCp_imsic (c : Nat) (v : CpSt) : (s.setCp c v).imsic = s.imsic := rfl
@[simp] theorem State.setCp_castleIrq (c : Nat) (v : CpSt) : (s.setCp c v).castleIrq = s.castleIrq := rfl
@[simp] theorem State.setCp_rdata (c : Nat) (v : CpSt) : (s.setCp c v).rdata = s.rdata := rfl
@[simp] theorem State.setCp_time (c : Nat) (v : CpSt) : (s.setCp c v).time = s.time := rfl
@[simp] theorem State.setCp_iq (c : Nat) (v : CpSt) : (s.setCp c v).iq = s.iq := rfl
@[simp] theorem State.setCp_port (c : Nat) (v : CpSt) : (s.setCp c v).port = s.port := rfl
@[simp] theorem State.setCp_aln (c : Nat) (v : CpSt) : (s.setCp c v).aln = s.aln := rfl
@[simp] theorem State.setCp_vox (c : Nat) (v : CpSt) : (s.setCp c v).vox = s.vox := rfl
@[simp] theorem State.setCp_sq (c : Nat) (v : CpSt) : (s.setCp c v).sq = s.sq := rfl
@[simp] theorem State.setCp_fab (c : Nat) (v : CpSt) : (s.setCp c v).fab = s.fab := rfl
@[simp] theorem State.setCp_net (c : Nat) (v : CpSt) : (s.setCp c v).net = s.net := rfl
@[simp] theorem State.setCp_unitSt (c : Nat) (v : CpSt) : (s.setCp c v).unitSt = s.unitSt := rfl
@[simp] theorem State.setCp_pl (c : Nat) (v : CpSt) : (s.setCp c v).pl = s.pl := rfl
@[simp] theorem State.setCp_ae (c : Nat) (v : CpSt) : (s.setCp c v).ae = s.ae := rfl
@[simp] theorem State.setCp_kv (c : Nat) (v : CpSt) : (s.setCp c v).kv = s.kv := rfl
@[simp] theorem State.setCp_mc (c : Nat) (v : CpSt) : (s.setCp c v).mc = s.mc := rfl
@[simp] theorem State.setCp_rekey (c : Nat) (v : CpSt) : (s.setCp c v).rekey = s.rekey := rfl
@[simp] theorem State.setCp_cc (c : Nat) (v : CpSt) : (s.setCp c v).cc = s.cc := rfl
@[simp] theorem State.setCp_rfx (c : Nat) (v : CpSt) : (s.setCp c v).rfx = s.rfx := rfl
@[simp] theorem State.setCp_dyn (c : Nat) (v : CpSt) : (s.setCp c v).dyn = s.dyn := rfl
@[simp] theorem State.setCp_mbx (c : Nat) (v : CpSt) : (s.setCp c v).mbx = s.mbx := rfl
@[simp] theorem State.setCp_sched (c : Nat) (v : CpSt) : (s.setCp c v).sched = s.sched := rfl
@[simp] theorem State.setCp_img (c : Nat) (v : CpSt) : (s.setCp c v).img = s.img := rfl
@[simp] theorem State.setCp_poison (c : Nat) (v : CpSt) : (s.setCp c v).poison = s.poison := rfl
@[simp] theorem State.setCp_badWords (c : Nat) (v : CpSt) : (s.setCp c v).badWords = s.badWords := rfl
@[simp] theorem State.setCp_acc (c : Nat) (v : CpSt) : (s.setCp c v).acc = s.acc := rfl
@[simp] theorem State.setCp_cores (c : Nat) (v : CpSt) : (s.setCp c v).cores = s.cores := rfl
@[simp] theorem State.setCp_pcie (c : Nat) (v : CpSt) : (s.setCp c v).pcie = s.pcie := rfl
@[simp] theorem State.setCp_link (c : Nat) (v : CpSt) : (s.setCp c v).link = s.link := rfl
@[simp] theorem State.setCp_pwr (c : Nat) (v : CpSt) : (s.setCp c v).pwr = s.pwr := rfl
@[simp] theorem State.setCp_loops (c : Nat) (v : CpSt) : (s.setCp c v).loops = s.loops := rfl
@[simp] theorem State.setCp_clk (c : Nat) (v : CpSt) : (s.setCp c v).clk = s.clk := rfl
@[simp] theorem State.setCp_boot (c : Nat) (v : CpSt) : (s.setCp c v).boot = s.boot := rfl
@[simp] theorem State.setCp_reg (c : Nat) (v : CpSt) (r0 : Nat) : (s.setCp c v).reg r0 = s.reg r0 := by simp only [State.reg, State.setCp_csr]
@[simp] theorem State.setCp_rd (c : Nat) (v : CpSt) (g : Fld) : (s.setCp c v).rd g = s.rd g := by simp only [State.rd, State.setCp_reg]
@[simp] theorem State.setCp_byte (c : Nat) (v : CpSt) (r0 : Nat) : (s.setCp c v).byte r0 = s.byte r0 := by simp only [State.byte, State.blank, State.setCp_mem, State.setCp_rekey]
@[simp] theorem State.setCp_cp_self (c : Nat) (v : CpSt) : (s.setCp c v).cp c = v := by simp [State.setCp, State.cp]
@[simp] theorem State.setCp_setCp (c : Nat) (v : CpSt) (y : CpSt) : (s.setCp c v).setCp c y = s.setCp c y := by simp [State.setCp]
theorem State.setCp_cp_ne (c : Nat) (v : CpSt) {y : Nat} (h : c ≠ y) : (s.setCp c v).cp y = s.cp y := by simp [State.setCp, State.cp, mget_mset_ne _ _ _ _ h]

/-! ### takeMsg -/

@[simp] theorem State.takeMsg_pending (m : Msg) : (s.takeMsg m).pending = s.pending := rfl
@[simp] theorem State.takeMsg_now (m : Msg) : (s.takeMsg m).now = s.now := rfl
@[simp] theorem State.takeMsg_freeCtr (m : Msg) : (s.takeMsg m).freeCtr = s.freeCtr := rfl
@[simp] theorem State.takeMsg_csr (m : Msg) : (s.takeMsg m).csr = s.csr := rfl
@[simp] theorem State.takeMsg_mem (m : Msg) : (s.takeMsg m).mem = s.mem := rfl
@[simp] theorem State.takeMsg_log (m : Msg) : (s.takeMsg m).log = s.log := rfl
@[simp] theorem State.takeMsg_half (m : Msg) : (s.takeMsg m).half = s.half := rfl
@[simp] theorem State.takeMsg_epoch (m : Msg) : (s.takeMsg m).epoch = s.epoch := rfl
@[simp] theorem State.takeMsg_irq (m : Msg) : (s.takeMsg m).irq = s.irq := rfl
@[simp] theorem State.takeMsg_msix (m : Msg) : (s.takeMsg m).msix = s.msix := rfl
@[simp] theorem State.takeMsg_imsic (m : Msg) : (s.takeMsg m).imsic = s.imsic := rfl
@[simp] theorem State.takeMsg_castleIrq (m : Msg) : (s.takeMsg m).castleIrq = s.castleIrq := rfl
@[simp] theorem State.takeMsg_rdata (m : Msg) : (s.takeMsg m).rdata = s.rdata := rfl
@[simp] theorem State.takeMsg_time (m : Msg) : (s.takeMsg m).time = s.time := rfl
@[simp] theorem State.takeMsg_iq (m : Msg) : (s.takeMsg m).iq = s.iq := rfl
@[simp] theorem State.takeMsg_port (m : Msg) : (s.takeMsg m).port = s.port := rfl
@[simp] theorem State.takeMsg_aln (m : Msg) : (s.takeMsg m).aln = s.aln := rfl
@[simp] theorem State.takeMsg_vox (m : Msg) : (s.takeMsg m).vox = s.vox := rfl
@[simp] theorem State.takeMsg_sq (m : Msg) : (s.takeMsg m).sq = s.sq := rfl
@[simp] theorem State.takeMsg_fab (m : Msg) : (s.takeMsg m).fab = s.fab := rfl
@[simp] theorem State.takeMsg_unitSt (m : Msg) : (s.takeMsg m).unitSt = s.unitSt := rfl
@[simp] theorem State.takeMsg_pl (m : Msg) : (s.takeMsg m).pl = s.pl := rfl
@[simp] theorem State.takeMsg_ae (m : Msg) : (s.takeMsg m).ae = s.ae := rfl
@[simp] theorem State.takeMsg_kv (m : Msg) : (s.takeMsg m).kv = s.kv := rfl
@[simp] theorem State.takeMsg_mc (m : Msg) : (s.takeMsg m).mc = s.mc := rfl
@[simp] theorem State.takeMsg_rekey (m : Msg) : (s.takeMsg m).rekey = s.rekey := rfl
@[simp] theorem State.takeMsg_cc (m : Msg) : (s.takeMsg m).cc = s.cc := rfl
@[simp] theorem State.takeMsg_rfx (m : Msg) : (s.takeMsg m).rfx = s.rfx := rfl
@[simp] theorem State.takeMsg_dyn (m : Msg) : (s.takeMsg m).dyn = s.dyn := rfl
@[simp] theorem State.takeMsg_mbx (m : Msg) : (s.takeMsg m).mbx = s.mbx := rfl
@[simp] theorem State.takeMsg_sched (m : Msg) : (s.takeMsg m).sched = s.sched := rfl
@[simp] theorem State.takeMsg_img (m : Msg) : (s.takeMsg m).img = s.img := rfl
@[simp] theorem State.takeMsg_castle (m : Msg) : (s.takeMsg m).castle = s.castle := rfl
@[simp] theorem State.takeMsg_poison (m : Msg) : (s.takeMsg m).poison = s.poison := rfl
@[simp] theorem State.takeMsg_badWords (m : Msg) : (s.takeMsg m).badWords = s.badWords := rfl
@[simp] theorem State.takeMsg_acc (m : Msg) : (s.takeMsg m).acc = s.acc := rfl
@[simp] theorem State.takeMsg_cores (m : Msg) : (s.takeMsg m).cores = s.cores := rfl
@[simp] theorem State.takeMsg_pcie (m : Msg) : (s.takeMsg m).pcie = s.pcie := rfl
@[simp] theorem State.takeMsg_link (m : Msg) : (s.takeMsg m).link = s.link := rfl
@[simp] theorem State.takeMsg_pwr (m : Msg) : (s.takeMsg m).pwr = s.pwr := rfl
@[simp] theorem State.takeMsg_loops (m : Msg) : (s.takeMsg m).loops = s.loops := rfl
@[simp] theorem State.takeMsg_clk (m : Msg) : (s.takeMsg m).clk = s.clk := rfl
@[simp] theorem State.takeMsg_boot (m : Msg) : (s.takeMsg m).boot = s.boot := rfl
@[simp] theorem State.takeMsg_reg (m : Msg) (r0 : Nat) : (s.takeMsg m).reg r0 = s.reg r0 := by simp only [State.reg, State.takeMsg_csr]
@[simp] theorem State.takeMsg_rd (m : Msg) (g : Fld) : (s.takeMsg m).rd g = s.rd g := by simp only [State.rd, State.takeMsg_reg]
@[simp] theorem State.takeMsg_byte (m : Msg) (r0 : Nat) : (s.takeMsg m).byte r0 = s.byte r0 := by simp only [State.byte, State.blank, State.takeMsg_mem, State.takeMsg_rekey]

/-! ### setSq -/

@[simp] theorem State.setSq_pending (n : Nat) (q : SqSt) : (s.setSq n q).pending = s.pending := rfl
@[simp] theorem State.setSq_now (n : Nat) (q : SqSt) : (s.setSq n q).now = s.now := rfl
@[simp] theorem State.setSq_freeCtr (n : Nat) (q : SqSt) : (s.setSq n q).freeCtr = s.freeCtr := rfl
@[simp] theorem State.setSq_csr (n : Nat) (q : SqSt) : (s.setSq n q).csr = s.csr := rfl
@[simp] theorem State.setSq_mem (n : Nat) (q : SqSt) : (s.setSq n q).mem = s.mem := rfl
@[simp] theorem State.setSq_log (n : Nat) (q : SqSt) : (s.setSq n q).log = s.log := rfl
@[simp] theorem State.setSq_half (n : Nat) (q : SqSt) : (s.setSq n q).half = s.half := rfl
@[simp] theorem State.setSq_epoch (n : Nat) (q : SqSt) : (s.setSq n q).epoch = s.epoch := rfl
@[simp] theorem State.setSq_irq (n : Nat) (q : SqSt) : (s.setSq n q).irq = s.irq := rfl
@[simp] theorem State.setSq_msix (n : Nat) (q : SqSt) : (s.setSq n q).msix = s.msix := rfl
@[simp] theorem State.setSq_imsic (n : Nat) (q : SqSt) : (s.setSq n q).imsic = s.imsic := rfl
@[simp] theorem State.setSq_castleIrq (n : Nat) (q : SqSt) : (s.setSq n q).castleIrq = s.castleIrq := rfl
@[simp] theorem State.setSq_rdata (n : Nat) (q : SqSt) : (s.setSq n q).rdata = s.rdata := rfl
@[simp] theorem State.setSq_time (n : Nat) (q : SqSt) : (s.setSq n q).time = s.time := rfl
@[simp] theorem State.setSq_iq (n : Nat) (q : SqSt) : (s.setSq n q).iq = s.iq := rfl
@[simp] theorem State.setSq_port (n : Nat) (q : SqSt) : (s.setSq n q).port = s.port := rfl
@[simp] theorem State.setSq_aln (n : Nat) (q : SqSt) : (s.setSq n q).aln = s.aln := rfl
@[simp] theorem State.setSq_vox (n : Nat) (q : SqSt) : (s.setSq n q).vox = s.vox := rfl
@[simp] theorem State.setSq_fab (n : Nat) (q : SqSt) : (s.setSq n q).fab = s.fab := rfl
@[simp] theorem State.setSq_net (n : Nat) (q : SqSt) : (s.setSq n q).net = s.net := rfl
@[simp] theorem State.setSq_unitSt (n : Nat) (q : SqSt) : (s.setSq n q).unitSt = s.unitSt := rfl
@[simp] theorem State.setSq_pl (n : Nat) (q : SqSt) : (s.setSq n q).pl = s.pl := rfl
@[simp] theorem State.setSq_ae (n : Nat) (q : SqSt) : (s.setSq n q).ae = s.ae := rfl
@[simp] theorem State.setSq_kv (n : Nat) (q : SqSt) : (s.setSq n q).kv = s.kv := rfl
@[simp] theorem State.setSq_mc (n : Nat) (q : SqSt) : (s.setSq n q).mc = s.mc := rfl
@[simp] theorem State.setSq_rekey (n : Nat) (q : SqSt) : (s.setSq n q).rekey = s.rekey := rfl
@[simp] theorem State.setSq_cc (n : Nat) (q : SqSt) : (s.setSq n q).cc = s.cc := rfl
@[simp] theorem State.setSq_rfx (n : Nat) (q : SqSt) : (s.setSq n q).rfx = s.rfx := rfl
@[simp] theorem State.setSq_dyn (n : Nat) (q : SqSt) : (s.setSq n q).dyn = s.dyn := rfl
@[simp] theorem State.setSq_mbx (n : Nat) (q : SqSt) : (s.setSq n q).mbx = s.mbx := rfl
@[simp] theorem State.setSq_sched (n : Nat) (q : SqSt) : (s.setSq n q).sched = s.sched := rfl
@[simp] theorem State.setSq_img (n : Nat) (q : SqSt) : (s.setSq n q).img = s.img := rfl
@[simp] theorem State.setSq_castle (n : Nat) (q : SqSt) : (s.setSq n q).castle = s.castle := rfl
@[simp] theorem State.setSq_poison (n : Nat) (q : SqSt) : (s.setSq n q).poison = s.poison := rfl
@[simp] theorem State.setSq_badWords (n : Nat) (q : SqSt) : (s.setSq n q).badWords = s.badWords := rfl
@[simp] theorem State.setSq_acc (n : Nat) (q : SqSt) : (s.setSq n q).acc = s.acc := rfl
@[simp] theorem State.setSq_cores (n : Nat) (q : SqSt) : (s.setSq n q).cores = s.cores := rfl
@[simp] theorem State.setSq_pcie (n : Nat) (q : SqSt) : (s.setSq n q).pcie = s.pcie := rfl
@[simp] theorem State.setSq_link (n : Nat) (q : SqSt) : (s.setSq n q).link = s.link := rfl
@[simp] theorem State.setSq_pwr (n : Nat) (q : SqSt) : (s.setSq n q).pwr = s.pwr := rfl
@[simp] theorem State.setSq_loops (n : Nat) (q : SqSt) : (s.setSq n q).loops = s.loops := rfl
@[simp] theorem State.setSq_clk (n : Nat) (q : SqSt) : (s.setSq n q).clk = s.clk := rfl
@[simp] theorem State.setSq_boot (n : Nat) (q : SqSt) : (s.setSq n q).boot = s.boot := rfl
@[simp] theorem State.setSq_reg (n : Nat) (q : SqSt) (r0 : Nat) : (s.setSq n q).reg r0 = s.reg r0 := by simp only [State.reg, State.setSq_csr]
@[simp] theorem State.setSq_rd (n : Nat) (q : SqSt) (g : Fld) : (s.setSq n q).rd g = s.rd g := by simp only [State.rd, State.setSq_reg]
@[simp] theorem State.setSq_byte (n : Nat) (q : SqSt) (r0 : Nat) : (s.setSq n q).byte r0 = s.byte r0 := by simp only [State.byte, State.blank, State.setSq_mem, State.setSq_rekey]
@[simp] theorem State.setSq_sqr_self (n : Nat) (q : SqSt) : (s.setSq n q).sqr n = q := by simp [State.setSq, State.sqr]
@[simp] theorem State.setSq_setSq (n : Nat) (q : SqSt) (y : SqSt) : (s.setSq n q).setSq n y = s.setSq n y := by simp [State.setSq]
theorem State.setSq_sqr_ne (n : Nat) (q : SqSt) {y : Nat} (h : n ≠ y) : (s.setSq n q).sqr y = s.sqr y := by simp [State.setSq, State.sqr, mget_mset_ne _ _ _ _ h]

/-! ### setShareCtx -/

@[simp] theorem State.setShareCtx_pending (n : Nat) (c : ShareCtx) : (s.setShareCtx n c).pending = s.pending := rfl
@[simp] theorem State.setShareCtx_now (n : Nat) (c : ShareCtx) : (s.setShareCtx n c).now = s.now := rfl
@[simp] theorem State.setShareCtx_freeCtr (n : Nat) (c : ShareCtx) : (s.setShareCtx n c).freeCtr = s.freeCtr := rfl
@[simp] theorem State.setShareCtx_csr (n : Nat) (c : ShareCtx) : (s.setShareCtx n c).csr = s.csr := rfl
@[simp] theorem State.setShareCtx_mem (n : Nat) (c : ShareCtx) : (s.setShareCtx n c).mem = s.mem := rfl
@[simp] theorem State.setShareCtx_log (n : Nat) (c : ShareCtx) : (s.setShareCtx n c).log = s.log := rfl
@[simp] theorem State.setShareCtx_half (n : Nat) (c : ShareCtx) : (s.setShareCtx n c).half = s.half := rfl
@[simp] theorem State.setShareCtx_epoch (n : Nat) (c : ShareCtx) : (s.setShareCtx n c).epoch = s.epoch := rfl
@[simp] theorem State.setShareCtx_irq (n : Nat) (c : ShareCtx) : (s.setShareCtx n c).irq = s.irq := rfl
@[simp] theorem State.setShareCtx_msix (n : Nat) (c : ShareCtx) : (s.setShareCtx n c).msix = s.msix := rfl
@[simp] theorem State.setShareCtx_imsic (n : Nat) (c : ShareCtx) : (s.setShareCtx n c).imsic = s.imsic := rfl
@[simp] theorem State.setShareCtx_castleIrq (n : Nat) (c : ShareCtx) : (s.setShareCtx n c).castleIrq = s.castleIrq := rfl
@[simp] theorem State.setShareCtx_rdata (n : Nat) (c : ShareCtx) : (s.setShareCtx n c).rdata = s.rdata := rfl
@[simp] theorem State.setShareCtx_time (n : Nat) (c : ShareCtx) : (s.setShareCtx n c).time = s.time := rfl
@[simp] theorem State.setShareCtx_iq (n : Nat) (c : ShareCtx) : (s.setShareCtx n c).iq = s.iq := rfl
@[simp] theorem State.setShareCtx_port (n : Nat) (c : ShareCtx) : (s.setShareCtx n c).port = s.port := rfl
@[simp] theorem State.setShareCtx_aln (n : Nat) (c : ShareCtx) : (s.setShareCtx n c).aln = s.aln := rfl
@[simp] theorem State.setShareCtx_vox (n : Nat) (c : ShareCtx) : (s.setShareCtx n c).vox = s.vox := rfl
@[simp] theorem State.setShareCtx_sq (n : Nat) (c : ShareCtx) : (s.setShareCtx n c).sq = s.sq := rfl
@[simp] theorem State.setShareCtx_fab (n : Nat) (c : ShareCtx) : (s.setShareCtx n c).fab = s.fab := rfl
@[simp] theorem State.setShareCtx_net (n : Nat) (c : ShareCtx) : (s.setShareCtx n c).net = s.net := rfl
@[simp] theorem State.setShareCtx_unitSt (n : Nat) (c : ShareCtx) : (s.setShareCtx n c).unitSt = s.unitSt := rfl
@[simp] theorem State.setShareCtx_pl (n : Nat) (c : ShareCtx) : (s.setShareCtx n c).pl = s.pl := rfl
@[simp] theorem State.setShareCtx_ae (n : Nat) (c : ShareCtx) : (s.setShareCtx n c).ae = s.ae := rfl
@[simp] theorem State.setShareCtx_kv (n : Nat) (c : ShareCtx) : (s.setShareCtx n c).kv = s.kv := rfl
@[simp] theorem State.setShareCtx_mc (n : Nat) (c : ShareCtx) : (s.setShareCtx n c).mc = s.mc := rfl
@[simp] theorem State.setShareCtx_rekey (n : Nat) (c : ShareCtx) : (s.setShareCtx n c).rekey = s.rekey := rfl
@[simp] theorem State.setShareCtx_cc (n : Nat) (c : ShareCtx) : (s.setShareCtx n c).cc = s.cc := rfl
@[simp] theorem State.setShareCtx_rfx (n : Nat) (c : ShareCtx) : (s.setShareCtx n c).rfx = s.rfx := rfl
@[simp] theorem State.setShareCtx_dyn (n : Nat) (c : ShareCtx) : (s.setShareCtx n c).dyn = s.dyn := rfl
@[simp] theorem State.setShareCtx_mbx (n : Nat) (c : ShareCtx) : (s.setShareCtx n c).mbx = s.mbx := rfl
@[simp] theorem State.setShareCtx_img (n : Nat) (c : ShareCtx) : (s.setShareCtx n c).img = s.img := rfl
@[simp] theorem State.setShareCtx_castle (n : Nat) (c : ShareCtx) : (s.setShareCtx n c).castle = s.castle := rfl
@[simp] theorem State.setShareCtx_poison (n : Nat) (c : ShareCtx) : (s.setShareCtx n c).poison = s.poison := rfl
@[simp] theorem State.setShareCtx_badWords (n : Nat) (c : ShareCtx) : (s.setShareCtx n c).badWords = s.badWords := rfl
@[simp] theorem State.setShareCtx_acc (n : Nat) (c : ShareCtx) : (s.setShareCtx n c).acc = s.acc := rfl
@[simp] theorem State.setShareCtx_cores (n : Nat) (c : ShareCtx) : (s.setShareCtx n c).cores = s.cores := rfl
@[simp] theorem State.setShareCtx_pcie (n : Nat) (c : ShareCtx) : (s.setShareCtx n c).pcie = s.pcie := rfl
@[simp] theorem State.setShareCtx_link (n : Nat) (c : ShareCtx) : (s.setShareCtx n c).link = s.link := rfl
@[simp] theorem State.setShareCtx_pwr (n : Nat) (c : ShareCtx) : (s.setShareCtx n c).pwr = s.pwr := rfl
@[simp] theorem State.setShareCtx_loops (n : Nat) (c : ShareCtx) : (s.setShareCtx n c).loops = s.loops := rfl
@[simp] theorem State.setShareCtx_clk (n : Nat) (c : ShareCtx) : (s.setShareCtx n c).clk = s.clk := rfl
@[simp] theorem State.setShareCtx_boot (n : Nat) (c : ShareCtx) : (s.setShareCtx n c).boot = s.boot := rfl
@[simp] theorem State.setShareCtx_reg (n : Nat) (c : ShareCtx) (r0 : Nat) : (s.setShareCtx n c).reg r0 = s.reg r0 := by simp only [State.reg, State.setShareCtx_csr]
@[simp] theorem State.setShareCtx_rd (n : Nat) (c : ShareCtx) (g : Fld) : (s.setShareCtx n c).rd g = s.rd g := by simp only [State.rd, State.setShareCtx_reg]
@[simp] theorem State.setShareCtx_byte (n : Nat) (c : ShareCtx) (r0 : Nat) : (s.setShareCtx n c).byte r0 = s.byte r0 := by simp only [State.byte, State.blank, State.setShareCtx_mem, State.setShareCtx_rekey]

/-! ### latchTs -/

@[simp] theorem State.latchTs_pending (r : Req) (t : BitVec 128) : (s.latchTs r t).pending = s.pending := rfl
@[simp] theorem State.latchTs_now (r : Req) (t : BitVec 128) : (s.latchTs r t).now = s.now := rfl
@[simp] theorem State.latchTs_freeCtr (r : Req) (t : BitVec 128) : (s.latchTs r t).freeCtr = s.freeCtr := rfl
@[simp] theorem State.latchTs_csr (r : Req) (t : BitVec 128) : (s.latchTs r t).csr = s.csr := rfl
@[simp] theorem State.latchTs_mem (r : Req) (t : BitVec 128) : (s.latchTs r t).mem = s.mem := rfl
@[simp] theorem State.latchTs_log (r : Req) (t : BitVec 128) : (s.latchTs r t).log = s.log := rfl
@[simp] theorem State.latchTs_half (r : Req) (t : BitVec 128) : (s.latchTs r t).half = s.half := rfl
@[simp] theorem State.latchTs_epoch (r : Req) (t : BitVec 128) : (s.latchTs r t).epoch = s.epoch := rfl
@[simp] theorem State.latchTs_irq (r : Req) (t : BitVec 128) : (s.latchTs r t).irq = s.irq := rfl
@[simp] theorem State.latchTs_msix (r : Req) (t : BitVec 128) : (s.latchTs r t).msix = s.msix := rfl
@[simp] theorem State.latchTs_imsic (r : Req) (t : BitVec 128) : (s.latchTs r t).imsic = s.imsic := rfl
@[simp] theorem State.latchTs_castleIrq (r : Req) (t : BitVec 128) : (s.latchTs r t).castleIrq = s.castleIrq := rfl
@[simp] theorem State.latchTs_rdata (r : Req) (t : BitVec 128) : (s.latchTs r t).rdata = s.rdata := rfl
@[simp] theorem State.latchTs_iq (r : Req) (t : BitVec 128) : (s.latchTs r t).iq = s.iq := rfl
@[simp] theorem State.latchTs_port (r : Req) (t : BitVec 128) : (s.latchTs r t).port = s.port := rfl
@[simp] theorem State.latchTs_aln (r : Req) (t : BitVec 128) : (s.latchTs r t).aln = s.aln := rfl
@[simp] theorem State.latchTs_vox (r : Req) (t : BitVec 128) : (s.latchTs r t).vox = s.vox := rfl
@[simp] theorem State.latchTs_sq (r : Req) (t : BitVec 128) : (s.latchTs r t).sq = s.sq := rfl
@[simp] theorem State.latchTs_fab (r : Req) (t : BitVec 128) : (s.latchTs r t).fab = s.fab := rfl
@[simp] theorem State.latchTs_net (r : Req) (t : BitVec 128) : (s.latchTs r t).net = s.net := rfl
@[simp] theorem State.latchTs_unitSt (r : Req) (t : BitVec 128) : (s.latchTs r t).unitSt = s.unitSt := rfl
@[simp] theorem State.latchTs_pl (r : Req) (t : BitVec 128) : (s.latchTs r t).pl = s.pl := rfl
@[simp] theorem State.latchTs_ae (r : Req) (t : BitVec 128) : (s.latchTs r t).ae = s.ae := rfl
@[simp] theorem State.latchTs_kv (r : Req) (t : BitVec 128) : (s.latchTs r t).kv = s.kv := rfl
@[simp] theorem State.latchTs_mc (r : Req) (t : BitVec 128) : (s.latchTs r t).mc = s.mc := rfl
@[simp] theorem State.latchTs_rekey (r : Req) (t : BitVec 128) : (s.latchTs r t).rekey = s.rekey := rfl
@[simp] theorem State.latchTs_cc (r : Req) (t : BitVec 128) : (s.latchTs r t).cc = s.cc := rfl
@[simp] theorem State.latchTs_rfx (r : Req) (t : BitVec 128) : (s.latchTs r t).rfx = s.rfx := rfl
@[simp] theorem State.latchTs_dyn (r : Req) (t : BitVec 128) : (s.latchTs r t).dyn = s.dyn := rfl
@[simp] theorem State.latchTs_mbx (r : Req) (t : BitVec 128) : (s.latchTs r t).mbx = s.mbx := rfl
@[simp] theorem State.latchTs_sched (r : Req) (t : BitVec 128) : (s.latchTs r t).sched = s.sched := rfl
@[simp] theorem State.latchTs_img (r : Req) (t : BitVec 128) : (s.latchTs r t).img = s.img := rfl
@[simp] theorem State.latchTs_castle (r : Req) (t : BitVec 128) : (s.latchTs r t).castle = s.castle := rfl
@[simp] theorem State.latchTs_poison (r : Req) (t : BitVec 128) : (s.latchTs r t).poison = s.poison := rfl
@[simp] theorem State.latchTs_badWords (r : Req) (t : BitVec 128) : (s.latchTs r t).badWords = s.badWords := rfl
@[simp] theorem State.latchTs_acc (r : Req) (t : BitVec 128) : (s.latchTs r t).acc = s.acc := rfl
@[simp] theorem State.latchTs_cores (r : Req) (t : BitVec 128) : (s.latchTs r t).cores = s.cores := rfl
@[simp] theorem State.latchTs_pcie (r : Req) (t : BitVec 128) : (s.latchTs r t).pcie = s.pcie := rfl
@[simp] theorem State.latchTs_link (r : Req) (t : BitVec 128) : (s.latchTs r t).link = s.link := rfl
@[simp] theorem State.latchTs_pwr (r : Req) (t : BitVec 128) : (s.latchTs r t).pwr = s.pwr := rfl
@[simp] theorem State.latchTs_loops (r : Req) (t : BitVec 128) : (s.latchTs r t).loops = s.loops := rfl
@[simp] theorem State.latchTs_clk (r : Req) (t : BitVec 128) : (s.latchTs r t).clk = s.clk := rfl
@[simp] theorem State.latchTs_boot (r : Req) (t : BitVec 128) : (s.latchTs r t).boot = s.boot := rfl
@[simp] theorem State.latchTs_reg (r : Req) (t : BitVec 128) (r0 : Nat) : (s.latchTs r t).reg r0 = s.reg r0 := by simp only [State.reg, State.latchTs_csr]
@[simp] theorem State.latchTs_rd (r : Req) (t : BitVec 128) (g : Fld) : (s.latchTs r t).rd g = s.rd g := by simp only [State.rd, State.latchTs_reg]
@[simp] theorem State.latchTs_byte (r : Req) (t : BitVec 128) (r0 : Nat) : (s.latchTs r t).byte r0 = s.byte r0 := by simp only [State.byte, State.blank, State.latchTs_mem, State.latchTs_rekey]

/-! ### setCapFifo -/

@[simp] theorem State.setCapFifo_pending (m : Nat) (l : List CapStamp) : (s.setCapFifo m l).pending = s.pending := by simp [State.setCapFifo]
@[simp] theorem State.setCapFifo_now (m : Nat) (l : List CapStamp) : (s.setCapFifo m l).now = s.now := by simp [State.setCapFifo]
@[simp] theorem State.setCapFifo_freeCtr (m : Nat) (l : List CapStamp) : (s.setCapFifo m l).freeCtr = s.freeCtr := by simp [State.setCapFifo]
@[simp] theorem State.setCapFifo_mem (m : Nat) (l : List CapStamp) : (s.setCapFifo m l).mem = s.mem := by simp [State.setCapFifo]
@[simp] theorem State.setCapFifo_log (m : Nat) (l : List CapStamp) : (s.setCapFifo m l).log = s.log := by simp [State.setCapFifo]
@[simp] theorem State.setCapFifo_half (m : Nat) (l : List CapStamp) : (s.setCapFifo m l).half = s.half := by simp [State.setCapFifo]
@[simp] theorem State.setCapFifo_epoch (m : Nat) (l : List CapStamp) : (s.setCapFifo m l).epoch = s.epoch := by simp [State.setCapFifo]
@[simp] theorem State.setCapFifo_irq (m : Nat) (l : List CapStamp) : (s.setCapFifo m l).irq = s.irq := by simp [State.setCapFifo]
@[simp] theorem State.setCapFifo_msix (m : Nat) (l : List CapStamp) : (s.setCapFifo m l).msix = s.msix := by simp [State.setCapFifo]
@[simp] theorem State.setCapFifo_imsic (m : Nat) (l : List CapStamp) : (s.setCapFifo m l).imsic = s.imsic := by simp [State.setCapFifo]
@[simp] theorem State.setCapFifo_castleIrq (m : Nat) (l : List CapStamp) : (s.setCapFifo m l).castleIrq = s.castleIrq := by simp [State.setCapFifo]
@[simp] theorem State.setCapFifo_rdata (m : Nat) (l : List CapStamp) : (s.setCapFifo m l).rdata = s.rdata := by simp [State.setCapFifo]
@[simp] theorem State.setCapFifo_iq (m : Nat) (l : List CapStamp) : (s.setCapFifo m l).iq = s.iq := by simp [State.setCapFifo]
@[simp] theorem State.setCapFifo_port (m : Nat) (l : List CapStamp) : (s.setCapFifo m l).port = s.port := by simp [State.setCapFifo]
@[simp] theorem State.setCapFifo_aln (m : Nat) (l : List CapStamp) : (s.setCapFifo m l).aln = s.aln := by simp [State.setCapFifo]
@[simp] theorem State.setCapFifo_vox (m : Nat) (l : List CapStamp) : (s.setCapFifo m l).vox = s.vox := by simp [State.setCapFifo]
@[simp] theorem State.setCapFifo_sq (m : Nat) (l : List CapStamp) : (s.setCapFifo m l).sq = s.sq := by simp [State.setCapFifo]
@[simp] theorem State.setCapFifo_fab (m : Nat) (l : List CapStamp) : (s.setCapFifo m l).fab = s.fab := by simp [State.setCapFifo]
@[simp] theorem State.setCapFifo_net (m : Nat) (l : List CapStamp) : (s.setCapFifo m l).net = s.net := by simp [State.setCapFifo]
@[simp] theorem State.setCapFifo_unitSt (m : Nat) (l : List CapStamp) : (s.setCapFifo m l).unitSt = s.unitSt := by simp [State.setCapFifo]
@[simp] theorem State.setCapFifo_pl (m : Nat) (l : List CapStamp) : (s.setCapFifo m l).pl = s.pl := by simp [State.setCapFifo]
@[simp] theorem State.setCapFifo_ae (m : Nat) (l : List CapStamp) : (s.setCapFifo m l).ae = s.ae := by simp [State.setCapFifo]
@[simp] theorem State.setCapFifo_kv (m : Nat) (l : List CapStamp) : (s.setCapFifo m l).kv = s.kv := by simp [State.setCapFifo]
@[simp] theorem State.setCapFifo_mc (m : Nat) (l : List CapStamp) : (s.setCapFifo m l).mc = s.mc := by simp [State.setCapFifo]
@[simp] theorem State.setCapFifo_rekey (m : Nat) (l : List CapStamp) : (s.setCapFifo m l).rekey = s.rekey := by simp [State.setCapFifo]
@[simp] theorem State.setCapFifo_cc (m : Nat) (l : List CapStamp) : (s.setCapFifo m l).cc = s.cc := by simp [State.setCapFifo]
@[simp] theorem State.setCapFifo_rfx (m : Nat) (l : List CapStamp) : (s.setCapFifo m l).rfx = s.rfx := by simp [State.setCapFifo]
@[simp] theorem State.setCapFifo_dyn (m : Nat) (l : List CapStamp) : (s.setCapFifo m l).dyn = s.dyn := by simp [State.setCapFifo]
@[simp] theorem State.setCapFifo_mbx (m : Nat) (l : List CapStamp) : (s.setCapFifo m l).mbx = s.mbx := by simp [State.setCapFifo]
@[simp] theorem State.setCapFifo_sched (m : Nat) (l : List CapStamp) : (s.setCapFifo m l).sched = s.sched := by simp [State.setCapFifo]
@[simp] theorem State.setCapFifo_img (m : Nat) (l : List CapStamp) : (s.setCapFifo m l).img = s.img := by simp [State.setCapFifo]
@[simp] theorem State.setCapFifo_castle (m : Nat) (l : List CapStamp) : (s.setCapFifo m l).castle = s.castle := by simp [State.setCapFifo]
@[simp] theorem State.setCapFifo_poison (m : Nat) (l : List CapStamp) : (s.setCapFifo m l).poison = s.poison := by simp [State.setCapFifo]
@[simp] theorem State.setCapFifo_badWords (m : Nat) (l : List CapStamp) : (s.setCapFifo m l).badWords = s.badWords := by simp [State.setCapFifo]
@[simp] theorem State.setCapFifo_acc (m : Nat) (l : List CapStamp) : (s.setCapFifo m l).acc = s.acc := by simp [State.setCapFifo]
@[simp] theorem State.setCapFifo_cores (m : Nat) (l : List CapStamp) : (s.setCapFifo m l).cores = s.cores := by simp [State.setCapFifo]
@[simp] theorem State.setCapFifo_pcie (m : Nat) (l : List CapStamp) : (s.setCapFifo m l).pcie = s.pcie := by simp [State.setCapFifo]
@[simp] theorem State.setCapFifo_link (m : Nat) (l : List CapStamp) : (s.setCapFifo m l).link = s.link := by simp [State.setCapFifo]
@[simp] theorem State.setCapFifo_pwr (m : Nat) (l : List CapStamp) : (s.setCapFifo m l).pwr = s.pwr := by simp [State.setCapFifo]
@[simp] theorem State.setCapFifo_loops (m : Nat) (l : List CapStamp) : (s.setCapFifo m l).loops = s.loops := by simp [State.setCapFifo]
@[simp] theorem State.setCapFifo_clk (m : Nat) (l : List CapStamp) : (s.setCapFifo m l).clk = s.clk := by simp [State.setCapFifo]
@[simp] theorem State.setCapFifo_boot (m : Nat) (l : List CapStamp) : (s.setCapFifo m l).boot = s.boot := by simp [State.setCapFifo]
@[simp] theorem State.setCapFifo_byte (m : Nat) (l : List CapStamp) (r0 : Nat) : (s.setCapFifo m l).byte r0 = s.byte r0 := by simp only [State.byte, State.blank, State.setCapFifo_mem, State.setCapFifo_rekey]

/-! ### setPh -/

@[simp] theorem State.setPh_pending (k : Nat) (p : Ph) : (s.setPh k p).pending = s.pending := rfl
@[simp] theorem State.setPh_now (k : Nat) (p : Ph) : (s.setPh k p).now = s.now := rfl
@[simp] theorem State.setPh_freeCtr (k : Nat) (p : Ph) : (s.setPh k p).freeCtr = s.freeCtr := rfl
@[simp] theorem State.setPh_csr (k : Nat) (p : Ph) : (s.setPh k p).csr = s.csr := rfl
@[simp] theorem State.setPh_mem (k : Nat) (p : Ph) : (s.setPh k p).mem = s.mem := rfl
@[simp] theorem State.setPh_log (k : Nat) (p : Ph) : (s.setPh k p).log = s.log := rfl
@[simp] theorem State.setPh_half (k : Nat) (p : Ph) : (s.setPh k p).half = s.half := rfl
@[simp] theorem State.setPh_epoch (k : Nat) (p : Ph) : (s.setPh k p).epoch = s.epoch := rfl
@[simp] theorem State.setPh_irq (k : Nat) (p : Ph) : (s.setPh k p).irq = s.irq := rfl
@[simp] theorem State.setPh_msix (k : Nat) (p : Ph) : (s.setPh k p).msix = s.msix := rfl
@[simp] theorem State.setPh_imsic (k : Nat) (p : Ph) : (s.setPh k p).imsic = s.imsic := rfl
@[simp] theorem State.setPh_castleIrq (k : Nat) (p : Ph) : (s.setPh k p).castleIrq = s.castleIrq := rfl
@[simp] theorem State.setPh_rdata (k : Nat) (p : Ph) : (s.setPh k p).rdata = s.rdata := rfl
@[simp] theorem State.setPh_iq (k : Nat) (p : Ph) : (s.setPh k p).iq = s.iq := rfl
@[simp] theorem State.setPh_port (k : Nat) (p : Ph) : (s.setPh k p).port = s.port := rfl
@[simp] theorem State.setPh_aln (k : Nat) (p : Ph) : (s.setPh k p).aln = s.aln := rfl
@[simp] theorem State.setPh_vox (k : Nat) (p : Ph) : (s.setPh k p).vox = s.vox := rfl
@[simp] theorem State.setPh_sq (k : Nat) (p : Ph) : (s.setPh k p).sq = s.sq := rfl
@[simp] theorem State.setPh_fab (k : Nat) (p : Ph) : (s.setPh k p).fab = s.fab := rfl
@[simp] theorem State.setPh_net (k : Nat) (p : Ph) : (s.setPh k p).net = s.net := rfl
@[simp] theorem State.setPh_unitSt (k : Nat) (p : Ph) : (s.setPh k p).unitSt = s.unitSt := rfl
@[simp] theorem State.setPh_pl (k : Nat) (p : Ph) : (s.setPh k p).pl = s.pl := rfl
@[simp] theorem State.setPh_ae (k : Nat) (p : Ph) : (s.setPh k p).ae = s.ae := rfl
@[simp] theorem State.setPh_kv (k : Nat) (p : Ph) : (s.setPh k p).kv = s.kv := rfl
@[simp] theorem State.setPh_mc (k : Nat) (p : Ph) : (s.setPh k p).mc = s.mc := rfl
@[simp] theorem State.setPh_rekey (k : Nat) (p : Ph) : (s.setPh k p).rekey = s.rekey := rfl
@[simp] theorem State.setPh_cc (k : Nat) (p : Ph) : (s.setPh k p).cc = s.cc := rfl
@[simp] theorem State.setPh_rfx (k : Nat) (p : Ph) : (s.setPh k p).rfx = s.rfx := rfl
@[simp] theorem State.setPh_dyn (k : Nat) (p : Ph) : (s.setPh k p).dyn = s.dyn := rfl
@[simp] theorem State.setPh_mbx (k : Nat) (p : Ph) : (s.setPh k p).mbx = s.mbx := rfl
@[simp] theorem State.setPh_sched (k : Nat) (p : Ph) : (s.setPh k p).sched = s.sched := rfl
@[simp] theorem State.setPh_img (k : Nat) (p : Ph) : (s.setPh k p).img = s.img := rfl
@[simp] theorem State.setPh_castle (k : Nat) (p : Ph) : (s.setPh k p).castle = s.castle := rfl
@[simp] theorem State.setPh_poison (k : Nat) (p : Ph) : (s.setPh k p).poison = s.poison := rfl
@[simp] theorem State.setPh_badWords (k : Nat) (p : Ph) : (s.setPh k p).badWords = s.badWords := rfl
@[simp] theorem State.setPh_acc (k : Nat) (p : Ph) : (s.setPh k p).acc = s.acc := rfl
@[simp] theorem State.setPh_cores (k : Nat) (p : Ph) : (s.setPh k p).cores = s.cores := rfl
@[simp] theorem State.setPh_pcie (k : Nat) (p : Ph) : (s.setPh k p).pcie = s.pcie := rfl
@[simp] theorem State.setPh_link (k : Nat) (p : Ph) : (s.setPh k p).link = s.link := rfl
@[simp] theorem State.setPh_pwr (k : Nat) (p : Ph) : (s.setPh k p).pwr = s.pwr := rfl
@[simp] theorem State.setPh_loops (k : Nat) (p : Ph) : (s.setPh k p).loops = s.loops := rfl
@[simp] theorem State.setPh_clk (k : Nat) (p : Ph) : (s.setPh k p).clk = s.clk := rfl
@[simp] theorem State.setPh_boot (k : Nat) (p : Ph) : (s.setPh k p).boot = s.boot := rfl
@[simp] theorem State.setPh_reg (k : Nat) (p : Ph) (r0 : Nat) : (s.setPh k p).reg r0 = s.reg r0 := by simp only [State.reg, State.setPh_csr]
@[simp] theorem State.setPh_rd (k : Nat) (p : Ph) (g : Fld) : (s.setPh k p).rd g = s.rd g := by simp only [State.rd, State.setPh_reg]
@[simp] theorem State.setPh_byte (k : Nat) (p : Ph) (r0 : Nat) : (s.setPh k p).byte r0 = s.byte r0 := by simp only [State.byte, State.blank, State.setPh_mem, State.setPh_rekey]
@[simp] theorem State.setPh_ph_self (k : Nat) (p : Ph) : (s.setPh k p).ph k = p := by simp [State.setPh, State.ph]
@[simp] theorem State.setPh_setPh (k : Nat) (p : Ph) (y : Ph) : (s.setPh k p).setPh k y = s.setPh k y := by simp [State.setPh]
theorem State.setPh_ph_ne (k : Nat) (p : Ph) {y : Nat} (h : k ≠ y) : (s.setPh k p).ph y = s.ph y := by simp [State.setPh, State.ph, mget_mset_ne _ _ _ _ h]

/-! ### setPe -/

@[simp] theorem State.setPe_pending (j : Nat) (p : Pe) : (s.setPe j p).pending = s.pending := rfl
@[simp] theorem State.setPe_now (j : Nat) (p : Pe) : (s.setPe j p).now = s.now := rfl
@[simp] theorem State.setPe_freeCtr (j : Nat) (p : Pe) : (s.setPe j p).freeCtr = s.freeCtr := rfl
@[simp] theorem State.setPe_csr (j : Nat) (p : Pe) : (s.setPe j p).csr = s.csr := rfl
@[simp] theorem State.setPe_mem (j : Nat) (p : Pe) : (s.setPe j p).mem = s.mem := rfl
@[simp] theorem State.setPe_log (j : Nat) (p : Pe) : (s.setPe j p).log = s.log := rfl
@[simp] theorem State.setPe_half (j : Nat) (p : Pe) : (s.setPe j p).half = s.half := rfl
@[simp] theorem State.setPe_epoch (j : Nat) (p : Pe) : (s.setPe j p).epoch = s.epoch := rfl
@[simp] theorem State.setPe_irq (j : Nat) (p : Pe) : (s.setPe j p).irq = s.irq := rfl
@[simp] theorem State.setPe_msix (j : Nat) (p : Pe) : (s.setPe j p).msix = s.msix := rfl
@[simp] theorem State.setPe_imsic (j : Nat) (p : Pe) : (s.setPe j p).imsic = s.imsic := rfl
@[simp] theorem State.setPe_castleIrq (j : Nat) (p : Pe) : (s.setPe j p).castleIrq = s.castleIrq := rfl
@[simp] theorem State.setPe_rdata (j : Nat) (p : Pe) : (s.setPe j p).rdata = s.rdata := rfl
@[simp] theorem State.setPe_iq (j : Nat) (p : Pe) : (s.setPe j p).iq = s.iq := rfl
@[simp] theorem State.setPe_port (j : Nat) (p : Pe) : (s.setPe j p).port = s.port := rfl
@[simp] theorem State.setPe_aln (j : Nat) (p : Pe) : (s.setPe j p).aln = s.aln := rfl
@[simp] theorem State.setPe_vox (j : Nat) (p : Pe) : (s.setPe j p).vox = s.vox := rfl
@[simp] theorem State.setPe_sq (j : Nat) (p : Pe) : (s.setPe j p).sq = s.sq := rfl
@[simp] theorem State.setPe_fab (j : Nat) (p : Pe) : (s.setPe j p).fab = s.fab := rfl
@[simp] theorem State.setPe_net (j : Nat) (p : Pe) : (s.setPe j p).net = s.net := rfl
@[simp] theorem State.setPe_unitSt (j : Nat) (p : Pe) : (s.setPe j p).unitSt = s.unitSt := rfl
@[simp] theorem State.setPe_pl (j : Nat) (p : Pe) : (s.setPe j p).pl = s.pl := rfl
@[simp] theorem State.setPe_ae (j : Nat) (p : Pe) : (s.setPe j p).ae = s.ae := rfl
@[simp] theorem State.setPe_kv (j : Nat) (p : Pe) : (s.setPe j p).kv = s.kv := rfl
@[simp] theorem State.setPe_mc (j : Nat) (p : Pe) : (s.setPe j p).mc = s.mc := rfl
@[simp] theorem State.setPe_rekey (j : Nat) (p : Pe) : (s.setPe j p).rekey = s.rekey := rfl
@[simp] theorem State.setPe_cc (j : Nat) (p : Pe) : (s.setPe j p).cc = s.cc := rfl
@[simp] theorem State.setPe_rfx (j : Nat) (p : Pe) : (s.setPe j p).rfx = s.rfx := rfl
@[simp] theorem State.setPe_dyn (j : Nat) (p : Pe) : (s.setPe j p).dyn = s.dyn := rfl
@[simp] theorem State.setPe_mbx (j : Nat) (p : Pe) : (s.setPe j p).mbx = s.mbx := rfl
@[simp] theorem State.setPe_sched (j : Nat) (p : Pe) : (s.setPe j p).sched = s.sched := rfl
@[simp] theorem State.setPe_img (j : Nat) (p : Pe) : (s.setPe j p).img = s.img := rfl
@[simp] theorem State.setPe_castle (j : Nat) (p : Pe) : (s.setPe j p).castle = s.castle := rfl
@[simp] theorem State.setPe_poison (j : Nat) (p : Pe) : (s.setPe j p).poison = s.poison := rfl
@[simp] theorem State.setPe_badWords (j : Nat) (p : Pe) : (s.setPe j p).badWords = s.badWords := rfl
@[simp] theorem State.setPe_acc (j : Nat) (p : Pe) : (s.setPe j p).acc = s.acc := rfl
@[simp] theorem State.setPe_cores (j : Nat) (p : Pe) : (s.setPe j p).cores = s.cores := rfl
@[simp] theorem State.setPe_pcie (j : Nat) (p : Pe) : (s.setPe j p).pcie = s.pcie := rfl
@[simp] theorem State.setPe_link (j : Nat) (p : Pe) : (s.setPe j p).link = s.link := rfl
@[simp] theorem State.setPe_pwr (j : Nat) (p : Pe) : (s.setPe j p).pwr = s.pwr := rfl
@[simp] theorem State.setPe_loops (j : Nat) (p : Pe) : (s.setPe j p).loops = s.loops := rfl
@[simp] theorem State.setPe_clk (j : Nat) (p : Pe) : (s.setPe j p).clk = s.clk := rfl
@[simp] theorem State.setPe_boot (j : Nat) (p : Pe) : (s.setPe j p).boot = s.boot := rfl
@[simp] theorem State.setPe_reg (j : Nat) (p : Pe) (r0 : Nat) : (s.setPe j p).reg r0 = s.reg r0 := by simp only [State.reg, State.setPe_csr]
@[simp] theorem State.setPe_rd (j : Nat) (p : Pe) (g : Fld) : (s.setPe j p).rd g = s.rd g := by simp only [State.rd, State.setPe_reg]
@[simp] theorem State.setPe_byte (j : Nat) (p : Pe) (r0 : Nat) : (s.setPe j p).byte r0 = s.byte r0 := by simp only [State.byte, State.blank, State.setPe_mem, State.setPe_rekey]
@[simp] theorem State.setPe_pe_self (j : Nat) (p : Pe) : (s.setPe j p).pe j = p := by simp [State.setPe, State.pe]
@[simp] theorem State.setPe_setPe (j : Nat) (p : Pe) (y : Pe) : (s.setPe j p).setPe j y = s.setPe j y := by simp [State.setPe]
theorem State.setPe_pe_ne (j : Nat) (p : Pe) {y : Nat} (h : j ≠ y) : (s.setPe j p).pe y = s.pe y := by simp [State.setPe, State.pe, mget_mset_ne _ _ _ _ h]

/-! ### setPulse -/

@[simp] theorem State.setPulse_pending (n : Nat) (p : Pulse) : (s.setPulse n p).pending = s.pending := rfl
@[simp] theorem State.setPulse_now (n : Nat) (p : Pulse) : (s.setPulse n p).now = s.now := rfl
@[simp] theorem State.setPulse_freeCtr (n : Nat) (p : Pulse) : (s.setPulse n p).freeCtr = s.freeCtr := rfl
@[simp] theorem State.setPulse_csr (n : Nat) (p : Pulse) : (s.setPulse n p).csr = s.csr := rfl
@[simp] theorem State.setPulse_mem (n : Nat) (p : Pulse) : (s.setPulse n p).mem = s.mem := rfl
@[simp] theorem State.setPulse_log (n : Nat) (p : Pulse) : (s.setPulse n p).log = s.log := rfl
@[simp] theorem State.setPulse_half (n : Nat) (p : Pulse) : (s.setPulse n p).half = s.half := rfl
@[simp] theorem State.setPulse_epoch (n : Nat) (p : Pulse) : (s.setPulse n p).epoch = s.epoch := rfl
@[simp] theorem State.setPulse_irq (n : Nat) (p : Pulse) : (s.setPulse n p).irq = s.irq := rfl
@[simp] theorem State.setPulse_msix (n : Nat) (p : Pulse) : (s.setPulse n p).msix = s.msix := rfl
@[simp] theorem State.setPulse_imsic (n : Nat) (p : Pulse) : (s.setPulse n p).imsic = s.imsic := rfl
@[simp] theorem State.setPulse_castleIrq (n : Nat) (p : Pulse) : (s.setPulse n p).castleIrq = s.castleIrq := rfl
@[simp] theorem State.setPulse_rdata (n : Nat) (p : Pulse) : (s.setPulse n p).rdata = s.rdata := rfl
@[simp] theorem State.setPulse_iq (n : Nat) (p : Pulse) : (s.setPulse n p).iq = s.iq := rfl
@[simp] theorem State.setPulse_port (n : Nat) (p : Pulse) : (s.setPulse n p).port = s.port := rfl
@[simp] theorem State.setPulse_aln (n : Nat) (p : Pulse) : (s.setPulse n p).aln = s.aln := rfl
@[simp] theorem State.setPulse_vox (n : Nat) (p : Pulse) : (s.setPulse n p).vox = s.vox := rfl
@[simp] theorem State.setPulse_sq (n : Nat) (p : Pulse) : (s.setPulse n p).sq = s.sq := rfl
@[simp] theorem State.setPulse_fab (n : Nat) (p : Pulse) : (s.setPulse n p).fab = s.fab := rfl
@[simp] theorem State.setPulse_net (n : Nat) (p : Pulse) : (s.setPulse n p).net = s.net := rfl
@[simp] theorem State.setPulse_unitSt (n : Nat) (p : Pulse) : (s.setPulse n p).unitSt = s.unitSt := rfl
@[simp] theorem State.setPulse_pl (n : Nat) (p : Pulse) : (s.setPulse n p).pl = s.pl := rfl
@[simp] theorem State.setPulse_ae (n : Nat) (p : Pulse) : (s.setPulse n p).ae = s.ae := rfl
@[simp] theorem State.setPulse_kv (n : Nat) (p : Pulse) : (s.setPulse n p).kv = s.kv := rfl
@[simp] theorem State.setPulse_mc (n : Nat) (p : Pulse) : (s.setPulse n p).mc = s.mc := rfl
@[simp] theorem State.setPulse_rekey (n : Nat) (p : Pulse) : (s.setPulse n p).rekey = s.rekey := rfl
@[simp] theorem State.setPulse_cc (n : Nat) (p : Pulse) : (s.setPulse n p).cc = s.cc := rfl
@[simp] theorem State.setPulse_rfx (n : Nat) (p : Pulse) : (s.setPulse n p).rfx = s.rfx := rfl
@[simp] theorem State.setPulse_dyn (n : Nat) (p : Pulse) : (s.setPulse n p).dyn = s.dyn := rfl
@[simp] theorem State.setPulse_mbx (n : Nat) (p : Pulse) : (s.setPulse n p).mbx = s.mbx := rfl
@[simp] theorem State.setPulse_sched (n : Nat) (p : Pulse) : (s.setPulse n p).sched = s.sched := rfl
@[simp] theorem State.setPulse_img (n : Nat) (p : Pulse) : (s.setPulse n p).img = s.img := rfl
@[simp] theorem State.setPulse_castle (n : Nat) (p : Pulse) : (s.setPulse n p).castle = s.castle := rfl
@[simp] theorem State.setPulse_poison (n : Nat) (p : Pulse) : (s.setPulse n p).poison = s.poison := rfl
@[simp] theorem State.setPulse_badWords (n : Nat) (p : Pulse) : (s.setPulse n p).badWords = s.badWords := rfl
@[simp] theorem State.setPulse_acc (n : Nat) (p : Pulse) : (s.setPulse n p).acc = s.acc := rfl
@[simp] theorem State.setPulse_cores (n : Nat) (p : Pulse) : (s.setPulse n p).cores = s.cores := rfl
@[simp] theorem State.setPulse_pcie (n : Nat) (p : Pulse) : (s.setPulse n p).pcie = s.pcie := rfl
@[simp] theorem State.setPulse_link (n : Nat) (p : Pulse) : (s.setPulse n p).link = s.link := rfl
@[simp] theorem State.setPulse_pwr (n : Nat) (p : Pulse) : (s.setPulse n p).pwr = s.pwr := rfl
@[simp] theorem State.setPulse_loops (n : Nat) (p : Pulse) : (s.setPulse n p).loops = s.loops := rfl
@[simp] theorem State.setPulse_clk (n : Nat) (p : Pulse) : (s.setPulse n p).clk = s.clk := rfl
@[simp] theorem State.setPulse_boot (n : Nat) (p : Pulse) : (s.setPulse n p).boot = s.boot := rfl
@[simp] theorem State.setPulse_reg (n : Nat) (p : Pulse) (r0 : Nat) : (s.setPulse n p).reg r0 = s.reg r0 := by simp only [State.reg, State.setPulse_csr]
@[simp] theorem State.setPulse_rd (n : Nat) (p : Pulse) (g : Fld) : (s.setPulse n p).rd g = s.rd g := by simp only [State.rd, State.setPulse_reg]
@[simp] theorem State.setPulse_byte (n : Nat) (p : Pulse) (r0 : Nat) : (s.setPulse n p).byte r0 = s.byte r0 := by simp only [State.byte, State.blank, State.setPulse_mem, State.setPulse_rekey]
@[simp] theorem State.setPulse_pulse_self (n : Nat) (p : Pulse) : (s.setPulse n p).pulse n = p := by simp [State.setPulse, State.pulse]
@[simp] theorem State.setPulse_setPulse (n : Nat) (p : Pulse) (y : Pulse) : (s.setPulse n p).setPulse n y = s.setPulse n y := by simp [State.setPulse]
theorem State.setPulse_pulse_ne (n : Nat) (p : Pulse) {y : Nat} (h : n ≠ y) : (s.setPulse n p).pulse y = s.pulse y := by simp [State.setPulse, State.pulse, mget_mset_ne _ _ _ _ h]

/-! ### dropHeld -/

@[simp] theorem State.dropHeld_pending (u : Nat) : (s.dropHeld u).pending = s.pending := rfl
@[simp] theorem State.dropHeld_now (u : Nat) : (s.dropHeld u).now = s.now := rfl
@[simp] theorem State.dropHeld_freeCtr (u : Nat) : (s.dropHeld u).freeCtr = s.freeCtr := rfl
@[simp] theorem State.dropHeld_csr (u : Nat) : (s.dropHeld u).csr = s.csr := rfl
@[simp] theorem State.dropHeld_mem (u : Nat) : (s.dropHeld u).mem = s.mem := rfl
@[simp] theorem State.dropHeld_log (u : Nat) : (s.dropHeld u).log = s.log := rfl
@[simp] theorem State.dropHeld_half (u : Nat) : (s.dropHeld u).half = s.half := rfl
@[simp] theorem State.dropHeld_irq (u : Nat) : (s.dropHeld u).irq = s.irq := rfl
@[simp] theorem State.dropHeld_msix (u : Nat) : (s.dropHeld u).msix = s.msix := rfl
@[simp] theorem State.dropHeld_imsic (u : Nat) : (s.dropHeld u).imsic = s.imsic := rfl
@[simp] theorem State.dropHeld_castleIrq (u : Nat) : (s.dropHeld u).castleIrq = s.castleIrq := rfl
@[simp] theorem State.dropHeld_rdata (u : Nat) : (s.dropHeld u).rdata = s.rdata := rfl
@[simp] theorem State.dropHeld_time (u : Nat) : (s.dropHeld u).time = s.time := rfl
@[simp] theorem State.dropHeld_iq (u : Nat) : (s.dropHeld u).iq = s.iq := rfl
@[simp] theorem State.dropHeld_port (u : Nat) : (s.dropHeld u).port = s.port := rfl
@[simp] theorem State.dropHeld_aln (u : Nat) : (s.dropHeld u).aln = s.aln := rfl
@[simp] theorem State.dropHeld_vox (u : Nat) : (s.dropHeld u).vox = s.vox := rfl
@[simp] theorem State.dropHeld_sq (u : Nat) : (s.dropHeld u).sq = s.sq := rfl
@[simp] theorem State.dropHeld_fab (u : Nat) : (s.dropHeld u).fab = s.fab := rfl
@[simp] theorem State.dropHeld_net (u : Nat) : (s.dropHeld u).net = s.net := rfl
@[simp] theorem State.dropHeld_unitSt (u : Nat) : (s.dropHeld u).unitSt = s.unitSt := rfl
@[simp] theorem State.dropHeld_pl (u : Nat) : (s.dropHeld u).pl = s.pl := rfl
@[simp] theorem State.dropHeld_ae (u : Nat) : (s.dropHeld u).ae = s.ae := rfl
@[simp] theorem State.dropHeld_kv (u : Nat) : (s.dropHeld u).kv = s.kv := rfl
@[simp] theorem State.dropHeld_mc (u : Nat) : (s.dropHeld u).mc = s.mc := rfl
@[simp] theorem State.dropHeld_rekey (u : Nat) : (s.dropHeld u).rekey = s.rekey := rfl
@[simp] theorem State.dropHeld_cc (u : Nat) : (s.dropHeld u).cc = s.cc := rfl
@[simp] theorem State.dropHeld_rfx (u : Nat) : (s.dropHeld u).rfx = s.rfx := rfl
@[simp] theorem State.dropHeld_dyn (u : Nat) : (s.dropHeld u).dyn = s.dyn := rfl
@[simp] theorem State.dropHeld_mbx (u : Nat) : (s.dropHeld u).mbx = s.mbx := rfl
@[simp] theorem State.dropHeld_sched (u : Nat) : (s.dropHeld u).sched = s.sched := rfl
@[simp] theorem State.dropHeld_img (u : Nat) : (s.dropHeld u).img = s.img := rfl
@[simp] theorem State.dropHeld_castle (u : Nat) : (s.dropHeld u).castle = s.castle := rfl
@[simp] theorem State.dropHeld_poison (u : Nat) : (s.dropHeld u).poison = s.poison := rfl
@[simp] theorem State.dropHeld_badWords (u : Nat) : (s.dropHeld u).badWords = s.badWords := rfl
@[simp] theorem State.dropHeld_acc (u : Nat) : (s.dropHeld u).acc = s.acc := rfl
@[simp] theorem State.dropHeld_cores (u : Nat) : (s.dropHeld u).cores = s.cores := rfl
@[simp] theorem State.dropHeld_pcie (u : Nat) : (s.dropHeld u).pcie = s.pcie := rfl
@[simp] theorem State.dropHeld_link (u : Nat) : (s.dropHeld u).link = s.link := rfl
@[simp] theorem State.dropHeld_pwr (u : Nat) : (s.dropHeld u).pwr = s.pwr := rfl
@[simp] theorem State.dropHeld_loops (u : Nat) : (s.dropHeld u).loops = s.loops := rfl
@[simp] theorem State.dropHeld_clk (u : Nat) : (s.dropHeld u).clk = s.clk := rfl
@[simp] theorem State.dropHeld_boot (u : Nat) : (s.dropHeld u).boot = s.boot := rfl
@[simp] theorem State.dropHeld_reg (u : Nat) (r0 : Nat) : (s.dropHeld u).reg r0 = s.reg r0 := by simp only [State.reg, State.dropHeld_csr]
@[simp] theorem State.dropHeld_rd (u : Nat) (g : Fld) : (s.dropHeld u).rd g = s.rd g := by simp only [State.rd, State.dropHeld_reg]
@[simp] theorem State.dropHeld_byte (u : Nat) (r0 : Nat) : (s.dropHeld u).byte r0 = s.byte r0 := by simp only [State.byte, State.blank, State.dropHeld_mem, State.dropHeld_rekey]

/-! ### setVox -/

@[simp] theorem State.setVox_pending (v : VoxSt) : (s.setVox v).pending = s.pending := by simp [State.setVox]
@[simp] theorem State.setVox_now (v : VoxSt) : (s.setVox v).now = s.now := by simp [State.setVox]
@[simp] theorem State.setVox_freeCtr (v : VoxSt) : (s.setVox v).freeCtr = s.freeCtr := by simp [State.setVox]
@[simp] theorem State.setVox_mem (v : VoxSt) : (s.setVox v).mem = s.mem := by simp [State.setVox]
@[simp] theorem State.setVox_log (v : VoxSt) : (s.setVox v).log = s.log := by simp [State.setVox]
@[simp] theorem State.setVox_half (v : VoxSt) : (s.setVox v).half = s.half := by simp [State.setVox]
@[simp] theorem State.setVox_epoch (v : VoxSt) : (s.setVox v).epoch = s.epoch := by simp [State.setVox]
@[simp] theorem State.setVox_irq (v : VoxSt) : (s.setVox v).irq = s.irq := by simp [State.setVox]
@[simp] theorem State.setVox_msix (v : VoxSt) : (s.setVox v).msix = s.msix := by simp [State.setVox]
@[simp] theorem State.setVox_imsic (v : VoxSt) : (s.setVox v).imsic = s.imsic := by simp [State.setVox]
@[simp] theorem State.setVox_castleIrq (v : VoxSt) : (s.setVox v).castleIrq = s.castleIrq := by simp [State.setVox]
@[simp] theorem State.setVox_rdata (v : VoxSt) : (s.setVox v).rdata = s.rdata := by simp [State.setVox]
@[simp] theorem State.setVox_time (v : VoxSt) : (s.setVox v).time = s.time := by simp [State.setVox]
@[simp] theorem State.setVox_iq (v : VoxSt) : (s.setVox v).iq = s.iq := by simp [State.setVox]
@[simp] theorem State.setVox_port (v : VoxSt) : (s.setVox v).port = s.port := by simp [State.setVox]
@[simp] theorem State.setVox_aln (v : VoxSt) : (s.setVox v).aln = s.aln := by simp [State.setVox]
@[simp] theorem State.setVox_sq (v : VoxSt) : (s.setVox v).sq = s.sq := by simp [State.setVox]
@[simp] theorem State.setVox_fab (v : VoxSt) : (s.setVox v).fab = s.fab := by simp [State.setVox]
@[simp] theorem State.setVox_net (v : VoxSt) : (s.setVox v).net = s.net := by simp [State.setVox]
@[simp] theorem State.setVox_unitSt (v : VoxSt) : (s.setVox v).unitSt = s.unitSt := by simp [State.setVox]
@[simp] theorem State.setVox_pl (v : VoxSt) : (s.setVox v).pl = s.pl := by simp [State.setVox]
@[simp] theorem State.setVox_ae (v : VoxSt) : (s.setVox v).ae = s.ae := by simp [State.setVox]
@[simp] theorem State.setVox_kv (v : VoxSt) : (s.setVox v).kv = s.kv := by simp [State.setVox]
@[simp] theorem State.setVox_mc (v : VoxSt) : (s.setVox v).mc = s.mc := by simp [State.setVox]
@[simp] theorem State.setVox_rekey (v : VoxSt) : (s.setVox v).rekey = s.rekey := by simp [State.setVox]
@[simp] theorem State.setVox_cc (v : VoxSt) : (s.setVox v).cc = s.cc := by simp [State.setVox]
@[simp] theorem State.setVox_rfx (v : VoxSt) : (s.setVox v).rfx = s.rfx := by simp [State.setVox]
@[simp] theorem State.setVox_dyn (v : VoxSt) : (s.setVox v).dyn = s.dyn := by simp [State.setVox]
@[simp] theorem State.setVox_mbx (v : VoxSt) : (s.setVox v).mbx = s.mbx := by simp [State.setVox]
@[simp] theorem State.setVox_sched (v : VoxSt) : (s.setVox v).sched = s.sched := by simp [State.setVox]
@[simp] theorem State.setVox_img (v : VoxSt) : (s.setVox v).img = s.img := by simp [State.setVox]
@[simp] theorem State.setVox_castle (v : VoxSt) : (s.setVox v).castle = s.castle := by simp [State.setVox]
@[simp] theorem State.setVox_poison (v : VoxSt) : (s.setVox v).poison = s.poison := by simp [State.setVox]
@[simp] theorem State.setVox_badWords (v : VoxSt) : (s.setVox v).badWords = s.badWords := by simp [State.setVox]
@[simp] theorem State.setVox_acc (v : VoxSt) : (s.setVox v).acc = s.acc := by simp [State.setVox]
@[simp] theorem State.setVox_cores (v : VoxSt) : (s.setVox v).cores = s.cores := by simp [State.setVox]
@[simp] theorem State.setVox_pcie (v : VoxSt) : (s.setVox v).pcie = s.pcie := by simp [State.setVox]
@[simp] theorem State.setVox_link (v : VoxSt) : (s.setVox v).link = s.link := by simp [State.setVox]
@[simp] theorem State.setVox_pwr (v : VoxSt) : (s.setVox v).pwr = s.pwr := by simp [State.setVox]
@[simp] theorem State.setVox_loops (v : VoxSt) : (s.setVox v).loops = s.loops := by simp [State.setVox]
@[simp] theorem State.setVox_clk (v : VoxSt) : (s.setVox v).clk = s.clk := by simp [State.setVox]
@[simp] theorem State.setVox_boot (v : VoxSt) : (s.setVox v).boot = s.boot := by simp [State.setVox]
@[simp] theorem State.setVox_byte (v : VoxSt) (r0 : Nat) : (s.setVox v).byte r0 = s.byte r0 := by simp only [State.byte, State.blank, State.setVox_mem, State.setVox_rekey]

end Sys2Proof.Machine
end

