-- ==== Sys2Proof/Laws/Units.lean ====
section
/-!
SUPPORT. Units: the fields that show their state and epoch, what the state code reads after it is set, and what setting it leaves.
-/

namespace Sys2Proof.Machine

variable (s : State)

/-- A bit below `k` is a bit of the number modulo 2 to `k`. -/
theorem bit_of_mod {v m k i : Nat} (h : v % 2 ^ k = m) (hi : i < k) : bit v i = bit m i := by
  have e : v / 2 ^ i % 2 = m / 2 ^ i % 2 := by
    have := bits_mod v i 1 k (by omega)
    simpa [bits, h] using this.symm
  simp [bit, e]

theorem bit_eq_testBit (v i : Nat) : bit v i = v.testBit i := by
  rw [Nat.testBit_eq_decide_div_mod_eq]; rfl

/-- A write that carries an action bit has it set, whatever half it is made to. -/
theorem withBit_bit (d : WData) (i : Fin 32) : bit (d.withBit i.val).bits1 i.val = true := by
  have h1 : ∀ i : Fin 32, Half.both.mask.testBit i.val = true := by decide
  have h2 : ∀ i : Fin 32, Half.low.mask.testBit i.val = true := by decide
  have hm : ∀ h : Half, h ≠ .high → h.mask.testBit i.val = true := by
    rintro (_ | _ | _) h
    · exact h1 i
    · exact h2 i
    · exact absurd rfl h
  have hp : (BitVec.ofNat 64 (2 ^ i.val)).toNat.testBit i.val = true := by
    rw [BitVec.toNat_ofNat, Nat.mod_eq_of_lt (Nat.pow_lt_pow_right (by decide) (by omega)), Nat.testBit_two_pow_self]
  rw [bit_eq_testBit, WData.bits1, WData.withBit, Nat.testBit_and, BitVec.toNat_or, Nat.testBit_or, hp, Bool.or_true, Bool.true_and]
  refine hm _ ?_
  dsimp only
  split
  · decide
  · assumption

/-! ### The fields -/

theorem stateFld_square (n : Fin 64) : stateFld (sqUnit n.val) = some (F.SQ_STATE_UNIT_STATE n.val) := by
  have h := n.isLt
  simp [stateFld, sqUnit, show (0x1000 + n.val) / 0x1000 = 1 by omega, show (0x1000 + n.val) % 0x1000 = n.val by omega]

theorem stateFld_plane (p : Fin 32) : stateFld (planeUnit p.val) = some (F.PL_STATE_UNIT_STATE p.val) := by
  have h := p.isLt
  simp [stateFld, planeUnit, show (0x2000 + p.val) / 0x1000 = 2 by omega, show (0x2000 + p.val) % 0x1000 = p.val by omega]

theorem stateFld_engine (e : Fin 8) : stateFld (engineUnit e.val) = some (F.AE_STATE_UNIT_STATE e.val) := by
  have h := e.isLt
  simp [stateFld, engineUnit, show (0x3000 + e.val) / 0x1000 = 3 by omega, show (0x3000 + e.val) % 0x1000 = e.val by omega]

theorem stateFld_cc : stateFld ccUnit = some F.CC_STATE_UNIT_STATE := rfl

theorem stateFld_dyn : stateFld dynUnit = some F.DYN_STATE_UNIT_STATE := rfl

/-! ### The state code set -/

theorem State.setUstate_fld {u : Nat} {f : Fld} (h : stateFld u = some f) (v : Nat) : s.setUstate u v = s.wr f v := by
  simp only [State.setUstate, h]

theorem State.setUstate_none {u : Nat} (h : stateFld u = none) (v : Nat) :
    s.setUstate u v = { s with unitSt := mset US.ready s.unitSt u v } := by
  simp only [State.setUstate, h]

/-- Setting a unit's state leaves the fields of every other register. -/
theorem State.rd_setUstate_ne {u : Nat} (g : Fld) (v : Nat) (h : ∀ f, stateFld u = some f → f.reg ≠ g.reg) :
    (s.setUstate u v).rd g = s.rd g := by
  cases hf : stateFld u with
  | none => rw [s.setUstate_none hf]; rfl
  | some f => rw [s.setUstate_fld hf]; exact s.rd_wr_ne f g v (h f hf)

/-! ### Capabilities: whether a unit is present is read from registers -/

theorem State.present_congr {s t : State} (h : t.csr = s.csr) (u : Nat) : t.present u = s.present u := by
  simp only [State.present, State.rd_congr h, State.on_congr h]

theorem State.ustate_congr {s t : State} (h : t.csr = s.csr) (hu : t.unitSt = s.unitSt) (u : Nat) : t.ustate u = s.ustate u := by
  simp only [State.ustate, State.present_congr h, State.rd_congr h, hu]

theorem State.serving_congr {s t : State} (h : t.csr = s.csr) (hu : t.unitSt = s.unitSt) (u : Nat) : t.serving u = s.serving u := by
  simp only [State.serving, State.ustate_congr h hu]

/-- The registers the capability masks stand in. -/
def capRegs : List Nat := [F.SQUARE_MASK_SQUARES.reg, F.PLANE_MASK_PLANES.reg, F.AE_MASK_ENGINES.reg, F.FEATURE_MASK_DYN.reg,
  F.MC_STATUS_PRESENT.reg, F.CORE_MASK_CORES.reg]

/-- A field outside the capability masks does not change what is present. -/
theorem State.present_wr (f : Fld) (v u : Nat) (h : ∀ r ∈ capRegs, f.reg ≠ r) : (s.wr f v).present u = s.present u := by
  simp only [capRegs, List.mem_cons, List.not_mem_nil, or_false, forall_eq_or_imp, forall_eq] at h
  obtain ⟨h1, h2, h3, h4, h5, h6⟩ := h
  have ho : (s.wr f v).on F.FEATURE_MASK_DYN = s.on F.FEATURE_MASK_DYN := by rw [State.on, State.on, s.rd_wr_ne f _ v h4]
  rw [State.present, State.present, ho, s.rd_wr_ne f F.SQUARE_MASK_SQUARES v h1, s.rd_wr_ne f F.PLANE_MASK_PLANES v h2,
    s.rd_wr_ne f F.AE_MASK_ENGINES v h3, s.rd_wr_ne f F.MC_STATUS_PRESENT v h5, s.rd_wr_ne f F.CORE_MASK_CORES v h6]

/-- A field outside the capability masks and the unit's own state field does not change the unit's state. -/
theorem State.ustate_wr (f : Fld) (v u : Nat) (h : ∀ r ∈ capRegs, f.reg ≠ r) (hs : ∀ g, stateFld u = some g → f.reg ≠ g.reg) :
    (s.wr f v).ustate u = s.ustate u := by
  rw [State.ustate, State.ustate, s.present_wr f v u h]
  cases hg : stateFld u with
  | none => simp only [State.wr_unitSt]
  | some g => simp only [s.rd_wr_ne f g v (hs g hg)]

theorem State.serving_wr (f : Fld) (v u : Nat) (h : ∀ r ∈ capRegs, f.reg ≠ r) (hs : ∀ g, stateFld u = some g → f.reg ≠ g.reg) :
    (s.wr f v).serving u = s.serving u := by
  rw [State.serving, State.serving, s.ustate_wr f v u h hs]

theorem State.ownerOf_congr {s t : State} (h : t.csr = s.csr) (u : Nat) : t.ownerOf u = s.ownerOf u := by
  simp only [State.ownerOf, State.rd_congr h]

/-! ### Partitions: ownership is read from the PART block -/

theorem State.rd_wr_part (f g : Fld) (v : Nat) (h : f.reg < R.PART_CTRL) (hg : R.PART_CTRL ≤ g.reg) : (s.wr f v).rd g = s.rd g :=
  s.rd_wr_ne f g v (by omega)

/-- A field below the PART block does not change what belongs to which partition. -/
theorem State.ownerOf_wr (f : Fld) (v u : Nat) (h : f.reg < R.PART_CTRL) : (s.wr f v).ownerOf u = s.ownerOf u := by
  have k (g : Nat → Fld) (hg : ∀ p, R.PART_CTRL ≤ (g p).reg) (p : Nat) : (s.wr f v).rd (g p) = s.rd (g p) :=
    s.rd_wr_part f (g p) v h (hg p)
  simp only [State.ownerOf,
    k F.PART_SQUARES_SQUARES (by intro p; simp only [F.PART_SQUARES_SQUARES, R.PART_SQUARES, R.PART_CTRL]; omega),
    k F.PART_BOARD_PLANES (by intro p; simp only [F.PART_BOARD_PLANES, R.PART_BOARD, R.PART_CTRL]; omega),
    k F.PART_BOARD_ENGINES (by intro p; simp only [F.PART_BOARD_ENGINES, R.PART_BOARD, R.PART_CTRL]; omega),
    k F.PART_BOARD_CORES (by intro p; simp only [F.PART_BOARD_CORES, R.PART_BOARD, R.PART_CTRL]; omega),
    k F.PART_FRAME_UNITS (by intro p; simp only [F.PART_FRAME_UNITS, R.PART_FRAME, R.PART_CTRL]; omega),
    k F.PART_FRAME_SLOTS (by intro p; simp only [F.PART_FRAME_SLOTS, R.PART_FRAME, R.PART_CTRL]; omega),
    k F.PART_TIME_TB (by intro p; simp only [F.PART_TIME_TB, R.PART_TIME, R.PART_CTRL]; omega),
    k F.PART_TIME_PH (by intro p; simp only [F.PART_TIME_PH, R.PART_TIME, R.PART_CTRL]; omega),
    k F.PART_PE_EVENTS (by intro p; simp only [F.PART_PE_EVENTS, R.PART_PE, R.PART_CTRL]; omega),
    k F.PART_TIME_PULSE_OUT (by intro p; simp only [F.PART_TIME_PULSE_OUT, R.PART_TIME, R.PART_CTRL]; omega),
    k F.PART_TIME_CAPTURE_IN (by intro p; simp only [F.PART_TIME_CAPTURE_IN, R.PART_TIME, R.PART_CTRL]; omega)]

theorem State.reqPart_wr (f : Fld) (v : Nat) (r : Req) (h : f.reg < R.PART_CTRL) : (s.wr f v).reqPart r = s.reqPart r := by
  cases r with
  | square n =>
    have hn : f.reg ≠ R.PART_SQ_SHARE n.val := by
      simp only [R.PART_CTRL] at h; simp only [R.PART_SQ_SHARE]; omega
    simp only [State.reqPart, s.reg_wr_ne f _ v hn, s.ownerOf_wr f v _ h]
  | core c => simp only [State.reqPart, s.ownerOf_wr f v _ h]
  | _ => rfl

theorem State.reqKey_wr (f : Fld) (v : Nat) (r : Req) (h : f.reg < R.PART_CTRL) : (s.wr f v).reqKey r = s.reqKey r := by
  cases r <;> simp only [State.reqKey, s.reqPart_wr f v _ h]

theorem State.mayUse_wr (f : Fld) (v : Nat) (r : Req) (u : Nat) (h : f.reg < R.PART_CTRL) : (s.wr f v).mayUse r u = s.mayUse r u := by
  simp only [State.mayUse, s.reqPart_wr f v r h, s.ownerOf_wr f v u h]

theorem State.reqPart_congr {s t : State} (h : t.csr = s.csr) (r : Req) : t.reqPart r = s.reqPart r := by
  cases r <;> simp only [State.reqPart, State.reg_congr h, State.ownerOf_congr h]

theorem State.reqKey_congr {s t : State} (h : t.csr = s.csr) (r : Req) : t.reqKey r = s.reqKey r := by
  cases r <;> simp only [State.reqKey, State.reqPart_congr h]

theorem State.mayUse_congr {s t : State} (h : t.csr = s.csr) (r : Req) (u : Nat) : t.mayUse r u = s.mayUse r u := by
  simp only [State.mayUse, State.reqPart_congr h, State.ownerOf_congr h]

end Sys2Proof.Machine
end

