-- ==== Sys2Proof/Laws/Square.lean ====
section
/-!
SUPPORT. A square's sequencer: what it does with the instruction its pc names, where no interrupt is to be taken.
-/

namespace Sys2Proof.Machine

variable (s : State)

/-- With no interrupt to take, the sequencer does with a fetched instruction what the command asks, if it is the command's. -/
theorem State.sqIssue_word {n raw len : Nat} {w : Option Nat} (mine : Option Nat → Bool) (act : State → Nat → Option Nat → Nat → State)
    (hi : s.sqIssues n = true) (hq : s.sqIrqs n = []) (hf : s.fetchAt n (s.sqr n).pc = .word raw w len) :
    s.sqIssue n mine act = if mine w then act s raw w len else s := by
  simp [State.sqIssue, hi, hq, hf]

/-- A tensor instruction the pc names is issued with the fence lifted. -/
theorem State.txIssue_at {n w : Nat} {t : Tx} (mine : Tx → Bool) (act : State → Tx → Nat → State) (h : s.AtTx n w t) (hm : mine t = true) :
    s.txIssue n mine act = act (s.unfenced n) t w := by
  obtain ⟨hi, hq, hf, hd, hn⟩ := h
  rw [State.txIssue, s.sqIssue_word _ _ hi hq hf]
  simp [hd, hm, hn, State.unfenced]

theorem State.unfenced_sqr (n : Nat) : (s.unfenced n).sqr n = { s.sqr n with fence := false } := by
  simp [State.unfenced]

@[simp] theorem State.unfenced_sqr_pc (n : Nat) : ((s.unfenced n).sqr n).pc = (s.sqr n).pc := by rw [s.unfenced_sqr]
@[simp] theorem State.unfenced_sqr_x (n : Nat) : ((s.unfenced n).sqr n).x = (s.sqr n).x := by rw [s.unfenced_sqr]
@[simp] theorem State.unfenced_sqr_mie (n : Nat) : ((s.unfenced n).sqr n).mie = (s.sqr n).mie := by rw [s.unfenced_sqr]
@[simp] theorem State.unfenced_sqr_mpie (n : Nat) : ((s.unfenced n).sqr n).mpie = (s.sqr n).mpie := by rw [s.unfenced_sqr]
@[simp] theorem State.unfenced_sqr_ie (n : Nat) : ((s.unfenced n).sqr n).ie = (s.sqr n).ie := by rw [s.unfenced_sqr]
@[simp] theorem State.unfenced_sqr_mtvec (n : Nat) : ((s.unfenced n).sqr n).mtvec = (s.sqr n).mtvec := by rw [s.unfenced_sqr]
@[simp] theorem State.unfenced_sqr_mscratch (n : Nat) : ((s.unfenced n).sqr n).mscratch = (s.sqr n).mscratch := by rw [s.unfenced_sqr]
@[simp] theorem State.unfenced_sqr_mepc (n : Nat) : ((s.unfenced n).sqr n).mepc = (s.sqr n).mepc := by rw [s.unfenced_sqr]
@[simp] theorem State.unfenced_sqr_mcause (n : Nat) : ((s.unfenced n).sqr n).mcause = (s.sqr n).mcause := by rw [s.unfenced_sqr]
@[simp] theorem State.unfenced_sqr_mtval (n : Nat) : ((s.unfenced n).sqr n).mtval = (s.sqr n).mtval := by rw [s.unfenced_sqr]
@[simp] theorem State.unfenced_sqr_msgMask (n : Nat) : ((s.unfenced n).sqr n).msgMask = (s.sqr n).msgMask := by rw [s.unfenced_sqr]
@[simp] theorem State.unfenced_sqr_cycle0 (n : Nat) : ((s.unfenced n).sqr n).cycle0 = (s.sqr n).cycle0 := by rw [s.unfenced_sqr]
@[simp] theorem State.unfenced_sqr_instret (n : Nat) : ((s.unfenced n).sqr n).instret = (s.sqr n).instret := by rw [s.unfenced_sqr]
@[simp] theorem State.unfenced_sqr_ts (n : Nat) : ((s.unfenced n).sqr n).ts = (s.sqr n).ts := by rw [s.unfenced_sqr]
@[simp] theorem State.unfenced_sqr_fresh (n : Nat) : ((s.unfenced n).sqr n).fresh = (s.sqr n).fresh := by rw [s.unfenced_sqr]
@[simp] theorem State.unfenced_sqr_loading (n : Nat) : ((s.unfenced n).sqr n).loading = (s.sqr n).loading := by rw [s.unfenced_sqr]
@[simp] theorem State.unfenced_sqr_resting (n : Nat) : ((s.unfenced n).sqr n).resting = (s.sqr n).resting := by rw [s.unfenced_sqr]
@[simp] theorem State.unfenced_sqr_rested (n : Nat) : ((s.unfenced n).sqr n).rested = (s.sqr n).rested := by rw [s.unfenced_sqr]
@[simp] theorem State.unfenced_sqr_tags (n : Nat) : ((s.unfenced n).sqr n).tags = (s.sqr n).tags := by rw [s.unfenced_sqr]
@[simp] theorem State.unfenced_sqr_txq (n : Nat) : ((s.unfenced n).sqr n).txq = (s.sqr n).txq := by rw [s.unfenced_sqr]
@[simp] theorem State.unfenced_sqr_arr (n : Nat) : ((s.unfenced n).sqr n).arr = (s.sqr n).arr := by rw [s.unfenced_sqr]
@[simp] theorem State.unfenced_sqr_inq (n : Nat) : ((s.unfenced n).sqr n).inq = (s.sqr n).inq := by rw [s.unfenced_sqr]
@[simp] theorem State.unfenced_sqr_cache (n : Nat) : ((s.unfenced n).sqr n).cache = (s.sqr n).cache := by rw [s.unfenced_sqr]
@[simp] theorem State.unfenced_sqr_others (n : Nat) : ((s.unfenced n).sqr n).others = (s.sqr n).others := by rw [s.unfenced_sqr]
@[simp] theorem State.unfenced_sqr_orphans (n : Nat) : ((s.unfenced n).sqr n).orphans = (s.sqr n).orphans := by rw [s.unfenced_sqr]

@[simp] theorem State.unfenced_sqr_fence (n : Nat) : ((s.unfenced n).sqr n).fence = false := by rw [s.unfenced_sqr]

@[simp] theorem State.unfenced_rx (n i : Nat) : ((s.unfenced n).sqr n).rx i = (s.sqr n).rx i := by rw [s.unfenced_sqr]; rfl

@[simp] theorem State.unfenced_tag (n i : Nat) : ((s.unfenced n).sqr n).tag i = (s.sqr n).tag i := by rw [s.unfenced_sqr]; rfl

@[simp] theorem State.unfenced_freeTag (n : Nat) : ((s.unfenced n).sqr n).freeTag = (s.sqr n).freeTag := by rw [s.unfenced_sqr]; rfl

@[simp] theorem State.unfenced_outMask (n : Nat) : ((s.unfenced n).sqr n).outMask = (s.sqr n).outMask := by rw [s.unfenced_sqr]; rfl

@[simp] theorem State.unfenced_doneMask (n : Nat) : ((s.unfenced n).sqr n).doneMask = (s.sqr n).doneMask := by rw [s.unfenced_sqr]; rfl

@[simp] theorem State.unfenced_pickQueue (n i : Nat) : ((s.unfenced n).sqr n).pickQueue i = (s.sqr n).pickQueue i := by
  rw [s.unfenced_sqr]; rfl

@[simp] theorem State.unfenced_on (n : Nat) (f : Fld) : (s.unfenced n).on f = s.on f := State.on_congr (s.setSq_csr _ _) f

@[simp] theorem State.unfenced_rd (n : Nat) (f : Fld) : (s.unfenced n).rd f = s.rd f := by simp [State.unfenced]

@[simp] theorem State.unfenced_byte (n a : Nat) : (s.unfenced n).byte a = s.byte a := by simp [State.unfenced]

@[simp] theorem State.unfenced_bytes (n a k : Nat) : (s.unfenced n).bytes a k = s.bytes a k := by
  induction k generalizing a with
  | zero => rfl
  | succ k ih => simp [State.bytes, ih]

/-- The bounds of the store are read from registers. -/
theorem State.storeBadRange_congr {s t : State} (n a k : Nat) (hc : t.csr = s.csr) : t.storeBadRange n a k = s.storeBadRange n a k := by
  have h1 : t.shared n = s.shared n := by rw [State.shared, State.shared, State.on_congr hc]
  have h2 : t.secondRuns n = s.secondRuns n := by rw [State.secondRuns, State.secondRuns, h1, State.on_congr hc]
  have h3 : t.inRest n a k = s.inRest n a k := by rw [State.inRest, State.inRest, State.on_congr hc]
  rw [State.storeBadRange, State.storeBadRange, State.storeOut, State.storeOut, State.ctxLo, State.ctxLo, State.ctxHi, State.ctxHi, h1, h2, h3,
    State.rd_congr hc]

@[simp] theorem State.unfenced_storeBadRange (n a k : Nat) : (s.unfenced n).storeBadRange n a k = s.storeBadRange n a k :=
  State.storeBadRange_congr n a k (s.setSq_csr _ _)

end Sys2Proof.Machine
end

