-- ==== Sys2Proof/Tests/Slice0.lean ====
section
/-!
SUPPORT. Tests of the model, and the witnesses of the statements' hypotheses, as named theorems.
-/

set_option linter.unusedVariables false
set_option Elab.async false

namespace Sys2Proof.Machine

/-! ### Small states -/

/-- The state after reset with some register fields set. -/
def st (l : List (Fld × Nat)) : State := l.foldl (fun s e => s.wr e.1 e.2) State.reset

/-- The state a step goes on to. -/
def after (s : State) : Out → State
  | .next t => t
  | _ => s

/-- Slot 0 enabled on port 0 of a type, with a ring in the ingest memory. -/
def slotOn (typ : Nat) : List (Fld × Nat) :=
  [(F.STREAM_SRC_ENABLE 0, 1), (F.STREAM_SRC_PORT_TYPE 0, typ), (F.IQ_RING_CFG_SIZE_64 0, 64), (F.IQ_RING_CFG_MAX_ITEM_64 0, 16),
    (F.IQ_RING_BASE_BASE 0, ingestBase)]

def csiSt : State := st (slotOn 1 ++ [(F.CSI_CTRL_ENABLE 0, 1), (F.CSI_CTRL_LANE_RATE_MBPS 0, 1000), (F.STREAM_SRC_MAX_ROWS 0, 1),
  (F.STREAM_SRC_ROW_STRIDE_64 0, 1), (F.STREAM_SRC_DATA_TYPE 0, 42)])
def ethSt : State := st (slotOn 2 ++ [(F.ETH_CTRL_ENABLE 0, 1), (F.STREAM_SRC_DEFAULT 0, 1)])
def canSt : State := st (slotOn 3 ++ [(F.CAN_CTRL_ENABLE 0, 1)])
def spiSt : State := st (slotOn 4 ++ [(F.SPI_CTRL_ENABLE 0, 1), (F.SPI_CTRL_PERIOD_US 0, 10)])
def slotSt (l : List (Fld × Nat)) : State := st (slotOn 3 ++ [(F.CAN_CTRL_ENABLE 0, 1)] ++ l)

def alnSt : State := { st [(F.ALN_RING_CFG_SLOT_64, 65535)] with aln := { State.reset.aln with inst := [(0, 0)] } }
def voxSt : State :=
  { (st [(F.PART_MEM_SIZE_2M 0 0, 16), (F.VOX_CFG_HASH_LOG, 10), (F.VOX_BEV_CFG_CHANNELS, 1), (F.VOX_OUT_CFG_SLOT_SIZE_4K, 64),
    (F.VOX_OUT_BASE_BASE, 0x400000)]).setOwner 0 0x7000 true with vox := { State.reset.vox with trig := [⟨0, 0, none⟩] } }
def egSt : State := (st []).setEg 0 { eg0 with wait := some ⟨[1], 0⟩ }
def egCanSt : State := (st [(F.CAN_CTRL_ENABLE 0, 1), (F.EG_CFG_PORT_TYPE 0, 1)]).setEg 0 { eg0 with wait := some ⟨[1], 0⟩ }

/-- Square 0 runs a word at pc 0; x11 and x12 hold small values. -/
def txSt (w : Nat) : State :=
  (((State.reset.setUstate 0x1000 US.busy).wr (F.SQ_STATE_RUN 0) runRunning).setSq 0 { sq0 with x := [(11, 0x100), (12, 1)] }).store
    (storeBase 0) (toBytes 4 w)
def txTagSt (w : Nat) : State := (txSt w).setSq 0 (((txSt w).sqr 0).setTag 8 ⟨1, 0, none⟩)

def msg1 : Msg := ⟨0x1000, 0, false, 0x1001, 0, 3, 0, 1, 1, 0xFF, 0, 0, 0, 0, 0, []⟩
def opOf (lane fn : Nat) : TxOp := ⟨lane, false, fn, 0, List.replicate 64 0, 0, true, none, none⟩
def sqOpSt (o : TxOp) : State := (txSt 19).setSq 0 { (txSt 19).sqr 0 with txq := [o] }
def opSt (lane fn : Nat) : State := sqOpSt (opOf lane fn)
def dmaX : Xfer := ⟨[⟨some 0x800000000000, none, 0x800000000000, none, 2, none⟩], [], St.ok, false, false, none⟩
def dmaOp : TxOp := { opOf 4 0 with xfer := some dmaX }
def ansMsg : Msg := { msg1 with kind := 2, op := 0x1F, tag := 0xFF }

/-- Plane 0 ready with valid weights, and a job of one vector. -/
def plMsg : Msg := { msg1 with
  dest := 0x2000, kind := 0, tag := 0
  payload := toBytes 8 (storeBase 0) ++ toBytes 4 16 ++ toBytes 2 1 ++ toBytes 2 1 ++ toBytes 2 0 ++ toBytes 2 0 ++ toBytes 2 1 ++
    toBytes 1 1 ++ toBytes 1 1 ++ toBytes 8 0 ++ toBytes 8 (storeBase 0 + 0x1000) ++ toBytes 4 16 ++ toBytes 4 0 ++ toBytes 16 0 }
def plSt : State := ((State.reset.setUstate 0x2000 US.ready).wr (F.PL_STATE_WEIGHTS_VALID 0) 1)

/-- Engine 0 ready, with the cache enabled. -/
def kvMsg (op : Nat) : Msg := { msg1 with dest := 0x3000, kind := 0, tag := 0, payload := padTo 64 ([BitVec.ofNat 8 op, 0, 0, 0] ++
  toBytes 4 (if op = 2 ∨ op = 3 then 0x700 else 0) ++ toBytes 4 (if op = 2 ∨ op = 7 then 1 else 0) ++ toBytes 4 (if op = 3 then 1 else 0)) }
def kvSt : State := (st [(F.KV_CTRL_ENABLE, 1), (F.KV_DIR_CFG_DIR_LOG, 10)]).setUstate 0x3000 US.ready
def kvQ (op : Nat) : State := kvSt.setEng 0 { ae0 with queue := [kvMsg op] }
def kvB (op : Nat) : AeRun × State := (kvQ op).aeBegin 0 (kvMsg op)
def kvK (op : Nat) : KvJob := ⟨0, (kvB op).1.job, (kvB op).2.ownerOf 0x3000, (kvB op).2.masterOf 0x3000, (kvMsg op).payload⟩

def ccMsg (op : Nat) : Msg := { msg1 with dest := ccUnit, kind := 0, tag := 0, payload := padTo 64 [BitVec.ofNat 8 op] }
def ccMsgDl : Msg := { ccMsg joCheck with payload := padTo 56 [BitVec.ofNat 8 joCheck] ++ toBytes 4 1 ++ toBytes 4 0 }
def ccSt (op : Nat) : State := State.reset.setCc { State.reset.cc with queue := [ccMsg op] }

def dynMsg (op : Nat) : Msg := { msg1 with dest := dynUnit, kind := 0, tag := 0, payload := padTo 64 [BitVec.ofNat 8 op] }
def dynSt (op : Nat) : State := ((st [(F.FEATURE_MASK_DYN, 1)]).setUstate dynUnit US.ready).setDyn { State.reset.dyn with queue := [dynMsg op] }
def dynM : DynModel := ⟨0, false, ⟨0, 0, 0⟩, [], [], [], [], []⟩
def dynRunSt : State := ((dynSt djModel).setDyn { State.reset.dyn with model := some dynM }).wr F.DYN_CTRL_RUN 1 |>.wr F.DYN_STATE_TASKS_VALID 1 |>.wr F.DYN_CFG_TRIGGER 0

/-- A command of MB_1, accepted and not run. -/
def mbEx (op unit : Nat) (args : List Nat) : MbExec :=
  ⟨toBytes 4 0 ++ toBytes 1 op ++ [0] ++ toBytes 2 unit ++ padTo 56 (args.flatMap (toBytes 8)), true, none, [], false, 0, [], false, []⟩
def mbSt (op unit : Nat) (args : List Nat) : State := State.reset.setExec 1 (some (mbEx op unit args))

/-- The bytes that are not zero of a descriptor at a of four INT8 elements at 0x10_0000 + 256 k. -/
def descCells (a : Nat) (k : Byte) : List Host.Cell := [(a + 1, k), (a + 2, 16), (a + 8, 1), (a + 9, 1), (a + 16, 4)]

/-- An image with one record, key 5, in the running user layer. -/
def imgRecBytes : List Byte := toBytes 2 5 ++ toBytes 2 2 ++ [0, 0]
def imgSt (s : State) : State :=
  (({ s with img := { s.img with header := padTo 18 [] ++ [1] ++ padTo 45 [] ++ toBytes 4 1 ++ toBytes 4 0x1000 ++ toBytes 4 12 } } : State).wr
    F.CFG_STATUS_NO_IMAGE 0).norProgram (s.activeBank * bankSize + 0x1000) (imgRecBytes ++ [0, 0] ++ toBytes 4 (crc32c imgRecBytes))

def cpFr : CpFrame := ⟨0, 0, ⟨[], true, false, false⟩, ⟨[], true, false, false⟩, false⟩
def cpSt : State := State.reset.setCp 0 { cp0 with opn := some cpFr }
def obSt : State := st [(F.PCIE_STATUS_LINK_UP, 1), (F.PCIE_STATUS_ROOT_PORT, 0), (F.PCIE_OB_CFG_ENABLE 0, 1), (F.PCIE_OB_CFG_OWNER 0, 8)]
def zlSt : State := st [(F.FEATURE_MASK_ZORRA_EN, 1), (F.ZL_CTRL_ENABLE 0, 1)]


/-! ### The CRC-32C of 512 bytes of 0, in four pieces -/

theorem crc_128a : List.foldl crcByte 0xFFFFFFFF (List.replicate 128 0) = 4158167844 := by decide +kernel
theorem crc_128b : List.foldl crcByte 4158167844 (List.replicate 128 0) = 1200442991 := by decide +kernel
theorem crc_128c : List.foldl crcByte 1200442991 (List.replicate 128 0) = 1158271177 := by decide +kernel
theorem crc_128d : List.foldl crcByte 1158271177 (List.replicate 128 0) = 3473084991 := by decide +kernel

theorem crc_zero512 : crc32c (List.replicate 512 0) = 821882304 := by
  have e : (List.replicate 512 0 : List Byte) =
      List.replicate 128 0 ++ (List.replicate 128 0 ++ (List.replicate 128 0 ++ List.replicate 128 0)) := by
    simp only [List.replicate_append_replicate]
  rw [crc32c, e, List.foldl_append, List.foldl_append, List.foldl_append, crc_128a, crc_128b, crc_128c, crc_128d]
  rfl

/-- A register with one one-bit field. -/
def oneFld (a : Acc) (i : Nat) : RegSpec := ⟨0, 1, 0, 1, 0, [⟨i, 1, a, 0⟩]⟩

/-! ### Tests of the model -/

/-- A message of square 0 to square 1. -/
def goodMsg : Msg := ⟨0x1001, 0, false, 0x1000, 0, 2, 0, 0, 1, 0, 0, 0, 0, 0, 0, []⟩

/-- One command for each check of a well-formed command, each with an operand outside what the check allows. -/
theorem test_wf_refuses : ∀ i ∈ (
  [.registerWrite .host 0x600000000004 ⟨.both, 0⟩, .registerWrite .host 0x600001000000 ⟨.both, 0⟩, .pdelayExchange 0 5 0 0 4,
   .csiLine 0 0 0 (some 65536) [] false false, .ethFrameReceive 0 [1, 2, 3] true 0,
   .canFrameValid 0 ⟨0, false, false, 0, false, false, false, List.replicate 9 0⟩ 0,
   .meshRequestArrive { goodMsg with dest := 0x10000 }, .meshRequestArrive { goodMsg with kind := 4 },
   .dramRead 0x1000 (2 ^ 48) .clean, .dramWrite 0x1000 63 [0, 0] false, .pcieInboundAccess .bar0 0 (.read 0),
   .pcieDeviceRequest [⟨0, some (2 ^ 48)⟩] .msi, .pcieDeviceRequest [] (.write []), .linkTimeout (.remote 1 1),
   .zorraLinkTrained (.own 0) ⟨2 ^ 64, [], none, []⟩, .declarationReceive 0 [0, 1, 2, 3, 4, 5, 6, 7, 8] [],
   .linkFrameReceive 0 0 true false 0 (.serials [2 ^ 64]), .relayItem 0 [0], .capWindow (2 ^ 20), .thermalTick 2048, .vinLoss 65536,
   .canBusStateChange 0 65536 0 false] : List Instr), i.wf = false := by decide +kernel
theorem test_wf_accepts : (Instr.meshRequestArrive goodMsg).wf = true ∧ (Instr.registerWrite .host 0x600000000008 ⟨.high, 0⟩).wf = true := by decide

/-- −2.75 in E4M3, E5M2 and FP4 (07_arithmetic.md, worked example of the formats). -/
theorem test_formats : let v : Val := .fin true 11 (-2)
    (fmtE4M3.conv false v false).1 = 0xC3 ∧ (fmtE5M2.conv false v false).1 = 0xC2 ∧ (fmtE2M1.conv false v false).1 = 0xD := by decide +kernel

/-- The head word of frame F (03_ingest.md, worked example, step 9). -/
theorem test_head_word : headWord 0 ⟨0, 0, 0, 5, true, 6, 0, 0, 0, true⟩ = 0x4005060000000000 := by decide

/-- The key and the hash of a voxel (05_voxel.md, worked example). -/
theorem test_voxel_key : keyOf (811, 510, 15) = 0x0F1FE32B ∧ hash32 0x0F1FE32B = 0xDFA863BB := by decide

/-- TX.SEND x10, x11, x0 (06_grid.md, "Tensor instruction encodings"). -/
theorem test_tx_send : txDecode 0x0005852B = some .send ∧ bits 0x0005852B 15 5 = 11 ∧ bits 0x0005852B 7 5 = 10 := by decide

/-- PL_BOUND with OFFSET_EST 48, RMS_EST 416 and BOUND_Z 4 (09_analog.md, worked example). -/
theorem test_pl_bound :
    (st [(F.PL_EST_OFFSET_EST 5, 48), (F.PL_EST_RMS_EST 5, 416), (F.PL_CFG_BOUND_Z 5, 4)]).plBound 5 false = 122652 := by decide +kernel

/-- The bucket of a prefix hash (10_attention.md, after R297). -/
theorem test_bucket : (st [(F.KV_DIR_CFG_DIR_LOG, 15)]).bucketOf 0x8F3A1C0755E29B40 = (List.range 8).map (146664 + ·) := by decide +kernel

/-- The register and value of an image record (13_mailbox.md, worked example). -/
theorem test_image_record : recAddr ⟨0xAA00, [], 0⟩ 4 = R.PL_LIMITS 5 ∧ crc32c [] = 0 := by decide +kernel

/-- The controller, line and package line of a data address (15_memory.md, worked example). -/
theorem test_data_address : mcOf 8 0x001234567890 = 5 ∧ localLine 8 0x001234567890 = 152709922 ∧
    packageLine 8 0x001234567890 = 174525625 := by decide +kernel

/-- The absent and present squares of SQUARE_MASK 0xFFFFFFFFFFFF0000 (00_scope.md, worked example). -/
theorem test_square_mask : let s := st [(F.SQUARE_MASK_SQUARES, 0xFFFFFFFFFFFF0000)]
    s.present 0x100F = false ∧ s.present 0x1010 = true ∧ s.ustate 0x1000 = US.absent ∧ R.SQ_CTRL 18 = 0x600000220000 := by decide +kernel

/-- RATE_ADJ of a timebase without a source takes the word of a host's write (R32). -/
theorem test_tb_rate : (after State.reset (exec (.tbRateWrite .host 2 ⟨.low, 0xD1B717⟩) State.reset)).rd (F.TB_RATE_RATE_ADJ 2) = 13743895 := by
  decide +kernel

theorem test_reset_run : State.reset.modState = stRun := by decide

/-! ### States and operands that meet the hypotheses of the statements -/

theorem StepRunsFront_witness_queue :
    ∃ (c : Instr) (q : List Instr) (s : State), s.pending = c :: q :=
  ⟨.nop 0, [], { State.reset with pending := [.nop 0] }, rfl⟩

theorem EmptyQueueTicks_witness_empty :
    ∃ s : State, s.pending = [] ∧ s.rd F.SAFE_STATUS_PHASE ≠ phRestarting :=
  ⟨State.reset, rfl, by decide +kernel⟩

theorem RegisterAccessesComplete_witness_1 :
    (∃ (r : Req) (addr hi : Nat) (s : State),
      mget half0 s.half r.num = ⟨addr / 8 * 8, hi⟩ ∧
      addr / 8 ≠ 0) ∧
    (∃ (r : Req) (addr : Nat) (d : WData) (reg : Nat) (s : State),
      lockReg addr = some reg) ∧
    (∃ (u : Fin 65536) (code : Nat) (s : State),
      (mget epochRec0 s.epoch u.val).held = some code ∧
      code ≠ holdLoad ∧
      code ≠ holdLoadStart ∧
      s.epochFree u.val = true) ∧
    (∃ (u : Fin 65536) (s : State),
      (mget epochRec0 s.epoch u.val).held = some holdLoad ∧
      u.val / 0x1000 = 1 ∧
      s.epochFree u.val = true) ∧
    (∃ (r : Req) (m : Fin 16) (d : WData) (s : State),
      r.trusted = true ∧
      s.boot.phase = 3 ∧
      s.modState ≠ stDeep ∧
      s.mbOpen m.val = true ∧
      d.half ≠ .high ∧
      ringDist (s.rd (F.MB_POS_RESP_HEAD m.val)) (bits d.bits1 0 7) ≤ 64) ∧
    (∃ (r : Req) (m : Fin 16) (d : WData) (s : State),
      r.trusted = true ∧
      s.boot.phase = 3 ∧
      s.modState ≠ stDeep ∧
      d.half ≠ .high ∧
      ringDist (s.rd (F.MB_POS_RESP_HEAD m.val)) (bits d.bits1 0 7) ≤ ringDist (s.rd (F.MB_POS_RESP_HEAD m.val)) (s.rd (F.MB_POS_RESP_TAIL m.val))) ∧
    (∃ (r : Req) (m : Fin 16) (d : WData) (s : State),
      r.trusted = true ∧
      s.boot.phase = 3 ∧
      s.modState ≠ stDeep ∧
      bit (d.withBit 1).bits1 1 = true ∧
      bit (d.withBit 1).bits1 2 = false) :=
  ⟨⟨.host, 0x600000000100, 7, { State.reset with half := [(0, ⟨0x600000000100, 7⟩)] }, by decide +kernel, by decide +kernel⟩,
    ⟨.host, 0x600000030100, ⟨.both, 1#64⟩, R.TIME_CTRL, State.reset, by decide +kernel⟩,
    ⟨4096, 1, { State.reset with epoch := [(4096, ⟨0, none, some 1, false⟩)] }, by decide +kernel, by decide +kernel, by decide +kernel, by decide +kernel⟩,
    ⟨4096, { State.reset with epoch := [(4096, ⟨0, none, some holdLoad, false⟩)] }, by decide +kernel, by decide +kernel, by decide +kernel⟩,
    ⟨.host, 1, ⟨.both, 1#64⟩, st [(F.MB_CTRL_ENABLE 1, 1)], by decide +kernel, by decide +kernel, by decide +kernel, by decide +kernel, by decide +kernel, by decide +kernel⟩,
    ⟨.host, 0, ⟨.both, 1#64⟩, st [(F.MB_POS_RESP_TAIL 0, 1)], by decide +kernel, by decide +kernel, by decide +kernel, by decide +kernel, by decide +kernel⟩,
    ⟨.host, 0, ⟨.both, 1#64⟩, State.reset, by decide +kernel, by decide +kernel, by decide +kernel, by decide +kernel, by decide +kernel⟩⟩

theorem RegisterAccessesComplete_witness_2 : ∃ (r : Req) (m : Fin 16) (d : WData) (s : State),
      r.trusted = true ∧
      s.boot.phase = 3 ∧
      s.modState ≠ stDeep ∧
      bit (d.withBit 2).bits1 2 = true ∧
      s.mbExec m.val = none :=
  ⟨.host, 0, ⟨.both, 1#64⟩, State.reset, by decide +kernel, by decide +kernel, by decide +kernel, by decide +kernel, by decide +kernel⟩

theorem TimebaseCommandsComplete_witness_1 :
    (∃ (r : Req) (n : Fin 8) (d : WData) (s : State),
      s.mayUse r (0x5100 + n.val) = true ∧
      s.tbFree n.val = true) ∧
    (∃ (r : Req) (n : Fin 8) (d : WData) (s : State),
      s.mayUse r (0x5100 + n.val) = true ∧
      s.tbFree n.val = true ∧
      d.lowWritten = true) ∧
    (∃ (r : Req) (n : Fin 8) (d : WData) (s : State),
      s.mayUse r (0x5100 + n.val) = true ∧
      s.tbFree n.val = true ∧
      bits d.bits1 32 32 ≤ 999999999 ∧
      bits d.bits1 0 16 = 0) ∧
    (∃ (mac : Fin 4) (d : Fin 2) (master : Nat) (ratio : Int) (off : Nat → Int) (s1 s : State),
      s.gptpRuns d.val = true ∧
      bits (s.rd (F.GPTP_STATUS_PORT_STATE d.val)) (2 * mac.val) 2 = 2 ∧
      (off = fun n => (master : Int) - ((s.tbFine n : Int) - s.rdS (F.MAC_COMP_RX_COMP mac.val) * 1024)) ∧
      s1 = (s.wr (F.GPTP_OFFSET_OFFSET d.val) (unsgn 64 (off (s.rd (F.GPTP_CTRL_TB d.val))))).wr (F.GPTP_RATIO_RATE_OFFSET d.val) (unsgn 32 ratio)) ∧
    (∃ (mac : Fin 4) (d : Fin 2) (a : Announce) (s : State),
      s.gptpRuns d.val = true ∧
      bit (s.rd (F.GPTP_CTRL_PORT_EN d.val)) mac.val = true) ∧
    (∃ (mac : Fin 4) (t1 t2 t3 t4 : Nat) (s : State),
      t2 ≤ t3 ∧
      t1 + (t3 - t2) ≤ t4 ∧
      ((t4 - t1) - (t3 - t2)) / 2 < 2 ^ 40) ∧
    (∃ (m : Fin 16) (rising : Bool) (held : Nat) (frac : Fin 64) (s : State),
      s.admits m.val rising held = true) :=
  ⟨⟨.host, 0, ⟨.both, 1#64⟩, State.reset, by decide +kernel, by decide +kernel⟩,
    ⟨.host, 0, ⟨.both, 1#64⟩, State.reset, by decide +kernel, by decide +kernel, by decide +kernel⟩,
    ⟨.host, 0, ⟨.both, 0x3B9AC9FF00000000#64⟩, State.reset, by decide +kernel, by decide +kernel, by decide +kernel, by decide +kernel⟩,
    ⟨0, 0, 0, 0, _, _, st [(F.GPTP_CTRL_ENABLE 0, 1), (F.GPTP_STATUS_PORT_STATE 0, 2)], by decide +kernel, by decide +kernel, rfl, rfl⟩,
    ⟨0, 0, ⟨0, 0, 0, 0, 0, 0, 0, 0⟩, st [(F.GPTP_CTRL_ENABLE 0, 1), (F.GPTP_CTRL_PORT_EN 0, 1)], by decide +kernel, by decide +kernel⟩,
    ⟨0, 0, 5, 6, 9, State.reset, by decide +kernel, by decide +kernel, by decide +kernel⟩,
    ⟨0, true, 1000000, 0, st [(F.CAPTURE_IN_CTRL_EDGE 0, 1)], by decide +kernel⟩⟩

theorem TimebaseCommandsComplete_witness_2 :
    (∃ (n : Fin 8) (s : State),
      s.rd (F.TB_STATUS_STATE n.val) = 4 ∧
      s.rd (F.TB_CTRL_HOLDOVER_MAX_S n.val) ≠ 0) ∧
    (∃ (mac : Fin 4) (d : Fin 2) (s : State),
      s.gptpRuns d.val = true ∧
      bits (s.rd (F.GPTP_STATUS_PORT_STATE d.val)) (2 * mac.val) 2 = 1) :=
  ⟨⟨0, st [(F.TB_STATUS_STATE 0, 4), (F.TB_CTRL_HOLDOVER_MAX_S 0, 3)], by decide +kernel, by decide +kernel⟩,
    ⟨0, 0, st [(F.GPTP_CTRL_ENABLE 0, 1), (F.GPTP_STATUS_PORT_STATE 0, 1)], by decide +kernel, by decide +kernel⟩⟩

theorem PhaseAndCaptureComplete_witness_1 :
    (∃ (k : Fin 8) (t : Int) (o : Nat) (rest : List (Int × Nat)) (s : State),
      (s.ph k.val).obs = (t, o) :: rest) ∧
    (∃ (r : Req) (k : Fin 8) (d : WData) (s : State),
      s.mayUse r (0x5200 + k.val) = true ∧
      (s.rd (F.PH_CTRL_SOURCE k.val) = 0 ∨ 4 < s.rd (F.PH_CTRL_SOURCE k.val))) ∧
    (∃ (r : Req) (k : Fin 8) (d : WData) (s : State),
      s.mayUse r (0x5200 + k.val) = true ∧
      s.on (F.PH_CTRL_ENABLE k.val) = false) ∧
    (∃ (k : Fin 8) (s : State),
      (s.rd (F.PH_STATUS_STATE k.val) = 1 ∨ s.rd (F.PH_STATUS_STATE k.val) = 2)) ∧
    (∃ (k : Fin 8) (s : State),
      s.rd (F.PH_STATUS_STATE k.val) = 3 ∧
      s.rd (F.PH_LIMITS_HOLDOVER_MAX_MS k.val) ≠ 0) ∧
    (∃ (k : Fin 8) (s : State),
      s.rd (F.PH_STATUS_STATE k.val) = 4) ∧
    (∃ (n : Fin 16) (s : State),
      (s.pulse n.val).stop ≤ s.now * 32) :=
  ⟨⟨0, 5, 9, [], State.reset.setPh 0 { ph0 with obs := [(5, 9)] }, by decide +kernel⟩,
    ⟨.host, 0, ⟨.both, 1#64⟩, State.reset, by decide +kernel, by decide +kernel⟩,
    ⟨.host, 0, ⟨.both, 1#64⟩, State.reset, by decide +kernel, by decide +kernel⟩,
    ⟨0, st [(F.PH_STATUS_STATE 0, 1)], by decide +kernel⟩,
    ⟨0, st [(F.PH_STATUS_STATE 0, 3), (F.PH_LIMITS_HOLDOVER_MAX_MS 0, 1)], by decide +kernel, by decide +kernel⟩,
    ⟨0, st [(F.PH_STATUS_STATE 0, 4)], by decide +kernel⟩,
    ⟨0, State.reset, by decide +kernel⟩⟩

theorem PhaseAndCaptureComplete_witness_2 :
    (∃ (m : Fin 16) (rising : Bool) (held : Nat) (frac : Fin 64) (s : State),
      s.admits m.val rising held = true ∧
      s.on (F.CAPTURE_IN_CTRL_ENABLE m.val) = false ∧
      (∀ k < 8, s.rd (F.PH_CTRL_SOURCE k) = 4 → s.rd (F.PH_CTRL_SOURCE_INDEX k) ≠ m.val)) ∧
    (∃ (m : Fin 16) (rising : Bool) (held : Nat) (frac : Fin 64) (s : State),
      s.admits m.val rising held = true ∧
      s.on (F.CAPTURE_IN_CTRL_ENABLE m.val) = true ∧
      s.on (F.CAPTURE_IN_CTRL_PH_EN m.val) = false ∧
      (s.capFifo m.val).length < 16 ∧
      (∀ k < 8, s.rd (F.PH_CTRL_SOURCE k) = 4 → s.rd (F.PH_CTRL_SOURCE_INDEX k) ≠ m.val)) ∧
    (∃ (r : Req) (m : Fin 16) (c : CapStamp) (rest : List CapStamp) (s : State),
      s.capFifo m.val = c :: rest) ∧
    (∃ (r : Req) (m : Fin 16) (s : State),
      s.capFifo m.val = []) ∧
    (∃ (r : Req) (c : EvtEntry) (rest : List EvtEntry) (s : State),
      s.time.evt = c :: rest) ∧
    (∃ (j : Fin 64) (ssi : Word) (ssiOk : Bool) (s : State),
      s.on (F.PE_CTRL_ARM j.val) = true ∧
      (s.pe j.val).due = true ∧
      (s.pe j.val).late = false ∧
      s.on (F.PE_CTRL_HOLD_SUPPRESS j.val) = false) ∧
    (∃ (j : Fin 64) (ssi : Word) (ssiOk : Bool) (s : State),
      s.on (F.PE_CTRL_ARM j.val) = true ∧
      (s.pe j.val).due = true ∧
      (s.pe j.val).late = false ∧
      s.on (F.PE_CTRL_HOLD_SUPPRESS j.val) = true ∧
      tsHold (s.pe j.val).ts = true) :=
  ⟨⟨0, true, 1000000, 0, st [(F.CAPTURE_IN_CTRL_EDGE 0, 1)], by decide +kernel, by decide +kernel, by decide +kernel⟩,
    ⟨0, true, 1000000, 0, st [(F.CAPTURE_IN_CTRL_EDGE 0, 1), (F.CAPTURE_IN_CTRL_ENABLE 0, 1)], by decide +kernel, by decide +kernel, by decide +kernel, by decide +kernel, by decide +kernel⟩,
    ⟨.host, 0, ⟨5, 0, false⟩, [], State.reset.setCapFifo 0 [⟨5, 0, false⟩], by decide +kernel⟩,
    ⟨.host, 0, State.reset, by decide +kernel⟩,
    ⟨.host, ⟨5, 0, false, 0, 0⟩, [], State.reset.evtPush ⟨5, 0, false, 0, 0⟩, by decide +kernel⟩,
    ⟨0, 0, false, (st [(F.PE_CTRL_ARM 0, 1)]).setPe 0 { pe0 with due := true }, by decide +kernel, by decide +kernel, by decide +kernel, by decide +kernel⟩,
    ⟨0, 0, false, (st [(F.PE_CTRL_ARM 0, 1), (F.PE_CTRL_HOLD_SUPPRESS 0, 1)]).setPe 0 { pe0 with due := true, ts := 2048#128 }, by decide +kernel, by decide +kernel, by decide +kernel, by decide +kernel, by decide +kernel⟩⟩

theorem PhaseAndCaptureComplete_witness_3 :
    (∃ (r : Req) (j : Fin 64) (d : WData) (s : State),
      s.mayUse r (0x5300 + j.val) = true ∧
      s.on (F.PE_CTRL_ARM j.val) = false ∧
      bit (d.over (s.reg (R.PE_CTRL j.val))) 0 = true) ∧
    (∃ (r : Req) (j : Fin 64) (d : WData) (s : State),
      s.mayUse r (0x5300 + j.val) = true ∧
      s.on (F.PE_CTRL_ARM j.val) = true ∧
      bit (d.over (s.reg (R.PE_CTRL j.val))) 0 = false) ∧
    (∃ (r : Req) (j : Fin 64) (d : WData) (s : State),
      s.mayUse r (0x5300 + j.val) = true ∧
      s.on (F.PE_CTRL_ARM j.val) = true) :=
  ⟨⟨.host, 0, ⟨.both, 1#64⟩, State.reset, by decide +kernel, by decide +kernel, by decide +kernel⟩,
    ⟨.host, 0, ⟨.both, 0#64⟩, st [(F.PE_CTRL_ARM 0, 1)], by decide +kernel, by decide +kernel, by decide +kernel⟩,
    ⟨.host, 0, ⟨.both, 1#64⟩, st [(F.PE_CTRL_ARM 0, 1)], by decide +kernel, by decide +kernel⟩⟩

theorem IngestPortsComplete_witness_1 :
    (∃ (c : Fin 16) (vc : Fin 4) (frame : BitVec 16) (s : State),
      s.portLive 1 c.val = true ∧
      s.csiSlots c.val vc.val = []) ∧
    (∃ (c : Fin 16) (vc : Fin 4) (frame : BitVec 16) (s : State),
      s.portLive 1 c.val = true ∧
      s.csiSlots c.val vc.val ≠ []) ∧
    (∃ (c : Fin 16) (vc : Fin 4) (dt : Fin 64) (data : List Byte) (i : Nat) (s : State),
      s.portLive 1 c.val = true ∧
      s.csiTaker c.val vc.val dt.val = some i) ∧
    (∃ (c : Fin 16) (vc : Fin 4) (s : State),
      s.portLive 1 c.val = true) ∧
    (∃ (ix : Fin 32) (s : State),
      s.slotType ix.val = 1 ∧
      (s.q ix.val).opn.isSome = true) ∧
    (∃ (c : Fin 16) (s : State),
      s.portLive 1 c.val = true) ∧
    (∃ (p : Fin 4) (frame : List Byte) (ago i : Nat) (s : State),
      s.portLive 2 p.val = true ∧
      frame.length + 4 ≤ 1522 ∧
      beField frame 12 2 ≠ 0x88F7 ∧
      beField frame 12 2 ≠ 0x8808 ∧
      s.ethSlot p.val frame = some i) :=
  ⟨⟨0, 0, 0, st [(F.CSI_CTRL_ENABLE 0, 1), (F.CSI_CTRL_LANE_RATE_MBPS 0, 1000)], by decide +kernel, by decide +kernel⟩,
    ⟨0, 0, 0, csiSt, by decide +kernel, by decide +kernel⟩,
    ⟨0, 0, 42, [], 0, csiSt, by decide +kernel, by decide +kernel⟩,
    ⟨0, 0, st [(F.CSI_CTRL_ENABLE 0, 1), (F.CSI_CTRL_LANE_RATE_MBPS 0, 1000)], by decide +kernel⟩,
    ⟨0, (st [(F.STREAM_SRC_PORT_TYPE 0, 1)]).setQ 0 { iq0 with opn := some ⟨0, 0, 1, 0, false, 0, 0, 0, 0, false, false⟩ }, by decide +kernel, by decide +kernel⟩,
    ⟨0, st [(F.CSI_CTRL_ENABLE 0, 1), (F.CSI_CTRL_LANE_RATE_MBPS 0, 1000)], by decide +kernel⟩,
    ⟨0, [], 0, 0, ethSt, by decide +kernel, by decide +kernel, by decide +kernel, by decide +kernel, by decide +kernel⟩⟩

theorem IngestPortsComplete_witness_2 :
    (∃ (p : Fin 4) (frame : List Byte) (ago : Nat) (s : State),
      s.portLive 2 p.val = true ∧
      frame.length + 4 ≤ 1522 ∧
      beField frame 12 2 ≠ 0x88F7 ∧
      beField frame 12 2 ≠ 0x8808 ∧
      s.ethSlot p.val frame = none) ∧
    (∃ (b : Fin 8) (f : CanFrame) (ago : Nat) (s : State),
      s.portLive 3 b.val = true ∧
      f.fdf = true ∧
      s.rd (F.CAN_CTRL_FD b.val) = 0) ∧
    (∃ (b : Fin 8) (f : CanFrame) (ago i : Nat) (s : State),
      s.portLive 3 b.val = true ∧
      f.fdf = false ∧
      f.ide = false ∧
      (s.pickSlot 3 b.val (fun k => canMatch (f.id.toNat % 2048) false (s.rd (F.STREAM_FILTER_ID k)) (s.rd (F.STREAM_FILTER_ID_MASK k)) (s.on (F.STREAM_FILTER_IDE k))) = some i)) ∧
    (∃ (m : Fin 4) (i : Nat) (s : State),
      s.rd (F.SPI_CTRL_PERIOD_US m.val) ≠ 0 ∧
      s.portLive 4 m.val = true ∧
      (s.spi m.val).busy = false ∧
      (s.pickSlot 4 m.val (fun _ => true) = some i)) ∧
    (∃ (m : Fin 16) (rising : Bool) (held : Nat) (frac : Fin 64) (s : State),
      s.admits m.val rising held = true) ∧
    (∃ (m : Fin 4) (data : List Byte) (n : Nat) (s : State),
      (s.spi m.val).busy = true ∧
      (s.spi m.val).slot = none ∧
      n = clampN 1 256 (s.rd (F.SPI_CTRL_XFER_BYTES m.val))) ∧
    (∃ (e : Fin 8) (ssi : Word32) (ssiOk : Bool) (s : State),
      s.rd (F.ENC_CTRL_PERIOD_US e.val) ≠ 0) :=
  ⟨⟨0, [], 0, st [(F.ETH_CTRL_ENABLE 0, 1)], by decide +kernel, by decide +kernel, by decide +kernel, by decide +kernel, by decide +kernel⟩,
    ⟨0, ⟨0, false, false, 0, true, false, false, []⟩, 0, st [(F.CAN_CTRL_ENABLE 0, 1), (F.CAN_CTRL_FD 0, 0)], by decide +kernel, by decide +kernel, by decide +kernel⟩,
    ⟨0, ⟨0, false, false, 0, false, false, false, []⟩, 0, 0, canSt, by decide +kernel, by decide +kernel, by decide +kernel, by decide +kernel⟩,
    ⟨0, 0, spiSt, by decide +kernel, by decide +kernel, by decide +kernel, by decide +kernel⟩,
    ⟨0, true, 1000000, 0, st [(F.CAPTURE_IN_CTRL_EDGE 0, 1)], by decide +kernel⟩,
    ⟨0, [], _, State.reset.setSpi 0 ⟨true, 0, none⟩, by decide +kernel, by decide +kernel, rfl⟩,
    ⟨0, 0, false, st [(F.ENC_CTRL_PERIOD_US 0, 5)], by decide +kernel⟩⟩

theorem IngestPortsComplete_witness_3 :
    (∃ (e : Fin 8) (up : Bool) (s : State),
      s.portLive 5 e.val = true ∧
      s.on (F.ENC_CTRL_SSI e.val) = false) ∧
    (∃ (e : Fin 8) (s : State),
      s.portLive 5 e.val = true ∧
      s.on (F.ENC_CTRL_SSI e.val) = false) ∧
    (∃ (levels : Word) (s : State),
      s.portPowered 6 0 = true ∧
      s.rd F.RFX_GPIO_OUT_EN_PINS = 0 ∧
      s.port.sampled = 0) ∧
    (∃ (b : Fin 8) (tec rec : Nat) (s : State),
      255 < tec) :=
  ⟨⟨0, false, st [(F.ENC_CTRL_ENABLE 0, 1)], by decide +kernel, by decide +kernel⟩,
    ⟨0, st [(F.ENC_CTRL_ENABLE 0, 1)], by decide +kernel, by decide +kernel⟩,
    ⟨0, State.reset, by decide +kernel, by decide +kernel, by decide +kernel⟩,
    ⟨0, 256, 0, State.reset, by decide +kernel⟩⟩

theorem IngestQueuesComplete_witness_1 :
    (∃ (ix : Fin 32) (s : State),
      (∀ e ∈ (s.q ix.val).items, e.visible = true)) ∧
    (∃ (ix : Fin 32) (e : IqItem) (s : State),
      ((s.q ix.val).items.find? (fun e => !e.visible) = some e)) ∧
    (∃ (p : Fin 4) (s : State),
      s.on (F.ETH_STATUS_PAUSING p.val) = true) ∧
    (∃ (ix : Fin 32) (ts : BitVec 128) (rest : List (BitVec 128)) (s : State),
      (s.q ix.val).expect = ts :: rest ∧
      s.slotRuns ix.val = true ∧
      s.on (F.STREAM_DETECT_EXPECT_EN ix.val) = true ∧
      (s.q ix.val).opn = none) ∧
    (∃ (r : Req) (ix : Fin 32) (e : IqItem) (s : State),
      s.isReader r ix.val = true ∧
      s.iqHead ix.val = some e) ∧
    (∃ (r : Req) (ix : Fin 32) (s : State),
      s.isReader r ix.val = true ∧
      s.iqHead ix.val = none) ∧
    (∃ (r : Req) (i : Nat) (e : IqItem) (s : State),
      s.anyHead r = some i ∧
      s.iqHead i = some e) :=
  ⟨⟨0, State.reset, by decide +kernel⟩,
    ⟨0, ⟨0, 0, 1, 0, false, 0, 0, 0, 0, false⟩, State.reset.setQ 0 { iq0 with items := [⟨0, 0, 1, 0, false, 0, 0, 0, 0, false⟩] }, by decide +kernel⟩,
    ⟨0, st [(F.ETH_STATUS_PAUSING 0, 1)], by decide +kernel⟩,
    ⟨0, 0, [], (slotSt [(F.STREAM_DETECT_EXPECT_EN 0, 1)]).setQ 0 { iq0 with expect := [0] }, by decide +kernel, by decide +kernel, by decide +kernel, by decide +kernel⟩,
    ⟨.host, 0, ⟨0, 0, 1, 0, false, 0, 0, 0, 0, true⟩, State.reset.setQ 0 { iq0 with items := [⟨0, 0, 1, 0, false, 0, 0, 0, 0, true⟩] }, by decide +kernel, by decide +kernel⟩,
    ⟨.host, 0, State.reset, by decide +kernel, by decide +kernel⟩,
    ⟨.host, 0, ⟨0, 0, 1, 0, false, 0, 0, 0, 0, true⟩, State.reset.setQ 0 { iq0 with items := [⟨0, 0, 1, 0, false, 0, 0, 0, 0, true⟩] }, by decide +kernel, by decide +kernel⟩⟩

theorem IngestQueuesComplete_witness_2 :
    (∃ (r : Req) (ix : Fin 32) (d : WData) (s : State),
      s.isReader r ix.val = true ∧
      bit d.bits1 0 = true ∧
      bit d.bits1 1 = false) ∧
    (∃ (r : Req) (ix : Fin 32) (d : WData) (s : State),
      s.isReader r ix.val = true ∧
      bit d.bits1 0 = false ∧
      bit d.bits1 1 = true) ∧
    (∃ (r : Req) (ix : Fin 32) (d : WData) (k : Nat) (s : State),
      s.isReader r ix.val = true ∧
      d.lowWritten = true ∧
      (((s.q ix.val).items.take (s.q ix.val).read).findIdx? (fun e => e.off = bits d.bits1 0 32) = some k)) ∧
    (∃ (r : Req) (d : WData) (c : Fin 16) (s : State),
      r.trusted = true ∧
      s.on (F.CSI_CTRL_ENABLE c.val) = false ∧
      (∀ i < 32, s.slotType i ≠ 1)) ∧
    (∃ (r : Req) (d : WData) (i : Fin 32) (s : State),
      s.mayUse r (0x4000 + i.val) = true ∧
      s.slotEnabled i.val = false ∧
      (s.writeReg (R.STREAM_SRC i.val) d).slotEnabled i.val = true) ∧
    (∃ (r : Req) (d : WData) (i : Fin 32) (s : State),
      s.mayUse r (0x4000 + i.val) = true ∧
      s.slotEnabled i.val = true ∧
      (s.writeReg (R.STREAM_SRC i.val) d).slotEnabled i.val = false) :=
  ⟨⟨.host, 0, ⟨.both, 1#64⟩, State.reset, by decide +kernel, by decide +kernel, by decide +kernel⟩,
    ⟨.host, 0, ⟨.both, 2#64⟩, State.reset, by decide +kernel, by decide +kernel, by decide +kernel⟩,
    ⟨.host, 0, ⟨.both, 0#64⟩, 0, State.reset.setQ 0 { iq0 with items := [⟨0, 0, 1, 0, false, 0, 0, 0, 0, true⟩], read := 1 }, by decide +kernel, by decide +kernel, by decide +kernel⟩,
    ⟨.host, ⟨.both, 1#64⟩, 0, State.reset, by decide +kernel, by decide +kernel, by decide +kernel⟩,
    ⟨.host, ⟨.both, BitVec.ofNat 64 (2 ^ (F.STREAM_SRC_ENABLE 0).lo)⟩, 0, State.reset, by decide +kernel, by decide +kernel, by decide +kernel⟩,
    ⟨.host, ⟨.both, 0#64⟩, 0, st [(F.STREAM_SRC_ENABLE 0, 1)], by decide +kernel, by decide +kernel, by decide +kernel⟩⟩

theorem AlignmentAndVoxelComplete_witness_1 :
    (∃ (ts : BitVec 128) (seq : Nat) (rest : List (BitVec 128 × Nat)) (s : State),
      s.aln.inst = (ts, seq) :: rest ∧
      s.alnIdle = true ∧
      s.alnReady (Machine.ts64 ts) = true) ∧
    (∃ (s : State),
      s.alnIdle = true) ∧
    (∃ (b : AlnBundle) (s : State),
      s.aln.build = some b ∧
      s.alnSlots ≤ fwd (2 ^ 32) (s.rd F.ALN_RING_POS_OLDEST_SEQ) b.seq) ∧
    (∃ (b : AlnBundle) (s : State),
      s.aln.build = some b ∧
      fwd (2 ^ 32) (s.rd F.ALN_RING_POS_OLDEST_SEQ) b.seq < s.alnSlots) ∧
    (∃ (sw : RegSweep) (rest : List RegSweep) (s : State),
      s.aln.sweeps = sw :: rest) ∧
    (∃ (r : Req) (d : WData) (s : State),
      s.mayUse r 0x6000 = true ∧
      d.lowWritten = true ∧
      seqHeld (s.rd F.ALN_RING_POS_OLDEST_SEQ) (s.rd F.ALN_RING_POS_NEXT_SEQ) (bits d.bits1 0 32) = true) ∧
    (∃ (s : State),
      s.ustate 0x6000 = US.resetting) :=
  ⟨⟨0, 0, [], alnSt, by decide +kernel, by decide +kernel, by decide +kernel⟩,
    ⟨alnSt, by decide +kernel⟩,
    ⟨⟨0, 9, 0, 0, v30, v30, v30, v30, 0, 0, [], [], [], []⟩, { State.reset with aln := { State.reset.aln with build := some ⟨0, 9, 0, 0, v30, v30, v30, v30, 0, 0, [], [], [], []⟩ } }, by decide +kernel, by decide +kernel⟩,
    ⟨⟨0, 1, 0, 0, v30, v30, v30, v30, 0, 0, [], [], [], []⟩, { State.reset with aln := { State.reset.aln with build := some ⟨0, 1, 0, 0, v30, v30, v30, v30, 0, 0, [], [], [], []⟩ } }, by decide +kernel, by decide +kernel⟩,
    ⟨⟨[], 0, 0, 0⟩, [], { State.reset with aln := { State.reset.aln with sweeps := [⟨[], 0, 0, 0⟩] } }, by decide +kernel⟩,
    ⟨.host, ⟨.both, 0#64⟩, st [(F.ALN_RING_POS_NEXT_SEQ, 1)], by decide +kernel, by decide +kernel, by decide +kernel⟩,
    ⟨State.reset.setUstate 0x6000 US.resetting, by decide +kernel⟩⟩

theorem AlignmentAndVoxelComplete_witness_2 :
    (∃ (q : Nat) (rest : List Nat) (b : AlnBundle) (s : State),
      s.vox.offered = q :: rest ∧
      s.bundleAt q = some b) ∧
    (∃ (m : Msg) (s : State),
      s.vox.offered = [] ∧
      s.net.find? isVoxNotify = some m ∧
      s.rd F.VOX_CFG_TRIGGER = 1) ∧
    (∃ (v : VoxTrig) (rest : List VoxTrig) (s : State),
      s.vox.trig = v :: rest ∧
      s.voxIdle = true ∧
      s.voxReady v = true) ∧
    (∃ (s : State),
      s.voxIdle = true) ∧
    (∃ (f : VoxFrame) (s : State),
      s.vox.build = some f) ∧
    (∃ (r : Req) (d : WData) (s : State),
      s.mayUse r 0x7000 = true ∧
      d.lowWritten = true ∧
      fwd (2 ^ 32) (s.rd F.VOX_OUT_POS_OLDEST_SEQ) (bits d.bits1 0 32) < fwd (2 ^ 32) (s.rd F.VOX_OUT_POS_OLDEST_SEQ) (s.rd F.VOX_OUT_POS_NEXT_SEQ)) ∧
    (∃ (s : State),
      s.ustate 0x7000 = US.resetting) :=
  ⟨⟨9, [], ⟨0, 9, 0, 0, v30, v30, v30, v30, 0, 0, [], [], [], []⟩, { State.reset with vox := { State.reset.vox with offered := [9] }, aln := { State.reset.aln with bundles := [⟨0, 9, 0, 0, v30, v30, v30, v30, 0, 0, [], [], [], []⟩] } }, by decide +kernel, by decide +kernel⟩,
    ⟨originMsg State.reset 0x5300 0x7000 3 4 [], { (st [(F.VOX_CFG_TRIGGER, 1)]) with net := [originMsg State.reset 0x5300 0x7000 3 4 []] }, by decide +kernel, by decide +kernel, by decide +kernel⟩,
    ⟨⟨0, 0, none⟩, [], voxSt, by decide +kernel, by decide +kernel, by decide +kernel⟩,
    ⟨voxSt, by decide +kernel⟩,
    ⟨⟨⟨0, 0, none⟩, 0, false, 0, [], [], [], []⟩, { State.reset with vox := { State.reset.vox with build := some ⟨⟨0, 0, none⟩, 0, false, 0, [], [], [], []⟩ } }, by decide +kernel⟩,
    ⟨.host, ⟨.both, 0#64⟩, st [(F.VOX_OUT_POS_NEXT_SEQ, 1)], by decide +kernel, by decide +kernel, by decide +kernel⟩,
    ⟨State.reset.setUstate 0x7000 US.resetting, by decide +kernel⟩⟩

theorem ReflexAndEgressComplete_witness_1 :
    (∃ (g : Fin 64) (s : State),
      mget 0 s.rfx.pulse g.val ≠ 0) ∧
    (∃ (r : Req) (d : WData) (s : State),
      s.mayUse r 0x9000 = true) ∧
    (∃ (r : Req) (ix : Fin 32) (d : WData) (s : State),
      s.mayUse r 0x9000 = true ∧
      s.rd (F.EG_CFG_SOURCE ix.val) = 2 ∧
      bit d.bits1 0 = true ∧
      s.egOpen ix.val = true ∧
      s.egTentative ix.val = false ∧
      (s.eg ix.val).wait = none) ∧
    (∃ (p : Fin 4) (i : Nat) (b : List Byte) (s : State),
      s.rfxRuns = true ∧
      s.portPowered 2 p.val = true ∧
      mget 0 s.rfx.held p.val ≤ s.now ∧
      s.egPick p.val = some (i, b)) ∧
    (∃ (b : Fin 8) (i : Nat) (c : List Byte) (s : State),
      s.rfxRuns = true ∧
      s.portPowered 3 b.val = true ∧
      s.on (F.CAN_CTRL_ENABLE b.val) = true ∧
      s.rd (F.CAN_CTRL_LISTEN_ONLY b.val) = 0 ∧
      s.rd (F.CAN_STATUS_BUS_STATE b.val) ≠ 2 ∧
      s.canPick b.val = some (i, c)) ∧
    (∃ (p : Fin 4) (s : State),
      s.on (F.EG_GCL_CTRL_ENABLE p.val) = true ∧
      (s.gcl p.val).running = true ∧
      s.rd (F.EG_GCL_STATUS_ENTRY p.val) + 1 < (s.gcl p.val).list.length ∧
      (s.gcl p.val).steps = s.rd (F.TB_STATUS_STEPS (s.rd (F.EG_GCL_CTRL_TB p.val)))) ∧
    (∃ (i : Fin 32) (s : State),
      (s.eg i.val).wait.isSome = true ∧
      s.on (F.EG_CFG_PORT_TYPE i.val) = false) :=
  ⟨⟨0, { State.reset with rfx := { State.reset.rfx with pulse := [(0, 5)] } }, by decide +kernel⟩,
    ⟨.host, ⟨.both, 1#64⟩, State.reset, by decide +kernel⟩,
    ⟨.host, 0, ⟨.both, 1#64⟩, st [(F.EG_CFG_SOURCE 0, 2), (F.RFX_CTRL_ENABLE, 1), (F.EG_CFG_ENABLE 0, 1)], by decide +kernel, by decide +kernel, by decide +kernel, by decide +kernel, by decide +kernel, by decide +kernel⟩,
    ⟨0, 0, [1], egSt, by decide +kernel, by decide +kernel, by decide +kernel, by decide +kernel⟩,
    ⟨0, 0, [1], egCanSt, by decide +kernel, by decide +kernel, by decide +kernel, by decide +kernel, by decide +kernel, by decide +kernel⟩,
    ⟨0, (st [(F.EG_GCL_CTRL_ENABLE 0, 1)]).setGcl 0 ⟨true, [(1, 5), (2, 5)], 0, 0⟩, by decide +kernel, by decide +kernel, by decide +kernel, by decide +kernel⟩,
    ⟨0, State.reset.setEg 0 ⟨some ⟨[1], 0⟩, 0, 0⟩, by decide +kernel, by decide +kernel⟩⟩

theorem ReflexAndEgressComplete_witness_2 : ∃ (s : State),
      s.on F.SAFE_STATUS_HOLD_GEN = true ∧
      s.on F.SAFE_STATUS_SAFE_HOLD = true :=
  ⟨st [(F.SAFE_STATUS_HOLD_GEN, 1), (F.SAFE_STATUS_SAFE_HOLD, 1)], by decide +kernel, by decide +kernel⟩

theorem SequencerTensorComplete_witness_1 :
    (∃ (n : Fin 64) (w k : Nat) (s : State),
      s.AtTx n.val w .mm ∧
      ((s.sqr n.val).rx (bits w 15 5)) % 64 = 0 ∧
      s.storeBadRange n.val ((s.sqr n.val).rx (bits w 15 5)) 64 = false ∧
      (s.sqr n.val).txq.length < 16 ∧
      (s.sqr n.val).freeTag = some k) ∧
    (∃ (n : Fin 64) (w k : Nat) (s : State),
      s.AtTx n.val w .wload ∧
      ((s.sqr n.val).rx (bits w 15 5)) % 64 = 0 ∧
      s.storeBadRange n.val ((s.sqr n.val).rx (bits w 15 5)) 64 = false ∧
      (s.sqr n.val).txq.length < 16 ∧
      (s.sqr n.val).freeTag = some k) ∧
    (∃ (n : Fin 64) (w k : Nat) (s : State),
      s.AtTx n.val w .quant ∧
      ((s.sqr n.val).rx (bits w 15 5)) % 64 = 0 ∧
      s.storeBadRange n.val ((s.sqr n.val).rx (bits w 15 5)) 64 = false ∧
      (s.sqr n.val).txq.length < 16 ∧
      (s.sqr n.val).freeTag = some k) ∧
    (∃ (n : Fin 64) (w k : Nat) (s : State),
      s.AtTx n.val w .dma ∧
      ((s.sqr n.val).rx (bits w 15 5)) % 64 = 0 ∧
      s.storeBadRange n.val ((s.sqr n.val).rx (bits w 15 5)) 64 = false ∧
      (s.sqr n.val).txq.length < 16 ∧
      (s.sqr n.val).freeTag = some k) ∧
    (∃ (n : Fin 64) (w : Nat) (s : State),
      s.AtTx n.val w .poll) ∧
    (∃ (n : Fin 64) (w : Nat) (s : State),
      s.AtTx n.val w .wait ∧
      (s.sqr n.val).outMask &&& ((s.sqr n.val).rx (bits w 15 5)) = 0 ∧
      (∀ k < 32, ((s.sqr n.val).tag k).st = 2 → ((s.sqr n.val).tag k).status = St.ok)) ∧
    (∃ (n : Fin 64) (w : Nat) (s : State),
      s.AtTx n.val w .wait ∧
      (s.sqr n.val).outMask &&& ((s.sqr n.val).rx (bits w 15 5)) ≠ 0) :=
  ⟨⟨0, 361739, 0, txSt 361739, by decide +kernel, by decide +kernel, by decide +kernel, by decide +kernel, by decide +kernel⟩,
    ⟨0, 365835, 0, txSt 365835, by decide +kernel, by decide +kernel, by decide +kernel, by decide +kernel, by decide +kernel⟩,
    ⟨0, 374027, 0, txSt 374027, by decide +kernel, by decide +kernel, by decide +kernel, by decide +kernel, by decide +kernel⟩,
    ⟨0, 382219, 0, txSt 382219, by decide +kernel, by decide +kernel, by decide +kernel, by decide +kernel, by decide +kernel⟩,
    ⟨0, 374059, txSt 374059, by decide +kernel⟩,
    ⟨0, 369963, txSt 369963, by decide +kernel, by decide +kernel, by decide +kernel⟩,
    ⟨0, 369963, txTagSt 369963, by decide +kernel, by decide +kernel⟩⟩

theorem SequencerTensorComplete_witness_2 :
    (∃ (n : Fin 64) (w : Nat) (s : State),
      s.AtTx n.val w .fence) ∧
    (∃ (n : Fin 64) (w : Nat) (s : State),
      s.AtTx n.val w .halt) ∧
    (∃ (n : Fin 64) (w : Nat) (s : State),
      s.AtTx n.val w .rest ∧
      s.on (F.SQ_CFG_REST_EN n.val) = true ∧
      s.on (F.SQ_REST_REQUEST n.val) = true) ∧
    (∃ (n : Fin 64) (w : Nat) (s : State),
      s.AtTx n.val w (.recv false) ∧
      ((s.sqr n.val).rx (bits w 15 5)) % 64 = 0 ∧
      s.storeBadRange n.val ((s.sqr n.val).rx (bits w 15 5)) 16 = false ∧
      (s.sqr n.val).pickQueue ((s.sqr n.val).rx (bits w 20 5) % 256) = none) ∧
    (∃ (n : Fin 64) (w p : Nat) (m : Msg) (rest : List Msg) (s : State),
      s.AtTx n.val w (.recv false) ∧
      ((s.sqr n.val).rx (bits w 15 5)) % 64 = 0 ∧
      (s.sqr n.val).pickQueue ((s.sqr n.val).rx (bits w 20 5) % 256) = some p ∧
      (s.sqr n.val).inbound p = m :: rest ∧
      m.kind = 1 ∧
      m.payload.length ≤ (if bits ((s.sqr n.val).rx (bits w 20 5)) 16 13 = 0 then 4096 else bits ((s.sqr n.val).rx (bits w 20 5)) 16 13) ∧
      s.storeBadRange n.val ((s.sqr n.val).rx (bits w 15 5)) 16 = false ∧
      s.storeBadRange n.val ((s.sqr n.val).rx (bits w 15 5)) (16 + m.payload.length) = false) ∧
    (∃ (n : Fin 64) (w h : Nat) (s : State),
      s.AtTx n.val w .send ∧
      ((s.sqr n.val).rx (bits w 15 5)) % 64 = 0 ∧
      s.storeBadRange n.val ((s.sqr n.val).rx (bits w 15 5)) 16 = false ∧
      h = s.ld (storeBase n.val + ((s.sqr n.val).rx (bits w 15 5))) 16 ∧
      s.storeBadRange n.val ((s.sqr n.val).rx (bits w 15 5)) (16 + bits h 80 13) = false ∧
      bits h 80 13 ≤ 4096 ∧
      bits h 46 2 = 1 ∧
      bits h 40 3 = 3 ∧
      bits h 16 3 = s.moduleNo ∧
      bits h 0 16 / 0x1000 ≠ 1) :=
  ⟨⟨0, 16427, txSt 16427, by decide +kernel⟩,
    ⟨0, 24619, txSt 24619, by decide +kernel⟩,
    ⟨0, 21803, ((txSt 21803).wr (F.SQ_CFG_REST_EN 0) 1).wr (F.SQ_REST_REQUEST 0) 1, by decide +kernel, by decide +kernel, by decide +kernel⟩,
    ⟨0, 12948779, txSt 12948779, by decide +kernel, by decide +kernel, by decide +kernel, by decide +kernel⟩,
    ⟨0, 12948779, 0, msg1, [], (txSt 12948779).setInq 0 0 [msg1], by decide +kernel, by decide +kernel, by decide +kernel, by decide +kernel, by decide +kernel, by decide +kernel, by decide +kernel, by decide +kernel⟩,
    ⟨0, 361771, 355142255812608, (txSt 361771).store (storeBase 0 + 0x100) (toBytes 16 355142255812608), by decide +kernel, by decide +kernel, by decide +kernel, by decide +kernel, by decide +kernel, by decide +kernel, by decide +kernel, by decide +kernel, by decide +kernel, by decide +kernel⟩⟩

theorem SequencerBaseComplete_witness :
    (∃ (n : Fin 64) (raw w len : Nat) (a s : State),
      s.AtRv n.val raw w len ∧
      s.rvBase n.val raw w len = .ok a) ∧
    (∃ (n : Fin 64) (raw w len c v : Nat) (s : State),
      s.AtRv n.val raw w len ∧
      s.rvBase n.val raw w len = .trap c v) :=
  ⟨⟨0, 19, 19, 4, (txSt 19).retire 0 4, txSt 19, by decide +kernel, by decide +kernel⟩,
    ⟨0, 115, 115, 4, 11, 0, txSt 115, by decide +kernel, by decide +kernel⟩⟩

theorem VectorFunctionsComplete_witness_1 :
    (∃ (n : Fin 64) (o : TxOp) (s : State),
      (s.sqr n.val).inProgress 2 = some o ∧
      o.quant = false ∧
      o.fn = 0x00 ∧
      o.result = none) ∧
    (∃ (n : Fin 64) (o : TxOp) (s : State),
      (s.sqr n.val).inProgress 2 = some o ∧
      o.quant = false ∧
      o.fn = 0x01 ∧
      o.result = none) ∧
    (∃ (n : Fin 64) (o : TxOp) (s : State),
      (s.sqr n.val).inProgress 2 = some o ∧
      o.quant = false ∧
      o.fn = 0x02 ∧
      o.result = none) ∧
    (∃ (n : Fin 64) (o : TxOp) (s : State),
      (s.sqr n.val).inProgress 2 = some o ∧
      o.quant = false ∧
      o.fn = 0x03 ∧
      o.result = none) ∧
    (∃ (n : Fin 64) (o : TxOp) (s : State),
      (s.sqr n.val).inProgress 2 = some o ∧
      o.quant = false ∧
      o.fn = 0x04 ∧
      o.result = none) ∧
    (∃ (n : Fin 64) (o : TxOp) (s : State),
      (s.sqr n.val).inProgress 2 = some o ∧
      o.quant = false ∧
      o.fn = 0x05 ∧
      o.result = none) ∧
    (∃ (n : Fin 64) (o : TxOp) (s : State),
      (s.sqr n.val).inProgress 2 = some o ∧
      o.quant = false ∧
      o.fn = 0x06 ∧
      o.result = none) :=
  ⟨⟨0, opOf 2 0, opSt 2 0, by decide +kernel, by decide +kernel, by decide +kernel, by decide +kernel⟩,
    ⟨0, opOf 2 1, opSt 2 1, by decide +kernel, by decide +kernel, by decide +kernel, by decide +kernel⟩,
    ⟨0, opOf 2 2, opSt 2 2, by decide +kernel, by decide +kernel, by decide +kernel, by decide +kernel⟩,
    ⟨0, opOf 2 3, opSt 2 3, by decide +kernel, by decide +kernel, by decide +kernel, by decide +kernel⟩,
    ⟨0, opOf 2 4, opSt 2 4, by decide +kernel, by decide +kernel, by decide +kernel, by decide +kernel⟩,
    ⟨0, opOf 2 5, opSt 2 5, by decide +kernel, by decide +kernel, by decide +kernel, by decide +kernel⟩,
    ⟨0, opOf 2 6, opSt 2 6, by decide +kernel, by decide +kernel, by decide +kernel, by decide +kernel⟩⟩

theorem VectorFunctionsComplete_witness_2 :
    (∃ (n : Fin 64) (o : TxOp) (s : State),
      (s.sqr n.val).inProgress 2 = some o ∧
      o.quant = false ∧
      o.fn = 0x07 ∧
      o.result = none) ∧
    (∃ (n : Fin 64) (o : TxOp) (s : State),
      (s.sqr n.val).inProgress 2 = some o ∧
      o.quant = false ∧
      o.fn = 0x10 ∧
      o.result = none) ∧
    (∃ (n : Fin 64) (o : TxOp) (s : State),
      (s.sqr n.val).inProgress 2 = some o ∧
      o.quant = false ∧
      o.fn = 0x11 ∧
      o.result = none) ∧
    (∃ (n : Fin 64) (o : TxOp) (s : State),
      (s.sqr n.val).inProgress 2 = some o ∧
      o.quant = false ∧
      o.fn = 0x12 ∧
      o.result = none) ∧
    (∃ (n : Fin 64) (o : TxOp) (s : State),
      (s.sqr n.val).inProgress 2 = some o ∧
      o.quant = false ∧
      o.fn = 0x13 ∧
      o.result = none) ∧
    (∃ (n : Fin 64) (o : TxOp) (s : State),
      (s.sqr n.val).inProgress 2 = some o ∧
      o.quant = false ∧
      o.fn = 0x14 ∧
      o.result = none) ∧
    (∃ (n : Fin 64) (o : TxOp) (s : State),
      (s.sqr n.val).inProgress 2 = some o ∧
      o.quant = false ∧
      o.fn = 0x15 ∧
      o.result = none) :=
  ⟨⟨0, opOf 2 7, opSt 2 7, by decide +kernel, by decide +kernel, by decide +kernel, by decide +kernel⟩,
    ⟨0, opOf 2 16, opSt 2 16, by decide +kernel, by decide +kernel, by decide +kernel, by decide +kernel⟩,
    ⟨0, opOf 2 17, opSt 2 17, by decide +kernel, by decide +kernel, by decide +kernel, by decide +kernel⟩,
    ⟨0, opOf 2 18, opSt 2 18, by decide +kernel, by decide +kernel, by decide +kernel, by decide +kernel⟩,
    ⟨0, opOf 2 19, opSt 2 19, by decide +kernel, by decide +kernel, by decide +kernel, by decide +kernel⟩,
    ⟨0, opOf 2 20, opSt 2 20, by decide +kernel, by decide +kernel, by decide +kernel, by decide +kernel⟩,
    ⟨0, opOf 2 21, opSt 2 21, by decide +kernel, by decide +kernel, by decide +kernel, by decide +kernel⟩⟩

theorem VectorFunctionsComplete_witness_3 :
    (∃ (n : Fin 64) (o : TxOp) (s : State),
      (s.sqr n.val).inProgress 2 = some o ∧
      o.quant = false ∧
      o.fn = 0x16 ∧
      o.result = none) ∧
    (∃ (n : Fin 64) (o : TxOp) (s : State),
      (s.sqr n.val).inProgress 2 = some o ∧
      o.quant = false ∧
      o.fn = 0x20 ∧
      o.result = none) ∧
    (∃ (n : Fin 64) (o : TxOp) (s : State),
      (s.sqr n.val).inProgress 2 = some o ∧
      o.quant = false ∧
      o.fn = 0x21 ∧
      o.result = none) ∧
    (∃ (n : Fin 64) (o : TxOp) (s : State),
      (s.sqr n.val).inProgress 2 = some o ∧
      o.quant = false ∧
      o.fn = 0x22 ∧
      o.result = none) ∧
    (∃ (n : Fin 64) (o : TxOp) (s : State),
      (s.sqr n.val).inProgress 2 = some o ∧
      o.quant = false ∧
      o.fn = 0x23 ∧
      o.result = none) ∧
    (∃ (n : Fin 64) (o : TxOp) (s : State),
      (s.sqr n.val).inProgress 2 = some o ∧
      o.quant = false ∧
      o.fn = 0x24 ∧
      o.result = none) ∧
    (∃ (n : Fin 64) (o : TxOp) (s : State),
      (s.sqr n.val).inProgress 2 = some o ∧
      o.quant = false ∧
      o.fn = 0x25 ∧
      o.result = none) :=
  ⟨⟨0, opOf 2 22, opSt 2 22, by decide +kernel, by decide +kernel, by decide +kernel, by decide +kernel⟩,
    ⟨0, opOf 2 32, opSt 2 32, by decide +kernel, by decide +kernel, by decide +kernel, by decide +kernel⟩,
    ⟨0, opOf 2 33, opSt 2 33, by decide +kernel, by decide +kernel, by decide +kernel, by decide +kernel⟩,
    ⟨0, opOf 2 34, opSt 2 34, by decide +kernel, by decide +kernel, by decide +kernel, by decide +kernel⟩,
    ⟨0, opOf 2 35, opSt 2 35, by decide +kernel, by decide +kernel, by decide +kernel, by decide +kernel⟩,
    ⟨0, opOf 2 36, opSt 2 36, by decide +kernel, by decide +kernel, by decide +kernel, by decide +kernel⟩,
    ⟨0, opOf 2 37, opSt 2 37, by decide +kernel, by decide +kernel, by decide +kernel, by decide +kernel⟩⟩

theorem VectorFunctionsComplete_witness_4 :
    (∃ (n : Fin 64) (o : TxOp) (s : State),
      (s.sqr n.val).inProgress 2 = some o ∧
      o.quant = false ∧
      o.fn = 0x26 ∧
      o.result = none) ∧
    (∃ (n : Fin 64) (o : TxOp) (s : State),
      (s.sqr n.val).inProgress 2 = some o ∧
      o.quant = false ∧
      o.fn = 0x30 ∧
      o.result = none) ∧
    (∃ (n : Fin 64) (o : TxOp) (s : State),
      (s.sqr n.val).inProgress 2 = some o ∧
      o.quant = false ∧
      o.fn = 0x31 ∧
      o.result = none) ∧
    (∃ (n : Fin 64) (o : TxOp) (s : State),
      (s.sqr n.val).inProgress 2 = some o ∧
      o.quant = false ∧
      o.fn = 0x32 ∧
      o.result = none) ∧
    (∃ (n : Fin 64) (o : TxOp) (s : State),
      (s.sqr n.val).inProgress 2 = some o ∧
      o.quant = false ∧
      o.fn = 0x40 ∧
      o.result = none) ∧
    (∃ (n : Fin 64) (o : TxOp) (s : State),
      (s.sqr n.val).inProgress 2 = some o ∧
      o.quant = false ∧
      o.fn = 0x48 ∧
      o.result = none) ∧
    (∃ (n : Fin 64) (o : TxOp) (s : State),
      (s.sqr n.val).inProgress 2 = some o ∧
      o.quant = false ∧
      o.fn = 0x49 ∧
      o.result = none) :=
  ⟨⟨0, opOf 2 38, opSt 2 38, by decide +kernel, by decide +kernel, by decide +kernel, by decide +kernel⟩,
    ⟨0, opOf 2 48, opSt 2 48, by decide +kernel, by decide +kernel, by decide +kernel, by decide +kernel⟩,
    ⟨0, opOf 2 49, opSt 2 49, by decide +kernel, by decide +kernel, by decide +kernel, by decide +kernel⟩,
    ⟨0, opOf 2 50, opSt 2 50, by decide +kernel, by decide +kernel, by decide +kernel, by decide +kernel⟩,
    ⟨0, opOf 2 64, opSt 2 64, by decide +kernel, by decide +kernel, by decide +kernel, by decide +kernel⟩,
    ⟨0, opOf 2 72, opSt 2 72, by decide +kernel, by decide +kernel, by decide +kernel, by decide +kernel⟩,
    ⟨0, opOf 2 73, opSt 2 73, by decide +kernel, by decide +kernel, by decide +kernel, by decide +kernel⟩⟩

theorem TensorQueueAndMovesComplete_witness_1 :
    (∃ (n : Fin 64) (l : Fin 5) (o : TxOp) (s : State),
      s.serving (sqUnit n.val) = true ∧
      (s.sqr n.val).laneFree l.val = true ∧
      (((s.sqr n.val).lane l.val).find? (fun o => !o.started) = some o) ∧
      (s.sqr n.val).weightsOrder o = true ∧
      (s.sqr n.val).waits o = false) ∧
    (∃ (n : Fin 64) (t : Fin 32) (o : TxOp) (st : Nat) (s : State),
      ((s.sqr n.val).txq.find? (fun o => decide (o.tag = t.val)) = some o) ∧
      o.started = true ∧
      s.serving (sqUnit n.val) = true ∧
      o.xfer = none ∧
      o.result = some st) ∧
    (∃ (n : Fin 64) (o : TxOp) (s : State),
      s.serving (sqUnit n.val) = true ∧
      (s.sqr n.val).flying < 32 ∧
      (((s.sqr n.val).lane laneDma).find? (fun o => match o.xfer with | some x => !x.todo.isEmpty | none => false) = some o)) ∧
    (∃ (n : Fin 64) (t k : Fin 32) (st : Fin 13) (data : List Byte) (poison : Bool) (o : TxOp) (y : Xfer) (s : State),
      ((s.sqr n.val).txq.find? (fun o => decide (o.tag = t.val) && o.xfer.isSome) = some o) ∧
      o.xfer = some y) ∧
    (∃ (n : Fin 64) (o : TxOp) (s : State),
      (s.sqr n.val).inProgress 3 = some o ∧
      o.fn = 0 ∧
      o.result = none) ∧
    (∃ (n : Fin 64) (o : TxOp) (s : State),
      (s.sqr n.val).inProgress 3 = some o ∧
      o.fn = 1 ∧
      o.result = none) ∧
    (∃ (n : Fin 64) (o : TxOp) (s : State),
      (s.sqr n.val).inProgress 3 = some o ∧
      o.fn = 2 ∧
      o.result = none) :=
  ⟨⟨0, 2, { opOf 2 1 with started := false }, sqOpSt { opOf 2 1 with started := false }, by decide +kernel, by decide +kernel, by decide +kernel, by decide +kernel, by decide +kernel⟩,
    ⟨0, 0, { opOf 2 1 with result := some 0 }, 0, sqOpSt { opOf 2 1 with result := some 0 }, by decide +kernel, by decide +kernel, by decide +kernel, by decide +kernel, by decide +kernel⟩,
    ⟨0, dmaOp, sqOpSt dmaOp, by decide +kernel, by decide +kernel, by decide +kernel⟩,
    ⟨0, 0, 0, 0, [], false, dmaOp, dmaX, sqOpSt dmaOp, by decide +kernel, by decide +kernel⟩,
    ⟨0, opOf 3 0, opSt 3 0, by decide +kernel, by decide +kernel, by decide +kernel⟩,
    ⟨0, opOf 3 1, opSt 3 1, by decide +kernel, by decide +kernel, by decide +kernel⟩,
    ⟨0, opOf 3 2, opSt 3 2, by decide +kernel, by decide +kernel, by decide +kernel⟩⟩

theorem TensorQueueAndMovesComplete_witness_2 :
    (∃ (n : Fin 64) (o : TxOp) (s : State),
      (s.sqr n.val).inProgress 3 = some o ∧
      o.fn = 3 ∧
      o.result = none) ∧
    (∃ (n : Fin 64) (o : TxOp) (s : State),
      (s.sqr n.val).inProgress 3 = some o ∧
      o.fn = 4 ∧
      o.result = none) ∧
    (∃ (n : Fin 64) (o : TxOp) (s : State),
      (s.sqr n.val).inProgress 3 = some o ∧
      o.fn = 5 ∧
      o.result = none) :=
  ⟨⟨0, opOf 3 3, opSt 3 3, by decide +kernel, by decide +kernel, by decide +kernel⟩,
    ⟨0, opOf 3 4, opSt 3 4, by decide +kernel, by decide +kernel, by decide +kernel⟩,
    ⟨0, opOf 3 5, opSt 3 5, by decide +kernel, by decide +kernel, by decide +kernel⟩⟩

theorem SquareControlComplete_witness_1 :
    (∃ (r : Req) (n : Fin 64) (d : WData) (s : State),
      s.sqWriter r n.val = true ∧
      (d.withBit 1).bits1 % 32 = 2 ∧
      s.ustate (sqUnit n.val) = US.ready ∧
      s.epochHeld (sqUnit n.val) = false ∧
      (s.sqr n.val).loading = none ∧
      (s.sqr n.val).fresh = true ∧
      s.rd (F.SQ_ENTRY_ENTRY n.val) < storeSize) ∧
    (∃ (r : Req) (n : Fin 64) (d : WData) (s : State),
      s.sqWriter r n.val = true ∧
      (d.withBit 2).bits1 % 32 = 4 ∧
      s.ustate (sqUnit n.val) = US.busy ∧
      s.sqRun n.val = runRunning) ∧
    (∃ (r : Req) (n : Fin 64) (d : WData) (s : State),
      s.sqWriter r n.val = true ∧
      (d.withBit 3).bits1 % 32 = 8 ∧
      s.ustate (sqUnit n.val) = US.ready ∧
      (s.sqr n.val).loading = none ∧
      s.epochHeld (sqUnit n.val) = false ∧
      s.epochFree (sqUnit n.val) = true) ∧
    (∃ (n : Fin 64) (s : State),
      (s.sqr n.val).loading = some false) ∧
    (∃ (r : Req) (n : Fin 64) (d : WData) (s : State),
      s.sqWriter r n.val = true ∧
      (d.withBit 4).bits1 % 32 = 16 ∧
      (s.ustate (sqUnit n.val) = US.ready ∨ s.ustate (sqUnit n.val) = US.busy) ∧
      s.epochFree (sqUnit n.val) = true) ∧
    (∃ (n : Fin 64) (s : State),
      s.ustate (sqUnit n.val) = US.resetting) ∧
    (∃ (r : Req) (n : Fin 64) (d : WData) (s : State),
      s.sqWriter r n.val = true ∧
      bit d.bits1 0 = true ∧
      bit d.bits1 1 = false) :=
  ⟨⟨.host, 0, ⟨.both, 0#64⟩, State.reset.setUstate 0x1000 US.ready, by decide +kernel, by decide +kernel, by decide +kernel, by decide +kernel, by decide +kernel, by decide +kernel, by decide +kernel⟩,
    ⟨.host, 0, ⟨.both, 0#64⟩, txSt 19, by decide +kernel, by decide +kernel, by decide +kernel, by decide +kernel⟩,
    ⟨.host, 0, ⟨.both, 0#64⟩, State.reset.setUstate 0x1000 US.ready, by decide +kernel, by decide +kernel, by decide +kernel, by decide +kernel, by decide +kernel, by decide +kernel⟩,
    ⟨0, State.reset.setSq 0 { sq0 with loading := some false }, by decide +kernel⟩,
    ⟨.host, 0, ⟨.both, 0#64⟩, State.reset.setUstate 0x1000 US.ready, by decide +kernel, by decide +kernel, by decide +kernel, by decide +kernel⟩,
    ⟨0, State.reset.setUstate 0x1000 US.resetting, by decide +kernel⟩,
    ⟨.host, 0, ⟨.both, 1#64⟩, State.reset, by decide +kernel, by decide +kernel, by decide +kernel⟩⟩

theorem SquareControlComplete_witness_2 :
    (∃ (r : Req) (n : Fin 64) (d : WData) (s : State),
      s.sqWriter r n.val = true ∧
      bit d.bits1 0 = false ∧
      bit d.bits1 1 = true) ∧
    (∃ (m : Msg) (s : State),
      m.kind = 2 ∧
      m.op = 0x1F ∧
      m.tag = 0xFF ∧
      m.dest / 0x1000 = 1 ∧
      m.destModule = s.moduleNo ∧
      s.inOrder m = true ∧
      s.present m.dest = true ∧
      m.user = (s.takeMsg m).epochOf (sqUnit (m.dest % 0x1000))) ∧
    (∃ (n : Fin 64) (y : SqRest) (s : State),
      (s.sqr n.val).resting = some y ∧
      y.forced = false ∧
      (s.sqr n.val).txq = [] ∧
      s.serving (sqUnit n.val) = true) ∧
    (∃ (part : Nat) (n : Fin 64) (y : SqRest) (s : State),
      (s.sqr n.val).rested = some y ∧
      s.ustate (sqUnit n.val) = US.resting) :=
  ⟨⟨.host, 0, ⟨.both, 2#64⟩, State.reset, by decide +kernel, by decide +kernel, by decide +kernel⟩,
    ⟨ansMsg, State.reset, by decide +kernel, by decide +kernel, by decide +kernel, by decide +kernel, by decide +kernel, by decide +kernel, by decide +kernel, by decide +kernel⟩,
    ⟨0, ⟨none, false, 4, 0⟩, (State.reset.setUstate 0x1000 US.ready).setSq 0 { sq0 with resting := some ⟨none, false, 4, 0⟩ }, by decide +kernel, by decide +kernel, by decide +kernel, by decide +kernel⟩,
    ⟨0, 0, ⟨none, false, 4, 0⟩, (State.reset.setUstate 0x1000 US.resting).setSq 0 { sq0 with rested := some ⟨none, false, 4, 0⟩ }, by decide +kernel, by decide +kernel⟩⟩

theorem PlanesComplete_witness_1 :
    (∃ (m : Msg) (s : State),
      m.kind = 0 ∧
      m.op = 1 ∧
      m.dest / 0x1000 = 2 ∧
      m.destModule = s.moduleNo ∧
      s.inOrder m = true ∧
      s.present m.dest = true ∧
      (s.ustate m.dest = US.ready ∨ s.ustate m.dest = US.busy) ∧
      (s.takeMsg m).msgFenced m = false ∧
      m.payload.length = 64 ∧
      s.shell (m.dest % 0x1000) ≠ shLoading ∧
      (s.plane (m.dest % 0x1000)).queue.length + (s.plane (m.dest % 0x1000)).run.isSome.toNat < 8 ∧
      (s.takeMsg m).plCheck (m.dest % 0x1000) (plJob m.payload) = St.ok) ∧
    (∃ (p : Fin 32) (m : Msg) (s : State),
      s.serving (planeUnit p.val) = true ∧
      s.shell p.val = shIdle ∧
      (s.plane p.val).run = none ∧
      (s.plane p.val).openWait = false ∧
      s.plWants p.val = false ∧
      s.plRestDue p.val = false ∧
      nextJob (s.plane p.val).queue = some m) ∧
    (∃ (p : Fin 32) (r : PlRun) (s : State),
      (s.plane p.val).run = some r ∧
      s.shell p.val = shRunning ∧
      r.stop = false ∧
      r.vec < (plJob r.msg.payload).vectors ∧
      (s.plane p.val).breach ≠ some 0) ∧
    (∃ (p : Fin 32) (r : PlRun) (s : State),
      (s.plane p.val).run = some r ∧
      s.shell p.val = shRunning ∧
      (plJob r.msg.payload).vectors ≤ r.vec) ∧
    (∃ (r : Req) (p : Fin 32) (d : WData) (s : State),
      s.present (planeUnit p.val) = true ∧
      s.plWriter r p.val = true ∧
      (d.withBit 2).bits1 % 64 = 4 ∧
      s.serving (planeUnit p.val) = true ∧
      s.shell p.val = shIdle ∧
      (s.plane p.val).openWait = false ∧
      (s.plLoadRange p.val).1 + (s.plLoadRange p.val).2 ≤ 1024) ∧
    (∃ (r : Req) (p : Fin 32) (d : WData) (s : State),
      s.present (planeUnit p.val) = true ∧
      s.plWriter r p.val = true ∧
      (d.withBit 3).bits1 % 64 = 8 ∧
      s.serving (planeUnit p.val) = true ∧
      s.shell p.val = shLoading) ∧
    (∃ (p : Fin 32) (s : State),
      s.shell p.val = shChecking ∧
      s.rd (F.PL_LOAD_EXPECT_CRC p.val) = crc32c (((List.range (s.plane p.val).opened.2).map ((s.plane p.val).opened.1 + ·)).flatMap (s.plColumn p.val)) ∧
      (∀ j ∈ (s.plane p.val).wbad ++ (s.plane p.val).cbad, j < 1024)) :=
  ⟨⟨plMsg, plSt, by decide +kernel, by decide +kernel, by decide +kernel, by decide +kernel, by decide +kernel, by decide +kernel, by decide +kernel, by decide +kernel, by decide +kernel, by decide +kernel, by decide +kernel, by decide +kernel⟩,
    ⟨0, plMsg, plSt.setPl 0 { pl0 with queue := [plMsg] }, by decide +kernel, by decide +kernel, by decide +kernel, by decide +kernel, by decide +kernel, by decide +kernel, by decide +kernel⟩,
    ⟨0, plRun0 plMsg, (plSt.setPl 0 { pl0 with run := some (plRun0 plMsg) }).setShell 0 shRunning, by decide +kernel, by decide +kernel, by decide +kernel, by decide +kernel, by decide +kernel⟩,
    ⟨0, { plRun0 plMsg with vec := 1 }, (plSt.setPl 0 { pl0 with run := some { plRun0 plMsg with vec := 1 } }).setShell 0 shRunning, by decide +kernel, by decide +kernel, by decide +kernel⟩,
    ⟨.host, 0, ⟨.both, 0#64⟩, plSt, by decide +kernel, by decide +kernel, by decide +kernel, by decide +kernel, by decide +kernel, by decide +kernel, by decide +kernel⟩,
    ⟨.host, 0, ⟨.both, 0#64⟩, plSt.setShell 0 shLoading, by decide +kernel, by decide +kernel, by decide +kernel, by decide +kernel, by decide +kernel⟩,
    ⟨0, ((plSt.setShell 0 shChecking).setPl 0 { pl0 with opened := (0, 1) }).wr (F.PL_LOAD_EXPECT_CRC 0) (821882304), by decide +kernel, ((by decide +kernel : _ = 821882304)).trans (crc_zero512.symm.trans (congrArg crc32c (by decide +kernel))), by decide +kernel⟩⟩

theorem PlanesComplete_witness_2 :
    (∃ (r : Req) (p : Fin 32) (d : WData) (s : State),
      s.present (planeUnit p.val) = true ∧
      s.plWriter r p.val = true ∧
      (d.withBit 4).bits1 % 64 = 16 ∧
      s.serving (planeUnit p.val) = true) ∧
    (∃ (r : Req) (p : Fin 32) (d : WData) (s : State),
      s.present (planeUnit p.val) = true ∧
      s.plWriter r p.val = true ∧
      (d.withBit 5).bits1 % 64 = 32 ∧
      s.serving (planeUnit p.val) = true) ∧
    (∃ (p : Fin 32) (s : State),
      s.serving (planeUnit p.val) = true ∧
      s.plWants p.val = true ∧
      (s.plane p.val).cal = none ∧
      s.shell p.val = shIdle) ∧
    (∃ (p : Fin 32) (s : State),
      (s.plane p.val).cal = some 0) ∧
    (∃ (p : Fin 32) (tm : BitVec 16) (s : State),
      s.present (planeUnit p.val) = true ∧
      s.plEff p.val = polHold ∧
      ((s.wr (F.PL_TEMP_T p.val) tm.toNat).plT p.val - (s.wr (F.PL_TEMP_T p.val) tm.toNat).rdS (F.PL_CAL_CTRL_T_FORCE p.val)).natAbs < ((s.wr (F.PL_TEMP_T p.val) tm.toNat).plRecalDt p.val).natAbs) ∧
    (∃ (p : Fin 32) (s : State),
      s.serving (planeUnit p.val) = true ∧
      s.on (F.PL_LIMITS_RECAL_MS p.val) = true ∧
      s.plEff p.val ≠ polHold) ∧
    (∃ (p : Fin 32) (s : State),
      s.serving (planeUnit p.val) = true ∧
      s.on (F.PL_CFG_WCHECK_US p.val) = true ∧
      s.shell p.val = shIdle ∧
      (s.plane p.val).checkCol ≠ 1023) :=
  ⟨⟨.host, 0, ⟨.both, 0#64⟩, plSt, by decide +kernel, by decide +kernel, by decide +kernel, by decide +kernel⟩,
    ⟨.host, 0, ⟨.both, 0#64⟩, plSt, by decide +kernel, by decide +kernel, by decide +kernel, by decide +kernel⟩,
    ⟨0, plSt.setPlane 0 { pl0 with wantFull := true }, by decide +kernel, by decide +kernel, by decide +kernel, by decide +kernel⟩,
    ⟨0, plSt.setPlane 0 { pl0 with cal := some 0 }, by decide +kernel⟩,
    ⟨0, 0, plSt.wr (F.PL_CAL_STATUS_EFFECTIVE 0) polHold, by decide +kernel, by decide +kernel, by decide +kernel⟩,
    ⟨0, plSt.wr (F.PL_LIMITS_RECAL_MS 0) 1, by decide +kernel, by decide +kernel, by decide +kernel⟩,
    ⟨0, plSt.wr (F.PL_CFG_WCHECK_US 0) 1, by decide +kernel, by decide +kernel, by decide +kernel, by decide +kernel⟩⟩

theorem PlanesComplete_witness_3 :
    (∃ (p : Fin 32) (s : State),
      s.serving (planeUnit p.val) = true ∧
      s.on (F.PL_CFG_PROBE_US p.val) = true ∧
      s.shell p.val = shIdle ∧
      (s.plane p.val).run = none) ∧
    (∃ (p : Fin 32) (s : State),
      s.present (planeUnit p.val) = true ∧
      s.on (F.PL_CFG_PROBE_US p.val) = false) ∧
    (∃ (r : Req) (p : Fin 32) (d : WData) (s : State),
      s.present (planeUnit p.val) = true ∧
      s.plWriter r p.val = true ∧
      (s.plane p.val).run.isSome = true) ∧
    (∃ (r : Req) (p : Fin 32) (j : Fin 1056) (d : WData) (s : State),
      s.present (planeUnit p.val) = true ∧
      s.plWriter r p.val = true ∧
      (s.plane p.val).run.isSome = true) ∧
    (∃ (p : Fin 32) (s : State),
      s.on (F.PL_CAL_STATUS_OVERRIDE p.val) = true ∧
      s.on (F.PL_CAL_STATUS_STUCK p.val) = false ∧
      2 * (s.plT p.val - s.rdS (F.PL_CAL_CTRL_T_FORCE p.val)).natAbs ≤ (s.plRecalDt p.val).natAbs) ∧
    (∃ (r : Req) (p : Fin 32) (d : WData) (s : State),
      s.present (planeUnit p.val) = true ∧
      s.plWriter r p.val = true ∧
      (d.withBit 1).bits1 % 64 = 2 ∧
      (s.ustate (planeUnit p.val) = US.ready ∨ s.ustate (planeUnit p.val) = US.busy) ∧
      s.epochFree (planeUnit p.val) = true) ∧
    (∃ (p : Fin 32) (s : State),
      s.ustate (planeUnit p.val) = US.resetting) :=
  ⟨⟨0, plSt.wr (F.PL_CFG_PROBE_US 0) 1, by decide +kernel, by decide +kernel, by decide +kernel, by decide +kernel⟩,
    ⟨0, plSt.wr (F.PL_CFG_PROBE_US 0) 0, by decide +kernel, by decide +kernel⟩,
    ⟨.host, 0, ⟨.both, 1#64⟩, plSt.setPl 0 { pl0 with run := some (plRun0 plMsg) }, by decide +kernel, by decide +kernel, by decide +kernel⟩,
    ⟨.host, 0, 0, ⟨.both, 1#64⟩, plSt.setPl 0 { pl0 with run := some (plRun0 plMsg) }, by decide +kernel, by decide +kernel, by decide +kernel⟩,
    ⟨0, plSt.wr (F.PL_CAL_STATUS_OVERRIDE 0) 1, by decide +kernel, by decide +kernel, by decide +kernel⟩,
    ⟨.host, 0, ⟨.both, 0#64⟩, plSt, by decide +kernel, by decide +kernel, by decide +kernel, by decide +kernel, by decide +kernel⟩,
    ⟨0, plSt.setUstate 0x2000 US.resetting, by decide +kernel⟩⟩

theorem AttentionComplete_witness_1 :
    (∃ (m : Msg) (s : State),
      m.kind = 0 ∧
      m.op = 1 ∧
      m.dest / 0x1000 = 3 ∧
      m.destModule = s.moduleNo ∧
      s.inOrder m = true ∧
      s.present m.dest = true ∧
      (s.ustate m.dest = US.ready ∨ s.ustate m.dest = US.busy) ∧
      (s.takeMsg m).msgFenced m = false ∧
      (8 ≤ s.ownerOf m.src ∨ m.srcModule ≠ s.moduleNo) ∧
      m.payload.length = 64 ∧
      1 ≤ field m.payload 0 1 ∧
      field m.payload 0 1 ≤ 8 ∧
      (s.eng (m.dest % 0x1000)).queue.length + (s.eng (m.dest % 0x1000)).run.isSome.toNat + (s.eng (m.dest % 0x1000)).yielded.isSome.toNat < 16 ∧
      (s.takeMsg m).aeCheck (m.dest % 0x1000) 0 m.payload = St.ok) ∧
    (∃ (e : Fin 8) (r : AeRun) (s : State),
      s.serving (engineUnit e.val) = true ∧
      (s.eng e.val).run = some r ∧
      r.finished = false ∧
      isAttend r.msg = true ∧
      r.slices = [] ∧
      (s.eng e.val).queue.filter isLatency = []) ∧
    (∃ (e : Fin 8) (m : Msg) (b : State) (r : AeRun) (k : KvJob) (s : State),
      (s.eng e.val).run = none ∧
      s.aeNext e.val 2 = some m ∧
      s.aeBegin e.val m = (r, b) ∧
      k = ⟨e.val, r.job, b.ownerOf (engineUnit e.val), b.masterOf (engineUnit e.val), m.payload⟩ ∧
      r.msg = m ∧
      b.aeCheck e.val r.job m.payload = St.ok ∧
      (b.kvOp k none).wait = false ∧
      k.resultAddr = 0) ∧
    (∃ (e : Fin 8) (m : Msg) (b : State) (r : AeRun) (k : KvJob) (s : State),
      (s.eng e.val).run = none ∧
      s.aeNext e.val 3 = some m ∧
      s.aeBegin e.val m = (r, b) ∧
      k = ⟨e.val, r.job, b.ownerOf (engineUnit e.val), b.masterOf (engineUnit e.val), m.payload⟩ ∧
      r.msg = m ∧
      b.aeCheck e.val r.job m.payload = St.ok ∧
      (b.kvOp k none).wait = false ∧
      k.resultAddr = 0) ∧
    (∃ (e : Fin 8) (m : Msg) (b : State) (r : AeRun) (k : KvJob) (s : State),
      (s.eng e.val).run = none ∧
      s.aeNext e.val 4 = some m ∧
      s.aeBegin e.val m = (r, b) ∧
      k = ⟨e.val, r.job, b.ownerOf (engineUnit e.val), b.masterOf (engineUnit e.val), m.payload⟩ ∧
      r.msg = m ∧
      b.aeCheck e.val r.job m.payload = St.ok ∧
      (b.kvOp k none).wait = false ∧
      k.resultAddr = 0) ∧
    (∃ (e : Fin 8) (m : Msg) (b : State) (r : AeRun) (k : KvJob) (s : State),
      (s.eng e.val).run = none ∧
      s.aeNext e.val 5 = some m ∧
      s.aeBegin e.val m = (r, b) ∧
      k = ⟨e.val, r.job, b.ownerOf (engineUnit e.val), b.masterOf (engineUnit e.val), m.payload⟩ ∧
      r.msg = m ∧
      b.aeCheck e.val r.job m.payload = St.ok ∧
      (b.kvOp k none).wait = false ∧
      k.resultAddr = 0) ∧
    (∃ (e : Fin 8) (m : Msg) (b : State) (r : AeRun) (k : KvJob) (s : State),
      (s.eng e.val).run = none ∧
      s.aeNext e.val 6 = some m ∧
      s.aeBegin e.val m = (r, b) ∧
      k = ⟨e.val, r.job, b.ownerOf (engineUnit e.val), b.masterOf (engineUnit e.val), m.payload⟩ ∧
      r.msg = m ∧
      b.aeCheck e.val r.job m.payload = St.ok ∧
      (b.kvOp k none).wait = false ∧
      k.resultAddr = 0) :=
  ⟨⟨kvMsg 4, kvSt, by decide +kernel, by decide +kernel, by decide +kernel, by decide +kernel, by decide +kernel, by decide +kernel, by decide +kernel, by decide +kernel, by decide +kernel, by decide +kernel, by decide +kernel, by decide +kernel, by decide +kernel, by decide +kernel⟩,
    ⟨0, aeRun0 (kvMsg 1) 0, kvSt.setEng 0 { ae0 with run := some (aeRun0 (kvMsg 1) 0) }, by decide +kernel, by decide +kernel, by decide +kernel, by decide +kernel, by decide +kernel, by decide +kernel⟩,
    ⟨0, kvMsg 2, (kvB 2).2, (kvB 2).1, kvK 2, kvQ 2, by decide +kernel, by decide +kernel, by decide +kernel, by decide +kernel, by decide +kernel, by decide +kernel, by decide +kernel, by decide +kernel⟩,
    ⟨0, kvMsg 3, (kvB 3).2, (kvB 3).1, kvK 3, kvQ 3, by decide +kernel, by decide +kernel, by decide +kernel, by decide +kernel, by decide +kernel, by decide +kernel, by decide +kernel, by decide +kernel⟩,
    ⟨0, kvMsg 4, (kvB 4).2, (kvB 4).1, kvK 4, kvQ 4, by decide +kernel, by decide +kernel, by decide +kernel, by decide +kernel, by decide +kernel, by decide +kernel, by decide +kernel, by decide +kernel⟩,
    ⟨0, kvMsg 5, (kvB 5).2, (kvB 5).1, kvK 5, kvQ 5, by decide +kernel, by decide +kernel, by decide +kernel, by decide +kernel, by decide +kernel, by decide +kernel, by decide +kernel, by decide +kernel⟩,
    ⟨0, kvMsg 6, (kvB 6).2, (kvB 6).1, kvK 6, kvQ 6, by decide +kernel, by decide +kernel, by decide +kernel, by decide +kernel, by decide +kernel, by decide +kernel, by decide +kernel, by decide +kernel⟩⟩

theorem AttentionComplete_witness_2 :
    (∃ (e : Fin 8) (m : Msg) (b : State) (r : AeRun) (k : KvJob) (s : State),
      (s.eng e.val).run = none ∧
      s.aeNext e.val 7 = some m ∧
      s.aeBegin e.val m = (r, b) ∧
      k = ⟨e.val, r.job, b.ownerOf (engineUnit e.val), b.masterOf (engineUnit e.val), m.payload⟩ ∧
      r.msg = m ∧
      b.aeCheck e.val r.job m.payload = St.ok ∧
      (b.kvOp k none).wait = false ∧
      k.resultAddr = 0) ∧
    (∃ (e : Fin 8) (m : Msg) (b : State) (r : AeRun) (k : KvJob) (s : State),
      (s.eng e.val).run = none ∧
      s.aeNext e.val 8 = some m ∧
      s.aeBegin e.val m = (r, b) ∧
      k = ⟨e.val, r.job, b.ownerOf (engineUnit e.val), b.masterOf (engineUnit e.val), m.payload⟩ ∧
      r.msg = m ∧
      b.aeCheck e.val r.job m.payload = St.ok ∧
      (b.kvOp k none).wait = false ∧
      k.resultAddr = 0) ∧
    (∃ (y : Limbo) (s : State),
      (s.kv.limbo.find? (fun x => x.jobs.isEmpty) = some y)) ∧
    (∃ (e : Fin 8) (h : AeHelp) (rest : List AeHelp) (r : AeRun) (s : State),
      (s.eng e.val).help = h :: rest ∧
      s.serving (engineUnit e.val) = true ∧
      ((s.setEng e.val { s.eng e.val with help := rest }).eng h.owner).run = some r ∧
      r.job = h.job ∧
      r.finished = false) ∧
    (∃ (e : Fin 8) (r : AeRun) (s : State),
      (s.eng e.val).run = some r ∧
      r.finished = true) ∧
    (∃ (r : Req) (e : Fin 8) (d : WData) (s : State),
      s.present (engineUnit e.val) = true ∧
      r.trusted = true ∧
      (d.withBit 1).bits1 % 4 = 2 ∧
      (s.ustate (engineUnit e.val) = US.ready ∨ s.ustate (engineUnit e.val) = US.busy) ∧
      s.epochFree (engineUnit e.val) = true) ∧
    (∃ (e : Fin 8) (s : State),
      s.ustate (engineUnit e.val) = US.resetting) :=
  ⟨⟨0, kvMsg 7, (kvB 7).2, (kvB 7).1, kvK 7, kvQ 7, by decide +kernel, by decide +kernel, by decide +kernel, by decide +kernel, by decide +kernel, by decide +kernel, by decide +kernel, by decide +kernel⟩,
    ⟨0, kvMsg 8, (kvB 8).2, (kvB 8).1, kvK 8, kvQ 8, by decide +kernel, by decide +kernel, by decide +kernel, by decide +kernel, by decide +kernel, by decide +kernel, by decide +kernel, by decide +kernel⟩,
    ⟨⟨0, 0, []⟩, { State.reset with kv := { State.reset.kv with limbo := [⟨0, 0, []⟩] } }, by decide +kernel⟩,
    ⟨0, ⟨1, 0, 1⟩, [], aeRun0 (kvMsg 1) 0, (kvSt.setEng 0 { ae0 with help := [⟨1, 0, 1⟩] }).setEng 1 { ae0 with run := some (aeRun0 (kvMsg 1) 0) }, by decide +kernel, by decide +kernel, by decide +kernel, by decide +kernel, by decide +kernel⟩,
    ⟨0, { aeRun0 (kvMsg 4) 0 with finished := true }, kvSt.setEng 0 { ae0 with run := some { aeRun0 (kvMsg 4) 0 with finished := true } }, by decide +kernel, by decide +kernel⟩,
    ⟨.host, 0, ⟨.both, 0#64⟩, kvSt, by decide +kernel, by decide +kernel, by decide +kernel, by decide +kernel, by decide +kernel⟩,
    ⟨0, kvSt.setUstate 0x3000 US.resetting, by decide +kernel⟩⟩

theorem AttentionComplete_witness_3 : ∃ (r : Req) (e : Fin 8) (d : WData) (s : State),
      s.present (engineUnit e.val) = true ∧
      r.trusted = true ∧
      bit (d.withBit 1).bits1 0 = false ∧
      bit ((d.withBit 1).over (s.reg R.KV_CTRL)) 1 = true ∧
      s.on F.KV_CTRL_ENABLE = false ∧
      (s.wr F.KV_CTRL_ENABLE 1).kvConfigError = false :=
  ⟨.host, 0, ⟨.both, 0#64⟩, kvSt.wr F.KV_CTRL_ENABLE 0, by decide +kernel, by decide +kernel, by decide +kernel, by decide +kernel, by decide +kernel, by decide +kernel⟩

theorem CheckerComplete_witness_1 :
    (∃ (m : Msg) (s : State),
      s.serving ccUnit = true ∧
      s.cc.run = none ∧
      nextJob s.cc.queue = some m ∧
      field m.payload 0 1 = joModel) ∧
    (∃ (m : Msg) (s : State),
      s.serving ccUnit = true ∧
      s.cc.run = none ∧
      nextJob s.cc.queue = some m ∧
      field m.payload 0 1 = joSdf) ∧
    (∃ (m : Msg) (s : State),
      s.serving ccUnit = true ∧
      s.cc.run = none ∧
      nextJob s.cc.queue = some m ∧
      field m.payload 0 1 = joBev) ∧
    (∃ (m : Msg) (tr : Traj) (s : State),
      s.serving ccUnit = true ∧
      s.cc.run = none ∧
      nextJob s.cc.queue = some m ∧
      field m.payload 0 1 = joCommit ∧
      s.cc.staged = some tr ∧
      tr.id = field m.payload 4 4 ∧
      tr.state = trTentative) ∧
    (∃ (m : Msg) (tr : Traj) (s : State),
      s.serving ccUnit = true ∧
      s.cc.run = none ∧
      nextJob s.cc.queue = some m ∧
      field m.payload 0 1 = joCancel ∧
      s.cc.staged = some tr ∧
      tr.id = field m.payload 4 4 ∧
      tr.state = trTentative) ∧
    (∃ (m : Msg) (s : State),
      s.serving ccUnit = true ∧
      s.cc.run = none ∧
      nextJob s.cc.queue = some m ∧
      field m.payload 0 1 = joFallback) ∧
    (∃ (n : Fin 257) (m : Msg) (s : State),
      s.serving ccUnit = true ∧
      s.cc.run = none ∧
      nextJob s.cc.queue = some m ∧
      field m.payload 0 1 = joCheck ∧
      ((chkDesc m.payload).stage = true → s.stagePending = false)) :=
  ⟨⟨ccMsg joModel, ccSt joModel, by decide +kernel, by decide +kernel, by decide +kernel, by decide +kernel⟩,
    ⟨ccMsg joSdf, ccSt joSdf, by decide +kernel, by decide +kernel, by decide +kernel, by decide +kernel⟩,
    ⟨ccMsg joBev, ccSt joBev, by decide +kernel, by decide +kernel, by decide +kernel, by decide +kernel⟩,
    ⟨ccMsg joCommit, ⟨0, 1, 2, 1, 1, 0, 0, 0, 0, 0, 0, 0, 0, [0, 0]⟩, (ccSt joCommit).setCc { (ccSt joCommit).cc with staged := some ⟨0, 1, 2, 1, 1, 0, 0, 0, 0, 0, 0, 0, 0, [0, 0]⟩ }, by decide +kernel, by decide +kernel, by decide +kernel, by decide +kernel, by decide +kernel, by decide +kernel, by decide +kernel⟩,
    ⟨ccMsg joCancel, ⟨0, 1, 2, 1, 1, 0, 0, 0, 0, 0, 0, 0, 0, [0, 0]⟩, (ccSt joCancel).setCc { (ccSt joCancel).cc with staged := some ⟨0, 1, 2, 1, 1, 0, 0, 0, 0, 0, 0, 0, 0, [0, 0]⟩ }, by decide +kernel, by decide +kernel, by decide +kernel, by decide +kernel, by decide +kernel, by decide +kernel, by decide +kernel⟩,
    ⟨ccMsg joFallback, ccSt joFallback, by decide +kernel, by decide +kernel, by decide +kernel, by decide +kernel⟩,
    ⟨0, ccMsg joCheck, ccSt joCheck, by decide +kernel, by decide +kernel, by decide +kernel, by decide +kernel, by decide +kernel⟩⟩

theorem CheckerComplete_witness_2 :
    (∃ (n : Fin 257) (q : CcRun) (s : State),
      s.cc.run = some q ∧
      q.waiting = false ∧
      q.ended = none ∧
      s.serving ccUnit = true) ∧
    (∃ (q : CcRun) (s : State),
      s.cc.run = some q ∧
      q.waiting = true ∧
      s.stagePending = false) ∧
    (∃ (q : CcRun) (s : State),
      s.cc.run = some q ∧
      (chkDesc q.msg.payload).deadline ≠ 0 ∧
      q.ended = none ∧
      q.waiting = true) ∧
    (∃ (q : CcRun) (s : State),
      s.cc.run = some q ∧
      (chkDesc q.msg.payload).deadline ≠ 0 ∧
      q.ended = none ∧
      q.waiting = false ∧
      q.cut = false) ∧
    (∃ (tr : Traj) (s : State),
      s.cc.staged = some tr ∧
      tr.state = trPending) ∧
    (∃ (tr : Traj) (s : State),
      s.cc.active = some tr ∧
      tr.fallback = false ∧
      s.cc.build = none) ∧
    (∃ (b : CcBuild) (s : State),
      s.cc.build = some b ∧
      s.cc.run = none) :=
  ⟨⟨0, ⟨ccMsg joCheck, false, [], 0, none, false, false⟩, (ccSt joCheck).setCc { (ccSt joCheck).cc with run := some ⟨ccMsg joCheck, false, [], 0, none, false, false⟩ }, by decide +kernel, by decide +kernel, by decide +kernel, by decide +kernel⟩,
    ⟨⟨ccMsg joCheck, true, [], 0, none, false, false⟩, (ccSt joCheck).setCc { (ccSt joCheck).cc with run := some ⟨ccMsg joCheck, true, [], 0, none, false, false⟩ }, by decide +kernel, by decide +kernel, by decide +kernel⟩,
    ⟨⟨ccMsgDl, true, [], 0, none, false, false⟩, (ccSt joCheck).setCc { (ccSt joCheck).cc with run := some ⟨ccMsgDl, true, [], 0, none, false, false⟩ }, by decide +kernel, by decide +kernel, by decide +kernel, by decide +kernel⟩,
    ⟨⟨ccMsgDl, false, [], 0, none, false, false⟩, (ccSt joCheck).setCc { (ccSt joCheck).cc with run := some ⟨ccMsgDl, false, [], 0, none, false, false⟩ }, by decide +kernel, by decide +kernel, by decide +kernel, by decide +kernel, by decide +kernel⟩,
    ⟨⟨0, 2, 2, 1, 1, 0, 0, 0, 0, 0, 0, 0, 0, [0, 0]⟩, (ccSt joCheck).setCc { (ccSt joCheck).cc with staged := some ⟨0, 2, 2, 1, 1, 0, 0, 0, 0, 0, 0, 0, 0, [0, 0]⟩ }, by decide +kernel, by decide +kernel⟩,
    ⟨⟨0, 3, 2, 1, 0, 0, 0, 0, 0, 0, 0, 0, 0, [0, 0]⟩, (ccSt joCheck).setCc { (ccSt joCheck).cc with active := some ⟨0, 3, 2, 1, 0, 0, 0, 0, 0, 0, 0, 0, 0, [0, 0]⟩ }, by decide +kernel, by decide +kernel, by decide +kernel⟩,
    ⟨⟨2, 0, ⟨0, 3, 2, 1, 0, 0, 0, 0, 0, 0, 0, 0, 0, [0, 0]⟩⟩, (ccSt joCheck).setCc { (ccSt joCheck).cc with build := some ⟨2, 0, ⟨0, 3, 2, 1, 0, 0, 0, 0, 0, 0, 0, 0, 0, [0, 0]⟩⟩ }, by decide +kernel, by decide +kernel⟩⟩

theorem CheckerComplete_witness_3 :
    (∃ (r : Req) (d : WData) (s : State),
      s.mayUse r ccUnit = true ∧
      (d.withBit 3).bits1 % 8 = 0 ∧
      s.ustate ccUnit ≠ US.off ∧
      s.ustate ccUnit ≠ US.quarantined) ∧
    (∃ (r : Req) (d : WData) (s : State),
      s.mayUse r ccUnit = true ∧
      (d.withBit 2).bits1 % 16 = 4 ∧
      s.serving ccUnit = true ∧
      s.epochFree ccUnit = true) ∧
    (∃ (s : State),
      s.ustate ccUnit = US.resetting) :=
  ⟨⟨.host, ⟨.both, 0#64⟩, ccSt joCheck, by decide +kernel, by decide +kernel, by decide +kernel, by decide +kernel⟩,
    ⟨.host, ⟨.both, 0#64⟩, ccSt joCheck, by decide +kernel, by decide +kernel, by decide +kernel, by decide +kernel⟩,
    ⟨State.reset.setUstate ccUnit US.resetting, by decide +kernel⟩⟩

theorem DynamicsComplete_witness_1 :
    (∃ (m : Msg) (s : State),
      s.serving dynUnit = true ∧
      s.dyn.solve = none ∧
      s.dyn.paused = none ∧
      nextJob s.dyn.queue = some m ∧
      field m.payload 0 1 = djModel) ∧
    (∃ (m : Msg) (s : State),
      s.serving dynUnit = true ∧
      s.dyn.solve = none ∧
      s.dyn.paused = none ∧
      nextJob s.dyn.queue = some m ∧
      field m.payload 0 1 = djModel) ∧
    (∃ (m : Msg) (s : State),
      s.serving dynUnit = true ∧
      s.dyn.solve = none ∧
      s.dyn.paused = none ∧
      nextJob s.dyn.queue = some m ∧
      field m.payload 0 1 = djTasks) ∧
    (∃ (m : Msg) (s : State),
      s.serving dynUnit = true ∧
      s.dyn.solve = none ∧
      s.dyn.paused = none ∧
      nextJob s.dyn.queue = some m ∧
      field m.payload 0 1 = djTasks) ∧
    (∃ (m : Msg) (s : State),
      s.serving dynUnit = true ∧
      s.dyn.solve = none ∧
      s.dyn.paused = none ∧
      nextJob s.dyn.queue = some m ∧
      field m.payload 0 1 = djCompute) ∧
    (∃ (m : Msg) (s : State),
      s.serving dynUnit = true ∧
      s.dyn.solve = none ∧
      s.dyn.paused = none ∧
      nextJob s.dyn.queue = some m ∧
      field m.payload 0 1 = djCompute) ∧
    (∃ (r : Req) (d : WData) (s : State),
      s.present dynUnit = true ∧
      s.mayUse r dynUnit = true ∧
      bit d.bits1 0 = false ∧
      bit d.bits1 3 = false ∧
      bit d.bits1 4 = false) :=
  ⟨⟨dynMsg djModel, dynSt djModel, by decide +kernel, by decide +kernel, by decide +kernel, by decide +kernel, by decide +kernel⟩,
    ⟨dynMsg djModel, dynSt djModel, by decide +kernel, by decide +kernel, by decide +kernel, by decide +kernel, by decide +kernel⟩,
    ⟨dynMsg djTasks, dynSt djTasks, by decide +kernel, by decide +kernel, by decide +kernel, by decide +kernel, by decide +kernel⟩,
    ⟨dynMsg djTasks, dynSt djTasks, by decide +kernel, by decide +kernel, by decide +kernel, by decide +kernel, by decide +kernel⟩,
    ⟨dynMsg djCompute, dynSt djCompute, by decide +kernel, by decide +kernel, by decide +kernel, by decide +kernel, by decide +kernel⟩,
    ⟨dynMsg djCompute, dynSt djCompute, by decide +kernel, by decide +kernel, by decide +kernel, by decide +kernel, by decide +kernel⟩,
    ⟨.host, ⟨.both, 6#64⟩, dynSt djModel, by decide +kernel, by decide +kernel, by decide +kernel, by decide +kernel, by decide +kernel⟩⟩

theorem DynamicsComplete_witness_2 :
    (∃ (r : Req) (d : WData) (s : State),
      s.present dynUnit = true ∧
      s.mayUse r dynUnit = true ∧
      bit (d.withBit 3).bits1 0 = false ∧
      bit (d.withBit 3).bits1 4 = false ∧
      2 ≤ s.rd F.DYN_CFG_TRIGGER) ∧
    (∃ (dm : DynModel) (s : State),
      s.rd F.DYN_CFG_TRIGGER = 0 ∧
      s.dyn.model = some dm ∧
      s.present dynUnit = true ∧
      s.on F.DYN_CTRL_RUN = true ∧
      s.on F.DYN_STATE_TASKS_VALID = true ∧
      s.serving dynUnit = true ∧
      s.dyn.solve = none) ∧
    (∃ (m : Msg) (s : State),
      m.kind = 1 ∧
      m.op = 4 ∧
      m.dest = dynUnit ∧
      m.destModule = s.moduleNo ∧
      s.inOrder m = true ∧
      answerOf (s.ustate dynUnit) = St.ok ∧
      s.rd F.DYN_CFG_TRIGGER = 1 ∧
      m.src / 0x100 = 0x53) ∧
    (∃ (s : State),
      s.dyn.solve.isSome = true ∧
      s.rd F.DYN_PERIOD_DEADLINE_US ≠ 0) ∧
    (∃ (s : State),
      s.dyn.solve.isSome = true ∧
      s.dyn.model.isSome = true) ∧
    (∃ (m : Msg) (s : State),
      s.dyn.paused = some m ∧
      s.dyn.solve = none ∧
      s.serving dynUnit = true) ∧
    (∃ (r : Req) (d : WData) (s : State),
      s.present dynUnit = true ∧
      s.mayUse r dynUnit = true ∧
      (d.withBit 4).bits1 % 32 = 16 ∧
      s.serving dynUnit = true ∧
      s.epochFree dynUnit = true) :=
  ⟨⟨.host, ⟨.both, 6#64⟩, (dynSt djModel).wr F.DYN_CFG_TRIGGER 2, by decide +kernel, by decide +kernel, by decide +kernel, by decide +kernel, by decide +kernel⟩,
    ⟨dynM, dynRunSt, by decide +kernel, by decide +kernel, by decide +kernel, by decide +kernel, by decide +kernel, by decide +kernel, by decide +kernel⟩,
    ⟨originMsg State.reset 0x5300 dynUnit 3 4 [], dynRunSt.wr F.DYN_CFG_TRIGGER 1, by decide +kernel, by decide +kernel, by decide +kernel, by decide +kernel, by decide +kernel, by decide +kernel, by decide +kernel, by decide +kernel⟩,
    ⟨(after dynRunSt (exec .dynPeriodTrigger dynRunSt)).wr F.DYN_PERIOD_DEADLINE_US 1, by decide +kernel, by decide +kernel⟩,
    ⟨after dynRunSt (exec .dynPeriodTrigger dynRunSt), by decide +kernel, by decide +kernel⟩,
    ⟨dynMsg djModel, (dynSt djModel).setDyn { (dynSt djModel).dyn with paused := some (dynMsg djModel) }, by decide +kernel, by decide +kernel, by decide +kernel⟩,
    ⟨.host, ⟨.both, 0#64⟩, dynSt djModel, by decide +kernel, by decide +kernel, by decide +kernel, by decide +kernel, by decide +kernel⟩⟩

theorem DynamicsComplete_witness_3 : ∃ (s : State),
      s.ustate dynUnit = US.resetting :=
  ⟨State.reset.setUstate dynUnit US.resetting, by decide +kernel⟩

theorem MeshComplete_witness_1 :
    (∃ (m : Msg) (s : State),
      m.kind ≠ 2 ∧
      m.destModule = s.moduleNo ∧
      s.inOrder m = true ∧
      s.meshDead m = false ∧
      s.present m.dest = true ∧
      m.dest / 0x1000 = 1) ∧
    (∃ (m : Msg) (s : State),
      m.kind ≠ 2 ∧
      m.destModule = s.moduleNo ∧
      s.inOrder m = true ∧
      s.meshDead m = false ∧
      s.present m.dest = true ∧
      m.dest = ccUnit ∧
      m.op = 1) ∧
    (∃ (m : Msg) (s : State),
      m.kind ≠ 2 ∧
      m.destModule = s.moduleNo ∧
      s.inOrder m = true ∧
      s.meshDead m = false ∧
      s.present m.dest = true ∧
      m.dest = dynUnit ∧
      m.op = 1) ∧
    (∃ (m : Msg) (s : State),
      m.kind ≠ 2 ∧
      m.destModule = s.moduleNo ∧
      s.inOrder m = true ∧
      s.meshDead m = false ∧
      s.present m.dest = true ∧
      (m.dest / 0x1000 = 2 ∨ m.dest / 0x1000 = 3) ∧
      (m.op = 2 ∨ m.op = 3) ∧
      m.kind ≠ 3 ∧
      (s.takeMsg m).serving m.dest = true ∧
      (s.takeMsg m).msgFenced m = false) ∧
    (∃ (m : Msg) (s : State),
      m.kind ≠ 2 ∧
      m.destModule = s.moduleNo ∧
      s.inOrder m = true ∧
      s.meshDead m = false ∧
      m.dest = 0xF000) ∧
    (∃ (m : Msg) (s : State),
      m.kind ≠ 2 ∧
      m.destModule = s.moduleNo ∧
      s.inOrder m = true ∧
      s.meshDead m = false ∧
      m.dest ≠ 0xF000 ∧
      s.present m.dest = false) ∧
    (∃ (m : Msg) (s : State),
      m.kind = 2 ∧
      m.tag ≠ 0xFF ∧
      m.destModule = s.moduleNo ∧
      s.inOrder m = true ∧
      s.meshDead m = false ∧
      m.dest / 0x1000 = 1 ∧
      s.present m.dest = true) :=
  ⟨⟨msg1, State.reset, by decide +kernel, by decide +kernel, by decide +kernel, by decide +kernel, by decide +kernel, by decide +kernel⟩,
    ⟨ccMsg joModel, State.reset, by decide +kernel, by decide +kernel, by decide +kernel, by decide +kernel, by decide +kernel, by decide +kernel, by decide +kernel⟩,
    ⟨dynMsg djModel, dynSt djModel, by decide +kernel, by decide +kernel, by decide +kernel, by decide +kernel, by decide +kernel, by decide +kernel, by decide +kernel⟩,
    ⟨{ plMsg with op := 2 }, plSt, by decide +kernel, by decide +kernel, by decide +kernel, by decide +kernel, by decide +kernel, by decide +kernel, by decide +kernel, by decide +kernel, by decide +kernel, by decide +kernel⟩,
    ⟨{ msg1 with dest := 0xF000 }, State.reset, by decide +kernel, by decide +kernel, by decide +kernel, by decide +kernel, by decide +kernel⟩,
    ⟨{ msg1 with dest := 0x2FFF }, State.reset, by decide +kernel, by decide +kernel, by decide +kernel, by decide +kernel, by decide +kernel, by decide +kernel⟩,
    ⟨{ msg1 with kind := 2, tag := 0 }, State.reset, by decide +kernel, by decide +kernel, by decide +kernel, by decide +kernel, by decide +kernel, by decide +kernel, by decide +kernel⟩⟩

theorem MeshComplete_witness_2 : ∃ (m : Msg) (s : State),
      m.kind = 2 ∧
      m.tag ≠ 0xFF ∧
      m.destModule = s.moduleNo ∧
      s.inOrder m = true ∧
      s.meshDead m = false ∧
      m.dest = 0xF000 :=
  ⟨{ msg1 with kind := 2, tag := 0, dest := 0xF000 }, State.reset, by decide +kernel, by decide +kernel, by decide +kernel, by decide +kernel, by decide +kernel, by decide +kernel⟩

theorem MailboxSequencerComplete_witness :
    (∃ (k : Nat) (s : State),
      s.boot.phase = 3 ∧
      s.modState ≠ stDeep ∧
      s.mbNext = some k ∧
      k < 2) ∧
    (∃ (m : Fin 16) (e : MbExec) (c : Nat) (s : State),
      s.mbExec m.val = some e ∧
      e.status = some c) ∧
    (∃ (m : Fin 16) (e : MbExec) (s : State),
      s.mbExec m.val = some e ∧
      e.status = none ∧
      e.ran = true ∧
      ¬ (0x71 ≤ cmdOp e.cmd ∧ cmdOp e.cmd ≤ 0x77)) ∧
    (∃ (u : Fin 65536) (st : Fin 9) (epoch : Fin 65536) (part : Fin 9) (s : State),
      s.present u.val = true ∧
      hasState u.val = true ∧
      epoch.val = (s.unitView u.val).epoch) :=
  ⟨⟨1, st [(F.MB_CTRL_ENABLE 1, 1), (F.MB_POS_TAIL 1, 1)], by decide +kernel, by decide +kernel, by decide +kernel, by decide +kernel⟩,
    ⟨1, { mbEx 0 0 [] with status := some St.ok }, St.ok, State.reset.setExec 1 (some { mbEx 0 0 [] with status := some St.ok }), by decide +kernel, by decide +kernel⟩,
    ⟨1, { mbEx 0 0 [] with ran := true }, State.reset.setExec 1 (some { mbEx 0 0 [] with ran := true }), by decide +kernel, by decide +kernel, by decide +kernel, by decide +kernel⟩,
    ⟨0x1000, 0, 0, 0, State.reset, by decide +kernel, by decide +kernel, by decide +kernel⟩⟩

theorem GeneralCommandsComplete_witness_1 :
    (∃ (m : Fin 16) (e : MbExec) (s : State),
      s.MbRuns m.val e 0x00) ∧
    (∃ (m : Fin 16) (e : MbExec) (s : State),
      s.MbRuns m.val e 0x01) ∧
    (∃ (m : Fin 16) (e : MbExec) (a : Nat) (s : State),
      s.MbRuns m.val e 0x02 ∧
      hasState (cmdUnit e.cmd) = true ∧
      stateReg (cmdUnit e.cmd) = some a) ∧
    (∃ (m : Fin 16) (e : MbExec) (s : State),
      s.MbRuns m.val e 0x03 ∧
      (s.begun m.val e).ustate (cmdUnit e.cmd) ≠ US.quarantined ∧
      (s.begun m.val e).ustate (cmdUnit e.cmd) ≠ US.off) ∧
    (∃ (m : Fin 16) (e : MbExec) (s : State),
      s.MbRuns m.val e 0x04) ∧
    (∃ (m : Fin 16) (e : MbExec) (s : State),
      s.MbRuns m.val e 0x05 ∧
      (s.begun m.val e).ustate (cmdUnit e.cmd) = US.quarantined) ∧
    (∃ (m : Fin 16) (e : MbExec) (s1 s : State),
      s.MbRuns m.val e 0x06 ∧
      (s.begun m.val e).busPut ((s.begun m.val e).mbMaster m.val) (cmdArg e.cmd 1) ((((s.begun m.val e).log.ring.drop (max (cmdArg e.cmd 0) ((s.begun m.val e).log.total - (s.begun m.val e).log.ring.length) - ((s.begun m.val e).log.total - (s.begun m.val e).log.ring.length))).take (cmdArg e.cmd 2)).flatMap EvRec.bytes) false = (St.ok, s1)) :=
  ⟨⟨1, mbEx 0x00 0 [], mbSt 0x00 0 [], by decide +kernel⟩,
    ⟨1, mbEx 0x01 0 [], mbSt 0x01 0 [], by decide +kernel⟩,
    ⟨1, mbEx 0x02 4096 [], R.SQ_STATE 0, mbSt 0x02 4096 [], by decide +kernel, by decide +kernel, by decide +kernel⟩,
    ⟨1, mbEx 0x03 4096 [], mbSt 0x03 4096 [], by decide +kernel, by decide +kernel, by decide +kernel⟩,
    ⟨1, mbEx 0x04 4096 [], mbSt 0x04 4096 [], by decide +kernel⟩,
    ⟨1, mbEx 0x05 4096 [], (mbSt 0x05 4096 []).setUstate 0x1000 US.quarantined, by decide +kernel, by decide +kernel⟩,
    ⟨1, mbEx 0x06 0 [0, 1048576, 1], _, mbSt 0x06 0 [0, 1048576, 1], by decide +kernel, rfl⟩⟩

theorem GeneralCommandsComplete_witness_2 :
    (∃ (m : Fin 16) (e : MbExec) (s : State),
      s.MbRuns m.val e 0x07) ∧
    (∃ (m : Fin 16) (e : MbExec) (dd : WData) (s : State),
      s.MbRuns m.val e 0x08 ∧
      dd = ⟨.both, BitVec.ofNat 64 ((cmdArg e.cmd 1 &&& cmdArg e.cmd 2) ||| ((s.begun m.val e).reg (cmdArg e.cmd 0) &&& (all64 ^^^ cmdArg e.cmd 2) &&& (match regSpec (cmdArg e.cmd 0) with | some q => q.mask .rw ||| q.mask .rwl | none => 0)))⟩ ∧
      (s.begun m.val e).writeIgnored ((s.begun m.val e).mbReq m.val) (cmdArg e.cmd 0) dd = false) :=
  ⟨⟨1, mbEx 0x07 0 [R.IDENT], mbSt 0x07 0 [R.IDENT], by decide +kernel⟩,
    ⟨1, mbEx 0x08 0 [R.TIME_CTRL, 0, 0], _, mbSt 0x08 0 [R.TIME_CTRL, 0, 0], by decide +kernel, rfl, rfl⟩⟩

theorem PartitionCommandsComplete_witness_1 :
    (∃ (m : Fin 16) (e : MbExec) (s : State),
      s.MbRuns m.val e 0x10 ∧
      (s.begun m.val e).partSt (cmdArg e.cmd 0) = ptFree) ∧
    (∃ (m : Fin 16) (e : MbExec) (l : List Nat) (s : State),
      s.MbRuns m.val e 0x11 ∧
      ((s.begun m.val e).partSt (cmdArg e.cmd 0 % 8) = ptConfiguring ∨ (s.begun m.val e).partSt (cmdArg e.cmd 0 % 8) = ptActive) ∧
      (l = (assignUnits e.cmd).filter (fun u => decide ((s.begun m.val e).ownerOf u = cmdArg e.cmd 0 % 8) != !bit (cmdArg e.cmd 0) 8))) ∧
    (∃ (m : Fin 16) (e : MbExec) (d : List Byte) (bad : Bool) (s1 s : State),
      s.MbRuns m.val e 0x12 ∧
      (s.begun m.val e).on F.PART_CTRL_LOCK = false ∧
      (s.begun m.val e).busGet ((s.begun m.val e).mbMaster m.val) (cmdArg e.cmd 2) (8 * clampN 1 16 (bits (cmdArg e.cmd 0) 36 5)) = (St.ok, d, bad, s1)) ∧
    (∃ (m : Fin 16) (e : MbExec) (s : State),
      s.MbRuns m.val e 0x13 ∧
      (s.begun m.val e).sharesBut (cmdArg e.cmd 0) + cmdArg e.cmd 1 % 256 ≤ 248) ∧
    (∃ (m : Fin 16) (e : MbExec) (s : State),
      s.MbRuns m.val e 0x14) ∧
    (∃ (m : Fin 16) (e : MbExec) (s : State),
      s.MbRuns m.val e 0x15 ∧
      bit (cmdArg e.cmd 0) 16 = false ∧
      (s.begun m.val e).ownerOf (cmdUnit e.cmd) < 8 ∧
      (s.begun m.val e).shared (cmdUnit e.cmd % 0x1000) = false ∧
      ((s.begun m.val e).partSt (bits (cmdArg e.cmd 0) 0 3) = ptConfiguring ∨ (s.begun m.val e).partSt (bits (cmdArg e.cmd 0) 0 3) = ptActive)) ∧
    (∃ (m : Fin 16) (e : MbExec) (s : State),
      s.MbRuns m.val e 0x15 ∧
      bit (cmdArg e.cmd 0) 16 = true ∧
      ((s.begun m.val e).secondRuns (cmdUnit e.cmd % 0x1000) = false ∨ ((s.begun m.val e).sqr (cmdUnit e.cmd % 0x1000)).txq = [])) :=
  ⟨⟨1, mbEx 0x10 0 [1], mbSt 0x10 0 [1], by decide +kernel, by decide +kernel⟩,
    ⟨1, mbEx 0x11 0 [1, 1], _, (mbSt 0x11 0 [1, 1]).wr (F.PART_STATE_STATE 1) ptConfiguring, by decide +kernel, by decide +kernel, rfl⟩,
    ⟨1, mbEx 0x12 0 [0, 0, 1048576], _, _, _, mbSt 0x12 0 [0, 0, 1048576], by decide +kernel, by decide +kernel, rfl⟩,
    ⟨1, mbEx 0x13 0 [1, 0], mbSt 0x13 0 [1, 0], by decide +kernel, by decide +kernel⟩,
    ⟨1, mbEx 0x14 0 [1], mbSt 0x14 0 [1], by decide +kernel⟩,
    ⟨1, mbEx 0x15 4096 [1], ((mbSt 0x15 4096 [1]).wr (F.PART_STATE_STATE 1) ptConfiguring).setOwner 0 0x1000 true, by decide +kernel, by decide +kernel, by decide +kernel, by decide +kernel, by decide +kernel⟩,
    ⟨1, mbEx 0x15 4096 [65536], mbSt 0x15 4096 [65536], by decide +kernel, by decide +kernel, by decide +kernel⟩⟩

theorem PartitionCommandsComplete_witness_2 :
    (∃ (m : Fin 16) (e : MbExec) (s : State),
      s.MbRuns m.val e 0x16 ∧
      (s.begun m.val e).partSt (cmdArg e.cmd 0) = ptConfiguring) ∧
    (∃ (m : Fin 16) (e : MbExec) (s : State),
      s.MbRuns m.val e 0x17 ∧
      (s.begun m.val e).partSt (cmdArg e.cmd 0 % 8) ≠ ptFree) ∧
    (∃ (m : Fin 16) (e : MbExec) (s : State),
      s.MbRuns m.val e 0x18) ∧
    (∃ (p : Fin 8) (s : State),
      s.castle.restartAt = none ∧
      s.safePhase ≠ phRestarting ∧
      s.partSt p.val = ptResetting ∧
      s.partSettled p.val = true ∧
      s.resetWaiter p.val = none) ∧
    (∃ (s : State),
      (s.sched.running = true ∨ s.on F.PART_SCHED_CTRL_ENABLE = true)) :=
  ⟨⟨1, mbEx 0x16 0 [1], (mbSt 0x16 0 [1]).wr (F.PART_STATE_STATE 1) ptConfiguring, by decide +kernel, by decide +kernel⟩,
    ⟨1, mbEx 0x17 0 [1], (mbSt 0x17 0 [1]).wr (F.PART_STATE_STATE 1) ptActive, by decide +kernel, by decide +kernel⟩,
    ⟨1, mbEx 0x18 0 [1], mbSt 0x18 0 [1], by decide +kernel⟩,
    ⟨1, st [(F.PART_STATE_STATE 1, ptResetting)], by decide +kernel, by decide +kernel, by decide +kernel, by decide +kernel, by decide +kernel⟩,
    ⟨st [(F.PART_SCHED_CTRL_ENABLE, 1)], by decide +kernel⟩⟩

theorem ProgramCommandsComplete_witness_1 :
    (∃ (m : Fin 16) (e : MbExec) (d : List Byte) (s1 s : State),
      s.MbRuns m.val e 0x20 ∧
      (s.begun m.val e).shared (cmdUnit e.cmd % 0x1000) = false ∧
      (s.begun m.val e).ustate (sqUnit (cmdUnit e.cmd % 0x1000)) = US.ready ∧
      ((s.begun m.val e).sqr (cmdUnit e.cmd % 0x1000)).loading = none ∧
      (s.begun m.val e).epochHeld (sqUnit (cmdUnit e.cmd % 0x1000)) = false ∧
      (s.begun m.val e).storeBadRange (cmdUnit e.cmd % 0x1000) (cmdArg e.cmd 2) (cmdArg e.cmd 1) = false ∧
      (s.begun m.val e).busGet ((s.begun m.val e).mbMaster m.val) (cmdArg e.cmd 0) (cmdArg e.cmd 1) = (St.ok, d, false, s1) ∧
      crc32c d = cmdArg e.cmd 4 % 2 ^ 32) ∧
    (∃ (m : Fin 16) (e : MbExec) (s : State),
      s.MbRuns m.val e 0x21 ∧
      bit (cmdArg e.cmd 1) 0 = false ∧
      ((bitList (cmdArg e.cmd 0) 64).all (fun n => (s.begun m.val e).runnable n false) = true)) ∧
    (∃ (m : Fin 16) (e : MbExec) (s : State),
      s.MbRuns m.val e 0x21 ∧
      bit (cmdArg e.cmd 1) 0 = true ∧
      ((bitList (cmdArg e.cmd 0) 64).all (fun n => (s.begun m.val e).runnable n true) = true)) ∧
    (∃ (m : Fin 16) (e : MbExec) (s : State),
      s.MbRuns m.val e 0x22 ∧
      (s.begun m.val e).serving (planeUnit (cmdUnit e.cmd % 0x1000)) = true ∧
      (s.begun m.val e).shell (cmdUnit e.cmd % 0x1000) ≠ shLoading ∧
      (s.begun m.val e).shell (cmdUnit e.cmd % 0x1000) ≠ shChecking ∧
      ((s.begun m.val e).plane (cmdUnit e.cmd % 0x1000)).openWait = false) ∧
    (∃ (m : Fin 16) (e : MbExec) (d : List Byte) (bad : Bool) (s1 s : State),
      s.MbRuns m.val e 0x23 ∧
      (s.begun m.val e).busGet ((s.begun m.val e).mbMaster m.val) (cmdArg e.cmd 0) 64 = (St.ok, d, bad, s1)) ∧
    (∃ (m : Fin 16) (ext : List (Fin 13 × List Byte × Bool)) (e : MbExec) (s : State),
      s.MbRuns m.val e 0x30 ∧
      ((s.begun m.val e).readDesc m.val (cmdArg e.cmd 0)).1 = St.ok ∧
      (((s.begun m.val e).readDesc m.val (cmdArg e.cmd 0)).2.2.readDesc m.val (cmdArg e.cmd 1)).1 = St.ok ∧
      (((s.begun m.val e).readDesc m.val (cmdArg e.cmd 0)).2.2.readDesc m.val (cmdArg e.cmd 1)).2.2.xferCheck ((((s.begun m.val e).readDesc m.val (cmdArg e.cmd 0)).2.2.readDesc m.val (cmdArg e.cmd 1)).2.2.mbMaster m.val) (⟨(((s.begun m.val e).readDesc m.val (cmdArg e.cmd 0)).2.2.readDesc m.val (cmdArg e.cmd 1)).2.1, ((s.begun m.val e).readDesc m.val (cmdArg e.cmd 0)).2.1, 0, 0, []⟩ : XferReq) true true = St.ok) ∧
    (∃ (m : Fin 16) (ext : List (Fin 13 × List Byte × Bool)) (e : MbExec) (s : State),
      s.MbRuns m.val e 0x31 ∧
      ((s.begun m.val e).readDesc m.val (cmdArg e.cmd 0)).1 = St.ok ∧
      ((s.begun m.val e).readDesc m.val (cmdArg e.cmd 0)).2.2.xferCheck (((s.begun m.val e).readDesc m.val (cmdArg e.cmd 0)).2.2.mbMaster m.val) ⟨((s.begun m.val e).readDesc m.val (cmdArg e.cmd 0)).2.1, ((s.begun m.val e).readDesc m.val (cmdArg e.cmd 0)).2.1, 0, 0, []⟩ true true = St.ok) :=
  ⟨⟨1, mbEx 0x20 4096 [1048576, 0, 0, 0, crc32c []], _, _, mbSt 0x20 4096 [1048576, 0, 0, 0, crc32c []], by decide +kernel, by decide +kernel, by decide +kernel, by decide +kernel, by decide +kernel, by decide +kernel, rfl, rfl⟩,
    ⟨1, mbEx 0x21 0 [1], mbSt 0x21 0 [1], by decide +kernel, by decide +kernel, by decide +kernel⟩,
    ⟨1, mbEx 0x21 0 [1, 1], (mbSt 0x21 0 [1, 1]).setUstate 0x1000 US.busy, by decide +kernel, by decide +kernel, by decide +kernel⟩,
    ⟨1, mbEx 0x22 8192 [], mbSt 0x22 8192 [], by decide +kernel, by decide +kernel, by decide +kernel, by decide +kernel, by decide +kernel⟩,
    ⟨1, mbEx 0x23 8192 [1048576], _, _, _, mbSt 0x23 8192 [1048576], by decide +kernel, rfl⟩,
    ⟨1, [], mbEx 0x30 0 [sramBase, sramBase + 0x40], { (mbSt 0x30 0 [sramBase, sramBase + 0x40]) with mem := descCells sramBase 2 ++ descCells (sramBase + 0x40) 3 }, by decide +kernel, by decide +kernel, by decide +kernel, by decide +kernel⟩,
    ⟨1, [], mbEx 0x31 0 [sramBase, 5], { (mbSt 0x31 0 [sramBase, 5]) with mem := descCells sramBase 2 }, by decide +kernel, by decide +kernel, by decide +kernel⟩⟩

theorem ProgramCommandsComplete_witness_2 :
    (∃ (m : Fin 16) (e : MbExec) (s : State),
      s.MbRuns m.val e 0x32 ∧
      (s.begun m.val e).serving (cmdUnit e.cmd) = true ∧
      (s.begun m.val e).kvOn = true ∧
      2 ≤ ((s.begun m.val e).mbKvJob m.val e.cmd).op ∧
      8 ≥ ((s.begun m.val e).mbKvJob m.val e.cmd).op ∧
      (s.begun m.val e).kvFieldsOk ((s.begun m.val e).mbKvJob m.val e.cmd) = true) ∧
    (∃ (m : Fin 16) (e : MbExec) (s : State),
      s.MbRuns m.val e 0x33) :=
  ⟨⟨1, mbEx 0x32 12288 [8], kvSt.setExec 1 (some (mbEx 0x32 0x3000 [8])), by decide +kernel, by decide +kernel, by decide +kernel, by decide +kernel, by decide +kernel, by decide +kernel⟩,
    ⟨1, mbEx 0x33 0 [1], mbSt 0x33 0 [1], by decide +kernel⟩⟩

theorem TimeAndIngestCommandsComplete_witness_1 :
    (∃ (m : Fin 16) (e : MbExec) (sec : Nat) (s1 s : State),
      s.MbRuns m.val e 0x40 ∧
      (s.begun m.val e).regRead ((s.begun m.val e).mbReq m.val) (R.TB_NOW_SEC (cmdArg e.cmd 0)) = (sec, s1)) ∧
    (∃ (m : Fin 16) (e : MbExec) (s : State),
      s.MbRuns m.val e 0x41 ∧
      (s.begun m.val e).tbFree (cmdArg e.cmd 0) = true) ∧
    (∃ (m : Fin 16) (e : MbExec) (s : State),
      s.MbRuns m.val e 0x42 ∧
      (s.begun m.val e).tbFree (cmdArg e.cmd 0) = true ∧
      bit (cmdArg e.cmd 1) 32 = true ∧
      bit (cmdArg e.cmd 2) 32 = false) ∧
    (∃ (m : Fin 16) (e : MbExec) (s : State),
      s.MbRuns m.val e 0x42 ∧
      (s.begun m.val e).tbFree (cmdArg e.cmd 0) = true ∧
      bit (cmdArg e.cmd 1) 32 = false ∧
      bit (cmdArg e.cmd 2) 32 = true) ∧
    (∃ (m : Fin 16) (e : MbExec) (s : State),
      s.MbRuns m.val e 0x43 ∧
      (s.begun m.val e).on (F.PE_CTRL_ARM (cmdArg e.cmd 0)) = false) ∧
    (∃ (m : Fin 16) (e : MbExec) (s : State),
      s.MbRuns m.val e 0x44 ∧
      (s.begun m.val e).on (F.PE_CTRL_ARM (cmdArg e.cmd 0)) = true) ∧
    (∃ (m : Fin 16) (e : MbExec) (s : State),
      s.MbRuns m.val e 0x45) :=
  ⟨⟨1, mbEx 0x40 0 [0], _, _, mbSt 0x40 0 [0], by decide +kernel, rfl⟩,
    ⟨1, mbEx 0x41 0 [0, 5, 0], mbSt 0x41 0 [0, 5, 0], by decide +kernel, by decide +kernel⟩,
    ⟨1, mbEx 0x42 0 [0, 2 ^ 32, 0], mbSt 0x42 0 [0, 2 ^ 32, 0], by decide +kernel, by decide +kernel, by decide +kernel, by decide +kernel⟩,
    ⟨1, mbEx 0x42 0 [0, 0, 2 ^ 32], mbSt 0x42 0 [0, 0, 2 ^ 32], by decide +kernel, by decide +kernel, by decide +kernel, by decide +kernel⟩,
    ⟨1, mbEx 0x43 0 [0], mbSt 0x43 0 [0], by decide +kernel, by decide +kernel⟩,
    ⟨1, mbEx 0x44 0 [0], (mbSt 0x44 0 [0]).wr (F.PE_CTRL_ARM 0) 1, by decide +kernel, by decide +kernel⟩,
    ⟨1, mbEx 0x45 0 [0], mbSt 0x45 0 [0], by decide +kernel⟩⟩

theorem TimeAndIngestCommandsComplete_witness_2 :
    (∃ (m : Fin 16) (e : MbExec) (s : State),
      s.MbRuns m.val e 0x50) ∧
    (∃ (m : Fin 16) (e : MbExec) (s : State),
      s.MbRuns m.val e 0x51) ∧
    (∃ (m : Fin 16) (e : MbExec) (s : State),
      s.MbRuns m.val e 0x52) :=
  ⟨⟨1, mbEx 0x50 0 [256], mbSt 0x50 0 [256], by decide +kernel⟩,
    ⟨1, mbEx 0x51 0 [0], mbSt 0x51 0 [0], by decide +kernel⟩,
    ⟨1, mbEx 0x52 0 [0], mbSt 0x52 0 [0], by decide +kernel⟩⟩

theorem PowerAndImageCommandsComplete_witness_1 :
    (∃ (m : Fin 16) (e : MbExec) (s : State),
      s.MbRuns m.val e 0x60 ∧
      (s.begun m.val e).modState ≠ stSafe ∧
      (s.begun m.val e).on F.MODULE_STATE_IN_TRANSITION = false ∧
      cmdArg e.cmd 0 = (s.begun m.val e).modState) ∧
    (∃ (m : Fin 16) (e : MbExec) (s : State),
      s.MbRuns m.val e 0x60 ∧
      (s.begun m.val e).modState = stRun ∧
      (s.begun m.val e).on F.MODULE_STATE_IN_TRANSITION = false ∧
      cmdArg e.cmd 0 ≠ stRun) ∧
    (∃ (m : Fin 16) (e : MbExec) (s : State),
      s.MbRuns m.val e 0x61 ∧
      (s.begun m.val e).on F.PWR_CTRL_LOCK = false) ∧
    (∃ (m : Fin 16) (e : MbExec) (s : State),
      s.MbRuns m.val e 0x62 ∧
      cmdArg e.cmd 0 = 0 ∧
      (s.begun m.val e).ustate (cmdUnit e.cmd) = US.off) ∧
    (∃ (m : Fin 16) (e : MbExec) (s : State),
      s.MbRuns m.val e 0x62 ∧
      cmdArg e.cmd 0 = 0 ∧
      (s.begun m.val e).ustate (cmdUnit e.cmd) = US.retained) ∧
    (∃ (m : Fin 16) (e : MbExec) (s : State),
      s.MbRuns m.val e 0x62 ∧
      cmdArg e.cmd 0 = 1 ∧
      (s.begun m.val e).serving (cmdUnit e.cmd) = true) ∧
    (∃ (m : Fin 16) (e : MbExec) (s : State),
      s.MbRuns m.val e 0x62 ∧
      cmdArg e.cmd 0 = 2 ∧
      (s.begun m.val e).serving (cmdUnit e.cmd) = true) :=
  ⟨⟨1, mbEx 0x60 0 [3], mbSt 0x60 0 [3], by decide +kernel, by decide +kernel, by decide +kernel, by decide +kernel⟩,
    ⟨1, mbEx 0x60 0 [2], mbSt 0x60 0 [2], by decide +kernel, by decide +kernel, by decide +kernel, by decide +kernel⟩,
    ⟨1, mbEx 0x61 0 [1000], mbSt 0x61 0 [1000], by decide +kernel, by decide +kernel⟩,
    ⟨1, mbEx 0x62 4096 [0], (mbSt 0x62 4096 [0]).setUstate 0x1000 US.off, by decide +kernel, by decide +kernel, by decide +kernel⟩,
    ⟨1, mbEx 0x62 4096 [0], (mbSt 0x62 4096 [0]).setUstate 0x1000 US.retained, by decide +kernel, by decide +kernel, by decide +kernel⟩,
    ⟨1, mbEx 0x62 4096 [1], mbSt 0x62 4096 [1], by decide +kernel, by decide +kernel, by decide +kernel⟩,
    ⟨1, mbEx 0x62 4096 [2], mbSt 0x62 4096 [2], by decide +kernel, by decide +kernel, by decide +kernel⟩⟩

theorem PowerAndImageCommandsComplete_witness_2 :
    (∃ (m : Fin 16) (e : MbExec) (s : State),
      s.MbRuns m.val e 0x63) ∧
    (∃ (m : Fin 16) (e : MbExec) (q : ImgRecord) (s1 s : State),
      s.MbRuns m.val e 0x70 ∧
      cmdArg e.cmd 0 / 2 ^ 16 = 1 ∧
      layerFind (s.begun m.val e).userLayer (cmdArg e.cmd 0 % 2 ^ 16) = some q ∧
      (s.begun m.val e).busPut ((s.begun m.val e).mbMaster m.val) (cmdArg e.cmd 1) q.val false = (St.ok, s1)) ∧
    (∃ (m : Fin 16) (e : MbExec) (s : State),
      s.MbRuns m.val e 0x70 ∧
      cmdArg e.cmd 0 / 2 ^ 16 = 1 ∧
      layerFind (s.begun m.val e).userLayer (cmdArg e.cmd 0 % 2 ^ 16) = none) ∧
    (∃ (m : Fin 16) (e : MbExec) (s : State),
      s.MbRuns m.val e 0x71 ∧
      (s.begun m.val e).session = false) ∧
    (∃ (m : Fin 16) (e : MbExec) (d : List Byte) (s1 s : State),
      s.MbRuns m.val e 0x72 ∧
      (s.begun m.val e).session = true ∧
      cmdArg e.cmd 0 + cmdArg e.cmd 2 ≤ bankStatusOff ∧
      cmdArg e.cmd 1 + cmdArg e.cmd 2 ≤ (s.begun m.val e).dramEnd ∧
      (s.begun m.val e).busGet ((s.begun m.val e).mbMaster m.val) (cmdArg e.cmd 1) (cmdArg e.cmd 2) = (St.ok, d, false, s1)) ∧
    (∃ (m : Fin 16) (e : MbExec) (s : State),
      s.MbRuns m.val e 0x73 ∧
      (s.begun m.val e).session = true) ∧
    (∃ (m : Fin 16) (e : MbExec) (s : State),
      s.MbRuns m.val e 0x74 ∧
      (s.begun m.val e).session = true ∧
      (s.begun m.val e).bankIs (s.begun m.val e).otherBank stVerified = true ∧
      (s.begun m.val e).bankIs (s.begun m.val e).otherBank stRejected = false) :=
  ⟨⟨1, mbEx 0x63 0 [], mbSt 0x63 0 [], by decide +kernel⟩,
    ⟨1, mbEx 0x70 0 [0x10005, 0x100000], ⟨5, [0, 0], 0⟩, _, imgSt (mbSt 0x70 0 [0x10005, 0x100000]), by decide +kernel, by decide +kernel, by decide +kernel, rfl⟩,
    ⟨1, mbEx 0x70 0 [131071], mbSt 0x70 0 [131071], by decide +kernel, by decide +kernel, by decide +kernel⟩,
    ⟨1, mbEx 0x71 0 [], mbSt 0x71 0 [], by decide +kernel, by decide +kernel⟩,
    ⟨1, mbEx 0x72 0 [0, 1048576, 256], _, _, (mbSt 0x72 0 [0, 1048576, 256]).wr F.CFG_STATUS_SESSION 1, by decide +kernel, by decide +kernel, by decide +kernel, by decide +kernel, rfl⟩,
    ⟨1, mbEx 0x73 0 [], (mbSt 0x73 0 []).wr F.CFG_STATUS_SESSION 1, by decide +kernel, by decide +kernel⟩,
    ⟨1, mbEx 0x74 0 [], ((mbSt 0x74 0 []).wr F.CFG_STATUS_SESSION 1).programStatus 1 stVerified, by decide +kernel, by decide +kernel, by decide +kernel, by decide +kernel⟩⟩

theorem PowerAndImageCommandsComplete_witness_3 :
    (∃ (m : Fin 16) (e : MbExec) (s : State),
      s.MbRuns m.val e 0x75 ∧
      (s.begun m.val e).on F.CFG_STATUS_NO_IMAGE = false ∧
      (s.begun m.val e).on F.CFG_STATUS_TRIAL = true ∧
      bit (cmdArg e.cmd 0) 0 = false) ∧
    (∃ (m : Fin 16) (e : MbExec) (s : State),
      s.MbRuns m.val e 0x76 ∧
      (s.begun m.val e).session = true) ∧
    (∃ (m : Fin 16) (e : MbExec) (s : State),
      s.MbRuns m.val e 0x77 ∧
      (s.begun m.val e).rd F.CFG_OTP_KEY_PROGRAMMED &&& (15 ^^^ setBit ((s.begun m.val e).rd F.CFG_OTP_KEY_REVOKED) (cmdArg e.cmd 0) true) ≠ 0 ∧
      (s.begun m.val e).on F.CFG_STATUS_NO_IMAGE = true) :=
  ⟨⟨1, mbEx 0x75 0 [0], ((mbSt 0x75 0 [0]).wr F.CFG_STATUS_NO_IMAGE 0).wr F.CFG_STATUS_TRIAL 1, by decide +kernel, by decide +kernel, by decide +kernel, by decide +kernel⟩,
    ⟨1, mbEx 0x76 0 [], (mbSt 0x76 0 []).wr F.CFG_STATUS_SESSION 1, by decide +kernel, by decide +kernel⟩,
    ⟨1, mbEx 0x77 0 [0], ((mbSt 0x77 0 [0]).wr F.CFG_OTP_KEY_PROGRAMMED 3).wr F.CFG_STATUS_NO_IMAGE 1, by decide +kernel, by decide +kernel, by decide +kernel⟩⟩

theorem SafetyAndLinkCommandsComplete_witness_1 :
    (∃ (m : Fin 16) (e : MbExec) (s : State),
      s.MbRuns m.val e 0x80 ∧
      (s.begun m.val e).modState ≠ stSafe) ∧
    (∃ (m : Fin 16) (e : MbExec) (s : State),
      s.MbRuns m.val e 0x81) ∧
    (∃ (m : Fin 16) (e : MbExec) (s : State),
      s.MbRuns m.val e 0x90 ∧
      (s.begun m.val e).restEnabled (cmdUnit e.cmd) = true ∧
      bit (cmdArg e.cmd 0) 0 = false) ∧
    (∃ (m : Fin 16) (e : MbExec) (s : State),
      s.MbRuns m.val e 0x90 ∧
      (s.begun m.val e).restEnabled (cmdUnit e.cmd) = true ∧
      bit (cmdArg e.cmd 0) 0 = true) ∧
    (∃ (m : Fin 16) (e : MbExec) (s : State),
      s.MbRuns m.val e 0x91) ∧
    (∃ (m : Fin 16) (e : MbExec) (s : State),
      s.MbRuns m.val e 0xA0) ∧
    (∃ (m : Fin 16) (e : MbExec) (s : State),
      s.MbRuns m.val e 0xA1) :=
  ⟨⟨1, mbEx 0x80 0 [1], mbSt 0x80 0 [1], by decide +kernel, by decide +kernel⟩,
    ⟨1, mbEx 0x81 0 [], mbSt 0x81 0 [], by decide +kernel⟩,
    ⟨1, mbEx 0x90 4096 [0], (mbSt 0x90 4096 [0]).wr (F.SQ_CFG_REST_EN 0) 1, by decide +kernel, by decide +kernel, by decide +kernel⟩,
    ⟨1, mbEx 0x90 4096 [1], (mbSt 0x90 4096 [1]).wr (F.SQ_CFG_REST_EN 0) 1, by decide +kernel, by decide +kernel, by decide +kernel⟩,
    ⟨1, mbEx 0x91 4096 [], mbSt 0x91 4096 [], by decide +kernel⟩,
    ⟨1, mbEx 0xA0 0 [0], mbSt 0xA0 0 [0], by decide +kernel⟩,
    ⟨1, mbEx 0xA1 0 [0], mbSt 0xA1 0 [0], by decide +kernel⟩⟩

theorem SafetyAndLinkCommandsComplete_witness_2 : ∃ (m : Fin 16) (e : MbExec) (s : State),
      s.MbRuns m.val e 0xA2 :=
  ⟨1, mbEx 0xA2 0 [256], mbSt 0xA2 0 [256], by decide +kernel⟩

theorem SupervisionComplete_witness_1 :
    (∃ (m : Msg) (s : State),
      m.dest = 0xA000 ∧
      (m.cls = 1 ∨ m.cls = 3) ∧
      isPlaneReport m = false ∧
      s.castle.inbox.length < 256) ∧
    (∃ (m : Msg) (s : State),
      0xA400 ≤ m.dest ∧
      m.dest < 0xA420 ∧
      (m.cls = 1 ∨ m.cls = 3) ∧
      isPlaneReport m = false ∧
      m.op = 1 ∧
      16 ≤ m.payload.length) ∧
    (∃ (m : Msg) (s : State),
      isPlaneReport m = true ∧
      m.dest = 0xA000 ∧
      (m.cls = 1 ∨ m.cls = 3)) ∧
    (∃ (c : Fin 32) (s : State),
      s.cpReady c.val = true) ∧
    (∃ (c : Fin 32) (s : State),
      s.cpReady c.val = true) ∧
    (∃ (c : Fin 32) (f : CpFrame) (s : State),
      (s.cp c.val).opn = some f) ∧
    (∃ (n : Fin 128) (d : WData) (s : State),
      d.lowWritten = true ∧
      (s.writeReg (R.SC_CFG n.val) d).on (F.SC_CFG_ARM n.val) = true) :=
  ⟨⟨{ msg1 with dest := 0xA000 }, State.reset, by decide +kernel, by decide +kernel, by decide +kernel, by decide +kernel⟩,
    ⟨{ msg1 with dest := 0xA400, payload := List.replicate 16 0#8 }, State.reset, by decide +kernel, by decide +kernel, by decide +kernel, by decide +kernel, by decide +kernel, by decide +kernel⟩,
    ⟨{ msg1 with dest := 0xA000, src := 0x2000, payload := toBytes 32 0x2000 }, State.reset, by decide +kernel, by decide +kernel, by decide +kernel⟩,
    ⟨0, cpSt, by decide +kernel⟩,
    ⟨0, cpSt, by decide +kernel⟩,
    ⟨0, cpFr, cpSt, by decide +kernel⟩,
    ⟨0, ⟨.both, 1#64⟩, State.reset, by decide +kernel, by decide +kernel⟩⟩

theorem SupervisionComplete_witness_2 :
    (∃ (m : Msg) (s : State),
      0xA100 ≤ m.dest ∧
      m.dest < 0xA180 ∧
      (m.cls = 1 ∨ m.cls = 3) ∧
      isPlaneReport m = false ∧
      m.op = 1 ∧
      srcOk (s.rd (F.SC_CFG_SOURCE_UNIT (m.dest - 0xA100))) m.src = true) ∧
    (∃ (r : Req) (n : Fin 128) (d : WData) (s : State),
      s.mayKick r (s.rd (F.SC_CFG_PARTITION n.val)) = true ∧
      d.lowWritten = true) ∧
    (∃ (n : Fin 128) (s : State),
      s.rd (F.SC_STATUS_STATE n.val) = 2) ∧
    (∃ (t : Fin 64) (d : WData) (s : State),
      d.lowWritten = true) ∧
    (∃ (m : Msg) (s : State),
      0xA200 ≤ m.dest ∧
      m.dest < 0xA240 ∧
      (m.cls = 1 ∨ m.cls = 3) ∧
      isPlaneReport m = false ∧
      srcOk (s.rd (F.TS_CFG_SOURCE_UNIT (m.dest - 0xA200))) m.src = true) ∧
    (∃ (r : Req) (t : Fin 64) (d : WData) (s : State),
      s.mayKick r (s.rd (F.TS_CFG_PARTITION t.val)) = true ∧
      d.lowWritten = true) ∧
    (∃ (t : Fin 64) (s : State),
      s.on (F.TS_CFG_PERIODIC t.val) = true) :=
  ⟨⟨{ msg1 with dest := 0xA100, payload := List.replicate 2 0#8 }, State.reset, by decide +kernel, by decide +kernel, by decide +kernel, by decide +kernel, by decide +kernel, by decide +kernel⟩,
    ⟨.host, 0, ⟨.both, 1#64⟩, State.reset, by decide +kernel, by decide +kernel⟩,
    ⟨0, st [(F.SC_STATUS_STATE 0, 2)], by decide +kernel⟩,
    ⟨0, ⟨.both, 1#64⟩, State.reset, by decide +kernel⟩,
    ⟨{ msg1 with dest := 0xA200, payload := [1#8] }, State.reset, by decide +kernel, by decide +kernel, by decide +kernel, by decide +kernel, by decide +kernel⟩,
    ⟨.host, 0, ⟨.both, 1#64⟩, State.reset, by decide +kernel, by decide +kernel⟩,
    ⟨0, st [(F.TS_CFG_PERIODIC 0, 1)], by decide +kernel⟩⟩

theorem SupervisionComplete_witness_3 :
    (∃ (t : Fin 64) (s : State),
      s.on (F.TS_STATUS_FALLEN t.val) = false ∧
      s.rd (F.TS_STATUS_STATE t.val) = 2 ∧
      s.on (F.TS_LIMITS_START_MAX t.val) = true) ∧
    (∃ (t : Fin 64) (s : State),
      s.on (F.TS_STATUS_FALLEN t.val) = false ∧
      s.rd (F.TS_STATUS_STATE t.val) = 3 ∧
      s.on (F.TS_LIMITS_EXEC_MAX t.val) = true) ∧
    (∃ (t : Fin 64) (s : State),
      s.on (F.TS_STATUS_FALLEN t.val) = false ∧
      (s.rd (F.TS_STATUS_STATE t.val) = 2 ∨ s.rd (F.TS_STATUS_STATE t.val) = 3) ∧
      s.on (F.TS_LIMITS_DEADLINE t.val) = true) ∧
    (∃ (ix : Fin 32) (s : State),
      s.on (F.STREAM_STATUS_FROZEN ix.val) = true ∧
      s.rd (F.STREAM_STATUS_MISSING_ITEMS ix.val) - (mget fz0 s.castle.fz ix.val).missing < (s.rd (F.IQ_COUNTS_ITEMS ix.val) + 2 ^ 32 - (mget fz0 s.castle.fz ix.val).items) % 2 ^ 32) :=
  ⟨⟨0, st [(F.TS_STATUS_STATE 0, 2), (F.TS_LIMITS_START_MAX 0, 1)], by decide +kernel, by decide +kernel, by decide +kernel⟩,
    ⟨0, st [(F.TS_STATUS_STATE 0, 3), (F.TS_LIMITS_EXEC_MAX 0, 1)], by decide +kernel, by decide +kernel, by decide +kernel⟩,
    ⟨0, st [(F.TS_STATUS_STATE 0, 2), (F.TS_LIMITS_DEADLINE 0, 1)], by decide +kernel, by decide +kernel, by decide +kernel⟩,
    ⟨0, st [(F.STREAM_STATUS_FROZEN 0, 1), (F.IQ_COUNTS_ITEMS 0, 1)], by decide +kernel, by decide +kernel⟩⟩

theorem RotationAndSafeStateComplete_witness_1 :
    (∃ (s : State),
      s.on F.ROT_CFG_ENABLE = true ∧
      s.castle.rot.unit = none ∧
      (s.modState = stRun ∨ s.modState = stSafe)) ∧
    (∃ (u : Nat) (s : State),
      s.rotWaits = some u ∧
      s.castle.rot.forced = false) ∧
    (∃ (u : Nat) (s : State),
      s.rotWaits = some u ∧
      s.castle.rot.forced = true) ∧
    (∃ (u : Nat) (s : State),
      s.castle.rot.unit = some u ∧
      restTested u = true ∧
      (s.restCounts u).2 = s.castle.rot.fails ∧
      (s.restCounts u).1 ≠ s.castle.rot.rests) ∧
    (∃ (s : State),
      s.castle.rot.unit = some 0xA002) ∧
    (∃ (s : State),
      s.castle.running = false) ∧
    (∃ (s : State),
      s.entering = false ∧
      s.asleep = false ∧
      s.pwPhase = pwSteady) :=
  ⟨⟨st [(F.ROT_CFG_ENABLE, 1)], by decide +kernel, by decide +kernel, by decide +kernel⟩,
    ⟨0x1000, State.reset.setRot { State.reset.castle.rot with unit := some 0x1000 }, by decide +kernel, by decide +kernel⟩,
    ⟨0x1000, State.reset.setRot { State.reset.castle.rot with unit := some 0x1000, forced := true }, by decide +kernel, by decide +kernel⟩,
    ⟨0x1000, (st [(F.SQ_REST_RESTS 0, 1)]).setRot { State.reset.castle.rot with unit := some 0x1000 }, by decide +kernel, by decide +kernel, by decide +kernel, by decide +kernel⟩,
    ⟨State.reset.setRot { State.reset.castle.rot with unit := some 0xA002 }, by decide +kernel⟩,
    ⟨{ State.reset with castle := { State.reset.castle with running := false } }, by decide +kernel⟩,
    ⟨State.reset, by decide +kernel, by decide +kernel, by decide +kernel⟩⟩

theorem RotationAndSafeStateComplete_witness_2 :
    (∃ (s : State),
      s.safePhase = phRestarting ∧
      s.castle.stage = 1 ∧
      (∀ p < 8, s.partSt p ≠ ptResetting)) ∧
    (∃ (s : State),
      s.safePhase = phRestarting ∧
      s.castle.stage = 2 ∧
      s.restartReady = true) ∧
    (∃ (reason : Fin 7) (s : State),
      1 ≤ reason.val ∧
      reason.val ≤ 4 ∧
      s.safePhase = phRestarting) ∧
    (∃ (s : State),
      s.castle.running = false ∧
      s.safePhase ≠ phLatched) ∧
    (∃ (s : State),
      s.safePhase = phHeld) :=
  ⟨⟨{ (st [(F.SAFE_STATUS_PHASE, phRestarting)]) with castle := { State.reset.castle with stage := 1 } }, by decide +kernel, by decide +kernel, by decide +kernel⟩,
    ⟨{ (st [(F.SAFE_STATUS_PHASE, phRestarting)]) with castle := { State.reset.castle with stage := 2 } }, by decide +kernel, by decide +kernel, by decide +kernel⟩,
    ⟨1, st [(F.SAFE_STATUS_PHASE, phRestarting)], by decide +kernel, by decide +kernel, by decide +kernel⟩,
    ⟨{ State.reset with castle := { State.reset.castle with running := false } }, by decide +kernel, by decide +kernel⟩,
    ⟨st [(F.SAFE_STATUS_PHASE, phHeld)], by decide +kernel⟩⟩

theorem MemoryCommandsComplete_witness :
    (∃ (u : Fin 65536) (a : Nat) (data : List Byte) (poison : Bool) (s : State),
      s.partInReset (s.unitMaster u.val) = false ∧
      a + data.length < 0x400000000000 ∧
      a + data.length ≤ s.dramEnd ∧
      s.dramOpen (s.unitMaster u.val) a data.length = true) ∧
    (∃ (c : Fin 8) (found : Ecc) (s : State),
      s.on F.MC_CTRL_SCRUB_EN = true ∧
      bit (s.rd F.MC_STATUS_PRESENT) c.val = true) ∧
    (∃ (r : Req) (ix : Fin 32) (d : WData) (s : State),
      r.trusted = true ∧
      s.irqRouteOk ix.val (d.over (s.reg (R.MC_CTRL + (0x240 + ix.val * 8)))) = true) ∧
    (∃ (c : Fin 12) (s : State),
      mget 0 s.cores.cmp c.val ≤ s.cores.mtime) :=
  ⟨⟨0xA000, 0x100000, [1#8], false, State.reset, by decide +kernel, by decide +kernel, by decide +kernel, by decide +kernel⟩,
    ⟨0, .clean, st [(F.MC_CTRL_SCRUB_EN, 1), (F.MC_STATUS_PRESENT, 1)], by decide +kernel, by decide +kernel⟩,
    ⟨.host, 31, ⟨.both, 1#64⟩, State.reset, by decide +kernel, by decide +kernel⟩,
    ⟨0, State.reset, by decide +kernel⟩⟩

theorem PcieComplete_witness_1 :
    (∃ (off : Nat) (op : BarOp) (s : State),
      s.on F.PCIE_STATUS_ROOT_PORT = false ∧
      s.on F.PCIE_STATUS_LINK_UP = true ∧
      s.boot.phase = 3) ∧
    (∃ (off : Nat) (op : BarOp) (s : State),
      s.on F.PCIE_STATUS_ROOT_PORT = false ∧
      s.on F.PCIE_STATUS_LINK_UP = true ∧
      s.boot.phase = 3) ∧
    (∃ (off : Nat) (op : BarOp) (ad : Nat) (s : State),
      s.on F.PCIE_STATUS_ROOT_PORT = false ∧
      s.on F.PCIE_STATUS_LINK_UP = true ∧
      s.boot.phase = 3 ∧
      s.on (F.PCIE_IB_ENABLE (off / 2 ^ 30 % 16)) = true ∧
      ad = s.rd (F.PCIE_IB_TARGET (off / 2 ^ 30 % 16)) * 2 ^ 30 + off % 2 ^ 30 ∧
      ¬ (csrBase ≤ ad ∧ ad < csrBase + 0x800000)) ∧
    (∃ (u : Fin 65536) (a : Nat) (data : List Byte) (ctx : Bool) (n k : Nat) (s : State),
      obIndex a = some k ∧
      s.obOpen (s.unitMaster u.val) k a n = true ∧
      s.on F.PCIE_STATUS_LINK_UP = true) ∧
    (∃ (hits : List IommuHit) (n a c : Nat) (hh : IommuHit) (b : List Byte) (p : Bool) (s1 s : State),
      s.on F.PCIE_STATUS_ROOT_PORT = true ∧
      s.on F.PCIE_STATUS_LINK_UP = true ∧
      firstHit hits = some hh ∧
      hh.addr = some a ∧
      s.busGet ⟨0xC200, some hh.iommu.val, false⟩ a n = (c, b, p, s1)) ∧
    (∃ (s : State),
      s.on F.PCIE_STATUS_LINK_UP = true) ∧
    (∃ (speed : Fin 6) (width : Fin 9) (s : State),
      s.pcie.training = true) :=
  ⟨⟨0, .read 8, st [(F.PCIE_STATUS_LINK_UP, 1), (F.PCIE_STATUS_ROOT_PORT, 0)], by decide +kernel, by decide +kernel, by decide +kernel⟩,
    ⟨0, .read 8, st [(F.PCIE_STATUS_LINK_UP, 1), (F.PCIE_STATUS_ROOT_PORT, 0)], by decide +kernel, by decide +kernel, by decide +kernel⟩,
    ⟨0, .read 8, 0, (st [(F.PCIE_STATUS_LINK_UP, 1), (F.PCIE_STATUS_ROOT_PORT, 0)]).wr (F.PCIE_IB_ENABLE 0) 1, by decide +kernel, by decide +kernel, by decide +kernel, by decide +kernel, by decide +kernel, by decide +kernel⟩,
    ⟨0xA000, obWin 0, [], false, 8, 0, obSt, by decide +kernel, by decide +kernel, by decide +kernel⟩,
    ⟨[⟨0, some 0x100000⟩], 8, 0x100000, _, ⟨0, some 0x100000⟩, _, _, _, (st [(F.PCIE_STATUS_LINK_UP, 1), (F.PCIE_STATUS_ROOT_PORT, 0)]).wr F.PCIE_STATUS_ROOT_PORT 1, by decide +kernel, by decide +kernel, by decide +kernel, by decide +kernel, rfl⟩,
    ⟨st [(F.PCIE_STATUS_LINK_UP, 1), (F.PCIE_STATUS_ROOT_PORT, 0)], by decide +kernel⟩,
    ⟨0, 0, { State.reset with pcie := { State.reset.pcie with training := true } }, by decide +kernel⟩⟩

theorem PcieComplete_witness_2 : ∃ (s : State),
      s.pcie.perst = true :=
  ⟨{ State.reset with pcie := { State.reset.pcie with perst := true } }, by decide +kernel⟩

theorem LinksComplete_witness_1 :
    (∃ (k : Fin 4) (s1 s : State),
      bit (s.rd F.D2D_STATUS_MODULE_UP) k.val = true ∧
      s1 = (((s.wrBit F.D2D_STATUS_MODULE_UP k.val false).wrBit F.D2D_STATUS_MODULE_FAILED k.val true).event (0xC100 + k.val) 0x6004 k.val [((s.wrBit F.D2D_STATUS_MODULE_UP k.val false).wrBit F.D2D_STATUS_MODULE_FAILED k.val true).rd F.D2D_STATUS_MODULE_FAILED]) ∧
      4 - (bitList (s1.rd F.D2D_STATUS_MODULE_UP) 4).length < 2) ∧
    (∃ (p : PeerHello) (k : Fin 4) (s : State),
      s.zlEnabled k.val = true ∧
      s.on (F.ZL_CTRL_ENABLE k.val) = true ∧
      s.zlTrained k.val = false) ∧
    (∃ (s : State),
      s.netState = netForming ∧
      s.link.ended = false ∧
      s.link.known.head? = some s.serial) ∧
    (∃ (s : State),
      s.netState = netForming ∧
      s.link.ended = false ∧
      s.link.known.head? ≠ some s.serial) ∧
    (∃ (k : Fin 4) (members : List Nat) (edges : List (Nat × Nat)) (l : List Nat) (s : State),
      s.zlTrained k.val = true ∧
      s.netState ≠ netFormed ∧
      l = unionAsc [] members ∧
      l.contains s.serial = true ∧
      (∀ y ∈ s.serial :: s.link.known, l.headD 0 ≤ y)) ∧
    (∃ (s : State),
      s.netState = netForming ∧
      s.link.ended = true) ∧
    (∃ (k : Fin 4) (seq : Fin 4096) (c : LinkData) (s : State),
      s.zlState k.val = zlUp ∧
      seq.val = (mget ⟨0⟩ s.link.zl k.val).due) :=
  ⟨⟨0, _, st [(F.D2D_STATUS_MODULE_UP, 15)], by decide +kernel, rfl, by decide +kernel⟩,
    ⟨⟨5, [], none, []⟩, 0, zlSt, by decide +kernel, by decide +kernel, by decide +kernel⟩,
    ⟨{ (st [(F.NET_STATUS_STATE, netForming)]) with link := { State.reset.link with known := [State.reset.serial] } }, by decide +kernel, by decide +kernel, by decide +kernel⟩,
    ⟨st [(F.NET_STATUS_STATE, netForming)], by decide +kernel, by decide +kernel, by decide +kernel⟩,
    ⟨0, [State.reset.serial], [], _, zlSt.wr (F.ZL_STATUS_STATE 0) zlUp, by decide +kernel, by decide +kernel, rfl, rfl, by decide +kernel⟩,
    ⟨{ (st [(F.NET_STATUS_STATE, netForming)]) with link := { State.reset.link with ended := true } }, by decide +kernel, by decide +kernel⟩,
    ⟨0, 0, .part, zlSt.wr (F.ZL_STATUS_STATE 0) zlUp, by decide +kernel, by decide +kernel⟩⟩

theorem LinksComplete_witness_2 :
    (∃ (k : Fin 4) (seq : Fin 4096) (nack : Bool) (c : LinkData) (s : State),
      s.zlTrained k.val = true) ∧
    (∃ (k : Fin 4) (s : State),
      s.zlTrained k.val = true) ∧
    (∃ (r : Req) (d : WData) (s : State),
      r.trusted = true ∧
      bit d.bits1 2 = true) ∧
    (∃ (n : Fin 8) (item : List Byte) (s : State),
      s.on (F.RLY_CFG_ENABLE n.val) = true ∧
      s.on (F.RLY_CFG_RECEIVE n.val) = true) :=
  ⟨⟨0, 0, false, .part, zlSt.wr (F.ZL_STATUS_STATE 0) zlUp, by decide +kernel⟩,
    ⟨0, zlSt.wr (F.ZL_STATUS_STATE 0) zlUp, by decide +kernel⟩,
    ⟨.host, ⟨.both, 4#64⟩, State.reset, by decide +kernel, by decide +kernel⟩,
    ⟨0, [], st [(F.RLY_CFG_ENABLE 0, 1), (F.RLY_CFG_RECEIVE 0, 1)], by decide +kernel, by decide +kernel⟩⟩

theorem PowerComplete_witness_1 :
    (∃ (r : Req) (d : WData) (s : State),
      r.trusted = true) ∧
    (∃ (code : Nat) (s : State),
      s.pwPhase = pwHandshake ∧
      (s.entryReplies.find? (fun y => y.2 = 1) = some (code, 1))) ∧
    (∃ (s : State),
      s.pwPhase = pwHandshake ∧
      (s.entryReplies.all (fun y => y.2 = 0) = true) ∧
      s.pwr.target = stPark) ∧
    (∃ (s : State),
      s.entering = true ∧
      s.pwr.held = none ∧
      s.pwr.target = stPark) ∧
    (∃ (s : State),
      s.wakeOn 0 = true) ∧
    (∃ (s : State),
      s.wakeOn 4 = true ∧
      s.rd F.PWR_WAKE_TIMER_TIMER_MS ≠ 0 ∧
      s.asleep = true) ∧
    (∃ (crcFail : Bool) (s : State),
      s.pwPhase = pwWaking ∧
      s.modState = stPark) :=
  ⟨⟨.host, ⟨.both, 1#64⟩, State.reset, by decide +kernel⟩,
    ⟨0xA000, (st [(F.PWR_STATUS_PHASE, pwHandshake), (F.PWR_VOTE_CASTLE, 1)]), by decide +kernel, by decide +kernel⟩,
    ⟨{ (st [(F.PWR_STATUS_PHASE, pwHandshake)]) with pwr := { State.reset.pwr with target := stPark } }, by decide +kernel, by decide +kernel, by decide +kernel⟩,
    ⟨{ (st [(F.PWR_STATUS_PHASE, pwCommitted)]) with pwr := { State.reset.pwr with target := stPark } }, by decide +kernel, by decide +kernel, by decide +kernel⟩,
    ⟨(st [(F.PWR_WAKE_CFG_SOURCES, 31)]), by decide +kernel⟩,
    ⟨(st [(F.PWR_WAKE_CFG_SOURCES, 31), (F.PWR_WAKE_TIMER_TIMER_MS, 1)]).setModState stPark 0, by decide +kernel, by decide +kernel, by decide +kernel⟩,
    ⟨false, (st [(F.PWR_STATUS_PHASE, pwWaking)]).setModState stPark 0, by decide +kernel, by decide +kernel⟩⟩

theorem PowerComplete_witness_2 :
    (∃ (k : Nat) (s : State),
      s.loops.step = some k) ∧
    (∃ (r : Req) (d : WData) (s : State),
      r.trusted = true) ∧
    (∃ (mw : Nat) (s : State),
      s.loops.step = none ∧
      (s.modState = stRun ∨ s.modState = stSafe)) ∧
    (∃ (s : State),
      s.on F.PWR_STATUS_PEAK_ACTIVE = true) ∧
    (∃ (p : Int) (s : State),
      (s.modState = stRun ∨ s.modState = stSafe)) ∧
    (∃ (mv : Nat) (s : State),
      s.boot.phase = 3 ∧
      s.pwPhase ≠ pwShutdown ∧
      s.on F.PWR_STATUS_SUPPLY_LOSS = false) ∧
    (∃ (s : State),
      s.pwPhase = pwShutdown) :=
  ⟨⟨1, { State.reset with loops := { State.reset.loops with step := some 1 } }, by decide +kernel⟩,
    ⟨.host, ⟨.both, 1#64⟩, State.reset, by decide +kernel⟩,
    ⟨0, State.reset, by decide +kernel, by decide +kernel⟩,
    ⟨st [(F.PWR_STATUS_PEAK_ACTIVE, 1)], by decide +kernel⟩,
    ⟨0, State.reset, by decide +kernel⟩,
    ⟨0, State.reset, by decide +kernel, by decide +kernel, by decide +kernel⟩,
    ⟨st [(F.PWR_STATUS_PHASE, pwShutdown)], by decide +kernel⟩⟩

theorem PowerComplete_witness_3 :
    (∃ (mv : Nat) (s : State),
      s.pwr.vaon = false ∧
      mv < s.rd F.PWR_HOLDUP_CFG_VHOLD_MIN_MV) ∧
    (∃ (mv : Nat) (left : Int) (s : State),
      s.boot.holdup = true ∧
      s.rd F.PWR_HOLDUP_CFG_CHARGE_FULL_MC ≠ 0 ∧
      0 < left ∧
      s.rd F.PWR_HOLDUP_CFG_VHOLD_MIN_MV ≤ mv) ∧
    (∃ (mv : Nat) (s : State),
      s.boot.holdup = true ∧
      s.rd F.PWR_HOLDUP_CFG_VHOLD_FULL_MV ≤ mv) ∧
    (∃ (rail : Fin 5) (s : State),
      rail.val ≠ 4) ∧
    (∃ (s : State),
      s.modState = stPark) :=
  ⟨⟨0, { (st [(F.PWR_HOLDUP_CFG_VHOLD_MIN_MV, 1)]) with pwr := { State.reset.pwr with vaon := false } }, by decide +kernel, by decide +kernel⟩,
    ⟨5000, 1, { (st [(F.PWR_HOLDUP_CFG_CHARGE_FULL_MC, 1)]) with boot := { State.reset.boot with holdup := true } }, by decide +kernel, by decide +kernel, by decide +kernel, by decide +kernel⟩,
    ⟨65535, { State.reset with boot := { State.reset.boot with holdup := true } }, by decide +kernel, by decide +kernel⟩,
    ⟨3, State.reset, by decide +kernel⟩,
    ⟨State.reset.setModState stPark 0, by decide +kernel⟩⟩

theorem ClockAndBootComplete_witness_1 :
    (∃ (d : Fin 112) (gated : Bool) (s : State),
      d.val < 64 ∧
      s.present (0x1000 + d.val) = true) ∧
    (∃ (ref : Fin 2) (s : State),
      (ref.val = 0 ∨ s.boot.refB = true)) ∧
    (∃ (k : Nat) (s : State),
      s.clk.dst = some k ∧
      s.refQual k = true) ∧
    (∃ (r : Req) (d : WData) (s : State),
      r.trusted = true ∧
      bit d.bits1 1 = true ∧
      bit d.bits1 0 = false ∧
      s.refQual (1 - s.rd F.CLK_STATUS_ACTIVE) = true ∧
      s.clk.dst = none) ∧
    (∃ (s : State),
      s.refQual 0 = false ∧
      s.refQual 1 = false ∧
      s.on F.CLK_STATUS_ON_INTERNAL = false) ∧
    (∃ (d : Fin 112) (s : State),
      s.clkFailed d.val = false ∧
      d.val < 64 ∧
      s.present (0x1000 + d.val) = true) ∧
    (∃ (rootPort holdup test refB : Bool) (s : State),
      s.boot.phase = 0 ∧
      test = false) :=
  ⟨⟨0, false, State.reset, by decide +kernel, by decide +kernel⟩,
    ⟨0, State.reset, by decide +kernel⟩,
    ⟨1, { (st [(F.CLK_STATUS_B_QUALIFIED, 1)]) with clk := ⟨some 1, false⟩ }, by decide +kernel, by decide +kernel⟩,
    ⟨.host, ⟨.both, 2#64⟩, st [(F.CLK_STATUS_A_QUALIFIED, 1), (F.CLK_STATUS_B_QUALIFIED, 1)], by decide +kernel, by decide +kernel, by decide +kernel, by decide +kernel, by decide +kernel⟩,
    ⟨st [(F.CLK_STATUS_A_QUALIFIED, 0), (F.CLK_STATUS_B_QUALIFIED, 0), (F.CLK_STATUS_ON_INTERNAL, 0)], by decide +kernel, by decide +kernel, by decide +kernel⟩,
    ⟨0, State.reset, by decide +kernel, by decide +kernel, by decide +kernel⟩,
    ⟨false, false, false, false, { State.reset with boot := { State.reset.boot with phase := 0 } }, by decide +kernel, by decide +kernel⟩⟩

theorem ClockAndBootComplete_witness_2 :
    (∃ (refA refB : Bool) (s : State),
      s.boot.phase = 1) ∧
    (∃ (s : State),
      s.boot.phase = 2) :=
  ⟨⟨false, false, { State.reset with boot := { State.reset.boot with phase := 1 } }, by decide +kernel⟩,
    ⟨{ State.reset with boot := { State.reset.boot with phase := 2 } }, by decide +kernel⟩⟩

theorem EveryStepKeepsMemory_witness_reset :
    ∃ s t : State, s.MemOk ∧ step s = .next t :=
  ⟨State.reset, _, by decide, rfl⟩

theorem EveryCommandKeepsQueueAndTime_witness_nop :
    ∃ (c : Instr) (s t : State), exec c s = .next t :=
  ⟨.nop 0, State.reset, _, rfl⟩

theorem CommandsThatStoreNothing_witness_nop :
    ∃ (c : Instr) (s t : State), storesNothing c = true ∧ exec c s = .next t :=
  ⟨.tbRateWrite .host 0 ⟨.both, 5#64⟩, State.reset, _, rfl, rfl⟩

theorem RegisterAccessCodes_witness_rw :
    ∃ (r : RegSpec) (d : WData) (i : Nat), i < 64 ∧ bit (r.mask .rw) i = true ∧ bit (r.mask .w1s) i = false ∧ bit (r.mask .w1c) i = false ∧ bit d.half.mask i = true :=
  ⟨oneFld .rw 63, ⟨.high, 0#64⟩, 63, by decide, by decide, by decide, by decide, by decide⟩

theorem RegisterAccessCodes_witness_rwl :
    ∃ (r : RegSpec) (d : WData) (i : Nat), i < 64 ∧ bit (r.mask .rwl) i = true ∧ bit (r.mask .rw) i = false ∧ bit (r.mask .w1s) i = false ∧ bit (r.mask .w1c) i = false ∧ bit d.half.mask i = true :=
  ⟨oneFld .rwl 0, ⟨.low, 0#64⟩, 0, by decide, by decide, by decide, by decide, by decide, by decide⟩

theorem RegisterAccessCodes_witness_w1s :
    ∃ (r : RegSpec) (d : WData) (i : Nat), i < 64 ∧ bit (r.mask .w1s) i = true ∧ bit (r.mask .rw) i = false ∧ bit (r.mask .rwl) i = false ∧ bit (r.mask .w1c) i = false ∧ bit d.half.mask i = true :=
  ⟨oneFld .w1s 31, ⟨.low, 0#64⟩, 31, by decide, by decide, by decide, by decide, by decide, by decide⟩

theorem RegisterAccessCodes_witness_w1c :
    ∃ (r : RegSpec) (d : WData) (i : Nat), i < 64 ∧ bit (r.mask .w1c) i = true ∧ bit (r.mask .rw) i = false ∧ bit (r.mask .rwl) i = false ∧ bit (r.mask .w1s) i = false ∧ bit d.half.mask i = true :=
  ⟨oneFld .w1c 32, ⟨.high, 0#64⟩, 32, by decide, by decide, by decide, by decide, by decide, by decide⟩

theorem RegisterAccessCodes_witness_half :
    ∃ (d : WData) (i : Nat), i < 64 ∧ bit d.half.mask i = false :=
  ⟨⟨.low, 0#64⟩, 32, by decide, by decide⟩

theorem RegisterAccessCodes_witness_ro :
    ∃ (r : RegSpec) (i : Nat), i < 64 ∧ bit (r.mask .rw) i = false ∧ bit (r.mask .rwl) i = false ∧ bit (r.mask .w1s) i = false ∧ bit (r.mask .w1c) i = false :=
  ⟨oneFld .ro 5, 5, by decide, by decide, by decide, by decide, by decide⟩

theorem AnswersByUnitState_witness_serving :
    ∃ (s : State) (d : Nat), s.serving d = true :=
  ⟨State.reset, 0x6000, by decide +kernel⟩

theorem AnswersByUnitState_witness_away :
    ∃ (s : State) (d : Nat), s.serving d = false :=
  ⟨State.reset, 0x1FFF, by decide +kernel⟩

theorem EventRecords_witness_log :
    ∃ s : State, s.log.ring.length ≤ 4096 :=
  ⟨State.reset, by decide⟩

theorem Ts64OfATimebase_witness_fits :
    ∃ (s : State) (n : Nat), (s.tb n).t48 / 2 ^ 48 / 1000000000 < 2 ^ 64 :=
  ⟨State.reset, 0, by decide⟩

theorem TimebaseOwner_witness_free :
    ∃ (r : Req) (n : Fin 8) (d : WData) (s : State), s.mayUse r (0x5100 + n.val) = true ∧ d.lowWritten = true ∧ s.rd (F.TB_CTRL_SOURCE n.val) = 0 ∧ s.rd (F.TB_CTRL_SOURCE_ALT n.val) = 0 ∧ s.locked (R.TB_RATE n.val) = false ∧ setLowOk d.bits1 = true :=
  ⟨.host, 7, ⟨.both, 5#64 <<< 32⟩, State.reset, by decide +kernel, by decide, by decide +kernel, by decide +kernel, by decide +kernel, by decide +kernel⟩

theorem TimebaseOwner_witness_owned :
    ∃ (r : Req) (n : Fin 8) (d : WData) (s : State), s.mayUse r (0x5100 + n.val) = true ∧ d.lowWritten = true ∧ 1 ≤ s.rd (F.TB_CTRL_SOURCE_ALT n.val) ∧ s.rd (F.TB_CTRL_SOURCE_ALT n.val) ≤ 3 :=
  ⟨.castle, 0, ⟨.low, 5#64⟩, st [(F.TB_CTRL_SOURCE_ALT 0, 3)], by decide +kernel, by decide, by decide +kernel, by decide +kernel⟩

theorem QueueHeadRead_witness_item :
    ∃ (r : Req) (i : Fin 32) (e : IqItem) (s : State), s.isReader r i.val = true ∧ (s.q i.val).items[(s.q i.val).read]? = some e ∧ e.visible = true :=
  ⟨.host, 31, ⟨0, 0, 1, 0, false, 0, 0, 0, 0, true⟩, State.reset.setQ 31 { iq0 with items := [⟨0, 0, 1, 0, false, 0, 0, 0, 0, true⟩] }, by decide +kernel, by decide +kernel, rfl⟩

theorem QueueHeadRead_witness_none :
    ∃ (r : Req) (i : Fin 32) (s : State), s.isReader r i.val = true ∧ (s.q i.val).items[(s.q i.val).read]? = none :=
  ⟨.host, 0, State.reset, by decide +kernel, by decide +kernel⟩

theorem QueueHeadRead_witness_other :
    ∃ (r : Req) (i : Fin 32) (s : State), s.isReader r i.val = false :=
  ⟨.castle, 0, State.reset, by decide +kernel⟩

theorem DoorbellRule_witness_full :
    ∃ (r : Req) (m : Fin 16) (d : WData) (s : State), r.trusted = true ∧ s.boot.phase = 3 ∧ s.modState ≠ stDeep ∧ s.mbOpen m.val = true ∧ d.half ≠ .high ∧ (bits d.bits1 0 7 + 128 - s.rd (F.MB_POS_RESP_HEAD m.val)) % 128 = 64 :=
  ⟨.host, 1, ⟨.low, 64#64⟩, st [(F.MB_CTRL_ENABLE 1, 1)], by decide +kernel, by decide +kernel, by decide +kernel, by decide +kernel, by decide +kernel, by decide +kernel⟩

theorem DoorbellRule_witness_over :
    ∃ (r : Req) (m : Fin 16) (d : WData) (s : State), r.trusted = true ∧ s.boot.phase = 3 ∧ s.modState ≠ stDeep ∧ s.mbOpen m.val = true ∧ d.half ≠ .high ∧ (bits d.bits1 0 7 + 128 - s.rd (F.MB_POS_RESP_HEAD m.val)) % 128 = 65 :=
  ⟨.castle, 2, ⟨.both, 65#64⟩, st [(F.MB_CTRL_ENABLE 2, 1)], by decide +kernel, by decide +kernel, by decide +kernel, by decide +kernel, by decide +kernel, by decide +kernel⟩

theorem KeyRevocation_witness_ok :
    ∃ (m : Fin 16) (e : MbExec) (s : State), s.MbRuns m.val e 0x77 ∧ cmdArg e.cmd 0 < 4 ∧ s.on F.CFG_STATUS_NO_IMAGE = true ∧ ∃ j < 4, j ≠ cmdArg e.cmd 0 ∧ bit (s.rd F.CFG_OTP_KEY_PROGRAMMED) j = true ∧ bit (s.rd F.CFG_OTP_KEY_REVOKED) j = false :=
  ⟨1, mbEx 0x77 0 [0], ((mbSt 0x77 0 [0]).wr F.CFG_OTP_KEY_PROGRAMMED 3).wr F.CFG_STATUS_NO_IMAGE 1, by decide +kernel, by decide +kernel, by decide +kernel, 1, by decide, by decide +kernel, by decide +kernel, by decide +kernel⟩

theorem KeyRevocation_witness_last :
    ∃ (m : Fin 16) (e : MbExec) (s : State), s.MbRuns m.val e 0x77 ∧ cmdArg e.cmd 0 < 4 ∧ ∀ j < 4, j ≠ cmdArg e.cmd 0 → bit (s.rd F.CFG_OTP_KEY_PROGRAMMED) j = true → bit (s.rd F.CFG_OTP_KEY_REVOKED) j = true :=
  ⟨1, mbEx 0x77 0 [3], (mbSt 0x77 0 [3]).wr F.CFG_OTP_KEY_PROGRAMMED 8, by decide +kernel, by decide +kernel, by decide +kernel⟩

theorem KeyRevocation_witness_running :
    ∃ (m : Fin 16) (e : MbExec) (s : State), s.MbRuns m.val e 0x77 ∧ cmdArg e.cmd 0 < 4 ∧ s.on F.CFG_STATUS_NO_IMAGE = false ∧ hdrKey s.img.header = cmdArg e.cmd 0 :=
  ⟨1, mbEx 0x77 0 [0], (mbSt 0x77 0 [0]).wr F.CFG_STATUS_NO_IMAGE 0, by decide +kernel, by decide +kernel, by decide +kernel, by decide +kernel⟩

theorem PartitionPaths_witness_open :
    ∃ (m : Fin 16) (e : MbExec) (s : State) (p q : Nat), s.MbRuns m.val e 0x14 ∧ bits (cmdArg e.cmd 0) 0 3 = p ∧ bits (cmdArg e.cmd 0) 8 3 = q ∧ p ≠ q :=
  ⟨1, mbEx 0x14 0 [0x700], mbSt 0x14 0 [0x700], 0, 7, by decide +kernel, by decide +kernel, by decide +kernel, by decide⟩

theorem PartitionPaths_witness_self :
    ∃ (m : Nat) (c : List Byte) (s : State), cmdOp c = 0x14 ∧ cmdMalformed c = false ∧ s.mbMay m 0x14 = true ∧ s.mbGate m 0x14 = St.ok ∧ s.cmdAbsent c = false ∧ bits (cmdArg c 0) 0 3 = bits (cmdArg c 0) 8 3 ∧ bit (cmdArg c 0) 16 = false :=
  ⟨0, (mbEx 0x14 0 [0x303]).cmd, State.reset, by decide +kernel, by decide +kernel, by decide +kernel, by decide +kernel, by decide +kernel, by decide +kernel, by decide +kernel⟩

theorem PowerCapOutOfRange_witness_low :
    ∃ (m : Nat) (c : List Byte) (s : State), cmdOp c = 0x61 ∧ cmdMalformed c = false ∧ s.mbMay m 0x61 = true ∧ s.mbGate m 0x61 = St.ok ∧ s.cmdAbsent c = false ∧ s.capOk (cmdArg c 0) = false :=
  ⟨0, (mbEx 0x61 0 [359]).cmd, State.reset, by decide +kernel, by decide +kernel, by decide +kernel, by decide +kernel, by decide +kernel, by decide +kernel⟩

theorem PowerCapOutOfRange_witness_part1 :
    ∃ s : State, s.rd F.IDENT_PART = 0x8640 :=
  ⟨st [(F.IDENT_PART, 0x8640)], by decide +kernel⟩

theorem PowerCapOutOfRange_witness_part2 :
    ∃ s : State, s.rd F.IDENT_PART = 0x8420 :=
  ⟨st [(F.IDENT_PART, 0x8420)], by decide +kernel⟩

theorem PowerCapOutOfRange_witness_part0 :
    ∃ s : State, s.rd F.IDENT_PART = 0x8800 :=
  ⟨st [(F.IDENT_PART, 0x8800)], by decide +kernel⟩

theorem ClockBlockAccess_witness_run :
    ∃ (off : Nat) (r : Req) (s : State), off < 0x10000 ∧ off % 8 = 0 ∧ s.boot.phase = 3 ∧ r.trusted = false :=
  ⟨0xFFF8, .part 7, State.reset, by decide, by decide, by decide, rfl⟩

theorem DataAddressMap_witness_one :
    ∃ n : Nat, 0 < n :=
  ⟨8, by decide⟩

theorem DataAddressMap_witness_row :
    ∃ n q i j : Nat, i < n ∧ j < n ∧ mcOf n ((q * n + i) * 4096) = mcOf n ((q * n + j) * 4096) :=
  ⟨8, 0, 7, 7, by decide, by decide, rfl⟩

theorem DiagonalPlacement_witness_same :
    ∃ a b : Nat, diagPlace a = diagPlace b :=
  ⟨1000, 1000, rfl⟩

theorem RegisterX0_witness_rd :
    ∃ rd < 32, rd ≠ 0 :=
  ⟨31, by decide, by decide⟩

theorem BusWriteFrame_witness_refused :
    ∃ (s : State) (m : Master) (a : Nat) (d : List Byte), (s.busWrite m a d false).1 ≠ St.ok ∧ (s.busWrite m a d false).1 ≠ St.integrity :=
  ⟨State.reset, ⟨0x1000, some 0, false⟩, 0, [1], by decide +kernel, by decide +kernel⟩

theorem DramFence_witness_out :
    ∃ (s : State) (m : Master) (p a : Nat) (d : List Byte), m.free = false ∧ m.part = some p ∧ s.rd (F.PART_STATE_STATE p) ≠ 3 ∧ a < 0x400000000000 ∧ a + d.length ≤ s.dramEnd ∧ s.dramIn p a d.length = false :=
  ⟨State.reset, ⟨0x1000, some 7, false⟩, 7, 0x1FFFFF, [1, 2], rfl, rfl, by decide +kernel, by decide, by decide +kernel, by decide +kernel⟩

theorem DramReadsBack_witness_host :
    ∃ (s : State) (m : Master) (a : Nat) (d : List Byte), a < 0x400000000000 ∧ a + d.length ≤ s.dramEnd ∧ (∀ p, m.part = some p → p < 8) ∧ s.partInReset m = false ∧ s.dramOpen m a d.length = true ∧ s.poison = [] :=
  ⟨State.reset, ⟨0xC200, none, true⟩, 63, [1, 2], by decide, by decide +kernel, by decide, by decide +kernel, by decide +kernel, rfl⟩

end Sys2Proof.Machine
end

section
/-!
Time stamps (R28): the seconds and nanoseconds a TS128 carries, and the TS64 they make.
-/

namespace Sys2Proof.Machine

/-- Each field of a stamp fits its place, so none carries into the next. -/
theorem mkTs128_toNat (t48 n : Nat) (extrap hold : Bool) :
    (mkTs128 t48 n extrap hold).toNat =
      t48 / 2 ^ 48 / 1000000000 % 2 ^ 64 * 2 ^ 64 + t48 / 2 ^ 48 % 1000000000 * 2 ^ 32 + t48 / 2 ^ 32 % 65536 * 2 ^ 16 +
        n % 8 * 2 ^ 13 + extrap.toNat * 2 ^ 12 + hold.toNat * 2 ^ 11 := by
  have hextrap := extrap.toNat_le
  have hhold := hold.toNat_le
  rw [mkTs128, BitVec.toNat_ofNat, Nat.mod_eq_of_lt]
  omega

/-- The seconds of a stamp are the timebase's, modulo 2^64. -/
theorem tsSec_mkTs128 (t48 n : Nat) (extrap hold : Bool) :
    tsSec (mkTs128 t48 n extrap hold) = t48 / 2 ^ 48 / 1000000000 % 2 ^ 64 := by
  have hextrap := extrap.toNat_le
  have hhold := hold.toNat_le
  rw [tsSec, mkTs128_toNat]
  omega

/-- The nanoseconds of a stamp are the timebase's within its second. -/
theorem bits_tsLow_mkTs128 (t48 n : Nat) (extrap hold : Bool) :
    bits (tsLow (mkTs128 t48 n extrap hold)) 32 32 = t48 / 2 ^ 48 % 1000000000 := by
  have hextrap := extrap.toNat_le
  have hhold := hold.toNat_le
  rw [bits, tsLow, mkTs128_toNat]
  omega

/-- The nanosecond field reaches to the top of the low word, so TS64 cuts nothing off it. -/
theorem ts64_eq_min (t : BitVec 128) :
    ts64 t = min (tsSec t * 1000000000 + bits (tsLow t) 32 32) 0xFFFFFFFFFFFFFFFF := by
  have hns : bits (tsLow t) 32 32 = tsLow t / 2 ^ 32 :=
    Nat.mod_eq_of_lt (Nat.div_lt_of_lt_mul (Nat.mod_lt _ (by decide)))
  rw [ts64, hns]

/-- Settles O44: a stamp's fields are the quotient and the remainder of the timebase's nanoseconds by 10^9. -/
theorem ts64OfATimebase : Obligations.Ts64OfATimebase := by
  intro s n
  refine ⟨ts64_eq_min _, ?_, fun hfit => ?_⟩
  · rw [State.stamp, bits_tsLow_mkTs128]
    exact Nat.mod_lt _ (by decide)
  · rw [State.stamp, tsSec_mkTs128, bits_tsLow_mkTs128, Nat.mod_eq_of_lt hfit, Nat.div_add_mod']

end Sys2Proof.Machine
end

section
/-!
Writes to a timebase (R32, R33): who owns it, what a rejected write leaves, and what each write sets.
-/

namespace Sys2Proof.Machine

variable (s : State)

/-! ### The owner of a timebase -/

/-- A timebase with neither source set belongs to the software. -/
theorem State.tbFree_of_no_source {n : Nat} (hsrc : s.rd (F.TB_CTRL_SOURCE n) = 0) (halt : s.rd (F.TB_CTRL_SOURCE_ALT n) = 0) :
    s.tbFree n = true := by
  simp [State.tbFree, State.tbSource, State.tbAlt, srcCode, hsrc, halt]

/-- The three codes of a source stand for themselves. -/
theorem srcCode_of_source {v : Nat} (h : 1 ≤ v ∧ v ≤ 3) : srcCode v = v := if_pos h.2

/-- A timebase with one of the three sources as SOURCE or SOURCE_ALT belongs to the servo. -/
theorem State.tbFree_of_source {n : Nat}
    (h : (1 ≤ s.rd (F.TB_CTRL_SOURCE n) ∧ s.rd (F.TB_CTRL_SOURCE n) ≤ 3) ∨
      (1 ≤ s.rd (F.TB_CTRL_SOURCE_ALT n) ∧ s.rd (F.TB_CTRL_SOURCE_ALT n) ≤ 3)) :
    s.tbFree n = false := by
  rw [State.tbFree, State.tbSource, State.tbAlt, decide_eq_false_iff_not]
  rintro ⟨hsrc, halt⟩
  rcases h with h | h
  · rw [srcCode_of_source h] at hsrc
    omega
  · rw [srcCode_of_source h] at halt
    omega

/-! ### Rejected writes -/

/-- A rejected access raises COUNT by 1 up to its limit; LAST_OFFSET lies beside it. -/
theorem State.rd_reject_count (rejects offset : Nat) :
    (s.reject rejects offset).rd ⟨rejects, 0, 32⟩ = min (s.rd ⟨rejects, 0, 32⟩ + 1) (2 ^ 32 - 1) := by
  rw [State.reject, State.rd_wr_disjoint _ ⟨rejects, 32, 16⟩ ⟨rejects, 0, 32⟩ _ rfl (by simp) (.inr (by simp)),
    State.rd_bump_self _ _ (by simp)]

/-- A rejected access leaves every register but the REJECTS register that counts it. -/
theorem State.reg_reject_ne {rejects a : Nat} (offset : Nat) (h : a ≠ rejects) : (s.reject rejects offset).reg a = s.reg a := by
  rw [State.reject, State.reg_wr_ne _ _ _ _ h.symm, State.bump, State.bumpBy, State.reg_wr_ne _ _ _ _ h.symm]

/-- A write by a requester that may use the instance, its rule's condition met, acts. -/
theorem State.timeWrite_of_ok {r : Req} {u : Nat} (reg : Nat) {ok : Bool} (act : State → State) (hmay : s.mayUse r u = true)
    (hok : ok = true) : s.timeWrite r u reg ok act = act s := by
  rw [State.timeWrite, hmay, hok]
  rfl

/-- A write whose rule's condition fails is rejected, whoever makes it. -/
theorem State.timeWrite_of_not_ok (r : Req) (u reg : Nat) {ok : Bool} (act : State → State) (hok : ok = false) :
    s.timeWrite r u reg ok act = s.reject R.TIME_REJECTS (reg % 0x10000) := by
  rw [State.timeWrite, hok, Bool.and_false]
  rfl

/-! ### A register's writable bits -/

/-- A written read-write bit takes the written value. -/
theorem testBit_writeWord_of_rw (spec : RegSpec) (locked : Bool) (old : Nat) (d : WData) {i : Nat} (hi : i < 64)
    (hrw : (spec.mask .rw).testBit i = true) (hhalf : d.half.mask.testBit i = true)
    (hw1s : spec.mask .w1s = 0) (hw1c : spec.mask .w1c = 0) :
    (writeWord spec locked old d).testBit i = d.value.toNat.testBit i := by
  have hword : Nat.testBit 0xFFFFFFFFFFFFFFFF i = true := by
    rw [show 0xFFFFFFFFFFFFFFFF = 2 ^ 64 - 1 from rfl, Nat.testBit_two_pow_sub_one]
    exact decide_eq_true hi
  simp [writeWord, hw1s, hw1c, hrw, hhalf, hword]

/-- A half that is written low covers the low 32 bits. -/
theorem testBit_mask_of_lowWritten {d : WData} (hlow : d.lowWritten = true) {i : Nat} (hi : i < 32) :
    d.half.mask.testBit i = true := by
  obtain ⟨half, value⟩ := d
  cases half with
  | both =>
    rw [Half.mask, show 0xFFFFFFFFFFFFFFFF = 2 ^ 64 - 1 from rfl, Nat.testBit_two_pow_sub_one]
    exact decide_eq_true (by omega)
  | low =>
    rw [Half.mask, show 0xFFFFFFFF = 2 ^ 32 - 1 from rfl, Nat.testBit_two_pow_sub_one]
    exact decide_eq_true hi
  | high => simp [WData.lowWritten] at hlow

/-- The register table's row for TB_n_RATE: one read-write field in the low half. -/
def tbRateSpec : RegSpec := ⟨0x0120, 8, 0x80, 1, 0x0, [⟨0, 32, .rw, 0⟩]⟩

theorem regSpec_TB_RATE : ∀ n : Fin 8, regSpec (R.TB_RATE n.val) = some tbRateSpec := by decide +kernel

/-- A write of the low half of TB_n_RATE sets RATE_ADJ to the written word. -/
theorem State.rd_writeReg_TB_RATE (n : Fin 8) {d : WData} (hlow : d.lowWritten = true) :
    (s.writeReg (R.TB_RATE n.val) d).rd (F.TB_RATE_RATE_ADJ n.val) = bits d.value.toNat 0 32 := by
  have hspec : s.writeReg (R.TB_RATE n.val) d =
      s.setReg (R.TB_RATE n.val) (writeWord tbRateSpec (s.locked (R.TB_RATE n.val)) (s.reg (R.TB_RATE n.val)) d) := by
    rw [State.writeReg, regSpec_TB_RATE n]
  rw [hspec, State.rd, F.TB_RATE_RATE_ADJ, State.reg_setReg_self, bits_mod _ 0 32 64 (by decide)]
  refine Nat.eq_of_testBit_eq fun i => ?_
  simp only [bits, pow_zero, Nat.div_one, Nat.testBit_mod_two_pow]
  by_cases hi : i < 32
  · have hrw : (tbRateSpec.mask .rw).testBit i = true := by
      rw [show tbRateSpec.mask .rw = 2 ^ 32 - 1 from rfl, Nat.testBit_two_pow_sub_one]
      exact decide_eq_true hi
    rw [testBit_writeWord_of_rw _ _ _ _ (by omega) hrw (testBit_mask_of_lowWritten hlow hi) rfl rfl]
  · simp [hi]

/-! ### The timebase after a slew and after a step -/

theorem State.slewTo_slew (n : Nat) (ns : Int) : ((s.slewTo n ns).tb n).slew = ns * 2 ^ 48 := by
  rw [State.slewTo, State.setTb_tb_self]

/-- Making a time event due moves no timebase. -/
theorem State.dueLate_tb (j : Nat) (step : Bool) (n : Nat) : (s.dueLate j step).tb n = s.tb n := rfl

/-- A timebase stepped to a value holds it: the events it makes due move no timebase. -/
theorem State.stepTb_t48 (n t48 : Nat) : ((s.stepTb n t48).tb n).t48 = t48 := by
  refine List.foldlRecOn (motive := fun t : State => (t.tb n).t48 = t48) _ _ ?_ fun t ht j _ => ?_
  · exact congrArg Tb.t48 (s.setTb_tb_self n _)
  · split
    · exact (congrArg Tb.t48 (t.dueLate_tb j true n)).trans ht
    · exact ht

theorem State.setTime_t48 (n sec low : Nat) :
    ((s.setTime n sec low).tb n).t48 = (sec * 1000000000 + bits low 32 32) * 2 ^ 48 + bits low 16 16 * 2 ^ 32 :=
  s.stepTb_t48 n _

/-! ### The three writes -/

theorem execTbRateWrite_free {r : Req} {n : Fin 8} (d : WData) (hmay : s.mayUse r (0x5100 + n.val) = true)
    (hfree : s.tbFree n.val = true) : exec (.tbRateWrite r n d) s = .next (s.writeReg (R.TB_RATE n.val) d) :=
  congrArg Host.Outcome.next (s.timeWrite_of_ok _ _ hmay hfree)

theorem execTbAdjWrite_free {r : Req} {n : Fin 8} {d : WData} (hmay : s.mayUse r (0x5100 + n.val) = true)
    (hlow : d.lowWritten = true) (hfree : s.tbFree n.val = true) :
    exec (.tbAdjWrite r n d) s = .next (s.slewTo n.val (sgn 32 d.bits1)) :=
  congrArg Host.Outcome.next ((s.timeWrite_of_ok _ _ hmay hfree).trans (if_pos hlow))

theorem execTbSetLowWrite_free {r : Req} {n : Fin 8} {d : WData} (hmay : s.mayUse r (0x5100 + n.val) = true)
    (hfree : s.tbFree n.val = true) (hword : setLowOk d.bits1 = true) :
    exec (.tbSetLowWrite r n d) s = .next (s.setTime n.val (mget 0 s.time.setSec n.val) d.bits1) :=
  congrArg Host.Outcome.next (s.timeWrite_of_ok _ _ hmay (by rw [hfree, hword]; rfl))

/-- Each of the three writes to a timebase the servo owns is rejected. -/
theorem exec_tbWrite_owned (r : Req) {n : Fin 8} (d : WData) (howned : s.tbFree n.val = false) :
    ∀ c ∈ ([.tbRateWrite r n d, .tbAdjWrite r n d, .tbSetLowWrite r n d] : List Instr),
      ∃ offset, exec c s = .next (s.reject R.TIME_REJECTS offset) := by
  have hset : (s.tbFree n.val && setLowOk d.bits1) = false := by rw [howned, Bool.false_and]
  simp only [List.forall_mem_cons, List.not_mem_nil, false_imp_iff, implies_true, and_true]
  exact ⟨⟨_, congrArg Host.Outcome.next (s.timeWrite_of_not_ok _ _ _ _ howned)⟩,
    ⟨_, congrArg Host.Outcome.next (s.timeWrite_of_not_ok _ _ _ _ howned)⟩,
    ⟨_, congrArg Host.Outcome.next (s.timeWrite_of_not_ok _ _ _ _ hset)⟩⟩

/-- Settles O45: the condition of each write is that the timebase is free, and a write refused under it is a reject. -/
theorem timebaseOwner : Obligations.TimebaseOwner := by
  intro r n d s hmay hlow
  refine ⟨fun hsrc halt _ => ?_, fun hsource c hc => ?_⟩
  · have hfree := s.tbFree_of_no_source hsrc halt
    exact ⟨⟨_, execTbRateWrite_free s d hmay hfree, s.rd_writeReg_TB_RATE n hlow⟩,
      ⟨_, execTbAdjWrite_free s hmay hlow hfree, s.slewTo_slew n.val _⟩,
      fun hword => ⟨_, execTbSetLowWrite_free s hmay hfree hword, s.setTime_t48 n.val _ _⟩⟩
  · obtain ⟨offset, hexec⟩ := exec_tbWrite_owned s r d (s.tbFree_of_source hsource) c hc
    exact ⟨_, hexec, s.rd_reject_count R.TIME_REJECTS offset, fun a ha => s.reg_reject_ne offset ha, rfl, rfl⟩

end Sys2Proof.Machine
end

section
/-!
The head read of an ingest queue (R64): the oldest unread item and its visibility, what the reader's read answers, and what any
other requester's read counts.
-/

namespace Sys2Proof.Machine

variable (s : State)

/-! ### The head of a queue -/

/-- A visible item at READ is the queue's head. -/
theorem State.iqHead_of_visible {i : Nat} {e : IqItem} (hitem : (s.q i).items[(s.q i).read]? = some e) (hvis : e.visible = true) :
    s.iqHead i = some e := by
  simp [State.iqHead, hitem, hvis]

/-- Without an item at READ, or with one whose close is not yet visible, the queue has no head. -/
theorem State.iqHead_eq_none {i : Nat} (hinvis : ∀ e, (s.q i).items[(s.q i).read]? = some e → e.visible = false) :
    s.iqHead i = none := by
  rw [State.iqHead]
  cases hitem : (s.q i).items[(s.q i).read]? with
  | none => rfl
  | some e => simp [hinvis e hitem]

/-! ### Taking the head -/

theorem State.iqTake_of_head {i : Nat} {e : IqItem} (hhead : s.iqHead i = some e) :
    s.iqTake i = (s.iqAdvance i).withData (headWord i e) := by
  rw [State.iqTake, hhead]

theorem State.iqTake_of_no_head {i : Nat} (hhead : s.iqHead i = none) : s.iqTake i = s.withData iqNv := by
  rw [State.iqTake, hhead]

/-! ### The read of a head -/

/-- The reader's read takes the head. -/
theorem execIqHeadRead_reader {r : Req} {i : Fin 32} (hreader : s.isReader r i.val = true) :
    exec (.iqHeadRead r i) s = .next (s.iqTake i.val) :=
  congrArg Host.Outcome.next (if_pos hreader)

/-- Any other requester's read is rejected and answered with the NV word. -/
theorem execIqHeadRead_other {r : Req} {i : Fin 32} (hother : s.isReader r i.val = false) :
    exec (.iqHeadRead r i) s = .next ((s.iqReject (R.IQ_HEAD i.val)).withData iqNv) :=
  congrArg Host.Outcome.next (if_neg (Bool.eq_false_iff.mp hother))

/-- Settles O48: the reader takes the head where the item at READ is visible, and any other requester's read is a reject of the IQ
block. -/
theorem queueHeadRead : Obligations.QueueHeadRead := by
  intro r i s
  refine ⟨fun e hreader hitem hvis => ?_, fun hreader hinvis => ?_, fun hother => ?_⟩
  · rw [execIqHeadRead_reader s hreader, s.iqTake_of_head (s.iqHead_of_visible hitem hvis)]
    rfl
  · rw [execIqHeadRead_reader s hreader, s.iqTake_of_no_head (s.iqHead_eq_none hinvis)]
    rfl
  · exact ⟨_, execIqHeadRead_other s hother, rfl, s.rd_reject_count R.IQ_REJECTS _, rfl, fun a ha => s.reg_reject_ne _ ha⟩

end Sys2Proof.Machine
end

section
/-!
Bits of a mask field, and how a mailbox command runs to its end (R347, R349): what the proofs about one command share.
-/

namespace Sys2Proof.Machine

variable (s : State)

/-! ### Bits -/

theorem bit_eq_bits (v i : Nat) : bit v i = decide (bits v i 1 = 1) := by rw [bit, bits, pow_one]

/-- Setting one bit leaves every other. -/
theorem bit_setBit (v i : Nat) (b : Bool) (j : Nat) : bit (setBit v i b) j = if j = i then b else bit v j := by
  rw [bit_eq_bits, bit_eq_bits, setBit]
  rcases Nat.lt_trichotomy j i with hlt | rfl | hgt
  · rw [bits_insField_low _ _ _ _ _ _ hlt, if_neg hlt.ne]
  · rw [bits_insField_self, if_pos rfl]
    cases b <;> rfl
  · rw [bits_insField_high _ _ _ _ _ _ hgt, if_neg hgt.ne']

/-- A mask field after one of its bits was written. -/
theorem State.bit_rd_wrBit (f : Fld) (i : Nat) (b : Bool) {j : Nat} (hfit : f.lo + f.w ≤ 64) (hj : j < f.w) :
    bit ((s.wrBit f i b).rd f) j = if j = i then b else bit (s.rd f) j := by
  rw [State.wrBit, s.rd_wr_self _ _ hfit, bit_eq_testBit, Nat.testBit_mod_two_pow, decide_eq_true hj, Bool.true_and, ← bit_eq_testBit,
    bit_setBit]

/-! ### A command that runs and ends -/

theorem State.setExec_mbExec_self (m : Nat) (e : Option MbExec) : (s.setExec m e).mbExec m = e := by
  rw [State.mbExec, State.setExec, State.setMb_mb_self]

/-- Ending the command in execution sets its status and leaves the registers. -/
theorem State.mbEnd_of_running {m : Nat} {e : MbExec} (status : Nat) (vals : List Nat) (hexec : s.mbExec m = some e)
    (hrunning : e.status = none) :
    s.mbEnd m status vals = s.setExec m (some { e with status := some status, vals := vals, ran := true }) := by
  rw [State.mbEnd, hexec]
  simp [hrunning]

/-- Marking an event record changes neither the status of the command in execution nor the registers. -/
theorem State.mbMark_of_exec {m : Nat} {t : State} {x : MbExec} (hexec : t.mbExec m = some x) :
    ∃ y, (s.mbMark m t).mbExec m = some y ∧ y.status = x.status ∧ (s.mbMark m t).csr = t.csr := by
  rw [State.mbMark, hexec]
  dsimp only
  split
  · exact ⟨x, hexec, rfl, rfl⟩
  · exact ⟨_, t.setExec_mbExec_self m _, rfl, rfl⟩

/-- A command whose meaning ends it in a state u that keeps the mailboxes completes with that status, and the registers are u's. -/
theorem State.mbRun_of_ends {m op : Nat} {e : MbExec} {act : State → List Byte → State} {status : Nat} {vals : List Nat} (u : State)
    (hruns : s.MbRuns m e op) (hact : act (s.begun m e) e.cmd = u.mbEnd m status vals) (hmbx : u.mbx = (s.begun m e).mbx) :
    ∃ t x, (.next (s.mbRun m op act) : Out) = .next t ∧ t.mbExec m = some x ∧ x.status = some status ∧ t.csr = u.csr := by
  obtain ⟨hexec, hstatus, hran, hop⟩ := hruns
  have hbegun : u.mbExec m = some { e with ran := true } := by
    rw [State.mbExec, State.mb, hmbx]
    exact s.setExec_mbExec_self m _
  have hrun : s.mbRun m op act = s.mbMark m (act (s.begun m e) e.cmd) := by
    rw [State.mbRun, hexec]
    simp [hstatus, hran, hop]
  have hend := hact.trans (u.mbEnd_of_running status vals hbegun hstatus)
  obtain ⟨x, hmark⟩ := s.mbMark_of_exec (u.setExec_mbExec_self m _)
  exact ⟨_, x, congrArg Host.Outcome.next (hrun.trans (congrArg (s.mbMark m) hend)), hmark⟩

end Sys2Proof.Machine
end

section
/-!
Doorbells (R346): a write of DOORBELL reaches its mailbox, and what it leaves where the new TAIL is taken and where it is ignored.
-/

namespace Sys2Proof.Machine

variable (s : State)

/-! ### From the register write to the mailbox -/

/-- In RUN every block has its supply, in DEEP only the always-on domain. -/
theorem State.blockPowered_of_run (addr : Nat) (hrun : s.boot.phase = 3) (hawake : s.modState ≠ stDeep) :
    s.blockPowered addr = true := by
  rw [State.blockPowered, hrun]
  simp [hawake]

/-- A write of a register of the MBX block is the block's own write. -/
theorem State.regWrite_mbx (r : Req) (d : WData) {addr : Nat} (hblock : addr / 0x10000 = 0x60000001) (hrun : s.boot.phase = 3)
    (hawake : s.modState ≠ stDeep) : s.regWrite r addr d = s.mbxRegWrite r (addr % 0x10000) d := by
  have hcsr : ¬ addr < csrBase := by
    rw [csrBase]
    omega
  have hindex : addr / 0x10000 - 0x60000000 = 1 := by rw [hblock]
  have hunit : blockUnit addr = none := by simp [blockUnit, hindex]
  simp [State.regWrite, hindex, hunit, hcsr, s.blockPowered_of_run addr hrun hawake]

/-- A trusted requester's write of a mailbox's DOORBELL reaches the mailbox. -/
theorem State.mbxRegWrite_doorbell {r : Req} {m : Nat} (d : WData) (hm : m < 16) (htrusted : r.trusted = true) :
    s.mbxRegWrite r (0x108 + m * 0x40) d = s.mbRegWrite m 8 d := by
  have hmailbox : (0x108 + m * 0x40 - 0x100) / 0x40 = m := by omega
  have hoffset : (0x108 + m * 0x40 - 0x100) % 0x40 = 8 := by omega
  have hmine : 0x100 ≤ 0x108 + m * 0x40 ∧ 0x108 + m * 0x40 < 0x500 ∧ 8 ≤ 0x10 := by omega
  rw [State.mbxRegWrite, hmailbox, hoffset, decide_eq_true hmine, htrusted]
  rfl

theorem execDoorbell_of_trusted {r : Req} (m : Fin 16) (d : WData) (htrusted : r.trusted = true) (hrun : s.boot.phase = 3)
    (hawake : s.modState ≠ stDeep) : exec (.doorbell r m d) s = .next ((s.dropHalf r).mbRegWrite m.val 8 d) := by
  have hblock : R.MB_DOORBELL m.val / 0x10000 = 0x60000001 := by
    rw [R.MB_DOORBELL]
    omega
  have hoffset : R.MB_DOORBELL m.val % 0x10000 = 0x108 + m.val * 0x40 := by
    rw [R.MB_DOORBELL]
    omega
  have hwrite := (s.dropHalf r).regWrite_mbx r d hblock hrun hawake
  rw [hoffset, State.mbxRegWrite_doorbell _ d m.isLt htrusted] at hwrite
  exact congrArg Host.Outcome.next hwrite

/-! ### The mailbox's doorbell -/

/-- Both positions are below 128, so the distance of the rule is theirs. -/
theorem State.ringDist_respHead (m : Nat) {t : Nat} (ht : t < 128) :
    ringDist (s.rd (F.MB_POS_RESP_HEAD m)) t = (t + 128 - s.rd (F.MB_POS_RESP_HEAD m)) % 128 := by
  have hhead : s.rd (F.MB_POS_RESP_HEAD m) < 128 := s.rd_lt _
  rw [ringDist, fwd, Nat.mod_eq_of_lt ht, Nat.mod_eq_of_lt hhead]

/-- The write of an open mailbox's doorbell: a TAIL in reach is taken, any other is a reject. -/
theorem State.mbRegWrite_doorbell {m : Nat} {d : WData} (hopen : s.mbOpen m = true) (hlow : d.half ≠ .high) :
    s.mbRegWrite m 8 d =
      if (bits d.bits1 0 7 + 128 - s.rd (F.MB_POS_RESP_HEAD m)) % 128 ≤ 64 then s.wr (F.MB_POS_TAIL m) (bits d.bits1 0 7)
      else s.reject R.MBX_REJECTS (0x100 + m * 0x40 + 8) := by
  rw [← s.ringDist_respHead m (bits_lt _ _ _)]
  simp [State.mbRegWrite, hlow, hopen]

/-- Settles O49: the doorbell's rule, by the two branches of the mailbox's write. -/
theorem doorbellRule : Obligations.DoorbellRule := by
  refine ⟨fun m c => rfl, fun r m d s htrusted hrun hawake hopen hlow => ?_⟩
  have hexec := execDoorbell_of_trusted s m d htrusted hrun hawake
  rw [(s.dropHalf r).mbRegWrite_doorbell hopen hlow, State.dropHalf_rd] at hexec
  refine ⟨fun hreach => ?_, fun hbeyond => ?_⟩
  · rw [if_pos hreach] at hexec
    refine ⟨_, hexec, ?_, fun a ha => State.reg_wr_ne _ _ _ _ ha.symm, fun a => s.dropHalf_byte r a⟩
    rw [State.rd_wr_self _ _ _ (by simp [F.MB_POS_TAIL])]
    exact Nat.mod_eq_of_lt (bits_lt _ _ _)
  · rw [if_neg hbeyond.not_ge] at hexec
    exact ⟨_, hexec, (s.dropHalf r).rd_reject_count R.MBX_REJECTS _, fun a ha => (s.dropHalf r).reg_reject_ne _ ha,
      fun a => s.dropHalf_byte r a⟩

end Sys2Proof.Machine
end

section
/-!
IMG_REVOKE_KEY (R377): when a key slot is left, and what the command leaves.
-/

namespace Sys2Proof.Machine

variable (s : State)

/-! ### The key slots left -/

/-- No slot is left where every programmed slot is revoked. -/
theorem keysLeft_eq_zero_iff {programmed : Nat} (revoked : Nat) (hfour : programmed < 2 ^ 4) :
    programmed &&& (15 ^^^ revoked) = 0 ↔ ∀ j < 4, bit programmed j = true → bit revoked j = true := by
  have hbit (j : Nat) : (programmed &&& (15 ^^^ revoked)).testBit j = (bit programmed j && (decide (j < 4) ^^ bit revoked j)) := by
    rw [Nat.testBit_and, Nat.testBit_xor, show 15 = 2 ^ 4 - 1 from rfl, Nat.testBit_two_pow_sub_one, bit_eq_testBit, bit_eq_testBit]
  constructor
  · intro hzero j hj hprogrammed
    have hj' := hbit j
    rw [hzero, Nat.zero_testBit, hprogrammed, decide_eq_true hj] at hj'
    simpa using hj'
  · intro hrevoked
    refine Nat.eq_of_testBit_eq fun j => ?_
    rw [hbit, Nat.zero_testBit]
    by_cases hj : j < 4
    · cases hprogrammed : bit programmed j with
      | false => rfl
      | true => simp [hj, hrevoked j hj hprogrammed]
    · rw [bit_eq_testBit, Nat.testBit_lt_two_pow (hfour.trans_le (Nat.pow_le_pow_right (by decide) (not_lt.mp hj))), Bool.false_and]

/-- No slot is left without slot k where every other programmed slot is revoked. -/
theorem State.keysLeft_revoked_eq_zero_iff (k : Nat) :
    s.rd F.CFG_OTP_KEY_PROGRAMMED &&& (15 ^^^ setBit (s.rd F.CFG_OTP_KEY_REVOKED) k true) = 0 ↔
      ∀ j < 4, j ≠ k → bit (s.rd F.CFG_OTP_KEY_PROGRAMMED) j = true → bit (s.rd F.CFG_OTP_KEY_REVOKED) j = true := by
  rw [keysLeft_eq_zero_iff _ (s.rd_lt F.CFG_OTP_KEY_PROGRAMMED)]
  refine forall₂_congr fun j _ => ?_
  rw [bit_setBit]
  by_cases hjk : j = k <;> simp [hjk]

/-! ### The command -/

/-- Slot k must stay: no other slot is both programmed and unrevoked, or k is the running bank's. -/
def State.keyHeld (s : State) (k : Nat) : Prop :=
  (∀ j < 4, j ≠ k → bit (s.rd F.CFG_OTP_KEY_PROGRAMMED) j = true → bit (s.rd F.CFG_OTP_KEY_REVOKED) j = true) ∨
    (s.on F.CFG_STATUS_NO_IMAGE = false ∧ hdrKey s.img.header = k)

/-- The revocation of a slot that must stay completes with NOT_PERMITTED and leaves the registers. -/
theorem execImgRevokeKey_of_held {m : Fin 16} {e : MbExec} (hruns : s.MbRuns m.val e 0x77) (hheld : s.keyHeld (cmdArg e.cmd 0)) :
    ∃ t x, exec (.imgRevokeKey m) s = .next t ∧ t.mbExec m.val = some x ∧ x.status = some St.notPermitted ∧ t.csr = s.csr := by
  have hguard := hheld.imp_left (s.keysLeft_revoked_eq_zero_iff (cmdArg e.cmd 0)).mpr
  exact s.mbRun_of_ends (s.begun m.val e) hruns (if_pos hguard) rfl

/-- The revocation of any other slot completes with OK and sets the slot's bit of KEY_REVOKED. -/
theorem execImgRevokeKey_of_not_held {m : Fin 16} {e : MbExec} (hruns : s.MbRuns m.val e 0x77) (hfree : ¬ s.keyHeld (cmdArg e.cmd 0)) :
    ∃ t x, exec (.imgRevokeKey m) s = .next t ∧ t.mbExec m.val = some x ∧ x.status = some St.ok ∧
      t.csr = (s.wrBit F.CFG_OTP_KEY_REVOKED (cmdArg e.cmd 0) true).csr := by
  have hguard := mt (Or.imp_left (s.keysLeft_revoked_eq_zero_iff (cmdArg e.cmd 0)).mp) hfree
  exact s.mbRun_of_ends ((s.begun m.val e).wrBit F.CFG_OTP_KEY_REVOKED (cmdArg e.cmd 0) true) hruns (if_neg hguard) rfl

/-- Settles O50: the command's guard is that the slot must stay. -/
theorem keyRevocation : Obligations.KeyRevocation := by
  intro m e s hruns _
  refine ⟨fun hother hleft => ?_, fun hheld => execImgRevokeKey_of_held s hruns hheld.symm⟩
  have hfree : ¬ s.keyHeld (cmdArg e.cmd 0) := by
    rintro (hlast | ⟨himage, hrunning⟩)
    · obtain ⟨j, hj, hjk, hprogrammed, hunrevoked⟩ := hleft
      exact absurd (hlast j hj hjk hprogrammed) (Bool.eq_false_iff.mp hunrevoked)
    · exact hother.elim (fun h => absurd h (Bool.eq_false_iff.mp himage)) (fun h => h hrunning)
  obtain ⟨t, x, hexec, hmb, hstatus, hcsr⟩ := execImgRevokeKey_of_not_held s hruns hfree
  refine ⟨t, x, hexec, hmb, hstatus, fun j hj => ?_⟩
  rw [State.rd_congr hcsr, s.bit_rd_wrBit F.CFG_OTP_KEY_REVOKED _ _ (by decide) hj]
  by_cases hjk : j = cmdArg e.cmd 0 <;> simp [hjk]

end Sys2Proof.Machine
end

section
/-!
PART_PATH (R361): the paths the fence consults after the command, and the check of a path from a partition to itself.
-/

namespace Sys2Proof.Machine

variable (s : State)

/-! ### The paths -/

/-- Paths are read from the register map alone. -/
theorem State.pathOpen_congr {s t : State} (h : t.csr = s.csr) (i j : Nat) : t.pathOpen i j = s.pathOpen i j := by
  rw [State.pathOpen, State.pathOpen, State.rd_congr h]

/-- Each partition has its own PATHS. -/
theorem PART_STATE_inj {p i : Nat} : R.PART_STATE p = R.PART_STATE i ↔ p = i := by
  rw [R.PART_STATE, R.PART_STATE]
  omega

/-- Writing one bit of one partition's PATHS leaves every other bit of every partition's. -/
theorem State.bit_paths_wrBit (p q : Nat) (opn : Bool) (i : Nat) {j : Nat} (hj : j < 8) :
    bit ((s.wrBit (F.PART_STATE_PATHS p) q opn).rd (F.PART_STATE_PATHS i)) j =
      if i = p ∧ j = q then opn else bit (s.rd (F.PART_STATE_PATHS i)) j := by
  by_cases hip : i = p
  · subst hip
    rw [s.bit_rd_wrBit _ _ _ (by simp [F.PART_STATE_PATHS]) hj]
    simp
  · rw [State.wrBit, s.rd_wr_ne _ _ _ (mt PART_STATE_inj.mp (Ne.symm hip)), if_neg fun h => hip h.1]

/-- The paths after PART_PATH: the two between p and q as the command says, every other as before. -/
theorem State.pathOpen_setPath {p q : Nat} (opn : Bool) (i : Nat) {j : Nat} (hpq : p ≠ q) (hj : j < 8) :
    (s.setPath p q opn).pathOpen i j = if (i, j) = (p, q) ∨ (i, j) = (q, p) then opn else s.pathOpen i j := by
  rw [State.pathOpen, State.setPath, State.bit_paths_wrBit _ _ _ _ _ hj, State.bit_paths_wrBit _ _ _ _ _ hj, State.pathOpen]
  simp only [Prod.mk.injEq]
  by_cases hback : i = q ∧ j = p
  · have hij : j ≠ i := by omega
    simp [hback, hback.2 ▸ hj, hpq]
  · by_cases hforth : i = p ∧ j = q
    · simp [hforth, hforth.2 ▸ hj, hpq.symm]
    · simp [hback, hforth]

/-! ### The command and its check -/

/-- PART_PATH completes with OK and sets the path it names. -/
theorem execPartPath_of_runs {m : Fin 16} {e : MbExec} (hruns : s.MbRuns m.val e 0x14) :
    ∃ t x, exec (.partPath m) s = .next t ∧ t.mbExec m.val = some x ∧ x.status = some St.ok ∧
      t.csr = (s.setPath (bits (cmdArg e.cmd 0) 0 3) (bits (cmdArg e.cmd 0) 8 3) (!bit (cmdArg e.cmd 0) 16)).csr := by
  exact s.mbRun_of_ends
    ((s.begun m.val e).setPath (bits (cmdArg e.cmd 0) 0 3) (bits (cmdArg e.cmd 0) 8 3) (!bit (cmdArg e.cmd 0) 16)) hruns rfl rfl

/-- A PART_PATH that opens a path from a partition to itself has a bad argument. -/
theorem State.cmdBad_partPath_self {c : List Byte} (hop : cmdOp c = 0x14) (hself : bits (cmdArg c 0) 0 3 = bits (cmdArg c 0) 8 3)
    (hopens : bit (cmdArg c 0) 16 = false) : s.cmdBad c = true := by
  simp [State.cmdBad, hop, hself, hopens]

/-- A command whose arguments are the first check to fail ends with BAD_ARGUMENT. -/
theorem State.cmdCheck_of_bad {m : Nat} {c : List Byte} (hformed : cmdMalformed c = false) (hmay : s.mbMay m (cmdOp c) = true)
    (hgate : s.mbGate m (cmdOp c) = St.ok) (hpresent : s.cmdAbsent c = false) (hbad : s.cmdBad c = true) :
    s.cmdCheck m c = (St.badArgument, s) := by
  simp [State.cmdCheck, hformed, hmay, hgate, hpresent, hbad]

/-- Settles O51: the two bits of PATHS the command writes, and its check. -/
theorem partitionPaths : Obligations.PartitionPaths := by
  refine ⟨fun m e s p q hruns hp hq hpq => ?_, fun m c s hop hformed hmay hgate hpresent hself hopens => ?_⟩
  · obtain ⟨t, x, hexec, hmb, hstatus, hcsr⟩ := execPartPath_of_runs s hruns
    have hp8 : p < 8 := hp ▸ bits_lt _ _ _
    have hq8 : q < 8 := hq ▸ bits_lt _ _ _
    have hpaths (i : Nat) {j : Nat} (hj : j < 8) : t.pathOpen i j =
        if (i, j) = (p, q) ∨ (i, j) = (q, p) then !bit (cmdArg e.cmd 0) 16 else s.pathOpen i j := by
      rw [State.pathOpen_congr hcsr, hp, hq, s.pathOpen_setPath _ i hpq hj]
    exact ⟨t, x, hexec, hmb, hstatus, (hpaths p hq8).trans (if_pos (.inl rfl)), (hpaths q hp8).trans (if_pos (.inr rfl)),
      fun i j _ hj hforth hback => (hpaths i hj).trans (if_neg (not_or.mpr ⟨hforth, hback⟩))⟩
  · exact s.cmdCheck_of_bad hformed (hop ▸ hmay) (hop ▸ hgate) hpresent (s.cmdBad_partPath_self hop hself hopens)

end Sys2Proof.Machine
end

section
/-!
The CLOCK block (R483): a register access at an offset of the block reaches the block, who may write it, and what a read returns.
-/

namespace Sys2Proof.Machine

variable (s : State)

/-! ### Addresses of the block -/

theorem clkAddr_block {off : Nat} (hoff : off < 0x10000) : (R.CLK_CTRL + off) / 0x10000 = 0x6000000C := by
  rw [R.CLK_CTRL]
  omega

theorem clkAddr_offset {off : Nat} (hoff : off < 0x10000) : (R.CLK_CTRL + off) % 0x10000 = off := by
  rw [R.CLK_CTRL]
  omega

theorem clkAddr_aligned {off : Nat} (halign : off % 8 = 0) : (R.CLK_CTRL + off) / 8 * 8 = R.CLK_CTRL + off := by
  rw [R.CLK_CTRL]
  omega

/-- The block lies in the CSR region. -/
theorem csrBase_le_clkAddr (off : Nat) : ¬ R.CLK_CTRL + off < csrBase := by
  rw [R.CLK_CTRL, csrBase]
  omega

/-- The block belongs to no unit that can be absent. -/
theorem blockUnit_clkAddr {off : Nat} (hoff : off < 0x10000) : blockUnit (R.CLK_CTRL + off) = none := by
  simp [blockUnit, clkAddr_block hoff]

/-- The block is in the always-on domain, so in RUN it has its supply in DEEP too. -/
theorem State.blockPowered_clk {off : Nat} (hoff : off < 0x10000) (hrun : s.boot.phase = 3) :
    s.blockPowered (R.CLK_CTRL + off) = true := by
  have halways : alwaysOn (R.CLK_CTRL + off) = true := by simp [alwaysOn, clkAddr_block hoff]
  rw [State.blockPowered, hrun]
  simp [halways]

/-! ### Writes -/

/-- A write of a register of the CLOCK block is the block's own write. -/
theorem State.regWrite_clk (r : Req) (d : WData) {off : Nat} (hoff : off < 0x10000) (hrun : s.boot.phase = 3) :
    s.regWrite r (R.CLK_CTRL + off) d = s.clkWrite r off d := by
  simp [State.regWrite, clkAddr_block hoff, clkAddr_offset hoff, csrBase_le_clkAddr, blockUnit_clkAddr hoff,
    s.blockPowered_clk hoff hrun]

theorem execRegisterWrite_clk (r : Req) (d : WData) {off : Nat} (hoff : off < 0x10000) (halign : off % 8 = 0)
    (hrun : s.boot.phase = 3) :
    exec (.registerWrite r (R.CLK_CTRL + off) d) s = .next ((s.dropHalf r).clkWrite r off d) := by
  have hwrite := (s.dropHalf r).regWrite_clk r d hoff hrun
  rw [← clkAddr_aligned halign] at hwrite
  exact congrArg Host.Outcome.next hwrite

/-- A trusted requester's write of any register but CLK_CTRL has no effect beside its access codes. -/
theorem State.clkWrite_of_trusted {r : Req} {off : Nat} (d : WData) (htrusted : r.trusted = true) (hne : off ≠ 0) :
    s.clkWrite r off d = s.writeReg (R.CLK_CTRL + off) d := by
  simp [State.clkWrite, htrusted, hne]

/-- Any other requester's write is a reject, CLK_CTRL's too. -/
theorem State.clkWrite_of_untrusted {r : Req} (off : Nat) (d : WData) (huntrusted : r.trusted = false) :
    s.clkWrite r off d = s.reject R.CLK_REJECTS off := by
  simp [State.clkWrite, huntrusted]

/-! ### Reads -/

/-- The block's registers read as they stand, for every requester. -/
theorem State.regView_clk (r : Req) {off : Nat} (hoff : off < 0x10000) (hrun : s.boot.phase = 3) :
    s.regView r (R.CLK_CTRL + off) = readMask (R.CLK_CTRL + off) (s.reg (R.CLK_CTRL + off)) := by
  simp [State.regView, clkAddr_block hoff, csrBase_le_clkAddr, blockUnit_clkAddr hoff, s.blockPowered_clk hoff hrun]

/-- A whole read of a register returns what it reads as. -/
theorem execRegisterReadClear_both (r : Req) (addr : Nat) :
    ∃ t, exec (.registerReadClear r addr .both) s = .next t ∧ t.rdata = BitVec.ofNat 64 (s.regView r (addr / 8 * 8)) :=
  ⟨_, rfl, rfl⟩

/-- Settles O53: the two branches of the block's write, and the block's view. -/
theorem clockBlockAccess : Obligations.ClockBlockAccess := by
  intro off d s hoff halign hrun
  refine ⟨fun r hr hne => ?_, fun r huntrusted => ?_, fun r => ?_⟩
  · have htrusted : r.trusted = true := by rcases hr with rfl | rfl <;> rfl
    rw [execRegisterWrite_clk s r d hoff halign hrun, State.clkWrite_of_trusted _ d htrusted hne]
  · have hexec := execRegisterWrite_clk s r d hoff halign hrun
    rw [State.clkWrite_of_untrusted _ off d huntrusted] at hexec
    exact ⟨_, hexec, (s.dropHalf r).rd_reject_count R.CLK_REJECTS off, fun a ha => (s.dropHalf r).reg_reject_ne off ha,
      fun a => s.dropHalf_byte r a⟩
  · have hread := execRegisterReadClear_both s r (R.CLK_CTRL + off)
    rwa [clkAddr_aligned halign, s.regView_clk r hoff hrun] at hread

end Sys2Proof.Machine
end

section
/-!
One step (95_what_each_step_holds.md): what a command keeps, what a TIME_CLK cycle keeps, and what holds after reset.
-/

namespace Sys2Proof.Machine

/-! ### A command -/

/-- What one command keeps: one arm per command, each the law of its meaning. -/
theorem exec_keeps (s : State) : ∀ c : Instr, s.KeepsO (storesNothing c) (exec c s)
  | .registerWrite .. => execRegisterWrite_keeps (.refl s _)
  | .registerReadClear .. => execRegisterReadClear_keeps (.refl s _)
  | .lockSet .. => execLockSet_keeps (.refl s _)
  | .d2dModuleFail .. => execD2dModuleFail_keeps (.refl s _)
  | .epochHoldRelease .. => execEpochHoldRelease_keeps (.refl s _)
  | .egressDrop .. => execEgressDrop_keeps (.refl s _)
  | .tbRateWrite .. => execTbRateWrite_keeps (.refl s _)
  | .tbAdjWrite .. => execTbAdjWrite_keeps (.refl s _)
  | .tbSetLowWrite .. => execTbSetLowWrite_keeps (.refl s _)
  | .tbNowRead .. => execTbNowRead_keeps (.refl s _)
  | .syncReceive .. => execSyncReceive_keeps (.refl s _)
  | .announceReceive .. => execAnnounceReceive_keeps (.refl s _)
  | .pdelayExchange .. => execPdelayExchange_keeps (.refl s _)
  | .ppsEdge .. => execPpsEdge_keeps (.refl s _)
  | .sourceLoss .. => execSourceLoss_keeps (.refl s _)
  | .holdoverExpire .. => execHoldoverExpire_keeps (.refl s _)
  | .phaseObservation .. => execPhaseObservation_keeps (.refl s _)
  | .phSwObsWrite .. => execPhSwObsWrite_keeps (.refl s _)
  | .phEnable .. => execPhEnable_keeps (.refl s _)
  | .phaseSourceTimeout .. => execPhaseSourceTimeout_keeps (.refl s _)
  | .phaseLost .. => execPhaseLost_keeps (.refl s _)
  | .lostSecondTimeout .. => execLostSecondTimeout_keeps (.refl s _)
  | .peMatch .. => execPeMatch_keeps (.refl s _)
  | .peCtrlWrite .. => execPeCtrlWrite_keeps (.refl s _)
  | .peRetargetWrite .. => execPeRetargetWrite_keeps (.refl s _)
  | .pulseEnd .. => execPulseEnd_keeps (.refl s _)
  | .captureEdge .. => execCaptureEdge_keeps (.refl s _)
  | .capSecRead .. => execCapSecRead_keeps (.refl s _)
  | .evtSecRead .. => execEvtSecRead_keeps (.refl s _)
  | .csiFrameStart .. => execCsiFrameStart_keeps (.refl s _)
  | .csiLine .. => execCsiLine_keeps (.refl s _)
  | .csiFrameEnd .. => execCsiFrameEnd_keeps (.refl s _)
  | .csiFrameTimeout .. => execCsiFrameTimeout_keeps (.refl s _)
  | .ethFrameReceive .. => execEthFrameReceive_keeps (.refl s _)
  | .canFrameValid .. => execCanFrameValid_keeps (.refl s _)
  | .spiPeriodExpire .. => execSpiPeriodExpire_keeps (.refl s _)
  | .spiDrdyEdge .. => execSpiDrdyEdge_keeps (.refl s _)
  | .spiTransferEnd .. => execSpiTransferEnd_keeps (.refl s _)
  | .encPeriodExpire .. => execEncPeriodExpire_keeps (.refl s _)
  | .gpioInputEdge .. => execGpioInputEdge_keeps (.refl s _)
  | .itemVisible .. => execItemVisible_keeps (.refl s _)
  | .pauseRefresh .. => execPauseRefresh_keeps (.refl s _)
  | .expectWindowExpire .. => execExpectWindowExpire_keeps (.refl s _)
  | .iqHeadRead .. => execIqHeadRead_keeps (.refl s _)
  | .iqAnyHeadRead .. => execIqAnyHeadRead_keeps (.refl s _)
  | .iqMark .. => execIqMark_keeps (.refl s _)
  | .iqRewind .. => execIqRewind_keeps (.refl s _)
  | .iqReleaseWrite .. => execIqReleaseWrite_keeps (.refl s _)
  | .streamEnable .. => execStreamEnable_keeps (.refl s _)
  | .streamDisable .. => execStreamDisable_keeps (.refl s _)
  | .bundleBuildStart => execBundleBuildStart_keeps (.refl s _)
  | .bundleWaitExpire => execBundleWaitExpire_keeps (.refl s _)
  | .bundleEmit => execBundleEmit_keeps (.refl s _)
  | .registrationDone => execRegistrationDone_keeps (.refl s _)
  | .alnReleaseWrite .. => execAlnReleaseWrite_keeps (.refl s _)
  | .alnResetDone => execAlnResetDone_keeps (.refl s _)
  | .voxTrigger => execVoxTrigger_keeps (.refl s _)
  | .voxBuildStart => execVoxBuildStart_keeps (.refl s _)
  | .voxWaitExpire => execVoxWaitExpire_keeps (.refl s _)
  | .voxFrameEmit => execVoxFrameEmit_keeps (.refl s _)
  | .voxReleaseWrite .. => execVoxReleaseWrite_keeps (.refl s _)
  | .voxResetDone => execVoxResetDone_keeps (.refl s _)
  | .rvInstruction .. => execRvInstruction_keeps (.refl s _)
  | .txSend .. => execTxSend_keeps (.refl s _)
  | .txRecv .. => execTxRecv_keeps (.refl s _)
  | .txWait .. => execTxWait_keeps (.refl s _)
  | .txPoll .. => execTxPoll_keeps (.refl s _)
  | .txFence .. => execTxFence_keeps (.refl s _)
  | .txRest .. => execTxRest_keeps (.refl s _)
  | .txHalt .. => execTxHalt_keeps (.refl s _)
  | .txMm .. => execTxMm_keeps (.refl s _)
  | .txWload .. => execTxWload_keeps (.refl s _)
  | .txQuant .. => execTxQuant_keeps (.refl s _)
  | .txDma .. => execTxDma_keeps (.refl s _)
  | .vConvert .. => execVConvert_keeps (.refl s _)
  | .vAdd .. => execVAdd_keeps (.refl s _)
  | .vSub .. => execVSub_keeps (.refl s _)
  | .vMul .. => execVMul_keeps (.refl s _)
  | .vFma .. => execVFma_keeps (.refl s _)
  | .vMax .. => execVMax_keeps (.refl s _)
  | .vMin .. => execVMin_keeps (.refl s _)
  | .vAbs .. => execVAbs_keeps (.refl s _)
  | .vRelu .. => execVRelu_keeps (.refl s _)
  | .vLeakyRelu .. => execVLeakyRelu_keeps (.refl s _)
  | .vGeluTanh .. => execVGeluTanh_keeps (.refl s _)
  | .vGeluErf .. => execVGeluErf_keeps (.refl s _)
  | .vSilu .. => execVSilu_keeps (.refl s _)
  | .vSigmoid .. => execVSigmoid_keeps (.refl s _)
  | .vTanh .. => execVTanh_keeps (.refl s _)
  | .vExp .. => execVExp_keeps (.refl s _)
  | .vExp2 .. => execVExp2_keeps (.refl s _)
  | .vLog .. => execVLog_keeps (.refl s _)
  | .vRecip .. => execVRecip_keeps (.refl s _)
  | .vSqrt .. => execVSqrt_keeps (.refl s _)
  | .vRsqrt .. => execVRsqrt_keeps (.refl s _)
  | .vDiv .. => execVDiv_keeps (.refl s _)
  | .vRsum .. => execVRsum_keeps (.refl s _)
  | .vRmax .. => execVRmax_keeps (.refl s _)
  | .vRargmax .. => execVRargmax_keeps (.refl s _)
  | .vSoftmax .. => execVSoftmax_keeps (.refl s _)
  | .vRmsnorm .. => execVRmsnorm_keeps (.refl s _)
  | .vLayernorm .. => execVLayernorm_keeps (.refl s _)
  | .mvCopy .. => execMvCopy_keeps (.refl s _)
  | .mvTranspose .. => execMvTranspose_keeps (.refl s _)
  | .mvGather .. => execMvGather_keeps (.refl s _)
  | .mvScatter .. => execMvScatter_keeps (.refl s _)
  | .mvScatterAdd .. => execMvScatterAdd_keeps (.refl s _)
  | .mvFill .. => execMvFill_keeps (.refl s _)
  | .tensorOpStart .. => execTensorOpStart_keeps (.refl s _)
  | .tensorOpComplete .. => execTensorOpComplete_keeps (.refl s _)
  | .dmaBurstIssue .. => execDmaBurstIssue_keeps (.refl s _)
  | .dmaBurstAnswer .. => execDmaBurstAnswer_keeps (.refl s _)
  | .sqStart .. => execSqStart_keeps (.refl s _)
  | .sqHalt .. => execSqHalt_keeps (.refl s _)
  | .sqCtrlLoad .. => execSqCtrlLoad_keeps (.refl s _)
  | .sqLoadComplete .. => execSqLoadComplete_keeps (.refl s _)
  | .sqReset .. => execSqReset_keeps (.refl s _)
  | .sqResetComplete .. => execSqResetComplete_keeps (.refl s _)
  | .sqEventWrite .. => execSqEventWrite_keeps (.refl s _)
  | .meshRequestArrive .. => execMeshRequestArrive_keeps (.refl s _)
  | .meshReplyArrive .. => execMeshReplyArrive_keeps (.refl s _)
  | .postedAnswerArrive .. => execPostedAnswerArrive_keeps (.refl s _)
  | .restReqWrite .. => execRestReqWrite_keeps (.refl s _)
  | .restForceWrite .. => execRestForceWrite_keeps (.refl s _)
  | .restWithdrawWrite .. => execRestWithdrawWrite_keeps (.refl s _)
  | .restEnter .. => execRestEnter_keeps (.refl s _)
  | .restComplete .. => execRestComplete_keeps (.refl s _)
  | .planeJobArrive .. => execPlaneJobArrive_keeps (.refl s _)
  | .planeJobStart .. => execPlaneJobStart_keeps (.refl s _)
  | .planeProductEnd .. => execPlaneProductEnd_keeps (.refl s _)
  | .planeJobDone .. => execPlaneJobDone_keeps (.refl s _)
  | .plLoadOpen .. => execPlLoadOpen_keeps (.refl s _)
  | .plLoadClose .. => execPlLoadClose_keeps (.refl s _)
  | .planeLoadCheckDone .. => execPlaneLoadCheckDone_keeps (.refl s _)
  | .calFull .. => execCalFull_keeps (.refl s _)
  | .calOffset .. => execCalOffset_keeps (.refl s _)
  | .calibrationStart .. => execCalibrationStart_keeps (.refl s _)
  | .calibrationDone .. => execCalibrationDone_keeps (.refl s _)
  | .planeTempSample .. => execPlaneTempSample_keeps (.refl s _)
  | .recalMsExpire .. => execRecalMsExpire_keeps (.refl s _)
  | .weightCheck .. => execWeightCheck_keeps (.refl s _)
  | .probeProduct .. => execProbeProduct_keeps (.refl s _)
  | .contractAgeOut .. => execContractAgeOut_keeps (.refl s _)
  | .plCalCtrlWrite .. => execPlCalCtrlWrite_keeps (.refl s _)
  | .plForceWrite .. => execPlForceWrite_keeps (.refl s _)
  | .overrideRelease .. => execOverrideRelease_keeps (.refl s _)
  | .plReset .. => execPlReset_keeps (.refl s _)
  | .plResetComplete .. => execPlResetComplete_keeps (.refl s _)
  | .aeJobArrive .. => execAeJobArrive_keeps (.refl s _)
  | .attend .. => execAttend_keeps (.refl s _)
  | .select .. => execSelect_keeps (.refl s _)
  | .append .. => execAppend_keeps (.refl s _)
  | .commit .. => execCommit_keeps (.refl s _)
  | .rollback .. => execRollback_keeps (.refl s _)
  | .publish .. => execPublish_keeps (.refl s _)
  | .seqOpen .. => execSeqOpen_keeps (.refl s _)
  | .seqClose .. => execSeqClose_keeps (.refl s _)
  | .limboRelease => execLimboRelease_keeps (.refl s _)
  | .helperSlice .. => execHelperSlice_keeps (.refl s _)
  | .aeJobComplete .. => execAeJobComplete_keeps (.refl s _)
  | .aeReset .. => execAeReset_keeps (.refl s _)
  | .aeResetComplete .. => execAeResetComplete_keeps (.refl s _)
  | .kvEnable .. => execKvEnable_keeps (.refl s _)
  | .ccCheck .. => execCcCheck_keeps (.refl s _)
  | .checkResume => execCheckResume_keeps (.refl s _)
  | .checkDeadline => execCheckDeadline_keeps (.refl s _)
  | .ccLoadModel => execCcLoadModel_keeps (.refl s _)
  | .ccLoadSdf => execCcLoadSdf_keeps (.refl s _)
  | .ccLoadBev => execCcLoadBev_keeps (.refl s _)
  | .ccCommit => execCcCommit_keeps (.refl s _)
  | .ccCancel => execCcCancel_keeps (.refl s _)
  | .ccFallbackJob => execCcFallbackJob_keeps (.refl s _)
  | .ccFallbackBit .. => execCcFallbackBit_keeps (.refl s _)
  | .trajectorySwitch => execTrajectorySwitch_keeps (.refl s _)
  | .trajectoryExpiry => execTrajectoryExpiry_keeps (.refl s _)
  | .fallbackSwitch => execFallbackSwitch_keeps (.refl s _)
  | .ccReset .. => execCcReset_keeps (.refl s _)
  | .dynLoadModel .. => execDynLoadModel_keeps (.refl s _)
  | .loadTasks .. => execLoadTasks_keeps (.refl s _)
  | .compute .. => execCompute_keeps (.refl s _)
  | .dynRun .. => execDynRun_keeps (.refl s _)
  | .runOnce .. => execRunOnce_keeps (.refl s _)
  | .dynPeriodTrigger => execDynPeriodTrigger_keeps (.refl s _)
  | .dynNotifyTrigger .. => execDynNotifyTrigger_keeps (.refl s _)
  | .dynDeadline => execDynDeadline_keeps (.refl s _)
  | .dynSolveDone => execDynSolveDone_keeps (.refl s _)
  | .dynJobResume => execDynJobResume_keeps (.refl s _)
  | .dynReset .. => execDynReset_keeps (.refl s _)
  | .rulePulseEnd .. => execRulePulseEnd_keeps (.refl s _)
  | .rfxLatchedWrite .. => execRfxLatchedWrite_keeps (.refl s _)
  | .egSendWrite .. => execEgSendWrite_keeps (.refl s _)
  | .egressFrameStart .. => execEgressFrameStart_keeps (.refl s _)
  | .canTransmit .. => execCanTransmit_keeps (.refl s _)
  | .gclEntryAdvance .. => execGclEntryAdvance_keeps (.refl s _)
  | .doorbell .. => execDoorbell_keeps (.refl s _)
  | .respHeadWrite .. => execRespHeadWrite_keeps (.refl s _)
  | .seqReset .. => execSeqReset_keeps (.refl s _)
  | .ringReset .. => execRingReset_keeps (.refl s _)
  | .mbxCommandStart => execMbxCommandStart_keeps (.refl s _)
  | .mbxCommandComplete .. => execMbxCommandComplete_keeps (.refl s _)
  | .cmdTimeout .. => execCmdTimeout_keeps (.refl s _)
  | .unitStateReport .. => execUnitStateReport_keeps (.refl s _)
  | .nop .. => execNop_keeps (.refl s _)
  | .identify .. => execIdentify_keeps (.refl s _)
  | .unitQuery .. => execUnitQuery_keeps (.refl s _)
  | .unitReset .. => execUnitReset_keeps (.refl s _)
  | .unitQuarantine .. => execUnitQuarantine_keeps (.refl s _)
  | .unitRelease .. => execUnitRelease_keeps (.refl s _)
  | .eventRead .. => execEventRead_keeps (.refl s _)
  | .csrRead .. => execCsrRead_keeps (.refl s _)
  | .csrWrite .. => execCsrWrite_keeps (.refl s _)
  | .partCreate .. => execPartCreate_keeps (.refl s _)
  | .partAssign .. => execPartAssign_keeps (.refl s _)
  | .partWindows .. => execPartWindows_keeps (.refl s _)
  | .partShare .. => execPartShare_keeps (.refl s _)
  | .partPath .. => execPartPath_keeps (.refl s _)
  | .partSquareShare .. => execPartSquareShare_keeps (.refl s _)
  | .partStart .. => execPartStart_keeps (.refl s _)
  | .partReset .. => execPartReset_keeps (.refl s _)
  | .partResetDone .. => execPartResetDone_keeps (.refl s _)
  | .partQuery .. => execPartQuery_keeps (.refl s _)
  | .partWindowBoundary => execPartWindowBoundary_keeps (.refl s _)
  | .sqLoad .. => execSqLoad_keeps (.refl s _)
  | .sqRun .. => execSqRun_keeps (.refl s _)
  | .plLoad .. => execPlLoad_keeps (.refl s _)
  | .jobSend .. => execJobSend_keeps (.refl s _)
  | .memCopy .. => execMemCopy_keeps (.refl s _)
  | .memFill .. => execMemFill_keeps (.refl s _)
  | .kvOp .. => execKvOp_keeps (.refl s _)
  | .kvPoolQuery .. => execKvPoolQuery_keeps (.refl s _)
  | .timeRead .. => execTimeRead_keeps (.refl s _)
  | .timeStep .. => execTimeStep_keeps (.refl s _)
  | .timeAdjust .. => execTimeAdjust_keeps (.refl s _)
  | .peArm .. => execPeArm_keeps (.refl s _)
  | .peDisarm .. => execPeDisarm_keeps (.refl s _)
  | .phQuery .. => execPhQuery_keeps (.refl s _)
  | .streamSet .. => execStreamSet_keeps (.refl s _)
  | .iqQuery .. => execIqQuery_keeps (.refl s _)
  | .iqFlush .. => execIqFlush_keeps (.refl s _)
  | .powerState .. => execPowerState_keeps (.refl s _)
  | .powerCap .. => execPowerCap_keeps (.refl s _)
  | .unitPower .. => execUnitPower_keeps (.refl s _)
  | .powerQuery .. => execPowerQuery_keeps (.refl s _)
  | .imgReadKey .. => execImgReadKey_keeps (.refl s _)
  | .imgBegin .. => execImgBegin_keeps (.refl s _)
  | .imgWrite .. => execImgWrite_keeps (.refl s _)
  | .imgVerify .. => execImgVerify_keeps (.refl s _)
  | .imgActivate .. => execImgActivate_keeps (.refl s _)
  | .imgConfirm .. => execImgConfirm_keeps (.refl s _)
  | .imgAbort .. => execImgAbort_keeps (.refl s _)
  | .imgRevokeKey .. => execImgRevokeKey_keeps (.refl s _)
  | .safeRequest .. => execSafeRequest_keeps (.refl s _)
  | .safetyQuery .. => execSafetyQuery_keeps (.refl s _)
  | .restRequest .. => execRestRequest_keeps (.refl s _)
  | .restWithdraw .. => execRestWithdraw_keeps (.refl s _)
  | .linkQuery .. => execLinkQuery_keeps (.refl s _)
  | .linkRetrain .. => execLinkRetrain_keeps (.refl s _)
  | .linkEnable .. => execLinkEnable_keeps (.refl s _)
  | .castleInboxMessage .. => execCastleInboxMessage_keeps (.refl s _)
  | .cpSubmission .. => execCpSubmission_keeps (.refl s _)
  | .planeReportArrive .. => execPlaneReportArrive_keeps (.refl s _)
  | .cpVerdict .. => execCpVerdict_keeps (.refl s _)
  | .cpDeadline .. => execCpDeadline_keeps (.refl s _)
  | .scArm .. => execScArm_keeps (.refl s _)
  | .scKick .. => execScKick_keeps (.refl s _)
  | .scKickWrite .. => execScKickWrite_keeps (.refl s _)
  | .scLate .. => execScLate_keeps (.refl s _)
  | .tsArm .. => execTsArm_keeps (.refl s _)
  | .tsMark .. => execTsMark_keeps (.refl s _)
  | .tsMarkWrite .. => execTsMarkWrite_keeps (.refl s _)
  | .tsPeriodicAct .. => execTsPeriodicAct_keeps (.refl s _)
  | .tsLimitExpire .. => execTsLimitExpire_keeps (.refl s _)
  | .fzSample .. => execFzSample_keeps (.refl s _)
  | .rotationEntryStart => execRotationEntryStart_keeps (.refl s _)
  | .restGraceExpire => execRestGraceExpire_keeps (.refl s _)
  | .forceGraceExpire => execForceGraceExpire_keeps (.refl s _)
  | .selfTestDone .. => execSelfTestDone_keeps (.refl s _)
  | .castleFault .. => execCastleFault_keeps (.refl s _)
  | .castleRestartDone .. => execCastleRestartDone_keeps (.refl s _)
  | .safeReq .. => execSafeReq_keeps (.refl s _)
  | .holdGeneratorFill => execHoldGeneratorFill_keeps (.refl s _)
  | .safeRestartApply => execSafeRestartApply_keeps (.refl s _)
  | .safeRestartComplete => execSafeRestartComplete_keeps (.refl s _)
  | .safeLatch .. => execSafeLatch_keeps (.refl s _)
  | .safeExit .. => execSafeExit_keeps (.refl s _)
  | .dramRead .. => execDramRead_keeps (.refl s _)
  | .dramWrite .. => execDramWrite_keeps (.refl s _)
  | .scrubRead .. => execScrubRead_keeps (.refl s _)
  | .shareWindow .. => execShareWindow_keeps (.refl s _)
  | .irqRouteWrite .. => execIrqRouteWrite_keeps (.refl s _)
  | .pcieInboundAccess .. => execPcieInboundAccess_keeps (.refl s _)
  | .pcieOutboundAccess .. => execPcieOutboundAccess_keeps (.refl s _)
  | .pcieDeviceRequest .. => execPcieDeviceRequest_keeps (.refl s _)
  | .pcieLinkDown => execPcieLinkDown_keeps (.refl s _)
  | .perstRelease => execPerstRelease_keeps (.refl s _)
  | .zorraLinkTrained .. => execZorraLinkTrained_keeps (.refl s _)
  | .formWindowExpire => execFormWindowExpire_keeps (.refl s _)
  | .declarationReceive .. => execDeclarationReceive_keeps (.refl s _)
  | .declarationTimeout => execDeclarationTimeout_keeps (.refl s _)
  | .linkFrameReceive .. => execLinkFrameReceive_keeps (.refl s _)
  | .linkTimeout .. => execLinkTimeout_keeps (.refl s _)
  | .netReform .. => execNetReform_keeps (.refl s _)
  | .relayItem .. => execRelayItem_keeps (.refl s _)
  | .pwrVoteWrite .. => execPwrVoteWrite_keeps (.refl s _)
  | .entryDelayTimeout => execEntryDelayTimeout_keeps (.refl s _)
  | .entryCommit => execEntryCommit_keeps (.refl s _)
  | .entryComplete => execEntryComplete_keeps (.refl s _)
  | .wakePin => execWakePin_keeps (.refl s _)
  | .wakeTimer => execWakeTimer_keeps (.refl s _)
  | .pwrWakeWrite .. => execPwrWakeWrite_keeps (.refl s _)
  | .wakeComplete .. => execWakeComplete_keeps (.refl s _)
  | .vfStepDone => execVfStepDone_keeps (.refl s _)
  | .oppReqWrite .. => execOppReqWrite_keeps (.refl s _)
  | .capWindow .. => execCapWindow_keeps (.refl s _)
  | .peakOvercurrent => execPeakOvercurrent_keeps (.refl s _)
  | .peakRelease => execPeakRelease_keeps (.refl s _)
  | .thermalTick .. => execThermalTick_keeps (.refl s _)
  | .clockGate .. => execClockGate_keeps (.refl s _)
  | .refclkLoss .. => execRefclkLoss_keeps (.refl s _)
  | .refclkQualified .. => execRefclkQualified_keeps (.refl s _)
  | .clockSwitchDone => execClockSwitchDone_keeps (.refl s _)
  | .clkSwitch .. => execClkSwitch_keeps (.refl s _)
  | .clockHoldoverExpire => execClockHoldoverExpire_keeps (.refl s _)
  | .clockDomainFail .. => execClockDomainFail_keeps (.refl s _)
  | .vinLoss .. => execVinLoss_keeps (.refl s _)
  | .vinBrownout => execVinBrownout_keeps (.refl s _)
  | .vinReturn => execVinReturn_keeps (.refl s _)
  | .holdupLow .. => execHoldupLow_keeps (.refl s _)
  | .holdupDisagree .. => execHoldupDisagree_keeps (.refl s _)
  | .holdupFull .. => execHoldupFull_keeps (.refl s _)
  | .railFault .. => execRailFault_keeps (.refl s _)
  | .retentionLoss => execRetentionLoss_keeps (.refl s _)
  | .powerUp .. => execPowerUp_keeps (.refl s _)
  | .vinPresent .. => execVinPresent_keeps (.refl s _)
  | .bootComplete => execBootComplete_keeps (.refl s _)
  | .moduleReset => execModuleReset_keeps (.refl s _)
  | .checkerResetComplete => execCheckerResetComplete_keeps (.refl s _)
  | .dynResetComplete => execDynResetComplete_keeps (.refl s _)
  | .syncTransmit .. => execSyncTransmit_keeps (.refl s _)
  | .pcieLinkUp .. => execPcieLinkUp_keeps (.refl s _)
  | .vaonLoss => execVaonLoss_keeps (.refl s _)
  | .vaonReturn => execVaonReturn_keeps (.refl s _)
  | .mtimecmpMatch .. => execMtimecmpMatch_keeps (.refl s _)
  | .ethLinkChange .. => execEthLinkChange_keeps (.refl s _)
  | .csiLinkUp .. => execCsiLinkUp_keeps (.refl s _)
  | .quadratureEdge .. => execQuadratureEdge_keeps (.refl s _)
  | .canBusStateChange .. => execCanBusStateChange_keeps (.refl s _)
  | .packageTempSample .. => execPackageTempSample_keeps (.refl s _)


/-- Memory and the renewed keys are all a byte is read from. -/
theorem State.Keeps.byte {s t : State} (h : s.Keeps true t) (a : Nat) : t.byte a = s.byte a := by
  obtain ⟨hmem, hrekey⟩ := h.2.2.1 rfl
  simp only [State.byte, State.blank, hmem, hrekey]

/-- What stores nothing keeps all the rest as well. -/
theorem State.Keeps.weaken {b : Bool} {s t : State} (h : s.Keeps b t) : s.Keeps false t := by
  obtain ⟨hpending, hnow, -, hwf⟩ := h
  exact ⟨hpending, hnow, nofun, hwf⟩

/-- Settles O1: the definition of a step on a queue that is not empty. -/
theorem stepRunsFront : Obligations.StepRunsFront := by
  intro c q s h
  rw [step, h]

/-- Settles O38: every arm of `exec` keeps the queue and the time. -/
theorem everyCommandKeepsQueueAndTime : Obligations.EveryCommandKeepsQueueAndTime := by
  intro c s t h
  obtain ⟨hpending, hnow, -⟩ := exec_keeps s c t h
  exact ⟨hpending, hnow⟩

/-- Settles O39: a command that stores nothing keeps memory and the renewed keys. -/
theorem commandsThatStoreNothing : Obligations.CommandsThatStoreNothing := by
  intro c s t hc h
  exact (hc ▸ exec_keeps s c t h : s.Keeps true t).byte

/-! ### A cycle of TIME_CLK -/

/-- A cycle up to the partition resets of a restart. -/
def State.tickClocks (s : State) : State :=
  let s : State := { s with now := s.now + 1 }
  let s := s.tickMtime
  let s := if s.clocksRun then (tickTime s).tickFabric else s
  if s.pwPhase = pwShutdown ∧ s.pwr.shutAt + 100000 ≤ s.now then s.shutDone else s

theorem State.tick_eq (s : State) :
    s.tick = if s.tickClocks.castle.restartAt.getD 0 + 2000 ≤ s.tickClocks.now then s.tickClocks.safeResets else s.tickClocks := rfl

/-- Up to the resets a cycle moves the time and stores nothing. -/
theorem State.tickClocks_keeps (s : State) : State.Keeps { s with now := s.now + 1 } true s.tickClocks := by
  have hclocks : State.Keeps { s with now := s.now + 1 } true
      (if State.clocksRun { s with now := s.now + 1 }.tickMtime then (tickTime { s with now := s.now + 1 }.tickMtime).tickFabric
        else { s with now := s.now + 1 }.tickMtime) :=
    keeps_ite (fun _ => State.tickFabric_keeps (tickTime_keeps (State.tickMtime_keeps (.refl _ _))))
      (fun _ => State.tickMtime_keeps (.refl _ _))
  exact keeps_ite (fun _ => State.shutDone_keeps hclocks) (fun _ => hclocks)

theorem State.tick_keeps (s : State) : State.Keeps { s with now := s.now + 1 } false s.tick := by
  have h := s.tickClocks_keeps.weaken
  rw [State.tick_eq]
  exact keeps_ite (fun _ => State.safeResets_keeps h) (fun _ => h)

/-- A timebase's cycle writes its own status register alone. -/
theorem tickTb_rd_ne (s : State) (n : Nat) (f : Fld) (h : R.TB_STATUS n ≠ f.reg) : (tickTb s n).rd f = s.rd f := by
  have hw : ∀ (t : State) (g : Fld) (v : Nat), g.reg = R.TB_STATUS n → (t.wr g v).rd f = t.rd f :=
    fun t g v hg => t.rd_wr_ne g f v (hg ▸ h)
  unfold tickTb
  dsimp only
  split_ifs <;> simp only [hw, State.setTb_rd, F.TB_STATUS_STATE, F.TB_STATUS_HOLDOVER_AGE_MS]

theorem tickPh_csr (s : State) (k : Nat) : (tickPh s k).csr = s.csr := rfl

theorem tickPe_csr (s : State) (j : Nat) : (tickPe s j).csr = s.csr := by
  unfold tickPe
  dsimp only
  split_ifs <;> rfl

/-- The TIME block's cycle leaves the phase of the safe state. -/
theorem tickTime_safePhase (s : State) : (tickTime s).safePhase = s.safePhase := by
  unfold tickTime
  have htb : ((List.range 8).foldl tickTb s).safePhase = s.safePhase :=
    List.foldlRecOn (motive := fun t : State => t.safePhase = s.safePhase) _ _ rfl fun t ht n hn => by
      have hlt := List.mem_range.mp hn
      exact (tickTb_rd_ne t n _ (by simp only [R.TB_STATUS, F.SAFE_STATUS_PHASE, R.SAFE_STATUS]; omega)).trans ht
  have hph := List.foldlRecOn (motive := fun t : State => t.safePhase = s.safePhase) (List.range 8) tickPh htb
    fun t ht k _ => (State.rd_congr (tickPh_csr t k) _).trans ht
  exact List.foldlRecOn (motive := fun t : State => t.safePhase = s.safePhase) _ _ hph
    fun t ht j _ => (State.rd_congr (tickPe_csr t j) _).trans ht

theorem State.shutDone_safePhase (s : State) : s.shutDone.safePhase = s.safePhase := by
  unfold State.shutDone
  split_ifs
  · exact (State.rd_wr_ne _ _ _ _ (by decide)).trans (State.rd_wr_ne _ _ _ _ (by decide))
  · rfl

theorem State.tickClocks_safePhase (s : State) : s.tickClocks.safePhase = s.safePhase := by
  unfold State.tickClocks
  dsimp only
  split_ifs
  · exact (State.shutDone_safePhase _).trans (tickTime_safePhase _)
  · exact tickTime_safePhase _
  · exact State.shutDone_safePhase _
  · rfl

/-- Outside a restart no partition reset is due. -/
theorem State.safeResets_of_not_restarting (s : State) (h : s.safePhase ≠ phRestarting) : s.safeResets = s :=
  if_neg fun hc => h hc.1

/-- Settles O2: a cycle stores nothing before the partition resets, and only a restart delivers those. -/
theorem emptyQueueTicks : Obligations.EmptyQueueTicks := by
  intro s hq
  obtain ⟨hpending, hnow, -⟩ := s.tick_keeps
  refine ⟨s.tick, by rw [step, hq], hnow, hpending.trans hq, fun hphase a => ?_⟩
  have hresets : s.tick = s.tickClocks := by
    rw [State.tick_eq, State.safeResets_of_not_restarting _ (s.tickClocks_safePhase ▸ hphase), ite_self]
  rw [hresets]
  exact s.tickClocks_keeps.byte a

/-- Settles O37: a command and a cycle each keep the canonical form; a step takes from the queue alone besides. -/
theorem everyStepKeepsMemory : Obligations.EveryStepKeepsMemory := by
  intro s t hs h
  unfold step at h
  split at h
  · cases h
    exact s.tick_keeps.memOk hs
  · exact (exec_keeps _ _ t h).memOk hs

/-! ### Words and reset -/

/-- Settles O3: the decoder reads no command, so nothing is placed. -/
theorem noWordSpellsACommand : Obligations.NoWordSpellsACommand :=
  fun _ _ _ => ⟨rfl, rfl⟩

/-- Settles O36: nothing is listed after reset, and no key was renewed. -/
theorem resetMeetsInvariants : Obligations.ResetMeetsInvariants :=
  ⟨rfl, memOk_reset, rfl, fun _ => rfl⟩

end Sys2Proof.Machine
end

section
/-!
The access codes of a register write (R10): what each bit of the written word is, by the code of its fields.
-/

namespace Sys2Proof.Machine

/-- The mask that complements a 64-bit word complements each bit below 64. -/
theorem testBit_compl64 (m : Nat) {i : Nat} (hi : i < 64) : (0xFFFFFFFFFFFFFFFF ^^^ m).testBit i = !m.testBit i := by
  rw [Nat.testBit_xor, show 0xFFFFFFFFFFFFFFFF = 2 ^ 64 - 1 from rfl, Nat.testBit_two_pow_sub_one, decide_eq_true hi, Bool.true_xor]

/-- One bit of a written register: the bits that take the written value, then those a 1 sets, then those a 1 clears. -/
theorem bit_writeWord (r : RegSpec) (locked : Bool) (old : Nat) (d : WData) {i : Nat} (hi : i < 64) :
    bit (writeWord r locked old d) i =
      (((if (bit (r.mask .rw) i || !locked && bit (r.mask .rwl) i) && bit d.half.mask i then bit d.value.toNat i else bit old i) ||
          (bit d.value.toNat i && bit d.half.mask i) && bit (r.mask .w1s) i) &&
        !((bit d.value.toNat i && bit d.half.mask i) && bit (r.mask .w1c) i)) := by
  have hlock : (if locked then 0 else r.mask .rwl).testBit i = (!locked && (r.mask .rwl).testBit i) := by
    cases locked <;> simp
  simp only [bit_eq_testBit, writeWord, WData.bits1, Nat.testBit_and, Nat.testBit_or, testBit_compl64 _ hi, hlock]
  cases ((r.mask .rw).testBit i || !locked && (r.mask .rwl).testBit i) && d.half.mask.testBit i <;> simp

/-- Settles O40: each clause is one row of the truth table of `bit_writeWord`. -/
theorem registerAccessCodes : Obligations.RegisterAccessCodes := by
  intro r locked old d i hi
  rw [bit_writeWord r locked old d hi]
  refine ⟨fun hrw hs hc hh => ?_, fun hrwl hrw hs hc hh => ?_, fun hs hrw hrwl hc hh => ?_, fun hc hrw hrwl hs hh => ?_, fun hh => ?_,
    fun hrw hrwl hs hc => ?_⟩
  · simp [hrw, hs, hc, hh]
  · cases locked <;> simp [hrwl, hrw, hs, hc, hh]
  · simp [hs, hrw, hrwl, hc, hh]
  · simp [hc, hrw, hrwl, hs, hh]
  · simp [hh]
  · simp [hrw, hrwl, hs, hc]

end Sys2Proof.Machine
end

section
/-!
Addresses: the map from a data address to a controller's line and back (R414), and the diagonal-banked placement (08_layout.md).
-/

namespace Sys2Proof.Machine

/-- The row of a data address is read off its local line. -/
theorem localLine_row {n : Nat} (a : Nat) (hn : 0 < n) : localLine n a * 64 / 4096 = a / 4096 / n := by
  rw [localLine, max_eq_right hn]
  omega

/-- The offset of a line in its granule is read off its local line. -/
theorem localLine_offset {n : Nat} (a : Nat) (hn : 0 < n) : localLine n a * 64 % 4096 = a % 4096 / 64 * 64 := by
  rw [localLine, max_eq_right hn]
  omega

/-- A rotation of a row by t places is undone by the rotation back. -/
theorem unrotate {n r : Nat} (t : Nat) (hr : r < n) : ((r + t) % n + n * (t + 1) - t) % n = r := by
  have hle : t ≤ n * (t + 1) := (Nat.le_succ t).trans (Nat.le_mul_of_pos_left _ (by omega))
  have hmod : (r + t) % n + n * (t + 1) - t + t ≡ r + t [MOD n] := by
    rw [Nat.sub_add_cancel (hle.trans (Nat.le_add_left _ _))]
    calc (r + t) % n + n * (t + 1) ≡ (r + t) % n [MOD n] := Nat.add_mul_mod_self_left _ _ _
      _ ≡ r + t [MOD n] := Nat.mod_modEq _ _
  have hcancel : ((r + t) % n + n * (t + 1) - t) % n = r % n := Nat.ModEq.add_right_cancel' t hmod
  rw [hcancel, Nat.mod_eq_of_lt hr]

/-- The controller and the local line give back the address of the line. -/
theorem dataAddr_mcOf_localLine {n : Nat} (a : Nat) (hn : 0 < n) : dataAddr n (mcOf n a) (localLine n a) = a / 64 * 64 := by
  have hrow : mcOf n a = (a / 4096 % n + (a / 4096 / n + a / 4096 / n / 64)) % n := by
    rw [mcOf, max_eq_right hn, Nat.add_assoc]
  have hgranule : a / 4096 / n * n + a / 4096 % n = a / 4096 := Nat.div_add_mod' _ _
  have hmax : max 1 n = n := max_eq_right hn
  simp only [dataAddr, localLine_row a hn, localLine_offset a hn, hmax]
  rw [hrow, unrotate _ (Nat.mod_lt _ hn), hgranule]
  omega

/-- Granules of one row lie on different controllers. -/
theorem mcOf_row_injective {n : Nat} (q : Nat) {i j : Nat} (hi : i < n) (hj : j < n)
    (h : mcOf n ((q * n + i) * 4096) = mcOf n ((q * n + j) * 4096)) : i = j := by
  have hn : 0 < n := by omega
  have hrow {k : Nat} (hk : k < n) : mcOf n ((q * n + k) * 4096) = (k + (q + q / 64)) % n := by
    rw [mcOf, max_eq_right hn, Nat.mul_div_cancel _ (by decide), Nat.add_comm (q * n), Nat.add_mul_div_right _ _ hn,
      Nat.div_eq_of_lt hk, Nat.zero_add, Nat.add_mul_mod_self_right, Nat.mod_eq_of_lt hk, Nat.add_assoc]
  rw [hrow hi, hrow hj] at h
  have hmod : i ≡ j [MOD n] := Nat.ModEq.add_right_cancel' _ h
  exact hmod.eq_of_lt_of_lt hi hj

/-- Settles O54: the rotation of a row of granules is a bijection, and a package line skips the eighth of its group. -/
theorem dataAddressMap : Obligations.DataAddressMap := by
  refine ⟨fun n a hn => ⟨?_, dataAddr_mcOf_localLine a hn⟩, fun n q i j => mcOf_row_injective q, fun n a => ?_, by decide, by decide⟩
  · rw [mcOf, max_eq_right hn]
    exact Nat.mod_lt _ hn
  · rw [packageLine]
    omega

/-- The placement leaves the line and the byte within a chunk, and rotates the chunk within its line. -/
theorem diagPlace_parts (a : Nat) : diagPlace a / 512 = a / 512 ∧ diagPlace a % 16 = a % 16 ∧
    diagPlace a / 16 % 32 = (a / 16 % 32 + rotLine (a / 512)) % 32 := by
  rw [diagPlace]
  omega

/-- Settles O55: a chunk's place determines its line, that line its rotation, and the rotation the chunk. -/
theorem diagonalPlacement : Obligations.DiagonalPlacement := by
  refine ⟨fun a => ?_, fun a => ⟨(diagPlace_parts a).1, (diagPlace_parts a).2.1⟩, fun a b h => ?_⟩
  · rw [diagPlace, rotLine]
    omega
  · obtain ⟨hline, hbyte, hchunk⟩ := diagPlace_parts a
    obtain ⟨hline', hbyte', hchunk'⟩ := diagPlace_parts b
    rw [h, hline'] at hline
    rw [h, hchunk', hline] at hchunk
    omega

end Sys2Proof.Machine
end

section
/-!
Time (R31, R41 to R44): the rate and the slew of one cycle, and a phase domain over one cycle.
-/

namespace Sys2Proof.Machine

/-- A clamped value lies within its bounds. -/
theorem clampI_bounds {lo hi : Int} (v : Int) (h : lo ≤ hi) : lo ≤ clampI lo hi v ∧ clampI lo hi v ≤ hi := by
  rw [clampI]
  split_ifs <;> omega

/-- Settles O46: the slew takes what room the clamped rate leaves on its side. -/
theorem rateClamp : Obligations.RateClamp := by
  intro rate slew
  have hrate := clampI_bounds (lo := -rateLimit) (hi := rateLimit) rate (by decide)
  simp only [cycleAdj, rateLimit] at hrate ⊢
  split_ifs <;> omega

/-- A phase domain's cycle written out. -/
theorem tickPh_ph_self (s : State) (k : Nat) :
    (tickPh s k).ph k = { s.ph k with
      prev := (s.ph k).acc,
      acc := if s.rd (F.PH_STATUS_STATE k) = 1 ∨ s.rd (F.PH_STATUS_STATE k) = 2 ∨
          (s.rd (F.PH_STATUS_STATE k) = 3 ∧ s.rd (F.PH_CTRL_HOLD_FREEZE k) = 0) then
        ((s.ph k).acc + (s.ph k).rateNow) % 2 ^ 56 else (s.ph k).acc } :=
  s.setPh_ph_self k _

/-- Settles O47: the branch of the cycle that each state takes; the domain alone is set. -/
theorem phaseNeverMovesBack : Obligations.PhaseNeverMovesBack := by
  intro s k
  have hset := tickPh_ph_self s k
  refine ⟨fun hruns => ?_, fun hstands => ?_, by rw [hset], fun j hj => s.setPh_ph_ne k _ hj.symm, rfl, fun a => s.setPh_byte k _ a⟩
  · rw [hset, if_pos hruns]
  · rw [hset, if_neg hstands]

end Sys2Proof.Machine
end

section
/-!
Writes of a master on the bus (R413 to R419, R500): where a write can store, and what it leaves.
-/

namespace Sys2Proof.Machine

variable (s : State)

/-- The answer of a write to [a, a + n) and the state after it: nothing stored, or a write taken (whole or with the poisoned lines
left out) that stored within the range alone. -/
def State.WriteConfined (a n : Nat) (r : Nat × State) : Prop :=
  (∀ x, r.2.byte x = s.byte x) ∨
    ((r.1 = St.ok ∨ r.1 = St.integrity) ∧ ∀ x, x < a ∨ a + n ≤ x → r.2.byte x = s.byte x)

variable {s}

theorem State.writeConfined_same (a n st : Nat) : s.WriteConfined a n (st, s) := .inl fun _ => rfl

theorem State.writeConfined_store (a : Nat) (l : List Byte) : s.WriteConfined a l.length (St.ok, s.store a l) :=
  .inr ⟨.inl rfl, fun x hx => s.store_byte_out a l x hx⟩

theorem State.writeConfined_ite {c : Prop} [Decidable c] {a n : Nat} {x y : Nat × State} (hx : c → s.WriteConfined a n x)
    (hy : ¬c → s.WriteConfined a n y) : s.WriteConfined a n (if c then x else y) := by
  split
  · exact hx ‹_›
  · exact hy ‹_›

theorem State.WriteConfined.out {a n : Nat} {r : Nat × State} (h : s.WriteConfined a n r) {x : Nat} (hx : x < a ∨ a + n ≤ x) :
    r.2.byte x = s.byte x := by
  rcases h with h | ⟨-, h⟩
  · exact h x
  · exact h x hx

variable (s)

/-! ### DRAM -/

theorem State.cleanBytes_byte (l : List Nat) (x : Nat) : (s.cleanBytes l).byte x = s.byte x := by
  unfold State.cleanBytes
  split <;> rfl

/-- The bytes of a range stored one by one, some kept, leave every byte outside the range. -/
theorem State.setBytes_byte_out (keep : Byte × Nat → Bool) (a : Nat) (data : List Byte) {x : Nat} (hx : x < a ∨ a + data.length ≤ x) :
    (data.zipIdx.foldl (fun (s : State) b => if keep b then s else s.setByte (a + b.2) b.1) s).byte x = s.byte x :=
  List.foldlRecOn (motive := fun t : State => t.byte x = s.byte x) _ _ rfl fun t ht b hb => by
    have hlt : b.2 < data.length := by simpa using (List.mem_zipIdx hb).2.1
    split
    · exact ht
    · rw [t.setByte_byte_ne _ (by omega), ht]

/-- Poisoned data marks and logs its lines, and stores nothing more. -/
theorem State.poisonLines_byte (m : Master) (lines : List Nat) (x : Nat) :
    (lines.foldl (fun (s : State) l =>
        ((s.setPoison l).errLog 3 (l * 64) m.unit false).event (0xB000 + mcOf s.mcCount (l * 64)) 0x2003 (l * 64) [m.unit]) s).byte x =
      s.byte x :=
  (keeps_foldl (b := true) (.refl s _) fun _ _ h => State.event_keeps (State.errLog_keeps (State.setPoison_keeps h))).byte x

theorem State.mcCharge_byte (part : Option Nat) (a len x : Nat) : (s.mcCharge part a len).byte x = s.byte x :=
  (State.mcCharge_keeps (b := true) (.refl s _)).byte x

theorem State.dramWrite_confined (m : Master) (a : Nat) (data : List Byte) (poison : Bool) :
    s.WriteConfined a data.length (s.dramWrite m a data poison) := by
  refine .inr ⟨?_, fun x hx => ?_⟩
  · unfold State.dramWrite
    dsimp only
    split
    · exact .inl rfl
    · exact .inr rfl
  · unfold State.dramWrite
    dsimp only
    split_ifs <;>
      simp only [State.poisonLines_byte, State.cleanBytes_byte, State.store_byte_out _ _ _ _ hx,
        State.setBytes_byte_out _ _ _ _ hx, State.mcCharge_byte]

/-! ### The units' windows -/

/-- A window's unit and offset give back the address, for each of the three kinds of unit. -/
theorem winUnit_addr {a u off : Nat} (h : winUnit a = some (u, off)) :
    (u / 0x1000 = 1 ∧ storeBase (u % 0x1000) + off = a) ∨ (u / 0x1000 = 2 ∧ planeWin (u % 0x1000) + off = a) ∨
      (u / 0x1000 = 3 ∧ engineWin (u % 0x1000) + off = a) := by
  unfold winUnit at h
  split at h
  · next hin =>
    obtain ⟨rfl, rfl⟩ := Prod.mk.inj (Option.some.inj h)
    simp only [storeBase] at hin ⊢
    omega
  split at h
  · next hin =>
    obtain ⟨rfl, rfl⟩ := Prod.mk.inj (Option.some.inj h)
    simp only [planeWin] at hin ⊢
    omega
  split at h
  · next hin =>
    obtain ⟨rfl, rfl⟩ := Prod.mk.inj (Option.some.inj h)
    simp only [engineWin] at hin ⊢
    omega
  · cases h

theorem State.storePort_confined (n off : Nat) (data : List Byte) (poison : Bool) :
    s.WriteConfined (storeBase n + off) data.length
      ((s.storePort n off data.length (some data) poison).1, (s.storePort n off data.length (some data) poison).2.2.2) := by
  unfold State.storePort
  split
  · exact State.writeConfined_same _ _ _
  · dsimp only
    split
    · exact State.writeConfined_same _ _ _
    · refine .inr ⟨.inl rfl, fun x hx => ?_⟩
      dsimp only
      split <;> exact s.store_byte_out _ _ _ hx

theorem State.planeWrite_confined (p off : Nat) (data : List Byte) :
    s.WriteConfined (planeWin p + off) data.length (s.planeWrite p off data) :=
  State.writeConfined_ite (fun _ => State.writeConfined_same _ _ _) fun _ =>
    State.writeConfined_ite (fun _ => State.writeConfined_store _ _) fun _ => State.writeConfined_same _ _ _

theorem State.engineWrite_confined (m : Master) (e off : Nat) (data : List Byte) :
    s.WriteConfined (engineWin e + off) data.length (s.engineWrite m e off data) :=
  State.writeConfined_ite (fun _ => State.writeConfined_same _ _ _) fun _ =>
    State.writeConfined_ite (fun _ => State.writeConfined_same _ _ _) fun _ =>
      State.writeConfined_ite (fun _ => State.writeConfined_same _ _ _) fun _ =>
        State.writeConfined_ite (fun _ => State.writeConfined_same _ _ _) fun _ => State.writeConfined_store _ _

/-! ### The mailbox windows -/

theorem State.mbxWrite_confined (m : Master) (a : Nat) (data : List Byte) :
    s.WriteConfined a data.length (St.ok, s.mbxWrite m a data) := by
  refine .inr ⟨.inl rfl, fun x hx => ?_⟩
  unfold State.mbxWrite
  dsimp only
  split_ifs
  · rfl
  · exact s.store_byte_out _ _ _ hx
  · exact s.reject_byte _ _ x

/-! ### An access, and a long one -/

theorem State.busWrite_confined (m : Master) (a : Nat) (data : List Byte) (poison : Bool) :
    s.WriteConfined a data.length (s.busWrite m a data poison) := by
  have hsame := State.writeConfined_same (s := s) a data.length
  refine State.writeConfined_ite (fun _ => State.writeConfined_ite (fun _ => hsame _) fun _ => State.writeConfined_ite (fun _ => hsame _) fun _ =>
    State.writeConfined_ite (fun _ => hsame _) fun _ => s.dramWrite_confined m a data poison) fun _ => ?_
  split
  case h_1 u off hwin =>
    refine State.writeConfined_ite (fun _ => hsame _) fun _ => State.writeConfined_ite (fun _ => hsame _) fun _ => ?_
    rcases winUnit_addr hwin with ⟨hu, rfl⟩ | ⟨hu, rfl⟩ | ⟨hu, rfl⟩ <;> simp only [hu]
    · exact s.storePort_confined _ off data poison
    · exact s.planeWrite_confined _ off data
    · exact s.engineWrite_confined m _ off data
  case h_2 =>
    exact State.writeConfined_ite
      (fun _ => State.writeConfined_ite (fun _ => State.writeConfined_store _ _) fun _ => hsame _) fun _ =>
        State.writeConfined_ite (fun _ => s.mbxWrite_confined m a data) fun _ => hsame _

/-- The pieces of a long write follow one another in its range. -/
theorem State.busWriteLong_byte_out (m : Master) (poison : Bool) (fuel a : Nat) (d : List Byte) {x : Nat}
    (hx : x < a ∨ a + d.length ≤ x) : (s.busWriteLong m poison fuel a d).2.byte x = s.byte x := by
  induction fuel generalizing s a d with
  | zero => rfl
  | succ fuel ih =>
    have hpiece : (s.busWrite m a (d.take (512 - a % 512)) poison).2.byte x = s.byte x :=
      (s.busWrite_confined m a _ poison).out (by rw [List.length_take]; omega)
    rw [State.busWriteLong]
    split
    · rfl
    · dsimp only
      split
      · exact hpiece
      · rw [ih _ _ _ (by rw [List.length_drop]; omega), hpiece]

/-- Settles O58: a single write is confined, and so is each piece of a long one. -/
theorem busWriteFrame : Obligations.BusWriteFrame := by
  intro s m a d poison
  have hone := s.busWrite_confined m a d poison
  refine ⟨fun x hx => ⟨hone.out hx, s.busWriteLong_byte_out m poison _ a d hx⟩, fun hok hint x => ?_⟩
  rcases hone with h | ⟨h | h, -⟩
  · exact h x
  · exact absurd h hok
  · exact absurd h hint

/-- Settles O59: the fence stands before the access in both directions. -/
theorem dramFence : Obligations.DramFence := by
  intro s m p a d poison hfree hpart hreset hdram hfitted hout
  have hopen : s.dramOpen m a d.length = false := by simp [State.dramOpen, hfree, hpart, hout]
  have hserves : s.partInReset m = false := by simp [State.partInReset, hpart, hreset]
  have hend : ¬ s.dramEnd < a + d.length := by omega
  constructor
  · simp [State.busWrite, hdram, hserves, hend, hopen]
  · simp [State.busRead, hdram, hserves, hend, hopen]

end Sys2Proof.Machine
end

section
/-!
The epoch of a unit (R19): the fields that show it, what an increment leaves, and the entry that waits for the last one.
-/

namespace Sys2Proof.Machine

variable (s : State)

/-- Every register shows an epoch in the same 16 bits. -/
theorem epochFld_place {u : Nat} {f : Fld} (h : epochFld u = some f) : f.lo = 16 ∧ f.w = 16 := by
  simp only [epochFld] at h
  repeat' split at h
  all_goals cases h
  all_goals exact ⟨rfl, rfl⟩

theorem capRegs_place : ∀ r ∈ capRegs, r ≤ R.FEATURE_MASK ∨ r = R.MC_STATUS := by decide

/-- No register that shows an epoch holds a capability mask. -/
theorem epochFld_ne_capRegs {u : Nat} {f : Fld} (h : epochFld u = some f) : ∀ r ∈ capRegs, f.reg ≠ r := by
  have hplace : R.FEATURE_MASK < f.reg ∧ f.reg ≠ R.MC_STATUS := by
    simp only [epochFld] at h
    repeat' split at h
    all_goals cases h
    all_goals
      simp only [F.SQ_STATE_EPOCH, R.SQ_STATE, F.PL_STATE_EPOCH, R.PL_STATE, F.AE_STATE_EPOCH, R.AE_STATE, F.ALN_STATUS_EPOCH, R.ALN_STATUS,
        F.VOX_STATUS_EPOCH, R.VOX_STATUS, F.CC_STATE_EPOCH, R.CC_STATE, F.DYN_STATE_EPOCH, R.DYN_STATE, R.FEATURE_MASK, R.MC_STATUS]
      omega
  intro r hr
  have := capRegs_place r hr
  omega

/-- A register that shows an epoch and a state shows the state in its lowest 4 bits. -/
theorem epochFld_stateFld {u : Nat} {f g : Fld} (hf : epochFld u = some f) (hg : stateFld u = some g) :
    f.reg = g.reg ∧ g.lo = 0 ∧ g.w = 4 := by
  simp only [epochFld] at hf
  simp only [stateFld] at hg
  split_ifs at hf hg <;> cases hf <;> cases hg
  all_goals simp_all [F.SQ_STATE_EPOCH, F.SQ_STATE_UNIT_STATE, F.PL_STATE_EPOCH, F.PL_STATE_UNIT_STATE, F.AE_STATE_EPOCH,
    F.AE_STATE_UNIT_STATE, F.CC_STATE_EPOCH, F.CC_STATE_UNIT_STATE, F.DYN_STATE_EPOCH, F.DYN_STATE_UNIT_STATE]

/-- A unit's state stands when its epoch is written. -/
theorem State.ustate_wr_epoch {u : Nat} {f : Fld} (v : Nat) (h : epochFld u = some f) :
    (s.wr f v).ustate u = s.ustate u := by
  obtain ⟨hlo, hw⟩ := epochFld_place h
  rw [State.ustate, State.ustate, s.present_wr f v u (epochFld_ne_capRegs h)]
  cases hg : stateFld u with
  | none => rfl
  | some g =>
    obtain ⟨hreg, hglo, hgw⟩ := epochFld_stateFld h hg
    simp only [s.rd_wr_disjoint f g v hreg (by omega) (.inr (by omega))]

/-- An increment adds 1 modulo 65,536, in the register that shows the epoch or in the unit's record. -/
theorem State.epochOf_bumpEpoch (u : Nat) : (s.bumpEpoch u).epochOf u = (s.epochOf u + 1) % 65536 := by
  cases hf : epochFld u with
  | none =>
    simp only [State.epochOf, State.bumpEpoch, hf]
    exact congrArg EpochRec.count (mget_mset_self _ _ _ _)
  | some f =>
    obtain ⟨hlo, hw⟩ := epochFld_place hf
    simp only [State.epochOf, State.bumpEpoch, hf]
    rw [State.rd_wr_self _ _ _ (by omega), hw]
    rfl

theorem State.ustate_bumpEpoch (u : Nat) : (s.bumpEpoch u).ustate u = s.ustate u := by
  cases hf : epochFld u with
  | none =>
    simp only [State.bumpEpoch, hf]
    exact State.ustate_congr rfl rfl u
  | some f =>
    simp only [State.bumpEpoch, hf]
    exact (State.ustate_wr_epoch _ _ hf).trans (State.ustate_congr rfl rfl u)

/-- Holding an entry leaves the epoch. -/
theorem State.epochOf_holdEpoch (u code : Nat) : (s.holdEpoch u code).epochOf u = s.epochOf u := by
  rw [State.epochOf, State.epochOf]
  cases epochFld u with
  | none =>
    have hrec : mget epochRec0 (s.holdEpoch u code).epoch u = { mget epochRec0 s.epoch u with held := some code } :=
      mget_mset_self _ _ _ _
    simp only [hrec]
  | some f => rfl

/-- Settles O42: an increment, and the two branches of an entry. -/
theorem epochRule : Obligations.EpochRule := by
  refine ⟨fun s u => ⟨s.epochOf_bumpEpoch u, fun _ => s.ustate_bumpEpoch u⟩, fun s u st hheld => ?_, fun s u st t hlast ht => ?_⟩
  · have hgo : s.unitGo u st = s.holdEpoch u st := by simp [State.unitGo, hheld]
    rw [hgo]
    exact ⟨State.ustate_congr rfl rfl u, s.epochOf_holdEpoch u st⟩
  · have hfree : s.epochFree u = true := by simp [State.epochFree, hlast, ht]
    exact if_pos hfree

/-! ### Answers by the state of the target (R20) -/

/-- The answer is OK for a unit that serves, and for no other. -/
theorem State.answerOf_ustate_eq_ok (u : Nat) : answerOf (s.ustate u) = St.ok ↔ s.serving u = true := by
  generalize hst : s.ustate u = st
  simp only [answerOf, State.serving, hst, decide_eq_true_eq]
  split_ifs with h1 h2 h3 h4
  · simp [h1, US.absent, US.ready, US.busy, St.absent, St.ok]
  · simp [h2, US.resting, US.ready, US.busy, St.busy, St.ok]
  · simp [h3, US.quarantined, US.ready, US.busy, St.notPermitted, St.ok]
  · simp [h4]
  · simp [h4, St.unitReset, St.ok]

/-- The newest record of the log is the one written, and the total counts it. -/
theorem State.log_logRec (unit code sev part subject : Nat) (args : List Nat) :
    (s.logRec unit code sev part subject args).log.total = s.log.total + 1 ∧
      (s.logRec unit code sev part subject args).log.ring.getLast? = some ⟨s.stamp 0, unit, code, sev, part, subject, args⟩ := by
  have hlog : (s.logRec unit code sev part subject args).log =
      ⟨s.log.total + 1, (s.log.ring ++ [(⟨s.stamp 0, unit, code, sev, part, subject, args⟩ : EvRec)]).drop (s.log.ring.length + 1 - 4096)⟩ := by
    have hring : (s.log.ring ++ [(⟨s.stamp 0, unit, code, sev, part, subject, args⟩ : EvRec)]).length = s.log.ring.length + 1 := by simp
    unfold State.logRec
    dsimp only
    rw [hring]
    split <;> simp
  rw [hlog]
  refine ⟨rfl, ?_⟩
  rw [List.drop_append_of_le_length (by omega), List.getLast?_append]
  rfl

/-- Settles O41: the answers of the nine states, and the two branches of a posted message. -/
theorem answersByUnitState : Obligations.AnswersByUnitState := by
  refine ⟨rfl, rfl, rfl, rfl, rfl, rfl, rfl, rfl, rfl, fun s src dest cls op index payload => ⟨fun hserves => ?_, fun hnot => ?_⟩⟩
  · have hpost : s.post src dest cls op index payload = s.send (originMsg s src dest cls op payload) :=
      if_pos ((s.answerOf_ustate_eq_ok dest).mpr hserves)
    rw [hpost]
    exact ⟨rfl, rfl⟩
  · have hpost : s.post src dest cls op index payload = s.event src 0x5001 dest [answerOf (s.ustate dest), index] :=
      if_neg fun h => by rw [(s.answerOf_ustate_eq_ok dest).mp h] at hnot; cases hnot
    rw [hpost]
    exact ⟨s.event_net _ _ _ _, s.log_logRec _ _ _ _ _ _⟩

end Sys2Proof.Machine
end

section
/-!
The power cap (R8), the codes of the number formats (07_arithmetic.md), and x0 (06_grid.md).
-/

namespace Sys2Proof.Machine

variable (s : State)

/-- A cap outside the variant's range is a bad argument of POWER_CAP. -/
theorem State.cmdBad_powerCap {c : List Byte} (hop : cmdOp c = 0x61) (hcap : s.capOk (cmdArg c 0) = false) : s.cmdBad c = true := by
  simp [State.cmdBad, hop, hcap]

/-- Settles O52: the range is checked before anything changes, and read off the part's row. -/
theorem powerCapOutOfRange : Obligations.PowerCapOutOfRange := by
  refine ⟨fun m c s hop hformed hmay hgate hpresent hcap => ?_, fun s cap => ⟨fun hpart => ?_, fun hpart => ?_, fun hpart => ?_⟩⟩
  · exact s.cmdCheck_of_bad hformed (hop ▸ hmay) (hop ▸ hgate) hpresent (s.cmdBad_powerCap hop hcap)
  all_goals simp [State.capOk, hpart]

/-- Settles O56: every code of the three formats is tried. -/
theorem numberCodesRoundTrip : Obligations.NumberCodesRoundTrip := by
  unfold Obligations.NumberCodesRoundTrip
  decide +kernel

/-- A square's register file after a write of x_rd. -/
theorem SqSt.rx_wx (q : SqSt) (rd v k : Nat) :
    (q.wx rd v).rx k = if k = rd ∧ rd ≠ 0 then v % 2 ^ 32 else q.rx k := by
  by_cases hrd : rd = 0
  · simp [SqSt.wx, hrd]
  · by_cases hk : k = rd
    · simp [SqSt.wx, SqSt.rx, hrd, hk, w32]
    · simp [SqSt.wx, SqSt.rx, hrd, hk, mget_mset_ne _ _ _ _ (Ne.symm hk)]

/-- Settles O57: x0 is never stored, and every other register is one entry of the file. -/
theorem registerX0 : Obligations.RegisterX0 := by
  intro s n v
  have hset (rd k : Nat) : ((s.setX n rd v).sqr n).rx k = if k = rd ∧ rd ≠ 0 then v % 2 ^ 32 else (s.sqr n).rx k := by
    rw [State.setX, State.setSq_sqr_self, SqSt.rx_wx]
  refine ⟨rfl, ?_, fun rd _ hne => ⟨?_, fun k hk => ?_⟩⟩
  · rw [State.setX, State.setSq_sqr_self]
    rfl
  · rw [hset, if_pos ⟨rfl, hne⟩]
  · rw [hset, if_neg fun h => hk h.1]

end Sys2Proof.Machine
end

section
/-!
Fields at places that compute: the bounds of a field and the distance of two fields of one register are numerals, so `rfl` settles
the side conditions (as a `simp` discharger too).
-/

namespace Sys2Proof.Machine

variable (s : State)

theorem State.rd_wr_at (f : Fld) (v : Nat) (h : Nat.ble (f.lo + f.w) 64 = true) : (s.wr f v).rd f = v % 2 ^ f.w :=
  s.rd_wr_self f v (Nat.le_of_ble_eq_true h)

theorem State.rd_wr_beside (f g : Fld) (v : Nat) (hreg : f.reg = g.reg) (hg : Nat.ble (g.lo + g.w) 64 = true)
    (happart : (Nat.ble (f.lo + f.w) g.lo || Nat.ble (g.lo + g.w) f.lo) = true) : (s.wr f v).rd g = s.rd g := by
  refine s.rd_wr_disjoint f g v hreg (Nat.le_of_ble_eq_true hg) ?_
  rcases (Bool.or_eq_true _ _).mp happart with h | h
  · exact .inl (Nat.le_of_ble_eq_true h)
  · exact .inr (Nat.le_of_ble_eq_true h)

end Sys2Proof.Machine
end

section
/-!
Timebase commands (R31 to R39): the state each leaves where the rule that admits it holds.
-/

namespace Sys2Proof.Machine

variable (s : State)

/-- The mean link delay of a peer exchange, where the link's turnaround lies within the round trip and the delay fits its field. -/
theorem rd_execPdelayExchange (mac : Fin 4) {t1 t2 t3 t4 : Nat} (h23 : t2 ≤ t3) (hround : t1 + (t3 - t2) ≤ t4)
    (hfit : ((t4 - t1) - (t3 - t2)) / 2 < 2 ^ 40) :
    ∃ t, exec (.pdelayExchange mac t1 t2 t3 t4) s = .next t ∧
      t.rd (F.MAC_PDELAY_MEAN_LINK_DELAY mac.val) = ((t4 - t1) - (t3 - t2)) / 2 ∧ t.mem = s.mem := by
  have hdelay : ((((t4 : Int) - t1) - ((t3 : Int) - t2)) / 2).toNat = ((t4 - t1) - (t3 - t2)) / 2 := by omega
  have hclamp : clampN 0 (2 ^ 40 - 1) (((t4 - t1) - (t3 - t2)) / 2) = ((t4 - t1) - (t3 - t2)) / 2 := by
    rw [clampN, if_neg (Nat.not_lt_zero _), if_neg (by omega)]
  refine ⟨_, rfl, ?_, rfl⟩
  simp (disch := exact id rfl) only [State.rd_wr_beside, State.rd_wr_at, hdelay, hclamp]
  exact Nat.mod_eq_of_lt hfit

/-- The end of HOLDOVER: FREE-RUN, its age recorded, and one event record. -/
theorem execHoldoverExpire_of_holdover (n : Fin 8) (hstate : s.rd (F.TB_STATUS_STATE n.val) = 4)
    (hmax : s.rd (F.TB_CTRL_HOLDOVER_MAX_S n.val) ≠ 0) :
    ∃ t, exec (.holdoverExpire n) s = .next t ∧ t.rd (F.TB_STATUS_STATE n.val) = 5 ∧ t.log.total = s.log.total + 1 ∧
      t.mem = s.mem ∧ t.time = s.time := by
  refine ⟨_, congrArg Host.Outcome.next (if_pos ⟨hstate, hmax⟩), ?_, (State.log_logRec _ _ _ _ _ _ _).1, ?_, ?_⟩
  · simp (disch := exact id rfl) only [State.event_rd, State.rd_wr_beside, State.rd_wr_at]
    rfl
  · rw [State.event_mem]
    rfl
  · rw [State.event_time]
    rfl

/-- Settles O5: each command's condition holds, so its effect is the rule's. -/
theorem timebaseCommandsComplete : Obligations.TimebaseCommandsComplete := by
  refine ⟨fun r n d s hmay hfree => execTbRateWrite_free s d hmay hfree,
    fun r n d s hmay hfree hlow => execTbAdjWrite_free s hmay hlow hfree,
    fun r n d s hmay hfree hns hzero => execTbSetLowWrite_free s hmay hfree (by simp [setLowOk, hns, hzero]),
    fun r n s => ⟨_, rfl, rfl, mget_mset_self _ _ _ _, rfl, rfl⟩,
    fun r k s => ⟨_, rfl, rfl, mget_mset_self _ _ _ _, rfl, rfl⟩,
    fun mac d master ratio off s1 s hruns hslave hoff hs1 => ?_,
    fun mac d a s hruns hport => congrArg Host.Outcome.next (if_pos ⟨hruns, hport⟩),
    fun mac t1 t2 t3 t4 s => rd_execPdelayExchange s mac,
    fun m rising held frac s hadmits => congrArg Host.Outcome.next (if_pos hadmits),
    fun d s => rfl, fun d s => rfl, fun n s => rfl,
    fun n s => execHoldoverExpire_of_holdover s n,
    fun mac d s hruns hmaster => congrArg Host.Outcome.next (if_pos ⟨hruns, hmaster⟩)⟩
  subst hoff hs1
  exact congrArg Host.Outcome.next (if_pos ⟨hruns, hslave⟩)

end Sys2Proof.Machine
end

section
/-!
Phase domains, pulses, captures and phase events (R40 to R52): the state each command leaves where its rule's condition holds.
-/

namespace Sys2Proof.Machine

variable (s : State)

/-- A fold whose step never acts leaves the state. -/
theorem foldl_eq_of_forall_eq {α β : Type} {f : β → α → β} {l : List α} {b : β} (h : ∀ a ∈ l, f b a = b) : l.foldl f b = b := by
  induction l with
  | nil => rfl
  | cons a r ih =>
    rw [List.foldl_cons, h a (by simp)]
    exact ih fun x hx => h x (by simp [hx])

/-! ### Phase domains -/

/-- A write of a software observation where the domain's source is the software. -/
theorem execPhSwObsWrite_of_software {r : Req} {k : Fin 8} (d : WData) (hmay : s.mayUse r (0x5200 + k.val) = true)
    (hsrc : s.rd (F.PH_CTRL_SOURCE k.val) = 0 ∨ 4 < s.rd (F.PH_CTRL_SOURCE k.val)) :
    exec (.phSwObsWrite r k d) s = .next (s.phObserve k.val
      (if (s.ph k.val).swTime = 0 then s.ts64 (s.rd (F.PH_CTRL_TB k.val)) else (s.ph k.val).swTime) (bits d.bits1 0 32) (bits d.bits1 32 32)) :=
  congrArg Host.Outcome.next ((s.timeWrite_of_ok _ _ hmay (decide_eq_true hsrc)).trans (by simp only [Nat.cast_ite]))

/-- A write of PH_CTRL of a domain that was not enabled takes the write, then starts the domain if it is enabled now. -/
theorem execPhEnable_of_disabled {r : Req} {k : Fin 8} (d : WData) (hmay : s.mayUse r (0x5200 + k.val) = true)
    (hoff : s.on (F.PH_CTRL_ENABLE k.val) = false) :
    exec (.phEnable r k d) s = .next (((s.writeReg (R.PH_CTRL k.val) d).phDisable k.val).phEnable k.val) :=
  congrArg Host.Outcome.next ((s.timeWrite_of_ok _ _ hmay rfl).trans (if_neg (by rw [hoff]; decide)))

/-! ### Captures -/

/-- The stamp of an admitted edge in the timebase of its capture input. -/
def State.edgeStamp (m held frac : Nat) : BitVec 128 :=
  let n := s.rd (F.CAPTURE_IN_CTRL_TB m)
  mkTs128 (s.edgeFine m n held frac * 2 ^ 32) n false (s.tbHold n)

/-- An admitted edge that no phase domain observes is counted, and enters the FIFO as the input is set. -/
theorem execCaptureEdge_of_unobserved {m : Fin 16} {rising : Bool} {held : Nat} (frac : Fin 64) (hadmits : s.admits m.val rising held = true)
    (hunseen : ∀ k < 8, s.rd (F.PH_CTRL_SOURCE k) = 4 → s.rd (F.PH_CTRL_SOURCE_INDEX k) ≠ m.val)
    (hph : s.on (F.CAPTURE_IN_CTRL_ENABLE m.val) = true → s.on (F.CAPTURE_IN_CTRL_PH_EN m.val) = false) :
    exec (.captureEdge m rising held frac) s = .next (
      if s.on (F.CAPTURE_IN_CTRL_ENABLE m.val) then
        if (s.capFifo m.val).length < 16 then
          (s.bumpW (F.CAPTURE_IN_STATUS_EDGES m.val)).setCapFifo m.val (s.capFifo m.val ++ [⟨s.edgeStamp m.val held frac.val, 0, false⟩])
        else (s.bumpW (F.CAPTURE_IN_STATUS_EDGES m.val)).bump (F.CAPTURE_IN_STATUS_OVERRUNS m.val)
      else s.bumpW (F.CAPTURE_IN_STATUS_EDGES m.val)) := by
  refine congrArg Host.Outcome.next ((if_pos hadmits).trans ((foldl_eq_of_forall_eq fun k hk => if_neg fun h => ?_).trans ?_))
  · exact hunseen k (List.mem_range.mp hk) h.1 h.2
  · split
    · next hon => simp only [hph hon, Bool.false_and, Bool.or_false, Bool.false_eq_true, if_false, State.edgeStamp]
    · rfl

/-! ### Phase events -/

/-- An event due and not late acts unless its stamp's holdover suppresses it, and advances. -/
theorem execPeMatch_of_due {j : Fin 64} (ssi : Word) (ssiOk : Bool) (harm : s.on (F.PE_CTRL_ARM j.val) = true)
    (hdue : (s.pe j.val).due = true) (hlate : (s.pe j.val).late = false) :
    exec (.peMatch j ssi ssiOk) s = .next (
      (if s.on (F.PE_CTRL_HOLD_SUPPRESS j.val) && tsHold (s.pe j.val).ts then s.bump (F.PE_STATUS_SKIPPED j.val)
        else s.peAct j.val (s.pe j.val) (ssi.toNat, ssiOk)).peAdvance j.val (s.pe j.val).step) := by
  change execPeMatch j ssi ssiOk s = _
  simp only [execPeMatch, harm, hdue, hlate, Bool.not_false, Bool.true_or, Bool.and_true, if_true, Bool.false_eq_true, if_false]

/-- A write of PE_CTRL by one who may use the event is the event's own. -/
theorem execPeCtrlWrite_of_mayUse {r : Req} {j : Fin 64} (d : WData) (hmay : s.mayUse r (0x5300 + j.val) = true) :
    exec (.peCtrlWrite r j d) s = .next (s.peCtrl j.val d) :=
  congrArg Host.Outcome.next (if_pos hmay)

/-- Settles O6: each command's condition holds, so its effect is the rule's. -/
theorem phaseAndCaptureComplete : Obligations.PhaseAndCaptureComplete := by
  refine ⟨fun k t o rest s hobs => ?_, fun r k d s hmay hsrc => execPhSwObsWrite_of_software s d hmay hsrc,
    fun r k d s hmay hoff => execPhEnable_of_disabled s d hmay hoff, fun k s hrun => ?_,
    fun k s hstate hmax => ?_, fun k s hlost => ?_,
    fun n s hstop => ?_, fun m rising held frac s hadmits hoff hunseen => ?_,
    fun m rising held frac s hadmits hon hph hroom hunseen => ?_, fun r m c rest s hfifo => ?_, fun r m s hempty => ?_,
    fun r c rest s hevt => ?_, fun j ssi ssiOk s harm hdue hlate hfree => ?_, fun j ssi ssiOk s harm hdue hlate hsup hhold => ?_,
    fun r j d s hmay harm hset => ?_, fun r j d s hmay harm hclear => ?_,
    fun r j d s hmay harm => congrArg Host.Outcome.next (if_pos ⟨hmay, harm⟩)⟩
  · change execPhaseObservation k s = _
    simp only [execPhaseObservation, hobs]
  · exact congrArg Host.Outcome.next (if_pos hrun)
  · change execPhaseLost k s = _
    simp only [execPhaseLost, hstate, ne_eq, hmax, not_false_eq_true, and_self, if_true, State.setPh_ph_self]
    rfl
  · exact congrArg Host.Outcome.next (if_pos hlost)
  · change execPulseEnd n s = _
    rw [execPulseEnd, if_pos hstop]
    rfl
  · rw [execCaptureEdge_of_unobserved s frac hadmits hunseen fun hon => absurd hon (Bool.eq_false_iff.mp hoff), hoff]
    rfl
  · rw [execCaptureEdge_of_unobserved s frac hadmits hunseen fun _ => hph, hon, if_pos rfl, if_pos hroom]
    rfl
  · change ∃ t, execCapSecRead r m s = _ ∧ _
    rw [execCapSecRead, hfifo]
    exact ⟨_, rfl, rfl, mget_mset_self _ _ _ _, mget_mset_self _ _ _ _, rfl⟩
  · change ∃ t, execCapSecRead r m s = _ ∧ _
    rw [execCapSecRead, hempty]
    exact ⟨_, rfl, rfl, mget_mset_self _ _ _ _, rfl, rfl⟩
  · change ∃ t, execEvtSecRead r s = _ ∧ _
    rw [execEvtSecRead, hevt]
    have hkey : (({ s with time := { s.time with evt := rest } } : State).wr F.EVT_STATUS_FILL rest.length).reqKey r = s.reqKey r :=
      (State.reqKey_wr _ _ _ r (by decide)).trans (State.reqKey_congr rfl r)
    exact ⟨_, rfl, rfl, rfl, hkey ▸ mget_mset_self _ _ _ _, rfl⟩
  · rw [execPeMatch_of_due s ssi ssiOk harm hdue hlate, hfree]
    rfl
  · rw [execPeMatch_of_due s ssi ssiOk harm hdue hlate, hsup, hhold]
    rfl
  · rw [execPeCtrlWrite_of_mayUse s d hmay, State.peCtrl, harm, hset]
    rfl
  · rw [execPeCtrlWrite_of_mayUse s d hmay, State.peCtrl, harm, hclear]
    rfl

end Sys2Proof.Machine
end

section
/-!
Ingest ports (R54 to R61, R504, R513, R514): the state each port event leaves where its port is live.
-/

namespace Sys2Proof.Machine

variable (s : State)

/-! ### Observations of phase domains -/

theorem State.phDeliver_port (k : Nat) (raw stamp : Int) : (s.phDeliver k raw stamp).port = s.port := by
  unfold State.phDeliver
  split <;> rfl

theorem State.phDeliver_iq (k : Nat) (raw stamp : Int) : (s.phDeliver k raw stamp).iq = s.iq := by
  unfold State.phDeliver
  split <;> rfl

/-- Observations reach the phase domains alone. -/
theorem State.phSense_frame (source index : Nat) (raw : Int) (ago : Nat) :
    (s.phSense source index raw ago).port = s.port ∧ (s.phSense source index raw ago).iq = s.iq :=
  List.foldlRecOn (motive := fun t : State => t.port = s.port ∧ t.iq = s.iq) _ _ ⟨rfl, rfl⟩ fun t ht k _ => by
    split
    · exact ⟨(t.phDeliver_port k _ _).trans ht.1, (t.phDeliver_iq k _ _).trans ht.2⟩
    · exact ht

theorem State.phSense_mem (source index : Nat) (raw : Int) (ago : Nat) : (s.phSense source index raw ago).mem = s.mem :=
  (State.phSense_keeps (b := true) (.refl s _)).2.2.1 rfl |>.1

/-! ### CSI-2 -/

theorem execCsiFrameStart_of_live {c : Fin 16} (vc : Fin 4) (frame : BitVec 16) (hlive : s.portLive 1 c.val = true) :
    exec (.csiFrameStart c vc frame) s = .next (
      let s1 := (s.csiLineReset c.val).setCsiSeen c.val ((s.csiSeen c.val).filter (fun x => x / 64 ≠ vc.val))
      if (s.csiSlots c.val vc.val).isEmpty then s1.bump (F.CSI_STATUS_UNMATCHED c.val)
      else (s.csiSlots c.val vc.val).foldl (fun s i =>
        (s.abandonFrame i).openFrame i (s.stamp (s.rd (F.CSI_CTRL_TB c.val))) frame.toNat) s1) :=
  congrArg Host.Outcome.next (if_pos hlive)

/-- A good line with no line-start packet of its own goes to the slot that takes its data type, stamped now. -/
theorem execCsiLine_of_taken {c : Fin 16} {vc : Fin 4} {dt : Fin 64} (data : List Byte) {i : Nat} (hlive : s.portLive 1 c.val = true)
    (htaker : s.csiTaker c.val vc.val dt.val = some i) :
    exec (.csiLine c vc dt none data false false) s = .next (s.putRow i (s.stampAgo (s.rd (F.CSI_CTRL_TB c.val)) 0) data false) := by
  change execCsiLine c vc dt none data false false s = _
  simp only [execCsiLine, hlive, State.csiErrors, Bool.false_eq_true, if_false, if_true, htaker, Option.getD_none, ite_self, Bool.or_false]

theorem execCsiFrameTimeout_of_open {ix : Fin 32} (htype : s.slotType ix.val = 1) (hopen : (s.q ix.val).opn.isSome = true) :
    exec (.csiFrameTimeout ix) s = .next ((s.bump (F.CSI_STATUS_ABANDONED (s.slotPort ix.val))).closeFrame ix.val none) :=
  congrArg Host.Outcome.next ((if_pos htype).trans (if_pos hopen))

/-! ### Ethernet and CAN -/

/-- A good frame of ordinary length and EtherType reaches its slot, or is counted. -/
theorem execEthFrameReceive_of_data {p : Fin 4} {frame : List Byte} (ago : Nat) (hlive : s.portLive 2 p.val = true)
    (hlen : frame.length + 4 ≤ 1522) (hgptp : beField frame 12 2 ≠ 0x88F7) (hcontrol : beField frame 12 2 ≠ 0x8808) :
    exec (.ethFrameReceive p frame true ago) s = .next (match s.ethSlot p.val frame with
      | some i => (s.lidarObs i p.val ago frame).putSample i (s.ethStamp p.val (s.rd (F.ETH_CTRL_TB p.val)) ago) frame
      | none => s.bump (F.ETH_STATUS_UNMATCHED p.val)) := by
  have hfits : ¬ (if s.on (F.ETH_CTRL_JUMBO p.val) then 9216 else 1522) < frame.length + 4 := by
    split <;> omega
  change execEthFrameReceive p frame true ago s = _
  simp only [execEthFrameReceive, hlive, if_true, Bool.not_true, Bool.false_or, decide_eq_true_eq, hfits, hgptp, hcontrol, if_false] <;> rfl

theorem execCanFrameValid_of_classic {b : Fin 8} {f : CanFrame} (ago : Nat) {i : Nat} (hlive : s.portLive 3 b.val = true)
    (hclassic : f.fdf = false) (hbase : f.ide = false)
    (hslot : s.pickSlot 3 b.val (fun k => canMatch (f.id.toNat % 2048) false (s.rd (F.STREAM_FILTER_ID k))
      (s.rd (F.STREAM_FILTER_ID_MASK k)) (s.on (F.STREAM_FILTER_IDE k))) = some i) :
    exec (.canFrameValid b f ago) s = .next (
      let stamp := s.stampAgo (s.rd (F.CAN_CTRL_TB b.val)) ago
      let s1 := s.putSample i stamp (canPayload f)
      s1.tapSample 3 b.val (fun x => s1.tapPasses x (f.id.toNat % 2048) false) (canPayload f) stamp) := by
  change execCanFrameValid b f ago s = _
  simp only [execCanFrameValid, hlive, if_true, hclassic, hbase, Bool.false_eq_true, false_and, if_false, hslot]

/-! ### SPI, encoders, GPIO -/

theorem execSpiPeriodExpire_of_idle {m : Fin 4} {i : Nat} (hperiod : s.rd (F.SPI_CTRL_PERIOD_US m.val) ≠ 0)
    (hlive : s.portLive 4 m.val = true) (hidle : (s.spi m.val).busy = false) (hslot : s.pickSlot 4 m.val (fun _ => true) = some i) :
    exec (.spiPeriodExpire m) s = .next
      ((s.openItem i (s.stamp (s.rd (F.SPI_CTRL_TB m.val))) 0).setSpi m.val ⟨true, s.stamp (s.rd (F.SPI_CTRL_TB m.val)), some i⟩) := by
  change execSpiPeriodExpire m s = _
  simp only [execSpiPeriodExpire, hperiod, if_false, State.spiStart, hlive, hidle, Bool.not_false, Bool.and_true, if_true, hslot]

/-- A transfer no slot took ends with the taps' reading of it alone. -/
theorem execSpiTransferEnd_of_untaken {m : Fin 4} (data : List Byte) (hbusy : (s.spi m.val).busy = true)
    (huntaken : (s.spi m.val).slot = none) :
    exec (.spiTransferEnd m data) s = .next (
      let n := clampN 1 256 (s.rd (F.SPI_CTRL_XFER_BYTES m.val))
      (s.setSpi m.val spi0).tapSample 4 m.val (fun _ => true) ((padTo n data).take n) (s.spi m.val).stamp) := by
  change execSpiTransferEnd m data s = _
  simp only [execSpiTransferEnd, hbusy, if_true, huntaken]

/-- A counted edge upward moves the live count by one. -/
theorem execQuadratureEdge_up {e : Fin 8} (hlive : s.portLive 5 e.val = true) (hquad : s.on (F.ENC_CTRL_SSI e.val) = false) :
    ∃ t, exec (.quadratureEdge e true false) s = .next t ∧ (t.enc e.val).pos = (s.enc e.val).pos + 1 ∧ (t.enc e.val).dir = true ∧
      t.mem = s.mem ∧ t.iq = s.iq := by
  refine ⟨_, congrArg Host.Outcome.next (if_pos ⟨hlive, hquad⟩), ?_⟩
  have henc (t : State) (raw : Int) : (t.phSense 3 e.val raw 0).enc e.val = t.enc e.val := by
    rw [State.enc, (t.phSense_frame 3 e.val raw 0).1, State.enc]
  simp only [Bool.false_eq_true, if_false, if_true, henc, State.phSense_mem, (State.phSense_frame _ _ _ _ _).2]
  have hself := s.setEnc_enc_self e.val { s.enc e.val with
    pos := (s.enc e.val).pos + 1, edges := min ((s.enc e.val).edges + 1) (2 ^ 32 - 1), dir := true,
    edgeTs := s.stamp (s.rd (F.ENC_CTRL_TB e.val)) }
  exact ⟨congrArg EncSt.pos hself, congrArg EncSt.dir hself, rfl, rfl⟩

/-- With no output pin and every pin last sampled low, every high pin rises. -/
theorem execGpioInputEdge_of_inputs (levels : Word) (hpower : s.portPowered 6 0 = true) (hinputs : s.rd F.RFX_GPIO_OUT_EN_PINS = 0)
    (hlow : s.port.sampled = 0) :
    exec (.gpioInputEdge levels) s = .next (((List.range 32).foldl (fun a i =>
        a.gpioItem ((levels.toNat &&& s.rd F.GPIO_STAMP_RISE_PINS) ||| (0 &&& s.rd F.GPIO_STAMP_FALL_PINS)) i)
      (({ s with port := { s.port with sampled := levels.toNat } } : State).wr F.GPIO_LEVEL_LEVELS levels.toNat)).reflexEval
        levels.toNat 0) := by
  have hword : levels.toNat &&& 0xFFFFFFFFFFFFFFFF = levels.toNat := by
    rw [show 0xFFFFFFFFFFFFFFFF = 2 ^ 64 - 1 from rfl, Nat.and_two_pow_sub_one_eq_mod, Nat.mod_eq_of_lt levels.isLt]
  change execGpioInputEdge levels s = _
  simp only [execGpioInputEdge, hpower, if_true, hinputs, hlow, Nat.xor_zero, Nat.and_zero, Nat.or_zero, hword, Nat.zero_and]

/-! ### The obligation -/

/-- Settles O7: on a live port each event has its rule's effect. -/
theorem ingestPortsComplete : Obligations.IngestPortsComplete := by
  refine ⟨fun c vc frame s hlive hnone => ?_, fun c vc frame s hlive hsome => ?_,
    fun c vc dt data i s hlive htaker => execCsiLine_of_taken s data hlive htaker,
    fun c vc s hlive => congrArg Host.Outcome.next (if_pos hlive),
    fun ix s htype hopen => execCsiFrameTimeout_of_open s htype hopen,
    fun c s hlive => congrArg Host.Outcome.next (if_pos hlive),
    fun p frame ago i s hlive hlen hgptp hcontrol hslot => ?_, fun p frame ago s hlive hlen hgptp hcontrol hslot => ?_,
    fun p up s => rfl, fun b f ago s hlive hfd hoff => ?_,
    fun b f ago i s hlive hclassic hbase hslot => execCanFrameValid_of_classic s ago hlive hclassic hbase hslot,
    fun m i s hperiod hlive hidle hslot => execSpiPeriodExpire_of_idle s hperiod hlive hidle hslot,
    fun m rising held frac s hadmits => congrArg Host.Outcome.next (if_pos hadmits),
    fun m data n s hbusy huntaken hn => hn ▸ execSpiTransferEnd_of_untaken s data hbusy huntaken,
    fun e ssi ssiOk s hperiod => congrArg Host.Outcome.next (if_neg hperiod),
    fun e up s hlive hquad => congrArg Host.Outcome.next (if_pos ⟨hlive, hquad⟩),
    fun e s hlive hquad => execQuadratureEdge_up s hlive hquad,
    fun levels s hpower hinputs hlow => execGpioInputEdge_of_inputs s levels hpower hinputs hlow, fun b tec rec s htec => ?_⟩
  · rw [execCsiFrameStart_of_live s vc frame hlive, hnone]
    rfl
  · rw [execCsiFrameStart_of_live s vc frame hlive]
    exact congrArg Host.Outcome.next (if_neg (by rwa [List.isEmpty_iff]))
  · rw [execEthFrameReceive_of_data s ago hlive hlen hgptp hcontrol, hslot]
  · rw [execEthFrameReceive_of_data s ago hlive hlen hgptp hcontrol, hslot]
  · change execCanFrameValid b f ago s = _
    simp only [execCanFrameValid, hlive, hfd, hoff, if_true, and_self]
  · refine ⟨_, rfl, ?_, ?_, rfl⟩
    · simp (disch := exact id rfl) only [Bool.false_eq_true, if_false, State.rd_wr_beside, State.rd_wr_at, if_pos htec]
      rfl
    · simp (disch := exact id rfl) only [Bool.false_eq_true, if_false, State.rd_wr_beside, State.rd_wr_at, min_eq_right htec.le]
      rfl

end Sys2Proof.Machine
end

section
/-!
Ingest queues and streams (R63 to R66, R72, R76, R79): what a reader's access, a visible item and a stream's start or stop leave.
-/

namespace Sys2Proof.Machine

variable (s : State)

/-! ### Visibility and pause -/

/-- With every item visible a further close latency changes no other queue, no register and no byte. -/
theorem execItemVisible_of_visible {ix : Fin 32} (hvisible : ∀ e ∈ (s.q ix.val).items, e.visible = true) :
    exec (.itemVisible ix) s = .next (s.setQ ix.val { s.q ix.val with items := showFirst (s.q ix.val).items }) := by
  have hnone : (s.q ix.val).items.find? (fun e => !e.visible) = none :=
    List.find?_eq_none.mpr fun e he => by simp [hvisible e he]
  change execItemVisible ix s = _
  simp only [execItemVisible, hnone]

theorem execItemVisible_of_find {ix : Fin 32} {e : IqItem} (hfind : (s.q ix.val).items.find? (fun e => !e.visible) = some e) :
    exec (.itemVisible ix) s =
      .next ((s.setQ ix.val { s.q ix.val with items := showFirst (s.q ix.val).items }).relayOut ix.val e) := by
  change execItemVisible ix s = _
  simp only [execItemVisible, hfind]

/-- A repeated pause frame is counted, and the pause stays in force. -/
theorem execPauseRefresh_of_pausing {p : Fin 4} (hpausing : s.on (F.ETH_STATUS_PAUSING p.val) = true) :
    ∃ t, exec (.pauseRefresh p) s = .next t ∧
      t.rd (F.ETH_STATUS_PAUSES_SENT p.val) = (s.rd (F.ETH_STATUS_PAUSES_SENT p.val) + 1) % 2 ^ (F.ETH_STATUS_PAUSES_SENT p.val).w ∧
      t.rd (F.ETH_STATUS_PAUSING p.val) = 1 ∧ t.mem = s.mem := by
  refine ⟨_, congrArg Host.Outcome.next (if_pos hpausing), ?_, ?_, by simp [State.sendPause, State.bumpW]⟩
  · rw [State.sendPause, State.rd_wr_beside _ (F.ETH_STATUS_PAUSING p.val) (F.ETH_STATUS_PAUSES_SENT p.val) _ rfl rfl rfl]
    exact s.rd_bumpW_self _ (Nat.le_of_ble_eq_true rfl)
  · rw [State.sendPause, State.rd_wr_at _ _ _ rfl]
    rfl

/-- A window that ends with no item open is owed at once. -/
theorem execExpectWindowExpire_of_closed {ix : Fin 32} {ts : BitVec 128} {rest : List (BitVec 128)}
    (hexpect : (s.q ix.val).expect = ts :: rest) (hruns : s.slotRuns ix.val = true)
    (hdetect : s.on (F.STREAM_DETECT_EXPECT_EN ix.val) = true) (hclosed : (s.q ix.val).opn = none) :
    exec (.expectWindowExpire ix) s = .next
      (((s.setQ ix.val { s.q ix.val with expect := rest }).takeSeq ix.val).putMissing ix.val (s.q ix.val).seq ts) := by
  change execExpectWindowExpire ix s = _
  simp only [execExpectWindowExpire, hexpect, hruns, hdetect, and_self, if_true, hclosed, Option.isSome_none, Bool.false_eq_true, if_false]

/-! ### The readers' accesses -/

theorem execIqHeadRead_of_reader {r : Req} {ix : Fin 32} (hreader : s.isReader r ix.val = true) :
    exec (.iqHeadRead r ix) s = .next (s.iqTake ix.val) :=
  congrArg Host.Outcome.next (if_pos hreader)

theorem execIqAnyHeadRead_of_some {r : Req} {i : Nat} (hany : s.anyHead r = some i) :
    exec (.iqAnyHeadRead r) s = .next (s.iqTake i) := by
  change execIqAnyHeadRead r s = _
  simp only [execIqAnyHeadRead, hany]

theorem State.cursorWrite_of_reader {r : Req} {i : Nat} (d : WData) (hreader : s.isReader r i = true) :
    s.cursorWrite r i d = s.iqCursor i d.bits1 :=
  if_pos hreader

/-- A release of a returned item frees it and all before it. -/
theorem execIqReleaseWrite_of_returned {r : Req} {ix : Fin 32} {d : WData} {k : Nat} (hreader : s.isReader r ix.val = true)
    (hlow : d.lowWritten = true)
    (hfound : ((s.q ix.val).items.take (s.q ix.val).read).findIdx? (fun e => e.off = bits d.bits1 0 32) = some k) :
    exec (.iqReleaseWrite r ix d) s = .next (s.iqFree ix.val (k + 1)) := by
  change execIqReleaseWrite r ix d s = _
  simp only [execIqReleaseWrite, hreader, Bool.true_eq_false, if_false, hlow, if_true, State.iqRelease, hfound]

/-! ### Streams started and stopped -/

theorem State.reg_writeReg_ne {a b : Nat} (d : WData) (hne : b ≠ a) : (s.writeReg a d).reg b = s.reg b := by
  unfold State.writeReg
  split
  · exact s.reg_setReg_ne _ (Ne.symm hne)
  · rfl

/-- The slots' control registers lie apart from the cameras'. -/
theorem State.slotType_writeReg_CSI_CTRL (c : Fin 16) (d : WData) {i : Nat} (hi : i < 32) :
    (s.writeReg (R.CSI_CTRL c.val) d).slotType i = s.slotType i := by
  have hne : R.STREAM_SRC i ≠ R.CSI_CTRL c.val := by
    unfold R.STREAM_SRC R.CSI_CTRL
    omega
  exact congrArg (fun v => bits v 1 3) (s.reg_writeReg_ne d hne)

theorem filter_range_eq_self {i : Nat} (hi : i < 32) : (List.range 32).filter (fun k => decide (k = i)) = [i] := by
  interval_cases i <;> rfl

/-- A slot's own register feeds that slot alone. -/
theorem State.fedBy_slot (i : Fin 32) : (List.range 32).filter (s.fedBy (.slot i)) = [i.val] :=
  filter_range_eq_self i.isLt

/-- With no camera slot configured, a camera's port feeds none. -/
theorem State.fedBy_csi_eq_nil (c : Fin 16) (hnone : ∀ i < 32, s.slotType i ≠ 1) :
    (List.range 32).filter (s.fedBy (.csi c)) = [] :=
  List.filter_eq_nil_iff.mpr fun i hi => by simp [State.fedBy, hnone i (List.mem_range.mp hi)]

/-- A camera that feeds no slot is started by the write alone. -/
theorem execStreamEnable_csi_unfed {r : Req} (d : WData) {c : Fin 16} (htrusted : r.trusted = true)
    (hoff : s.on (F.CSI_CTRL_ENABLE c.val) = false) (hnone : ∀ i < 32, s.slotType i ≠ 1) :
    exec (.streamEnable r (.csi c) d) s = .next (s.writeReg (R.CSI_CTRL c.val) d) := by
  have hunfed := (s.writeReg (R.CSI_CTRL c.val) d).fedBy_csi_eq_nil c fun i hi => by
    rw [s.slotType_writeReg_CSI_CTRL c d hi]
    exact hnone i hi
  change execStreamEnable r (.csi c) d s = _
  simp only [execStreamEnable, State.streamWrite, streamReg, State.mayStream, htrusted, if_true, hoff, Bool.false_and,
    Bool.false_eq_true, if_false, hunfed, List.foldl_nil, ite_self]

theorem State.streamWrite_slot {r : Req} (d : WData) {i : Fin 32} (hmay : s.mayUse r (0x4000 + i.val) = true) :
    s.streamWrite r (.slot i) d =
      (let t := (if s.slotEnabled i.val && !(s.writeReg (R.STREAM_SRC i.val) d).slotEnabled i.val then s.abortItem i.val
          else s).writeReg (R.STREAM_SRC i.val) d
       if !s.slotEnabled i.val && (s.writeReg (R.STREAM_SRC i.val) d).slotEnabled i.val then t.restartSlot i.val else t) := by
  simp only [State.streamWrite, streamReg, State.mayStream, hmay, if_true, State.stopStreams, State.fedBy_slot, List.foldl_cons,
    List.foldl_nil, State.slotEnabled]
  rfl

/-! ### The obligation -/

/-- Settles O8: each access acts on its own queue, and a slot's register feeds that slot alone. -/
theorem ingestQueuesComplete : Obligations.IngestQueuesComplete := by
  refine ⟨fun ix s hvisible => ⟨_, execItemVisible_of_visible s hvisible, s.setQ_q_self _ _, rfl, rfl⟩,
    fun ix e s hfind => execItemVisible_of_find s hfind, fun p s hpausing => execPauseRefresh_of_pausing s hpausing,
    fun ix ts rest s hexpect hruns hdetect hclosed => execExpectWindowExpire_of_closed s hexpect hruns hdetect hclosed,
    ?_, ?_, ?_, ?_, ?_, fun r ix d k s hreader hlow hfound => execIqReleaseWrite_of_returned s hreader hlow hfound,
    fun r d c s htrusted hoff hnone => execStreamEnable_csi_unfed s d htrusted hoff hnone, ?_, ?_⟩
  · intro r ix e s hreader hhead
    rw [execIqHeadRead_of_reader s hreader, s.iqTake_of_head hhead]
    rfl
  · intro r ix s hreader hhead
    rw [execIqHeadRead_of_reader s hreader, s.iqTake_of_no_head hhead]
    rfl
  · intro r i e s hany hhead
    rw [execIqAnyHeadRead_of_some s hany, s.iqTake_of_head hhead]
    rfl
  · intro r ix d s hreader hmark hrewind
    refine congrArg Host.Outcome.next ((s.cursorWrite_of_reader d hreader).trans ?_)
    simp only [State.iqCursor, hmark, hrewind, Bool.false_eq_true, if_false, if_true]
  · intro r ix d s hreader hmark hrewind
    refine congrArg Host.Outcome.next ((s.cursorWrite_of_reader d hreader).trans ?_)
    simp only [State.iqCursor, hmark, hrewind, Bool.false_eq_true, if_false, if_true]
  · intro r d i s hmay hwas hwill
    refine congrArg Host.Outcome.next ((s.streamWrite_slot d hmay).trans ?_)
    simp only [hwas, hwill, Bool.false_and, Bool.not_false, Bool.and_true, Bool.false_eq_true, if_false, if_true]
  · intro r d i s hmay hwas hwill
    refine congrArg Host.Outcome.next ((s.streamWrite_slot d hmay).trans ?_)
    simp only [hwas, hwill, Bool.not_true, Bool.not_false, Bool.and_true, Bool.and_false, Bool.false_eq_true, if_false, if_true]

end Sys2Proof.Machine
end

section
/-!
The alignment and the voxel engine (R83 to R105, R113 to R136): what a build's start and end, a release and a drain's end leave.
-/

namespace Sys2Proof.Machine

variable (s : State)

/-! ### What a queue's level leaves -/

theorem State.sendPause_aln (p : Nat) (on : Bool) : (s.sendPause p on).aln = s.aln := by simp [State.sendPause]

theorem State.pauseEval_aln : s.pauseEval.aln = s.aln :=
  List.foldlRecOn (motive := fun t : State => t.aln = s.aln) _ _ rfl fun t ht p _ => by
    split
    · exact ht
    · exact (t.sendPause_aln p _).trans ht

theorem State.iqLevel_aln (i : Nat) : (s.iqLevel i).aln = s.aln := by
  unfold State.iqLevel
  dsimp only
  split
  · rfl
  · rw [State.pauseEval_aln]
    split
    · split <;> simp [State.iqNotify]
    · simp

theorem State.iqFree_aln (i n : Nat) : (s.iqFree i n).aln = s.aln := by simp [State.iqFree, State.iqLevel_aln]

/-- A register that is neither a queue's counts nor a MAC's status reads as before under a queue's level. -/
def besideLevels (a : Nat) : Prop := (∀ i, a ≠ R.IQ_COUNTS i) ∧ ∀ p < 4, a ≠ R.ETH_STATUS p

theorem State.pauseEval_rd {f : Fld} (hf : besideLevels f.reg) : s.pauseEval.rd f = s.rd f :=
  List.foldlRecOn (motive := fun t : State => t.rd f = s.rd f) _ _ rfl fun t ht p hp => by
    have hne : R.ETH_STATUS p ≠ f.reg := (hf.2 p (List.mem_range.mp hp)).symm
    split
    · exact ht
    · rw [State.sendPause, State.rd_wr_ne _ _ _ _ hne, State.rd_bumpW_ne _ _ _ hne, ht]

theorem State.iqLevel_rd {f : Fld} (hf : besideLevels f.reg) (i : Nat) : (s.iqLevel i).rd f = s.rd f := by
  have hne : R.IQ_COUNTS i ≠ f.reg := (hf.1 i).symm
  unfold State.iqLevel
  dsimp only
  split
  · rfl
  · rw [State.pauseEval_rd _ hf]
    split
    · split <;> simp [State.iqNotify, State.rd_bump_ne _ (F.IQ_COUNTS_HIGH_CROSSINGS i) f hne]
    · simp

theorem State.iqFree_rd {f : Fld} (hf : besideLevels f.reg) (i n : Nat) : (s.iqFree i n).rd f = s.rd f := by
  simp [State.iqFree, State.iqLevel_rd _ hf]

theorem besideLevels_ALN_RING_POS : besideLevels R.ALN_RING_POS := by
  constructor
  · intro i
    unfold R.ALN_RING_POS R.IQ_COUNTS
    omega
  · intro p hp
    unfold R.ALN_RING_POS R.ETH_STATUS
    omega

/-! ### The alignment engine -/

/-- Cutting the histories leaves the engine's instants, build and sweeps, and its ring's positions. -/
theorem State.alnTrim_frame : s.alnTrim.aln.inst = s.aln.inst ∧ s.alnTrim.aln.build = s.aln.build ∧
    s.alnTrim.rd F.ALN_RING_POS_OLDEST_SEQ = s.rd F.ALN_RING_POS_OLDEST_SEQ := by
  refine List.foldlRecOn (motive := fun t : State => t.aln.inst = s.aln.inst ∧ t.aln.build = s.aln.build ∧
    t.rd F.ALN_RING_POS_OLDEST_SEQ = s.rd F.ALN_RING_POS_OLDEST_SEQ) _ _ ⟨rfl, rfl, rfl⟩ fun t ht i _ => ?_
  split
  · unfold State.alnFree
    dsimp only
    split
    · exact ht
    · rw [State.iqFree_aln, State.iqFree_rd _ besideLevels_ALN_RING_POS]
      exact ht
  · exact ht

theorem State.setAln_aln_self (a : AlnSt) : (s.setAln a).aln = a := by simp [State.setAln]

/-- A build's start takes the oldest instant and leaves a build in progress. -/
theorem State.startBuild_of_inst (deadline : Bool) {ts : BitVec 128} {seq : Nat} {rest : List (BitVec 128 × Nat)}
    (hinst : s.aln.inst = (ts, seq) :: rest) :
    (s.startBuild deadline).aln.inst = rest ∧ (s.startBuild deadline).aln.build.isSome = true := by
  unfold State.startBuild
  rw [hinst]
  dsimp only
  rw [(State.alnTrim_frame _).1, (State.alnTrim_frame _).2.1]
  split
  · rw [State.bump_aln, State.setAln_aln_self]
    exact ⟨rfl, rfl⟩
  · rw [State.setAln_aln_self]
    exact ⟨rfl, rfl⟩

/-- An idle engine has an instant waiting. -/
theorem State.inst_ne_nil_of_alnIdle (hidle : s.alnIdle = true) : s.aln.inst ≠ [] := by
  simp only [State.alnIdle, Bool.and_eq_true, Bool.not_eq_true', List.isEmpty_eq_false_iff] at hidle
  exact hidle.1.1.2

theorem State.emitBundle_of_full {b : AlnBundle} (hbuild : s.aln.build = some b)
    (hfull : s.alnSlots ≤ fwd (2 ^ 32) (s.rd F.ALN_RING_POS_OLDEST_SEQ) b.seq) :
    s.emitBundle = ((s.bump F.ALN_COUNTS_BUNDLE_DROPS).event 0x6000 0x4003 b.seq [0]).setAln
      { s.aln with build := none, dropped := s.aln.dropped ++ [b.seq] } := by
  unfold State.emitBundle
  rw [hbuild]
  exact if_pos hfull

/-- An emission ends the build, written or dropped. -/
theorem State.emitBundle_build : s.emitBundle.aln.build = none := by
  unfold State.emitBundle
  split
  next h => exact h
  next =>
    split
    · rw [State.setAln_aln_self]
    · dsimp only
      split <;> split <;> simp only [State.post_aln, State.setAln_aln_self]

/-- A registration leaves the sweeps that wait after it. -/
theorem State.regDone_sweeps (sw : RegSweep) : (s.regDone sw).aln.sweeps = s.aln.sweeps := by
  unfold State.regDone
  dsimp only
  split <;> simp

theorem State.alnReleaseTo_oldest (seq : Nat) : (s.alnReleaseTo seq).rd F.ALN_RING_POS_OLDEST_SEQ = (seq + 1) % 2 ^ 32 := by
  unfold State.alnReleaseTo
  rw [(State.alnTrim_frame _).2.2]
  exact State.rd_wr_at _ _ _ rfl

/-- A release from OLDEST_SEQ to below NEXT_SEQ, by one who may write the engine, moves OLDEST_SEQ past it. -/
theorem execAlnReleaseWrite_of_held {r : Req} {d : WData} (hmay : s.mayUse r 0x6000 = true) (hlow : d.lowWritten = true)
    (hheld : seqHeld (s.rd F.ALN_RING_POS_OLDEST_SEQ) (s.rd F.ALN_RING_POS_NEXT_SEQ) (bits d.bits1 0 32) = true) :
    exec (.alnReleaseWrite r d) s = .next (s.alnReleaseTo (bits d.bits1 0 32)) := by
  change execAlnReleaseWrite r d s = _
  simp only [execAlnReleaseWrite, hmay, hlow, Bool.not_true, Bool.and_false, Bool.false_eq_true, if_false, State.alnWrite, hheld,
    Bool.and_self, if_true]

/-! ### The voxel engine -/

theorem State.setVox_vox_self (v : VoxSt) : (s.setVox v).vox = v := by simp [State.setVox]

theorem State.voxStart_of_trig (deadline : Bool) {v : VoxTrig} {rest : List VoxTrig} (htrig : s.vox.trig = v :: rest) :
    (s.voxStart deadline).vox.trig = rest ∧ (s.voxStart deadline).vox.build.isSome = true := by
  unfold State.voxStart
  rw [htrig]
  dsimp only
  rw [State.setVox_vox_self]
  exact ⟨rfl, rfl⟩

theorem State.trig_ne_nil_of_voxIdle (hidle : s.voxIdle = true) : s.vox.trig ≠ [] := by
  simp only [State.voxIdle, Bool.and_eq_true, Bool.not_eq_true', List.isEmpty_eq_false_iff] at hidle
  exact hidle.1.1.1.2

/-- An emission ends the frame's build, written or dropped. -/
theorem State.emitFrame_build : s.emitFrame.vox.build = none := by
  unfold State.emitFrame
  split
  next h => exact h
  next =>
    simp only [apply_ite State.vox, apply_ite VoxSt.build, State.post_vox, State.setVox_vox_self, ite_self]

theorem execVoxReleaseWrite_of_held {r : Req} {d : WData} (hmay : s.mayUse r 0x7000 = true) (hlow : d.lowWritten = true)
    (hheld : fwd (2 ^ 32) (s.rd F.VOX_OUT_POS_OLDEST_SEQ) (bits d.bits1 0 32) <
      fwd (2 ^ 32) (s.rd F.VOX_OUT_POS_OLDEST_SEQ) (s.rd F.VOX_OUT_POS_NEXT_SEQ)) :
    exec (.voxReleaseWrite r d) s = .next (s.wr F.VOX_OUT_POS_OLDEST_SEQ (bits d.bits1 0 32 + 1)) := by
  change execVoxReleaseWrite r d s = _
  simp only [execVoxReleaseWrite, hmay, hlow, Bool.not_true, Bool.and_false, Bool.false_eq_true, if_false, decide_eq_true hheld,
    Bool.and_self, if_true]

/-! ### The obligation -/

/-- Settles O9: both engines' builds, drops, releases and drains, each by its own lemma above. -/
theorem alignmentAndVoxelComplete : Obligations.AlignmentAndVoxelComplete := by
  refine ⟨?_, ?_, fun b s hbuild hfull => congrArg Host.Outcome.next (s.emitBundle_of_full hbuild hfull),
    fun _ s _ _ => ⟨_, rfl, rfl, s.emitBundle_build⟩, ?_,
    fun r d s hmay hlow hheld => ⟨_, execAlnReleaseWrite_of_held s hmay hlow hheld, rfl, s.alnReleaseTo_oldest _⟩,
    fun s hreset => congrArg Host.Outcome.next (if_pos hreset), ?_, ?_, ?_, ?_,
    fun _ s _ => ⟨_, rfl, rfl, s.emitFrame_build⟩,
    fun r d s hmay hlow hheld => execVoxReleaseWrite_of_held s hmay hlow hheld,
    fun s hreset => congrArg Host.Outcome.next (if_pos hreset)⟩
  · intro ts seq rest s hinst hidle hready
    refine ⟨_, ?_, rfl, s.startBuild_of_inst false hinst⟩
    change execBundleBuildStart s = _
    simp only [execBundleBuildStart, hinst, hidle, hready, Bool.and_self, if_true]
  · intro s hidle
    refine ⟨_, congrArg Host.Outcome.next (if_pos hidle), rfl, ?_⟩
    obtain ⟨⟨ts, seq⟩, rest, hinst⟩ := List.exists_cons_of_ne_nil (s.inst_ne_nil_of_alnIdle hidle)
    rw [hinst]
    exact s.startBuild_of_inst true hinst
  · intro sw rest s hsweeps
    refine ⟨_, ?_, rfl, State.regDone_sweeps _ sw, (State.regDone_keeps (b := true) (.refl _ _)).2.2.1 rfl |>.1⟩
    change execRegistrationDone s = _
    simp only [execRegistrationDone, hsweeps]
  · intro q rest b s hoffered hbundle
    change execVoxTrigger s = _
    simp only [execVoxTrigger, hoffered, hbundle]
  · intro m s hoffered hnotify hcfg
    change execVoxTrigger s = _
    simp only [execVoxTrigger, hoffered, hnotify, hcfg, if_true]
  · intro v rest s htrig hidle hready
    refine ⟨_, ?_, rfl, s.voxStart_of_trig false htrig⟩
    change execVoxBuildStart s = _
    simp only [execVoxBuildStart, htrig, hidle, hready, Bool.and_self, if_true]
  · intro s hidle
    refine ⟨_, congrArg Host.Outcome.next (if_pos hidle), rfl, ?_⟩
    obtain ⟨v, rest, htrig⟩ := List.exists_cons_of_ne_nil (s.trig_ne_nil_of_voxIdle hidle)
    rw [htrig]
    exact s.voxStart_of_trig true htrig

end Sys2Proof.Machine
end

section
/-!
Operations of a square's vector and move units, and its tensor queue (R143, R144, R180, R205 to R211): what performing, starting,
completing and answering one leave.
-/

namespace Sys2Proof.Machine

variable (s : State)

/-! ### The vector unit -/

/-- A vector command performs the operation in progress that carries its code and has no result yet. -/
theorem State.vecCmd_of_inProgress {n fn : Nat} {o : TxOp} (hprog : (s.sqr n).inProgress 2 = some o) (hplain : o.quant = false)
    (hfn : o.fn = fn) (hopen : o.result = none) : s.vecCmd n fn = performed n o (s.vecOp n fn o.desc) := by
  simp only [State.vecCmd, hprog, hplain, hfn, hopen, and_self, if_true]

/-- Settles O13: each command is `vecCmd` at its own function code. -/
theorem vectorFunctionsComplete : Obligations.VectorFunctionsComplete := by
  refine ⟨?_, ?_, ?_, ?_, ?_, ?_, ?_, ?_, ?_, ?_, ?_, ?_, ?_, ?_, ?_, ?_, ?_, ?_, ?_, ?_, ?_, ?_, ?_, ?_, ?_, ?_, ?_, ?_⟩ <;>
    exact fun n o s hprog hplain hfn hopen => congrArg Host.Outcome.next (s.vecCmd_of_inProgress hprog hplain hfn hopen)

/-! ### The tensor queue and the DMA port -/

theorem State.txStartLane_of_find {n l : Nat} {o : TxOp} (hserving : s.serving (sqUnit n) = true)
    (hfree : (s.sqr n).laneFree l = true) (hfind : ((s.sqr n).lane l).find? (fun o => !o.started) = some o)
    (horder : (s.sqr n).weightsOrder o = true) (hwaits : (s.sqr n).waits o = false) : s.txStartLane n l = s.txStart n o := by
  simp only [State.txStartLane, hserving, hfree, hfind, horder, hwaits, Bool.not_true, Bool.not_false, Bool.or_self, Bool.and_self,
    Bool.false_eq_true, if_false, if_true]

/-- A started operation with its result leaves the queue, and its tag is done. -/
theorem State.txComplete_of_result {n t : Nat} {o : TxOp} {st : Nat}
    (hfind : (s.sqr n).txq.find? (fun o => decide (o.tag = t)) = some o) (hstarted : o.started = true)
    (hserving : s.serving (sqUnit n) = true) (hplain : o.xfer = none) (hresult : o.result = some st) :
    s.txComplete n t = s.txFinish n o st := by
  simp only [State.txComplete, hfind, hstarted, hserving, hplain, hresult, Bool.not_true, Bool.or_self, Bool.false_eq_true, if_false]

theorem State.dmaIssue_of_find {n : Nat} {o : TxOp} (hserving : s.serving (sqUnit n) = true) (hroom : (s.sqr n).flying < 32)
    (hfind : ((s.sqr n).lane laneDma).find? (fun o => match o.xfer with | some x => !x.todo.isEmpty | none => false) = some o) :
    s.dmaIssue n = s.setSq n ((s.sqr n).replaceOp { o with xfer := o.xfer.map (s.xferIssue (some n)) }) := by
  unfold State.dmaIssue
  dsimp only
  rw [hserving, decide_eq_false (Nat.not_le.mpr hroom)]
  generalize hoperation : List.find? _ ((s.sqr n).lane laneDma) = found
  obtain rfl : found = some o := hoperation.symm.trans hfind
  rfl

theorem State.dmaAnswer_of_find {n t k : Nat} {a : ExtAns} {o : TxOp} {y : Xfer}
    (hfind : (s.sqr n).txq.find? (fun o => decide (o.tag = t) && o.xfer.isSome) = some o) (hxfer : o.xfer = some y) :
    s.dmaAnswer n t k a =
      (let p := s.xferAnswer (s.masterOf (sqUnit n)) y k a
       p.2.setSq n ((p.2.sqr n).replaceOp { o with xfer := some p.1 })) := by
  simp only [State.dmaAnswer, hfind, hxfer]

/-! ### The move unit -/

/-- A move command performs the operation in progress that carries its code and has no result yet. -/
theorem State.moveCmd_of_inProgress {n op : Nat} {o : TxOp} (hprog : (s.sqr n).inProgress 3 = some o) (hfn : o.fn = op)
    (hopen : o.result = none) : s.moveCmd n op = performed n o (s.moveOp n op o.desc) := by
  simp only [State.moveCmd, hprog, hfn, hopen, and_self, if_true]

/-- Settles O14: the queue's four commands by their lemmas, and the six moves by `moveCmd` at their own codes. -/
theorem tensorQueueAndMovesComplete : Obligations.TensorQueueAndMovesComplete := by
  refine ⟨?_, ?_, ?_, ?_, ?_, ?_, ?_, ?_, ?_, ?_⟩
  · exact fun n l o s hserving hfree hfind horder hwaits =>
      congrArg Host.Outcome.next (s.txStartLane_of_find hserving hfree hfind horder hwaits)
  · exact fun n t o st s hfind hstarted hserving hplain hresult =>
      congrArg Host.Outcome.next (s.txComplete_of_result hfind hstarted hserving hplain hresult)
  · exact fun n o s hserving hroom hfind => congrArg Host.Outcome.next (s.dmaIssue_of_find hserving hroom hfind)
  · exact fun n t k st data poison o y s hfind hxfer => congrArg Host.Outcome.next (s.dmaAnswer_of_find hfind hxfer)
  all_goals exact fun n o s hprog hfn hopen => congrArg Host.Outcome.next (s.moveCmd_of_inProgress hprog hfn hopen)

end Sys2Proof.Machine
end

section
/-!
Square control (R139, R145 to R148, R157, R161, R162): what a write of a square's block, the ends of its load, reset and rest, and a
posted answer leave.
-/

namespace Sys2Proof.Machine

variable (s : State)

/-! ### The control word -/

/-- The control word acts by its five low bits alone. -/
theorem State.sqCtrl_of_mod (n : Nat) {v m : Nat} (h : v % 32 = m) : s.sqCtrl n v = s.sqCtrl n m := by
  have hbit (i : Nat) (hi : i < 5) : bit v i = bit m i := bit_of_mod (k := 5) h hi
  simp only [State.sqCtrl, hbit 0 (by decide), hbit 1 (by decide), hbit 2 (by decide), hbit 3 (by decide), hbit 4 (by decide)]

theorem State.sqWrite_ctrl {r : Req} {n : Nat} {d : WData} {m : Nat} (hwriter : s.sqWriter r n = true) (hmod : d.bits1 % 32 = m) :
    s.sqWrite r n 0 d = s.sqCtrl n m := by
  rw [← s.sqCtrl_of_mod n hmod]
  simp [State.sqWrite, hwriter]

/-- START in READY, with no load in progress and the pc inside the store, sets the square running at its entry. -/
theorem State.sqStart_of_fresh {n : Nat} (hready : s.ustate (sqUnit n) = US.ready) (hfree : s.epochHeld (sqUnit n) = false)
    (hidle : (s.sqr n).loading = none) (hfresh : (s.sqr n).fresh = true) (hstore : s.rd (F.SQ_ENTRY_ENTRY n) < storeSize) :
    s.sqStart n = ((s.setSq n { s.sqr n with pc := s.rd (F.SQ_ENTRY_ENTRY n), fresh := false }).setUstate (sqUnit n) US.busy).wr
      (F.SQ_STATE_RUN n) runRunning := by
  simp only [State.sqStart, hready, hfree, hidle, hfresh, ne_eq, not_true_eq_false, Bool.false_eq_true, or_self, if_false, if_true,
    Option.isSome_none, Nat.not_le.mpr hstore]

theorem State.sqHalt_of_running {n : Nat} (hbusy : s.ustate (sqUnit n) = US.busy) (hrun : s.sqRun n = runRunning) :
    s.sqHalt n = s.sqStopIssue n := by
  simp only [State.sqHalt, hbusy, hrun, if_true]
  rfl

theorem State.sqLoad_of_free {n : Nat} (start : Bool) (hready : s.ustate (sqUnit n) = US.ready)
    (hidle : (s.sqr n).loading = none) (hheld : s.epochHeld (sqUnit n) = false) (hfree : s.epochFree (sqUnit n) = true) :
    s.sqLoad n start = s.sqLoadNow n start :=
  (if_pos ⟨hready, hidle, hheld⟩).trans (if_pos hfree)

theorem State.sqReset_of_free {n : Nat} (hserving : s.ustate (sqUnit n) = US.ready ∨ s.ustate (sqUnit n) = US.busy)
    (hfree : s.epochFree (sqUnit n) = true) : s.sqReset n = s.sqEnter n US.resetting := by
  unfold State.sqReset
  dsimp only
  rcases hserving with h | h <;> rw [h, hfree] <;> rfl

/-! ### The EVENT and REST words -/

theorem State.sqWrite_event {r : Req} {n : Nat} (d : WData) (hwriter : s.sqWriter r n = true) :
    s.sqWrite r n 0x98 d =
      (let t := if bit d.bits1 0 then s.wr (F.SQ_EVENT_EVENT n) 1 else s
       if bit d.bits1 1 then t.wr (F.SQ_EVENT_EVENT n) 0 else t) := by
  simp [State.sqWrite, hwriter]

theorem State.sqWriter_castle (n : Nat) : s.sqWriter .castle n = true := by simp [State.sqWriter, Req.trusted]

/-- The castle's write of a square's REST word. -/
theorem State.sqWrite_rest (n : Nat) (d : WData) :
    s.sqWrite .castle n 0x70 d =
      (let t := if bit d.bits1 0 then s.wr (F.SQ_REST_REQUEST n) 1 else s
       let t := if bit d.bits1 1 then t.wr (F.SQ_REST_FORCE n) 1 else t
       if bit d.bits1 8 then t.wr (F.SQ_REST_REQUEST n) 0 else t) := by
  simp [State.sqWrite, State.sqWriter_castle]

/-! ### Ends of a load, a reset and a rest -/

theorem State.sqLoadDone_of_plain {n : Nat} (hload : (s.sqr n).loading = some false) :
    s.sqLoadDone n = (s.setSq n { s.sqr n with loading := none, pc := s.rd (F.SQ_ENTRY_ENTRY n), fresh := true }).wr
      (F.SQ_PC_PC n) (s.rd (F.SQ_ENTRY_ENTRY n)) := by
  simp only [State.sqLoadDone, hload, Bool.false_eq_true, if_false]

/-- A square's state field lies apart from its entry. -/
theorem State.rd_entry_setUstate (n : Fin 64) (v : Nat) :
    (s.setUstate (sqUnit n.val) v).rd (F.SQ_ENTRY_ENTRY n.val) = s.rd (F.SQ_ENTRY_ENTRY n.val) := by
  rw [s.setUstate_fld (stateFld_square n)]
  refine s.rd_wr_ne _ _ _ ?_
  change R.SQ_STATE n.val ≠ R.SQ_ENTRY n.val
  unfold R.SQ_STATE R.SQ_ENTRY
  omega

theorem State.sqResetDone_of_resetting {n : Fin 64} (hreset : s.ustate (sqUnit n.val) = US.resetting) :
    s.sqResetDone n.val = ((s.setUstate (sqUnit n.val) US.ready).setSq n.val
      { s.sqr n.val with pc := s.rd (F.SQ_ENTRY_ENTRY n.val), fresh := true }).wr (F.SQ_PC_PC n.val) (s.rd (F.SQ_ENTRY_ENTRY n.val)) := by
  rw [State.sqResetDone, if_pos hreset]
  dsimp only
  rw [s.rd_entry_setUstate, State.sqr, State.setUstate_sq, State.sqr]

/-- A drained square that offered its boundary rests, with REQUEST and FORCE clear. -/
theorem State.sqRestEnter_rest {n : Nat} {y : SqRest} (hrest : (s.sqr n).resting = some y) (hplain : y.forced = false)
    (hempty : (s.sqr n).txq = []) (hserving : s.serving (sqUnit n) = true) :
    (s.sqRestEnter n).rd (F.SQ_REST_REQUEST n) = 0 ∧ (s.sqRestEnter n).rd (F.SQ_REST_FORCE n) = 0 := by
  simp only [State.sqRestEnter, hrest, Option.isNone_some, Bool.false_eq_true, false_and, if_false, hempty, hserving, and_self, if_true,
    hplain]
  constructor
  · rw [State.rd_wr_beside _ (F.SQ_REST_FORCE n) (F.SQ_REST_REQUEST n) _ rfl rfl rfl]
    exact State.rd_wr_at _ _ _ rfl
  · exact State.rd_wr_at _ _ _ rfl

/-- A posted answer of the square's epoch, in order, is taken and counted. -/
theorem execPostedAnswerArrive_of_current {m : Msg} (hkind : m.kind = 2) (hop : m.op = 0x1F) (htag : m.tag = 0xFF)
    (hsquare : m.dest / 0x1000 = 1) (hmodule : m.destModule = s.moduleNo) (horder : s.inOrder m = true)
    (hpresent : s.present m.dest = true) (hepoch : m.user = (s.takeMsg m).epochOf (sqUnit (m.dest % 0x1000))) :
    exec (.postedAnswerArrive m) s = .next ((s.takeMsg m).bump (F.SQ_ANSWERS_POSTED_REFUSED (m.dest % 0x1000))) := by
  change execPostedAnswerArrive m s = _
  simp only [execPostedAnswerArrive, hkind, hop, htag, hsquare, hmodule, horder, hpresent, State.sqPostedAnswer, if_pos hepoch,
    ne_eq, not_true_eq_false, Bool.true_eq_false, or_self, if_false]

/-! ### The obligation -/

/-- Settles O15: each control bit by its own lemma, the EVENT and REST words at their bits, and each end in its state. -/
theorem squareControlComplete : Obligations.SquareControlComplete := by
  refine ⟨?_, ?_, ?_, fun n s hload => congrArg Host.Outcome.next (s.sqLoadDone_of_plain hload), ?_,
    fun n s hreset => congrArg Host.Outcome.next (s.sqResetDone_of_resetting hreset), ?_, ?_,
    fun m s hkind hop htag hsquare hmodule horder hpresent hepoch =>
      execPostedAnswerArrive_of_current s hkind hop htag hsquare hmodule horder hpresent hepoch,
    fun n s => congrArg Host.Outcome.next (s.sqWrite_rest n.val ⟨.low, 1⟩), fun n s => congrArg Host.Outcome.next (s.sqWrite_rest n.val ⟨.low, 2⟩),
    fun n s => congrArg Host.Outcome.next (s.sqWrite_rest n.val ⟨.low, 0x100⟩),
    fun n y s hrest hplain hempty hserving => ⟨_, rfl, rfl, s.sqRestEnter_rest hrest hplain hempty hserving⟩, fun _ _ _ _ _ _ => rfl⟩
  · intro r n d s hwriter hmod hready hfree hidle hfresh hstore
    exact congrArg Host.Outcome.next ((s.sqWrite_ctrl hwriter hmod).trans (s.sqStart_of_fresh hready hfree hidle hfresh hstore))
  · intro r n d s hwriter hmod hbusy hrun
    exact congrArg Host.Outcome.next ((s.sqWrite_ctrl hwriter hmod).trans (s.sqHalt_of_running hbusy hrun))
  · intro r n d s hwriter hmod hready hidle hheld hfree
    exact congrArg Host.Outcome.next ((s.sqWrite_ctrl hwriter hmod).trans (s.sqLoad_of_free false hready hidle hheld hfree))
  · intro r n d s hwriter hmod hserving hfree
    exact congrArg Host.Outcome.next ((s.sqWrite_ctrl hwriter hmod).trans (s.sqReset_of_free hserving hfree))
  · intro r n d s hwriter hset hclear
    refine congrArg Host.Outcome.next ((s.sqWrite_event d hwriter).trans ?_)
    simp only [hset, hclear, Bool.false_eq_true, if_false, if_true]
  · intro r n d s hwriter hset hclear
    refine congrArg Host.Outcome.next ((s.sqWrite_event d hwriter).trans ?_)
    simp only [hset, hclear, Bool.false_eq_true, if_false, if_true]

end Sys2Proof.Machine
end

section
/-!
Analog planes (R217 to R239): what each command leaves where its checks pass.
-/

namespace Sys2Proof.Machine

variable (s : State)

/-! ### What leaves a plane's record -/

theorem State.plane_congr {s t : State} (h : t.pl = s.pl) (p : Nat) : t.plane p = s.plane p := congrArg (mget pl0 · p) h

theorem State.plane_wr (f : Fld) (v p : Nat) : (s.wr f v).plane p = s.plane p := rfl

theorem State.setPl_plane_self (p : Nat) (x : PlSt) : (s.setPl p x).plane p = x :=
  (State.plane_congr (by simp [State.setPl]) p).trans (s.setPlane_plane_self p x)

theorem State.plReport_pl (p kind cp frame seq bound ooc flags : Nat) : (s.plReport p kind cp frame seq bound ooc flags).pl = s.pl := by
  unfold State.plReport
  dsimp only
  split <;> simp

theorem State.plReady_pl (p : Nat) : (s.plReady p).pl = s.pl := by
  unfold State.plReady
  split <;> simp

theorem State.plForceFlags_pl (p : Nat) (js : List Nat) : (s.plForceFlags p js).pl = s.pl :=
  List.foldlRecOn (motive := fun t : State => t.pl = s.pl) _ _ rfl fun t ht _ _ => (t.wr_pl _ _).trans ht

/-- A policy in force leaves the job in execution. -/
theorem State.plEffect_run (p pol : Nat) : ((s.plEffect p pol).plane p).run = (s.plane p).run := by
  unfold State.plEffect
  dsimp only
  rw [State.plane_congr (State.plForceFlags_pl _ p _) p]
  split
  · rw [State.setPlane_plane_self]
    rfl
  · rfl

theorem State.plApply_run (p : Nat) : ((s.plApply p).plane p).run = (s.plane p).run := by
  unfold State.plApply
  dsimp only
  rw [State.plane_congr ((State.wr_pl _ _ _).trans (State.wr_pl _ _ _)) p, State.plEffect_run, State.setPlane_plane_self]

/-- A vector boundary leaves the job in execution. -/
theorem State.plBoundary_run (p : Nat) : ((s.plBoundary p).plane p).run = (s.plane p).run := by
  have hpolicy : ((if (s.plane p).policyWait then s.plApply p else s).plane p).run = (s.plane p).run := by
    split
    · exact s.plApply_run p
    · rfl
  unfold State.plBoundary
  dsimp only
  generalize (if (s.plane p).policyWait then s.plApply p else s) = u at hpolicy ⊢
  split
  · rw [State.plane_congr (State.plForceFlags_pl _ p _) p, State.setPlane_plane_self]
    exact hpolicy
  · exact hpolicy

/-- An answered queue leaves no job in execution. -/
theorem State.plAnswer_run (p status : Nat) : ((s.plAnswer p status).plane p).run = none :=
  congrArg PlSt.run (State.setPl_plane_self _ p _)

/-- An opened load ends whatever ran. -/
theorem State.plOpenNow_run (p : Nat) : ((s.plOpenNow p).plane p).run = none := by
  unfold State.plOpenNow
  rw [State.plane_congr (State.plReady_pl _ p) p, State.setShell, State.plane_wr, State.plane_wr, State.plane_wr,
    State.setPl_plane_self]
  exact State.plAnswer_run _ p _

theorem State.plOpenTry_run {p : Nat} (hidle : (s.plane p).run = none) : ((s.plOpenTry p).plane p).run = none := by
  unfold State.plOpenTry
  dsimp only
  split
  · split
    · exact s.plOpenNow_run p
    · split <;> exact hidle
  · exact hidle

/-! ### Jobs -/

/-- A job that passes every check joins its plane's queue. -/
theorem execPlaneJobArrive_of_ok {m : Msg} (hkind : m.kind = 0) (hop : m.op = 1) (hplane : m.dest / 0x1000 = 2)
    (hmodule : m.destModule = s.moduleNo) (horder : s.inOrder m = true) (hpresent : s.present m.dest = true)
    (hserving : s.ustate m.dest = US.ready ∨ s.ustate m.dest = US.busy) (hfence : (s.takeMsg m).msgFenced m = false)
    (hlen : m.payload.length = 64) (hshell : s.shell (m.dest % 0x1000) ≠ shLoading)
    (hroom : (s.plane (m.dest % 0x1000)).queue.length + (s.plane (m.dest % 0x1000)).run.isSome.toNat < 8)
    (hcheck : (s.takeMsg m).plCheck (m.dest % 0x1000) (plJob m.payload) = St.ok) :
    exec (.planeJobArrive m) s = .next ((s.takeMsg m).setPl (m.dest % 0x1000)
      { s.plane (m.dest % 0x1000) with queue := (s.plane (m.dest % 0x1000)).queue ++ [m] }) := by
  have harrive : exec (.planeJobArrive m) s = .next ((s.takeMsg m).plArrive m) := by
    change execPlaneJobArrive m s = _
    simp only [execPlaneJobArrive, hkind, hop, hplane, hmodule, horder, hpresent, ne_eq, not_true_eq_false, Bool.true_eq_false,
      OfNat.zero_ne_ofNat, or_self, if_false]
  have hst : ¬ ((s.takeMsg m).ustate m.dest ≠ US.ready ∧ (s.takeMsg m).ustate m.dest ≠ US.busy) := fun h =>
    hserving.elim h.1 h.2
  have hloading : (s.takeMsg m).shell (m.dest % 0x1000) ≠ shLoading := hshell
  have hfull : ¬ 8 ≤ ((s.takeMsg m).plane (m.dest % 0x1000)).queue.length +
      ((s.takeMsg m).plane (m.dest % 0x1000)).run.isSome.toNat := Nat.not_le.mpr hroom
  rw [harrive, State.plArrive]
  dsimp only
  rw [if_neg hst, hfence, if_neg Bool.false_ne_true, if_neg (not_not.mpr hkind), if_neg (not_not.mpr hlen), if_neg hloading,
    if_neg hfull, if_neg (not_not.mpr hcheck)]
  rfl

/-- An idle shell with nothing in its way takes its queue's next job. -/
theorem State.plStart_of_next {p : Nat} {m : Msg} (hserving : s.serving (planeUnit p) = true) (hshell : s.shell p = shIdle)
    (hrun : (s.plane p).run = none) (hopen : (s.plane p).openWait = false) (hwants : s.plWants p = false)
    (hrest : s.plRestDue p = false) (hnext : nextJob (s.plane p).queue = some m) :
    s.plStart p = (((s.setPl p { s.plane p with
      queue := (s.plane p).queue.erase m, run := some (plRun0 m), jobSeq := ((s.plane p).jobSeq + 1) % 2 ^ 32 }).setShell p
        shRunning).plReady p).plBoundary p := by
  simp only [State.plStart, hserving, hshell, hrun, hopen, hwants, hrest, hnext, ne_eq, not_true_eq_false, decide_false, Bool.not_true,
    Option.isSome_none, Bool.or_self, Bool.false_eq_true, if_false]

theorem execPlaneProductEnd_of_running {p : Fin 32} {r : PlRun} (hrun : (s.plane p.val).run = some r)
    (hshell : s.shell p.val = shRunning) (hgoing : r.stop = false) (hleft : r.vec < (plJob r.msg.payload).vectors)
    (hbreach : (s.plane p.val).breach ≠ some 0) : exec (.planeProductEnd p) s = .next (s.plProduct p.val r) := by
  change execPlaneProductEnd p s = _
  simp only [execPlaneProductEnd, hrun]
  exact congrArg Host.Outcome.next (if_pos ⟨hshell, hgoing, hleft, hbreach⟩)

/-- After its last vector the job is no longer in execution. -/
theorem State.plJobDone_run {p : Nat} {r : PlRun} (hrun : (s.plane p).run = some r) (hshell : s.shell p = shRunning)
    (hdone : (plJob r.msg.payload).vectors ≤ r.vec) : ((s.plJobDone p).plane p).run = none := by
  have hends : ¬ (s.shell p ≠ shRunning ∨ (r.vec < (plJob r.msg.payload).vectors ∧ r.stop = false)) := by
    rintro (h | ⟨h, -⟩)
    · exact h hshell
    · exact absurd h (Nat.not_lt.mpr hdone)
  unfold State.plJobDone
  simp only [hrun]
  rw [if_neg hends]
  refine State.plOpenTry_run _ ?_
  rw [State.plBoundary_run, State.plane_congr (State.plReady_pl _ p) p, State.setShell, State.plane_wr]
  split
  · rw [State.plane_congr (State.plReport_pl _ _ _ _ _ _ _ _ _) p, State.bumpW, State.plane_wr, State.setPl_plane_self]
  · rw [State.bumpW, State.plane_wr, State.setPl_plane_self]

/-! ### The control word -/

theorem State.plCtrl_of_mod (p : Nat) {v m : Nat} (h : v % 64 = m) : s.plCtrl p v = s.plCtrl p m := by
  have hbit (i : Nat) (hi : i < 6) : bit v i = bit m i := bit_of_mod (k := 6) h hi
  simp only [State.plCtrl, hbit 0 (by decide), hbit 1 (by decide), hbit 2 (by decide), hbit 3 (by decide), hbit 4 (by decide),
    hbit 5 (by decide)]

theorem State.plWrite_ctrl {r : Req} {p : Nat} {d : WData} {m : Nat} (hwriter : s.plWriter r p = true) (hmod : d.bits1 % 64 = m) :
    s.plWrite r p 0 d = s.plCtrl p m := by
  rw [← s.plCtrl_of_mod p hmod]
  simp [State.plWrite, hwriter]

theorem State.plOpen_of_idle {p : Nat} (hserving : s.serving (planeUnit p) = true) (hshell : s.shell p = shIdle)
    (hopen : (s.plane p).openWait = false) (hrange : (s.plLoadRange p).1 + (s.plLoadRange p).2 ≤ 1024) :
    s.plOpen p = (s.setPlane p { s.plane p with openWait := true }).plOpenTry p := by
  simp only [State.plOpen, hserving, hshell, hopen, Nat.not_lt.mpr hrange, decide_false, Bool.not_true, Bool.or_false]
  rfl

theorem State.plCtrl_calibrate {p : Nat} (hserving : s.serving (planeUnit p) = true) :
    s.plCtrl p 16 = s.setPlane p { s.plane p with wantFull := true } ∧
      s.plCtrl p 32 = s.setPlane p { s.plane p with wantOffset := true } := by
  unfold State.plCtrl
  rw [hserving]
  exact ⟨rfl, rfl⟩

theorem State.plReset_of_free {p : Nat} (hserving : s.ustate (planeUnit p) = US.ready ∨ s.ustate (planeUnit p) = US.busy)
    (hfree : s.epochFree (planeUnit p) = true) : s.plReset p = s.plEnter p US.resetting := by
  unfold State.plReset
  dsimp only
  rcases hserving with h | h <;> rw [h, hfree] <;> rfl

/-- The end of RESETTING is a full calibration: a failed one is FAULT, and any other leaves the plane READY. -/
theorem State.plResetDone_of_resetting {p : Nat} (hreset : s.ustate (planeUnit p) = US.resetting) :
    s.plResetDone p = if (s.plFullCal p).1 then (s.plFullCal p).2.plFault p
      else (s.plFullCal p).2.setUstate (planeUnit p) US.ready := by
  rw [State.plResetDone, if_neg (not_not.mpr hreset)]

/-! ### The policy, trim and REST words -/

theorem State.plWrite_calCtrl {r : Req} {p : Nat} {d : WData} (hwriter : s.plWriter r p = true) :
    s.plWrite r p 0x28 d = s.plCalCtrl p d := by
  simp [State.plWrite, hwriter]

/-- While a job runs, a written policy waits for its boundary. -/
theorem State.plCalCtrl_of_running {p : Nat} (d : WData) (hrun : (s.plane p).run.isSome = true) :
    s.plCalCtrl p d = (((s.writeReg (R.PL_CAL_CTRL p) d).wr (F.PL_CAL_CTRL_T_FORCE p) (s.rd (F.PL_TEMP_T p))).wr
      (F.PL_CAL_STATUS_STUCK p) 0).setPlane p { s.plane p with policyWait := true, ovrRun := 0 } := by
  have hplane : ((s.writeReg (R.PL_CAL_CTRL p) d).wr (F.PL_CAL_CTRL_T_FORCE p) (s.rd (F.PL_TEMP_T p))).plane p = s.plane p :=
    State.plane_congr (by simp) p
  simp only [State.plCalCtrl, hplane, State.setPlane_plane_self, hrun, if_true]

theorem State.plWrite_force {r : Req} {p : Nat} (j : Fin 1056) {d : WData} (hwriter : s.plWriter r p = true) :
    s.plWrite r p (0x4000 + 8 * j.val) d = s.plForceWrite p j.val d := by
  have hj := j.isLt
  have hrest : 0x4000 + 8 * j.val ≠ 0x80 := by omega
  have hctrl : 0x4000 + 8 * j.val ≠ 0 := by omega
  have hcal : 0x4000 + 8 * j.val ≠ 0x28 := by omega
  have hrange : 0x4000 ≤ 0x4000 + 8 * j.val ∧ 0x4000 + 8 * j.val < 0x4000 + 1056 * 8 := by omega
  have hindex : (0x4000 + 8 * j.val - 0x4000) / 8 = j.val := by omega
  simp only [State.plWrite, hwriter, Bool.not_true, Bool.false_or, hrest, decide_false, Bool.false_and, Bool.false_eq_true, if_false,
    hctrl, hcal, hrange, and_self, if_true, hindex]

theorem State.plForceWrite_of_running {p : Nat} (j : Nat) (d : WData) (hrun : (s.plane p).run.isSome = true) :
    s.plForceWrite p j d =
      (s.writeReg (R.PL_FORCE p j) d).setPlane p { s.plane p with forceWait := (s.plane p).forceWait ++ [j] } := by
  have hplane : (s.writeReg (R.PL_FORCE p j) d).plane p = s.plane p := State.plane_congr (by simp) p
  simp only [State.plForceWrite, hplane, State.setPlane_plane_self, hrun, if_true]

/-- The castle's write of a plane's REST word. -/
theorem State.plWrite_rest (p : Nat) (d : WData) :
    s.plWrite .castle p 0x80 d =
      (let t := if bit d.bits1 0 then s.wr (F.PL_REST_REQUEST p) 1 else s
       let t := if bit d.bits1 1 then t.wr (F.PL_REST_FORCE p) 1 else t
       if bit d.bits1 8 then t.wr (F.PL_REST_REQUEST p) 0 else t) := by
  simp [State.plWrite, State.plWriter, Req.trusted]

/-! ### A load's check -/

/-- The column registers lie apart from a plane's load and state words. -/
theorem State.plBadSync_rd {p : Nat} {old : List Nat} {f : Fld} (hf : f.reg = R.PL_LOAD p ∨ f.reg = R.PL_STATE p)
    (hcols : ∀ j ∈ old ++ (s.plane p).wbad ++ (s.plane p).cbad, j < 1024) : (s.plBadSync p old).rd f = s.rd f := by
  have hcount : R.PL_WCHECK p ≠ f.reg := by
    unfold R.PL_WCHECK
    rcases hf with h | h <;> rw [h]
    · unfold R.PL_LOAD; omega
    · unfold R.PL_STATE; omega
  unfold State.plBadSync
  dsimp only
  rw [State.rd_wr_ne _ (F.PL_WCHECK_BAD_COLS p) f _ hcount]
  refine List.foldlRecOn (motive := fun t : State => t.rd f = s.rd f) _ _ rfl fun t ht j hj => ?_
  have hlt : j < 1024 := hcols j hj
  have hmap : R.PL_BADMAP p (j / 64) ≠ f.reg := by
    unfold R.PL_BADMAP
    rcases hf with h | h <;> rw [h]
    · unfold R.PL_LOAD; omega
    · unfold R.PL_STATE; omega
  have htrim : R.PL_TRIM p j ≠ f.reg := by
    unfold R.PL_TRIM
    rcases hf with h | h <;> rw [h]
    · unfold R.PL_LOAD; omega
    · unfold R.PL_STATE; omega
  rw [State.rd_wr_ne _ (F.PL_TRIM_BAD p j) f _ htrim, State.wrBit, State.rd_wr_ne _ (F.PL_BADMAP_COLS p (j / 64)) f _ hmap]
  exact ht

/-- A load whose CRC is the expected one leaves the weights valid and the shell idle. -/
theorem State.plLoadDone_of_match {p : Nat} (hshell : s.shell p = shChecking)
    (hcrc : s.rd (F.PL_LOAD_EXPECT_CRC p) =
      crc32c (((List.range (s.plane p).opened.2).map ((s.plane p).opened.1 + ·)).flatMap (s.plColumn p)))
    (hcols : ∀ j ∈ (s.plane p).wbad ++ (s.plane p).cbad, j < 1024) :
    (s.plLoadDone p).rd (F.PL_STATE_WEIGHTS_VALID p) = 1 ∧ (s.plLoadDone p).shell p = shIdle := by
  have hload : R.PL_STATE p ≠ R.PL_LOAD p := by unfold R.PL_STATE R.PL_LOAD; omega
  have hwcheck : R.PL_WCHECK p ≠ R.PL_STATE p := by unfold R.PL_WCHECK R.PL_STATE; omega
  unfold State.plLoadDone
  rw [if_neg (not_not.mpr hshell)]
  extract_lets x cols crc synced idle
  have hexpect : idle.rd (F.PL_LOAD_EXPECT_CRC p) = s.rd (F.PL_LOAD_EXPECT_CRC p) := by
    refine (State.rd_wr_ne _ (F.PL_STATE_SHELL p) (F.PL_LOAD_EXPECT_CRC p) _ hload).trans ?_
    refine (State.plBadSync_rd _ (.inl rfl) ?_).trans rfl
    rw [State.setPlane_plane_self]
    intro j hj
    simp only [List.mem_append, List.mem_filter] at hj
    refine hcols j (List.mem_append.mpr ?_)
    rcases hj with (h | ⟨h, -⟩) | h
    · exact .inl h
    · exact .inl h
    · exact .inr h
  rw [hexpect, if_pos hcrc.symm]
  constructor
  · rw [State.rd_wr_ne _ (F.PL_WCHECK_CRC_LOADED p) (F.PL_STATE_WEIGHTS_VALID p) _ hwcheck]
    exact State.rd_wr_at _ _ _ rfl
  · rw [State.shell, State.rd_wr_ne _ (F.PL_WCHECK_CRC_LOADED p) (F.PL_STATE_SHELL p) _ hwcheck,
      State.rd_wr_beside _ (F.PL_STATE_WEIGHTS_VALID p) (F.PL_STATE_SHELL p) _ rfl rfl rfl]
    exact State.rd_wr_at _ _ _ rfl

/-! ### Calibration, sensor and checks -/

/-- A sample within the override's band, under HOLD, is only recorded. -/
theorem execPlaneTempSample_of_hold {p : Fin 32} {tm : BitVec 16} (hpresent : s.present (planeUnit p.val) = true)
    (hhold : s.plEff p.val = polHold)
    (hband : ((s.wr (F.PL_TEMP_T p.val) tm.toNat).plT p.val -
      (s.wr (F.PL_TEMP_T p.val) tm.toNat).rdS (F.PL_CAL_CTRL_T_FORCE p.val)).natAbs <
        ((s.wr (F.PL_TEMP_T p.val) tm.toNat).plRecalDt p.val).natAbs) :
    exec (.planeTempSample p tm) s = .next (s.wr (F.PL_TEMP_T p.val) tm.toNat) := by
  have hne : R.PL_TEMP p.val ≠ R.PL_CAL_STATUS p.val := by
    unfold R.PL_TEMP R.PL_CAL_STATUS
    omega
  have heff : (s.wr (F.PL_TEMP_T p.val) tm.toNat).plEff p.val = polHold :=
    (s.rd_wr_ne (F.PL_TEMP_T p.val) (F.PL_CAL_STATUS_EFFECTIVE p.val) _ hne).trans hhold
  change execPlaneTempSample p tm s = _
  unfold execPlaneTempSample
  rw [if_pos hpresent]
  dsimp only
  rw [if_neg (Nat.not_le.mpr hband), if_neg (fun h => h.2.1 heff)]

theorem execWeightCheck_of_sound {p : Fin 32} (hserving : s.serving (planeUnit p.val) = true)
    (hcheck : s.on (F.PL_CFG_WCHECK_US p.val) = true) (hshell : s.shell p.val = shIdle) :
    ∃ t, exec (.weightCheck p none) s = .next t ∧ (t.plane p.val).checkCol = ((s.plane p.val).checkCol + 1) % 1024 ∧ t.mem = s.mem := by
  refine ⟨_, congrArg Host.Outcome.next (if_pos ⟨hserving, hcheck, .inl hshell⟩),
    congrArg PlSt.checkCol (State.setPlane_plane_self _ p.val _), ?_⟩
  have hcol := (State.plCheckCol_keeps (b := true) (p := p.val) (j := (s.plane p.val).checkCol) (code := 1) (.refl s _)).2.2.1 rfl |>.1
  dsimp only
  rw [State.setPlane_mem]
  split
  · exact (State.bump_mem _ _).trans hcol
  · exact hcol

/-- An idle plane's probe is a product of the model's draw (log entry 30), judged at its boundary. -/
theorem execProbeProduct_of_idle {p : Fin 32} (hserving : s.serving (planeUnit p.val) = true)
    (hprobe : s.on (F.PL_CFG_PROBE_US p.val) = true) (hshell : s.shell p.val = shIdle) (hrun : (s.plane p.val).run = none) :
    exec (.probeProduct p) s = .next
      ((((s.drawBytes 51 1024).2.plEstimate p.val ((s.drawBytes 51 1024).1.map (·.toNat)) 0 3).2.plJudge p.val
        ((s.drawBytes 51 1024).2.plEstimate p.val ((s.drawBytes 51 1024).1.map (·.toNat)) 0 3).1).plBoundary p.val) := by
  change execProbeProduct p s = _
  unfold execProbeProduct
  rw [if_pos ⟨hserving, hprobe, hshell, hrun⟩]

/-! ### The obligation -/

/-- Settles O16: the jobs, the control word's bits, the words of the block, and the plane's own events, each by its lemma. -/
theorem planesComplete : Obligations.PlanesComplete := by
  refine ⟨fun m s hkind hop hplane hmodule horder hpresent hserving hfence hlen hshell hroom hcheck =>
      execPlaneJobArrive_of_ok s hkind hop hplane hmodule horder hpresent hserving hfence hlen hshell hroom hcheck,
    fun p m s hserving hshell hrun hopen hwants hrest hnext =>
      congrArg Host.Outcome.next (s.plStart_of_next hserving hshell hrun hopen hwants hrest hnext),
    fun p r s hrun hshell hgoing hleft hbreach => execPlaneProductEnd_of_running s hrun hshell hgoing hleft hbreach,
    fun p r s hrun hshell hdone => ⟨_, rfl, s.plJobDone_run hrun hshell hdone⟩,
    ?_, ?_,
    fun p s hshell hcrc hcols => ⟨_, rfl, (s.plLoadDone_of_match hshell hcrc hcols).1, (s.plLoadDone_of_match hshell hcrc hcols).2,
      (State.plLoadDone_keeps (b := true) (.refl s _)).2.2.1 rfl |>.1⟩,
    ?_, ?_, ?_, ?_, fun p tm s hpresent hhold hband => execPlaneTempSample_of_hold s hpresent hhold hband,
    fun p s hserving hage hauto => congrArg Host.Outcome.next (if_pos ⟨hserving, hage, hauto⟩),
    fun p s hserving hcheck hshell _ => execWeightCheck_of_sound s hserving hcheck hshell,
    ?_,
    fun p s hpresent hprobe => congrArg Host.Outcome.next (if_pos ⟨hpresent, hprobe⟩),
    ?_, ?_, fun p s hover hstuck hcool => congrArg Host.Outcome.next (if_pos ⟨hover, hstuck, hcool⟩),
    ?_, fun p s hreset => congrArg Host.Outcome.next (s.plResetDone_of_resetting hreset),
    fun p s => congrArg Host.Outcome.next (s.plWrite_rest p.val ⟨.low, 1⟩),
    fun p s => congrArg Host.Outcome.next (s.plWrite_rest p.val ⟨.low, 2⟩),
    fun p s => congrArg Host.Outcome.next (s.plWrite_rest p.val ⟨.low, 0x100⟩)⟩
  · intro r p d s hpresent hwriter hmod hserving hshell hopen hrange
    exact congrArg Host.Outcome.next ((if_pos hpresent).trans ((s.plWrite_ctrl hwriter hmod).trans
      (s.plOpen_of_idle hserving hshell hopen hrange)))
  · intro r p d s hpresent hwriter hmod hserving hshell
    exact congrArg Host.Outcome.next ((if_pos hpresent).trans ((s.plWrite_ctrl hwriter hmod).trans (if_pos ⟨hserving, hshell⟩)))
  · intro r p d s hpresent hwriter hmod hserving
    exact congrArg Host.Outcome.next ((if_pos hpresent).trans ((s.plWrite_ctrl hwriter hmod).trans (s.plCtrl_calibrate hserving).1))
  · intro r p d s hpresent hwriter hmod hserving
    exact congrArg Host.Outcome.next ((if_pos hpresent).trans ((s.plWrite_ctrl hwriter hmod).trans (s.plCtrl_calibrate hserving).2))
  · intro p s hserving hwants hcal hshell
    exact congrArg Host.Outcome.next (if_pos ⟨hserving, hwants, hcal, .inl hshell⟩)
  · intro p s hcal
    change execCalibrationDone p s = _
    simp only [execCalibrationDone, hcal, Nat.zero_ne_one, Bool.false_eq_true, if_false]
  · intro p s hserving hprobe hshell hrun
    exact ⟨_, execProbeProduct_of_idle s hserving hprobe hshell hrun, rfl⟩
  · intro r p d s hpresent hwriter hrun
    exact congrArg Host.Outcome.next ((if_pos hpresent).trans ((s.plWrite_calCtrl hwriter).trans (s.plCalCtrl_of_running d hrun)))
  · intro r p j d s hpresent hwriter hrun
    exact congrArg Host.Outcome.next ((if_pos hpresent).trans ((s.plWrite_force j hwriter).trans
      (s.plForceWrite_of_running j.val d hrun)))
  · intro r p d s hpresent hwriter hmod hserving hfree
    exact congrArg Host.Outcome.next ((if_pos hpresent).trans ((s.plWrite_ctrl hwriter hmod).trans (s.plReset_of_free hserving hfree)))

end Sys2Proof.Machine
end

section
/-!
Attention engines and the key-value cache (R242 to R277): what each command leaves where its checks pass.
-/

namespace Sys2Proof.Machine

variable (s : State)

/-! ### Jobs -/

/-- A job that passes every check joins its engine's queue. -/
theorem execAeJobArrive_of_ok {m : Msg} (hkind : m.kind = 0) (hop : m.op = 1) (hengine : m.dest / 0x1000 = 3)
    (hmodule : m.destModule = s.moduleNo) (horder : s.inOrder m = true) (hpresent : s.present m.dest = true)
    (hserving : s.ustate m.dest = US.ready ∨ s.ustate m.dest = US.busy) (hfence : (s.takeMsg m).msgFenced m = false)
    (hshared : 8 ≤ s.ownerOf m.src ∨ m.srcModule ≠ s.moduleNo) (hlen : m.payload.length = 64) (hfirst : 1 ≤ field m.payload 0 1)
    (hlast : field m.payload 0 1 ≤ 8)
    (hroom : (s.eng (m.dest % 0x1000)).queue.length + (s.eng (m.dest % 0x1000)).run.isSome.toNat +
      (s.eng (m.dest % 0x1000)).yielded.isSome.toNat < 16)
    (hcheck : (s.takeMsg m).aeCheck (m.dest % 0x1000) 0 m.payload = St.ok) :
    exec (.aeJobArrive m) s = .next ((s.takeMsg m).setAe (m.dest % 0x1000)
      { s.eng (m.dest % 0x1000) with queue := (s.eng (m.dest % 0x1000)).queue ++ [m] }) := by
  have harrive : exec (.aeJobArrive m) s = .next ((s.takeMsg m).aeArrive m) := by
    change execAeJobArrive m s = _
    simp only [execAeJobArrive, hkind, hop, hengine, hmodule, horder, hpresent, ne_eq, not_true_eq_false, Bool.true_eq_false,
      OfNat.zero_ne_ofNat, or_self, if_false]
  have hst : ¬ ((s.takeMsg m).ustate m.dest ≠ US.ready ∧ (s.takeMsg m).ustate m.dest ≠ US.busy) := fun h =>
    hserving.elim h.1 h.2
  have hforeign : (decide (m.srcModule = (s.takeMsg m).moduleNo) && decide ((s.takeMsg m).ownerOf m.src < 8)) = false := by
    rcases hshared with h | h
    · exact Bool.and_eq_false_iff.mpr (.inr (decide_eq_false (Nat.not_lt.mpr h)))
    · exact Bool.and_eq_false_iff.mpr (.inl (decide_eq_false h))
  have hform : ¬ (m.payload.length ≠ 64 ∨ field m.payload 0 1 = 0 ∨ 8 < field m.payload 0 1) := by omega
  have hfull : ¬ 16 ≤ ((s.takeMsg m).eng (m.dest % 0x1000)).queue.length +
      ((s.takeMsg m).eng (m.dest % 0x1000)).run.isSome.toNat +
      ((s.takeMsg m).eng (m.dest % 0x1000)).yielded.isSome.toNat := Nat.not_le.mpr hroom
  rw [harrive, State.aeArrive]
  dsimp only
  rw [if_neg hst, hfence, hforeign, Bool.false_and, Bool.or_self, if_neg Bool.false_ne_true, if_neg (not_not.mpr hkind), if_neg hform,
    if_neg hfull, if_pos hcheck]
  rfl

/-- With no latency job waiting, a serving engine goes on with the ATTEND it runs. -/
theorem State.aeAttend_of_running {e : Nat} {r : AeRun} (hserving : s.serving (engineUnit e) = true) (hrun : (s.eng e).run = some r)
    (hgoing : r.finished = false) (hattend : isAttend r.msg = true) (hwhole : r.slices = [])
    (hnone : (s.eng e).queue.filter isLatency = []) : s.aeAttend e = s.doEntry e r := by
  simp only [State.aeAttend, hserving, hrun, hgoing, hattend, hwhole, hnone, Bool.not_true, Bool.or_self, List.isEmpty_nil,
    Bool.false_eq_true, if_false]
  rfl

/-- A cache operation that is next, passes its checks and waits for nothing ends its job with the operation's status. -/
theorem State.aeKv_of_next {e op : Nat} {m : Msg} {b : State} {r : AeRun} {k : KvJob} (hidle : (s.eng e).run = none)
    (hnext : s.aeNext e op = some m) (hbegin : s.aeBegin e m = (r, b))
    (hjob : k = ⟨e, r.job, b.ownerOf (engineUnit e), b.masterOf (engineUnit e), m.payload⟩) (hmsg : r.msg = m)
    (hcheck : b.aeCheck e r.job m.payload = St.ok) (hdone : (b.kvOp k none).wait = false) (hsilent : k.resultAddr = 0) :
    s.aeKv e op = (b.kvOp k none).s.aeEnd e r (b.kvOp k none).status := by
  subst hjob
  simp only [State.aeKv, hidle, hnext, hbegin, hmsg, Option.isSome_none, Bool.false_eq_true, if_false, hcheck, if_true, hdone, hsilent]

/-- A page in limbo that no job holds goes back to its pool's stack. -/
theorem State.limboRelease_of_find {y : Limbo} (hfind : s.kv.limbo.find? (fun x => x.jobs.isEmpty) = some y) :
    s.limboRelease = (({ s with kv := { s.kv with limbo := s.kv.limbo.erase y } } : State).wr (F.KV_POOL_STATUS_LIMBO y.pool)
      (s.poolLimbo y.pool - 1)).pushPage y.pool y.page := by
  simp only [State.limboRelease, hfind]
  rfl

theorem State.helperSlice_of_owner {e : Nat} {h : AeHelp} {rest : List AeHelp} {r : AeRun} (hhelp : (s.eng e).help = h :: rest)
    (hserving : s.serving (engineUnit e) = true)
    (howner : ((s.setEng e { s.eng e with help := rest }).eng h.owner).run = some r) (hjob : r.job = h.job)
    (hgoing : r.finished = false) :
    s.helperSlice e = (s.setEng e { s.eng e with help := rest }).doSlice h.owner e h.place r := by
  simp only [State.helperSlice, hhelp, hserving, howner, hjob, hgoing, Bool.not_true, Bool.false_eq_true, if_false, and_self, if_true]

theorem State.setAe_eng_self (e : Nat) (x : AeSt) : (s.setAe e x).eng e = x := by
  have hae : (s.setAe e x).ae = (s.setEng e x).ae := by
    simp only [State.setAe, apply_ite State.ae, State.setUstate_ae, State.wr_ae, ite_self]
  exact (congrArg (mget ae0 · e) hae).trans (s.setEng_eng_self e x)

/-- A finished job, acknowledged, is no longer in execution. -/
theorem State.aeDone_run {e : Nat} {r : AeRun} (hrun : (s.eng e).run = some r) (hdone : r.finished = true) :
    ((s.aeDone e).eng e).run = none := by
  simp only [State.aeDone, hrun, hdone, if_true]
  exact congrArg AeSt.run (State.setAe_eng_self _ e _)

/-! ### The block's words -/

/-- A trusted requester's write of AE_CTRL with RESET alone. -/
theorem State.aeWrite_reset {r : Req} {e : Nat} {d : WData} (htrusted : r.trusted = true) (hmod : d.bits1 % 4 = 2) :
    s.aeWrite r e 0 d = s.aeReset e := by
  have hlock : bit d.bits1 0 = false := bit_of_mod (k := 2) hmod (by decide)
  have hreset : bit d.bits1 1 = true := bit_of_mod (k := 2) hmod (by decide)
  simp [State.aeWrite, htrusted, hlock, hreset]

theorem State.aeReset_of_free {e : Nat} (hserving : s.ustate (engineUnit e) = US.ready ∨ s.ustate (engineUnit e) = US.busy)
    (hfree : s.epochFree (engineUnit e) = true) : s.aeReset e = s.aeEnter e US.resetting := by
  unfold State.aeReset
  dsimp only
  rcases hserving with h | h <;> rw [h, hfree] <;> rfl

/-- The castle's write of an engine's REST word. -/
theorem State.aeWrite_rest (e : Nat) (d : WData) :
    s.aeWrite .castle e 0x40 d =
      (let t := if bit d.bits1 0 then s.wr (F.AE_REST_REQUEST e) 1 else s
       let t := if bit d.bits1 1 then t.wr (F.AE_REST_FORCE e) 1 else t
       if bit d.bits1 8 then t.wr (F.AE_REST_REQUEST e) 0 else t) := by
  simp [State.aeWrite, Req.trusted]

/-- A trusted requester's write of KV_CTRL that leaves LOCK as it is. -/
theorem State.aeWrite_kvCtrl {r : Req} {e : Nat} {d : WData} (htrusted : r.trusted = true) (hlock : bit d.bits1 0 = false) :
    s.aeWrite r e 0x800 d = s.kvEnable (bit (d.over (s.reg R.KV_CTRL)) 1) := by
  simp [State.aeWrite, htrusted, hlock]

/-- Enabling a well configured cache clears its directory, its sequences and its pools. -/
theorem State.kvEnable_of_off (hoff : s.on F.KV_CTRL_ENABLE = false) (hconfig : (s.wr F.KV_CTRL_ENABLE 1).kvConfigError = false) :
    s.kvEnable true =
      (fun b : State => b.poolsOn.foldl (fun a p => a.poolInit p) b) ((List.range 4096).foldl (fun a q => a.setSe q seState 0)
        ((s.wr F.KV_CTRL_ENABLE 1).zeroRange ((s.wr F.KV_CTRL_ENABLE 1).drAt 0) ((s.wr F.KV_CTRL_ENABLE 1).dirSize * 32))) := by
  simp only [State.kvEnable, hoff, Bool.true_eq_false, if_false, if_true, hconfig, Bool.false_eq_true]

/-! ### The obligation -/

/-- Settles O17: the seven cache operations are one lemma at their codes; jobs, helpers and the block's words have one each. -/
theorem attentionComplete : Obligations.AttentionComplete := by
  refine ⟨fun m s hkind hop hengine hmodule horder hpresent hserving hfence hshared hlen hfirst hlast hroom hcheck =>
      execAeJobArrive_of_ok s hkind hop hengine hmodule horder hpresent hserving hfence hshared hlen hfirst hlast hroom hcheck,
    fun e r s hserving hrun hgoing hattend hwhole hnone =>
      congrArg Host.Outcome.next (s.aeAttend_of_running hserving hrun hgoing hattend hwhole hnone),
    ?_, ?_, ?_, ?_, ?_, ?_, ?_, fun y s hfind => congrArg Host.Outcome.next (s.limboRelease_of_find hfind),
    fun e h rest r s hhelp hserving howner hjob hgoing =>
      congrArg Host.Outcome.next (s.helperSlice_of_owner hhelp hserving howner hjob hgoing),
    fun e r s hrun hdone => ⟨_, rfl, s.aeDone_run hrun hdone⟩, ?_,
    fun e s hreset => congrArg Host.Outcome.next (if_pos hreset), ?_,
    fun e s => congrArg Host.Outcome.next (s.aeWrite_rest e.val ⟨.low, 1⟩),
    fun e s => congrArg Host.Outcome.next (s.aeWrite_rest e.val ⟨.low, 2⟩),
    fun e s => congrArg Host.Outcome.next (s.aeWrite_rest e.val ⟨.low, 0x100⟩)⟩
  case refine_8 =>
    intro r e d s hpresent htrusted hmod hserving hfree
    exact congrArg Host.Outcome.next ((if_pos hpresent).trans ((s.aeWrite_reset htrusted hmod).trans (s.aeReset_of_free hserving hfree)))
  case refine_9 =>
    intro r e d s hpresent htrusted hlock henable hoff hconfig
    refine congrArg Host.Outcome.next ((if_pos hpresent).trans ((s.aeWrite_kvCtrl htrusted hlock).trans ?_))
    rw [henable]
    exact s.kvEnable_of_off hoff hconfig
  all_goals exact fun e m b r k s hidle hnext hbegin hjob hmsg hcheck hdone hsilent =>
    congrArg Host.Outcome.next (s.aeKv_of_next hidle hnext hbegin hjob hmsg hcheck hdone hsilent)

end Sys2Proof.Machine
end

section
/-!
The collision checker (R284 to R312): jobs that execute at once, CHECK, staging and switching, fallbacks, and its control word.
-/

namespace Sys2Proof.Machine

variable (s : State)

/-! ### The checker's record -/

theorem State.setCc_cc_self (c : CcSt) : (s.setCc c).cc = c := by
  simp only [State.setCc, apply_ite State.cc, State.setUstate_cc, State.wr_cc, ite_self]

/-- The registers that show the checker's record. -/
def ccShown : List Nat := [R.CC_STATE, R.CC_TRAJ_IDS, R.CC_TRAJ_STATE]

theorem State.rd_setUstate_cc_ne {f : Fld} (v : Nat) (h : R.CC_STATE ≠ f.reg) : (s.setUstate ccUnit v).rd f = s.rd f := by
  rw [s.setUstate_fld stateFld_cc]
  exact s.rd_wr_ne F.CC_STATE_UNIT_STATE f v h

/-- Setting the record leaves every register that does not show it. -/
theorem State.rd_setCc_ne (c : CcSt) {f : Fld} (h : ∀ r ∈ ccShown, r ≠ f.reg) : (s.setCc c).rd f = s.rd f := by
  simp only [ccShown, List.mem_cons, List.not_mem_nil, or_false, forall_eq_or_imp, forall_eq] at h
  obtain ⟨hstate, hids, htraj⟩ := h
  have hwr (t : State) (g : Fld) (v : Nat) (hg : g.reg = R.CC_STATE ∨ g.reg = R.CC_TRAJ_IDS ∨ g.reg = R.CC_TRAJ_STATE) :
      (t.wr g v).rd f = t.rd f := by
    refine t.rd_wr_ne g f v ?_
    rcases hg with e | e | e <;> rw [e] <;> assumption
  simp only [State.setCc, apply_ite (fun t : State => t.rd f), State.rd_setUstate_cc_ne _ _ hstate]
  simp only [hwr _ F.CC_TRAJ_STATE_STAGED _ (.inr (.inr rfl)), hwr _ F.CC_TRAJ_STATE_ACTIVE_KIND _ (.inr (.inr rfl)),
    hwr _ F.CC_TRAJ_IDS_STAGED_ID _ (.inr (.inl rfl)), hwr _ F.CC_TRAJ_IDS_ACTIVE_ID _ (.inr (.inl rfl)),
    hwr _ F.CC_STATE_BEV_VALID _ (.inl rfl), hwr _ F.CC_STATE_SDF_VALID _ (.inl rfl), hwr _ F.CC_STATE_MODEL_VALID _ (.inl rfl),
    hwr _ F.CC_STATE_JOBQ_FILL _ (.inl rfl), hwr _ F.CC_STATE_ENGINE _ (.inl rfl), ite_self]
  rfl

/-- The cause of the last fallback stands beside the fields that show the record. -/
theorem State.setCc_fbCause (c : CcSt) : (s.setCc c).rd F.CC_TRAJ_STATE_FB_CAUSE = s.rd F.CC_TRAJ_STATE_FB_CAUSE := by
  have hbeside (t : State) (v w : Nat) : ((t.wr F.CC_TRAJ_STATE_ACTIVE_KIND v).wr F.CC_TRAJ_STATE_STAGED w).rd F.CC_TRAJ_STATE_FB_CAUSE =
      t.rd F.CC_TRAJ_STATE_FB_CAUSE := by
    rw [State.rd_wr_beside _ F.CC_TRAJ_STATE_STAGED F.CC_TRAJ_STATE_FB_CAUSE _ rfl rfl rfl,
      State.rd_wr_beside _ F.CC_TRAJ_STATE_ACTIVE_KIND F.CC_TRAJ_STATE_FB_CAUSE _ rfl rfl rfl]
  have hids (t : State) (v w : Nat) : ((t.wr F.CC_TRAJ_IDS_ACTIVE_ID v).wr F.CC_TRAJ_IDS_STAGED_ID w).rd F.CC_TRAJ_STATE_FB_CAUSE =
      t.rd F.CC_TRAJ_STATE_FB_CAUSE := by
    rw [State.rd_wr_ne _ F.CC_TRAJ_IDS_STAGED_ID _ _ (by decide), State.rd_wr_ne _ F.CC_TRAJ_IDS_ACTIVE_ID _ _ (by decide)]
  have hstate (t : State) (g : Fld) (v : Nat) (hg : g.reg = R.CC_STATE) :
      (t.wr g v).rd F.CC_TRAJ_STATE_FB_CAUSE = t.rd F.CC_TRAJ_STATE_FB_CAUSE := by
    refine t.rd_wr_ne g _ v ?_
    rw [hg]
    decide
  simp only [State.setCc, apply_ite (fun t : State => t.rd F.CC_TRAJ_STATE_FB_CAUSE),
    State.rd_setUstate_cc_ne (f := F.CC_TRAJ_STATE_FB_CAUSE) _ _ (by decide), hbeside, hids, hstate _ F.CC_STATE_BEV_VALID _ rfl,
    hstate _ F.CC_STATE_SDF_VALID _ rfl, hstate _ F.CC_STATE_MODEL_VALID _ rfl, hstate _ F.CC_STATE_JOBQ_FILL _ rfl,
    hstate _ F.CC_STATE_ENGINE _ rfl, ite_self]
  rfl

/-! ### Jobs that execute at once -/

theorem State.ccTake_of_next {op : Nat} {m : Msg} (hserving : s.serving ccUnit = true) (hidle : s.cc.run = none)
    (hnext : nextJob s.cc.queue = some m) (hop : field m.payload 0 1 = op) :
    s.ccTake op = some (m, s.setCc { s.cc with queue := s.cc.queue.erase m }) := by
  simp only [State.ccTake, hserving, hidle, hnext, hop, and_self, if_true]

/-- The next job, of the command's kind, takes effect and is acknowledged. -/
theorem State.ccJob_of_next {op : Nat} {act : State → List Byte → Nat × State} {m : Msg} (hserving : s.serving ccUnit = true)
    (hidle : s.cc.run = none) (hnext : nextJob s.cc.queue = some m) (hop : field m.payload 0 1 = op) :
    s.ccJob op act =
      (let a := act (s.setCc { s.cc with queue := s.cc.queue.erase m }) m.payload
       a.2.ccAck m a.1) := by
  simp only [State.ccJob, s.ccTake_of_next hserving hidle hnext hop]

theorem State.ccCommit_of_staged {d : List Byte} {tr : Traj} (hstaged : s.cc.staged = some tr) (hid : tr.id = field d 4 4)
    (hstate : tr.state = trTentative) : s.ccCommit d = (St.ok, s.setCc { s.cc with staged := some (s.pend tr) }) := by
  simp only [State.ccCommit, hstaged, hid, hstate, and_self, if_true]

theorem State.ccCancel_of_staged {d : List Byte} {tr : Traj} (hstaged : s.cc.staged = some tr) (hid : tr.id = field d 4 4)
    (hstate : tr.state = trTentative) : s.ccCancel d = (St.ok, s.setCc { s.cc with staged := none }) := by
  simp only [State.ccCancel, hstaged, hid, hstate, and_self, if_true]

/-! ### CHECK -/

/-- The next job starts where it is a CHECK and does not wait for a switch. -/
theorem State.ccCheck_of_next {m : Msg} (n : Nat) (hserving : s.serving ccUnit = true) (hidle : s.cc.run = none)
    (hnext : nextJob s.cc.queue = some m) (hop : field m.payload 0 1 = joCheck)
    (hclear : (chkDesc m.payload).stage = true → s.stagePending = false) :
    s.ccCheck n = (s.setCc { s.cc with queue := s.cc.queue.erase m }).ccStart ⟨m, false, [], 0, none, false, false⟩ n := by
  have hpending : (s.setCc { s.cc with queue := s.cc.queue.erase m }).stagePending = s.stagePending := by
    rw [State.stagePending, State.setCc_cc_self, State.stagePending]
  have hstarts : ((chkDesc m.payload).stage && s.stagePending) = false := by
    cases hstage : (chkDesc m.payload).stage with
    | true => rw [Bool.true_and, hclear hstage]
    | false => rw [Bool.false_and]
  unfold State.ccCheck
  rw [s.ccTake_of_next hserving hidle hnext hop]
  generalize s.setCc _ = u at hpending ⊢
  simp only [hidle, hpending, hstarts, Bool.false_eq_true, if_false]

theorem State.ccCheck_of_running {q : CcRun} (n : Nat) (hrun : s.cc.run = some q) (hgoing : q.waiting = false)
    (hopen : q.ended = none) (hserving : s.serving ccUnit = true) : s.ccCheck n = s.ccEvalSome q n := by
  simp only [State.ccCheck, hrun, hgoing, hopen, hserving, Option.isSome_none, Bool.not_true, Bool.or_self, Bool.false_eq_true, if_false]

theorem State.ccResume_of_waiting {q : CcRun} (hrun : s.cc.run = some q) (hwaiting : q.waiting = true)
    (hclear : s.stagePending = false) : s.ccResume = s.ccStart q 0 := by
  simp only [State.ccResume, hrun, hwaiting, hclear, Bool.not_false, Bool.and_self, if_true]

/-- A deadline concludes a waiting CHECK, or the one in execution after the candidate in progress. -/
theorem State.ccDeadline_of_run {q : CcRun} (hrun : s.cc.run = some q) (hdeadline : (chkDesc q.msg.payload).deadline ≠ 0)
    (hopen : q.ended = none) :
    s.ccDeadline = if q.waiting then s.ccConclude { q with waiting := false, cut := true } 2
      else
        let a := s.ccEvalOne { q with cut := true }
        if a.1 ≠ St.ok then a.2.2.ccEnd a.2.1 a.1 else a.2.2.ccConclude a.2.1 0 := by
  simp only [State.ccDeadline, hrun, hdeadline, hopen, decide_false, Option.isSome_none, Bool.or_self, Bool.false_eq_true, if_false]

/-! ### Switching and expiry -/

/-- A trajectory switched in is the active one, and its switch changes the record in nothing but what is active and staged. -/
theorem State.ccSwitchIn_cc (tr : Traj) (staged : Option Traj) :
    (s.ccSwitchIn tr staged).cc = { s.cc with active := some { tr with state := trActive }, staged := staged } := by
  simp only [State.ccSwitchIn, apply_ite State.cc, State.post_cc, State.bumpW_cc, State.setCc_cc_self, ite_self]

theorem State.ccSwitchIn_fbCause (tr : Traj) (staged : Option Traj) :
    (s.ccSwitchIn tr staged).rd F.CC_TRAJ_STATE_FB_CAUSE = s.rd F.CC_TRAJ_STATE_FB_CAUSE := by
  have hbump (t : State) : (t.bumpW F.CC_TRAJ_STATE_SWITCH_COUNT).rd F.CC_TRAJ_STATE_FB_CAUSE = t.rd F.CC_TRAJ_STATE_FB_CAUSE :=
    State.rd_wr_beside _ F.CC_TRAJ_STATE_SWITCH_COUNT F.CC_TRAJ_STATE_FB_CAUSE _ rfl rfl rfl
  simp only [State.ccSwitchIn, apply_ite (fun t : State => t.rd F.CC_TRAJ_STATE_FB_CAUSE), State.post_rd, hbump, State.setCc_fbCause,
    ite_self]

theorem State.trajSwitch_of_pending {tr : Traj} (hstaged : s.cc.staged = some tr) (hpending : tr.state = trPending) :
    s.trajSwitch = s.ccSwitchIn tr none := by
  simp only [State.trajSwitch, hstaged, hpending, if_true]

/-- The count of fallbacks is no part of a timebase's stamp. -/
theorem State.ts64_bump_fallbacks (n : Nat) : (s.bump F.CC_COUNTS_FALLBACKS).ts64 n = s.ts64 n := by
  have hne : F.CC_COUNTS_FALLBACKS.reg ≠ (F.TB_STATUS_STATE n).reg := by
    change R.CC_COUNTS ≠ R.TB_STATUS n
    unfold R.CC_COUNTS R.TB_STATUS
    omega
  simp only [State.ts64, State.stamp, State.tbHold, State.rd_bump_ne _ _ _ hne]
  rfl

/-- A fallback requested while a chosen trajectory is active and none is being built starts its build. -/
theorem State.fbRequest_of_active {tr : Traj} (cause : Nat) (hactive : s.cc.active = some tr) (hchosen : tr.fallback = false)
    (hidle : s.cc.build = none) :
    (s.fbRequest cause).cc.build = some ⟨cause, s.ts64 tr.tb, tr⟩ ∧
      (s.fbRequest cause).rd F.CC_COUNTS_FALLBACKS = min (s.rd F.CC_COUNTS_FALLBACKS + 1) (2 ^ 16 - 1) := by
  simp only [State.fbRequest, State.bump_cc, hidle, hactive, hchosen, Bool.false_eq_true, if_false]
  constructor
  · rw [State.setCc_cc_self, State.ts64_bump_fallbacks]
  · rw [State.rd_setCc_ne _ _ (by decide)]
    exact s.rd_bump_self F.CC_COUNTS_FALLBACKS (by decide)

theorem State.trajExpiry_of_chosen {tr : Traj} (hactive : s.cc.active = some tr) (hchosen : tr.fallback = false) :
    s.trajExpiry = s.fbRequest fbExpired := by
  simp only [State.trajExpiry, hactive, hchosen, Bool.false_eq_true, if_false]

/-! ### The end of a fallback's build -/

theorem State.ccReport_cc (rcd : List Byte) : (s.ccReport rcd).cc = s.cc := by
  unfold State.ccReport
  dsimp only
  split <;> simp

theorem State.ccReport_rd (rcd : List Byte) (f : Fld) : (s.ccReport rcd).rd f = s.rd f := by
  unfold State.ccReport
  dsimp only
  split <;> simp

/-- With no CHECK waiting for it, a built fallback is switched in, recorded with its cause and reported. -/
theorem State.fbSwitch_of_build {b : CcBuild} (hbuild : s.cc.build = some b) (hidle : s.cc.run = none) :
    s.fbSwitch.cc.build = none ∧ s.fbSwitch.cc.active = some { s.buildFallback b with state := trActive } ∧
      s.fbSwitch.rd F.CC_TRAJ_STATE_FB_CAUSE = b.cause % 8 := by
  unfold State.fbSwitch
  split
  next hnone => cases hnone.symm.trans hbuild
  next b' hsome =>
  obtain rfl : b = b' := Option.some.inj (hbuild.symm.trans hsome)
  extract_lets tr hits record cleared caused flagged switched
  have hcleared : cleared.cc = { s.cc with build := none, lastId := tr.id } := State.setCc_cc_self _ _
  have hflagged : flagged.cc = cleared.cc := rfl
  have hcc : switched.cc = { cleared.cc with active := some { tr with state := trActive }, staged := flagged.cc.staged } := by
    refine (State.event_cc _ _ _ _ _).trans ((State.ccSwitchIn_cc _ _ _).trans ?_)
    rw [hflagged]
  have hcause : switched.rd F.CC_TRAJ_STATE_FB_CAUSE = b.cause % 8 := by
    refine (State.event_rd _ _ _ _ _ _).trans ((State.ccSwitchIn_fbCause _ _ _).trans ?_)
    simp (disch := exact id rfl) only [flagged, caused, State.rd_wr_beside, State.rd_wr_at]
    rfl
  have hrun : switched.cc.run = none := by
    rw [hcc, hcleared]
    exact hidle
  rw [hrun]
  simp only [Option.bind_none]
  rw [State.ccReport_cc, State.ccReport_rd]
  refine ⟨?_, ?_, hcause⟩
  · exact (congrArg CcSt.build hcc).trans (congrArg CcSt.build hcleared)
  · exact congrArg CcSt.active hcc

/-! ### The control word -/

/-- ENABLE is no part of what shows a unit's state. -/
theorem State.ustate_wr_ccEnable (v : Nat) : (s.wr F.CC_CTRL_ENABLE v).ustate ccUnit = s.ustate ccUnit := by
  refine s.ustate_wr F.CC_CTRL_ENABLE v ccUnit (by decide) fun g hg => ?_
  obtain rfl : F.CC_STATE_UNIT_STATE = g := Option.some.inj (stateFld_cc.symm.trans hg)
  decide

/-- A write of CC_CTRL with FALLBACK alone sets ENABLE and requests a fallback. -/
theorem State.ccWrite_fallback {r : Req} {d : WData} (hmay : s.mayUse r ccUnit = true) (hlow : d.bits1 % 8 = 0)
    (hbit : bit d.bits1 3 = true) (hoff : s.ustate ccUnit ≠ US.off) (hquarantined : s.ustate ccUnit ≠ US.quarantined) :
    s.ccWrite r 0 d = (s.wr F.CC_CTRL_ENABLE (bits (d.over (s.reg R.CC_CTRL)) 1 1)).fbRequest fbJob := by
  have hlock : bit d.bits1 0 = false := bit_of_mod (k := 3) hlow (by decide)
  have hreset : bit d.bits1 2 = false := bit_of_mod (k := 3) hlow (by decide)
  simp only [State.ccWrite, hmay, hlock, hreset, hbit, State.ustate_wr_ccEnable, hoff, hquarantined, Bool.not_true, Bool.false_eq_true,
    if_false, if_true, or_self]

/-- A write of CC_CTRL with RESET alone sets ENABLE and enters RESETTING. -/
theorem State.ccWrite_reset {r : Req} {d : WData} (hmay : s.mayUse r ccUnit = true) (hlow : d.bits1 % 16 = 4)
    (hserving : s.serving ccUnit = true) (hfree : s.epochFree ccUnit = true) :
    s.ccWrite r 0 d = (s.wr F.CC_CTRL_ENABLE (bits (d.over (s.reg R.CC_CTRL)) 1 1)).ccEnter US.resetting := by
  have hbit (i : Nat) (hi : i < 4) : bit d.bits1 i = bit 4 i := bit_of_mod (k := 4) hlow hi
  have hlock : bit d.bits1 0 = false := hbit 0 (by decide)
  have hreset : bit d.bits1 2 = true := hbit 2 (by decide)
  have hfallback : bit d.bits1 3 = false := hbit 3 (by decide)
  have hst : s.ustate ccUnit = US.ready ∨ s.ustate ccUnit = US.busy := by
    simpa [State.serving] using hserving
  have hfree' (v : Nat) : (s.wr F.CC_CTRL_ENABLE v).epochFree ccUnit = true := hfree
  simp only [State.ccWrite, hmay, hlock, hreset, hfallback, Bool.not_true, Bool.false_eq_true, if_false, if_true, State.ccReset,
    State.ustate_wr_ccEnable, hfree']
  rcases hst with h | h <;> rw [h] <;> rfl

/-! ### The obligation -/

/-- Settles O18: five kinds of job are one lemma at their codes; CHECK, the trajectories, the fallback and CC_CTRL have one each. -/
theorem checkerComplete : Obligations.CheckerComplete := by
  refine ⟨?_, ?_, ?_, ?_, ?_, ?_,
    fun n m s hserving hidle hnext hop hclear => congrArg Host.Outcome.next (s.ccCheck_of_next n.val hserving hidle hnext hop hclear),
    fun n q s hrun hgoing hopen hserving => congrArg Host.Outcome.next (s.ccCheck_of_running n.val hrun hgoing hopen hserving),
    fun q s hrun hwaiting hclear => congrArg Host.Outcome.next (s.ccResume_of_waiting hrun hwaiting hclear), ?_, ?_, ?_, ?_,
    fun b s hbuild hidle => ⟨_, rfl, s.fbSwitch_of_build hbuild hidle⟩,
    fun r d s hmay hlow hoff hquarantined =>
      congrArg Host.Outcome.next (s.ccWrite_fallback hmay hlow (withBit_bit d 3) hoff hquarantined),
    fun r d s hmay hlow hserving hfree => congrArg Host.Outcome.next (s.ccWrite_reset hmay hlow hserving hfree),
    fun s hreset => congrArg Host.Outcome.next (if_pos hreset)⟩
  · exact fun m s hserving hidle hnext hop => congrArg Host.Outcome.next (s.ccJob_of_next hserving hidle hnext hop)
  · exact fun m s hserving hidle hnext hop => congrArg Host.Outcome.next (s.ccJob_of_next hserving hidle hnext hop)
  · exact fun m s hserving hidle hnext hop => congrArg Host.Outcome.next (s.ccJob_of_next hserving hidle hnext hop)
  · intro m tr s hserving hidle hnext hop hstaged hid hstate
    have hcc := s.setCc_cc_self { s.cc with queue := s.cc.queue.erase m }
    refine congrArg Host.Outcome.next ((s.ccJob_of_next hserving hidle hnext hop).trans ?_)
    rw [State.ccCommit_of_staged _ ((congrArg CcSt.staged hcc).trans hstaged) hid hstate, hcc]
  · intro m tr s hserving hidle hnext hop hstaged hid hstate
    have hcc := s.setCc_cc_self { s.cc with queue := s.cc.queue.erase m }
    refine congrArg Host.Outcome.next ((s.ccJob_of_next hserving hidle hnext hop).trans ?_)
    rw [State.ccCancel_of_staged _ ((congrArg CcSt.staged hcc).trans hstaged) hid hstate, hcc]
  · exact fun m s hserving hidle hnext hop => congrArg Host.Outcome.next (s.ccJob_of_next hserving hidle hnext hop)
  · intro q s hrun hdeadline hopen hwaiting
    exact congrArg Host.Outcome.next ((s.ccDeadline_of_run hrun hdeadline hopen).trans (if_pos hwaiting))
  · intro q s hrun hdeadline hopen hgoing _
    exact congrArg Host.Outcome.next ((s.ccDeadline_of_run hrun hdeadline hopen).trans (if_neg (Bool.not_eq_true _ ▸ hgoing)))
  · intro tr s hstaged hpending
    have hcc := s.ccSwitchIn_cc tr none
    refine ⟨_, congrArg Host.Outcome.next (s.trajSwitch_of_pending hstaged hpending), congrArg CcSt.active hcc,
      congrArg CcSt.staged hcc, (State.ccSwitchIn_keeps (b := true) (.refl s _)).2.2.1 rfl |>.1⟩
  · intro tr s hactive hchosen hidle
    obtain ⟨hbuild, hcount⟩ := s.fbRequest_of_active fbExpired hactive hchosen hidle
    exact ⟨_, congrArg Host.Outcome.next (s.trajExpiry_of_chosen hactive hchosen), hbuild, hcount,
      (State.fbRequest_keeps (b := true) (.refl s _)).2.2.1 rfl |>.1⟩

end Sys2Proof.Machine
end

section
/-!
What an access on the bus leaves: it changes memory, its checks and the counters of the controllers, and no unit's record.
-/

namespace Sys2Proof.Machine

variable (s : State)

/-- The records of the units that answer to jobs, commands and events. -/
def State.records := (s.dyn, s.cc, s.mbx, s.sched, s.castle, s.boot, s.img, s.link, s.pwr, s.rfx)

theorem State.records_foldl {α : Type} (f : State → α → State) (l : List α) (h : ∀ t x, (f t x).records = t.records) :
    (l.foldl f s).records = s.records :=
  List.foldlRecOn (motive := fun t : State => t.records = s.records) _ _ rfl fun t ht x _ => (h t x).trans ht

theorem State.mcCharge_records (part : Option Nat) (a len : Nat) : (s.mcCharge part a len).records = s.records := by
  unfold State.mcCharge
  split
  · rfl
  · cases part <;> simp [State.records, State.draw]

theorem State.errLog_records (kind a unit : Nat) (retired : Bool) : (s.errLog kind a unit retired).records = s.records := by
  simp [State.errLog, State.records]

theorem State.cleanBytes_records (l : List Nat) : (s.cleanBytes l).records = s.records := by
  unfold State.cleanBytes
  split <;> rfl

theorem State.store_records (a : Nat) (b : List Byte) : (s.store a b).records = s.records := by simp [State.records]

theorem State.dramWrite_records (m : Master) (a : Nat) (data : List Byte) (poison : Bool) :
    (s.dramWrite m a data poison).2.records = s.records := by
  have hpoison (t : State) (l : Nat) :
      (((t.setPoison l).errLog 3 (l * 64) m.unit false).event (0xB000 + mcOf t.mcCount (l * 64)) 0x2003 (l * 64) [m.unit]).records =
        t.records := by
    refine Eq.trans ?_ ((State.errLog_records (t.setPoison l) 3 (l * 64) m.unit false).trans rfl)
    simp [State.records]
  unfold State.dramWrite
  extract_lets charged lines part bad keep stored marked
  have hstored : stored.records = s.records := by
    refine Eq.trans ?_ (s.mcCharge_records m.part a data.length)
    unfold stored
    split
    · exact charged.store_records a data
    · exact (State.cleanBytes_records _ _).trans (charged.records_foldl _ _ fun u x => by split <;> simp [State.records])
  have hmarked : marked.records = stored.records := by
    unfold marked
    split
    · exact stored.records_foldl _ _ hpoison
    · rfl
  exact hmarked.trans hstored

theorem State.storePort_records (n off len : Nat) (data : Option (List Byte)) (poison : Bool) :
    (s.storePort n off len data poison).2.2.2.records = s.records := by
  unfold State.storePort
  split
  · rfl
  · cases data with
    | none => rfl
    | some b =>
      dsimp only
      split
      · rfl
      · split <;> simp [State.records]

theorem State.planeWrite_records (p off : Nat) (data : List Byte) : (s.planeWrite p off data).2.records = s.records := by
  unfold State.planeWrite
  dsimp only
  split
  · rfl
  · split
    · exact s.store_records _ data
    · rfl

theorem State.engineWrite_records (m : Master) (e off : Nat) (data : List Byte) :
    (s.engineWrite m e off data).2.records = s.records := by
  unfold State.engineWrite
  split_ifs
  iterate 4 rfl
  exact s.store_records _ data

theorem State.mbxWrite_records (m : Master) (a : Nat) (data : List Byte) : (s.mbxWrite m a data).records = s.records := by
  unfold State.mbxWrite
  dsimp only
  split
  · rfl
  · split <;> simp [State.records]

/-- A single access leaves every record. -/
theorem State.busWrite_records (m : Master) (a : Nat) (data : List Byte) (poison : Bool) :
    (s.busWrite m a data poison).2.records = s.records := by
  unfold State.busWrite
  split
  · split_ifs
    iterate 3 rfl
    exact s.dramWrite_records m a data poison
  · split
    next u off _ =>
      dsimp only
      split_ifs
      · rfl
      · rfl
      · exact s.storePort_records _ off _ _ poison
      · exact s.planeWrite_records _ off data
      · exact s.engineWrite_records m _ off data
    next =>
      split_ifs
      · exact s.store_records _ data
      · rfl
      · exact s.mbxWrite_records m a data
      · rfl

/-- A long access leaves every record. -/
theorem State.busWriteLong_records (m : Master) (poison : Bool) (fuel a : Nat) (d : List Byte) :
    (s.busWriteLong m poison fuel a d).2.records = s.records := by
  induction fuel generalizing s a d with
  | zero => rfl
  | succ fuel ih =>
    have hpiece := s.busWrite_records m a (d.take (512 - a % 512)) poison
    rw [State.busWriteLong]
    split
    · rfl
    · dsimp only
      split
      · exact hpiece
      · exact (ih _ _ _).trans hpiece

theorem State.busPut_records (m : Master) (a : Nat) (d : List Byte) (poison : Bool) :
    (s.busPut m a d poison).2.records = s.records :=
  s.busWriteLong_records m poison _ a d

theorem State.busPut_dyn (m : Master) (a : Nat) (d : List Byte) (poison : Bool) : (s.busPut m a d poison).2.dyn = s.dyn :=
  congrArg Prod.fst (s.busPut_records m a d poison)

end Sys2Proof.Machine
end

section
/-!
The dynamics unit (R313 to R332): jobs and their pauses, triggers, the end of a solve, and the unit's control word.
-/

namespace Sys2Proof.Machine

variable (s : State)

/-! ### Jobs -/

/-- The next job, of the command's kind, executes, or is paused by a trigger. -/
theorem State.dynJob_of_next {op : Nat} {m : Msg} (paused : Bool) (hserving : s.serving dynUnit = true) (hidle : s.dyn.solve = none)
    (hfree : s.dyn.paused = none) (hnext : nextJob s.dyn.queue = some m) (hop : field m.payload 0 1 = op) :
    s.dynJob op paused = if paused then s.setDyn { s.dyn with queue := s.dyn.queue.erase m, paused := some m }
      else (s.setDyn { s.dyn with queue := s.dyn.queue.erase m }).dynRunJob m := by
  have hopen : s.serving dynUnit = true ∧ s.dyn.solve = none ∧ s.dyn.paused = none := ⟨hserving, hidle, hfree⟩
  rw [State.dynJob, if_pos hopen, hnext]
  exact if_neg (not_not.mpr hop)

theorem State.dynResume_of_paused {m : Msg} (hpaused : s.dyn.paused = some m) (hidle : s.dyn.solve = none)
    (hserving : s.serving dynUnit = true) : s.dynResume = (s.setDyn { s.dyn with paused := none }).dynRunJob m := by
  have hresumes : (s.dyn.solve.isNone && s.serving dynUnit) = true := by rw [hidle, hserving]; rfl
  unfold State.dynResume
  split
  next m' hsome =>
    obtain rfl : m' = m := Option.some.inj (hsome.symm.trans hpaused)
    exact if_pos hresumes
  next hnone => cases hnone.symm.trans hpaused

/-! ### Triggers -/

/-- A trigger of a running unit with no solve in progress counts the cycle and takes its snapshot. -/
theorem State.dynTrigger_of_idle {dm : DynModel} (hmodel : s.dyn.model = some dm) (hpresent : s.present dynUnit = true)
    (hrun : s.on F.DYN_CTRL_RUN = true) (htasks : s.on F.DYN_STATE_TASKS_VALID = true) (hserving : s.serving dynUnit = true)
    (hidle : s.dyn.solve = none) :
    s.dynTrigger = ((s.bumpW F.DYN_COUNTS_CYCLES).dynSnap dm).2.setDyn
      { ((s.bumpW F.DYN_COUNTS_CYCLES).dynSnap dm).2.dyn with solve := some ((s.bumpW F.DYN_COUNTS_CYCLES).dynSnap dm).1 } := by
  simp only [State.dynTrigger, hmodel, hpresent, hrun, htasks, hserving, hidle, Bool.and_self, if_true, Option.isSome_none,
    Bool.false_eq_true, if_false]

theorem execDynNotifyTrigger_of_event {m : Msg} (hkind : m.kind = 1) (hop : m.op = 4) (hdest : m.dest = dynUnit)
    (hmodule : m.destModule = s.moduleNo) (horder : s.inOrder m = true) (hanswer : answerOf (s.ustate dynUnit) = St.ok)
    (hcfg : s.rd F.DYN_CFG_TRIGGER = 1) (hsrc : m.src / 0x100 = 0x53) :
    exec (.dynNotifyTrigger m) s = .next ((s.takeMsg m).dynTrigger) := by
  have htaken : ¬ (m.kind ≠ 1 ∨ m.op ≠ 4 ∨ m.dest ≠ dynUnit ∨ m.destModule ≠ s.moduleNo ∨ s.inOrder m = false) := by
    simp [hkind, hop, hdest, hmodule, horder]
  have hok : ¬ answerOf ((s.takeMsg m).ustate dynUnit) ≠ St.ok := not_not.mpr hanswer
  change execDynNotifyTrigger m s = _
  unfold execDynNotifyTrigger
  rw [if_neg htaken]
  exact congrArg Host.Outcome.next ((if_neg hok).trans (if_pos ⟨hcfg, hsrc⟩))

/-! ### The end of a solve -/

theorem State.setDyn_dyn_self (d : DynSt) : (s.setDyn d).dyn = d := by
  simp only [State.setDyn, apply_ite State.dyn, State.setUstate_dyn, State.wr_dyn, ite_self]

theorem State.dynTime_dyn (m : DynModel) : (s.dynTime m).2.dyn = s.dyn := rfl

theorem State.draw_dyn (site : Nat) : (s.draw site).2.dyn = s.dyn := rfl

theorem State.egFill_dyn (i : Nat) : (s.egFill i).2.dyn = s.dyn := by
  unfold State.egFill
  split
  · split
    · rfl
    · dsimp only
      split <;> rfl
  · rfl

theorem State.dynFills_dyn : s.dynFills.dyn = s.dyn :=
  List.foldlRecOn (motive := fun t : State => t.dyn = s.dyn) _ _ rfl fun t ht i _ => by
    dsimp only
    split_ifs
    · exact ht
    · exact ht
    · exact (State.egFill_dyn _ i).trans ht
    · exact ht

/-- An emitted command starts no solve. -/
theorem State.dynEmit_solve (head : List Byte) (v : DynVals) : (s.dynEmit head v).dyn.solve = s.dyn.solve := by
  have hwords (b : List Byte) : ((List.range 136).foldl (fun (t : State) w => t.wr (F.DYN_CMD_DATA w) (field b (8 * w) 8)) s).dyn = s.dyn :=
    List.foldlRecOn (motive := fun t : State => t.dyn = s.dyn) _ _ rfl fun t ht w _ => ht
  unfold State.dynEmit
  dsimp only
  rw [State.dynFills_dyn]
  split
  · rw [State.setDyn_dyn_self, hwords]
  · rw [State.busPut_dyn, State.setDyn_dyn_self, hwords]

theorem State.dynReport_dyn (status worst : Nat) (head : List Byte) : (s.dynReport status worst head).dyn = s.dyn := by
  unfold State.dynReport
  dsimp only
  split <;> simp

theorem State.dynStatus_dyn (h : DynHead) (z : DynSnap) (stage : Nat) (tent : Bool) : (s.dynStatus h z stage tent).dyn = s.dyn := by
  unfold State.dynStatus
  extract_lets st counted
  have hcounted : counted.dyn = s.dyn := by
    unfold counted
    split_ifs <;> rfl
  split
  · exact hcounted
  · exact (State.dynReport_dyn _ _ _ _).trans hcounted

/-- A cycle's end without a new command starts no solve. -/
theorem State.dynReuse_solve (h : DynHead) (z : DynSnap) : (s.dynReuse h z).dyn.solve = s.dyn.solve := by
  unfold State.dynReuse
  split
  · rfl
  · split
    · rfl
    · dsimp only
      split
      · rw [State.dynReport_dyn, State.bump_dyn, State.wr_dyn, State.dynEmit_solve, State.bump_dyn, State.setDyn_dyn_self]
      · rw [State.dynEmit_solve, State.bump_dyn, State.setDyn_dyn_self]

theorem State.dynMissed_solve : s.dynMissed.dyn.solve = none := by
  unfold State.dynMissed
  split
  · dsimp only
    rw [State.dynReuse_solve, State.dynStatus_dyn, State.setDyn_dyn_self]
  · rw [State.setDyn_dyn_self]

theorem State.dynDeadline_of_solve (hsolve : s.dyn.solve.isSome = true) (hdeadline : s.rd F.DYN_PERIOD_DEADLINE_US ≠ 0) :
    s.dynDeadline = s.dynMissed := by
  rw [State.dynDeadline, hsolve, decide_eq_true hdeadline]
  rfl

theorem State.solve_none_ite {c : Prop} [Decidable c] {a b : State} (ha : c → a.dyn.solve = none) (hb : ¬ c → b.dyn.solve = none) :
    (if c then a else b).dyn.solve = none := by
  split
  · exact ha ‹_›
  · exact hb ‹_›

/-- The solver's end, with whatever status, leaves no solve in progress. -/
theorem State.dynSolveDone_solve (hsolve : s.dyn.solve.isSome = true) (hmodel : s.dyn.model.isSome = true) :
    s.dynSolveDone.dyn.solve = none := by
  unfold State.dynSolveDone
  split
  next z m _ _ =>
    split
    split
    extract_lets record ended
    have hended : ended.dyn.solve = none := congrArg DynSt.solve (State.setDyn_dyn_self _ _)
    have hstatus (h : DynHead) (stage : Nat) (tent : Bool) : (ended.dynStatus h z stage tent).dyn.solve = none :=
      (congrArg DynSt.solve (State.dynStatus_dyn _ _ _ _ _)).trans hended
    split
    · exact hstatus _ _ _
    · split
      · exact (State.dynReuse_solve _ _ _).trans (hstatus _ _ _)
      · dsimp only
        refine State.solve_none_ite (fun _ => ?_) fun _ => ?_
        · rw [State.dynReuse_solve, hstatus]
        · rw [State.dynEmit_solve, State.wr_dyn, State.setDyn_dyn_self, hstatus]
  next hnot =>
    obtain ⟨z, hz⟩ := Option.isSome_iff_exists.mp hsolve
    obtain ⟨m, hm⟩ := Option.isSome_iff_exists.mp hmodel
    exact absurd hm (hnot z m hz)

/-! ### The control word -/

/-- DYN_CTRL with the ENABLE and RUN of a word. -/
def State.dynCtrlSet (s : State) (w : Nat) : State := (s.wr F.DYN_CTRL_ENABLE (bits w 1 1)).wr F.DYN_CTRL_RUN (bits w 2 1)

theorem State.dynWrite_ctrl {r : Req} (d : WData) (hpresent : s.present dynUnit = true) (hmay : s.mayUse r dynUnit = true) :
    s.dynWrite r 0x8000 d =
      (let t := s.dynCtrlSet (d.over (s.reg R.DYN_CTRL))
       let t := if bit d.bits1 4 then t.dynReset else t
       let t := if bit d.bits1 3 ∧ 2 ≤ t.rd F.DYN_CFG_TRIGGER then t.dynTrigger else t
       if bit d.bits1 0 then t.wr F.DYN_CTRL_LOCK 1 else t) := by
  simp only [State.dynWrite, hpresent, hmay, Bool.not_true, Bool.false_eq_true, if_false, if_true, State.dynCtrlSet]
  rfl

/-- The control word is none of the unit's configuration. -/
theorem State.dynCtrlSet_trigger (w : Nat) : (s.dynCtrlSet w).rd F.DYN_CFG_TRIGGER = s.rd F.DYN_CFG_TRIGGER := by
  rw [State.dynCtrlSet, State.rd_wr_ne _ F.DYN_CTRL_RUN _ _ (by decide), State.rd_wr_ne _ F.DYN_CTRL_ENABLE _ _ (by decide)]

/-- The control word is no part of what shows the unit's state. -/
theorem State.dynCtrlSet_ustate (w : Nat) : (s.dynCtrlSet w).ustate dynUnit = s.ustate dynUnit := by
  have hbeside (t : State) (f : Fld) (v : Nat) (hf : f.reg = R.DYN_CTRL) : (t.wr f v).ustate dynUnit = t.ustate dynUnit := by
    refine t.ustate_wr f v dynUnit (by rw [hf]; decide) fun g hg => ?_
    obtain rfl : F.DYN_STATE_UNIT_STATE = g := Option.some.inj (stateFld_dyn.symm.trans hg)
    rw [hf]
    decide
  rw [State.dynCtrlSet, hbeside _ F.DYN_CTRL_RUN _ rfl, hbeside _ F.DYN_CTRL_ENABLE _ rfl]

theorem State.dynReset_of_free (hserving : s.ustate dynUnit = US.ready ∨ s.ustate dynUnit = US.busy)
    (hfree : s.epochFree dynUnit = true) : s.dynReset = s.dynEnter US.resetting := by
  unfold State.dynReset
  dsimp only
  rcases hserving with h | h <;> rw [h, hfree] <;> rfl

/-! ### The obligation -/

/-- Settles O19: jobs of the three kinds and their pauses are one lemma; triggers, solves and DYN_CTRL have one each. -/
theorem dynamicsComplete : Obligations.DynamicsComplete := by
  refine ⟨?_, ?_, ?_, ?_, ?_, ?_, ?_, ?_, ?_, fun m s hkind hop hdest hmodule horder hanswer hcfg hsrc =>
      execDynNotifyTrigger_of_event s hkind hop hdest hmodule horder hanswer hcfg hsrc,
    fun s hsolve hdeadline => ⟨_, rfl, s.dynDeadline_of_solve hsolve hdeadline,
      (congrArg (fun t : State => t.dyn.solve) (s.dynDeadline_of_solve hsolve hdeadline)).trans s.dynMissed_solve⟩,
    fun s hsolve hmodel => ⟨_, rfl, rfl, s.dynSolveDone_solve hsolve hmodel⟩,
    fun m s hpaused hidle hserving => congrArg Host.Outcome.next (s.dynResume_of_paused hpaused hidle hserving), ?_,
    fun s hreset => congrArg Host.Outcome.next (if_pos hreset)⟩
  case refine_7 =>
    intro r d s hpresent hmay hlock honce hreset
    refine congrArg Host.Outcome.next ((s.dynWrite_ctrl d hpresent hmay).trans ?_)
    simp only [hlock, honce, hreset, Bool.false_eq_true, false_and, if_false]
    rfl
  case refine_8 =>
    intro r d s hpresent hmay hlock hreset hcfg
    refine congrArg Host.Outcome.next ((s.dynWrite_ctrl _ hpresent hmay).trans ?_)
    simp only [hlock, hreset, show bit (d.withBit 3).bits1 3 = true from withBit_bit d 3, Bool.false_eq_true, if_false,
      State.dynCtrlSet_trigger, hcfg, and_self, if_true]
    rfl
  case refine_9 =>
    intro dm s hcfg hmodel hpresent hrun htasks hserving hidle
    exact congrArg Host.Outcome.next ((if_pos hcfg).trans (s.dynTrigger_of_idle hmodel hpresent hrun htasks hserving hidle))
  case refine_10 =>
    intro r d s hpresent hmay hmod hserving hfree
    have hbit (i : Nat) (hi : i < 5) : bit (d.withBit 4).bits1 i = bit 16 i := bit_of_mod (k := 5) hmod hi
    have hst : (s.dynCtrlSet ((d.withBit 4).over (s.reg R.DYN_CTRL))).ustate dynUnit = US.ready ∨
        (s.dynCtrlSet ((d.withBit 4).over (s.reg R.DYN_CTRL))).ustate dynUnit = US.busy := by
      rw [State.dynCtrlSet_ustate]
      simpa [State.serving] using hserving
    refine congrArg Host.Outcome.next ((s.dynWrite_ctrl _ hpresent hmay).trans ?_)
    simp only [show bit (d.withBit 4).bits1 0 = false from hbit 0 (by decide), show bit (d.withBit 4).bits1 3 = false from hbit 3 (by decide),
      show bit (d.withBit 4).bits1 4 = true from hbit 4 (by decide), Bool.false_eq_true, false_and, if_false, if_true]
    exact State.dynReset_of_free _ hst hfree
  all_goals exact fun m s hserving hidle hfree hnext hop =>
    congrArg Host.Outcome.next (s.dynJob_of_next _ hserving hidle hfree hnext hop)

end Sys2Proof.Machine
end

section
/-!
The mailbox sequencer (R347 to R358) and the general commands 0x00 to 0x08.
-/

namespace Sys2Proof.Machine

variable (s : State)

/-! ### A command that runs -/

/-- An accepted command that has not run acts once, from the state that marks it as run. -/
theorem State.mbRun_of_runs {m op : Nat} {e : MbExec} (act : State → List Byte → State) (hruns : s.MbRuns m e op) :
    s.mbRun m op act = s.mbMark m (act (s.begun m e) e.cmd) := by
  obtain ⟨hexec, hstatus, hran, hop⟩ := hruns
  rw [State.mbRun, hexec]
  simp [hstatus, hran, hop]

/-- A command whose meaning is known at the state it starts from ends in that meaning, marked. -/
theorem State.next_mbRun {m op : Nat} {e : MbExec} {act : State → List Byte → State} {t : State} (hruns : s.MbRuns m e op)
    (hact : act (s.begun m e) e.cmd = t) : (.next (s.mbRun m op act) : Out) = .next (s.mbMark m t) :=
  congrArg Host.Outcome.next ((s.mbRun_of_runs act hruns).trans (congrArg (s.mbMark m) hact))

/-! ### The sequencer's steps -/

theorem execMbxCommandStart_of_trusted {k : Nat} (hboot : s.boot.phase = 3) (hawake : s.modState ≠ stDeep) (hnext : s.mbNext = some k)
    (hk : k < 2) : exec .mbxCommandStart s = .next (s.mbTake k) := by
  have hopen : ¬ (s.boot.phase ≠ 3 ∨ s.modState = stDeep) := by simp [hboot, hawake]
  change Host.Outcome.next s.mbStart = _
  rw [State.mbStart, if_neg hopen, hnext]
  simp only [Nat.not_le.mpr hk, if_false]

/-- A command whose status is known waits for nothing more. -/
theorem State.mbPoll_of_status {m : Nat} {e : MbExec} {c : Nat} (hexec : s.mbExec m = some e) (hstatus : e.status = some c) :
    s.mbPoll m = s := by
  simp only [State.mbPoll, hexec, hstatus, Option.isSome_some, if_true]

theorem execMbxCommandComplete_of_status {m : Fin 16} {e : MbExec} {c : Nat} (hexec : s.mbExec m.val = some e)
    (hstatus : e.status = some c) : exec (.mbxCommandComplete m) s = .next (s.mbRespond m.val e c) := by
  change execMbxCommandComplete m s = _
  unfold execMbxCommandComplete
  rw [s.mbPoll_of_status hexec hstatus]
  simp only [hexec, hstatus]

/-- A command that still waits ends with TIMEOUT, at whatever time the event comes (log entry 107). -/
theorem execCmdTimeout_of_waiting {m : Fin 16} {e : MbExec} (hexec : s.mbExec m.val = some e) (hwaiting : e.status = none)
    (hran : e.ran = true) (hplain : ¬ (0x71 ≤ cmdOp e.cmd ∧ cmdOp e.cmd ≤ 0x77)) :
    exec (.cmdTimeout m) s = .next (s.mbEnd m.val St.timeout []) := by
  have himage : (decide (0x71 ≤ cmdOp e.cmd) && decide (cmdOp e.cmd ≤ 0x77)) = false := by
    rw [← Bool.decide_and]
    exact decide_eq_false hplain
  change execCmdTimeout m s = _
  simp only [execCmdTimeout, hexec, hwaiting, himage, hran, Option.isSome_none, Bool.false_and, Bool.or_true, Bool.false_eq_true, if_false,
    if_true]

/-- A report of the epoch the view has is not older than the view. -/
theorem ringOlder_self (a : Nat) : State.unitReport.ringOlder a a = false := by
  simp [State.unitReport.ringOlder]

/-! ### The obligations -/

/-- Settles O21: the sequencer's four steps, each by its lemma. -/
theorem mailboxSequencerComplete : Obligations.MailboxSequencerComplete := by
  refine ⟨fun k s hboot hawake hnext hk => execMbxCommandStart_of_trusted s hboot hawake hnext hk,
    fun m e c s hexec hstatus => execMbxCommandComplete_of_status s hexec hstatus,
    fun m e s hexec hwaiting hran hplain => execCmdTimeout_of_waiting s hexec hwaiting hran hplain, ?_⟩
  intro u st epoch part s hpresent hstate hepoch
  refine congrArg Host.Outcome.next (if_pos ⟨hpresent, hstate, ?_⟩)
  rw [hepoch]
  exact ringOlder_self _

/-- Settles O22: each command is `mbRun` at its opcode, and its meaning at the state it starts from is the one stated. -/
theorem generalCommandsComplete : Obligations.GeneralCommandsComplete := by
  refine ⟨fun m e s hruns => s.next_mbRun hruns rfl, fun m e s hruns => s.next_mbRun hruns rfl, ?_, ?_,
    fun m e s hruns => s.next_mbRun hruns rfl, fun m e s hruns hstate => s.next_mbRun hruns (if_pos hstate), ?_,
    fun m e s hruns => s.next_mbRun hruns rfl, ?_⟩
  · intro m e a s hruns hstate hreg
    refine s.next_mbRun hruns ?_
    simp only [hstate, if_true, hreg]
  · intro m e s hruns hquarantined hoff
    exact s.next_mbRun hruns (if_neg (not_or.mpr ⟨hquarantined, hoff⟩))
  · intro m e s1 s hruns hput
    refine s.next_mbRun hruns ?_
    simp only [hput, if_true]
  · intro m e dd s hruns hdd hwritable
    subst hdd
    refine s.next_mbRun hruns (if_neg ?_)
    rw [Bool.not_eq_true]
    exact hwritable

end Sys2Proof.Machine
end


section
/-!
The partition commands of the mailboxes (R359 to R367): each is `mbRun` at its opcode, and its meaning at the state it starts from
is the stated one.
-/

namespace Sys2Proof.Machine

variable (s : State)

/-- PART_SQUARE_SHARE with DISABLE: only a second context that runs with work in its queue keeps the square shared. -/
theorem execPartSquareShare_disable {m : Fin 16} {e : MbExec} (hruns : s.MbRuns m.val e 0x15) (hdisable : bit (cmdArg e.cmd 0) 16 = true)
    (hidle : (s.begun m.val e).secondRuns (cmdUnit e.cmd % 0x1000) = false ∨ ((s.begun m.val e).sqr (cmdUnit e.cmd % 0x1000)).txq = []) :
    exec (.partSquareShare m) s = .next (s.mbMark m.val (((s.begun m.val e).unshare (cmdUnit e.cmd % 0x1000)).mbEnd m.val St.ok [])) := by
  have hfree : ¬ ((s.begun m.val e).secondRuns (cmdUnit e.cmd % 0x1000) = true ∧
      ((s.begun m.val e).sqr (cmdUnit e.cmd % 0x1000)).txq ≠ []) := by
    rintro ⟨hruns, hwork⟩
    rcases hidle with hstill | hempty
    · rw [hstill] at hruns
      cases hruns
    · exact hwork hempty
  refine s.next_mbRun hruns ?_
  simp only [hdisable, if_true, if_neg hfree]

/-- PART_SQUARE_SHARE without DISABLE shares an owned, unshared square with a partition that is CONFIGURING or ACTIVE. -/
theorem execPartSquareShare_enable {m : Fin 16} {e : MbExec} (hruns : s.MbRuns m.val e 0x15) (henable : bit (cmdArg e.cmd 0) 16 = false)
    (howned : (s.begun m.val e).ownerOf (cmdUnit e.cmd) < 8) (hunshared : (s.begun m.val e).shared (cmdUnit e.cmd % 0x1000) = false)
    (hsecond : (s.begun m.val e).partSt (bits (cmdArg e.cmd 0) 0 3) = ptConfiguring ∨
      (s.begun m.val e).partSt (bits (cmdArg e.cmd 0) 0 3) = ptActive) :
    exec (.partSquareShare m) s = .next (s.mbMark m.val (((s.begun m.val e).shareSquare (cmdUnit e.cmd % 0x1000)
      (bits (cmdArg e.cmd 0) 0 3) (bits (cmdArg e.cmd 0) 4 6)).mbEnd m.val St.ok [])) := by
  refine s.next_mbRun hruns ?_
  simp only [henable, Bool.false_eq_true, if_false]
  exact if_pos ⟨howned, hunshared, hsecond⟩

/-- PART_WINDOWS writes the schedule registers from the arguments and the entries from the table it has read (its LOCK: log entry
97). -/
theorem execPartWindows_of_read {m : Fin 16} {e : MbExec} {d : List Byte} {bad : Bool} {s1 : State} (hruns : s.MbRuns m.val e 0x12)
    (hunlocked : (s.begun m.val e).on F.PART_CTRL_LOCK = false)
    (hread : (s.begun m.val e).busGet ((s.begun m.val e).mbMaster m.val) (cmdArg e.cmd 2)
      (8 * clampN 1 16 (bits (cmdArg e.cmd 0) 36 5)) = (St.ok, d, bad, s1)) :
    exec (.partWindows m) s = .next (s.mbMark m.val (((List.range (clampN 1 16 (bits (cmdArg e.cmd 0) 36 5))).foldl
      (fun a k => a.setReg (R.PART_WIN k) (field d (8 * k) 5))
      (((((s1.wr F.PART_SCHED_CTRL_ENABLE (bits (cmdArg e.cmd 0) 35 1)).wr F.PART_SCHED_CTRL_TB (bits (cmdArg e.cmd 0) 32 3)).wr
        F.PART_SCHED_CTRL_ENTRIES (bits (cmdArg e.cmd 0) 36 5)).wr F.PART_SCHED_CYCLE_CYCLE_NS (bits (cmdArg e.cmd 0) 0 32)).wr
        F.PART_SCHED_BASE_BASE (cmdArg e.cmd 1))).mbEnd m.val St.ok [])) := by
  refine s.next_mbRun hruns ?_
  simp only [hunlocked, hread, Bool.false_eq_true, ne_eq, not_true_eq_false, if_false]

/-- A settled reset that no mailbox waits for ends in CONFIGURING. -/
theorem State.partResetDone_of_settled {p : Nat} (hno : s.castle.restartAt = none) (hphase : s.safePhase ≠ phRestarting)
    (hresetting : s.partSt p = ptResetting) (hsettled : s.partSettled p = true) (halone : s.resetWaiter p = none) :
    s.partResetDone p = (s.wr (F.PART_STATE_STATE p) ptConfiguring).wr (F.PART_STATE_LAST_RESET_US p) 0 := by
  have hquiet : s.safeResets = s := if_neg fun hrestarting => hphase hrestarting.1
  simp only [State.partResetDone, hquiet, hresetting, hsettled, halone, hno, and_self, if_true, Option.getD_none, Nat.sub_self,
    Nat.zero_div, Nat.zero_min]

/-- Settles O23: each command by its meaning at the state it starts from; the reset's end by `partResetDone_of_settled`. -/
theorem partitionCommandsComplete : Obligations.PartitionCommandsComplete := by
  refine ⟨fun m e s hruns hfree => s.next_mbRun hruns (if_pos hfree), ?_,
    fun m e d bad s1 s hruns hunlocked hread => execPartWindows_of_read s hruns hunlocked hread,
    fun m e s hruns hfits => s.next_mbRun hruns (if_neg (Nat.not_lt.mpr hfits)), fun m e s hruns => s.next_mbRun hruns rfl,
    fun m e s hruns henable howned hunshared hsecond => execPartSquareShare_enable s hruns henable howned hunshared hsecond,
    fun m e s hruns hdisable hidle => execPartSquareShare_disable s hruns hdisable hidle,
    fun m e s hruns hconfiguring => s.next_mbRun hruns (if_pos hconfiguring),
    fun m e s hruns hused => s.next_mbRun hruns (if_neg hused), fun m e s hruns => s.next_mbRun hruns rfl,
    fun p s hno hphase hresetting hsettled halone =>
      congrArg Host.Outcome.next (s.partResetDone_of_settled hno hphase hresetting hsettled halone), ?_⟩
  · intro m e l s hruns hstate hnamed
    subst hnamed
    refine s.next_mbRun hruns (if_neg ?_)
    rintro ⟨hunconfigured, hinactive⟩
    exact hstate.elim hunconfigured hinactive
  · intro s hruns
    exact congrArg Host.Outcome.next (if_pos (Bool.or_eq_true _ _ ▸ hruns))

end Sys2Proof.Machine
end


section
/-!
The program, job, memory and key-value commands of the mailboxes (0x20 to 0x33).
-/

namespace Sys2Proof.Machine

variable (s : State)

/-- On a square that is not time-shared the current context is the one acted on. -/
theorem State.onCtx_of_unshared {n : Nat} (part : Option Nat) (act : State → State) (hunshared : s.shared n = false) :
    s.onCtx n part act = act s := by
  simp only [State.onCtx, hunshared, Bool.false_and, Bool.false_eq_true, if_false]

/-- SQ_LOAD into a READY square with no load open and no epoch held: the image copied, its CRC checked, LOAD and START. -/
theorem execSqLoad_of_ready {m : Fin 16} {e : MbExec} {d : List Byte} {s1 : State} (hruns : s.MbRuns m.val e 0x20)
    (hunshared : (s.begun m.val e).shared (cmdUnit e.cmd % 0x1000) = false)
    (hready : (s.begun m.val e).ustate (sqUnit (cmdUnit e.cmd % 0x1000)) = US.ready)
    (hclosed : ((s.begun m.val e).sqr (cmdUnit e.cmd % 0x1000)).loading = none)
    (hepoch : (s.begun m.val e).epochHeld (sqUnit (cmdUnit e.cmd % 0x1000)) = false)
    (hrange : (s.begun m.val e).storeBadRange (cmdUnit e.cmd % 0x1000) (cmdArg e.cmd 2) (cmdArg e.cmd 1) = false)
    (hread : (s.begun m.val e).busGet ((s.begun m.val e).mbMaster m.val) (cmdArg e.cmd 0) (cmdArg e.cmd 1) = (St.ok, d, false, s1))
    (hcrc : crc32c d = cmdArg e.cmd 4 % 2 ^ 32) :
    exec (.sqLoad m) s = .next (s.mbMark m.val ((((s1.store (storeBase (cmdUnit e.cmd % 0x1000) + cmdArg e.cmd 2) d).wr
      (F.SQ_ENTRY_ENTRY (cmdUnit e.cmd % 0x1000)) (cmdArg e.cmd 3)).sqLoad (cmdUnit e.cmd % 0x1000)
        (bit (cmdArg e.cmd 4) 32)).endEpoch m.val (sqUnit (cmdUnit e.cmd % 0x1000)))) := by
  refine s.next_mbRun hruns ((State.onCtx_of_unshared _ _ _ hunshared).trans ?_)
  have hidle : US.ready ≠ US.busy := by decide
  simp only [State.mbSqLoad, hready, hidle, hclosed, hepoch, hrange, hread, hcrc, hunshared, ne_eq, not_true_eq_false, Bool.false_eq_true,
    Option.isSome_none, or_self, and_false, Bool.false_and, if_false]

/-- SQ_RUN acts on every square named where each of them would obey. -/
theorem execSqRun_of_runnable {m : Fin 16} {e : MbExec} (hruns : s.MbRuns m.val e 0x21)
    (hobey : (bitList (cmdArg e.cmd 0) 64).all (fun n => (s.begun m.val e).runnable n (bit (cmdArg e.cmd 1) 0)) = true) :
    exec (.sqRun m) s = .next (s.mbMark m.val (((bitList (cmdArg e.cmd 0) 64).foldl
      (fun a n => if bit (cmdArg e.cmd 1) 0 then a.sqHalt n else a.sqStart n) (s.begun m.val e)).mbEnd m.val St.ok [cmdArg e.cmd 0])) :=
  s.next_mbRun hruns (if_pos hobey)

/-- PL_LOAD on a plane that serves with no load open and none waiting opens one with the range and the CRC (log entry 101). -/
theorem execPlLoad_of_closed {m : Fin 16} {e : MbExec} (hruns : s.MbRuns m.val e 0x22)
    (hserving : (s.begun m.val e).serving (planeUnit (cmdUnit e.cmd % 0x1000)) = true)
    (hloading : (s.begun m.val e).shell (cmdUnit e.cmd % 0x1000) ≠ shLoading)
    (hchecking : (s.begun m.val e).shell (cmdUnit e.cmd % 0x1000) ≠ shChecking)
    (hwait : ((s.begun m.val e).plane (cmdUnit e.cmd % 0x1000)).openWait = false) :
    exec (.plLoad m) s = .next (s.mbMark m.val ((((((((s.begun m.val e).wr (F.PL_LOAD_EXPECT_CRC (cmdUnit e.cmd % 0x1000))
      (cmdArg e.cmd 2)).wr (F.PL_LOAD_COL_FIRST (cmdUnit e.cmd % 0x1000)) (bits (cmdArg e.cmd 1) 0 10)).wr
        (F.PL_LOAD_COL_COUNT (cmdUnit e.cmd % 0x1000)) (bits (cmdArg e.cmd 1) 10 11))).plOpen (cmdUnit e.cmd % 0x1000)).mbWait m.val
        [waitLoad, (cmdUnit e.cmd % 0x1000), 0]).mbPlane m.val (cmdUnit e.cmd % 0x1000) e.cmd 0)) := by
  refine s.next_mbRun hruns ?_
  simp only [hserving, hloading, hchecking, hwait, Bool.true_eq_false, Bool.false_eq_true, or_self, if_false]

/-- JOB_SEND sends the job it has read as a non-posted SEND whose tag is the mailbox (log entry 100). -/
theorem execJobSend_of_read {m : Fin 16} {e : MbExec} {d : List Byte} {bad : Bool} {s1 : State} (hruns : s.MbRuns m.val e 0x23)
    (hread : (s.begun m.val e).busGet ((s.begun m.val e).mbMaster m.val) (cmdArg e.cmd 0) 64 = (St.ok, d, bad, s1)) :
    exec (.jobSend m) s = .next (s.mbMark m.val ((s1.mbWait m.val [waitAck]).send ⟨cmdUnit e.cmd, s1.moduleNo, bad, 0xF000, s1.moduleNo, 3,
      cmdArg e.cmd 1, 0, 1, m.val, s1.epochOf 0xF000, (s1.mbOwn m.val).getD 0, 0, 0, 0, d⟩)) := by
  refine s.next_mbRun hruns ?_
  simp only [hread, ne_eq, not_true_eq_false, if_false]

/-- KV_OP performs an operation from 2 to 8 whose fields pass, on an engine that serves with the cache enabled. -/
theorem execKvOp_of_fields {m : Fin 16} {e : MbExec} (hruns : s.MbRuns m.val e 0x32)
    (hserving : (s.begun m.val e).serving (cmdUnit e.cmd) = true) (hon : (s.begun m.val e).kvOn = true)
    (hlow : 2 ≤ ((s.begun m.val e).mbKvJob m.val e.cmd).op) (hhigh : ((s.begun m.val e).mbKvJob m.val e.cmd).op ≤ 8)
    (hfields : (s.begun m.val e).kvFieldsOk ((s.begun m.val e).mbKvJob m.val e.cmd) = true) :
    exec (.kvOp m) s = .next (s.mbMark m.val ((s.begun m.val e).mbKv m.val ((s.begun m.val e).mbKvJob m.val e.cmd)
      ((s.begun m.val e).kvOp ((s.begun m.val e).mbKvJob m.val e.cmd) none))) := by
  refine s.next_mbRun hruns ?_
  simp only [hserving, hon, hfields, Nat.not_lt.mpr hlow, Nat.not_lt.mpr hhigh, Bool.true_eq_false, or_self, if_false]

/-- MEM_COPY with two descriptors that read and check well moves the bursts of the transfer (log entry 106). -/
theorem execMemCopy_of_checked {m : Fin 16} {ext : List (Fin 13 × List Byte × Bool)} {e : MbExec} {src dst : Nat × TDesc × State}
    (hruns : s.MbRuns m.val e 0x30) (hsrc : (s.begun m.val e).readDesc m.val (cmdArg e.cmd 0) = src) (hsrcOk : src.1 = St.ok)
    (hdst : src.2.2.readDesc m.val (cmdArg e.cmd 1) = dst) (hdstOk : dst.1 = St.ok)
    (hcheck : dst.2.2.xferCheck (dst.2.2.mbMaster m.val) ⟨dst.2.1, src.2.1, 0, 0, []⟩ true true = St.ok) :
    exec (.memCopy m ext) s = .next (s.mbMark m.val (dst.2.2.moverRun m.val
      (dst.2.2.xferOf ⟨dst.2.1, src.2.1, 0, 0, []⟩).todo ext)) := by
  refine s.next_mbRun hruns ?_
  simp only [hsrc, hsrcOk, hdst, hdstOk, hcheck, ne_eq, not_true_eq_false, if_false]

/-- MEM_FILL with a descriptor that reads and checks well moves the bursts of its elements and padding (log entry 106). -/
theorem execMemFill_of_checked {m : Fin 16} {ext : List (Fin 13 × List Byte × Bool)} {e : MbExec} {d : Nat × TDesc × State}
    (hruns : s.MbRuns m.val e 0x31) (hdesc : (s.begun m.val e).readDesc m.val (cmdArg e.cmd 0) = d) (hdescOk : d.1 = St.ok)
    (hcheck : d.2.2.xferCheck (d.2.2.mbMaster m.val) ⟨d.2.1, d.2.1, 0, 0, []⟩ true true = St.ok) :
    exec (.memFill m ext) s = .next (s.mbMark m.val (d.2.2.moverRun m.val (((List.range d.2.1.rows).flatMap (fun r =>
      (List.range (d.2.1.dim 0)).map (fun i => (⟨d.2.1.elem r i, none, cmdArg e.cmd 1 % 16 ^ d.2.1.nib, d.2.1.nib⟩ : Mv))) ++
        mvPad d.2.1).map (d.2.2.fillBurst d.2.1)) ext)) := by
  refine s.next_mbRun hruns ?_
  simp only [hdesc, hdescOk, hcheck, ne_eq, not_true_eq_false, if_false]

/-- Settles O24: each command by its lemma. -/
theorem programCommandsComplete : Obligations.ProgramCommandsComplete := by
  refine ⟨fun m e d s1 s hruns hunshared hready hclosed hepoch hrange hread hcrc =>
      execSqLoad_of_ready s hruns hunshared hready hclosed hepoch hrange hread hcrc, ?_, ?_,
    fun m e s hruns hserving hloading hchecking hwait => execPlLoad_of_closed s hruns hserving hloading hchecking hwait,
    fun m e d bad s1 s hruns hread => execJobSend_of_read s hruns hread, ?_, ?_,
    fun m e s hruns hserving hon hlow hhigh hfields => execKvOp_of_fields s hruns hserving hon hlow hhigh hfields,
    fun m e s hruns => s.next_mbRun hruns rfl⟩
  · intro m e s hruns hstart hobey
    simpa only [hstart, Bool.false_eq_true, if_false] using execSqRun_of_runnable s hruns (hstart.symm ▸ hobey)
  · intro m e s hruns hhalt hobey
    simpa only [hhalt, if_true] using execSqRun_of_runnable s hruns (hhalt.symm ▸ hobey)
  · intro m ext e s hruns hsrcOk hdstOk hcheck
    generalize hsrc : (s.begun m.val e).readDesc m.val (cmdArg e.cmd 0) = src at *
    generalize hdst : src.2.2.readDesc m.val (cmdArg e.cmd 1) = dst at *
    exact execMemCopy_of_checked s hruns hsrc hsrcOk hdst hdstOk hcheck
  · intro m ext e s hruns hdescOk hcheck
    generalize hdesc : (s.begun m.val e).readDesc m.val (cmdArg e.cmd 0) = d at *
    exact execMemFill_of_checked s hruns hdesc hdescOk hcheck

end Sys2Proof.Machine
end


section
/-!
The time and ingest commands of the mailboxes (0x40 to 0x52).
-/

namespace Sys2Proof.Machine

variable (s : State)

/-- TIME_ADJUST with SET_RATE alone writes the rate. -/
theorem execTimeAdjust_rate {m : Fin 16} {e : MbExec} (hruns : s.MbRuns m.val e 0x42)
    (hfree : (s.begun m.val e).tbFree (cmdArg e.cmd 0) = true) (hrate : bit (cmdArg e.cmd 1) 32 = true)
    (hslew : bit (cmdArg e.cmd 2) 32 = false) :
    exec (.timeAdjust m) s = .next (s.mbMark m.val (((s.begun m.val e).mbSet m.val (R.TB_RATE (cmdArg e.cmd 0))
      (cmdArg e.cmd 1 % 2 ^ 32)).mbEnd m.val St.ok [])) := by
  refine s.next_mbRun hruns ?_
  simp only [hfree, hrate, hslew, Bool.false_eq_true, if_true, if_false]

/-- TIME_ADJUST with SLEW alone writes the slew. -/
theorem execTimeAdjust_slew {m : Fin 16} {e : MbExec} (hruns : s.MbRuns m.val e 0x42)
    (hfree : (s.begun m.val e).tbFree (cmdArg e.cmd 0) = true) (hrate : bit (cmdArg e.cmd 1) 32 = false)
    (hslew : bit (cmdArg e.cmd 2) 32 = true) :
    exec (.timeAdjust m) s = .next (s.mbMark m.val (((s.begun m.val e).mbSet m.val (R.TB_ADJ (cmdArg e.cmd 0))
      (cmdArg e.cmd 2 % 2 ^ 32)).mbEnd m.val St.ok [])) := by
  refine s.next_mbRun hruns ?_
  simp only [hfree, hrate, hslew, Bool.false_eq_true, if_true, if_false]

/-- PE_ARM on an event that is not armed (its control word's bit 0: log entry 120). -/
theorem execPeArm_of_disarmed {m : Fin 16} {e : MbExec} (hruns : s.MbRuns m.val e 0x43)
    (hdisarmed : (s.begun m.val e).on (F.PE_CTRL_ARM (cmdArg e.cmd 0)) = false) :
    exec (.peArm m) s = .next (s.mbMark m.val ((((((s.begun m.val e).mbSet m.val (R.PE_TARGET (cmdArg e.cmd 0)) (cmdArg e.cmd 2)).mbSet
      m.val (R.PE_PERIOD (cmdArg e.cmd 0)) (cmdArg e.cmd 3)).mbSet m.val (R.PE_AUX (cmdArg e.cmd 0)) (cmdArg e.cmd 4)).mbSet m.val
      (R.PE_CTRL (cmdArg e.cmd 0)) (cmdArg e.cmd 1 ||| 1)).mbEnd m.val St.ok [])) := by
  refine s.next_mbRun hruns ?_
  simp only [hdisarmed, Bool.false_eq_true, if_false]

/-- Settles O25: each command by its meaning at the state it starts from. -/
theorem timeAndIngestCommandsComplete : Obligations.TimeAndIngestCommandsComplete := by
  refine ⟨?_, fun m e s hruns hfree => s.next_mbRun hruns (if_pos hfree),
    fun m e s hruns hfree hrate hslew => execTimeAdjust_rate s hruns hfree hrate hslew,
    fun m e s hruns hfree hrate hslew => execTimeAdjust_slew s hruns hfree hrate hslew,
    fun m e s hruns hdisarmed => execPeArm_of_disarmed s hruns hdisarmed, ?_, fun m e s hruns => s.next_mbRun hruns rfl,
    fun m e s hruns => s.next_mbRun hruns rfl, fun m e s hruns => s.next_mbRun hruns rfl, fun m e s hruns => s.next_mbRun hruns rfl⟩
  · intro m e sec s1 s hruns hread
    refine s.next_mbRun hruns ?_
    simp only [hread]
  · intro m e s hruns harmed
    refine s.next_mbRun hruns ?_
    simp only [harmed, if_true]

end Sys2Proof.Machine
end


section
/-!
The power and image commands of the mailboxes (0x60 to 0x63, 0x70 to 0x77).
-/

namespace Sys2Proof.Machine

variable (s : State)

/-! ### Power -/

/-- POWER_STATE naming the state the module is in completes at once. -/
theorem State.mbPower_same {m : Nat} (hsafe : s.modState ≠ stSafe) (hsteady : s.on F.MODULE_STATE_IN_TRANSITION = false) :
    s.mbPower m s.modState = s.mbEnd m St.ok [] := by
  simp only [State.mbPower, hsafe, hsteady, Bool.false_eq_true, or_self, if_false, if_true]

/-- POWER_STATE in RUN naming another state starts the entry and waits for its end. -/
theorem State.mbPower_entry {m t : Nat} (hrun : s.modState = stRun) (hsteady : s.on F.MODULE_STATE_IN_TRANSITION = false)
    (hother : t ≠ stRun) : s.mbPower m t = (s.entryStart t m).mbWait m [waitPower] := by
  have hsafe : stRun ≠ stSafe := by decide
  simp only [State.mbPower, hrun, hsteady, hsafe, hother, Bool.false_eq_true, or_self, true_or, if_false, if_true]

/-- A unit that serves is neither QUARANTINED nor in a power state. -/
theorem State.serving_not {u : Nat} (hserving : s.serving u = true) :
    s.ustate u ≠ US.quarantined ∧ s.ustate u ≠ US.off ∧ s.ustate u ≠ US.retained := by
  have hstate : s.ustate u = US.ready ∨ s.ustate u = US.busy := by simpa [State.serving] using hserving
  rcases hstate with h | h <;> rw [h] <;> decide

/-- A unit in a state other than READY and BUSY does not serve. -/
theorem State.not_serving {u : Nat} (hstate : s.ustate u ≠ US.ready ∧ s.ustate u ≠ US.busy) : s.serving u = false := by
  simpa [State.serving] using hstate

/-- UNIT_POWER 0 on an OFF unit resets it. -/
theorem execUnitPower_off {m : Fin 16} {e : MbExec} (hruns : s.MbRuns m.val e 0x62) (hon : cmdArg e.cmd 0 = 0)
    (hoff : (s.begun m.val e).ustate (cmdUnit e.cmd) = US.off) :
    exec (.unitPower m) s = .next (s.mbMark m.val (((s.begun m.val e).unitGo (cmdUnit e.cmd) US.resetting).endState m.val
      (cmdUnit e.cmd))) := by
  have hidle : (s.begun m.val e).serving (cmdUnit e.cmd) = false := State.not_serving _ (by rw [hoff]; decide)
  refine s.next_mbRun hruns ?_
  simp only [hon, hoff, hidle]
  simp [US.off, US.quarantined, US.retained]

/-- UNIT_POWER 0 on a RETAINED unit returns it. -/
theorem execUnitPower_retained {m : Fin 16} {e : MbExec} (hruns : s.MbRuns m.val e 0x62) (hon : cmdArg e.cmd 0 = 0)
    (hretained : (s.begun m.val e).ustate (cmdUnit e.cmd) = US.retained) :
    exec (.unitPower m) s = .next (s.mbMark m.val (((s.begun m.val e).unitReturn (cmdUnit e.cmd)).endState m.val (cmdUnit e.cmd))) := by
  have hidle : (s.begun m.val e).serving (cmdUnit e.cmd) = false := State.not_serving _ (by rw [hretained]; decide)
  refine s.next_mbRun hruns ?_
  simp only [hon, hretained, hidle]
  simp [US.off, US.quarantined, US.retained]

/-- UNIT_POWER 1 on a unit that serves takes it to RETAINED. -/
theorem execUnitPower_retain {m : Fin 16} {e : MbExec} (hruns : s.MbRuns m.val e 0x62) (hretain : cmdArg e.cmd 0 = 1)
    (hserving : (s.begun m.val e).serving (cmdUnit e.cmd) = true) :
    exec (.unitPower m) s = .next (s.mbMark m.val (((s.begun m.val e).unitGo (cmdUnit e.cmd) US.retained).endState m.val
      (cmdUnit e.cmd))) := by
  obtain ⟨hquarantined, hoff, hretained⟩ := State.serving_not _ hserving
  refine s.next_mbRun hruns ?_
  simp [hretain, hserving, hquarantined, hoff, hretained]

/-- UNIT_POWER 2 on a unit that serves takes it to OFF. -/
theorem execUnitPower_switchOff {m : Fin 16} {e : MbExec} (hruns : s.MbRuns m.val e 0x62) (hswitch : cmdArg e.cmd 0 = 2)
    (hserving : (s.begun m.val e).serving (cmdUnit e.cmd) = true) :
    exec (.unitPower m) s = .next (s.mbMark m.val (((s.begun m.val e).unitGo (cmdUnit e.cmd) US.off).endState m.val
      (cmdUnit e.cmd))) := by
  obtain ⟨hquarantined, hoff, hretained⟩ := State.serving_not _ hserving
  refine s.next_mbRun hruns ?_
  simp [hswitch, hserving, hquarantined, hoff, hretained]

/-! ### Images -/

/-- IMG_READ_KEY of the user layer stores the value bytes of the record it finds. -/
theorem execImgReadKey_user {m : Fin 16} {e : MbExec} {q : ImgRecord} {s1 : State} (hruns : s.MbRuns m.val e 0x70)
    (huser : cmdArg e.cmd 0 / 2 ^ 16 = 1) (hfound : layerFind (s.begun m.val e).userLayer (cmdArg e.cmd 0 % 2 ^ 16) = some q)
    (hput : (s.begun m.val e).busPut ((s.begun m.val e).mbMaster m.val) (cmdArg e.cmd 1) q.val false = (St.ok, s1)) :
    exec (.imgReadKey m) s = .next (s.mbMark m.val (s1.mbEnd m.val St.ok [q.val.length + 1 * 2 ^ 16])) := by
  refine s.next_mbRun hruns ?_
  simp only [huser, hfound, hput, Nat.one_ne_zero, if_false, if_true, Option.map_some]

/-- IMG_READ_KEY of the user layer answers layer 3 for a key that has no record. -/
theorem execImgReadKey_missing {m : Fin 16} {e : MbExec} (hruns : s.MbRuns m.val e 0x70) (huser : cmdArg e.cmd 0 / 2 ^ 16 = 1)
    (hmissing : layerFind (s.begun m.val e).userLayer (cmdArg e.cmd 0 % 2 ^ 16) = none) :
    exec (.imgReadKey m) s = .next (s.mbMark m.val ((s.begun m.val e).mbEnd m.val St.ok [3 * 2 ^ 16])) := by
  refine s.next_mbRun hruns ?_
  simp only [huser, hmissing, Nat.one_ne_zero, if_false, if_true, Option.map_none]

/-- IMG_BEGIN opens the session and erases the bank that is not active. -/
theorem execImgBegin_of_closed {m : Fin 16} {e : MbExec} (hruns : s.MbRuns m.val e 0x71) (hclosed : (s.begun m.val e).session = false) :
    exec (.imgBegin m) s = .next (s.mbMark m.val ((((((s.begun m.val e).wr F.CFG_STATUS_SESSION 1).wr F.CFG_STATUS_SESSION_MB m.val).norErase
      (s.begun m.val e).otherBank).showBank (s.begun m.val e).otherBank false).mbEnd m.val St.ok [(s.begun m.val e).otherBank])) := by
  refine s.next_mbRun hruns ?_
  simp only [hclosed, Bool.false_eq_true, if_false]

/-- IMG_WRITE programs whole pages below the status sector from the DRAM it has read. -/
theorem execImgWrite_of_read {m : Fin 16} {e : MbExec} {d : List Byte} {s1 : State} (hruns : s.MbRuns m.val e 0x72)
    (hopen : (s.begun m.val e).session = true) (hbank : cmdArg e.cmd 0 + cmdArg e.cmd 2 ≤ bankStatusOff)
    (hdram : cmdArg e.cmd 1 + cmdArg e.cmd 2 ≤ (s.begun m.val e).dramEnd)
    (hread : (s.begun m.val e).busGet ((s.begun m.val e).mbMaster m.val) (cmdArg e.cmd 1) (cmdArg e.cmd 2) = (St.ok, d, false, s1)) :
    exec (.imgWrite m) s = .next (s.mbMark m.val ((s1.norProgram (s1.otherBank * bankSize + cmdArg e.cmd 0) d).mbEnd m.val St.ok
      [cmdArg e.cmd 2])) := by
  refine s.next_mbRun hruns ?_
  simp only [hopen, Nat.not_lt.mpr hbank, Nat.not_lt.mpr hdram, hread, ne_eq, not_true_eq_false, Bool.true_eq_false, Bool.false_eq_true,
    if_false]

/-- IMG_ACTIVATE puts a VERIFIED bank that is not rejected into TRIAL, and the session ends. -/
theorem execImgActivate_of_verified {m : Fin 16} {e : MbExec} (hruns : s.MbRuns m.val e 0x74) (hopen : (s.begun m.val e).session = true)
    (hverified : (s.begun m.val e).bankIs (s.begun m.val e).otherBank stVerified = true)
    (hkept : (s.begun m.val e).bankIs (s.begun m.val e).otherBank stRejected = false) :
    exec (.imgActivate m) s = .next (s.mbMark m.val ((((s.begun m.val e).programStatus (s.begun m.val e).otherBank stTrial).wr
      F.CFG_STATUS_SESSION 0).mbEnd m.val St.ok [])) := by
  refine s.next_mbRun hruns ?_
  simp only [hopen, hverified, hkept, Bool.true_eq_false, Bool.false_eq_true, or_self, if_false]

/-- IMG_CONFIRM confirms a running bank in trial; without RAISE_FLOOR the floor stands. -/
theorem execImgConfirm_of_trial {m : Fin 16} {e : MbExec} (hruns : s.MbRuns m.val e 0x75)
    (himage : (s.begun m.val e).on F.CFG_STATUS_NO_IMAGE = false) (htrial : (s.begun m.val e).on F.CFG_STATUS_TRIAL = true)
    (hfloor : bit (cmdArg e.cmd 0) 0 = false) :
    exec (.imgConfirm m) s = .next (s.mbMark m.val ((((s.begun m.val e).programStatus (s.begun m.val e).activeBank stConfirmed).wr
      F.CFG_STATUS_TRIAL 0).mbEnd m.val St.ok [(((s.begun m.val e).programStatus (s.begun m.val e).activeBank stConfirmed).wr
      F.CFG_STATUS_TRIAL 0).rd F.CFG_OTP_FLOOR])) := by
  refine s.next_mbRun hruns ?_
  simp only [himage, htrial, hfloor, Bool.false_eq_true, if_true, if_false]

/-- IMG_REVOKE_KEY revokes a key while another programmed one stays, and no image runs on it. -/
theorem execImgRevokeKey_of_left {m : Fin 16} {e : MbExec} (hruns : s.MbRuns m.val e 0x77)
    (hleft : (s.begun m.val e).rd F.CFG_OTP_KEY_PROGRAMMED &&&
      (15 ^^^ setBit ((s.begun m.val e).rd F.CFG_OTP_KEY_REVOKED) (cmdArg e.cmd 0) true) ≠ 0)
    (hnoImage : (s.begun m.val e).on F.CFG_STATUS_NO_IMAGE = true) :
    exec (.imgRevokeKey m) s = .next (s.mbMark m.val (((s.begun m.val e).wr F.CFG_OTP_KEY_REVOKED
      (setBit ((s.begun m.val e).rd F.CFG_OTP_KEY_REVOKED) (cmdArg e.cmd 0) true)).mbEnd m.val St.ok [])) := by
  refine s.next_mbRun hruns ?_
  simp only [hleft, hnoImage, Bool.true_eq_false, false_and, or_self, if_false]

/-- Settles O26: each command by its lemma, or by its meaning at the state it starts from. -/
theorem powerAndImageCommandsComplete : Obligations.PowerAndImageCommandsComplete := by
  refine ⟨?_, fun m e s hruns hrun hsteady hother => s.next_mbRun hruns (State.mbPower_entry _ hrun hsteady hother), ?_,
    fun m e s hruns hon hoff => execUnitPower_off s hruns hon hoff,
    fun m e s hruns hon hretained => execUnitPower_retained s hruns hon hretained,
    fun m e s hruns hretain hserving => execUnitPower_retain s hruns hretain hserving,
    fun m e s hruns hswitch hserving => execUnitPower_switchOff s hruns hswitch hserving,
    fun m e s hruns => s.next_mbRun hruns rfl,
    fun m e q s1 s hruns huser hfound hput => execImgReadKey_user s hruns huser hfound hput,
    fun m e s hruns huser hmissing => execImgReadKey_missing s hruns huser hmissing,
    fun m e s hruns hclosed => execImgBegin_of_closed s hruns hclosed,
    fun m e d s1 s hruns hopen hbank hdram hread => execImgWrite_of_read s hruns hopen hbank hdram hread, ?_,
    fun m e s hruns hopen hverified hkept => execImgActivate_of_verified s hruns hopen hverified hkept,
    fun m e s hruns himage htrial hfloor => execImgConfirm_of_trial s hruns himage htrial hfloor, ?_,
    fun m e s hruns hleft hnoImage => execImgRevokeKey_of_left s hruns hleft hnoImage⟩
  · intro m e s hruns hsafe hsteady hsame
    exact s.next_mbRun hruns (hsame ▸ State.mbPower_same _ hsafe hsteady)
  · intro m e s hruns hunlocked
    exact s.next_mbRun hruns (if_neg (hunlocked.symm ▸ Bool.false_ne_true))
  · intro m e s hruns hopen
    refine s.next_mbRun hruns (if_neg ?_)
    rw [hopen]
    exact Bool.true_eq_false_eq_False
  · intro m e s hruns hopen
    refine s.next_mbRun hruns (if_neg ?_)
    rw [hopen]
    exact Bool.true_eq_false_eq_False

end Sys2Proof.Machine
end


section
/-!
The safety, rest and link commands of the mailboxes (0x80, 0x81, 0x90, 0x91, 0xA0 to 0xA2).
-/

namespace Sys2Proof.Machine

variable (s : State)

/-- REST_REQUEST on a unit with rests enabled writes REQUEST, and FORCE where it is asked, and waits for the rest. -/
theorem execRestRequest_of_enabled {m : Fin 16} {e : MbExec} (hruns : s.MbRuns m.val e 0x90)
    (henabled : (s.begun m.val e).restEnabled (cmdUnit e.cmd) = true) :
    exec (.restRequest m) s = .next (s.mbMark m.val ((if bit (cmdArg e.cmd 0) 0 then
      ((s.begun m.val e).restWrite .castle (restUnit (cmdUnit e.cmd)) 1).restWrite .castle (restUnit (cmdUnit e.cmd)) 2
      else (s.begun m.val e).restWrite .castle (restUnit (cmdUnit e.cmd)) 1).mbWait m.val
        [waitRest, cmdUnit e.cmd, ((s.begun m.val e).restCounts (cmdUnit e.cmd)).1, ((s.begun m.val e).restCounts (cmdUnit e.cmd)).2])) := by
  refine s.next_mbRun hruns ?_
  simp only [henabled, Bool.true_eq_false, if_false]

/-- Settles O27: each command by its meaning at the state it starts from; REST_REQUEST by `execRestRequest_of_enabled`. -/
theorem safetyAndLinkCommandsComplete : Obligations.SafetyAndLinkCommandsComplete := by
  refine ⟨fun m e s hruns hsafe => s.next_mbRun hruns (if_neg hsafe), fun m e s hruns => s.next_mbRun hruns rfl, ?_, ?_,
    fun m e s hruns => s.next_mbRun hruns rfl, fun m e s hruns => s.next_mbRun hruns rfl, fun m e s hruns => s.next_mbRun hruns rfl,
    fun m e s hruns => s.next_mbRun hruns rfl⟩
  · intro m e s hruns henabled hplain
    simpa only [hplain, Bool.false_eq_true, if_false] using execRestRequest_of_enabled s hruns henabled
  · intro m e s hruns henabled hforce
    simpa only [hforce, if_true] using execRestRequest_of_enabled s hruns henabled

end Sys2Proof.Machine
end


section
/-!
Castle supervision (R381 to R395): messages delivered by address, verdicts, stage clocks, task supervisors and the frozen-input
detectors.
-/

namespace Sys2Proof.Machine

variable (s : State) (m : Msg)

/-! ### Messages to the castle, by the unit they name -/

/-- The units of the castle that take messages: the inbox, the stage clocks, the supervisors and the comparison points. -/
theorem castleUnit_iff (d : Nat) : castleUnit d = true ↔
    d = 0xA000 ∨ (0xA100 ≤ d ∧ d < 0xA180) ∨ (0xA200 ≤ d ∧ d < 0xA240) ∨ (0xA400 ≤ d ∧ d < 0xA420) := by
  simp [castleUnit]

/-- A message of class 1 or 3 passes the class check. -/
theorem cls_passes {m : Msg} (hcls : m.cls = 1 ∨ m.cls = 3) : ¬ (m.cls ≠ 1 ∧ m.cls ≠ 3) :=
  fun hbad => hcls.elim hbad.1 hbad.2

/-- A message at the inbox enters it, its payload cut to 48 bytes, while there is room. -/
theorem State.castleDeliver_inbox (hdest : m.dest = 0xA000) (hcls : m.cls = 1 ∨ m.cls = 3) (hplain : isPlaneReport m = false)
    (hroom : s.castle.inbox.length < 256) :
    s.castleDeliver m = (({ s with net := s.net.erase m, castle := { s.castle with inbox := s.castle.inbox ++ [{ m with payload := m.payload.take 48 }] } } : State).wr F.CASTLE_INBOX_FILL (s.castle.inbox.length + 1)).ack m := by
  have hunit : castleUnit 0xA000 = true := by decide
  simp only [State.castleDeliver, State.takeMsg, hdest, hunit, if_neg (cls_passes hcls), hplain, hroom, Bool.not_true, Bool.false_eq_true,
    if_false, if_true, List.length_append, List.length_singleton]

/-- A message at a stage clock from its source is a kick, with a token where it carries one. -/
theorem State.castleDeliver_kick (hlow : 0xA100 ≤ m.dest) (hhigh : m.dest < 0xA180) (hcls : m.cls = 1 ∨ m.cls = 3)
    (hplain : isPlaneReport m = false) (hsource : srcOk (s.rd (F.SC_CFG_SOURCE_UNIT (m.dest - 0xA100))) m.src = true) :
    s.castleDeliver m =
      ((s.takeMsg m).scKick (m.dest - 0xA100) (if m.op = 1 then some (field m.payload 0 2) else none)).ack m := by
  have hunit : castleUnit m.dest = true := (castleUnit_iff _).mpr (.inr (.inl ⟨hlow, hhigh⟩))
  have hinbox : m.dest ≠ 0xA000 := by omega
  have hclock : m.dest < 0xA200 := by omega
  have htaken : srcOk ((s.takeMsg m).rd (F.SC_CFG_SOURCE_UNIT (m.dest - 0xA100))) m.src = true := hsource
  simp only [State.castleDeliver, hunit, if_neg (cls_passes hcls), hplain, hinbox, hclock, htaken, Bool.not_true, Bool.false_eq_true,
    if_false, if_true]

/-- A message at a supervisor from its source is a mark: the activation of opcode 4, or the mark it names. -/
theorem State.castleDeliver_mark (hlow : 0xA200 ≤ m.dest) (hhigh : m.dest < 0xA240) (hcls : m.cls = 1 ∨ m.cls = 3)
    (hplain : isPlaneReport m = false) (hsource : srcOk (s.rd (F.TS_CFG_SOURCE_UNIT (m.dest - 0xA200))) m.src = true) :
    s.castleDeliver m =
      ((s.takeMsg m).tsMark (m.dest - 0xA200) (if m.op = 4 then 1 else field m.payload 0 1)).ack m := by
  have hunit : castleUnit m.dest = true := (castleUnit_iff _).mpr (.inr (.inr (.inl ⟨hlow, hhigh⟩)))
  have hinbox : m.dest ≠ 0xA000 := by omega
  have hclock : ¬ m.dest < 0xA200 := by omega
  have hsupervisor : m.dest < 0xA400 := by omega
  have htaken : srcOk ((s.takeMsg m).rd (F.TS_CFG_SOURCE_UNIT (m.dest - 0xA200))) m.src = true := hsource
  simp only [State.castleDeliver, hunit, if_neg (cls_passes hcls), hplain, hinbox, hclock, hsupervisor, htaken, Bool.not_true,
    Bool.false_eq_true, if_false, if_true]

/-- A submission of 16 bytes or more at a comparison point is delivered to it. -/
theorem State.castleDeliver_submission (hlow : 0xA400 ≤ m.dest) (hhigh : m.dest < 0xA420) (hcls : m.cls = 1 ∨ m.cls = 3)
    (hplain : isPlaneReport m = false) (hop : m.op = 1) (hlong : 16 ≤ m.payload.length) :
    s.castleDeliver m = ((s.takeMsg m).cpSubmit (m.dest - 0xA400) m).ack m := by
  have hunit : castleUnit m.dest = true := (castleUnit_iff _).mpr (.inr (.inr (.inr ⟨hlow, hhigh⟩)))
  have hinbox : m.dest ≠ 0xA000 := by omega
  have hclock : ¬ m.dest < 0xA200 := by omega
  have hsupervisor : ¬ m.dest < 0xA400 := by omega
  simp only [State.castleDeliver, hunit, if_neg (cls_passes hcls), hplain, hinbox, hclock, hsupervisor, hop, hlong, Bool.not_true,
    Bool.false_eq_true, and_self, if_false, if_true]

/-! ### Clocks, supervisors, points and detectors -/

/-- A castle write that leaves ARM set arms the stage clock. -/
theorem execScArm_armed {n : Fin 128} {d : WData} (hlow : d.lowWritten = true)
    (harm : (s.writeReg (R.SC_CFG n.val) d).on (F.SC_CFG_ARM n.val) = true) :
    exec (.scArm .castle n d) s =
      .next (((s.writeReg (R.SC_CFG n.val) d).setSc n.val ⟨s.now, false⟩).wr (F.SC_STATUS_STATE n.val) 1) := by
  change execScArm .castle n d s = _
  simp only [execScArm, State.safeWrite, decide_true, hlow, if_true, State.scArm, harm, State.writeReg_now]

/-- A castle write of a supervisor's configuration clears FALLEN and arms it by ARM. -/
theorem execTsArm_low {t : Fin 64} {d : WData} (hlow : d.lowWritten = true) :
    exec (.tsArm .castle t d) s = .next (((s.writeReg (R.TS_CFG t.val) d).wr (F.TS_STATUS_FALLEN t.val) 0).wr (F.TS_STATUS_STATE t.val)
      (if ((s.writeReg (R.TS_CFG t.val) d).wr (F.TS_STATUS_FALLEN t.val) 0).on (F.TS_CFG_ARM t.val) then 1 else 0)) := by
  have harm : ((s.writeReg (R.TS_CFG t.val) d).wr (F.TS_STATUS_FALLEN t.val) 0).on (F.TS_CFG_ARM t.val) =
      (s.writeReg (R.TS_CFG t.val) d).on (F.TS_CFG_ARM t.val) := by
    have hbeside : R.TS_STATUS t.val ≠ R.TS_CFG t.val := by
      simp only [R.TS_STATUS, R.TS_CFG]
      omega
    rw [State.on, State.on, State.rd_wr_ne _ _ _ _ hbeside]
  change execTsArm .castle t d s = _
  simp only [execTsArm, State.safeWrite, decide_true, hlow, if_true, State.tsArm, harm]

/-- A kick written by one who may write it counts, with its token. -/
theorem execScKickWrite_allowed {r : Req} {n : Fin 128} {d : WData} (hmay : s.mayKick r (s.rd (F.SC_CFG_PARTITION n.val)) = true)
    (hlow : d.lowWritten = true) : exec (.scKickWrite r n d) s = .next (s.scKick n.val (some (bits d.bits1 0 16))) := by
  change execScKickWrite r n d s = _
  simp only [execScKickWrite, State.safeWrite, hmay, hlow, if_true]

/-- A mark written by one who may write it counts. -/
theorem execTsMarkWrite_allowed {r : Req} {t : Fin 64} {d : WData} (hmay : s.mayKick r (s.rd (F.TS_CFG_PARTITION t.val)) = true)
    (hlow : d.lowWritten = true) : exec (.tsMarkWrite r t d) s = .next (s.tsMark t.val (bits d.bits1 0 2)) := by
  change execTsMarkWrite r t d s = _
  simp only [execTsMarkWrite, State.safeWrite, hmay, hlow, if_true]

/-- A sample with fewer items missing than came ends the run of misses, and no detection follows. -/
theorem execFzSample_flowing {ix : Fin 32} (hfrozen : s.on (F.STREAM_STATUS_FROZEN ix.val) = true)
    (hflow : s.rd (F.STREAM_STATUS_MISSING_ITEMS ix.val) - (mget fz0 s.castle.fz ix.val).missing <
      (s.rd (F.IQ_COUNTS_ITEMS ix.val) + 2 ^ 32 - (mget fz0 s.castle.fz ix.val).items) % 2 ^ 32) :
    exec (.fzSample ix) s = .next (({ s with castle := { s.castle with fz := mset fz0 s.castle.fz ix.val ⟨s.rd (F.IQ_COUNTS_ITEMS ix.val), s.rd (F.STREAM_STATUS_MISSING_ITEMS ix.val)⟩ } } : State).wr (F.FZ_STATUS_MISS_RUN ix.val) 0) := by
  have hquiet : ¬ (s.rd (F.FZ_CFG_MISS_LIMIT ix.val) ≠ 0 ∧ s.rd (F.FZ_STATUS_MISS_RUN ix.val) < s.rd (F.FZ_CFG_MISS_LIMIT ix.val) ∧
      s.rd (F.FZ_CFG_MISS_LIMIT ix.val) ≤ 0) := by omega
  change execFzSample ix s = _
  simp only [execFzSample, hfrozen, hflow, if_true, if_neg hquiet]

/-- Settles O28: the deliveries, clocks, supervisors and detectors, each by its lemma. -/
theorem supervisionComplete : Obligations.SupervisionComplete := by
  refine ⟨?_, ?_, ?_, fun c s hready => congrArg Host.Outcome.next (if_pos hready), fun c s hready => congrArg Host.Outcome.next (if_pos hready),
    fun c f s _ => rfl, fun n d s hlow harm => execScArm_armed s hlow harm, ?_,
    fun r n d s hmay hlow => execScKickWrite_allowed s hmay hlow, fun n s hstate => congrArg Host.Outcome.next (if_pos (.inl hstate)),
    fun t d s hlow => execTsArm_low s hlow, ?_, fun r t d s hmay hlow => execTsMarkWrite_allowed s hmay hlow,
    fun t s hperiodic => congrArg Host.Outcome.next (if_pos hperiodic), ?_, ?_, ?_,
    fun ix s hfrozen hflow => execFzSample_flowing s hfrozen hflow⟩
  · intro m s hdest hcls hplain hroom
    rw [← s.castleDeliver_inbox m hdest hcls hplain hroom]
    exact congrArg Host.Outcome.next (if_pos ⟨by rw [hdest], .inl hdest⟩)
  · intro m s hlow hhigh hcls hplain hop hlong
    rw [← s.castleDeliver_submission m hlow hhigh hcls hplain hop hlong]
    exact congrArg Host.Outcome.next (if_pos ⟨hlow, hhigh⟩)
  · intro m s hreport hdest _
    exact congrArg Host.Outcome.next (if_pos ⟨hreport, (castleUnit_iff _).mpr (.inl hdest)⟩)
  · intro m s hlow hhigh hcls hplain hop hsource
    have hkick := s.castleDeliver_kick m hlow hhigh hcls hplain hsource
    rw [if_pos hop] at hkick
    rw [← hkick]
    exact congrArg Host.Outcome.next (if_pos ⟨hlow, hhigh⟩)
  · intro m s hlow hhigh hcls hplain hsource
    rw [← s.castleDeliver_mark m hlow hhigh hcls hplain hsource]
    exact congrArg Host.Outcome.next (if_pos ⟨hlow, hhigh⟩)
  · intro t s hstanding hstate hlimit
    change execTsLimitExpire t 1 s = _
    simp [execTsLimitExpire, hstanding, hstate, hlimit]
  · intro t s hstanding hstate hlimit
    change execTsLimitExpire t 2 s = _
    simp [execTsLimitExpire, hstanding, hstate, hlimit]
  · intro t s hstanding hstate hlimit
    change execTsLimitExpire t 3 s = _
    simp [execTsLimitExpire, hstanding, hstate, hlimit]

end Sys2Proof.Machine
end


section
/-!
The rotation of rests and self-tests, castle faults and the safe state (R396 to R405).
-/

namespace Sys2Proof.Machine

variable (s : State)

/-! ### The rotation -/

/-- The grace period of a requested rest ends: FORCE is set. -/
theorem execRestGraceExpire_waiting {u : Nat} (hwaits : s.rotWaits = some u) (hunforced : s.castle.rot.forced = false) :
    exec .restGraceExpire s = .next ((s.setRot { s.castle.rot with forced := true }).restWrite .castle (restUnit u) 2) := by
  change execRestGraceExpire s = _
  simp only [execRestGraceExpire, hwaits, hunforced, Bool.false_eq_true, if_false]

/-- The grace period of a forced rest ends: it is withdrawn and timed out. -/
theorem execForceGraceExpire_forced {u : Nat} (hwaits : s.rotWaits = some u) (hforced : s.castle.rot.forced = true) :
    exec .forceGraceExpire s = .next ((s.restWrite .castle (restUnit u) 0x100).rotTimeout u) := by
  change execForceGraceExpire s = _
  simp only [execForceGraceExpire, hwaits, hforced, if_true]

/-- A rest that ended without a fault ends the entry and clears the unit's count of time-outs. -/
theorem execSelfTestDone_rested {u : Nat} (hunit : s.castle.rot.unit = some u) (htested : restTested u = true)
    (hpassed : (s.restCounts u).2 = s.castle.rot.fails) (hrested : (s.restCounts u).1 ≠ s.castle.rot.rests) :
    exec (.selfTestDone false) s =
      .next ((s.setRot { s.castle.rot with timeouts := mset 0 s.castle.rot.timeouts u 0 }).rotEnd) := by
  change execSelfTestDone false s = _
  simp only [execSelfTestDone, hunit, htested, hpassed, hrested, ne_eq, not_true_eq_false, not_false_eq_true, if_true, if_false]

/-- The castle's own self-test that fails is recorded as a failure of unit 0xA002. -/
theorem execSelfTestDone_castle (hunit : s.castle.rot.unit = some 0xA002) :
    exec (.selfTestDone true) s = .next (s.rotEnd.rotFail 0xA002) := by
  change execSelfTestDone true s = _
  simp [execSelfTestDone, hunit, restTested]

/-! ### The safe state -/

/-- Outside power transitions a request is a decision at once. -/
theorem State.safeDecide_steady {cause detail : Nat} (hentering : s.entering = false) (hasleep : s.asleep = false)
    (hsteady : s.pwPhase = pwSteady) : s.safeDecide cause detail = s.decideNow cause detail := by
  have hhandshake : pwSteady ≠ pwHandshake := by decide
  have hwaking : pwSteady ≠ pwWaking := by decide
  simp only [State.safeDecide, hsteady, hentering, hasleep, hhandshake, hwaking, Bool.false_eq_true, or_self, if_false]

/-- The partitions' resets start once in a restart. -/
theorem State.safeResets_of_stage (hstage : s.castle.stage ≠ 0) : s.safeResets = s := if_neg fun hstarted => hstage hstarted.2

/-- The image is applied once every partition has been reset. -/
theorem execSafeRestartApply_reset (hphase : s.safePhase = phRestarting) (hstage : s.castle.stage = 1)
    (hreset : ∀ p < 8, s.partSt p ≠ ptResetting) : exec .safeRestartApply s = .next s.restartApply := by
  have hall : (List.range 8).all (fun p => decide (s.partSt p ≠ ptResetting)) = true :=
    List.all_eq_true.mpr fun p hp => decide_eq_true (hreset p (List.mem_range.mp hp))
  change execSafeRestartApply s = _
  simp only [execSafeRestartApply, s.safeResets_of_stage (by omega), hphase, hstage, hall, and_self, if_true]

/-- A latch outside LATCHED asserts the hold, sets the phase and leaves its record. -/
theorem State.safeLatch_of_unlatched {code : Nat} (hphase : s.safePhase ≠ phLatched) :
    s.safeLatch code false = (s.assertHold.wr F.SAFE_STATUS_PHASE phLatched).event 0xA000 0x7009 code [] := by
  simp only [State.safeLatch, if_neg hphase, Bool.false_eq_true, if_false]

/-- A restart that fails latches with RESTART_FAIL. -/
theorem State.safeLatch_of_restarting {code : Nat} (hphase : s.safePhase = phRestarting) :
    s.safeLatch code true =
      ((s.assertHold.wr F.SAFE_STATUS_PHASE phLatched).wr F.SAFE_STATUS_RESTART_FAIL 1).event 0xA000 0x7009 code [] := by
  have hunlatched : phRestarting ≠ phLatched := by decide
  simp only [State.safeLatch, hphase, if_neg hunlatched, if_true]

/-- A module state that fits its field is the one read after it has been set. -/
theorem State.setModState_modState {st cause : Nat} (hfits : st < 8) : (s.setModState st cause).modState = st := by
  have hmod : st % 2 ^ 3 = st := Nat.mod_eq_of_lt hfits
  rw [State.modState, State.setModState, State.rd_wr_ne _ F.PWR_STATUS_STATE F.MODULE_STATE_STATE _ (by decide),
    State.rd_wr_beside _ F.MODULE_STATE_LAST_CAUSE F.MODULE_STATE_STATE _ rfl rfl rfl,
    State.rd_wr_beside _ F.MODULE_STATE_IN_TRANSITION F.MODULE_STATE_STATE _ rfl rfl rfl,
    State.rd_wr_beside _ F.MODULE_STATE_TARGET F.MODULE_STATE_STATE _ rfl rfl rfl, State.rd_wr_at _ F.MODULE_STATE_STATE _ rfl]
  exact hmod

/-- Setting the module state leaves every other register than MODULE_STATE and PWR_STATUS. -/
theorem State.setModState_rd {st cause : Nat} {f : Fld} (hmodule : R.MODULE_STATE ≠ f.reg) (hpower : R.PWR_STATUS ≠ f.reg) :
    (s.setModState st cause).rd f = s.rd f := by
  rw [State.setModState, State.rd_wr_ne _ F.PWR_STATUS_STATE f _ hpower, State.rd_wr_ne _ F.MODULE_STATE_LAST_CAUSE f _ hmodule,
    State.rd_wr_ne _ F.MODULE_STATE_IN_TRANSITION f _ hmodule, State.rd_wr_ne _ F.MODULE_STATE_TARGET f _ hmodule,
    State.rd_wr_ne _ F.MODULE_STATE_STATE f _ hmodule]

/-- The state a restart ends in: HELD, with the module state set and the restart's time recorded. -/
def State.restarted (s : State) (cause us longest : Nat) : State :=
  (((((s.d2dBack.startHosts.wr F.SAFE_STATUS_PHASE phHeld).setModState stSafe cause).wr F.SAFE_TIMES_LAST_RESTART_US us).wr
    F.SAFE_TIMES_MAX_RESTART_US longest).raiseCastle)

theorem State.restarted_phase (cause us longest : Nat) : (s.restarted cause us longest).rd F.SAFE_STATUS_PHASE = phHeld := by
  rw [State.restarted, State.raiseCastle_rd, State.rd_wr_ne _ _ _ _ (by decide), State.rd_wr_ne _ _ _ _ (by decide), State.setModState_rd _ (by decide) (by decide),
    State.rd_wr_at _ _ _ rfl]
  rfl

theorem State.restarted_modState (cause us longest : Nat) : (s.restarted cause us longest).modState = stSafe := by
  rw [State.modState, State.restarted, State.raiseCastle_rd, State.rd_wr_ne _ _ _ _ (by decide), State.rd_wr_ne _ _ _ _ (by decide)]
  exact State.setModState_modState _ (by decide)

theorem State.restarted_mem (cause us longest : Nat) : (s.restarted cause us longest).mem = s.mem := by
  have hstart : s.d2dBack.startHosts.mem = s.mem :=
    (State.startHosts_keeps (b := true) (State.d2dBack_keeps (.refl s _))).2.2.1 rfl |>.1
  simpa [State.restarted, State.raiseCastle, State.setModState] using hstart

/-- A restart whose units serve again completes in SAFE, HELD. -/
theorem execSafeRestartComplete_ready (hphase : s.safePhase = phRestarting) (hstage : s.castle.stage = 2)
    (hready : s.restartReady = true) : ∃ cause us longest, exec .safeRestartComplete s = .next (s.restarted cause us longest) :=
  ⟨_, _, _, congrArg Host.Outcome.next (if_pos ⟨hphase, hstage, hready⟩)⟩

/-- Settles O29: the rotation, the faults and the safe state, each by its lemma. -/
theorem rotationAndSafeStateComplete : Obligations.RotationAndSafeStateComplete := by
  refine ⟨?_, fun u s hwaits hunforced => execRestGraceExpire_waiting s hwaits hunforced,
    fun u s hwaits hforced => execForceGraceExpire_forced s hwaits hforced,
    fun u s hunit htested hpassed hrested => execSelfTestDone_rested s hunit htested hpassed hrested,
    fun s hunit => execSelfTestDone_castle s hunit, fun kind s => ⟨_, rfl, rfl⟩, ?_,
    fun s hentering hasleep hsteady => congrArg Host.Outcome.next (s.safeDecide_steady hentering hasleep hsteady),
    fun s hphase hstage hreset => execSafeRestartApply_reset s hphase hstage hreset, ?_, ?_, ?_, ?_⟩
  · intro s henabled hidle hstate
    exact congrArg Host.Outcome.next (if_pos ⟨henabled, by rw [hidle]; rfl, hstate⟩)
  · intro s hstopped
    exact congrArg Host.Outcome.next ((if_neg (by simp [hstopped])).trans (if_pos rfl))
  · intro s hphase hstage hready
    obtain ⟨cause, us, longest, hexec⟩ := execSafeRestartComplete_ready s hphase hstage hready
    exact ⟨_, hexec, s.restarted_phase _ _ _, s.restarted_modState _ _ _, s.restarted_mem _ _ _⟩
  · intro reason s hlow hhigh hphase
    rw [← s.safeLatch_of_restarting hphase]
    exact congrArg Host.Outcome.next (if_pos ⟨hlow, hhigh, hphase⟩)
  · intro s hstopped hphase
    rw [← s.safeLatch_of_unlatched hphase]
    exact congrArg Host.Outcome.next ((if_neg (by simp)).trans (if_pos ⟨rfl, hstopped⟩))
  · intro s hheld
    exact congrArg Host.Outcome.next (if_pos (by simp [hheld]))

end Sys2Proof.Machine
end


section
/-!
PCIe: the host's accesses, a unit's accesses, a device's requests and the link (R425 to R436).
-/

namespace Sys2Proof.Machine

variable (s : State)

/-! ### Accesses -/

/-- In endpoint mode with the link up and the module booted the host is served. -/
theorem hostServed {s : State} (hendpoint : s.on F.PCIE_STATUS_ROOT_PORT = false) (hup : s.on F.PCIE_STATUS_LINK_UP = true)
    (hbooted : s.boot.phase = 3) :
    (s.on F.PCIE_STATUS_ROOT_PORT || !s.on F.PCIE_STATUS_LINK_UP || decide (s.boot.phase ≠ 3)) = false := by
  simp [hendpoint, hup, hbooted]

theorem execPcieInboundAccess_bar0 {off : Nat} {op : BarOp} (hendpoint : s.on F.PCIE_STATUS_ROOT_PORT = false)
    (hup : s.on F.PCIE_STATUS_LINK_UP = true) (hbooted : s.boot.phase = 3) :
    exec (.pcieInboundAccess .bar0 off op) s = .next (s.barReg (csrBase + off % 0x800000) op) := by
  change execPcieInboundAccess .bar0 off op s = _
  simp only [execPcieInboundAccess, hostServed hendpoint hup hbooted, Bool.false_eq_true, if_false]

theorem execPcieInboundAccess_bar2 {off : Nat} {op : BarOp} (hendpoint : s.on F.PCIE_STATUS_ROOT_PORT = false)
    (hup : s.on F.PCIE_STATUS_LINK_UP = true) (hbooted : s.boot.phase = 3) :
    exec (.pcieInboundAccess .bar2 off op) s = .next (s.barMem (mbxWin 0 + off % 0x20000) op) := by
  change execPcieInboundAccess .bar2 off op s = _
  simp only [execPcieInboundAccess, hostServed hendpoint hup hbooted, Bool.false_eq_true, if_false]

/-- Through BAR4 an enabled aperture reaches its target, which is memory outside the register region. -/
theorem execPcieInboundAccess_bar4 {off : Nat} {op : BarOp} (hendpoint : s.on F.PCIE_STATUS_ROOT_PORT = false)
    (hup : s.on F.PCIE_STATUS_LINK_UP = true) (hbooted : s.boot.phase = 3)
    (henabled : s.on (F.PCIE_IB_ENABLE (off / 2 ^ 30 % 16)) = true)
    (hmemory : ¬ (csrBase ≤ s.rd (F.PCIE_IB_TARGET (off / 2 ^ 30 % 16)) * 2 ^ 30 + off % 2 ^ 30 ∧
      s.rd (F.PCIE_IB_TARGET (off / 2 ^ 30 % 16)) * 2 ^ 30 + off % 2 ^ 30 < csrBase + 0x800000)) :
    exec (.pcieInboundAccess .bar4 off op) s =
      .next (s.barMem (s.rd (F.PCIE_IB_TARGET (off / 2 ^ 30 % 16)) * 2 ^ 30 + off % 2 ^ 30) op) := by
  change execPcieInboundAccess .bar4 off op s = _
  simp only [execPcieInboundAccess, hostServed hendpoint hup hbooted, henabled, Bool.false_eq_true, if_false, if_true, if_neg hmemory]

/-- A unit's answered read through an open window returns the host's data and leaves the host address. -/
theorem execPcieOutboundAccess_window {u : Fin 65536} {a : Nat} {data : List Byte} {ctx : Bool} {n k : Nat} (hwindow : obIndex a = some k)
    (hopen : s.obOpen (s.unitMaster u.val) k a n = true) (hup : s.on F.PCIE_STATUS_LINK_UP = true) :
    exec (.pcieOutboundAccess u a (.read n) data true ctx) s = .next { s with acc := ⟨St.ok, (padTo n data).take n, false, false, false, s.rd (F.PCIE_OB_HOST_HOST k) + (a - obWin k)⟩ } := by
  change execPcieOutboundAccess u a (.read n) data true ctx s = _
  simp only [execPcieOutboundAccess, hwindow, barLen, hopen, hup, Bool.and_self, if_true, State.outAccess]

/-- A device's read through its context returns what the bus gives. -/
theorem execPcieDeviceRequest_read {hits : List IommuHit} {n a c : Nat} {hit : IommuHit} {b : List Byte} {p : Bool} {s1 : State}
    (hroot : s.on F.PCIE_STATUS_ROOT_PORT = true) (hup : s.on F.PCIE_STATUS_LINK_UP = true) (hhit : firstHit hits = some hit)
    (haddr : hit.addr = some a) (hget : s.busGet ⟨0xC200, some hit.iommu.val, false⟩ a n = (c, b, p, s1)) :
    exec (.pcieDeviceRequest hits (.read n)) s = .next (s1.withAcc 0xC200 c b p) := by
  change execPcieDeviceRequest hits (.read n) s = _
  simp only [execPcieDeviceRequest, hroot, hup, Bool.and_self, if_true, hhit, haddr, hget]

/-! ### The link -/

/-- A link that goes down trains again unless PERST_N is held. -/
theorem execPcieLinkDown_up (hup : s.on F.PCIE_STATUS_LINK_UP = true) :
    ∃ t, exec .pcieLinkDown s = .next t ∧ t.rd F.PCIE_STATUS_LINK_UP = 0 ∧ t.pcie.training = !s.pcie.perst ∧ t.mem = s.mem := by
  refine ⟨_, congrArg Host.Outcome.next (if_pos hup), ?_, rfl, rfl⟩
  change ((s.wr F.PCIE_STATUS_LINK_UP 0).bump F.PCIE_ERRORS_SURPRISE_DOWN).rd F.PCIE_STATUS_LINK_UP = 0
  rw [State.rd_bump_ne _ _ _ (by decide), State.rd_wr_at _ _ _ rfl]
  exact Nat.zero_mod _

/-- A link that trains comes up with its speed and width. -/
theorem execPcieLinkUp_training {speed : Fin 6} {width : Fin 9} (htraining : s.pcie.training = true) :
    ∃ t, exec (.pcieLinkUp speed width) s = .next t ∧ t.rd F.PCIE_STATUS_LINK_UP = 1 ∧ t.pcie.training = false ∧ t.mem = s.mem := by
  refine ⟨_, congrArg Host.Outcome.next (if_pos htraining), ?_, rfl, rfl⟩
  change (((s.wr F.PCIE_STATUS_LINK_UP 1).wr F.PCIE_STATUS_SPEED speed.val).wr F.PCIE_STATUS_WIDTH width.val).rd F.PCIE_STATUS_LINK_UP = 1
  rw [State.rd_wr_beside _ F.PCIE_STATUS_WIDTH F.PCIE_STATUS_LINK_UP _ rfl rfl rfl,
    State.rd_wr_beside _ F.PCIE_STATUS_SPEED F.PCIE_STATUS_LINK_UP _ rfl rfl rfl, State.rd_wr_at _ _ _ rfl]
  rfl

/-- Settles O31: the accesses and the link's events, each by its lemma. -/
theorem pcieComplete : Obligations.PcieComplete := by
  refine ⟨fun off op s hendpoint hup hbooted => execPcieInboundAccess_bar0 s hendpoint hup hbooted,
    fun off op s hendpoint hup hbooted => execPcieInboundAccess_bar2 s hendpoint hup hbooted, ?_,
    fun u a data ctx n k s hwindow hopen hup => execPcieOutboundAccess_window s hwindow hopen hup,
    fun hits n a c hit b p s1 s hroot hup hhit haddr hget => execPcieDeviceRequest_read s hroot hup hhit haddr hget,
    fun s hup => execPcieLinkDown_up s hup, fun speed width s htraining => execPcieLinkUp_training s htraining,
    fun s hheld => congrArg Host.Outcome.next (if_pos hheld)⟩
  intro off op ad s hendpoint hup hbooted henabled htarget hmemory
  subst htarget
  exact execPcieInboundAccess_bar4 s hendpoint hup hbooted henabled hmemory

end Sys2Proof.Machine
end


section
/-!
D2D modules and Zorra links: failures, formation of the network, frames and relays (R13, R437 to R445).
-/

namespace Sys2Proof.Machine

variable (s : State)

/-- A D2D module that fails goes out of service; fewer than two down is no cause for the safe state. -/
theorem execD2dModuleFail_first {k : Fin 4} {s1 : State} (hup : bit (s.rd F.D2D_STATUS_MODULE_UP) k.val = true)
    (hdown : s1 = ((s.wrBit F.D2D_STATUS_MODULE_UP k.val false).wrBit F.D2D_STATUS_MODULE_FAILED k.val true).event (0xC100 + k.val) 0x6004
      k.val [((s.wrBit F.D2D_STATUS_MODULE_UP k.val false).wrBit F.D2D_STATUS_MODULE_FAILED k.val true).rd F.D2D_STATUS_MODULE_FAILED])
    (hfew : 4 - (bitList (s1.rd F.D2D_STATUS_MODULE_UP) 4).length < 2) : exec (.d2dModuleFail k) s = .next s1 := by
  have hkept : ¬ 2 ≤ 4 - (bitList (s1.rd F.D2D_STATUS_MODULE_UP) 4).length := Nat.not_le.mpr hfew
  change execD2dModuleFail k s = _
  unfold execD2dModuleFail
  rw [if_pos hup]
  dsimp only
  rw [← hdown, if_neg hkept]

/-- A declaration that has this module, from a member below all it knows, forms the network. -/
theorem execDeclarationReceive_lowest {k : Fin 4} {members : List Nat} {edges : List (Nat × Nat)} {l : List Nat}
    (htrained : s.zlTrained k.val = true) (hunformed : s.netState ≠ netFormed) (hunion : l = unionAsc [] members)
    (hmember : l.contains s.serial = true) (hlowest : ∀ y ∈ s.serial :: s.link.known, l.headD 0 ≤ y) :
    exec (.declarationReceive k members edges) s = .next (s.formNet l edges) := by
  subst hunion
  have hall : (s.serial :: s.link.known).all (fun x => decide ((unionAsc [] members).headD 0 ≤ x)) = true :=
    List.all_eq_true.mpr fun y hy => decide_eq_true (hlowest y hy)
  change execDeclarationReceive k members edges s = _
  simp only [execDeclarationReceive, htrained, hunformed, hmember, hall, Bool.true_eq_false, or_self, if_false, if_true]

/-- The frame counters are no link state. -/
theorem State.bumpBy_fec_zlState (k n : Nat) : (s.bumpBy (F.ZL_COUNTS_FEC_CORRECTED k) n).zlState k = s.zlState k := by
  have hbeside : R.ZL_COUNTS k ≠ R.ZL_STATUS k := by
    simp only [R.ZL_COUNTS, R.ZL_STATUS]
    omega
  exact State.rd_wr_ne _ _ _ _ hbeside

/-- A good frame that is due, on a link that is UP, is taken. -/
theorem execLinkFrameReceive_due {k : Fin 4} {seq : Fin 4096} {c : LinkData} (hup : s.zlState k.val = zlUp)
    (hdue : seq.val = (mget ⟨0⟩ s.link.zl k.val).due) :
    exec (.linkFrameReceive k seq true false 0 c) s = .next (({ s.bumpBy (F.ZL_COUNTS_FEC_CORRECTED k.val) 0 with link := { s.link with zl := mset ⟨0⟩ s.link.zl k.val ⟨(seq.val + 1) % 4096⟩ } } : State).linkTake c) := by
  have htrained : s.zlTrained k.val = true := by simp [State.zlTrained, hup]
  have hcounted := s.bumpBy_fec_zlState k.val 0
  have hlink : (s.bumpBy (F.ZL_COUNTS_FEC_CORRECTED k.val) 0).link = s.link := rfl
  change execLinkFrameReceive k seq true false 0 c s = _
  unfold execLinkFrameReceive
  rw [if_pos htrained]
  generalize s.bumpBy (F.ZL_COUNTS_FEC_CORRECTED k.val) 0 = t at hcounted hlink ⊢
  have hstill : ({ t with link := { s.link with zl := mset ⟨0⟩ s.link.zl k.val ⟨(seq.val + 1) % 4096⟩ } } : State).zlState k.val = zlUp :=
    hcounted.trans hup
  simp only [if_true, Bool.false_eq_true, if_false, hlink, ← hdue, hstill]

/-- A frame with a bad CRC on a trained link only counts. -/
theorem execLinkFrameReceive_bad {k : Fin 4} {seq : Fin 4096} {nack : Bool} {c : LinkData} (htrained : s.zlTrained k.val = true) :
    exec (.linkFrameReceive k seq false nack 0 c) s =
      .next ((s.bumpBy (F.ZL_COUNTS_FEC_CORRECTED k.val) 0).bump (F.ZL_COUNTS_CRC_ERRORS k.val)) :=
  congrArg Host.Outcome.next ((if_pos htrained).trans (if_neg Bool.false_ne_true))

/-- A trusted write of LINK_CTRL with NET_REFORM set starts the network anew (log entry 141). -/
theorem execNetReform_trusted {r : Req} {d : WData} (htrusted : r.trusted = true) (hreform : bit d.bits1 2 = true) :
    exec (.netReform r d) s = .next (((s.writeReg R.LINK_CTRL d).wr F.LINK_CTRL_NET_REFORM 0).netReform) := by
  change Host.Outcome.next (s.linkWrite r 0 d) = _
  simp [State.linkWrite, htrusted, hreform]

/-- Settles O32: the modules, the formation and the frames, each by its lemma. -/
theorem linksComplete : Obligations.LinksComplete := by
  refine ⟨fun k s1 s hup hdown hfew => execD2dModuleFail_first s hup hdown hfew, ?_, fun p a b s => rfl, ?_, ?_,
    fun k members edges l s htrained hunformed hunion hmember hlowest =>
      execDeclarationReceive_lowest s htrained hunformed hunion hmember hlowest, ?_,
    fun k seq c s hup hdue => ⟨_, execLinkFrameReceive_due s hup hdue, rfl⟩,
    fun k seq nack c s htrained => execLinkFrameReceive_bad s htrained, fun k s _ => rfl,
    fun r d s htrusted hreform => execNetReform_trusted s htrusted hreform, ?_⟩
  · intro p k s henabled hon huntrained
    exact congrArg Host.Outcome.next (if_pos (by simp [henabled, hon, huntrained]))
  · intro s hforming hopen hfirst
    exact congrArg Host.Outcome.next ((if_pos ⟨hforming, hopen⟩).trans (if_pos hfirst))
  · intro s hforming hopen hnotFirst
    exact congrArg Host.Outcome.next ((if_pos ⟨hforming, hopen⟩).trans (if_neg hnotFirst))
  · intro s hforming hended
    exact congrArg Host.Outcome.next (if_pos ⟨hforming, hended⟩)
  · intro n item s henabled hreceive
    exact congrArg Host.Outcome.next (if_pos (by simp [henabled, hreceive]))

end Sys2Proof.Machine
end


section
/-!
The power record: a unit that leaves service, whatever its kind, leaves it as it was.
-/

namespace Sys2Proof.Machine

variable (s : State)

theorem State.foldl_pwr {α : Type} (f : State → α → State) (l : List α) (h : ∀ t x, (f t x).pwr = t.pwr) :
    (l.foldl f s).pwr = s.pwr :=
  List.foldlRecOn (motive := fun t : State => t.pwr = s.pwr) _ _ rfl fun t ht x _ => (h t x).trans ht

theorem State.zeroRange_pwr (a n : Nat) : (s.zeroRange a n).pwr = s.pwr := by
  unfold State.zeroRange
  split <;> simp

theorem State.answers_pwr (status : Nat) (l : List Msg) : (l.foldl (fun (t : State) m => t.answer m status) s).pwr = s.pwr :=
  s.foldl_pwr _ l fun t m => t.answer_pwr m status

/-- The state a unit shows by its work is no part of the record. -/
theorem State.showBusy_pwr (shows : Prop) [Decidable shows] (u v : Nat) : (if shows then s.setUstate u v else s).pwr = s.pwr := by
  split
  · exact s.setUstate_pwr u v
  · rfl

/-! ### Squares -/

theorem State.answerQueues_pwr (n status : Nat) : (s.answerQueues n status).pwr = s.pwr :=
  s.foldl_pwr _ _ fun t _ => t.answers_pwr status _

theorem State.sqLeave_pwr (n st : Nat) : (s.sqLeave n st).pwr = s.pwr := by
  unfold State.sqLeave
  dsimp only
  split
  · rw [State.answerQueues_pwr, State.setUstate_pwr]
  · exact s.setUstate_pwr _ _

theorem State.sqStop_pwr (n st : Nat) : (s.sqStop n st).pwr = s.pwr := by
  simp [State.sqStop, State.sqAbandon, State.setTxq, State.sqLeave_pwr]

theorem State.sqClear_pwr (n : Nat) : (s.sqClear n).pwr = s.pwr := by
  unfold State.sqClear
  dsimp only
  split <;> simp [State.zeroRange_pwr]

theorem State.sqEnter_pwr (n st : Nat) : (s.sqEnter n st).pwr = s.pwr := by
  unfold State.sqEnter
  dsimp only
  split
  · exact s.sqStop_pwr n st
  · rw [State.sqClear_pwr, State.sqStop_pwr]

/-! ### Planes -/

theorem State.setPl_pwr (p : Nat) (x : PlSt) : (s.setPl p x).pwr = s.pwr := rfl

theorem State.plAnswer_pwr (p status : Nat) : (s.plAnswer p status).pwr = s.pwr := by
  rw [State.plAnswer, State.setPl_pwr, State.answers_pwr]

theorem State.plLeave_pwr (p st : Nat) : (s.plLeave p st).pwr = s.pwr := by
  unfold State.plLeave
  dsimp only
  split
  · rw [State.plAnswer_pwr, State.setUstate_pwr]
  · exact s.setUstate_pwr _ _

theorem State.plBadSync_pwr (p : Nat) (old : List Nat) : (s.plBadSync p old).pwr = s.pwr := by
  rw [State.plBadSync, State.wr_pwr]
  exact s.foldl_pwr _ _ fun _ _ => rfl

theorem State.plShow_pwr (p : Nat) : (s.plShow p).pwr = s.pwr := rfl

theorem State.plClear_pwr (p : Nat) : (s.plClear p).pwr = s.pwr := by
  rw [State.plClear, State.plShow_pwr, State.wr_pwr, State.wr_pwr, State.zeroRange_pwr, State.plBadSync_pwr, State.setPl_pwr]

theorem State.plReport_pwr (p kind cp frame seq bound ooc flags : Nat) : (s.plReport p kind cp frame seq bound ooc flags).pwr = s.pwr := by
  unfold State.plReport
  dsimp only
  split <;> simp

theorem State.plContract_pwr (p c : Nat) : (s.plContract p c).pwr = s.pwr := by
  unfold State.plContract
  dsimp only
  split
  · rfl
  · rw [State.plReport_pwr, State.logRec_pwr, State.wr_pwr]

theorem State.clearTrims_pwr (p : Nat) (l : List Nat) :
    (l.foldl (fun (t : State) j => (t.wr (F.PL_TRIM_OFFSET p j) 0).wr (F.PL_TRIM_GAIN p j) 0) s).pwr = s.pwr :=
  s.foldl_pwr _ l fun _ _ => rfl

theorem State.plEnter_pwr (p st : Nat) : (s.plEnter p st).pwr = s.pwr := by
  have hleft : (((s.bumpEpoch (planeUnit p)).plLeave p st).setShell p shIdle).pwr = s.pwr := by
    rw [State.setShell, State.wr_pwr, State.plLeave_pwr, State.bumpEpoch_pwr]
  unfold State.plEnter
  dsimp only
  rw [State.plContract_pwr]
  split
  · rw [State.wr_pwr, State.clearTrims_pwr, State.setPl_pwr, hleft]
  · rw [State.plClear_pwr, hleft]

/-! ### Engines -/

theorem State.setAe_pwr (e : Nat) (x : AeSt) : (s.setAe e x).pwr = s.pwr := by
  rw [State.setAe, State.showBusy_pwr, State.wr_pwr, State.wr_pwr, State.setEng_pwr]

theorem State.dropSlices_pwr (e : Nat) : (s.dropSlices e).pwr = s.pwr :=
  s.foldl_pwr _ _ fun t k => by
    split
    · exact t.setEng_pwr _ _
    · rfl

theorem State.failSlices_pwr (e status : Nat) : (s.failSlices e status).pwr = s.pwr :=
  s.foldl_pwr _ _ fun t h => by
    split
    · split
      · rw [State.aeEnd, State.setAe_pwr, State.dropSlices_pwr]
      · rfl
    · rfl

theorem State.aeAnswer_pwr (e status : Nat) : (s.aeAnswer e status).pwr = s.pwr := by
  rw [State.aeAnswer, State.setAe_pwr, State.dropSlices_pwr]
  exact (State.foldl_pwr _ (fun (t : State) (r : AeRun) => t.kvEnded r.job) _ fun _ _ => rfl).trans (s.answers_pwr status _)

theorem State.aeEnter_pwr (e st : Nat) : (s.aeEnter e st).pwr = s.pwr := by
  have hleft : ((s.bumpEpoch (engineUnit e)).aeLeave e st).pwr = s.pwr := by
    unfold State.aeLeave
    dsimp only
    split
    · rw [State.aeAnswer_pwr, State.failSlices_pwr, State.setUstate_pwr, State.bumpEpoch_pwr]
    · rw [State.setUstate_pwr, State.bumpEpoch_pwr]
  unfold State.aeEnter
  dsimp only
  rw [State.wr_pwr]
  split
  · rw [State.zeroRange_pwr, hleft]
  · exact hleft

/-! ### The alignment and the voxel engine -/

theorem State.pauseEval_pwr : s.pauseEval.pwr = s.pwr :=
  s.foldl_pwr _ _ fun t p => by split <;> simp [State.sendPause]

theorem State.iqLevel_pwr (i : Nat) : (s.iqLevel i).pwr = s.pwr := by
  unfold State.iqLevel
  dsimp only
  split
  · rfl
  · rw [State.pauseEval_pwr]
    split
    · split <;> simp [State.iqNotify]
    · rfl

theorem State.iqFree_pwr (i n : Nat) : (s.iqFree i n).pwr = s.pwr := by
  rw [State.iqFree, State.iqLevel_pwr, State.setQ_pwr]

/-- The queues of one reader, freed up to where it has read. -/
theorem State.iqFreeOf_pwr (reader : Nat) :
    ((List.range 32).foldl (fun (t : State) i => if t.rd (F.IQ_RING_CFG_READER i) = reader then t.iqFree i (t.q i).read else t) s).pwr =
      s.pwr :=
  s.foldl_pwr _ _ fun t i => by
    split
    · exact t.iqFree_pwr _ _
    · rfl

theorem State.alnReset_pwr (st : Nat) : (s.alnReset st).pwr = s.pwr := by
  rw [State.alnReset, State.iqFreeOf_pwr, State.wr_pwr, State.wr_pwr, State.wr_pwr, State.wr_pwr, State.wr_pwr, State.setAln_pwr,
    State.setUstate_pwr, State.bumpEpoch_pwr]

theorem State.voxReset_pwr (st : Nat) : (s.voxReset st).pwr = s.pwr := by
  unfold State.voxReset
  dsimp only
  rw [State.iqFreeOf_pwr, State.wr_pwr, State.setVox_pwr]
  split
  · split
    · simp
    · rw [State.zeroRange_pwr]
      simp
  · simp

/-! ### The checker and the dynamics unit -/

theorem State.setCc_pwr (c : CcSt) : (s.setCc c).pwr = s.pwr := by
  rw [State.setCc, State.showBusy_pwr]
  simp only [State.wr_pwr]

theorem State.ccEnter_pwr (st : Nat) : (s.ccEnter st).pwr = s.pwr := by
  have hdropped : (((s.bumpEpoch ccUnit).setUstate ccUnit st).ccDrop St.unitReset).pwr = s.pwr := by
    rw [State.ccDrop, State.wr_pwr, State.wr_pwr, State.setCc_pwr, State.answers_pwr, State.setUstate_pwr, State.bumpEpoch_pwr]
  unfold State.ccEnter
  dsimp only
  split
  · rw [State.wr_pwr, State.setCc_pwr, hdropped]
  · exact hdropped

theorem State.setDyn_pwr (d : DynSt) : (s.setDyn d).pwr = s.pwr := by
  rw [State.setDyn, State.showBusy_pwr]
  simp only [State.wr_pwr]

theorem State.dynEnter_pwr (st : Nat) : (s.dynEnter st).pwr = s.pwr := by
  have hdropped : (((s.bumpEpoch dynUnit).setUstate dynUnit st).dynDrop St.unitReset).pwr = s.pwr := by
    rw [State.dynDrop, State.wr_pwr, State.setDyn_pwr, State.answers_pwr, State.setUstate_pwr, State.bumpEpoch_pwr]
  unfold State.dynEnter
  dsimp only
  split
  · rw [State.wr_pwr, State.setDyn_pwr, hdropped]
  · exact hdropped

/-- A unit's entry into a state leaves the power record. -/
theorem State.unitEnter_pwr (u st : Nat) : (s.unitEnter u st).pwr = s.pwr := by
  unfold State.unitEnter
  dsimp only
  split_ifs
  · exact s.sqEnter_pwr _ _
  · exact s.plEnter_pwr _ _
  · exact s.aeEnter_pwr _ _
  · exact s.alnReset_pwr _
  · exact s.voxReset_pwr _
  · exact s.ccEnter_pwr _
  · exact s.dynEnter_pwr _
  · rw [State.setUstate_pwr, State.bumpEpoch_pwr]

end Sys2Proof.Machine
end


section
/-!
Power states, the loops and the supplies (R449 to R482).
-/

namespace Sys2Proof.Machine

variable (s : State)

/-! ### What ends a transition: the module state, the phase and the frequencies shown -/

/-- The frequencies shown are those of one register. -/
theorem State.showFreq_rd {f : Fld} (hne : R.CLK_FREQ ≠ f.reg) : s.showFreq.rd f = s.rd f := by
  rw [State.showFreq, State.rd_wr_ne _ F.CLK_FREQ_FRAME_MHZ f _ hne, State.rd_wr_ne _ F.CLK_FREQ_CPU_MHZ f _ hne,
    State.rd_wr_ne _ F.CLK_FREQ_AE_MHZ f _ hne, State.rd_wr_ne _ F.CLK_FREQ_FABRIC_MHZ f _ hne]

/-- A transition's end: the module state with its cause, and the phase. -/
def State.settled (s : State) (st cause phase : Nat) : State := (s.setModState st cause).wr F.PWR_STATUS_PHASE phase

theorem State.settled_modState {st cause phase : Nat} (hfits : st < 8) : (s.settled st cause phase).modState = st := by
  rw [State.modState, State.settled, State.rd_wr_ne _ _ _ _ (by decide)]
  exact s.setModState_modState hfits

theorem State.settled_phase {st cause phase : Nat} (hfits : phase < 8) :
    (s.settled st cause phase).rd F.PWR_STATUS_PHASE = phase := by
  rw [State.settled, State.rd_wr_at _ _ _ rfl]
  exact Nat.mod_eq_of_lt hfits

/-- Showing a module state leaves memory, the image and the boot record. -/
theorem State.showFreq_setModState_frame (st cause : Nat) : (s.setModState st cause).showFreq.mem = s.mem ∧
    (s.setModState st cause).showFreq.img = s.img ∧ (s.setModState st cause).showFreq.boot = s.boot := by
  simp only [State.showFreq, State.setModState, State.wr_mem, State.wr_img, State.wr_boot, and_self]

theorem State.showFreq_settled_mem (st cause phase : Nat) : (s.settled st cause phase).showFreq.mem = s.mem := by
  simp only [State.showFreq, State.settled, State.setModState, State.wr_mem]

/-! ### Entries -/

/-- A trusted vote replaces every vote. -/
theorem State.voteWrite_trusted {r : Req} {d : WData} (htrusted : r.trusted = true) :
    s.voteWrite r d = (s.setReg R.PWR_VOTE (d.over (s.reg R.PWR_VOTE) % 2 ^ 20)).entryRefusals := if_pos htrusted

/-- A handshake that lasts too long is abandoned by the first participant that delays. -/
theorem State.entryDelayed_of_delaying {code : Nat} (hhandshake : s.pwPhase = pwHandshake)
    (hdelays : s.entryReplies.find? (fun y => y.2 = 1) = some (code, 1)) : s.entryDelayed = s.abandonEntry code true := by
  simp only [State.entryDelayed, hhandshake, if_true, hdelays]

/-- Where every participant allows, an entry into PARK commits and the cores hold. -/
theorem State.entryCommit_park (hhandshake : s.pwPhase = pwHandshake) (hallow : s.entryReplies.all (fun y => y.2 = 0) = true)
    (htarget : s.pwr.target = stPark) : s.entryCommit = (({ s with pwr := { s.pwr with result := some St.ok, entryAt := s.now } } : State).wr
      F.PWR_STATUS_PHASE pwCommitted).coresHold (List.range 12) := by
  unfold State.entryCommit
  rw [if_pos ⟨hhandshake, hallow⟩]
  refine if_neg ?_
  change s.pwr.target ≠ stDeep
  rw [htarget]
  decide

theorem State.disarmAll_pwr (keep : Bool) : (s.disarmAll keep).pwr = s.pwr := by
  unfold State.disarmAll
  rw [State.foldl_pwr, State.foldl_pwr, State.foldl_pwr] <;>
  · intro t x
    split <;> rfl

/-- A unit that parks holds no wake. -/
theorem State.parkUnit_held (u : Nat) : (s.parkUnit u).pwr.held = s.pwr.held := by
  unfold State.parkUnit
  dsimp only
  split
  · rfl
  · rw [State.unitEnter_pwr]

theorem State.parkUnits_held (l : List Nat) : (l.foldl State.parkUnit s).pwr.held = s.pwr.held :=
  List.foldlRecOn (motive := fun t : State => t.pwr.held = s.pwr.held) _ _ rfl fun t ht u _ => (t.parkUnit_held u).trans ht

/-- An entry into PARK with no wake held ends with the units parked, in PARK and steady. -/
theorem State.entryEnd_park (hentering : s.entering = true) (hheld : s.pwr.held = none) (htarget : s.pwr.target = stPark) :
    ∃ (t : State) (cause us : Nat), s.entryEnd = ((t.settled stPark cause pwSteady).wr F.PWR_TIMES_LAST_ENTRY_US us).showFreq := by
  have hparked : ((s.disarmAll false).unitList.foldl State.parkUnit (s.disarmAll false)).pwr.held = none := by
    rw [State.parkUnits_held, State.disarmAll_pwr, hheld]
  unfold State.entryEnd
  rw [if_pos hentering]
  dsimp only
  rw [if_pos htarget, htarget]
  generalize (s.disarmAll false).unitList.foldl State.parkUnit (s.disarmAll false) = t at hparked ⊢
  split
  case h_1 c d hsome =>
    cases hsome.symm.trans hparked
  case h_2 => exact ⟨t, _, _, rfl⟩

/-- An entry into PARK that is complete reads PARK, steady. -/
theorem State.entryEnd_park_reads (hentering : s.entering = true) (hheld : s.pwr.held = none) (htarget : s.pwr.target = stPark) :
    s.entryEnd.rd F.PWR_STATUS_PHASE = pwSteady ∧ s.entryEnd.modState = stPark := by
  obtain ⟨t, cause, us, hend⟩ := s.entryEnd_park hentering hheld htarget
  rw [hend]
  constructor
  · rw [State.showFreq_rd _ (by decide), State.rd_wr_ne _ _ _ _ (by decide)]
    exact t.settled_phase (by decide)
  · rw [State.modState, State.showFreq_rd _ (by decide), State.rd_wr_ne _ _ _ _ (by decide)]
    exact t.settled_modState (by decide)

/-! ### Wakes, the loops and the points -/

/-- The castle's write of PWR_CTRL.WAKE is a wake. -/
theorem State.pwrWrite_wake : s.pwrWrite .castle 0 ⟨.low, 2⟩ = s.wake 0x02 0 := by
  have hwake : bit (WData.bits1 ⟨.low, 2#64⟩) 1 = true := by decide
  have hunlocked : bit (WData.bits1 ⟨.low, 2#64⟩) 0 = false := by decide
  simp [State.pwrWrite, Req.trusted, hwake, hunlocked]

theorem execWakeComplete_park {crcFail : Bool} (hwaking : s.pwPhase = pwWaking) (hpark : s.modState = stPark) :
    exec (.wakeComplete crcFail) s =
      .next (((s.wakeUnits false).coresResume.syncViews).wakeEnd (s.rd F.PWR_WAKE_STATUS_LAST_SOURCE)) := by
  have hshallow : stPark ≠ stDeep := by decide
  change execWakeComplete crcFail s = _
  unfold execWakeComplete
  rw [if_neg (not_not.mpr hwaking)]
  dsimp only
  rw [hpark, if_neg hshallow]

/-- A trusted write of the requested point is kept and evaluated. -/
theorem State.pwrWrite_opp {r : Req} {d : WData} (htrusted : r.trusted = true) :
    s.pwrWrite r 0x18 d = (s.writeReg R.PWR_OPP d).oppEval 0 := by
  simp [State.pwrWrite, htrusted, R.PWR_OPP, R.PWR_CTRL]

theorem State.vfDone_of_step {k : Nat} (hstep : s.loops.step = some k) :
    s.vfDone = (s.setLoops { s.loops with opp := k, step := none }).showFreq.vfNext := by
  simp only [State.vfDone, hstep]

/-! ### The supplies -/

/-- A loss of VIN ends with no memory, in DEEP, in the shut-down. -/
theorem State.vinLoss_lost {mv : Nat} (hbooted : s.boot.phase = 3) (hphase : s.pwPhase ≠ pwShutdown)
    (hsupplied : s.on F.PWR_STATUS_SUPPLY_LOSS = false) :
    ∃ (t : State) (cause : Nat), s.vinLoss mv = (t.settled stDeep cause pwShutdown).showFreq ∧ t.mem = [] := by
  have hlive : ¬ (s.boot.phase ≠ 3 ∨ s.pwPhase = pwShutdown ∨ s.on F.PWR_STATUS_SUPPLY_LOSS = true) := by
    simp [hbooted, hphase, hsupplied]
  exact ⟨_, _, if_neg hlive, rfl⟩

theorem State.vinLoss_reads {mv : Nat} (hbooted : s.boot.phase = 3) (hphase : s.pwPhase ≠ pwShutdown)
    (hsupplied : s.on F.PWR_STATUS_SUPPLY_LOSS = false) :
    (s.vinLoss mv).mem = [] ∧ (s.vinLoss mv).modState = stDeep ∧ (s.vinLoss mv).rd F.PWR_STATUS_PHASE = pwShutdown := by
  obtain ⟨t, cause, hloss, hmem⟩ := s.vinLoss_lost (mv := mv) hbooted hphase hsupplied
  rw [hloss]
  refine ⟨(t.showFreq_settled_mem _ _ _).trans hmem, ?_, ?_⟩
  · rw [State.modState, State.showFreq_rd _ (by decide)]
    exact t.settled_modState (by decide)
  · rw [State.showFreq_rd _ (by decide)]
    exact t.settled_phase (by decide)

theorem State.shutDone_mem : s.shutDone.mem = s.mem := by
  unfold State.shutDone
  split
  · rw [State.wr_mem, State.wr_mem]
  · rfl

/-- VIN that returns during the shut-down ends it and waits for VIN_PRESENT. -/
theorem execVinReturn_shutdown (hphase : s.pwPhase = pwShutdown) :
    ∃ t, exec .vinReturn s = .next t ∧ t.boot.phase = 1 ∧ t.boot.cause = 0x12 ∧ t.mem = s.mem := by
  refine ⟨_, congrArg Host.Outcome.next (if_pos hphase), rfl, rfl, ?_⟩
  exact (s.bump F.PWR_SUPPLY_RETURNS_DURING_SHUTDOWN).shutDone_mem

/-- Units switched off leave memory, the NOR and the boot phase. -/
theorem State.switchedOff_frame (l : List Nat) :
    (l.foldl (fun (t : State) u => t.setUstate u US.off) s).mem = s.mem ∧
      (l.foldl (fun (t : State) u => t.setUstate u US.off) s).img = s.img ∧
      (l.foldl (fun (t : State) u => t.setUstate u US.off) s).boot = s.boot :=
  List.foldlRecOn (motive := fun t : State => t.mem = s.mem ∧ t.img = s.img ∧ t.boot = s.boot) _ _ ⟨rfl, rfl, rfl⟩
    fun t ⟨hmem, himg, hboot⟩ u _ =>
      ⟨(t.setUstate_mem u _).trans hmem, (t.setUstate_img u _).trans himg, (t.setUstate_boot u _).trans hboot⟩

/-- A module that is off has no memory, keeps the NOR and is in no boot phase. -/
theorem State.allOff_frame : s.allOff.mem = [] ∧ s.allOff.img.nor = s.img.nor ∧ s.allOff.boot.phase = 0 := by
  unfold State.allOff
  extract_lets reset castle power boot fresh cleared off
  obtain ⟨hmem, himg, hboot⟩ := cleared.switchedOff_frame cleared.unitList
  obtain ⟨hshownMem, hshownImg, hshownBoot⟩ := off.showFreq_setModState_frame stDeep 0
  rw [hshownMem, hshownImg, hshownBoot, hmem, himg, hboot]
  exact ⟨rfl, rfl, rfl⟩

/-- VHOLD below its minimum without VAON is recorded, and the module is off. -/
theorem execHoldupLow_exhausted {mv : Nat} (hvaon : s.pwr.vaon = false) (hlow : mv < s.rd F.PWR_HOLDUP_CFG_VHOLD_MIN_MV) :
    exec (.holdupLow mv) s =
      .next ((((s.wr F.PWR_HOLDUP_VHOLD_MV mv).wr F.MODULE_STATE_LAST_CAUSE 0x13).event 0xE000 0x8004 mv []).allOff) :=
  congrArg Host.Outcome.next (if_pos ⟨hvaon, hlow⟩)

/-- The counter and VHOLD agree where charge is left and VHOLD is not below its minimum. -/
theorem execHoldupDisagree_agree {mv : Nat} {left : Int} (hbank : s.boot.holdup = true)
    (hcounter : s.rd F.PWR_HOLDUP_CFG_CHARGE_FULL_MC ≠ 0) (hleft : 0 < left) (hvhold : s.rd F.PWR_HOLDUP_CFG_VHOLD_MIN_MV ≤ mv) :
    exec (.holdupDisagree mv left) s = .next ((s.wr F.PWR_HOLDUP_VHOLD_MV mv).wr F.PWR_HOLDUP_CHARGE_LEFT_MC (satI 24 left)) := by
  have hchecked : ¬ (s.boot.holdup = false ∨ s.rd F.PWR_HOLDUP_CFG_CHARGE_FULL_MC = 0) := by simp [hbank, hcounter]
  change execHoldupDisagree mv left s = _
  unfold execHoldupDisagree
  dsimp only
  rw [if_neg hchecked, if_neg (by omega)]

/-- VHOLD at its full level sets FULL and clears DISAGREE. -/
theorem execHoldupFull_charged {mv : Nat} (hbank : s.boot.holdup = true) (hfull : s.rd F.PWR_HOLDUP_CFG_VHOLD_FULL_MV ≤ mv) :
    ∃ t, exec (.holdupFull mv) s = .next t ∧ t.rd F.PWR_HOLDUP_FULL = 1 ∧ t.rd F.PWR_HOLDUP_DISAGREE = 0 ∧ t.mem = s.mem := by
  refine ⟨_, congrArg Host.Outcome.next (if_pos ⟨hbank, hfull⟩), ?_, ?_, ?_⟩
  · rw [State.rd_wr_beside _ F.PWR_HOLDUP_DISAGREE F.PWR_HOLDUP_FULL _ rfl rfl rfl, State.rd_wr_at _ F.PWR_HOLDUP_FULL _ rfl]
    rfl
  · rw [State.rd_wr_at _ F.PWR_HOLDUP_DISAGREE _ rfl]
    rfl
  · rw [State.wr_mem, State.wr_mem, State.wr_mem, State.wr_mem]

/-- Settles O33: the entries and wakes, the loops and the supplies, each by its lemma. -/
theorem powerComplete : Obligations.PowerComplete := by
  refine ⟨fun r d s htrusted => congrArg Host.Outcome.next (s.voteWrite_trusted htrusted),
    fun code s hhandshake hdelays => congrArg Host.Outcome.next (s.entryDelayed_of_delaying hhandshake hdelays),
    fun s hhandshake hallow htarget => congrArg Host.Outcome.next (s.entryCommit_park hhandshake hallow htarget), ?_,
    fun s hpin => congrArg Host.Outcome.next (if_pos hpin), fun s htimer hset hasleep => congrArg Host.Outcome.next (if_pos ⟨htimer, hset, hasleep⟩),
    fun s => congrArg Host.Outcome.next s.pwrWrite_wake, fun crcFail s hwaking hpark => execWakeComplete_park s hwaking hpark,
    fun k s hstep => congrArg Host.Outcome.next (s.vfDone_of_step hstep),
    fun r d s htrusted => congrArg Host.Outcome.next (s.pwrWrite_opp htrusted), ?_, fun s => rfl,
    fun s hactive => congrArg Host.Outcome.next (if_pos hactive), fun p s hstate => congrArg Host.Outcome.next (if_pos hstate), ?_,
    fun s => rfl, fun s hphase => execVinReturn_shutdown s hphase, ?_,
    fun mv left s hbank hcounter hleft hvhold => execHoldupDisagree_agree s hbank hcounter hleft hvhold,
    fun mv s hbank hfull => execHoldupFull_charged s hbank hfull, fun rail s hrail => congrArg Host.Outcome.next (if_neg hrail),
    fun s => rfl, fun s hpark => congrArg Host.Outcome.next (if_pos hpark), fun s => rfl, fun s => rfl⟩
  · intro s hentering hheld htarget
    exact ⟨_, rfl, rfl, s.entryEnd_park_reads hentering hheld htarget⟩
  · intro mw s hidle hstate
    exact congrArg Host.Outcome.next (if_pos ⟨by rw [hidle]; rfl, hstate⟩)
  · intro mv s hbooted hphase hsupplied
    exact ⟨_, rfl, rfl, s.vinLoss_reads hbooted hphase hsupplied⟩
  · intro mv s hvaon hlow
    obtain ⟨hmem, himg, hboot⟩ := (((s.wr F.PWR_HOLDUP_VHOLD_MV mv).wr F.MODULE_STATE_LAST_CAUSE 0x13).event 0xE000 0x8004 mv []).allOff_frame
    refine ⟨_, execHoldupLow_exhausted s hvaon hlow, hboot, himg.trans ?_, hmem⟩
    rw [State.event_img, State.wr_img, State.wr_img]

end Sys2Proof.Machine
end
